-- ==== Sys2Proof/Syntax.lean ====
section
/-! DEFINITION. The commands of the block: one constructor per row of the opcode table, in the table's
order, with the operands that the row's event, access or packet brings from outside the device. -/

namespace Sys2Proof

/-! ## Operand types -/

/-- The two command channels (R519, R521). -/
inductive Chan where
  | ring | spi
  deriving DecidableEq, Repr

/-- What every command packet brings beside its opcode (Table 19.1): its channel, its session ID (0 is the HOST context,
R25), its sequence, its parameter bytes as delivered, and its 16-byte tag trailer, the first byte most significant
(R33, R516). A command's typed operands spell the same parameter bytes (`Instr.packet`). -/
structure Req where
  chan : Chan
  session : BitVec 16
  seq : BitVec 32
  params : List Byte
  tag : BitVec 128
  deriving DecidableEq, Repr

/-- A requester class of Table 14.1. -/
inductive Cls where
  | V | S | F | H | D | G
  deriving DecidableEq, Repr

/-- What begins a cold reset (R7): the first power-good of VCORE, or RESET_N held low for some ns. -/
inductive ColdCause where
  | powerGood
  | resetN (lowNs : Nat)
  deriving DecidableEq, Repr

/-- One raw read of a fuse word: the data, the outcome of its check bits, and the corrected data. -/
structure FuseRead where
  data : Word
  ecc : Fin 3          -- 0 no error, 1 corrected, 2 uncorrectable
  corrected : Word
  deriving DecidableEq, Repr

/-- The three reads of one fuse word (R114): normal, margin-low and margin-high. -/
structure FuseTriple where
  n : FuseRead
  lo : FuseRead
  hi : FuseRead
  deriving DecidableEq, Repr

/-- A firmware image as start-up step 4 or FW_LOAD finds it (R111, R529): its length, the 64-byte public key it brings,
whether its signature verifies under that key, its security version and its version. -/
structure FwImage where
  len : Nat
  pub : List Byte
  sigOk : Bool
  svn : Nat
  version : Word
  deriving DecidableEq, Repr

/-- What wakes an armed lane in SENTRY (R173): a classical frame, a wake-up pattern, LIN activity. -/
inductive LaneWakeEvt where
  | frame (ide : Bool) (id : BitVec 29) (dlc : BitVec 4) (data : BitVec 64)
  | wup
  | linBreak
  | t1sWake
  | frameErrors
  deriving DecidableEq, Repr

/-- A request on the spine: its first address, its words, and the byte enables of each word; a word without
a listed enable has every byte enabled. Of a read only the number of words counts. -/
structure Access where
  addr : Nat
  words : List Word
  enables : List (BitVec 4)
  deriving DecidableEq, Repr

/-- A command APDU of a reader (R402, R415). -/
inductive Apdu where
  | selectApp (aid : List Byte)
  | selectFile (fid : BitVec 16)
  | read (off : BitVec 16) (le : Byte)
  | update (off : BitVec 16) (data : List Byte)
  deriving DecidableEq, Repr

/-- Where a request is addressed (R488, R491): a spine address, or an offset in one of the two PCIe windows. -/
inductive Target where
  | spine | bar0 | bar2
  deriving DecidableEq, Repr

/-- A configuration command marked † in Tables 19.4 to 19.6, with its parameters: what such a command
carries, and what a record of the INSTALLER map holds (R532). Images are register words. -/
inductive Cfg where
  | lane (lane : BitVec 8) (img : List Word)
  | port (port : BitVec 8) (img : List Word)
  | phyWrite (phy clause dev : BitVec 8) (reg value : BitVec 16)
  | tblWrite (table flags pmask : BitVec 8) (index : Word) (entry : List Word)
  | sw (kind : BitVec 8) (index : BitVec 16) (img : List Word)
  | pol (policer : BitVec 16) (img : List Word)
  | sch (egr kind : BitVec 8) (img : List Word)
  | gates (egr nent en : BitVec 8) (offsetUs : Word) (entries : List Word)
  | beat (len dom align : BitVec 8)
  | time (index : BitVec 8) (img : List Word)
  | la (prof : BitVec 16) (img : List Word)
  | entry (holdS : BitVec 16) (start stop unlock lock : List Word)
  | tt (tracker : BitVec 8) (img : List Word)
  | angEvt (first count : BitVec 8) (entries : List (Word × Word))
  | fb (kind index : BitVec 8) (img : List Word)
  | hlb (node : BitVec 16) (kind ports : BitVec 8) (domain : Word) (keyslot : BitVec 16)
  deriving DecidableEq, Repr

/-- The parameters of SCH_CONFIG (Table 19.4): KIND 1 is a gate list, the other kinds are register images. -/
inductive SchParam where
  | images (kind : BitVec 8) (img : List Word)
  | gates (nent en : BitVec 8) (offsetUs : Word) (entries : List Word)
  deriving DecidableEq, Repr

/-! ## Frames -/

/-- The content of a frame in the canonical form of Table 11.1. -/
inductive Content where
  | eth (bytes : List Byte)
  | can (id : BitVec 29) (ide fdf brs esi : Bool) (dlc : BitVec 4) (data : List Byte)
  | xl (prio : BitVec 11) (sdt vcid : Byte) (af : Word) (sec : Bool) (data : List Byte)
  | lin (pid : Byte) (data : List Byte)
  deriving DecidableEq, Repr

/-- A launch time: domain code as TIME_CAP.STAMP_DOM (3 is local time) and nanoseconds (R306). -/
structure LaunchAt where
  dom : Fin 4
  ns : Nat
  deriving DecidableEq, Repr

/-- A frame arriving at an ingress (R250): its content, whether the line's checks pass, and what an HP or
PP descriptor adds. `stuck` says that the pipeline stops making progress in it, before (false) or after (true) its
decision, so that it neither commits nor is abandoned until the pipeline is reset (R254). `prof` names a transmit profile (R371). `lock` is set by the bridge alone: the semaphore a
LOCK descriptor acquired for the frame, with its generation (R495). -/
structure RxFrame where
  ing : Fin 106
  content : Content
  ok : Bool
  stuck : Option Bool
  pipe : Fin 4
  colour : Fin 3
  launch : Option LaunchAt
  prof : Option (BitVec 10)
  lock : Option (Nat × Nat)
  deriving DecidableEq, Repr

/-! ## Update messages -/

/-- An update message (Table 12.5), field by field; fields that are byte strings on the wire are lists of bytes. `commitOk`
is no field: it says whether the slot commit of R344 succeeds. -/
structure KeyMsg where
  ver : Byte
  op : Byte
  target : BitVec 16
  auth : BitVec 16
  rsv6 : BitVec 16
  ucnt : Word
  attr : Word
  uid : BitVec 128
  iv : List Byte
  klen : BitVec 16
  rsv2E : BitVec 16
  eph : List Byte
  key : List Byte
  tag : List Byte
  sig : List Byte
  commitOk : Bool
  deriving DecidableEq, Repr

/-! ## Cipher jobs, HP descriptors, Helber frames -/

/-- A bulk job descriptor (Table 13.3). -/
structure BulkDesc where
  mode : Byte
  flags : Byte
  taglen : Byte
  kgen : Byte
  jobId : Word
  src : BitVec 64
  dst : BitVec 64
  len : Word
  aadlen : BitVec 16
  slot : BitVec 16
  aad : BitVec 64
  iv : BitVec 128
  tag : BitVec 64
  deriving DecidableEq, Repr

/-- An HP transmit descriptor (Table 18.5), as 32-bit words. -/
structure HpDesc where
  buf : BitVec 64
  len : BitVec 16
  ftype : Byte
  flags : Byte
  prof : BitVec 16
  rsvd : BitVec 16
  hostchk : Word
  tag : Word
  ltime : BitVec 64
  deriving DecidableEq, Repr

/-- What a failed DMA read piece served (R499): a transmit descriptor, a bulk job, the fetch of a command packet, or
another ring operation. -/
inductive DmaOp where
  | hpTx (desc : HpDesc)
  | job (e : Fin 2)
  | fetch
  | other
  deriving DecidableEq, Repr

/-- The payload of a Helber frame, by type (Table 20.2). A FORWARD frame carries frame record bytes and the
carried bytes; the device keeps the frame's content in the form of `Content`. -/
inductive HlbBody where
  | hello (uid : BitVec 128) (kind mode major minor : Byte) (epoch : Word) (digest : BitVec 64)
      (lock : BitVec 4) (epochMin revSeq : Word)
  | forward (time : BitVec 64) (node : BitVec 12) (ing : Byte) (content : Content) (carry : Word)
  | query (table pipe : Byte) (index : Word) (key : BitVec 64)
  | queryRsp (found : Bool) (entry : List Word)
  | push (id : Word) (kind : Byte) (offset : Word) (data : List Byte)
  | pushAck (id : Word) (missing : List Nat)
  | pull
  deriving DecidableEq, Repr

/-- A received Helber frame (R540, R541): its header fields, whether they are well formed, its 16-byte CMAC trailer, the
first byte most significant (a FORWARD frame has none), and the station address it comes from, as node and port, where
its source is one (R539). -/
structure HlbFrame where
  formOk : Bool
  src : BitVec 12
  dst : BitVec 16
  domain : Word
  seq : Word
  tag : BitVec 128
  station : Option (BitVec 12 × Fin 8)
  body : HlbBody
  deriving DecidableEq, Repr

/-! ## Background services and the beat (chapters 5 and 21) -/

/-- The word in which scrub finds an uncorrectable error (Table 21.2). A frame is named by its handle; `k` is the cell
of it whose header failed, `both` says that both copies did. Table codes are those of TBL_WRITE. -/
inductive UeWord where
  | pkt (h : Option Nat)
  | pkth (h : Option Nat) (k : Nat) (both : Bool)
  | cmem
  | entry (table : Fin 6) (pipe : Fin 4) (place : Nat)
  | policer (n : Fin 4096)
  | shaper (egr : Fin 104) (q : Fin 8)
  | gate (egr : Fin 104)
  | rsq (stream : BitVec 12) (egr : Fin 106)
  | tagPage (page : Fin 512)
  | vault
  deriving DecidableEq, Repr

/-- An error that scrub finds: corrected, or uncorrectable at a spine address. -/
inductive ScrubErr where
  | ce
  | ue (addr : BitVec 40) (w : UeWord)
  deriving DecidableEq, Repr

/-- What wear management does with the erase of a sector (R573): 0 ledger ring, 1 log flash, 2 slot store. -/
inductive WearEvt where
  | start (kind : Fin 3)
  | suspend
  | resume
  | finish
  deriving DecidableEq, Repr

/-- The work of one BGS window: words scrubbed and the errors found in them, the trim of the lane and of the ADC
channel that are due (whether it lies in range), erases, and 64 entries of the ledger chain (the place among them at
which it is broken, if it is). -/
structure BgsWork where
  scrub : Nat
  errors : List ScrubErr
  lane : Option Bool
  adc : Option Bool
  wear : List WearEvt
  chain : Option (Option Nat)
  deriving DecidableEq, Repr

/-- What the device meets at a beat boundary: the tasks that still hold work of the ended beat (R138), what the REFILL
and GATE tasks of the new beat will not reach (policers, shapers as egress * 8 + queue, egresses), the gauges that no
state of the block gives (die temperatures, VBAT in 10 mV, VCORE, FW cycles), and the voltages of the monitored lanes
(R587). -/
structure BeatEnv where
  ovTelem : Bool
  ovAge : Bool
  ovFw : Bool
  ovVault : Bool
  polMiss : List Nat
  shMiss : List Nat
  gateMiss : List Nat
  temps : List (BitVec 16)
  vbat : BitVec 16
  vcore : BitVec 16
  fwCycles : BitVec 16
  laneV : List (Nat × Word)
  deriving DecidableEq, Repr

/-! ## What single commands bring -/

/-- A Sync (R141, R142): its domain number, the port it came in at, and the offset from the master in 2^-16 ns. -/
structure SyncMsg where
  num : BitVec 8
  port : Fin 8
  offset : Int
  deriving DecidableEq, Repr

/-- The wake times of a partner's LLDP frame (R203): its transmit wake time, and the receive wake time it asks for. -/
structure WakeTimes where
  tx : BitVec 16
  rx : BitVec 16
  deriving DecidableEq, Repr

/-- What a bulk job reads (R357): the bytes at SRC and at AAD, and the tag it verifies. -/
structure JobInput where
  src : List Byte
  aad : List Byte
  tag : List Byte
  deriving DecidableEq, Repr

/-- A run of 4,096-byte sectors (R367): how many, and their bytes. -/
structure Sectors where
  count : Nat
  src : List Byte
  deriving DecidableEq, Repr

/-- A command APDU, and whether its processing is not complete after 4.5 ms (R408). -/
structure ApduCmd where
  apdu : Apdu
  slow : Bool
  deriving DecidableEq, Repr

/-- A blob that HLB_PUSH reads (R554): its bytes, and of a firmware blob the image they are. -/
structure Blob where
  data : List Byte
  img : Option FwImage
  deriving DecidableEq, Repr

/-! ## The commands -/

/-- The commands of the block, one for each row of the opcode table. -/
inductive Instr where
  /-- RESET_N assertion or first VCORE power-good after off resets the core, closes sessions, clears STAT counters and starts start-up from step 0 (R7). -/
  | coldReset (cause : ColdCause)
  /-- A reset ordered by the power manager or by command while VCORE stays in range runs start-up without fuse reads or strap sampling (R109). -/
  | warmReset
  /-- Start-up step 0 releases core reset, samples straps after a cold reset and locks the PLL, halting if lock fails (R107). -/
  | startupPg (straps : BitVec 4) (pllLocked rbiasOk : Bool)
  /-- Start-up step 1 triple-reads all 128 fuse words and resolves each as clean, MARGINAL or INVALID (R114). -/
  | startupFuse (reads : List FuseTriple) (temp : Int)
  /-- Start-up step 2 runs the vault lockstep, memory and known-answer tests, halting after two failures (R107). -/
  | startupSelftest (firstOk secondOk : Bool)
  /-- Start-up step 3 checks root presence, rebuilds the slot store and derives KS001 to KS004, or records a missing root (R124). -/
  | startupRoot (rootOk checkOk storeOk : Bool)
  /-- Start-up step 4 reads and checks the firmware slots, falling back to the other slot or the recovery service (R111). -/
  | startupFw (a b : FwImage)
  /-- Start-up step 5 verifies and applies the INSTALLER map, places table entries and releases the lanes (R112). -/
  | startupLanes (mapOk : Bool)
  /-- Start-up step 6 checks the ledger tail chain, voids an interrupted position, writes RESET closes and late interval closes (R441). -/
  | startupLedger (chainBreak : Option Nat) (tailDirty : Bool)
  /-- Start-up step 7 enters the mode derived from the recorded mode and opens the command channels (R75). -/
  | startupMode
  /-- An NFC field in DORMANT or SENTRY sets the FIELD wake cause and starts the rail phase or the entry island (R77). -/
  | fieldWake (vbat : Nat)
  /-- PWR_ALARM counting down to zero fires the ALARM wake source when armed (R106). -/
  | alarmWake
  /-- A VBAT sample on the 250 ms grid fires VBAT_RISE when it exceeds an earlier sample of the last second by more than 1.0 V (R76). -/
  | vbatRiseSample (mv : Nat)
  /-- A WAKE_IN pin held at its active level for 50 us in SENTRY fires its armed wake source (R76). -/
  | winWake (pin : Fin 4)
  /-- An armed lane meeting its wake condition in SENTRY raises the LANE wake and records the lane, identifier and data (R173). -/
  | laneWake (lane : Fin 96) (evt : LaneWakeEvt)
  /-- A short on an armed lane in SENTRY stops its wake receiver and sets WAKE_FLT (R174). -/
  | wakeReceiverShort (lane : Fin 96)
  /-- BK_PGn rising ends a rail's wait and, after 200 us, the next rail of the order is enabled (R79). -/
  | railPowerGood (rail : Fin 5)
  /-- A rail missing its 5 ms bound is retried, recorded in PWR_RAIL.FAIL, or sends the device to QUARANTINE with cause RAIL (R80). -/
  | railTimeout (rail : Fin 5)
  /-- 10 ms after a failed bring-up of rail 0 or 1 the power manager retries the rail phase (R80). -/
  | railRetry
  /-- BK_PGn falling for over 5 us on an enabled rail causes brown-out, QUARANTINE or spill loss by rail (R81). -/
  | railLoss (rail : Fin 5)
  /-- VBAT below BROWN for 5 us or VCORE below 0.700 V sets actuators safe, zeroes shared keys, turns lanes off and enters DORMANT (R97). -/
  | brownOut
  /-- The VBKP domain supply falling below 2.0 V records a VBKP loss and zeroes the root and VBKP fields (R82). -/
  | vbkpLoss
  /-- VBAT below SHED for 1 us turns off every lane front-end without CRANK_KEEP and drops their queued frames (R84). -/
  | laneShed
  /-- VBAT at or above 4.8 V for 1 ms returns shed lanes with their configuration intact (R84). -/
  | laneShedReturn
  /-- VBAT reaching 4.5 V in APPROACH under LOW_ENERGY brings up the rails and resumes start-up at step 4 (R102). -/
  | lowEnergyClear (mv : Nat)
  /-- A VCORE or VBAT sag sensor trip halves fclk within 20 ns and counts in PWR_SAG_CNT (R86). -/
  | sagTrip (vcore : Bool)
  /-- Each 10 us that a sag sensor stays tripped halves fclk again, down to 50 MHz (R86). -/
  | sagHalve
  /-- A sag sensor rising past its hysteresis releases and the quiet-beat count starts (R86). -/
  | sagRelease (vcore : Bool)
  /-- SENTRY_DWELL elapsing without a wake moves SENTRY to DORMANT (R71). -/
  | sentryDwellExpiry
  /-- VBAT below PARK for 60 s in SENTRY moves the device to DORMANT (R71). -/
  | parkTimeout
  /-- APPROACH_IDLE elapsing with no field, session, credential or command moves APPROACH to SENTRY when preconditions hold (R71). -/
  | approachIdleExpiry
  /-- No INSTALLER session for 600 s in SERVICE returns the device to APPROACH (R71). -/
  | serviceIdleTimeout
  /-- No OPERATOR or MAKER session for 600 s in DEPOT returns the device to APPROACH (R71). -/
  | depotIdleTimeout
  /-- The configured start frame moves RENTED to DRIVE when the trip permits driving, the bolt is released and VBAT is at or above ACT (R71). -/
  | driveStartRequest (lane : Fin 96) (ide : Bool) (id : BitVec 29) (data : BitVec 64)
  /-- The configured stop frame moves DRIVE to RENTED at standstill (R71). -/
  | driveStopRequest (lane : Fin 96) (ide : Bool) (id : BitVec 29) (data : BitVec 64)
  /-- Writing 1 to PWR_WAKE_CAUSE.WOUT_ACK releases WAKE_OUT (R78). -/
  | woutAckWrite
  /-- A write to PWR_ALARM starts the countdown phased from the write, or cancels it with 0 (R106). -/
  | pwrAlarmWrite (w : Word)
  /-- A write to PWR_GATE_CLK or PWR_GATE_PWR requests, cancels or refuses gating of blocks (R89). -/
  | gateRequestWrite (pwr : Bool) (w : Word)
  /-- A pending gate on an unheld block takes effect once started normal-world jobs complete (R90). -/
  | gateEffect (block : Fin 14)
  /-- The vault taking a hold ungates a gated block for itself and stops normal-world job starts (R92). -/
  | vaultHold (block : Fin 10)
  /-- The vault releasing a held block lets a pending gate take effect within 1 us and raises GATE_DONE (R91). -/
  | vaultRelease (block : Fin 10)
  /-- At each beat boundary the device checks overruns, increments TIME_BEAT_CNT, latches TELEM and starts REFILL and GATE (R136). -/
  | beatBoundary (env : BeatEnv)
  /-- At 10 % of the beat the AGE and FW tasks start (R136). -/
  | fwWindowStart
  /-- At the start of each age period each pipeline begins a pass and inverts its pass parity (R232). -/
  | agePeriodStart 
  /-- At 85 % of the beat the background services run their shares until the boundary (R567). -/
  | bgsWindowStart (work : BgsWork)
  /-- Every 1,024 beats the telemetry service closes a record, keeps the last 8 and raises TELEM_READY (R574). -/
  | telemRecord
  /-- A 30 degC die temperature move triple-reads the fuse array, adopts tightened SEC bits and flags drift (R118). -/
  | fuseRecheck (reads : List FuseTriple) (temp : Int)
  /-- A Sync from the selected master makes the servo step or slew its domain and update its state (R142). -/
  | syncReceived (dom : Fin 3) (m : SyncMsg)
  /-- No Sync for SYNC_TMO intervals, or a new grandmaster, puts a domain into HOLDOVER (R143). -/
  | syncTimeout (dom : Fin 3) (own : Bool)
  /-- A trigger channel reaching its target launches a frame, starts a conversion or control cycle, or raises TRG_FIRE (R147). -/
  | triggerFire (c : Fin 32)
  /-- A write to TRGc_CFG with ACT other than OFF arms the channel with the held target and period (R158). -/
  | trgcCfgWrite (c : Fin 32) (w : Word)
  /-- A frame received on a lane, port, HP or PP is decided, policed, committed or abandoned and admitted to its queues (R250). -/
  | frameReceive (f : RxFrame)
  /-- A pipeline making no progress for PIPE_US is reset, its ING cells reclaimed and its semaphores released (R254). -/
  | pipeReset (p : Fin 4)
  /-- Charged cells above SPILL_HI make the spill engine move tail frames of the deepest port queue to the spill store (R259). -/
  | spillOut (g : Fin 4)
  /-- The spill engine brings back spilled frames standing within the first 32 of their queue (R261). -/
  | spillReturn (p : Fin 8) (q : Fin 8)
  /-- An egress recomputes the carry check of its head frame into the staging buffer before dequeue (R322). -/
  | carryVerify (egr : Fin 106) (q : Fin 8) (corrupt : Option (List Byte))
  /-- When an egress may start a frame the scheduler picks an eligible queue by strict priority and weighted round-robin (R298). -/
  | egressPick (egr : Fin 106)
  /-- A CAN frame losing arbitration or ending in error stays at its queue head and the lane picks again (R299). -/
  | canArbitrationEnd (lane : Fin 96) (error : Bool)
  /-- The oldest held frame reaching TMO_US steps the context and releases consecutive held frames (R267). -/
  | rsqTimeout (stream : BitVec 12) (egr : Fin 106)
  /-- A resequencer context with nothing held is freed after 1 s without an arrival (R265). -/
  | rsqContextExpiry (stream : BitVec 12) (egr : Fin 106)
  /-- A launch-timed head frame becomes eligible at the first tick at or after its launch time (R306). -/
  | launchTimeReached (egr : Fin 104) (q : Fin 8)
  /-- A frame not started by its launch time plus WINDOW_NS is dropped or sent late (R307). -/
  | launchMiss (egr : Fin 104) (q : Fin 8)
  /-- A CAN probe ends on one error-free frame or after 50 ms without reversal evidence, and the lane enters ACTIVE (R168). -/
  | laneProbeEnd (lane : Fin 96)
  /-- A detected short, thermal, dominant or stuck fault turns the transmitter off, flushes queues and enters FAULT (R176). -/
  | laneFaultDetect (lane : Fin 96) (code : Fin 10)
  /-- An OPEN fault sets its flag and raises LANE_FAULT while the lane keeps its state (R177). -/
  | laneOpenDetect (lane : Fin 96)
  /-- Reversal evidence on a CAN lane swaps H and L roles with SWAP_EN or faults the lane without it (R178). -/
  | laneReversal (lane : Fin 96)
  /-- A lane in FAULT observes itself for 1 ms every RETRY_MS and returns, counts a retry or latches (R179). -/
  | laneRetry (lane : Fin 96) (present : BitVec 9)
  /-- A lane free of faults for 1 s after returning has RETRIES set to 0 (R179). -/
  | laneFaultFree (lane : Fin 96)
  /-- After BO_DELAY and 128 runs of 11 recessive bits a bus-off CAN lane returns to error-active (R162). -/
  | busOffRecovery (lane : Fin 96)
  /-- A LIN master sends the next scheduled header at the first beat boundary at or after its slot start (R163). -/
  | linHeader (lane : Fin 96)
  /-- A LIN header is answered with the oldest queued frame of a published identifier, or a missing response is counted (R300). -/
  | linResponse (lane : Fin 96) (id : Fin 64) (rate : BitVec 16) (missing : Bool)
  /-- A follower seeing no beacon for 4 cycles falls back to CSMA/CD and sets PLCA_FALLBACK (R165). -/
  | plcaFallback (lane : Fin 96)
  /-- A T1S collision is counted and the frame backs off, retries or is dropped for excess or late collision (R200). -/
  | collision (lane : Fin 96) (late : Bool)
  /-- The random back-off of a collided T1S frame ends and the frame is retried (R199). -/
  | backoffExpiry (lane : Fin 96)
  /-- 10 ms after PHY_RST_N release the port counts as up (R192). -/
  | portUpDelay (p : Fin 4)
  /-- A PCS or PHY link change sets LINK and on loss flushes queues and clears pause and LPI state (R194). -/
  | linkChange (p : Fin 8) (up : Bool) (speed : Fin 6)
  /-- PHY_INT_Nn prompts the control firmware to read the status of external PHY n (R191). -/
  | phyInt (n : Fin 4)
  /-- A honoured pause or PFC frame pauses its scope for the received quanta or ends it with quanta 0 (R207). -/
  | pauseReceived (p : Fin 8) (pfc : Bool) (en : BitVec 8) (quanta : List (BitVec 16))
  /-- A received pause time runs out and the scope resumes (R207). -/
  | pauseExpiry (p b : Fin 8)
  /-- A received pause lasting WD_MS is broken, ignored for IGNORE_MS and reported (R209). -/
  | pauseWdRx (p b : Fin 8)
  /-- The end of an ignore period makes pause frames for the scope honoured again (R209). -/
  | pauseIgnoreEnd (p b : Fin 8) (tx : Bool)
  /-- A generated pause asserted for WD_MS is broken with quanta 0 and suppressed for IGNORE_MS (R210). -/
  | pauseWdTx (p b : Fin 8)
  /-- While flow control is asserted the MAC resends a pause each half TX_QUANTA time (R208). -/
  | pauseRefresh (p b : Fin 8)
  /-- Every 30 s the LLDP agent sends the EEE TLV of an LPI-capable port (R203). -/
  | lldpSend (p : Fin 8)
  /-- A partner LLDP frame resolves TW_RES and sets AGREED (R203). -/
  | lldpReceive (p : Fin 8) (w : WakeTimes)
  /-- Partner LLDP information ageing out clears AGREED and takes the transmitter out of LPI (R203). -/
  | lldpAgeOut (p : Fin 8)
  /-- All egress queues empty for IDLE_US with AGREED set puts the transmitter into LPI (R204). -/
  | lpiEnter (p : Fin 8)
  /-- The transmitter leaves LPI TW_RES before a gate opening or launch, or when a frame becomes eligible (R205). -/
  | lpiExit (p : Fin 8)
  /-- A tamper source zeroes the root, keys and vault memory, closes sessions and quarantines the device (R332). -/
  | tamper (src : Fin 6)
  /-- A failed entropy health test stops random output and raises RNG_FAIL until a reseed passes (R333). -/
  | rngFail (reseedOk : Bool)
  /-- Advancing CIPH_SQ_TAIL submits normal-world jobs, completed at once with BUSY while gated or pending (R365). -/
  | ciphSqTailWrite (e : Fin 2) (idx : BitVec 12) (jobIds : List Word)
  /-- A bulk engine takes a job, checks its address ranges and key generation and starts it (R360). -/
  | bulkJobStart (e : Fin 2) (vault : Bool) (desc : BulkDesc)
  /-- A finished bulk job writes its completion, with AUTH_FAIL and UNTRUSTED on a GCM tag mismatch (R357). -/
  | bulkJobComplete (e : Fin 2) (m : JobInput)
  /-- A write of CIPH_KCTL.KLEN zeroes the key words, clears LOADED and sets the key length (R359). -/
  | ciphKctlWrite (e : Fin 2) (w : Word)
  /-- A key-word write loads the key when all words of its length are written, setting LOADED and incrementing KGEN (R359). -/
  | ciphKeywWrite (e : Fin 2) (k : Fin 8) (w : Word)
  /-- A vault STORE job encrypts or decrypts 4,096-byte sectors under XTS (R367). -/
  | storeJob (slot : BitVec 9) (first : BitVec 64) (run : Sectors) (decrypt : Bool)
  /-- An engine watchdog stops a stalled job or an idle hold, zeroes key-bus keys, clears the hold and resets the engine (R374). -/
  | engineWd (e : Fin 4)
  /-- On a key cache miss the vault delivers the profile key within 20 us, displacing the least recently used key (R372). -/
  | laneauthKeyLoad (prof : BitVec 10)
  /-- Every 4,096 beats and on orderly sleep the vault saves each profile's L and T to the log flash (R373). -/
  | laSave
  /-- At a field session the vault writes a new CHALLENGE and sets STATE to READY (R414). -/
  | fieldSessionStart 
  /-- The tag engine answers a SELECT, READ BINARY or UPDATE BINARY APDU within an exchange window (R402). -/
  | nfcApdu (x : ApduCmd)
  /-- The close of an exchange window completes a held wired tag access with RETRY (R409). -/
  | exchangeWindowClose 
  /-- A wired access to tag memory completes, or is held behind an open exchange window (R409). -/
  | tagWiredAccess (c : Cls) (write : Bool) (acc : Access)
  /-- A submitted credential is checked in order and acted on, writing RESULT and RECEIPT (R418). -/
  | credentialCheck (vbkp field vbat : Nat)
  /-- A challenge 10 s old while STATE is READY is replaced at once (R414). -/
  | nfcChallengeExpiry 
  /-- The field below 1.5 A/m for 2 s under LOW_ENERGY declares a brown-out (R407). -/
  | fieldLossTimeout
  /-- VBAT reaching ACT within HOLD_S reruns checks 9 and 10 of a pending grant and acts on OK (R422). -/
  | pendingGrantRun 
  /-- A pending grant is discarded at the end of HOLD_S (R422). -/
  | pendingGrantExpiry 
  /-- A credential path's lockout ends and credentials are checked again (R419). -/
  | credLockoutEnd (host : Bool)
  /-- A role's SESSION_OPEN lockout expires (R32). -/
  | sessionLockoutEnd (role : Fin 4)
  /-- A session challenge expires 30 s after issue (R29). -/
  | sessionChallengeExpiry (role : Fin 4)
  /-- No accepted request for IDLE_S seconds closes the session with reason IDLE (R37). -/
  | sessionIdleTimeout (role : Fin 4)
  /-- A session closes with reason LIFETIME 8 h after it opened (R37). -/
  | sessionLifetime (role : Fin 4)
  /-- A queued ledger entry is programmed, verified and committed with its head in the VBKP domain (R440). -/
  | ledgerCommit (programOk : Bool)
  /-- Ledger time reaching L_end closes the billing interval and opens the next (R434). -/
  | intervalClose
  /-- Each second of local time the vault moves TRIM towards matching ledger time to local time (R429). -/
  | trimUpdate (periods : Nat)
  /-- After 60 s with refusals, a trip close or orderly sleep the vault writes a DENY_SUMMARY entry (R395). -/
  | denySummary
  /-- A tooth edge is filtered, timestamped and counted, advancing sync, angle, speed and distance (R453). -/
  | toothEdge (n : Fin 6) (width : Nat)
  /-- In TOLERANT mode a missing tooth past its deadline is replaced by a synthetic tooth (R459). -/
  | syntheticTooth (n : Fin 6)
  /-- No tooth for STILL_MS puts a tracker in SYNC back into SEARCH with reason STALL (R460). -/
  | trackerStall (n : Fin 6)
  /-- An open, short or rate fault puts the tracker into FAULT with safe outputs (R454). -/
  | trackerFault (n : Fin 6) (code : Fin 4)
  /-- A fault condition absent for 10 ms returns the tracker to SEARCH (R454). -/
  | trackerFaultClear (n : Fin 6)
  /-- STILL_MS after a tracker's last tooth it stops reporting motion, and standstill may begin (R465). -/
  | motionTimeout (n : Fin 6)
  /-- The interpolated angle reaching an entry's angle fires its SPD, DIST or EVENT action (R468). -/
  | angleEvent (k : Fin 64)
  /-- A feedback conversion completes 2.0 us after its trigger, updating position, amplitude, faults and compares (R471). -/
  | conversionDone (ch : Fin 4) (sin cos theta : BitVec 16)
  /-- LIMIT_MS passing before a move completes drops its drive and sets the bolt to FAULT (R480). -/
  | boltLimit (b : Fin 4)
  /-- An aborted engage or release is retried at the next standstill or after VBAT holds ACT for 1 s (R481). -/
  | boltRetry (b : Fin 4)
  /-- HOLD_S after a key-safe release the vault requests its engage (R482). -/
  | keysafeHoldExpiry
  /-- A PULSE output returns low after PW x 100 ns (R476). -/
  | cmpoPulseEnd (k : Fin 4)
  /-- PE_PERST_N or a lasting link loss abandons DMA, disables rings, resets MSI-X and frees host semaphores (R490). -/
  | bridgeReset 
  /-- A locked read request is answered with Unsupported Request and counted (R489). -/
  | lockedReadTlp 
  /-- A quad-SPI READ transaction returns status and data words from spine addresses (R491). -/
  | spiRead (addr : Word) (count : BitVec 8)
  /-- A quad-SPI WRITE takes effect when all its words are received and HS_CS_N rises (R492). -/
  | spiWrite (addr : Word) (words : List Word)
  /-- A quad-SPI WSTAT returns the status of the last WRITE or CMD_PUT and BRG_STAT (R491). -/
  | wstat 
  /-- A transaction ending early or with an unknown opcode writes nothing and is counted (R492). -/
  | spiAbort 
  /-- A quad-SPI CMD_PUT queues a command packet, or discards it when the queue is full or the length is out of range (R521). -/
  | cmdPut (length : BitVec 16) (opcode session : BitVec 16) (seq : BitVec 32)
  /-- A quad-SPI CMD_GET clocks out the oldest queued response and removes it (R522). -/
  | cmdGet 
  /-- The dispatcher fetches a request from CMD_REQ when the response ring has room (R519). -/
  | cmdRingFetch (opcode session : BitVec 16) (seq : BitVec 32)
  /-- A request with a malformed header, wrong length or unlisted opcode is rejected with BAD_PARAM (R517). -/
  | cmdReject (r : Req) (opcode : BitVec 16) (unlisted : Bool)
  /-- An HP transmit descriptor is read, its frame fetched and handed to its pipeline, and a completion written (R494). -/
  | hpTxDescriptor (desc : HpDesc) (bytes : List Byte) (stuck decided : Bool)
  /-- An HP queue frame is written to the next free buffer and a receive completion posted (R497). -/
  | hpRxDeliver (buf : BitVec 64)
  /-- A DMA read piece failing or timing out completes its operation with RETRY and may set HOST_LOST (R499). -/
  | dmaTimeout (op : DmaOp)
  /-- Writing 1 to HOST_LOST resumes DMA from the oldest waiting descriptor (R511). -/
  | hostLostWrite (c : Cls)
  /-- A pending unmasked source sends its mapped MSI-X vector, at most once per BEATS beats (R508). -/
  | msixSend (vec : Fin 64) (fmask : Bool)
  /-- A write to BRG_SEMk_ACQ takes a free semaphore, renews its own lease or is ignored (R501). -/
  | semAcquire (c : Cls) (k : Fin 16) (owner : BitVec 8)
  /-- A write to BRG_SEMk_REL with matching owner and generation frees the semaphore and increments GEN (R502). -/
  | semRelease (c : Cls) (k : Fin 16) (w : Word)
  /-- A guarded write applies a masked read-modify-write only while the semaphore is held at the given generation (R504). -/
  | semCommit (c : Cls) (k : Fin 16) (w off data mask : Word)
  /-- An expired lease force-releases the semaphore, increments GEN and raises SEM_FORCED (R503). -/
  | semLeaseExpiry (k : Fin 16)
  /-- Each node sends a HELLO on every domain port every 10 ms in a cluster or 1,000 ms in a depot (R543). -/
  | helloSend
  /-- A received Helber frame is checked for format, CMAC and sequence and handled by its type (R541). -/
  | helberReceive (port : Fin 8) (f : HlbFrame)
  /-- No verified HELLO for 3 periods makes a peer LOST (R544). -/
  | peerLostTimeout (node : BitVec 12)
  /-- A peer 60 s in LOST returns to ABSENT (R544). -/
  | peerAbsentTimeout (node : BitVec 12)
  /-- 250 ms after the last segment a receiver sends PUSH_ACK with its missing-segment bitmap (R555). -/
  | pushAckSend (src : BitVec 12) (id : Word) (total : Nat) (img : Option FwImage) (commitOk : Bool)
  /-- The sender resends missing segments for up to 3 rounds and answers HLB_PUSH (R555). -/
  | pushResendRound
  /-- An incomplete blob is discarded 30 s after its last segment (R555). -/
  | blobDiscard (src : BitVec 12) (id : Word)
  /-- A peer advertising a higher REV_SEQ is sent a PULL, at most once every 10 s (R558). -/
  | pullSend (node : BitVec 12)
  /-- A FREEZE_N fall while armed gates every clock, sets pins to Freeze states and starts the timebase shadow (R582). -/
  | freezeEnter
  /-- A FREEZE_N fall while not armed is ignored and counted (R581). -/
  | freezeIgnored
  /-- A FREEZE_N rise restarts the clocks and advances local time, domains, beat count and timers by the shadow (R583). -/
  | freezeExit
  /-- The arming window running out disarms freeze (R580). -/
  | freezeWindowEnd
  /-- The SNAP_ADDR debug instruction loads a 40-bit snapshot address (R584). -/
  | snapAddr (a : BitVec 40)
  /-- The SNAP_DATA debug instruction captures a redacted word without side effects and advances the address (R584). -/
  | snapData
  /-- Writing 1 to an EVT_PENDg bit clears that pending event (R576). -/
  | evtPendWrite (c : Cls) (g : Fin 8) (w : Word)
  /-- Setting an EVT_ENg bit of a pending source delivers it, and clearing it stops delivery (R577). -/
  | evtEnWrite (c : Cls) (g : Fin 8) (w : Word)
  /-- A write to EVT_TEST counts as one occurrence of the named source in SERVICE or DEPOT (R579). -/
  | evtTestWrite (c : Cls) (w : Word)
  /-- Setting CCK_INJECT.ARM in SERVICE or DEPOT inverts bit 0 of the next committed CARRY at the named ingress (R329). -/
  | cckInjectWrite (c : Cls) (w : Word)
  /-- A host read of a two-word STAT low word returns it, copies the high word to the shadow and clears the counter (R11). -/
  | statLowWordRead (c : Cls) (off : BitVec 24)
  /-- A host read of an RC field returns its value and clears it (R2). -/
  | rcRead (c : Cls) (t : Target) (acc : Access)
  /-- A read of TIME_Dn_NS latches the domain's seconds and fraction into their shadows (R146). -/
  | timeNsRead (n : Fin 3)
  /-- A read of LDG_LT_LO, LDG_WALL_LO, ANG_ODO_LO or ANG_TRIP_LO latches its HI register (R451). -/
  | ldgLoRead (c : Cls) (off : BitVec 24)
  /-- A write to a register without a row of its own is applied field by field under its access codes (R2). -/
  | regWrite (c : Cls) (t : Target) (acc : Access)
  /-- SYS_INFO returns identity, UID, lifecycle, mode, cause and firmware versions (R527). -/
  | sysInfo (r : Req)
  /-- SESSION_CHALLENGE returns a fresh 32-byte challenge held for the role (R29). -/
  | sessionChallenge (r : Req) (role : BitVec 8)
  /-- SESSION_OPEN checks the signed answer and opens a role session with a derived key (R30). -/
  | sessionOpen (r : Req) (role : BitVec 8) (idleS : BitVec 16) (challenge : BitVec 256) (uid : BitVec 128) (eph sig : List Byte)
  /-- SESSION_CLOSE closes its own session with reason EXPLICIT (R38). -/
  | sessionClose (r : Req)
  /-- FW_LOAD writes and checks an image into the inactive firmware slot and selects it (R529). -/
  | fwLoad (r : Req) (buf : BitVec 64) (len : Word) (img : FwImage) (readOk : Bool)
  /-- FW_COMMIT raises FW_MIN to the running version and selects the running slot (R530). -/
  | fwCommit (r : Req)
  /-- SYS_RESET delivers its response and then orders a warm reset (R534). -/
  | sysReset (r : Req) (kind : BitVec 8)
  /-- LIFECYCLE_ADVANCE burns the next lifecycle group and adopts the new state (R122). -/
  | lifecycleAdvance (r : Req) (target : BitVec 8)
  /-- MAP_LOAD checks every record, stores the INSTALLER map and applies it at the next boundary (R532). -/
  | mapLoad (r : Req) (buf : BitVec 64) (len : Word) (m : List Cfg) (formOk readOk : Bool)
  /-- MAP_READ copies the stored INSTALLER map to a host buffer (R527). -/
  | mapRead (r : Req) (buf : BitVec 64) (len : Word)
  /-- MODE_SET changes mode along a permitted row under the role's enter and leave rights (R638). -/
  | modeSet (r : Req) (target : BitVec 8)
  /-- BLOCK_GATE requests, cancels or is refused a clock or power gate of a block (R89). -/
  | blockGate (r : Req) (block kind : BitVec 8)
  /-- LANE_CONFIG turns the lane off, flushes it and applies the new configuration at the next boundary (R170). -/
  | laneConfig (r : Req) (lane : BitVec 8) (img : List Word)
  /-- LANE_RECOVER clears RETRIES of a LATCHED lane and starts a retry at once (R180). -/
  | laneRecover (r : Req) (lane : BitVec 8)
  /-- PORT_CONFIG takes the port DOWN, flushes it and applies the configuration at the next boundary (R213). -/
  | portConfig (r : Req) (port : BitVec 8) (img : List Word)
  /-- PHY_READ reads an external PHY register over MDIO (R527). -/
  | phyRead (r : Req) (phy clause dev : BitVec 8) (reg : BitVec 16) (value : Option (BitVec 16))
  /-- PHY_WRITE writes an external PHY register over MDIO (R527). -/
  | phyWrite (r : Req) (phy clause dev : BitVec 8) (reg value : BitVec 16) (answered : Bool)
  /-- TBL_WRITE writes or batches a table entry in the named pipelines (R240). -/
  | tblWrite (r : Req) (table flags pmask : BitVec 8) (index : Word) (entry : List Word)
  /-- TBL_READ returns a committed entry of a named node and pipeline (R243). -/
  | tblRead (r : Req) (table pipe : BitVec 8) (node : BitVec 16) (index : Word) (key : BitVec 64) (rsp : Option (Bool × List Word))
  /-- TBL_DELETE removes an entry from the named pipelines (R239). -/
  | tblDelete (r : Req) (table pmask : BitVec 8) (index : Word) (key : BitVec 64)
  /-- TBL_FLUSH removes non-static or learned entries from the named pipelines (R245). -/
  | tblFlush (r : Req) (pmask flags : BitVec 8)
  /-- TBL_COMMIT applies the whole batch at the next beat boundary (R242). -/
  | tblCommit (r : Req)
  /-- SW_CONFIG changes buffer modes, limits and queue settings at the next boundary (R279). -/
  | swConfig (r : Req) (kind : BitVec 8) (index : BitVec 16) (img : List Word)
  /-- POL_CONFIG configures a policer and refills its buckets at the boundary (R285). -/
  | polConfig (r : Req) (policer : BitVec 16) (img : List Word)
  /-- SCH_CONFIG sets queue scheduling, gate lists or launch settings of an egress (R305). -/
  | schConfig (r : Req) (egr : BitVec 8) (p : SchParam)
  /-- CARRY_REPORT records a host-found carry mismatch and raises INTEGRITY (R327). -/
  | carryReport (r : Req) (time : BitVec 64) (node : BitVec 16) (ing : BitVec 8) (expv got : Word)
  /-- TIME_BEAT_SET schedules a beat-length change at a 500 us boundary (R132). -/
  | timeBeatSet (r : Req) (len dom align : BitVec 8)
  /-- TIME_CONFIG sets a gPTP domain's or the capture configuration (R527). -/
  | timeConfig (r : Req) (index : BitVec 8) (img : List Word)
  /-- KEY_UPDATE checks an update message and writes, generates or invalidates a key slot (R347). -/
  | keyUpdate (r : Req) (msg : KeyMsg)
  /-- KEY_ATTEST returns a KS001-signed statement of a slot (R351). -/
  | keyAttest (r : Req) (slot : BitVec 16) (nonce : BitVec 256)
  /-- ROOT_PROVISION generates a root, derives device keys, erases the slot store and starts a new ledger (R336). -/
  | rootProvision (r : Req)
  /-- LA_CONFIG configures a secured-CAN profile (R368). -/
  | laConfig (r : Req) (prof : BitVec 16) (img : List Word)
  /-- ENTRY_CHALLENGE returns a challenge for the host-radio credential path (R423). -/
  | entryChallenge (r : Req)
  /-- ENTRY_SUBMIT submits a credential through the host radio and returns RESULT and RECEIPT (R423). -/
  | entrySubmit (r : Req) (head token proof : List Byte)
  /-- CRED_REVOKE adds, removes or clears token IDs on the revocation list (R527). -/
  | credRevoke (r : Req) (op : BitVec 8) (tokenId : BitVec 64)
  /-- CRED_EPOCH raises NFC_EPOCH_MIN (R527). -/
  | credEpoch (r : Req) (epoch : Word)
  /-- TRIP_OPEN opens a trip with the DRIVE right and enters RENTED (R531). -/
  | tripOpen (r : Req) (tripRef tokenId : BitVec 64)
  /-- TRIP_CLOSE closes the open trip at standstill (R531). -/
  | tripClose (r : Req) (tripRef : BitVec 64)
  /-- FORCE_LOCK requests an engage of every bolt, deferred in DRIVE (R531). -/
  | forceLock (r : Req)
  /-- IMMOBILISE clears the DRIVE right and sets the immobiliser at the first standstill (R531). -/
  | immobilise (r : Req)
  /-- TRIP_PERMIT sets or clears the open trip's DRIVE right (R531). -/
  | tripPermit (r : Req) (drive : BitVec 8)
  /-- ENTRY_CONFIG sets HOLD_S and the start, stop, unlock and lock frames (R527). -/
  | entryConfig (r : Req) (holdS : BitVec 16) (start stop unlock lock : List Word)
  /-- LDG_READ verifies and returns ledger entries with a KS001 signature (R446). -/
  | ldgRead (r : Req) (first : BitVec 48) (count : BitVec 16) (buf : BitVec 64) (nonce : BitVec 256) (breakAt : Option Nat)
  /-- LDG_BILLING sets PERIOD_S and TARIFF_ID for later intervals (R433). -/
  | ldgBilling (r : Req) (period tariff : Word)
  /-- WALL_SET steps the wall-time offset after committing a TIME_STEP entry (R431). -/
  | wallSet (r : Req) (sec : BitVec 48) (frac : BitVec 16)
  /-- TT_CONFIG sets a tracker's geometry or the standstill and odometer settings (R455). -/
  | ttConfig (r : Req) (tracker : BitVec 8) (img : List Word)
  /-- ANG_EVENT_SET writes angle-event table entries (R467). -/
  | angEventSet (r : Req) (first count : BitVec 8) (entries : List (Word × Word))
  /-- FB_CONFIG sets a feedback channel, the CMPO map or a bolt (R475). -/
  | fbConfig (r : Req) (kind index : BitVec 8) (img : List Word)
  /-- FB_CAL averages 256 conversions and stores NOM (R474). -/
  | fbCal (r : Req) (ch : BitVec 8) (avg : Nat)
  /-- BOLT_MOVE requests a release or engage of a bolt (R479). -/
  | boltMove (r : Req) (bolt dir : BitVec 8)
  /-- HLB_CONFIG sets node ID, domain kind, ports, DOMAIN_ID and key slot and empties the member view (R538). -/
  | hlbConfig (r : Req) (node : BitVec 16) (kind ports : BitVec 8) (domain : Word) (keyslot : BitVec 16)
  /-- HLB_MEMBERS returns non-absent nodes from FIRST in ascending order (R566). -/
  | hlbMembers (r : Req) (first : BitVec 16)
  /-- HLB_PUSH verifies a blob and distributes it as PUSH frames to every node (R554). -/
  | hlbPush (r : Req) (kind : BitVec 8) (buf : BitVec 64) (len : Word) (blob : Blob) (commitOk readOk : Bool)
  /-- FREEZE_ARM arms freeze for WINDOW_S seconds (R580). -/
  | freezeArm (r : Req) (window : BitVec 16)
  /-- FREEZE_DISARM ends freeze arming (R580). -/
  | freezeDisarm (r : Req)
  /-- DIAG_LOOPBACK places a lane or port in MAC or line loopback, or ends it (R586). -/
  | diagLoopback (r : Req) (target kind : BitVec 8)
  /-- TELEM_READ copies the newest telemetry record to a host buffer (R574). -/
  | telemRead (r : Req) (buf : BitVec 64)
  /-- The end of a frame's transmission at a lane or port egress counts it, decrements REFCNT or frees its cells, and may end flow control (R269). -/
  | frameTransmitEnd (egr : Fin 106) (converted : Bool) (back : Content)
  /-- A PLCA beacon seen by a follower T1S lane clears PLCA_FALLBACK and opens its transmit opportunity cycle (R165). -/
  | plcaBeacon (lane : Fin 96)
  /-- The NFC field falling below the operating threshold ends the field session, expires its challenge and clears ACTIVE (R414). -/
  | fieldSessionEnd 
  /-- FBn_EXC drawing above 30 mA for 10 us faults the channel with EXC, drives its CMPO outputs low and ends any bolt move (R473). -/
  | excOverload (ch : Fin 4)
  /-- Link training after PE_PERST_N rises brings the PCIe link to L0, setting BRG_STAT LINK, WIDTH and RATE (R623). -/
  | pcieLinkUp (width : Fin 3) (rate : Fin 4)
  /-- The VBKP domain reaching its range starts the 32.768 kHz oscillator, and later arms the CLKGLITCH edge watch (R620). -/
  | vbkpPowerUp
  /-- TIME_Dn_HOLD_MS wrapping to zero in HOLDOVER raises HOLD_WRAP (R143). -/
  | holdMsWrap (dom : Fin 3)
  /-- Ledger time reaching all ones makes the ledger FINAL and raises MONO_FINAL with code LTIME (R428). -/
  | ledgerTimeFinal
  /-- A classical frame decoded by an armed lane's wake receiver that does not wake updates its wake-frame error counter (R172). -/
  | wakeReceiverFrame (lane : Fin 96) (ok : Bool)
  /-- After reversal with SWAP_EN, 11 recessive bits read in the swapped sense swap LANEnH and LANEnL, set SWAPPED and start a probe (R178). -/
  | laneRoleSwap (lane : Fin 96)
  /-- The link partner entering or leaving LPI sets or clears RX_LPI and counts each entry in PORT_RX_LPI (R202). -/
  | partnerLpi (p : Fin 8) (enter : Bool)
  /-- On quad-SPI, 1 s after a SYS_RESET response is queued without being clocked out, the ordered warm reset takes effect (R534). -/
  | sysResetDeadline
  deriving DecidableEq, Repr

end Sys2Proof
end

