-- ==== Sys2Proof/Config.lean ====
section
/-! DEFINITION. The free values of the model: opaque constants without a body, so that no proof can see
what they are. Each stands for a value the spec leaves to chance, to cryptography or to an
implementation; it is applied to a number that names the draw. -/

namespace Sys2Proof.Config

/-- Byte `i` of the random bytes of draw `n` (R29, R333, R414). -/
opaque randByte : Nat → Nat → Byte

/-- The candidate for a random session ID of draw `n` (R31). -/
opaque sessionId : Nat → BitVec 16

/-- The standard transmit wake time of a port mode in microseconds (R203).
Mark: DESIGN CHOICE (log entry 4). -/
opaque stdWake : Nat → BitVec 16

/-- A word the spec leaves open, of draw `n`.
Mark: DESIGN CHOICE (log entry 4). -/
opaque freeWord : Nat → Word

/-- The cell, of 65,536, that holds part `k` of the frame of handle `h` (R251); the spec does not state which cell a frame
is given.
Mark: DESIGN CHOICE (log entry 64). -/
opaque cellAt : Nat → Nat → Nat

/-- The next state of a lane's back-off generator (R199); the spec does not state the generator.
Mark: DESIGN CHOICE (log entry 32). -/
opaque laneGen : BitVec 32 → BitVec 32

/-- The Max Payload Size is 256 bytes and not 128 (Table 18.1): a setting of the link.
Mark: DESIGN CHOICE (log entry 55). -/
opaque wideTlp : Bool

/-- A number the spec leaves open, of draw `n`.
Mark: DESIGN CHOICE (log entry 4). -/
opaque freeNat : Nat → Nat

/-- A bit the spec leaves open, of draw `n`.
Mark: DESIGN CHOICE (log entry 4). -/
opaque freeBit : Nat → Bool

end Sys2Proof.Config
end

