-- ==== Sys2Proof/Machine/Crypto.lean ====
section
/-! DEFINITION. The cryptography the rules name: SHA-256 (FIPS 180-4), AES (FIPS 197) with CMAC (SP 800-38B) and
GCM (SP 800-38D), the key derivation of R636, and ECDSA and ECDH on P-256 (FIPS 186). Byte strings are lists, words and
field elements are numbers. -/

namespace Sys2Proof.Machine

/-! ## Byte strings -/

/-- A number as `n` little-endian bytes (chapter 0, Notation). -/
def leBytes : Nat → Nat → List Byte
  | 0, _ => []
  | n + 1, v => BitVec.ofNat 8 v :: leBytes n (v / 256)

/-- The value of little-endian bytes. -/
def ofLeBytes : List Byte → Nat
  | [] => 0
  | b :: t => b.toNat + 256 * ofLeBytes t

/-- A byte list padded with zeros, or cut, to `n` bytes. -/
def padTo (n : Nat) (l : List Byte) : List Byte := (l ++ List.replicate n 0).take n

/-- A number as `n` big-endian bytes. -/
def beBytes (n v : Nat) : List Byte := (List.range n).map fun i => BitVec.ofNat 8 (v >>> (8 * (n - 1 - i)))

/-- The number that big-endian bytes spell. -/
def ofBeBytes (l : List Byte) : Nat := l.foldl (fun a b => a * 256 + b.toNat) 0

/-- The string cut into pieces of `n` bytes, the last one shorter; `fuel` bounds their number. -/
def cut (n : Nat) : Nat → List Byte → List (List Byte)
  | 0, _ => []
  | _, [] => []
  | fuel + 1, l => l.take n :: cut n fuel (l.drop n)

/-- Byte by byte exclusive or, as long as the shorter. -/
def xorBytes (a b : List Byte) : List Byte := List.zipWith (fun x y => x ^^^ y) a b

/-- The bytes of an ASCII text, without a terminator (R636). -/
def ascii (t : String) : List Byte := t.toList.map fun c => BitVec.ofNat 8 c.toNat

/-! ## SHA-256 -/

/-- Rotation of a 32-bit word to the right. -/
def rotr32 (x n : Nat) : Nat := ((x >>> n) ||| (x <<< (32 - n))) % 2 ^ 32

/-- The 64 round constants. -/
def shaK : List Nat :=
  [ 0x428a2f98, 0x71374491, 0xb5c0fbcf, 0xe9b5dba5, 0x3956c25b, 0x59f111f1, 0x923f82a4, 0xab1c5ed5,
    0xd807aa98, 0x12835b01, 0x243185be, 0x550c7dc3, 0x72be5d74, 0x80deb1fe, 0x9bdc06a7, 0xc19bf174,
    0xe49b69c1, 0xefbe4786, 0x0fc19dc6, 0x240ca1cc, 0x2de92c6f, 0x4a7484aa, 0x5cb0a9dc, 0x76f988da,
    0x983e5152, 0xa831c66d, 0xb00327c8, 0xbf597fc7, 0xc6e00bf3, 0xd5a79147, 0x06ca6351, 0x14292967 ] ++
  [ 0x27b70a85, 0x2e1b2138, 0x4d2c6dfc, 0x53380d13, 0x650a7354, 0x766a0abb, 0x81c2c92e, 0x92722c85,
    0xa2bfe8a1, 0xa81a664b, 0xc24b8b70, 0xc76c51a3, 0xd192e819, 0xd6990624, 0xf40e3585, 0x106aa070,
    0x19a4c116, 0x1e376c08, 0x2748774c, 0x34b0bcb5, 0x391c0cb3, 0x4ed8aa4a, 0x5b9cca4f, 0x682e6ff3,
    0x748f82ee, 0x78a5636f, 0x84c87814, 0x8cc70208, 0x90befffa, 0xa4506ceb, 0xbef9a3f7, 0xc67178f2 ]

/-- The working variables of the compression. -/
structure Sha where
  a : Nat
  b : Nat
  c : Nat
  d : Nat
  e : Nat
  f : Nat
  g : Nat
  h : Nat
  deriving DecidableEq, Repr

/-- The initial hash value. -/
def Sha.init : Sha :=
  { a := 0x6a09e667, b := 0xbb67ae85, c := 0x3c6ef372, d := 0xa54ff53a, e := 0x510e527f, f := 0x9b05688c,
    g := 0x1f83d9ab, h := 0x5be0cd19 }

/-- One round for each constant; the message schedule slides along a window of 16 words. -/
def shaRounds : List Nat → List Nat → Sha → Sha
  | [], _, x => x
  | k :: ks, w, x =>
    let w0 := w.getD 0 0
    let s1 := rotr32 x.e 6 ^^^ rotr32 x.e 11 ^^^ rotr32 x.e 25
    let ch := (x.e &&& x.f) ^^^ ((2 ^ 32 - 1 - x.e) &&& x.g)
    let t1 := x.h + s1 + ch + k + w0
    let s0 := rotr32 x.a 2 ^^^ rotr32 x.a 13 ^^^ rotr32 x.a 22
    let maj := (x.a &&& x.b) ^^^ (x.a &&& x.c) ^^^ (x.b &&& x.c)
    let w1 := w.getD 1 0
    let w14 := w.getD 14 0
    let next := ((rotr32 w14 17 ^^^ rotr32 w14 19 ^^^ (w14 >>> 10)) + w.getD 9 0 +
      (rotr32 w1 7 ^^^ rotr32 w1 18 ^^^ (w1 >>> 3)) + w0) % 2 ^ 32
    shaRounds ks (w.drop 1 ++ [next])
      { a := (t1 + s0 + maj) % 2 ^ 32, b := x.a, c := x.b, d := x.c, e := (x.d + t1) % 2 ^ 32, f := x.e, g := x.f, h := x.g }

/-- The compression of one 64-byte block. -/
def shaBlock (x : Sha) (blk : List Byte) : Sha :=
  let y := shaRounds shaK ((cut 4 16 blk).map ofBeBytes) x
  let add (u v : Nat) : Nat := (u + v) % 2 ^ 32
  { a := add x.a y.a, b := add x.b y.b, c := add x.c y.c, d := add x.d y.d, e := add x.e y.e, f := add x.f y.f,
    g := add x.g y.g, h := add x.h y.h }

/-- The message padded to whole blocks. -/
def shaPad (m : List Byte) : List Byte :=
  m ++ 0x80 :: List.replicate ((119 - m.length % 64) % 64) 0 ++ beBytes 8 (8 * m.length)

/-- SHA-256 of a byte string, 32 bytes. -/
def sha256 (m : List Byte) : List Byte :=
  let p := shaPad m
  let x := (cut 64 (p.length / 64) p).foldl shaBlock Sha.init
  [x.a, x.b, x.c, x.d, x.e, x.f, x.g, x.h].flatMap (beBytes 4)

/-! ## AES -/

/-- The S-box, entry `i` in bits `8 i` to `8 i + 7`. -/
def aesSbox : Nat :=
  0x16bb54b00f2d99416842e6bf0d89a18cdf2855cee9871e9b948ed9691198f8e1 * 2 ^ 1792 +
  0x9e1dc186b95735610ef6034866b53e708a8bbd4b1f74dde8c6b4a61c2e2578ba * 2 ^ 1536 +
  0x08ae7a65eaf4566ca94ed58d6d37c8e779e4959162acd3c25c2406490a3a32e0 * 2 ^ 1280 +
  0xdb0b5ede14b8ee4688902a22dc4f816073195d643d7ea7c41744975fec130ccd * 2 ^ 1024 +
  0xd2f3ff1021dab6bcf5389d928f40a351a89f3c507f02f94585334d43fbaaefd0 * 2 ^ 768 +
  0xcf584c4a39becb6a5bb1fc20ed00d153842fe329b3d63b52a05a6e1b1a2c8309 * 2 ^ 512 +
  0x75b227ebe28012079a059618c323c7041531d871f1e5a534ccf73f362693fdb7 * 2 ^ 256 +
  0xc072a49cafa2d4adf04759fa7dc982ca76abd7fe2b670130c56f6bf27b777c63

/-- The S-box of a byte. -/
def sub8 (b : Nat) : Nat := (aesSbox >>> (8 * b)) % 256

/-- Doubling in the field of AES. -/
def xtime (b : Nat) : Nat := if b < 128 then 2 * b else (2 * b - 256) ^^^ 0x1b

/-- The next round constant words: the key schedule, `nk` words to a group, newest group last. Each round of the
recursion makes one word from the one before it and the one `nk` back. -/
def keyWords (nk : Nat) : Nat → Nat → Nat → List (List Nat) → List (List Nat)
  | 0, _, _, w => w
  | n + 1, i, rc, w =>
    let prev := w.getD (w.length - 1) []
    let t :=
      if i % nk = 0 then
        match (prev.drop 1 ++ prev.take 1).map sub8 with
        | x :: r => (x ^^^ rc) :: r
        | [] => []
      else if nk > 6 ∧ i % nk = 4 then prev.map sub8 else prev
    keyWords nk n (i + 1) (if i % nk = 0 then xtime rc else rc) (w ++ [List.zipWith (· ^^^ ·) (w.getD (w.length - nk) []) t])

/-- The round keys of a 16- or 32-byte key, 16 bytes each. -/
def roundKeys (key : List Byte) : List (List Nat) :=
  let nk := key.length / 4
  let w := keyWords nk (4 * (nk + 7) - nk) nk 1 ((cut 4 nk key).map fun x => x.map BitVec.toNat)
  (List.range (nk + 7)).map fun r => (w.drop (4 * r)).take 4 |>.flatten

/-- SubBytes and ShiftRows of a state in column order. -/
def subShift (st : List Nat) : List Nat :=
  [0, 5, 10, 15, 4, 9, 14, 3, 8, 13, 2, 7, 12, 1, 6, 11].map fun i => sub8 (st.getD i 0)

/-- MixColumns. -/
def mixColumns : List Nat → List Nat
  | a :: b :: c :: d :: t =>
    let e := a ^^^ b ^^^ c ^^^ d
    (a ^^^ e ^^^ xtime (a ^^^ b)) :: (b ^^^ e ^^^ xtime (b ^^^ c)) :: (c ^^^ e ^^^ xtime (c ^^^ d)) ::
      (d ^^^ e ^^^ xtime (d ^^^ a)) :: mixColumns t
  | _ => []

/-- The rounds after the first key addition; the last one mixes no columns. -/
def aesRounds : List (List Nat) → List Nat → List Nat
  | [], st => st
  | [k], st => List.zipWith (· ^^^ ·) (subShift st) k
  | k :: ks, st => aesRounds ks (List.zipWith (· ^^^ ·) (mixColumns (subShift st)) k)

/-- The AES encryption of one 16-byte block under round keys. -/
def aesBlock (rks : List (List Nat)) (b : List Byte) : List Byte :=
  match rks with
  | [] => b
  | k :: ks => (aesRounds ks (List.zipWith (· ^^^ ·) (b.map BitVec.toNat) k)).map (BitVec.ofNat 8)

/-- The AES encryption of one block under a key of 16 or 32 bytes. -/
def aes (key b : List Byte) : List Byte := aesBlock (roundKeys key) b

/-- The inverse S-box, entry `i` in bits `8 i` to `8 i + 7`. -/
def aesInvSbox : Nat :=
  0x7d0c2155631469e126d677ba7e042b17619953833cbbebc8b0f52aae4d3be0a0 * 2 ^ 1792 +
  0xef9cc9939f7ae52d0d4ab519a97f51605fec8027591012b131c7078833a8dd1f * 2 ^ 1536 +
  0xf45acd78fec0db9a2079d2c64b3e56fc1bbe18aa0e62b76f89c5291d711af147 * 2 ^ 1280 +
  0x6edf751ce837f9e28535ade72274ac9673e6b4f0cecff297eadc674f4111913a * 2 ^ 1024 +
  0x6b8a130103bdafc1020f3fca8f1e2cd00645b3b80558e4f70ad3bc8c00abd890 * 2 ^ 768 +
  0x849d8da75746155edab9edfd5048706c92b6655dcc5ca4d41698688664f6f872 * 2 ^ 512 +
  0x25d18b6d49a25b76b224d92866a12e084ec3fa420b954cee3d23c2a632947b54 * 2 ^ 256 +
  0xcbe9dec444438e3487ff2f9b8239e37cfbd7f3819ea340bf38a53630d56a0952

/-- Inverse ShiftRows and SubBytes. -/
def invSubShift (st : List Nat) : List Nat :=
  [0, 13, 10, 7, 4, 1, 14, 11, 8, 5, 2, 15, 12, 9, 6, 3].map fun i => (aesInvSbox >>> (8 * st.getD i 0)) % 256

/-- Inverse MixColumns: MixColumns after a correction of each column. -/
def invMixColumns : List Nat → List Nat
  | a :: b :: c :: d :: t =>
    let u := xtime (xtime (a ^^^ c))
    let v := xtime (xtime (b ^^^ d))
    mixColumns [a ^^^ u, b ^^^ v, c ^^^ u, d ^^^ v] ++ invMixColumns t
  | _ => []

/-- The inverse rounds, last round key first; no columns are mixed after the first key of the cipher. -/
def aesInvRounds : List (List Nat) → List Nat → List Nat
  | [], st => st
  | [k], st => List.zipWith (· ^^^ ·) (invSubShift st) k
  | k :: ks, st => aesInvRounds ks (invMixColumns (List.zipWith (· ^^^ ·) (invSubShift st) k))

/-- The AES decryption of one 16-byte block under round keys. -/
def aesUnblock (rks : List (List Nat)) (b : List Byte) : List Byte :=
  match rks.reverse with
  | [] => b
  | k :: ks => (aesInvRounds ks (List.zipWith (· ^^^ ·) (b.map BitVec.toNat) k)).map (BitVec.ofNat 8)

/-! ## CTR, CBC and XTS -/

/-- Counter mode: the 128-bit counter block counts modulo 2^128, big-endian (Table 13.2). -/
def ctrCrypt (key iv d : List Byte) : List Byte :=
  let rks := roundKeys key
  let bs := cut 16 (d.length / 16 + 1) d
  ((List.range bs.length).zip bs).flatMap fun x => xorBytes x.2 (aesBlock rks (beBytes 16 ((ofBeBytes iv + x.1) % 2 ^ 128)))

/-- CBC encryption of whole blocks. -/
def cbcChain (rks : List (List Nat)) : List Byte → List (List Byte) → List Byte
  | _, [] => []
  | x, b :: t => aesBlock rks (xorBytes x b) ++ cbcChain rks (aesBlock rks (xorBytes x b)) t

/-- CBC encryption and decryption without padding. -/
def cbcEnc (key iv d : List Byte) : List Byte := cbcChain (roundKeys key) iv (cut 16 (d.length / 16) d)
def cbcDec (key iv d : List Byte) : List Byte :=
  let bs := cut 16 (d.length / 16) d
  (bs.zip (iv :: bs)).flatMap fun x => xorBytes (aesUnblock (roundKeys key) x.1) x.2

/-- The blocks of one XTS data unit, the tweak multiplied by the primitive element from block to block. -/
def xtsBlocks (f : List Byte → List Byte) : Nat → List (List Byte) → List Byte
  | _, [] => []
  | t, b :: r =>
    xorBytes (f (xorBytes b (leBytes 16 t))) (leBytes 16 t) ++
      xtsBlocks f (if t < 2 ^ 127 then 2 * t else (2 * t - 2 ^ 128) ^^^ 0x87) r

/-- XTS-AES-256 over 4,096-byte data units with rising tweaks from `first` (R367, IEEE 1619). -/
def xts (key : List Byte) (dec : Bool) (first : Nat) (d : List Byte) : List Byte :=
  let k1 := roundKeys (key.take 32)
  let k2 := roundKeys (key.drop 32)
  let units := cut 4096 (d.length / 4096 + 1) d
  ((List.range units.length).zip units).flatMap fun x =>
    xtsBlocks (if dec then aesUnblock k1 else aesBlock k1) (ofLeBytes (aesBlock k2 (leBytes 16 (first + x.1))))
      (cut 16 (x.2.length / 16) x.2)

/-! ## CMAC and the KDF -/

/-- Doubling in the field of CMAC. -/
def cmacDbl (x : Nat) : Nat := if x < 2 ^ 127 then 2 * x else (2 * x - 2 ^ 128) ^^^ 0x87

/-- The chain of CMAC over whole blocks, the last one masked. -/
def cmacChain (rks : List (List Nat)) (k1 k2 : List Byte) : List Byte → List (List Byte) → List Byte
  | x, [] => aesBlock rks (xorBytes x (xorBytes (0x80 :: List.replicate 15 0) k2))
  | x, [b] =>
    let last := if b.length = 16 then xorBytes b k1 else xorBytes ((b ++ 0x80 :: List.replicate 15 0).take 16) k2
    aesBlock rks (xorBytes x last)
  | x, b :: t => cmacChain rks k1 k2 (aesBlock rks (xorBytes x b)) t

/-- AES-CMAC of a message, 16 bytes. -/
def cmac (key m : List Byte) : List Byte :=
  let rks := roundKeys key
  let l := ofBeBytes (aesBlock rks (List.replicate 16 0))
  cmacChain rks (beBytes 16 (cmacDbl l)) (beBytes 16 (cmacDbl (cmacDbl l))) (List.replicate 16 0) (cut 16 (m.length / 16 + 1) m)

/-- The KDF of R636: `n` output bytes under a key derivation key, a label and a context. -/
def kdf (kdk : List Byte) (label : String) (ctx : List Byte) (n : Nat) : List Byte :=
  ((List.range ((n + 15) / 16)).flatMap fun i =>
    cmac kdk (beBytes 4 (i + 1) ++ ascii label ++ [0] ++ ctx ++ beBytes 4 (8 * n))).take n

/-! ## GCM -/

/-- The product of GHASH, bit by bit from the first one of `x`. -/
def ghashMul : Nat → Nat → Nat → Nat → Nat
  | 0, _, _, z => z
  | n + 1, x, v, z =>
    ghashMul n x (if v % 2 = 0 then v / 2 else (v / 2) ^^^ (0xe1 * 2 ^ 120)) (if (x >>> n) % 2 = 1 then z ^^^ v else z)

/-- GHASH under `h` of a string padded block by block with zeros. -/
def ghash (h : Nat) (y : Nat) (m : List Byte) : Nat :=
  (cut 16 (m.length / 16 + 1) m).foldl (fun y b => ghashMul 128 (y ^^^ ofBeBytes ((b ++ List.replicate 15 0).take 16)) h 0) y

/-- The counter block of GCM for a 12-byte IV. -/
def gcmCtr (iv : List Byte) (i : Nat) : List Byte := iv ++ beBytes 4 i

/-- The key stream of GCM applied to data: it encrypts and decrypts. -/
def gcmCrypt (key iv d : List Byte) : List Byte :=
  let rks := roundKeys key
  let bs := cut 16 (d.length / 16 + 1) d
  ((List.range bs.length).zip bs).flatMap fun x => xorBytes x.2 (aesBlock rks (gcmCtr iv (x.1 + 2)))

/-- The 16-byte tag of GCM over additional data and ciphertext. -/
def gcmTag (key iv aad c : List Byte) : List Byte :=
  let rks := roundKeys key
  let h := ofBeBytes (aesBlock rks (List.replicate 16 0))
  let s := ghashMul 128 (ghash h (ghash h 0 aad) c ^^^ (8 * aad.length * 2 ^ 64 + 8 * c.length)) h 0
  xorBytes (beBytes 16 s) (aesBlock rks (gcmCtr iv 1))

/-! ## P-256 -/

/-- The field prime, the coefficient b, the order and the base point of P-256. -/
def p256p : Nat := 0xffffffff00000001000000000000000000000000ffffffffffffffffffffffff
def p256b : Nat := 0x5ac635d8aa3a93e7b3ebbd55769886bc651d06b0cc53b0f63bce3c3e27d2604b
def p256n : Nat := 0xffffffff00000000ffffffffffffffffbce6faada7179e84f3b9cac2fc632551
def p256gx : Nat := 0x6b17d1f2e12c4247f8bce6e563a440f277037d812deb33a0f4a13945d898c296
def p256gy : Nat := 0x4fe342e2fe1a7f9b8ee7eb4a7c0f9e162bce33576b315ececbb6406837bf51f5

/-- `x ^ e` modulo `m`, over the low `n` bits of the exponent. -/
def powMod (m : Nat) : Nat → Nat → Nat → Nat → Nat
  | 0, _, _, a => a
  | n + 1, x, e, a => powMod m n (x * x % m) (e / 2) (if e % 2 = 1 then a * x % m else a)

/-- The inverse modulo a prime. -/
def invMod (m x : Nat) : Nat := powMod m 256 (x % m) (m - 2) 1

/-- A point in Jacobian coordinates; `z = 0` is the point at infinity. -/
structure EcPt where
  x : Nat
  y : Nat
  z : Nat
  deriving DecidableEq, Repr

/-- The point at infinity. -/
def EcPt.zero : EcPt := { x := 1, y := 1, z := 0 }

/-- Subtraction in the field. -/
def fsub (a b : Nat) : Nat := (a + p256p - b % p256p) % p256p

/-- Twice a point. -/
def ecDbl (q : EcPt) : EcPt :=
  if q.z = 0 then q
  else
    let z2 := q.z * q.z % p256p
    let m := 3 * fsub q.x z2 * (q.x + z2) % p256p
    let y2 := q.y * q.y % p256p
    let s := 4 * q.x * y2 % p256p
    let x := fsub (m * m) (2 * s)
    { x := x, y := fsub (m * fsub s x) (8 * y2 * y2), z := 2 * q.y * q.z % p256p }

/-- The sum of two points. -/
def ecAdd (a b : EcPt) : EcPt :=
  if a.z = 0 then b else if b.z = 0 then a
  else
    let za := a.z * a.z % p256p
    let zb := b.z * b.z % p256p
    let ua := a.x * zb % p256p
    let ub := b.x * za % p256p
    let sa := a.y * zb * b.z % p256p
    let sb := b.y * za * a.z % p256p
    if ua = ub then (if sa = sb then ecDbl a else EcPt.zero)
    else
      let h := fsub ub ua
      let r := fsub sb sa
      let h2 := h * h % p256p
      let h3 := h2 * h % p256p
      let v := ua * h2 % p256p
      let x := fsub (r * r) (h3 + 2 * v)
      { x := x, y := fsub (r * fsub v x) (sa * h3), z := h * a.z * b.z % p256p }

/-- `k` times a point, over the low `n` bits of `k`. -/
def ecMul : Nat → Nat → EcPt → EcPt → EcPt
  | 0, _, _, a => a
  | n + 1, k, q, a => ecMul n (k / 2) (ecDbl q) (if k % 2 = 1 then ecAdd a q else a)

/-- The affine coordinates of a point that is not at infinity. -/
def ecAffine (q : EcPt) : Nat × Nat :=
  let i := invMod p256p q.z
  (q.x * i * i % p256p, q.y * (i * i % p256p) * i % p256p)

/-- The base point. -/
def ecG : EcPt := { x := p256gx, y := p256gy, z := 1 }

/-- A public key of 64 bytes, X then Y, big-endian, as a point. -/
def ecPub (l : List Byte) : EcPt := { x := ofBeBytes (l.take 32), y := ofBeBytes ((l.drop 32).take 32), z := 1 }

/-- The 64 bytes name a point on P-256 with both coordinates below the field prime; no affine pair is the point at
infinity (R30, R347). -/
def ecOnCurve (l : List Byte) : Bool :=
  let q := ecPub l
  decide (l.length = 64) && decide (q.x < p256p) && decide (q.y < p256p) &&
  decide (q.y * q.y % p256p = (q.x * q.x * q.x + (p256p - 3) * q.x + p256b) % p256p)

/-- The public key of a private scalar. -/
def ecPublic (d : Nat) : List Byte :=
  let (x, y) := ecAffine (ecMul 256 d ecG EcPt.zero)
  beBytes 32 x ++ beBytes 32 y

/-- The ECDH shared secret: the x-coordinate of the shared point, 32 bytes, big-endian (R636). -/
def ecdh (d : Nat) (pub : List Byte) : List Byte := beBytes 32 (ecAffine (ecMul 256 d (ecPub pub) EcPt.zero)).1

/-- A scalar from 1 to n - 1 of a derived or random string, the first byte most significant (R334). -/
def ecScalar (l : List Byte) : Nat := ofBeBytes l % (p256n - 1) + 1

/-- The ECDSA signature of a message with SHA-256 under a scalar and a nonce: r then s, big-endian. -/
def ecdsaSign (d k : Nat) (m : List Byte) : List Byte :=
  let r := (ecAffine (ecMul 256 k ecG EcPt.zero)).1 % p256n
  let s := invMod p256n k * (ofBeBytes (sha256 m) + r * d) % p256n
  beBytes 32 r ++ beBytes 32 s

/-- The ECDSA signature over a message's SHA-256 verifies under a public key. -/
def ecdsaVerify (pub m sig : List Byte) : Bool :=
  let r := ofBeBytes (sig.take 32)
  let s := ofBeBytes ((sig.drop 32).take 32)
  let w := invMod p256n s
  let q := ecAdd (ecMul 256 (ofBeBytes (sha256 m) * w % p256n) ecG EcPt.zero) (ecMul 256 (r * w % p256n) (ecPub pub) EcPt.zero)
  decide (sig.length = 64) && decide (0 < r) && decide (r < p256n) && decide (0 < s) && decide (s < p256n) &&
  ecOnCurve pub && decide (q.z ≠ 0) && decide ((ecAffine q).1 % p256n = r)

end Sys2Proof.Machine
end

