-- ==== Sys2Proof/Machine/Packets.lean ====
section
/-! DEFINITION. The bytes of command packets: the parameters of every command and map record (Tables 1.3, 12.5 and 19.3 to
19.6) and the header of a request (Table 19.1). -/

namespace Sys2Proof

open Sys2Proof.Machine (leBytes padTo)

/-- Register words as little-endian bytes. -/
def wordBytes (l : List Word) : List Byte := l.flatMap fun w => leBytes 4 w.toNat

/-- The parameter bytes of a configuration record (R532, Tables 19.4 to 19.6). -/
def cfgParams : Cfg → List Byte
  | .lane l img => leBytes 4 l.toNat ++ wordBytes img
  | .port p img => leBytes 4 p.toNat ++ wordBytes img
  | .phyWrite p c d r v => leBytes 1 p.toNat ++ leBytes 1 c.toNat ++ leBytes 2 d.toNat ++ leBytes 4 r.toNat ++ leBytes 4 v.toNat
  | .tblWrite t f m i e => leBytes 1 t.toNat ++ leBytes 1 f.toNat ++ leBytes 2 m.toNat ++ leBytes 4 i.toNat ++ padTo 32 (wordBytes e)
  | .sw k i img => leBytes 2 k.toNat ++ leBytes 2 i.toNat ++ wordBytes img
  | .pol n img => leBytes 4 n.toNat ++ wordBytes img
  | .sch e k img => leBytes 1 e.toNat ++ leBytes 3 k.toNat ++ wordBytes img
  | .gates e n en o es => leBytes 1 e.toNat ++ leBytes 3 1 ++ leBytes 1 n.toNat ++ leBytes 3 en.toNat ++ leBytes 4 o.toNat ++ wordBytes es
  | .beat l d a => leBytes 1 l.toNat ++ leBytes 1 d.toNat ++ leBytes 2 a.toNat
  | .time i img => leBytes 4 i.toNat ++ wordBytes img
  | .la n img => leBytes 4 n.toNat ++ wordBytes img
  | .entry h a b u l => leBytes 4 h.toNat ++ padTo 24 (wordBytes a) ++ padTo 24 (wordBytes b) ++ padTo 64 (wordBytes u) ++ padTo 64 (wordBytes l)
  | .tt t img => leBytes 4 t.toNat ++ wordBytes img
  | .angEvt f c es => leBytes 1 f.toNat ++ leBytes 3 c.toNat ++ es.flatMap fun e => wordBytes [e.1, e.2]
  | .fb k i img => leBytes 1 k.toNat ++ leBytes 3 i.toNat ++ wordBytes img
  | .hlb n k p d ks => leBytes 2 n.toNat ++ leBytes 1 k.toNat ++ leBytes 1 p.toNat ++ leBytes 4 d.toNat ++ leBytes 4 ks.toNat

/-- Bytes 0x00 to 0x6F of an update message: the additional data of its GCM tag (Table 12.5). -/
def KeyMsg.head (m : KeyMsg) : List Byte :=
  [m.ver, m.op] ++ leBytes 2 m.target.toNat ++ leBytes 2 m.auth.toNat ++ leBytes 2 m.rsv6.toNat ++ leBytes 4 m.ucnt.toNat ++
  leBytes 4 m.attr.toNat ++ leBytes 16 m.uid.toNat ++ padTo 12 m.iv ++ leBytes 2 m.klen.toNat ++ leBytes 2 m.rsv2E.toNat ++
  padTo 64 m.eph

/-- The bytes that SIG of an update message covers: all earlier ones. -/
def KeyMsg.signed (m : KeyMsg) : List Byte := m.head ++ m.key ++ padTo 16 m.tag

/-- The whole update message (R345): SIG stands on the transport path only. -/
def KeyMsg.bytes (m : KeyMsg) : List Byte := m.signed ++ if m.auth.toNat = 2 then padTo 64 m.sig else []

/-- SHA-256 of the whole update message (Table 12.6). -/
def KeyMsg.hash (m : KeyMsg) : List Byte := Machine.sha256 m.bytes

/-- The bytes 0x00 to 0x73 of SESSION_OPEN, which its SIG covers (Table 1.3). -/
def openSigned (role : BitVec 8) (idleS : BitVec 16) (challenge : BitVec 256) (uid : BitVec 128) (eph : List Byte) : List Byte :=
  leBytes 2 role.toNat ++ leBytes 2 idleS.toNat ++ leBytes 32 challenge.toNat ++ leBytes 16 uid.toNat ++ padTo 64 eph

/-- A BUF, LEN parameter list of 16 bytes. -/
def bufParams (buf : BitVec 64) (len : Word) : List Byte := leBytes 8 buf.toNat ++ leBytes 8 len.toNat

/-- The request that a command packet is, with the parameter bytes its operands spell; none for a command that is no
packet, and for CMD_REJECT, whose bytes no operand spells. -/
def Instr.packet : Instr → Option (Req × List Byte)
  | .sysInfo r => some (r, [])
  | .sessionChallenge r role => some (r, leBytes 4 role.toNat)
  | .sessionOpen r role idleS c uid eph sig => some (r, openSigned role idleS c uid eph ++ padTo 64 sig)
  | .sessionClose r => some (r, [])
  | .fwLoad r buf len _ _ => some (r, bufParams buf len)
  | .fwCommit r => some (r, [])
  | .sysReset r kind => some (r, leBytes 4 kind.toNat)
  | .lifecycleAdvance r target => some (r, leBytes 4 target.toNat)
  | .mapLoad r buf len _ _ _ => some (r, bufParams buf len)
  | .mapRead r buf len => some (r, bufParams buf len)
  | .modeSet r target => some (r, leBytes 4 target.toNat)
  | .blockGate r block kind => some (r, leBytes 1 block.toNat ++ leBytes 3 kind.toNat)
  | .laneConfig r lane img => some (r, cfgParams (.lane lane img))
  | .laneRecover r lane => some (r, leBytes 4 lane.toNat)
  | .portConfig r port img => some (r, cfgParams (.port port img))
  | .phyRead r phy clause dev reg _ =>
      some (r, leBytes 1 phy.toNat ++ leBytes 1 clause.toNat ++ leBytes 2 dev.toNat ++ leBytes 4 reg.toNat)
  | .phyWrite r phy clause dev reg value _ => some (r, cfgParams (.phyWrite phy clause dev reg value))
  | .tblWrite r table flags pmask index entry => some (r, cfgParams (.tblWrite table flags pmask index entry))
  | .tblRead r table pipe node index key _ =>
      some (r, leBytes 2 table.toNat ++ leBytes 2 pipe.toNat ++ leBytes 4 node.toNat ++ leBytes 4 index.toNat ++ leBytes 8 key.toNat)
  | .tblDelete r table pmask index key =>
      some (r, leBytes 2 table.toNat ++ leBytes 2 pmask.toNat ++ leBytes 4 index.toNat ++ leBytes 8 key.toNat)
  | .tblFlush r pmask flags => some (r, leBytes 1 pmask.toNat ++ leBytes 3 flags.toNat)
  | .tblCommit r => some (r, [])
  | .swConfig r kind index img => some (r, cfgParams (.sw kind index img))
  | .polConfig r policer img => some (r, cfgParams (.pol policer img))
  | .schConfig r egr (.images kind img) => some (r, cfgParams (.sch egr kind img))
  | .schConfig r egr (.gates nent en offsetUs entries) => some (r, cfgParams (.gates egr nent en offsetUs entries))
  | .timeBeatSet r len dom align => some (r, cfgParams (.beat len dom align))
  | .timeConfig r index img => some (r, cfgParams (.time index img))
  | .keyUpdate r msg => some (r, msg.bytes)
  | .keyAttest r slot nonce => some (r, leBytes 4 slot.toNat ++ leBytes 32 nonce.toNat)
  | .rootProvision r => some (r, [])
  | .laConfig r prof img => some (r, cfgParams (.la prof img))
  | .entryChallenge r => some (r, [])
  | .entrySubmit r head token proof => some (r, head ++ token ++ proof)
  | .credRevoke r op tokenId => some (r, leBytes 4 op.toNat ++ leBytes 8 tokenId.toNat)
  | .credEpoch r epoch => some (r, leBytes 4 epoch.toNat)
  | .tripOpen r tripRef tokenId => some (r, leBytes 8 tripRef.toNat ++ leBytes 8 tokenId.toNat)
  | .tripClose r tripRef => some (r, leBytes 8 tripRef.toNat)
  | .forceLock r => some (r, [])
  | .immobilise r => some (r, [])
  | .tripPermit r drive => some (r, leBytes 4 drive.toNat)
  | .entryConfig r holdS start stop unlock lock => some (r, cfgParams (.entry holdS start stop unlock lock))
  | .ldgRead r first count buf nonce _ =>
      some (r, leBytes 6 first.toNat ++ leBytes 2 count.toNat ++ leBytes 8 buf.toNat ++ leBytes 32 nonce.toNat)
  | .ldgBilling r period tariff => some (r, leBytes 4 period.toNat ++ leBytes 4 tariff.toNat)
  | .wallSet r sec frac => some (r, leBytes 6 sec.toNat ++ leBytes 2 frac.toNat)
  | .ttConfig r tracker img => some (r, cfgParams (.tt tracker img))
  | .angEventSet r first count entries => some (r, cfgParams (.angEvt first count entries))
  | .fbConfig r kind index img => some (r, cfgParams (.fb kind index img))
  | .fbCal r ch _ => some (r, leBytes 4 ch.toNat)
  | .boltMove r bolt dir => some (r, leBytes 1 bolt.toNat ++ leBytes 3 dir.toNat)
  | .hlbConfig r node kind ports domain keyslot => some (r, cfgParams (.hlb node kind ports domain keyslot))
  | .hlbMembers r first => some (r, leBytes 4 first.toNat)
  | .hlbPush r kind buf len _ _ _ => some (r, leBytes 4 kind.toNat ++ bufParams buf len)
  | .freezeArm r window => some (r, leBytes 4 window.toNat)
  | .freezeDisarm r => some (r, [])
  | .diagLoopback r target kind => some (r, leBytes 1 target.toNat ++ leBytes 3 kind.toNat)
  | .telemRead r buf => some (r, leBytes 8 buf.toNat)
  | _ => none

/-- The 16-byte header of a request and its parameters, over which its tag is computed (R33, R515, R516). -/
def reqBytes (op : Nat) (r : Req) : List Byte :=
  leBytes 2 op ++ leBytes 2 0 ++ leBytes 4 r.seq.toNat ++ leBytes 2 r.params.length ++ leBytes 2 r.session.toNat ++ leBytes 4 0 ++ r.params

/-- The SHA-256 of the parameters, truncated to 64 bits: its first 8 bytes, byte 0 lowest (R39). -/
def Req.phash (r : Req) : BitVec 64 := BitVec.ofNat 64 (Machine.ofLeBytes ((Machine.sha256 r.params).take 8))

end Sys2Proof
end

