-- ==== Sys2Proof/Machine/RegMap.lean ====
section
/-! DEFINITION. The register map (R593 to R606 and the register tables of every chapter): where each
register lies, its access codes (R2), its cold and warm values (R8) and its reserved encodings (R6). -/

namespace Sys2Proof.Machine

/-- Which selector of Table 22.2 names the instance a windowed register shows; `none` for a register
with offsets of its own. -/
inductive Win where
  | none | lane | port | swq | swi | sws | polp | pols | sch | cck | slot | la | mem | dbgl
  deriving DecidableEq, Repr

/-- What a register is: an ordinary word, a one-word STAT counter, or the low or the high word of a
two-word STAT counter (R10). -/
inductive RegKind where
  | plain | stat | statLo | statHi
  deriving DecidableEq, Repr

/-- The legal values of one field; any other value is a reserved encoding (R6). -/
structure FieldRange where
  lo : Nat
  width : Nat
  ranges : List (Nat × Nat)
  deriving DecidableEq, Repr

/-- One row of the register tables: `count` registers `stride` apart from `base` (a bank number times
0x10000 plus the offset), the fields' cold value, the masks of the fields that keep their value across
a cold and a warm reset, and one mask for each access code of Table 0.2. `cfg` are the RO fields
written by command or map, which class F sees as RW (R380); `vrw` those only class V writes (R596). -/
structure RegRow where
  base : Nat
  stride : Nat
  count : Nat
  win : Win
  kind : RegKind
  cold : Word
  coldKeep : Word
  warmKeep : Word
  rw : Word
  w1c : Word
  wl : Word
  wo : Word
  vs : Word
  cfg : Word
  vrw : Word
  chk : List FieldRange
  deriving DecidableEq, Repr

/-! ## The addresses of the registers: bank number times 0x10000 plus the bank offset. -/

abbrev R_SYS_IDENT : Nat := 0x0
abbrev R_SYS_REV : Nat := 0x4
abbrev R_SYS_SESS_STAT : Nat := 0x40
abbrev R_SYS_SESS_TAGFAIL : Nat := 0x44
abbrev R_SYS_STRAP : Nat := 0x48
abbrev R_SYS_PINSTAT : Nat := 0x4C
abbrev R_SYS_BOOT : Nat := 0x50
abbrev R_SYS_LIFECYCLE : Nat := 0x54
abbrev R_SYS_FUSE_STAT : Nat := 0x58
abbrev R_SYS_FUSE_MARG : Nat := 0x60
abbrev R_SYS_FUSE_INV : Nat := 0x70
abbrev R_SYS_UID : Nat := 0x80
abbrev R_SYS_FUSE_DRIFT : Nat := 0x90
abbrev R_SYS_LOCK : Nat := 0x200
abbrev R_SYS_ACC_FIRST_STAT : Nat := 0x210
abbrev R_SYS_ACC_FIRST_LO : Nat := 0x214
abbrev R_SYS_ACC_FIRST_HI : Nat := 0x218
abbrev R_SYS_ACC_DENY : Nat := 0x21C
abbrev R_SYS_CMD_DENY : Nat := 0x220
abbrev R_SYS_CMD_LAST : Nat := 0x224
abbrev R_SYS_CMD_CNT : Nat := 0x228
abbrev R_SYS_CMD_SPI : Nat := 0x22C
abbrev R_SYS_HWIN_BASE_LO : Nat := 0x240
abbrev R_SYS_HWIN_BASE_HI : Nat := 0x244
abbrev R_SYS_HWIN_SIZE : Nat := 0x248
abbrev R_SYS_HWIN_CFG : Nat := 0x24C
abbrev R_PWR_MODE : Nat := 0x10000
abbrev R_PWR_WAKE_ARM : Nat := 0x10004
abbrev R_PWR_WAKE_CAUSE : Nat := 0x10008
abbrev R_PWR_VTH : Nat := 0x10010
abbrev R_PWR_TIMERS : Nat := 0x10014
abbrev R_PWR_THROTTLE : Nat := 0x10018
abbrev R_PWR_SAG_CNT : Nat := 0x1001C
abbrev R_PWR_GATE_CLK : Nat := 0x10020
abbrev R_PWR_GATE_PWR : Nat := 0x10024
abbrev R_PWR_GATE_STAT : Nat := 0x10028
abbrev R_PWR_GATE_HELD : Nat := 0x1002C
abbrev R_PWR_HOLD : Nat := 0x10030
abbrev R_PWR_RAIL : Nat := 0x10034
abbrev R_PWR_ALARM : Nat := 0x10038
abbrev R_TIME_BEAT : Nat := 0x20000
abbrev R_TIME_BEAT_CNT : Nat := 0x20004
abbrev R_TIME_OVR_STAT : Nat := 0x20008
abbrev R_TIME_OVR_CNT : Nat := 0x2000C
abbrev R_TIME_OVR_CFG : Nat := 0x20010
abbrev R_TIME_CAP : Nat := 0x20014
abbrev R_TIME_D_CFG : Nat := 0x20100
abbrev R_TIME_D_STAT : Nat := 0x20104
abbrev R_TIME_D_NS : Nat := 0x20108
abbrev R_TIME_D_SEC_LO : Nat := 0x2010C
abbrev R_TIME_D_SEC_HI : Nat := 0x20110
abbrev R_TIME_D_FRAC : Nat := 0x20114
abbrev R_TIME_D_RATE : Nat := 0x20118
abbrev R_TIME_D_HOLD_MS : Nat := 0x2011C
abbrev R_TIME_D_SERVO : Nat := 0x20120
abbrev R_TRG_CFG : Nat := 0x20400
abbrev R_TRG_T_SEC : Nat := 0x20404
abbrev R_TRG_T_NS : Nat := 0x20408
abbrev R_TRG_PERIOD : Nat := 0x2040C
abbrev R_TRG_COUNT : Nat := 0x20410
abbrev R_TRG_STAT : Nat := 0x20414
abbrev R_TRG_SKIP : Nat := 0x20418
abbrev R_LANE_SEL : Nat := 0x30000
abbrev R_LANE_GSTAT : Nat := 0x30010
abbrev R_LANE_ARM : Nat := 0x30020
abbrev R_LANE_WAKE_LAST : Nat := 0x30040
abbrev R_LANE_WAKE_DATA : Nat := 0x30044
abbrev R_LANE_CFG : Nat := 0x30100
abbrev R_LANE_NBT : Nat := 0x30104
abbrev R_LANE_DBT : Nat := 0x30108
abbrev R_LANE_TDC : Nat := 0x3010C
abbrev R_LANE_LIN : Nat := 0x30110
abbrev R_LANE_PLCA : Nat := 0x30114
abbrev R_LANE_STAT : Nat := 0x30120
abbrev R_LANE_ERR : Nat := 0x30124
abbrev R_LANE_FLT : Nat := 0x30128
abbrev R_LANE_FLT_CFG : Nat := 0x3012C
abbrev R_LANE_WAKE_CFG : Nat := 0x30130
abbrev R_LANE_WAKE_ID : Nat := 0x30134
abbrev R_LANE_WAKE_IDM : Nat := 0x30138
abbrev R_LANE_WAKE_DM0 : Nat := 0x3013C
abbrev R_LANE_WAKE_DM1 : Nat := 0x30140
abbrev R_LANE_RXF : Nat := 0x30180
abbrev R_LANE_TXF : Nat := 0x30188
abbrev R_LANE_ERRF : Nat := 0x30190
abbrev R_LANE_FLT_CNT : Nat := 0x30194
abbrev R_LANE_NORESP : Nat := 0x30198
abbrev R_LANE_LSCH : Nat := 0x301C0
abbrev R_PORT_SEL : Nat := 0x40000
abbrev R_PORT_GSTAT : Nat := 0x40010
abbrev R_PORT_RXF : Nat := 0x40100
abbrev R_PORT_RXO : Nat := 0x40108
abbrev R_PORT_TXF : Nat := 0x40110
abbrev R_PORT_TXO : Nat := 0x40118
abbrev R_PORT_RX_FCS : Nat := 0x40120
abbrev R_PORT_RX_RUNT : Nat := 0x40124
abbrev R_PORT_RX_GIANT : Nat := 0x40128
abbrev R_PORT_RX_OVF : Nat := 0x4012C
abbrev R_PORT_RX_PAUSE : Nat := 0x40130
abbrev R_PORT_TX_PAUSE : Nat := 0x40134
abbrev R_PORT_RX_LPI : Nat := 0x40138
abbrev R_PORT_TX_LPI : Nat := 0x4013C
abbrev R_PORT_COLL : Nat := 0x40140
abbrev R_PORT_LATE_COLL : Nat := 0x40144
abbrev R_PORT_EXC_COLL : Nat := 0x40148
abbrev R_PORT_PAUSE_WD_CNT : Nat := 0x4014C
abbrev R_PORT_TX_LINKDROP : Nat := 0x40150
abbrev R_PORT_CFG : Nat := 0x40180
abbrev R_PORT_PAUSE_CFG : Nat := 0x40184
abbrev R_PORT_PAUSE_WD : Nat := 0x40188
abbrev R_PORT_LPI_CFG : Nat := 0x4018C
abbrev R_PORT_CSMA : Nat := 0x40190
abbrev R_PORT_MAXF : Nat := 0x40194
abbrev R_PORT_STAT : Nat := 0x401C0
abbrev R_PORT_LPI_STAT : Nat := 0x401C4
abbrev R_PORT_PAUSE_STAT : Nat := 0x401C8
abbrev R_PORT_PAUSE_IGN : Nat := 0x401CC
abbrev R_TBL_AGE_CFG : Nat := 0x50000
abbrev R_TBL_MISS_CFG : Nat := 0x50004
abbrev R_TBL_HASH_SEED : Nat := 0x50010
abbrev R_TBL_P_STAT : Nat := 0x50100
abbrev R_TBL_P_MISS : Nat := 0x50104
abbrev R_TBL_P_LEARN : Nat := 0x50108
abbrev R_TBL_P_LEARN_FULL : Nat := 0x5010C
abbrev R_TBL_P_MOVE : Nat := 0x50110
abbrev R_TBL_P_PINNED : Nat := 0x50114
abbrev R_TBL_P_AGED : Nat := 0x50118
abbrev R_TBL_P_IFILT : Nat := 0x5011C
abbrev R_TBL_P_FLOOD : Nat := 0x50120
abbrev R_TBL_PVID : Nat := 0x50400
abbrev R_SW_MODE : Nat := 0x60000
abbrev R_SW_SPILL_CFG : Nat := 0x60004
abbrev R_SW_SPILL_STAT : Nat := 0x60008
abbrev R_SW_BUF_FREE : Nat := 0x6000C
abbrev R_SW_WD : Nat := 0x60010
abbrev R_SW_RSQ_CFG : Nat := 0x60014
abbrev R_SW_PG_RSV : Nat := 0x60020
abbrev R_SW_PG_MAX : Nat := 0x60024
abbrev R_SW_PG_SHI : Nat := 0x60028
abbrev R_SW_PG_SLO : Nat := 0x6002C
abbrev R_SW_RECLAIMED : Nat := 0x60060
abbrev R_SW_PIPE_RESET : Nat := 0x60064
abbrev R_SW_RSQ_NOCTX : Nat := 0x60068
abbrev R_SW_SMP_DROP : Nat := 0x6006C
abbrev R_SW_SPILL_DROP : Nat := 0x60070
abbrev R_SW_QSEL : Nat := 0x60100
abbrev R_SW_ISEL : Nat := 0x60104
abbrev R_SW_SSEL : Nat := 0x60108
abbrev R_SW_Q_DEPTH : Nat := 0x60200
abbrev R_SW_Q_SPILLED : Nat := 0x60204
abbrev R_SW_Q_LIM : Nat := 0x60208
abbrev R_SW_Q_WRED_G : Nat := 0x6020C
abbrev R_SW_Q_WRED_Y : Nat := 0x60210
abbrev R_SW_Q_WRED_R : Nat := 0x60214
abbrev R_SW_Q_PMAX : Nat := 0x60218
abbrev R_SW_Q_ECN : Nat := 0x6021C
abbrev R_SW_Q_AVG : Nat := 0x60220
abbrev R_SW_Q_ENQ : Nat := 0x60240
abbrev R_SW_Q_WDROP_G : Nat := 0x60248
abbrev R_SW_Q_WDROP_Y : Nat := 0x6024C
abbrev R_SW_Q_WDROP_R : Nat := 0x60250
abbrev R_SW_Q_ADROP : Nat := 0x60254
abbrev R_SW_Q_ECN_MARK : Nat := 0x60258
abbrev R_SW_Q_TDROP : Nat := 0x6025C
abbrev R_SW_Q_BYPASS : Nat := 0x60260
abbrev R_SW_I_SMP : Nat := 0x60300
abbrev R_SW_I_FC : Nat := 0x60304
abbrev R_SW_I_USED : Nat := 0x60308
abbrev R_SW_I_SAMPLED : Nat := 0x6030C
abbrev R_SW_I_OVF : Nat := 0x60310
abbrev R_SW_S_LOST : Nat := 0x60380
abbrev R_SW_S_DUP : Nat := 0x60384
abbrev R_SW_S_LATE : Nat := 0x60388
abbrev R_SW_S_NOTAG : Nat := 0x6038C
abbrev R_SW_S_SEQ : Nat := 0x60390
abbrev R_POL_SEL : Nat := 0x70000
abbrev R_POL_SSEL : Nat := 0x70004
abbrev R_POL_BPS : Nat := 0x70008
abbrev R_POL_CFG : Nat := 0x70100
abbrev R_POL_CIR : Nat := 0x70104
abbrev R_POL_PIR : Nat := 0x70108
abbrev R_POL_BS : Nat := 0x7010C
abbrev R_POL_TC : Nat := 0x70110
abbrev R_POL_TP : Nat := 0x70114
abbrev R_POL_GREEN : Nat := 0x70120
abbrev R_POL_YELLOW : Nat := 0x70124
abbrev R_POL_RED : Nat := 0x70128
abbrev R_POL_S_SDU_DROP : Nat := 0x70200
abbrev R_SCH_SEL : Nat := 0x80000
abbrev R_SCH_LAUNCH : Nat := 0x80004
abbrev R_SCH_Q_CFG : Nat := 0x80100
abbrev R_SCH_Q_RATE : Nat := 0x80120
abbrev R_SCH_Q_BURST : Nat := 0x80124
abbrev R_SCH_GCL_CFG : Nat := 0x80160
abbrev R_SCH_GCL_CYC : Nat := 0x80164
abbrev R_SCH_GCL_OFS : Nat := 0x80168
abbrev R_SCH_GCL_STAT : Nat := 0x8016C
abbrev R_SCH_GATE_SKIP : Nat := 0x80170
abbrev R_SCH_GATE_OVERSIZE : Nat := 0x80174
abbrev R_SCH_LAUNCH_MISS : Nat := 0x80178
abbrev R_SCH_LAUNCH_LATE : Nat := 0x8017C
abbrev R_SCH_LAUNCH_FAR : Nat := 0x80180
abbrev R_SCH_TRIG_EMPTY : Nat := 0x80184
abbrev R_SCH_GCL_ENT : Nat := 0x80200
abbrev R_CCK_FAIL : Nat := 0x90000
abbrev R_CCK_HP_IN : Nat := 0x90004
abbrev R_CCK_HOST_REP : Nat := 0x90008
abbrev R_CCK_UNFIT : Nat := 0x9000C
abbrev R_CCK_FIRST_STAT : Nat := 0x90010
abbrev R_CCK_FIRST_EXP : Nat := 0x90014
abbrev R_CCK_FIRST_GOT : Nat := 0x90018
abbrev R_CCK_FIRST_TLO : Nat := 0x9001C
abbrev R_CCK_FIRST_THI : Nat := 0x90020
abbrev R_CCK_INJECT : Nat := 0x90024
abbrev R_CCK_SEL : Nat := 0x90100
abbrev R_CCK_E_FAIL : Nat := 0x90104
abbrev R_VLT_STAT : Nat := 0xA0000
abbrev R_VLT_TAMPER : Nat := 0xA0004
abbrev R_VLT_SLOTS : Nat := 0xA0008
abbrev R_VLT_UPD_OK : Nat := 0xA000C
abbrev R_VLT_UPD_REF : Nat := 0xA0010
abbrev R_VLT_LAST : Nat := 0xA0014
abbrev R_VLT_SLOT_SEL : Nat := 0xA0020
abbrev R_VLT_SLOT_STATE : Nat := 0xA0024
abbrev R_VLT_SLOT_ATTR_LO : Nat := 0xA0028
abbrev R_VLT_SLOT_ATTR_HI : Nat := 0xA002C
abbrev R_VLT_SLOT_GEN : Nat := 0xA0030
abbrev R_VLT_SLOT_UCNT : Nat := 0xA0034
abbrev R_VLT_PRIVATE : Nat := 0xA0100
abbrev R_CIPH_SQ_BASE_LO : Nat := 0xB0100
abbrev R_CIPH_SQ_BASE_HI : Nat := 0xB0104
abbrev R_CIPH_CQ_BASE_LO : Nat := 0xB0108
abbrev R_CIPH_CQ_BASE_HI : Nat := 0xB010C
abbrev R_CIPH_RING_CFG : Nat := 0xB0110
abbrev R_CIPH_SQ_TAIL : Nat := 0xB0114
abbrev R_CIPH_CQ_HEAD : Nat := 0xB0118
abbrev R_CIPH_SQ_HEAD : Nat := 0xB011C
abbrev R_CIPH_CQ_TAIL : Nat := 0xB0120
abbrev R_CIPH_KCTL : Nat := 0xB0140
abbrev R_CIPH_KEYW0 : Nat := 0xB0144
abbrev R_CIPH_KEYW1 : Nat := 0xB0148
abbrev R_CIPH_KEYW2 : Nat := 0xB014C
abbrev R_CIPH_KEYW3 : Nat := 0xB0150
abbrev R_CIPH_KEYW4 : Nat := 0xB0154
abbrev R_CIPH_KEYW5 : Nat := 0xB0158
abbrev R_CIPH_KEYW6 : Nat := 0xB015C
abbrev R_CIPH_KEYW7 : Nat := 0xB0160
abbrev R_CIPH_WD : Nat := 0xB0164
abbrev R_CIPH_JOBS : Nat := 0xB0170
abbrev R_CIPH_AUTHFAIL : Nat := 0xB0174
abbrev R_CIPH_WD_CNT : Nat := 0xB0178
abbrev R_CIPH_LA_SEL : Nat := 0xB0400
abbrev R_CIPH_LA_CFG : Nat := 0xB0404
abbrev R_CIPH_LA_WIN : Nat := 0xB0408
abbrev R_CIPH_LA_DID : Nat := 0xB040C
abbrev R_CIPH_LA_L_LO : Nat := 0xB0410
abbrev R_CIPH_LA_L_HI : Nat := 0xB0414
abbrev R_CIPH_LA_T_LO : Nat := 0xB0418
abbrev R_CIPH_LA_T_HI : Nat := 0xB041C
abbrev R_CIPH_LA_OK : Nat := 0xB0420
abbrev R_CIPH_LA_MAC : Nat := 0xB0424
abbrev R_CIPH_LA_FRESH : Nat := 0xB0428
abbrev R_CIPH_LA_KEY : Nat := 0xB042C
abbrev R_CIPH_LA_SHORT : Nat := 0xB0430
abbrev R_CIPH_LA_FINAL : Nat := 0xB0434
abbrev R_CIPH_PRIVATE : Nat := 0xB0800
abbrev R_NFC_STAT : Nat := 0xC0000
abbrev R_NFC_WIRE_STAT : Nat := 0xC0004
abbrev R_NFC_CRED_LAST : Nat := 0xC0008
abbrev R_NFC_EPOCH_MIN : Nat := 0xC000C
abbrev R_NFC_REVOKED : Nat := 0xC0010
abbrev R_NFC_CFG : Nat := 0xC0014
abbrev R_NFC_EXCH : Nat := 0xC0020
abbrev R_NFC_WIRE_RETRY : Nat := 0xC0024
abbrev R_NFC_CRED_OK : Nat := 0xC0028
abbrev R_NFC_CRED_FAIL : Nat := 0xC002C
abbrev R_LDG_STAT : Nat := 0xD0000
abbrev R_LDG_LT_LO : Nat := 0xD0004
abbrev R_LDG_LT_HI : Nat := 0xD0008
abbrev R_LDG_WALL_LO : Nat := 0xD000C
abbrev R_LDG_WALL_HI : Nat := 0xD0010
abbrev R_LDG_OFS_LO : Nat := 0xD0014
abbrev R_LDG_OFS_HI : Nat := 0xD0018
abbrev R_LDG_TRIM : Nat := 0xD001C
abbrev R_LDG_BILL : Nat := 0xD0020
abbrev R_LDG_TARIFF : Nat := 0xD0024
abbrev R_LDG_INTERVAL : Nat := 0xD0028
abbrev R_LDG_HEAD_LO : Nat := 0xD0030
abbrev R_LDG_HEAD_HI : Nat := 0xD0034
abbrev R_LDG_OLDEST_LO : Nat := 0xD0038
abbrev R_LDG_OLDEST_HI : Nat := 0xD003C
abbrev R_LDG_WR : Nat := 0xD0040
abbrev R_LDG_QFULL : Nat := 0xD0044
abbrev R_ANG_STILL : Nat := 0xE0000
abbrev R_ANG_MOTION : Nat := 0xE0004
abbrev R_ANG_ODO : Nat := 0xE0008
abbrev R_ANG_ODO_LO : Nat := 0xE0010
abbrev R_ANG_ODO_HI : Nat := 0xE0014
abbrev R_ANG_TRIP_LO : Nat := 0xE0018
abbrev R_ANG_TRIP_HI : Nat := 0xE001C
abbrev R_ANG_LATE : Nat := 0xE0020
abbrev R_ANG_DIST_SKIP : Nat := 0xE0024
abbrev R_ANG_EVT_LAST : Nat := 0xE0028
abbrev R_TT_CFG : Nat := 0xE0100
abbrev R_TT_CFG2 : Nat := 0xE0104
abbrev R_TT_STAT : Nat := 0xE0108
abbrev R_TT_ANGLE : Nat := 0xE010C
abbrev R_TT_PITCH : Nat := 0xE0110
abbrev R_TT_SPEED : Nat := 0xE0114
abbrev R_TT_REV : Nat := 0xE0118
abbrev R_TT_EDGES : Nat := 0xE0120
abbrev R_TT_LOSS : Nat := 0xE0128
abbrev R_TT_SYNTH : Nat := 0xE012C
abbrev R_TT_DISC : Nat := 0xE0130
abbrev R_ANG_EVT_LO : Nat := 0xE0400
abbrev R_ANG_EVT_HI : Nat := 0xE0404
abbrev R_FB_CMPO_MAP : Nat := 0xF0000
abbrev R_FB_CMPO_STAT : Nat := 0xF0004
abbrev R_FB_BOLT_CFG : Nat := 0xF0020
abbrev R_FB_BOLT_CFG2 : Nat := 0xF0024
abbrev R_FB_BOLT_REL : Nat := 0xF0028
abbrev R_FB_BOLT_ENG : Nat := 0xF002C
abbrev R_FB_BOLT_STAT : Nat := 0xF0030
abbrev R_FB_CFG : Nat := 0xF0100
abbrev R_FB_CFG2 : Nat := 0xF0104
abbrev R_FB_SIN : Nat := 0xF0108
abbrev R_FB_COS : Nat := 0xF010C
abbrev R_FB_POS : Nat := 0xF0110
abbrev R_FB_AMP : Nat := 0xF0114
abbrev R_FB_SPEED : Nat := 0xF0118
abbrev R_FB_STAT : Nat := 0xF011C
abbrev R_FB_FLT_CNT : Nat := 0xF0120
abbrev R_FB0_CMP_POS : Nat := 0xF0140
abbrev R_FB0_CMP_CTL : Nat := 0xF0144
abbrev R_FB0_VCMP_POS : Nat := 0xF01B0
abbrev R_FB0_VCMP_CTL : Nat := 0xF01B4
abbrev R_FB1_CMP_POS : Nat := 0xF0240
abbrev R_FB1_CMP_CTL : Nat := 0xF0244
abbrev R_FB1_VCMP_POS : Nat := 0xF02B0
abbrev R_FB1_VCMP_CTL : Nat := 0xF02B4
abbrev R_FB2_CMP_POS : Nat := 0xF0340
abbrev R_FB2_CMP_CTL : Nat := 0xF0344
abbrev R_FB2_VCMP_POS : Nat := 0xF03B0
abbrev R_FB2_VCMP_CTL : Nat := 0xF03B4
abbrev R_FB3_CMP_POS : Nat := 0xF0440
abbrev R_FB3_CMP_CTL : Nat := 0xF0444
abbrev R_FB3_VCMP_POS : Nat := 0xF04B0
abbrev R_FB3_VCMP_CTL : Nat := 0xF04B4
abbrev R_BRG_CFG : Nat := 0x100000
abbrev R_BRG_STAT : Nat := 0x100004
abbrev R_BRG_SUM_LO : Nat := 0x100008
abbrev R_BRG_SUM_HI : Nat := 0x10000C
abbrev R_BRG_MOD : Nat := 0x100010
abbrev R_BRG_HP_CFG : Nat := 0x100014
abbrev R_BRG_SEM_LEASE : Nat := 0x100018
abbrev R_BRG_LOCKED_TLP : Nat := 0x100020
abbrev R_BRG_D_ERR : Nat := 0x100024
abbrev R_BRG_SEM_FORCED : Nat := 0x100028
abbrev R_BRG_SEM_STALE : Nat := 0x10002C
abbrev R_BRG_SPI_ABORT : Nat := 0x100030
abbrev R_BRG_HP_RX_BIG : Nat := 0x100034
abbrev R_BRG_SUMMARY : Nat := 0x100040
abbrev R_BRG_VMAP : Nat := 0x100100
abbrev R_BRG_SEM_ACQ : Nat := 0x100200
abbrev R_BRG_SEM_REL : Nat := 0x100204
abbrev R_BRG_SEM_STAT : Nat := 0x100208
abbrev R_BRG_SEM_LEFT : Nat := 0x10020C
abbrev R_BRG_SEM_COMMIT0 : Nat := 0x100210
abbrev R_BRG_SEM_COMMIT1 : Nat := 0x100214
abbrev R_BRG_SEM_COMMIT2 : Nat := 0x100218
abbrev R_BRG_SEM_COMMIT3 : Nat := 0x10021C
abbrev R_BRG_RING_BASE_LO : Nat := 0x100400
abbrev R_BRG_RING_BASE_HI : Nat := 0x100404
abbrev R_BRG_RING_CFG : Nat := 0x100408
abbrev R_BRG_RING_PROD : Nat := 0x10040C
abbrev R_BRG_RING_CONS : Nat := 0x100410
abbrev R_HLB_CFG : Nat := 0x110000
abbrev R_HLB_DOMAIN : Nat := 0x110004
abbrev R_HLB_KEYSLOT : Nat := 0x110008
abbrev R_HLB_STAT : Nat := 0x11000C
abbrev R_HLB_EPOCH : Nat := 0x110010
abbrev R_HLB_EPOCH_MAX : Nat := 0x110014
abbrev R_HLB_DIGEST_LO : Nat := 0x110018
abbrev R_HLB_DIGEST_HI : Nat := 0x11001C
abbrev R_HLB_LOCK : Nat := 0x110020
abbrev R_HLB_REV_SEQ : Nat := 0x110024
abbrev R_HLB_RX_AUTH : Nat := 0x110040
abbrev R_HLB_RX_REPLAY : Nat := 0x110044
abbrev R_HLB_FWD_DROP : Nat := 0x110048
abbrev R_HLB_FWD_SH : Nat := 0x11004C
abbrev R_HLB_FWD_BIG : Nat := 0x110050
abbrev R_HLB_MEM_SEL : Nat := 0x110100
abbrev R_HLB_MEM_STAT : Nat := 0x110104
abbrev R_HLB_MEM_EPOCH : Nat := 0x110108
abbrev R_HLB_MEM_DIGEST_LO : Nat := 0x11010C
abbrev R_HLB_MEM_DIGEST_HI : Nat := 0x110110
abbrev R_BGS_CFG : Nat := 0x120000
abbrev R_BGS_STAT : Nat := 0x120004
abbrev R_BGS_TEMP : Nat := 0x120008
abbrev R_BGS_SCRUB_POS : Nat := 0x12000C
abbrev R_BGS_SCRUB_PASS : Nat := 0x120010
abbrev R_BGS_SCRUB_CE : Nat := 0x120014
abbrev R_BGS_SCRUB_UE : Nat := 0x120018
abbrev R_BGS_LEAK : Nat := 0x12001C
abbrev R_BGS_CAL_FAIL : Nat := 0x120020
abbrev R_BGS_ERASE : Nat := 0x120024
abbrev R_BGS_TELEM : Nat := 0x120028
abbrev R_BGS_UE_LO : Nat := 0x120030
abbrev R_BGS_UE_HI : Nat := 0x120034
abbrev R_BGS_CHAIN_AGE : Nat := 0x120038
abbrev R_EVT_MONO : Nat := 0x12003C
abbrev R_EVT_PEND : Nat := 0x120100
abbrev R_EVT_EN : Nat := 0x120120
abbrev R_EVT_GSUM : Nat := 0x120140
abbrev R_EVT_REPEAT : Nat := 0x120150
abbrev R_EVT_TEST : Nat := 0x120170
abbrev R_DBG_FRZ_STAT : Nat := 0x130000
abbrev R_DBG_FRZ_IGN : Nat := 0x130004
abbrev R_DBG_FRZ_CNT : Nat := 0x130008
abbrev R_DBG_FRZ_DUR : Nat := 0x13000C
abbrev R_DBG_LANE_SEL : Nat := 0x130040
abbrev R_DBG_LANE_V : Nat := 0x130044
abbrev R_DBG_LOOP : Nat := 0x130050

/-- The SYS bank: Tables 0.5, 0.6, 1.5, 2.7, 2.8, 4.7, 4.8, 14.8, 19.7. -/
def regRowsSYS : List RegRow :=
  [ ⟨0x0, 4, 1, .none, .plain, 0x9640, 0x0, 0x0, 0x0, 0x0, 0x0, 0x0, 0x0, 0x0, 0x0, []⟩,
    ⟨0x4, 4, 1, .none, .plain, 0x201, 0x0, 0x0, 0x0, 0x0, 0x0, 0x0, 0x0, 0x0, 0x0, []⟩,
    ⟨0x40, 4, 1, .none, .plain, 0x0, 0x0, 0x0, 0x0, 0x0, 0x0, 0x0, 0x0, 0x0, 0x0, []⟩,
    ⟨0x44, 4, 1, .none, .stat, 0x0, 0x0, 0x0, 0x0, 0x0, 0x0, 0x0, 0x0, 0x0, 0x0, []⟩,
    ⟨0x48, 4, 1, .none, .plain, 0x0, 0x0, 0xF, 0x0, 0x0, 0x0, 0x0, 0x0, 0x0, 0x0, []⟩,
    ⟨0x4C, 4, 1, .none, .plain, 0x0, 0x0, 0xF, 0x0, 0x0, 0x0, 0x0, 0x0, 0x0, 0x0, []⟩,
    ⟨0x50, 4, 1, .none, .plain, 0x0, 0x0, 0x0, 0x0, 0x0, 0x0, 0x0, 0x0, 0x0, 0x0, []⟩,
    ⟨0x54, 4, 1, .none, .plain, 0x0, 0x0, 0xFFC3, 0x0, 0x0, 0x0, 0x0, 0x0, 0x0, 0x0, []⟩,
    ⟨0x58, 4, 1, .none, .plain, 0x0, 0x0, 0xFFFFFF, 0x0, 0x0, 0x0, 0x0, 0x0, 0x0, 0x0, []⟩,
    ⟨0x60, 4, 4, .none, .plain, 0x0, 0x0, 0xFFFFFFFF, 0x0, 0x0, 0x0, 0x0, 0x0, 0x0, 0x0, []⟩,
    ⟨0x70, 4, 4, .none, .plain, 0x0, 0x0, 0xFFFFFFFF, 0x0, 0x0, 0x0, 0x0, 0x0, 0x0, 0x0, []⟩,
    ⟨0x80, 4, 4, .none, .plain, 0x0, 0x0, 0xFFFFFFFF, 0x0, 0x0, 0x0, 0x0, 0x0, 0x0, 0x0, []⟩,
    ⟨0x90, 4, 4, .none, .plain, 0x0, 0x0, 0xFFFFFFFF, 0x0, 0xFFFFFFFF, 0x0, 0x0, 0x0, 0x0, 0x0, []⟩,
    ⟨0x200, 4, 1, .none, .plain, 0x0, 0x0, 0x1, 0x0, 0x0, 0x1, 0x0, 0x0, 0x0, 0x0, []⟩,
    ⟨0x210, 4, 1, .none, .plain, 0x0, 0x0, 0x800F0F01, 0x0, 0x80000000, 0x0, 0x0, 0x0, 0x0, 0x0, []⟩,
    ⟨0x214, 4, 1, .none, .plain, 0x0, 0x0, 0xFFFFFFFF, 0x0, 0x0, 0x0, 0x0, 0x0, 0x0, 0x0, []⟩,
    ⟨0x218, 4, 1, .none, .plain, 0x0, 0x0, 0xFFFFFFFF, 0x0, 0x0, 0x0, 0x0, 0x0, 0x0, 0x0, []⟩,
    ⟨0x21C, 4, 1, .none, .stat, 0x0, 0x0, 0x0, 0x0, 0x0, 0x0, 0x0, 0x0, 0x0, 0x0, []⟩,
    ⟨0x220, 4, 1, .none, .stat, 0x0, 0x0, 0x0, 0x0, 0x0, 0x0, 0x0, 0x0, 0x0, 0x0, []⟩,
    ⟨0x224, 4, 1, .none, .plain, 0x0, 0x0, 0x0, 0x0, 0x0, 0x0, 0x0, 0x0, 0x0, 0x0, []⟩,
    ⟨0x228, 4, 1, .none, .stat, 0x0, 0x0, 0x0, 0x0, 0x0, 0x0, 0x0, 0x0, 0x0, 0x0, []⟩,
    ⟨0x22C, 4, 1, .none, .plain, 0x0, 0x0, 0x0, 0x0, 0x0, 0x0, 0x0, 0x0, 0x0, 0x0, []⟩,
    ⟨0x240, 16, 8, .none, .plain, 0x0, 0x0, 0xFFFFF000, 0x0, 0x0, 0xFFFFF000, 0x0, 0x0, 0x0, 0x0, []⟩,
    ⟨0x244, 16, 8, .none, .plain, 0x0, 0x0, 0xFFFFFFFF, 0x0, 0x0, 0xFFFFFFFF, 0x0, 0x0, 0x0, 0x0, []⟩,
    ⟨0x248, 16, 8, .none, .plain, 0x0, 0x0, 0xFFFFF, 0x0, 0x0, 0xFFFFF, 0x0, 0x0, 0x0, 0x0, []⟩,
    ⟨0x24C, 16, 8, .none, .plain, 0x0, 0x0, 0x7, 0x0, 0x0, 0x7, 0x0, 0x0, 0x0, 0x0, []⟩ ]

/-- The PWR bank: Tables 3.10 to 3.13. -/
def regRowsPWR : List RegRow :=
  [ ⟨0x10000, 4, 1, .none, .plain, 0x0, 0xF01FF, 0xF01FF, 0x0, 0x0, 0x0, 0x0, 0x0, 0x0, 0x0, []⟩,
    ⟨0x10004, 4, 1, .none, .plain, 0x0, 0x1F03FF, 0x1F03FF, 0x1F03FF, 0x0, 0x0, 0x0, 0x0, 0x0, 0x0, []⟩,
    ⟨0x10008, 4, 1, .none, .plain, 0x0, 0xFF3F, 0xFF3F, 0x0, 0x803F, 0x0, 0x0, 0x0, 0x0, 0x0, []⟩,
    ⟨0x10010, 4, 1, .none, .plain, 0x763C37, 0x0, 0xFFFFFF, 0xFFFFFF, 0x0, 0x0, 0x0, 0x0, 0x0, 0x0, [⟨16, 8, [(0, 0), (100, 125)]⟩, ⟨8, 8, [(50, 90)]⟩, ⟨0, 8, [(45, 80)]⟩]⟩,
    ⟨0x10014, 4, 1, .none, .plain, 0x480078, 0x0, 0xFFF0FFF, 0xFFF0FFF, 0x0, 0x0, 0x0, 0x0, 0x0, 0x0, [⟨16, 12, [(0, 720)]⟩, ⟨0, 12, [(10, 3600)]⟩]⟩,
    ⟨0x10018, 4, 1, .none, .plain, 0x0, 0x0, 0x0, 0x0, 0x0, 0x0, 0x0, 0x0, 0x0, 0x0, []⟩,
    ⟨0x1001C, 4, 1, .none, .stat, 0x0, 0x0, 0x0, 0x0, 0x0, 0x0, 0x0, 0x0, 0x0, 0x0, []⟩,
    ⟨0x10020, 4, 1, .none, .plain, 0x0, 0x0, 0x0, 0x3FFF, 0x0, 0x0, 0x0, 0x0, 0x0, 0x0, []⟩,
    ⟨0x10024, 4, 1, .none, .plain, 0x0, 0x0, 0x0, 0x3FFF, 0x0, 0x0, 0x0, 0x0, 0x0, 0x0, []⟩,
    ⟨0x10028, 4, 1, .none, .plain, 0x0, 0x0, 0x0, 0x0, 0x0, 0x0, 0x0, 0x0, 0x0, 0x0, []⟩,
    ⟨0x1002C, 4, 1, .none, .plain, 0x0, 0x0, 0x0, 0x0, 0x0, 0x0, 0x0, 0x0, 0x0, 0x0, []⟩,
    ⟨0x10030, 4, 1, .none, .plain, 0x0, 0x0, 0x0, 0x0, 0x0, 0x0, 0x0, 0xFFFF, 0x0, 0x0, []⟩,
    ⟨0x10034, 4, 1, .none, .plain, 0x0, 0x1F0000, 0x1F0000, 0x0, 0x1F0000, 0x0, 0x0, 0x0, 0x0, 0x0, []⟩,
    ⟨0x10038, 4, 1, .none, .plain, 0x0, 0xFFFFFF, 0xFFFFFF, 0xFFFFFF, 0x0, 0x0, 0x0, 0x0, 0x0, 0x0, []⟩ ]

/-- The TIME bank: Tables 5.5 to 5.7. -/
def regRowsTIME : List RegRow :=
  [ ⟨0x20000, 4, 1, .none, .plain, 0x161, 0x0, 0x73, 0x0, 0x0, 0x0, 0x0, 0x0, 0x73, 0x0, []⟩,
    ⟨0x20004, 4, 1, .none, .plain, 0x0, 0x0, 0xFFFFFFFF, 0x0, 0x0, 0x0, 0x0, 0x0, 0x0, 0x0, []⟩,
    ⟨0x20008, 4, 1, .none, .plain, 0x0, 0x0, 0x0, 0x0, 0x3F, 0x0, 0x0, 0x0, 0x0, 0x0, []⟩,
    ⟨0x2000C, 4, 1, .none, .stat, 0x0, 0x0, 0x0, 0x0, 0x0, 0x0, 0x0, 0x0, 0x0, 0x0, []⟩,
    ⟨0x20010, 4, 1, .none, .plain, 0x7D0, 0x0, 0x7FFF, 0x7FFF, 0x0, 0x0, 0x0, 0x0, 0x0, 0x0, [⟨0, 15, [(16, 32767)]⟩]⟩,
    ⟨0x20014, 4, 1, .none, .plain, 0x3, 0x0, 0x3, 0x0, 0x0, 0x0, 0x0, 0x0, 0x3, 0x0, []⟩,
    ⟨0x20100, 64, 3, .none, .plain, 0x3D0000, 0x0, 0xFFFFFF03, 0x0, 0x0, 0x0, 0x0, 0x0, 0xFFFFFF03, 0x0, []⟩,
    ⟨0x20104, 64, 3, .none, .plain, 0x0, 0x0, 0x17, 0x0, 0x10, 0x0, 0x0, 0x0, 0x0, 0x0, []⟩,
    ⟨0x20108, 64, 3, .none, .plain, 0x0, 0x0, 0x3FFFFFFF, 0x0, 0x0, 0x0, 0x0, 0x0, 0x0, 0x0, []⟩,
    ⟨0x2010C, 64, 3, .none, .plain, 0x0, 0x0, 0xFFFFFFFF, 0x0, 0x0, 0x0, 0x0, 0x0, 0x0, 0x0, []⟩,
    ⟨0x20110, 64, 3, .none, .plain, 0x0, 0x0, 0xFFFF, 0x0, 0x0, 0x0, 0x0, 0x0, 0x0, 0x0, []⟩,
    ⟨0x20114, 64, 3, .none, .plain, 0x0, 0x0, 0xFFFF, 0x0, 0x0, 0x0, 0x0, 0x0, 0x0, 0x0, []⟩,
    ⟨0x20118, 64, 3, .none, .plain, 0x0, 0x0, 0xFFFFFFFF, 0x0, 0x0, 0x0, 0x0, 0x0, 0x0, 0x0, []⟩,
    ⟨0x2011C, 64, 3, .none, .plain, 0x0, 0x0, 0xFFFFFFFF, 0x0, 0x0, 0x0, 0x0, 0x0, 0x0, 0x0, []⟩,
    ⟨0x20120, 64, 3, .none, .plain, 0x140064, 0x0, 0xFFFFFFFF, 0x0, 0x0, 0x0, 0x0, 0x0, 0xFFFFFFFF, 0x0, []⟩,
    ⟨0x20400, 32, 32, .none, .plain, 0x0, 0x0, 0x803FFF00, 0x3FFF0F, 0x0, 0x0, 0x0, 0x80000000, 0x0, 0x0, []⟩,
    ⟨0x20404, 32, 32, .none, .plain, 0x0, 0x0, 0xFFFFFFFF, 0xFFFFFFFF, 0x0, 0x0, 0x0, 0x0, 0x0, 0x0, []⟩,
    ⟨0x20408, 32, 32, .none, .plain, 0x0, 0x0, 0x3FFFFFFF, 0x3FFFFFFF, 0x0, 0x0, 0x0, 0x0, 0x0, 0x0, [⟨0, 30, [(0, 999999999)]⟩]⟩,
    ⟨0x2040C, 32, 32, .none, .plain, 0x0, 0x0, 0xFFFFFFFF, 0xFFFFFFFF, 0x0, 0x0, 0x0, 0x0, 0x0, 0x0, [⟨0, 32, [(0, 0), (1000, 4294967295)]⟩]⟩,
    ⟨0x20410, 32, 32, .none, .plain, 0x0, 0x0, 0xFFFF, 0xFFFF, 0x0, 0x0, 0x0, 0x0, 0x0, 0x0, []⟩,
    ⟨0x20414, 32, 32, .none, .plain, 0x0, 0x0, 0x3, 0x0, 0x2, 0x0, 0x0, 0x0, 0x0, 0x0, []⟩,
    ⟨0x20418, 32, 32, .none, .stat, 0x0, 0x0, 0x0, 0x0, 0x0, 0x0, 0x0, 0x0, 0x0, 0x0, []⟩ ]

/-- The LANE bank: Tables 6.9 to 6.13. -/
def regRowsLANE : List RegRow :=
  [ ⟨0x30000, 4, 1, .none, .plain, 0x0, 0x0, 0x0, 0x7F, 0x0, 0x0, 0x0, 0x0, 0x0, 0x0, [⟨0, 7, [(0, 95)]⟩]⟩,
    ⟨0x30010, 4, 3, .none, .plain, 0x0, 0x0, 0x0, 0x0, 0x0, 0x0, 0x0, 0x0, 0x0, 0x0, []⟩,
    ⟨0x30020, 4, 3, .none, .plain, 0x0, 0xFFFFFFFF, 0xFFFFFFFF, 0xFFFFFFFF, 0x0, 0x0, 0x0, 0x0, 0x0, 0x0, []⟩,
    ⟨0x30040, 4, 1, .none, .plain, 0x0, 0xDFFFFFFF, 0xDFFFFFFF, 0x0, 0xC0000000, 0x0, 0x0, 0x0, 0x0, 0x0, []⟩,
    ⟨0x30044, 4, 2, .none, .plain, 0x0, 0xFFFFFFFF, 0xFFFFFFFF, 0x0, 0x0, 0x0, 0x0, 0x0, 0x0, 0x0, []⟩,
    ⟨0x30100, 4, 1, .lane, .plain, 0x0, 0x0, 0xFFF, 0x0, 0x0, 0x0, 0x0, 0x0, 0xFFF, 0x0, []⟩,
    ⟨0x30104, 4, 1, .lane, .plain, 0x0, 0x0, 0x3FFFFFFF, 0x0, 0x0, 0x0, 0x0, 0x0, 0x3FFFFFFF, 0x0, []⟩,
    ⟨0x30108, 4, 1, .lane, .plain, 0x0, 0x0, 0x3FFFFFFF, 0x0, 0x0, 0x0, 0x0, 0x0, 0x3FFFFFFF, 0x0, []⟩,
    ⟨0x3010C, 4, 1, .lane, .plain, 0x0, 0x0, 0x7F, 0x0, 0x0, 0x0, 0x0, 0x0, 0x7F, 0x0, []⟩,
    ⟨0x30110, 4, 1, .lane, .plain, 0x4B00, 0x0, 0xE7FFF, 0x0, 0x0, 0x0, 0x0, 0x0, 0xE7FFF, 0x0, []⟩,
    ⟨0x30114, 4, 1, .lane, .plain, 0x200800, 0x0, 0xFFFFFFFF, 0x0, 0x0, 0x0, 0x0, 0x0, 0xFFFFFFFF, 0x0, []⟩,
    ⟨0x30120, 4, 1, .lane, .plain, 0x0, 0x0, 0x1F0, 0x0, 0x0, 0x0, 0x0, 0x0, 0x0, 0x0, []⟩,
    ⟨0x30124, 4, 1, .lane, .plain, 0x0, 0x0, 0x0, 0x0, 0x0, 0x0, 0x0, 0x0, 0x0, 0x0, []⟩,
    ⟨0x30128, 4, 1, .lane, .plain, 0x0, 0x0, 0xF81FF, 0x0, 0x1FF, 0x0, 0x0, 0x0, 0x0, 0x0, []⟩,
    ⟨0x3012C, 4, 1, .lane, .plain, 0xC8800064, 0x0, 0xFFFFFFFF, 0x0, 0x0, 0x0, 0x0, 0x0, 0xFFFFFFFF, 0x0, []⟩,
    ⟨0x30130, 4, 1, .lane, .plain, 0x0, 0x0, 0x1FF, 0x0, 0x0, 0x0, 0x0, 0x0, 0x1FF, 0x0, []⟩,
    ⟨0x30134, 4, 1, .lane, .plain, 0x0, 0x0, 0x1FFFFFFF, 0x0, 0x0, 0x0, 0x0, 0x0, 0x1FFFFFFF, 0x0, []⟩,
    ⟨0x30138, 4, 1, .lane, .plain, 0x0, 0x0, 0x1FFFFFFF, 0x0, 0x0, 0x0, 0x0, 0x0, 0x1FFFFFFF, 0x0, []⟩,
    ⟨0x3013C, 4, 1, .lane, .plain, 0x0, 0x0, 0xFFFFFFFF, 0x0, 0x0, 0x0, 0x0, 0x0, 0xFFFFFFFF, 0x0, []⟩,
    ⟨0x30140, 4, 1, .lane, .plain, 0x0, 0x0, 0xFFFFFFFF, 0x0, 0x0, 0x0, 0x0, 0x0, 0xFFFFFFFF, 0x0, []⟩,
    ⟨0x30180, 4, 1, .lane, .statLo, 0x0, 0x0, 0x0, 0x0, 0x0, 0x0, 0x0, 0x0, 0x0, 0x0, []⟩,
    ⟨0x30184, 4, 1, .lane, .statHi, 0x0, 0x0, 0x0, 0x0, 0x0, 0x0, 0x0, 0x0, 0x0, 0x0, []⟩,
    ⟨0x30188, 4, 1, .lane, .statLo, 0x0, 0x0, 0x0, 0x0, 0x0, 0x0, 0x0, 0x0, 0x0, 0x0, []⟩,
    ⟨0x3018C, 4, 1, .lane, .statHi, 0x0, 0x0, 0x0, 0x0, 0x0, 0x0, 0x0, 0x0, 0x0, 0x0, []⟩,
    ⟨0x30190, 4, 1, .lane, .stat, 0x0, 0x0, 0x0, 0x0, 0x0, 0x0, 0x0, 0x0, 0x0, 0x0, []⟩,
    ⟨0x30194, 4, 1, .lane, .stat, 0x0, 0x0, 0x0, 0x0, 0x0, 0x0, 0x0, 0x0, 0x0, 0x0, []⟩,
    ⟨0x30198, 4, 1, .lane, .stat, 0x0, 0x0, 0x0, 0x0, 0x0, 0x0, 0x0, 0x0, 0x0, 0x0, []⟩,
    ⟨0x301C0, 4, 16, .lane, .plain, 0x0, 0x0, 0xFFFFFFFF, 0x0, 0x0, 0x0, 0x0, 0x0, 0xFFFFFFFF, 0x0, []⟩ ]

/-- The PORT bank: Tables 7.4 to 7.6. -/
def regRowsPORT_0 : List RegRow :=
  [ ⟨0x40000, 4, 1, .none, .plain, 0x0, 0x0, 0x0, 0xFF, 0x0, 0x0, 0x0, 0x0, 0x0, 0x0, [⟨0, 8, [(0, 9), (16, 111)]⟩]⟩,
    ⟨0x40010, 4, 1, .none, .plain, 0x0, 0x0, 0x0, 0x0, 0x0, 0x0, 0x0, 0x0, 0x0, 0x0, []⟩,
    ⟨0x40100, 4, 1, .port, .statLo, 0x0, 0x0, 0x0, 0x0, 0x0, 0x0, 0x0, 0x0, 0x0, 0x0, []⟩,
    ⟨0x40104, 4, 1, .port, .statHi, 0x0, 0x0, 0x0, 0x0, 0x0, 0x0, 0x0, 0x0, 0x0, 0x0, []⟩,
    ⟨0x40108, 4, 1, .port, .statLo, 0x0, 0x0, 0x0, 0x0, 0x0, 0x0, 0x0, 0x0, 0x0, 0x0, []⟩,
    ⟨0x4010C, 4, 1, .port, .statHi, 0x0, 0x0, 0x0, 0x0, 0x0, 0x0, 0x0, 0x0, 0x0, 0x0, []⟩,
    ⟨0x40110, 4, 1, .port, .statLo, 0x0, 0x0, 0x0, 0x0, 0x0, 0x0, 0x0, 0x0, 0x0, 0x0, []⟩,
    ⟨0x40114, 4, 1, .port, .statHi, 0x0, 0x0, 0x0, 0x0, 0x0, 0x0, 0x0, 0x0, 0x0, 0x0, []⟩,
    ⟨0x40118, 4, 1, .port, .statLo, 0x0, 0x0, 0x0, 0x0, 0x0, 0x0, 0x0, 0x0, 0x0, 0x0, []⟩,
    ⟨0x4011C, 4, 1, .port, .statHi, 0x0, 0x0, 0x0, 0x0, 0x0, 0x0, 0x0, 0x0, 0x0, 0x0, []⟩,
    ⟨0x40120, 4, 1, .port, .stat, 0x0, 0x0, 0x0, 0x0, 0x0, 0x0, 0x0, 0x0, 0x0, 0x0, []⟩,
    ⟨0x40124, 4, 1, .port, .stat, 0x0, 0x0, 0x0, 0x0, 0x0, 0x0, 0x0, 0x0, 0x0, 0x0, []⟩,
    ⟨0x40128, 4, 1, .port, .stat, 0x0, 0x0, 0x0, 0x0, 0x0, 0x0, 0x0, 0x0, 0x0, 0x0, []⟩,
    ⟨0x4012C, 4, 1, .port, .stat, 0x0, 0x0, 0x0, 0x0, 0x0, 0x0, 0x0, 0x0, 0x0, 0x0, []⟩,
    ⟨0x40130, 4, 1, .port, .stat, 0x0, 0x0, 0x0, 0x0, 0x0, 0x0, 0x0, 0x0, 0x0, 0x0, []⟩,
    ⟨0x40134, 4, 1, .port, .stat, 0x0, 0x0, 0x0, 0x0, 0x0, 0x0, 0x0, 0x0, 0x0, 0x0, []⟩,
    ⟨0x40138, 4, 1, .port, .stat, 0x0, 0x0, 0x0, 0x0, 0x0, 0x0, 0x0, 0x0, 0x0, 0x0, []⟩,
    ⟨0x4013C, 4, 1, .port, .stat, 0x0, 0x0, 0x0, 0x0, 0x0, 0x0, 0x0, 0x0, 0x0, 0x0, []⟩,
    ⟨0x40140, 4, 1, .port, .stat, 0x0, 0x0, 0x0, 0x0, 0x0, 0x0, 0x0, 0x0, 0x0, 0x0, []⟩,
    ⟨0x40144, 4, 1, .port, .stat, 0x0, 0x0, 0x0, 0x0, 0x0, 0x0, 0x0, 0x0, 0x0, 0x0, []⟩,
    ⟨0x40148, 4, 1, .port, .stat, 0x0, 0x0, 0x0, 0x0, 0x0, 0x0, 0x0, 0x0, 0x0, 0x0, []⟩,
    ⟨0x4014C, 4, 1, .port, .stat, 0x0, 0x0, 0x0, 0x0, 0x0, 0x0, 0x0, 0x0, 0x0, 0x0, []⟩,
    ⟨0x40150, 4, 1, .port, .stat, 0x0, 0x0, 0x0, 0x0, 0x0, 0x0, 0x0, 0x0, 0x0, 0x0, []⟩,
    ⟨0x40180, 4, 1, .port, .plain, 0x0, 0x0, 0xF3171, 0x0, 0x0, 0x0, 0x0, 0x0, 0xF3171, 0x0, []⟩,
    ⟨0x40184, 4, 1, .port, .plain, 0xFFFF, 0x0, 0xFF03FFFF, 0x0, 0x0, 0x0, 0x0, 0x0, 0xFF03FFFF, 0x0, []⟩,
    ⟨0x40188, 4, 1, .port, .plain, 0x6403E8, 0x0, 0xFFFFFFFF, 0x0, 0x0, 0x0, 0x0, 0x0, 0xFFFFFFFF, 0x0, []⟩,
    ⟨0x4018C, 4, 1, .port, .plain, 0x640000, 0x0, 0x8FFFFFFF, 0x0, 0x0, 0x0, 0x0, 0x0, 0x8FFFFFFF, 0x0, []⟩,
    ⟨0x40190, 4, 1, .port, .plain, 0x100A, 0x0, 0x1F0F, 0x0, 0x0, 0x0, 0x0, 0x0, 0x1F0F, 0x0, []⟩,
    ⟨0x40194, 4, 1, .port, .plain, 0x5F2, 0x0, 0x3FFF, 0x0, 0x0, 0x0, 0x0, 0x0, 0x3FFF, 0x0, []⟩,
    ⟨0x401C0, 4, 1, .port, .plain, 0x0, 0x0, 0x200, 0x0, 0x0, 0x0, 0x0, 0x0, 0x0, 0x0, []⟩ ]

/-- The PORT bank, continued. -/
def regRowsPORT_1 : List RegRow :=
  [ ⟨0x401C4, 4, 1, .port, .plain, 0x0, 0x0, 0x0, 0x0, 0x0, 0x0, 0x0, 0x0, 0x0, 0x0, []⟩,
    ⟨0x401C8, 4, 1, .port, .plain, 0x0, 0x0, 0x0, 0x0, 0xFFFF0000, 0x0, 0x0, 0x0, 0x0, 0x0, []⟩,
    ⟨0x401CC, 4, 1, .port, .plain, 0x0, 0x0, 0x0, 0x0, 0x0, 0x0, 0x0, 0x0, 0x0, 0x0, []⟩ ]

/-- The whole PORT bank. -/
def regRowsPORT : List RegRow := regRowsPORT_0 ++ regRowsPORT_1

/-- The TBL bank: Table 8.7. -/
def regRowsTBL : List RegRow :=
  [ ⟨0x50000, 4, 1, .none, .plain, 0x12C, 0x0, 0xFFFFF, 0x0, 0x0, 0x0, 0x0, 0x0, 0xFFFFF, 0x0, []⟩,
    ⟨0x50004, 4, 1, .none, .plain, 0x0, 0x0, 0x1, 0x0, 0x0, 0x0, 0x0, 0x0, 0x1, 0x0, []⟩,
    ⟨0x50010, 4, 4, .none, .plain, 0x0, 0x0, 0x0, 0x0, 0x0, 0x0, 0x0, 0x0, 0x0, 0x0, []⟩,
    ⟨0x50100, 64, 4, .none, .plain, 0x0, 0x0, 0x0, 0x0, 0x0, 0x0, 0x0, 0x0, 0x0, 0x0, []⟩,
    ⟨0x50104, 64, 4, .none, .stat, 0x0, 0x0, 0x0, 0x0, 0x0, 0x0, 0x0, 0x0, 0x0, 0x0, []⟩,
    ⟨0x50108, 64, 4, .none, .stat, 0x0, 0x0, 0x0, 0x0, 0x0, 0x0, 0x0, 0x0, 0x0, 0x0, []⟩,
    ⟨0x5010C, 64, 4, .none, .stat, 0x0, 0x0, 0x0, 0x0, 0x0, 0x0, 0x0, 0x0, 0x0, 0x0, []⟩,
    ⟨0x50110, 64, 4, .none, .stat, 0x0, 0x0, 0x0, 0x0, 0x0, 0x0, 0x0, 0x0, 0x0, 0x0, []⟩,
    ⟨0x50114, 64, 4, .none, .stat, 0x0, 0x0, 0x0, 0x0, 0x0, 0x0, 0x0, 0x0, 0x0, 0x0, []⟩,
    ⟨0x50118, 64, 4, .none, .stat, 0x0, 0x0, 0x0, 0x0, 0x0, 0x0, 0x0, 0x0, 0x0, 0x0, []⟩,
    ⟨0x5011C, 64, 4, .none, .stat, 0x0, 0x0, 0x0, 0x0, 0x0, 0x0, 0x0, 0x0, 0x0, 0x0, []⟩,
    ⟨0x50120, 64, 4, .none, .stat, 0x0, 0x0, 0x0, 0x0, 0x0, 0x0, 0x0, 0x0, 0x0, 0x0, []⟩,
    ⟨0x50400, 4, 53, .none, .plain, 0x10001, 0x0, 0xFFF0FFF, 0x0, 0x0, 0x0, 0x0, 0x0, 0xFFF0FFF, 0x0, []⟩ ]

/-- The SW bank: Tables 9.8 to 9.10. -/
def regRowsSW_0 : List RegRow :=
  [ ⟨0x60000, 4, 1, .none, .plain, 0x0, 0x0, 0xFF, 0x0, 0x0, 0x0, 0x0, 0x0, 0xFF, 0x0, []⟩,
    ⟨0x60004, 4, 1, .none, .plain, 0x0, 0x0, 0x3, 0x0, 0x0, 0x0, 0x0, 0x0, 0x3, 0x0, []⟩,
    ⟨0x60008, 4, 1, .none, .plain, 0x0, 0x0, 0x80000000, 0x0, 0x80000000, 0x0, 0x0, 0x0, 0x0, 0x0, []⟩,
    ⟨0x6000C, 4, 1, .none, .plain, 0x0, 0x0, 0x0, 0x0, 0x0, 0x0, 0x0, 0x0, 0x0, 0x0, []⟩,
    ⟨0x60010, 4, 1, .none, .plain, 0x64, 0x0, 0xFFFF, 0x0, 0x0, 0x0, 0x0, 0x0, 0xFFFF, 0x0, []⟩,
    ⟨0x60014, 4, 1, .none, .plain, 0x3E8, 0x0, 0xFFFF, 0x0, 0x0, 0x0, 0x0, 0x0, 0xFFFF, 0x0, []⟩,
    ⟨0x60020, 16, 4, .none, .plain, 0x0, 0x0, 0x1FFFF, 0x0, 0x0, 0x0, 0x0, 0x0, 0x1FFFF, 0x0, []⟩,
    ⟨0x60024, 16, 4, .none, .plain, 0xF800, 0x0, 0x1FFFF, 0x0, 0x0, 0x0, 0x0, 0x0, 0x1FFFF, 0x0, []⟩,
    ⟨0x60028, 16, 4, .none, .plain, 0xC000, 0x0, 0x1FFFF, 0x0, 0x0, 0x0, 0x0, 0x0, 0x1FFFF, 0x0, []⟩,
    ⟨0x6002C, 16, 4, .none, .plain, 0x8000, 0x0, 0x1FFFF, 0x0, 0x0, 0x0, 0x0, 0x0, 0x1FFFF, 0x0, []⟩,
    ⟨0x60060, 4, 1, .none, .stat, 0x0, 0x0, 0x0, 0x0, 0x0, 0x0, 0x0, 0x0, 0x0, 0x0, []⟩,
    ⟨0x60064, 4, 1, .none, .stat, 0x0, 0x0, 0x0, 0x0, 0x0, 0x0, 0x0, 0x0, 0x0, 0x0, []⟩,
    ⟨0x60068, 4, 1, .none, .stat, 0x0, 0x0, 0x0, 0x0, 0x0, 0x0, 0x0, 0x0, 0x0, 0x0, []⟩,
    ⟨0x6006C, 4, 1, .none, .stat, 0x0, 0x0, 0x0, 0x0, 0x0, 0x0, 0x0, 0x0, 0x0, 0x0, []⟩,
    ⟨0x60070, 4, 1, .none, .stat, 0x0, 0x0, 0x0, 0x0, 0x0, 0x0, 0x0, 0x0, 0x0, 0x0, []⟩,
    ⟨0x60100, 4, 1, .none, .plain, 0x0, 0x0, 0x0, 0x77F, 0x0, 0x0, 0x0, 0x0, 0x0, 0x0, []⟩,
    ⟨0x60104, 4, 1, .none, .plain, 0x0, 0x0, 0x0, 0x7F, 0x0, 0x0, 0x0, 0x0, 0x0, 0x0, [⟨0, 7, [(0, 103)]⟩]⟩,
    ⟨0x60108, 4, 1, .none, .plain, 0x0, 0x0, 0x0, 0xFFF, 0x0, 0x0, 0x0, 0x0, 0x0, 0x0, []⟩,
    ⟨0x60200, 4, 1, .swq, .plain, 0x0, 0x0, 0x0, 0x0, 0x0, 0x0, 0x0, 0x0, 0x0, 0x0, []⟩,
    ⟨0x60204, 4, 1, .swq, .plain, 0x0, 0x0, 0x0, 0x0, 0x0, 0x0, 0x0, 0x0, 0x0, 0x0, []⟩,
    ⟨0x60208, 4, 1, .swq, .plain, 0x800, 0x0, 0xFFFFFF, 0x0, 0x0, 0x0, 0x0, 0x0, 0xFFFFFF, 0x0, []⟩,
    ⟨0x6020C, 4, 1, .swq, .plain, 0x1000080, 0x0, 0xFFFFFFFF, 0x0, 0x0, 0x0, 0x0, 0x0, 0xFFFFFFFF, 0x0, []⟩,
    ⟨0x60210, 4, 1, .swq, .plain, 0x1000080, 0x0, 0xFFFFFFFF, 0x0, 0x0, 0x0, 0x0, 0x0, 0xFFFFFFFF, 0x0, []⟩,
    ⟨0x60214, 4, 1, .swq, .plain, 0x1000080, 0x0, 0xFFFFFFFF, 0x0, 0x0, 0x0, 0x0, 0x0, 0xFFFFFFFF, 0x0, []⟩,
    ⟨0x60218, 4, 1, .swq, .plain, 0x10010010, 0x0, 0x1FF7FDFF, 0x0, 0x0, 0x0, 0x0, 0x0, 0x1FF7FDFF, 0x0, []⟩,
    ⟨0x6021C, 4, 1, .swq, .plain, 0x90040, 0x0, 0x800FFFFF, 0x0, 0x0, 0x0, 0x0, 0x0, 0x800FFFFF, 0x0, []⟩,
    ⟨0x60220, 4, 1, .swq, .plain, 0x0, 0x0, 0x0, 0x0, 0x0, 0x0, 0x0, 0x0, 0x0, 0x0, []⟩,
    ⟨0x60240, 4, 1, .swq, .statLo, 0x0, 0x0, 0x0, 0x0, 0x0, 0x0, 0x0, 0x0, 0x0, 0x0, []⟩,
    ⟨0x60244, 4, 1, .swq, .statHi, 0x0, 0x0, 0x0, 0x0, 0x0, 0x0, 0x0, 0x0, 0x0, 0x0, []⟩,
    ⟨0x60248, 4, 1, .swq, .stat, 0x0, 0x0, 0x0, 0x0, 0x0, 0x0, 0x0, 0x0, 0x0, 0x0, []⟩ ]

/-- The SW bank, continued. -/
def regRowsSW_1 : List RegRow :=
  [ ⟨0x6024C, 4, 1, .swq, .stat, 0x0, 0x0, 0x0, 0x0, 0x0, 0x0, 0x0, 0x0, 0x0, 0x0, []⟩,
    ⟨0x60250, 4, 1, .swq, .stat, 0x0, 0x0, 0x0, 0x0, 0x0, 0x0, 0x0, 0x0, 0x0, 0x0, []⟩,
    ⟨0x60254, 4, 1, .swq, .stat, 0x0, 0x0, 0x0, 0x0, 0x0, 0x0, 0x0, 0x0, 0x0, 0x0, []⟩,
    ⟨0x60258, 4, 1, .swq, .stat, 0x0, 0x0, 0x0, 0x0, 0x0, 0x0, 0x0, 0x0, 0x0, 0x0, []⟩,
    ⟨0x6025C, 4, 1, .swq, .stat, 0x0, 0x0, 0x0, 0x0, 0x0, 0x0, 0x0, 0x0, 0x0, 0x0, []⟩,
    ⟨0x60260, 4, 1, .swq, .stat, 0x0, 0x0, 0x0, 0x0, 0x0, 0x0, 0x0, 0x0, 0x0, 0x0, []⟩,
    ⟨0x60300, 4, 1, .swi, .plain, 0x0, 0x0, 0xFFFF, 0x0, 0x0, 0x0, 0x0, 0x0, 0xFFFF, 0x0, []⟩,
    ⟨0x60304, 4, 1, .swi, .plain, 0x4000800, 0x0, 0xFFFFFFFF, 0x0, 0x0, 0x0, 0x0, 0x0, 0xFFFFFFFF, 0x0, []⟩,
    ⟨0x60308, 4, 1, .swi, .plain, 0x0, 0x0, 0x0, 0x0, 0x0, 0x0, 0x0, 0x0, 0x0, 0x0, []⟩,
    ⟨0x6030C, 4, 1, .swi, .stat, 0x0, 0x0, 0x0, 0x0, 0x0, 0x0, 0x0, 0x0, 0x0, 0x0, []⟩,
    ⟨0x60310, 4, 1, .swi, .stat, 0x0, 0x0, 0x0, 0x0, 0x0, 0x0, 0x0, 0x0, 0x0, 0x0, []⟩,
    ⟨0x60380, 4, 1, .sws, .stat, 0x0, 0x0, 0x0, 0x0, 0x0, 0x0, 0x0, 0x0, 0x0, 0x0, []⟩,
    ⟨0x60384, 4, 1, .sws, .stat, 0x0, 0x0, 0x0, 0x0, 0x0, 0x0, 0x0, 0x0, 0x0, 0x0, []⟩,
    ⟨0x60388, 4, 1, .sws, .stat, 0x0, 0x0, 0x0, 0x0, 0x0, 0x0, 0x0, 0x0, 0x0, 0x0, []⟩,
    ⟨0x6038C, 4, 1, .sws, .stat, 0x0, 0x0, 0x0, 0x0, 0x0, 0x0, 0x0, 0x0, 0x0, 0x0, []⟩,
    ⟨0x60390, 4, 1, .sws, .plain, 0x0, 0x0, 0x0, 0x0, 0x0, 0x0, 0x0, 0x0, 0x0, 0x0, []⟩ ]

/-- The whole SW bank. -/
def regRowsSW : List RegRow := regRowsSW_0 ++ regRowsSW_1

/-- The POL bank: Table 10.2. -/
def regRowsPOL : List RegRow :=
  [ ⟨0x70000, 4, 1, .none, .plain, 0x0, 0x0, 0x0, 0xFFF, 0x0, 0x0, 0x0, 0x0, 0x0, 0x0, []⟩,
    ⟨0x70004, 4, 1, .none, .plain, 0x0, 0x0, 0x0, 0xFFF, 0x0, 0x0, 0x0, 0x0, 0x0, 0x0, []⟩,
    ⟨0x70008, 4, 1, .none, .plain, 0x4E20, 0x0, 0xFFFF, 0x0, 0x0, 0x0, 0x0, 0x0, 0x0, 0x0, []⟩,
    ⟨0x70100, 4, 1, .polp, .plain, 0x0, 0x0, 0x0, 0x0, 0x0, 0x0, 0x0, 0x0, 0x7, 0x0, []⟩,
    ⟨0x70104, 4, 1, .polp, .plain, 0x0, 0x0, 0x0, 0x0, 0x0, 0x0, 0x0, 0x0, 0xFFFFFF, 0x0, []⟩,
    ⟨0x70108, 4, 1, .polp, .plain, 0x0, 0x0, 0x0, 0x0, 0x0, 0x0, 0x0, 0x0, 0xFFFFFF, 0x0, []⟩,
    ⟨0x7010C, 4, 1, .polp, .plain, 0x0, 0x0, 0x0, 0x0, 0x0, 0x0, 0x0, 0x0, 0xFFFFFFFF, 0x0, []⟩,
    ⟨0x70110, 4, 1, .polp, .plain, 0x0, 0x0, 0x0, 0x0, 0x0, 0x0, 0x0, 0x0, 0x0, 0x0, []⟩,
    ⟨0x70114, 4, 1, .polp, .plain, 0x0, 0x0, 0x0, 0x0, 0x0, 0x0, 0x0, 0x0, 0x0, 0x0, []⟩,
    ⟨0x70120, 4, 1, .polp, .stat, 0x0, 0x0, 0x0, 0x0, 0x0, 0x0, 0x0, 0x0, 0x0, 0x0, []⟩,
    ⟨0x70124, 4, 1, .polp, .stat, 0x0, 0x0, 0x0, 0x0, 0x0, 0x0, 0x0, 0x0, 0x0, 0x0, []⟩,
    ⟨0x70128, 4, 1, .polp, .stat, 0x0, 0x0, 0x0, 0x0, 0x0, 0x0, 0x0, 0x0, 0x0, 0x0, []⟩,
    ⟨0x70200, 4, 1, .pols, .stat, 0x0, 0x0, 0x0, 0x0, 0x0, 0x0, 0x0, 0x0, 0x0, 0x0, []⟩ ]

/-- The SCH bank: Table 10.3. -/
def regRowsSCH : List RegRow :=
  [ ⟨0x80000, 4, 1, .none, .plain, 0x0, 0x0, 0x0, 0x7F, 0x0, 0x0, 0x0, 0x0, 0x0, 0x0, [⟨0, 7, [(0, 103)]⟩]⟩,
    ⟨0x80004, 4, 1, .none, .plain, 0x3E8, 0x0, 0x800FFFFF, 0x0, 0x0, 0x0, 0x0, 0x0, 0x800FFFFF, 0x0, []⟩,
    ⟨0x80100, 4, 8, .sch, .plain, 0x1, 0x0, 0x0, 0x0, 0x0, 0x0, 0x0, 0x0, 0x300FF, 0x0, []⟩,
    ⟨0x80120, 8, 8, .sch, .plain, 0x0, 0x0, 0x0, 0x0, 0x0, 0x0, 0x0, 0x0, 0xFFFFFF, 0x0, []⟩,
    ⟨0x80124, 8, 8, .sch, .plain, 0x0, 0x0, 0x0, 0x0, 0x0, 0x0, 0x0, 0x0, 0xFFFF, 0x0, []⟩,
    ⟨0x80160, 4, 1, .sch, .plain, 0x0, 0x0, 0x0, 0x0, 0x0, 0x0, 0x0, 0x0, 0x8000007F, 0x0, []⟩,
    ⟨0x80164, 4, 1, .sch, .plain, 0x0, 0x0, 0x0, 0x0, 0x0, 0x0, 0x0, 0x0, 0xFFFFFF, 0x0, []⟩,
    ⟨0x80168, 4, 1, .sch, .plain, 0x0, 0x0, 0x0, 0x0, 0x0, 0x0, 0x0, 0x0, 0xFFFFFF, 0x0, []⟩,
    ⟨0x8016C, 4, 1, .sch, .plain, 0xFF, 0x0, 0x0, 0x0, 0x0, 0x0, 0x0, 0x0, 0x0, 0x0, []⟩,
    ⟨0x80170, 4, 1, .sch, .stat, 0x0, 0x0, 0x0, 0x0, 0x0, 0x0, 0x0, 0x0, 0x0, 0x0, []⟩,
    ⟨0x80174, 4, 1, .sch, .stat, 0x0, 0x0, 0x0, 0x0, 0x0, 0x0, 0x0, 0x0, 0x0, 0x0, []⟩,
    ⟨0x80178, 4, 1, .sch, .stat, 0x0, 0x0, 0x0, 0x0, 0x0, 0x0, 0x0, 0x0, 0x0, 0x0, []⟩,
    ⟨0x8017C, 4, 1, .sch, .stat, 0x0, 0x0, 0x0, 0x0, 0x0, 0x0, 0x0, 0x0, 0x0, 0x0, []⟩,
    ⟨0x80180, 4, 1, .sch, .stat, 0x0, 0x0, 0x0, 0x0, 0x0, 0x0, 0x0, 0x0, 0x0, 0x0, []⟩,
    ⟨0x80184, 4, 1, .sch, .stat, 0x0, 0x0, 0x0, 0x0, 0x0, 0x0, 0x0, 0x0, 0x0, 0x0, []⟩,
    ⟨0x80200, 4, 64, .sch, .plain, 0x0, 0x0, 0x0, 0x0, 0x0, 0x0, 0x0, 0x0, 0xFFFFFFFF, 0x0, []⟩ ]

/-- The CCK bank: Table 11.2. -/
def regRowsCCK : List RegRow :=
  [ ⟨0x90000, 4, 1, .none, .stat, 0x0, 0x0, 0x0, 0x0, 0x0, 0x0, 0x0, 0x0, 0x0, 0x0, []⟩,
    ⟨0x90004, 4, 1, .none, .stat, 0x0, 0x0, 0x0, 0x0, 0x0, 0x0, 0x0, 0x0, 0x0, 0x0, []⟩,
    ⟨0x90008, 4, 1, .none, .stat, 0x0, 0x0, 0x0, 0x0, 0x0, 0x0, 0x0, 0x0, 0x0, 0x0, []⟩,
    ⟨0x9000C, 4, 1, .none, .stat, 0x0, 0x0, 0x0, 0x0, 0x0, 0x0, 0x0, 0x0, 0x0, 0x0, []⟩,
    ⟨0x90010, 4, 1, .none, .plain, 0x0, 0x0, 0x8FFFFFFF, 0x0, 0x80000000, 0x0, 0x0, 0x0, 0x0, 0x0, []⟩,
    ⟨0x90014, 4, 1, .none, .plain, 0x0, 0x0, 0xFFFFFFFF, 0x0, 0x0, 0x0, 0x0, 0x0, 0x0, 0x0, []⟩,
    ⟨0x90018, 4, 1, .none, .plain, 0x0, 0x0, 0xFFFFFFFF, 0x0, 0x0, 0x0, 0x0, 0x0, 0x0, 0x0, []⟩,
    ⟨0x9001C, 4, 1, .none, .plain, 0x0, 0x0, 0xFFFFFFFF, 0x0, 0x0, 0x0, 0x0, 0x0, 0x0, 0x0, []⟩,
    ⟨0x90020, 4, 1, .none, .plain, 0x0, 0x0, 0xFFFFFFFF, 0x0, 0x0, 0x0, 0x0, 0x0, 0x0, 0x0, []⟩,
    ⟨0x90024, 4, 1, .none, .plain, 0x0, 0x0, 0x0, 0x800000FF, 0x0, 0x0, 0x0, 0x0, 0x0, 0x0, [⟨0, 8, [(0, 105)]⟩]⟩,
    ⟨0x90100, 4, 1, .none, .plain, 0x0, 0x0, 0x0, 0x7F, 0x0, 0x0, 0x0, 0x0, 0x0, 0x0, [⟨0, 7, [(0, 105)]⟩]⟩,
    ⟨0x90104, 4, 1, .cck, .stat, 0x0, 0x0, 0x0, 0x0, 0x0, 0x0, 0x0, 0x0, 0x0, 0x0, []⟩ ]

/-- The VLT bank: Table 12.8. -/
def regRowsVLT : List RegRow :=
  [ ⟨0xA0000, 4, 1, .none, .plain, 0x0, 0x3, 0x3, 0x0, 0x0, 0x0, 0x0, 0x0, 0x0, 0x0, []⟩,
    ⟨0xA0004, 4, 1, .none, .plain, 0x0, 0x3F, 0x3F, 0x0, 0x0, 0x0, 0x0, 0x0, 0x0, 0x0, []⟩,
    ⟨0xA0008, 4, 1, .none, .plain, 0x0, 0x0, 0x0, 0x0, 0x0, 0x0, 0x0, 0x0, 0x0, 0x0, []⟩,
    ⟨0xA000C, 4, 1, .none, .stat, 0x0, 0x0, 0x0, 0x0, 0x0, 0x0, 0x0, 0x0, 0x0, 0x0, []⟩,
    ⟨0xA0010, 4, 1, .none, .stat, 0x0, 0x0, 0x0, 0x0, 0x0, 0x0, 0x0, 0x0, 0x0, 0x0, []⟩,
    ⟨0xA0014, 4, 1, .none, .plain, 0x0, 0x0, 0x0, 0x0, 0x0, 0x0, 0x0, 0x0, 0x0, 0x0, []⟩,
    ⟨0xA0020, 4, 1, .none, .plain, 0x0, 0x0, 0x0, 0x1FF, 0x0, 0x0, 0x0, 0x0, 0x0, 0x0, []⟩,
    ⟨0xA0024, 4, 1, .slot, .plain, 0x0, 0x0, 0x0, 0x0, 0x0, 0x0, 0x0, 0x0, 0x0, 0x0, []⟩,
    ⟨0xA0028, 4, 1, .slot, .plain, 0x0, 0x0, 0x0, 0x0, 0x0, 0x0, 0x0, 0x0, 0x0, 0x0, []⟩,
    ⟨0xA002C, 4, 1, .slot, .plain, 0x0, 0x0, 0x0, 0x0, 0x0, 0x0, 0x0, 0x0, 0x0, 0x0, []⟩,
    ⟨0xA0030, 4, 1, .slot, .plain, 0x0, 0x0, 0x0, 0x0, 0x0, 0x0, 0x0, 0x0, 0x0, 0x0, []⟩,
    ⟨0xA0034, 4, 1, .slot, .plain, 0x0, 0x0, 0x0, 0x0, 0x0, 0x0, 0x0, 0x0, 0x0, 0x0, []⟩,
    ⟨0xA0100, 4, 960, .none, .plain, 0x0, 0x0, 0x0, 0x0, 0x0, 0x0, 0x0, 0xFFFFFFFF, 0x0, 0x0, []⟩ ]

/-- The CIPH bank: Table 13.5. -/
def regRowsCIPH_0 : List RegRow :=
  [ ⟨0xB0100, 256, 2, .none, .plain, 0x0, 0x0, 0x0, 0xFFFFFFC0, 0x0, 0x0, 0x0, 0x0, 0x0, 0x0, []⟩,
    ⟨0xB0104, 256, 2, .none, .plain, 0x0, 0x0, 0x0, 0xFFFFFFFF, 0x0, 0x0, 0x0, 0x0, 0x0, 0x0, []⟩,
    ⟨0xB0108, 256, 2, .none, .plain, 0x0, 0x0, 0x0, 0xFFFFFFE0, 0x0, 0x0, 0x0, 0x0, 0x0, 0x0, []⟩,
    ⟨0xB010C, 256, 2, .none, .plain, 0x0, 0x0, 0x0, 0xFFFFFFFF, 0x0, 0x0, 0x0, 0x0, 0x0, 0x0, []⟩,
    ⟨0xB0110, 256, 2, .none, .plain, 0x0, 0x0, 0x0, 0xF, 0x0, 0x0, 0x0, 0x0, 0x0, 0x0, [⟨0, 4, [(0, 12)]⟩]⟩,
    ⟨0xB0114, 256, 2, .none, .plain, 0x0, 0x0, 0x0, 0xFFF, 0x0, 0x0, 0x0, 0x0, 0x0, 0x0, []⟩,
    ⟨0xB0118, 256, 2, .none, .plain, 0x0, 0x0, 0x0, 0xFFF, 0x0, 0x0, 0x0, 0x0, 0x0, 0x0, []⟩,
    ⟨0xB011C, 256, 2, .none, .plain, 0x0, 0x0, 0x0, 0x0, 0x0, 0x0, 0x0, 0x0, 0x0, 0x0, []⟩,
    ⟨0xB0120, 256, 2, .none, .plain, 0x0, 0x0, 0x0, 0x0, 0x0, 0x0, 0x0, 0x0, 0x0, 0x0, []⟩,
    ⟨0xB0140, 256, 2, .none, .plain, 0x0, 0x0, 0x0, 0x3, 0x0, 0x0, 0x0, 0x0, 0x0, 0x0, [⟨0, 2, [(0, 2)]⟩]⟩,
    ⟨0xB0144, 256, 2, .none, .plain, 0x0, 0x0, 0x0, 0x0, 0x0, 0x0, 0xFFFFFFFF, 0x0, 0x0, 0x0, []⟩,
    ⟨0xB0148, 256, 2, .none, .plain, 0x0, 0x0, 0x0, 0x0, 0x0, 0x0, 0xFFFFFFFF, 0x0, 0x0, 0x0, []⟩,
    ⟨0xB014C, 256, 2, .none, .plain, 0x0, 0x0, 0x0, 0x0, 0x0, 0x0, 0xFFFFFFFF, 0x0, 0x0, 0x0, []⟩,
    ⟨0xB0150, 256, 2, .none, .plain, 0x0, 0x0, 0x0, 0x0, 0x0, 0x0, 0xFFFFFFFF, 0x0, 0x0, 0x0, []⟩,
    ⟨0xB0154, 256, 2, .none, .plain, 0x0, 0x0, 0x0, 0x0, 0x0, 0x0, 0xFFFFFFFF, 0x0, 0x0, 0x0, []⟩,
    ⟨0xB0158, 256, 2, .none, .plain, 0x0, 0x0, 0x0, 0x0, 0x0, 0x0, 0xFFFFFFFF, 0x0, 0x0, 0x0, []⟩,
    ⟨0xB015C, 256, 2, .none, .plain, 0x0, 0x0, 0x0, 0x0, 0x0, 0x0, 0xFFFFFFFF, 0x0, 0x0, 0x0, []⟩,
    ⟨0xB0160, 256, 2, .none, .plain, 0x0, 0x0, 0x0, 0x0, 0x0, 0x0, 0xFFFFFFFF, 0x0, 0x0, 0x0, []⟩,
    ⟨0xB0164, 256, 2, .none, .plain, 0xA0064, 0x0, 0xFFFFFFFF, 0x0, 0x0, 0x0, 0x0, 0x0, 0x0, 0xFFFFFFFF, []⟩,
    ⟨0xB0170, 256, 2, .none, .stat, 0x0, 0x0, 0x0, 0x0, 0x0, 0x0, 0x0, 0x0, 0x0, 0x0, []⟩,
    ⟨0xB0174, 256, 2, .none, .stat, 0x0, 0x0, 0x0, 0x0, 0x0, 0x0, 0x0, 0x0, 0x0, 0x0, []⟩,
    ⟨0xB0178, 256, 2, .none, .stat, 0x0, 0x0, 0x0, 0x0, 0x0, 0x0, 0x0, 0x0, 0x0, 0x0, []⟩,
    ⟨0xB0400, 4, 1, .none, .plain, 0x0, 0x0, 0x0, 0x3FF, 0x0, 0x0, 0x0, 0x0, 0x0, 0x0, []⟩,
    ⟨0xB0404, 4, 1, .la, .plain, 0x0, 0x0, 0xE1FFFF00, 0x0, 0x0, 0x0, 0x0, 0x0, 0xE1FFFF00, 0x0, []⟩,
    ⟨0xB0408, 4, 1, .la, .plain, 0x0, 0x0, 0xFFFFFFFF, 0x0, 0x0, 0x0, 0x0, 0x0, 0xFFFFFFFF, 0x0, []⟩,
    ⟨0xB040C, 4, 1, .la, .plain, 0x0, 0x0, 0xFFFFFFFF, 0x0, 0x0, 0x0, 0x0, 0x0, 0xFFFFFFFF, 0x0, []⟩,
    ⟨0xB0410, 4, 1, .la, .plain, 0x0, 0x0, 0xFFFFFFFF, 0x0, 0x0, 0x0, 0x0, 0x0, 0x0, 0x0, []⟩,
    ⟨0xB0414, 4, 1, .la, .plain, 0x0, 0x0, 0xFFFFFFFF, 0x0, 0x0, 0x0, 0x0, 0x0, 0x0, 0x0, []⟩,
    ⟨0xB0418, 4, 1, .la, .plain, 0x0, 0x0, 0xFFFFFFFF, 0x0, 0x0, 0x0, 0x0, 0x0, 0x0, 0x0, []⟩,
    ⟨0xB041C, 4, 1, .la, .plain, 0x0, 0x0, 0xFFFFFFFF, 0x0, 0x0, 0x0, 0x0, 0x0, 0x0, 0x0, []⟩ ]

/-- The CIPH bank, continued. -/
def regRowsCIPH_1 : List RegRow :=
  [ ⟨0xB0420, 4, 1, .la, .stat, 0x0, 0x0, 0x0, 0x0, 0x0, 0x0, 0x0, 0x0, 0x0, 0x0, []⟩,
    ⟨0xB0424, 4, 1, .la, .stat, 0x0, 0x0, 0x0, 0x0, 0x0, 0x0, 0x0, 0x0, 0x0, 0x0, []⟩,
    ⟨0xB0428, 4, 1, .la, .stat, 0x0, 0x0, 0x0, 0x0, 0x0, 0x0, 0x0, 0x0, 0x0, 0x0, []⟩,
    ⟨0xB042C, 4, 1, .la, .stat, 0x0, 0x0, 0x0, 0x0, 0x0, 0x0, 0x0, 0x0, 0x0, 0x0, []⟩,
    ⟨0xB0430, 4, 1, .la, .stat, 0x0, 0x0, 0x0, 0x0, 0x0, 0x0, 0x0, 0x0, 0x0, 0x0, []⟩,
    ⟨0xB0434, 4, 1, .la, .stat, 0x0, 0x0, 0x0, 0x0, 0x0, 0x0, 0x0, 0x0, 0x0, 0x0, []⟩,
    ⟨0xB0800, 4, 64, .none, .plain, 0x0, 0x0, 0x0, 0x0, 0x0, 0x0, 0x0, 0xFFFFFFFF, 0x0, 0x0, []⟩ ]

/-- The whole CIPH bank. -/
def regRowsCIPH : List RegRow := regRowsCIPH_0 ++ regRowsCIPH_1

/-- The NFC bank: Table 15.8. -/
def regRowsNFC : List RegRow :=
  [ ⟨0xC0000, 4, 1, .none, .plain, 0x0, 0x310, 0x310, 0x0, 0x0, 0x0, 0x0, 0x0, 0x0, 0x0, []⟩,
    ⟨0xC0004, 4, 1, .none, .plain, 0x0, 0x0, 0x0, 0x0, 0x80000000, 0x0, 0x0, 0x0, 0x0, 0x0, []⟩,
    ⟨0xC0008, 4, 1, .none, .plain, 0x0, 0xFF0F10FF, 0xFF0F10FF, 0x0, 0x0, 0x0, 0x0, 0x0, 0x0, 0x0, []⟩,
    ⟨0xC000C, 4, 1, .none, .plain, 0x0, 0xFFFFFFFF, 0xFFFFFFFF, 0x0, 0x0, 0x0, 0x0, 0x0, 0x0, 0x0, []⟩,
    ⟨0xC0010, 4, 1, .none, .plain, 0x0, 0x1FF, 0x1FF, 0x0, 0x0, 0x0, 0x0, 0x0, 0x0, 0x0, []⟩,
    ⟨0xC0014, 4, 1, .none, .plain, 0x78, 0x0, 0x3FF, 0x0, 0x0, 0x0, 0x0, 0x0, 0x3FF, 0x0, []⟩,
    ⟨0xC0020, 4, 1, .none, .stat, 0x0, 0x0, 0x0, 0x0, 0x0, 0x0, 0x0, 0x0, 0x0, 0x0, []⟩,
    ⟨0xC0024, 4, 1, .none, .stat, 0x0, 0x0, 0x0, 0x0, 0x0, 0x0, 0x0, 0x0, 0x0, 0x0, []⟩,
    ⟨0xC0028, 4, 1, .none, .stat, 0x0, 0x0, 0x0, 0x0, 0x0, 0x0, 0x0, 0x0, 0x0, 0x0, []⟩,
    ⟨0xC002C, 4, 1, .none, .stat, 0x0, 0x0, 0x0, 0x0, 0x0, 0x0, 0x0, 0x0, 0x0, 0x0, []⟩ ]

/-- The LDG bank: Table 16.4. -/
def regRowsLDG : List RegRow :=
  [ ⟨0xD0000, 4, 1, .none, .plain, 0x0, 0x1B, 0x1F, 0x0, 0x0, 0x0, 0x0, 0x0, 0x0, 0x0, []⟩,
    ⟨0xD0004, 4, 1, .none, .plain, 0x0, 0xFFFFFFFF, 0xFFFFFFFF, 0x0, 0x0, 0x0, 0x0, 0x0, 0x0, 0x0, []⟩,
    ⟨0xD0008, 4, 1, .none, .plain, 0x0, 0xFFFFFFFF, 0xFFFFFFFF, 0x0, 0x0, 0x0, 0x0, 0x0, 0x0, 0x0, []⟩,
    ⟨0xD000C, 4, 1, .none, .plain, 0x0, 0xFFFFFFFF, 0xFFFFFFFF, 0x0, 0x0, 0x0, 0x0, 0x0, 0x0, 0x0, []⟩,
    ⟨0xD0010, 4, 1, .none, .plain, 0x0, 0xFFFFFFFF, 0xFFFFFFFF, 0x0, 0x0, 0x0, 0x0, 0x0, 0x0, 0x0, []⟩,
    ⟨0xD0014, 4, 1, .none, .plain, 0x0, 0xFFFFFFFF, 0xFFFFFFFF, 0x0, 0x0, 0x0, 0x0, 0x0, 0x0, 0x0, []⟩,
    ⟨0xD0018, 4, 1, .none, .plain, 0x0, 0xFFFFFFFF, 0xFFFFFFFF, 0x0, 0x0, 0x0, 0x0, 0x0, 0x0, 0x0, []⟩,
    ⟨0xD001C, 4, 1, .none, .plain, 0x0, 0xFFFF, 0xFFFF, 0x0, 0x0, 0x0, 0x0, 0x0, 0x0, 0x0, []⟩,
    ⟨0xD0020, 4, 1, .none, .plain, 0x0, 0x1FFFF, 0x1FFFF, 0x0, 0x0, 0x0, 0x0, 0x0, 0x0, 0x0, []⟩,
    ⟨0xD0024, 4, 1, .none, .plain, 0x0, 0xFFFFFFFF, 0xFFFFFFFF, 0x0, 0x0, 0x0, 0x0, 0x0, 0x0, 0x0, []⟩,
    ⟨0xD0028, 4, 1, .none, .plain, 0x0, 0xFFFFFFFF, 0xFFFFFFFF, 0x0, 0x0, 0x0, 0x0, 0x0, 0x0, 0x0, []⟩,
    ⟨0xD0030, 4, 1, .none, .plain, 0x0, 0xFFFFFFFF, 0xFFFFFFFF, 0x0, 0x0, 0x0, 0x0, 0x0, 0x0, 0x0, []⟩,
    ⟨0xD0034, 4, 1, .none, .plain, 0x0, 0xFFFF, 0xFFFF, 0x0, 0x0, 0x0, 0x0, 0x0, 0x0, 0x0, []⟩,
    ⟨0xD0038, 4, 1, .none, .plain, 0x0, 0xFFFFFFFF, 0xFFFFFFFF, 0x0, 0x0, 0x0, 0x0, 0x0, 0x0, 0x0, []⟩,
    ⟨0xD003C, 4, 1, .none, .plain, 0x0, 0xFFFF, 0xFFFF, 0x0, 0x0, 0x0, 0x0, 0x0, 0x0, 0x0, []⟩,
    ⟨0xD0040, 4, 1, .none, .stat, 0x0, 0x0, 0x0, 0x0, 0x0, 0x0, 0x0, 0x0, 0x0, 0x0, []⟩,
    ⟨0xD0044, 4, 1, .none, .stat, 0x0, 0x0, 0x0, 0x0, 0x0, 0x0, 0x0, 0x0, 0x0, 0x0, []⟩ ]

/-- The ANG bank: Table 17.7. -/
def regRowsANG : List RegRow :=
  [ ⟨0xE0000, 4, 1, .none, .plain, 0x201F4, 0x0, 0xFFFFF, 0x0, 0x0, 0x0, 0x0, 0x0, 0xFFFFF, 0x0, []⟩,
    ⟨0xE0004, 4, 1, .none, .plain, 0x0, 0x0, 0x0, 0x0, 0x0, 0x0, 0x0, 0x0, 0x0, 0x0, []⟩,
    ⟨0xE0008, 4, 1, .none, .plain, 0x77, 0x0, 0x77, 0x0, 0x0, 0x0, 0x0, 0x0, 0x77, 0x0, []⟩,
    ⟨0xE0010, 4, 1, .none, .plain, 0x0, 0xFFFFFFFF, 0xFFFFFFFF, 0x0, 0x0, 0x0, 0x0, 0x0, 0x0, 0x0, []⟩,
    ⟨0xE0014, 4, 1, .none, .plain, 0x0, 0xFFFF, 0xFFFF, 0x0, 0x0, 0x0, 0x0, 0x0, 0x0, 0x0, []⟩,
    ⟨0xE0018, 4, 1, .none, .plain, 0x0, 0xFFFFFFFF, 0xFFFFFFFF, 0x0, 0x0, 0x0, 0x0, 0x0, 0x0, 0x0, []⟩,
    ⟨0xE001C, 4, 1, .none, .plain, 0x0, 0xFFFF, 0xFFFF, 0x0, 0x0, 0x0, 0x0, 0x0, 0x0, 0x0, []⟩,
    ⟨0xE0020, 4, 1, .none, .stat, 0x0, 0x0, 0x0, 0x0, 0x0, 0x0, 0x0, 0x0, 0x0, 0x0, []⟩,
    ⟨0xE0024, 4, 1, .none, .stat, 0x0, 0x0, 0x0, 0x0, 0x0, 0x0, 0x0, 0x0, 0x0, 0x0, []⟩,
    ⟨0xE0028, 4, 1, .none, .plain, 0x0, 0x0, 0x0, 0x0, 0x0, 0x0, 0x0, 0x0, 0x0, 0x0, []⟩,
    ⟨0xE0100, 64, 6, .none, .plain, 0x0, 0x0, 0xFFFF333B, 0x0, 0x0, 0x0, 0x0, 0x0, 0xFFFF333B, 0x0, []⟩,
    ⟨0xE0104, 64, 6, .none, .plain, 0x1E02, 0x0, 0xFFFF7F0F, 0x0, 0x0, 0x0, 0x0, 0x0, 0xFFFF7F0F, 0x0, []⟩,
    ⟨0xE0108, 64, 6, .none, .plain, 0x0, 0x0, 0x0, 0x0, 0x0, 0x0, 0x0, 0x0, 0x0, 0x0, []⟩,
    ⟨0xE010C, 64, 6, .none, .plain, 0x0, 0x0, 0x0, 0x0, 0x0, 0x0, 0x0, 0x0, 0x0, 0x0, []⟩,
    ⟨0xE0110, 64, 6, .none, .plain, 0x0, 0x0, 0x0, 0x0, 0x0, 0x0, 0x0, 0x0, 0x0, 0x0, []⟩,
    ⟨0xE0114, 64, 6, .none, .plain, 0x0, 0x0, 0x0, 0x0, 0x0, 0x0, 0x0, 0x0, 0x0, 0x0, []⟩,
    ⟨0xE0118, 64, 6, .none, .plain, 0x0, 0x0, 0x0, 0x0, 0x0, 0x0, 0x0, 0x0, 0x0, 0x0, []⟩,
    ⟨0xE0120, 64, 6, .none, .statLo, 0x0, 0x0, 0x0, 0x0, 0x0, 0x0, 0x0, 0x0, 0x0, 0x0, []⟩,
    ⟨0xE0124, 64, 6, .none, .statHi, 0x0, 0x0, 0x0, 0x0, 0x0, 0x0, 0x0, 0x0, 0x0, 0x0, []⟩,
    ⟨0xE0128, 64, 6, .none, .stat, 0x0, 0x0, 0x0, 0x0, 0x0, 0x0, 0x0, 0x0, 0x0, 0x0, []⟩,
    ⟨0xE012C, 64, 6, .none, .stat, 0x0, 0x0, 0x0, 0x0, 0x0, 0x0, 0x0, 0x0, 0x0, 0x0, []⟩,
    ⟨0xE0130, 64, 6, .none, .stat, 0x0, 0x0, 0x0, 0x0, 0x0, 0x0, 0x0, 0x0, 0x0, 0x0, []⟩,
    ⟨0xE0400, 8, 64, .none, .plain, 0x0, 0x0, 0xFFFFFFFF, 0x0, 0x0, 0x0, 0x0, 0x0, 0xFFFFFFFF, 0x0, []⟩,
    ⟨0xE0404, 8, 64, .none, .plain, 0x0, 0x0, 0xFFFFFFFF, 0x0, 0x0, 0x0, 0x0, 0x0, 0xFFFFFFFF, 0x0, []⟩ ]

/-- The FB bank: Table 17.8. -/
def regRowsFB_0 : List RegRow :=
  [ ⟨0xF0000, 4, 1, .none, .plain, 0xA0000, 0x0, 0xFF0FFF, 0x0, 0x0, 0x0, 0x0, 0x0, 0xFF0FFF, 0x0, []⟩,
    ⟨0xF0004, 4, 1, .none, .plain, 0x0, 0x0, 0x0, 0x0, 0x0, 0x0, 0x0, 0x0, 0x0, 0x0, []⟩,
    ⟨0xF0020, 32, 4, .none, .plain, 0x770, 0x0, 0xFFFFF77F, 0x0, 0x0, 0x0, 0x0, 0x0, 0xFFFFF77F, 0x0, []⟩,
    ⟨0xF0024, 32, 4, .none, .plain, 0x320000, 0x0, 0xFFFFFF1F, 0x0, 0x0, 0x0, 0x0, 0x0, 0xFFFFFF1F, 0x0, []⟩,
    ⟨0xF0028, 32, 4, .none, .plain, 0x0, 0x0, 0xFFFFFFFF, 0x0, 0x0, 0x0, 0x0, 0x0, 0xFFFFFFFF, 0x0, []⟩,
    ⟨0xF002C, 32, 4, .none, .plain, 0x0, 0x0, 0xFFFFFFFF, 0x0, 0x0, 0x0, 0x0, 0x0, 0xFFFFFFFF, 0x0, []⟩,
    ⟨0xF0030, 32, 4, .none, .plain, 0x0, 0x10000, 0x10000, 0x0, 0x0, 0x0, 0x0, 0x0, 0x0, 0x0, []⟩,
    ⟨0xF0100, 256, 4, .none, .plain, 0x40008246, 0x0, 0xFFFFFFFF, 0x0, 0x0, 0x0, 0x0, 0x0, 0xFFFFFFFF, 0x0, []⟩,
    ⟨0xF0104, 256, 4, .none, .plain, 0x200C8, 0x0, 0x800FFFFF, 0x0, 0x0, 0x0, 0x0, 0x0, 0x800FFFFF, 0x0, []⟩,
    ⟨0xF0108, 256, 4, .none, .plain, 0x0, 0x0, 0x0, 0x0, 0x0, 0x0, 0x0, 0x0, 0x0, 0x0, []⟩,
    ⟨0xF010C, 256, 4, .none, .plain, 0x0, 0x0, 0x0, 0x0, 0x0, 0x0, 0x0, 0x0, 0x0, 0x0, []⟩,
    ⟨0xF0110, 256, 4, .none, .plain, 0x0, 0x0, 0x0, 0x0, 0x0, 0x0, 0x0, 0x0, 0x0, 0x0, []⟩,
    ⟨0xF0114, 256, 4, .none, .plain, 0x0, 0x0, 0x0, 0x0, 0x0, 0x0, 0x0, 0x0, 0x0, 0x0, []⟩,
    ⟨0xF0118, 256, 4, .none, .plain, 0x0, 0x0, 0x0, 0x0, 0x0, 0x0, 0x0, 0x0, 0x0, 0x0, []⟩,
    ⟨0xF011C, 256, 4, .none, .plain, 0x0, 0x0, 0x0, 0x0, 0x0, 0x0, 0x0, 0x0, 0x0, 0x0, []⟩,
    ⟨0xF0120, 256, 4, .none, .stat, 0x0, 0x0, 0x0, 0x0, 0x0, 0x0, 0x0, 0x0, 0x0, 0x0, []⟩,
    ⟨0xF0140, 8, 14, .none, .plain, 0x0, 0x0, 0xFFFFFFFF, 0x0, 0x0, 0x0, 0x0, 0x0, 0xFFFFFFFF, 0x0, []⟩,
    ⟨0xF0144, 8, 14, .none, .plain, 0x0, 0x0, 0xFF, 0x0, 0x0, 0x0, 0x0, 0x0, 0xFF, 0x0, []⟩,
    ⟨0xF01B0, 8, 2, .none, .plain, 0x0, 0x0, 0xFFFFFFFF, 0x0, 0x0, 0x0, 0x0, 0xFFFFFFFF, 0x0, 0x0, []⟩,
    ⟨0xF01B4, 8, 2, .none, .plain, 0x0, 0x0, 0xFF, 0x0, 0x0, 0x0, 0x0, 0xFF, 0x0, 0x0, []⟩,
    ⟨0xF0240, 8, 14, .none, .plain, 0x0, 0x0, 0xFFFFFFFF, 0x0, 0x0, 0x0, 0x0, 0x0, 0xFFFFFFFF, 0x0, []⟩,
    ⟨0xF0244, 8, 14, .none, .plain, 0x0, 0x0, 0xFF, 0x0, 0x0, 0x0, 0x0, 0x0, 0xFF, 0x0, []⟩,
    ⟨0xF02B0, 8, 2, .none, .plain, 0x0, 0x0, 0xFFFFFFFF, 0x0, 0x0, 0x0, 0x0, 0xFFFFFFFF, 0x0, 0x0, []⟩,
    ⟨0xF02B4, 8, 2, .none, .plain, 0x0, 0x0, 0xFF, 0x0, 0x0, 0x0, 0x0, 0xFF, 0x0, 0x0, []⟩,
    ⟨0xF0340, 8, 14, .none, .plain, 0x0, 0x0, 0xFFFFFFFF, 0x0, 0x0, 0x0, 0x0, 0x0, 0xFFFFFFFF, 0x0, []⟩,
    ⟨0xF0344, 8, 14, .none, .plain, 0x0, 0x0, 0xFF, 0x0, 0x0, 0x0, 0x0, 0x0, 0xFF, 0x0, []⟩,
    ⟨0xF03B0, 8, 2, .none, .plain, 0x0, 0x0, 0xFFFFFFFF, 0x0, 0x0, 0x0, 0x0, 0xFFFFFFFF, 0x0, 0x0, []⟩,
    ⟨0xF03B4, 8, 2, .none, .plain, 0x0, 0x0, 0xFF, 0x0, 0x0, 0x0, 0x0, 0xFF, 0x0, 0x0, []⟩,
    ⟨0xF0440, 8, 14, .none, .plain, 0x0, 0x0, 0xFFFFFFFF, 0x0, 0x0, 0x0, 0x0, 0x0, 0xFFFFFFFF, 0x0, []⟩,
    ⟨0xF0444, 8, 14, .none, .plain, 0x0, 0x0, 0xFF, 0x0, 0x0, 0x0, 0x0, 0x0, 0xFF, 0x0, []⟩ ]

/-- The FB bank, continued. -/
def regRowsFB_1 : List RegRow :=
  [ ⟨0xF04B0, 8, 2, .none, .plain, 0x0, 0x0, 0xFFFFFFFF, 0x0, 0x0, 0x0, 0x0, 0xFFFFFFFF, 0x0, 0x0, []⟩,
    ⟨0xF04B4, 8, 2, .none, .plain, 0x0, 0x0, 0xFF, 0x0, 0x0, 0x0, 0x0, 0xFF, 0x0, 0x0, []⟩ ]

/-- The whole FB bank. -/
def regRowsFB : List RegRow := regRowsFB_0 ++ regRowsFB_1

/-- The BRG bank: Table 18.10. -/
def regRowsBRG : List RegRow :=
  [ ⟨0x100000, 4, 1, .none, .plain, 0xA0000, 0x0, 0x0, 0xFF0003, 0x0, 0x0, 0x0, 0x0, 0x0, 0x0, [⟨16, 8, [(1, 100)]⟩]⟩,
    ⟨0x100004, 4, 1, .none, .plain, 0x0, 0x0, 0x200, 0x0, 0x10000, 0x0, 0x0, 0x0, 0x0, 0x0, []⟩,
    ⟨0x100008, 4, 1, .none, .plain, 0x0, 0x0, 0x0, 0xFFFFFFC0, 0x0, 0x0, 0x0, 0x0, 0x0, 0x0, []⟩,
    ⟨0x10000C, 4, 1, .none, .plain, 0x0, 0x0, 0x0, 0xFFFFFFFF, 0x0, 0x0, 0x0, 0x0, 0x0, 0x0, []⟩,
    ⟨0x100010, 4, 1, .none, .plain, 0x1, 0x0, 0x0, 0xFF, 0x0, 0x0, 0x0, 0x0, 0x0, 0x0, [⟨0, 8, [(1, 255)]⟩]⟩,
    ⟨0x100014, 4, 1, .none, .plain, 0x800, 0x0, 0x0, 0x3FFF, 0x0, 0x0, 0x0, 0x0, 0x0, 0x0, [⟨0, 14, [(256, 9216)]⟩]⟩,
    ⟨0x100018, 4, 1, .none, .plain, 0x64, 0x0, 0x0, 0x3FFF, 0x0, 0x0, 0x0, 0x0, 0x0, 0x0, [⟨0, 14, [(10, 10000)]⟩]⟩,
    ⟨0x100020, 4, 1, .none, .stat, 0x0, 0x0, 0x0, 0x0, 0x0, 0x0, 0x0, 0x0, 0x0, 0x0, []⟩,
    ⟨0x100024, 4, 1, .none, .stat, 0x0, 0x0, 0x0, 0x0, 0x0, 0x0, 0x0, 0x0, 0x0, 0x0, []⟩,
    ⟨0x100028, 4, 1, .none, .stat, 0x0, 0x0, 0x0, 0x0, 0x0, 0x0, 0x0, 0x0, 0x0, 0x0, []⟩,
    ⟨0x10002C, 4, 1, .none, .stat, 0x0, 0x0, 0x0, 0x0, 0x0, 0x0, 0x0, 0x0, 0x0, 0x0, []⟩,
    ⟨0x100030, 4, 1, .none, .stat, 0x0, 0x0, 0x0, 0x0, 0x0, 0x0, 0x0, 0x0, 0x0, 0x0, []⟩,
    ⟨0x100034, 4, 1, .none, .stat, 0x0, 0x0, 0x0, 0x0, 0x0, 0x0, 0x0, 0x0, 0x0, 0x0, []⟩,
    ⟨0x100040, 4, 16, .none, .plain, 0x0, 0x0, 0x0, 0x0, 0x0, 0x0, 0x0, 0x0, 0x0, 0x0, []⟩,
    ⟨0x100100, 4, 64, .none, .plain, 0x0, 0x0, 0x0, 0x3F3F3F3F, 0x0, 0x0, 0x0, 0x0, 0x0, 0x0, []⟩,
    ⟨0x100200, 32, 16, .none, .plain, 0x0, 0x0, 0x0, 0x0, 0x0, 0x0, 0xFF, 0x0, 0x0, 0x0, []⟩,
    ⟨0x100204, 32, 16, .none, .plain, 0x0, 0x0, 0x0, 0x0, 0x0, 0x0, 0xFFFFFF, 0x0, 0x0, 0x0, []⟩,
    ⟨0x100208, 32, 16, .none, .plain, 0x0, 0x0, 0x0, 0x0, 0x0, 0x0, 0x0, 0x0, 0x0, 0x0, []⟩,
    ⟨0x10020C, 32, 16, .none, .plain, 0x0, 0x0, 0x0, 0x0, 0x0, 0x0, 0x0, 0x0, 0x0, 0x0, []⟩,
    ⟨0x100210, 32, 16, .none, .plain, 0x0, 0x0, 0x0, 0x0, 0x0, 0x0, 0xFFFFFFFF, 0x0, 0x0, 0x0, []⟩,
    ⟨0x100214, 32, 16, .none, .plain, 0x0, 0x0, 0x0, 0x0, 0x0, 0x0, 0xFFFFFFFF, 0x0, 0x0, 0x0, []⟩,
    ⟨0x100218, 32, 16, .none, .plain, 0x0, 0x0, 0x0, 0x0, 0x0, 0x0, 0xFFFFFFFF, 0x0, 0x0, 0x0, []⟩,
    ⟨0x10021C, 32, 16, .none, .plain, 0x0, 0x0, 0x0, 0x0, 0x0, 0x0, 0xFFFFFFFF, 0x0, 0x0, 0x0, []⟩,
    ⟨0x100400, 32, 8, .none, .plain, 0x0, 0x0, 0x0, 0xFFFFFFFF, 0x0, 0x0, 0x0, 0x0, 0x0, 0x0, []⟩,
    ⟨0x100404, 32, 8, .none, .plain, 0x0, 0x0, 0x0, 0xFFFFFFFF, 0x0, 0x0, 0x0, 0x0, 0x0, 0x0, []⟩,
    ⟨0x100408, 32, 8, .none, .plain, 0x0, 0x0, 0x0, 0x8000000F, 0x0, 0x0, 0x0, 0x0, 0x0, 0x0, [⟨0, 4, [(0, 12)]⟩]⟩,
    ⟨0x10040C, 32, 8, .none, .plain, 0x0, 0x0, 0x0, 0xFFF, 0x0, 0x0, 0x0, 0x0, 0x0, 0x0, []⟩,
    ⟨0x100410, 32, 8, .none, .plain, 0x0, 0x0, 0x0, 0xFFF, 0x0, 0x0, 0x0, 0x0, 0x0, 0x0, []⟩ ]

/-- The HLB bank: Table 20.6. -/
def regRowsHLB : List RegRow :=
  [ ⟨0x110000, 4, 1, .none, .plain, 0x0, 0x0, 0xFF030FFF, 0x0, 0x0, 0x0, 0x0, 0x0, 0xFF030FFF, 0x0, []⟩,
    ⟨0x110004, 4, 1, .none, .plain, 0x0, 0x0, 0xFFFFFFFF, 0x0, 0x0, 0x0, 0x0, 0x0, 0xFFFFFFFF, 0x0, []⟩,
    ⟨0x110008, 4, 1, .none, .plain, 0x0, 0x0, 0x1FF, 0x0, 0x0, 0x0, 0x0, 0x0, 0x1FF, 0x0, []⟩,
    ⟨0x11000C, 4, 1, .none, .plain, 0x0, 0x0, 0x0, 0x0, 0x0, 0x0, 0x0, 0x0, 0x0, 0x0, []⟩,
    ⟨0x110010, 4, 1, .none, .plain, 0x0, 0xFFFFFFFF, 0xFFFFFFFF, 0x0, 0x0, 0x0, 0x0, 0x0, 0x0, 0x0, []⟩,
    ⟨0x110014, 4, 1, .none, .plain, 0x0, 0xFFFFFFFF, 0xFFFFFFFF, 0x0, 0x0, 0x0, 0x0, 0x0, 0x0, 0x0, []⟩,
    ⟨0x110018, 4, 1, .none, .plain, 0x0, 0x0, 0x0, 0x0, 0x0, 0x0, 0x0, 0x0, 0x0, 0x0, []⟩,
    ⟨0x11001C, 4, 1, .none, .plain, 0x0, 0x0, 0x0, 0x0, 0x0, 0x0, 0x0, 0x0, 0x0, 0x0, []⟩,
    ⟨0x110020, 4, 1, .none, .plain, 0x0, 0x0, 0x0, 0x0, 0x0, 0x0, 0x0, 0x0, 0x0, 0x0, []⟩,
    ⟨0x110024, 4, 1, .none, .plain, 0x0, 0xFFFFFFFF, 0xFFFFFFFF, 0x0, 0x0, 0x0, 0x0, 0x0, 0x0, 0x0, []⟩,
    ⟨0x110040, 4, 1, .none, .stat, 0x0, 0x0, 0x0, 0x0, 0x0, 0x0, 0x0, 0x0, 0x0, 0x0, []⟩,
    ⟨0x110044, 4, 1, .none, .stat, 0x0, 0x0, 0x0, 0x0, 0x0, 0x0, 0x0, 0x0, 0x0, 0x0, []⟩,
    ⟨0x110048, 4, 1, .none, .stat, 0x0, 0x0, 0x0, 0x0, 0x0, 0x0, 0x0, 0x0, 0x0, 0x0, []⟩,
    ⟨0x11004C, 4, 1, .none, .stat, 0x0, 0x0, 0x0, 0x0, 0x0, 0x0, 0x0, 0x0, 0x0, 0x0, []⟩,
    ⟨0x110050, 4, 1, .none, .stat, 0x0, 0x0, 0x0, 0x0, 0x0, 0x0, 0x0, 0x0, 0x0, 0x0, []⟩,
    ⟨0x110100, 4, 1, .none, .plain, 0x0, 0x0, 0x0, 0xFFF, 0x0, 0x0, 0x0, 0x0, 0x0, 0x0, []⟩,
    ⟨0x110104, 4, 1, .mem, .plain, 0x0, 0x0, 0x0, 0x0, 0x0, 0x0, 0x0, 0x0, 0x0, 0x0, []⟩,
    ⟨0x110108, 4, 1, .mem, .plain, 0x0, 0x0, 0x0, 0x0, 0x0, 0x0, 0x0, 0x0, 0x0, 0x0, []⟩,
    ⟨0x11010C, 4, 1, .mem, .plain, 0x0, 0x0, 0x0, 0x0, 0x0, 0x0, 0x0, 0x0, 0x0, 0x0, []⟩,
    ⟨0x110110, 4, 1, .mem, .plain, 0x0, 0x0, 0x0, 0x0, 0x0, 0x0, 0x0, 0x0, 0x0, 0x0, []⟩ ]

/-- The BGS bank: Tables 21.7, 21.8. -/
def regRowsBGS : List RegRow :=
  [ ⟨0x120000, 4, 1, .none, .plain, 0xA0400, 0x0, 0xFFF0FFF, 0xFFF0FFF, 0x0, 0x0, 0x0, 0x0, 0x0, 0x0, [⟨16, 12, [(1, 3600)]⟩, ⟨0, 12, [(64, 2048)]⟩]⟩,
    ⟨0x120004, 4, 1, .none, .plain, 0x0, 0x0, 0x0, 0x0, 0x0, 0x0, 0x0, 0x0, 0x0, 0x0, []⟩,
    ⟨0x120008, 4, 1, .none, .plain, 0x0, 0x0, 0x0, 0x0, 0x0, 0x0, 0x0, 0x0, 0x0, 0x0, []⟩,
    ⟨0x12000C, 4, 1, .none, .plain, 0x0, 0x0, 0x0, 0x0, 0x0, 0x0, 0x0, 0x0, 0x0, 0x0, []⟩,
    ⟨0x120010, 4, 1, .none, .stat, 0x0, 0x0, 0x0, 0x0, 0x0, 0x0, 0x0, 0x0, 0x0, 0x0, []⟩,
    ⟨0x120014, 4, 1, .none, .stat, 0x0, 0x0, 0x0, 0x0, 0x0, 0x0, 0x0, 0x0, 0x0, 0x0, []⟩,
    ⟨0x120018, 4, 1, .none, .stat, 0x0, 0x0, 0x0, 0x0, 0x0, 0x0, 0x0, 0x0, 0x0, 0x0, []⟩,
    ⟨0x12001C, 4, 1, .none, .stat, 0x0, 0x0, 0x0, 0x0, 0x0, 0x0, 0x0, 0x0, 0x0, 0x0, []⟩,
    ⟨0x120020, 4, 1, .none, .stat, 0x0, 0x0, 0x0, 0x0, 0x0, 0x0, 0x0, 0x0, 0x0, 0x0, []⟩,
    ⟨0x120024, 4, 1, .none, .stat, 0x0, 0x0, 0x0, 0x0, 0x0, 0x0, 0x0, 0x0, 0x0, 0x0, []⟩,
    ⟨0x120028, 4, 1, .none, .stat, 0x0, 0x0, 0x0, 0x0, 0x0, 0x0, 0x0, 0x0, 0x0, 0x0, []⟩,
    ⟨0x120030, 4, 1, .none, .plain, 0x0, 0x0, 0xFFFFFFFF, 0x0, 0x0, 0x0, 0x0, 0x0, 0x0, 0x0, []⟩,
    ⟨0x120034, 4, 1, .none, .plain, 0x0, 0x0, 0x800000FF, 0x0, 0x80000000, 0x0, 0x0, 0x0, 0x0, 0x0, []⟩,
    ⟨0x120038, 4, 1, .none, .plain, 0x0, 0x0, 0x0, 0x0, 0x0, 0x0, 0x0, 0x0, 0x0, 0x0, []⟩,
    ⟨0x12003C, 4, 1, .none, .plain, 0x0, 0x0, 0xF, 0x0, 0x0, 0x0, 0x0, 0x0, 0x0, 0x0, []⟩,
    ⟨0x120100, 4, 8, .none, .plain, 0x0, 0x0, 0x0, 0x0, 0xFFFFFFFF, 0x0, 0x0, 0x0, 0x0, 0x0, []⟩,
    ⟨0x120120, 4, 8, .none, .plain, 0x0, 0x0, 0xFFFFFFFF, 0xFFFFFFFF, 0x0, 0x0, 0x0, 0x0, 0x0, 0x0, []⟩,
    ⟨0x120140, 4, 1, .none, .plain, 0x0, 0x0, 0x0, 0x0, 0x0, 0x0, 0x0, 0x0, 0x0, 0x0, []⟩,
    ⟨0x120150, 4, 8, .none, .stat, 0x0, 0x0, 0x0, 0x0, 0x0, 0x0, 0x0, 0x0, 0x0, 0x0, []⟩,
    ⟨0x120170, 4, 1, .none, .plain, 0x0, 0x0, 0x0, 0x0, 0x0, 0x0, 0x800000FF, 0x0, 0x0, 0x0, []⟩ ]

/-- The DBG bank: Table 21.9. -/
def regRowsDBG : List RegRow :=
  [ ⟨0x130000, 4, 1, .none, .plain, 0x0, 0x0, 0x40000000, 0x0, 0x40000000, 0x0, 0x0, 0x0, 0x0, 0x0, []⟩,
    ⟨0x130004, 4, 1, .none, .stat, 0x0, 0x0, 0x0, 0x0, 0x0, 0x0, 0x0, 0x0, 0x0, 0x0, []⟩,
    ⟨0x130008, 4, 1, .none, .stat, 0x0, 0x0, 0x0, 0x0, 0x0, 0x0, 0x0, 0x0, 0x0, 0x0, []⟩,
    ⟨0x13000C, 4, 1, .none, .plain, 0x0, 0x0, 0xFFFFFFFF, 0x0, 0x0, 0x0, 0x0, 0x0, 0x0, 0x0, []⟩,
    ⟨0x130040, 4, 1, .none, .plain, 0x0, 0x0, 0x0, 0x7F, 0x0, 0x0, 0x0, 0x0, 0x0, 0x0, [⟨0, 7, [(0, 95)]⟩]⟩,
    ⟨0x130044, 4, 1, .dbgl, .plain, 0x0, 0x0, 0x0, 0x0, 0x0, 0x0, 0x0, 0x0, 0x0, 0x0, []⟩,
    ⟨0x130050, 4, 4, .none, .plain, 0x0, 0x0, 0x0, 0x0, 0x0, 0x0, 0x0, 0x0, 0x0, 0x0, []⟩ ]

/-- The twenty banks in the order of Table 22.1 (R593). -/
def regBanks : List (List RegRow) :=
  [ regRowsSYS,
    regRowsPWR,
    regRowsTIME,
    regRowsLANE,
    regRowsPORT,
    regRowsTBL,
    regRowsSW,
    regRowsPOL,
    regRowsSCH,
    regRowsCCK,
    regRowsVLT,
    regRowsCIPH,
    regRowsNFC,
    regRowsLDG,
    regRowsANG,
    regRowsFB,
    regRowsBRG,
    regRowsHLB,
    regRowsBGS,
    regRowsDBG ]

/-- The row that holds the register at `a` (bank times 0x10000 plus offset); none at a hole (R378). -/
def regRow (a : Nat) : Option RegRow :=
  (regBanks.getD (a / 65536) []).find? fun r =>
    decide (r.base ≤ a) && decide ((a - r.base) % r.stride = 0) && decide ((a - r.base) / r.stride < r.count)

/-- The cold value of the register at `a`; a hole reads zero. -/
def regCold (a : Nat) : Word := ((regRow a).map RegRow.cold).getD 0

end Sys2Proof.Machine
end

