-- ==== Sys2Proof/Machine/NetTypes.lean ====
section
/-! DEFINITION. The data types of the switching path, the cipher engines, the host bridge and the Helber
domain (chapters 5 to 11, 13, 18 and 20). -/

namespace Sys2Proof.Machine

/-! ## Frames and queues (chapters 9 to 11) -/

/-- The colours of Table 9.4. -/
inductive Colour where
  | green | yellow | red
  deriving DecidableEq, Repr

/-- Codes of COLOUR (Table 9.4). -/
def Colour.code : Colour → Nat
  | .green => 0 | .yellow => 1 | .red => 2

/-- The owner of a frame's cells (Table 9.5). -/
inductive Owner where
  | ing (p : Nat) | egr (g : Nat) | hp | pp | rsq | spill | mcast | free
  deriving DecidableEq, Repr

/-- Owner codes (Table 9.5). -/
def Owner.code : Owner → Nat
  | .ing p => p | .egr g => 4 + g | .hp => 8 | .pp => 9 | .rsq => 10 | .spill => 11 | .mcast => 12 | .free => 255

/-- A capture (R152): local time in ticks and the time of each enabled domain, in 2^-16 ns, of the same tick. -/
structure Capture where
  ticks : Nat
  doms : List (Nat × Nat)
  deriving DecidableEq, Repr

/-- No capture yet. -/
def Capture.none : Capture := { ticks := 0, doms := [] }

/-- A stored frame: its frame record (Table 9.3) and the fields of its first cell header (Table 9.4).
`charge` is the group its cells are charged to, 4 for HP, 5 for PP, 6 for samples (R257, R277). -/
structure Frame where
  time : BitVec 64
  cap : Capture            -- its ingress capture (R152)
  node : Nat
  ing : Nat
  xform : Nat
  content : Content
  stream : Nat
  strEn : Bool
  action : BitVec 48
  carry : Word
  colour : Colour
  ce : Bool
  seq : Option Nat
  vid : Nat
  cells : Nat
  ref : Nat
  owner : Owner
  mcast : Bool             -- a single stored copy for several targets (R269)
  untag : BitVec 106       -- the UNTAG set of its VLAN when it was decided (R244)
  charge : Nat
  spilled : Bool
  sample : List Byte       -- the 96-byte record of R276; empty for a frame
  bad : Bool               -- a word of it failed uncorrectably: it fails its carry check at each egress (Table 21.2)
  lost : Nat               -- cells that stay out of service when it is freed (Table 21.2)
  deriving DecidableEq, Repr

/-- One entry of an egress queue. -/
structure QEnt where
  h : Nat                  -- handle of the stored frame
  verified : Bool          -- its carry check has passed; its bytes are staged (R322)
  rsq : Bool               -- released by the resequencer, or not sequenced there (R265)
  paid : Bool              -- its token and credit are taken (R299)
  launch : Option LaunchAt
  trig : Bool              -- released by a LAUNCH trigger (R308)
  deriving DecidableEq, Repr

/-- A gate list as SCH_CONFIG gives it, from which the control firmware derives beats for each beat length (R304): EN,
the offset in microseconds and the entries. -/
structure GateList where
  en : Bool
  ofs : Nat
  es : List Word
  deriving DecidableEq, Repr

/-- One egress: the frame in transmission with its queue, the bytes of it in the staging buffer (R322), the weighted queue served last (R298), the
gate engine (R301): whether the list runs, beats left in the entry, the list in force and one that waits for its first
cycle (R305), and its last egress capture (R152). -/
structure Egr where
  tx : Option (Nat × QEnt)
  sent : List Byte
  last : Nat
  gRun : Bool
  gLeft : Nat
  gIn : Option GateList
  gNew : Option GateList
  cap : Capture
  deriving DecidableEq, Repr

/-- An idle egress. -/
def Egr.init : Egr := { tx := none, sent := [], last := 0, gRun := false, gLeft := 0, gIn := none, gNew := none, cap := Capture.none }

/-- One slot of a resequencer context (R265, R266). -/
inductive RSlot where
  | gone
  | held (h : Nat) (since : Nat)
  deriving DecidableEq, Repr

/-- A resequencer context (R265). -/
structure Rsq where
  next : Nat
  slots : Tab (Option RSlot)
  hist : BitVec 64
  deriving DecidableEq, Repr

/-- A frame that a pipeline has begun and not committed: its pipeline, ingress, cells and, where it is an Ethernet frame,
its priority (R253, R254, R263). -/
structure Held where
  p : Nat
  ing : Nat
  cells : Nat
  prio : Nat
  deriving DecidableEq, Repr

/-- The switch core. -/
structure Net where
  frames : Tab (Option Frame)
  nextH : Nat                     -- the next frame handle (the model's own)
  queues : Tab (List QEnt)        -- by egress * 8 + queue
  stuck : List Held               -- frames a stopped pipeline holds (R254)
  egrs : Tab Egr
  ctxs : Tab (Option Rsq)         -- by stream * 128 + egress
  smpGap : Tab Nat                -- frames until the next sample, per ingress (R275)
  shFrac : Tab Nat                -- shaper fractions, by egress * 8 + queue (R286)
  credits : Tab Nat               -- weighted credits spent, by egress * 8 + queue (R298)
  fcAss : Tab (BitVec 8)          -- flow control asserted, per port (R263)
  spillLost : Bool                -- rail 2 was lost since the cold reset (R262)
  loop : Tab Nat                  -- loopback of a lane or port: 1 MAC, 2 line (R586)
  rxBeat : Tab Nat                -- frames received in this beat, per ingress (Table 21.3)
  leaked : Nat                    -- cells out of service until the next reset (Table 21.2)
  deriving DecidableEq, Repr

/-! ## Tables (chapter 8) -/

/-- The ageing pass of one pipeline (R232, R233). -/
structure Pass where
  busy : Bool
  pos : Nat
  due : Bool
  parity : Bool
  deriving DecidableEq, Repr

/-- No pass runs. -/
def Pass.init : Pass := { busy := false, pos := 0, due := false, parity := false }

/-- The classification tables. Entries are the bit vectors of Table 8.5; an entry whose valid bit is 0 is
empty. Hash keys are pipeline * 16512 + 4 * bucket + way, the overflow store at 16384. -/
structure Tables where
  can : Tab (BitVec 48)           -- pipeline * 49152 + 2048 l + identifier
  lin : Tab (BitVec 53)           -- pipeline * 1536 + 64 l + identifier
  hash : Tab (BitVec 128)
  vlan : Tab (BitVec 256)
  stream : Tab (BitVec 64)
  group : Tab (BitVec 128)
  batch : List (Bool × Cfg)       -- the open or committed batch (R242); true marks an INSTALLER's right over every field
  lostKeys : List (Nat × BitVec 64)  -- hash entries that scrub invalidated: pipeline and key (R246)
  lostVids : List Nat             -- and VLAN entries
  batchBy : Option (Chan × Nat)   -- the channel and role that built it
  batchGo : Bool                  -- committed: applied at the next boundary
  pass : Tab Pass
  deriving DecidableEq, Repr

/-! ## Ports (chapter 7) -/

/-- What a port holds beside its registers: PHY_RST_Nn released, the 10 ms since its release not yet over (R192), a lower
wake time that waits for the next LLDP frame, and the wake times the partner last sent, transmit and receive (R203). -/
structure Port where
  phyRst : Bool
  upWait : Bool
  twNext : Option Nat
  echo : Nat × Nat
  txQuiet : BitVec 8       -- scopes for which no pause is sent after a break (R210)
  wakeAt : Nat             -- tick from which frames start again after LPI (R204)
  deriving DecidableEq, Repr

/-- A port after reset. -/
def Port.init : Port := { phyRst := false, upWait := false, twNext := none, echo := (0, 0), txQuiet := 0, wakeAt := 0 }

/-! ## Cipher engines (chapter 13) -/

/-- A bulk job that runs: from the vault's ring or the normal world's. -/
structure Job where
  vault : Bool
  desc : BulkDesc
  key : List Byte          -- the key it took when it started (R360, R361)
  deriving DecidableEq, Repr

/-- One bulk engine: its running job, the ring served last (R364), and the key words written since KLEN
was written (R359). -/
structure Eng where
  job : Option Job
  lastVault : Bool
  written : BitVec 8
  deriving DecidableEq, Repr

/-- An idle engine. -/
def Eng.init : Eng := { job := none, lastVault := false, written := 0 }

/-- What a decision gives: the action word, the VID, the targets, the flood policer, whether the frame is
trapped, and the sampler outcome of a frame that is dropped. -/
structure Decided where
  action : BitVec 48
  vid : Nat
  targets : List Nat
  fpol : Option Nat
  trap : Bool
  out : Option Nat
  untag : BitVec 106
  deriving DecidableEq, Repr

/-- What a frame takes from its ingress: capture, time, node, ingress and carry at its first ingress, and whether it came through a domain
port. -/
structure Stamp where
  time : BitVec 64
  cap : Capture
  node : Nat
  ing : Nat
  carry : Word
  viaDomain : Bool
  deriving DecidableEq, Repr

/-- What a frame brings to its forwarding: pipeline, ingress, lane index of its keys, stamp, content, named
colour and launch time. -/
structure Arrival where
  p : Nat
  ing : Nat
  l : Nat
  st : Stamp
  content : Content
  colour : Fin 3
  launch : Option LaunchAt
  trapOnly : Bool          -- a frame that the MAC traps to PP (R198)
  deriving DecidableEq, Repr

/-- A frame that waits for a profile's key (R372): one of HP or PP that is still to be secured, or one that is decided
and policed and still to be verified, with the semaphore it holds. -/
inductive LaWait where
  | tx (f : RxFrame)
  | rx (a : Arrival) (d : Decided) (col : Colour) (lock : Option (Nat × Nat))
  deriving DecidableEq, Repr

/-- The cipher engines: bulk engines, the LANEAUTH key cache (most recently used first), frames that wait
for a profile's key (R372), the saved L and T of each profile (R373), and the watchdog firings of the last
second (R374). -/
structure Cipher where
  engs : Tab Eng
  cache : List Nat
  waits : List (Nat × LaWait)
  saved : Tab (Nat × Nat)
  firings : List Nat
  storeLast : Nat                 -- status code of the last STORE job (R367)
  deriving DecidableEq, Repr

/-! ## Host bridge (chapter 18) -/

/-- What the bridge holds beside its registers: lease ends in ticks, the MSI-X table words and pending
bits, the beat count after which each vector was last sent, failed DMA pieces in a row. -/
structure Bridge where
  lease : Tab Nat
  msixTab : Tab Word
  msixPend : BitVec 64
  msixLast : Tab Nat
  dmaFails : Nat
  txWait : Option Nat          -- the semaphore the HP_TX descriptor at the front waits for (R495)
  announced : BitVec 256       -- pending, unmasked sources whose MSI-X message has been sent or is held pending (R508)
  deriving DecidableEq, Repr

/-! ## Helber domain (chapter 20) -/

/-- Member states (Table 20.4). -/
inductive MemSt where
  | absent | joining | member | behind | isoVer | isoDup | lost
  deriving DecidableEq, Repr

/-- Codes of Table 20.4; SELF is 7. -/
def MemSt.code : MemSt → Nat
  | .absent => 0 | .joining => 1 | .member => 2 | .behind => 3 | .isoVer => 4 | .isoDup => 5 | .lost => 6

/-- What a node knows of a peer, from its verified HELLOs. -/
structure Peer where
  st : MemSt
  uid : BitVec 128
  major : Nat
  minor : Nat
  mode : Nat
  lock : BitVec 4
  epoch : Word
  digest : BitVec 64
  port : Nat
  rport : Nat                -- the peer's own port, from its station address
  revSeq : Nat               -- its REV_SEQ
  seqRef : Option Word
  lockSeen : Bool            -- its LOCK_REQ was already acted on (Table 20.5)
  deriving DecidableEq, Repr

/-- A node never seen. -/
def Peer.init : Peer :=
  { st := .absent, uid := 0, major := 0, minor := 0, mode := 0, lock := 0, epoch := 0, digest := 0, port := 0,
    rport := 0, revSeq := 0,
    seqRef := none, lockSeen := false }

/-- A blob being received (R555): its sender, identity, kind and the segments that have arrived; `done` of one that was
complete and has been handled. -/
structure BlobIn where
  src : Nat
  id : Word
  kind : Nat
  segs : List (Nat × List Byte)
  done : Bool
  deriving DecidableEq, Repr

/-- The context a command runs in (R25): role 0 is HOST; a role's session brings its key, under which the request and
its response are tagged, and the sequence of the last request accepted in it (R33). -/
structure Ctx where
  role : Nat
  key : List Byte
  last : BitVec 32
  deriving DecidableEq, Repr

/-- The HOST context. -/
def Ctx.host : Ctx := { role := 0, key := [], last := 0 }

/-- A command whose response comes later, with its context. -/
structure Owed where
  req : Req
  ctx : Option Ctx
  deriving DecidableEq, Repr

/-- A push in progress (R554, R555): the request that ordered it, segments in all, rounds done, and the
missing segments each peer last reported. -/
structure PushOut where
  owed : Owed
  id : Word
  kind : Nat
  data : List Byte           -- the bytes of the blob
  segs : Nat
  rounds : Nat
  acks : Tab (Option (List Nat))
  deriving DecidableEq, Repr

/-- The Helber domain. -/
structure Hlb where
  peers : Tab Peer
  seq : Word                 -- own frame sequence
  dup : Bool
  topo : Bool
  keyFail : Bool
  safe : Bool                -- the restriction of R549 in force
  behind : Bool              -- behind, as last judged
  immobAny : Bool
  lockAny : Bool
  motionAny : Bool
  mnode : Nat
  blobs : List BlobIn
  push : Option PushOut
  pulls : Tab Nat            -- tick of the last PULL sent to a peer, plus 1
  immobReq : Bool            -- an IMMOBILISE pending or applied to the open trip (R552)
  forceLock : Bool           -- a FORCE_LOCK pending (R552)
  commits : Nat              -- commits of this beat that the next boundary resolves (R548, R564)
  deriving DecidableEq, Repr

end Sys2Proof.Machine
end

