-- ==== Sys2Proof/Machine/Types.lean ====
section
/-! DEFINITION. The data types of the machine's state, chapter by chapter. -/

namespace Sys2Proof.Machine

/-! ## Status codes (Table 19.2) -/

/-- The status codes of Table 19.2 (R524). -/
inductive Status where
  | ok | busy | denied | badParam | notInMode | stale | range | heldSecure | final | tampered
  | retry | orphan | overrun | integrity | noSession
  deriving DecidableEq, Repr

/-- The code of a status (Table 19.2). -/
def Status.code : Status → Nat
  | .ok => 0 | .busy => 1 | .denied => 2 | .badParam => 3 | .notInMode => 4 | .stale => 5
  | .range => 6 | .heldSecure => 7 | .final => 8 | .tampered => 9 | .retry => 10 | .orphan => 11
  | .overrun => 12 | .integrity => 13 | .noSession => 14

/-! ## Power (chapter 3) -/

/-- The eight modes of Table 3.1 (R70). -/
inductive Mode where
  | dormant | sentry | approach | rented | drive | service | depot | quarantine
  deriving DecidableEq, Repr

/-- Mode codes (Table 3.1). -/
def Mode.code : Mode → Nat
  | .dormant => 0 | .sentry => 1 | .approach => 2 | .rented => 3 | .drive => 4 | .service => 5
  | .depot => 6 | .quarantine => 7

/-- The mode of a code of Table 3.1; a reserved code names none. -/
def Mode.ofCode : Nat → Option Mode
  | 0 => some .dormant | 1 => some .sentry | 2 => some .approach | 3 => some .rented
  | 4 => some .drive | 5 => some .service | 6 => some .depot | 7 => some .quarantine
  | _ => none

/-- The awake modes (R27). -/
def Mode.awake : Mode → Bool
  | .dormant => false
  | .sentry => false
  | _ => true

/-- The QUARANTINE causes of Table 3.3. -/
inductive QCause where
  | none | tamper | rootMissing | fwSig | rail | overrun | ledger | engine
  deriving DecidableEq, Repr

/-- Cause codes (Table 3.3). -/
def QCause.code : QCause → Nat
  | .none => 0 | .tamper => 1 | .rootMissing => 2 | .fwSig => 3 | .rail => 4 | .overrun => 5
  | .ledger => 6 | .engine => 7

/-- Where the core stands: asleep in DORMANT or SENTRY, in the rail phase of a wake (R79), in start-up
on the external rails or on the entry island (R405), halted (R110), or awake after step 7. -/
inductive Phase where
  | asleep | railPhase | startup | island | halted | awake
  deriving DecidableEq, Repr

/-- The state of a gateable block (R89 to R93). -/
inductive GateSt where
  | on | clkGated | pwrGated | pending
  deriving DecidableEq, Repr

/-- PWR_GATE_STAT codes (Table 3.13). -/
def GateSt.code : GateSt → Nat
  | .on => 0 | .clkGated => 1 | .pwrGated => 2 | .pending => 3

/-- The power manager (chapter 3). `recorded` is the recorded mode of the VBKP domain, `cur` the mode in
force, which differ while the device sleeps after a brown-out, wakes or starts up (R75, R97). -/
structure Power where
  cur : Mode
  recorded : Mode
  prev : Mode
  qcause : QCause
  lowEnergy : Bool
  phase : Phase
  sleepIn : Mode          -- the sleeping mode a failed wake returns to (R80)
  en : BitVec 5           -- BK_ENn driven
  pg : BitVec 5           -- BK_PGn high
  railWait : Option Nat   -- the rail whose power-good is awaited
  railRetries : Nat       -- failed bring-ups of rail 0 or 1 so far (R80)
  railSettle : Bool       -- a failed bring-up waits its 10 ms (R80)
  leBlocked : Bool        -- LOW_ENERGY may not clear before a sleep (R80)
  vbat : Nat              -- last VBAT known, mV
  actLow : Bool           -- VBAT compared below ACT, with hysteresis (R83)
  parkLow : Bool          -- VBAT compared below PARK, with hysteresis (R83)
  samples : List Nat      -- VBAT samples of the last second, newest first (R76)
  wakePer : Option (Nat × Nat)   -- the 32.768 kHz period, in ledger time, of the wake that started the core (R77)
  sleepPend : Bool        -- the way to SENTRY waits for the vault's release of a block (R95)
  riseAuto : Bool         -- VBAT_RISE armed by a brown-out (R97)
  step : Nat              -- throttle step (Table 3.7)
  quiet : Nat             -- quiet beats counted (R87)
  vbSag : Bool
  vcSag : Bool
  sagInBeat : Bool        -- a sensor was tripped within the present beat (R87)
  shed : Bool             -- lanes shed (R84)
  alarmLeft : Nat         -- 32.768 kHz periods until ALARM; 0 when not running (R106)
  wakeOut : Bool          -- WAKE_OUT driven high (R78)
  woutPend : Bool         -- WAKE_OUT rises when the rail phase ends (R78)
  dead : BitVec 5         -- rails that failed or were lost since the last wake (R80, R81)
  osc : Bool              -- the 32.768 kHz oscillator runs (R620)
  oscPeriods : Nat        -- its periods since it started, at most 1,024
  gates : Tab GateSt      -- per block of Table 3.8; unlisted is on
  jobs : Tab Bool         -- normal-world jobs started on a block (R90)
  deriving DecidableEq, Repr

/-! ## Start-up, fuses (chapter 4) -/

/-- Lifecycle states (Table 4.5). -/
inductive Lifecycle where
  | manufacture | provision | field | return_
  deriving DecidableEq, Repr

/-- Lifecycle codes (Table 4.5). -/
def Lifecycle.code : Lifecycle → Nat
  | .manufacture => 0 | .provision => 1 | .field => 2 | .return_ => 3

/-- Start-up: the step in progress and what SYS_BOOT reports (R110, R127). -/
structure Boot where
  step : Nat
  failed : Bool
  fstep : Nat
  fallback : Bool
  slotB : Bool
  rootAbsent : Bool
  recovery : Bool          -- the boot ROM recovery service runs (R111)
  svn : Nat                -- security version of the running image
  version : Word           -- version of the running image
  warm : Bool              -- this start-up follows a warm reset (R109)
  fusesDone : Bool         -- step 1 has resolved the fuses since the cold reset (Table 14.4)
  qpend : List QCause      -- QUARANTINE causes found so far (R639)
  mapValid : Bool          -- an INSTALLER map is in force (R112)
  resetOrdered : Option Chan   -- a SYS_RESET waits for its response (R534)
  vaultBad : Bool          -- vault memory failed: the next self-test of the vault fails (Table 21.2)
  deriving DecidableEq, Repr

/-- The fuse values in use (R114 to R119): 128 resolved words, the KEY words in use that are INVALID,
and the lifecycle, debug and FW_MIN values that govern until the next beat boundary (R119). -/
structure Fuses where
  words : Tab Word
  invalid : Tab Bool
  govLc : Lifecycle
  govFwMin : Nat
  govDbg : Bool
  selB : Bool              -- the firmware slot selector in flash names B (R111)
  slotA : Option FwImage   -- the image FW_LOAD has written into slot A, if it has (R529)
  slotB : Option FwImage   -- and into slot B
  burnt : Tab Word         -- the bits that commands have burnt, in the array itself (R122, R530)
  deriving DecidableEq, Repr

/-! ## Sessions and access (chapters 1 and 14) -/

/-- One role's session, challenge and lockout (R29 to R38). -/
structure Sess where
  isOpen : Bool
  id : BitVec 16
  chan : Chan
  lastSeq : BitVec 32
  tagFails : Nat
  idleS : Nat
  key : List Byte          -- the session key (R31)
  endBeat : Option Word    -- the beat in which its last session closed (R37)
  endId : BitVec 16        -- that session's ID
  endReason : Nat          -- the reason recorded for it
  chal : Option (List Byte)   -- the outstanding challenge, 32 bytes (R29)
  fails : Nat              -- consecutive failed SESSION_OPENs, VBKP domain (R32)
  lockS : Nat              -- length of the last lockout in seconds; 0 none yet
  locked : Bool            -- the lockout runs
  runFirst : Nat           -- ledger-read run in progress: first sequence (R39)
  runLast : Nat
  runOn : Bool
  deriving DecidableEq, Repr

/-- A session slot of a role that has never been used. -/
def Sess.closed : Sess :=
  { isOpen := false, id := 0, chan := .ring, lastSeq := 0, tagFails := 0, idleS := 0, key := [], endBeat := none, endId := 0,
    endReason := 0, chal := none,
    fails := 0, lockS := 0, locked := false, runFirst := 0, runLast := 0, runOn := false }

/-- The refusal counts since the last DENY_SUMMARY (R395), held inside the vault. -/
structure Deny where
  h : Nat
  d : Nat
  f : Nat
  g : Nat
  hostCmd : Nat
  probe : Nat
  missed : Nat
  first : Option (Nat × Nat × Nat)   -- class, reason, address of the first refusal
  any : Bool
  lastSec : Option Nat               -- ledger second of the last summary
  deriving DecidableEq, Repr

/-- No refusal since the last summary. -/
def Deny.empty : Deny :=
  { h := 0, d := 0, f := 0, g := 0, hostCmd := 0, probe := 0, missed := 0, first := none,
    any := false, lastSec := none }

/-! ## Commands (chapter 19) -/

/-- A response on a command channel (Table 19.1): its header fields, the key its tag is made under, if it carries one,
and its parameter bytes. -/
structure Rsp where
  opcode : Nat
  seq : BitVec 32
  session : BitVec 16
  status : Status
  key : Option (List Byte)
  params : List Byte
  deriving DecidableEq, Repr

/-- A request waiting on a channel: its opcode, session and sequence, and, once the dispatcher has accepted it from the
ring, the context it runs in, if there is one (R36). -/
structure Wait where
  opcode : Nat
  session : BitVec 16
  seq : BitVec 32
  accepted : Bool
  ctx : Option Ctx
  deriving DecidableEq, Repr

/-- The dispatcher: the packets queued on quad-SPI, the request fetched from the ring, the responses
queued on quad-SPI, and the channel taken last (R519 to R523). -/
structure Disp where
  spiReq : List Wait
  ringReq : List Wait
  spiRsp : List Rsp
  lastSpi : Bool
  spiStatus : Status       -- status of the last WRITE or CMD_PUT (R521)
  gateWaits : List (Owed × Nat)   -- BLOCK_GATE commands whose response waits for a block's gate (R90)
  cur : Option Ctx         -- the context of the command in execution
  deriving DecidableEq, Repr

/-! ## Time (chapter 5) -/

/-- gPTP domain states (Table 5.6). -/
inductive DomSt where
  | off | free | acquire | locked | holdover | gm
  deriving DecidableEq, Repr

/-- TIME_Dn_STAT.STATE codes (Table 5.6). -/
def DomSt.code : DomSt → Nat
  | .off => 0 | .free => 1 | .acquire => 2 | .locked => 3 | .holdover => 4 | .gm => 5

/-- One gPTP domain (R140 to R146). `t` is its time in units of 2^-16 ns, `acc` the 2^-40 fraction of
such a unit carried between ticks. The shadows are latched by a read of TIME_Dn_NS (R146). -/
structure Dom where
  st : DomSt
  t : Nat
  acc : Nat
  rate : Int               -- 2^-40 units
  good : Nat               -- consecutive Syncs below LOCK_NS (R142)
  holdTicks : Nat          -- ticks since HOLDOVER was entered
  shSecLo : Word
  shSecHi : Word
  shFrac : Word
  deriving DecidableEq, Repr

/-- A domain after cold reset (R153). -/
def Dom.init : Dom :=
  { st := .off, t := 0, acc := 0, rate := 0, good := 0, holdTicks := 0, shSecLo := 0, shSecHi := 0, shFrac := 0 }

/-- The timebase and the beat (R131 to R155). -/
structure Time where
  ticks : Nat              -- local time, 4 ns ticks
  doms : Tab Dom
  chgPend : Option Nat     -- the beat length code scheduled (R132)
  chgAt : Nat              -- the tick of its scheduling
  beatCnt : Word
  ovrCount : Nat           -- PCOUNT of R139
  trgPast : Tab Bool       -- channel whose target was already passed when it was armed (R149)
  trgs : Tab (Nat × Nat)   -- the target, in ns, and the period an armed channel holds (R158)
  trgActed : Tab Nat       -- by target block: the tick, plus 1, at which a channel last acted on it (R150)
  chgLocal : Bool          -- the change was scheduled by start-up step 5: it waits for local time (R131)
  beatPos : Nat            -- ticks since the last beat boundary
  beatLen : Nat            -- ticks of the running beat (R133)
  refillMiss : List Nat    -- policers the running beat's REFILL has not reached (R138)
  shaperMiss : List Nat    -- shapers it has not reached
  gateMiss : List Nat      -- egresses whose list GATE has not advanced
  ageOwed : Bool           -- an ageing step ran past its beat (R138)
  noCheck : Bool           -- the next boundary is the first after a freeze: it checks no overrun (R583)
  deriving DecidableEq, Repr

/-! ## Vault (chapter 12) -/

/-- A key slot (R337): the attribute word of Table 12.4, GEN, UCNT, whether it is closed (R342) and its key: the bytes of
Table 12.3, none where the slot holds no key. -/
structure Slot where
  attr : BitVec 64
  gen : BitVec 16
  ucnt : BitVec 32
  final : Bool
  key : List Byte
  deriving DecidableEq, Repr

/-- A slot that has never been written (R337). -/
def Slot.empty : Slot := { attr := 0, gen := 0, ucnt := 0, final := false, key := [] }

/-- The vault (chapter 12): its root, slots and self-health. -/
structure Vault where
  root : List Byte          -- the 256-bit root in the VBKP domain, zeros where it was zeroed (R334)
  rootCheck : List Byte     -- the 64-bit check value held beside it (R334)
  rootPresent : Bool
  slotsReady : Bool         -- start-up step 3 has rebuilt the slots
  storeOk : Bool
  slots : Tab Slot
  storeSeq : Nat            -- the sequence number of the slot store's newest record, VBKP domain (R343)
  storeChain : List Byte    -- the SHA-256 chain over all its records, 32 bytes, VBKP domain (R343)
  mapHash : List Byte       -- SHA-256 of the stored INSTALLER map, VBKP domain (R532)
  groupTampered : Bool      -- group 0x07 answers TAMPERED since a tamper (R332)
  rngFailed : Bool          -- no random value issued (R333)
  immob : Bool              -- the immobiliser is set
  immobPend : Bool          -- set it at the first standstill (R73, R74)
  lockPend : Bool           -- engage every bolt at the first standstill (R73)
  closePend : Bool          -- a TRIP_CLOSE accepted in DRIVE waits for standstill (R531)
  toRented : Bool           -- DRIVE passes to RENTED at the first standstill (R73)
  deriving DecidableEq, Repr

/-! ## Phone entry (chapter 15) -/

/-- STATE of the credential exchange file (Table 15.4). -/
inductive ExSt where
  | idle | ready | submitted | busy | done
  deriving DecidableEq, Repr

/-- Codes of STATE (Table 15.4). -/
def ExSt.code : ExSt → Nat
  | .idle => 0 | .ready => 1 | .submitted => 2 | .busy => 3 | .done => 4

/-- The count of refused credentials and the lockout of one path (R419). -/
structure CredPath where
  fails : Nat
  lockS : Nat
  locked : Bool
  deriving DecidableEq, Repr

/-- A path with no refusals. -/
def CredPath.clear : CredPath := { fails := 0, lockS := 0, locked := false }

/-- A grant kept for power (R422), with its path: 0 NFC, 1 host radio. -/
structure Grant where
  path : Nat
  request : Nat
  rights : BitVec 16
  tripRef : Nat
  tokenId : Nat
  deriving DecidableEq, Repr

/-- A wired access that waits for an exchange window to close (R409): true is a write. -/
structure Wired where
  cls : Cls
  acc : Access
  write : Bool
  deriving DecidableEq, Repr

/-- The NFC interface, tag memory and credentials (chapter 15). -/
structure Nfc where
  field : Bool
  active : Bool
  window : Bool
  reserve : Tab Nat         -- by class code: tick until which an access after a RETRY goes ahead of a window (R410)
  held : List Wired         -- wired accesses held behind the open window (R409)
  ex : ExSt                 -- STATE of the exchange file, its byte 0
  chal : Bool               -- the NFC challenge is unexpired and unused (R414)
  subChal : Bool            -- the challenge was so when the credential under check was submitted
  hostChal : Option (Nat × List Byte)  -- the unused host-radio challenge: the tick of its issue and its bytes (R423)
  rfUid : List Byte         -- the random UID of the field session (R401)
  apdu : Option Apdu        -- a command frame whose response is still owed (R408)
  selected : Nat            -- 0 nothing, 1 the application, else the file ID selected by the reader
  tag : Tab Byte            -- tag memory, 8 KiB but for STATE; unlisted bytes read zero (R425)
  nfcPath : CredPath
  hostPath : CredPath
  pending : Option Grant
  revoked : List Nat        -- revoked token IDs
  revList : List Byte       -- the signed list last applied, empty while there is none (R556)
  leTimes : List Nat        -- ledger seconds of the verifications under LOW_ENERGY, newest first (R406)
  startFrm : List Word      -- ENTRY_CONFIG START image
  stopFrm : List Word       -- ENTRY_CONFIG STOP image
  unlockFrm : List Word     -- ENTRY_CONFIG UNLOCK frames
  lockFrm : List Word       -- ENTRY_CONFIG LOCK frames
  deriving DecidableEq, Repr

/-! ## The rental ledger (chapter 16) -/

/-- The payload of a ledger entry, by type (Table 16.2). -/
inductive Payload where
  | tripOpen (tokenId tripRef odo wallS src : Nat)
  | tripClose (tripRef odo wallS intervals src : Nat)
  | intervalClose (num lOpen boundS dist tariff reason : Nat)
  | distSample (odo tripMm tracker sync speed : Nat)
  | timeStep (oldOfs newOfs : Int) (role session : Nat)
  | roleAction (role status session opcode : Nat) (phash : BitVec 64) (first last : Nat)
  | session (event role session reason idleS lockoutS : Nat)
  | keyUpdate (target auth op status gen ucnt : Nat) (mhash : BitVec 64)
  | freezeArm (role session : Nat)
  | entryAction (tripRef tokenId request src : Nat)
  | denySummary (d : Deny)
  | tamper (kind detail : Nat)
  | seal (cause lastGood : Nat)
  | genesis
  deriving DecidableEq, Repr

/-- A ledger entry (Table 16.1). Its MAC is a function of the entry and of the MAC before it. -/
structure Entry where
  seq : Nat
  late : Bool
  restart : Bool
  ltime : Nat               -- 48.16 seconds
  payload : Payload
  mac : BitVec 128
  deriving DecidableEq, Repr

/-- What one position of the flash ring holds (R439). -/
inductive LPos where
  | empty
  | void
  | entry (e : Entry)
  | partial_                -- programmed in part when the supply fell (R441)
  deriving DecidableEq, Repr

/-- The open trip (R420, R531). -/
structure Trip where
  tripRef : Nat
  tokenId : Nat
  drive : Bool
  src : Nat
  deriving DecidableEq, Repr

/-- The open billing interval (R434). -/
structure Interval where
  num : Nat
  lOpen : Nat               -- 48.16 ledger time
  lEnd : Nat
  aligned : Bool
  bound : Nat               -- wall boundary in seconds when aligned
  tariff : Nat
  distAt : Nat              -- TRIP_MM when it opened
  openBeat : Word           -- TIME_BEAT_CNT when it opened (R435, R450)
  deriving DecidableEq, Repr

/-- The ledger and ledger time (chapter 16), VBKP domain but for the queue. -/
structure Ledger where
  sec : Nat                 -- 48-bit seconds
  frac : Nat                -- 2^-40 s
  phase : Nat               -- 32.768 kHz phase, in 1/250,000,000 of a period
  trim : Int
  ofs : Int                 -- 2^-16 s
  wallValid : Bool
  lastWb : Nat              -- LAST_WB of R434
  period : Nat
  tariff : Nat
  final : Bool
  timeFinal : Bool          -- ledger time has reached all ones (R428)
  sealed : Bool
  head : Option Nat         -- newest committed SEQ
  lastGood : Option Nat     -- a chain fault waits for the SEAL that restarts the chain: the last entry before it (R443)
  headMac : BitVec 128
  oldest : Nat
  nextSeq : Nat
  trip : Option Trip
  interval : Option Interval
  intervals : Nat           -- intervals closed in the open trip
  queue : List Entry
  ring : Tab LPos
  hostSteps : List (Nat × Nat)   -- HOST-context wall steps of the last 24 h: ledger second, 2^-16 s
  shLtHi : Word
  shWallHi : Word
  deriving DecidableEq, Repr

/-! ## Lanes (chapter 6) -/

/-- Lane states (Table 6.4). -/
inductive LaneSt where
  | off | rxOnly | active | busOff | fault | latched | shed
  deriving DecidableEq, Repr

/-- LANE_STAT.STATE codes (Table 6.4). -/
def LaneSt.code : LaneSt → Nat
  | .off => 0 | .rxOnly => 1 | .active => 2 | .busOff => 3 | .fault => 4 | .latched => 5 | .shed => 6

/-- One lane (chapter 6). -/
structure Lane where
  st : LaneSt
  probe : Bool             -- RX_ONLY is the probe of R168
  faults : BitVec 9        -- the faults present: bit (code - 1) of Table 6.7
  cause : Nat              -- the fault that caused the entry into FAULT
  watch : Bool             -- returned from FAULT less than 1 s ago (R179)
  retries : Nat
  swapped : Bool
  swapPend : Bool          -- REV seen with SWAP_EN: the swap waits for 11 recessive bits (R178)
  tec : Nat
  recErr : Nat
  fallback : Bool          -- PLCA_FALLBACK
  fec : Nat                -- wake-frame error counter (R172)
  preShed : LaneSt         -- FAULT or LATCHED to return to after SHED (R183)
  linSlot : Nat            -- next slot of the LIN schedule (R163)
  linNext : Nat            -- local tick of the next header's slot start
  linId : Option Nat       -- identifier whose response is awaited
  backoff : Bool           -- a collided T1S frame backs off (R200)
  attempts : Nat           -- attempts of that frame
  backEnd : Nat            -- local tick at which the back-off ends (R199)
  rng : Word               -- the state of the lane's back-off generator (R199)
  meas : BitVec 8          -- LANE_TDC.MEAS: the last measured loop delay
  deriving DecidableEq, Repr

/-- A lane after cold reset: OFF until its state is derived (R182). -/
def Lane.init : Lane :=
  { st := .off, probe := false, faults := 0, cause := 0, watch := false, retries := 0, swapped := false,
    swapPend := false, tec := 0, recErr := 0, fallback := false, fec := 0, preShed := .off, linSlot := 0,
    linNext := 0, linId := none, backoff := false, attempts := 0, backEnd := 0, rng := 0, meas := 0 }

/-- The copy of one lane's wake configuration in the AON block, VBKP domain (R171). -/
structure WakeCopy where
  pers : Nat
  cfg : Word
  id : Word
  idm : Word
  dm0 : Word
  dm1 : Word
  swapped : Bool
  deriving DecidableEq, Repr

/-- The AON wake block (R171, R174). -/
structure Aon where
  copies : Tab (Option WakeCopy)
  stopped : Tab Bool        -- wake receivers stopped by a short in this SENTRY period
  wakeAt : Option (Nat × Nat)   -- ledger seconds and fraction of the period of the last lane wake recorded (R173)
  deriving DecidableEq, Repr

/-! ## Trackers, feedback, bolts (chapter 17) -/

/-- Tracker states (Table 17.7). -/
inductive TtSt where
  | off | search | sync | fault
  deriving DecidableEq, Repr

/-- TTn_STAT.STATE codes. -/
def TtSt.code : TtSt → Nat
  | .off => 0 | .search => 1 | .sync => 2 | .fault => 3

/-- One tooth tracker. -/
structure Tracker where
  st : TtSt
  loss : Nat               -- Table 17.2
  fault : Nat              -- Table 17.1
  moving : Bool            -- reports motion (R465)
  motAt : Nat              -- tick from which STILL_MS of motion runs (R465)
  tooth : Nat              -- position of the last counted tooth
  te : Nat                 -- its stamp in ticks
  lastEdge : Nat           -- stamp of the last accepted edge
  cap : Capture            -- its capture (R152)
  seen : Bool              -- an edge has been accepted since the search began
  p1 : Nat
  p2 : Nat
  p3 : Nat
  pitches : Nat            -- pitches measured since entry into SEARCH, at most 3
  run : Nat                -- consistent teeth in a row in SEARCH
  gap : Bool               -- a gap 0 tooth began the run (R457)
  bad : Bool               -- the budget of this revolution is used (R459)
  absorb : Option Nat      -- a synthetic tooth absorbs a real edge up to this stamp (R459)
  discRow : Nat            -- edges discarded in a row (R454)
  rev : Nat
  speedOff : Bool          -- TTn_SPEED reads 0 after STALL or in FAULT (R462)
  deriving DecidableEq, Repr

/-- A tracker that is OFF. -/
def Tracker.init : Tracker :=
  { st := .off, loss := 0, fault := 0, moving := false, motAt := 0, tooth := 0, te := 0, lastEdge := 0, cap := Capture.none, seen := false,
    p1 := 0, p2 := 0, p3 := 0, pitches := 0, run := 0, gap := false, bad := false, absorb := none,
    discRow := 0, rev := 0, speedOff := true }

/-- One feedback channel (R471 to R473). -/
structure FbChan where
  valid : Bool
  fault : Nat              -- Table 17.4
  conv : Option Bool       -- a conversion runs; true is one of a CTRL firing
  sin : Int
  cos : Int
  theta : Nat
  turn : Int
  known : Bool             -- a conversion has been made since the channel start
  amp : Nat
  speed : Int
  lowN : Nat               -- consecutive conversions below AMP_LO
  highN : Nat              -- consecutive conversions above AMP_HI
  clean : Nat              -- consecutive conversions that raise no fault condition
  at_ : Nat                -- tick of the newest conversion
  deriving DecidableEq, Repr

/-- A channel after its start (R483). -/
def FbChan.init : FbChan :=
  { valid := false, fault := 0, conv := none, sin := 0, cos := 0, theta := 0, turn := 0, known := false,
    amp := 0, speed := 0, lowN := 0, highN := 0, clean := 0, at_ := 0 }

/-- Bolt states (Table 17.6). -/
inductive BoltSt where
  | unknown | released | engaged | releasing | engaging | fault
  deriving DecidableEq, Repr

/-- FB_BOLTb_STAT.STATE codes (Table 17.6). -/
def BoltSt.code : BoltSt → Nat
  | .unknown => 0 | .released => 1 | .engaged => 2 | .releasing => 3 | .engaging => 4 | .fault => 5

/-- One bolt (R478 to R482). -/
structure Bolt where
  st : BoltSt
  attempts : Nat
  lastEngage : Bool         -- last commanded end position, VBKP domain (R482)
  fired14 : Bool            -- entry 14 has fired in the running move
  inBand : Nat              -- consecutive conversions within the band after entry 14
  want : Option Bool        -- a requested or aborted move that waits; true is an engage (R481)
  undo : Bool               -- the running release follows an abort for motion (R481)
  deriving DecidableEq, Repr

/-- A bolt after reset, its last command unknown to the vault (R483). -/
def Bolt.init : Bolt :=
  { st := .unknown, attempts := 0, lastEngage := false, fired14 := false, inBand := 0, want := none, undo := false }

/-- Trackers, angle events, odometer, feedback, compare outputs and bolts (chapter 17). -/
structure Wheels where
  tts : Tab Tracker
  passes : Tab Nat          -- by entry k: passages since sync (R468); at 64 + k: teeth counted outside SYNC (R469)
  fired : Tab Bool          -- entries whose angle was reached since the last counted tooth (R468)
  spd : BitVec 4            -- SPD0 to SPD3
  odo : Nat                 -- 48-bit lifetime odometer, mm, VBKP
  tripMm : Nat              -- VBKP
  acc : Nat                 -- R463, VBKP
  lastSample : Option Nat   -- ledger second of the last distance sample (R469)
  quorumLow : Bool          -- fewer than QUORUM healthy WHEEL trackers (R466)
  fbs : Tab FbChan
  cmpo : BitVec 4           -- CMPO0 to CMPO3
  pulses : BitVec 4         -- a PULSE output is high (R476)
  bolts : Tab Bolt
  odoHiSh : Word            -- shadows latched by the LO reads (R451 style, Table 17.7)
  tripHiSh : Word
  deriving DecidableEq, Repr

/-! ## Configuration waiting for a beat boundary -/

/-- What applying a configuration does beside writing its registers. -/
inductive ApplyKind where
  | lane (n : Nat)
  | port (p : Nat)
  | policer (n : Nat)
  | tracker (n : Nat)
  | still
  | fbChan (n : Nat)
  | bolt (b : Nat)
  | gateList (egr : Nat) (l : GateList)
  | queues (egr : Nat)
  | group (g mode : Nat)
  | sampler (ing : Nat)
  | hlb
  | plain
  | map
  deriving DecidableEq, Repr

/-- A configuration change that takes effect at the next beat boundary: the register words it writes
(address, instance, value) and what it restarts. -/
structure Change where
  writes : List (Nat × Nat × Word)
  kind : ApplyKind
  deriving DecidableEq, Repr

/-! ## Events, background services, freeze (chapter 21) -/

/-- One gauge's accumulation: minimum, maximum and sum (R574). -/
structure Gauge where
  min : Int
  max : Int
  sum : Int
  deriving DecidableEq, Repr

/-- A gauge of which every sample was 0. -/
def Gauge.zero : Gauge := { min := 0, max := 0, sum := 0 }

/-- A closed telemetry record (Table 21.4). -/
structure TelRec where
  beat : Word
  samples : Nat
  missing : Nat
  gauges : Tab Gauge
  deriving DecidableEq, Repr

/-- Background services and freeze (chapter 21).
Mark: DEDUCED (log entry 14). -/
structure Bgs where
  fwPend : BitVec 256       -- the control firmware's own pending set (R578)
  fwEn : BitVec 256         -- and its own enable set (R578)
  scrubPos : Nat
  fuseRun : Bool
  chainRun : Bool
  eraseRun : Bool
  eraseKind : Nat           -- what the erase works on: 0 ledger ring, 1 log flash, 2 slot store
  suspended : Bool
  chainPos : Nat
  chainDone : Nat           -- tick of the last complete pass (R573)
  tempCur : Int
  tempRef : Int
  tempLast : Int            -- the temperature of the last complete fuse read, which a warm reset keeps (R118, R109)
  calLane : Nat            -- the next lane of the calibration round, 96 when the round is over (R571)
  calAdc : Nat             -- the next FB channel, 4 when the round is over (R572)
  calLaneAt : Nat          -- local tick from which the next round of lanes is due
  calAdcAt : Nat           -- and of FB channels
  telN : Nat                -- samples in the open accumulation
  telMissing : Nat
  telBeats : Nat
  telLatch : Option (List Int)   -- the sample latched at the last boundary, not yet drained
  telAcc : Tab Gauge
  telDue : Option TelRec    -- a closed record that the telemetry service has not yet stored
  rewrite : List Cfg        -- map records whose entries scrub invalidated (Table 21.2)
  telRecords : List TelRec   -- newest first, at most 8
  deriving DecidableEq, Repr

/-- Freeze (R580 to R585). -/
structure Freeze where
  armed : Bool
  armRole : Nat
  armEnd : Nat              -- local tick at which the window ends
  frozen : Bool
  shadow : Nat              -- the timebase shadow, ticks
  held : List Nat           -- sources that occurred in freeze: they become pending at the restart (R589)
  snapAddr : Nat            -- SNAP_ADDR, 40 bits
  snapData : BitVec 33      -- SNAP_DATA
  deriving DecidableEq, Repr

/-! ## What leaves the device -/

/-- An access of the control firmware to an external PHY over PHY_MDC and PHY_MDIO (R191): the read of its status, or the
read or write a command asks for: clause, device and register, with the value written. -/
inductive Mdio where
  | status
  | read (clause dev reg : Nat)
  | write (clause dev reg value : Nat)
  deriving DecidableEq, Repr

/-- What the last command put on the device's outputs: the words and status of a bus read, the status
of a bus write, and the DMA writes to host memory, frames handed to a line and MSI-X vectors sent.
Mark: DESIGN CHOICE (log entries 66, 67). -/
structure Outp where
  rdata : List Word
  rstatus : Option Status
  refused : Bool             -- the access was refused in the form of Table 14.6
  dma : List (Nat × List Byte)
  msix : List Nat
  bytes : List Byte          -- an NFC response, or a CMD_GET payload
  line : List (Nat × Nat × List Byte)   -- frames put on a line: egress code, conversion profile, bytes before line coding
  pause : List (Nat × Nat × Nat)        -- pause frames sent: port, scope mask, quanta
  helber : List (Nat × Nat × Nat × List Byte)   -- Helber frames sent: port, TYPE, DST, bytes (Table 20.2)
  vault : List Byte          -- bytes a vault job of a bulk engine or of STORE has written
  mdio : List (Nat × Mdio)   -- accesses on the MDIO bus, by PHY
  deriving DecidableEq, Repr

/-- Nothing on the outputs. -/
def Outp.none : Outp :=
  { rdata := [], rstatus := Option.none, refused := false, dma := [], msix := [], bytes := [], line := [], pause := [], helber := [], vault := [], mdio := [] }

end Sys2Proof.Machine
end

