-- ==== Sys2Proof/Machine/State.lean ====
section
/-! DEFINITION. The state of the block as plain data, the reasons a step can stop, and the state right
after reset. -/

namespace Sys2Proof.Machine

/-- The whole state of the block. Registers whose value is a stored word live in `rf`; live machine state
has a typed home in its chapter's structure and is composed into the registers that show it on a read.
Mark: DESIGN CHOICE (log entry 66). -/
structure State where
  rf : Tab Word   -- the register file: every register whose value is stored as a word, keyed by address and instance
  shadow : Tab Word   -- the shadow of each two-word STAT counter's high word (R11)
  sel : Tab Word   -- the selectors, one copy for each requester class (R599)
  power : Power   -- the power manager
  boot : Boot   -- start-up
  fuses : Fuses   -- fuse values in use
  sess : Tab Sess   -- the role sessions, by role code
  deny : Deny   -- refusal counts held by the vault (R395)
  disp : Disp   -- the command channels
  time : Time   -- timebase and beat
  vault : Vault   -- the vault
  nfc : Nfc   -- phone entry
  ledger : Ledger   -- rental ledger and ledger time
  lanes : Tab Lane   -- the 96 lanes
  aon : Aon   -- the AON wake block
  net : Net   -- the switch core
  tables : Tables   -- the classification tables
  ports : Tab Port   -- ports P0 to P7
  cipher : Cipher   -- the cipher engines
  bridge : Bridge   -- the host bridge
  hlb : Hlb   -- the Helber domain
  wheels : Wheels   -- trackers, feedback, bolts
  map : List Cfg   -- the stored INSTALLER map (FL_MAP)
  changes : List Change   -- configuration waiting for the next beat boundary
  bgs : Bgs   -- background services and events
  mem : Tab Byte   -- the memories VMEM, VPRIV and CMEM, by spine address; an unlisted byte reads 0
  freeze : Freeze   -- freeze and snapshot
  out : Outp   -- what the last command put on the outputs
  fresh : Nat   -- counter of the free values drawn so far (the model's own field)
  pending : List Instr   -- the commands that are waiting, first in first out
  deriving DecidableEq, Repr

/-- The faults of a step. No command of this block stops with one: the type has no constructor. -/
inductive Fault where
  deriving DecidableEq, Repr

/-- The refusals of a step. -/
inductive Refusal where
  /-- Raised by `exec` for a command that has no meaning yet. Safe: the model says nothing of it. -/
  | notModelled (mnemonic : String)
  deriving DecidableEq, Repr

/-- Reset value of `power`: the power manager.
Mark: DESIGN CHOICE (log entry 3). -/
def powerReset : Power :=
  { cur := .dormant, recorded := .dormant, prev := .dormant, qcause := .none, lowEnergy := false, phase := .startup, sleepIn := .dormant, en := 0b01011, pg := 0b00011, railWait := some 3, railRetries := 0, railSettle := false, leBlocked := false, vbat := 12000, actLow := false, parkLow := false, samples := [], wakePer := none, sleepPend := false, riseAuto := false, step := 0, quiet := 0, vbSag := false, vcSag := false, sagInBeat := false, shed := false, alarmLeft := 0, wakeOut := false, woutPend := false, dead := 0, osc := true, oscPeriods := 0, gates := [], jobs := [] }

/-- Reset value of `boot`: start-up.
Mark: DESIGN CHOICE (log entry 3). -/
def bootReset : Boot :=
  { step := 0, failed := false, fstep := 0, fallback := false, slotB := false, rootAbsent := false, recovery := false, svn := 0, version := 0, warm := false, fusesDone := false, qpend := [], mapValid := false, resetOrdered := none, vaultBad := false }

/-- Reset value of `fuses`: fuse values in use.
Mark: DESIGN CHOICE (log entry 3). -/
def fusesReset : Fuses :=
  { words := [], invalid := [], govLc := .manufacture, govFwMin := 0, govDbg := false, selB := false, slotA := none, slotB := none, burnt := [] }

/-- Reset value of `disp`: the command channels.
Mark: DESIGN CHOICE (log entry 3). -/
def dispReset : Disp :=
  { spiReq := [], ringReq := [], spiRsp := [], lastSpi := true, spiStatus := .ok, gateWaits := [], cur := none }

/-- Reset value of `time`: timebase and beat. -/
def timeReset : Time :=
  { ticks := 0, doms := [], chgPend := none, chgAt := 0, beatCnt := 0, ovrCount := 0, trgPast := [], trgs := [], trgActed := [], chgLocal := false, beatPos := 0, beatLen := 12500, refillMiss := [], shaperMiss := [], gateMiss := [], ageOwed := false, noCheck := false }

/-- Reset value of `vault`: the vault. -/
def vaultReset : Vault :=
  { root := List.replicate 32 0, rootCheck := List.replicate 8 0, rootPresent := false, slotsReady := false, storeOk := false, slots := [], storeSeq := 0, storeChain := List.replicate 32 0, mapHash := List.replicate 32 0, groupTampered := false, rngFailed := false, immob := true, immobPend := false, lockPend := false, closePend := false, toRented := false }

/-- Reset value of `nfc`: phone entry. -/
def nfcReset : Nfc :=
  { field := false, active := false, window := false, reserve := [], held := [], ex := .idle, chal := false, subChal := false, hostChal := none, rfUid := [], apdu := none, selected := 0, tag := [], nfcPath := CredPath.clear, hostPath := CredPath.clear, pending := none, revoked := [], revList := [], leTimes := [], startFrm := [], stopFrm := [], unlockFrm := [], lockFrm := [] }

/-- Reset value of `ledger`: rental ledger and ledger time. -/
def ledgerReset : Ledger :=
  { sec := 0, frac := 0, phase := 0, trim := 0, ofs := 0, wallValid := false, lastWb := 0, period := 3600, tariff := 0, final := false, timeFinal := false, sealed := false, head := none, lastGood := none, headMac := 0, oldest := 0, nextSeq := 0, trip := none, interval := none, intervals := 0, queue := [], ring := [], hostSteps := [], shLtHi := 0, shWallHi := 0 }

/-- Reset value of `aon`: the AON wake block. -/
def aonReset : Aon :=
  { copies := [], stopped := [], wakeAt := none }

/-- Reset value of `net`: the switch core.
Mark: DESIGN CHOICE (log entry 3). -/
def netReset : Net :=
  { frames := [], nextH := 1, queues := [], stuck := [], egrs := [], ctxs := [], smpGap := [], shFrac := [], credits := [], fcAss := [], spillLost := false, loop := [], rxBeat := [], leaked := 0 }

/-- Reset value of `tables`: the classification tables. -/
def tablesReset : Tables :=
  { can := [], lin := [], hash := [], vlan := [], stream := [], group := [], batch := [], lostKeys := [], lostVids := [], batchBy := none, batchGo := false, pass := [] }

/-- Reset value of `cipher`: the cipher engines. -/
def cipherReset : Cipher :=
  { engs := [], cache := [], waits := [], saved := [], firings := [], storeLast := 0 }

/-- Reset value of `bridge`: the host bridge. -/
def bridgeReset : Bridge :=
  { lease := [], msixTab := [], msixPend := 0, msixLast := [], dmaFails := 0, txWait := none, announced := 0 }

/-- Reset value of `hlb`: the Helber domain.
Mark: DESIGN CHOICE (log entry 3). -/
def hlbReset : Hlb :=
  { peers := [], seq := 0, dup := false, topo := false, keyFail := false, safe := false, behind := false, immobAny := false, lockAny := false, motionAny := false, mnode := 0, blobs := [], push := none, pulls := [], immobReq := false, forceLock := false, commits := 0 }

/-- Reset value of `wheels`: trackers, feedback, bolts. -/
def wheelsReset : Wheels :=
  { tts := [], passes := [], fired := [], spd := 0, odo := 0, tripMm := 0, acc := 0, lastSample := none, quorumLow := false, fbs := [], cmpo := 0, pulses := 0, bolts := [], odoHiSh := 0, tripHiSh := 0 }

/-- Reset value of `bgs`: background services and events.
Mark: DESIGN CHOICE (log entry 3). -/
def bgsReset : Bgs :=
  { fwPend := 0, fwEn := 0, scrubPos := 0, fuseRun := false, chainRun := false, eraseRun := false, eraseKind := 0, suspended := false, chainPos := 0, chainDone := 0, tempCur := 0, tempRef := 0, tempLast := 0, calLane := 0, calAdc := 0, calLaneAt := 0, calAdcAt := 0, telN := 0, telMissing := 0, telBeats := 0, telLatch := none, telAcc := [], telDue := none, rewrite := [], telRecords := [] }

/-- Reset value of `freeze`: freeze and snapshot.
Mark: DESIGN CHOICE (log entry 3). -/
def freezeReset : Freeze :=
  { armed := false, armRole := 0, armEnd := 0, frozen := false, shadow := 0, held := [], snapAddr := 0, snapData := 0 }

/-- The machine right after a cold reset by the first power-good of VCORE, with the VBKP domain just
supplied (R7, R8): start-up stands at step 0.
Mark: DESIGN CHOICE (log entry 3). -/
def State.reset : State where
  rf := []
  shadow := []
  sel := []
  power := powerReset
  boot := bootReset
  fuses := fusesReset
  sess := []
  deny := Deny.empty
  disp := dispReset
  time := timeReset
  vault := vaultReset
  nfc := nfcReset
  ledger := ledgerReset
  lanes := []
  aon := aonReset
  net := netReset
  tables := tablesReset
  ports := []
  cipher := cipherReset
  bridge := bridgeReset
  hlb := hlbReset
  wheels := wheelsReset
  map := []
  changes := []
  bgs := bgsReset
  mem := []
  freeze := freezeReset
  out := Outp.none
  fresh := 1
  pending := []

end Sys2Proof.Machine
end

