-- ==== Sys2Proof/Machine/Tab.lean ====
section
/-! DEFINITION. Reading and writing a sparse table, keeping its one canonical form. -/

namespace Sys2Proof.Machine

/-- The entry at key `k`; `d k` where none is listed. -/
def tabGet {α : Type} (d : Nat → α) : Tab α → Nat → α
  | [], k => d k
  | (k', v) :: t, k => if k' = k then v else tabGet d t k

/-- Write `v` at key `k`. A value equal to the unlisted one removes the entry, so equal tables are
equal lists. -/
def tabSet {α : Type} [DecidableEq α] (d : Nat → α) : Tab α → Nat → α → Tab α
  | [], k, v => if v = d k then [] else [(k, v)]
  | (k', v') :: t, k, v =>
    if k < k' then (if v = d k then (k', v') :: t else (k, v) :: (k', v') :: t)
    else if k = k' then (if v = d k then t else (k, v) :: t)
    else (k', v') :: tabSet d t k v

/-- Every listed key is above `b`, keys rise strictly, and no entry holds the unlisted value. -/
def tabWfFrom {α : Type} [DecidableEq α] (d : Nat → α) : Nat → Tab α → Bool
  | _, [] => true
  | b, (k, v) :: t => decide (b ≤ k) && decide (v ≠ d k) && tabWfFrom d (k + 1) t

/-- The canonical form of a table. -/
def tabWf {α : Type} [DecidableEq α] (d : Nat → α) (t : Tab α) : Bool := tabWfFrom d 0 t

/-- The table read with one default for every key. -/
def tget {α : Type} (d : α) (t : Tab α) (k : Nat) : α := tabGet (fun _ => d) t k

/-- The table written with one default for every key. -/
def tset {α : Type} [DecidableEq α] (d : α) (t : Tab α) (k : Nat) (v : α) : Tab α :=
  tabSet (fun _ => d) t k v

/-- Write `f i` at every key `i` of a list. -/
def tsetMany {α : Type} [DecidableEq α] (d : α) (t : Tab α) (l : List (Nat × α)) : Tab α :=
  l.foldl (fun t p => tset d t p.1 p.2) t

end Sys2Proof.Machine
end

