-- ==== Sys2Proof/Machine/Ops.lean ====
section
/-! DEFINITION. The named operations every family is written over: registers, counters, events, free
values, access refusals, the ledger queue and the sessions. -/

namespace Sys2Proof.Machine

/-! ## Arithmetic on words -/

/-- Bits `lo` to `lo + w - 1` of a word, as a number. -/
def bitsOf (v : Word) (lo w : Nat) : Nat := (v.toNat / 2 ^ lo) % 2 ^ w

/-- The mask of bits `lo` to `lo + w - 1`. -/
def fieldMask (lo w : Nat) : Word := BitVec.ofNat 32 ((2 ^ w - 1) * 2 ^ lo)

/-- A number placed in bits `lo` to `lo + w - 1`. -/
def fieldVal (lo w v : Nat) : Word := BitVec.ofNat 32 ((v % 2 ^ w) * 2 ^ lo)

/-- A word with bits `lo` to `lo + w - 1` replaced. -/
def putBits (old : Word) (lo w v : Nat) : Word := (old &&& ~~~ fieldMask lo w) ||| fieldVal lo w v

/-- A truth value as a number. -/
def b2n (b : Bool) : Nat := if b then 1 else 0

/-- R15: `a` is later than `b` as values of a SEQ counter of width `w`. -/
def seqLater (a b w : Nat) : Bool :=
  let d := (a + 2 ^ w - b) % 2 ^ w
  decide (1 ≤ d) && decide (d ≤ 2 ^ (w - 1) - 1)

/-! ## Units of time -/

/-- Timebase ticks in a second, a millisecond and a microsecond: a tick is 4 ns (chapter 5). -/
abbrev ticksPerS : Nat := 250000000
abbrev ticksPerMs : Nat := 250000
abbrev ticksPerUs : Nat := 250

/-! ## The register file -/

/-- The key of instance `i` of the register at `a`. -/
def regKey (a i : Nat) : Nat := a * 8192 + i

/-- What an unlisted key of the register file reads as: the register's cold value (R8). -/
def rfCold (k : Nat) : Word := regCold (k / 8192)

/-- The stored word of instance `i` of register `a`.
Mark: DEDUCED (log entry 9). -/
def rdi (s : State) (a i : Nat) : Word := tabGet rfCold s.rf (regKey a i)

/-- Store a word in instance `i` of register `a`.
Mark: DEDUCED (log entry 9). -/
def wri (s : State) (a i : Nat) (v : Word) : State := { s with rf := tabSet rfCold s.rf (regKey a i) v }

/-- The stored word of a register without instances. -/
def rd (s : State) (a : Nat) : Word := rdi s a 0

/-- Store a word in a register without instances. -/
def wr (s : State) (a : Nat) (v : Word) : State := wri s a 0 v

/-- A field of instance `i` of register `a`. -/
def fldi (s : State) (a i lo w : Nat) : Nat := bitsOf (rdi s a i) lo w

/-- Write a field of instance `i` of register `a`. -/
def setFldi (s : State) (a i lo w v : Nat) : State := wri s a i (putBits (rdi s a i) lo w v)

/-- A field of a register without instances. -/
def fld (s : State) (a lo w : Nat) : Nat := fldi s a 0 lo w

/-- Write a field of a register without instances. -/
def setFld (s : State) (a lo w v : Nat) : State := setFldi s a 0 lo w v

/-- A bit of a register. -/
def bit (s : State) (a i b : Nat) : Bool := decide (fldi s a i b 1 = 1)

/-- Set some bits of a register. -/
def orReg (s : State) (a i : Nat) (m : Word) : State := wri s a i (rdi s a i ||| m)

/-- Clear some bits of a register. -/
def clrReg (s : State) (a i : Nat) (m : Word) : State := wri s a i (rdi s a i &&& ~~~ m)

/-! ## Counters (R9, R10) -/

/-- One more on a one-word STAT counter: it saturates, and the increment that brings the count to all
ones sets SAT (R10). -/
def statNext (v : Word) : Word :=
  if v.toNat % 2 ^ 31 = 2 ^ 31 - 1 then 0xFFFFFFFF
  else if v.toNat % 2 ^ 31 = 2 ^ 31 - 2 then 0xFFFFFFFF
  else BitVec.ofNat 32 (v.toNat % 2 ^ 31 + 1)

/-- Add `n` to a one-word STAT counter. -/
def statPlus (v : Word) (n : Nat) : Word :=
  if n = 0 then v
  else if v.toNat % 2 ^ 31 + n ≥ 2 ^ 31 - 1 then 0xFFFFFFFF
  else BitVec.ofNat 32 (v.toNat % 2 ^ 31 + n)

/-- Increment instance `i` of the one-word STAT counter at `a`. -/
def statIncI (s : State) (a i : Nat) : State := wri s a i (statNext (rdi s a i))

/-- Increment the one-word STAT counter at `a`. -/
def statInc (s : State) (a : Nat) : State := statIncI s a 0

/-- Add `n` to instance `i` of the one-word STAT counter at `a`. -/
def statAddI (s : State) (a i n : Nat) : State := wri s a i (statPlus (rdi s a i) n)

/-- Add `n` to instance `i` of the two-word STAT counter whose low word is at `a` (R10). -/
def stat2AddI (s : State) (a i n : Nat) : State :=
  let lo := (rdi s a i).toNat
  let hi := (rdi s (a + 4) i).toNat % 2 ^ 31
  let v := hi * 2 ^ 32 + lo + n
  if n = 0 then s
  else if v ≥ 2 ^ 63 - 1 then wri (wri s a i 0xFFFFFFFF) (a + 4) i 0xFFFFFFFF
  else wri (wri s a i (BitVec.ofNat 32 v)) (a + 4) i (BitVec.ofNat 32 (v / 2 ^ 32))

/-! ## Events (R575, R576) -/

/-- The event sources of Table 21.5. -/
inductive Ev where
  | lockedWrite | reservedEnc | fuseDrift | accessDenied | vaultProbe | heldWrite | gateDone | gateRefused
  | cmdDone | semForced | hostLost | monoFinal | scrubCe | scrubUe | calFail | telemReady | freezeIgnored
  | beatWrap | overrun | domStep | holdEnter | holdWrap | trgFire | trgLate
  | laneFault | laneLatched | linkChange | pauseWd
  | pipeReset | spillLost | tableFull | integrity
  | slotFinal | rngFail | ciphDone0 | ciphDone1 | laFail | engineWd
  | credResult | ldgSeal
  | ttFault | syncLoss | stillQuorum | odoFinal | angEvent | angRevWrap | fbFault | boltFault | boltDone
  | hlbJoin | hlbLost | hlbDup | hlbTopo | hlbBehind
  deriving DecidableEq, Repr

/-- Source numbers (Table 21.5). -/
def Ev.num : Ev → Nat
  | .lockedWrite => 0 | .reservedEnc => 1 | .fuseDrift => 2 | .accessDenied => 3 | .vaultProbe => 4
  | .heldWrite => 5 | .gateDone => 6 | .gateRefused => 7 | .cmdDone => 8 | .semForced => 9
  | .hostLost => 10 | .monoFinal => 11 | .scrubCe => 12 | .scrubUe => 13 | .calFail => 14
  | .telemReady => 15 | .freezeIgnored => 16
  | .beatWrap => 32 | .overrun => 33 | .domStep => 34 | .holdEnter => 35 | .holdWrap => 36
  | .trgFire => 37 | .trgLate => 38
  | .laneFault => 64 | .laneLatched => 65 | .linkChange => 66 | .pauseWd => 67
  | .pipeReset => 96 | .spillLost => 97 | .tableFull => 98 | .integrity => 99
  | .slotFinal => 128 | .rngFail => 129 | .ciphDone0 => 130 | .ciphDone1 => 131 | .laFail => 132
  | .engineWd => 133
  | .credResult => 160 | .ldgSeal => 161
  | .ttFault => 192 | .syncLoss => 193 | .stillQuorum => 194 | .odoFinal => 195 | .angEvent => 196
  | .angRevWrap => 197 | .fbFault => 198 | .boltFault => 199 | .boltDone => 200
  | .hlbJoin => 224 | .hlbLost => 225 | .hlbDup => 226 | .hlbTopo => 227 | .hlbBehind => 228

/-- The listed source numbers; every other number is reserved and never pending (R575). -/
def evListed (n : Nat) : Bool :=
  decide (n ≤ 16) || (decide (32 ≤ n) && decide (n ≤ 38)) || (decide (64 ≤ n) && decide (n ≤ 67)) ||
  (decide (96 ≤ n) && decide (n ≤ 99)) || (decide (128 ≤ n) && decide (n ≤ 133)) ||
  (decide (160 ≤ n) && decide (n ≤ 161)) || (decide (192 ≤ n) && decide (n ≤ 200)) ||
  (decide (224 ≤ n) && decide (n ≤ 228))

/-- One occurrence of source `n` (R576): it becomes pending, or counts as a repeat when it is pending
already. The control firmware's own set takes it as well (R578). What occurs in freeze waits for the restart (R589).
Mark: DEDUCED (log entry 14). -/
def raiseN (s : State) (n : Nat) : State :=
  if s.freeze.frozen then { s with freeze := { s.freeze with held := s.freeze.held ++ [n] } } else
  let a := R_EVT_PEND + 4 * (n / 32)
  let s := { s with bgs := { s.bgs with fwPend := s.bgs.fwPend ||| BitVec.ofNat 256 (2 ^ n) } }
  if bit s a 0 (n % 32) then statInc s (R_EVT_REPEAT + 4 * (n / 32))
  else orReg s a 0 (fieldMask (n % 32) 1)

/-- One occurrence of an event source (R576). -/
def raise (s : State) (e : Ev) : State := raiseN s e.num

/-- A MONO counter without a source of its own reached all ones: EVT_MONO names it (Table 21.6). -/
def monoFinal (s : State) (code : Nat) : State := raise (setFld s R_EVT_MONO 0 4 code) .monoFinal

/-! ## Free values -/

/-- Take the next draw of the free values.
Mark: DESIGN CHOICE (log entry 4). -/
def draw (s : State) : Nat × State := (s.fresh, { s with fresh := s.fresh + 1 })

/-- `n` random bytes of draw `k` (R29).
Mark: DESIGN CHOICE (log entry 4). -/
def randBytes (k n : Nat) : List Byte := (List.range n).map (Config.randByte k)

/-! ## Running and sleeping -/

/-- The core logic runs its normal world: awake after step 7 and not frozen (R582). -/
def running (s : State) : Bool := decide (s.power.phase = .awake) && ! s.freeze.frozen

/-- Clocks of the core run: in start-up or awake, not frozen. -/
def clocked (s : State) : Bool :=
  (decide (s.power.phase = .awake) || decide (s.power.phase = .startup) || decide (s.power.phase = .island))
  && ! s.freeze.frozen

/-- VIO is on: the pins of its domain are read and driven (Table 2.5). -/
def vioUp (s : State) : Bool := s.power.pg.getLsbD 1

/-- Freeze is armed, and its window has not ended (R580). -/
def freezeArmed (s : State) : Bool := s.freeze.armed && decide (s.time.ticks < s.freeze.armEnd)

/-- Apply an effect while the core runs; an event that cannot occur then leaves the state as it is.
Mark: DESIGN CHOICE (log entry 7). -/
def whenRunning (s : State) (f : State → State) : State := if running s then f s else s

/-- Clear the outputs at the start of a command.
Mark: DESIGN CHOICE (log entries 7, 67). -/
def begin_ (s : State) : State := { s with out := Outp.none }

/-- The mode in force. -/
abbrev mode (s : State) : Mode := s.power.cur

/-- The lifecycle that the fuse words in use give (R120). -/
def lifecycleOf (w0 : Word) : Lifecycle :=
  if bitsOf w0 16 8 ≠ 0 then .return_ else if bitsOf w0 8 8 ≠ 0 then .field
  else if bitsOf w0 0 8 ≠ 0 then .provision else .manufacture

/-- A fuse word in use. -/
def fuseWord (s : State) (k : Nat) : Word := tget 0 s.fuses.words k

/-- The lifecycle in use, as SYS_LIFECYCLE shows it at once (R119). -/
def lifecycle (s : State) : Lifecycle := lifecycleOf (fuseWord s 0)

/-- The index of the highest bit at 1, plus 1 (Table 4.4, FW_MIN). -/
def topBit (w : Word) : Nat := if w.toNat = 0 then 0 else Nat.log2 w.toNat + 1

/-- FW_MIN in use (Table 4.4). -/
def fwMin (s : State) : Nat := topBit (fuseWord s 3)

/-- SNAP_DIS in use (Table 4.4). -/
def snapDis (s : State) : Bool := decide (bitsOf (fuseWord s 1) 8 8 ≠ 0)

/-- DBG_CORE_DIS in use: set by its fuse group, and in every lifecycle past MANUFACTURE (Table 4.8). -/
def dbgCoreDis (s : State) : Bool :=
  decide (bitsOf (fuseWord s 1) 0 8 ≠ 0) || decide (lifecycle s ≠ .manufacture)

/-! ## Sessions (R25 to R38) -/

/-- The session record of a role. -/
def sessOf (s : State) (role : Nat) : Sess := tget Sess.closed s.sess role

/-- Replace the session record of a role. -/
def setSess (s : State) (role : Nat) (v : Sess) : State := { s with sess := tset Sess.closed s.sess role v }

/-! ## Key slots -/

/-- Slot `k` as the vault holds it. -/
def slotOf (s : State) (k : Nat) : Slot := tget Slot.empty s.vault.slots k

/-- Replace slot `k`. -/
def setSlot (s : State) (k : Nat) (x : Slot) : State :=
  { s with vault := { s.vault with slots := tset Slot.empty s.vault.slots k x } }

/-! ## The ledger queue (R436 to R440) -/

/-- Ledger time as 48.16 seconds (Table 16.1). -/
def ltimeNow (s : State) : Nat := s.ledger.sec * 65536 + s.ledger.frac / 2 ^ 24

/-- Wall time in 2^-16 s (R430). -/
def wallNow (s : State) : Int := (ltimeNow s : Int) + s.ledger.ofs

/-- Wall time in whole seconds. -/
def wallSec (s : State) : Nat := (wallNow s / 65536).toNat

/-- A ledger exists: KS003 and KS004 do, since the root is present (R334, R445). -/
def ledgerLive (s : State) : Bool := s.vault.rootPresent

/-- Positions of the flash ring (R439). -/
abbrev ringSize : Nat := 131072

/-- `n` entries can be committed now (R41, R440, R442, R449): a ledger exists, it is not FINAL, the device is not under
LOW_ENERGY, the queue has room, and the positions they and the queued entries take are erased.
Mark: DEDUCED (log entry 45). -/
def ledgerRoomFor (s : State) (n : Nat) : Bool :=
  let m := s.ledger.queue.length + n
  ledgerLive s && ! s.ledger.final && ! s.power.lowEnergy && decide (m ≤ 64) &&
    (List.range m).all fun k => decide (tget LPos.empty s.ledger.ring ((s.ledger.nextSeq + k) % ringSize) = .empty)

/-- One entry can be committed now. -/
def ledgerRoom (s : State) : Bool := ledgerRoomFor s 1

/-- Put an entry in the write queue. Where no ledger exists, or it is FINAL, nothing is written
(R428, R445). -/
def queueEntryL (s : State) (late restart : Bool) (lt : Nat) (p : Payload) : State :=
  if ledgerLive s && ! s.ledger.final then
    { s with ledger := { s.ledger with
        queue := s.ledger.queue ++ [{ seq := 0, late := late, restart := restart, ltime := lt, payload := p, mac := 0 }] } }
  else s

/-- Queue an entry with the present ledger time.
Mark: DEDUCED (log entry 46). -/
def queueEntry (s : State) (p : Payload) : State := queueEntryL s false false (ltimeNow s) p

/-- The type code of a payload (Table 16.2). -/
def Payload.code : Payload → Nat
  | .tripOpen .. => 1 | .tripClose .. => 2 | .intervalClose .. => 3 | .distSample .. => 4
  | .timeStep .. => 5 | .roleAction .. => 6 | .session .. => 7 | .keyUpdate .. => 8
  | .freezeArm .. => 9 | .entryAction .. => 10 | .denySummary .. => 11 | .tamper .. => 12
  | .seal .. => 13 | .genesis => 14

/-- A signed 64-bit number as its two's complement. -/
def int64 (i : Int) : Nat := (i % (2 ^ 64 : Int)).toNat

/-- The 32 payload bytes of Table 16.2, before padding; `uid` is the device UID. -/
def payloadBytes (uid : List Byte) : Payload → List Byte
  | .tripOpen t r o w c => leBytes 8 t ++ leBytes 8 r ++ leBytes 6 o ++ leBytes 6 w ++ leBytes 1 c
  | .tripClose r o w n c => leBytes 8 r ++ leBytes 6 o ++ leBytes 6 w ++ leBytes 4 n ++ leBytes 1 c
  | .intervalClose n l b d t r =>
      leBytes 4 n ++ leBytes 8 l ++ leBytes 6 b ++ leBytes 6 d ++ leBytes 4 t ++ leBytes 1 r
  | .distSample o m t y v => leBytes 6 o ++ leBytes 6 m ++ leBytes 1 t ++ leBytes 1 y ++ leBytes 2 v
  | .timeStep o n r x => leBytes 8 (int64 o) ++ leBytes 8 (int64 n) ++ leBytes 1 r ++ leBytes 1 0 ++ leBytes 2 x
  | .roleAction r st x op ph f l =>
      leBytes 1 r ++ leBytes 1 st ++ leBytes 2 x ++ leBytes 2 op ++ leBytes 2 0 ++ leBytes 8 ph.toNat ++
      leBytes 6 f ++ leBytes 6 l
  | .session e r x q i k =>
      leBytes 1 e ++ leBytes 1 r ++ leBytes 2 x ++ leBytes 1 q ++ leBytes 1 0 ++ leBytes 2 i ++ leBytes 4 k
  | .keyUpdate t a o st g u m =>
      leBytes 2 t ++ leBytes 2 a ++ leBytes 1 o ++ leBytes 1 st ++ leBytes 2 g ++ leBytes 4 u ++ leBytes 8 m.toNat
  | .freezeArm r x => leBytes 1 r ++ leBytes 1 0 ++ leBytes 2 x
  | .entryAction r t q c => leBytes 8 r ++ leBytes 8 t ++ leBytes 1 q ++ leBytes 1 c
  | .denySummary d =>
      leBytes 2 d.h ++ leBytes 2 d.d ++ leBytes 2 d.f ++ leBytes 2 d.g ++ leBytes 2 d.hostCmd ++
      leBytes 2 d.probe ++ leBytes 2 d.missed ++
      (match d.first with
       | some (c, r, a) => leBytes 1 c ++ leBytes 1 r ++ leBytes 8 a
       | none => leBytes 10 0)
  | .tamper k d => leBytes 1 k ++ leBytes 3 0 ++ leBytes 4 d
  | .seal c l => leBytes 1 c ++ leBytes 7 0 ++ leBytes 6 l
  | .genesis => uid

/-- The device UID in use, 16 bytes in the order of R640; all zero when a UID word is INVALID (R116). -/
def uidBytes (s : State) : List Byte :=
  if (List.range 4).any (fun j => tget false s.fuses.invalid (4 + j)) then List.replicate 16 0
  else (List.range 4).flatMap fun j => leBytes 4 (fuseWord s (4 + j)).toNat

/-- Bytes 0x00 to 0x2F of an entry (Table 16.1). -/
def entryHead (uid : List Byte) (e : Entry) : List Byte :=
  leBytes 6 e.seq ++ leBytes 1 e.payload.code ++ leBytes 1 (b2n e.late + 2 * b2n e.restart) ++
  leBytes 8 e.ltime ++ padTo 32 (payloadBytes uid e.payload)

/-- Entries of one 4 KiB sector (R442). -/
abbrev sectorEntries : Nat := 64

/-- The MAC of an entry under KS004 over its first 48 bytes and the MAC of the entry before it (R436). -/
def entryMac (s : State) (e : Entry) (prev : BitVec 128) : BitVec 128 :=
  BitVec.ofNat 128 (ofBeBytes (cmac (slotOf s 4).key (entryHead (uidBytes s) e ++ beBytes 16 prev.toNat)))

/-- Use up the next ledger sequence number; at all ones the ledger is FINAL, which is raised once (R16, R436). -/
def useSeq (s : State) : State :=
  let q := s.ledger.nextSeq
  if q ≥ 2 ^ 48 - 1 then
    let s' := { s with ledger := { s.ledger with final := true } }
    if s.ledger.final then s' else monoFinal s' 2
  else { s with ledger := { s.ledger with nextSeq := q + 1 } }

/-- Commit one queued entry (R440): it takes the next sequence and its MAC under R436 and R437, is
programmed at its position, and becomes the head. At all ones the ledger is FINAL (R436).
Mark: DEDUCED (log entry 46). -/
def commitOne (s : State) (q : Entry) : State :=
  let l := s.ledger
  let prev : BitVec 128 := match q.payload with
    | .genesis => 0
    | _ => if q.restart then 0 else l.headMac
  let e0 := { q with seq := l.nextSeq }
  let e := { e0 with mac := entryMac s e0 prev }
  let s := { s with ledger := { l with
      head := some e.seq, headMac := e.mac, ring := tset .empty l.ring (e.seq % ringSize) (.entry e) } }
  let s := statInc s R_LDG_WR
  let s := match q.payload with
    | .seal .. => raise s .ldgSeal
    | _ => s
  useSeq s

/-- The sector the next entry would enter is erased, or the entry stays in a sector begun (R442). -/
def sectorReady (s : State) : Bool :=
  decide (tget LPos.empty s.ledger.ring (s.ledger.nextSeq % ringSize) = .empty)

/-- Commit the oldest queued entry, when there is one, its position is erased (R442), and the device is not under
LOW_ENERGY (R449).
Mark: DEDUCED (log entry 46). -/
def commitHead (s : State) : State :=
  match s.ledger.queue with
  | [] => s
  | q :: t =>
    if sectorReady s && ! s.ledger.final && ! s.power.lowEnergy then commitOne { s with ledger := { s.ledger with queue := t } } q else s

/-- Commit up to `n` queued entries in order. -/
def commitN : Nat → State → State
  | 0, s => s
  | n + 1, s => commitN n (commitHead s)

/-- Commit every queued entry (R41: the entry is committed before the change takes effect). -/
def commitAll (s : State) : State := commitN s.ledger.queue.length s

/-- Queue an entry and commit it, with those before it. -/
def commitEntry (s : State) (p : Payload) : State := commitAll (queueEntry s p)

/-! ## Closing sessions (R37, R39, R40) -/

/-- End a run of consecutive ledger reads: its single ROLE_ACTION entry (R39). R39 states no status and no PHASH for
an entry that stands for several commands: the model writes OK, since every read of a run was answered OK, and 0.
Mark: DESIGN CHOICE (log entry 45). -/
def endRun (s : State) (role : Nat) : State :=
  let x := sessOf s role
  if x.runOn then
    let s := queueEntry s (.roleAction role 0 x.id.toNat 0x0A01 0 x.runFirst x.runLast)
    setSess s role { x with runOn := false, runFirst := 0, runLast := 0 }
  else s

/-- Discard an uncommitted batch whose builder, channel and role, meets a test (R242). -/
def dropBatch (s : State) (p : Chan × Nat → Bool) : State :=
  match s.tables.batchBy with
  | some b => if p b && ! s.tables.batchGo then { s with tables := { s.tables with batch := [], batchBy := none } } else s
  | none => s

/-- SYS_SESS_STAT records a close (R44). -/
def recordClose (s : State) (reason : Nat) : State :=
  setFld (setFld s R_SYS_SESS_STAT 12 1 1) R_SYS_SESS_STAT 8 4 reason

/-- The close entry of a session that is still queued takes a lower reason of the same beat (R37). -/
def amendClose (role id old reason : Nat) (e : Entry) : Entry :=
  match e.payload with
  | .session 2 r x q i k => if r = role ∧ x = id ∧ q = old then { e with payload := .session 2 r x reason i k } else e
  | _ => e

/-- A further close reason arises in the beat in which the role's session closed: the lowest code is recorded (R37), in
LAST_CLOSE and in the close entry unless that is committed already.
Mark: DEDUCED (log entry 44). -/
def lowerClose (s : State) (role reason : Nat) : State :=
  let x := sessOf s role
  if x.endBeat = some s.time.beatCnt ∧ reason < x.endReason then
    let s := if fld s R_SYS_SESS_STAT 8 4 = x.endReason then recordClose s reason else s
    let s := setSess s role { x with endReason := reason }
    { s with ledger := { s.ledger with queue := s.ledger.queue.map (amendClose role x.endId.toNat x.endReason reason) } }
  else s

/-- Close the session of a role with a reason of Table 1.4 (R37). It ends the freeze arming the session
made (R580), discards its uncommitted batch (R242) and writes its SESSION CLOSE entry (R40).
Mark: DEDUCED (log entry 44). -/
def closeSession (s : State) (role reason : Nat) : State :=
  let s := endRun s role
  let x := sessOf s role
  if x.isOpen then
    let s := setSess s role { x with
      isOpen := false, id := 0, lastSeq := 0, tagFails := 0, idleS := 0, key := [],
      endBeat := some s.time.beatCnt, endId := x.id, endReason := reason }
    let s := recordClose s reason
    let s := if s.freeze.armed && decide (s.freeze.armRole = role) then
        { s with freeze := { s.freeze with armed := false } } else s
    let s := dropBatch s (fun b => decide (b.2 = role))
    queueEntry s (.session 2 role x.id.toNat reason x.idleS 0)
  else lowerClose s role reason

/-- Close every session with one reason. -/
def closeAll (s : State) (reason : Nat) : State :=
  closeSession (closeSession (closeSession s 1 reason) 2 reason) 3 reason

/-- The context of a packet that arrives now on a channel (R25, R35): HOST where it names no session, else the open
session with its ID on that channel. -/
def ctxAt (s : State) (chan : Chan) (session : BitVec 16) : Option Ctx :=
  if session = 0 then some Ctx.host
  else ([1, 2, 3].find? fun k =>
      (sessOf s k).isOpen && decide ((sessOf s k).id = session) && decide ((sessOf s k).chan = chan)).map
    fun k => { role := k, key := (sessOf s k).key, last := (sessOf s k).lastSeq }

/-- The role of the command in execution; HOST where none runs. -/
def curRole (s : State) : Nat := (s.disp.cur.map Ctx.role).getD 0

/-- Set the context of the command in execution. -/
def setCur (s : State) (c : Option Ctx) : State := { s with disp := { s.disp with cur := c } }

/-! ## Refusals (R377 to R388) -/

/-- Class codes (Table 14.1). -/
def clsCode : Cls → Nat
  | .V => 0 | .S => 1 | .F => 2 | .H => 3 | .D => 4 | .G => 5

/-- Refusal reasons (Table 14.5). -/
inductive Reason where
  | unmapped | world | direction | form | wrap | lifecycle | hwin | notReady
  deriving DecidableEq, Repr

/-- Reason codes (Table 14.5). -/
def Reason.code : Reason → Nat
  | .unmapped => 1 | .world => 2 | .direction => 3 | .form => 4 | .wrap => 5 | .lifecycle => 6
  | .hwin => 7 | .notReady => 8

/-- The spine regions whose probing by H or G raises VAULT_PROBE (R388): VMEM, VPRIV, TAGX, FL_SLOT,
FL_LOG and FL_LDG. -/
def vaultProbeAddr (a : Nat) : Bool :=
  (decide (0x0001000000 ≤ a) && decide (a < 0x0001100000)) ||
  (decide (0x0001100000 ≤ a) && decide (a < 0x0001110000)) ||
  (decide (0x0006001000 ≤ a) && decide (a < 0x0006002000)) ||
  (decide (0x0020240000 ≤ a) && decide (a < 0x0020260000)) ||
  (decide (0x0020400000 ≤ a) && decide (a < 0x0020800000)) ||
  (decide (0x0020800000 ≤ a) && decide (a < 0x0021000000))

/-- One more, saturating at 65,535 (R395). -/
def sat16 (n : Nat) : Nat := if n ≥ 65535 then 65535 else n + 1

/-- Count a refusal for the next DENY_SUMMARY (R395, R396: never one of class V or S). -/
def countDeny (d : Deny) (c : Cls) (reason addr : Nat) (probe : Bool) : Deny :=
  let d := { d with probe := if probe then sat16 d.probe else d.probe }
  let first := match d.first with
    | some x => some x
    | none => some (clsCode c, reason, addr)
  match c with
  | .H => { d with h := sat16 d.h, first := first, any := true }
  | .D => { d with d := sat16 d.d, first := first, any := true }
  | .F => { d with f := sat16 d.f, first := first, any := true }
  | .G => { d with g := sat16 d.g, first := first, any := true }
  | .V => d
  | .S => d

/-- R388: a refusal is counted, captured when no capture is held, and may raise VAULT_PROBE. -/
def refuse (s : State) (c : Cls) (r : Reason) (addr : Nat) (write : Bool) : State :=
  let s := statInc s R_SYS_ACC_DENY
  let s := if bit s R_SYS_ACC_FIRST_STAT 0 31 then s else
    let w := fieldVal 31 1 1 ||| fieldVal 16 4 (clsCode c) ||| fieldVal 8 4 r.code ||| fieldVal 0 1 (b2n write)
    raise (wr (wr (wr s R_SYS_ACC_FIRST_STAT w) R_SYS_ACC_FIRST_LO (BitVec.ofNat 32 addr))
      R_SYS_ACC_FIRST_HI (BitVec.ofNat 32 (addr / 2 ^ 32))) .accessDenied
  let probe := (decide (c = .H) || decide (c = .G)) && vaultProbeAddr addr
  let s := if probe then raise s .vaultProbe else s
  { s with deny := countDeny s.deny c r.code addr probe }

/-- Host window `k` in use for a direction: its first address and the address past its end (R381). -/
def hwin (s : State) (k : Nat) (write : Bool) : Option (Nat × Nat) :=
  let cfg := rd s (R_SYS_HWIN_CFG + 16 * k)
  let base := (rd s (R_SYS_HWIN_BASE_LO + 16 * k)).toNat + 2 ^ 32 * (rd s (R_SYS_HWIN_BASE_HI + 16 * k)).toNat
  let pages := bitsOf (rd s (R_SYS_HWIN_SIZE + 16 * k)) 0 20
  if decide (bitsOf cfg 2 1 = 1) && decide (pages ≠ 0) && decide (bitsOf cfg (if write then 1 else 0) 1 = 1) then
    some (base, min (base + pages * 4096) (2 ^ 64))
  else none

/-- The end of the window that covers `a`, when one does. -/
def hwinCover (s : State) (write : Bool) (a : Nat) : Option Nat :=
  (List.range 8).findSome? fun k =>
    match hwin s k write with
    | some (lo, hi) => if lo ≤ a ∧ a < hi then some hi else none
    | none => none

/-- Walk a host range through the windows: the lowest address outside every window, if any. -/
def hwinWalk (s : State) (write : Bool) (stop : Nat) : Nat → Nat → Option Nat
  | 0, a => some a
  | n + 1, a =>
    if a ≥ stop then none
    else match hwinCover s write a with
      | some e => hwinWalk s write stop n e
      | none => some a

/-- R381, R386: judge a class D range; the refusal it meets, if any. -/
def judgeD (s : State) (write : Bool) (a len : Nat) : Option (Reason × Nat) :=
  if len = 0 then none
  else if a + len > 2 ^ 64 then some (.wrap, 0)
  else (hwinWalk s write (a + len) 9 a).map fun x => (.hwin, x)

/-! ## Responses (R515 to R523) -/

/-- The 16-byte header and the parameters of a response, and, where it carries one, its tag under the session's key
(R33, R516). -/
def rspBytes (r : Rsp) : List Byte :=
  let b := leBytes 2 r.opcode ++ leBytes 2 1 ++ leBytes 4 r.seq.toNat ++ leBytes 2 r.params.length ++
    leBytes 2 r.session.toNat ++ leBytes 1 r.status.code ++ leBytes 3 0 ++ r.params
  match r.key with
  | some k => b ++ cmac k b
  | none => b

/-- Entries of ring slot `r`: 2^LOG2 (R493). -/
def ringEntries (s : State) (r : Nat) : Nat := 2 ^ fld s (R_BRG_RING_CFG + 0x20 * r) 0 4

/-- Ring slot `r` is enabled. -/
def ringOn (s : State) (r : Nat) : Bool := bit s (R_BRG_RING_CFG + 0x20 * r) 0 31

/-- The base address of ring slot `r`. -/
def ringBase (s : State) (r : Nat) : Nat :=
  (rd s (R_BRG_RING_BASE_LO + 0x20 * r)).toNat + 2 ^ 32 * (rd s (R_BRG_RING_BASE_HI + 0x20 * r)).toNat

/-- The producer and consumer indices of ring slot `r`. -/
def ringProd (s : State) (r : Nat) : Nat := fld s (R_BRG_RING_PROD + 0x20 * r) 0 12
def ringCons (s : State) (r : Nat) : Nat := fld s (R_BRG_RING_CONS + 0x20 * r) 0 12

/-- A DMA read piece succeeded: the run of failures is broken (R511). -/
def dmaGood (s : State) : State := { s with bridge := { s.bridge with dmaFails := 0 } }

/-- The host has stopped answering DMA (R511). -/
def hostLost (s : State) : Bool := bit s R_BRG_STAT 0 16

/-- The host reaches the device over quad-SPI. -/
def onSpi (s : State) : Bool := bit s R_BRG_STAT 0 9

/-- Both host interfaces are off: STRAP[1:0] held a reserved code (R62).
Mark: DEDUCED (log entry 13). -/
def hostOff (s : State) : Bool := bit s R_SYS_PINSTAT 0 0

/-- The device can reach host memory: only over PCIe, and not while the host is lost (R511) or off (R62).
Mark: DEDUCED (log entry 13). -/
def dmaUp (s : State) : Bool := ! onSpi s && ! hostLost s && ! hostOff s

/-- The pieces of a DMA write, cut at 4 KiB boundaries and at the Max Payload Size, in ascending order (R498). The first
argument bounds the pieces. -/
def cutBurst : Nat → Nat → List Byte → List (Nat × List Byte)
  | 0, a, b => [(a, b)]
  | k + 1, a, b =>
    let page := 4096 - a % 4096
    let n := min page (if Config.wideTlp then 256 else 128)
    if b.length ≤ min page 128 ∨ b.length ≤ n then [(a, b)] else (a, b.take n) :: cutBurst k (a + n) (b.drop n)

/-- A DMA write as class D: put on the outputs when the windows grant it, refused otherwise (R381);
without a host memory to reach, or while the host is lost, none is issued (R511).
Mark: DEDUCED (log entry 55). -/
def dmaWrite (s : State) (a : Nat) (b : List Byte) : Bool × State :=
  if ! dmaUp s then (false, s)
  else match judgeD s true a b.length with
    | none =>
      (true, { s with out := { s.out with dma := s.out.dma ++ cutBurst b.length a b } })
    | some (r, x) => (false, refuse s .D r x true)

/-- Deliver a response on its channel (R519 to R522), count it and raise CMD_DONE. -/
def respond (s : State) (c : Chan) (r : Rsp) : State :=
  let w := fieldVal 16 16 r.opcode ||| fieldVal 8 8 r.status.code ||| fieldVal 0 1 (match c with | .ring => 0 | .spi => 1)
  match c with
  | .spi =>
    let s := { s with disp := { s.disp with spiRsp := s.disp.spiRsp ++ [r] } }
    raise (statInc (wr s R_SYS_CMD_LAST w) R_SYS_CMD_CNT) .cmdDone
  | .ring =>
    if ! ringOn s 5 then s     -- R535: a response owed to a disabled ring is discarded
    else
      let p := ringProd s 5
      let (ok, s) := dmaWrite s (ringBase s 5 + 512 * p) (padTo 512 (rspBytes r))
      if ok then
        let s := setFld s (R_BRG_RING_PROD + 0x20 * 5) 0 12 ((p + 1) % ringEntries s 5)
        raise (statInc (wr s R_SYS_CMD_LAST w) R_SYS_CMD_CNT) .cmdDone
      else s

/-- The responses that commands accepted earlier still owe on a channel (R520): gates that wait, and a push. -/
def owedOn (s : State) (c : Chan) : Nat :=
  (s.disp.gateWaits.filter fun x => decide (x.1.req.chan = c)).length +
  (match s.hlb.push with
   | some p => b2n (decide (p.owed.req.chan = c))
   | none => 0)

/-- Free entries of a ring that the device produces. -/
def ringFree (s : State) (r : Nat) : Nat :=
  (ringCons s r + 2 * ringEntries s r - ringProd s r - 1) % ringEntries s r

/-- The channel has room for one more response than it has responses owed (R520). A channel that the straps leave
unused takes nothing: the ring belongs to PCIe, CMD_PUT to quad-SPI (R61, R62). -/
def roomFor (s : State) : Chan → Bool
  | .spi => onSpi s && ! hostOff s && decide (s.disp.spiRsp.length + owedOn s .spi < 4)
  | .ring => ringOn s 4 && ringOn s 5 && dmaUp s && decide (owedOn s .ring < ringFree s 5)

/-- The requests that wait on a channel. -/
def waiting (s : State) : Chan → List Wait
  | .spi => s.disp.spiReq
  | .ring => s.disp.ringReq

/-- The oldest request that waits on the channel has been accepted already, with room kept for its response (R520). -/
def acceptedHead (s : State) (c : Chan) : Bool :=
  match waiting s c with
  | [] => false
  | x :: _ => x.accepted

/-- The oldest request of a channel leaves its queue, and its context is in force (R523). -/
def pullRequest (s : State) (c : Chan) (x : Option Ctx) : State :=
  match c with
  | .spi => { s with disp := { s.disp with spiReq := s.disp.spiReq.tail, lastSpi := true, cur := x } }
  | .ring => { s with disp := { s.disp with ringReq := s.disp.ringReq.tail, lastSpi := false, cur := x } }

/-- Take the request from its channel's queue. A channel's packets are accepted in order (R523): a
packet that is not the oldest one waiting is not taken. On a channel with nothing waiting the packet
is delivered and accepted at once. A request accepted earlier keeps the context it was accepted in (R36). -/
def takeRequest (s : State) (r : Req) (op : Nat) : Option State :=
  match waiting s r.chan with
  | [] => some (pullRequest s r.chan (ctxAt s r.chan r.session))
  | x :: _ =>
    if x.opcode = op ∧ x.session = r.session ∧ x.seq = r.seq then
      some (pullRequest s r.chan (if x.accepted then x.ctx else ctxAt s r.chan r.session))
    else none

/-- What a command's own checks decide (R392 and after): a failure with its status and response bytes,
or an effect that gives the new state, the status and the response bytes. `changes` says the command
changes state, so that R41 holds it to a committed entry first. -/
structure Plan where
  status : Status
  bytes : List Byte
  changes : Bool
  act : State → State × Status × List Byte
  later : State → Bool := fun _ => false   -- the answer is given by a later command (R90, R555)

/-- A command refused by its own checks. -/
def Plan.fail (st : Status) : Plan := { status := st, bytes := [], changes := false, act := fun s => (s, st, []) }

/-- A command that only reads. -/
def Plan.read (b : List Byte) : Plan := { status := .ok, bytes := b, changes := false, act := fun s => (s, .ok, b) }

/-- A command that changes state and answers OK with some bytes. -/
def Plan.doBytes (f : State → State × List Byte) : Plan :=
  { status := .ok, bytes := [], changes := true, act := fun s => ((f s).1, .ok, (f s).2) }

/-- A command that changes state and answers OK. -/
def Plan.do_ (f : State → State) : Plan := Plan.doBytes fun s => (f s, [])

/-- What a command whose entries cannot be committed answers (R16, R41): FINAL where the ledger is closed for good,
else BUSY, counted in LDG_QFULL. -/
def noEntry (s : State) : State × Status × List Byte :=
  if s.ledger.final then (s, .final, []) else (statInc s R_LDG_QFULL, .busy, [])

/-- A command whose entries cannot be committed is not executed (R41).
Mark: DEDUCED (log entry 45). -/
def Plan.noRoom : Plan := { status := .busy, bytes := [], changes := false, act := noEntry }

/-- The ROLE_ACTION entry of a command (R39).
Mark: DEDUCED (log entry 45). -/
def roleEntry (s : State) (role : Nat) (st : Status) (op : Nat) (r : Req) : State :=
  queueEntry s (.roleAction role st.code r.session.toNat op r.phash 0 0)

/-- R394: the entry of a command that changes no state; when it cannot be committed it is counted as missed. -/
def auditRefusal (s : State) (role : Nat) (st : Status) (op : Nat) (r : Req) : State :=
  if ! ledgerLive s then s
  else if ledgerRoom s then commitAll (roleEntry s role st op r)
  else { s with deny := { s.deny with missed := sat16 s.deny.missed, any := s.deny.any } }

/-- Answer a request: the response echoes opcode and sequence, and is tagged under its session only when
the request's tag verified, so that the session's context is in force (R516). -/
def answer (s : State) (r : Req) (op : Nat) (st : Status) (b : List Byte) : State :=
  let key := match s.disp.cur with
    | some c => if c.role = 0 then none else some c.key
    | none => none
  setCur (respond s r.chan { opcode := op, seq := r.seq, session := if key.isSome then r.session else 0, status := st,
                             key := key, params := b }) none

/-- A HOST-context command refused with DENIED is counted (R395, SYS_CMD_DENY). -/
def countHostDeny (s : State) (role : Nat) (st : Status) : State :=
  if role = 0 ∧ st = .denied then
    let s := statInc s R_SYS_CMD_DENY
    { s with deny := { s.deny with hostCmd := sat16 s.deny.hostCmd, any := true } }
  else s

/-- The tag trailer of a request is the CMAC of its header and parameters under the session's key (R33). -/
def tagGood (op : Nat) (r : Req) (c : Ctx) : Bool := decide (beBytes 16 r.tag.toNat = cmac c.key (reqBytes op r))

/-- The session of a context still stands. -/
def ctxLive (s : State) (r : Req) (c : Ctx) : Bool :=
  (sessOf s c.role).isOpen && decide ((sessOf s c.role).id = r.session) && decide ((sessOf s c.role).key = c.key)

/-- The checks of a session (R33 to R36): the status that ends the request, if any, and the state they leave. A request
whose session closed after it was accepted is held to that session's key, and to the sequence before it.
Mark: DEDUCED (log entry 44). -/
def checkSession (s : State) (op : Nat) (r : Req) (c : Ctx) : Option Status × State :=
  if c.role = 0 then (none, s)
  else
    let x := sessOf s c.role
    let live := ctxLive s r c
    if ! tagGood op r c then
      let s := setCur (statInc s R_SYS_SESS_TAGFAIL) none
      let s := if live then setSess s c.role { x with tagFails := x.tagFails + 1 } else s
      (some .denied, if live && decide (x.tagFails + 1 ≥ 8) then closeSession s c.role 4 else s)
    else
      let late := ! seqLater r.seq.toNat (if live then x.lastSeq else c.last).toNat 32
      let x' := { x with tagFails := 0, lastSeq := if late then x.lastSeq else r.seq }
      (if late then some .stale else none, if live then setSess s c.role x' else s)

/-- A command changes state and the ledger has no room for its entry (R41). -/
def Plan.barred (p : Plan) (s : State) : Bool := p.changes && ledgerLive s && ! ledgerRoom s

/-- The effect of a command in a role's session: its entry, with the status that it answers, is committed before it acts
(R39, R41); a command that cannot have its entry does not act.
Mark: DEDUCED (log entry 45). -/
def actRecorded (op : Nat) (r : Req) (role : Nat) (p : Plan) (s : State) : State × Status × List Byte :=
  if p.barred s then noEntry s
  else
    let entered (st : Status) : State :=
      if p.changes then commitAll (roleEntry s role st op r) else auditRefusal s role st op r
    p.act (entered (p.act (entered .ok)).2.1)

/-- Run a command whose session stands: rights and mode by `judge`, then its own checks and, once its
entry is committed, its effect (R39, R41, R392, R394). A ledger read that is answered OK enters in its run instead.
Mark: DEDUCED (log entry 45). -/
def runCommand (op : Nat) (r : Req) (role : Nat) (judge : State → Nat → Option Status) (body : State → Plan)
    (s : State) : State :=
  match judge s role with
  | some st =>
    let s := if role ≠ 0 then auditRefusal (endRun s role) role st op r else countHostDeny s role st
    answer s r op st []
  | none =>
    if role ≠ 0 ∧ ¬ (op = 0x0A01 ∧ (body s).status = .ok) then
      let s := endRun s role
      let p := body s
      let (s', st, b) := actRecorded op r role p s
      if p.later s && ! p.barred s then setCur s' none else answer s' r op st b
    else
      let p := body s
      let (s', st, b) := p.act s
      if p.later s then setCur s' none else answer (countHostDeny s' role st) r op st b

/-- Accept and run one request (R36, R392, R520): nothing is taken while the dispatcher does not run or
the channel has no room for the response of a request that it has not accepted yet.
Mark: DEDUCED (log entry 45). -/
def dispatch (op : Nat) (r : Req) (judge : State → Nat → Option Status) (body : State → Plan) (s0 : State) : State :=
  let s := begin_ s0
  if ! running s || ! (roomFor s r.chan || acceptedHead s r.chan) then s
  else match takeRequest s r op with
    | none => s
    | some s =>
      if s.boot.recovery && ! ((op = 0x0101 || op = 0x0120 || op = 0x0122) && decide (r.session = 0)) then
        answer (setCur s none) r op .notInMode []     -- R528
      else match s.disp.cur with
        | none => answer s r op .noSession []
        | some c =>
          match checkSession s op r c with
          | (some st, s) => answer s r op st []
          | (none, s) => runCommand op r c.role judge body s

/-! ## Rights (Table 1.2, R27, R28) -/

/-- The lifecycle narrows the rights of role sessions (R28, R119). `ledgerRead` marks the ledger reads and
the closing of the session itself. -/
def lifecycleDenies (s : State) (role : Nat) (ledgerRead : Bool) : Bool :=
  match s.fuses.govLc with
  | .field => false
  | .return_ => decide (role = 2) || (decide (role = 1) && ! ledgerRead)
  | _ => decide (role = 1) || decide (role = 2)

/-- The common judgement: the context must hold the right (DENIED), and the mode must be listed
(NOT_IN_MODE). Roles 1, 2, 3 are given by flags; HOST rights reach every role (R27).
Mark: DEDUCED (log entry 45). -/
def judgeRight (host op_ inst maker : Bool) (modes : Mode → Bool) (s : State) (role : Nat) : Option Status :=
  let has := host || (decide (role = 1) && op_) || (decide (role = 2) && inst) || (decide (role = 3) && maker)
  if ! has || lifecycleDenies s role false then some .denied
  else if modes (mode s) then none else some .notInMode

/-! ## The INSTALLER map (R532, R533) -/

/-- The command a configuration record belongs to. -/
def cfgOpcode : Cfg → Nat
  | .lane .. => 0x0301 | .port .. => 0x0303 | .phyWrite .. => 0x0305 | .tblWrite .. => 0x0401
  | .sw .. => 0x0501 | .pol .. => 0x0502 | .sch .. => 0x0503 | .gates .. => 0x0503 | .beat .. => 0x0601
  | .time .. => 0x0602 | .la .. => 0x0801 | .entry .. => 0x0910 | .tt .. => 0x0B01
  | .angEvt .. => 0x0B02 | .fb .. => 0x0B03 | .hlb .. => 0x0C01

/-- The parameter bytes of a record (Tables 19.4 to 19.6). -/
def cfgPlen : Cfg → Nat
  | .lane _ img => 4 + 4 * img.length
  | .port _ img => 4 + 4 * img.length
  | .phyWrite .. => 12
  | .tblWrite .. => 40
  | .sw _ _ img => 4 + 4 * img.length
  | .pol _ img => 4 + 4 * img.length
  | .sch _ _ img => 4 + 4 * img.length
  | .gates _ _ _ _ es => 12 + 4 * es.length
  | .beat .. => 4
  | .time _ img => 4 + 4 * img.length
  | .la _ img => 4 + 4 * img.length
  | .entry .. => 180
  | .tt _ img => 4 + 4 * img.length
  | .angEvt _ _ es => 4 + 8 * es.length
  | .fb _ _ img => 4 + 4 * img.length
  | .hlb .. => 12

/-- The length of the stored map: a 16-byte header and each record with its own 4 bytes (R532). -/
def mapLen (m : List Cfg) : Nat := m.foldl (fun a c => a + 4 + cfgPlen c) 16

/-- A record: opcode, length, parameters. -/
def cfgBytes (c : Cfg) : List Byte := leBytes 2 (cfgOpcode c) ++ leBytes 2 (cfgPlen c) ++ cfgParams c

/-- The whole map (R532). -/
def mapBytes (m : List Cfg) : List Byte :=
  leBytes 4 0x504D574B ++ leBytes 4 1 ++ leBytes 4 m.length ++ leBytes 4 (mapLen m) ++ m.flatMap cfgBytes

/-- A map becomes the stored one, and valid; its SHA-256 goes to the VBKP domain (R532, R533). -/
def setMap (s : State) (m : List Cfg) : State :=
  { s with map := m, vault := { s.vault with mapHash := sha256 (mapBytes m) }, boot := { s.boot with mapValid := true } }

/-- The name of the object a record configures (R533): the opcode and the first 4 parameter bytes, or
KIND and INDEX; a hash entry is named by its key; the beat and the entry settings are one object each. -/
def cfgName : Cfg → List Nat
  | .lane l _ => [0x0301, l.toNat]
  | .port p _ => [0x0303, p.toNat]
  | .phyWrite p c d _ _ => [0x0305, p.toNat, c.toNat, d.toNat]
  | .tblWrite t _ pm i e =>
      if t.toNat = 2 then 0x0401 :: t.toNat :: (e.take 2).map BitVec.toNat
      else [0x0401, t.toNat, pm.toNat, i.toNat]
  | .sw k i _ => [0x0501, k.toNat, i.toNat]
  | .pol n _ => [0x0502, n.toNat]
  | .sch e k _ => [0x0503, e.toNat, k.toNat]
  | .gates e _ _ _ _ => [0x0503, e.toNat, 1]
  | .beat .. => [0x0601]
  | .time i _ => [0x0602, i.toNat]
  | .la n _ => [0x0801, n.toNat]
  | .entry .. => [0x0910]
  | .tt t _ => [0x0B01, t.toNat]
  | .angEvt f c _ => [0x0B02, f.toNat, c.toNat]
  | .fb k i _ => [0x0B03, k.toNat, i.toNat]
  | .hlb .. => [0x0C01]

/-- Replace the record of the same object, or append. -/
def putRecord (m : List Cfg) (c : Cfg) : List Cfg :=
  if m.any (fun x => decide (cfgName x = cfgName c)) then m.map fun x => if cfgName x = cfgName c then c else x
  else m ++ [c]

/-- Store the record of a † command that succeeds in SERVICE; the stored record makes a valid map.
Mark: DEDUCED (log entry 27). -/
def storeRecord (s : State) (c : Cfg) : State :=
  setMap s (putRecord (if s.boot.mapValid then s.map else []) c)

/-- Domain kind CLUSTER (Table 20.1). -/
def inCluster (s : State) : Bool := decide (fld s R_HLB_CFG 16 2 = 1)

/-- One commit of R548 on HLB_EPOCH and HLB_EPOCH_MAX; the counter sticks at all ones (R16). -/
def epochStep (cluster : Bool) (x : Nat × Nat) : Nat × Nat :=
  let e := min (2 ^ 32 - 1) (if cluster ∧ x.1 < x.2 then x.2 else x.1 + 1)
  (e, max e x.2)

/-- HLB_EPOCH and HLB_EPOCH_MAX once the commits that wait are resolved (R564). -/
def epochAhead (s : State) : Nat × Nat :=
  (List.range s.hlb.commits).foldl (fun x _ => epochStep (inCluster s) x) ((rd s R_HLB_EPOCH).toNat, (rd s R_HLB_EPOCH_MAX).toNat)

/-- A further commit would advance HLB_EPOCH past all ones (R548). -/
def epochFinal (s : State) : Bool :=
  let x := epochAhead s
  decide (x.1 = 2 ^ 32 - 1) && ! (inCluster s && decide (x.1 < x.2))

/-- A configuration change is committed: the next beat boundary advances HLB_EPOCH (R548, R564). -/
def commitChange (s : State) : State := { s with hlb := { s.hlb with commits := s.hlb.commits + 1 } }

/-- A † command: refused by its check, with RANGE when the map would exceed 256 KiB (R533), or with FINAL when
HLB_EPOCH cannot advance (R548); otherwise its record is stored and it takes effect by `apply`.
Mark: DEDUCED (log entry 27). -/
def cfgPlan (check : Option Status) (c : Cfg) (apply : State → State) (s : State) : Plan :=
  match check with
  | some st => Plan.fail st
  | none =>
    if mapLen (putRecord s.map c) > 262144 then Plan.fail .range
    else if epochFinal s then Plan.fail .final
    else Plan.do_ fun s => apply (commitChange (storeRecord s c))

/-- Let a change wait for the next beat boundary.
Mark: DEDUCED (log entry 27). -/
def schedule (s : State) (writes : List (Nat × Nat × Word)) (k : ApplyKind) : State :=
  { s with changes := s.changes ++ [{ writes := writes, kind := k }] }

/-- The word that an instance of a register will hold at the next beat boundary, once the changes that wait are applied. -/
def ahead (s : State) (a i : Nat) : Word :=
  ((s.changes.flatMap Change.writes).reverse.find? fun w => decide (w.1 = a) && decide (w.2.1 = i)).elim (rdi s a i) fun w => w.2.2

/-- Write a configuration image: only the fields that command and map write (R380). -/
def wrCfg (s : State) (a i : Nat) (v : Word) : State :=
  let m := ((regRow a).map RegRow.cfg).getD 0
  wri s a i ((rdi s a i &&& ~~~ m) ||| (v &&& m))

/-- Word `k` of an image. -/
def imgAt (img : List Word) (k : Nat) : Word := img.getD k 0

/-- An INSTALLER command in SERVICE. -/
def judgeInstaller : State → Nat → Option Status :=
  judgeRight false false true false (fun m => decide (m = .service))

/-- A HOST command in every awake mode. -/
def judgeHostAwake : State → Nat → Option Status := judgeRight true false false false Mode.awake

/-- Every awake mode. -/
def anyAwake (m : Mode) : Bool := m.awake

/-- A list of modes. -/
def inModes (l : List Mode) (m : Mode) : Bool := l.contains m

end Sys2Proof.Machine
end

