-- ==== Sys2Proof/Machine/TableOps.lean ====
section
/-! DEFINITION. The classification tables (chapter 8): entry fields, keys, buckets, lookup, insertion,
learning and ageing; and the CRC-32C that buckets and the carry check share. -/

namespace Sys2Proof.Machine

/-- Bits `lo` to `lo + w - 1` of a bit vector, as a number. -/
def bf {n : Nat} (v : BitVec n) (lo w : Nat) : Nat := (v.toNat / 2 ^ lo) % 2 ^ w

/-- Bit `i` of a bit vector. -/
def bb {n : Nat} (v : BitVec n) (i : Nat) : Bool := v.getLsbD i

/-! ## CRC-32C (R226, R315) -/

/-- One bit of the reflected CRC-32C. -/
def crcBit (c : Word) : Word := if c.getLsbD 0 then (c >>> 1) ^^^ 0x82F63B78 else c >>> 1

/-- `crc32c_step`: one byte, without inversions (R226). -/
def crcByte (c : Word) (b : Byte) : Word :=
  let x := c ^^^ b.setWidth 32
  crcBit (crcBit (crcBit (crcBit (crcBit (crcBit (crcBit (crcBit x)))))))

/-- CRC-32C over some bytes from a start value, without inversions. -/
def crcFrom (c : Word) (l : List Byte) : Word := l.foldl crcByte c

/-- CRC-32C with the parameters of R315. -/
def crc32c (l : List Byte) : Word := crcFrom 0xFFFFFFFF l ^^^ 0xFFFFFFFF

/-- The bucket of a key (R226). -/
def bucket (key : BitVec 64) (seed : Word) : Nat :=
  let c := crcFrom seed (leBytes 8 key.toNat)
  (c ^^^ (c >>> 16)).toNat % 4096

/-! ## Action words (R222) -/

def actValid (a : BitVec 48) : Bool := bb a 0
def actSafe (a : BitVec 48) : Bool := bb a 1
/-- DTYPE: 0 DROP, 1 UNICAST, 2 GROUP, 3 TRAP. -/
def actType (a : BitVec 48) : Nat := bf a 2 2
def actDest (a : BitVec 48) : Nat := bf a 4 10
def actPolicer (a : BitVec 48) : Nat := bf a 14 12
def actPolEn (a : BitVec 48) : Bool := bb a 26
def actStream (a : BitVec 48) : Nat := bf a 27 12
def actStrEn (a : BitVec 48) : Bool := bb a 39
def actPrio (a : BitVec 48) : Nat := bf a 40 3
def actXform (a : BitVec 48) : Nat := bf a 43 3
def actSvc (a : BitVec 48) : Bool := bb a 46
def actAuth (a : BitVec 48) : Bool := bb a 47

/-- The learned action of Table 8.6: UNICAST to an ingress, PRIO 0. -/
def learnedAction (ing : Nat) : BitVec 48 := BitVec.ofNat 48 (1 + 4 + ing * 16)

/-- An action with another DEST. -/
def actTo (a : BitVec 48) (ing : Nat) : BitVec 48 :=
  (a &&& ~~~ BitVec.ofNat 48 (1023 * 16)) ||| BitVec.ofNat 48 (ing % 1024 * 16)

/-! ## Hash entries (Table 8.5) -/

def hKey (e : BitVec 128) : BitVec 64 := e.setWidth 64
def hAct (e : BitVec 128) : BitVec 48 := (e >>> 64).setWidth 48
def hValid (e : BitVec 128) : Bool := bb e 64
def hStatic (e : BitVec 128) : Bool := bb e 112
def hLearned (e : BitVec 128) : Bool := bb e 113
def hAge (e : BitVec 128) : Nat := bf e 114 2
def hPass (e : BitVec 128) : Bool := bb e 116

/-- An entry of its parts. -/
def hMake (key : BitVec 64) (act : BitVec 48) (static learned : Bool) (age : Nat) (pass : Bool) : BitVec 128 :=
  BitVec.ofNat 128 (key.toNat + act.toNat * 2 ^ 64 + b2n static * 2 ^ 112 + b2n learned * 2 ^ 113 +
    (age % 4) * 2 ^ 114 + b2n pass * 2 ^ 116)

/-- An entry with another age and pass bit. -/
def hAged (e : BitVec 128) (age : Nat) (pass : Bool) : BitVec 128 :=
  hMake (hKey e) (hAct e) (hStatic e) (hLearned e) age pass

/-- Places of one pipeline: 16,384 bucket entries, then 128 overflow entries. -/
abbrev hSpan : Nat := 16512
abbrev hBuckets : Nat := 16384

/-- The entry at a place of a pipeline. -/
def hGet (s : State) (p pos : Nat) : BitVec 128 := tget 0 s.tables.hash (p * hSpan + pos)

/-- Write the entry at a place of a pipeline. -/
def hSet (s : State) (p pos : Nat) (e : BitVec 128) : State :=
  { s with tables := { s.tables with hash := tset 0 s.tables.hash (p * hSpan + pos) e } }

/-- The seed in use (R227). -/
def seedOf (s : State) (p : Nat) : Word := rd s (R_TBL_HASH_SEED + 4 * p)

/-- The four places of a key's bucket. -/
def ways (s : State) (p : Nat) (key : BitVec 64) : List Nat :=
  (List.range 4).map fun w => 4 * bucket key (seedOf s p) + w

/-- The places of the overflow store that hold an entry of the key (R228). -/
def overflowHits (s : State) (p : Nat) (key : BitVec 64) : List Nat :=
  (s.tables.hash.filter fun x =>
    decide (p * hSpan + hBuckets ≤ x.1) && decide (x.1 < (p + 1) * hSpan) && hValid x.2 && decide (hKey x.2 = key)).map
    fun x => x.1 - p * hSpan

/-- The place that holds a key, when one does (R228). -/
def hFind (s : State) (p : Nat) (key : BitVec 64) : Option Nat :=
  match (ways s p key).find? fun w => hValid (hGet s p w) && decide (hKey (hGet s p w) = key) with
  | some w => some w
  | none => (overflowHits s p key).head?

/-- The place a new key takes: the lowest free way, else the lowest free overflow entry (R229). -/
def hFree (s : State) (p : Nat) (key : BitVec 64) : Option Nat :=
  match (ways s p key).find? fun w => ! hValid (hGet s p w) with
  | some w => some w
  | none => ((List.range 128).map fun k => hBuckets + k).find? fun w => ! hValid (hGet s p w)

/-- The valid entries of a pipeline, as places. -/
def hPlaces (s : State) (p : Nat) : List Nat :=
  (s.tables.hash.filter fun x => decide (p * hSpan ≤ x.1) && decide (x.1 < (p + 1) * hSpan) && hValid x.2).map
    fun x => x.1 - p * hSpan

/-- HASH_USED and OVF_USED (Table 8.7). -/
def hashUsed (s : State) (p : Nat) : Nat := ((hPlaces s p).filter fun x => decide (x < hBuckets)).length
def ovfUsed (s : State) (p : Nat) : Nat := ((hPlaces s p).filter fun x => decide (hBuckets ≤ x)).length

/-! ## Keys (R219, R220) -/

/-- Key type ETH. -/
def keyEth (vid mac : Nat) : BitVec 64 := BitVec.ofNat 64 ((vid % 4096) * 2 ^ 48 + mac % 2 ^ 48)

/-- Key type CAN29. -/
def keyCan29 (l id : Nat) : BitVec 64 := BitVec.ofNat 64 (2 ^ 62 + (l % 32) * 2 ^ 48 + id % 2 ^ 29)

/-- Key type CANXL. -/
def keyXl (l prio af : Nat) : BitVec 64 :=
  BitVec.ofNat 64 (2 ^ 63 + (l % 32) * 2 ^ 48 + (prio % 2 ^ 11) * 2 ^ 32 + af % 2 ^ 32)

/-! ## The VLAN, stream and group tables -/

def vlanOf (s : State) (vid : Nat) : BitVec 256 := tget 0 s.tables.vlan vid
def streamOf (s : State) (n : Nat) : BitVec 64 := tget 0 s.tables.stream n
def groupOf (s : State) (n : Nat) : BitVec 128 := tget 0 s.tables.group n

/-- Members 0 to 105 of a set. -/
def members (m : Nat) : List Nat := (List.range 106).filter fun k => decide ((m / 2 ^ k) % 2 = 1)

/-- The personality of a lane: 0 OFF, 1 CAN, 2 LIN, 3 T1S (Table 6.1). -/
def pers (s : State) (n : Nat) : Nat := fldi s R_LANE_CFG n 0 2

/-- A member counts in a VLAN: bits of lanes that are not T1S are ignored (Table 8.5). -/
def vlanBit (s : State) (v : BitVec 256) (k : Nat) : Bool :=
  bb v k && (decide (96 ≤ k) || decide (pers s k = 3))

/-- The ingress PVID (TBL_PVID). -/
def pvid (s : State) (ing : Nat) : Nat :=
  bitsOf (rd s (R_TBL_PVID + 4 * (ing / 2))) (16 * (ing % 2)) 12

/-! ## Restrictions (R237, R550) -/

/-- A pipeline is SAFE_ONLY: in QUARANTINE, and while a Helber rule restricts the node. -/
def safeOnly (s : State) : Bool := decide (mode s = .quarantine) || s.hlb.safe

/-- An entry with these attribute bits is honoured (R237, R550). -/
def honoured (s : State) (safe svc : Bool) : Bool :=
  (! safeOnly s || safe) && (decide (mode s ≠ .service) || svc)

/-- The pipelines are restricted to some of their entries, so that learning stops (R237). -/
def restricted (s : State) : Bool := safeOnly s || decide (mode s = .service)

/-! ## Entries that scrub invalidated (R246) -/

/-- A key whose entry of a pipeline was invalidated, and not written since. -/
def keyLost (s : State) (p : Nat) (key : BitVec 64) : Bool := s.tables.lostKeys.contains (p, key)

/-- A VLAN whose entry was invalidated, and not written since. -/
def vidLost (s : State) (vid : Nat) : Bool := s.tables.lostVids.contains vid

/-- A key's entry is written, so that nothing is lost under it. -/
def keyFound (s : State) (p : Nat) (key : BitVec 64) : State :=
  { s with tables := { s.tables with lostKeys := s.tables.lostKeys.filter fun x => decide (x ≠ (p, key)) } }

/-! ## Learning (R229, R231) -/

/-- Register of pipeline `p` (0x40 apart). -/
def tblReg (a p : Nat) : Nat := a + 0x40 * p

/-- The source lookup of an Ethernet frame (Table 8.6).
Mark: DESIGN CHOICE (log entry 34); DEDUCED (log entry 35). -/
def learn (s : State) (p ing : Nat) (key : BitVec 64) : State :=
  match hFind s p key with
  | none =>
    match hFree s p key with
    | none => statInc s (tblReg R_TBL_P_LEARN_FULL p)
    | some w =>
      let (k, s) := draw s       -- the PASS bit of a new entry is not stated: a free value
      statInc (hSet (keyFound s p key) p w (hMake key (learnedAction ing) false true 3 (Config.freeBit k))) (tblReg R_TBL_P_LEARN p)
  | some w =>
    let e := hGet s p w
    let same := decide (actDest (hAct e) = ing)
    if hStatic e then (if same then s else statInc s (tblReg R_TBL_P_PINNED p))
    else if same then hSet s p w (hAged e 3 (hPass e))
    else if hLearned e then
      statInc (hSet s p w (hMake key (actTo (hAct e) ing) false true 3 (hPass e))) (tblReg R_TBL_P_MOVE p)
    else statInc s (tblReg R_TBL_P_PINNED p)

/-- Learning takes place now (R231, R237, R238). In SERVICE the restriction of R237 stops it.
Mark: DEDUCED (log entry 35). -/
def learningOn (s : State) : Bool :=
  (decide (mode s = .rented) || decide (mode s = .drive) || decide (mode s = .depot) || decide (mode s = .service))
  && ! restricted s

/-! ## Ageing (R232 to R234) -/

/-- The ageing pass of a pipeline. -/
def passOf (s : State) (p : Nat) : Pass := tget Pass.init s.tables.pass p

/-- Replace the pass of a pipeline. -/
def setPass (s : State) (p : Nat) (x : Pass) : State :=
  { s with tables := { s.tables with pass := tset Pass.init s.tables.pass p x } }

/-- Visit one entry (R232). -/
def ageVisit (s : State) (p pos : Nat) : State :=
  let e := hGet s p pos
  let par := (passOf s p).parity
  if ! hValid e || hStatic e || decide (hPass e = par) then s
  else if hAge e = 0 then statInc (hSet s p pos 0) (tblReg R_TBL_P_AGED p)
  else hSet s p pos (hAged e (hAge e - 1) par)

/-- Begin a pass: its parity inverts (R232). -/
def passBegin (s : State) (p : Nat) : State :=
  setPass s p { busy := true, pos := 0, due := false, parity := ! (passOf s p).parity }

/-- One ageing step of a pipeline: up to 256 entries; at its end the pass ends, and one that fell due
meanwhile begins (R233). While AGE_S is 0 no pass runs (R234). -/
def ageStep (s : State) (p : Nat) : State :=
  let x := passOf s p
  if ! x.busy then s
  else if fld s R_TBL_AGE_CFG 0 20 = 0 then setPass s p { x with busy := false, pos := 0, due := false }
  else
    let hi := min (x.pos + 256) hSpan
    let s := ((hPlaces s p).filter fun k => decide (x.pos ≤ k) && decide (k < hi)).foldl (fun s k => ageVisit s p k) s
    if hi < hSpan then setPass s p { x with pos := hi }
    else
      let s := setPass s p { x with busy := false, pos := 0 }
      if x.due then passBegin s p else s

/-- An age period starts (R232 to R234). -/
def agePeriod (s : State) (p : Nat) : State :=
  if fld s R_TBL_AGE_CFG 0 20 = 0 then s
  else if (passOf s p).busy then setPass s p { passOf s p with due := true }
  else passBegin s p

/-- A beat-length change restarts the pass in progress: entries visited already are skipped (R132, R233). -/
def passRestart (s : State) (p : Nat) : State :=
  if (passOf s p).busy then setPass s p { passOf s p with pos := 0 } else s

end Sys2Proof.Machine
end

