-- ==== Sys2Proof/Machine/NetOps.lean ====
section
/-! DEFINITION. Frames, cells, queues, the resequencer, admission and congestion (chapters 9 to 11). -/

namespace Sys2Proof.Machine

/-! ## Content and carried bytes (R313) -/

/-- The header word of a CAN CC or FD frame (Table 11.1). -/
def canHeader (id : BitVec 29) (ide fdf brs : Bool) : Nat :=
  id.toNat + b2n ide * 2 ^ 29 + b2n fdf * 2 ^ 30 + b2n brs * 2 ^ 31

/-- The carried bytes of a frame (Table 11.1). -/
def carried : Content → List Byte
  | .eth b => b
  | .can id ide fdf brs esi dlc data =>
      leBytes 4 (canHeader id ide fdf brs) ++ leBytes 1 (dlc.toNat + 16 * b2n esi) ++ data
  | .xl prio sdt vcid af sec data =>
      leBytes 2 prio.toNat ++ [sdt, vcid] ++ leBytes 4 af.toNat ++ leBytes 2 (data.length - 1) ++
      leBytes 1 (b2n sec) ++ leBytes 1 0 ++ data
  | .lin pid data => pid :: data

/-- FTYPE [5:3] (Table 9.3). -/
def ftype : Content → Nat
  | .eth _ => 0
  | .can _ _ fdf _ _ _ _ => if fdf then 2 else 1
  | .xl .. => 3
  | .lin .. => 4

/-- The data field of a CAN, CAN XL or LIN frame; the frame itself for Ethernet. -/
def dataField : Content → List Byte
  | .eth b => b
  | .can _ _ _ _ _ _ d => d
  | .xl _ _ _ _ _ d => d
  | .lin _ d => d

/-- A frame of `n` bytes occupies this many cells (R251). -/
def cellsOf (n : Nat) : Nat := (n + 32 + 255) / 256

/-! ## Ethernet header fields -/

/-- A big-endian number. -/
def beNat (l : List Byte) : Nat := l.foldl (fun a b => a * 256 + b.toNat) 0

def ethDst (b : List Byte) : Nat := beNat (b.take 6)
def ethSrc (b : List Byte) : Nat := beNat ((b.drop 6).take 6)
/-- The EtherType field after the addresses. -/
def ethOuter (b : List Byte) : Nat := beNat ((b.drop 12).take 2)
/-- The frame carries an IEEE 802.1Q tag. -/
def ethTagged (b : List Byte) : Bool := decide (ethOuter b = 0x8100)
def ethTci (b : List Byte) : Nat := beNat ((b.drop 14).take 2)
def ethVid (b : List Byte) : Nat := if ethTagged b then ethTci b % 4096 else 0
def ethPcp (b : List Byte) : Nat := if ethTagged b then ethTci b / 8192 else 0
def ethDei (b : List Byte) : Bool := ethTagged b && decide (ethTci b / 4096 % 2 = 1)
/-- The EtherType after at most one tag, and the offset of what follows it. -/
def ethInner (b : List Byte) : Nat := if ethTagged b then beNat ((b.drop 16).take 2) else ethOuter b
def ethBody (b : List Byte) : Nat := if ethTagged b then 18 else 14
/-- A group address: the low bit of the first octet. -/
def macGroup (m : Nat) : Bool := decide (m / 2 ^ 40 % 2 = 1)

/-- The IP ECN field, when the frame is IPv4 or IPv6 (R273). -/
def ecnField (b : List Byte) : Option Nat :=
  let p := b.drop (ethBody b)
  if ethInner b = 0x0800 then some ((p.getD 1 0).toNat % 4)
  else if ethInner b = 0x86DD then some ((p.getD 1 0).toNat / 16 % 4)
  else none

/-- ECN-capable: the field reads 0b01 or 0b10 (R272). -/
def ecnCapable : Content → Bool
  | .eth b => match ecnField b with
    | some v => decide (v = 1) || decide (v = 2)
    | none => false
  | _ => false

/-- The offset of an R-TAG (R268), when the frame has one: its sequence number follows the EtherType and
two reserved bytes. -/
def rtagSeq : Content → Option Nat
  | .eth b => if ethInner b = 0xF1C1 then some (beNat (((b.drop (ethBody b)).drop 2).take 2)) else none
  | _ => none

/-! ## The frame record (R251) -/

/-- Bytes 0x00 to 0x0F of a frame record (Table 9.3). -/
def recHead (f : Frame) : List Byte :=
  leBytes 8 f.time.toNat ++ leBytes 2 f.node ++ leBytes 1 f.ing ++
  leBytes 1 (f.xform + 8 * ftype f.content) ++ leBytes 2 (carried f.content).length ++
  leBytes 2 (f.stream + 4096 * b2n f.strEn)

/-- The ingress stamp (R314). -/
def stampBytes (f : Frame) : List Byte := leBytes 8 f.time.toNat ++ leBytes 2 f.node ++ leBytes 1 f.ing

/-- The carry check of a stamp and carried bytes (R315). -/
def carryOver (stamp bytes : List Byte) : Word := crc32c (stamp ++ bytes)

/-! ## Frames -/

/-- The stored frame of a handle. -/
def frameOf (s : State) (h : Nat) : Option Frame := tget none s.net.frames h

/-- Store, replace or free the frame of a handle. -/
def setFrame (s : State) (h : Nat) (f : Option Frame) : State :=
  { s with net := { s.net with frames := tset none s.net.frames h f } }

/-- The stored frames. -/
def allFrames (s : State) : List Frame := s.net.frames.filterMap Prod.snd

/-- Cells a frame holds on chip. -/
def onChip (f : Frame) : Nat := if f.spilled then 0 else f.cells

/-- Cells held by frames that satisfy a test. -/
def cellsWhere (s : State) (p : Frame → Bool) : Nat :=
  ((allFrames s).filter p).foldl (fun a f => a + onChip f) 0

/-- On-chip cells charged to a group (R257). -/
def charged (s : State) (g : Nat) : Nat := cellsWhere s fun f => decide (f.charge = g)

/-- The priority that PFC holds a frame under (R263). -/
def pfcPrio : Content → Nat
  | .eth x => ethPcp x
  | _ => 0

/-- A frame of a pipeline and ingress that is not committed. -/
def heldOf (p ing : Nat) (c : Content) : Held := { p := p, ing := ing, cells := cellsOf (carried c).length, prio := pfcPrio c }

/-- The frames in the pipelines (owner ING_p): those a stopped pipeline holds and those that wait for a key (R253, R372). -/
def inPipes (s : State) : List Held :=
  s.net.stuck ++ s.cipher.waits.map fun x => match x.2 with
    | .tx f => heldOf f.pipe.val f.ing.val f.content
    | .rx a _ _ _ => heldOf a.p a.ing a.content

/-- Their cells, of those that satisfy a test. -/
def heldCells (s : State) (p : Held → Bool) : Nat := ((inPipes s).filter p).foldl (fun a x => a + x.cells) 0

/-- Cells held by frames in the pipelines. -/
def stuckCells (s : State) : Nat := heldCells s fun _ => true

/-- SW_BUF_FREE. -/
def cellsFree (s : State) : Nat := 65536 - (cellsWhere s fun _ => true) - stuckCells s - s.net.leaked

/-- SW_I_USED of an ingress: cells of frames received on it. -/
def ingUsed (s : State) (ing : Nat) : Nat :=
  (cellsWhere s fun f => decide (f.ing = ing) && f.sample.isEmpty) + heldCells s fun x => decide (x.ing = ing)

/-! ## Egresses and queues -/

/-- The charging group of an egress: lane and port groups 0 to 3, 4 HP, 5 PP. -/
def egrGroup (e : Nat) : Nat := if e < 96 then e / 24 else if e < 104 then (e - 96) % 4 else if e = 104 then 4 else 5

/-- The pipeline of an ingress that is no HP or PP. -/
def ingPipe (ing : Nat) : Nat := if ing < 96 then ing / 24 else (ing - 96) % 4

/-- Queues of an egress. -/
def nQueues (e : Nat) : Nat := if e < 96 then 4 else 8

/-- The queue an action's PRIO names at an egress (Table 8.3). -/
def queueNo (e prio : Nat) : Nat := if e < 96 then prio / 2 else prio

/-- The index of an egress or ingress code in the port window (PORT_SEL). -/
def portIdx (e : Nat) : Nat := if e < 96 then 16 + e else e - 96

/-- The number of queue `q` of egress `e` in the queue window. -/
def qn (e q : Nat) : Nat := e * 8 + q

/-- The entries of a queue, head first. -/
def queueOf (s : State) (e q : Nat) : List QEnt := tget [] s.net.queues (qn e q)

/-- Replace a queue. -/
def setQueue (s : State) (e q : Nat) (l : List QEnt) : State :=
  { s with net := { s.net with queues := tset [] s.net.queues (qn e q) l } }

/-- An egress. -/
def egrOf (s : State) (e : Nat) : Egr := tget Egr.init s.net.egrs e

/-- Replace an egress. -/
def setEgr (s : State) (e : Nat) (x : Egr) : State :=
  { s with net := { s.net with egrs := tset Egr.init s.net.egrs e x } }

/-- The cells of a queue's frames: all of them, and those on chip. -/
def qDepth (s : State) (e q : Nat) : Nat :=
  (queueOf s e q).foldl (fun a x => a + ((frameOf s x.h).map Frame.cells).getD 0) 0
def qOnChip (s : State) (e q : Nat) : Nat :=
  (queueOf s e q).foldl (fun a x => a + ((frameOf s x.h).map onChip).getD 0) 0
/-- The cells of a queue's frames in the spill store. -/
def qSpilled (s : State) (e q : Nat) : Nat := qDepth s e q - qOnChip s e q

/-- The cells of a lane's four queues. -/
def laneDepth (s : State) (e : Nat) : Nat := ((List.range 4).map (qDepth s e)).foldl (· + ·) 0

/-- Lane `n`. -/
def laneOf (s : State) (n : Nat) : Lane := tget Lane.init s.lanes n

/-- Replace lane `n`. -/
def setLane (s : State) (n : Nat) (x : Lane) : State := { s with lanes := tset Lane.init s.lanes n x }

/-! ## Flow control (R208, R263) -/

/-- Port `p`. -/
def portOf (s : State) (p : Nat) : Port := tget Port.init s.ports p

/-- Replace port `p`. -/
def setPort (s : State) (p : Nat) (x : Port) : State := { s with ports := tset Port.init s.ports p x }

/-- Loopback of a lane or port: 0 none, 1 MAC, 2 LINE (R586). -/
def loopOf (s : State) (e : Nat) : Nat := tget 0 s.net.loop e

/-- A port has link; one in loopback counts as having it (R586). -/
def portLink (s : State) (p : Nat) : Bool := bit s R_PORT_STAT p 1 || decide (loopOf s (96 + p) ≠ 0)

/-- The pause mode of a port: 0 OFF, 1 LINK, 2 PFC (R206). -/
def pmode (s : State) (p : Nat) : Nat := fldi s R_PORT_PAUSE_CFG p 16 2

/-- Send a pause frame for one scope with some quanta (R208): a frame of 64 octets. -/
def sendPause (s : State) (p b quanta : Nat) : State :=
  let s := stat2AddI (stat2AddI (statIncI s R_PORT_TX_PAUSE p) R_PORT_TXF p 1) R_PORT_TXO p 64
  { s with out := { s.out with pause := s.out.pause ++ [(p, 2 ^ b, quanta)] } }

/-- The scopes of a port: the port itself, or each priority under PFC. -/
def scopes (s : State) (p : Nat) : List Nat :=
  if pmode s p = 1 then [0]
  else if pmode s p = 2 then (List.range 8).filter fun b => bit s R_PORT_PAUSE_CFG p (24 + b) else []

/-- The cells held for a scope: the port's, or those of frames of one priority. -/
def scopeCells (s : State) (p b : Nat) : Nat :=
  if pmode s p = 2 then
    (cellsWhere s fun f => decide (f.ing = 96 + p) && f.sample.isEmpty && decide (pfcPrio f.content = b)) +
      heldCells s fun x => decide (x.ing = 96 + p) && decide (x.prio = b)
  else ingUsed s (96 + p)

/-- Flow control of one scope begins at XOFF and ends at XON (R263); the MAC sends its pause frames unless
the scope is quiet under R210, the port is DOWN or has no link (R195). -/
def fcScope (s : State) (p b : Nat) : State :=
  let ass := tget 0 s.net.fcAss p
  let on := bb ass b
  let c := scopeCells s p b
  let quiet := bb (portOf s p).txQuiet b || ! bit s R_PORT_STAT p 0 || ! portLink s p
  let put (s : State) (v : Bool) : State :=
    let m : BitVec 8 := BitVec.ofNat 8 (2 ^ b)
    let a := tget 0 s.net.fcAss p
    { s with net := { s.net with fcAss := tset 0 s.net.fcAss p (if v then a ||| m else a &&& ~~~ m) } }
  if ! on && decide (c ≥ fldi s R_SW_I_FC (96 + p) 0 16) then
    let s := put s true
    if quiet then s else sendPause (orReg s R_PORT_PAUSE_STAT p (fieldMask (8 + b) 1)) p b (fldi s R_PORT_PAUSE_CFG p 0 16)
  else if on && decide (c ≤ fldi s R_SW_I_FC (96 + p) 16 16) then
    let s := put s false
    if bit s R_PORT_PAUSE_STAT p (8 + b) && ! quiet then sendPause (clrReg s R_PORT_PAUSE_STAT p (fieldMask (8 + b) 1)) p b 0
    else clrReg s R_PORT_PAUSE_STAT p (fieldMask (8 + b) 1)
  else s

/-- Judge the flow control of an ingress whose cells changed. -/
def fcCheck (s : State) (ing : Nat) : State :=
  if 96 ≤ ing ∧ ing < 104 then (scopes s (ing - 96)).foldl (fun s b => fcScope s (ing - 96) b) s else s

/-- One target of a frame is done with it: REFCNT falls, and the cells are freed at the last (R269). -/
def releaseRef (s : State) (h : Nat) : State :=
  match frameOf s h with
  | none => s
  | some f =>
    if f.ref ≤ 1 then
      let s := setFrame s h none
      fcCheck { s with net := { s.net with leaked := s.net.leaked + f.lost } } f.ing
    else setFrame s h (some { f with ref := f.ref - 1 })

/-! ## The resequencer (R264 to R267) -/

/-- A sequenced stream: SEQ or CB_REC. -/
def strSeq (s : State) (n : Nat) : Bool := bb (streamOf s n) 1 && ! bb (streamOf s n) 2
def strCb (s : State) (n : Nat) : Bool := bb (streamOf s n) 2

/-- The key of a stream and egress pair. -/
def ctxKey (str e : Nat) : Nat := str * 128 + e

/-- The context of a pair, when one is taken. -/
def ctxOf (s : State) (str e : Nat) : Option Rsq := tget none s.net.ctxs (ctxKey str e)

/-- Take, replace or free a context. -/
def setCtx (s : State) (str e : Nat) (c : Option Rsq) : State :=
  { s with net := { s.net with ctxs := tset none s.net.ctxs (ctxKey str e) c } }

/-- What some steps of a context did: the context, the frames released, the numbers lost. -/
structure RsqRes where
  ctx : Rsq
  sent : List Nat
  lost : Nat

/-- The slot of the number NEXT. -/
def rsqSlot (c : Rsq) : Option RSlot := tget none c.slots (c.next % 64)

/-- Give up or release the number NEXT, without the run that follows. -/
def rsqStep1 (r : RsqRes) : RsqRes :=
  let c := r.ctx
  let nx := (c.next + 1) % 65536
  match rsqSlot c with
  | some (.held h _) =>
    { ctx := { next := nx, slots := tset none c.slots (c.next % 64) none, hist := (c.hist <<< 1) ||| 1 },
      sent := r.sent ++ [h], lost := r.lost }
  | some .gone =>
    { ctx := { next := nx, slots := tset none c.slots (c.next % 64) none, hist := c.hist <<< 1 }, sent := r.sent, lost := r.lost }
  | none => { ctx := { c with next := nx, hist := c.hist <<< 1 }, sent := r.sent, lost := r.lost + 1 }

/-- `run`: while NEXT holds a frame or GONE, step. At most 64 slots can be filled. -/
def rsqRun : Nat → RsqRes → RsqRes
  | 0, r => r
  | n + 1, r => if (rsqSlot r.ctx).isSome then rsqRun n (rsqStep1 r) else r

/-- `step`: one number, then the run. -/
def rsqStep (r : RsqRes) : RsqRes := rsqRun 64 (rsqStep1 r)

/-- `release` of the frame that carries NEXT.
Mark: DEDUCED (log entry 38). -/
def rsqRelease (r : RsqRes) (h : Nat) : RsqRes :=
  rsqRun 64 { ctx := { r.ctx with next := (r.ctx.next + 1) % 65536, hist := (r.ctx.hist <<< 1) ||| 1 },
              sent := r.sent ++ [h], lost := r.lost }

/-- Step until the number `x` lies within the window. -/
def rsqUntil (x : Nat) : Nat → RsqRes → RsqRes
  | 0, r => r
  | n + 1, r => if (x + 65536 - r.ctx.next) % 65536 > 63 then rsqUntil x n (rsqStep r) else r

/-- Step until NEXT reaches a held frame (R267). -/
def rsqToHeld : Nat → RsqRes → RsqRes
  | 0, r => r
  | n + 1, r =>
    match rsqSlot r.ctx with
    | some (.held _ _) => rsqRun 64 r
    | _ => rsqToHeld n (rsqStep1 r)

/-- The owner of a frame queued at one egress (Table 9.5). -/
def egrOwner (e : Nat) : Owner := if e = 104 then .hp else if e = 105 then .pp else .egr (egrGroup e)

/-- Put released frames at the front of the queue they left, behind those released before: they go out ahead of its next
frame. -/
def rsqSend (s : State) (e : Nat) (l : List Nat) : State :=
  l.foldl (fun s h =>
    match frameOf s h with
    | none => s
    | some f =>
      let q := queueNo e (actPrio f.action)
      let s := setFrame s h (some { f with owner := if f.mcast then .mcast else egrOwner e })
      let y : QEnt := { h := h, verified := true, rsq := true, paid := false, launch := none, trig := true }
      setQueue s e q ((queueOf s e q).takeWhile QEnt.rsq ++ y :: (queueOf s e q).dropWhile QEnt.rsq)) s

/-- Store what some steps did. -/
def rsqStore (s : State) (str e : Nat) (r : RsqRes) : State :=
  rsqSend (statAddI (setCtx s str e (some r.ctx)) R_SW_S_LOST str r.lost) e r.sent

/-- A sequenced frame arrives at its context (R265).
Mark: DEDUCED (log entry 38). -/
def rsqArrive (s : State) (str e h x : Nat) (c : Rsq) : State :=
  let d := (x + 65536 - c.next) % 65536
  let r0 : RsqRes := { ctx := c, sent := [], lost := 0 }
  let hold (s : State) (r : RsqRes) : State :=
    let s := match frameOf s h with
      | some f => setFrame s h (some { f with owner := .rsq })
      | none => s
    rsqStore s str e { r with ctx := { r.ctx with slots := tset none r.ctx.slots (x % 64) (some (.held h s.time.ticks)) } }
  if d = 0 then rsqStore s str e (rsqRelease r0 h)
  else if d ≤ 63 then
    match tget none c.slots (x % 64) with
    | none => hold s r0
    | some _ => releaseRef (statIncI s R_SW_S_DUP str) h
  else if d ≤ 32767 then hold s (rsqUntil x 32768 r0)
  else
    let b := (c.next + 65535 - x) % 65536
    releaseRef (statIncI s (if decide (b ≤ 63) && c.hist.getLsbD b then R_SW_S_DUP else R_SW_S_LATE) str) h

/-- Contexts in use (SW_RSQ_CFG.CTX_USED). -/
def ctxUsed (s : State) : Nat := s.net.ctxs.length

/-- The oldest held frame of a context has been held for TMO_US (R267). -/
def rsqDue (s : State) (c : Rsq) : Bool :=
  c.slots.any fun x => match x.2 with
    | some (.held _ t) => decide (t + fld s R_SW_RSQ_CFG 0 16 * ticksPerUs ≤ s.time.ticks)
    | _ => false

/-- The timeout of the oldest held frame (R267): the context steps until NEXT reaches a held frame, which is released
with those that follow it. -/
def rsqTimeout (s : State) (str e : Nat) : State :=
  match ctxOf s str e with
  | some c => if rsqDue s c then rsqStore s str e (rsqToHeld 64 { ctx := c, sent := [], lost := 0 }) else s
  | none => s

/-- The timeouts of a context that are due: at most one for each slot. -/
def rsqTimeouts (str e : Nat) : Nat → State → State
  | 0, s => s
  | n + 1, s =>
    match ctxOf s str e with
    | some c => if rsqDue s c then rsqTimeouts str e n (rsqTimeout s str e) else s
    | none => s

/-- A dequeued sequenced frame (R265): a context is taken for a new pair, or the frame passes. A timeout that is due is
taken first (R267).
Mark: DEDUCED (log entry 38). -/
def rsqDequeue (s : State) (str e h x : Nat) : State :=
  let s := rsqTimeouts str e 64 s
  match ctxOf s str e with
  | some c => rsqArrive s str e h x c
  | none =>
    if ctxUsed s ≥ 1024 then rsqSend (statInc s R_SW_RSQ_NOCTX) e [h]
    else rsqSend (setCtx s str e (some { next := (x + 1) % 65536, slots := [], hist := 1 })) e [h]

/-- A sequenced frame was dropped after its number was assigned (R266). -/
def rsqAdvise (s : State) (e : Nat) (f : Frame) : State :=
  match f.seq with
  | none => s
  | some x =>
    match ctxOf s f.stream e with
    | none => s
    | some c =>
      let d := (x + 65536 - c.next) % 65536
      if d = 0 then
        let r0 : RsqRes := { ctx := { c with next := (c.next + 1) % 65536, hist := c.hist <<< 1 }, sent := [], lost := 0 }
        rsqStore s f.stream e (rsqRun 64 r0)
      else if d ≤ 63 then
        match tget none c.slots (x % 64) with
        | none => setCtx s f.stream e (some { c with slots := tset none c.slots (x % 64) (some .gone) })
        | some _ => s
      else s

/-! ## Dropping and flushing -/

/-- Drop a queued frame at an egress: advise the resequencer and release it. -/
def dropAt (s : State) (e h : Nat) : State :=
  match frameOf s h with
  | none => s
  | some f => releaseRef (rsqAdvise s e f) h

/-- Count a flushed or tail-dropped frame: SW_Q_TDROP at lanes, SW_Q_ADROP elsewhere. -/
def countTail (s : State) (e q : Nat) : State := statIncI s R_SW_Q_TDROP (qn e q)

/-- Flush one queue, counting each frame. -/
def flushQueue (cnt : State → Nat → State) (e : Nat) (s : State) (q : Nat) : State :=
  let l := queueOf s e q
  l.foldl (fun s x => dropAt (cnt s q) e x.h) (setQueue s e q [])

/-- Flush every queue of an egress. -/
def flushAll (cnt : State → Nat → State) (s : State) (e : Nat) : State :=
  (List.range (nQueues e)).foldl (flushQueue cnt e) s

/-- Abandon the frame in transmission, counting it with its queue. -/
def abandonTx (cnt : State → Nat → State) (s : State) (e : Nat) : State :=
  match (egrOf s e).tx with
  | none => s
  | some (q, x) => dropAt (cnt (setEgr s e { egrOf s e with tx := none }) q) e x.h

/-- Flush a lane: the frame in transmission, whose collisions no longer count, and its four queues, as lane tail drops
(R170, R176, R200).
Mark: DEDUCED (log entry 36). -/
def flushLane (s : State) (n : Nat) : State :=
  let s := flushAll (fun s q => countTail s n q) (abandonTx (fun s q => countTail s n q) s n) n
  setLane s n { laneOf s n with backoff := false, attempts := 0 }

/-- Frames of an egress that the resequencer holds. -/
def heldAt (s : State) (e : Nat) : List (Nat × Nat) :=
  s.net.ctxs.flatMap fun x => match x.2 with
    | some c => if x.1 % 128 = e then
        c.slots.filterMap fun y => match y.2 with
          | some (.held h _) => some (x.1 / 128, h)
          | _ => none
      else []
    | none => []

/-- Drop the frames the resequencer holds for an egress; the contexts stay (R280). -/
def dropHeld (s : State) (e : Nat) : State :=
  (heldAt s e).foldl (fun s x =>
    match ctxOf s x.1 e with
    | none => s
    | some c =>
      let s := setCtx s x.1 e (some { c with slots := c.slots.filter fun y => match y.2 with
        | some (.held h _) => decide (h ≠ x.2)
        | _ => true })
      releaseRef (statIncI s R_PORT_TX_LINKDROP (portIdx e)) x.2) s

/-- Flush a port on link loss or DOWN (R195, R280). -/
def flushPort (s : State) (p : Nat) : State :=
  flushAll (fun s _ => statIncI s R_PORT_TX_LINKDROP p) (dropHeld s (96 + p)) (96 + p)

/-! ## Admission (R257 to R259, R271 to R274) -/

/-- Cells of a group's reserve and limit. -/
def pgRsv (s : State) (g : Nat) : Nat := fld s (R_SW_PG_RSV + 0x10 * g) 0 17
def pgMax (s : State) (g : Nat) : Nat := fld s (R_SW_PG_MAX + 0x10 * g) 0 17

/-- Free cells of the shared pool (R257). -/
def poolFree (s : State) : Nat :=
  let rsv := ((List.range 4).map (pgRsv s)).foldl (· + ·) 0
  let ovr := ((List.range 4).map fun g => charged s g - pgRsv s g).foldl (· + ·) 0
  65536 - 2048 - rsv - ovr - stuckCells s - s.net.leaked

/-- Condition 1 of R258. -/
def cond1 (s : State) (e q c : Nat) : Bool :=
  if e < 96 then decide (laneDepth s e + c ≤ fldi s R_SW_Q_LIM (qn e 0) 0 24)
  else decide (qDepth s e q + c ≤ fldi s R_SW_Q_LIM (qn e q) 0 24)

/-- Condition 2 of R258; HP and PP have only their fixed reserve. -/
def cond2 (s : State) (g c : Nat) : Bool :=
  if g = 4 then decide (charged s 4 + c ≤ 1024)
  else if g = 5 then decide (charged s 5 + charged s 6 + c ≤ 1024)
  else decide (charged s g + c ≤ pgRsv s g) || (decide (charged s g + c ≤ pgMax s g) && decide (c ≤ poolFree s))

/-- The profile of a queue for a colour: MIN, MAX in units of 16 cells and PMAX (R272). -/
def wred (s : State) (e q : Nat) (c : Colour) : Nat × Nat × Nat :=
  let w := match c with
    | .green => rdi s R_SW_Q_WRED_G (qn e q)
    | .yellow => rdi s R_SW_Q_WRED_Y (qn e q)
    | .red => rdi s R_SW_Q_WRED_R (qn e q)
  let pm := match c with
    | .green => fldi s R_SW_Q_PMAX (qn e q) 0 9
    | .yellow => fldi s R_SW_Q_PMAX (qn e q) 10 9
    | .red => fldi s R_SW_Q_PMAX (qn e q) 20 9
  (bitsOf w 0 16 * 4096, bitsOf w 16 16 * 4096, pm)

/-- The average of a queue, in 1/256 cell, after one update (R272).
Mark: DEDUCED (log entry 39). -/
def avgNext (s : State) (e q : Nat) : Nat :=
  let avg : Int := ((rdi s R_SW_Q_AVG (qn e q)).toNat : Int)
  let w := fldi s R_SW_Q_ECN (qn e q) 16 4
  (avg + ((qDepth s e q : Int) * 256 - avg) / (2 ^ w : Int)).toNat

/-- Update the average of a queue. -/
def avgUpdate (s : State) (e q : Nat) : State := wri s R_SW_Q_AVG (qn e q) (BitVec.ofNat 32 (avgNext s e q))

/-- `judge` of R272 on a queue whose average is up to date: drop and mark. The random number is a free
value. -/
def judgeWred (s : State) (e q : Nat) (col : Colour) (ect : Bool) : Bool × Bool × State :=
  let avg := (rdi s R_SW_Q_AVG (qn e q)).toNat
  let (mn, mx, pm) := wred s e q col
  let p := if avg < mn then 0 else if avg ≥ mx then 65536 else pm * 256 * (avg - mn) / (mx - mn)
  let ecn := bit s R_SW_Q_ECN (qn e q) 31
  let (k, s) := draw s
  let dropped := decide (Config.freeNat k % 65536 < p)
  let mark := ect && ecn && decide (qDepth s e q ≥ fldi s R_SW_Q_ECN (qn e q) 0 16 * 16)
  if dropped && ect && ecn && decide (avg < mx) then (false, true, s) else (dropped, mark, s)

/-- The counter of a congestion drop. -/
def wdropReg : Colour → Nat
  | .green => R_SW_Q_WDROP_G | .yellow => R_SW_Q_WDROP_Y | .red => R_SW_Q_WDROP_R

/-- Put a frame at the tail of a queue and count it (SW_Q_ENQ). -/
def enqueue (s : State) (e q h : Nat) (launch : Option LaunchAt) (done : Bool) : State :=
  let x : QEnt := { h := h, verified := done, rsq := false, paid := false, launch := launch, trig := false }
  stat2AddI (setQueue s e q (queueOf s e q ++ [x])) R_SW_Q_ENQ (qn e q) 1

/-- Tail candidates of a lane's queues below `k`, lowest queue first, newest frame first (R274). -/
def tailDrops (s : State) (e k : Nat) : List (Nat × Nat) :=
  (List.range k).flatMap fun q => (queueOf s e q).reverse.map fun x => (q, x.h)

/-- Remove a frame from a queue. -/
def removeEnt (s : State) (e q h : Nat) : State :=
  setQueue s e q ((queueOf s e q).filter fun x => decide (x.h ≠ h))

/-- Drop lane frames one by one until the arriving frame fits; none when they free too little (R274). -/
def makeRoom (s : State) (e c : Nat) : List (Nat × Nat) → Option State
  | [] => none
  | (q, h) :: t =>
    let s := dropAt (countTail (removeEnt s e q h) e q) e h
    if cond1 s e q c && cond2 s (egrGroup e) c then some s else makeRoom s e c t

/-- Judge one target of a frame of `c` cells (R258, R271 to R274): the state it leaves, with the target's
admission and its ECN mark. A refused target is counted at its own queue.
Mark: DEDUCED (log entry 36). -/
def admitAt (s : State) (e prio c : Nat) (col : Colour) (ect : Bool) : Bool × Bool × State :=
  let q := queueNo e prio
  let ok := cond1 s e q c && cond2 s (egrGroup e) c
  if e < 96 then
    if ok then (true, false, s)
    else match makeRoom s e c (tailDrops s e q) with
      | some s => (true, false, s)
      | none => (false, false, countTail s e q)
  else
    let s := avgUpdate s e q
    if ! ok then (false, false, statIncI s R_SW_Q_ADROP (qn e q))
    else
      let (d, m, s) := judgeWred s e q col ect
      if d then (false, false, statIncI s (wdropReg col) (qn e q))
      else (true, m, if m then statIncI s R_SW_Q_ECN_MARK (qn e q) else s)

/-! ## The spill store (R259 to R262) -/

/-- Pages a spilled frame takes: seven cells to a page (R260).
Mark: DEDUCED (log entry 36). -/
def pagesOf (f : Frame) : Nat := (f.cells + 6) / 7

/-- SW_SPILL_STAT.PAGES. -/
def pagesUsed (s : State) : Nat := ((allFrames s).filter Frame.spilled).foldl (fun a f => a + pagesOf f) 0

/-- Pages of the spill store fitted. -/
def pagesAll (s : State) : Nat := 262144 * 2 ^ fld s R_SW_SPILL_CFG 0 2

/-- SW_MODE.EFF of a group: DIRECT with no spill store in use: not fitted (R63), not powered (R64), or lost
(R256, R262). The spill store stays out of use after a loss until the next cold reset, whether or not
LOST has been cleared. -/
def bufMode (s : State) (g : Nat) : Nat :=
  if ! bit s R_SYS_PINSTAT 0 1 || s.net.spillLost then 0 else fld s R_SW_MODE (2 * g) 2

/-- Every frame in the spill store is dropped, counted and advised (R262 step 1). -/
def dropSpilled (s : State) (g : Nat → Bool) : State :=
  ((List.range 8).map fun p => 96 + p).foldl (fun s e =>
    if ! g (egrGroup e) then s
    else (List.range 8).foldl (fun s q =>
      (queueOf s e q).foldl (fun s x =>
        match frameOf s x.h with
        | some f => if f.spilled then dropAt (statInc (removeEnt s e q x.h) R_SW_SPILL_DROP) e x.h else s
        | none => s) s) s) s

end Sys2Proof.Machine
end

