-- ==== Sys2Proof/Machine/Commit.lean ====
section
/-! DEFINITION. Committing a frame to its targets: the ingress stamp and carry check, what a target drops
before admission, single stored copies and per-lane copies (R250, R264, R269 to R271, R307, R316). -/

namespace Sys2Proof.Machine

/-! ## Domain time -/

/-- gPTP domain `n`. -/
def domOf (s : State) (n : Nat) : Dom := tget Dom.init s.time.doms n

/-- Replace domain `n`. -/
def setDom (s : State) (n : Nat) (d : Dom) : State :=
  { s with time := { s.time with doms := tset Dom.init s.time.doms n d } }

/-- The time of a domain code in nanoseconds; 3 is local time. -/
def domNs (s : State) (dom : Nat) : Nat :=
  if dom < 3 then (domOf s dom).t / 65536 else s.time.ticks * 4

/-- A domain that is OFF; local time never is. -/
def domOff (s : State) (dom : Nat) : Bool := decide (dom < 3) && decide ((domOf s dom).st = .off)

/-- What a capture latches now: local time and the time of every enabled domain (R152). -/
def captureNow (s : State) : Capture :=
  { ticks := s.time.ticks,
    doms := ([0, 1, 2].filter fun n => decide ((domOf s n).st ≠ .off)).map fun n => (n, (domOf s n).t) }

/-- STAMP_TIME of Table 9.3 for a domain code.
Mark: DEDUCED (log entry 28). -/
def stampTime (s : State) (dom : Nat) : BitVec 64 :=
  let ns := domNs s dom
  BitVec.ofNat 64 (ns % 1000000000 + (ns / 1000000000 % 2 ^ 32) * 2 ^ 30 + dom * 2 ^ 62)

/-- The domain of ingress stamps (TIME_CAP.STAMP_DOM); a domain that is OFF has no time, and local time
is stamped. -/
def stampDom (s : State) : Nat :=
  let d := fld s R_TIME_CAP 0 2
  if domOff s d then 3 else d

/-! ## What a frame brings to its commit -/

/-- The stamp a first ingress gives a frame (R251, R316). -/
def stampOf (s : State) (ing : Nat) (c : Content) : Stamp :=
  let t := stampTime s (stampDom s)
  let node := fld s R_HLB_CFG 0 12
  { time := t, cap := captureNow s, node := node, ing := ing,
    carry := carryOver (leBytes 8 t.toNat ++ leBytes 2 node ++ leBytes 1 ing) (carried c), viaDomain := false }

/-- CCK_INJECT (R329): the next frame that commits at the named ingress has bit 0 of CARRY inverted. -/
def inject (s : State) (ing : Nat) (c : Word) : Word × State :=
  if bit s R_CCK_INJECT 0 31 && decide (fld s R_CCK_INJECT 0 8 = ing) then
    (c ^^^ 1, clrReg s R_CCK_INJECT 0 (fieldMask 31 1))
  else (c, s)

/-- This node's ID (Table 20.6). -/
def ownNode (s : State) : Nat := fld s R_HLB_CFG 0 12

/-- A peer's record. -/
def peerOf (s : State) (n : Nat) : Peer := tget Peer.init s.hlb.peers n

/-- Joined (R544). -/
def joined (p : Peer) : Bool := decide (p.st = .member) || decide (p.st = .behind)

/-- The joined peers, in ascending node order. -/
def joinedPeers (s : State) : List (Nat × Peer) := s.hlb.peers.filter fun x => joined x.2

/-- A domain port of a cluster (R559). -/
def clusterPort (s : State) (e : Nat) : Bool :=
  decide (96 ≤ e) && decide (e < 104) && decide (fld s R_HLB_CFG 16 2 = 1) && bit s R_HLB_CFG 0 (24 + (e - 96))

/-- What a target drops before admission: a lane in FAULT, LATCHED or SHED (R169, R176), a port without
link (R195), a LIN identifier the lane does not publish (R300), a frame from one domain port bound for
another (R561).
Mark: DEDUCED (log entry 40). -/
def preDrop (s : State) (st : Stamp) (c : Content) (prio e : Nat) : Option State :=
  if e < 96 then
    let l := (laneOf s e).st
    if l = .fault ∨ l = .latched ∨ l = .shed then some (countTail s e (queueNo e prio))
    else match c with
      | .lin pid _ =>
        let x := tget 0 s.tables.lin (ingPipe e * 1536 + 64 * (e % 24) + pid.toNat % 64)
        if pers s e = 2 ∧ ¬ bb x 48 then some (countTail s e (queueNo e prio)) else none
      | _ => none
  else if e < 104 then
    if st.viaDomain && clusterPort s e then some (statInc s R_HLB_FWD_SH)
    else if ! portLink s (e - 96) then some (statIncI s R_PORT_TX_LINKDROP (e - 96))
    else none
  else none

/-- The launch time of a frame at commit (R307): dropped when too far or in a domain that is OFF, or when
already missed; `none` as the first part keeps the frame. -/
def launchAtCommit (s : State) (e : Nat) (l : Option LaunchAt) : Bool × Option LaunchAt × State :=
  match l with
  | none => (true, none, s)
  | some x =>
    if e ≥ 104 ∨ (e < 96 ∧ pers s e = 2) then (true, none, s)     -- R300: not on a LIN lane
    else if domOff s x.dom || decide (x.ns > domNs s x.dom + 1000000000) then (false, none, statIncI s R_SCH_LAUNCH_FAR e)
    else if x.ns + fld s R_SCH_LAUNCH 0 20 < domNs s x.dom then
      if bit s R_SCH_LAUNCH 0 31 then (true, none, statIncI s R_SCH_LAUNCH_LATE e)
      else (false, none, statIncI s R_SCH_LAUNCH_MISS e)
    else (true, some x, s)

/-- A target whose frames are stored once: ports, T1S lanes, HP and PP (R269). -/
def sharedTarget (s : State) (e : Nat) : Bool := decide (96 ≤ e) || decide (pers s e = 3)

/-- A target judged for admission: whether it takes the frame, its mark and its launch time. -/
def tryTarget (s : State) (f : Frame) (st : Stamp) (l : Option LaunchAt) (e : Nat) : Option (Bool × Option LaunchAt) × State :=
  let prio := actPrio f.action
  match preDrop s st f.content prio e with
  | some s => (none, rsqAdvise s e f)
  | none =>
    let (keep, l, s) := launchAtCommit s e l
    if ! keep then (none, rsqAdvise s e f)
    else
      let (ok, mark, s) := admitAt s e prio f.cells f.colour (ecnCapable f.content)
      if ok then (some (mark, l), s) else (none, rsqAdvise s e f)

/-- Store a frame under the next handle. -/
def storeFrame (s : State) (f : Frame) : Nat × State :=
  let h := s.net.nextH
  let s := { s with net := { s.net with nextH := h + 1 } }
  (h, fcCheck (setFrame s h (some f)) f.ing)

/-- One separate copy for a CAN or LIN lane (R270).
Mark: DEDUCED (log entry 36). -/
def commitCopy (s : State) (f : Frame) (st : Stamp) (l : Option LaunchAt) (e : Nat) : Bool × State :=
  match tryTarget s f st l e with
  | (none, s) => (false, s)
  | (some (_, l), s) =>
    let (h, s) := storeFrame s { f with ref := 1, owner := egrOwner e, charge := egrGroup e }
    (true, enqueue s e (queueNo e (actPrio f.action)) h l false)

/-- Judge the shared targets in ascending order.
Mark: DEDUCED (log entry 36). -/
def judgeShared (f : Frame) (st : Stamp) (l : Option LaunchAt) :
    List Nat → State → List (Nat × Bool × Option LaunchAt) × State
  | [], s => ([], s)
  | e :: t, s =>
    match tryTarget s f st l e with
    | (none, s) => judgeShared f st l t s
    | (some (m, l'), s) =>
      let (r, s) := judgeShared f st l t s
      ((e, m, l') :: r, s)

/-- The single stored copy: REFCNT is the number of targets that took it, its cells are charged to the
group of the lowest of them, or to HP or PP (R257, R269). -/
def commitShared (s : State) (f : Frame) (st : Stamp) (l : Option LaunchAt) (es : List Nat) : Nat × State :=
  let (adm, s) := judgeShared f st l es s
  match adm with
  | [] => (0, s)
  | (e, _) :: _ =>
    let f := { f with
      ref := adm.length, ce := adm.any fun x => x.2.1,
      mcast := decide (adm.length > 1), owner := if adm.length > 1 then .mcast else egrOwner e, charge := egrGroup e }
    let (h, s) := storeFrame s f
    (adm.length, adm.foldl (fun s x => enqueue s x.1 (queueNo x.1 (actPrio f.action)) h x.2.2 false) s)

/-- Commit copies for CAN and LIN lanes; the number taken.
Mark: DEDUCED (log entry 36). -/
def commitCopies (f : Frame) (st : Stamp) (l : Option LaunchAt) : List Nat → State → Nat × State
  | [], s => (0, s)
  | e :: t, s =>
    let (ok, s) := commitCopy s f st l e
    let (n, s) := commitCopies f st l t s
    (n + b2n ok, s)

/-- Commit a frame to its targets; the number of targets that took it. -/
def commitFrame (s : State) (f : Frame) (st : Stamp) (l : Option LaunchAt) (targets : List Nat) : Nat × State :=
  let (n, s) := commitCopies f st l (targets.filter fun e => ! sharedTarget s e) s
  let (m, s) := commitShared s f st l (targets.filter (sharedTarget s))
  (n + m, s)

/-- A frame of a stamp and content before its targets are judged. -/
def frameFrom (st : Stamp) (c : Content) (action : BitVec 48) (stream : Nat) (strEn : Bool) (col : Colour)
    (seq : Option Nat) (vid : Nat) (untag : BitVec 106) : Frame :=
  { time := st.time, cap := st.cap, node := st.node, ing := st.ing, xform := actXform action, content := c, stream := stream,
    strEn := strEn, action := action, carry := st.carry, colour := col, ce := false, seq := seq, vid := vid,
    cells := cellsOf (carried c).length, ref := 1, owner := .egr 0, mcast := false, untag := untag, charge := 0, spilled := false, sample := [], bad := false, lost := 0 }

/-! ## Frames the device itself sends through PP -/

/-- The content of a frame of ENTRY_CONFIG: FTYPE, LEN, ID and DATA (Table 19.5). What else an XL frame has is not stated:
free values, from draws `i` and `j`.
Mark: DEDUCED (log entry 70). -/
def entryContent (i j : Nat) (w : List Word) : Content :=
  let w0 := w.getD 0 0
  let id := w.getD 1 0
  let len := bitsOf w0 16 8
  let data := (leBytes 4 (w.getD 2 0).toNat ++ leBytes 4 (w.getD 3 0).toNat).take len
  match bitsOf w0 11 3 with
  | 0 => .eth data
  | 3 => .xl (id.setWidth 11) ((Config.freeWord i).setWidth 8) (((Config.freeWord i) >>> 8).setWidth 8) (Config.freeWord j) (Config.freeBit i) data
  | 4 => .lin (id.setWidth 8) data
  | ft => .can (id.setWidth 29) (decide (bitsOf id 29 1 = 1)) (decide (ft = 2)) (decide (bitsOf id 31 1 = 1)) false (BitVec.ofNat 4 len) data

/-- Send one unlock or lock frame through PP to its lane; DEST 0xFF is unused. The queue is not stated: a
free value. -/
def sendEntryFrame (s : State) (w : List Word) : State :=
  let dest := bitsOf (w.getD 0 0) 0 8
  if dest ≥ 96 then s
  else
    let (k, s) := draw s
    let (i, s) := draw s
    let (j, s) := draw s
    let c := entryContent i j w
    let st := stampOf s 105 c
    let act : BitVec 48 := BitVec.ofNat 48 (1 + 4 + dest * 16 + (Config.freeNat k % 8) * 2 ^ 40)
    (commitFrame s (frameFrom st c act 0 false .green none 0 0) st none [dest]).2

/-- Send the four frames of a list in order. -/
def sendEntryFrames (s : State) (l : List Word) : State :=
  (List.range 4).foldl (fun s k => sendEntryFrame s ((l.drop (4 * k)).take 4)) s

end Sys2Proof.Machine
end

