-- ==== Sys2Proof/Machine/WheelOps.lean ====
section
/-! DEFINITION. Shared operations of chapter 17: standstill, distance, angle events, vault holds, and
bolt moves. -/

namespace Sys2Proof.Machine

/-! ## Vault holds and gates (R89 to R93) -/

/-- The state of a gateable block. -/
def gateOf (s : State) (b : Nat) : GateSt := tget .on s.power.gates b

/-- Replace the state of a block. -/
def setGate (s : State) (b : Nat) (g : GateSt) : State :=
  { s with power := { s.power with gates := tset .on s.power.gates b g } }

/-- The vault holds a block (PWR_HOLD). -/
def held (s : State) (b : Nat) : Bool := bit s R_PWR_HOLD 0 b

/-- The gate a block's request bits ask for: the power gate applies when both are set (R89). -/
def gateWanted (s : State) (b : Nat) : Option GateSt :=
  if bit s R_PWR_GATE_PWR 0 b then some .pwrGated
  else if bit s R_PWR_GATE_CLK 0 b then some .clkGated else none

/-- A block works: neither gated nor pending. -/
def ungated (s : State) (b : Nat) : Bool := decide (gateOf s b = .on)

/-- The normal world may start work on a block: it is neither gated nor pending, and the vault does not hold it (R92,
R93). -/
def nwOpen (s : State) (b : Nat) : Bool := ungated s b && ! held s b

/-- The pipeline tables and the lanes and ports of a group that lost its power. -/
def loseGroup (s : State) (g : Nat) : State :=
  { s with
    tables := { s.tables with
      can := s.tables.can.filter fun x => decide (x.1 / 49152 ≠ g)
      lin := s.tables.lin.filter fun x => decide (x.1 / 1536 ≠ g)
      hash := s.tables.hash.filter fun x => decide (x.1 / 16512 ≠ g)
      pass := tset Pass.init s.tables.pass g Pass.init }
    lanes := s.lanes.filter fun x => decide (x.1 / 24 ≠ g)
    ports := s.ports.filter fun x => decide (x.1 % 4 ≠ g) }

/-- What a power-gated block loses (R89): a bulk engine its key words and LOADED, STORE the status of its last job,
LANEAUTH its cached keys, TTU its armed channels, a port group what its pipeline, lanes and ports hold. The configuration
registers of the banks stand outside the blocks and stay.
Mark: DEDUCED (log entry 21). -/
def losePower (s : State) (b : Nat) : State :=
  if b < 2 then
    let s := { s with cipher := { s.cipher with engs := tset Eng.init s.cipher.engs b { tget Eng.init s.cipher.engs b with written := 0 } } }
    (List.range 8).foldl (fun s k => wr s (R_CIPH_KEYW0 + 0x100 * b + 4 * k) 0) (setFld s (R_CIPH_KCTL + 0x100 * b) 16 1 0)
  else if b = 2 then { s with cipher := { s.cipher with storeLast := 0 } }
  else if b = 3 then { s with cipher := { s.cipher with cache := [] } }
  else if b = 5 then
    (List.range 32).foldl (fun s c =>
      if bit s (R_TRG_CFG + 0x20 * c) 0 31 then s else setFld s (R_TRG_CFG + 0x20 * c) 0 4 0) s
  else if 10 ≤ b then loseGroup s (b - 10)
  else s

/-- A feedback channel that loses its clock or power stops (R484): excitation off, its outputs low, VALID
clear and its bolts UNKNOWN. -/
def stopChannel (s : State) (n : Nat) : State :=
  let s := { s with wheels := { s.wheels with fbs := tset FbChan.init s.wheels.fbs n FbChan.init } }
  let low : BitVec 4 := BitVec.ofNat 4
    (((List.range 4).filter fun k => decide (fld s R_FB_CMPO_MAP (2 * k) 2 = n)).foldl (fun a k => a + 2 ^ k) 0)
  { s with wheels := { s.wheels with
      cmpo := s.wheels.cmpo &&& ~~~ low, pulses := s.wheels.pulses &&& ~~~ low,
      bolts := (List.range 4).foldl (fun t b =>
        if fld s (R_FB_BOLT_CFG + 0x20 * b) 0 2 = n ∧ fld s (R_FB_BOLT_CFG + 0x20 * b) 2 2 ≠ 0 then
          tset Bolt.init t b { tget Bolt.init t b with st := .unknown } else t) s.wheels.bolts } }

/-- The gate of a block takes effect (R89, R90). -/
def gateNow (s : State) (b : Nat) : State :=
  match gateWanted s b with
  | none => setGate s b .on
  | some g =>
    let s := setGate s b g
    let s := if g = .pwrGated then losePower s b else s
    if 6 ≤ b ∧ b ≤ 9 then stopChannel s (b - 6) else s

/-- The vault takes a hold: a gated block is ungated for it and its request waits (R92).
Mark: DEDUCED (log entry 21). -/
def holdBlock (s : State) (b : Nat) : State :=
  let s := orReg s R_PWR_HOLD 0 (fieldMask b 1)
  if gateOf s b = .on then s else setGate s b .pending

/-- Answer the BLOCK_GATE commands that wait for a block (R90).
Mark: DEDUCED (log entry 21). -/
def answerGates (s : State) (b : Nat) : State :=
  let ws := s.disp.gateWaits.filter fun x => decide (x.2 = b)
  let s := { s with disp := { s.disp with gateWaits := s.disp.gateWaits.filter fun x => decide (x.2 ≠ b) } }
  ws.foldl (fun s x => answer (setCur s x.1.ctx) x.1.req 0x0203 .ok []) s

/-- The vault releases a block: a pending gate takes effect, the commands that wait for it are answered and GATE_DONE is
raised (R90 to R92).
Mark: DEDUCED (log entry 21). -/
def releaseBlock (s : State) (b : Nat) : State :=
  let s := clrReg s R_PWR_HOLD 0 (fieldMask b 1)
  if gateOf s b = .pending then raise (answerGates (gateNow s b) b) .gateDone else s

/-! ## Trackers -/

/-- Tracker `n`. -/
def ttOf (s : State) (n : Nat) : Tracker := tget Tracker.init s.wheels.tts n

/-- Replace tracker `n`. -/
def setTt (s : State) (n : Nat) (t : Tracker) : State :=
  { s with wheels := { s.wheels with tts := tset Tracker.init s.wheels.tts n t } }

/-- The role of a tracker (TTn_CFG.ROLE): 1 WHEEL. -/
def ttRole (s : State) (n : Nat) : Nat := fld s (R_TT_CFG + 0x40 * n) 0 2
def ttN (s : State) (n : Nat) : Nat := fld s (R_TT_CFG + 0x40 * n) 24 8
def ttG1 (s : State) (n : Nat) : Nat := fld s (R_TT_CFG + 0x40 * n) 16 8
def ttM1 (s : State) (n : Nat) : Nat := fld s (R_TT_CFG + 0x40 * n) 12 2
def ttM0 (s : State) (n : Nat) : Nat := fld s (R_TT_CFG + 0x40 * n) 8 2
def ttTolerant (s : State) (n : Nat) : Bool := bit s (R_TT_CFG + 0x40 * n) 0 3
def ttTol (s : State) (n : Nat) : Nat := fld s (R_TT_CFG2 + 0x40 * n) 8 7
def ttCirc (s : State) (n : Nat) : Nat := fld s (R_TT_CFG2 + 0x40 * n) 16 16
/-- NR, the real teeth of a wheel. -/
def ttNR (s : State) (n : Nat) : Nat := ttN s n - ttM0 s n - ttM1 s n

/-- A WHEEL tracker that is neither OFF nor in FAULT (R465). -/
def healthy (s : State) (n : Nat) : Bool :=
  decide (ttRole s n = 1) && (decide ((ttOf s n).st = .search) || decide ((ttOf s n).st = .sync))

/-- How many WHEEL trackers are healthy. -/
def healthyCount (s : State) : Nat := ((List.range 6).filter (healthy s)).length

/-- Standstill (R465): at least QUORUM WHEEL trackers are healthy and none reports motion; a joined cluster
peer that reports MOTION makes it false (Table 20.5). -/
def standstill (s : State) : Bool :=
  ! s.hlb.motionAny && decide (fld s R_ANG_STILL 16 4 ≤ healthyCount s) &&
  (List.range 6).all fun n => ! (healthy s n && (ttOf s n).moving)

/-- Some tracker reports motion (R73). -/
def anyMotion (s : State) : Bool := (List.range 6).any fun n => healthy s n && (ttOf s n).moving

/-- A tracker of this node or a joined cluster peer reports motion: the immobiliser is not set (R73, R552). -/
def motionNow (s : State) : Bool := anyMotion s || s.hlb.motionAny

/-- STILL_QUORUM is raised on each entry into too few healthy WHEEL trackers (R466).
Mark: DEDUCED (log entry 52). -/
def quorumCheck (s : State) : State :=
  let low := decide (healthyCount s < fld s R_ANG_STILL 16 4)
  let was := s.wheels.quorumLow
  let s := { s with wheels := { s.wheels with quorumLow := low } }
  if low && ! was then raise s .stillQuorum else s

/-- The odometer tracker (R463): PRI, or ALT while PRI is OFF or in FAULT and ALT is healthy. -/
def odoTracker (s : State) : Option Nat :=
  let pri := fld s R_ANG_ODO 0 3
  let alt := fld s R_ANG_ODO 4 3
  if pri < 6 ∧ ((ttOf s pri).st = .search ∨ (ttOf s pri).st = .sync) then some pri
  else if alt < 6 ∧ healthy s alt then some alt else none

/-- A change of odometer tracker sets the remainder to 0 (R463). -/
def odoGuard (old new : State) : State :=
  if odoTracker old = odoTracker new then new else { new with wheels := { new.wheels with acc := 0 } }

/-- The distance advances by one counted tooth of the odometer tracker (R463, R464). -/
def addDistance (s : State) (n : Nat) : State :=
  let w := s.wheels
  let acc := w.acc + ttCirc s n
  let nr := ttNR s n
  let d := acc / nr
  let odo := min (w.odo + d) (2 ^ 48 - 1)
  let trip := if s.ledger.trip.isSome then min (w.tripMm + d) (2 ^ 48 - 1) else w.tripMm
  let s' := { s with wheels := { w with acc := acc % nr, odo := odo, tripMm := trip } }
  if odo = 2 ^ 48 - 1 ∧ w.odo ≠ 2 ^ 48 - 1 then raise s' .odoFinal else s'

/-- TTn_SPEED (R462). -/
def ttSpeed (s : State) (n : Nat) : Nat :=
  let t := ttOf s n
  if t.speedOff ∨ t.p1 = 0 ∨ ttN s n = 0 then 0
  else min 65535 (if ttRole s n = 1 then ttCirc s n * 90000000 / (ttN s n * t.p1)
                  else 15000000000 / (ttN s n * t.p1))

/-- The distance sample (R469): at most one per second of ledger time, skipped when the queue is full.
Mark: DEDUCED (log entry 47). -/
def distSample (s : State) (lost : Bool) : State :=
  if s.ledger.trip.isNone then s
  else if s.wheels.lastSample = some s.ledger.sec ∨ s.ledger.queue.length ≥ 64 then statInc s R_ANG_DIST_SKIP
  else
    let n := odoTracker s
    let t := n.getD 7
    let sync := if lost then 0 else match n with
      | some k => if (ttOf s k).st = .sync then (if ttTolerant s k then 2 else 1) else 0
      | none => 0
    let sp := match n with
      | some k => ttSpeed s k
      | none => 0
    let s := { s with wheels := { s.wheels with lastSample := some s.ledger.sec } }
    queueEntry s (.distSample s.wheels.odo s.wheels.tripMm t sync sp)

/-! ## Angle events (R467 to R470) -/

/-- The two words of angle-event entry `k` (Table 17.3). -/
def evtLo (s : State) (k : Nat) : Word := rd s (R_ANG_EVT_LO + 8 * k)
def evtHi (s : State) (k : Nat) : Word := rd s (R_ANG_EVT_HI + 8 * k)
def evtValid (s : State) (k : Nat) : Bool := decide (bitsOf (evtLo s k) 0 1 = 1)
def evtTracker (s : State) (k : Nat) : Nat := bitsOf (evtLo s k) 1 3
def evtAct (s : State) (k : Nat) : Nat := bitsOf (evtLo s k) 4 3
def evtOut (s : State) (k : Nat) : Nat := bitsOf (evtLo s k) 7 2
/-- The entry's angle in 1/1024 pitch. -/
def evtAngle (s : State) (k : Nat) : Nat := bitsOf (evtLo s k) 10 8 * 1024 + bitsOf (evtLo s k) 18 10
def evtRevDiv (s : State) (k : Nat) : Nat := bitsOf (evtHi s k) 0 16

/-- Drive SPD output `o`. -/
def setSpd (s : State) (o : Nat) (high : Bool) : State :=
  let m : BitVec 4 := BitVec.ofNat 4 (2 ^ o)
  { s with wheels := { s.wheels with spd := if high then s.wheels.spd ||| m else s.wheels.spd &&& ~~~ m } }

/-- Entry `k` acts (Table 17.3). -/
def evtDo (s : State) (k : Nat) : State :=
  match evtAct s k with
  | 1 => setSpd s (evtOut s k) true
  | 2 => setSpd s (evtOut s k) false
  | 3 => setSpd s (evtOut s k) (decide (bitsOf (s.wheels.spd.setWidth 32) (evtOut s k) 1 = 0))
  | 4 => distSample s false
  | 5 => raise (setFld s R_ANG_EVT_LAST 0 6 k) .angEvent
  | _ => s

/-- One passage of entry `k`'s angle: it acts on every REV_DIV-th (R468).
Mark: DEDUCED (log entry 52). -/
def evtPass (s : State) (k : Nat) : State :=
  let p := tget 0 s.wheels.passes k + 1
  let full := decide (p ≥ evtRevDiv s k)
  let s := { s with wheels := { s.wheels with
      passes := tset 0 s.wheels.passes k (if full then 0 else p), fired := tset false s.wheels.fired k true } }
  if full then evtDo s k else s

/-- The valid entries of tracker `n`, ascending. -/
def evtsOf (s : State) (n : Nat) : List Nat :=
  (List.range 64).filter fun k => evtValid s k && decide (evtTracker s k = n)

/-- Insert an entry into a list in ascending angle order after `from_`, ties in ascending entry order. -/
def evtInsert (s : State) (from_ m k : Nat) : List Nat → List Nat
  | [] => [k]
  | j :: t =>
    if (evtAngle s k + m - from_) % m < (evtAngle s j + m - from_) % m then k :: j :: t
    else j :: evtInsert s from_ m k t

/-- The entries of tracker `n` whose angles a counted tooth has set the angle past or to, in ascending
angle order, with those already reached left out (R468). -/
def evtsPassed (s : State) (n old new : Nat) : List Nat :=
  let m := 1024 * ttN s n
  let d := (new + m - old) % m
  ((evtsOf s n).filter fun k =>
    let x := (evtAngle s k + m - old) % m
    decide (0 < x) && decide (x ≤ d) && ! tget false s.wheels.fired k).foldl (fun l k => evtInsert s old m k l) []

/-- A counted tooth fires the entries it passes; those strictly before it are late (R468). -/
def evtsAtTooth (s : State) (n old new : Nat) : State :=
  let s := (evtsPassed s n old new).foldl (fun s k =>
    let s := if evtAngle s k = new then s else statInc s R_ANG_LATE
    evtPass s k) s
  { s with wheels := { s.wheels with fired := (evtsOf s n).foldl (fun t k => tset false t k false) s.wheels.fired } }

/-- Outside SYNC, each DIST entry counts teeth and fires on runs of NR x REV_DIV (R469). -/
def distTeeth (s : State) (n : Nat) : State :=
  ((evtsOf s n).filter fun k => decide (evtAct s k = 4)).foldl (fun s k =>
    let c := tget 0 s.wheels.passes (64 + k) + 1
    let full := decide (c ≥ ttNR s n * evtRevDiv s k)
    let s := { s with wheels := { s.wheels with passes := tset 0 s.wheels.passes (64 + k) (if full then 0 else c) } }
    if full then distSample s false else s) s

/-- The SPD outputs that a tracker's entries drive go low, their safe level, and the passages start
again (R458). -/
def spdSafe (s : State) (n : Nat) : State :=
  let s := ((evtsOf s n).filter fun k => decide (1 ≤ evtAct s k) && decide (evtAct s k ≤ 3)).foldl
    (fun s k => setSpd s (evtOut s k) false) s
  { s with wheels := { s.wheels with
      passes := (evtsOf s n).foldl (fun t k => tset 0 (tset 0 t k 0) (64 + k) 0) s.wheels.passes
      fired := (evtsOf s n).foldl (fun t k => tset false t k false) s.wheels.fired } }

/-- The tracker starts its search again. -/
def searchFrom (t : Tracker) : Tracker :=
  { t with st := .search, run := 0, gap := false, bad := false, absorb := none, pitches := 0, discRow := 0 }

/-- A tracker in SYNC loses it (R458, R459): SEARCH, the reason, SYNC_LOSS and safe outputs; the odometer
tracker writes a sample with SYNC 0 (R469). -/
def loseSync (s : State) (n reason : Nat) : State :=
  let s := setTt s n { searchFrom (ttOf s n) with loss := reason }
  let s := raise (statInc (spdSafe s n) (R_TT_LOSS + 0x40 * n)) .syncLoss
  if odoTracker s = some n then distSample s true else s

/-- Start every tracker whose ROLE is not OFF in SEARCH, reporting motion when it is a WHEEL (R465,
R483).
Mark: DEDUCED (log entry 52). -/
def startTracker (s : State) (n : Nat) : State :=
  if ttRole s n = 0 then setTt s n Tracker.init
  else setTt s n { Tracker.init with st := .search, moving := decide (ttRole s n = 1), motAt := s.time.ticks }

/-- Start all six trackers (start-up step 5). -/
def startTrackers (s : State) : State := quorumCheck ((List.range 6).foldl startTracker s)

/-! ## Feedback channels -/

/-- Channel `n`. -/
def fbOf (s : State) (n : Nat) : FbChan := tget FbChan.init s.wheels.fbs n

/-- Replace channel `n`. -/
def setFb (s : State) (n : Nat) (c : FbChan) : State :=
  { s with wheels := { s.wheels with fbs := tset FbChan.init s.wheels.fbs n c } }

/-- FBn_EXC is on (R471, R58, R483): EXC_EN is 1, the channel's clock runs, and the device is neither frozen nor before
start-up step 5. -/
def excOn (s : State) (n : Nat) : Bool :=
  bit s (R_FB_CFG2 + 0x100 * n) 0 31 && clocked s && decide (s.power.phase = .awake ∨ 5 ≤ s.boot.step) &&
    (decide (gateOf s (6 + n) = .on) || (decide (gateOf s (6 + n) = .pending)))

/-- The normal world may start a conversion of channel `n` (R92, R93): its excitation is on, and neither the channel nor
the ADC is gated, pending or held. -/
def convOpen (s : State) (n : Nat) : Bool := excOn s n && nwOpen s (6 + n) && nwOpen s 4

/-- Drive CMPO output `k`. -/
def setCmpo (s : State) (k : Nat) (high : Bool) : State :=
  if k ≥ 4 then s else
  let m : BitVec 4 := BitVec.ofNat 4 (2 ^ k)
  { s with wheels := { s.wheels with
      cmpo := if high then s.wheels.cmpo ||| m else s.wheels.cmpo &&& ~~~ m,
      pulses := if high then s.wheels.pulses else s.wheels.pulses &&& ~~~ m } }

/-- The channel to which CMPO output `k` is bound (FB_CMPO_MAP.CH). -/
def cmpoChan (s : State) (k : Nat) : Nat := fld s R_FB_CMPO_MAP (2 * k) 2

/-- CMPO output `k` is in PULSE mode (FB_CMPO_MAP.MODE). -/
def cmpoPulse (s : State) (k : Nat) : Bool := bit s R_FB_CMPO_MAP 0 (8 + k)

/-- Every output bound to channel `n` goes low. -/
def cmpoSafe (s : State) (n : Nat) : State :=
  ((List.range 4).filter fun k => decide (cmpoChan s k = n)).foldl (fun s k => setCmpo s k false) s

/-- The position as FBn_POS: turn count and angle, as a signed number (R472). -/
def fbPos (c : FbChan) : Int := c.turn * 65536 + c.theta

/-! ## Bolts -/

/-- Bolt `b`. -/
def boltOf (s : State) (b : Nat) : Bolt := tget Bolt.init s.wheels.bolts b

/-- Replace bolt `b`. -/
def setBolt (s : State) (b : Nat) (x : Bolt) : State :=
  { s with wheels := { s.wheels with bolts := tset Bolt.init s.wheels.bolts b x } }

def boltCh (s : State) (b : Nat) : Nat := fld s (R_FB_BOLT_CFG + 0x20 * b) 0 2
/-- FB_BOLTb_CFG.KIND: 0 none, 1 STEERING, 2 KEYSAFE, 3 OTHER. -/
def boltKind (s : State) (b : Nat) : Nat := fld s (R_FB_BOLT_CFG + 0x20 * b) 2 2
def boltRelOut (s : State) (b : Nat) : Nat := fld s (R_FB_BOLT_CFG + 0x20 * b) 4 3
def boltEngOut (s : State) (b : Nat) : Nat := fld s (R_FB_BOLT_CFG + 0x20 * b) 8 3
/-- The band in position units: BAND x 1/256 turn. -/
def boltBand (s : State) (b : Nat) : Int := (fld s (R_FB_BOLT_CFG + 0x20 * b) 12 8 * 256 : Nat)
def boltRel (s : State) (b : Nat) : Int := ((rd s (R_FB_BOLT_REL + 0x20 * b)).toNat : Nat)
def boltEng (s : State) (b : Nat) : Int := ((rd s (R_FB_BOLT_ENG + 0x20 * b)).toNat : Nat)
def boltTrg (s : State) (b : Nat) : Nat := fld s (R_FB_BOLT_CFG2 + 0x20 * b) 0 5

/-- A move of the bolt runs. -/
def boltMoving (x : Bolt) : Bool := decide (x.st = .releasing) || decide (x.st = .engaging)

/-- The declared bolts. -/
def bolts (s : State) : List Nat := (List.range 4).filter fun b => decide (boltKind s b ≠ 0)

/-- The state a position gives an idle bolt (R478). -/
def boltAt (s : State) (b : Nat) (p : Int) : BoltSt :=
  if (p - boltRel s b).natAbs ≤ (boltBand s b).natAbs then .released
  else if (p - boltEng s b).natAbs ≤ (boltBand s b).natAbs then .engaged else .unknown

/-- The key-safe or steering bolt, when declared. -/
def boltOfKind (s : State) (k : Nat) : Option Nat := (List.range 4).find? fun b => decide (boltKind s b = k)

/-- The steering-lock bolt is confirmed released; a vehicle that declares none passes (Table 3.2).
Mark: DEDUCED (log entry 54). -/
def steeringReleased (s : State) : Bool :=
  match boltOfKind s 1 with
  | some b => decide ((boltOf s b).st = .released)
  | none => true

/-- Every declared bolt stands in its locked position (Table 3.2). -/
def allLocked (s : State) : Bool := (bolts s).all fun b => decide ((boltOf s b).st = .engaged)

/-- What a move needs (R479).
Mark: DEDUCED (log entry 54). -/
def canMove (s : State) (b : Nat) (engage : Bool) : Bool :=
  let c := fbOf s (boltCh s b)
  decide (boltKind s b ≠ 0) && c.valid && decide (c.fault = 0) && ! s.power.actLow &&
  (! engage || standstill s) && ! (engage && decide (boltKind s b = 1) && decide (mode s = .drive)) &&
  ! boltMoving (boltOf s b)

/-- Another bolt's move still needs the shared holds. -/
def otherMoves (s : State) (b : Nat) (p : Nat → Bool) : Bool :=
  (bolts s).any fun k => decide (k ≠ b) && boltMoving (boltOf s k) && p k

/-- The CTL word of a bolt's vault entry (R479): VALID, direction, output, CLEAR, ONCE. -/
def vaultCtl (up : Bool) (out : Nat) : Word :=
  fieldVal 0 1 1 ||| fieldVal 1 2 (if up then 1 else 2) ||| fieldVal 3 2 out ||| fieldVal 5 2 2 ||| fieldVal 7 1 1

/-- The vault arms its trigger channel for a move (R479 step 3): ACT CTRL on channel `n` in local time, from now on, each
PERIOD_US, without a count. The first target and the count are not stated.
Mark: DESIGN CHOICE (log entry 54). -/
def armMove (s : State) (t n us : Nat) : State :=
  let ns := s.time.ticks * 4 % (2 ^ 32 * 1000000000)
  let s := wr (wr s (R_TRG_T_SEC + 0x20 * t) (BitVec.ofNat 32 (ns / 1000000000))) (R_TRG_T_NS + 0x20 * t) (BitVec.ofNat 32 (ns % 1000000000))
  let s := wr (wr s (R_TRG_PERIOD + 0x20 * t) (BitVec.ofNat 32 (us * 1000))) (R_TRG_COUNT + 0x20 * t) 0
  let s := wr s (R_TRG_CFG + 0x20 * t) (fieldVal 31 1 1 ||| fieldVal 20 2 3 ||| fieldVal 8 12 n ||| fieldVal 0 4 3)
  { s with time := { s.time with trgs := tset (0, 0) s.time.trgs t (ns, us * 1000), trgPast := tset false s.time.trgPast t false } }

/-- A bolt move starts (R479): holds, entries 14 and 15, the trigger channel, and the drive.
Mark: DEDUCED (log entry 54). -/
def startMove (s : State) (b : Nat) (engage undo : Bool) : State :=
  let n := boltCh s b
  let tgt := if engage then boltEng s b else boltRel s b
  let oth := if engage then boltRel s b else boltEng s b
  let out := if engage then boltEngOut s b else boltRelOut s b
  let up := decide (oth < tgt)
  let far := if up then tgt + 2 * boltBand s b else tgt - 2 * boltBand s b
  let s := holdBlock (holdBlock (holdBlock s (6 + n)) 4) 5
  let v := R_FB0_VCMP_POS + 0x100 * n
  let s := wr (wr s v (BitVec.ofInt 32 tgt)) (v + 4) (vaultCtl up out)
  let s := wr (wr s (v + 8) (BitVec.ofInt 32 far)) (v + 12) (vaultCtl up out)
  let t := boltTrg s b
  let s := armMove s t n (fld s (R_FB_BOLT_CFG2 + 0x20 * b) 16 16)
  let s := setCmpo s out true
  let x := boltOf s b
  setBolt s b { x with st := if engage then .engaging else .releasing, fired14 := false, inBand := 0, undo := undo,
                       lastEngage := if undo then x.lastEngage else engage,
                       attempts := if undo then x.attempts else x.attempts + 1, want := if undo then x.want else none }

/-- The end of a move: drive low, trigger OFF, entries 14 and 15 clear, holds released (R479). -/
def endMove (s : State) (b : Nat) (st : BoltSt) : State :=
  let n := boltCh s b
  let s := setCmpo (setCmpo s (boltRelOut s b) false) (boltEngOut s b) false
  let s := setBolt s b { boltOf s b with st := st, fired14 := false, inBand := 0 }
  let v := R_FB0_VCMP_POS + 0x100 * n
  let s := wr (wr (wr (wr s v 0) (v + 4) 0) (v + 8) 0) (v + 12) 0
  let s := wr s (R_TRG_CFG + 0x20 * boltTrg s b) 0
  let s := if otherMoves s b (fun k => decide (boltCh s k = n)) then s else releaseBlock s (6 + n)
  if otherMoves s b (fun _ => true) then s else releaseBlock (releaseBlock s 4) 5

/-- A move ends under R480: FAULT and BOLT_FAULT. -/
def faultMove (s : State) (b : Nat) : State := raise (endMove s b .fault) .boltFault

/-- A channel enters FAULT (R473): its outputs go low, its bolt moves end, VALID clears, and it is
counted. In a channel already in FAULT the first code stays, and the clean count restarts. -/
def chanFault (s : State) (n code : Nat) : State :=
  let c := fbOf s n
  if c.fault ≠ 0 then setFb s n { c with clean := 0 }
  else
    let s := setFb s n { c with fault := code, valid := false, clean := 0 }
    let s := cmpoSafe s n
    let s := (List.range 4).foldl (fun s b =>
      if boltKind s b ≠ 0 ∧ boltCh s b = n ∧ boltMoving (boltOf s b) then faultMove s b else s) s
    raise (statInc s (R_FB_FLT_CNT + 0x100 * n)) .fbFault

/-- Request a move of bolt `b` by the vault itself: it starts at once where it can, and otherwise waits
as an aborted attempt would (R479, R481). A new request counts its attempts anew.
Mark: DEDUCED (log entry 54). -/
def requestMove (s : State) (b : Nat) (engage : Bool) : State :=
  if boltKind s b = 0 then s else
  let s := setBolt s b { boltOf s b with attempts := 0, want := some engage, lastEngage := engage }
  if canMove s b engage then startMove s b engage false else s

/-- Request an engage of every declared bolt (R531 FORCE_LOCK, Table 15.7 CLOSE). -/
def engageAll (s : State) : State := (bolts s).foldl (fun s b => requestMove s b true) s

/-- Start what waits for a bolt once its conditions hold again (R481): at most three attempts.
Mark: DEDUCED (log entry 54). -/
def retryBolt (s : State) (b : Nat) : State :=
  match (boltOf s b).want with
  | none => s
  | some e =>
    if (boltOf s b).attempts ≥ 3 then
      raise (setBolt s b { boltOf s b with want := none }) .boltFault
    else if canMove s b e then startMove s b e false else s

/-- Every waiting bolt tries again. -/
def retryBolts (s : State) : State := (bolts s).foldl retryBolt s

/-- R97 step 1 and R483: every actuator output takes its safe level. -/
def actuatorsSafe (s : State) : State :=
  { s with wheels := { s.wheels with
      cmpo := 0, pulses := 0, spd := 0, fbs := [],
      bolts := (List.range 4).foldl (fun t b =>
        tset Bolt.init t b { tget Bolt.init t b with st := .unknown, fired14 := false, inBand := 0, undo := false,
                                                     attempts := 0, want := none }) s.wheels.bolts } }

end Sys2Proof.Machine
end

