-- ==== Sys2Proof/Machine/Modes.lean ====
section
/-! DEFINITION. Lane and port states by mode, mode entry, QUARANTINE, sleep, brown-out, trips and billing
intervals: the operations that commands of several chapters share. -/

namespace Sys2Proof.Machine

/-! ## Static-safe routes (R193, R167) -/

/-- An action carries a safe route to an egress. -/
def safeTo (s : State) (e : Nat) (a : BitVec 48) : Bool :=
  actValid a && actSafe a &&
  ((decide (actType a = 1) && decide (actDest a = e)) ||
   (decide (actType a = 2) && bb (groupOf s (actDest a)) 106 && bb (groupOf s (actDest a)) e))

/-- A lane or port carries a static-safe route: a SAFE entry reaches it, a SAFE entry of its own direct
table or hash keys starts at it, or it is a member of a SAFE VLAN. -/
def carriesSafe (s : State) (e : Nat) : Bool :=
  let p := ingPipe e
  let l := e % 24
  s.tables.can.any (fun x => safeTo s e x.2 ||
    (decide (e < 96) && actValid x.2 && actSafe x.2 && decide (x.1 / 2048 = p * 24 + l))) ||
  s.tables.lin.any (fun x => safeTo s e (x.2.setWidth 48) ||
    (decide (e < 96) && actValid (x.2.setWidth 48) && actSafe (x.2.setWidth 48) && decide (x.1 / 64 = p * 24 + l))) ||
  s.tables.hash.any (fun x => safeTo s e (hAct x.2) ||
    (decide (e < 96) && hValid x.2 && actSafe (hAct x.2) && decide (bf (hKey x.2) 62 2 ≠ 0) &&
      decide (bf (hKey x.2) 48 5 = l) && decide (x.1 / hSpan = p))) ||
  s.tables.vlan.any (fun x => bb x.2 234 && bb x.2 236 && vlanBit s x.2 e)

/-! ## Lanes (R167 to R169, R182) -/

/-- The QUARANTINE cause with the lowest code; NONE of an empty list (R639). -/
def lowestCause : List QCause → QCause
  | [] => .none
  | c :: t =>
    let d := lowestCause t
    if d = .none ∨ (c ≠ .none ∧ c.code ≤ d.code) then c else d

/-- The recorded cause that start-up enters QUARANTINE with again (R75, R109). -/
def keptCause (s : State) : QCause :=
  if s.power.recorded ≠ .quarantine then .none
  else if s.boot.warm then s.power.qcause
  else if (s.power.qcause = .tamper ∨ s.power.qcause = .rootMissing) ∧ lifecycle s = .field then s.power.qcause
  else .none

/-- The QUARANTINE cause start-up ends with, NONE when it enters another mode (R639).
Mark: DEDUCED (log entry 15). -/
def startCause (s : State) : QCause := lowestCause (keptCause s :: s.boot.qpend)

/-- The mode start-up derives from the recorded one (R75); without a root it is APPROACH or QUARANTINE (Table 4.6).
Mark: DEDUCED (log entry 15). -/
def deriveMode (s : State) : Mode :=
  if startCause s ≠ .none then .quarantine
  else if s.boot.rootAbsent then .approach
  else match s.power.recorded with
    | .rented => .rented
    | .drive => .drive
    | _ => .approach

/-- The mode the lanes follow: from start-up step 5 on, the one R75 derives (R112, R167). -/
def laneMode (s : State) : Mode :=
  match s.power.phase with
  | .awake => s.power.cur
  | .startup => deriveMode s
  | _ => .dormant

/-- Rail 4 supplies the lane front-ends: enabled and good (Table 6.4). -/
def vlaneUp (s : State) : Bool := s.power.en.getLsbD 4 && s.power.pg.getLsbD 4

/-- CRANK_KEEP of a lane (Table 6.10). -/
def crankKeep (s : State) (n : Nat) : Bool := bit s R_LANE_CFG n 9

/-- The state of Table 6.5 a lane is to take; `active` stands for the probe where it applies. Until step 5 has completed,
and without a valid map, every lane is RX_ONLY (R112, R167). A lane whose new configuration waits for the beat boundary
is OFF (R170); one shed stays so (R84). -/
def laneTarget (s : State) (n : Nat) : LaneSt :=
  if ! vlaneUp s || decide (laneMode s = .dormant) || decide (laneMode s = .sentry) then .off
  else if s.power.shed && ! crankKeep s n then .shed
  else if ! s.boot.mapValid || decide (s.power.phase ≠ .awake) && decide (s.boot.step < 6) then .rxOnly
  else if pers s n = 0 || s.changes.any (fun c => decide (c.kind = .lane n)) then .off
  else match laneMode s with
    | .approach => .rxOnly
    | .quarantine => if carriesSafe s n then .active else .rxOnly
    | _ => .active

/-- Take a lane to ACTIVE: a CAN lane probes first (R168). -/
def laneToActive (s : State) (n : Nat) : State :=
  if pers s n = 1 then setLane s n { laneOf s n with st := .rxOnly, probe := true }
  else setLane s n { laneOf s n with st := .active, probe := false }

/-- A lane takes its state of Table 6.5 (R167); one in ACTIVE or BUS_OFF, or in its probe, stays there when
the table says ACTIVE. -/
def laneToTarget (s : State) (n : Nat) : State :=
  let x := laneOf s n
  match laneTarget s n with
  | .active =>
    if x.st = .active ∨ x.st = .busOff ∨ (x.st = .rxOnly ∧ x.probe) then s else laneToActive s n
  | t => setLane s n { x with st := t, probe := false }

/-- A lane neither in FAULT, LATCHED nor SHED follows Table 6.5. -/
def laneFollow (s : State) (n : Nat) : State :=
  let st := (laneOf s n).st
  if st = .fault ∨ st = .latched ∨ st = .shed then s else laneToTarget s n

/-- Every lane follows Table 6.5.
Mark: DEDUCED (log entry 15). -/
def lanesFollow (s : State) : State := (List.range 96).foldl laneFollow s

/-! ## Ports (R192 to R195, R213, R214) -/

/-- The state of Table 7.3 a port is to take: UP or not; DOWN while its new configuration waits (R213). -/
def portTarget (s : State) (p : Nat) : Bool :=
  bit s R_PORT_CFG p 0 && ! bit s R_PORT_STAT p 9 && ! s.changes.any (fun c => decide (c.kind = .port p)) &&
  (match mode s with
   | .rented => true
   | .drive => true
   | .service => true
   | .depot => true
   | .quarantine => carriesSafe s (96 + p)
   | _ => false)

/-- End every pause a port has received, its watchdogs and ignore periods, and its LPI agreement (R214). -/
def portQuiet (s : State) (p : Nat) : State :=
  let s := clrReg s R_PORT_PAUSE_STAT p 0x0000FFFF
  let s := wri s R_PORT_PAUSE_IGN p 0
  let s := clrReg s R_PORT_LPI_STAT p 0x0000000E
  let s := { s with net := { s.net with fcAss := tset 0 s.net.fcAss p 0 } }
  setPort s p { portOf s p with txQuiet := 0, twNext := none, echo := (0, 0), wakeAt := 0 }

/-- The link of a port goes down: its queues are flushed (R195), its pause and LPI state ends (R214). -/
def linkLost (s : State) (p : Nat) : State :=
  let was := bit s R_PORT_STAT p 1
  let s := clrReg s R_PORT_STAT p 0x00000172
  let s := portQuiet (flushPort s p) p
  if was then raise s .linkChange else s

/-- A port goes DOWN (R193, R195). The 10 ms since the release of PHY_RST_Nn go on (R192). -/
def portDown (s : State) (p : Nat) : State :=
  let s := linkLost s p
  let on := bit s R_PORT_CFG p 0
  let x := portOf s p
  let s := setPort s p { x with upWait := x.upWait && on, phyRst := x.phyRst && on }
  clrReg s R_PORT_STAT p 0x00000009

/-- A port comes up: UP, full duplex (R193). P0 to P3 wait 10 ms after the first release of PHY_RST_Nn
(R192). -/
def portUp (s : State) (p : Nat) : State :=
  if bit s R_PORT_STAT p 0 then s
  else if p < 4 ∧ ¬ (portOf s p).phyRst then setPort s p { portOf s p with phyRst := true, upWait := true }
  else if p < 4 ∧ (portOf s p).upWait then s
  else orReg s R_PORT_STAT p 0x00000009

/-- Every port follows Table 7.3.
Mark: DEDUCED (log entry 15). -/
def portsFollow (s : State) : State :=
  (List.range 8).foldl (fun s p => if portTarget s p then portUp s p
    else if bit s R_PORT_STAT p 0 then portDown s p else s) s

/-! ## Denial summary and wake copies -/

/-- Write a DENY_SUMMARY entry when any refusal has occurred since the last one (R395).
Mark: DEDUCED (log entry 65). -/
def denySummaryNow (s : State) : State :=
  if s.deny.any && ledgerLive s && ! s.ledger.final then
    let s := queueEntry s (.denySummary s.deny)
    { s with deny := { Deny.empty with lastSec := some s.ledger.sec } }
  else s

/-- Copy the wake configuration of every armed lane into the AON block (R171). -/
def copyWake (s : State) : State :=
  let armed (n : Nat) : Bool := bit s (R_LANE_ARM + 4 * (n / 32)) 0 (n % 32) && decide (pers s n ≠ 0) &&
    decide ((laneOf s n).st ≠ .latched)
  let cs := ((List.range 96).filter armed).map fun n =>
    (n, some { pers := pers s n, cfg := rdi s R_LANE_WAKE_CFG n, id := rdi s R_LANE_WAKE_ID n,
               idm := rdi s R_LANE_WAKE_IDM n, dm0 := rdi s R_LANE_WAKE_DM0 n, dm1 := rdi s R_LANE_WAKE_DM1 n,
               swapped := (laneOf s n).swapped : WakeCopy })
  { s with aon := { s.aon with copies := cs } }

/-- Save L and T of every valid profile to the log flash (R373). -/
def laSaveNow (s : State) : State :=
  let ks := s.rf.filterMap fun x =>
    if x.1 / 8192 = R_CIPH_LA_CFG ∧ bitsOf x.2 31 1 = 1 then some (x.1 % 8192) else none
  let v (k : Nat) (lo hi : Nat) : Nat := (rdi s lo k).toNat + 2 ^ 32 * (rdi s hi k).toNat
  { s with cipher := { s.cipher with
      saved := tsetMany (0, 0) s.cipher.saved
        (ks.map fun k => (k, (v k R_CIPH_LA_L_LO R_CIPH_LA_L_HI, v k R_CIPH_LA_T_LO R_CIPH_LA_T_HI))) } }

/-! ## Rails (R63, R79, R81) -/

/-- The order in which rails come up (R79). -/
abbrev railOrder : List Nat := [0, 1, 3, 2, 4]

/-- A lane is armed for SENTRY. -/
def anyArmed (s : State) : Bool := (List.range 3).any fun k => decide (rd s (R_LANE_ARM + 4 * k) ≠ 0)

/-- The rails a mode has on (Table 3.1): SENTRY only rail 4, with a lane armed; rail 2 in no APPROACH, and
only with a spill store fitted (R63). -/
def railWanted (s : State) (m : Mode) (r : Nat) : Bool :=
  match m with
  | .dormant => false
  | .sentry => decide (r = 4) && anyArmed s
  | .approach => decide (r ≠ 2)
  | _ => decide (r ≠ 2) || bit s R_SYS_STRAP 0 2

/-- Turn rail `r` off. -/
def railOff (s : State) (r : Nat) : State :=
  let m : BitVec 5 := BitVec.ofNat 5 (2 ^ r)
  let s := { s with power := { s.power with
    en := s.power.en &&& ~~~ m, pg := s.power.pg &&& ~~~ m,
    railWait := if s.power.railWait = some r then none else s.power.railWait } }
  if r = 2 then clrReg s R_SYS_PINSTAT 0 2 else s

/-- Turn rail `r` on and wait for its power-good. -/
def railOn (s : State) (r : Nat) : State :=
  { s with power := { s.power with en := s.power.en ||| BitVec.ofNat 5 (2 ^ r), railWait := some r } }

/-- Rail `r` failed or was lost: off until the next wake.
Mark: DEDUCED (log entry 17). -/
def railDead (s : State) (r : Nat) : State :=
  let s := railOff s r
  { s with power := { s.power with dead := s.power.dead ||| BitVec.ofNat 5 (2 ^ r) } }

/-- Enable the next rail of the order that a mode wants, once no power-good is awaited (R79); of a rail enabled already,
as rail 4 in SENTRY, the power-good is awaited.
Mark: DEDUCED (log entry 17). -/
def railNext (s : State) (m : Mode) : State :=
  if s.power.railWait.isSome then s
  else match railOrder.find? fun r =>
      railWanted s m r && ! (s.power.en.getLsbD r && s.power.pg.getLsbD r) && ! s.power.dead.getLsbD r with
    | some r => railOn s r
    | none => s

/-- Rails follow a mode: those it leaves off go down in reverse order, the others come up in order. -/
def railsFollow (s : State) (m : Mode) : State :=
  railNext (railOrder.reverse.foldl (fun s r => if s.power.en.getLsbD r && ! railWanted s m r then railOff s r else s) s) m

/-! ## Mode entry (R70 to R75) -/

/-- What changes with the mode whichever mode it is: records (R70), sessions (R37), freeze arming (R580),
loopback (R586), lanes and ports. -/
def modeCore (s : State) (m : Mode) : State :=
  let old := s.power.cur
  let s := { s with power := { s.power with
      cur := m, recorded := m, prev := s.power.recorded,
      qcause := if m = .quarantine then s.power.qcause else .none } }
  let s := if (old = .service ∨ old = .depot) ∧ m ≠ old then closeSession s 2 2 else s
  let s := if m = .rented ∨ m = .drive then closeSession s 3 2 else s
  let s := if m = .drive then { s with freeze := { s.freeze with armed := false } } else s
  let s := if old = .service ∧ m ≠ .service then { s with net := { s.net with loop := [] } } else s
  let s := if m.awake then railsFollow s m else s
  portsFollow (lanesFollow s)

/-- Set or release the immobiliser. -/
def setImmob (s : State) (v : Bool) : State := { s with vault := { s.vault with immob := v, immobPend := false } }

/-- Enter an awake mode other than QUARANTINE. DRIVE releases the immobiliser; RENTED and APPROACH have it
set (Table 3.1), never while a tracker reports motion (R73). -/
def enterMode (s : State) (m : Mode) : State :=
  let s := modeCore s m
  match m with
  | .drive => setImmob s false
  | .rented => if motionNow s then { s with vault := { s.vault with immobPend := true } } else setImmob s true
  | .approach => if motionNow s then { s with vault := { s.vault with immobPend := true } } else setImmob s true
  | _ => s

/-- The SEAL entry of a cause (R444). After a chain fault it is the next entry programmed: the chain starts again with
it, RESTART is set and LAST_GOOD names the last entry before the fault (R443).
Mark: DEDUCED (log entry 46). -/
def sealEntry (s : State) (c : QCause) : State :=
  match s.ledger.lastGood with
  | some g =>
    let q := s.ledger.queue
    let s := queueEntryL { s with ledger := { s.ledger with lastGood := none, queue := [] } } false true (ltimeNow s)
      (.seal c.code g)
    { s with ledger := { s.ledger with queue := s.ledger.queue ++ q } }
  | none => queueEntry s (.seal c.code 0)

/-- Enter QUARANTINE with a cause, or replace the cause by one of a lower code (R74, R639); each writes a
SEAL entry (R444), and after a chain fault the chain restarts in any case (R443). The immobiliser is set at the first
standstill (R74). -/
def quarantine (s : State) (c : QCause) : State :=
  if s.power.cur = .quarantine then
    if c.code < s.power.qcause.code ∧ c ≠ .none then sealEntry { s with power := { s.power with qcause := c } } c
    else if s.ledger.lastGood.isSome then sealEntry s c else s
  else
    let s := { s with power := { s.power with qcause := c } }
    let s := modeCore s .quarantine
    let s := { s with ledger := { s.ledger with sealed := true } }
    let s := if motionNow s || ! standstill s then { s with vault := { s.vault with immobPend := ! s.vault.immob } }
             else setImmob s true
    sealEntry s c

/-- A QUARANTINE cause arises: at once when awake, at the end of start-up before (R72, R639). -/
def causeArises (s : State) (c : QCause) : State :=
  match s.power.phase with
  | .awake => quarantine s c
  | .asleep => s
  | _ => { s with boot := { s.boot with qpend := s.boot.qpend ++ [c] } }

/-- The chain is broken, or a program failed, after entry `good` (R443). -/
def ledgerFault (s : State) (good : Nat) : State :=
  causeArises { s with ledger := { s.ledger with lastGood := some good } } .ledger

/-! ## Sleep and brown-out (R71, R97, R171) -/

/-- The core goes off: every volatile queue and job is gone; lanes and ports are off, the outputs of the trackers and
channels are released (Table 2.5), and a freeze ends (R582). -/
def coreOff (s : State) : State :=
  let s := { s with
    power := { s.power with
      phase := .asleep, wakeOut := false, woutPend := false, leBlocked := false, sleepPend := false,
      en := 0, pg := 0, railWait := none, railRetries := 0, railSettle := false, samples := [] },
    wheels := { s.wheels with spd := 0, cmpo := 0, pulses := 0 },
    freeze := freezeReset }
  let s := lanesFollow s
  { s with ports := [], net := { s.net with frames := [], queues := [], egrs := [], ctxs := [], stuck := [] },
           disp := dispReset }

/-- Enter SENTRY or DORMANT in order: sessions cannot be open, the summary is written (R395), L and T are
saved (R373), the wake configuration is copied on entry into SENTRY (R171). -/
def sleepFrom (s : State) (m : Mode) : State :=
  let s := commitAll (denySummaryNow (laSaveNow s))
  let s := if m = .sentry then copyWake s else s
  let s := modeCore s m
  railsFollow (coreOff { s with power := { s.power with sleepIn := m, dead := 0 }, aon := { s.aon with stopped := [] } }) m

/-- From SENTRY to DORMANT or DORMANT to SENTRY, with the core off (R71). -/
def sleepTo (s : State) (m : Mode) : State :=
  let s := { s with
    power := { s.power with
      cur := m, recorded := m, prev := s.power.recorded, sleepIn := m, samples := [], dead := 0,
      wakeOut := false, woutPend := false, qcause := .none },
    aon := { s.aon with stopped := [] } }
  railsFollow s m

/-- Zero the key registers of every bulk engine and the cached LANEAUTH keys (R97 step 2, R332 step 3). -/
def zeroKeys (s : State) : State :=
  let s := losePower (losePower s 0) 1
  { s with cipher := { s.cipher with cache := [] } }

/-- The brown-out path (R97): safe outputs, keys zeroed, lanes off, then DORMANT with the recorded mode
unchanged, LOW_ENERGY clear and VBAT_RISE armed until the next completed start-up. -/
def brownOut (s : State) : State :=
  let s := zeroKeys (actuatorsSafe s)
  let s := orReg s R_PWR_WAKE_CAUSE 0 0x20
  let s := { s with power := { s.power with
                      cur := .dormant, lowEnergy := false, riseAuto := true,
                      sleepIn := .dormant },
                    ledger := { s.ledger with queue := [] },
                    changes := [] }
  coreOff s

/-! ## Billing intervals and trips (R434, R435, R420, R531) -/

/-- Open a billing interval at a ledger time (R434). -/
def openInterval (s : State) (num lOpen : Nat) : State :=
  let l := s.ledger
  let w : Int := (lOpen : Int) + l.ofs
  let p : Int := (l.period : Int) * 65536
  let b : Int := (w / p + 1) * l.period
  let aligned := l.wallValid && decide (b > (l.lastWb : Int))
  let lEnd : Int := if aligned then (lOpen : Int) + (b * 65536 - w) else (lOpen : Int) + p
  { s with ledger := { l with interval := some {
        num := num, lOpen := lOpen, lEnd := lEnd.toNat, aligned := aligned, bound := if aligned then b.toNat else 0,
        tariff := l.tariff, distAt := s.wheels.tripMm, openBeat := s.time.beatCnt } } }

/-- Close the open interval with a reason at a ledger time: its entry, and LAST_WB for an ALIGNED close.
Mark: DEDUCED (log entry 47). -/
def closeInterval (s : State) (late : Bool) (lt reason : Nat) : State :=
  match s.ledger.interval with
  | none => s
  | some i =>
    let aligned := decide (reason = 0)
    let s := queueEntryL s late false lt
      (.intervalClose i.num i.lOpen (if aligned then i.bound else 0) (s.wheels.tripMm - i.distAt) i.tariff reason)
    { s with ledger := { s.ledger with
               interval := none, intervals := s.ledger.intervals + 1,
               lastWb := if aligned then max s.ledger.lastWb i.bound else s.ledger.lastWb } }

/-- An interval whose end has been reached closes with LTIME at its end, and the next one opens there
(R434). At number all ones the trip's intervals stop closing (R435).
Mark: DEDUCED (log entry 47). -/
def boundaryClose (s : State) (late : Bool) : State :=
  match s.ledger.interval with
  | none => s
  | some i =>
    if i.lEnd ≤ ltimeNow s ∧ i.num < 2 ^ 32 - 1 then
      openInterval (closeInterval s late i.lEnd (if i.aligned then 0 else 1)) (i.num + 1) i.lEnd
    else s

/-- Close every interval whose end has passed, in order (R448). -/
def boundaryCloses (late : Bool) : Nat → State → State
  | 0, s => s
  | n + 1, s =>
    match s.ledger.interval with
    | some i => if i.lEnd ≤ ltimeNow s ∧ i.num < 2 ^ 32 - 1 then boundaryCloses late n (boundaryClose s late) else s
    | none => s

/-- A trip opens (R420, R531): TRIP_OPEN committed, the first interval opens, RENTED, the unlock frames,
the steering lock released. -/
def openTrip (s : State) (tokenId tripRef src : Nat) (drive : Bool) : State :=
  let s := { s with wheels := { s.wheels with tripMm := 0 } }
  let s := commitEntry s (.tripOpen tokenId tripRef s.wheels.odo (wallSec s) src)
  let s := { s with ledger := { s.ledger with
      intervals := 0,
      trip := some { tripRef := tripRef, tokenId := tokenId, drive := drive, src := src } } }
  let s := openInterval s 1 (ltimeNow s)
  let s := enterMode s .rented
  let s := sendEntryFrames s s.nfc.unlockFrm
  match boltOfKind s 1 with
  | some b => requestMove s b false
  | none => s

/-- The records of a closing trip: a boundary close that is due, the open interval unless it opened in this very
beat, and TRIP_CLOSE (R435). -/
def closeTripRecords (s : State) (t : Trip) (src : Nat) : State :=
  let s := boundaryCloses false 64 s
  let fresh : Bool := match s.ledger.interval with
    | some i => decide (i.num > 1) && decide (i.openBeat = s.time.beatCnt)
    | none => false
  let s := if fresh then { s with ledger := { s.ledger with interval := none } } else closeInterval s false (ltimeNow s) 2
  queueEntry s (.tripClose t.tripRef s.wheels.odo (wallSec s) s.ledger.intervals src)

/-- The ledger can commit the records of a closing trip after `n` other entries (R41). -/
def closeRoom (s : State) (n : Nat) : Bool :=
  match s.ledger.trip with
  | none => true
  | some t => ! ledgerLive s || ledgerRoomFor s (n + (closeTripRecords s t 0).ledger.queue.length - s.ledger.queue.length)

/-- A trip closes in the ledger: its records, and the denial summary (R395). -/
def closeTripLedger (s : State) (src : Nat) : State :=
  match s.ledger.trip with
  | none => s
  | some t =>
    let s := closeTripRecords s t src
    let s := commitAll (denySummaryNow s)
    { s with ledger := { s.ledger with trip := none, interval := none },
             hlb := { s.hlb with immobReq := false },
             vault := { s.vault with closePend := false } }

/-- A trip closes in RENTED (Table 3.2, Table 15.7): its records, APPROACH, the lock frames, the bolts
engaged. In QUARANTINE the mode stays (R531).
Mark: DEDUCED (log entry 47). -/
def closeTrip (s : State) (src : Nat) : State :=
  let s := closeTripLedger s src
  if mode s = .rented then
    let s := enterMode s .approach
    engageAll (sendEntryFrames s s.nfc.lockFrm)
  else s

/-! ## What waits for standstill (R73, R74, R481, R531) -/

/-- Apply what waits for standstill: the immobiliser, force-lock, the passage from DRIVE to RENTED, a trip
close, and bolt moves that were aborted.
Mark: DEDUCED (log entry 47). -/
def settle (s : State) : State :=
  if ! standstill s then s
  else
    let s := if s.vault.immobPend ∧ ¬ motionNow s then setImmob s true else s
    let s := if mode s = .drive ∧ s.vault.toRented then
        enterMode { s with vault := { s.vault with toRented := false } } .rented else s
    let s := if s.vault.lockPend ∧ mode s ≠ .drive then
        engageAll { s with vault := { s.vault with lockPend := false }, hlb := { s.hlb with forceLock := false } } else s
    let s := if s.vault.closePend ∧ mode s ≠ .drive ∧ closeRoom s 0 then closeTrip s 2 else s
    retryBolts s

/-- The immobiliser, force-lock or a stop request is accepted in DRIVE: applied at the first standstill,
and RENTED follows at once (R73). -/
def atStandstill (s : State) (f : Vault → Vault) : State := settle { s with vault := f s.vault }

end Sys2Proof.Machine
end

