-- ==== Sys2Proof/Machine/VaultOps.lean ====
section
/-! DEFINITION. The vault's slots and their states, the keys they deliver to engines, the statements it
signs, and the tamper reaction (chapters 12 and 13). -/

namespace Sys2Proof.Machine

/-! ## Slots (R337 to R342) -/

/-- Fields of the attribute word (Table 12.4). -/
def sType (x : Slot) : Nat := bf x.attr 0 4
def sEngine (x : Slot) (b : Nat) : Bool := bb x.attr b
def sUsage (x : Slot) (b : Nat) : Bool := bb x.attr b
def sParent (x : Slot) : Nat := bf x.attr 32 9
def sNoParent (x : Slot) : Bool := bb x.attr 41
def sPgen (x : Slot) : Nat := bf x.attr 48 16

/-- Bits of ENGINE and USAGE. -/
abbrev engLaneauth : Nat := 7
abbrev engSign : Nat := 8
abbrev engHelber : Nat := 10
abbrev useEnc : Nat := 12
abbrev useDec : Nat := 13
abbrev useMacGen : Nat := 14
abbrev useMacVer : Nat := 15
abbrev useVerify : Nat := 17
abbrev useUpd : Nat := 19

/-- `chain_ok` of R339, with the links that remain before the depth of 8. -/
def chainOk (s : State) : Nat → Slot → Bool
  | 0, x => sNoParent x
  | n + 1, x =>
    sNoParent x ||
      (let p := slotOf s (sParent x)
       ! p.final && decide (sType p ≠ 0) && decide (p.gen.toNat = sPgen x) && chainOk s n p)

/-- The states of R339 in the codes of Table 12.6: 0 EMPTY, 1 LIVE, 2 ORPHAN, 3 FINAL. -/
def slotState (s : State) (k : Nat) : Nat :=
  let x := slotOf s k
  if x.final then 3 else if sType x = 0 then 0 else if chainOk s 8 x then 1 else 2

/-- A slot is usable only when it is LIVE. -/
def slotLive (s : State) (k : Nat) : Bool := decide (slotState s k = 1)

/-- The status of a refused delivery (R341): by the slot's state, or DENIED when its masks do not permit. -/
def delivery (s : State) (k engine usage : Nat) : Status :=
  match slotState s k with
  | 0 => .denied
  | 2 => .orphan
  | 3 => .final
  | _ => if sEngine (slotOf s k) engine && sUsage (slotOf s k) usage then .ok else .denied

/-- Slot `k` is `t` or lies below it, within `n` links. -/
def below (s : State) (t : Nat) : Nat → Nat → Bool
  | 0, k => decide (k = t)
  | n + 1, k => decide (k = t) || (! sNoParent (slotOf s k) && decide (sType (slotOf s k) ≠ 0) && below s t n (sParent (slotOf s k)))

/-- Links from slot `k` up to a slot without parent, at most `n`. -/
def depthOf (s : State) : Nat → Nat → Nat
  | 0, _ => 0
  | n + 1, k => if sNoParent (slotOf s k) then 0 else 1 + depthOf s n (sParent (slotOf s k))

/-! ## Fixed slots (R121, R334, R335) -/

/-- An attribute word of its fields: type, engine bits, usage bits, origin, parent, PGEN, no parent. -/
def attrOf (ty engine usage origin parent pgen : Nat) (noParent : Bool) : BitVec 64 :=
  BitVec.ofNat 64 (ty + engine + usage + origin * 2 ^ 20 + parent * 2 ^ 32 + b2n noParent * 2 ^ 41 + pgen * 2 ^ 48)

/-- The attributes of KS000 to KS004 (Table 12.2). -/
def fixedAttr : Nat → BitVec 64
  | 0 => attrOf 5 0 (2 ^ 18) 0 0 0 true
  | 1 => attrOf 3 (2 ^ 8) (2 ^ 16) 2 0 0 false
  | 2 => attrOf 3 (2 ^ 8) (2 ^ 19) 2 0 0 false
  | 3 => attrOf 6 (2 ^ 6) (2 ^ 12 + 2 ^ 13) 2 0 0 false
  | 4 => attrOf 2 (2 ^ 9) (2 ^ 14 + 2 ^ 15) 2 0 0 false
  | _ => 0

/-- The check value of a root (R334): the first 8 bytes of SHA-256 over "KWROOT" and the root. -/
def checkOf (root : List Byte) : List Byte := (sha256 (ascii "KWROOT" ++ root)).take 8

/-- The keys of KS000 to KS004 (R334, R636): the root, and what the KDF gives under the slot's name and the device UID;
a private scalar is taken from 320 bits. -/
def derivedKey (s : State) (k : Nat) : List Byte :=
  let root := s.vault.root
  let uid := uidBytes s
  match k with
  | 0 => root
  | 1 => beBytes 32 (ecScalar (kdf root "ATTEST" uid 40))
  | 2 => beBytes 32 (ecScalar (kdf root "XPORT" uid 40))
  | 3 => kdf root "STORE" uid 64
  | _ => kdf root "LEDGER" uid 32

/-- Derive KS000 to KS004 from the root (R334). -/
def deriveSlots (s : State) : State :=
  [0, 1, 2, 3, 4].foldl (fun s k => setSlot s k { Slot.empty with attr := fixedAttr k, key := derivedKey s k }) s

/-- The MAKER key of the fuses: words 8 to 23 as one string of 64 bytes, each word little-endian (R640). -/
def fuseKey (s : State) : List Byte := (List.range 16).flatMap fun j => leBytes 4 (fuseWord s (8 + j)).toNat

/-- KS010 from the fuses outside FIELD (R121): type P256_PUB, SIGN, VERIFY, ORIGIN FUSE, no parent; EMPTY when words 8
to 23 give no key. UCNT and a closed slot stay as they are (R20, R342).
Mark: DEDUCED (log entry 51). -/
def loadFuseKey (s : State) : State :=
  if lifecycle s = .field ∨ (slotOf s 10).final then s
  else if ecOnCurve (fuseKey s) && ! (List.range 16).any (fun j => tget false s.fuses.invalid (8 + j)) then
    setSlot s 10 { slotOf s 10 with attr := attrOf 4 (2 ^ 8) (2 ^ 17) 3 0 0 true, key := fuseKey s }
  else setSlot s 10 { slotOf s 10 with attr := 0, key := [] }

/-- A role's key slot is usable (R26). -/
def roleKeyOk (s : State) (role : Nat) : Bool := slotLive s (7 + role)

/-! ## What the vault shows of a key -/

/-- The public key of a P256 key: a private key's is held beside it (Table 12.3); zero for other types. -/
def pubOf (s : State) (k : Nat) : List Byte :=
  let x := slotOf s k
  if x.final then List.replicate 64 0
  else if sType x = 3 then ecPublic (ofBeBytes x.key)
  else if sType x = 4 then x.key
  else List.replicate 64 0

/-- The key check value of R350, zero where the slot holds no key. -/
def kcvOf (s : State) (k : Nat) : List Byte :=
  let x := slotOf s k
  if slotState s k = 0 ∨ slotState s k = 3 then List.replicate 3 0
  else if sType x = 3 ∨ sType x = 4 then (sha256 (pubOf s k)).take 3
  else (cmac (x.key.take 32) (List.replicate 16 0)).take 3

/-- A scalar from 1 to n - 1 of the random generator. -/
def randScalar (d : Nat) : Nat := ecScalar (randBytes d 40)

/-- The ECDSA signature of slot `k`'s private key over SHA-256 of some bytes, under a random nonce.
Mark: DESIGN CHOICE (log entry 5). -/
def signBy (s : State) (k : Nat) (m : List Byte) : List Byte × State :=
  let (d, s) := draw s
  (ecdsaSign (ofBeBytes (slotOf s k).key) (randScalar d) m, s)

/-- The signature of KS001; 64 zero bytes while the root is absent (R31). -/
def signature (s : State) (m : List Byte) : List Byte × State :=
  if ! s.vault.rootPresent then (List.replicate 64 0, s) else signBy s 1 m

/-! ## Keys in engines (R341, R361, R366) -/

/-- An engine. -/
def engOf (s : State) (e : Nat) : Eng := tget Eng.init s.cipher.engs e

/-- Replace an engine. -/
def setEng (s : State) (e : Nat) (x : Eng) : State :=
  { s with cipher := { s.cipher with engs := tset Eng.init s.cipher.engs e x } }

/-- A normal-world job runs on a block (R90). -/
def setJobOn (s : State) (b : Nat) (v : Bool) : State :=
  { s with power := { s.power with jobs := tset false s.power.jobs b v } }

/-- The window of bulk engine `e`. -/
def ciph (a e : Nat) : Nat := a + 0x100 * e

/-- The completion of a job (R357): written to the ring of its world; a vault job's lies in vault memory.
Mark: DEDUCED (log entry 42). -/
def completeJob (s : State) (e : Nat) (vault : Bool) (d : BulkDesc) (st : Status) (cflags done fault : Nat) : State :=
  let s := setEng s e { engOf s e with job := none }
  let s := statInc s (ciph R_CIPH_JOBS e)
  let s := if cflags % 2 = 1 then statInc s (ciph R_CIPH_AUTHFAIL e) else s
  let s := if vault then s else
    let s := setJobOn s e false
    let base := (rd s (ciph R_CIPH_CQ_BASE_LO e)).toNat + 2 ^ 32 * (rd s (ciph R_CIPH_CQ_BASE_HI e)).toNat
    let t := fld s (ciph R_CIPH_CQ_TAIL e) 0 12
    let b := leBytes 4 d.jobId.toNat ++ leBytes 1 st.code ++ leBytes 1 cflags ++ leBytes 2 0 ++ leBytes 4 done ++
      leBytes 4 0 ++ leBytes 8 fault ++ leBytes 8 0
    let s := (dmaWrite s (base + 32 * t) b).2
    setFld s (ciph R_CIPH_CQ_TAIL e) 0 12 ((t + 1) % 2 ^ fld s (ciph R_CIPH_RING_CFG e) 0 4)
  if bb d.flags 1 then raise s (if e = 0 then .ciphDone0 else .ciphDone1) else s

/-- A vault job whose key is zeroed while it runs stops at the next block with KEY_LOST and UNTRUSTED
(R361); how far it came is a free value. -/
def loseKey (t : Nat) (s : State) (e : Nat) : State :=
  match (engOf s e).job with
  | some j =>
    if j.vault && bb j.desc.flags 0 && below s t 8 j.desc.slot.toNat then
      let st : Status := match slotState s j.desc.slot.toNat with
        | 2 => .orphan
        | 3 => .final
        | _ => .denied
      let (k, s) := draw s
      completeJob s e true j.desc st 0xA (min (Config.freeNat k) j.desc.len.toNat) 0
    else s
  | none => s

/-- Profiles whose slot is `t` or lies below it leave the LANEAUTH key cache (R341). -/
def dropCached (s : State) (t : Nat) : State :=
  { s with cipher := { s.cipher with
      cache := s.cipher.cache.filter fun p => ! below s t 8 (fldi s R_CIPH_LA_CFG p 16 9) } }

/-- Slot `t` was rewritten, orphaned or closed: every key register loaded from it or from below it is
zeroed (R341). -/
def keyChanged (s : State) (t : Nat) : State := dropCached (loseKey t (loseKey t s 0) 1) t

/-- Sessions whose role key lies at or below slot `t` close with reason KEY (R353). -/
def closeForKey (s : State) (t : Nat) : State :=
  [1, 2, 3].foldl (fun s r => if below s t 8 (7 + r) then closeSession s r 3 else s) s

/-! ## The random generator (R333) -/

/-- A random value is asked for: none while the generator has failed, which raises RNG_FAIL. -/
def wantRandom (s : State) : Bool × State :=
  if s.vault.rngFailed then (false, raise s .rngFail) else (true, s)

/-! ## Tamper (R332, R445) -/

/-- VMEM and VPRIV read zero.
Mark: DESIGN CHOICE (log entry 8). -/
def memWipe (s : State) : State := { s with mem := s.mem.filter fun x => decide (x.1 < 0x1000000 ∨ 0x1110000 ≤ x.1) }

/-- The vault's reaction to a tamper source (R332).
Mark: DEDUCED (log entry 51). -/
def tamperNow (s : State) (src : Nat) : State :=
  let s := { s with vault := { s.vault with
      root := List.replicate 32 0, rootCheck := List.replicate 8 0, storeSeq := 0, storeChain := List.replicate 32 0, rootPresent := false, storeOk := false,
      slots := [], groupTampered := true } }
  let s := memWipe s
  let s := orReg s R_VLT_TAMPER 0 (fieldMask src 1)
  let s := zeroKeys s
  let s := { s with
    sess := [1, 2, 3].foldl (fun t r => tset Sess.closed t r { tget Sess.closed t r with chal := none }) s.sess,
    ledger := { s.ledger with queue := [] },
    nfc := { s.nfc with ex := .idle, chal := false, subChal := false, hostChal := none, pending := none } }   -- R426
  let s := closeAll s 0
  match s.power.phase with
  | .asleep | .railPhase =>
    { s with power := { s.power with
        prev := s.power.recorded, recorded := .quarantine, qcause := .tamper } }
  | _ => causeArises s .tamper

/-- Commands of the Vault and keys group answer TAMPERED (R332, R353). -/
def groupTampered (s : State) : Bool :=
  s.vault.groupTampered || (decide (mode s = .quarantine) &&
    (decide (s.power.qcause = .tamper) || decide (s.power.qcause = .rootMissing)))

/-- The slot store takes one more record: the sequence number and the chain value in the VBKP domain follow (R343, R344).
The bytes of a record are not laid out: 128 free bytes.
Mark: DESIGN CHOICE (log entry 4). -/
def storeRecordOf (s : State) : State :=
  let (k, s) := draw s
  { s with vault := { s.vault with storeSeq := s.vault.storeSeq + 1, storeChain := sha256 (s.vault.storeChain ++ randBytes k 128) } }

end Sys2Proof.Machine
end

