-- ==== Sys2Proof/Machine/Cipher.lean ====
section
/-! DEFINITION. The cipher engines (chapter 13): key registers, bulk jobs, the storage engine, watchdogs
and the profiles of secured CAN. LANEAUTH key delivery stands with frame reception. -/

namespace Sys2Proof.Machine

/-- The ring size of a bulk engine. -/
def sqSize (s : State) (e : Nat) : Nat := 2 ^ fld s (ciph R_CIPH_RING_CFG e) 0 4

/-- CIPH_SQ_TAIL takes an index (R365): while the engine is gated or PENDING each newly submitted descriptor
completes at once with BUSY.
Mark: DEDUCED (log entry 42). -/
def sqTailSet (s : State) (e idx : Nat) (jobIds : List Word) : State :=
  let s := setFld s (ciph R_CIPH_SQ_TAIL e) 0 12 idx
  if ungated s e ∨ fld s (ciph R_CIPH_RING_CFG e) 0 4 = 0 then s
  else
    let n := (idx + sqSize s e - fld s (ciph R_CIPH_SQ_HEAD e) 0 12) % sqSize s e
    (List.range n).foldl (fun s i =>
      let h := fld s (ciph R_CIPH_SQ_HEAD e) 0 12
      let d : BulkDesc := { mode := 0, flags := 0, taglen := 0, kgen := 0, jobId := jobIds.getD i 0, src := 0, dst := 0,
                            len := 0, aadlen := 0, slot := 0, aad := 0, iv := 0, tag := 0 }
      let job := (engOf s e).job
      let s := completeJob (setFld s (ciph R_CIPH_SQ_HEAD e) 0 12 ((h + 1) % sqSize s e)) e false d .busy 0 0 0
      setEng s e { engOf s e with job := job }) s

/-- CIPH_SQ_TAIL_WRITE (R365). -/
def execCiphSqTailWrite (e : Fin 2) (idx : BitVec 12) (jobIds : List Word) (s : State) : Host.Outcome State Fault Refusal :=
  .next (whenRunning (begin_ s) fun s => sqTailSet s e idx.toNat jobIds)

/-- A descriptor is well formed (Table 13.3). -/
def descFormed (d : BulkDesc) : Bool :=
  let m := d.mode.toNat
  let gcm := decide (m = 1) || decide (m = 2)
  let cbc := decide (m = 4) || decide (m = 5)
  let mac := decide (m = 6) || decide (m = 7)
  decide (1 ≤ m) && decide (m ≤ 7) && decide (d.flags.toNat < 4) &&
  (if gcm then decide (12 ≤ d.taglen.toNat) && decide (d.taglen.toNat ≤ 16)
   else if mac then decide (8 ≤ d.taglen.toNat) && decide (d.taglen.toNat ≤ 16) else decide (d.taglen = 0)) &&
  decide (d.len.toNat ≤ 16777215) && (! cbc || decide (d.len.toNat % 16 = 0)) &&
  (! (cbc || decide (m = 3)) || decide (1 ≤ d.len.toNat)) && (gcm || decide (d.aadlen = 0)) &&
  (bb d.flags 0 || decide (d.slot = 0)) && (! gcm || decide (d.iv >>> 96 = 0)) && (! mac || decide (d.iv = 0))

/-- The first range of a normal-world job that the windows refuse, in the order SRC, DST, AAD, TAG
(R358). -/
def descRange (s : State) (d : BulkDesc) : Option (Reason × Nat × Bool) :=
  let m := d.mode.toNat
  let mac := decide (m = 6) || decide (m = 7)
  let rs : List (Bool × Nat × Nat) :=
    [(false, d.src.toNat, d.len.toNat)] ++ (if mac then [] else [(true, d.dst.toNat, d.len.toNat)]) ++
    [(false, d.aad.toNat, d.aadlen.toNat), (decide (m = 1) || decide (m = 6), d.tag.toNat, d.taglen.toNat)]
  rs.findSome? fun x => (judgeD s x.1 x.2.1 x.2.2).map fun y => (y.1, y.2, x.1)

/-- The usage bit a mode requires (R361). -/
def modeUsage (m : Nat) : Nat :=
  if m = 1 ∨ m = 3 ∨ m = 4 then useEnc else if m = 2 ∨ m = 5 then useDec else if m = 6 then useMacGen else useMacVer

/-- Words of the key length set in KLEN. -/
def klenWords (s : State) (e : Nat) : Nat := [0, 4, 8, 0].getD (fld s (ciph R_CIPH_KCTL e) 0 2) 0

/-- The key in an engine's key registers (R359): byte 0 of the key in [7:0] of CIPH_KEYW0. -/
def engineKey (s : State) (e : Nat) : List Byte :=
  (List.range (klenWords s e)).flatMap fun k => leBytes 4 (rd s (ciph R_CIPH_KEYW0 e + 4 * k)).toNat

/-- Start a normal-world job, or complete it at once (R358, R360).
Mark: DEDUCED (log entry 42). -/
def startNormal (s : State) (e : Nat) (d : BulkDesc) : State :=
  if ! descFormed d then completeJob s e false d .badParam 0 0 0
  else if bb d.flags 0 then completeJob s e false d .denied 0 0 0
  else match descRange s d with
    | some (r, a, w) => completeJob (refuse s .D r a w) e false d .denied 0 0 a
    | none =>
      if ! bit s (ciph R_CIPH_KCTL e) 0 16 ∨ fld s (ciph R_CIPH_KCTL e) 8 8 ≠ d.kgen.toNat then
        completeJob s e false d .stale 0 0 0
      else setJobOn (setEng s e { engOf s e with job := some { vault := false, desc := d, key := engineKey s e } }) e true

/-- Start a vault job, or complete it with the status of a refused delivery (R361). -/
def startVault (s : State) (e : Nat) (d : BulkDesc) : State :=
  if ! descFormed d then completeJob s e true d .badParam 0 0 0
  else
    let st := if bb d.flags 0 then delivery s d.slot.toNat (4 + e) (modeUsage d.mode.toNat) else .ok
    if st ≠ .ok then completeJob s e true d st 0 0 0
    else
      let key := if bb d.flags 0 then (slotOf s d.slot.toNat).key else engineKey s e
      setEng s e { engOf s e with job := some { vault := true, desc := d, key := key } }

/-- BULK_JOB_START (R360, R364): an idle engine takes the next job of a ring. A normal-world job needs an
ungated engine without a hold and a ring that holds one.
Mark: DEDUCED (log entry 42). -/
def execBulkJobStart (e : Fin 2) (vault : Bool) (desc : BulkDesc) (s : State) : Host.Outcome State Fault Refusal :=
  .next (whenRunning (begin_ s) fun s =>
    if (engOf s e).job.isSome then s
    else if vault then
      if held s e ∨ ungated s e then startVault (setEng s e { engOf s e with lastVault := true }) e desc else s
    else
      let h := fld s (ciph R_CIPH_SQ_HEAD e) 0 12
      if held s e ∨ ! ungated s e ∨ ! dmaUp s ∨ fld s (ciph R_CIPH_RING_CFG e) 0 4 = 0 ∨ h = fld s (ciph R_CIPH_SQ_TAIL e) 0 12 then s
      else
        let s := setFld s (ciph R_CIPH_SQ_HEAD e) 0 12 ((h + 1) % sqSize s e)
        startNormal (setEng s e { engOf s e with lastVault := false }) e desc)

/-- What a job does with the bytes it reads (Table 13.2): the bytes for DST, the tag, and whether the tag it was to verify
matches. -/
def jobResult (j : Job) (src aad tag : List Byte) : List Byte × List Byte × Bool :=
  let d := j.desc
  let n := d.taglen.toNat
  let iv := leBytes 16 d.iv.toNat
  match d.mode.toNat with
  | 1 => let c := gcmCrypt j.key (iv.take 12) src; (c, (gcmTag j.key (iv.take 12) aad c).take n, true)
  | 2 => (gcmCrypt j.key (iv.take 12) src, [], decide ((gcmTag j.key (iv.take 12) aad src).take n = tag))
  | 3 => (ctrCrypt j.key iv src, [], true)
  | 4 => (cbcEnc j.key iv src, [], true)
  | 5 => (cbcDec j.key iv src, [], true)
  | 6 => ([], (cmac j.key src).take n, true)
  | _ => ([], [], decide ((cmac j.key src).take n = tag))

/-- What a job wrote, at its address in host memory, or in vault memory. -/
def jobOut (s : State) (j : Job) (a : BitVec 64) (b : List Byte) : State :=
  if b = [] then s
  else if j.vault then { s with out := { s.out with vault := s.out.vault ++ b } }
  else (dmaWrite s a.toNat b).2

/-- BULK_JOB_COMPLETE (R357, R362): the job has read its source, its AAD and the tag it verifies; it has written
its destination and its tag, and then its completion. -/
def execBulkJobComplete (e : Fin 2) (m : JobInput) (s : State) : Host.Outcome State Fault Refusal :=
  .next (whenRunning (begin_ s) fun s =>
    match (engOf s e).job with
    | none => s
    | some j =>
      if ! j.vault && ! dmaUp s then s     -- no DMA request is issued (R511)
      else
        let s := if j.vault then s else dmaGood s
        let d := j.desc
        let (out, mac, ok) := jobResult j (padTo d.len.toNat m.src) (padTo d.aadlen.toNat m.aad) (padTo d.taglen.toNat m.tag)
        let s := jobOut (jobOut s j d.dst out) j d.tag mac
        completeJob s e j.vault d (if ok then .ok else .integrity) (if ok then 0 else if d.mode.toNat = 2 then 3 else 1) d.len.toNat 0)

/-- A write of KLEN zeroes the key words, clears LOADED and sets the length (R359); 0b11 is a reserved encoding
(R6). -/
def kctlSet (s : State) (e : Nat) (w : Word) : State :=
  if bitsOf w 0 2 = 3 then raise s .reservedEnc
  else
    let s := (List.range 8).foldl (fun s k => wr s (ciph R_CIPH_KEYW0 e + 4 * k) 0) s
    let s := setFld (setFld s (ciph R_CIPH_KCTL e) 0 2 (bitsOf w 0 2)) (ciph R_CIPH_KCTL e) 16 1 0
    setEng s e { engOf s e with written := 0 }

/-- CIPH_KCTL_WRITE (R359). -/
def execCiphKctlWrite (e : Fin 2) (w : Word) (s : State) : Host.Outcome State Fault Refusal :=
  .next (whenRunning (begin_ s) fun s => kctlSet s e w)

/-- A word of the key is written (R359); the last one outstanding loads the key and increments KGEN. -/
def keywSet (s : State) (e k : Nat) (w : Word) : State :=
  let n := klenWords s e
  if k ≥ n then s
  else
    let s := wr s (ciph R_CIPH_KEYW0 e + 4 * k) w
    let old := (engOf s e).written
    let new := old ||| BitVec.ofNat 8 (2 ^ k)
    let s := setEng s e { engOf s e with written := new }
    let all : BitVec 8 := BitVec.ofNat 8 (2 ^ n - 1)
    if new = all ∧ old ≠ all then
      let g := fld s (ciph R_CIPH_KCTL e) 8 8
      setFld (setFld s (ciph R_CIPH_KCTL e) 16 1 1) (ciph R_CIPH_KCTL e) 8 8 (g + 1)
    else s

/-- CIPH_KEYW_WRITE (R359). -/
def execCiphKeywWrite (e : Fin 2) (k : Fin 8) (w : Word) (s : State) : Host.Outcome State Fault Refusal :=
  .next (whenRunning (begin_ s) fun s => keywSet s e k w)

/-- STORE_JOB (R367): the vault's sector job over the bytes it reads at its source, with the status it completes with. -/
def execStoreJob (slot : BitVec 9) (first : BitVec 64) (run : Sectors) (decrypt : Bool) (s : State) :
    Host.Outcome State Fault Refusal :=
  .next (whenRunning (begin_ s) fun s =>
    let st : Status :=
      if run.count = 0 ∨ run.count > 2048 ∨ first.toNat + run.count > 2 ^ 64 then .range
      else delivery s slot.toNat 6 (if decrypt then useDec else useEnc)
    let s := { s with cipher := { s.cipher with storeLast := st.code } }
    if st ≠ .ok then s
    else
      let b := xts (slotOf s slot.toNat).key decrypt first.toNat (padTo (4096 * run.count) run.src)
      { s with out := { s.out with vault := s.out.vault ++ b } })

/-- ENGINE_WD (R374): engines 0 and 1 are bulk, 2 STORE, 3 LANEAUTH. The watchdog of a bulk engine fires on a job or on a hold.
Mark: DEDUCED (log entry 21). -/
def execEngineWd (e : Fin 4) (s : State) : Host.Outcome State Fault Refusal :=
  .next (whenRunning (begin_ s) fun s =>
    if e.val < 2 ∧ (engOf s e).job.isNone ∧ ! held s e then s
    else
    let s := if e.val < 2 then
        match (engOf s e).job with
        | some j =>
          let (k, s) := draw s
          completeJob s e j.vault j.desc .overrun 6 (min (Config.freeNat k) j.desc.len.toNat) 0
        | none => s
      else s
    let s := if e.val = 3 then { s with cipher := { s.cipher with cache := [] } } else s
    let s := if held s e then releaseBlock s e else s
    let s := if e.val < 2 then statInc s (ciph R_CIPH_WD_CNT e) else s
    let s := queueEntry (raise s .engineWd) (.tamper 2 e.val)
    let now := s.time.ticks
    let fs := now :: s.cipher.firings.filter fun t => decide (now - t < ticksPerS)
    let s := { s with cipher := { s.cipher with firings := fs } }
    if fs.length ≥ 3 then causeArises s .engine else s)

/-- LA_SAVE (R373): L and T of every profile go to the log flash. -/
def execLaSave (s : State) : Host.Outcome State Fault Refusal := .next (whenRunning (begin_ s) laSaveNow)

/-! ## LA_CONFIG (R368 to R371) -/

/-- The checks of a profile (Table 13.5): images of CIPH_LA_CFG, WIN and DID. -/
def checkLa (prof : BitVec 16) (img : List Word) : Option Status :=
  let c := imgAt img 0
  let fv := bitsOf c 8 4
  let ml := bitsOf c 12 4
  if img.length ≠ 3 then some .badParam
  else if prof.toNat > 1023 then some .range
  else if bitsOf c 31 1 = 0 then none
  else if fv < 1 ∨ fv > 8 ∨ ml < 3 ∨ ml > 8 then some .range
  else if (imgAt img 1).toNat = 0 ∨ (fv < 4 ∧ (imgAt img 1).toNat > 2 ^ (8 * fv) - 1) then some .range
  else none

/-- The words of a profile, applied at the next boundary; the profile's cached key is given up. -/
def applyLa (prof : Nat) (img : List Word) (s : State) : State :=
  let s := { s with cipher := { s.cipher with cache := s.cipher.cache.filter fun p => decide (p ≠ prof) } }
  schedule s [(R_CIPH_LA_CFG, prof, imgAt img 0), (R_CIPH_LA_WIN, prof, imgAt img 1), (R_CIPH_LA_DID, prof, imgAt img 2)] .plain

/-- LA_CONFIG (R368). -/
def execLaConfig (r : Req) (prof : BitVec 16) (img : List Word) (s : State) : Host.Outcome State Fault Refusal :=
  .next (dispatch 0x0801 r judgeInstaller (cfgPlan (checkLa prof img) (.la prof img) (applyLa prof.toNat img)) s)

end Sys2Proof.Machine
end

