-- ==== Sys2Proof/Machine/Resets.lean ====
section
/-! DEFINITION. Cold and warm reset, VBKP loss, the sag throttle and the VBAT comparisons (chapters 0
and 3). -/

namespace Sys2Proof.Machine

/-! ## The register file over a reset (R7, R8, R20) -/

/-- Reset every stored word: the bits of `keep` stay, the others take their cold value. -/
def rfReset (keep : RegRow → Word) (rf : Tab Word) : Tab Word :=
  rf.filterMap fun x =>
    let m := ((regRow (x.1 / 8192)).map keep).getD 0
    let v := (x.2 &&& m) ||| (rfCold x.1 &&& ~~~ m)
    if v = rfCold x.1 then none else some (x.1, v)

/-- VBKP loss: the fields of the VBKP domain read zero, the others stay (R8).
Mark: DEDUCED (log entry 24). -/
def rfVbkpLoss (rf : Tab Word) : Tab Word :=
  rf.filterMap fun x =>
    let m := ((regRow (x.1 / 8192)).map RegRow.coldKeep).getD 0
    let v := x.2 &&& ~~~ m
    if v = rfCold x.1 then none else some (x.1, v)

/-! ## VBAT (R83) -/

/-- A comparison with 300 mV of hysteresis on the rising side. -/
def hyst (was : Bool) (mv th : Nat) : Bool := if mv < th then true else if mv ≥ th + 300 then false else was

/-- VBAT takes a value: the comparisons with ACT and PARK follow (Table 3.5).
Mark: DEDUCED (log entry 18). -/
def setVbat (s : State) (mv : Nat) : State :=
  let act := fld s R_PWR_VTH 8 8 * 100
  let park := fld s R_PWR_VTH 16 8 * 100
  { s with power := { s.power with
      vbat := mv, actLow := hyst s.power.actLow mv act, parkLow := decide (park ≠ 0) && hyst s.power.parkLow mv park } }

/-! ## The sag throttle (R86, R87) -/

/-- fclk halves, down to 50 MHz. -/
def halve (s : State) : State := { s with power := { s.power with step := min 3 (s.power.step + 1) } }

/-- A trip: counted, fclk halves, the quiet count restarts (R86, R87, R102). -/
def sagHit (s : State) : State :=
  let s := halve (statInc s R_PWR_SAG_CNT)
  { s with power := { s.power with quiet := 0, sagInBeat := true } }

/-! ## Resets of the typed state -/

/-- A role's session over a reset: closed, its challenge gone; the failure count and lockout lie in the VBKP
domain.
Mark: DEDUCED (log entry 23). -/
def sessReset (x : Sess) : Sess := { Sess.closed with fails := x.fails, lockS := x.lockS }

/-- Sessions over a reset: their close entries are written at the next start-up (R42). -/
def sessResets (t : Tab Sess) : Tab Sess := [1, 2, 3].foldl (fun t r => tset Sess.closed t r (sessReset (tget Sess.closed t r))) t

/-- NFC over a reset (R425). -/
def nfcReset' (n : Nfc) : Nfc :=
  { n with active := false, window := false, reserve := [], held := [], ex := .idle, chal := false, subChal := false,
           hostChal := none, apdu := none, selected := 0 }

/-- Bolts over a reset: UNKNOWN, with the last commanded position kept (R482, R483). -/
def boltsReset (t : Tab Bolt) : Tab Bolt :=
  (List.range 4).foldl (fun t b => tset Bolt.init t b { Bolt.init with lastEngage := (tget Bolt.init t b).lastEngage }) t

/-- Trackers, channels and outputs over a reset (R483); ODO, TRIP_MM and acc are kept. -/
def wheelsOver (w : Wheels) : Wheels :=
  { wheelsReset with odo := w.odo, tripMm := w.tripMm, acc := w.acc, lastSample := w.lastSample, bolts := boltsReset w.bolts }

/-- The Helber domain over a reset (R563): the member view, blobs and pushes are gone.
Mark: DEDUCED (log entry 23). -/
def hlbOver (h : Hlb) : Hlb :=
  { hlbReset with behind := h.behind, immobReq := h.immobReq, forceLock := h.forceLock }

/-- The bridge, dispatcher, switch, engines and services over any reset (R278, R375, R512, R534, R588).
Mark: DEDUCED (log entry 23). -/
def volatileOver (s : State) : State :=
  { s with
    shadow := [], sess := sessResets s.sess, disp := dispReset, nfc := nfcReset' s.nfc, changes := [],
    ports := [], cipher := { cipherReset with saved := s.cipher.saved }, bridge := bridgeReset, hlb := hlbOver s.hlb,
    wheels := wheelsOver s.wheels, tables := tablesReset,
    ledger := { s.ledger with queue := [], shLtHi := 0, shWallHi := 0 },
    freeze := freezeReset,
    power := { s.power with step := 0, quiet := 0, sagInBeat := false, shed := false, wakeOut := false, sleepPend := false, gates := [], jobs := [] } }

/-- Sensors that are still tripped as the reset ends count as new trips (R99).
Mark: DEDUCED (log entry 20). -/
def sagAfter (s : State) : State :=
  let s := if s.power.vcSag then sagHit s else s
  if s.power.vbSag then sagHit s else s

/-- A cold reset of the core (R7). The VBKP domain and the flash are left as they are.
Mark: DEDUCED (log entry 23). -/
def coldCore (s : State) : State :=
  let s := volatileOver s
  let s := { s with
    rf := rfReset RegRow.coldKeep s.rf, sel := [], lanes := [], net := netReset, time := timeReset,
    fuses := { fusesReset with selB := s.fuses.selB, slotA := s.fuses.slotA, slotB := s.fuses.slotB, burnt := s.fuses.burnt }, bgs := bgsReset,
    deny := { Deny.empty with lastSec := s.deny.lastSec },
    boot := { bootReset with step := 0 },
    vault := { s.vault with slotsReady := false, storeOk := false, rngFailed := false } }
  sagAfter s

/-- A lane over a warm reset (R182): SWAPPED, RETRIES, LATCHED and the fault are kept.
Mark: DEDUCED (log entry 23). -/
def laneWarm (x : Lane) : Lane :=
  { Lane.init with st := if x.st = .latched ∨ (x.st = .shed ∧ x.preShed = .latched) then .latched else .off, faults := x.faults, cause := x.cause,
                   retries := x.retries, swapped := x.swapped }

/-- Domains over a warm reset (R154): LOCKED and ACQUIRE enter HOLDOVER. -/
def domsWarm (s : State) : State :=
  [0, 1, 2].foldl (fun s k =>
    let d := tget Dom.init s.time.doms k
    let d := { d with shSecLo := 0, shSecHi := 0, shFrac := 0 }
    if d.st = .locked ∨ d.st = .acquire then
      raise { s with time := { s.time with doms := tset Dom.init s.time.doms k { d with st := .holdover, good := 0, holdTicks := 0 } } } .holdEnter
    else { s with time := { s.time with doms := tset Dom.init s.time.doms k d } }) s

/-- Trigger channels over a warm reset: vault-owned ones keep running, the others are OFF (R154). -/
def trgWarm (old s : State) : State :=
  (List.range 32).foldl (fun s c =>
    if bit old (R_TRG_CFG + 0x20 * c) 0 31 then wr s (R_TRG_CFG + 0x20 * c) (rd old (R_TRG_CFG + 0x20 * c)) else s) s

/-- A warm reset (R109, R154, R182, R397): start-up begins at step 0 with the fuse values in use.
Mark: DEDUCED (log entry 23). -/
def warmCore (s0 : State) : State :=
  let s := volatileOver s0
  let s := { s with
    rf := rfReset RegRow.warmKeep s.rf, sel := [],
    lanes := (List.range 96).foldl (fun t n => tset Lane.init t n (laneWarm (tget Lane.init s.lanes n))) [],
    net := { netReset with spillLost := s.net.spillLost },
    time := { s.time with chgPend := none, ovrCount := 0, noCheck := false },
    bgs := { bgsReset with fwEn := s.bgs.fwEn, tempLast := s.bgs.tempLast, chainDone := s.time.ticks },
    boot := { bootReset with warm := true, fusesDone := s.boot.fusesDone, vaultBad := s.boot.vaultBad },
    vault := { s.vault with slotsReady := false, storeOk := false, rngFailed := false },
    power := { s.power with phase := .startup, cur := .dormant } }
  sagAfter (lanesFollow (trgWarm s0 (domsWarm s)))

/-! ## VBKP loss (R82) -/

/-- Everything in the VBKP domain is lost: the root, the recorded mode, ledger time and the ledger's head,
the trip, the lockouts, tag memory and the wake copies. The immobiliser is set, at the first standstill while a tracker
reports motion (R73). The spec does not say what becomes of the automatic arming of VBAT_RISE (R97): it ends.
Mark: DEDUCED and DESIGN CHOICE (log entries 22, 24). -/
def vbkpLost (s : State) : State :=
  { s with
    rf := rfVbkpLoss s.rf,
    power := { s.power with
      recorded := .dormant, prev := .dormant, qcause := .none, lowEnergy := false, riseAuto := false, alarmLeft := 0,
      osc := false, oscPeriods := 0,
      cur := if s.power.phase = .asleep then .dormant else s.power.cur },
    vault := { s.vault with
      root := List.replicate 32 0, rootCheck := List.replicate 8 0, storeSeq := 0, storeChain := List.replicate 32 0, mapHash := List.replicate 32 0, rootPresent := false,
      slots := tset Slot.empty s.vault.slots 0 Slot.empty, immob := s.vault.immob || ! motionNow s,
      immobPend := motionNow s && ! s.vault.immob,
      lockPend := false, closePend := false, toRented := false, groupTampered := false },
    sess := [1, 2, 3].foldl (fun t r =>
      tset Sess.closed t r { tget Sess.closed t r with fails := 0, lockS := 0, locked := false }) s.sess,
    nfc := { s.nfc with tag := [], nfcPath := CredPath.clear, hostPath := CredPath.clear, pending := none, revoked := [], revList := [], leTimes := [] },
    ledger := { ledgerReset with ring := s.ledger.ring, queue := [] },
    aon := aonReset,
    wheels := { s.wheels with odo := 0, tripMm := 0, acc := 0, lastSample := none,
                              bolts := (List.range 4).foldl (fun t b =>
                                tset Bolt.init t b { tget Bolt.init t b with lastEngage := false }) s.wheels.bolts } }

end Sys2Proof.Machine
end

