-- ==== Sys2Proof/Machine/Power.lean ====
section
/-! DEFINITION. The power manager (chapter 3): wakes, rails, brown-out, the sag throttle, idle timers,
start and stop requests, and gate votes. -/

namespace Sys2Proof.Machine

/-! ## Wakes (R76 to R80) -/

/-- The 32.768 kHz period in force, as ledger seconds and fraction. -/
def oscPeriod (s : State) : Nat × Nat := (s.ledger.sec, s.ledger.frac)

/-- The core starts from off: on the entry island when VBAT is below 4.5 V, else with the rail phase
(R79, R405).
Mark: DEDUCED (log entry 16). -/
def startCore (s : State) : State :=
  if s.power.vbat < 4500 then
    coldCore { s with power := { s.power with
      lowEnergy := true, phase := .island, sleepIn := s.power.cur, dead := 0, railWait := none, wakePer := some (oscPeriod s) } }
  else
    railOn { s with power := { s.power with
      phase := .railPhase, sleepIn := s.power.cur, railRetries := 0, railSettle := false, dead := 0,
      railWait := none, wakePer := some (oscPeriod s) } } 0

/-- A wake source fires: its bit and the WAKE_OUT request are recorded (R77, R78).
Mark: DEDUCED (log entry 16). -/
def noteWake (s : State) (src : Nat) : State :=
  let s := orReg s R_PWR_WAKE_CAUSE 0 (fieldMask src 1)
  if bit s R_PWR_WAKE_ARM 0 (16 + src) then { s with power := { s.power with woutPend := true } } else s

/-- A wake source can still be recorded: the device sleeps or is in the rail phase, or the wake that put it on the entry
island fell in this very 32.768 kHz period (R77). -/
def wakeOpen (s : State) : Bool :=
  decide (s.power.phase = .asleep) || decide (s.power.phase = .railPhase) ||
  (decide (s.power.phase = .island) && s.power.osc && decide (s.power.wakePer = some (oscPeriod s)))

/-- The device sleeps and source `src` of Table 3.4 fires: from SENTRY and by FIELD it starts the core; by
ALARM or VBAT_RISE from DORMANT it enters SENTRY, or the mode R75 derives (Table 3.2).
Mark: DEDUCED (log entry 16). -/
def wakeBy (s : State) (src : Nat) : State :=
  match s.power.phase with
  | .railPhase => noteWake s src
  | .island => if wakeOpen s then noteWake s src else s
  | .asleep =>
    if s.power.cur = .sentry ∨ src = 0 then startCore (noteWake s src)
    else if s.power.vbat < 4500 then noteWake s src
    else if src = 4 ∧ s.power.recorded ≠ .dormant ∧ s.power.recorded ≠ .sentry then startCore (noteWake s src)
    else sleepTo (noteWake s src) .sentry
  | _ => s

/-- FIELD_WAKE (R77, R76): the NFC field is detected in DORMANT or SENTRY. -/
def execFieldWake (vbat : Nat) (s : State) : Host.Outcome State Fault Refusal :=
  let s := begin_ s
  .next (if wakeOpen s then wakeBy (setVbat s vbat) 0 else s)

/-- PWR_ALARM reaches zero: the ALARM source fires when armed and asleep (R106, R76). -/
def alarmFire (s : State) : State :=
  let s := wr { s with power := { s.power with alarmLeft := 0 } } R_PWR_ALARM 0
  if bit s R_PWR_WAKE_ARM 0 8 && wakeOpen s then wakeBy s 3 else s

/-- ALARM_WAKE (R106). -/
def execAlarmWake (s : State) : Host.Outcome State Fault Refusal :=
  let s := begin_ s
  .next (if s.power.alarmLeft = 0 then s else alarmFire s)

/-- VBAT_RISE_SAMPLE (R76): a sample on the 250 ms grid; at most four earlier ones lie within 1 s. -/
def execVbatRiseSample (mv : Nat) (s : State) : Host.Outcome State Fault Refusal :=
  let s := begin_ s
  .next (if ! wakeOpen s then s
    else
      let fires := s.power.samples.any fun x => decide (mv > x + 1000)
      let s := setVbat { s with power := { s.power with samples := (mv :: s.power.samples).take 4 } } mv
      if fires ∧ (bit s R_PWR_WAKE_ARM 0 9 ∨ s.power.riseAuto) then wakeBy s 4 else s)

/-- WIN_WAKE (R76): a WAKE_IN pin at its active level for 50 us in SENTRY, when armed. -/
def execWinWake (pin : Fin 4) (s : State) : Host.Outcome State Fault Refusal :=
  let s := begin_ s
  .next (if s.power.cur = .sentry ∧ bit s R_PWR_WAKE_ARM 0 pin ∧ wakeOpen s then wakeBy s 1 else s)

/-! ## Lane wakes (R171 to R174) -/

/-- The copied wake configuration of a lane whose receiver runs. -/
def wakeCopy (s : State) (n : Nat) : Option WakeCopy :=
  if s.power.cur = .sentry ∧ wakeOpen s ∧ s.power.en.getLsbD 4 ∧ s.power.pg.getLsbD 4 ∧ ! tget false s.aon.stopped n then tget none s.aon.copies n else none

/-- A classical frame matches a wake configuration (Table 6.6). -/
def wakeMatch (c : WakeCopy) (ide : Bool) (id : BitVec 29) (dlc : BitVec 4) (data : BitVec 64) : Bool :=
  let idm := c.idm.toNat % 2 ^ 29
  let noMask := decide (c.dm0 = 0) && decide (c.dm1 = 0)
  let dm : BitVec 64 := BitVec.ofNat 64 (c.dm0.toNat + 2 ^ 32 * c.dm1.toNat)
  decide (bitsOf c.cfg 0 1 = 1) && decide (id.toNat &&& idm = (c.id.toNat % 2 ^ 29) &&& idm) &&
  decide (bitsOf c.cfg 3 1 = b2n ide) && (decide (bitsOf c.cfg 8 1 = 0) || decide (bitsOf c.cfg 4 4 = dlc.toNat)) &&
  (noMask || decide (data &&& dm ≠ 0))

/-- A wake event meets a lane's condition (Table 6.6). -/
def wakeMeets (s : State) (n : Nat) (c : WakeCopy) : LaneWakeEvt → Bool
  | .frame ide id dlc data => decide (c.pers = 1) && wakeMatch c ide id dlc data
  | .wup => decide (c.pers = 1) && decide (bitsOf c.cfg 1 1 = 1)
  | .frameErrors => decide (c.pers = 1) && decide (bitsOf c.cfg 2 1 = 1) && decide ((tget Lane.init s.lanes n).fec > 31)
  | .linBreak => decide (c.pers = 2)
  | .t1sWake => decide (c.pers = 3)

/-- A lower-numbered lane's wake of the same 32.768 kHz period is recorded already (R173).
Mark: DEDUCED (log entry 16). -/
def wakeShadowed (s : State) (n : Nat) : Bool :=
  s.power.osc && decide (s.aon.wakeAt = some (oscPeriod s)) && decide (fld s R_PWR_WAKE_CAUSE 8 7 < n)

/-- Write the records of a lane wake (R173). A wake without a frame leaves the identifier and data open: free
values.
Mark: DEDUCED (log entry 16). -/
def laneWakeRecord (s : State) (n : Nat) (e : LaneWakeEvt) : State :=
  let s := { s with aon := { s.aon with wakeAt := some (oscPeriod s) } }
  let s := wr s R_PWR_WAKE_CAUSE (putBits (rd s R_PWR_WAKE_CAUSE) 8 8 (n + 128))
  let (id, d0, d1, s) : Word × Word × Word × State := match e with
    | .frame _ id _ data => (id.setWidth 32, data.setWidth 32, (data >>> 32).setWidth 32, s)
    | _ =>
      let (k, s) := draw s
      let (j, s) := draw s
      let (i, s) := draw s
      (Config.freeWord k, Config.freeWord j, Config.freeWord i, s)
  let s := wr s R_LANE_WAKE_LAST (fieldMask 31 1 ||| (rd s R_LANE_WAKE_LAST &&& fieldMask 30 1) ||| (id &&& fieldMask 0 29))
  wr (wr s R_LANE_WAKE_DATA d0) (R_LANE_WAKE_DATA + 4) d1

/-- Record a lane wake: it overwrites what stands, except a lower lane's wake of the same period (R173).
Mark: DEDUCED (log entry 16). -/
def noteLaneWake (s : State) (n : Nat) (e : LaneWakeEvt) : State :=
  if wakeShadowed s n then s else laneWakeRecord s n e

/-- LANE_WAKE (R173): an armed lane meets its wake condition in SENTRY. -/
def execLaneWake (lane : Fin 96) (evt : LaneWakeEvt) (s : State) : Host.Outcome State Fault Refusal :=
  let s := begin_ s
  .next (match wakeCopy s lane with
    | none => s
    | some c => if wakeMeets s lane c evt then wakeBy (noteLaneWake s lane evt) 2 else s)

/-- WAKE_RECEIVER_FRAME (R172): the wake-frame error counter of a CAN wake receiver. -/
def execWakeReceiverFrame (lane : Fin 96) (ok : Bool) (s : State) : Host.Outcome State Fault Refusal :=
  let s := begin_ s
  .next (match wakeCopy s lane with
    | none => s
    | some c =>
      if c.pers ≠ 1 then s
      else
        let x := laneOf s lane
        let f := if ok then x.fec - 1 else x.fec + 1
        let s := setLane s lane { x with fec := if f > 31 ∧ bitsOf c.cfg 2 1 = 0 then 0 else f }
        if f > 31 ∧ bitsOf c.cfg 2 1 = 1 then wakeBy (noteLaneWake s lane .frameErrors) 2 else s)

/-- WAKE_RECEIVER_SHORT (R174). -/
def execWakeReceiverShort (lane : Fin 96) (s : State) : Host.Outcome State Fault Refusal :=
  let s := begin_ s
  .next (match wakeCopy s lane with
    | none => s
    | some _ => orReg { s with aon := { s.aon with stopped := tset false s.aon.stopped lane true } } R_LANE_WAKE_LAST 0 (fieldMask 30 1))

/-! ## Rails (R79 to R81, R102) -/

/-- WAKE_OUT rises at the end of the rail phase (R78).
Mark: DEDUCED (log entry 16). -/
def woutRise (s : State) : State :=
  if s.power.woutPend then { s with power := { s.power with wakeOut := true, woutPend := false } } else s

/-- The mode whose rails come up: during start-up the one R75 is to derive. -/
def railMode (s : State) : Mode :=
  match s.power.phase with
  | .awake => s.power.cur
  | .asleep => s.power.cur
  | _ => match s.power.recorded with
    | .rented => .rented
    | .drive => .drive
    | .quarantine => .quarantine
    | _ => .approach

/-- Power-good of rail `r` (R79): rail 0 ends the off state with a cold reset (R7), rail 1 ends the rail
phase, and the next rail of the order is enabled. -/
def railGood (s : State) (r : Nat) : State :=
  let s := { s with power := { s.power with pg := s.power.pg ||| BitVec.ofNat 5 (2 ^ r), railWait := none } }
  let s := match s.power.phase with
    | .railPhase =>
      if r = 0 then coldCore s
      else if r = 1 then woutRise { s with power := { s.power with phase := .startup, railRetries := 0 } } else s
    | .island =>
      if r = 1 then
        woutRise { s with power := { s.power with phase := .startup, lowEnergy := false, railRetries := 0 } }
      else s
    | _ => s
  let s := if r = 2 then orReg s R_SYS_PINSTAT 0 2 else s
  railNext s (railMode s)

/-- RAIL_POWER_GOOD (R79): of the rail awaited, or of rail 4, still coming up from SENTRY. -/
def execRailPowerGood (rail : Fin 5) (s : State) : Host.Outcome State Fault Refusal :=
  let s := begin_ s
  .next (if s.power.railWait = some rail.val then railGood s rail
    else if s.power.en.getLsbD rail && ! s.power.pg.getLsbD rail then
      { s with power := { s.power with pg := s.power.pg ||| BitVec.ofNat 5 (2 ^ rail.val) } }
    else s)

/-- Rail 0 or 1 missed its bound in a bring-up (R80): three failures end it. -/
def coreRailFail (s : State) (r : Nat) : State :=
  let s := railOff (railOff s 1) 0
  let n := s.power.railRetries + 1
  if n < 3 then { s with power := { s.power with railRetries := n, railSettle := true, railWait := none } }
  else
    let s := orReg s R_PWR_RAIL 0 (fieldMask (16 + r) 1)
    let s := { s with power := { s.power with railRetries := 0, railSettle := false, railWait := none } }
    match s.power.phase with
    | .railPhase => { s with power := { s.power with phase := .asleep, woutPend := false } }
    | _ => { s with power := { s.power with leBlocked := true } }

/-- Rail 3 or 4 is gone: QUARANTINE with cause RAIL while the core runs; asleep, and until start-up begins, only FAIL is
set (R80, R81), and the bring-up of a wake tries rail 4 again.
Mark: DEDUCED (log entry 17). -/
def railCause (s : State) (r : Nat) : State :=
  let fail (s : State) : State := orReg s R_PWR_RAIL 0 (fieldMask (16 + r) 1)
  match s.power.phase with
  | .railPhase => fail (railOff s r)
  | .asleep => fail (railDead s r)
  | _ => causeArises (lanesFollow (fail (railDead s r))) .rail

/-- RAIL_TIMEOUT (R80, R64): the awaited rail misses its 5 ms bound. -/
def execRailTimeout (rail : Fin 5) (s : State) : Host.Outcome State Fault Refusal :=
  let s := begin_ s
  .next (if s.power.railWait ≠ some rail.val then
      (if s.power.en.getLsbD rail && ! s.power.pg.getLsbD rail then railCause s rail else s)
    else
      let r := rail.val
      if r ≤ 1 then coreRailFail s r
      else if r = 2 then
        let s := orReg (railDead s 2) R_SYS_PINSTAT 0 4
        railNext s (railMode s)
      else
        let s := railCause s r
        railNext s (railMode s))

/-- RAIL_RETRY (R80): 10 ms after a failed bring-up. -/
def execRailRetry (s : State) : Host.Outcome State Fault Refusal :=
  let s := begin_ s
  .next (if s.power.railSettle then railOn { s with power := { s.power with railSettle := false } } 0 else s)

/-- Spill-store loss (R262). -/
def spillLoss (s : State) : State :=
  let s := dropSpilled s fun _ => true
  let s := { s with net := { s.net with spillLost := true } }
  raise (orReg s R_SW_SPILL_STAT 0 (fieldMask 31 1)) .spillLost

/-- RAIL_LOSS (R81): BK_PGn falls for more than 5 us while its rail is enabled.
Mark: DEDUCED (log entry 17). -/
def execRailLoss (rail : Fin 5) (s : State) : Host.Outcome State Fault Refusal :=
  let s := begin_ s
  .next (if ! (s.power.en.getLsbD rail && s.power.pg.getLsbD rail) then s
    else if rail.val ≤ 1 then brownOut (orReg s R_PWR_RAIL 0 (fieldMask (16 + rail.val) 1))
    else if rail.val = 2 then spillLoss (orReg (railDead s 2) R_PWR_RAIL 0 (fieldMask 18 1))
    else railCause s rail)

/-! ## Brown-out, VBKP, lanes shed (R82, R84, R96, R97, R407) -/

/-- BROWN_OUT (R96, R97): one of its conditions holds. VBAT below BROWN counts in every mode but on the entry island, where
only VCORE below 0.700 V does (R405). -/
def execBrownOut (s : State) : Host.Outcome State Fault Refusal := .next (brownOut (begin_ s))

/-- FIELD_LOSS_TIMEOUT (R407): the field gone for 2 s under LOW_ENERGY. -/
def execFieldLossTimeout (s : State) : Host.Outcome State Fault Refusal :=
  let s := begin_ s
  .next (if s.power.lowEnergy ∧ s.power.phase ≠ .asleep then
      brownOut { s with nfc := { nfcReset' s.nfc with field := false } } else s)

/-- VBKP_LOSS (R82).
Mark: DEDUCED (log entry 24). -/
def execVbkpLoss (s : State) : Host.Outcome State Fault Refusal := .next (vbkpLost (begin_ s))

/-- VBKP_POWER_UP (R620): the domain reaches its range; VBKP absent at first power-up is a VBKP loss, so
the domain reads as after one, and its 32.768 kHz oscillator starts. The CLKGLITCH edge watch arms after
1,024 periods.
Mark: DEDUCED (log entry 17). -/
def execVbkpPowerUp (s : State) : Host.Outcome State Fault Refusal :=
  let s := vbkpLost (begin_ s)
  .next { s with power := { s.power with osc := true } }

/-- LANE_SHED (R84, R183): every lane without CRANK_KEEP turns off and its frames are dropped.
Mark: DEDUCED (log entry 30). -/
def execLaneShed (s : State) : Host.Outcome State Fault Refusal :=
  .next (if ! clocked s then begin_ s else
    let s := begin_ s
    let s := { s with power := { s.power with shed := true } }
    (List.range 96).foldl (fun s n =>
      let x := laneOf s n
      if crankKeep s n ∨ x.st = .shed ∨ x.st = .off then s
      else
        let keep := if x.st = .fault ∨ x.st = .latched then x.st else .off
        setLane (flushLane s n) n { laneOf s n with st := .shed, preShed := keep, probe := false, swapPend := false }) s)

/-- LANE_SHED_RETURN (R84, R183): shed lanes return, a faulted one to its fault. -/
def execLaneShedReturn (s : State) : Host.Outcome State Fault Refusal :=
  .next (if ! clocked s then begin_ s else
    let s := begin_ s
    let s := { s with power := { s.power with shed := false } }
    (List.range 96).foldl (fun s n =>
      let x := laneOf s n
      if x.st ≠ .shed then s
      else if x.preShed ≠ .off then setLane s n { x with st := x.preShed, preShed := .off }
      else laneToTarget (setLane s n { x with st := .off }) n) s)

/-- LOW_ENERGY_CLEAR (R102): VBAT reaches 4.5 V in APPROACH under LOW_ENERGY; the rails come up. -/
def execLowEnergyClear (mv : Nat) (s : State) : Host.Outcome State Fault Refusal :=
  let s := setVbat (begin_ s) mv
  .next (if s.power.phase = .island ∧ s.boot.step = 4 ∧ mv ≥ 4500 ∧ ! s.power.leBlocked ∧ s.power.railWait = none ∧
      ! s.power.railSettle then railOn { s with power := { s.power with railRetries := 0 } } 0 else s)

/-! ## The sag throttle (R86) -/

/-- SAG_TRIP (R86). -/
def execSagTrip (vcore : Bool) (s : State) : Host.Outcome State Fault Refusal :=
  let s := begin_ s
  .next (if ! clocked s then s
    else sagHit { s with power := { s.power with vcSag := s.power.vcSag || vcore, vbSag := s.power.vbSag || ! vcore } })

/-- SAG_HALVE (R86): another 10 us with a sensor tripped. -/
def execSagHalve (s : State) : Host.Outcome State Fault Refusal :=
  let s := begin_ s
  .next (if clocked s ∧ (s.power.vcSag ∨ s.power.vbSag) then halve s else s)

/-- SAG_RELEASE (R86). -/
def execSagRelease (vcore : Bool) (s : State) : Host.Outcome State Fault Refusal :=
  let s := begin_ s
  .next { s with power := { s.power with vcSag := s.power.vcSag && ! vcore, vbSag := s.power.vbSag && vcore } }

/-! ## Timers of Table 3.2 (R71, R101) -/

/-- SENTRY_DWELL_EXPIRY.
Mark: DEDUCED (log entry 18). -/
def execSentryDwellExpiry (s : State) : Host.Outcome State Fault Refusal :=
  let s := begin_ s
  .next (if s.power.phase = .asleep ∧ s.power.cur = .sentry ∧ fld s R_PWR_TIMERS 16 12 ≠ 0 then sleepTo s .dormant else s)

/-- PARK_TIMEOUT: VBAT below PARK for 60 s in SENTRY.
Mark: DEDUCED (log entry 18). -/
def execParkTimeout (s : State) : Host.Outcome State Fault Refusal :=
  let s := begin_ s
  .next (if s.power.phase = .asleep ∧ s.power.cur = .sentry ∧ fld s R_PWR_VTH 16 8 ≠ 0 then sleepTo s .dormant else s)

/-- APPROACH has nothing in hand: no field, session, credential or command, and the preconditions of its
row hold.
Mark: DEDUCED (log entry 19). -/
def approachIdle (s : State) : Bool :=
  ! s.nfc.field && (List.range 4).all (fun r => ! (sessOf s r).isOpen) &&
  decide (s.nfc.ex ≠ .busy) && decide (s.nfc.ex ≠ .submitted) && s.disp.spiReq.isEmpty && s.disp.ringReq.isEmpty &&
  s.ledger.trip.isNone && allLocked s && s.ledger.queue.isEmpty

/-- From APPROACH to SENTRY, once the vault holds no block that would lose its power (R95). -/
def sleepWhenFree (s : State) : State :=
  if (List.range 10).any (held s) then { s with power := { s.power with sleepPend := true } } else sleepFrom s .sentry

/-- The way to SENTRY that waited for the vault's release goes on, where it still fits (R72, R95).
Mark: DEDUCED (log entry 19). -/
def resumeSleep (s : State) : State :=
  if ! s.power.sleepPend || (List.range 10).any (held s) then s
  else
    let s := { s with power := { s.power with sleepPend := false } }
    if mode s = .approach ∧ approachIdle s then sleepFrom s .sentry else s

/-- APPROACH_IDLE_EXPIRY.
Mark: DEDUCED (log entry 19). -/
def execApproachIdleExpiry (s : State) : Host.Outcome State Fault Refusal :=
  .next (whenRunning (begin_ s) fun s => if mode s = .approach ∧ approachIdle s then sleepWhenFree s else s)

/-- SERVICE_IDLE_TIMEOUT: no INSTALLER session for 600 s. -/
def execServiceIdleTimeout (s : State) : Host.Outcome State Fault Refusal :=
  .next (whenRunning (begin_ s) fun s => if mode s = .service ∧ ¬ (sessOf s 2).isOpen then enterMode s .approach else s)

/-- DEPOT_IDLE_TIMEOUT: no OPERATOR or MAKER session for 600 s. -/
def execDepotIdleTimeout (s : State) : Host.Outcome State Fault Refusal :=
  .next (whenRunning (begin_ s) fun s =>
    if mode s = .depot ∧ ¬ (sessOf s 1).isOpen ∧ ¬ (sessOf s 3).isOpen then enterMode s .approach else s)

/-- A frame is the request an ENTRY_CONFIG image names: lane, IDE, identifier and masked data. -/
def requestMatch (img : List Word) (lane : Nat) (ide : Bool) (id : BitVec 29) (data : BitVec 64) : Bool :=
  let w0 := img.getD 0 0
  let q (k : Nat) : BitVec 64 := BitVec.ofNat 64 ((img.getD k 0).toNat + 2 ^ 32 * (img.getD (k + 1) 0).toNat)
  decide (img.length = 6) && decide (bitsOf w0 0 8 = lane) && decide ((bitsOf w0 8 8 ≠ 0) = (ide = true)) &&
  decide ((img.getD 1 0).toNat = id.toNat) && decide (data &&& q 2 = q 4)

/-- The start request: RENTED to DRIVE when the trip permits driving and no joined peer reports IMMOB_REQ (Table
20.5), the steering lock is confirmed
released and VBAT is at or above ACT (Table 3.2). -/
def startRequest (s : State) : State :=
  let permits : Bool := match s.ledger.trip with
    | some t => t.drive
    | none => false
  if mode s = .rented ∧ permits ∧ ! s.hlb.immobAny ∧ steeringReleased s ∧ ! s.power.actLow then enterMode s .drive else s

/-- The stop request: DRIVE to RENTED at standstill; before it, held until standstill.
Mark: DEDUCED (log entry 19). -/
def stopRequest (s : State) : State :=
  if mode s = .drive then settle { s with vault := { s.vault with toRented := true } } else s

/-- DRIVE_START_REQUEST. -/
def execDriveStartRequest (lane : Fin 96) (ide : Bool) (id : BitVec 29) (data : BitVec 64) (s : State) :
    Host.Outcome State Fault Refusal :=
  .next (whenRunning (begin_ s) fun s => if requestMatch s.nfc.startFrm lane ide id data then startRequest s else s)

/-- DRIVE_STOP_REQUEST. -/
def execDriveStopRequest (lane : Fin 96) (ide : Bool) (id : BitVec 29) (data : BitVec 64) (s : State) :
    Host.Outcome State Fault Refusal :=
  .next (whenRunning (begin_ s) fun s => if requestMatch s.nfc.stopFrm lane ide id data then stopRequest s else s)

/-! ## Register writes with an effect (R78, R89, R106) -/

/-- WOUT_ACK releases WAKE_OUT (R78). -/
def woutAck (s : State) : State := { s with power := { s.power with wakeOut := false } }

/-- WOUT_ACK_WRITE (R78). -/
def execWoutAckWrite (s : State) : Host.Outcome State Fault Refusal := .next (whenRunning (begin_ s) woutAck)

/-- The countdown is phased from the write; 0 cancels (R106). -/
def alarmSet (s : State) (w : Word) : State :=
  { s with power := { s.power with alarmLeft := bitsOf w 0 24 * 32768 } }

/-- PWR_ALARM_WRITE (R106). -/
def execPwrAlarmWrite (w : Word) (s : State) : Host.Outcome State Fault Refusal :=
  .next (whenRunning (begin_ s) fun s => alarmSet s w)

/-! ## Gate votes (R89 to R94) -/

/-- A lane or port of port group `g` is enabled (R94). -/
def groupEnabled (s : State) (g : Nat) : Bool :=
  (List.range 24).any (fun i => decide (pers s (24 * g + i) ≠ 0)) ||
  (List.range 8).any (fun p => decide (p % 4 = g) && bit s R_PORT_CFG p 0)

/-- A normal-world job started on a block has not completed (R90). -/
def jobOn (s : State) (b : Nat) : Bool := tget false s.power.jobs b

/-- Normal-world work started on a block has not completed (R90): a job, or a conversion on a feedback channel or the
ADC. -/
def blockBusy (s : State) (b : Nat) : Bool :=
  jobOn s b || (decide (6 ≤ b) && decide (b ≤ 9) && (fbOf s (b - 6)).conv.isSome) ||
  (decide (b = 4) && (List.range 4).any fun n => (fbOf s n).conv.isSome)

/-- A block's request bits have changed: PENDING, gated or ON again. -/
def gateRequested (s : State) (b : Nat) : State :=
  match gateWanted s b with
  | none => if gateOf s b = .on then s else answerGates (setGate s b .on) b
  | some _ => if held s b ∨ blockBusy s b then setGate s b .pending else gateNow s b

/-- Set or clear the request bits of one block; an enabled port group refuses a gate (R94).
Mark: DEDUCED (log entry 21). -/
def gateVote (s : State) (b : Nat) (clk pwr : Bool) : State × Bool :=
  let was := (bit s R_PWR_GATE_CLK 0 b, bit s R_PWR_GATE_PWR 0 b)
  if was = (clk, pwr) then (s, true)
  else if 10 ≤ b ∧ ((clk ∧ ¬ was.1) ∨ (pwr ∧ ¬ was.2)) ∧ groupEnabled s (b - 10) then (raise s .gateRefused, false)
  else
    (gateRequested (setFld (setFld s R_PWR_GATE_CLK b 1 (b2n clk)) R_PWR_GATE_PWR b 1 (b2n pwr)) b, true)

/-- A write of PWR_GATE_CLK or PWR_GATE_PWR, block by block (R89, R94).
Mark: DEDUCED (log entry 21). -/
def gateWrite (s : State) (pwr : Bool) (w : Word) : State :=
  (List.range 14).foldl (fun s b =>
    let v := decide (bitsOf w b 1 = 1)
    (if pwr then gateVote s b (bit s R_PWR_GATE_CLK 0 b) v else gateVote s b v (bit s R_PWR_GATE_PWR 0 b)).1) s

/-- GATE_REQUEST_WRITE (R89, R94). -/
def execGateRequestWrite (pwr : Bool) (w : Word) (s : State) : Host.Outcome State Fault Refusal :=
  .next (whenRunning (begin_ s) fun s => gateWrite s pwr w)

/-- GATE_EFFECT (R90): the gate of an unheld block takes effect once its started jobs have completed. -/
def execGateEffect (block : Fin 14) (s : State) : Host.Outcome State Fault Refusal :=
  .next (whenRunning (begin_ s) fun s =>
    if gateOf s block = .pending ∧ ¬ held s block ∧ ¬ blockBusy s block then answerGates (gateNow s block) block else s)

/-- VAULT_HOLD (R92, R364): the vault takes a hold once started normal-world jobs have completed. -/
def execVaultHold (block : Fin 10) (s : State) : Host.Outcome State Fault Refusal :=
  .next (whenRunning (begin_ s) fun s => if held s block ∨ blockBusy s block then s else holdBlock s block)

/-- VAULT_RELEASE (R91). -/
def execVaultRelease (block : Fin 10) (s : State) : Host.Outcome State Fault Refusal :=
  .next (whenRunning (begin_ s) fun s => if held s block then resumeSleep (releaseBlock s block) else s)

/-- BLOCK_GATE (R89 to R94): as writes of the request registers; HELD_SECURE behind a hold, DENIED for an
enabled port group, and with jobs running the answer waits for the gate. -/
def execBlockGate (r : Req) (block kind : BitVec 8) (s : State) : Host.Outcome State Fault Refusal :=
  let b := block.toNat
  .next (dispatch 0x0203 r judgeHostAwake (fun s =>
    if b > 13 ∨ kind.toNat > 2 then Plan.fail .badParam
    else
      let clk := decide (kind.toNat = 1)
      let pwr := decide (kind.toNat = 2)
      let refused := ! (gateVote s b clk pwr).2
      let heldNow := decide (kind.toNat ≠ 0) && held s b
      let waits := decide (kind.toNat ≠ 0) && ! refused && ! heldNow && blockBusy s b
      { status := .ok, bytes := [], changes := true
        act := fun s =>
          let s := (gateVote s b clk pwr).1
          let s := if waits then { s with disp := { s.disp with gateWaits := s.disp.gateWaits ++ [({ req := r, ctx := s.disp.cur }, b)] } } else s
          (s, if refused then .denied else if heldNow then .heldSecure else .ok, [])
        later := fun _ => waits }) s)

/-- MODE_SET's right (R638): DENIED in the HOST context, then the right that the change needs. -/
def judgeModeSet (target : Nat) (s : State) (role : Nat) : Option Status :=
  let m := mode s
  if role = 0 then some .denied
  else if target > 7 then (if lifecycleDenies s role false then some .denied else some .badParam)
  else
    let need : Option (Bool × Bool × Bool) :=
      if target = 5 then some (false, true, false)
      else if target = 6 then some (true, false, true)
      else if target = 2 ∧ m = .service then some (false, true, false)
      else if target = 2 ∧ m = .depot then some (true, false, true)
      else none
    match need with
    | none => if lifecycleDenies s role false then some .denied else some .notInMode
    | some (o, i, k) => judgeRight false o i k anyAwake s role

/-- A change of MODE_SET is a row of Table 3.2 whose precondition holds. -/
def modeRow (s : State) (target : Nat) : Bool :=
  let m := mode s
  let noTrip := s.ledger.trip.isNone
  if target = 5 then (decide (m = .approach) || decide (m = .depot)) && noTrip
  else if target = 6 then (decide (m = .approach) || decide (m = .service)) && noTrip
  else decide (target = 2) && (decide (m = .service) || decide (m = .depot))

/-- MODE_SET (R638, R71, R101). -/
def execModeSet (r : Req) (target : BitVec 8) (s : State) : Host.Outcome State Fault Refusal :=
  .next (dispatch 0x0201 r (judgeModeSet target.toNat) (fun s =>
    if ! modeRow s target.toNat then Plan.fail .notInMode
    else Plan.do_ fun s => enterMode s (if target.toNat = 5 then .service else if target.toNat = 6 then .depot else .approach)) s)

end Sys2Proof.Machine
end

