-- ==== Sys2Proof/Machine/Sems.lean ====
section
/-! DEFINITION. The host bridge's semaphores (R500 to R503, R506). -/

namespace Sys2Proof.Machine

/-- The address of semaphore `k`'s STAT register, which holds HELD, OWNER and GEN. -/
def semStat (k : Nat) : Nat := R_BRG_SEM_STAT + 0x20 * k

/-- The owner of a semaphore; 0 is FREE (Table 18.8). -/
def semOwner (s : State) (k : Nat) : Nat := fld s (semStat k) 16 8

/-- The generation of a semaphore. -/
def semGen (s : State) (k : Nat) : Nat := fld s (semStat k) 0 16

/-- Start the lease of semaphore `k` for owner `o`. -/
def semTake (s : State) (k o : Nat) : State :=
  let s := setFld (setFld s (semStat k) 16 8 o) (semStat k) 31 1 1
  { s with bridge := { s.bridge with lease := tset 0 s.bridge.lease k (s.time.ticks + fld s R_BRG_SEM_LEASE 0 14 * ticksPerUs) } }

/-- An acquisition (R501): a free semaphore is taken, its owner's lease restarts, any other is ignored. A pipeline
never renews. -/
def semAcq (s : State) (k o : Nat) : State :=
  if semOwner s k = 0 then semTake s k o
  else if semOwner s k = o ∧ ¬ (0xF0 ≤ o ∧ o ≤ 0xF3) then semTake s k o else s

/-- Free semaphore `k` and increment its GEN. -/
def semFree (s : State) (k : Nat) : State :=
  let s := setFld (setFld (setFld s (semStat k) 0 16 (semGen s k + 1)) (semStat k) 16 8 0) (semStat k) 31 1 0
  { s with bridge := { s.bridge with lease := tset 0 s.bridge.lease k 0 } }

/-- A forced release (R503). -/
def semForce (s : State) (k : Nat) : State := raise (statInc (semFree s k) R_BRG_SEM_FORCED) .semForced

/-- Force the release of every semaphore whose owner meets a test (R506). -/
def semForceAll (s : State) (p : Nat → Bool) : State :=
  (List.range 16).foldl (fun s k => if semOwner s k ≠ 0 ∧ p (semOwner s k) then semForce s k else s) s

/-- A lease that has run out is a forced release before anything else of the same cycle reaches the semaphore (R513). -/
def semSettle (s : State) (k : Nat) : State :=
  if semOwner s k ≠ 0 ∧ tget 0 s.bridge.lease k ≤ s.time.ticks then semForce s k else s

/-- A host write of an owner code to BRG_SEMk_ACQ: 0x00 and codes from 0xF0 are reserved encodings (R501). The
firmware's own code is 0xF8. -/
def semAcqWrite (s : State) (c : Cls) (k o : Nat) : State :=
  if c = .F ∧ o = 0xF8 then semAcq (semSettle s k) k o
  else if o = 0 ∨ o ≥ 0xF0 then raise s .reservedEnc
  else semAcq (semSettle s k) k o

/-- A release (R502): owner and generation must both be those held. -/
def semRel (s : State) (k : Nat) (w : Word) : State :=
  let s := semSettle s k
  if semOwner s k ≠ 0 ∧ bitsOf w 16 8 = semOwner s k ∧ bitsOf w 0 16 = semGen s k then semFree s k
  else statInc s R_BRG_SEM_STALE

/-- The semaphore of a BRG_SEM register, and its offset in the block. -/
def semReg (a : Nat) : Option (Nat × Nat) :=
  if R_BRG_SEM_ACQ ≤ a ∧ a < R_BRG_SEM_ACQ + 0x200 then some ((a - R_BRG_SEM_ACQ) / 0x20, (a - R_BRG_SEM_ACQ) % 0x20) else none

end Sys2Proof.Machine
end

