-- ==== Sys2Proof/Machine/Wheels.lean ====
section
/-! DEFINITION. Tooth trackers and actuator feedback (chapter 17): the meanings of their commands. -/

namespace Sys2Proof.Machine

/-! ## Teeth (R453 to R464) -/

/-- The span the geometry gives the next tooth after position `k`, and its position. -/
def nextTooth (s : State) (n k : Nat) : Nat × Nat :=
  let N := ttN s n
  let m0 := ttM0 s n
  let m1 := ttM1 s n
  let g1 := ttG1 s n
  if m1 ≠ 0 ∧ k + 1 = g1 - m1 then (g1, m1 + 1)
  else if k + 1 ≥ N - m0 then (0, m0 + 1)
  else (k + 1, 1)

/-- A period consistent with span `sp` after a tooth of pitch `p` (R456). -/
def longEnough (s : State) (n p period sp : Nat) : Bool := decide (p * sp * (100 - ttTol s n) ≤ period * 100)
/-- The period is short enough for span `sp` (R456). -/
def shortEnough (s : State) (n p period sp : Nat) : Bool := decide (period * 100 ≤ p * sp * (100 + ttTol s n))
/-- The period is consistent with span `sp` (R456). -/
def consistent (s : State) (n p period sp : Nat) : Bool := longEnough s n p period sp && shortEnough s n p period sp

/-- Record a counted tooth in the tracker: its stamp, its pitch and its position. -/
def stampTooth (t : Tracker) (pos now sp : Nat) : Tracker :=
  let pitch := (now - t.te) / sp
  if t.seen then
    { t with tooth := pos, te := now, p3 := t.p2, p2 := t.p1, p1 := pitch, pitches := min 3 (t.pitches + 1), speedOff := false }
  else { t with tooth := pos, te := now, seen := true }

/-- What every counted tooth does beside its stamp: the edge counter, motion, distance (R463, R465). -/
def countTooth (s : State) (n : Nat) : State :=
  let s := stat2AddI s (R_TT_EDGES + 0x40 * n) 0 1
  let t := ttOf s n
  let s := setTt s n { t with moving := decide (ttRole s n = 1), motAt := t.te }
  if odoTracker s = some n then addDistance s n else s

/-- A tooth counted in SYNC: the angle becomes exactly its position, a revolution may end, and its angle
events fire (R459, R461, R468). -/
def syncTooth (s : State) (n now : Nat) : State :=
  let t := ttOf s n
  let (pos, sp) := nextTooth s n t.tooth
  let t' := stampTooth t pos now sp
  let newRev := decide (pos = 0)
  let s := setTt s n { t' with bad := t'.bad && ! newRev, rev := if newRev then (t'.rev + 1) % 2 ^ 32 else t'.rev }
  let s := if newRev && decide (t'.rev = 2 ^ 32 - 1) then raise s .angRevWrap else s
  let s := countTooth s n
  evtsAtTooth s n (1024 * t.tooth) (1024 * pos)

/-- The span taken for a tooth in SEARCH: that of gap 0 or gap 1 when the tooth is consistent with it,
else 1. -/
def searchSpan (s : State) (n p period : Nat) : Nat :=
  if ttM0 s n ≠ 0 ∧ consistent s n p period (ttM0 s n + 1) then ttM0 s n + 1
  else if ttM1 s n ≠ 0 ∧ consistent s n p period (ttM1 s n + 1) then ttM1 s n + 1 else 1

/-- The position of the `k`th tooth after tooth 0. -/
def toothAfter (s : State) (n : Nat) : Nat → Nat
  | 0 => 0
  | k + 1 => (nextTooth s n (toothAfter s n k)).1

/-- A tooth counted in SEARCH, and the entry into SYNC (R457). It has no position until then, so TTn_STAT.TOOTH keeps the
last one.
Mark: DEDUCED (log entry 52). -/
def searchTooth (s : State) (n now : Nat) : State :=
  let t := ttOf s n
  let period := now - t.te
  let known := t.seen && decide (t.p1 ≠ 0)
  let t' : Tracker :=
    if ttM0 s n = 0 then
      let ok := known && consistent s n t.p1 period 1
      let run := if ok then t.run + 1 else 0
      if run ≥ 8 then { stampTooth t 0 now 1 with st := .sync, run := 0, bad := false }
      else { stampTooth t t.tooth now 1 with run := run }
    else
      let (_, sp) := nextTooth s n (toothAfter s n t.run)
      let follows := t.gap && known && consistent s n t.p1 period sp
      if follows then
        let run := t.run + 1
        if run ≥ ttNR s n then { stampTooth t 0 now sp with st := .sync, run := 0, gap := false, bad := false }
        else { stampTooth t t.tooth now sp with run := run }
      else if known && consistent s n t.p1 period (ttM0 s n + 1) then
        { stampTooth t t.tooth now (ttM0 s n + 1) with gap := true, run := 0 }
      else { stampTooth t t.tooth now (if known then searchSpan s n t.p1 period else 1) with gap := false, run := 0 }
  distTeeth (countTooth (setTt s n t') n) n

/-- A tooth that breaks sync is counted as the first of the new search.
Mark: DEDUCED (log entry 52). -/
def breakSync (s : State) (n now reason : Nat) : State :=
  let s := loseSync s n reason
  searchTooth s n now

/-- An accepted edge in SYNC (R458, R459).
Mark: DEDUCED (log entry 52). -/
def edgeInSync (s : State) (n now : Nat) : State :=
  let t := ttOf s n
  let (_, sp) := nextTooth s n t.tooth
  let period := now - t.te
  let lo := t.p1 = 0 ∨ longEnough s n t.p1 period sp
  let hi := t.p1 = 0 ∨ shortEnough s n t.p1 period sp
  if lo ∧ hi then syncTooth s n now
  else if ¬ ttTolerant s n then breakSync s n now (if lo then 2 else 1)
  else if t.bad then breakSync s n now 3
  else if ¬ lo then
    statInc (setTt s n { t with bad := true }) (R_TT_DISC + 0x40 * n)
  else setTt (syncTooth s n now) n { ttOf (syncTooth s n now) n with bad := true }

/-- A tracker enters FAULT (R454): safe outputs, no motion, TT_FAULT; out of SYNC it also loses sync. -/
def enterTtFault (s : State) (n code : Nat) : State :=
  odoGuard s <|
    let t := ttOf s n
    if t.st = .off ∨ t.st = .fault then s
    else
      let odo := decide (odoTracker s = some n)
      let s := setTt s n { searchFrom t with st := .fault, fault := code, loss := 5, moving := false, speedOff := true }
      let s := raise (spdSafe s n) .ttFault
      let s := if odo then distSample s true else s
      settle (quorumCheck s)

/-- TOOTH_EDGE (R453): filter, discard, absorb or count.
Mark: DEDUCED (log entry 2). -/
def toothEdge (s : State) (n width : Nat) : State :=
  let t := ttOf s n
  let now := s.time.ticks
  if t.st = .off ∨ t.st = .fault then s
  else if width < fld s (R_TT_CFG2 + 0x40 * n) 0 4 * 100 then s
  else if t.seen ∧ now - t.lastEdge ≤ 500 then
    let s := statInc s (R_TT_DISC + 0x40 * n)
    if t.discRow + 1 ≥ 16 then enterTtFault s n 3 else setTt s n { t with discRow := t.discRow + 1 }
  else
    let hold := match t.absorb with
      | some e => decide (now ≤ e)
      | none => false
    let s := setTt s n { t with lastEdge := now, cap := captureNow s, discRow := 0, absorb := none }
    if hold then s
    else odoGuard s (if t.st = .sync then edgeInSync s n now else searchTooth s n now)

/-- TOOTH_EDGE (R454 to R461): an edge of tracker `n`, its pulse `width` in nanoseconds. -/
def execToothEdge (n : Fin 6) (width : Nat) (s : State) : Host.Outcome State Fault Refusal :=
  .next (whenRunning (begin_ s) fun s => toothEdge s n width)

/-- The predicted pitch (R461). -/
def predict (t : Tracker) : Nat :=
  if t.pitches < 3 then t.p1
  else
    let p : Int := (t.p1 : Int) + ((t.p1 : Int) - (t.p3 : Int)) / 2
    (max ((t.p1 : Int) / 2) (min p (2 * (t.p1 : Int)))).toNat

/-- The interpolated progress past the last counted tooth (R461). -/
def ttProgress (s : State) (n : Nat) : Nat :=
  let t := ttOf s n
  let (_, sp) := nextTooth s n t.tooth
  let p := predict t
  if p = 0 then 0 else min (1024 * (s.time.ticks - t.te) / p) (1024 * sp - 1)

/-- The interpolated angle (R461), 0 outside SYNC. -/
def ttAngle (s : State) (n : Nat) : Nat := (1024 * (ttOf s n).tooth + ttProgress s n) % (1024 * ttN s n)

/-- No tooth has arrived by the deadline t_last + s x P x (1 + TOL) (R459). -/
def toothOverdue (s : State) (n : Nat) : Bool :=
  let t := ttOf s n
  let (_, sp) := nextTooth s n t.tooth
  decide (sp * predict t * (100 + ttTol s n) ≤ 100 * (s.time.ticks - t.te))

/-- STILL_MS has passed since the tick `from_` (R460, R465). -/
def stillPast (s : State) (from_ : Nat) : Bool :=
  decide (from_ + fld s R_ANG_STILL 0 16 * ticksPerMs ≤ s.time.ticks)

/-- The interpolation has reached entry `k`'s angle since the last counted tooth; an entry at that tooth's own angle
fired with the tooth (R468). -/
def angleReached (s : State) (k : Nat) : Bool :=
  let n := evtTracker s k
  let m := 1024 * ttN s n
  let x := (evtAngle s k + m - 1024 * (ttOf s n).tooth) % m
  decide (0 < x) && decide (x ≤ ttProgress s n)

/-- SYNTHETIC_TOOTH (R459): in TOLERANT mode a missing tooth past its deadline is replaced, and the revolution's
budget is used. Once it is used no tooth is inserted: the late tooth then breaks sync with BUDGET (`edgeInSync`).
Mark: DEDUCED (log entry 2). -/
def execSyntheticTooth (n : Fin 6) (s : State) : Host.Outcome State Fault Refusal :=
  .next (whenRunning (begin_ s) fun s =>
    let t := ttOf s n
    if t.st ≠ .sync ∨ ! ttTolerant s n ∨ t.p1 = 0 ∨ t.bad ∨ ! toothOverdue s n then s
    else
      let (_, sp) := nextTooth s n t.tooth
      let p := predict t
      let at_ := t.te + sp * p
      let s := syncTooth s n at_
      let w := ttTol s n * sp * p / 100
      let s := setTt s n { ttOf s n with bad := true, absorb := some (max s.time.ticks (at_ + w) + w) }
      statInc s (R_TT_SYNTH + 0x40 * n.val))

/-- TRACKER_STALL (R460): no tooth for STILL_MS puts a tracker in SYNC into SEARCH with reason STALL.
Mark: DEDUCED (log entry 52). -/
def execTrackerStall (n : Fin 6) (s : State) : Host.Outcome State Fault Refusal :=
  .next (whenRunning (begin_ s) fun s =>
    let t := ttOf s n
    if ! stillPast s t.te then s
    else if t.st = .sync then spdSafe (setTt s n { searchFrom t with loss := 4, speedOff := true }) n
    else if t.st = .search then setTt s n { searchFrom t with speedOff := true } else s)

/-- TRACKER_FAULT (R454): an input fault of Table 17.1. -/
def execTrackerFault (n : Fin 6) (code : Fin 4) (s : State) : Host.Outcome State Fault Refusal :=
  .next (whenRunning (begin_ s) fun s => if code.val = 0 then s else enterTtFault s n code)

/-- TRACKER_FAULT_CLEAR (R454): SEARCH once the condition has been absent for 10 ms; it reports motion
from its exit (R465). -/
def execTrackerFaultClear (n : Fin 6) (s : State) : Host.Outcome State Fault Refusal :=
  .next (whenRunning (begin_ s) fun s =>
    if (ttOf s n).st = .fault then
      odoGuard s (quorumCheck (setTt s n { searchFrom (ttOf s n) with
        fault := 0, seen := false, p1 := 0, moving := decide (ttRole s n = 1), motAt := s.time.ticks }))
    else s)

/-- MOTION_TIMEOUT (R465): the tracker stops reporting motion, and standstill may begin. -/
def execMotionTimeout (n : Fin 6) (s : State) : Host.Outcome State Fault Refusal :=
  .next (whenRunning (begin_ s) fun s =>
    if stillPast s (ttOf s n).motAt then settle (setTt s n { ttOf s n with moving := false }) else s)

/-- ANGLE_EVENT (R468): the interpolated angle of a tracker in SYNC reaches an entry's angle. -/
def execAngleEvent (k : Fin 64) (s : State) : Host.Outcome State Fault Refusal :=
  .next (whenRunning (begin_ s) fun s =>
    let n := evtTracker s k
    if evtValid s k ∧ n < 6 ∧ (ttOf s n).st = .sync ∧ ¬ tget false s.wheels.fired k ∧ angleReached s k then evtPass s k else s)

/-! ## Conversions (R471 to R476) -/

/-- The 16 compare entries of a channel: the POS and CTL addresses. -/
def cmpPosAddr (n k : Nat) : Nat := R_FB0_CMP_POS + 0x100 * n + 8 * k

/-- Entry `k` fires on this conversion (R476). -/
def cmpFires (s : State) (n k : Nat) (old new : Int) : Bool :=
  let pos : Int := (rd s (cmpPosAddr n k)).toInt
  let ctl := rd s (cmpPosAddr n k + 4)
  let dir := bitsOf ctl 1 2
  let up := decide (old < pos) && decide (pos ≤ new)
  let down := decide (pos < old) && decide (new ≤ pos)
  decide (bitsOf ctl 0 1 = 1) &&
  ((up && (decide (dir = 1) || decide (dir = 3))) || (down && (decide (dir = 2) || decide (dir = 3))))

/-- Act on the entries that fired: SET first, then CLEAR, which prevails (R476); ONCE entries clear. -/
def cmpAct (s : State) (n : Nat) (l : List Nat) : State :=
  let act (k : Nat) := bitsOf (rd s (cmpPosAddr n k + 4)) 5 2
  let out (k : Nat) := bitsOf (rd s (cmpPosAddr n k + 4)) 3 2
  let s1 := l.foldl (fun s k => if act k = 1 then setCmpo s (out k) true
    else if act k = 3 then
      let s := setCmpo s (out k) true
      { s with wheels := { s.wheels with pulses := s.wheels.pulses ||| BitVec.ofNat 4 (2 ^ out k) } }
    else s) s
  let s2 := l.foldl (fun s k => if act k = 2 then setCmpo s (out k) false else s) s1
  l.foldl (fun s k => if bitsOf (rd s (cmpPosAddr n k + 4)) 7 1 = 1 then setFld s (cmpPosAddr n k + 4) 0 1 0 else s) s2

/-- An abort of an engage or of a release (R481).
Mark: DEDUCED (log entry 54). -/
def abortMove (s : State) (b : Nat) (motion : Bool) : State :=
  let engage := decide ((boltOf s b).st = .engaging)
  let undo := (boltOf s b).undo
  let st := boltAt s b (fbPos (fbOf s (boltCh s b)))
  let s := endMove s b st
  if undo then s
  else
    let last := decide ((boltOf s b).attempts ≥ 3)
    let s := setBolt s b { boltOf s b with want := if last then none else some engage }
    let s := if last then raise s .boltFault else s
    if motion ∧ canMove s b false then startMove s b false true else s

/-- The control check and the completion of a bolt's move on a conversion (R479 to R481).
Mark: DEDUCED (log entry 54). -/
def boltOnConversion (s : State) (b : Nat) (ctrl f14 f15 : Bool) : State :=
  let x := boltOf s b
  let p := fbPos (fbOf s (boltCh s b))
  if boltMoving x then
    let engage := decide (x.st = .engaging)
    if f15 then faultMove s b
    else if ctrl ∧ engage ∧ ¬ standstill s then abortMove s b true
    else if ctrl ∧ s.power.actLow then abortMove s b false
    else
      let tgt := if engage then boltEng s b else boltRel s b
      let fired := x.fired14 || f14
      let inB := decide ((p - tgt).natAbs ≤ (boltBand s b).natAbs)
      let k := if x.fired14 && inB then x.inBand + 1 else 0
      if k ≥ 3 then
        let want := x.want
        let s := endMove s b (if engage then .engaged else .released)
        let s := raise (setBolt s b { boltOf s b with want := if x.undo then want else none, undo := false }) .boltDone
        settle s
      else setBolt s b { x with fired14 := fired, inBand := k }
  else if x.st = .fault then s
  else
    let st := boltAt s b p
    let s' := setBolt s b { x with st := st }
    if st = .unknown ∧ (x.st = .released ∨ x.st = .engaged) then raise s' .boltFault else s'

/-- The angle step taken as signed (R472). -/
def angStep (old new : Nat) : Int :=
  let d := (new + 65536 - old) % 65536
  if d ≥ 32768 then (d : Int) - 65536 else d

/-- The fault code a conversion raises, lowest first; 0 none (Table 17.4). The counts are those of
consecutive conversions below and above the window.
Mark: DEDUCED (log entry 53). -/
def convFault (s : State) (n : Nat) (sin cos : Int) (lowN highN : Nat) (track : Bool) : Nat :=
  let cnt := fld s (R_FB_CFG2 + 0x100 * n) 16 4
  if lowN ≥ cnt ∧ lowN > 0 then 1
  else if highN ≥ cnt ∧ highN > 0 then 2
  else if sin = -32768 ∨ sin = 32767 ∨ cos = -32768 ∨ cos = 32767 then 3
  else if track then 4 else 0

/-- One conversion result: position, amplitude window, faults, compares, bolts.
Mark: DEDUCED (log entry 53). -/
def conversion (s : State) (n : Nat) (sin cos : Int) (theta : Nat) : State :=
  let c := fbOf s n
  match c.conv with
  | none => s
  | some ctrl =>
    let nom := fld s (R_FB_CFG + 0x100 * n) 16 16
    let lo := fld s (R_FB_CFG + 0x100 * n) 0 8
    let hi := fld s (R_FB_CFG + 0x100 * n) 8 8
    let sq := (sin * sin + cos * cos).toNat
    let lowN := if sq * 100 < lo * (nom * nom) then c.lowN + 1 else 0
    let highN := if sq * 100 > hi * (nom * nom) then c.highN + 1 else 0
    let d := angStep c.theta theta
    let turn : Int := if ! c.known then 0
      else if (c.theta : Int) + d < 0 then c.turn - 1 else if (c.theta : Int) + d ≥ 65536 then c.turn + 1 else c.turn
    let track := c.known && (decide (d.natAbs ≥ 16384) || decide (turn < -32768) || decide (turn > 32767))
    let f := convFault s n sin cos lowN highN track
    let old := fbPos c
    let dt := s.time.ticks - c.at_
    let clean := if f = 0 then c.clean + 1 else 0
    let out := decide (c.fault ≠ 0) && decide (clean ≥ 16)
    let flt := if out then 0 else c.fault
    let c' : FbChan :=
      { c with conv := none, sin := sin, cos := cos, theta := theta, turn := if out then 0 else turn, known := true,
               amp := if nom = 0 then 65535 else min 65535 (sq * 1000 / (nom * nom)),
               speed := if c.known ∧ dt ≠ 0 then d * 250000000 / dt else 0,
               lowN := lowN, highN := highN, clean := if out then 0 else clean, at_ := s.time.ticks, fault := flt,
               valid := decide (f = 0) && decide (flt = 0) }
    let s := setFb s n c'
    if f ≠ 0 then chanFault s n f
    else if flt ≠ 0 then s
    else
      let fires := if c.known ∧ c.fault = 0 then
          (List.range 16).filter fun k => cmpFires s n k old (fbPos c') else []
      let s := cmpAct s n fires
      (bolts s).foldl (fun s b =>
        if boltCh s b = n then boltOnConversion s b ctrl (fires.contains 14) (fires.contains 15) else s) s

/-- CONVERSION_DONE (R471): the results of the running conversion. -/
def execConversionDone (ch : Fin 4) (sin cos : BitVec 16) (theta : BitVec 16) (s : State) :
    Host.Outcome State Fault Refusal :=
  .next (whenRunning (begin_ s) fun s => conversion s ch sin.toInt cos.toInt theta.toNat)

/-- BOLT_LIMIT (R480): LIMIT_MS passed before the move completed. -/
def execBoltLimit (b : Fin 4) (s : State) : Host.Outcome State Fault Refusal :=
  .next (whenRunning (begin_ s) fun s => if boltMoving (boltOf s b) then faultMove s b else s)

/-- BOLT_RETRY (R481): an aborted move is tried again. -/
def execBoltRetry (b : Fin 4) (s : State) : Host.Outcome State Fault Refusal :=
  .next (whenRunning (begin_ s) fun s => retryBolt s b)

/-- KEYSAFE_HOLD_EXPIRY (R482): HOLD_S after a release of the key-safe its engage is requested. -/
def execKeysafeHoldExpiry (s : State) : Host.Outcome State Fault Refusal :=
  .next (whenRunning (begin_ s) fun s =>
    match boltOfKind s 2 with
    | some b => if fld s (R_FB_BOLT_CFG2 + 0x20 * b) 8 8 ≠ 0 ∧ (boltOf s b).st = .released then requestMove s b true else s
    | none => s)

/-- CMPO_PULSE_END (R476): a pulse returns low. -/
def execCmpoPulseEnd (k : Fin 4) (s : State) : Host.Outcome State Fault Refusal :=
  .next (whenRunning (begin_ s) fun s =>
    if s.wheels.pulses.getLsbD k then setCmpo s k false else s)

/-- EXC_OVERLOAD (R473, R624): the excitation draws more than its limit; the channel faults with EXC. -/
def execExcOverload (ch : Fin 4) (s : State) : Host.Outcome State Fault Refusal :=
  .next (whenRunning (begin_ s) fun s => if excOn s ch then chanFault s ch 6 else s)

/-! ## Configuration commands (R455, R467, R474, R475, R478) -/

/-- The geometry rules of R455 for a TTn_CFG image. -/
def ttGeomOk (cfg : Word) : Bool :=
  let N := bitsOf cfg 24 8
  let g1 := bitsOf cfg 16 8
  let m1 := bitsOf cfg 12 2
  let m0 := bitsOf cfg 8 2
  decide (3 ≤ N) && decide (m0 + m1 + 3 ≤ N) && ! (decide (m0 = 0) && decide (m1 ≠ 0)) &&
  (decide (m1 = 0) ||
    (decide (m1 + 2 ≤ g1) && decide (g1 + 2 + m0 ≤ N) && ! (decide (m0 = m1) && decide (2 * g1 = N))))

/-- The check of TT_CONFIG. -/
def checkTt (t : Nat) (img : List Word) : Option Status :=
  let a := imgAt img 0
  let b := imgAt img 1
  if img.length ≠ 2 then some .badParam
  else if t < 6 then
    if bitsOf a 0 2 ≠ 0 ∧ ¬ ttGeomOk a then some .range
    else if bitsOf b 8 7 < 10 ∨ bitsOf b 8 7 > 45 then some .range else none
  else if t = 0xFF then
    if bitsOf a 16 4 < 1 ∨ bitsOf a 16 4 > 6 ∨ bitsOf a 0 16 < 50 ∨ bitsOf a 0 16 > 10000 then some .range else none
  else some .badParam

/-- TT_CONFIG takes effect at the next beat boundary. -/
def applyTt (t : Nat) (img : List Word) (s : State) : State :=
  if t < 6 then schedule s [(R_TT_CFG + 0x40 * t, 0, imgAt img 0), (R_TT_CFG2 + 0x40 * t, 0, imgAt img 1)] (.tracker t)
  else schedule s [(R_ANG_STILL, 0, imgAt img 0), (R_ANG_ODO, 0, imgAt img 1)] .still

/-- The tracker of the other valid entries that drive an SPD output, with the new entries in place. -/
def spdConflict (s : State) (first : Nat) (es : List (Word × Word)) : Bool :=
  let lo (k : Nat) : Word := if first ≤ k ∧ k < first + es.length then (es.getD (k - first) (0, 0)).1 else evtLo s k
  let uses := (List.range 64).filter fun k =>
    decide (bitsOf (lo k) 0 1 = 1) && decide (1 ≤ bitsOf (lo k) 4 3) && decide (bitsOf (lo k) 4 3 ≤ 3)
  uses.any fun j => uses.any fun k =>
    decide (bitsOf (lo j) 7 2 = bitsOf (lo k) 7 2) && decide (bitsOf (lo j) 1 3 ≠ bitsOf (lo k) 1 3)

/-- The check of ANG_EVENT_SET (R467). -/
def checkAng (s : State) (first count : Nat) (es : List (Word × Word)) : Option Status :=
  let v := es.filter fun e => decide (bitsOf e.1 0 1 = 1)
  if count = 0 ∨ count > 32 ∨ es.length ≠ count then some .badParam
  else if first + count > 64 then some .range
  else if v.any (fun e => decide (bitsOf e.1 4 3 ≥ 6) || decide (bitsOf e.1 1 3 ≥ 6) ||
      decide (ttRole s (bitsOf e.1 1 3) = 0)) then some .badParam
  else if spdConflict s first es then some .badParam
  else if v.any (fun e => decide (bitsOf e.2 0 16 = 0) || decide (bitsOf e.1 10 8 ≥ ttN s (bitsOf e.1 1 3))) then some .range
  else none

/-- ANG_EVENT_SET takes effect at the next beat boundary. -/
def applyAng (first : Nat) (es : List (Word × Word)) (s : State) : State :=
  schedule s ((List.range es.length).flatMap fun j =>
    [(R_ANG_EVT_LO + 8 * (first + j), 0, (es.getD j (0, 0)).1), (R_ANG_EVT_HI + 8 * (first + j), 0, (es.getD j (0, 0)).2)]) .plain

/-- A compare entry suits the CMPO map (R475). -/
def cmpSuits (m : Word) (n : Nat) (ctl : Word) : Bool :=
  let out := bitsOf ctl 3 2
  let act := bitsOf ctl 5 2
  let pulse := decide (bitsOf m (8 + out) 1 = 1)
  decide (bitsOf ctl 0 1 = 0) ||
  (decide (bitsOf ctl 1 2 ≠ 0) && decide (act ≠ 0) && decide (bitsOf m (2 * out) 2 = n) &&
   (if pulse then decide (act = 3) else decide (act ≠ 3)))

/-- A bolt's drive output is none, or a LEVEL output bound to its channel (R478). -/
def driveSuits (m : Word) (ch out : Nat) : Bool :=
  decide (out = 7) || (decide (out < 4) && decide (bitsOf m (2 * out) 2 = ch) && decide (bitsOf m (8 + out) 1 = 0))

/-- The check of FB_CONFIG KIND 2 (R478).
Mark: DEDUCED (log entry 53). -/
def checkBolt (s : State) (b : Nat) (img : List Word) : Option Status :=
  let c := imgAt img 0
  let c2 := imgAt img 1
  let rel := (imgAt img 2).toNat
  let eng := (imgAt img 3).toNat
  let band := bitsOf c 12 8 * 256
  let kind := bitsOf c 2 2
  let m := rd s R_FB_CMPO_MAP
  if img.length ≠ 4 ∨ b > 3 then some .badParam
  else if boltMoving (boltOf s b) ∨ held s (6 + bitsOf c 0 2) then some .busy
  else if kind = 0 then none
  else if (kind = 1 ∨ kind = 2) ∧ (List.range 4).any (fun k => decide (k ≠ b) && decide (boltKind s k = kind)) then some .badParam
  else if ¬ driveSuits m (bitsOf c 0 2) (bitsOf c 4 3) ∨ ¬ driveSuits m (bitsOf c 0 2) (bitsOf c 8 3) then some .badParam
  else if bitsOf c 20 12 = 0 ∨ bitsOf c 12 8 = 0 ∨ bitsOf c2 16 16 < 10 ∨ bitsOf c2 16 16 > 1000 then some .range
  else if rel > 0xFFFF ∨ eng > 0xFFFF then some .range
  else if min rel eng < band ∨ max rel eng + band > 0xFFFF then some .range
  else if max rel eng - min rel eng ≤ 2 * band then some .range
  else none

/-- The check of FB_CONFIG (R475, R478, R484). -/
def checkFb (s : State) (kind i : Nat) (img : List Word) : Option Status :=
  if kind = 0 then
    let c := imgAt img 0
    let c2 := imgAt img 1
    let m := rd s R_FB_CMPO_MAP
    if img.length ≠ 30 ∨ i > 3 then some .badParam
    else if held s (6 + i) then some .busy
    else if bitsOf c 0 8 < 10 ∨ bitsOf c 0 8 > 250 ∨ bitsOf c 8 8 < 10 ∨ bitsOf c 8 8 > 250 ∨
        bitsOf c2 16 4 = 0 ∨ bitsOf c2 0 16 < 10 then some .range
    else if (List.range 14).any (fun k => ! cmpSuits m i (imgAt img (3 + 2 * k))) then some .badParam
    else none
  else if kind = 1 then
    let m := imgAt img 0
    if img.length ≠ 1 then some .badParam
    else if (List.range 4).any (fun n => held s (6 + n)) then some .busy
    else if bitsOf m 16 8 = 0 then some .range
    else if (List.range 4).any (fun n => (List.range 14).any fun k => ! cmpSuits m n (rd s (cmpPosAddr n k + 4))) then some .badParam
    else if (bolts s).any (fun b => ! driveSuits m (boltCh s b) (boltRelOut s b) || ! driveSuits m (boltCh s b) (boltEngOut s b)) then some .badParam
    else none
  else if kind = 2 then checkBolt s i img
  else some .badParam

/-- FB_CONFIG takes effect at the next beat boundary. -/
def applyFb (kind i : Nat) (img : List Word) (s : State) : State :=
  if kind = 0 then
    schedule s ([(R_FB_CFG + 0x100 * i, 0, imgAt img 0), (R_FB_CFG2 + 0x100 * i, 0, imgAt img 1)] ++
      (List.range 14).flatMap fun k =>
        [(cmpPosAddr i k, 0, imgAt img (2 + 2 * k)), (cmpPosAddr i k + 4, 0, imgAt img (3 + 2 * k))]) (.fbChan i)
  else if kind = 1 then schedule s [(R_FB_CMPO_MAP, 0, imgAt img 0)] .plain
  else schedule s [(R_FB_BOLT_CFG + 0x20 * i, 0, imgAt img 0), (R_FB_BOLT_CFG2 + 0x20 * i, 0, imgAt img 1),
    (R_FB_BOLT_REL + 0x20 * i, 0, imgAt img 2), (R_FB_BOLT_ENG + 0x20 * i, 0, imgAt img 3)] (.bolt i)

/-- TT_CONFIG (0x0B01, Table 19.6). -/
def execTtConfig (r : Req) (tracker : BitVec 8) (img : List Word) (s : State) : Host.Outcome State Fault Refusal :=
  .next (dispatch 0x0B01 r judgeInstaller
    (cfgPlan (checkTt tracker.toNat img) (.tt tracker img) (applyTt tracker.toNat img)) s)

/-- ANG_EVENT_SET (0x0B02, R467). -/
def execAngEventSet (r : Req) (first count : BitVec 8) (entries : List (Word × Word)) (s : State) :
    Host.Outcome State Fault Refusal :=
  .next (dispatch 0x0B02 r judgeInstaller
    (fun s => cfgPlan (checkAng s first.toNat count.toNat entries) (.angEvt first count entries)
      (applyAng first.toNat entries) s) s)

/-- FB_CONFIG (0x0B03, R475, R478, R484). -/
def execFbConfig (r : Req) (kind index : BitVec 8) (img : List Word) (s : State) : Host.Outcome State Fault Refusal :=
  .next (dispatch 0x0B03 r judgeInstaller
    (fun s => cfgPlan (checkFb s kind.toNat index.toNat img) (.fb kind index img)
      (applyFb kind.toNat index.toNat img) s) s)

/-- The channel record of the map with NOM replaced, so that FB_CAL stores its result there (R474). -/
def nomInMap (m : List Cfg) (ch nom : Nat) : List Cfg :=
  m.map fun x => match x with
    | .fb k i img =>
        if k.toNat = 0 ∧ i.toNat = ch then .fb k i (putBits (imgAt img 0) 16 16 nom :: img.drop 1) else x
    | y => y

/-- FB_CAL (R474): `avg` is the average amplitude over the 256 conversions it makes.
Mark: DEDUCED (log entry 53). -/
def execFbCal (r : Req) (ch : BitVec 8) (avg : Nat) (s : State) : Host.Outcome State Fault Refusal :=
  .next (dispatch 0x0B04 r judgeInstaller (fun s =>
    if ch.toNat > 3 then Plan.fail .badParam
    else if ! convOpen s ch.toNat then Plan.fail .busy
    else if avg < 4000 ∨ avg > 30000 then Plan.fail .range
    else Plan.doBytes fun s =>
      let a := R_FB_CFG + 0x100 * ch.toNat
      let s := schedule s [(a, 0, putBits (rd s a) 16 16 avg)] .plain
      (if s.boot.mapValid then setMap s (nomInMap s.map ch.toNat avg) else s, leBytes 2 avg ++ leBytes 2 0)) s)

/-- BOLT_MOVE (R479): a move requested by the INSTALLER. -/
def execBoltMove (r : Req) (bolt dir : BitVec 8) (s : State) : Host.Outcome State Fault Refusal :=
  .next (dispatch 0x0B05 r judgeInstaller (fun s =>
    let b := bolt.toNat
    if b > 3 ∨ dir.toNat > 1 ∨ boltKind s b = 0 then Plan.fail .badParam
    else if held s (6 + boltCh s b) ∨ ! canMove s b (decide (dir.toNat = 1)) then Plan.fail .busy
    else Plan.do_ fun s =>
      startMove (setBolt s b { boltOf s b with attempts := 0 }) b (decide (dir.toNat = 1)) false) s)

end Sys2Proof.Machine
end

