-- ==== Sys2Proof/Machine/Time.lean ====
section
/-! DEFINITION. gPTP domains and trigger channels (chapter 5): Syncs, hold-over, targets and firings, and
the commands that set the beat and the domains. -/

namespace Sys2Proof.Machine

/-! ## Domain time (R140, R153) -/

/-- A whole 48-bit second in units of 2^-16 ns. -/
abbrev unitsPerS : Nat := 65536000000000

/-- Domain time modulo 2^48 s. -/
def domWrap (t : Int) : Nat := (t % ((2 ^ 48 * unitsPerS : Nat) : Int)).toNat

/-- A domain `n` ticks on, each of 4 ns x (1 + RATE x 2^-40) (R140); the hold-over count runs in HOLDOVER (R143). -/
def domAdvance (d : Dom) (n : Nat) : Dom :=
  let acc : Int := (d.acc : Int) + 262144 * d.rate * n
  { d with t := domWrap ((d.t : Int) + 262144 * n + acc / 2 ^ 40), acc := (acc % 2 ^ 40).toNat,
           holdTicks := if d.st = .holdover then d.holdTicks + n else d.holdTicks }

/-- Ticks after which TIME_Dn_HOLD_MS wraps. -/
abbrev holdSpan : Nat := 2 ^ 32 * ticksPerMs

/-- Domain `k` advances by `n` ticks; each wrap of its hold-over count is raised (R143). The time of a domain that is OFF
stands still.
Mark: DESIGN CHOICE (log entry 28). -/
def domPass (n : Nat) (s : State) (k : Nat) : State :=
  if (domOf s k).st = .off then s
  else
    let d := domAdvance (domOf s k) n
    let s := setDom s k { d with holdTicks := d.holdTicks % holdSpan }
    if d.holdTicks ≥ holdSpan ∧ d.st = .holdover then raise s .holdWrap else s

/-- The three domains advance by `n` ticks. -/
def domsPass (n : Nat) (s : State) : State := [0, 1, 2].foldl (domPass n) s

/-- An enabled domain that is OFF is set to wall time, with RATE 0, and enters FREE; a disabled one is OFF and keeps its
time. The spec says so of start-up step 7; the model does the same at the boundary at which TIME_CONFIG takes effect.
Mark: DESIGN CHOICE (log entry 28) for a domain enabled or disabled after step 7 (R153). -/
def domsFollow (s : State) : State :=
  [0, 1, 2].foldl (fun s n =>
    let en := bit s (R_TIME_D_CFG + 0x40 * n) 0 0
    let d := domOf s n
    if en ∧ d.st = .off then setDom s n { d with st := .free, t := domWrap (wallNow s * 1000000000), acc := 0, rate := 0, good := 0 }
    else if ¬ en ∧ d.st ≠ .off then setDom s n { d with st := .off } else s) s

/-- The core's part of `n` ticks: in freeze only the shadow counts (R582); the timebase runs while the core does.
Mark: DESIGN CHOICE (log entry 1). -/
def corePass (n : Nat) (s : State) : State :=
  if s.freeze.frozen then { s with freeze := { s.freeze with shadow := s.freeze.shadow + n } }
  else match s.power.phase with
    | .asleep => s
    | .railPhase => s
    | _ => domsPass n { s with time := { s.time with ticks := s.time.ticks + n, beatPos := s.time.beatPos + n } }

/-! ## Trigger targets (R147 to R149) -/

/-- The register of trigger channel `c`. -/
def trg (a c : Nat) : Nat := a + 0x20 * c

/-- The domain code, action and target block of a channel. -/
def trgDom (s : State) (c : Nat) : Nat := fld s (trg R_TRG_CFG c) 20 2
def trgSel (s : State) (c : Nat) : Nat := fld s (trg R_TRG_CFG c) 8 12
def trgAct (s : State) (c : Nat) : Nat := fld s (trg R_TRG_CFG c) 0 4
def trgOwned (s : State) (c : Nat) : Bool := bit s (trg R_TRG_CFG c) 0 31

/-- The range of a target: seconds [31:0]. -/
abbrev trgSpan : Nat := 2 ^ 32 * 1000000000

/-- The target, in nanoseconds, and the period that an armed channel holds (R158). -/
def trgTarget (s : State) (c : Nat) : Nat := (tget (0, 0) s.time.trgs c).1
def trgPeriod (s : State) (c : Nat) : Nat := (tget (0, 0) s.time.trgs c).2

/-- How far the channel's time lies past its target, within the range of targets. -/
def trgAhead (s : State) (c : Nat) : Nat := (domNs s (trgDom s c) % trgSpan + trgSpan - trgTarget s c % trgSpan) % trgSpan

/-- The channel's time is at or after its target (R147). A target has 32 bits of seconds and domain time 48: a time less
than half the range of targets past the target is after it, any other before it.
Mark: DESIGN CHOICE (log entry 29). -/
def trgDue (s : State) (c : Nat) : Bool := decide (trgAhead s c < trgSpan / 2)

/-- The target has been passed. -/
def trgPassed (s : State) (c : Nat) : Bool := decide (0 < trgAhead s c) && trgDue s c

/-- Mark a channel whose target was passed at arming or by a step (R149). -/
def setPast (s : State) (c : Nat) (v : Bool) : State :=
  { s with time := { s.time with trgPast := tset false s.time.trgPast c v } }

/-- The channel holds a new target. TRGc_T_SEC and TRGc_T_NS keep what was written to them.
Mark: DESIGN CHOICE (log entry 29). -/
def setTarget (s : State) (c ns : Nat) : State :=
  { s with time := { s.time with trgs := tset (0, 0) s.time.trgs c (ns % trgSpan, trgPeriod s c) } }

/-- Arm a channel: it takes the target and period that the registers hold at that moment (R158, R149). -/
def trgArm (s : State) (c : Nat) : State :=
  let ns := (rd s (trg R_TRG_T_SEC c)).toNat * 1000000000 + fld s (trg R_TRG_T_NS c) 0 30
  let s := { s with time := { s.time with trgs := tset (0, 0) s.time.trgs c (ns % trgSpan, (rd s (trg R_TRG_PERIOD c)).toNat) } }
  setPast s c (trgPassed s c)

/-- A firing and `skips` grid points passed over: COUNT, the next target and ACT (R148, R149). COUNT 0 is unlimited.
Mark: DEDUCED (log entry 29). -/
def trgAdvance (s : State) (c skips : Nat) : State :=
  let p := trgPeriod s c
  let cnt := fld s (trg R_TRG_COUNT c) 0 16
  let s := setFld s (trg R_TRG_COUNT c) 0 16 (cnt - (skips + 1))
  if p = 0 ∨ (0 < cnt ∧ cnt ≤ skips + 1) then setFld s (trg R_TRG_CFG c) 0 4 0
  else setTarget s c (trgTarget s c + (skips + 1) * p)

/-- The target block of a channel (R150): the egress queue of a LAUNCH, the feedback channel of an ADC or CTRL; an EVENT
has none.
Mark: DEDUCED (log entry 29). -/
def trgBlock (s : State) (c : Nat) : Option Nat :=
  match trgAct s c with
  | 1 => some (trgSel s c)
  | 2 => some (4096 + trgSel s c % 4)
  | 3 => some (4096 + trgSel s c % 4)
  | _ => none

/-- The channel may run: one of the vault does whenever the clocks run (R154), one of the normal world while the device is
awake and the TTU works (R89, R93). -/
def trgRuns (s : State) (c : Nat) : Bool :=
  decide (trgAct s c ≠ 0) && if trgOwned s c then clocked s else running s && ungated s 5

/-- Another channel has the target block in this tick: one that has just acted on it, or a lower-numbered one that is due
(R150). -/
def trgBeaten (s : State) (c : Nat) : Bool :=
  match trgBlock s c with
  | none => false
  | some b =>
    decide (tget 0 s.time.trgActed b = s.time.ticks + 1) ||
    (List.range c).any fun k => decide (trgBlock s k = some b) && trgRuns s k && trgDue s k

/-- The target block of a channel is acted on in this tick. -/
def trgMark (s : State) (c : Nat) : State :=
  match trgBlock s c with
  | none => s
  | some b => { s with time := { s.time with trgActed := tset 0 s.time.trgActed b (s.time.ticks + 1) } }

/-- The egress and queue a LAUNCH names.
Mark: DEDUCED (log entry 29). -/
def launchHead (s : State) (e q : Nat) : State :=
  if e ≥ 104 ∨ q ≥ nQueues e then s
  else match queueOf s e q with
  | x :: t => setQueue s e q ({ x with trig := true } :: t)
  | [] => statIncI s R_SCH_TRIG_EMPTY e

/-- A firing may start a conversion of channel `n`: no conversion runs, the excitation is on and, for the normal world,
the vault holds neither the channel nor the ADC and neither is gated (R150, R389, R471). -/
def trgConv (s : State) (c n : Nat) : Bool :=
  ! (fbOf s n).conv.isSome && if trgOwned s c then excOn s n else convOpen s n

/-- The action of a firing (Table 5.3): false where it is refused (R150). A firing of the normal world is refused while the
vault holds the TTU (R92).
Mark: DEDUCED (log entry 29). -/
def trgDo (s : State) (c : Nat) : Bool × State :=
  let sel := trgSel s c
  let n := sel % 4
  if ! trgOwned s c && held s 5 then (false, s)
  else match trgAct s c with
  | 1 => (true, launchHead s (sel % 256) (sel / 256))
  | 2 => if trgConv s c n then (true, setFb s n { fbOf s n with conv := some false }) else (false, s)
  | 3 => if trgConv s c n then (true, setFb s n { fbOf s n with conv := some true }) else (false, ctrlRefused s n)
  | 4 => (true, raise s .trgFire)
  | _ => (true, s)
where
  /-- A refused CTRL firing still runs its control check: a stale result faults the channel (R471, R473). -/
  ctrlRefused (s : State) (n : Nat) : State :=
    if (fbOf s n).known ∧ s.time.ticks - (fbOf s n).at_ > fld s (R_FB_CFG2 + 0x100 * n) 0 16 * ticksPerUs then
      chanFault s n 5 else s

/-- A channel that runs fires (R147 to R150): it acts, is refused, or leaves its block to another one; grid points passed
over are skipped. -/
def trgFire (s : State) (c : Nat) : State :=
  let beaten := trgBeaten s c
  let late := tget false s.time.trgPast c && ! beaten
  let p := trgPeriod s c
  let skips := if late ∧ p ≠ 0 then trgAhead s c / p else 0
  let (ok, s) := if beaten then (false, setPast s c false) else trgDo (trgMark (setPast s c false) c) c
  let s := statAddI s (trg R_TRG_SKIP c) 0 (skips + if ok then 0 else 1)
  let s := if late then raise (orReg s (trg R_TRG_STAT c) 0 2) .trgLate else s
  trgAdvance s c skips

/-- TRIGGER_FIRE (R147 to R150): a channel that runs reaches its target. -/
def execTriggerFire (c : Fin 32) (s : State) : Host.Outcome State Fault Refusal :=
  .next (
    let s := begin_ s
    if trgRuns s c && trgDue s c then trgFire s c else s)

/-- A write of TRGc_CFG by the normal world (R158, R147, R151): a vault channel ignores it, a reserved ACT keeps
the old one, and ACT other than OFF arms the channel. -/
def trgCfgSet (s : State) (c : Nat) (w : Word) : State :=
  if trgOwned s c then s
  else
    let s := setFld (setFld s (trg R_TRG_CFG c) 20 2 (bitsOf w 20 2)) (trg R_TRG_CFG c) 8 12 (bitsOf w 8 12)
    if bitsOf w 0 4 > 4 then raise s .reservedEnc
    else
      let s := setFld s (trg R_TRG_CFG c) 0 4 (bitsOf w 0 4)
      if bitsOf w 0 4 = 0 then s else trgArm s c

/-- TRGC_CFG_WRITE (R158, R147, R151). -/
def execTrgcCfgWrite (c : Fin 32) (w : Word) (s : State) : Host.Outcome State Fault Refusal :=
  .next (whenRunning (begin_ s) fun s => trgCfgSet s c w)

/-! ## Syncs (R142 to R144) -/

/-- Channels of a domain whose targets a step has passed fire late; one whose target lies ahead again waits for it (R149). -/
def pastByStep (old s : State) (n : Nat) : State :=
  (List.range 32).foldl (fun s c =>
    if trgAct s c = 0 ∨ trgDom s c ≠ n then s
    else if ¬ trgDue old c ∧ trgPassed s c then setPast s c true
    else if ¬ trgPassed s c then setPast s c false else s) s

/-- 200 ppm in units of 2^-40.
Mark: DEDUCED (log entry 28). -/
abbrev rateMax : Nat := 219902325

/-- The state of a domain after a Sync: LOCKED after 8 below LOCK_NS in a row, ACQUIRE at the first at or
above it (R142, R144).
Mark: DEDUCED (log entry 28). -/
def syncState (d : Dom) (small : Bool) : Dom :=
  let good := if small then (if d.st = .locked ∨ d.st = .acquire then d.good + 1 else 1) else 0
  if d.st = .locked then { d with st := if small then .locked else .acquire, good := good }
  else { d with st := if good ≥ 8 then .locked else .acquire, good := good }

/-- A Sync of domain number `num` that comes in at a port is one of domain `n`: the domain is enabled with that number, has
gPTP on the port, and the port has link (R141, Table 5.6). -/
def syncFor (s : State) (n num port : Nat) : Bool :=
  let cfg := R_TIME_D_CFG + 0x40 * n
  decide ((domOf s n).st ≠ .off) && decide (fld s cfg 8 8 = num) && bit s cfg 0 (24 + port) && portLink s port

/-- SYNC_RECEIVED (R141, R142, R144): a Sync from the selected master, with its domain number and the port it came in
at; the offset from the master, in 2^-16 ns. The new RATE is the servo's, within 200 ppm: a free value.
Mark: DEDUCED (log entry 28). -/
def execSyncReceived (dom : Fin 3) (m : SyncMsg) (s : State) : Host.Outcome State Fault Refusal :=
  .next (whenRunning (begin_ s) fun s =>
    let n := dom.val
    let d := domOf s n
    if ! syncFor s n m.num.toNat m.port then s
    else
      let servo := R_TIME_D_SERVO + 0x40 * n
      let small := decide (m.offset.natAbs < fld s servo 0 16 * 65536)
      let d := syncState d small
      if m.offset.natAbs > fld s servo 16 16 * 65536000 then
        let s' := setDom s n { d with t := domWrap ((d.t : Int) + m.offset) }
        let s' := raise (orReg s' (R_TIME_D_STAT + 0x40 * n) 0 0x10) .domStep
        pastByStep s s' n
      else
        let (k, s) := draw s
        setDom s n { d with rate := (Config.freeNat k % (2 * rateMax + 1) : Nat) - (rateMax : Int) })

/-- SYNC_TIMEOUT (R143): no Sync in time, or another grandmaster selected: HOLDOVER. With `own`, the
algorithm selects this device, which becomes grandmaster where GM_CAP permits.
Mark: DEDUCED (log entry 28). -/
def execSyncTimeout (dom : Fin 3) (own : Bool) (s : State) : Host.Outcome State Fault Refusal :=
  .next (whenRunning (begin_ s) fun s =>
    let n := dom.val
    let d := domOf s n
    if d.st = .off then s
    else if own then (if bit s (R_TIME_D_CFG + 0x40 * n) 0 1 then setDom s n { d with st := .gm, good := 0 } else s)
    else if d.st = .locked ∨ d.st = .acquire then
      raise (setDom s n { d with st := .holdover, good := 0, holdTicks := 0 }) .holdEnter
    else s)

/-- Milliseconds of the present or last hold-over (TIME_Dn_HOLD_MS). -/
def holdMs (d : Dom) : Nat := d.holdTicks / ticksPerMs % 2 ^ 32

/-- HOLD_MS_WRAP (R143, R17): the counter, at all ones in HOLDOVER, wraps. -/
def execHoldMsWrap (dom : Fin 3) (s : State) : Host.Outcome State Fault Refusal :=
  .next (whenRunning (begin_ s) fun s =>
    if (domOf s dom).st = .holdover ∧ holdMs (domOf s dom) = 2 ^ 32 - 1 then raise (setDom s dom { domOf s dom with holdTicks := 0 }) .holdWrap else s)

/-- TIME_Dn_NS now. -/
def nsNow (s : State) (n : Nat) : Word := BitVec.ofNat 32 ((domOf s n).t / 65536 % 1000000000)

/-- A read of TIME_Dn_NS latches the seconds and the fraction of the same tick (R146). -/
def nsLatch (s : State) (n : Nat) : State :=
  let d := domOf s n
  let sec := d.t / 65536 / 1000000000
  setDom s n { d with shSecLo := BitVec.ofNat 32 sec, shSecHi := BitVec.ofNat 32 (sec / 2 ^ 32 % 65536),
                      shFrac := BitVec.ofNat 32 (d.t % 65536) }

/-- TIME_NS_READ (R146): the nanoseconds, and the other fields latched from the same tick. -/
def execTimeNsRead (n : Fin 3) (s : State) : Host.Outcome State Fault Refusal :=
  .next (whenRunning (begin_ s) fun s =>
    let s' := nsLatch s n
    { s' with out := { s'.out with rdata := [nsNow s n] } })

/-! ## Commands (R132, R156, R157) -/

/-- TIME_BEAT_SET's checks: encodings, and BUSY while a change is scheduled. -/
def checkBeat (s : State) (len dom align : BitVec 8) : Option Status :=
  if len.toNat > 3 ∨ dom.toNat > 3 ∨ align.toNat > 1 then some .badParam
  else if s.time.chgPend.isSome then some .busy else none

/-- Schedule a beat length; DOM and ALIGN change at the next boundary (R132). What start-up step 5 schedules waits for a
multiple of local time (R131). -/
def applyBeat (len dom align : BitVec 8) (s : State) : State :=
  let w := putBits (putBits (rd s R_TIME_BEAT) 5 2 dom.toNat) 4 1 align.toNat
  let s := setFld { s with time := { s.time with chgPend := some len.toNat, chgAt := s.time.ticks, chgLocal := decide (s.power.phase ≠ .awake) } } R_TIME_BEAT 8 2 len.toNat
  schedule s [(R_TIME_BEAT, 0, w)] .plain

/-- TIME_BEAT_SET (R132). -/
def execTimeBeatSet (r : Req) (len dom align : BitVec 8) (s : State) : Host.Outcome State Fault Refusal :=
  .next (dispatch 0x0601 r judgeInstaller
    (fun s => cfgPlan (checkBeat s len dom align) (.beat len dom align) (applyBeat len dom align) s) s)

/-- TIME_CONFIG's checks (Table 5.6). -/
def checkTime (index : BitVec 8) (img : List Word) : Option Status :=
  let c := imgAt img 0
  let v := imgAt img 1
  if index.toNat > 3 then some .badParam
  else if index.toNat = 3 then (if img.length ≠ 1 then some .badParam else none)
  else if img.length ≠ 2 then some .badParam
  else if bitsOf c 20 4 < 2 ∨ (bitsOf c 16 4 > 3 ∧ bitsOf c 16 4 < 8) then some .range
  else if bitsOf v 16 16 = 0 ∨ bitsOf v 16 16 > 1000 ∨ bitsOf v 0 16 = 0 then some .range
  else none

/-- The registers TIME_CONFIG writes at the next boundary. -/
def applyTime (index : BitVec 8) (img : List Word) (s : State) : State :=
  let n := index.toNat
  if n = 3 then schedule s [(R_TIME_CAP, 0, imgAt img 0)] .plain
  else schedule s [(R_TIME_D_CFG + 0x40 * n, 0, imgAt img 0), (R_TIME_D_SERVO + 0x40 * n, 0, imgAt img 1)] .plain

/-- TIME_CONFIG (Table 19.5). -/
def execTimeConfig (r : Req) (index : BitVec 8) (img : List Word) (s : State) : Host.Outcome State Fault Refusal :=
  .next (dispatch 0x0602 r judgeInstaller (cfgPlan (checkTime index img) (.time index img) (applyTime index img)) s)

end Sys2Proof.Machine
end

