-- ==== Sys2Proof/Machine/Tables.lean ====
section
/-! DEFINITION. Table writes, deletions, flushes and batches (R222, R239 to R246), and the ageing tick. -/

namespace Sys2Proof.Machine

/-! ## Entry images -/

/-- An entry of its eight image words: bit b is bit b mod 32 of word b / 32 (R223). -/
def entryBits (l : List Word) : BitVec 256 :=
  BitVec.ofNat 256 (((List.range 8).map fun k => (l.getD k 0).toNat * 2 ^ (32 * k)).foldl (· + ·) 0)

/-- The eight image words of an entry. -/
def entryWords (n : Nat) : List Word := (List.range 8).map fun k => BitVec.ofNat 32 (n / 2 ^ (32 * k))

/-- The listed bits of a VLAN entry (Table 8.5). -/
def vlanMask : BitVec 256 := BitVec.ofNat 256 (2 ^ 106 - 1 + (2 ^ 123 - 1) * 2 ^ 128)

/-- A hash key with the bits Table 8.2 does not list at zero (R220). -/
def keyNorm (k : BitVec 64) : BitVec 64 :=
  match bf k 62 2 with
  | 0 => keyEth (bf k 48 12) (bf k 0 48)
  | 1 => keyCan29 (bf k 48 5) (bf k 0 29)
  | _ => keyXl (bf k 48 5) (bf k 32 11) (bf k 0 32)

/-- A hash entry of its image. -/
def hashImage (e : BitVec 256) : BitVec 128 :=
  let e : BitVec 128 := e.setWidth 128
  hMake (keyNorm (hKey e)) (hAct e) (hStatic e) (hLearned e) (hAge e) (hPass e)

/-! ## Checks -/

/-- An action word that a write may carry (R222, Table 8.4, R368). -/
def actOk (a : BitVec 48) : Bool :=
  (if actType a = 1 then decide (actDest a < 106) else if actType a = 2 then true else decide (actDest a = 0)) &&
  (! actAuth a || (! actStrEn a && decide (actStream a ≤ 1023)))

/-- Entries of a table (Table 19.4); a hash write ignores INDEX. -/
def tblSize : Nat → Nat
  | 0 => 49152 | 1 => 1536 | 2 => 2 ^ 32 | 3 => 4096 | 4 => 4096 | 5 => 1024 | 6 => 106 | 7 => 1 | _ => 0

/-- The form of a table write (R220, R222, R240, Table 8.7, Table 19.4). -/
def tblForm (table pmask index : Nat) (w : List Word) : Option Status :=
  let e := entryBits w
  if table > 7 ∨ w.length ≠ 8 then some .badParam
  else if table ≤ 2 ∧ pmask % 16 = 0 then some .badParam
  else if index ≥ tblSize table then some .range
  else if table ≤ 1 then (if actOk (e.setWidth 48) then none else some .badParam)
  else if table = 2 then
    (if bf e 62 2 = 3 ∨ ! actOk (hAct (e.setWidth 128)) then some .badParam else none)
  else if table = 7 then
    (let a := bf e 0 20
     if a = 0 ∨ (10 ≤ a ∧ a ≤ 1000000) then none else some .range)
  else none

/-- A hash entry that the HOST context may write, delete or flush (R239). -/
def hostEntry (e : BitVec 128) : Bool :=
  decide (bf (hKey e) 62 2 = 0) && ! hStatic e && ! actSafe (hAct e) && ! actSvc (hAct e)

/-- R239: a write the HOST context is denied for what it names. -/
def hostDenied (table : Nat) (w : List Word) : Bool := decide (table ≠ 2) || ! hostEntry ((entryBits w).setWidth 128)

/-! ## Writing (R229, R240, R241) -/

/-- Write or delete a hash entry in one pipeline (R228 to R230); `full` is an INSTALLER's right.
Mark: DEDUCED (log entry 35). -/
def hashPut (s : State) (full : Bool) (p : Nat) (e : BitVec 128) : Status × State :=
  match hFind s p (hKey e) with
  | some k =>
    if ! full && ! hostEntry (hGet s p k) then (.denied, s)
    else (.ok, hSet s p k (if hValid e then e else 0))
  | none =>
    if ! hValid e then (.ok, s)
    else match hFree s p (hKey e) with
      | some k => (.ok, hSet (keyFound s p (hKey e)) p k e)
      | none => (.range, s)

/-- Write one entry of a per-pipeline table in one pipeline. -/
def pipePut (s : State) (full : Bool) (table index : Nat) (e : BitVec 256) (p : Nat) : Status × State :=
  if table = 0 then
    (.ok, { s with tables := { s.tables with can := tset 0 s.tables.can (p * 49152 + index) (e.setWidth 48) } })
  else if table = 1 then
    (.ok, { s with tables := { s.tables with lin := tset 0 s.tables.lin (p * 1536 + index) (e.setWidth 53) } })
  else hashPut s full p (hashImage e)

/-- Write in each pipeline of a mask; the status is that of the lowest that failed (R240). -/
def maskPut (s : State) (full : Bool) (table pmask index : Nat) (e : BitVec 256) : Status × State :=
  ((List.range 4).filter fun p => decide (pmask / 2 ^ p % 2 = 1)).foldl (fun r p =>
    let (st, s) := pipePut r.2 full table index e p
    (if r.1 = .ok then st else r.1, s)) (.ok, s)

/-- Write an entry of a chip-wide table. A rewritten stream frees its resequencer contexts that hold nothing
(R265). Table settings take effect at the next beat boundary, the seed only
at start-up (R227). -/
def widePut (s : State) (table index : Nat) (e : BitVec 256) : State :=
  if table = 3 then
    { s with tables := { s.tables with vlan := tset 0 s.tables.vlan index (e &&& vlanMask),
                                       lostVids := s.tables.lostVids.filter fun v => decide (v ≠ index) } }
  else if table = 4 then
    let free (x : Nat × Option Rsq) : Bool := decide (x.1 / 128 = index) && (match x.2 with
      | some c => c.slots.all fun y => match y.2 with
        | some (.held _ _) => false
        | _ => true
      | none => true)
    { s with tables := { s.tables with stream := tset 0 s.tables.stream index (BitVec.ofNat 64 (bf e 0 30)) },
             net := { s.net with ctxs := s.net.ctxs.filter fun x => ! free x } }
  else if table = 5 then
    { s with tables := { s.tables with group := tset 0 s.tables.group index (BitVec.ofNat 128 (bf e 0 107)) } }
  else if table = 6 then setFld s (R_TBL_PVID + 4 * (index / 2)) (16 * (index % 2)) 12 (bf e 0 12)
  else schedule s [(R_TBL_AGE_CFG, 0, BitVec.ofNat 32 (bf e 0 20)), (R_TBL_MISS_CFG, 0, BitVec.ofNat 32 (bf e 32 1))] .plain

/-- Write one table entry: the status and the state it leaves. -/
def tblPut (s : State) (full : Bool) (table pmask index : Nat) (w : List Word) : Status × State :=
  if table ≤ 2 then maskPut s full table pmask index (entryBits w) else (.ok, widePut s table index (entryBits w))

/-- Write the entry of a map record or of a batch; one that finds no place is omitted and TABLE_FULL is
raised (R246). -/
def placeEntry (s : State) (full : Bool) (c : Cfg) : State :=
  match c with
  | .tblWrite t _ pm i e =>
    let (st, s) := tblPut s full t.toNat pm.toNat i.toNat e
    if st = .range then raise s .tableFull else s
  | _ => s

/-! ## Rights (R239) -/

/-- The modes of dynamic table entries (Table 1.2). -/
def dynModes (m : Mode) : Bool := inModes [.rented, .drive, .service, .depot] m

/-- An INSTALLER session in SERVICE: every table and every field. -/
def fullRight (s : State) : Bool := decide (curRole s = 2) && decide (mode s = .service)

/-- What the HOST right does not cover: NOT_IN_MODE for an INSTALLER session outside SERVICE, DENIED for the
others (R27, R239). -/
def notCovered (s : State) : Status := if curRole s = 2 then .notInMode else .denied

/-- The judgement of a table command (R27, R239, R392): the HOST right covers what `host` says, in the modes of Table 1.2;
an INSTALLER session in SERVICE has every right.
Mark: DEDUCED (log entry 35). -/
def judgeTable (host : State → Bool) (s : State) (role : Nat) : Option Status :=
  if ! host s && decide (role ≠ 2) then some .denied
  else match judgeRight true false false false dynModes s role with
    | some st => some st
    | none => if ! host s && ! (decide (role = 2) && decide (mode s = .service)) then some .notInMode else none

/-! ## TBL_WRITE, TBL_COMMIT (R240 to R242) -/

/-- The hash key of an image is held by an entry that the HOST context may not change, in a pipeline of a mask (R239). -/
def keyHeld (s : State) (pmask : Nat) (w : List Word) : Bool :=
  (List.range 4).any fun p => decide (pmask / 2 ^ p % 2 = 1) &&
    (match hFind s p (hKey (hashImage (entryBits w))) with
     | some k => ! hostEntry (hGet s p k)
     | none => false)

/-- The plan of a table write.
Mark: DEDUCED (log entry 35). -/
def tblWritePlan (r : Req) (table flags pmask : BitVec 8) (index : Word) (entry : List Word) (s : State) : Plan :=
  let full := fullRight s
  let rec_ : Cfg := .tblWrite table flags pmask index entry
  let me : Chan × Nat := (r.chan, curRole s)
  if s.tables.batchGo then Plan.fail .busy
  else match tblForm table.toNat pmask.toNat index.toNat entry with
    | some st => Plan.fail st
    | none =>
      if full && decide (mapLen (putRecord s.map rec_) > 262144) then Plan.fail .range
      else if full && epochFinal s then Plan.fail .final
      else if flags.getLsbD 0 then
        (if s.tables.batch ≠ [] ∧ s.tables.batchBy ≠ some me then Plan.fail .busy
         else if s.tables.batch.length ≥ 64 then Plan.fail .range
         else if ! full && keyHeld s pmask.toNat entry then Plan.fail .denied
         else Plan.do_ fun s =>
          { s with tables := { s.tables with batch := s.tables.batch ++ [(full, rec_)], batchBy := some me } })
      else
        let put (s : State) := tblPut s full table.toNat pmask.toNat index.toNat entry
        { status := (put s).1, bytes := [], changes := true, act := fun s =>
            let (st, s') := put s
            (if full && decide (st = .ok) then commitChange (storeRecord s' rec_) else s', st, []) }

/-- TBL_WRITE (R239 to R242). -/
def execTblWrite (r : Req) (table flags pmask : BitVec 8) (index : Word) (entry : List Word) (s : State) :
    Host.Outcome State Fault Refusal :=
  .next (dispatch 0x0401 r (judgeTable fun _ => ! hostDenied table.toNat entry) (tblWritePlan r table flags pmask index entry) s)

/-- TBL_COMMIT (R242): the batch is applied at the next beat boundary; an INSTALLER's records are stored. A batch that
holds entries of an INSTALLER's right is committed under that right.
Mark: DEDUCED (log entry 35). -/
def execTblCommit (r : Req) (s : State) : Host.Outcome State Fault Refusal :=
  .next (dispatch 0x0405 r (judgeRight true false false false dynModes) (fun s =>
    let mine := s.tables.batch.filter Prod.fst
    if s.tables.batchGo then Plan.fail .busy
    else if s.tables.batch ≠ [] ∧ s.tables.batchBy ≠ some (r.chan, curRole s) then Plan.fail .denied
    else if mine ≠ [] ∧ ! fullRight s then Plan.fail (notCovered s)
    else if mine ≠ [] ∧ epochFinal s then Plan.fail .final
    else Plan.doBytes fun s =>
      let s := if mine ≠ [] then commitChange (mine.foldl (fun s x => storeRecord s x.2) s) else s
      ({ s with tables := { s.tables with batchGo := true } }, leBytes 1 s.tables.batch.length ++ leBytes 3 0)) s)

/-- The committed batch is applied at a beat boundary. -/
def applyBatch (s : State) : State :=
  if s.tables.batchGo then
    let s := s.tables.batch.foldl (fun s x => placeEntry s x.1 x.2) s
    { s with tables := { s.tables with batch := [], batchBy := none, batchGo := false } }
  else s

/-! ## TBL_DELETE, TBL_FLUSH (R239, R245) -/

/-- The place a deletion or read names in a pipeline's hash: by KEY for INDEX all ones, else by position. -/
def hashAt (s : State) (p index : Nat) (key : BitVec 64) : Option Nat :=
  if index = 2 ^ 32 - 1 then hFind s p (keyNorm key)
  else if hValid (hGet s p index) then some index else none

/-- Delete from one pipeline; whether an entry was there. -/
def pipeDelete (s : State) (table index : Nat) (key : BitVec 64) (p : Nat) : Bool × State :=
  if table = 0 then
    (actValid (tget 0 s.tables.can (p * 49152 + index)),
      { s with tables := { s.tables with can := tset 0 s.tables.can (p * 49152 + index) 0 } })
  else if table = 1 then
    (actValid ((tget 0 s.tables.lin (p * 1536 + index)).setWidth 48),
      { s with tables := { s.tables with lin := tset 0 s.tables.lin (p * 1536 + index) 0 } })
  else match hashAt s p index key with
    | some k => (true, hSet s p k 0)
    | none => (false, s)

/-- Delete from the pipelines of a mask; the mask of those that held an entry. A chip-wide table reports all
four pipelines. -/
def tblDelete (s : State) (table pmask index : Nat) (key : BitVec 64) : Nat × State :=
  if table ≤ 2 then
    ((List.range 4).filter fun p => decide (pmask / 2 ^ p % 2 = 1)).foldl (fun r p =>
      let (b, s) := pipeDelete r.2 table index key p
      (if b then r.1 + 2 ^ p else r.1, s)) (0, s)
  else
    let v := if table = 3 then bb (vlanOf s index) 234 else if table = 4 then bb (streamOf s index) 0
             else bb (groupOf s index) 106
    (if v then 15 else 0, widePut s table index 0)

/-- The index bound of a read or deletion: a hash position, or all ones for a key. -/
def posOk (table index : Nat) : Bool :=
  if table = 2 then decide (index < hSpan) || decide (index = 2 ^ 32 - 1) else decide (index < tblSize table)

/-- TBL_DELETE (R239, R244).
Mark: DEDUCED (log entry 35). -/
def execTblDelete (r : Req) (table pmask : BitVec 8) (index : Word) (key : BitVec 64) (s : State) :
    Host.Outcome State Fault Refusal :=
  .next (dispatch 0x0403 r (judgeTable fun _ => decide (table = 2)) (fun s =>
    let full := fullRight s
    let ps := (List.range 4).filter fun p => decide (pmask.toNat / 2 ^ p % 2 = 1)
    if table.toNat > 5 then Plan.fail .badParam
    else if table = 2 ∧ index.toNat = 2 ^ 32 - 1 ∧ bf key 62 2 = 3 then Plan.fail .badParam
    else if ! posOk table.toNat index.toNat then Plan.fail .range
    else if ! full && (ps.any fun p => match hashAt s p index.toNat key with
        | some k => ! hostEntry (hGet s p k)
        | none => decide (index.toNat = 2 ^ 32 - 1) && decide (bf key 62 2 ≠ 0)) then Plan.fail .denied
    else Plan.doBytes fun s =>
      let (m, s) := tblDelete s table.toNat pmask.toNat index.toNat key
      (s, leBytes 1 m ++ leBytes 3 0)) s)

/-- Flush one pipeline (R245); the HOST context reaches only entries it may flush (R239). -/
def flushPipe (s : State) (full learnedOnly : Bool) (p : Nat) : State :=
  (hPlaces s p).foldl (fun s k =>
    let e := hGet s p k
    if ! hStatic e && (! learnedOnly || hLearned e) && (full || hostEntry e) then hSet s p k 0 else s) s

/-- TBL_FLUSH (R245).
Mark: DEDUCED (log entry 35). -/
def execTblFlush (r : Req) (pmask flags : BitVec 8) (s : State) : Host.Outcome State Fault Refusal :=
  .next (dispatch 0x0404 r (judgeRight true false false false dynModes) (fun s =>
    let full := fullRight s
    Plan.do_ fun s => ((List.range 4).filter fun p => pmask.getLsbD p).foldl
      (fun s p => flushPipe s full (flags.getLsbD 0) p) s) s)

/-! ## Reading (R243) -/

/-- The committed entry a read names, as a number; none when no valid entry is there. -/
def tblEntry (s : State) (table pipe index : Nat) (key : BitVec 64) : Option Nat :=
  let whole (v : Bool) (n : Nat) : Option Nat := if v then some n else none
  match table with
  | 0 => let e := tget 0 s.tables.can (pipe * 49152 + index); whole (actValid e) e.toNat
  | 1 => let e := tget 0 s.tables.lin (pipe * 1536 + index); whole (actValid (e.setWidth 48)) e.toNat
  | 2 => (hashAt s pipe index key).map fun k => (hGet s pipe k).toNat
  | 3 => let e := vlanOf s index; whole (bb e 234) e.toNat
  | 4 => let e := streamOf s index; whole (bb e 0) e.toNat
  | 5 => let e := groupOf s index; whole (bb e 106) e.toNat
  | 6 => some (pvid s index)
  | _ => some (fld s R_TBL_AGE_CFG 0 20 + fld s R_TBL_MISS_CFG 0 1 * 2 ^ 32 + (seedOf s pipe).toNat * 2 ^ 64)

/-- The response bytes of a read: FOUND, then ENTRY (Table 19.4). -/
def readBytes : Option Nat → List Byte
  | some n => leBytes 4 1 ++ leBytes 32 n
  | none => leBytes 36 0

/-! ## Age periods (R232 to R234) -/

/-- AGE_PERIOD_START (R232). -/
def execAgePeriodStart (s : State) : Host.Outcome State Fault Refusal :=
  .next (whenRunning (begin_ s) fun s => (List.range 4).foldl agePeriod s)

end Sys2Proof.Machine
end

