-- ==== Sys2Proof/Machine/Lanes.lean ====
section
/-! DEFINITION. Lanes: probe, faults, retries, reversal, bus-off, PLCA, LIN headers, LANE_CONFIG and
LANE_RECOVER (chapter 6). -/

namespace Sys2Proof.Machine

/-- Run a lane event while the core is clocked; the line monitors do not run in freeze. -/
def whenClocked (s : State) (f : State → State) : State := if clocked s then f s else s

/-- The front-end of a lane is on: RX_ONLY, ACTIVE or BUS_OFF. -/
def laneOn (s : State) (n : Nat) : Bool :=
  let st := (laneOf s n).st
  decide (st = .rxOnly) || decide (st = .active) || decide (st = .busOff)

/-! ## Probe (R168) -/

/-- A probe ends and the lane enters ACTIVE. -/
def probeEnd (s : State) (n : Nat) : State :=
  let x := laneOf s n
  if x.st = .rxOnly ∧ x.probe then setLane s n { x with st := .active, probe := false } else s

/-- LANE_PROBE_END (R168). -/
def execLaneProbeEnd (lane : Fin 96) (s : State) : Host.Outcome State Fault Refusal :=
  .next (whenClocked (begin_ s) fun s => probeEnd s lane)

/-! ## Faults (R175 to R180) -/

/-- Set the flag of a fault code in LANE_FLT. -/
def laneFlag (s : State) (n code : Nat) : State := orReg s R_LANE_FLT n (fieldMask (code - 1) 1)

/-- A fault is present on a lane: it shows in LANE_STAT and sets its flag (R175). -/
def faultSeen (s : State) (n code : Nat) : State :=
  let s := laneFlag s n code
  setLane s n { laneOf s n with faults := (laneOf s n).faults ||| BitVec.ofNat 9 (2 ^ (code - 1)) }

/-- RETRIES rises by one; at RETRY_MAX the lane enters LATCHED (R179). -/
def retryCount (s : State) (n : Nat) : State :=
  let x := laneOf s n
  let r := x.retries + 1
  if r ≥ fldi s R_LANE_FLT_CFG n 20 4 then
    raise (setLane s n { x with retries := r, st := .latched }) .laneLatched
  else setLane s n { x with retries := r }

/-- Enter FAULT (R176): the transmitter is off, the frame in transmission abandoned, the queues flushed. A
recurrence of the fault that was returned from less than 1 s ago counts as a retry (R179). A fault during a
probe or role swap abandons it (R183).
Mark: DEDUCED (log entry 30). -/
def laneFault (s : State) (n code : Nat) : State :=
  let x := laneOf s n
  let again := x.watch && decide (x.cause = code)
  let s := flushLane (faultSeen s n code) n
  let s := setLane s n { laneOf s n with st := .fault, probe := false, swapPend := false, watch := false, cause := code }
  let s := raise (statIncI s R_LANE_FLT_CNT n) .laneFault
  if again then retryCount s n else s

/-- A fault a lane of its personality can detect (Table 6.8). -/
def faultFits (s : State) (n code : Nat) : Bool :=
  decide (1 ≤ code) && decide (code ≤ 7) &&
  (match pers s n with
   | 1 => true
   | 2 => decide (code ≠ 5)
   | 3 => decide (code ≠ 7)
   | _ => false)

/-- LANE_FAULT_DETECT (R175, R176). On a lane that is already in FAULT or LATCHED the fault is one more that is present. -/
def execLaneFaultDetect (lane : Fin 96) (code : Fin 10) (s : State) : Host.Outcome State Fault Refusal :=
  .next (whenClocked (begin_ s) fun s =>
    let x := laneOf s lane
    if ! faultFits s lane code then s
    else if laneOn s lane then laneFault s lane code
    else if x.st = .fault ∨ x.st = .latched then faultSeen s lane code
    else s)

/-- LANE_OPEN_DETECT (R177): on a CAN or T1S lane. -/
def execLaneOpenDetect (lane : Fin 96) (s : State) : Host.Outcome State Fault Refusal :=
  .next (whenClocked (begin_ s) fun s =>
    if laneOn s lane ∧ (pers s lane = 1 ∨ pers s lane = 3) then raise (faultSeen s lane 9) .laneFault else s)

/-- Put the frame in transmission back at the head of its queue (R299). -/
def returnTx (s : State) (e : Nat) : State :=
  match (egrOf s e).tx with
  | none => s
  | some (q, x) =>
    let s := setEgr s e { egrOf s e with tx := none }
    setQueue s e q (x :: queueOf s e q)

/-- LANE_REVERSAL (R178): on T1S a flag only; on CAN the swap with SWAP_EN, else a fault.
Mark: DEDUCED (log entry 30). -/
def execLaneReversal (lane : Fin 96) (s : State) : Host.Outcome State Fault Refusal :=
  .next (whenClocked (begin_ s) fun s =>
    if ! laneOn s lane then s
    else match pers s lane with
      | 3 => faultSeen s lane 8
      | 1 =>
        if bit s R_LANE_CFG lane 8 then
          let s := returnTx (faultSeen s lane 8) lane
          setLane s lane { laneOf s lane with st := .rxOnly, probe := false, swapPend := true }
        else laneFault s lane 8
      | _ => s)

/-- LANE_ROLE_SWAP (R178): SWAPPED is set and the lane passes through its probe.
Mark: DEDUCED (log entry 30). -/
def execLaneRoleSwap (lane : Fin 96) (s : State) : Host.Outcome State Fault Refusal :=
  .next (whenClocked (begin_ s) fun s =>
    let x := laneOf s lane
    if x.swapPend then
      laneToTarget (setLane s lane { x with swapped := true, swapPend := false, st := .rxOnly, probe := false, faults := x.faults &&& ~~~ 0x080 }) lane
    else s)

/-- LANE_RETRY (R179): the lane observes itself for 1 ms, in which the faults `present` are met. The one that caused the
entry into FAULT is still met, or the lane returns.
Mark: DEDUCED (log entry 30). -/
def execLaneRetry (lane : Fin 96) (present : BitVec 9) (s : State) : Host.Outcome State Fault Refusal :=
  .next (whenClocked (begin_ s) fun s =>
    let x := laneOf s lane
    if x.st ≠ .fault then s
    else
      let s := setLane (orReg s R_LANE_FLT lane (present.setWidth 32)) lane { x with faults := present }
      if bb present (x.cause - 1) then retryCount s lane
      else laneToTarget (setLane s lane { laneOf s lane with st := .off, probe := false, watch := true }) lane)

/-- LANE_FAULT_FREE (R179): RETRIES is zero again. -/
def execLaneFaultFree (lane : Fin 96) (s : State) : Host.Outcome State Fault Refusal :=
  .next (whenClocked (begin_ s) fun s =>
    let x := laneOf s lane
    if laneOn s lane then setLane s lane { x with retries := 0, watch := false, faults := 0 } else s)

/-! ## CAN error counters and bus-off (R160, R162) -/

/-- The frame in transmission on a lane is a CAN XL frame in FAST mode: its data phase runs with error signalling disabled
(Table 6.2). -/
def txFast (s : State) (n : Nat) : Bool :=
  decide (fldi s R_LANE_CFG n 2 3 = 3) && (match (egrOf s n).tx with
    | some (_, x) => (match frameOf s x.h with
      | some f => decide (ftype f.content = 3)
      | none => false)
    | none => false)

/-- A CAN lane takes part in fault confinement while ACTIVE. The steps are those of ISO 11898-1.
Mark: PRESUMED (log entry 31). -/
def canTxError (s : State) (n : Nat) : State :=
  let x := laneOf s n
  let s := statIncI s R_LANE_ERRF n
  if x.tec + 8 > 255 then setLane s n { x with tec := 255, st := .busOff }
  else setLane s n { x with tec := x.tec + 8 }

/-- A CAN frame transmitted without error.
Mark: PRESUMED (log entry 31). -/
def canTxGood (s : State) (n : Nat) : State :=
  let x := laneOf s n
  setLane s n { x with tec := x.tec - 1 }

/-- A CAN frame received in error.
Mark: PRESUMED (log entry 31). -/
def canRxError (s : State) (n : Nat) : State :=
  let x := laneOf s n
  let s := statIncI s R_LANE_ERRF n
  if x.st = .active then setLane s n { x with recErr := min 255 (x.recErr + 1) } else s

/-- A CAN frame received without error; it ends a probe (R168).
Mark: PRESUMED (log entry 31). -/
def canRxGood (s : State) (n : Nat) : State :=
  let x := laneOf s n
  let s := if x.st = .active then
      setLane s n { x with recErr := if x.recErr > 127 then 127 else x.recErr - 1 } else s
  probeEnd s n

/-- BUS_OFF_RECOVERY (R162): the lane is error-active again and enters ACTIVE through the probe (R168).
Mark: PRESUMED (log entry 31). -/
def execBusOffRecovery (lane : Fin 96) (s : State) : Host.Outcome State Fault Refusal :=
  .next (whenClocked (begin_ s) fun s =>
    let x := laneOf s lane
    if x.st = .busOff then laneToTarget (setLane s lane { x with st := .off, tec := 0, recErr := 0 }) lane else s)

/-! ## PLCA (R165) -/

/-- A T1S lane with PLCA on. -/
def plcaLane (s : State) (n : Nat) : Bool := decide (pers s n = 3) && bit s R_LANE_CFG n 6

/-- A PLCA follower. -/
def plcaFollower (s : State) (n : Nat) : Bool := plcaLane s n && decide (fldi s R_LANE_PLCA n 0 8 ≠ 0)

/-- PLCA_FALLBACK (R165). -/
def execPlcaFallback (lane : Fin 96) (s : State) : Host.Outcome State Fault Refusal :=
  .next (whenClocked (begin_ s) fun s =>
    if plcaFollower s lane && laneOn s lane then setLane s lane { laneOf s lane with fallback := true } else s)

/-- PLCA_BEACON (R165, R201): PLCA runs again, and no back-off is taken under it.
Mark: DEDUCED (log entry 32). -/
def execPlcaBeacon (lane : Fin 96) (s : State) : Host.Outcome State Fault Refusal :=
  .next (whenClocked (begin_ s) fun s =>
    if plcaFollower s lane && laneOn s lane then
      setLane s lane { laneOf s lane with fallback := false, backoff := false }
    else s)

/-! ## LIN headers (R163) -/

/-- Slot `k` of a lane schedule: its slot time in ms and its frame identifier.
Mark: DEDUCED (log entry 32). -/
def linSlotOf (s : State) (n k : Nat) : Nat × Nat :=
  let w := fldi s (R_LANE_LSCH + 4 * (k / 2)) n (16 * (k % 2)) 16
  (w / 256, w % 64)

/-- The protected identifier of LIN: parity bits P0 and P1 above the identifier (ISO 17987). -/
def linPid (id : Nat) : Nat :=
  let b (k : Nat) : Nat := id / 2 ^ k % 2
  let p0 := (b 0 + b 1 + b 2 + b 4) % 2
  let p1 := (b 1 + b 3 + b 4 + b 5 + 1) % 2
  id + 64 * p0 + 128 * p1

/-- The start of the slot whose header is next: the one the schedule set, or now when the schedule stood still for a
millisecond or more, because the lane was not ACTIVE. The spec does not say how a schedule resumes.
Mark: DESIGN CHOICE (log entry 32). -/
def linStart (x : Lane) (now : Nat) : Nat := if x.linNext + ticksPerMs ≤ now then now else x.linNext

/-- LIN_HEADER (R163): the next scheduled header begins at the first beat boundary at or after its slot start, and the next
slot starts a slot time after this one's start.
Mark: DEDUCED (log entry 32). -/
def execLinHeader (lane : Fin 96) (s : State) : Host.Outcome State Fault Refusal :=
  .next (whenRunning (begin_ s) fun s =>
    let x := laneOf s lane
    let k := if x.linSlot < 32 ∧ (linSlotOf s lane x.linSlot).1 ≠ 0 then x.linSlot else 0
    let (ms, id) := linSlotOf s lane k
    if pers s lane = 2 ∧ bit s R_LANE_CFG lane 5 ∧ x.st = .active ∧ ms ≠ 0 ∧ s.time.beatPos = 0 ∧ x.linNext ≤ s.time.ticks then
      let s := setLane s lane { x with linSlot := k + 1, linNext := linStart x s.time.ticks + ms * ticksPerMs, linId := some id }
      { s with out := { s.out with line := [(lane.val, 0, [BitVec.ofNat 8 (linPid id)])] } }
    else s)

/-! ## LANE_CONFIG and LANE_RECOVER -/

/-- Bit timing of an image word: BRP, TSEG1, TSEG2, SJW. -/
def timing (w : Word) : Nat × Nat × Nat × Nat :=
  (bitsOf w 0 8 + 1, bitsOf w 8 8 + 1, bitsOf w 16 7 + 1, bitsOf w 23 7 + 1)

/-- The limits every phase shares (Table 6.3): at least 8 quanta, sample point 50 % to 90 %, SJW at most TSEG2,
and a bit rate between two bounds; the rate is 160 MHz / (BRP x quanta). -/
def timingOk (brpMax t1Min t1Max t2Max lo hi : Nat) (w : Word) : Bool :=
  let (brp, t1, t2, sjw) := timing w
  let q := 1 + t1 + t2
  decide (brp ≤ brpMax) && decide (t1Min ≤ t1) && decide (t1 ≤ t1Max) && decide (t2 ≤ t2Max) && decide (sjw ≤ t2) &&
  decide (8 ≤ q) && decide (q ≤ 2 * (1 + t1)) && decide (10 * (1 + t1) ≤ 9 * q) &&
  decide (lo * (brp * q) ≤ 160000000) && decide (160000000 ≤ hi * (brp * q))

/-- The nominal rate is no higher than the data rate: the data bit is no longer than the nominal one. -/
def dataFaster (nbt dbt : Word) : Bool :=
  let (b1, a1, c1, _) := timing nbt
  let (b2, a2, c2, _) := timing dbt
  decide (b2 * (1 + a2 + c2) ≤ b1 * (1 + a1 + c1))

/-- The bit timing of a CAN lane (R161, Table 6.3). -/
def canTimingOk (cfg nbt dbt : Word) : Bool :=
  timingOk 256 2 256 128 10000 1000000 nbt &&
  (match bitsOf cfg 2 3 with
   | 0 => true
   | 1 => timingOk 32 1 64 32 0 8000000 dbt && dataFaster nbt dbt
   | 2 => timingOk 32 1 64 32 0 10000000 dbt && dataFaster nbt dbt
   | _ => timingOk 32 1 64 32 2000000 20000000 dbt)

/-- The limits of the registers that belong to the lane's personality (Tables 6.3, 6.10 and 7.6).
Mark: DEDUCED (log entry 70). -/
def persOk (img : List Word) : Bool :=
  let w (k : Nat) : Word := imgAt img k
  match bitsOf (w 0) 0 2 with
  | 1 => canTimingOk (w 0) (w 1) (w 2)
  | 2 => decide (1000 ≤ bitsOf (w 4) 0 15) && decide (bitsOf (w 4) 0 15 ≤ 20000)
  | 3 =>
    decide (bitsOf (w 5) 8 8 ≠ 0) &&
    decide (1 ≤ bitsOf (w 28) 8 5) && decide (bitsOf (w 28) 8 5 ≤ 16) && decide (1 ≤ bitsOf (w 28) 0 4) && decide (bitsOf (w 28) 0 4 ≤ 10) &&
    decide (1518 ≤ bitsOf (w 29) 0 14) && decide (bitsOf (w 29) 0 14 ≤ 2000)
  | _ => true

/-- The checks of LANE_CONFIG (R161, Tables 6.10 and 7.6): the fault timers and NODE_ID of every lane, and its personality's own
registers.
Mark: DEDUCED (log entry 70). -/
def checkLane (lane : BitVec 8) (img : List Word) : Option Status :=
  let flt := imgAt img 6
  if lane.toNat > 95 ∨ img.length ≠ 30 ∨ bitsOf (imgAt img 0) 2 3 > 3 then some .badParam
  else if ! persOk img ∨ bitsOf (imgAt img 5) 0 8 = 255 then some .range
  else if bitsOf flt 24 8 = 0 ∨ bitsOf flt 20 4 = 0 ∨ bitsOf flt 10 10 > 1000 ∨ bitsOf flt 0 10 = 0 ∨ bitsOf flt 0 10 > 1000 then
    some .range
  else none

/-- The registers of the 30 images of LANE_CONFIG, in order (Table 19.4). -/
def laneRegs : List Nat :=
  [R_LANE_CFG, R_LANE_NBT, R_LANE_DBT, R_LANE_TDC, R_LANE_LIN, R_LANE_PLCA, R_LANE_FLT_CFG, R_LANE_WAKE_CFG,
   R_LANE_WAKE_ID, R_LANE_WAKE_IDM, R_LANE_WAKE_DM0, R_LANE_WAKE_DM1] ++
  (List.range 16).map (fun k => R_LANE_LSCH + 4 * k) ++ [R_PORT_CSMA, R_PORT_MAXF]

/-- What LANE_CONFIG writes: the lane's window, and its frame MAC's in the port window. -/
def laneWrites (n : Nat) (img : List Word) : List (Nat × Nat × Word) :=
  (laneRegs.zip img).map fun x => (x.1, if x.1 = R_PORT_CSMA ∨ x.1 = R_PORT_MAXF then 16 + n else n, x.2)

/-- LANE_CONFIG's effect (R170): OFF at once, flushed, counters zero; the configuration at the boundary. The map that
start-up applies leaves a LATCHED lane LATCHED (R180, R182).
Mark: DEDUCED (log entry 30). -/
def applyLane (n : Nat) (img : List Word) (s : State) : State :=
  let s := flushLane s n
  let x := laneOf s n
  let s := setLane s n { x with
    st := if x.st = .latched ∧ s.power.phase ≠ .awake then .latched else .off,
    probe := false, swapPend := false, tec := 0, recErr := 0, fec := 0, fallback := false, preShed := .off, linId := none }
  schedule s (laneWrites n img) (.lane n)

/-- A lane takes its new configuration at the beat boundary; a LIN schedule starts from slot 0. At start-up the faults it
had stay (Table 6.11).
Mark: DEDUCED (log entry 30). -/
def laneStart (s : State) (n : Nat) : State :=
  let x := laneOf s n
  let x := { x with probe := false, linSlot := 0, linNext := s.time.ticks, watch := false,
                    faults := if s.power.phase = .awake then 0 else x.faults }
  if x.st = .latched then setLane s n x else laneToTarget (setLane s n { x with st := .off }) n

/-- LANE_CONFIG (R161, R170). -/
def execLaneConfig (r : Req) (lane : BitVec 8) (img : List Word) (s : State) : Host.Outcome State Fault Refusal :=
  .next (dispatch 0x0301 r judgeInstaller
    (cfgPlan (checkLane lane img) (.lane lane img) (applyLane lane.toNat img)) s)

/-- LANE_RECOVER (R180): a LATCHED lane retries at once with RETRIES 0; any other lane is left as it is.
Mark: DEDUCED (log entry 30). -/
def execLaneRecover (r : Req) (lane : BitVec 8) (s : State) : Host.Outcome State Fault Refusal :=
  .next (dispatch 0x0302 r judgeInstaller (fun _ =>
    if lane.toNat > 95 then Plan.fail .badParam
    else Plan.do_ fun s =>
      let x := laneOf s lane.toNat
      if x.st = .latched then setLane s lane.toNat { x with st := .fault, retries := 0 } else s) s)

end Sys2Proof.Machine
end

