-- ==== Sys2Proof/Machine/Ports.lean ====
section
/-! DEFINITION. Ports and the frame MAC: link, pause and its watchdogs, low-power idle, CSMA/CD, PORT_CONFIG and
the PHY commands (chapter 7). -/

namespace Sys2Proof.Machine

/-! ## External PHYs (R191) -/

/-- The control firmware accesses PHY `n` over PHY_MDC and PHY_MDIO (R191). -/
def mdioOut (s : State) (n : Nat) (m : Mdio) : State := { s with out := { s.out with mdio := s.out.mdio ++ [(n, m)] } }

/-! ## Link (R192 to R195, R214) -/

/-- PORT_UP_DELAY (R192): 10 ms after PHY_RST_Nn was released the port counts as up, if it is to be UP still. -/
def execPortUpDelay (p : Fin 4) (s : State) : Host.Outcome State Fault Refusal :=
  .next (whenRunning (begin_ s) fun s =>
    if (portOf s p).upWait then
      let s := setPort s p { portOf s p with upWait := false }
      if portTarget s p then portUp s p else s
    else s)

/-- The speed of a port that gains link (R194). -/
def linkSpeed (s : State) (p partner : Nat) : Nat :=
  let m := fldi s R_PORT_CFG p 16 4
  if bit s R_PORT_CFG p 8 && (decide (m = 1) || decide (m = 4)) then partner else fldi s R_PORT_CFG p 4 3

/-- LINK_CHANGE (R194, R195, R214): an UP port gains or loses link. The spec does not say what SPEED and AN_DONE read without
link, or what a partner that advertises another speed while the link stays up does: they clear when the link is lost, and
the speed of a link that is up stays.
Mark: DESIGN CHOICE (log entry 33). -/
def execLinkChange (p : Fin 8) (up : Bool) (speed : Fin 6) (s : State) : Host.Outcome State Fault Refusal :=
  .next (whenRunning (begin_ s) fun s =>
    if ! bit s R_PORT_STAT p 0 then s
    else if up then
      if bit s R_PORT_STAT p 1 then s
      else
        let m := fldi s R_PORT_CFG p 16 4
        let an := bit s R_PORT_CFG p 8 && (decide (m = 1) || decide (m = 4))
        let s := setFldi (orReg s R_PORT_STAT p 2) R_PORT_STAT p 4 3 (linkSpeed s p speed)
        raise (setFldi s R_PORT_STAT p 8 1 (b2n an)) .linkChange
    else if bit s R_PORT_STAT p 1 && decide (loopOf s (96 + p) = 0) then linkLost s p
    else s)

/-- PHY_INT (R191): the control firmware reads the status of PHY n over MDIO. Which register it reads is not stated. -/
def execPhyInt (n : Fin 4) (s : State) : Host.Outcome State Fault Refusal :=
  .next (whenRunning (begin_ s) fun s => mdioOut s n .status)

/-! ## Pause received (R206, R207, R209) -/

/-- A pause for one scope that the port's mode honours: ignored in an ignore period.
Mark: DEDUCED (log entry 33). -/
def pauseScope (s : State) (p b quanta : Nat) : State :=
  if bit s R_PORT_PAUSE_IGN p b then s
  else if quanta = 0 then clrReg s R_PORT_PAUSE_STAT p (fieldMask b 1)
  else orReg s R_PORT_PAUSE_STAT p (fieldMask b 1)

/-- A pause or PFC frame (R206, R207): `en` is the priority-enable vector and `quanta` the times, of which an
802.3x frame has the first. -/
def pauseFrame (s : State) (p : Nat) (pfc : Bool) (en : BitVec 8) (quanta : List Nat) : State :=
  let s := statIncI s R_PORT_RX_PAUSE p
  if pmode s p = 1 ∧ ¬ pfc then pauseScope s p 0 (quanta.getD 0 0)
  else if pmode s p = 2 ∧ pfc then
    ((List.range 8).filter fun b => en.getLsbD b && bit s R_PORT_PAUSE_CFG p (24 + b)).foldl
      (fun s b => pauseScope s p b (quanta.getD b 0)) s
  else s

/-- Every scope of a pause frame that the port's mode would honour is in its ignore period: the frame is counted in
PORT_RX_PAUSE only (R209).
Mark: DEDUCED (log entry 33). -/
def pauseIgnored (s : State) (p : Nat) (pfc : Bool) (en : BitVec 8) : Bool :=
  let l := if pmode s p = 1 ∧ ¬ pfc then [0]
    else if pmode s p = 2 ∧ pfc then (List.range 8).filter fun b => en.getLsbD b && bit s R_PORT_PAUSE_CFG p (24 + b) else []
  ! l.isEmpty && l.all fun b => bit s R_PORT_PAUSE_IGN p b

/-- PAUSE_RECEIVED (R196, R206, R207): the MAC accepts the frame of 64 octets and consumes it. -/
def execPauseReceived (p : Fin 8) (pfc : Bool) (en : BitVec 8) (quanta : List (BitVec 16)) (s : State) :
    Host.Outcome State Fault Refusal :=
  .next (whenRunning (begin_ s) fun s =>
    if portLink s p then
      let s := if pauseIgnored s p pfc en then s else stat2AddI (stat2AddI s R_PORT_RXF p 1) R_PORT_RXO p 64
      pauseFrame s p pfc en (quanta.map BitVec.toNat)
    else s)

/-- PAUSE_EXPIRY (R207). -/
def execPauseExpiry (p b : Fin 8) (s : State) : Host.Outcome State Fault Refusal :=
  .next (whenRunning (begin_ s) fun s => clrReg s R_PORT_PAUSE_STAT p (fieldMask b 1))

/-- PAUSE_WD_RX (R209). -/
def execPauseWdRx (p b : Fin 8) (s : State) : Host.Outcome State Fault Refusal :=
  .next (whenRunning (begin_ s) fun s =>
    if bit s R_PORT_PAUSE_STAT p b then
      let s := orReg (clrReg s R_PORT_PAUSE_STAT p (fieldMask b 1)) R_PORT_PAUSE_STAT p (fieldMask (16 + b) 1)
      let s := if fldi s R_PORT_PAUSE_WD p 0 16 = 0 then s else orReg s R_PORT_PAUSE_IGN p (fieldMask b 1)
      raise (statIncI s R_PORT_PAUSE_WD_CNT p) .pauseWd
    else s)

/-- PAUSE_IGNORE_END (R209, R210): of a received scope, or of one for which no pause was sent. A scope whose flow
control is still asserted is paused again. -/
def execPauseIgnoreEnd (p b : Fin 8) (tx : Bool) (s : State) : Host.Outcome State Fault Refusal :=
  .next (whenRunning (begin_ s) fun s =>
    if ! tx then clrReg s R_PORT_PAUSE_IGN p (fieldMask b 1)
    else if ! bb (portOf s p).txQuiet b then s
    else
      let x := portOf s p
      let s := setPort s p { x with txQuiet := x.txQuiet &&& ~~~ BitVec.ofNat 8 (2 ^ b.val) }
      if bb (tget 0 s.net.fcAss p) b then
        sendPause (orReg s R_PORT_PAUSE_STAT p (fieldMask (8 + b) 1)) p b (fldi s R_PORT_PAUSE_CFG p 0 16)
      else s)

/-! ## Pause generated (R208, R210) -/

/-- PAUSE_WD_TX (R210): quanta 0, WD_TX, and no pause frame for the scope in IGNORE_MS. With IGNORE_MS = 0 there is no quiet
period; the spec does not say whether the pause then goes on at once, and the model sends none until flow control is
asserted anew.
Mark: DEDUCED and DESIGN CHOICE (log entry 33). -/
def execPauseWdTx (p b : Fin 8) (s : State) : Host.Outcome State Fault Refusal :=
  .next (whenRunning (begin_ s) fun s =>
    if bit s R_PORT_PAUSE_STAT p (8 + b) then
      let s := sendPause (clrReg s R_PORT_PAUSE_STAT p (fieldMask (8 + b) 1)) p b 0
      let s := orReg s R_PORT_PAUSE_STAT p (fieldMask (24 + b) 1)
      let x := portOf s p
      let s := if fldi s R_PORT_PAUSE_WD p 0 16 = 0 then s
               else setPort s p { x with txQuiet := x.txQuiet ||| BitVec.ofNat 8 (2 ^ b.val) }
      raise (statIncI s R_PORT_PAUSE_WD_CNT p) .pauseWd
    else s)

/-- PAUSE_REFRESH (R208). -/
def execPauseRefresh (p b : Fin 8) (s : State) : Host.Outcome State Fault Refusal :=
  .next (whenRunning (begin_ s) fun s =>
    if bit s R_PORT_PAUSE_STAT p (8 + b) then sendPause s p b (fldi s R_PORT_PAUSE_CFG p 0 16) else s)

/-! ## Low-power idle (R202 to R205) -/

/-- A port mode that Table 7.2 lists for LPI. -/
def lpiMode (s : State) (p : Nat) : Bool := [1, 3, 4, 6].contains (fldi s R_PORT_CFG p 16 4)

/-- LPI applies to the port (EEE_ACTIVE). -/
def lpiOn (s : State) (p : Nat) : Bool := lpiMode s p && bit s R_PORT_LPI_CFG p 31

/-- Send a frame of the control firmware through PP to one egress: PP's MAC counts it (R211). The pipeline and the queue are
not stated: its commit is all the pipeline does with it, and the queue is a free value.
Mark: DESIGN CHOICE (log entry 37). -/
def ppSend (s : State) (c : Content) (dest : Nat) : State :=
  let (k, s) := draw s
  let s := stat2AddI (stat2AddI s R_PORT_RXF (portIdx 105) 1) R_PORT_RXO (portIdx 105) (carried c).length
  let st := stampOf s 105 c
  let act : BitVec 48 := BitVec.ofNat 48 (1 + 4 + dest * 16 + (Config.freeNat k % 8) * 2 ^ 40)
  (commitFrame s (frameFrom st c act 0 false .green none 0 0) st none [dest]).2

/-- The device's own transmit wake time: TW_SYS_TX, or the standard value of the mode, which is not stated. -/
def ownWake (s : State) (p : Nat) : Nat :=
  let w := fldi s R_PORT_LPI_CFG p 0 16
  if w = 0 then (Config.stdWake (fldi s R_PORT_CFG p 16 4)).toNat else w

/-- Two bytes of a big-endian number. -/
def be16 (n : Nat) : List Byte := [BitVec.ofNat 8 (n / 256), BitVec.ofNat 8 n]

/-- The IEEE 802.3 EEE TLV of a port (R203): organisation 00-12-0F, subtype 5, the transmit wake time, the receive and fallback
wake times, which the spec does not state, and the echo of the partner's transmit and receive wake times. The layout is
that of IEEE 802.3 clause 79.
Mark: PRESUMED (log entry 33). -/
def eeeTlv (s : State) (p k : Nat) : List Byte :=
  let e := (portOf s p).echo
  [0xFE, 0x0E, 0x00, 0x12, 0x0F, 0x05] ++ be16 (max (ownWake s p) e.2) ++ be16 (Config.freeNat k) ++
  be16 (Config.freeNat (k + 1)) ++ be16 e.1 ++ be16 e.2

/-- LLDP_SEND (R203): a frame with the EEE TLV goes out, its station address and its other TLVs free; a lower wake time that
waited for the echo takes effect.
Mark: DEDUCED and DESIGN CHOICE (log entry 33). -/
def execLldpSend (p : Fin 8) (s : State) : Host.Outcome State Fault Refusal :=
  .next (whenRunning (begin_ s) fun s =>
    if lpiMode s p && portLink s p then
      let (k, s) := draw s
      let (_, s) := draw s
      let b : List Byte := [0x01, 0x80, 0xC2, 0x00, 0x00, 0x0E] ++ randBytes k 6 ++ [0x88, 0xCC] ++ randBytes (k + 1) 28 ++
        eeeTlv s p k ++ [0x00, 0x00]
      let s := ppSend s (.eth b) (96 + p)
      match (portOf s p).twNext with
      | some v => setPort (setFldi s R_PORT_LPI_STAT p 16 16 v) p { portOf s p with twNext := none }
      | none => s
    else s)

/-- LLDP_RECEIVE (R203): the partner's transmit wake time and the receive wake time it requests, which resolves TW_RES. -/
def execLldpReceive (p : Fin 8) (w : WakeTimes) (s : State) : Host.Outcome State Fault Refusal :=
  .next (whenRunning (begin_ s) fun s =>
    if lpiMode s p && portLink s p then
      let v := max (ownWake s p) w.rx.toNat
      let old := fldi s R_PORT_LPI_STAT p 16 16
      let now := ! bit s R_PORT_LPI_STAT p 3 || decide (old < v)
      let s := setPort s p { portOf s p with echo := (w.tx.toNat, w.rx.toNat), twNext := if now ∨ v = old then none else some v }
      if now then setFldi (orReg s R_PORT_LPI_STAT p 8) R_PORT_LPI_STAT p 16 16 v else s
    else s)

/-- The transmitter of a port leaves LPI: frames start TW_RES after the exit begins (R204).
Mark: DEDUCED (log entry 33). -/
def lpiLeave (s : State) (p : Nat) : State :=
  if bit s R_PORT_LPI_STAT p 1 then
    let s := clrReg s R_PORT_LPI_STAT p 2
    setPort s p { portOf s p with wakeAt := s.time.ticks + fldi s R_PORT_LPI_STAT p 16 16 * ticksPerUs }
  else s

/-- LLDP_AGE_OUT (R203): AGREED clears and the transmitter leaves LPI. -/
def execLldpAgeOut (p : Fin 8) (s : State) : Host.Outcome State Fault Refusal :=
  .next (whenRunning (begin_ s) fun s =>
    let s := clrReg (lpiLeave s p) R_PORT_LPI_STAT p 0x00000008
    setPort s p { portOf s p with twNext := none, echo := (0, 0) })

/-- Every egress queue of a port is empty and nothing is in transmission. -/
def portIdle (s : State) (p : Nat) : Bool :=
  ((List.range 8).all fun q => (queueOf s (96 + p) q).isEmpty) && (egrOf s (96 + p)).tx.isNone

/-- LPI_ENTER (R204). -/
def execLpiEnter (p : Fin 8) (s : State) : Host.Outcome State Fault Refusal :=
  .next (whenRunning (begin_ s) fun s =>
    if lpiOn s p && bit s R_PORT_LPI_STAT p 3 && portLink s p && ! bit s R_PORT_LPI_STAT p 1 && portIdle s p then
      statIncI (orReg s R_PORT_LPI_STAT p 2) R_PORT_TX_LPI p
    else s)

/-- LPI_EXIT (R204, R205). -/
def execLpiExit (p : Fin 8) (s : State) : Host.Outcome State Fault Refusal :=
  .next (whenRunning (begin_ s) fun s => lpiLeave s p)

/-- PARTNER_LPI (R202): honoured whether or not a wake time is agreed. -/
def execPartnerLpi (p : Fin 8) (enter : Bool) (s : State) : Host.Outcome State Fault Refusal :=
  .next (whenRunning (begin_ s) fun s =>
    if ! enter then clrReg s R_PORT_LPI_STAT p 4
    else if lpiOn s p && portLink s p && ! bit s R_PORT_LPI_STAT p 2 then
      statIncI (orReg s R_PORT_LPI_STAT p 4) R_PORT_RX_LPI p
    else s)

/-! ## CSMA/CD (R199 to R201) -/

/-- The frame a lane transmits is dropped by its MAC. -/
def dropTx (s : State) (n : Nat) : State :=
  match (egrOf s n).tx with
  | none => s
  | some (_, x) =>
    let s := dropAt (setEgr s n { egrOf s n with tx := none }) n x.h
    setLane s n { laneOf s n with backoff := false, attempts := 0 }

/-- COLLISION (R200, R201): counted; late collisions and excess collisions drop the frame, others are retried,
after a back-off of r slot times of 51.2 µs unless PLCA runs: r is drawn from 0 to 2^min(n, BOLIM) - 1 by the lane's own
generator (R199).
Mark: DEDUCED (log entry 32). -/
def execCollision (lane : Fin 96) (late : Bool) (s : State) : Host.Outcome State Fault Refusal :=
  .next (whenRunning (begin_ s) fun s =>
    let x := laneOf s lane
    if pers s lane ≠ 3 ∨ x.st ≠ .active ∨ (egrOf s lane).tx = none ∨ x.backoff then s
    else
      let w := 16 + lane.val
      let s := statIncI (statIncI s R_PORT_COLL w) R_LANE_ERRF lane
      if late then dropTx (statIncI s R_PORT_LATE_COLL w) lane
      else if x.attempts + 1 ≥ fldi s R_PORT_CSMA w 8 5 then dropTx (statIncI s R_PORT_EXC_COLL w) lane
      else if plcaLane s lane && ! x.fallback then setLane s lane { x with attempts := x.attempts + 1 }
      else
        let g := Config.laneGen x.rng
        let r := g.toNat % 2 ^ min (x.attempts + 1) (fldi s R_PORT_CSMA w 0 4)
        setLane s lane { x with attempts := x.attempts + 1, backoff := true, rng := g,
                                backEnd := s.time.ticks + r * 12800 })

/-! ## PORT_CONFIG, PHY_READ, PHY_WRITE -/

/-- A mode that Table 7.1 allows on a port. -/
def portModeOk (p m : Nat) : Bool :=
  decide (m = 0) || (if p < 4 then decide (m ≤ 4) else decide (m = 5) || decide (m = 6))

/-- The checks of PORT_CONFIG (R190, R218).
Mark: DEDUCED (log entry 33). -/
def checkPort (port : BitVec 8) (img : List Word) : Option Status :=
  let w (k : Nat) : Word := imgAt img k
  let p := port.toNat
  let role := bitsOf (w 0) 12 2
  if p > 7 ∨ img.length ≠ 5 ∨ ! portModeOk p (bitsOf (w 0) 16 4) then some .badParam
  else if bitsOf (w 0) 4 3 > 5 ∨ role = 3 ∨ (p < 4 ∧ role ≠ 0) ∨ (4 ≤ p ∧ bitsOf (w 0) 16 4 ≠ 0 ∧ role = 0) then some .range
  else if bitsOf (w 1) 16 2 = 3 ∨ bitsOf (w 1) 0 16 = 0 ∨ bitsOf (w 2) 16 16 = 0 ∨ bitsOf (w 3) 16 12 = 0 then some .range
  else if bitsOf (w 4) 0 14 < 1518 ∨ bitsOf (w 4) 0 14 > 9216 then some .range
  else none

/-- PORT_CONFIG's effect (R213): DOWN at once; the configuration at the boundary. EN follows MODE.
Mark: DEDUCED (log entry 33). -/
def applyPort (p : Nat) (img : List Word) (s : State) : State :=
  let cfg := putBits (imgAt img 0) 0 1 (b2n (decide (bitsOf (imgAt img 0) 16 4 ≠ 0)))
  schedule (portDown s p)
    [(R_PORT_CFG, p, cfg), (R_PORT_PAUSE_CFG, p, imgAt img 1), (R_PORT_PAUSE_WD, p, imgAt img 2),
     (R_PORT_LPI_CFG, p, imgAt img 3), (R_PORT_MAXF, p, imgAt img 4)] (.port p)

/-- A port takes its new configuration: PHY_RST_Nn is low again when the mode is OFF (R192). -/
def portStart (s : State) (p : Nat) : State :=
  if ! bit s R_PORT_CFG p 0 then setPort s p { portOf s p with phyRst := false, upWait := false }
  else if portTarget s p then portUp s p else s

/-- PORT_CONFIG (R190, R213). -/
def execPortConfig (r : Req) (port : BitVec 8) (img : List Word) (s : State) : Host.Outcome State Fault Refusal :=
  .next (dispatch 0x0303 r judgeInstaller
    (cfgPlan (checkPort port img) (.port port img) (applyPort port.toNat img)) s)

/-- The parameters of an MDIO access (Table 19.4). -/
def checkPhy (phy clause dev : BitVec 8) (reg : BitVec 16) : Option Status :=
  if clause ≠ 22 ∧ clause ≠ 45 then some .badParam
  else if phy.toNat > 3 ∨ dev.toNat > 31 ∨ (clause = 22 ∧ reg.toNat > 31) then some .range
  else none

/-- A plan whose execution makes an access to a PHY first. -/
def Plan.withMdio (p : Plan) (n : Nat) (m : Mdio) : Plan := { p with act := fun s => p.act (mdioOut s n m) }

/-- PHY_READ: the PHY answers with a value, or not within 1 ms.
Mark: DEDUCED (log entry 33). -/
def execPhyRead (r : Req) (phy clause dev : BitVec 8) (reg : BitVec 16) (value : Option (BitVec 16)) (s : State) :
    Host.Outcome State Fault Refusal :=
  .next (dispatch 0x0304 r
    (judgeRight true false false false (fun m => m.awake && decide (m ≠ .approach)))
    (fun _ => match checkPhy phy clause dev reg with
      | some st => Plan.fail st
      | none => (match value with
        | some v => Plan.read (leBytes 2 v.toNat ++ leBytes 2 0)
        | none => Plan.fail .retry).withMdio phy.toNat (.read clause.toNat dev.toNat reg.toNat)) s)

/-- PHY_WRITE: the PHY takes the value, or does not answer within 1 ms. -/
def execPhyWrite (r : Req) (phy clause dev : BitVec 8) (reg value : BitVec 16) (answered : Bool) (s : State) :
    Host.Outcome State Fault Refusal :=
  .next (dispatch 0x0305 r judgeInstaller
    (fun s => match checkPhy phy clause dev reg with
      | some st => Plan.fail st
      | none => (cfgPlan (if answered then none else some .retry) (.phyWrite phy clause dev reg value) id s).withMdio
          phy.toNat (.write clause.toNat dev.toNat reg.toNat value.toNat)) s)

end Sys2Proof.Machine
end

