-- ==== Sys2Proof/Machine/Sched.lean ====
section
/-! DEFINITION. Policing, shaping and scheduling (chapter 10), with the carry check at egress (chapter 11):
buckets, colours, gates, eligibility, the pick, transmission and its end. -/

namespace Sys2Proof.Machine

/-! ## The beat -/

/-- Beat length of a code in nanoseconds (R131). -/
def beatNsOf (code : Nat) : Nat := [25000, 50000, 100000, 125000].getD code 50000

/-- The beat length in use, in nanoseconds. -/
def beatNs (s : State) : Nat := beatNsOf (fld s R_TIME_BEAT 0 2)

/-- The beat source (R133): local time while the domain named is OFF, and until start-up step 7 (R153). -/
def beatSource (s : State) : Nat :=
  let d := fld s R_TIME_BEAT 5 2
  if d < 3 ∧ ¬ domOff s d ∧ s.power.phase = .awake then d else 3

/-- The number of the present beat in beat-source time; a boundary lies on the tick nearest to its multiple (R133). -/
def beatIndex (s : State) : Nat := (domNs s (beatSource s) + 2) / beatNs s

/-! ## Refill (R286) -/

/-- `refill` of R286 on an integer and a fractional part.
Mark: DEDUCED (log entry 39). -/
def refill (t f rate bs b : Nat) : Nat × Nat :=
  let f := f + rate % b
  let t := t + rate / b
  let (t, f) := if f ≥ b then (t + 1, f - b) else (t, f)
  if t ≥ bs then (bs, 0) else (t, f)

/-- `n` refills in a row. -/
def refillN : Nat → Nat → Nat → Nat → Nat → Nat → Nat × Nat
  | 0, t, f, _, _, _ => (t, f)
  | n + 1, t, f, rate, bs, b => let (t, f) := refill t f rate bs b; refillN n t f rate bs b

/-- Beats per second in use. -/
def bps (s : State) : Nat := fld s R_POL_BPS 0 16

/-- A bucket register, [31:16] whole tokens and [15:0] the fraction, refilled `n` times. -/
def bucketN (n : Nat) (w : Word) (rate bs b : Nat) : Word :=
  let (t, f) := refillN n (bitsOf w 16 16) (bitsOf w 0 16) rate bs b
  fieldVal 16 16 t ||| fieldVal 0 16 f

/-- The valid policers. -/
def polsValid (s : State) : List Nat :=
  s.rf.filterMap fun x => if x.1 / 8192 = R_POL_CFG ∧ bitsOf x.2 2 1 = 1 then some (x.1 % 8192) else none

/-- Refill policer `k`, `n` times. -/
def refillPol (s : State) (k n : Nat) : State :=
  let b := bps s
  let s := wri s R_POL_TC k (bucketN n (rdi s R_POL_TC k) (fldi s R_POL_CIR k 0 24) (fldi s R_POL_BS k 0 16) b)
  wri s R_POL_TP k (bucketN n (rdi s R_POL_TP k) (fldi s R_POL_PIR k 0 24) (fldi s R_POL_BS k 16 16) b)

/-- RATE of a shaper (R296); 0 is off. -/
def shRate (s : State) (e q : Nat) : Nat := fldi s (R_SCH_Q_RATE + 8 * q) e 0 24

/-- The shapers that are on, as egress and queue. -/
def shapersOn (s : State) : List (Nat × Nat) :=
  s.rf.filterMap fun x =>
    let a := x.1 / 8192
    if R_SCH_Q_RATE ≤ a ∧ a < R_SCH_Q_RATE + 64 ∧ (a - R_SCH_Q_RATE) % 8 = 0 ∧ bitsOf x.2 0 24 ≠ 0 then
      some (x.1 % 8192, (a - R_SCH_Q_RATE) / 8) else none

/-- Refill a shaper `n` times. -/
def refillSh (s : State) (e q n : Nat) : State :=
  let a := R_SCH_Q_BURST + 8 * q
  let (t, f) := refillN n (fldi s a e 16 16) (tget 0 s.net.shFrac (qn e q)) (shRate s e q) (fldi s a e 0 16) (bps s)
  let s := setFldi s a e 16 16 t
  { s with net := { s.net with shFrac := tset 0 s.net.shFrac (qn e q) f } }

/-- The REFILL task (R138, R286): what it does not reach now it receives with the next increment. -/
def refillTask (s : State) (polMiss shMiss : List Nat) : State :=
  let due (l : List Nat) (k : Nat) : Nat := 1 + l.count k
  let old := s.time
  let s := (polsValid s).foldl (fun s k =>
    if polMiss.contains k then s else refillPol s k (due old.refillMiss k)) s
  let s := (shapersOn s).foldl (fun s x =>
    if shMiss.contains (qn x.1 x.2) then s else refillSh s x.1 x.2 (due old.shaperMiss (qn x.1 x.2))) s
  let keep (l miss : List Nat) : List Nat := miss ++ l.filter fun k => miss.contains k
  { s with time := { s.time with refillMiss := keep old.refillMiss polMiss, shaperMiss := keep old.shaperMiss shMiss } }

/-- Rescale every fraction for a new number of beats per second (R287). -/
def rescale (s : State) (new : Nat) : State :=
  let old := bps s
  let one (s : State) (a k : Nat) : State := setFldi s a k 0 16 (fldi s a k 0 16 * new / old)
  let s := (polsValid s).foldl (fun s k => one (one s R_POL_TC k) R_POL_TP k) s
  (shapersOn s).foldl (fun s x =>
    let f := tget 0 s.net.shFrac (qn x.1 x.2) * new / old
    { s with net := { s.net with shFrac := tset 0 s.net.shFrac (qn x.1 x.2) f } }) s

/-! ## Colours (R288 to R292) -/

/-- `mark` of R289 and the counters; a policer that is not valid leaves the pre-colour (R291). -/
def markFrame (s : State) (k : Nat) (pre : Colour) : Colour × State :=
  if ! bit s R_POL_CFG k 2 then (pre, s)
  else
    let pre := if bit s R_POL_CFG k 0 then pre else .green
    let tc := fldi s R_POL_TC k 16 16
    let tp := fldi s R_POL_TP k 16 16
    if pre = .red ∨ tp < 1 then (.red, statIncI s R_POL_RED k)
    else if pre = .yellow ∨ tc < 1 then (.yellow, statIncI (setFldi s R_POL_TP k 16 16 (tp - 1)) R_POL_YELLOW k)
    else (.green, statIncI (setFldi (setFldi s R_POL_TC k 16 16 (tc - 1)) R_POL_TP k 16 16 (tp - 1)) R_POL_GREEN k)

/-- A red frame of a valid policer is dropped unless RED_PASS is set (R290). -/
def redDrops (s : State) (k : Nat) : Bool := ! bit s R_POL_CFG k 1

/-! ## Gate lists (R301 to R305) -/

/-- The list of an egress runs: EN set and entries present. -/
def gclOn (s : State) (e : Nat) : Bool := bit s R_SCH_GCL_CFG e 31 && decide (fldi s R_SCH_GCL_CFG e 0 7 ≠ 0)

/-- Entry `k` of a list: its beats and its gates. -/
def gclEnt (s : State) (e k : Nat) : Nat × Nat :=
  (fldi s (R_SCH_GCL_ENT + 4 * k) e 8 24, fldi s (R_SCH_GCL_ENT + 4 * k) e 0 8)

/-- A cycle of `cyc` beats with an offset starts at beat `idx` (R301). -/
def cycleStart (cyc ofs idx : Nat) : Bool := decide (cyc ≠ 0) && decide (idx % cyc = ofs)

/-- Put an entry in force. -/
def gclEnter (s : State) (e k : Nat) : State :=
  let (beats, gates) := gclEnt s e k
  let s := wri s R_SCH_GCL_STAT e (fieldVal 16 6 k ||| fieldVal 0 8 gates)
  setEgr s e { egrOf s e with gRun := true, gLeft := beats }

/-- Every gate open; no list runs. -/
def gclOpen (s : State) (e : Nat) : State :=
  setEgr (wri s R_SCH_GCL_STAT e 0xFF) e { egrOf s e with gRun := false, gLeft := 0 }

/-- An interval in microseconds as whole beats: the nearest, at least 1 (R304). -/
def usBeats (ns us : Nat) : Nat := max 1 ((us * 2000 + ns) / (2 * ns))

/-- An offset in microseconds as whole beats: the nearest. -/
def ofsBeats (ns us : Nat) : Nat := (us * 2000 + ns) / (2 * ns)

/-- CYCLE of a list for a beat length (R304).
Mark: DEDUCED (log entry 39). -/
def cycleBeats (ns : Nat) (es : List Word) : Nat := es.foldl (fun a w => a + usBeats ns (bitsOf w 0 24)) 0

/-- The registers of a gate list for a beat length (R304). -/
def gateWrites (ns e : Nat) (g : GateList) : List (Nat × Nat × Word) :=
  [(R_SCH_GCL_CFG, e, fieldVal 31 1 (b2n g.en) ||| fieldVal 0 7 g.es.length),
   (R_SCH_GCL_CYC, e, fieldVal 0 24 (cycleBeats ns g.es)), (R_SCH_GCL_OFS, e, fieldVal 0 24 (ofsBeats ns g.ofs))] ++
  g.es.zipIdx.map fun (w, k) =>
    (R_SCH_GCL_ENT + 4 * k, e, fieldVal 8 24 (usBeats ns (bitsOf w 0 24)) ||| fieldVal 0 8 (bitsOf w 24 8))

/-- Write the registers of an egress's list for a beat length. -/
def gclShow (s : State) (ns e : Nat) (g : GateList) : State := (gateWrites ns e g).foldl (fun s w => wri s w.1 w.2.1 w.2.2) s

/-- The new list takes the place of the old one, derived for the beat length in use (R304, R305).
Mark: DEDUCED (log entry 39). -/
def gclLoad (s : State) (e : Nat) (g : GateList) : State :=
  gclOpen (setEgr (gclShow s (beatNs s) e g) e { egrOf s e with gIn := some g, gNew := none }) e

/-- The list that waits takes effect at beat `idx`: when it is disabled, or a cycle of it starts. -/
def gclDue (ns : Nat) (g : GateList) (idx : Nat) : Bool :=
  ! g.en || g.es.isEmpty || cycleStart (cycleBeats ns g.es) (ofsBeats ns g.ofs) idx

/-- One advance of an egress's list at beat `idx` (R301), and whether an entry was entered.
Mark: DEDUCED (log entry 39). -/
def gateAdvance (s : State) (e idx : Nat) : Bool × State :=
  let s := match (egrOf s e).gNew with
    | some g => if gclDue (beatNs s) g idx then gclLoad s e g else s
    | none => s
  if ! gclOn s e then (false, s)
  else if cycleStart (rdi s R_SCH_GCL_CYC e).toNat (rdi s R_SCH_GCL_OFS e).toNat idx then (true, gclEnter s e 0)
  else
    let x := egrOf s e
    if ! x.gRun then (false, s)
    else if x.gLeft > 1 then (false, setEgr s e { x with gLeft := x.gLeft - 1 })
    else
      let k := fldi s R_SCH_GCL_STAT e 16 6 + 1
      if k < fldi s R_SCH_GCL_CFG e 0 7 then (true, gclEnter s e k) else (false, s)

/-- Advances at this boundary, missed ones first: an entry that a missed boundary should have entered and a later one
has left is skipped and counted (R138). -/
def gateCatchUp (e idx : Nat) : Nat → Bool → State → State
  | 0, entered, s =>
    let (now, s) := gateAdvance s e idx
    if entered && now then statIncI s R_SCH_GATE_SKIP e else s
  | n + 1, entered, s =>
    let (now, s) := gateAdvance s e (idx - (n + 1))
    gateCatchUp e idx n (entered || now) (if entered && now then statIncI s R_SCH_GATE_SKIP e else s)

/-- The GATE task (R138, R301). -/
def gateTask (s : State) (miss : List Nat) : State :=
  let old := s.time.gateMiss
  let idx := beatIndex s
  let s := ((List.range 104).filter fun e => gclOn s e || (egrOf s e).gNew.isSome).foldl (fun s e =>
    if miss.contains e then s else gateCatchUp e idx (old.count e) false s) s
  { s with time := { s.time with gateMiss := miss ++ old.filter fun k => miss.contains k } }

/-- Gate of queue `q` of an egress; HP and PP have none. -/
def gateOpen (s : State) (e q : Nat) : Bool := decide (104 ≤ e) || bit s R_SCH_GCL_STAT e q

/-- The entries of a list. -/
def gclEntries (s : State) (e : Nat) : List (Nat × Nat) := (List.range (fldi s R_SCH_GCL_CFG e 0 7)).map (gclEnt s e)

/-- Bit `q` of a gate mask. -/
def openIn (q : Nat) (x : Nat × Nat) : Bool := decide (x.2 / 2 ^ q % 2 = 1)

/-- Beats until the gate of `q` closes, over entries that follow; none when it stays open. -/
def openBeats (q : Nat) : List (Nat × Nat) → Option Nat
  | [] => none
  | x :: t => if openIn q x then (openBeats q t).map (· + x.1) else some 0

/-- Nanoseconds until the gate of a queue closes; none when it does not. -/
def closeIn (s : State) (e q : Nat) : Option Nat :=
  let x := egrOf s e
  if ! x.gRun then none
  else
    let l := gclEntries s e
    let k := fldi s R_SCH_GCL_STAT e 16 6
    (openBeats q (l.drop (k + 1) ++ l.take (k + 1))).map fun b => (b + x.gLeft - 1) * beatNs s + (s.time.beatLen - s.time.beatPos) * 4

/-- The longest run of open beats of a queue in a list read twice over. -/
def longestRun (q : Nat) : List (Nat × Nat) → Nat → Nat → Nat
  | [], _, best => best
  | x :: t, run, best => if openIn q x then longestRun q t (run + x.1) (max best (run + x.1)) else longestRun q t 0 best

/-- The longest open interval of a queue in nanoseconds; none when the gate never closes (R302). -/
def longestOpen (s : State) (e q : Nat) : Option Nat :=
  let l := gclEntries s e
  if ! (egrOf s e).gRun ∨ l.all (openIn q) then none else some (longestRun q (l ++ l) 0 0 * beatNs s)

/-! ## Frames on the line -/

/-- RFC 1624: the IPv4 header checksum after a 16-bit word changes from `m` to `n`. -/
def csumAdjust (hc m n : Nat) : Nat :=
  let x := (65535 - hc) + (65535 - m) + n
  let y := x % 65536 + x / 65536
  65535 - (y % 65536 + y / 65536)

/-- Replace bytes of a list from an offset. -/
def putBytes (l : List Byte) (o : Nat) (b : List Byte) : List Byte := l.take o ++ b ++ l.drop (o + b.length)

/-- Write ECN 0b11 in an IP frame (R273). -/
def setCe (b : List Byte) : List Byte :=
  let o := ethBody b
  let b0 := (b.getD o 0).toNat
  let b1 := (b.getD (o + 1) 0).toNat
  if ethInner b = 0x0800 then
    let n1 := b1 / 4 * 4 + 3
    let hc := csumAdjust (beNat ((b.drop (o + 10)).take 2)) (b0 * 256 + b1) (b0 * 256 + n1)
    putBytes (putBytes b (o + 1) [BitVec.ofNat 8 n1]) (o + 10) [BitVec.ofNat 8 (hc / 256), BitVec.ofNat 8 hc]
  else if ethInner b = 0x86DD then putBytes b (o + 1) [BitVec.ofNat 8 (b1 / 64 * 64 + 48 + b1 % 16)]
  else b

/-- A tag is removed, inserted or left at an egress (VLAN UNTAG set as it was decided, R244, R320). An inserted tag's priority bits are
not stated: a free value `k`.
Mark: DESIGN CHOICE (log entry 37). -/
def retag (untag : BitVec 106) (e vid k : Nat) (b : List Byte) : List Byte :=
  if vid = 0 then b
  else if bb untag e then (if ethTagged b then b.take 12 ++ b.drop 16 else b)
  else if ethTagged b then b
  else
    let t := Config.freeNat k % 16 * 4096 + vid
    b.take 12 ++ [0x81, 0x00, BitVec.ofNat 8 (t / 256), BitVec.ofNat 8 t] ++ b.drop 12

/-- The peer a domain port of a cluster forwards to: the one joined peer on it, while this node is not isolated
(R545, R546, R559).
Mark: DEDUCED (log entry 40). -/
def forwardPeer (s : State) (e : Nat) : Option (Nat × Peer) :=
  match (joinedPeers s).filter fun x => decide (x.2.port = e - 96) with
  | [x] => if s.hlb.dup || s.hlb.keyFail then none else some x
  | _ => none

/-- Big-endian bytes of a station address (R539). -/
def stationBytes (node port : Nat) : List Byte :=
  [0x02, 0x4B, 0x57, BitVec.ofNat 8 (node / 256 % 16), BitVec.ofNat 8 node, BitVec.ofNat 8 port]

/-- A frame as a FORWARD frame (Table 20.2, R559): the Helber header, the record, the carry check and the carried
bytes. -/
def forwardBytes (s : State) (e : Nat) (f : Frame) : List Byte :=
  let (n, rport) := match forwardPeer s e with
    | some (n, p) => (n, p.rport)
    | none => (0, 0)
  stationBytes n rport ++ stationBytes (ownNode s) (e - 96) ++ [0x88, 0xB5, 0x01, 0x02] ++ leBytes 2 (ownNode s) ++
  leBytes 2 n ++ leBytes 2 0 ++ leBytes 4 (rd s R_HLB_DOMAIN).toNat ++ leBytes 4 s.hlb.seq.toNat ++
  recHead f ++ leBytes 4 f.carry.toNat ++ leBytes 4 0 ++ carried f.content

/-- The bytes of a frame as they leave an egress, before line coding and format conversion (R320); a sample is
its record (R276).
Mark: DESIGN CHOICE (log entry 67). -/
def lineBytes (s : State) (e k : Nat) (f : Frame) : List Byte :=
  if f.sample ≠ [] then f.sample
  else if clusterPort s e then forwardBytes s e f
  else match f.content with
    | .eth b => retag f.untag e f.vid k (if f.ce then setCe b else b)
    | c => carried c

/-- Octets of an Ethernet frame on the line, FCS included; no shorter than 64. -/
def ethOctets (n : Nat) : Nat := max 64 (n + 4)

/-- Octets a frame takes on the line of an Ethernet egress. -/
def lineLen (s : State) (e : Nat) (f : Frame) : Nat := ethOctets (lineBytes s e 0 f).length

/-- One bit of the CRC-32 of IEEE 802.3, reflected.
Mark: PRESUMED (log entry 67). -/
def fcsBit (c : Word) : Word := if c.getLsbD 0 then (c >>> 1) ^^^ 0xEDB88320 else c >>> 1

/-- One byte of it. -/
def fcsByte (c : Word) (b : Byte) : Word :=
  fcsBit (fcsBit (fcsBit (fcsBit (fcsBit (fcsBit (fcsBit (fcsBit (c ^^^ b.setWidth 32))))))))

/-- An Ethernet frame with the FCS over the bytes it transmits (R197), padded with zeros to the shortest frame.
Mark: PRESUMED (log entry 67). -/
def withFcs (b : List Byte) : List Byte :=
  let b := b ++ List.replicate (60 - b.length) 0
  b ++ leBytes 4 (b.foldl fcsByte 0xFFFFFFFF ^^^ 0xFFFFFFFF).toNat

/-- The checksum of a LIN response: the inverted sum with carries over its data, and over the protected identifier too where
the checksum is enhanced (ISO 17987).
Mark: PRESUMED (log entry 67). -/
def linSum (enh : Bool) (pid : Byte) (data : List Byte) : Byte :=
  let add (a b : Nat) : Nat := let x := a + b; if x > 255 then x - 255 else x
  BitVec.ofNat 8 (255 - ((if enh then pid :: data else data).map BitVec.toNat).foldl add 0)

/-- The entry of a direct LIN table (Table 8.5). -/
def linEntry (s : State) (n id : Nat) : BitVec 53 := tget 0 s.tables.lin (ingPipe n * 1536 + 64 * (n % 24) + id)

/-- The bytes an egress puts on its line for the bytes in its staging buffer: an Ethernet frame with its FCS, a LIN response
with its checksum. A frame whose conversion is still to be made stands as it is.
Mark: DESIGN CHOICE (log entry 67). -/
def wireBytes (s : State) (e : Nat) (f : Frame) (b : List Byte) : List Byte :=
  if f.sample ≠ [] ∨ f.xform ≠ 0 ∨ 104 ≤ e then (if clusterPort s e then withFcs b else b)
  else if clusterPort s e then withFcs b
  else match f.content with
    | .eth _ => withFcs b
    | .lin pid d => d ++ [linSum (bb (linEntry s e (pid.toNat % 64)) 49) pid d]
    | _ => b

/-- Line speed of an egress in Mbit/s. -/
def mbps (s : State) (e : Nat) : Nat :=
  if e < 96 then 10 else [10, 100, 1000, 2500, 5000, 10000].getD (fldi s R_PORT_STAT (e - 96) 4 3) 10

/-- Nanoseconds a whole transmission takes, preamble and inter-frame gap included (R302). -/
def txNs (s : State) (e : Nat) (f : Frame) : Nat := (lineLen s e f + 20) * 8000 / mbps s e

/-- The carried bytes can be expressed in the egress format (R319); a LIN response has the length LEN + 1 of its entry
(Table 8.5). Whether the run that a conversion takes out
of an Ethernet payload fits is not stated: a free value `k`.
Mark: DEDUCED and DESIGN CHOICE (log entry 37). -/
def fits (s : State) (e k : Nat) (f : Frame) : Bool :=
  let conv := decide (f.xform ≠ 0)
  let n := (dataField f.content).length
  if e ≥ 104 then true
  else if e ≥ 96 ∨ pers s e = 3 then (match f.content with
    | .eth _ => true
    | _ => conv)
  else if pers s e = 1 then
    let m := fldi s R_LANE_CFG e 2 3
    let lim := if m = 0 then 8 else if m = 1 then 64 else 2048
    (match f.content with
     | .can _ _ fdf _ _ _ _ => (! fdf || decide (1 ≤ m)) || (conv && decide (n ≤ lim))
     | .xl .. => decide (2 ≤ m) || (conv && decide (n ≤ lim))
     | .lin .. => conv
     | .eth _ => conv && Config.freeBit k)
  else (match f.content with
    | .lin pid d => decide (d.length = bf (linEntry s e (pid.toNat % 64)) 50 3 + 1)
    | .eth _ => conv && Config.freeBit k
    | _ => conv && decide (n ≤ 8))

/-! ## The carry check at egress (R322 to R325) -/

/-- Capture the first failure (R324 step 3). -/
def captureCarry (s : State) (e node ing : Nat) (time : BitVec 64) (expv got : Word) : State :=
  if bit s R_CCK_FIRST_STAT 0 31 then s
  else
    let s := wr s R_CCK_FIRST_STAT (fieldVal 31 1 1 ||| fieldVal 16 12 node ||| fieldVal 8 8 e ||| fieldVal 0 8 ing)
    wr (wr (wr (wr s R_CCK_FIRST_EXP expv) R_CCK_FIRST_GOT got) R_CCK_FIRST_TLO (time.setWidth 32))
      R_CCK_FIRST_THI ((time >>> 32).setWidth 32)

/-- A carry failure at an egress (R324): the frame is dropped there, counted and captured. -/
def carryFail (s : State) (e h : Nat) (f : Frame) (got : Word) : State :=
  let s := dropAt s e h
  let s := statInc (statIncI s R_CCK_E_FAIL e) R_CCK_FAIL
  raise (captureCarry s e f.node f.ing f.time f.carry got) .integrity

/-- Position of the entry a queue may start with: its head when on chip, else the first on-chip frame of the
first 32 (R261). -/
def candidate (s : State) (e q : Nat) : Option Nat :=
  ((queueOf s e q).take (if e < 96 ∨ e ≥ 104 then 1 else 32)).findIdx? fun x =>
    match frameOf s x.h with
    | some f => ! f.spilled
    | none => false

/-- Replace the entry at a position of a queue. -/
def setEnt (s : State) (e q i : Nat) (x : QEnt) : State := setQueue s e q ((queueOf s e q).set i x)

/-- Position of the entry the verifier works on: the one the queue may start with, and on a LIN lane, where any queued frame
may be the next (R300), the first that is not verified. -/
def toVerify (s : State) (e q : Nat) : Option Nat :=
  if e < 96 ∧ pers s e = 2 then (queueOf s e q).findIdx? fun x => ! x.verified && (frameOf s x.h).isSome else candidate s e q

/-- Verify the frame a queue may start with next (R322, R323). `corrupt` are the bytes its cells give when they
are no longer those stored. A frame that does not fit the egress format is dropped after it (R319). -/
def verifyAt (s : State) (e q : Nat) (corrupt : Option (List Byte)) : State :=
  match toVerify s e q with
  | none => s
  | some i =>
    match (queueOf s e q)[i]? with
    | none => s
    | some x =>
      match frameOf s x.h with
      | none => s
      | some f =>
        if x.verified ∨ (e = 104 ∧ ! f.bad) then s
        else
          let (k, s) := draw s
          let got := if f.bad then Config.freeWord k else carryOver (stampBytes f) (corrupt.getD (carried f.content))
          if f.bad ∨ got ≠ f.carry then carryFail (removeEnt s e q x.h) e x.h f got
          else if clusterPort s e then
            if ethOctets (forwardBytes s e f).length > fldi s R_PORT_MAXF (e - 96) 0 14 then
              statInc (dropAt (removeEnt s e q x.h) e x.h) R_HLB_FWD_BIG
            else setEnt s e q i { x with verified := true }
          else
            let (k, s) := draw s
            if fits s e k f then setEnt s e q i { x with verified := true }
            else statInc (dropAt (removeEnt s e q x.h) e x.h) R_CCK_UNFIT

/-- CARRY_VERIFY (R322 to R324). -/
def execCarryVerify (egr : Fin 106) (q : Fin 8) (corrupt : Option (List Byte)) (s : State) : Host.Outcome State Fault Refusal :=
  .next (whenRunning (begin_ s) fun s => verifyAt s egr q corrupt)

/-! ## Launch times (R306, R307) -/

/-- A launch time is reached. -/
def launchDue (s : State) (l : Option LaunchAt) : Bool :=
  match l with
  | none => true
  | some x => decide (x.ns ≤ domNs s x.dom)

/-- A launch time is missed (R307). -/
def launchMissed (s : State) (l : Option LaunchAt) : Bool :=
  match l with
  | none => false
  | some x => decide (x.ns + fld s R_SCH_LAUNCH 0 20 < domNs s x.dom)

/-- Nanoseconds to the next pending launch time of any head frame of an egress (R306). -/
def nextLaunch (s : State) (e : Nat) : Option Nat :=
  ((List.range (nQueues e)).filterMap fun q =>
    match queueOf s e q with
    | x :: _ => match x.launch with
      | some l => if l.ns > domNs s l.dom then some (l.ns - domNs s l.dom) else none
      | none => none
    | [] => none).min?

/-- Every missed frame of a queue is dropped, or sent without its launch time (R307). -/
def launchMisses (s : State) (e q : Nat) : State :=
  if e ≥ 104 then s
  else ((queueOf s e q).filter fun x => launchMissed s x.launch).foldl (fun s x =>
    if bit s R_SCH_LAUNCH 0 31 then
      statIncI (setQueue s e q ((queueOf s e q).map fun y => if y.h = x.h then { y with launch := none } else y)) R_SCH_LAUNCH_LATE e
    else statIncI (dropAt (removeEnt s e q x.h) e x.h) R_SCH_LAUNCH_MISS e) s

/-- LAUNCH_MISS (R307). -/
def execLaunchMiss (egr : Fin 104) (q : Fin 8) (s : State) : Host.Outcome State Fault Refusal :=
  .next (whenRunning (begin_ s) fun s => launchMisses s egr q)

/-! ## Eligibility (R297) -/

/-- The egress may start a frame: UP with link and out of LPI, or ACTIVE; nothing is in transmission. -/
def egrReady (s : State) (e : Nat) : Bool :=
  (egrOf s e).tx.isNone &&
  (if e < 96 then
    let x := laneOf s e
    decide (x.st = .active) && ! x.backoff && (decide (pers s e = 1) || decide (pers s e = 3))
   else if e < 104 then
    let p := e - 96
    bit s R_PORT_STAT p 0 && portLink s p && ! bit s R_PORT_LPI_STAT p 1 && decide ((portOf s p).wakeAt ≤ s.time.ticks)
   else decide (e = 105))

/-- The queue is paused (R207). -/
def paused (s : State) (e q : Nat) : Bool :=
  decide (96 ≤ e) && decide (e < 104) &&
  (if pmode s (e - 96) = 1 then bit s R_PORT_PAUSE_STAT (e - 96) 0
   else decide (pmode s (e - 96) = 2) && bit s R_PORT_PAUSE_STAT (e - 96) q)

/-- The shaper holds a token (R296). -/
def hasToken (s : State) (e q : Nat) : Bool :=
  decide (104 ≤ e) || decide (shRate s e q = 0) || decide (1 ≤ fldi s (R_SCH_Q_BURST + 8 * q) e 16 16)

/-- TRIG, SP and WEIGHT of a queue (R298, R308); HP and PP queues are weighted with weight 1. -/
def qTrig (s : State) (e q : Nat) : Bool := decide (e < 104) && bit s (R_SCH_Q_CFG + 4 * q) e 17
def qSp (s : State) (e q : Nat) : Bool := decide (e < 104) && bit s (R_SCH_Q_CFG + 4 * q) e 16
def qWeight (s : State) (e q : Nat) : Nat := if e < 104 then fldi s (R_SCH_Q_CFG + 4 * q) e 0 8 else 1

/-- An Ethernet egress, where a whole transmission must fit before the gate closes (R302). -/
def ethEgress (s : State) (e : Nat) : Bool := (decide (96 ≤ e) && decide (e < 104)) || (decide (e < 96) && decide (pers s e = 3))

/-- The transmission of a frame fits before its gate closes and before any pending launch (R302, R306). -/
def fitsNow (s : State) (e q : Nat) (f : Frame) : Bool :=
  (! ethEgress s e || (match closeIn s e q with
    | some n => decide (txNs s e f ≤ n)
    | none => true)) &&
  (decide (e < 96) || decide (104 ≤ e) || (match nextLaunch s e with
    | some n => decide (txNs s e f ≤ n)
    | none => true))

/-- The frame that a lane is to retry fits before its queue's gate closes (R302: the test is repeated at every attempt). -/
def retryFits (s : State) (e : Nat) : Bool :=
  match (egrOf s e).tx with
  | none => true
  | some (q, x) =>
    match frameOf s x.h with
    | none => true
    | some f => gateOpen s e q && fitsNow s e q f

/-- BACKOFF_EXPIRY (R199): once the back-off has passed the frame is retried, where it still fits before its gate closes;
else the attempt waits (R302).
Mark: DEDUCED (log entry 32). -/
def execBackoffExpiry (lane : Fin 96) (s : State) : Host.Outcome State Fault Refusal :=
  .next (whenRunning (begin_ s) fun s =>
    if (laneOf s lane).backoff ∧ (laneOf s lane).backEnd ≤ s.time.ticks ∧ retryFits s lane then
      setLane s lane { laneOf s lane with backoff := false } else s)

/-- A queue is eligible (Table 10.1), with the position of the frame it would start. -/
def eligible (s : State) (e q : Nat) : Option Nat :=
  match candidate s e q, (queueOf s e q).head? with
  | some i, some hd =>
    match (queueOf s e q)[i]? with
    | none => none
    | some x =>
      match frameOf s x.h with
      | none => none
      | some f =>
        if x.verified && gateOpen s e q && fitsNow s e q f && (x.paid || hasToken s e q) && ! paused s e q &&
           launchDue s hd.launch && launchDue s x.launch && (! qTrig s e q || x.trig || x.paid) then some i else none
  | _, _ => none

/-! ## The pick (R298) -/

/-- Credits a weighted queue has spent since its round began. -/
def spent (s : State) (e q : Nat) : Nat := tget 0 s.net.credits (qn e q)

/-- Write the credits spent. -/
def setSpent (s : State) (e q n : Nat) : State := { s with net := { s.net with credits := tset 0 s.net.credits (qn e q) n } }

/-- A weighted queue that may be picked: eligible with credit, or with a frame that has paid already. -/
def weightedReady (s : State) (e q : Nat) : Bool :=
  ! qSp s e q &&
  (match eligible s e q with
   | some i => decide (spent s e q < qWeight s e q) || (match (queueOf s e q)[i]? with
       | some x => x.paid
       | none => false)
   | none => false)

/-- Queues from the highest to the lowest, starting after one. -/
def fromAfter (n last : Nat) : List Nat := (List.range n).map fun i => (last + n - 1 - i) % n

/-- `pick` of R298: the queue, with the credits a new round restores. -/
def pick (s : State) (e : Nat) : Option Nat × State :=
  let n := nQueues e
  match (List.range n).reverse.find? fun q => qSp s e q && (eligible s e q).isSome with
  | some q => (some q, s)
  | none =>
    let s := if (List.range n).any (weightedReady s e) then s
             else (List.range n).foldl (fun s q => if qSp s e q then s else setSpent s e q 0) s
    ((fromAfter n (egrOf s e).last).find? (weightedReady s e), s)

/-- Head frames longer than the longest open interval of their queue are dropped (R302). -/
def dropOversize (s : State) (e : Nat) : State :=
  if ! ethEgress s e then s
  else (List.range (nQueues e)).foldl (fun s q =>
    match queueOf s e q, longestOpen s e q with
    | x :: _, some n =>
      match frameOf s x.h with
      | some f => if txNs s e f > n then statIncI (dropAt (removeEnt s e q x.h) e x.h) R_SCH_GATE_OVERSIZE e else s
      | none => s
    | _, _ => s) s

/-- A frame picked past a head in the spill store is counted (R261); lanes and HP and PP have no such pick. -/
def bypassed (s : State) (e q i : Nat) : State :=
  if i = 0 ∨ e < 96 ∨ 104 ≤ e then s else statIncI s R_SW_Q_BYPASS (qn e q)

/-- Start the frame at a position of a queue: token and credit are taken once (R296, R299), and the bytes go to
the line. On a domain port without one joined peer it is dropped.
Mark: DEDUCED (log entry 39). -/
def startTx (s : State) (e q i : Nat) : State :=
  match (queueOf s e q)[i]? with
  | none => s
  | some x =>
    match frameOf s x.h with
    | none => s
    | some f =>
      let s := removeEnt s e q x.h
      if clusterPort s e && (forwardPeer s e).isNone then statInc (dropAt s e x.h) R_HLB_FWD_DROP
      else
      let s := if x.paid then s
        else
          let s := if shRate s e q = 0 ∨ e ≥ 104 then s
            else setFldi s (R_SCH_Q_BURST + 8 * q) e 16 16 (fldi s (R_SCH_Q_BURST + 8 * q) e 16 16 - 1)
          if qSp s e q then s else setEgr (setSpent s e q (spent s e q + 1)) e { egrOf s e with last := q }
      let s := bypassed s e q i
      let (k, s) := draw s
      let b := lineBytes s e k f
      let s := setEgr s e { egrOf s e with tx := some (q, { x with paid := true }), sent := b, cap := captureNow s }
      let s := if clusterPort s e then { s with hlb := { s.hlb with seq := s.hlb.seq + 1 } } else s
      { s with out := { s.out with line := s.out.line ++ [(e, f.xform, wireBytes s e f b)] } }

/-- A frame of a sequenced stream that has not been through the resequencer (R265). -/
def needsRsq (x : QEnt) (f : Frame) : Bool := f.seq.isSome && ! x.rsq

/-- Serve the queue that was picked: a sequenced frame goes through its context first, and what the context
releases goes out ahead of the next frame.
Mark: DEDUCED (log entry 39). -/
def serve (s : State) (e q i : Nat) : State :=
  match (queueOf s e q)[i]? with
  | none => s
  | some x =>
    match frameOf s x.h with
    | none => s
    | some f =>
      if needsRsq x f then
        let s := rsqDequeue (removeEnt (bypassed s e q i) e q x.h) f.stream e x.h (f.seq.getD 0)
        match queueOf s e q with
        | y :: _ => if y.rsq then startTx s e q 0 else s
        | [] => s
      else startTx s e q i

/-- The scheduler picks for an egress that may start a frame (R298).
Mark: DEDUCED (log entry 39). -/
def pickStart (s : State) (e : Nat) : State :=
  if ! egrReady s e then s
  else
    let s := dropOversize s e
    match pick s e with
    | (some q, s) =>
      match eligible s e q with
      | some i => serve s e q i
      | none => s
    | (none, s) => s

/-- EGRESS_PICK (R298). -/
def execEgressPick (egr : Fin 106) (s : State) : Host.Outcome State Fault Refusal :=
  .next (whenRunning (begin_ s) fun s => pickStart s egr)

/-- LAUNCH_TIME_REACHED (R306): the queue's head has become eligible, and the egress picks when it may start. -/
def execLaunchTimeReached (egr : Fin 104) (q : Fin 8) (s : State) : Host.Outcome State Fault Refusal :=
  .next (whenRunning (begin_ s) fun s =>
    match queueOf s egr q with
    | x :: _ => if x.launch.isSome && launchDue s x.launch then pickStart s egr else s
    | [] => s)

/-! ## On the line -/

/-- CAN_ARBITRATION_END (R299): lost arbitration, or an error that raises the transmit error counter (R162), but of a CAN XL
frame in FAST mode (Table 6.2).
Mark: DEDUCED (log entry 31). -/
def execCanArbitrationEnd (lane : Fin 96) (error : Bool) (s : State) : Host.Outcome State Fault Refusal :=
  .next (whenRunning (begin_ s) fun s =>
    if pers s lane = 1 ∧ (egrOf s lane).tx.isSome then
      let counts := error && ! txFast s lane
      let s := returnTx s lane
      if counts then canTxError s lane else s
    else s)

/-- The oldest queued frame of a LIN identifier, as queue and position (R300): handles rise with commit. -/
def linOldest (s : State) (n id : Nat) : Option (Nat × Nat × Nat) :=
  ((List.range 4).flatMap fun q => (queueOf s n q).zipIdx.filterMap fun (x, i) =>
    match frameOf s x.h with
    | some f => (match f.content with
      | .lin pid _ => if x.verified ∧ pid.toNat % 64 = id then some (x.h, q, i) else none
      | _ => none)
    | none => none).foldl (fun o x => match o with
      | some y => if x.1 < y.1 then some x else o
      | none => some x) none

/-- Mark a frame as owing no token and no credit: shapers and weights do not apply on a LIN lane (R300). -/
def setPaid (s : State) (e q i : Nat) : State :=
  setQueue s e q ((queueOf s e q).modify i fun x => { x with paid := true })

/-- Answer a header of a published identifier with its oldest queued frame (R300). A sequenced frame goes through its
context first, and what that releases is what is queued then (R265).
Mark: DEDUCED (log entry 39). -/
def linAnswer (s : State) (n id : Nat) : State :=
  match linOldest s n id with
  | none => s
  | some (h, q, i) =>
    match (queueOf s n q)[i]?, frameOf s h with
    | some x, some f =>
      if ! needsRsq x f then startTx (setPaid s n q i) n q i
      else
        let s := rsqDequeue (removeEnt s n q h) f.stream n h (f.seq.getD 0)
        match linOldest s n id with
        | some (h, q, i) =>
          (match (queueOf s n q)[i]?, frameOf s h with
           | some x, some f => if needsRsq x f then s else startTx (setPaid s n q i) n q i
           | _, _ => s)
        | none => s
    | _, _ => s

/-- A rate measured from a sync field lies within 15 % of LANE_LIN.RATE (R164). -/
def linRateOk (s : State) (n rate : Nat) : Bool :=
  let r := fldi s R_LANE_LIN n 0 15
  decide (85 * r ≤ 100 * rate) && decide (100 * rate ≤ 115 * r)

/-- LIN_RESPONSE (R164, R300): after a header with an identifier, whose sync field a slave measured at `rate` bit/s, a
published identifier is answered; a subscribed one whose response is missing is counted. A slave ignores a header outside
its rate. -/
def execLinResponse (lane : Fin 96) (id : Fin 64) (rate : BitVec 16) (missing : Bool) (s : State) : Host.Outcome State Fault Refusal :=
  .next (whenRunning (begin_ s) fun s =>
    let n := lane.val
    let master := bit s R_LANE_CFG n 5
    if pers s n ≠ 2 ∨ ! laneOn s n ∨ (! master ∧ ! linRateOk s n rate.toNat) then s
    else
      let x := linEntry s n id
      let s := if master then setLane s n { laneOf s n with linId := none } else s
      if ! bb x 0 then s
      else if bb x 48 then (if (laneOf s n).st = .active ∧ (egrOf s n).tx = none then linAnswer s n id else s)
      else if missing then statIncI s R_LANE_NORESP n else s)

/-! ## Resequencer timers (R265, R267) -/

/-- RSQ_TIMEOUT (R267): the oldest held frame has been held for TMO_US. -/
def execRsqTimeout (stream : BitVec 12) (egr : Fin 106) (s : State) : Host.Outcome State Fault Refusal :=
  .next (whenRunning (begin_ s) fun s =>
    rsqTimeout s stream.toNat egr)

/-- A context holds no frame. -/
def ctxEmpty (c : Rsq) : Bool := c.slots.all fun x => match x.2 with
  | some (.held _ _) => false
  | _ => true

/-- RSQ_CONTEXT_EXPIRY (R265): 1 s without an arrival frees a context with nothing held. -/
def execRsqContextExpiry (stream : BitVec 12) (egr : Fin 106) (s : State) : Host.Outcome State Fault Refusal :=
  .next (whenRunning (begin_ s) fun s =>
    match ctxOf s stream.toNat egr with
    | some c => if ctxEmpty c then setCtx s stream.toNat egr none else s
    | none => s)

/-! ## POL_CONFIG and SCH_CONFIG (R285, R298, R304, R305, R310) -/

/-- The checks of POL_CONFIG (R285). -/
def checkPol (policer : BitVec 16) (img : List Word) : Option Status :=
  let cir := bitsOf (imgAt img 1) 0 24
  let pir := bitsOf (imgAt img 2) 0 24
  let cbs := bitsOf (imgAt img 3) 0 16
  let pbs := bitsOf (imgAt img 3) 16 16
  if img.length ≠ 4 then some .badParam
  else if policer.toNat > 4095 then some .range
  else if pir < 1 ∨ cir > pir ∨ cbs < 1 ∨ cbs > pbs then some .range
  else if (imgAt img 1).toNat ≥ 2 ^ 24 ∨ (imgAt img 2).toNat ≥ 2 ^ 24 then some .range
  else none

/-- What POL_CONFIG schedules. -/
def applyPol (n : Nat) (img : List Word) (s : State) : State :=
  schedule s [(R_POL_CFG, n, imgAt img 0), (R_POL_CIR, n, imgAt img 1), (R_POL_PIR, n, imgAt img 2), (R_POL_BS, n, imgAt img 3)]
    (.policer n)

/-- A policer takes its configuration: full buckets, fractions 0 (R285). -/
def polStart (s : State) (n : Nat) : State :=
  wri (wri s R_POL_TC n (fieldVal 16 16 (fldi s R_POL_BS n 0 16))) R_POL_TP n (fieldVal 16 16 (fldi s R_POL_BS n 16 16))

/-- POL_CONFIG (R285). -/
def execPolConfig (r : Req) (policer : BitVec 16) (img : List Word) (s : State) : Host.Outcome State Fault Refusal :=
  .next (dispatch 0x0502 r judgeInstaller (cfgPlan (checkPol policer img) (.pol policer img) (applyPol policer.toNat img)) s)

/-- The checks of SCH_CONFIG (R310, Table 10.3). -/
def checkSch (s : State) (egr : BitVec 8) : SchParam → Option Status
  | .images kind img =>
    if egr.toNat > 103 then some .badParam
    else if kind = 0 then
      (if img.length ≠ 24 then some .badParam
       else if (List.range (nQueues egr.toNat)).any (fun q =>
          decide (bitsOf (imgAt img (3 * q)) 0 8 = 0) ||
          (decide (bitsOf (imgAt img (3 * q + 1)) 0 24 ≠ 0) && decide (bitsOf (imgAt img (3 * q + 2)) 0 16 = 0))) then some .range
       else none)
    else if kind = 2 then
      (if img.length ≠ 1 then some .badParam else if bitsOf (imgAt img 0) 0 20 > 1000000 then some .range else none)
    else some .badParam
  | .gates nent en _ es =>
    if egr.toNat > 103 ∨ en.toNat > 1 ∨ nent.toNat ≠ es.length then some .badParam
    else if es.length > 64 ∨ cycleBeats (beatNs s) es > 16777215 then some .range
    else none

/-- What SCH_CONFIG schedules. -/
def applySch (egr : Nat) (p : SchParam) (s : State) : State :=
  match p with
  | .images kind img =>
    if kind = 0 then
      schedule s ((List.range (nQueues egr)).flatMap fun q =>
        [(R_SCH_Q_CFG + 4 * q, egr, imgAt img (3 * q)), (R_SCH_Q_RATE + 8 * q, egr, imgAt img (3 * q + 1)),
         (R_SCH_Q_BURST + 8 * q, egr, fieldVal 0 16 (bitsOf (imgAt img (3 * q + 2)) 0 16))]) (.queues egr)
    else schedule s [(R_SCH_LAUNCH, 0, imgAt img 0)] .plain
  | .gates _ en ofs es => schedule s [] (.gateList egr ⟨decide (en ≠ 0), ofs.toNat, es⟩)

/-- An egress takes its queue settings: full credits, and full shaper buckets also where a shaper ran before (R298, R309).
Mark: DEDUCED (log entry 39). -/
def queuesStart (s : State) (e : Nat) : State :=
  (List.range (nQueues e)).foldl (fun s q =>
    let a := R_SCH_Q_BURST + 8 * q
    let s := setFldi (setSpent s e q 0) a e 16 16 (fldi s a e 0 16)
    { s with net := { s.net with shFrac := tset 0 s.net.shFrac (qn e q) 0 } }) s

/-- The record of SCH_CONFIG. -/
def schRec (egr : BitVec 8) : SchParam → Cfg
  | .images kind img => .sch egr kind img
  | .gates nent en ofs es => .gates egr nent en ofs es

/-- SCH_CONFIG (R305, R310). -/
def execSchConfig (r : Req) (egr : BitVec 8) (p : SchParam) (s : State) : Host.Outcome State Fault Refusal :=
  .next (dispatch 0x0503 r judgeInstaller
    (fun s => cfgPlan (checkSch s egr p) (schRec egr p) (applySch egr.toNat p) s) s)

end Sys2Proof.Machine
end

