-- ==== Sys2Proof/Machine/Switch.lean ====
section
/-! DEFINITION. The receive path: acceptance, the decision, secured CAN frames, admission and the sampler; and
the spill store, SW_CONFIG and CARRY_REPORT (chapters 7 to 9, 11 and 13). -/

namespace Sys2Proof.Machine

/-! ## Secured CAN frames (R369 to R372) -/

/-- A 64-bit number held in two registers of a profile. -/
def la64 (s : State) (lo hi p : Nat) : Nat := (rdi s lo p).toNat + 2 ^ 32 * (rdi s hi p).toNat

/-- Write a 64-bit number of a profile. -/
def setLa64 (s : State) (lo hi p v : Nat) : State :=
  wri (wri s lo p (BitVec.ofNat 32 v)) hi p (BitVec.ofNat 32 (v / 2 ^ 32))

/-- MAC_LEN and FV_LEN of a profile. -/
def laMac (s : State) (p : Nat) : Nat := fldi s R_CIPH_LA_CFG p 12 4
def laFv (s : State) (p : Nat) : Nat := fldi s R_CIPH_LA_CFG p 8 4

/-- A profile is valid and runs in a direction: bit 30 RX, bit 29 TX. -/
def laOn (s : State) (p b : Nat) : Bool := bit s R_CIPH_LA_CFG p 31 && bit s R_CIPH_LA_CFG p b

/-- The outcome of R370: its counter. -/
inductive LaOut where
  | ok | mac | fresh | key | short | final
  deriving DecidableEq, Repr

/-- The counter of an outcome. -/
def LaOut.reg : LaOut → Nat
  | .ok => R_CIPH_LA_OK | .mac => R_CIPH_LA_MAC | .fresh => R_CIPH_LA_FRESH | .key => R_CIPH_LA_KEY
  | .short => R_CIPH_LA_SHORT | .final => R_CIPH_LA_FINAL

/-- The slot of a profile delivers a key for an operation (R341). -/
def laKeyOk (s : State) (p usage : Nat) : Bool :=
  decide (delivery s (fldi s R_CIPH_LA_CFG p 16 9) engLaneauth usage = .ok)

/-- The candidate freshness value of R370. -/
def laCandidate (l m fv : Nat) : Nat :=
  if m = 64 then fv
  else
    let c := l - l % 2 ^ m + fv
    if c ≤ l then c + 2 ^ m else c

/-- The slot of a profile, and the key it holds. -/
def laSlot (s : State) (p : Nat) : Nat := fldi s R_CIPH_LA_CFG p 16 9
def laKey (s : State) (p : Nat) : List Byte := (slotOf s (laSlot s p)).key

/-- The MAC of a trailer (R369): DATA_ID, the authentic payload and the whole freshness value, under the profile's key. -/
def laTag (s : State) (p : Nat) (pay : List Byte) (fv : Nat) : List Byte :=
  (cmac (laKey s p) (beBytes 4 (rdi s R_CIPH_LA_DID p).toNat ++ pay ++ beBytes 8 fv)).take (laMac s p)

/-- `judge` of R370, with the value to accept.
Mark: DEDUCED (log entry 41). -/
def laJudge (s : State) (p : Nat) (data : List Byte) : LaOut × Nat :=
  let fvLen := laFv s p
  let macLen := laMac s p
  let l := la64 s R_CIPH_LA_L_LO R_CIPH_LA_L_HI p
  let pay := data.take (data.length - (fvLen + macLen))
  let trailer := data.drop (data.length - (fvLen + macLen))
  let c := laCandidate l (8 * fvLen) (beNat (trailer.take fvLen))
  if data.length < fvLen + macLen then (.short, 0)
  else if l = 2 ^ 64 - 1 then (.final, 0)
  else if c ≤ l ∨ c - l > (rdi s R_CIPH_LA_WIN p).toNat ∨ c > 2 ^ 64 - 1 then (.fresh, 0)
  else if ! laKeyOk s p useMacVer then (.key, 0)
  else if trailer.drop fvLen ≠ laTag s p pay c then (.mac, 0)
  else (.ok, c)

/-- The judgement of a frame needs its profile's key. -/
def laAsksKey (s : State) (p : Nat) (data : List Byte) : Bool :=
  match (laJudge s p data).1 with
  | .ok => true
  | .mac => true
  | _ => false

/-- A profile's key becomes the most recently used of the cache (R372). -/
def laTouch (s : State) (p : Nat) : State :=
  { s with cipher := { s.cipher with cache := (p :: s.cipher.cache.filter fun x => decide (x ≠ p)).take 64 } }

/-- Verify a received frame of a profile (R370): whether it commits. -/
def laVerify (s : State) (p : Nat) (data : List Byte) : Bool × State :=
  let (o, c) := laJudge s p data
  let s := statIncI (if laAsksKey s p data then laTouch s p else s) o.reg p
  match o with
  | .ok =>
    let s := setLa64 s R_CIPH_LA_L_LO R_CIPH_LA_L_HI p c
    (true, if c = 2 ^ 64 - 1 then raise s .slotFinal else s)
  | _ => (false, raise s .laFail)

/-- Replace the data field of a frame. -/
def withData (c : Content) (d : List Byte) : Content :=
  match c with
  | .eth _ => .eth d
  | .can id ide fdf brs esi dlc _ => .can id ide fdf brs esi dlc d
  | .xl prio sdt vcid af sec _ => .xl prio sdt vcid af sec d
  | .lin pid _ => .lin pid d

/-- Secure a frame that HP or PP sends under a profile (R371): T advances and the trailer takes the last bytes of
the data field; none when the frame is dropped.
Mark: DEDUCED (log entry 41). -/
def laSend (s : State) (p : Nat) (c : Content) : Option Content × State :=
  let fvLen := laFv s p
  let macLen := laMac s p
  let d := dataField c
  let t := la64 s R_CIPH_LA_T_LO R_CIPH_LA_T_HI p
  if d.length < fvLen + macLen then (none, statIncI s R_CIPH_LA_SHORT p)
  else if t = 2 ^ 64 - 1 then (none, statIncI s R_CIPH_LA_FINAL p)
  else if ! laKeyOk s p useMacGen then (none, raise (statIncI s R_CIPH_LA_KEY p) .laFail)
  else
    let pay := d.take (d.length - (fvLen + macLen))
    let s := setLa64 (laTouch s p) R_CIPH_LA_T_LO R_CIPH_LA_T_HI p (t + 1)
    (some (withData c (pay ++ beBytes fvLen (t + 1) ++ laTag s p pay (t + 1))), statIncI s R_CIPH_LA_OK p)

/-! ## The decision (R219 to R225, R236, R237) -/

/-- Dropped with a sampler outcome. -/
def Decided.drop (a : BitVec 48) (vid out : Nat) : Decided :=
  { action := a, vid := vid, targets := [], fpol := none, trap := false, out := some out, untag := 0 }

/-- The action word of a frame that the device traps by itself; its PP queue is not stated: a free value. -/
def trapAction (k : Nat) : BitVec 48 := BitVec.ofNat 48 (1 + 12 + (Config.freeNat k % 8) * 2 ^ 40)

/-- Trapped to PP.
Mark: DESIGN CHOICE (log entry 37). -/
def trapped (s : State) (vid : Nat) : Decided × State :=
  let (k, s) := draw s
  ({ action := trapAction k, vid := vid, targets := [105], fpol := none, trap := true, out := none, untag := 0 }, s)

/-- A miss is counted (R236). -/
def missed (s : State) (p : Nat) : State := statInc s (tblReg R_TBL_P_MISS p)

/-- The targets of an action word that is honoured (R222, R225); a DROP action has none. `vmem` restricts a group to a VLAN's members. -/
def actTargets (s : State) (p ing vid : Nat) (a : BitVec 48) (vmem : Nat → Bool) : Decided × State :=
  let ok (l : List Nat) : Decided :=
    { action := a, vid := vid, targets := l, fpol := none, trap := false, out := none, untag := 0 }
  match actType a with
  | 1 => (ok [actDest a], s)
  | 2 =>
    let g := groupOf s (actDest a)
    if ! bb g 106 then (Decided.drop a vid 2, missed s p)
    else (ok (((List.range 106).filter fun k => bb g k && vmem k && decide (k ≠ ing))), s)
  | 3 => ({ ok [105] with trap := true }, s)
  | _ => (ok [], s)

/-- An entry that was found: refused under SAFE_ONLY or in SERVICE, it acts as DROP and counts as a miss (R237); a stream
that it names and that is not in use drops the frame as a miss (R224). -/
def decideHit (s : State) (p ing vid : Nat) (a : BitVec 48) (vmem : Nat → Bool) : Decided × State :=
  if ! honoured s (actSafe a) (actSvc a) then (Decided.drop a vid 2, missed s p)
  else if actStrEn a && ! bb (streamOf s (actStream a)) 0 then (Decided.drop a vid 2, missed s p)
  else actTargets s p ing vid a vmem

/-- The decision of a CAN or LIN frame: `l` is the lane index of its key (R219). -/
def decideBus (s : State) (p ing l : Nat) (c : Content) : Decided × State :=
  let hashed (key : BitVec 64) : BitVec 48 := match hFind s p key with
    | some k => hAct (hGet s p k)
    | none => 0
  let a : BitVec 48 := match c with
    | .can id ide _ _ _ _ _ =>
      if ide then hashed (keyCan29 l id.toNat) else tget 0 s.tables.can (p * 49152 + 2048 * l + id.toNat % 2048)
    | .xl prio _ _ af _ _ => hashed (keyXl l prio.toNat af.toNat)
    | .lin pid _ => (tget 0 s.tables.lin (p * 1536 + 64 * l + pid.toNat % 64)).setWidth 48
    | .eth _ => 0
  if actValid a then decideHit s p ing 0 a fun _ => true
  else
    let s := missed s p
    if bit s R_TBL_MISS_CFG 0 0 then trapped s 0 else (Decided.drop 0 0 2, s)

/-- The VID of an Ethernet frame at an ingress (R219). -/
def vidOf (s : State) (ing : Nat) (b : List Byte) : Nat := if ethVid b = 0 then pvid s ing else ethVid b

/-- Flood to a VLAN (R236), where the mode permits it (R237). -/
def flood (s : State) (p ing vid : Nat) : Decided × State :=
  let v := vlanOf s vid
  if honoured s (bb v 236) (bb v 237) then
    ({ action := 0, vid := vid, targets := (List.range 106).filter fun k => vlanBit s v k && decide (k ≠ ing),
       fpol := if bb v 238 then some (bf v 239 12) else none, trap := false, out := none, untag := 0 },
     statInc s (tblReg R_TBL_P_FLOOD p))
  else (Decided.drop 0 vid 2, missed s p)

/-- The decision of an Ethernet frame, with learning from its source (R221, R231). A lookup that reaches an entry which
scrub has invalidated counts as a miss beside what follows (R246).
Mark: DEDUCED (log entry 61). -/
def decideEth (s : State) (p ing : Nat) (b : List Byte) : Decided × State :=
  let vid := vidOf s ing b
  let v := vlanOf s vid
  let s := if vidLost s vid then missed s p else s
  if ! bb v 234 || ! vlanBit s v ing then (Decided.drop 0 vid 1, statInc s (tblReg R_TBL_P_IFILT p))
  else
    let hit := hFind s p (keyEth vid (ethDst b))
    let (d, s) := match hit with
      | some k => decideHit s p ing vid (hAct (hGet s p k)) (vlanBit s v)
      | none => flood (if keyLost s p (keyEth vid (ethDst b)) then missed s p else s) p ing vid
    ({ d with untag := BitVec.ofNat 106 (bf v 128 106) },
     if learningOn s && bb v 235 && ! macGroup (ethSrc b) then learn s p ing (keyEth vid (ethSrc b)) else s)

/-- The decision of a frame. -/
def decideFrame (s : State) (p ing l : Nat) (c : Content) : Decided × State :=
  match c with
  | .eth b => decideEth s p ing b
  | c => decideBus s p ing l c

/-! ## Streams and policing (R224, R292 to R295) -/

/-- The length that MAX_SDU bounds (R295). -/
def sduLen (c : Content) : Nat :=
  match c with
  | .eth b => b.length
  | c => (dataField c).length

/-- The policer a frame meets (R292). -/
def policerOf (s : State) (d : Decided) (strEn : Bool) : Option Nat :=
  let st := streamOf s (actStream d.action)
  if strEn && bb st 3 then some (bf st 4 12)
  else if actPolEn d.action then some (actPolicer d.action)
  else d.fpol

/-- The SDU check and the policer: the frame's colour, or its drop with a sampler outcome. -/
def meter (s : State) (d : Decided) (c : Content) (pre : Colour) : Sum Nat Colour × State :=
  let strEn := actStrEn d.action
  let n := actStream d.action
  let st := streamOf s n
  if strEn && decide (bf st 16 14 ≠ 0) && decide (sduLen c > bf st 16 14) then (.inl 3, statIncI s R_POL_S_SDU_DROP n)
  else match policerOf s d strEn with
    | none => (.inr pre, s)
    | some k =>
      let (col, s) := markFrame s k pre
      if col = .red ∧ bit s R_POL_CFG k 2 ∧ redDrops s k then (.inl 3, s) else (.inr col, s)

/-- The pre-colour of a frame (R288). -/
def preColour (ing : Nat) (c : Content) (named : Fin 3) : Colour :=
  if ing ≥ 104 then (match named.val with
    | 0 => .green
    | 1 => .yellow
    | _ => .red)
  else match c with
    | .eth b => if ethDei b then .yellow else .green
    | _ => .green

/-- The sequence number of a committing frame (R264): of its stream's counter, or of its R-TAG; none as the
first part drops the frame. -/
def seqFor (s : State) (strEn : Bool) (n : Nat) (c : Content) : Bool × Option Nat × State :=
  if ! strEn then (true, none, s)
  else if strCb s n then
    (match rtagSeq c with
     | some x => (true, some x, s)
     | none => (false, none, statIncI s R_SW_S_NOTAG n))
  else if strSeq s n then
    let x := fldi s R_SW_S_SEQ n 0 16
    (true, some x, wri s R_SW_S_SEQ n (BitVec.ofNat 32 ((x + 1) % 65536)))
  else (true, none, s)

/-! ## The sampler (R275 to R277) -/

/-- Draw the gap to the next sample: uniform from 1 to 2N - 1. -/
def smpDraw (s : State) (ing : Nat) : State :=
  let n := fldi s R_SW_I_SMP ing 0 16
  if n = 0 then { s with net := { s.net with smpGap := tset 0 s.net.smpGap ing 0 } }
  else
    let (k, s) := draw s
    { s with net := { s.net with smpGap := tset 0 s.net.smpGap ing (1 + Config.freeNat k % (2 * n - 1)) } }

/-- The first gaps, drawn at start-up step 7. -/
def smpInit (s : State) : State :=
  ((List.range 104).filter fun i => decide (fldi s R_SW_I_SMP i 0 16 ≠ 0)).foldl smpDraw s

/-- The 96-byte record of a sample (R276).
Mark: DESIGN CHOICE (log entry 37). -/
def sampleRec (f : Frame) (out : Nat) : List Byte :=
  let b := carried f.content
  recHead f ++ leBytes 6 f.action.toNat ++ leBytes 1 out ++ leBytes 1 f.colour.code ++ leBytes 4 f.carry.toNat ++
  leBytes 2 (min 64 b.length) ++ leBytes 2 0 ++ padTo 64 b

/-- Count an accepted frame for the sampler, and deliver its sample to PP queue 0 when its turn comes.
Mark: DEDUCED (log entry 38). -/
def sampleStep (s : State) (ing : Nat) (f : Frame) (out : Nat) : State :=
  if ing ≥ 104 ∨ fldi s R_SW_I_SMP ing 0 16 = 0 then s
  else
    let g := tget 0 s.net.smpGap ing
    if g > 1 then { s with net := { s.net with smpGap := tset 0 s.net.smpGap ing (g - 1) } }
    else
      let s := statIncI (smpDraw s ing) R_SW_I_SAMPLED ing
      if (cellsWhere s fun f => decide (f.charge = 6)) ≥ 512 then statInc s R_SW_SMP_DROP
      else
        let (h, s) := storeFrame s { f with
          content := .eth [], cells := 1, ref := 1, owner := .pp, charge := 6, seq := none, spilled := false, bad := false, lost := 0,
          sample := sampleRec f out }
        enqueue s 105 0 h none true

/-! ## Forwarding a frame -/

/-- The semaphore of a LOCK descriptor is released when its frame commits or is abandoned, unless it has been taken
from the pipeline since (R495, R503). -/
def unlockAt (s : State) (p : Nat) (lock : Option (Nat × Nat)) : State :=
  match lock with
  | some (k, g) => if semOwner s k = 0xF0 + p ∧ semGen s k = g then semFree s k else s
  | none => s

/-- The profile an honoured action has a frame verified under (R368, R370). -/
def laProfile (s : State) (d : Decided) : Option Nat :=
  if actAuth d.action && d.out.isNone && laOn s (actStream d.action) 30 then some (actStream d.action) else none

/-- The frame of an arrival under its decision. -/
def arrivedFrame (a : Arrival) (d : Decided) (col : Colour) : Frame :=
  let strEn := actStrEn d.action
  frameFrom a.st a.content d.action (if strEn then actStream d.action else 0) strEn col none d.vid d.untag

/-- A sample whose outcome is not stated: a free value. -/
def sampleFree (s : State) (ing : Nat) (f : Frame) : State :=
  let (k, s) := draw s
  sampleStep s ing f (Config.freeNat k % 7)

/-- The commit of a frame that was verified: number, carry check, admission (R250, R264, R271). -/
def commitStage (s : State) (a : Arrival) (d : Decided) (col : Colour) : State :=
  let f0 := arrivedFrame a d col
  let (keep, seq, s) := seqFor s f0.strEn f0.stream a.content
  if ! keep then sampleFree s a.ing f0
  else
    let (carry, s) := inject s a.ing a.st.carry
    let f := { f0 with seq := seq, carry := carry }
    let (m, s) := commitFrame s f { a.st with carry := carry } a.launch d.targets
    sampleStep s a.ing f (if d.trap then 5 else if m < d.targets.length then 4 else 0)

/-- A frame whose profile's key is held: verified, then committed (R370). -/
def verifyStage (s : State) (a : Arrival) (d : Decided) (col : Colour) (lock : Option (Nat × Nat)) : State :=
  match laProfile s d with
  | some prof =>
    (match laVerify s prof (dataField a.content) with
     | (true, s) => unlockAt (commitStage s a d col) a.p lock
     | (false, s) => unlockAt (sampleFree s a.ing (arrivedFrame a d col)) a.p lock)
  | none => unlockAt (commitStage s a d col) a.p lock

/-- Frames of a profile wait for its key already. -/
def laQueued (s : State) (p : Nat) : Bool := s.cipher.waits.any fun x => decide (x.1 = p)

/-- The profile whose key a decided frame waits for: its judgement needs a key that the engine does not hold, or frames
of the profile wait before it (R372).
Mark: DEDUCED (log entry 41). -/
def laWaits (s : State) (a : Arrival) (d : Decided) : Option Nat :=
  match laProfile s d with
  | some p =>
    if laQueued s p ∨ (laAsksKey s p (dataField a.content) ∧ ¬ s.cipher.cache.contains p) then some p else none
  | none => none

/-- A frame stays in its pipeline: its cells count at its ingress. -/
def holdFrame (s : State) (a : Arrival) : State :=
  fcCheck { s with net := { s.net with stuck := s.net.stuck ++ [heldOf a.p a.ing a.content] } } a.ing

/-- A decided and policed frame goes on to its commit, waits for a key, or stays in a stopped pipeline; where the shared
pool has no cells for it, it is abandoned (R250, R258). -/
def passOn (s : State) (a : Arrival) (d : Decided) (col : Colour) (stuck : Bool) (lock : Option (Nat × Nat)) : State :=
  let f0 := arrivedFrame a d col
  if poolFree s < f0.cells then
    let s := statIncI s R_SW_I_OVF a.ing
    let s := if (96 ≤ a.ing ∧ a.ing < 104) ∨ (a.ing < 96 ∧ pers s a.ing = 3) then
        statIncI s R_PORT_RX_OVF (portIdx a.ing) else s
    unlockAt (sampleStep s a.ing f0 6) a.p lock
  else if stuck then holdFrame s a
  else match laWaits s a d with
    | some p => fcCheck { s with cipher := { s.cipher with waits := s.cipher.waits ++ [(p, .rx a d col lock)] } } a.ing
    | none => verifyStage s a d col lock

/-- Decide and meter a frame that was accepted whole (R250). A DROP action is policed like any other (R292).
Mark: DEDUCED (log entry 37). -/
def forward (s : State) (a : Arrival) (stuck : Bool) (lock : Option (Nat × Nat)) : State :=
  let (d, s) := if a.trapOnly then trapped s 0 else decideFrame s a.p a.ing a.l a.content
  let pre := preColour a.ing a.content a.colour
  let f0 := arrivedFrame a d pre
  match d.out with
  | some out => unlockAt (sampleStep s a.ing f0 out) a.p lock
  | none =>
    match meter s d a.content pre with
    | (.inl out, s) => unlockAt (sampleStep s a.ing f0 out) a.p lock
    | (.inr col, s) =>
      if actType d.action = 0 ∧ actValid d.action then unlockAt (sampleFree s a.ing (arrivedFrame a d col)) a.p lock
      else passOn s a d col stuck lock

/-! ## Acceptance (R196 to R198, R238, R250) -/

/-- Routing runs in the mode in force (Table 3.1, R238). -/
def routing (s : State) : Bool :=
  decide (s.power.phase = .awake) &&
  (match mode s with
   | .rented => true
   | .drive => true
   | .service => true
   | .depot => true
   | .quarantine => true
   | _ => false)

/-- A lane receives frames of a content. -/
def laneTakes (s : State) (n : Nat) (c : Content) : Bool :=
  let x := laneOf s n
  (decide (x.st = .rxOnly) || decide (x.st = .active)) && ! x.swapPend &&
  (match c with
   | .can _ _ fdf _ _ _ _ => decide (pers s n = 1) && (! fdf || decide (1 ≤ fldi s R_LANE_CFG n 2 3))
   | .xl .. => decide (pers s n = 1) && decide (2 ≤ fldi s R_LANE_CFG n 2 3)
   | .lin .. => decide (pers s n = 2)
   | .eth _ => decide (pers s n = 3))

/-- The frame MAC's tests, in their order of precedence (R196): the window's counter of the test that fails. -/
def macTest (s : State) (w : Nat) (ok : Bool) (b : List Byte) : Option Nat :=
  if ! ok then some R_PORT_RX_FCS
  else if b.length + 4 < 64 then some R_PORT_RX_RUNT
  else if b.length + 4 > fldi s R_PORT_MAXF w 0 14 then some R_PORT_RX_GIANT
  else none

/-- Count an accepted frame at a MAC window; `fcs` octets of FCS are included. -/
def macCount (s : State) (w n fcs : Nat) : State := stat2AddI (stat2AddI s R_PORT_RXF w 1) R_PORT_RXO w (n + fcs)

/-- A MAC control frame as pause: whether it is PFC, its priority-enable vector and its times (R206). -/
def pauseOf (b : List Byte) : Option (Bool × BitVec 8 × List Nat) :=
  let o := b.drop (ethBody b)
  let op := beNat (o.take 2)
  let q (k : Nat) : Nat := beNat ((o.drop k).take 2)
  if ethInner b ≠ 0x8808 then none
  else if op = 1 then some (false, 0, [q 2])
  else if op = 0x0101 then some (true, BitVec.ofNat 8 (q 2), (List.range 8).map fun k => q (4 + 2 * k))
  else none

/-- A pause frame for scopes that are all in their ignore period (R209). -/
def ctlIgnored (s : State) (p : Nat) (b : List Byte) : Bool :=
  match pauseOf b with
  | some (pfc, en, _) => pauseIgnored s p pfc en
  | none => false

/-- A lane's or MAC's checks (R196, R250): whether the frame goes on. A subscribed LIN response that is not as long as its
entry says is a bad one (R164, Table 8.5); an error in a CAN XL frame of a FAST lane is not signalled (Table 6.2); a pause
frame whose scopes are all in their ignore period counts in PORT_RX_PAUSE only (R209).
Mark: DEDUCED (log entries 31, 32, 33). -/
def acceptFrame (s : State) (ing : Nat) (c : Content) (ok : Bool) : Bool × State :=
  if ing < 96 then
    if ! laneTakes s ing c then (false, s)
    else match c with
      | .eth b =>
        (match macTest s (portIdx ing) ok b with
         | some a => (false, statIncI s a (portIdx ing))
         | none => (true, macCount (stat2AddI s R_LANE_RXF ing 1) (portIdx ing) b.length 4))
      | .lin pid d =>
        let x := linEntry s ing (pid.toNat % 64)
        let sub := bb x 0 && ! bb x 48
        if ok && (! sub || decide (d.length = bf x 50 3 + 1)) then (true, stat2AddI s R_LANE_RXF ing 1)
        else (false, if sub then statIncI s R_LANE_NORESP ing else s)
      | .xl .. =>
        if ok then (true, canRxGood (stat2AddI s R_LANE_RXF ing 1) ing)
        else (false, if fldi s R_LANE_CFG ing 2 3 = 3 then s else canRxError s ing)
      | _ => if ok then (true, canRxGood (stat2AddI s R_LANE_RXF ing 1) ing) else (false, canRxError s ing)
  else if ing < 104 then
    match c with
    | .eth b =>
      if ! portLink s (ing - 96) then (false, s)
      else (match macTest s (ing - 96) ok b with
        | some a => (false, statIncI s a (ing - 96))
        | none => (true, if ctlIgnored s (ing - 96) b then s else macCount s (ing - 96) b.length 4))
    | _ => (false, s)
  else
    let n := (carried c).length
    if n > 9216 then (false, s) else (true, macCount s (portIdx ing) n 0)

/-- A MAC control frame (R198): consumed by a port's MAC, which honours pause and PFC. -/
def macControl (s : State) (ing : Nat) (b : List Byte) : State :=
  match pauseOf b with
  | some (pfc, en, q) => if ing < 96 ∨ ing ≥ 104 then s else pauseFrame s (ing - 96) pfc en q
  | none => s

/-- EtherTypes and the address that the MAC traps to PP (R198), Helber's while the domain is OFF. R198 does not say whether
an EtherType is looked for behind an 802.1Q tag: the model takes the one after at most one tag.
Mark: DESIGN CHOICE (log entry 35). -/
def macTraps (s : State) (b : List Byte) : Bool :=
  decide (ethInner b = 0x88CC) || decide (ethInner b = 0x88F7) || decide (ethDst b = 0x0180C200000E) ||
  (decide (ethInner b = 0x88B5) && decide (fld s R_HLB_CFG 16 2 = 0))

/-- The start and stop frames of ENTRY_CONFIG act whatever their routing (Table 3.2). -/
def entryRequests (s : State) (ing : Nat) (c : Content) : State :=
  match c with
  | .can id ide _ _ _ _ d =>
    if ing ≥ 96 then s
    else
      let data : BitVec 64 := BitVec.ofNat 64 (ofLeBytes (d.take 8))
      let s := if requestMatch s.nfc.startFrm ing ide id data then startRequest s else s
      if requestMatch s.nfc.stopFrm ing ide id data then stopRequest s else s
  | _ => s

/-- The arrival of a frame at its first ingress. -/
def arrivalOf (s : State) (f : RxFrame) (c : Content) (trapOnly : Bool) : Arrival :=
  { p := if f.ing.val < 104 then ingPipe f.ing else f.pipe.val, ing := f.ing, l := if f.ing.val < 96 then f.ing.val % 24 else 0,
    st := stampOf s f.ing c, content := c, colour := f.colour, launch := f.launch, trapOnly := trapOnly }

/-- A frame of HP or PP under a transmit profile waits for its key, is secured, or is dropped (R371, R372): the
content that goes on. -/
def secureOut (s : State) (f : RxFrame) : Sum State (Content × State) :=
  match f.prof with
  | none => .inr (f.content, s)
  | some p =>
    let p := p.toNat
    if f.ing.val < 104 ∨ ! laOn s p 29 then .inr (f.content, s)
    else if laQueued s p || (laKeyOk s p useMacGen && ! s.cipher.cache.contains p) then
      .inl { s with cipher := { s.cipher with waits := s.cipher.waits ++ [(p, .tx f)] } }
    else match laSend s p f.content with
      | (some c, s) => .inr (c, s)
      | (none, s) => .inl s

/-- The semaphore of a frame that goes no further is released (R495). -/
def unlockFrame (s : State) (f : RxFrame) : State := unlockAt s f.pipe.val f.lock

/-- A frame after its acceptance: held for a key, held by a stopped pipeline before its decision, or forwarded. -/
def receiveGo (s : State) (f : RxFrame) : State :=
  match secureOut s f with
  | .inl s' => if s'.cipher.waits.length > s.cipher.waits.length then s' else unlockFrame s' f
  | .inr (c, s) =>
    let trap := match c with
      | .eth b => decide (f.ing.val < 104) && macTraps s b
      | _ => false
    let a := arrivalOf s f c trap
    if f.stuck = some false then holdFrame s a else forward s a (decide (f.stuck = some true)) f.lock

/-- FRAME_RECEIVE as a whole (R196 to R198, R238, R248 to R250): acceptance, MAC control, Helber frames on the
ports of a running domain (handled by their own command), and forwarding where routing runs. -/
def receive (s : State) (f : RxFrame) : State :=
  let (ok, s) := acceptFrame s f.ing f.content f.ok
  if ! ok then unlockFrame s f
  else
    let s := if f.ing.val < 104 then { s with net := { s.net with rxBeat := tset 0 s.net.rxBeat f.ing (tget 0 s.net.rxBeat f.ing + 1) } } else s
    let s := entryRequests s f.ing f.content
    let helber := match f.content with
      | .eth b => decide (f.ing.val < 104) && decide (ethInner b = 0x88B5) && decide (fld s R_HLB_CFG 16 2 ≠ 0)
      | _ => false
    let ctl := match f.content with
      | .eth b => decide (f.ing.val < 104) && decide (ethInner b = 0x8808)
      | _ => false
    if ctl then (match f.content with
      | .eth b => macControl s f.ing b
      | _ => s)
    else if helber || ! routing s then unlockFrame s f
    else receiveGo s f

/-- A target in MAC loopback, or a port in either loopback, discards what arrives from the line (R586).
Mark: DEDUCED (log entry 43). -/
def lineShut (s : State) (ing : Nat) : Bool := decide (loopOf s ing = 1) || (decide (96 ≤ ing) && decide (loopOf s ing ≠ 0))

/-- FRAME_RECEIVE (R250). -/
def execFrameReceive (f : RxFrame) (s : State) : Host.Outcome State Fault Refusal :=
  .next (whenClocked (begin_ s) fun s => if lineShut s f.ing then s else receive s { f with lock := none })

/-- Transmitter delay compensation measures the loop delay in the data phase of a frame it transmits: LANE_TDC.MEAS takes a
value the spec does not state, a free value.
Mark: DESIGN CHOICE (log entry 31). -/
def tdcMeasure (s : State) (n : Nat) (f : Option Frame) : State :=
  let data := match f with
    | some f => (match f.content with
      | .can _ _ _ brs _ _ _ => brs
      | .xl .. => true
      | _ => false)
    | none => false
  if bit s R_LANE_CFG n 11 && data then
    let (k, s) := draw s
    setLane s n { laneOf s n with meas := (Config.freeWord k).setWidth 8 }
  else s

/-- FRAME_TRANSMIT_END (R269, R586): the frame is counted and its cells are given up. A frame of a target in loopback
comes back as a new ingress of it: where its conversion profile made a frame of it (`converted`), that frame is `back`.
Mark: DEDUCED (log entry 43). -/
def execFrameTransmitEnd (egr : Fin 106) (converted : Bool) (back : Content) (s : State) : Host.Outcome State Fault Refusal :=
  .next (whenRunning (begin_ s) fun s =>
    let e := egr.val
    match (egrOf s e).tx with
    | none => s
    | some (_, x) =>
      if e < 96 ∧ (laneOf s e).backoff then s
      else
        let f := frameOf s x.h
        let sent := (egrOf s e).sent
        let octets := if e = 105 then sent.length else ethOctets sent.length
        let mac (s : State) : State := stat2AddI (stat2AddI s R_PORT_TXF (portIdx e) 1) R_PORT_TXO (portIdx e) octets
        let s := if e < 96 then
            (let s := stat2AddI s R_LANE_TXF e 1
             let s := if pers s e = 1 then tdcMeasure (canTxGood s e) e f else s
             if pers s e = 3 then mac s else s)
          else mac s
        let s := if e < 96 then setLane s e { laneOf s e with attempts := 0 } else s
        let looped : Option Content := match f with
          | some f => if loopOf s e = 0 then none else if f.xform ≠ 0 then (if converted then some back else none) else match f.content with
            | .eth _ => some (.eth sent)
            | c => some c
          | none => none
        let s := releaseRef (setEgr s e { egrOf s e with tx := none, sent := [] }) x.h
        match looped with
        | some c => receive s
            { ing := egr, content := c, ok := true, stuck := none, pipe := 0, colour := 0, launch := none,
              prof := none, lock := none }
        | none => s)

/-- A frame whose wait for a key is over goes on where it stood (R244, R372); routing may have ended meanwhile. -/
def laResume (s : State) (w : LaWait) : State :=
  match w with
  | .tx f => if routing s then receiveGo s f else unlockFrame s f
  | .rx a d col lock => if routing s then verifyStage s a d col lock else unlockAt (fcCheck s a.ing) a.p lock

/-- LANEAUTH_KEY_LOAD (R372): the vault delivers a profile's key, and its waiting frames proceed in the order of
their arrival; with an unusable slot they are judged KEY.
Mark: DEDUCED (log entry 41). -/
def execLaneauthKeyLoad (prof : BitVec 10) (s : State) : Host.Outcome State Fault Refusal :=
  .next (whenRunning (begin_ s) fun s =>
    let p := prof.toNat
    let ws := s.cipher.waits.filter fun x => decide (x.1 = p)
    let s := { s with cipher := { s.cipher with waits := s.cipher.waits.filter fun x => decide (x.1 ≠ p) } }
    let s := if laKeyOk s p useMacVer || laKeyOk s p useMacGen then laTouch s p else s
    ws.foldl (fun s x => laResume s x.2) s)

/-! ## The spill store (R259 to R261) -/

/-- A frame that may move to the spill store: on chip, queued at one port only.
Mark: DEDUCED (log entry 36). -/
def maySpill (f : Frame) : Bool :=
  ! f.spilled && ! f.mcast && f.sample.isEmpty && (match f.owner with
    | .egr _ => true
    | _ => false)

/-- The last frame of a queue that may spill. -/
def spillTail (s : State) (e q : Nat) : Option Nat :=
  ((queueOf s e q).reverse.find? fun x => match frameOf s x.h with
    | some f => maySpill f
    | none => false).map QEnt.h

/-- The deepest port queue of a group that has a frame to move.
Mark: DEDUCED (log entry 36). -/
def deepest (s : State) (g : Nat) : Option (Nat × Nat) :=
  (([96 + g, 100 + g].flatMap fun e => (List.range 8).map fun q => (e, q)).filter fun x => (spillTail s x.1 x.2).isSome).foldl
    (fun o x => match o with
      | none => some x
      | some y => if qOnChip s y.1 y.2 < qOnChip s x.1 x.2 then some x else some y) none

/-- Move frames until the group's charged cells are at or below SPILL_LO, or no page is free (R259, R260). -/
def spillLoop (g : Nat) : Nat → State → State
  | 0, s => s
  | n + 1, s =>
    if charged s g ≤ fld s (R_SW_PG_SLO + 0x10 * g) 0 17 then s
    else match deepest s g with
      | none => s
      | some (e, q) =>
        match spillTail s e q with
        | none => s
        | some h =>
          match frameOf s h with
          | none => s
          | some f =>
            if pagesUsed s + pagesOf f > pagesAll s then s
            else
              let s := setFrame s h (some { f with spilled := true })
              let s := setQueue s e q ((queueOf s e q).map fun x => if x.h = h then { x with verified := false } else x)
              spillLoop g n (fcCheck s f.ing)

/-- SPILL_OUT (R259). -/
def execSpillOut (g : Fin 4) (s : State) : Host.Outcome State Fault Refusal :=
  .next (whenRunning (begin_ s) fun s =>
    if bufMode s g = 1 ∧ charged s g > fld s (R_SW_PG_SHI + 0x10 * g.val) 0 17 then spillLoop g 65536 s else s)

/-- SPILL_RETURN (R261): the spilled frames within the first 32 of a port queue come back while cells are free.
Mark: DEDUCED (log entry 36). -/
def execSpillReturn (p : Fin 8) (q : Fin 8) (s : State) : Host.Outcome State Fault Refusal :=
  .next (whenRunning (begin_ s) fun s =>
    ((queueOf s (96 + p) q).take 32).foldl (fun s x =>
      match frameOf s x.h with
      | some f => if f.spilled ∧ f.cells ≤ cellsFree s then fcCheck (setFrame s x.h (some { f with spilled := false })) f.ing else s
      | none => s) s)

/-! ## SW_CONFIG (R256, R257, R263, R279) -/

/-- Reserves of the groups with one of them replaced; a reserve that waits for the boundary counts as it will be. -/
def rsvSum (s : State) (g rsv : Nat) : Nat :=
  ((List.range 4).map fun k => if k = g then rsv else bitsOf (ahead s (R_SW_PG_RSV + 0x10 * k) 0) 0 17).foldl (· + ·) 0

/-- The checks of SW_CONFIG. -/
def checkSw (s : State) (kind : BitVec 8) (index : BitVec 16) (img : List Word) : Option Status :=
  let i := index.toNat
  let w (k : Nat) : Word := imgAt img k
  match kind.toNat with
  | 0 =>
    if img.length ≠ 5 ∨ i > 3 ∨ bitsOf (w 0) 0 2 > 1 then some .badParam
    else if bitsOf (w 2) 0 17 < bitsOf (w 1) 0 17 ∨ rsvSum s i (bitsOf (w 1) 0 17) > 63488 then some .range
    else none
  | 1 =>
    let e := i % 128
    let q := i / 256 % 8
    if img.length ≠ 6 ∨ e > 105 ∨ q ≥ nQueues e then some .badParam
    else if bitsOf (w 4) 0 9 > 256 ∨ bitsOf (w 4) 10 9 > 256 ∨ bitsOf (w 4) 20 9 > 256 then some .range
    else none
  | 2 =>
    if img.length ≠ 2 ∨ i > 103 then some .badParam
    else if bitsOf (w 1) 16 16 ≥ bitsOf (w 1) 0 16 then some .range
    else none
  | 3 =>
    if img.length ≠ 3 then some .badParam
    else if bitsOf (w 1) 0 16 < 10 ∨ bitsOf (w 1) 0 16 > 10000 ∨ bitsOf (w 2) 0 16 = 0 then some .range
    else none
  | _ => some .badParam

/-- What SW_CONFIG schedules. -/
def applySw (kind i : Nat) (img : List Word) (s : State) : State :=
  let w (k : Nat) : Word := imgAt img k
  match kind with
  | 0 =>
    schedule s [(R_SW_PG_RSV + 0x10 * i, 0, w 1), (R_SW_PG_MAX + 0x10 * i, 0, w 2), (R_SW_PG_SHI + 0x10 * i, 0, w 3),
      (R_SW_PG_SLO + 0x10 * i, 0, w 4)] (.group i (bitsOf (w 0) 0 2))
  | 1 =>
    let e := i % 128
    let q := i / 256 % 8
    let regs := [R_SW_Q_LIM, R_SW_Q_WRED_G, R_SW_Q_WRED_Y, R_SW_Q_WRED_R, R_SW_Q_PMAX, R_SW_Q_ECN]
    schedule s (((regs.zip img).filter fun x => decide (x.1 ≠ R_SW_Q_LIM ∨ e ≥ 96 ∨ q = 0)).map fun x => (x.1, qn e q, x.2)) .plain
  | 2 => schedule s [(R_SW_I_SMP, i, w 0), (R_SW_I_FC, i, w 1)] (.sampler i)
  | _ => schedule s [(R_SW_SPILL_CFG, 0, w 0), (R_SW_WD, 0, w 1), (R_SW_RSQ_CFG, 0, w 2)] .plain

/-- A group takes its buffer mode: a change flushes every queue of the group first (R279). -/
def groupStart (s : State) (g m : Nat) : State :=
  if fld s R_SW_MODE (2 * g) 2 = m then s
  else
    let s := dropSpilled s fun x => decide (x = g)
    let s := (List.range 24).foldl (fun s k => flushAll (fun s q => countTail s (24 * g + k) q) s (24 * g + k)) s
    let s := [96 + g, 100 + g].foldl (fun s e => flushAll (fun s q => statIncI s R_SW_Q_ADROP (qn e q)) s e) s
    setFld s R_SW_MODE (2 * g) 2 m

/-- SW_CONFIG (R256, R257, R263, R279). -/
def execSwConfig (r : Req) (kind : BitVec 8) (index : BitVec 16) (img : List Word) (s : State) : Host.Outcome State Fault Refusal :=
  .next (dispatch 0x0501 r judgeInstaller
    (fun s => cfgPlan (checkSw s kind index img) (.sw kind index img) (applySw kind.toNat index.toNat img) s) s)

/-! ## CARRY_REPORT (R327) -/

/-- CARRY_REPORT (R327): the record bytes of the descriptor, the stored value and the one the host computed. A
report whose values are equal, or whose ingress or stamp is malformed, is BAD_PARAM. -/
def execCarryReport (r : Req) (time : BitVec 64) (node : BitVec 16) (ing : BitVec 8) (expv got : Word) (s : State) :
    Host.Outcome State Fault Refusal :=
  .next (dispatch 0x0510 r (judgeRight true false false false (inModes [.rented, .drive, .service, .depot])) (fun _ =>
    if expv = got ∨ ing.toNat > 105 ∨ node.toNat > 4095 ∨ (time.toNat % 2 ^ 30) > 999999999 then Plan.fail .badParam
    else Plan.do_ fun s =>
      raise (captureCarry (statInc s R_CCK_HOST_REP) 104 node.toNat ing.toNat time expv got) .integrity) s)

end Sys2Proof.Machine
end

