-- ==== Sys2Proof/Machine/MapOps.lean ====
section
/-! DEFINITION. The INSTALLER map (R532, R533): the bytes of its records, the check of each record, and the
changes that take effect at a beat boundary. -/

namespace Sys2Proof.Machine

/-! ## The bytes of a record (R532, Tables 19.4 to 19.6) -/

/-- The DIGEST of Table 20.3: the first 8 bytes of the SHA-256 of the map, byte 0 lowest. -/
def mapDigest (m : List Cfg) : BitVec 64 :=
  BitVec.ofNat 64 (ofLeBytes ((sha256 (mapBytes m)).take 8))

/-- HLB_DIGEST shows the map in force (Table 20.6).
Mark: DEDUCED (log entry 27). -/
def showDigest (s : State) : State :=
  let d := mapDigest s.map
  wr (wr s R_HLB_DIGEST_LO (d.setWidth 32)) R_HLB_DIGEST_HI ((d >>> 32).setWidth 32)

/-! ## ENTRY_CONFIG and HLB_CONFIG records (Table 19.5, R538) -/

/-- A frame of the UNLOCK or LOCK list: a lane code or 0xFF unused, a type of Table 9.3 and at most its 8 data bytes.
Mark: DEDUCED (log entry 70). -/
def entryFrameOk (w : List Word) : Bool :=
  let w0 := w.getD 0 0
  let dest := bitsOf w0 0 8
  decide (dest = 255) ||
  (decide (dest < 96) && decide (bitsOf w0 11 3 ≤ 4) && decide (bitsOf w0 14 2 = 0) && decide (bitsOf w0 16 8 ≤ 8) && decide (bitsOf w0 24 8 = 0))

/-- A START or STOP request names a lane and an identifier of 11 or 29 bits.
Mark: DEDUCED (log entry 70). -/
def entryReqOk (w : List Word) : Bool :=
  let w0 := w.getD 0 0
  decide (w.length = 6) && decide (bitsOf w0 0 8 < 96) && decide (bitsOf w0 8 8 ≤ 1) &&
  decide ((w.getD 1 0).toNat < if bitsOf w0 8 8 = 1 then 2 ^ 29 else 2 ^ 11)

/-- The check of ENTRY_CONFIG: HOLD_S is 0 or 10 to 600 (Table 15.8).
Mark: DEDUCED (log entry 70). -/
def checkEntry (hold : BitVec 16) (start stop unlock lock : List Word) : Option Status :=
  let frames (l : List Word) : Bool := decide (l.length = 16) && (List.range 4).all fun k => entryFrameOk ((l.drop (4 * k)).take 4)
  if ! (entryReqOk start && entryReqOk stop && frames unlock && frames lock) then some .badParam
  else if hold.toNat ≠ 0 ∧ (hold.toNat < 10 ∨ hold.toNat > 600) then some .range
  else none

/-- ENTRY_CONFIG's effect. -/
def applyEntry (hold : BitVec 16) (start stop unlock lock : List Word) (s : State) : State :=
  let s := setFld s R_NFC_CFG 0 10 hold.toNat
  { s with nfc := { s.nfc with startFrm := start, stopFrm := stop, unlockFrm := unlock, lockFrm := lock } }

/-- The check of HLB_CONFIG: BAD_PARAM when KEYSLOT lacks the HELBER engine bit (Table 19.6).
Mark: DEDUCED (log entry 58). -/
def checkHlb (s : State) (node : BitVec 16) (kind : BitVec 8) (keyslot : BitVec 16) : Option Status :=
  if node.toNat > 4095 ∨ kind.toNat > 2 ∨ keyslot.toNat > 511 ∨ ! sEngine (slotOf s keyslot.toNat) engHelber then some .badParam
  else none

/-- HLB_CONFIG takes effect at the next beat boundary. -/
def applyHlb (node : BitVec 16) (kind ports : BitVec 8) (domain : Word) (keyslot : BitVec 16) (s : State) : State :=
  schedule s [(R_HLB_CFG, 0, fieldVal 24 8 ports.toNat ||| fieldVal 16 2 kind.toNat ||| fieldVal 0 12 node.toNat),
    (R_HLB_DOMAIN, 0, domain), (R_HLB_KEYSLOT, 0, fieldVal 0 9 keyslot.toNat)] .hlb

/-- Applying HLB_CONFIG empties the member view and sets HLB_EPOCH_MAX to HLB_EPOCH (R538, R545). -/
def hlbStart (s : State) : State :=
  let h := s.hlb
  let s := wr s R_HLB_EPOCH_MAX (rd s R_HLB_EPOCH)
  { s with hlb := { hlbReset with
      seq := h.seq, blobs := h.blobs, push := h.push, immobReq := h.immobReq, forceLock := h.forceLock, commits := h.commits } }

/-! ## Any record -/

/-- The check of a record, as its command would be checked by an INSTALLER in SERVICE (R532). -/
def checkCfg (s : State) : Cfg → Option Status
  | .lane l img => checkLane l img
  | .port p img => checkPort p img
  | .phyWrite p c d r _ => checkPhy p c d r
  | .tblWrite t _ m i e => tblForm t.toNat m.toNat i.toNat e
  | .sw k i img => checkSw s k i img
  | .pol n img => checkPol n img
  | .sch e k img => checkSch s e (.images k img)
  | .gates e n en o es => checkSch s e (.gates n en o es)
  | .beat l d a => checkBeat s l d a
  | .time i img => checkTime i img
  | .la n img => checkLa n img
  | .entry h a b u l => checkEntry h a b u l
  | .tt t img => checkTt t.toNat img
  | .angEvt f c es => checkAng s f.toNat c.toNat es
  | .fb k i img => checkFb s k.toNat i.toNat img
  | .hlb n k _ _ ks => checkHlb s n k ks

/-- The effect of a record, as its command would have it. -/
def applyCfg (c : Cfg) (s : State) : State :=
  match c with
  | .lane l img => applyLane l.toNat img s
  | .port p img => applyPort p.toNat img s
  | .phyWrite p c d r v => mdioOut s p.toNat (.write c.toNat d.toNat r.toNat v.toNat)
  | .tblWrite .. => placeEntry s true c
  | .sw k i img => applySw k.toNat i.toNat img s
  | .pol n img => applyPol n.toNat img s
  | .sch e k img => applySch e.toNat (.images k img) s
  | .gates e n en o es => applySch e.toNat (.gates n en o es) s
  | .beat l d a => applyBeat l d a s
  | .time i img => applyTime i img s
  | .la n img => applyLa n.toNat img s
  | .entry h a b u l => applyEntry h a b u l s
  | .tt t img => applyTt t.toNat img s
  | .angEvt f _ es => applyAng f.toNat es s
  | .fb k i img => applyFb k.toNat i.toNat img s
  | .hlb n k p d ks => applyHlb n k p d ks s

/-! ## Changes that take effect -/

/-- A tracker takes a new configuration: it starts in SEARCH with reason CONFIG, or is OFF, and acc starts again
when it is the odometer tracker (R465, R484). -/
def trackerStart (s : State) (n : Nat) : State :=
  let s := if (ttOf s n).st = .sync then loseSync s n 6 else spdSafe s n
  let s := startTracker s n
  let s := if ttRole s n = 0 then s else setTt s n { ttOf s n with loss := 6 }
  quorumCheck (if odoTracker s = some n then { s with wheels := { s.wheels with acc := 0 } } else s)

/-- A channel takes a new configuration: it starts again when its excitation is on (R471, R472), and stops
otherwise.
Mark: DEDUCED (log entry 53). -/
def chanStart (s : State) (n : Nat) : State :=
  if excOn s n then
    let s := setFb s n FbChan.init
    ((bolts s).filter fun b => decide (boltCh s b = n)).foldl (fun s b => setBolt s b { boltOf s b with st := .unknown }) s
  else stopChannel s n

/-- A bolt takes a new configuration: UNKNOWN until its next conversion.
Mark: DEDUCED (log entry 53). -/
def boltStart (s : State) (b : Nat) : State :=
  setBolt s b { Bolt.init with lastEngage := (boltOf s b).lastEngage }

/-- What a change restarts beside its registers. -/
def applyKind (s : State) : ApplyKind → State
  | .lane n => laneStart s n
  | .port p => portStart s p
  | .policer n => polStart s n
  | .tracker n => trackerStart s n
  | .still => quorumCheck s
  | .fbChan n => chanStart s n
  | .bolt b => boltStart s b
  | .gateList _ _ => s
  | .queues e => queuesStart s e
  | .group g m => groupStart s g m
  | .sampler i => smpDraw s i
  | .hlb => hlbStart s
  | .plain => s
  | .map => s

/-- A change takes effect. A gate list waits for its first cycle and stays listed until GATE has run (R305). -/
def applyChange (s : State) (c : Change) : State :=
  match c.kind with
  | .gateList _ _ => { s with changes := s.changes ++ [c] }
  | k => odoGuard s (applyKind (c.writes.foldl (fun s w => wrCfg s w.1 w.2.1 w.2.2) s) k)

/-- A map record takes effect at once, its registers included. -/
def recordNow (s : State) (c : Cfg) : State :=
  let t := applyCfg c { s with changes := [] }
  t.changes.foldl applyChange { t with changes := s.changes }

/-- The stored map is applied in order at a beat boundary (R532). -/
def mapNow (s : State) : State := s.map.foldl recordNow s

/-- Every change that waits takes effect.
Mark: DEDUCED (log entry 27). -/
def applyChanges (s : State) : State :=
  let cs := s.changes
  cs.foldl (fun s c => if c.kind = .map then mapNow s else applyChange s c) { s with changes := [] }

/-- The gate lists among the changes begin to wait for their first cycle (R305). -/
def gatesWait (s : State) : State :=
  s.changes.foldl (fun s c => match c.kind with
    | .gateList e l => setEgr s e { egrOf s e with gNew := some l }
    | _ => { s with changes := s.changes ++ [c] }) { s with changes := [] }

/-- The first record of a map that fails its check, each judged with the ones before it in force (R532): its
index, opcode and status.
Mark: DEDUCED (log entry 58). -/
def mapCheck : List Cfg → Nat → State → Option (Nat × Nat × Status)
  | [], _, _ => none
  | c :: t, k, s =>
    match checkCfg s c with
    | some st => some (k, cfgOpcode c, st)
    | none => mapCheck t (k + 1) (recordNow s c)

/-! ## The map at start-up step 5 (R112, R227, R246, R278) -/

/-- SEED of the table settings a map holds; 0 when it holds none. -/
def mapSeed (m : List Cfg) : Word :=
  m.foldl (fun w c => match c with
    | .tblWrite t _ _ _ e => if t.toNat = 7 then imgAt e 2 else w
    | _ => w) 0

/-- The hash seeds of the four pipelines: the map's, or a random one that is not zero (R227).
Mark: DEDUCED (log entry 22). -/
def seedTables (s : State) : State :=
  let w := mapSeed s.map
  let (v, s) := if w ≠ 0 then (w, s) else
    let (k, s) := draw s
    let r := Config.freeWord k
    (if r = 0 then 1 else r, s)
  (List.range 4).foldl (fun s p => wr s (R_TBL_HASH_SEED + 4 * p) v) s

/-- The map is applied at start-up: seeds first, then every record. HLB_EPOCH_MAX and the standing of R549 are
kept over the reset (R563). -/
def applyMap (s : State) : State :=
  let top := rd s R_HLB_EPOCH_MAX
  let h := s.hlb
  let s := showDigest (gatesWait (mapNow (seedTables s)))
  wr { s with hlb := { s.hlb with behind := h.behind, safe := h.safe } } R_HLB_EPOCH_MAX top

/-- A record that the static-safe set needs: the tables, and the ports its routes leave through. -/
def safeRecord : Cfg → Bool
  | .tblWrite t .. => decide (t.toNat ≠ 7)
  | .port .. => true
  | _ => false

/-- The static-safe entries of the tables (R237); the groups they name stay. -/
def onlySafe (t : Tables) : Tables :=
  { t with
    can := t.can.filter fun x => actSafe x.2, lin := t.lin.filter fun x => actSafe (x.2.setWidth 48),
    hash := t.hash.filter fun x => actSafe (hAct x.2), vlan := t.vlan.filter fun x => bb x.2 236, stream := [] }

/-- No valid map: the static-safe set of the last valid one is placed, and the ports of its routes take their settings
(R112).
Mark: DEDUCED (log entry 22). -/
def applySafe (s : State) : State :=
  let s := (s.map.filter safeRecord).foldl recordNow (seedTables s)
  { s with tables := onlySafe s.tables }

end Sys2Proof.Machine
end

