-- ==== Sys2Proof/Machine/View.lean ====
section
/-! DEFINITION. What the registers show of live state: for each register the bits that are not a stored word
but are composed from the state they report. -/

namespace Sys2Proof.Machine

/-- A signed number as a 32-bit word. -/
def wordOfInt (i : Int) : Word := BitVec.ofInt 32 i

/-- Bits set by a test over positions below `n`. -/
def bitSet (n : Nat) (f : Nat → Bool) : Nat := (List.range n).foldl (fun a k => if f k then a + 2 ^ k else a) 0

/-- The SYS bank (Tables 1.5, 4.7 and 19.7). -/
def viewSys (s : State) (a : Nat) : Word :=
  if a = R_SYS_SESS_STAT then
    fieldVal 4 4 (bitSet 4 fun k => decide (k ≠ 0) && (sessOf s k).locked) ||| fieldVal 0 4 (bitSet 4 fun k => decide (k ≠ 0) && (sessOf s k).isOpen)
  else if a = R_SYS_BOOT then
    fieldVal 12 1 (b2n s.boot.rootAbsent) ||| fieldVal 11 1 (b2n s.boot.fallback) ||| fieldVal 10 1 (b2n s.boot.slotB) |||
    fieldVal 9 1 (b2n (decide (s.power.phase = .halted))) ||| fieldVal 8 1 (b2n s.boot.failed) |||
    (if s.boot.failed then fieldVal 4 3 s.boot.fstep else 0) ||| fieldVal 0 3 s.boot.step
  else if a = R_SYS_CMD_SPI then
    fieldVal 4 3 s.disp.spiRsp.length ||| fieldVal 0 3 s.disp.spiReq.length
  else 0

/-- The PWR bank (Tables 3.10 and 3.13). -/
def viewPwr (s : State) (a : Nat) : Word :=
  let p := s.power
  if a = R_PWR_MODE then
    let cur := if p.phase = .island ∧ p.lowEnergy ∧ p.cur = .approach then .approach else p.recorded
    fieldVal 16 4 (if cur = .quarantine then p.qcause.code else 0) ||| fieldVal 8 1 (b2n p.lowEnergy) |||
    fieldVal 4 4 p.prev.code ||| fieldVal 0 4 cur.code
  else if a = R_PWR_THROTTLE then
    fieldVal 8 1 (b2n p.shed) ||| fieldVal 4 4 p.quiet ||| fieldVal 3 1 (b2n p.vbSag) ||| fieldVal 2 1 (b2n p.vcSag) ||| fieldVal 0 2 p.step
  else if a = R_PWR_GATE_STAT then
    BitVec.ofNat 32 ((List.range 14).foldl (fun x b => x + (gateOf s b).code * 4 ^ b) 0)
  else if a = R_PWR_GATE_HELD then
    BitVec.ofNat 32 (bitSet 10 fun b => decide (gateOf s b = .pending) && held s b)
  else if a = R_PWR_RAIL then fieldVal 8 5 p.pg.toNat ||| fieldVal 0 5 p.en.toNat
  else if a = R_PWR_ALARM then fieldVal 0 24 ((p.alarmLeft + 32767) / 32768)
  else 0

/-- The TIME bank (Tables 5.5 to 5.7); the seconds and the fraction of a domain are the latched ones (R146). -/
def viewTime (s : State) (a : Nat) : Word :=
  if a = R_TIME_BEAT then
    fieldVal 10 1 (b2n s.time.chgPend.isSome)
  else if a = R_TIME_BEAT_CNT then s.time.beatCnt
  else if a = R_TIME_OVR_STAT then fieldVal 8 15 s.time.ovrCount
  else if R_TIME_D_CFG ≤ a ∧ a < R_TIME_D_CFG + 0xC0 then
    let n := (a - R_TIME_D_CFG) / 0x40
    let d := domOf s n
    match (a - R_TIME_D_CFG) % 0x40 with
    | 0x04 => fieldVal 0 3 d.st.code
    | 0x08 => nsNow s n
    | 0x0C => d.shSecLo
    | 0x10 => d.shSecHi
    | 0x14 => d.shFrac
    | 0x18 => wordOfInt d.rate
    | 0x1C => BitVec.ofNat 32 (holdMs d)
    | _ => 0
  else if R_TRG_STAT ≤ a ∧ (a - R_TRG_STAT) % 0x20 = 0 then fieldVal 0 1 (b2n (decide (trgAct s ((a - R_TRG_STAT) / 0x20) ≠ 0)))
  else 0

/-- CAN error state of a lane (Table 6.11). -/
def canErr (x : Lane) : Nat := if x.st = .busOff then 2 else if x.tec > 127 ∨ x.recErr > 127 then 1 else 0

/-- The present fault with the lowest code, 0 with none (R175). -/
def lowFault (x : Lane) : Nat := match (List.range 9).find? (bb x.faults) with
  | some k => k + 1
  | none => 0

/-- The LANE bank (Tables 6.9 and 6.11): a present fault sets its flag again at once. -/
def viewLane (s : State) (a i : Nat) : Word :=
  let x := laneOf s i
  let attn (n : Nat) : Bool := [LaneSt.busOff, .fault, .latched, .shed].contains (laneOf s n).st
  if R_LANE_GSTAT ≤ a ∧ a < R_LANE_GSTAT + 12 then BitVec.ofNat 32 (bitSet 32 fun b => attn (8 * (a - R_LANE_GSTAT) + b))
  else if a = R_LANE_STAT then
    fieldVal 10 2 (canErr x) ||| fieldVal 9 1 (b2n x.fallback) ||| fieldVal 8 1 (b2n x.swapped) ||| fieldVal 4 4 (lowFault x) ||| fieldVal 0 4 x.st.code
  else if a = R_LANE_ERR then fieldVal 8 8 (min 255 x.recErr) ||| fieldVal 0 8 (min 255 x.tec)
  else if a = R_LANE_FLT then
    fieldVal 16 4 x.retries ||| fieldVal 15 1 (b2n (decide (x.st = .latched))) ||| x.faults.setWidth 32
  else if a = R_LANE_TDC then fieldVal 16 8 x.meas.toNat
  else 0

/-- The PORT bank (Tables 7.4 and 7.6). -/
def viewPort (s : State) (a i : Nat) : Word :=
  if a = R_PORT_GSTAT then
    fieldVal 8 8 (bitSet 8 fun p => bit s R_PORT_LPI_STAT p 1) ||| fieldVal 0 8 (bitSet 8 (portLink s))
  else if a = R_PORT_STAT ∧ i < 8 then fieldVal 1 1 (b2n (portLink s i))
  else if a = R_PORT_LPI_STAT ∧ i < 8 then fieldVal 0 1 (b2n (lpiOn s i))
  else 0

/-- The TBL bank (Table 8.7). -/
def viewTbl (s : State) (a : Nat) : Word :=
  if R_TBL_P_STAT ≤ a ∧ a < R_TBL_P_STAT + 0x100 ∧ (a - R_TBL_P_STAT) % 0x40 = 0 then
    let p := (a - R_TBL_P_STAT) / 0x40
    fieldVal 31 1 (b2n (safeOnly s)) ||| fieldVal 30 1 (b2n ((passOf s p).busy && decide (fld s R_TBL_AGE_CFG 0 20 ≠ 0))) ||| fieldVal 29 1 (b2n (passOf s p).parity) |||
    fieldVal 16 8 (ovfUsed s p) ||| fieldVal 0 15 (hashUsed s p)
  else 0

/-- The SW bank (Tables 9.8 to 9.10). -/
def viewSw (s : State) (a i : Nat) : Word :=
  if a = R_SW_MODE then fieldVal 8 8 ((List.range 4).foldl (fun x g => x + bufMode s g * 4 ^ g) 0)
  else if a = R_SW_SPILL_STAT then
    fieldVal 30 1 (b2n ((List.range 4).any fun g => decide (bufMode s g = 0))) ||| fieldVal 0 22 (pagesUsed s)
  else if a = R_SW_BUF_FREE then fieldVal 0 17 (cellsFree s)
  else if a = R_SW_RSQ_CFG then fieldVal 16 11 (ctxUsed s)
  else if a = R_SW_Q_DEPTH then fieldVal 0 17 (qOnChip s (i / 8) (i % 8))
  else if a = R_SW_Q_SPILLED then fieldVal 0 24 (qSpilled s (i / 8) (i % 8))
  else if a = R_SW_I_USED then fieldVal 0 17 (ingUsed s i)
  else 0

/-- The VLT status window (Table 12.8). -/
def viewVlt (s : State) (a i : Nat) : Word :=
  let count (c : Nat) : Nat := ((List.range 512).filter fun k => decide (slotState s k = c)).length
  let busy := [0, 1].any fun e => match (engOf s e).job with
    | some j => j.vault
    | none => false
  if a = R_VLT_STAT then
    fieldVal 3 1 (b2n s.vault.storeOk) ||| fieldVal 2 1 (b2n busy) ||| fieldVal 1 1 (b2n (decide (fld s R_VLT_TAMPER 0 6 ≠ 0))) |||
    fieldVal 0 1 (b2n s.vault.rootPresent)
  else if a = R_VLT_SLOTS then
    if s.vault.slotsReady then fieldVal 16 10 (count 2) ||| fieldVal 0 10 (count 1) else 0
  else if ! s.vault.slotsReady then 0
  else if a = R_VLT_SLOT_STATE then fieldVal 0 2 (slotState s i)
  else if a = R_VLT_SLOT_ATTR_LO then (slotOf s i).attr.setWidth 32
  else if a = R_VLT_SLOT_ATTR_HI then ((slotOf s i).attr >>> 32).setWidth 32
  else if a = R_VLT_SLOT_GEN then (slotOf s i).gen.setWidth 32
  else if a = R_VLT_SLOT_UCNT then (slotOf s i).ucnt
  else 0

/-- The NFC bank (Table 15.8). -/
def viewNfc (s : State) (a : Nat) : Word :=
  let n := s.nfc
  if a = R_NFC_STAT then
    fieldVal 9 1 (b2n n.hostPath.locked) ||| fieldVal 8 1 (b2n n.nfcPath.locked) ||| fieldVal 4 1 (b2n n.pending.isSome) |||
    fieldVal 2 1 (b2n n.window) ||| fieldVal 1 1 (b2n n.active) ||| fieldVal 0 1 (b2n n.field)
  else if a = R_NFC_REVOKED then fieldVal 0 9 n.revoked.length
  else 0

/-- The high word of a 48.16 time: the fraction above seconds [47:32] (Table 16.4). -/
def timeHi (t : Nat) : Word := fieldVal 16 16 t ||| fieldVal 0 16 (t / 2 ^ 48)

/-- Wall time as 48.16 seconds. -/
def wall48 (s : State) : Nat := (wallNow s % (2 ^ 64 : Int)).toNat

/-- The LDG bank (Table 16.4); the HI registers of the two times show what their LO read latched (R451). -/
def viewLdg (s : State) (a : Nat) : Word :=
  let l := s.ledger
  let w (n : Nat) : Word := BitVec.ofNat 32 n
  if a = R_LDG_STAT then
    fieldVal 8 8 (min 64 l.queue.length) ||| fieldVal 4 1 (b2n (match l.interval with | some x => ! x.aligned | none => false)) |||
    fieldVal 3 1 (b2n l.final) ||| fieldVal 2 1 (b2n l.sealed) ||| fieldVal 1 1 (b2n l.trip.isSome) ||| fieldVal 0 1 (b2n l.wallValid)
  else if a = R_LDG_LT_LO then w l.sec
  else if a = R_LDG_LT_HI then l.shLtHi
  else if a = R_LDG_WALL_LO then w (wall48 s / 65536)
  else if a = R_LDG_WALL_HI then l.shWallHi
  else if a = R_LDG_OFS_LO then w (int64 l.ofs)
  else if a = R_LDG_OFS_HI then w (int64 l.ofs / 2 ^ 32)
  else if a = R_LDG_TRIM then fieldVal 0 16 (int64 l.trim)
  else if a = R_LDG_BILL then fieldVal 0 17 l.period
  else if a = R_LDG_TARIFF then w l.tariff
  else if a = R_LDG_INTERVAL then w (match l.interval with | some x => x.num | none => 0)
  else if a = R_LDG_HEAD_LO then w (l.head.getD 0)
  else if a = R_LDG_HEAD_HI then fieldVal 0 16 (l.head.getD 0 / 2 ^ 32)
  else if a = R_LDG_OLDEST_LO then w l.oldest
  else if a = R_LDG_OLDEST_HI then fieldVal 0 16 (l.oldest / 2 ^ 32)
  else 0

/-- The tracker window of the ANG bank (Table 17.7). -/
def viewTt (s : State) (n off : Nat) : Word :=
  let t := ttOf s n
  match off with
  | 0x08 =>
    fieldVal 24 8 t.tooth ||| fieldVal 16 3 t.loss ||| fieldVal 12 3 t.fault ||| fieldVal 9 1 (b2n t.bad) ||| fieldVal 8 1 (b2n t.moving) |||
    fieldVal 0 2 t.st.code
  | 0x0C => if t.st = .sync then fieldVal 31 1 1 ||| fieldVal 0 18 (ttAngle s n) else 0
  | 0x10 => BitVec.ofNat 32 t.p1
  | 0x14 => fieldVal 0 16 (ttSpeed s n)
  | 0x18 => BitVec.ofNat 32 t.rev
  | _ => 0

/-- The ANG bank (Table 17.7). -/
def viewAng (s : State) (a : Nat) : Word :=
  let each (f : Nat → Bool) : Nat := bitSet 6 f
  if a = R_ANG_STILL then fieldVal 31 1 (b2n (standstill s))
  else if a = R_ANG_MOTION then
    fieldVal 16 6 (each fun n => healthy s n && (ttOf s n).moving) ||| fieldVal 8 6 (each (healthy s)) |||
    fieldVal 0 6 (each fun n => decide ((ttOf s n).st = .sync))
  else if a = R_ANG_ODO then fieldVal 8 1 (b2n (decide (odoTracker s ≠ none ∧ odoTracker s ≠ some (fld s R_ANG_ODO 0 3))))
  else if a = R_ANG_ODO_LO then BitVec.ofNat 32 s.wheels.odo
  else if a = R_ANG_ODO_HI then s.wheels.odoHiSh
  else if a = R_ANG_TRIP_LO then BitVec.ofNat 32 s.wheels.tripMm
  else if a = R_ANG_TRIP_HI then s.wheels.tripHiSh
  else if R_TT_CFG ≤ a ∧ a < R_TT_CFG + 0x180 then viewTt s ((a - R_TT_CFG) / 0x40) ((a - R_TT_CFG) % 0x40)
  else 0

/-- The FB bank (Table 17.8). -/
def viewFb (s : State) (a : Nat) : Word :=
  if a = R_FB_CMPO_STAT then fieldVal 0 4 s.wheels.cmpo.toNat
  else if R_FB_BOLT_STAT ≤ a ∧ a < R_FB_CFG ∧ (a - R_FB_BOLT_STAT) % 0x20 = 0 then
    let x := boltOf s ((a - R_FB_BOLT_STAT) / 0x20)
    fieldVal 16 1 (b2n x.lastEngage) ||| fieldVal 8 3 x.attempts ||| fieldVal 0 3 x.st.code
  else if R_FB_CFG ≤ a then
    let n := (a - R_FB_CFG) / 0x100
    let c := fbOf s n
    match (a - R_FB_CFG) % 0x100 with
    | 0x08 => fieldVal 0 16 (int64 c.sin)
    | 0x0C => fieldVal 0 16 (int64 c.cos)
    | 0x10 => wordOfInt (fbPos c)
    | 0x14 => fieldVal 0 16 c.amp
    | 0x18 => wordOfInt c.speed
    | 0x1C => fieldVal 8 1 (b2n c.valid) ||| fieldVal 4 1 (b2n (held s (6 + n))) ||| fieldVal 0 3 c.fault
    | _ => 0
  else 0

/-- BRG_SEMk_LEFT (Table 18.10): whole microseconds, rounded up. -/
def viewBrg (s : State) (a : Nat) : Word :=
  if R_BRG_SEM_LEFT ≤ a ∧ a < R_BRG_SEM_LEFT + 0x200 ∧ (a - R_BRG_SEM_LEFT) % 0x20 = 0 then
    let k := (a - R_BRG_SEM_LEFT) / 0x20
    fieldVal 0 14 ((tget 0 s.bridge.lease k - s.time.ticks + 249) / 250)
  else 0

/-- The LOCK field this node advertises (R552). -/
def ownLock (s : State) : Nat :=
  b2n s.vault.immob + 2 * b2n (decide (mode s = .quarantine) || s.hlb.immobReq) +
  4 * b2n (s.hlb.forceLock || (bolts s).any fun b => (boltOf s b).lastEngage) + 8 * b2n (anyMotion s)

/-- HLB_EPOCH is below HLB_EPOCH_MAX (R549). -/
def behindNow (s : State) : Bool := decide ((rd s R_HLB_EPOCH).toNat < (rd s R_HLB_EPOCH_MAX).toNat)

/-- HLB_STAT.STATE. -/
def hlbState (s : State) : Nat :=
  if fld s R_HLB_CFG 16 2 = 0 then 0
  else if s.hlb.behind then 3
  else if (joinedPeers s).isEmpty then 1 else 2

/-- The HLB bank (Table 20.6). -/
def viewHlb (s : State) (a i : Nat) : Word :=
  let h := s.hlb
  let self := decide (i = ownNode s)
  let p := peerOf s i
  let dig := if self then (rd s R_HLB_DIGEST_HI ++ rd s R_HLB_DIGEST_LO) else p.digest
  if a = R_HLB_STAT then
    fieldVal 16 13 (joinedPeers s).length ||| fieldVal 8 1 (b2n h.safe) ||| fieldVal 7 1 (b2n h.topo) ||| fieldVal 6 1 (b2n h.dup) |||
    fieldVal 5 1 (b2n h.keyFail) ||| fieldVal 0 4 (hlbState s)
  else if a = R_HLB_LOCK then
    fieldVal 16 12 h.mnode ||| fieldVal 3 1 (b2n h.motionAny) ||| fieldVal 2 1 (b2n h.lockAny) ||| fieldVal 1 1 (b2n h.immobAny)
  else if a = R_HLB_MEM_STAT then
    if self then
      fieldVal 24 8 7 ||| fieldVal 16 8 (s.boot.version.toNat / 65536) ||| fieldVal 8 8 s.boot.version.toNat ||| fieldVal 4 4 (mode s).code |||
      fieldVal 0 4 (ownLock s)
    else fieldVal 24 8 p.st.code ||| fieldVal 16 8 p.major ||| fieldVal 8 8 p.minor ||| fieldVal 4 4 p.mode ||| fieldVal 0 4 p.lock.toNat
  else if a = R_HLB_MEM_EPOCH then (if self then rd s R_HLB_EPOCH else p.epoch)
  else if a = R_HLB_MEM_DIGEST_LO then dig.setWidth 32
  else if a = R_HLB_MEM_DIGEST_HI then (dig >>> 32).setWidth 32
  else 0

/-- The BGS bank (Tables 21.7 and 21.8). -/
def viewBgs (s : State) (a : Nat) : Word :=
  let b := s.bgs
  if a = R_BGS_STAT then fieldVal 3 1 (b2n b.suspended) ||| fieldVal 2 1 (b2n b.eraseRun) ||| fieldVal 1 1 (b2n b.fuseRun) ||| fieldVal 0 1 (b2n b.chainRun)
  else if a = R_BGS_TEMP then fieldVal 16 16 (int64 b.tempCur) ||| fieldVal 0 16 (int64 b.tempRef)
  else if a = R_BGS_SCRUB_POS then fieldVal 0 22 b.scrubPos
  else if a = R_BGS_CHAIN_AGE then fieldVal 0 16 (min 65535 ((s.time.ticks - b.chainDone) / (60 * ticksPerS)))
  else if a = R_EVT_GSUM then
    let pend (g : Nat) : Word := rd s (R_EVT_PEND + 4 * g)
    fieldVal 8 8 (bitSet 8 fun g => decide (pend g ≠ 0)) ||| fieldVal 0 8 (bitSet 8 fun g => decide (pend g &&& rd s (R_EVT_EN + 4 * g) ≠ 0))
  else 0

/-- The DBG bank (Table 21.9). -/
def viewDbg (s : State) (a : Nat) : Word :=
  if a = R_DBG_FRZ_STAT then
    fieldVal 31 1 (b2n (freezeArmed s)) |||
    (if freezeArmed s then fieldVal 16 12 (max 1 ((s.freeze.armEnd - s.time.ticks + (ticksPerS - 1)) / ticksPerS)) else 0)
  else if R_DBG_LOOP ≤ a ∧ a < R_DBG_LOOP + 16 then
    BitVec.ofNat 32 (bitSet 32 fun b => decide (tget 0 s.net.loop (8 * (a - R_DBG_LOOP) + b) ≠ 0))
  else 0

/-- What instance `i` of the register at `a` shows beside its stored word.
Mark: DEDUCED (log entry 9). -/
def viewBits (s : State) (a i : Nat) : Word :=
  match a / 65536 with
  | 0 => viewSys s a
  | 1 => viewPwr s a
  | 2 => viewTime s a
  | 3 => viewLane s a i
  | 4 => viewPort s a i
  | 5 => viewTbl s a
  | 6 => viewSw s a i
  | 10 => viewVlt s a i
  | 12 => viewNfc s a
  | 13 => viewLdg s a
  | 14 => viewAng s a
  | 15 => viewFb s a
  | 16 => viewBrg s a
  | 17 => viewHlb s a i
  | 18 => viewBgs s a
  | 19 => viewDbg s a
  | _ => 0

/-- The whole word of instance `i` of the register at `a`: the stored fields and the composed ones.
Mark: DEDUCED (log entry 9). -/
def regWord (s : State) (a i : Nat) : Word := rdi s a i ||| viewBits s a i

end Sys2Proof.Machine
end

