-- ==== Sys2Proof/Machine/Access.lean ====
section
/-! DEFINITION. Requests on the spine (chapters 14 and 22): regions and permissions, the judgement of a request,
selectors and windows, and the reading and writing of one register word under its access codes. -/

namespace Sys2Proof.Machine

/-! ## Regions (R378, R379) -/

/-- The regions of Table 14.2. -/
inductive Region where
  | rom | vmem | vpriv | cmem | pkt | tagn | tagx | reg | flOpen | flClosed | spill
  deriving DecidableEq, Repr

/-- The spine address map (Table 14.2): first address, address past the end, region. FL_FW, FL_SEL and FL_MAP
share one column of Table 14.3, as do FL_SLOT, FL_LOG and FL_LDG; banks 20 and above of REG are unmapped
(R594). -/
def regions : List (Nat × Nat × Region) :=
  [ (0x0000000000, 0x0000040000, .rom), (0x0001000000, 0x0001100000, .vmem), (0x0001100000, 0x0001110000, .vpriv),
    (0x0002000000, 0x0002400000, .cmem), (0x0004000000, 0x0005000000, .pkt), (0x0005000000, 0x0005100000, .pkt),
    (0x0006000000, 0x0006001000, .tagn), (0x0006001000, 0x0006002000, .tagx), (0x0010000000, 0x0010140000, .reg),
    (0x0020000000, 0x0020200000, .flOpen), (0x0020200000, 0x0020240000, .flOpen), (0x0020240000, 0x0020260000, .flClosed),
    (0x00203FF000, 0x0020400000, .flOpen), (0x0020400000, 0x0020800000, .flClosed), (0x0020800000, 0x0021000000, .flClosed),
    (0x0100000000, 0x0200000000, .spill) ]

/-- The region of an address. -/
def regionOf (a : Nat) : Option Region :=
  (regions.find? fun x => decide (x.1 ≤ a) && decide (a < x.2.1)).map fun x => x.2.2

/-- What Table 14.3 grants a class in a region: read, write. Class S writes CMEM at start-up step 4 and during a
firmware load only, both of which the device does by itself.
Mark: DEDUCED (log entry 12). -/
def grants (c : Cls) (r : Region) : Bool × Bool :=
  match c, r with
  | .V, .rom => (true, false) | .V, .vmem => (true, true) | .V, .vpriv => (true, true) | .V, .cmem => (true, false)
  | .V, .tagn => (true, true) | .V, .tagx => (true, true) | .V, .reg => (true, true) | .V, .flOpen => (true, false)
  | .S, .vmem => (true, true) | .S, .flOpen => (true, true) | .S, .flClosed => (true, true)
  | .F, .rom => (true, false) | .F, .cmem => (true, true) | .F, .tagn => (true, true) | .F, .reg => (true, true)
  | .F, .flOpen => (true, false)
  | .H, .tagn => (true, true) | .H, .reg => (true, true)
  | _, _ => (false, false)

/-- The spine address of a register: REG begins at 0x10000000 (R594). -/
abbrev regBase : Nat := 0x0010000000

/-- SYS_IDENT, SYS_REV and SYS_BOOT, which some requesters reach when they reach nothing else. -/
def identAddr (a : Nat) : Bool :=
  (decide (regBase + R_SYS_IDENT ≤ a) && decide (a < regBase + R_SYS_REV + 4)) ||
  (decide (regBase + R_SYS_BOOT ≤ a) && decide (a < regBase + R_SYS_BOOT + 4))

/-- The debug port has the reach of class V: lifecycle MANUFACTURE with DBG_CORE_DIS clear, once the fuses are
resolved (Table 14.4, R398). -/
def debugOpen (s : State) : Bool :=
  s.boot.fusesDone && decide (s.fuses.govLc = .manufacture) && ! s.fuses.govDbg

/-- The reason one byte is not permitted, if it is not (Tables 14.3 to 14.5).
Mark: DEDUCED (log entry 12). -/
def byteReason (s : State) (c : Cls) (write : Bool) (a : Nat) : Option Reason :=
  match regionOf a with
  | none => some .unmapped
  | some r =>
    let judge (g : Bool × Bool) : Option Reason :=
      if (if write then g.2 else g.1) then none else if g.1 || g.2 then some .direction else some .world
    match c with
    | .G =>
      if decide (r = .flClosed) || decide (r = .spill) || decide (r = .pkt) then some .world
      else if debugOpen s then judge (grants .V r)
      else if identAddr a then (if write then some .direction else none) else some .lifecycle
    | c => judge (grants c r)

/-- The addresses at which a permission can change. -/
def regionEdges : List Nat :=
  regions.flatMap (fun x => [x.1, x.2.1]) ++
    [regBase + R_SYS_REV + 4, regBase + R_SYS_BOOT, regBase + R_SYS_BOOT + 4]

/-- The lowest of some addresses that is not permitted, with its reason. -/
def lowestDenied (s : State) (c : Cls) (write : Bool) (l : List Nat) : Option (Reason × Nat) :=
  l.foldl (fun best a =>
    match byteReason s c write a with
    | none => best
    | some r => match best with
      | some (_, b) => if a < b then some (r, a) else best
      | none => some (r, a)) none

/-- The reason and first forbidden address of a range on the spine, if any (R386, R387). -/
def judgeRange (s : State) (c : Cls) (write : Bool) (a len : Nat) : Option (Reason × Nat) :=
  if a + len > 2 ^ 40 then some (.wrap, 0)
  else lowestDenied s c write (a :: regionEdges.filter fun x => decide (a < x) && decide (x < a + len))

/-- A range touches REG, or REG outside the SYS bank. -/
def touches (lo hi a len : Nat) : Bool := decide (a < hi) && decide (lo < a + len)

/-- NOT_READY of R380 and of a halted start-up (R399).
Mark: DEDUCED (log entry 12). -/
def notReady (s : State) (c : Cls) (a len : Nat) : Bool :=
  let other := touches (regBase + 0x10000) (regBase + 0x1000000) a len
  match c with
  | .H =>
    if s.power.phase = .halted then ! (identAddr a && identAddr (a + len - 1) && decide (len ≤ 8))
    else other && decide (s.power.phase ≠ .awake)
  | .F => other && decide (s.power.phase ≠ .awake) && decide (s.boot.step < 4)
  | _ => false

/-- The form rules of R385 for H and F in REG. -/
def badForm (c : Cls) (a len : Nat) (be : Bool) : Bool :=
  (decide (c = .H) || decide (c = .F)) && touches regBase (regBase + 0x1000000) a len &&
  ! (be && decide (a % 4 = 0) && decide (len % 4 = 0) && decide (len ≤ 128))

/-- The whole judgement of a spine request (R383 to R387).
Mark: DEDUCED (log entry 12). -/
def judgeSpine (s : State) (c : Cls) (write : Bool) (a len : Nat) (be : Bool) : Option (Reason × Nat) :=
  if notReady s c a len then some (.notReady, a)
  else if badForm c a len be then some (.form, a)
  else judgeRange s c write a len

/-- The spine takes a request of this class now: the debug port needs VIO (Table 2.5); the bridge, the firmware and the DMA have no clock in freeze, and
no H request exists while the bridge is unpowered (R399, R605) or both host interfaces are off (R62).
Mark: DEDUCED (log entry 13). -/
def accepts (s : State) (c : Cls) : Bool :=
  match c with
  | .G => vioUp s && decide (s.power.phase ≠ .asleep) && decide (s.power.phase ≠ .railPhase)
  | .H => ! hostOff s && ! s.freeze.frozen && (decide (s.power.phase = .startup) || decide (s.power.phase = .halted) || decide (s.power.phase = .awake))
  | .F => ! s.freeze.frozen && (decide (s.power.phase = .startup) || decide (s.power.phase = .island) || decide (s.power.phase = .awake))
  | .D => running s
  | _ => clocked s

/-! ## Selectors and windows (R599 to R602) -/

/-- The selectors of Table 22.2. -/
def selectors : List Nat :=
  [ R_LANE_SEL, R_PORT_SEL, R_SW_QSEL, R_SW_ISEL, R_SW_SSEL, R_POL_SEL, R_POL_SSEL, R_SCH_SEL, R_CCK_SEL,
    R_VLT_SLOT_SEL, R_CIPH_LA_SEL, R_HLB_MEM_SEL, R_DBG_LANE_SEL ]

/-- A class's own copy of a selector (R599). -/
def selOf (s : State) (c : Cls) (a : Nat) : Word := tget 0 s.sel (clsCode c * 2 ^ 24 + a)

/-- Write a class's copy of a selector. -/
def setSel (s : State) (c : Cls) (a : Nat) (w : Word) : State :=
  { s with sel := tset 0 s.sel (clsCode c * 2 ^ 24 + a) w }

/-- The instance a window shows to a class. -/
def winInst (s : State) (c : Cls) : Win → Nat
  | .none => 0
  | .lane => bitsOf (selOf s c R_LANE_SEL) 0 7
  | .port => bitsOf (selOf s c R_PORT_SEL) 0 8
  | .swq => bitsOf (selOf s c R_SW_QSEL) 0 7 * 8 + bitsOf (selOf s c R_SW_QSEL) 8 3
  | .swi => bitsOf (selOf s c R_SW_ISEL) 0 7
  | .sws => bitsOf (selOf s c R_SW_SSEL) 0 12
  | .polp => bitsOf (selOf s c R_POL_SEL) 0 11
  | .pols => bitsOf (selOf s c R_POL_SSEL) 0 12
  | .sch => bitsOf (selOf s c R_SCH_SEL) 0 7
  | .cck => bitsOf (selOf s c R_CCK_SEL) 0 7
  | .slot => bitsOf (selOf s c R_VLT_SLOT_SEL) 0 9
  | .la => bitsOf (selOf s c R_CIPH_LA_SEL) 0 10
  | .mem => bitsOf (selOf s c R_HLB_MEM_SEL) 0 12
  | .dbgl => bitsOf (selOf s c R_DBG_LANE_SEL) 0 7

/-- A register word that a request reaches. -/
structure Hit where
  row : RegRow
  a : Nat
  inst : Nat
  flat : Bool
  deriving DecidableEq, Repr

/-- The registers of the port window that HP and PP have: frame and octet counts (R213). -/
def hpPpReg (a : Nat) : Bool :=
  [R_PORT_RXF, R_PORT_RXF + 4, R_PORT_RXO, R_PORT_RXO + 4, R_PORT_TXF, R_PORT_TXF + 4, R_PORT_TXO, R_PORT_TXO + 4].contains a

/-- A port window instance that has this register: a port, HP or PP for the registers they have, or the MAC of a T1S
lane. The others read zero. -/
def portHas (s : State) (a i : Nat) : Bool :=
  decide (i < 8) || ((decide (i = 8) || decide (i = 9)) && hpPpReg a) ||
  (decide (16 ≤ i) && decide (i < 112) && decide (pers s (i - 16) = 3))

/-- The register a REG offset reaches for a class: through its own offsets, its window, or a flat view (R601). -/
def hit (s : State) (c : Cls) (off : Nat) : Option Hit :=
  let bank := off / 65536
  let o := off % 65536
  if (decide (bank = 3) || decide (bank = 4)) && decide (o ≥ 0x8000) then
    let a := bank * 65536 + 0x100 + o % 0x100
    let i := (o - 0x8000) / 0x100
    if (decide (c = .V) || decide (c = .G)) && (if bank = 3 then decide (i < 96) else portHas s a i) then
      (regRow a).map fun r => ⟨r, a, i, true⟩
    else none
  else match regRow off with
    | none => none
    | some r =>
      let i := winInst s c r.win
      if r.win = .port ∧ ¬ portHas s off i then none else some ⟨r, off, i, false⟩

/-! ## Reading one word (R2, R11, R13, R146, R451) -/

/-- A class that sees vault fields: V, and the debug port where it has the reach of V. -/
def vaultLike (c : Cls) : Bool := decide (c = .V) || decide (c = .G)

/-- A register of a trigger channel: the channel. -/
def trgChan (a : Nat) : Option Nat :=
  if R_TRG_CFG ≤ a ∧ a < R_TRG_CFG + 0x400 then some ((a - R_TRG_CFG) / 0x20) else none

/-- A register of a vault-owned trigger channel (R151).
Mark: DEDUCED (log entry 29). -/
def trgHidden (s : State) (a : Nat) : Bool :=
  match trgChan a with
  | some c => trgOwned s c
  | none => false

/-- What a class sees in a register word (Table 0.2): no write-only field, and no vault field in the normal world. -/
def seen (s : State) (c : Cls) (h : Hit) : Word :=
  let w := match h.row.kind with
    | .statHi => if c = .H ∧ ¬ h.flat then tget 0 s.shadow (regKey h.a h.inst) else regWord s h.a h.inst
    | _ => if selectors.contains h.a then selOf s c h.a else regWord s h.a h.inst
  let w := w &&& ~~~ h.row.wo
  if vaultLike c then w
  else if trgHidden s h.a then 0 else w &&& ~~~ h.row.vs

/-- The pairs of registers of which a read of the first latches the second (R146, R451). -/
def loLatch (s : State) (a : Nat) : State :=
  if R_TIME_D_NS ≤ a ∧ a < R_TIME_D_NS + 0xC0 ∧ (a - R_TIME_D_NS) % 0x40 = 0 then nsLatch s ((a - R_TIME_D_NS) / 0x40)
  else if a = R_LDG_LT_LO then { s with ledger := { s.ledger with shLtHi := timeHi (ltimeNow s) } }
  else if a = R_LDG_WALL_LO then { s with ledger := { s.ledger with shWallHi := timeHi (wall48 s) } }
  else if a = R_ANG_ODO_LO then { s with wheels := { s.wheels with odoHiSh := BitVec.ofNat 32 (s.wheels.odo / 2 ^ 32) } }
  else if a = R_ANG_TRIP_LO then { s with wheels := { s.wheels with tripHiSh := BitVec.ofNat 32 (s.wheels.tripMm / 2 ^ 32) } }
  else s

/-- What a read of a word does beside returning it: a host read clears a one-word counter, and takes the low word of
a two-word counter with its high word into the shadow (R11, R13); a LO or NS read latches. -/
def readEffect (s : State) (c : Cls) (h : Hit) : State :=
  if h.flat || trgHidden s h.a then s
  else match h.row.kind with
    | .stat => if c = .H then wri s h.a h.inst 0 else s
    | .statLo =>
      if c = .H then
        let hi := rdi s (h.a + 4) h.inst
        let s := { s with shadow := tset 0 s.shadow (regKey (h.a + 4) h.inst) hi }
        wri (wri s h.a h.inst 0) (h.a + 4) h.inst 0
      else s
    | .statHi => s
    | .plain => loLatch s h.a

/-- Read one word of REG as a class. A vault-private register is a word of VS fields: the classes that see them read what
the vault wrote, the others zero (R598).
Mark: DESIGN CHOICE (log entry 11) for what a private register does. -/
def readReg (c : Cls) (off : Nat) (s : State) : Word × State :=
  match hit s c off with
  | none => (0, s)
  | some h => (seen s c h, readEffect s c h)

/-- Read consecutive words in ascending order (R385). -/
def readRegs (c : Cls) : Nat → Nat → State → List Word × State
  | 0, _, s => ([], s)
  | n + 1, off, s =>
    let (w, s) := readReg c off s
    let (l, s) := readRegs c n (off + 4) s
    (w :: l, s)

/-! ## Writing one word (R2 to R6) -/

/-- The lowest bits of a ring base that read zero: the entry size of Table 18.4. -/
def ringMask (r : Nat) : Word := BitVec.ofNat 32 ([32, 16, 8, 32, 512, 512, 1, 1].getD r 1 - 1)

/-- The ring slot of a BRG_RING register. -/
def ringSlot (a : Nat) : Option Nat :=
  if R_BRG_RING_BASE_LO ≤ a ∧ a < R_BRG_RING_BASE_LO + 0x100 then some ((a - R_BRG_RING_BASE_LO) / 0x20) else none

/-- The fields of a register a class may store to, before locks, holds and reserved encodings.
Mark: DEDUCED (log entry 10). -/
def writeMask (s : State) (c : Cls) (h : Hit) : Word :=
  let base := h.row.rw ||| h.row.wl
  let m := match c with
    | .H => base
    | .F => base ||| h.row.cfg
    | _ => base ||| h.row.cfg ||| h.row.vs ||| h.row.vrw
  let m := match ringSlot h.a with
    | some r =>
      if h.a % 0x20 = R_BRG_RING_BASE_LO % 0x20 then m &&& ~~~ ringMask r
      else if vaultLike c then m
      else if h.a % 0x20 = R_BRG_RING_PROD % 0x20 ∧ r ≠ 0 ∧ r ≠ 2 ∧ r ≠ 4 then 0
      else if h.a % 0x20 = R_BRG_RING_CONS % 0x20 ∧ r ≠ 1 ∧ r ≠ 3 ∧ r ≠ 5 then 0
      else m
    | none => m
  if ! trgHidden s h.a then m
  else if ! vaultLike c then 0
  else if h.a % 0x20 = R_TRG_STAT % 0x20 then 2
  else if h.a % 0x20 = R_TRG_SKIP % 0x20 then 0xFFFFFFFF
  else m

/-- A register of feedback channel windows, which a vault hold of the ADC or of the channel closes (Table 14.7). -/
def fbClosed (s : State) (a : Nat) : Bool :=
  decide (R_FB_CFG ≤ a) && decide (a < R_FB_CFG + 0x400) && (held s 4 || held s (6 + (a - R_FB_CFG) / 0x100))

/-- Further reserved encodings (R493, R510, Table 9.8): bits of a field a write may not set to this value. -/
def extraReserved (s : State) (a : Nat) (w : Word) : Word :=
  if a = R_BRG_CFG then
    let spi := bit s R_BRG_STAT 0 9
    if (spi && decide (bitsOf w 0 2 = 2)) || (! spi && decide (bitsOf w 0 2 = 3)) then 3 else 0
  else if a = R_SW_QSEL then
    if bitsOf w 0 7 ≥ 106 then 0x77F else if bitsOf w 0 7 < 96 ∧ bitsOf w 8 3 ≥ 4 then 0x700 else 0
  else match ringSlot a with
    | some r => if a % 0x20 = R_BRG_RING_CFG % 0x20 ∧ r ≥ 6 ∧ bitsOf w 31 1 = 1 then 0x80000000 else 0
    | none => 0

/-- The bits a write of `w` leaves as they are because their fields would take reserved encodings (R6). -/
def reservedBits (s : State) (h : Hit) (m w : Word) : Word :=
  let chk := h.row.chk.foldl (fun (acc : Word) f =>
    let fm := fieldMask f.lo f.width
    let v := bitsOf w f.lo f.width
    if fm &&& m ≠ 0 ∧ ¬ f.ranges.any (fun r => decide (r.1 ≤ v) && decide (v ≤ r.2)) then acc ||| fm else acc) 0
  chk ||| (extraReserved s h.a w &&& m)

/-- A source leaves the announced set when it is no longer pending and unmasked (R508, R577). -/
def evtSettle (s : State) : State :=
  let live : BitVec 256 := BitVec.ofNat 256 ((List.range 8).foldl (fun x g =>
    x + (rd s (R_EVT_PEND + 4 * g) &&& rd s (R_EVT_EN + 4 * g)).toNat * 2 ^ (32 * g)) 0)
  { s with bridge := { s.bridge with announced := s.bridge.announced &&& live } }

/-- A write to EVT_PENDg clears the bits written as 1 (R576). -/
def evtPendClear (s : State) (g : Nat) (w : Word) : State := evtSettle (clrReg s (R_EVT_PEND + 4 * g) 0 w)

/-- A write to EVT_ENg (R577). -/
def evtEnSet (s : State) (g : Nat) (w : Word) : State := evtSettle (wr s (R_EVT_EN + 4 * g) w)

/-- SERVICE or DEPOT. -/
def inShop (s : State) : Bool := decide (mode s = .service) || decide (mode s = .depot)

/-- A write to EVT_TEST (R579). -/
def evtTest (s : State) (w : Word) : State :=
  if bitsOf w 31 1 = 1 ∧ inShop s ∧ evListed (bitsOf w 0 8) then raiseN s (bitsOf w 0 8) else s

/-- A write to CCK_INJECT (R329): ARM takes a 1 only in SERVICE and DEPOT, and ING no code above 105 (R6). -/
def injectSet (s : State) (w : Word) : State :=
  let s := if bitsOf w 0 8 ≤ 105 then setFld s R_CCK_INJECT 0 8 (bitsOf w 0 8) else raise s .reservedEnc
  if bitsOf w 31 1 = 0 then setFld s R_CCK_INJECT 31 1 0
  else if inShop s then setFld s R_CCK_INJECT 31 1 1 else s

/-! ## The registers whose write does more than store -/

/-- Store `new` in a register, with the action its write has. `old` is the word held before, `w` the word written.
Mark: DEDUCED (log entry 10). -/
def storeReg (c : Cls) (h : Hit) (old new w : Word) (s : State) : State :=
  let a := h.a
  if selectors.contains a then setSel s c a new
  else if a = R_PWR_ALARM then alarmSet s new
  else if a = R_PWR_GATE_CLK then gateWrite s false new
  else if a = R_PWR_GATE_PWR then gateWrite s true new
  else if a = R_PWR_VTH then setVbat (wr s a new) s.power.vbat
  else if a = R_PWR_WAKE_CAUSE then
    let s := wr s a new
    if bitsOf w 16 1 = 1 then woutAck s else s
  else if a = R_PWR_HOLD then
    (List.range 16).foldl (fun s b =>
      if bitsOf new b 1 = bitsOf old b 1 then s
      else if bitsOf new b 1 = 1 then holdBlock s b else releaseBlock s b) s
  else if a = R_CCK_INJECT then injectSet s w
  else if a = R_BRG_STAT then
    let s := wr s a new
    if bitsOf w 16 1 = 1 then { s with bridge := { s.bridge with dmaFails := 0 } } else s
  else if a = R_EVT_TEST then evtTest s w
  else if a = R_LANE_FLT then wri s a h.inst (new ||| (laneOf s h.inst).faults.setWidth 32)   -- a present fault sets its bit again
  else if R_EVT_PEND ≤ a ∧ a < R_EVT_PEND + 32 then evtPendClear s ((a - R_EVT_PEND) / 4) w
  else if R_EVT_EN ≤ a ∧ a < R_EVT_EN + 32 then evtEnSet s ((a - R_EVT_EN) / 4) new
  else match trgChan a with
    | some ch =>
      if a = trg R_TRG_CFG ch then
        if vaultLike c then setFld (trgCfgSet (clrReg s a 0 0x80000000) ch new) a 31 1 (bitsOf new 31 1) else trgCfgSet s ch new
      else wr s a new
    | none =>
      match semReg a with
      | some (k, 0) => semAcqWrite s c k (bitsOf w 0 8)
      | some (k, 4) => semRel s k w
      | some (_, _) => s     -- a commit is judged as a whole request (R504)
      | none =>
        let e := (a - R_CIPH_SQ_BASE_LO) / 0x100
        let o := (a - R_CIPH_SQ_BASE_LO) % 0x100
        if R_CIPH_SQ_BASE_LO ≤ a ∧ a < R_CIPH_SQ_BASE_LO + 0x200 then
          if o = 0x14 then
            let k := s.fresh
            let s := { s with fresh := s.fresh + 4096 }
            sqTailSet s e (bitsOf new 0 12) ((List.range 4096).map fun i => Config.freeWord (k + i))
          else if o = 0x40 then kctlSet s e new
          else if 0x44 ≤ o ∧ o < 0x64 then keywSet s e ((o - 0x44) / 4) w
          else wri s a h.inst new
        else wri s a h.inst new

/-- Write one word of REG as a class: fields outside its mask are ignored without error, a locked field raises
LOCKED_WRITE, a reserved encoding keeps the field and raises RESERVED_ENC, a 1 clears a W1C bit (R2, R4, R6). All registers of a
trigger channel of the vault are as VS fields (R151).
Mark: DEDUCED (log entry 10); DESIGN CHOICE (log entry 11). -/
def writeReg (c : Cls) (off : Nat) (w : Word) (s : State) : State :=
  match hit s c off with
  | none => s
  | some h =>
    if h.flat then s
    else
      let m := writeMask s c h
      if ! vaultLike c && fbClosed s h.a then (if m ≠ 0 then raise s .heldWrite else s)
      else
        let locked := decide (h.row.wl ≠ 0) && bit s R_SYS_LOCK 0 0
        let s := if locked then raise s .lockedWrite else s
        let m := if locked then m &&& ~~~ h.row.wl else m
        let res := reservedBits s h m w
        let s := if res ≠ 0 ∧ h.a ≠ R_CCK_INJECT then raise s .reservedEnc else s
        let m := m &&& ~~~ res
        let old := if selectors.contains h.a then selOf s c h.a else rdi s h.a h.inst
        let w1c := if trgHidden s h.a then 0 else h.row.w1c
        let new := ((old &&& ~~~ m) ||| (w &&& m)) &&& ~~~ (w &&& w1c)
        if m = 0 ∧ w1c = 0 ∧ h.row.wo = 0 ∧ h.a ≠ R_PWR_WAKE_CAUSE then s
        else storeReg c h old new w s

/-- Write consecutive words in ascending order (R385). -/
def writeRegs (c : Cls) : Nat → List Word → State → State
  | _, [], s => s
  | off, w :: t, s => writeRegs c (off + 4) t (writeReg c off w s)

end Sys2Proof.Machine
end

