-- ==== Sys2Proof/Machine/Phone.lean ====
section
/-! DEFINITION. Phone entry and tag memory (chapter 15): field sessions, APDUs, exchange windows and wired
accesses, credentials on both paths, and the OPERATOR's rental commands. -/

namespace Sys2Proof.Machine

/-! ## Tag memory and the other memories (R378, R402, R412) -/

/-- The first spine address of tag memory, and the offset of STATE in it (Table 15.4). -/
abbrev tagBase : Nat := 0x0006000000
abbrev exAt : Nat := 4096

/-- A byte of tag memory; STATE is held as such. -/
def tagByte (s : State) (i : Nat) : Byte :=
  if i = exAt then BitVec.ofNat 8 s.nfc.ex.code else tget 0 s.nfc.tag i

/-- Write a byte of tag memory. A byte written to STATE that is no code of Table 15.4 leaves it as it is. -/
def tagPut (s : State) (i : Nat) (b : Byte) : State :=
  if i = exAt then
    let e := [ExSt.idle, .ready, .submitted, .busy, .done].find? fun x => decide (x.code = b.toNat)
    { s with nfc := { s.nfc with ex := e.getD s.nfc.ex } }
  else { s with nfc := { s.nfc with tag := tset 0 s.nfc.tag i b } }

/-- Write consecutive bytes of tag memory (R412: page by page in ascending order, each page whole). -/
def tagPuts : Nat → List Byte → State → State
  | _, [], s => s
  | i, b :: t, s => tagPuts (i + 1) t (tagPut s i b)

/-- Consecutive bytes of tag memory. -/
def tagBytes (s : State) (i n : Nat) : List Byte := (List.range n).map fun k => tagByte s (i + k)

/-- `n` bytes of a list from `off`. -/
def slice (l : List Byte) (off n : Nat) : List Byte := (l.drop off).take n

/-- A byte of the spine that is no register: tag memory, the memories the model holds, the stored map in FL_MAP.
The rest of the flash and the boot ROM are free values.
Mark: DESIGN CHOICE (log entry 8). -/
def memByte (s : State) (free : Nat) (a : Nat) : Byte :=
  match regionOf a with
  | some .tagn => tagByte s (a - tagBase)
  | some .tagx => tagByte s (a - tagBase)
  | some .vmem => tget 0 s.mem a
  | some .vpriv => tget 0 s.mem a
  | some .cmem => tget 0 s.mem a
  | _ =>
    let f : Byte := (Config.freeWord (free + a)).setWidth 8
    if 0x0020200000 ≤ a ∧ a < 0x0020240000 ∧ s.boot.mapValid then (mapBytes s.map).getD (a - 0x0020200000) f else f

/-- Write a byte of tag memory or of a memory the model holds; the flash is written by the commands that own it.
Mark: DESIGN CHOICE (log entry 8). -/
def memPut (s : State) (a : Nat) (b : Byte) : State :=
  match regionOf a with
  | some .tagn => tagPut s (a - tagBase) b
  | some .tagx => tagPut s (a - tagBase) b
  | some .vmem => { s with mem := tset 0 s.mem a b }
  | some .vpriv => { s with mem := tset 0 s.mem a b }
  | some .cmem => { s with mem := tset 0 s.mem a b }
  | _ => s

/-- Words of memory from an address. -/
def memWords (s : State) (a n : Nat) : List Word :=
  (List.range n).map fun k => BitVec.ofNat 32 (ofLeBytes ((List.range 4).map fun j => memByte s s.fresh (a + 4 * k + j)))

/-- The byte enables of word `k` of a request. -/
def enableOf (acc : Access) (k : Nat) : BitVec 4 := acc.enables.getD k 15

/-- Every byte of a request is enabled. -/
def allEnabled (acc : Access) : Bool := (List.range acc.words.length).all fun k => decide (enableOf acc k = 15)

/-- Write a request's enabled bytes to memory in ascending order. -/
def memWrite (s : State) (acc : Access) : State :=
  (List.range acc.words.length).foldl (fun s k =>
    (List.range 4).foldl (fun s j =>
      if (enableOf acc k).getLsbD j then memPut s (acc.addr + 4 * k + j) (BitVec.ofNat 8 (bitsOf (acc.words.getD k 0) (8 * j) 8)) else s) s) s

/-! ## Wired accesses and exchange windows (R408 to R411) -/

/-- Put a read's words and its status on the outputs.
Mark: DESIGN CHOICE (log entry 67). -/
def outRead (s : State) (ws : List Word) (st : Status) : State :=
  { s with out := { s.out with rdata := ws, rstatus := some st } }

/-- An access of memory carried out. -/
def memAccess (s : State) (write : Bool) (acc : Access) : State :=
  if write then outRead (memWrite s acc) [] .ok
  else
    let ws := memWords s acc.addr acc.words.length
    outRead { s with fresh := s.fresh + 1 } ws .ok

/-- A wired access completes with RETRY, having read and written nothing (R409, R411): counted, and its class goes
ahead of the windows of the next 1 ms (R410). Over PCIe a read returns ones and NFC_WIRE_STAT names the page.
Mark: DEDUCED (log entry 49). -/
def wireRetry (s : State) (w : Wired) : State :=
  let page := (w.acc.addr - tagBase) / 16
  let s := setFld (statInc s R_NFC_WIRE_RETRY) R_NFC_WIRE_STAT 0 9 page
  let pcie := decide (w.cls = .H) && ! onSpi s
  let s := if pcie then setFld s R_NFC_WIRE_STAT 31 1 1 else s
  let s := { s with nfc := { s.nfc with reserve := tset 0 s.nfc.reserve (clsCode w.cls) (s.time.ticks + ticksPerMs) } }
  if w.write then
    (if pcie then s
     else outRead (if w.cls = .H then { s with disp := { s.disp with spiStatus := .retry } } else s) [] .retry)
  else if pcie then outRead s (w.acc.words.map fun _ => 0xFFFFFFFF) .ok
  else outRead s (w.acc.words.map fun _ => 0) .retry

/-- The window closes: what it held completes with RETRY, in order.
Mark: DEDUCED (log entry 49). -/
def windowClose (s : State) : State :=
  let l := s.nfc.held
  l.foldl wireRetry { s with nfc := { s.nfc with window := false, held := [] } }

/-- A permitted wired access of tag memory: held behind an open window, unless its class holds the reservation
of a RETRY less than 1 ms old (R409, R410).
Mark: DEDUCED (log entry 49). -/
def wireAccess (s : State) (c : Cls) (write : Bool) (acc : Access) : State :=
  if s.nfc.window ∧ ¬ s.time.ticks < tget 0 s.nfc.reserve (clsCode c) then
    { s with nfc := { s.nfc with held := s.nfc.held ++ [{ cls := c, acc := acc, write := write }] } }
  else
    memAccess { s with nfc := { s.nfc with reserve := tset 0 s.nfc.reserve (clsCode c) 0 } } write acc

/-- The refusal of a request in the form of Table 14.6. -/
def refuseOut (s : State) (c : Cls) (r : Reason) (a : Nat) (write : Bool) : State :=
  let s := refuse s c r a write
  { s with out := { s.out with refused := true, rstatus := some .denied } }

/-- A spine request of any class on any region but REG.
Mark: DEDUCED (log entry 49). -/
def memRequest (s : State) (c : Cls) (write : Bool) (acc : Access) : State :=
  match judgeSpine s c write acc.addr (4 * acc.words.length) (allEnabled acc) with
  | some (r, a) => refuseOut s c r a write
  | none =>
    match regionOf acc.addr with
    | some .tagn => wireAccess s c write acc
    | some .tagx => wireAccess s c write acc
    | _ => memAccess s write acc

/-- TAG_WIRED_ACCESS (R409): an access whose first address lies in tag memory. -/
def execTagWiredAccess (c : Cls) (write : Bool) (acc : Access) (s : State) : Host.Outcome State Fault Refusal :=
  let s := begin_ s
  .next (if accepts s c ∧ tagBase ≤ acc.addr ∧ acc.addr < tagBase + 0x2000 then memRequest s c write acc else s)

/-- The tag engine's S(WTX) request: its block and the multiplier, which the spec does not state (R408).
Mark: PRESUMED (log entry 48). -/
def sendWtx (s : State) : State :=
  let (k, s) := draw s
  { s with out := { s.out with bytes := [0xF2, (Config.freeWord k).setWidth 8] } }

/-- EXCHANGE_WINDOW_CLOSE (R408, R409): the window closes; with the response still owed an S(WTX) goes out. -/
def execExchangeWindowClose (s : State) : Host.Outcome State Fault Refusal :=
  let s := begin_ s
  .next (if s.nfc.window ∧ ! s.freeze.frozen then
      let s := windowClose s
      if s.nfc.apdu.isSome then sendWtx s else s
    else s)

/-! ## Field sessions and challenges (R401, R404, R414) -/

/-- The vault runs: start-up step 3 has completed and its clock runs (R404, R414). -/
def vaultUp (s : State) : Bool := clocked s && s.vault.slotsReady

/-- The vault writes a new CHALLENGE and sets STATE to READY (R414); without random values it writes none
(R333).
Mark: DEDUCED (log entry 50). -/
def newChallenge (s : State) : State :=
  let (ok, s) := wantRandom s
  if ! ok then s
  else
    let (k, s) := draw s
    let s := tagPuts (exAt + 0x10) (randBytes k 32) s
    { s with nfc := { s.nfc with chal := true, ex := .ready } }

/-- FIELD_SESSION_START (R401, R414): the field reaches the operating threshold; the session has a random UID of its own. A credential in BUSY keeps its
STATE; its DONE is followed by a challenge. -/
def execFieldSessionStart (s : State) : Host.Outcome State Fault Refusal :=
  let s := begin_ s
  .next (if s.freeze.frozen then s
    else
      let (k, s) := draw s
      let s := { s with nfc := { s.nfc with field := true, rfUid := 8 :: randBytes k 3 } }
      if vaultUp s ∧ s.nfc.ex ≠ .busy ∧ ¬ s.nfc.chal then newChallenge s else s)

/-- FIELD_SESSION_END (R414): the challenge expires and READY returns to IDLE; a check under way runs on (R426). -/
def execFieldSessionEnd (s : State) : Host.Outcome State Fault Refusal :=
  let s := begin_ s
  .next (if s.freeze.frozen then s
    else { s with nfc := { s.nfc with
      field := false, active := false, chal := false, apdu := none, selected := 0,
      ex := if s.nfc.ex = .ready then .idle else s.nfc.ex } })

/-- NFC_CHALLENGE_EXPIRY (R414): 10 s after issue, with STATE READY and the session running. -/
def execNfcChallengeExpiry (s : State) : Host.Outcome State Fault Refusal :=
  let s := begin_ s
  .next (if vaultUp s ∧ s.nfc.ex = .ready ∧ s.nfc.field then newChallenge { s with nfc := { s.nfc with chal := false } } else s)

/-! ## APDUs (R402, R415) -/

/-- A file's first byte in tag memory and its length.
Mark: PRESUMED (log entry 48). -/
def nfcFile (fid : Nat) : Option (Nat × Nat) :=
  if fid = 0xE103 then some (0, 15) else if fid = 0xE104 then some (16, 4080) else if fid = 0xE1C0 then some (exAt, 4096) else none

/-- The bytes a field write may only leave as they are: RESULT, CHALLENGE and RECEIPT. -/
def exProtected (o : Nat) : Bool :=
  decide (o = 1) || (decide (0x10 ≤ o) && decide (o < 0x30)) || (decide (0x130 ≤ o) && decide (o < 0x170))

/-- A field write to the exchange file (R414, R415): the status word, and whether it submits a credential.
Mark: PRESUMED (log entry 48). -/
def exJudge (s : State) (off : Nat) (d : List Byte) : Nat × Bool :=
  if s.nfc.ex = .busy then (0x6985, false)
  else
    let v := (d.getD 0 0).toNat
    let sub := decide (off = 0) && decide (v = 2) && decide (s.nfc.ex = .ready)
    if off = 0 ∧ ¬ sub ∧ v ≠ s.nfc.ex.code then (0x6985, false)
    else if (List.range d.length).any (fun k => exProtected (off + k) && decide (d.getD k 0 ≠ tagByte s (exAt + off + k))) then (0x6982, false)
    else (0x9000, sub)

/-- The application's name, D2760000850101. -/
def aidBytes : List Byte := [0xD2, 0x76, 0x00, 0x00, 0x85, 0x01, 0x01]

/-- What the tag engine does with an APDU: the status word, the response data, the state.
Mark: PRESUMED (log entry 48). -/
def apduDo (s : State) : Apdu → Nat × List Byte × State
  | .selectApp aid =>
    if aid = aidBytes then (0x9000, [], { s with nfc := { s.nfc with selected := 1 } })
    else (0x6A82, [], { s with nfc := { s.nfc with selected := 0 } })
  | .selectFile fid =>
    if s.nfc.selected = 0 ∨ (nfcFile fid.toNat).isNone then (0x6A82, [], s)
    else (0x9000, [], { s with nfc := { s.nfc with selected := fid.toNat } })
  | .read off le =>
    let n := if le = 0 then 256 else le.toNat
    match nfcFile s.nfc.selected with
    | none => (0x6986, [], s)
    | some (base, len) =>
      if off.toNat ≥ 2 ^ 15 then (0x6A86, [], s)
      else if off.toNat + n > len then (0x6B00, [], s)
      else (0x9000, tagBytes s (base + off.toNat) n, s)
  | .update off d =>
    match nfcFile s.nfc.selected with
    | none => (0x6986, [], s)
    | some (base, len) =>
      if off.toNat ≥ 2 ^ 15 then (0x6A86, [], s)
      else if s.nfc.selected ≠ 0xE1C0 then (0x6982, [], s)
      else if d = [] ∨ d.length > 255 then (0x6700, [], s)
      else if off.toNat + d.length > len then (0x6B00, [], s)
      else
        let (sw, sub) := exJudge s off.toNat d
        if sw ≠ 0x9000 then (sw, [], s)
        else
          let s := tagPuts (base + off.toNat) d s
          if sub then (sw, [], { s with nfc := { s.nfc with ex := .busy, subChal := s.nfc.chal, chal := false } })
          else (sw, [], s)

/-- Commands that read or write tag memory open an exchange window. -/
def opensWindow : Apdu → Bool
  | .read .. => true
  | .update .. => true
  | _ => false

/-- NFC_APDU (R402, R404, R408, R415): answered in every mode while the field suffices, but not in freeze. The window
stays open until EXCHANGE_WINDOW_CLOSE; a further APDU comes after that. When its processing is not complete after 4.5 ms
(`slow`) the response stays owed, and an S(WTX) closes the window; the same APDU then completes, and no other is taken
before it.
Mark: DEDUCED (log entry 49). -/
def execNfcApdu (x : ApduCmd) (s : State) : Host.Outcome State Fault Refusal :=
  let s := begin_ s
  let a := x.apdu
  .next (if s.freeze.frozen ∨ ¬ s.nfc.field ∨ s.nfc.window ∨ (s.nfc.apdu.isSome ∧ s.nfc.apdu ≠ some a) then s
    else
      let s := { s with nfc := { s.nfc with active := true, window := opensWindow a, apdu := if x.slow then some a else none } }
      if x.slow then (if opensWindow a then s else sendWtx s)
      else
        let (sw, b, s) := apduDo s a
        let s := statInc s R_NFC_EXCH
        { s with out := { s.out with bytes := b ++ [BitVec.ofNat 8 (sw / 256), BitVec.ofNat 8 sw] } })

/-! ## Credentials (R416 to R424) -/

/-- A submitted credential: its path (0 NFC, 1 host radio), REQUEST, TOKEN, the CHALLENGE it answers, whether that is
unexpired and unused, and PROOF. -/
structure Cred where
  path : Nat
  req : Byte
  token : List Byte
  chal : List Byte
  chalOk : Bool
  proof : List Byte
  deriving DecidableEq, Repr

/-- SIG of a token verifies under KS011, usable with VERIFY (R417, R418). -/
def Cred.sigOk (s : State) (c : Cred) : Bool :=
  slotLive s 11 && sUsage (slotOf s 11) useVerify &&
    ecdsaVerify (slotOf s 11).key (slice c.token 0 0x78) (slice c.token 0x78 64)

/-- The holder proof verifies under HOLDER (R416). -/
def Cred.proofOk (s : State) (c : Cred) : Bool :=
  ecdsaVerify (slice c.token 0x38 64) (ascii "KWENTRY" ++ uidBytes s ++ c.chal ++ [c.req]) c.proof

/-- A path's refusal count. -/
def pathOf (s : State) (p : Nat) : CredPath := if p = 0 then s.nfc.nfcPath else s.nfc.hostPath

/-- Replace a path's refusal count. -/
def setPath (s : State) (p : Nat) (x : CredPath) : State :=
  if p = 0 then { s with nfc := { s.nfc with nfcPath := x } } else { s with nfc := { s.nfc with hostPath := x } }

/-- Checks 1 to 8 of R418: the status and the number of the first that fails.
Mark: DEDUCED (log entries 46, 50). -/
def credChecks (s : State) (c : Cred) : Option (Status × Nat) :=
  let t := c.token
  let f (off n : Nat) : Nat := beNat (slice t off n)
  if t.length ≠ 184 ∨ f 0 1 ≠ 1 ∨ f 1 1 ≠ 0 ∨ f 2 2 / 16 ≠ 0 ∨ f 0x2C 4 ≠ 0 ∨ c.req = 0 ∨ c.req.toNat > 3 then some (.badParam, 1)
  else if slice t 0x10 16 ≠ uidBytes s ∨ slice t 0x10 16 = List.replicate 16 0 then some (.denied, 2)
  else if ¬ c.sigOk s then some (.denied, 3)
  else if f 4 4 < (rd s R_NFC_EPOCH_MIN).toNat then some (.stale, 4)
  else if s.nfc.revoked.contains (f 8 8) then some (.denied, 4)
  else if ¬ (s.ledger.wallValid ∧ (f 0x20 6 : Int) ≤ wallNow s / 65536 ∧ wallNow s / 65536 ≤ (f 0x26 6 : Int)) then some (.stale, 5)
  else if ¬ c.chalOk then some (.stale, 6)
  else if ¬ c.proofOk s then some (.denied, 7)
  else if ¬ (f 2 2 / [1, 1, 4, 8].getD c.req.toNat 1) % 2 = 1 then some (.denied, 8)
  else none

/-- The mode a credential is judged in: on the entry island, before start-up has derived one, the mode R75
derives. -/
def credMode (s : State) : Mode := if s.power.phase = .awake then mode s else deriveMode s

/-- Checks 9 and 10 of R418 under Table 15.7.
Mark: DEDUCED (log entry 50). -/
def credFits (s : State) (req tripRef : Nat) : Option (Status × Nat) :=
  let m := credMode s
  let ref := s.ledger.trip.map Trip.tripRef
  if req = 1 then
    if m ≠ .approach ∨ ref.isSome ∨ s.ledger.sealed then some (.notInMode, 9)
    else if s.power.actLow then some (.busy, 10) else none
  else if ref.isNone ∨ ¬ (m = .rented ∨ (m = .drive ∧ req = 3)) then some (.notInMode, 9)
  else if ref ≠ some tripRef then some (.denied, 9)
  else if req = 2 then (if standstill s then none else some (.busy, 10))
  else if s.power.actLow then some (.busy, 10) else none

/-- The action of Table 15.7, after its ledger entry.
Mark: DEDUCED (log entry 50). -/
def credAct (s : State) (path req tokenId tripRef : Nat) (drive : Bool) : State :=
  match req with
  | 1 => openTrip s tokenId tripRef path drive
  | 2 => closeTrip s path
  | _ =>
    let s := commitEntry s (.entryAction tripRef tokenId req path)
    match boltOfKind s 2 with
    | some b => requestMove s b false
    | none => s

/-- The refusal count of a path after a result (R419): BUSY does not count, OK resets; the eighth refusal in a row
locks the path for 10 s, and each further one at the end of a lockout doubles it up to 640 s. -/
def credCount (x : CredPath) (st : Status) : CredPath :=
  match st with
  | .busy => x
  | .ok => CredPath.clear
  | _ =>
    if x.locked then x
    else if x.fails ≥ 8 then { x with lockS := min 640 (2 * x.lockS), locked := true }
    else if x.fails + 1 = 8 then { fails := 8, lockS := 10, locked := true }
    else { x with fails := x.fails + 1 }

/-- Record a credential's result: count, NFC_CRED_LAST and the counters. -/
def credNote (s : State) (path req : Nat) (st : Status) (step : Nat) (count : Bool) : State :=
  let s := if count then setPath s path (credCount (pathOf s path) st) else s
  let s := wr s R_NFC_CRED_LAST (fieldVal 24 8 st.code ||| fieldVal 16 4 step ||| fieldVal 12 1 path ||| fieldVal 0 8 req)
  statInc s (if st = .ok then R_NFC_CRED_OK else R_NFC_CRED_FAIL)

/-- The entries of a credential's action can be committed (R41): those of a closing trip, or the one of another action. -/
def credRoom (s : State) (req : Nat) : Bool := if req = 2 then closeRoom s 0 else ledgerRoom s

/-- Judge a credential and act on it (R406, R418, R419, R422): the result. Any submission replaces a pending
grant.
Mark: DEDUCED (log entry 50). -/
def credRun (s : State) (c : Cred) (vbkpOk : Bool) : Status × State :=
  let s := { s with nfc := { s.nfc with pending := none } }
  let req := c.req.toNat
  let tok := beNat (slice c.token 8 8)
  let ref := beNat (slice c.token 0x30 8)
  let rights := beNat (slice c.token 2 2)
  let finish (s : State) (st : Status) (step : Nat) : Status × State := (st, credNote s c.path req st step true)
  let g : Grant := { path := c.path, request := req, rights := BitVec.ofNat 16 rights, tripRef := ref, tokenId := tok }
  let keep (s : State) : Status × State :=
    finish (if fld s R_NFC_CFG 0 10 ≠ 0 then { s with nfc := { s.nfc with pending := some g } } else s) .busy 10
  if (pathOf s c.path).locked then (.denied, credNote s c.path req .denied 0 false)
  else if groupTampered s then finish s .tampered 0
  else
    let recent := s.nfc.leTimes.filter fun t => decide (s.ledger.sec < t + 3600)
    if s.power.lowEnergy ∧ (¬ vbkpOk ∨ recent.length ≥ 20) then finish s .busy 0
    else
      let s := if s.power.lowEnergy then { s with nfc := { s.nfc with leTimes := s.ledger.sec :: recent } } else s
      match credChecks s c with
      | some (st, n) => finish s st n
      | none =>
        match credFits s req ref with
        | some (st, n) =>
          if n = 10 ∧ s.power.lowEnergy then keep s else finish s st n
        | none =>
          if s.power.lowEnergy then
            keep s     -- no entry is written under LOW_ENERGY (R449): the action waits for power
          else if ! credRoom s req then finish s .busy 0
          else
            let s := credNote s c.path req .ok 0 true
            (.ok, credAct s c.path req tok ref (decide (rights / 2 % 2 = 1)))

/-- RECEIPT: KS001 signs the UID, the CHALLENGE, REQUEST and RESULT (Table 15.4). -/
def receipt (s : State) (c : Cred) (st : Status) : List Byte × State :=
  signature s (uidBytes s ++ c.chal ++ [c.req, BitVec.ofNat 8 st.code])

/-- The credential submitted through the exchange file is checked (R414, R418): RESULT and RECEIPT are written, STATE
becomes DONE, and a new challenge follows while the session runs. `vbkpOk`: VBKP can carry the check (R406). -/
def nfcCheck (s : State) (vbkpOk : Bool) : State :=
  let c : Cred := { path := 0, req := tagByte s (exAt + 2), token := tagBytes s (exAt + 0x30) 184,
                    chal := tagBytes s (exAt + 0x10) 32, chalOk := s.nfc.subChal, proof := tagBytes s (exAt + 0xE8) 64 }
  let (st, s) := credRun { s with nfc := { s.nfc with subChal := false } } c vbkpOk
  let (sig, s) := receipt s c st
  let s := tagPuts (exAt + 0x130) sig (tagPut s (exAt + 1) (BitVec.ofNat 8 st.code))
  let s := raise { s with nfc := { s.nfc with ex := .done } } .credResult
  if s.nfc.field then newChallenge s else s

/-- CREDENTIAL_CHECK (R414, R418): the credential submitted through the exchange file is checked. VBKP and VBAT are measured in mV and the
field in mA/m: under LOW_ENERGY the vault verifies from 1.5 A/m on (Table 15.3), with VBKP at or above 2.7 V (R406).
Mark: DEDUCED (log entry 50). -/
def execCredentialCheck (vbkp field vbat : Nat) (s : State) : Host.Outcome State Fault Refusal :=
  let s := begin_ s
  .next (if ! (vaultUp s && decide (s.nfc.ex = .busy)) || (s.power.lowEnergy && decide (field < 1500)) then s
    else nfcCheck (setVbat s vbat) (decide (2700 ≤ vbkp)))

/-- PENDING_GRANT_RUN (R422): power is back within HOLD_S; checks 9 and 10 run again.
Mark: DEDUCED (log entry 50). -/
def execPendingGrantRun (s : State) : Host.Outcome State Fault Refusal :=
  .next (whenRunning (begin_ s) fun s =>
    match s.nfc.pending with
    | none => s
    | some g =>
      if s.power.lowEnergy ∨ s.power.actLow ∨ ! credRoom s g.request then s
      else match credFits s g.request g.tripRef with
        | some _ => s
        | none =>
          let s := credNote { s with nfc := { s.nfc with pending := none } } g.path g.request .ok 0 true
          credAct s g.path g.request g.tokenId g.tripRef (decide (g.rights.toNat / 2 % 2 = 1)))

/-- PENDING_GRANT_EXPIRY (R422). -/
def execPendingGrantExpiry (s : State) : Host.Outcome State Fault Refusal :=
  let s := begin_ s
  .next { s with nfc := { s.nfc with pending := none } }

/-- CRED_LOCKOUT_END (R419): a path's lockout ends. -/
def execCredLockoutEnd (host : Bool) (s : State) : Host.Outcome State Fault Refusal :=
  let s := begin_ s
  .next (setPath s (b2n host) { pathOf s (b2n host) with locked := false })

/-! ## The host's radio (R423) -/

/-- Credentials are accepted from any context in these modes.
Mark: DEDUCED (log entry 50). -/
def judgeCred : State → Nat → Option Status := judgeRight true false false false (inModes [.approach, .rented, .drive])

/-- ENTRY_CHALLENGE (0x0901). -/
def execEntryChallenge (r : Req) (s : State) : Host.Outcome State Fault Refusal :=
  .next (dispatch 0x0901 r judgeCred (fun s =>
    if s.vault.rngFailed then { status := .busy, bytes := [], changes := false, act := fun s => ((wantRandom s).2, .busy, []) }
    else Plan.doBytes fun s =>
      let (k, s) := draw s
      ({ s with nfc := { s.nfc with hostChal := some (s.time.ticks, randBytes k 32) } }, randBytes k 32)) s)

/-- A credential submitted earlier on the NFC path is checked before the host's (R424). -/
def nfcFirst (s : State) : State :=
  if vaultUp s && decide (s.nfc.ex = .busy) && ! s.power.lowEnergy then nfcCheck s true else s

/-- ENTRY_SUBMIT (0x0902): exchange-file bytes 0x002 to 0x127, REQUEST to CHALLENGE, TOKEN and PROOF. The challenge is used by the submission and lives
30 s. The response carries RESULT and RECEIPT whatever the result (R423).
Mark: DEDUCED (log entry 50). -/
def execEntrySubmit (r : Req) (head token proof : List Byte) (s : State) : Host.Outcome State Fault Refusal :=
  let cred := head ++ token ++ proof
  .next (dispatch 0x0902 r judgeCred (fun _ =>
    if cred.length ≠ 294 then Plan.fail .badParam
    else { status := .ok, bytes := [], changes := true, act := fun s =>
      let s := nfcFirst s
      let fresh : Bool := match s.nfc.hostChal with
        | some (t, b) => decide (s.time.ticks < t + 30 * ticksPerS) && decide (slice cred 14 32 = b)
        | none => false
      let c : Cred := { path := 1, req := cred.getD 0 0, token := slice cred 46 184, chal := slice cred 14 32, chalOk := fresh,
                        proof := slice cred 230 64 }
      let (st, s) := credRun { s with nfc := { s.nfc with hostChal := none } } c true
      let (sig, s) := receipt s c st
      (raise s .credResult, st, [BitVec.ofNat 8 st.code, 0, 0, 0] ++ sig) }) s)

/-! ## The OPERATOR's commands (R527, R531) -/

/-- OPERATOR rights over credentials and tariffs (Table 1.2). -/
def judgeTrust : State → Nat → Option Status := judgeRight false true false false (inModes [.approach, .rented, .drive, .depot])

/-- An OPERATOR command in some modes. -/
def judgeOper (l : List Mode) : State → Nat → Option Status := judgeRight false true false false (inModes l)

/-- CRED_REVOKE (0x0903): adding a listed ID and removing an unlisted one change nothing.
Mark: DEDUCED (log entry 50). -/
def execCredRevoke (r : Req) (op : BitVec 8) (tokenId : BitVec 64) (s : State) : Host.Outcome State Fault Refusal :=
  .next (dispatch 0x0903 r judgeTrust (fun s =>
    let t := tokenId.toNat
    if op.toNat > 2 then Plan.fail .badParam
    else if op.toNat = 0 ∧ ¬ s.nfc.revoked.contains t ∧ s.nfc.revoked.length ≥ 256 then Plan.fail .range
    else Plan.doBytes fun s =>
      let l := s.nfc.revoked
      let l := if op.toNat = 0 then (if l.contains t then l else l ++ [t]) else if op.toNat = 1 then l.filter (fun x => decide (x ≠ t)) else []
      ({ s with nfc := { s.nfc with revoked := l } }, leBytes 2 l.length ++ [0, 0])) s)

/-- CRED_EPOCH (0x0904): NFC_EPOCH_MIN is a MONO counter. -/
def execCredEpoch (r : Req) (epoch : Word) (s : State) : Host.Outcome State Fault Refusal :=
  .next (dispatch 0x0904 r judgeTrust (fun s =>
    if rd s R_NFC_EPOCH_MIN = 0xFFFFFFFF then Plan.fail .final
    else if epoch.toNat ≤ (rd s R_NFC_EPOCH_MIN).toNat then Plan.fail .stale
    else Plan.do_ fun s =>
      let s := wr s R_NFC_EPOCH_MIN epoch
      if epoch = 0xFFFFFFFF then monoFinal s 4 else s) s)

/-- TRIP_OPEN (0x0905, R531). -/
def execTripOpen (r : Req) (tripRef tokenId : BitVec 64) (s : State) : Host.Outcome State Fault Refusal :=
  .next (dispatch 0x0905 r (judgeOper [.approach]) (fun s =>
    if s.ledger.trip.isSome then Plan.fail .notInMode
    else if s.power.actLow then Plan.fail .busy
    else if s.ledger.sealed then Plan.fail .range
    else if ledgerLive s ∧ ¬ ledgerRoomFor s 2 then Plan.noRoom
    else Plan.do_ fun s => openTrip s tokenId.toNat tripRef.toNat 2 true) s)

/-- TRIP_CLOSE (0x0906, R531): in DRIVE it waits for standstill.
Mark: DEDUCED (log entry 47). -/
def execTripClose (r : Req) (tripRef : BitVec 64) (s : State) : Host.Outcome State Fault Refusal :=
  .next (dispatch 0x0906 r (judgeOper [.rented, .drive, .quarantine]) (fun s =>
    if s.ledger.trip.map Trip.tripRef ≠ some tripRef.toNat then Plan.fail .denied
    else if mode s = .rented ∧ ¬ standstill s then Plan.fail .busy
    else if mode s ≠ .drive ∧ ¬ closeRoom s 1 then Plan.noRoom
    else Plan.do_ fun s =>
      if mode s = .drive then atStandstill s fun v => { v with closePend := true, toRented := true } else closeTrip s 2) s)

/-- Take the DRIVE right from the open trip; in DRIVE the immobiliser is set and RENTED entered at the first
standstill (R73, R531).
Mark: DEDUCED (log entry 47). -/
def immobiliseTrip (s : State) : State :=
  match s.ledger.trip with
  | none => s
  | some t =>
    let s := { s with ledger := { s.ledger with trip := some { t with drive := false } }, hlb := { s.hlb with immobReq := true } }
    if mode s = .drive then atStandstill s fun v => { v with immobPend := true, toRented := true } else s

/-- FORCE_LOCK (0x0907, R531): an engage of every bolt, in DRIVE at the first standstill (R73). -/
def execForceLock (r : Req) (s : State) : Host.Outcome State Fault Refusal :=
  .next (dispatch 0x0907 r (judgeOper [.approach, .rented, .drive, .depot, .quarantine]) (fun _ =>
    Plan.do_ fun s =>
      if mode s = .drive then
        atStandstill { s with hlb := { s.hlb with forceLock := true } } fun v => { v with lockPend := true, toRented := true }
      else engageAll s) s)

/-- IMMOBILISE (0x0908, R531). -/
def execImmobilise (r : Req) (s : State) : Host.Outcome State Fault Refusal :=
  .next (dispatch 0x0908 r (judgeOper [.approach, .rented, .drive, .depot, .quarantine]) (fun _ => Plan.do_ immobiliseTrip) s)

/-- TRIP_PERMIT (0x0909, R531).
Mark: DEDUCED (log entry 47). -/
def execTripPermit (r : Req) (drive : BitVec 8) (s : State) : Host.Outcome State Fault Refusal :=
  .next (dispatch 0x0909 r (judgeOper [.rented, .drive]) (fun s =>
    if drive.toNat > 1 then Plan.fail .badParam
    else match s.ledger.trip with
      | none => Plan.fail .notInMode
      | some t => Plan.do_ fun s =>
          if drive.toNat = 1 then
            { s with ledger := { s.ledger with trip := some { t with drive := true } }, hlb := { s.hlb with immobReq := false } }
          else if mode s = .drive then immobiliseTrip s
          else { s with ledger := { s.ledger with trip := some { t with drive := false } } }) s)

/-- ENTRY_CONFIG (0x0910). -/
def execEntryConfig (r : Req) (holdS : BitVec 16) (start stop unlock lock : List Word) (s : State) : Host.Outcome State Fault Refusal :=
  .next (dispatch 0x0910 r judgeInstaller (fun s =>
    cfgPlan (checkEntry holdS start stop unlock lock) (.entry holdS start stop unlock lock) (applyEntry holdS start stop unlock lock) s) s)

end Sys2Proof.Machine
end

