-- ==== Sys2Proof/Machine/Bridge.lean ====
section
/-! DEFINITION. The host bridge (chapter 18): requests over PCIe and quad-SPI, command packets, the HP rings, DMA
failures, MSI-X, semaphores and the bridge reset; and the reads and writes of registers (chapter 0). -/

namespace Sys2Proof.Machine

/-! ## Requests to REG (R385, R504) -/

/-- The words of a request at a REG offset, as pairs of offset and word. -/
def wordsAt (off : Nat) (ws : List Word) : List (Nat × Word) := ws.zipIdx.map fun x => (off + 4 * x.2, x.1)

/-- The semaphores whose COMMIT words a request writes. -/
def commitsOf (off n : Nat) : List Nat :=
  (List.range 16).filter fun k => decide (off < R_BRG_SEM_COMMIT0 + 0x20 * k + 16) && decide (R_BRG_SEM_COMMIT0 + 0x20 * k < off + 4 * n)

/-- Write a request's words; COMMIT words that do not make a guarded write are ignored and counted (R504). -/
def writeWords (c : Cls) (off : Nat) (ws : List Word) (s : State) : State :=
  (commitsOf off ws.length).foldl (fun s _ => statInc s R_BRG_SEM_STALE) (writeRegs c off ws s)

/-- A guarded write at semaphore `k` (R504): held by OWNER at GEN, it is one access to the register named, of the
requester's class.
Mark: DEDUCED (log entry 57). -/
def semCommitDo (s : State) (c : Cls) (k : Nat) (w off data mask : Word) : State :=
  let s := semSettle s k
  if semOwner s k ≠ 0 ∧ bitsOf w 16 8 = semOwner s k ∧ bitsOf w 0 16 = semGen s k then
    let o := bitsOf off 0 24
    match judgeSpine s c true (regBase + o) 4 true with
    | some (r, a) => refuseOut s c r a true
    | none =>
      match hit s c o with
      | some h => writeWords c o [(seen s c h &&& ~~~ mask) ||| (data &&& mask)] s
      | none => s
  else statInc s R_BRG_SEM_STALE

/-- The guarded write a request is: exactly the four COMMIT words of one semaphore. -/
def guardedWrite (off : Nat) (ws : List Word) : Option (Nat × Word × Word × Word × Word) :=
  match semReg off, ws with
  | some (k, 0x10), [w, o, d, m] => some (k, w, o, d, m)
  | _, _ => none

/-- Word `k` of a write with the bytes that are not enabled taken from the register as the class sees it; a bit that
a 1 clears is left 0 there. -/
def mergeWord (s : State) (c : Cls) (off : Nat) (w : Word) (be : BitVec 4) : Word :=
  if be = 15 then w
  else match hit s c off with
    | none => w
    | some h =>
      let m : Word := BitVec.ofNat 32 ((List.range 4).foldl (fun a j => if be.getLsbD j then a + 255 * 2 ^ (8 * j) else a) 0)
      (w &&& m) ||| (seen s c h &&& ~~~ h.row.w1c &&& ~~~ m)

/-- A permitted request to REG carried out. -/
def regAccess (s : State) (c : Cls) (write : Bool) (acc : Access) : State :=
  let off := acc.addr - regBase
  if write then
    let s := outRead s [] .ok
    match guardedWrite off acc.words with
    | some (k, w, o, d, m) => semCommitDo s c k w o d m
    | none => writeWords c off ((wordsAt off acc.words).zipIdx.map fun x => mergeWord s c x.1.1 x.1.2 (enableOf acc x.2)) s
  else
    let (ws, s) := readRegs c acc.words.length off s
    outRead s ws .ok

/-- A request on the spine (R383 to R388). -/
def spineRequest (s : State) (c : Cls) (write : Bool) (acc : Access) : State :=
  if regBase ≤ acc.addr ∧ acc.addr < regBase + 0x1000000 then
    match judgeSpine s c write acc.addr (4 * acc.words.length) (allEnabled acc) with
    | some (r, a) => refuseOut s c r a write
    | none => regAccess s c write acc
  else memRequest s c write acc

/-- A request of one word to a REG offset. -/
def regWord1 (s : State) (c : Cls) (write : Bool) (off : Nat) (w : Word) : State :=
  let s := begin_ s
  if accepts s c then spineRequest s c write { addr := regBase + off, words := [w], enables := [] } else s

/-! ## The PCIe windows (R488) -/

/-- Word `i` of the MSI-X table: word 3 of an entry resets to 1, its vector masked.
Mark: PRESUMED (log entry 56). -/
def msixWord (s : State) (i : Nat) : Word := tget (if i % 4 = 3 then 1 else 0) s.bridge.msixTab i

/-- Write word `i` of the MSI-X table: of word 3 only the mask bit, and a message address is a multiple of 4. -/
def setMsixWord (s : State) (i : Nat) (w : Word) : State :=
  let w := if i % 4 = 3 then w &&& 1 else if i % 4 = 0 then w &&& 0xFFFFFFFC else w
  { s with bridge := { s.bridge with msixTab := tset (if i % 4 = 3 then 1 else 0) s.bridge.msixTab i w } }

/-- The part of BAR2 an offset lies in: tag memory, the MSI-X table, its pending bit array. -/
def bar2Part (o : Nat) : Nat :=
  if o < 0x1000 then 1 else if 0x2000 ≤ o ∧ o < 0x2400 then 2 else if 0x3000 ≤ o ∧ o < 0x3008 then 3 else 0

/-- The first BAR2 offset of a range that is not listed in the part the range starts in.
Mark: DEDUCED (log entry 12). -/
def bar2Bad (o len : Nat) : Option Nat :=
  match bar2Part o with
  | 0 => some o
  | 1 => if o + len > 0x1000 then some 0x1000 else none
  | 2 => if o + len > 0x2400 then some 0x2400 else none
  | _ => if o + len > 0x3008 then some 0x3008 else none

/-- The enabled bytes of a word over an old one.
Mark: PRESUMED (log entry 56). -/
def byteMerge (old w : Word) (be : BitVec 4) : Word :=
  let m : Word := BitVec.ofNat 32 ((List.range 4).foldl (fun a j => if be.getLsbD j then a + 255 * 2 ^ (8 * j) else a) 0)
  (w &&& m) ||| (old &&& ~~~ m)

/-- A request to the MSI-X table or the pending bit array, which no spine rule judges.
Mark: PRESUMED (log entry 56). -/
def msixAccess (s : State) (write : Bool) (acc : Access) : State :=
  let o := acc.addr
  if write then
    let s := outRead s [] .ok
    if bar2Part o = 2 then
      acc.words.zipIdx.foldl (fun s x =>
        let i := (o - 0x2000) / 4 + x.2
        setMsixWord s i (byteMerge (msixWord s i) x.1 (enableOf acc x.2))) s
    else s
  else
    outRead s ((List.range acc.words.length).map fun j =>
      if bar2Part o = 2 then msixWord s ((o - 0x2000) / 4 + j)
      else BitVec.ofNat 32 (s.bridge.msixPend.toNat / 2 ^ (32 * ((o - 0x3000) / 4 + j)))) .ok

/-- A request of the host through BAR2. -/
def bar2Request (s : State) (write : Bool) (acc : Access) : State :=
  match bar2Bad acc.addr (4 * acc.words.length) with
  | some a => refuseOut s .H .unmapped a write
  | none => if bar2Part acc.addr = 1 then memRequest s .H write { acc with addr := tagBase + acc.addr } else msixAccess s write acc

/-- A request through one of its targets: class H reaches the spine itself over quad-SPI, and the two windows over
PCIe. -/
def targetRequest (s : State) (c : Cls) (t : Target) (write : Bool) (acc : Access) : State :=
  match t with
  | .spine => if c = .H ∧ ¬ onSpi s then s else spineRequest s c write acc
  | .bar0 =>
    if c ≠ .H ∨ onSpi s then s
    else if acc.addr < 0x1000000 then spineRequest s c write { acc with addr := regBase + acc.addr }
    else refuseOut s c .unmapped acc.addr write
  | .bar2 => if c ≠ .H ∨ onSpi s then s else bar2Request s write acc

/-! ## Register reads and writes (chapter 0) -/

/-- STAT_LOW_WORD_READ (R11). -/
def execStatLowWordRead (c : Cls) (off : BitVec 24) (s : State) : Host.Outcome State Fault Refusal :=
  .next (regWord1 s c false off.toNat 0)

/-- RC_READ (R2): a read of any words, RC fields among them. -/
def execRcRead (c : Cls) (t : Target) (acc : Access) (s : State) : Host.Outcome State Fault Refusal :=
  .next (if accepts s c then targetRequest (begin_ s) c t false acc else begin_ s)

/-- LDG_LO_READ (R451). -/
def execLdgLoRead (c : Cls) (off : BitVec 24) (s : State) : Host.Outcome State Fault Refusal :=
  .next (regWord1 s c false off.toNat 0)

/-- REG_WRITE (R2 to R6): a write of any words. -/
def execRegWrite (c : Cls) (t : Target) (acc : Access) (s : State) : Host.Outcome State Fault Refusal :=
  .next (if accepts s c then targetRequest (begin_ s) c t true acc else begin_ s)

/-- EVT_PEND_WRITE (R576). -/
def execEvtPendWrite (c : Cls) (g : Fin 8) (w : Word) (s : State) : Host.Outcome State Fault Refusal :=
  .next (regWord1 s c true (R_EVT_PEND + 4 * g.val) w)

/-- EVT_EN_WRITE (R577). -/
def execEvtEnWrite (c : Cls) (g : Fin 8) (w : Word) (s : State) : Host.Outcome State Fault Refusal :=
  .next (regWord1 s c true (R_EVT_EN + 4 * g.val) w)

/-- EVT_TEST_WRITE (R579). -/
def execEvtTestWrite (c : Cls) (w : Word) (s : State) : Host.Outcome State Fault Refusal :=
  .next (regWord1 s c true R_EVT_TEST w)

/-- CCK_INJECT_WRITE (R329). -/
def execCckInjectWrite (c : Cls) (w : Word) (s : State) : Host.Outcome State Fault Refusal :=
  .next (regWord1 s c true R_CCK_INJECT w)

/-- HOST_LOST_WRITE (R511): 1 is written to HOST_LOST of BRG_STAT. -/
def execHostLostWrite (c : Cls) (s : State) : Host.Outcome State Fault Refusal :=
  .next (regWord1 s c true R_BRG_STAT (fieldVal 16 1 1))

/-- SEM_ACQUIRE (R501). -/
def execSemAcquire (c : Cls) (k : Fin 16) (owner : BitVec 8) (s : State) : Host.Outcome State Fault Refusal :=
  .next (regWord1 s c true (R_BRG_SEM_ACQ + 0x20 * k.val) (owner.setWidth 32))

/-- SEM_RELEASE (R502): {OWNER, GEN}. -/
def execSemRelease (c : Cls) (k : Fin 16) (w : Word) (s : State) : Host.Outcome State Fault Refusal :=
  .next (regWord1 s c true (R_BRG_SEM_REL + 0x20 * k.val) w)

/-- SEM_COMMIT (R504): one request of exactly four words. -/
def execSemCommit (c : Cls) (k : Fin 16) (w off data mask : Word) (s : State) : Host.Outcome State Fault Refusal :=
  let s := begin_ s
  .next (if accepts s c then
      spineRequest s c true { addr := regBase + R_BRG_SEM_COMMIT0 + 0x20 * k.val, words := [w, off, data, mask], enables := [] }
    else s)

/-- SEM_LEASE_EXPIRY (R503).
Mark: DEDUCED (log entry 57). -/
def execSemLeaseExpiry (k : Fin 16) (s : State) : Host.Outcome State Fault Refusal :=
  .next (whenClocked (begin_ s) fun s =>
    semSettle s k)

/-! ## Quad-SPI (R491, R492, R521, R522) -/

/-- A quad-SPI transaction reaches the bridge. -/
def whenSpi (s : State) (f : State → State) : State :=
  let s := begin_ s
  if accepts s .H && onSpi s then f s else s

/-- SPI_READ (R491): STATUS and COUNT + 1 words, which read zero when STATUS is not OK.
Mark: DEDUCED (log entry 57). -/
def execSpiRead (addr : Word) (count : BitVec 8) (s : State) : Host.Outcome State Fault Refusal :=
  .next (whenSpi s fun s =>
    let n := count.toNat + 1
    let s := spineRequest s .H false { addr := addr.toNat, words := List.replicate n 0, enables := [] }
    if s.out.rstatus = some .denied ∨ s.out.rstatus = some .retry then { s with out := { s.out with rdata := List.replicate n 0 } } else s)

/-- SPI_WRITE (R492): judged when its last word arrives; WSTAT reports its status.
Mark: DEDUCED (log entry 57). -/
def execSpiWrite (addr : Word) (words : List Word) (s : State) : Host.Outcome State Fault Refusal :=
  .next (whenSpi s fun s =>
    let s := spineRequest s .H true { addr := addr.toNat, words := words, enables := [] }
    match s.out.rstatus with
    | some st => { s with disp := { s.disp with spiStatus := st } }
    | none => s)

/-- WSTAT (R491): the status of the last WRITE or CMD_PUT, then BRG_STAT. -/
def execWstat (s : State) : Host.Outcome State Fault Refusal :=
  .next (whenSpi s fun s =>
    { s with out := { s.out with bytes := leBytes 1 s.disp.spiStatus.code, rdata := [regWord s R_BRG_STAT 0] } })

/-- SPI_ABORT (R491, R492): nothing is written or returned. -/
def execSpiAbort (s : State) : Host.Outcome State Fault Refusal := .next (whenSpi s fun s => statInc s R_BRG_SPI_ABORT)

/-- CMD_PUT (R521). -/
def execCmdPut (length opcode session : BitVec 16) (seq : BitVec 32) (s : State) : Host.Outcome State Fault Refusal :=
  .next (whenSpi s fun s =>
    if length.toNat < 16 ∨ length.toNat > 512 then { s with disp := { s.disp with spiStatus := .badParam } }
    else if s.disp.spiReq.length ≥ 4 then { s with disp := { s.disp with spiStatus := .busy } }
    else
      let w : Wait := { opcode := opcode.toNat, session := session, seq := seq, accepted := false, ctx := none }
      { s with disp := { s.disp with spiStatus := .ok, spiReq := s.disp.spiReq ++ [w] } })

/-- CMD_GET (R522, R534): the oldest response leaves the queue; a SYS_RESET whose response this is takes effect. -/
def execCmdGet (s : State) : Host.Outcome State Fault Refusal :=
  .next (whenSpi s fun s =>
    match s.disp.spiRsp with
    | [] => { s with out := { s.out with bytes := leBytes 2 0 } }
    | r :: t =>
      let b := rspBytes r
      let o : Outp := { s.out with bytes := (leBytes 2 b.length).reverse ++ b }
      let s := { s with disp := { s.disp with spiRsp := t }, out := o }
      if r.opcode = 0x0122 ∧ s.boot.resetOrdered = some Chan.spi then { warmCore s with out := o } else s)

/-! ## The command ring (R519, R520) -/

/-- Advance an index of a ring.
Mark: DEDUCED (log entry 55). -/
def ringStep (s : State) (r : Nat) (a : Nat) : State :=
  setFld s (a + 0x20 * r) 0 12 ((fld s (a + 0x20 * r) 0 12 + 1) % ringEntries s r)

/-- Something waits in a ring that the device consumes. -/
def ringHas (s : State) (r : Nat) : Bool := ringOn s r && decide (ringProd s r ≠ ringCons s r)

/-- The context in which a request fetched now is accepted: the sequence of an earlier one that waits in the same session
is its reference (R33, R36). -/
def acceptCtx (s : State) (session : BitVec 16) : Option Ctx :=
  (ctxAt s .ring session).map fun c =>
    match (s.disp.ringReq.filter fun w => decide (w.session = session)).getLast? with
    | some w => { c with last := w.seq }
    | none => c

/-- CMD_RING_FETCH (R519, R520): the packet read gives its header fields, and the dispatcher has accepted it.
Mark: DEDUCED (log entry 55). -/
def execCmdRingFetch (opcode session : BitVec 16) (seq : BitVec 32) (s : State) : Host.Outcome State Fault Refusal :=
  .next (whenRunning (begin_ s) fun s =>
    if ! ringHas s 4 || ! ringOn s 5 || ! dmaUp s || decide (ringFree s 5 < s.disp.ringReq.length + owedOn s .ring + 1) then s
    else match judgeD s false (ringBase s 4 + 512 * ringCons s 4) 512 with
      | some (r, a) => refuse s .D r a false
      | none =>
        let w : Wait := { opcode := opcode.toNat, session := session, seq := seq, accepted := true, ctx := acceptCtx s session }
        ringStep (dmaGood { s with disp := { s.disp with ringReq := s.disp.ringReq ++ [w] } }) 4 R_BRG_RING_CONS)

/-! ## HP transmit (R494 to R496, R317, R371) -/

/-- The content that carried bytes of a frame type spell (Table 11.1); none when they are no form of it.
Mark: DEDUCED (log entry 57). -/
def parseCarried (ft : Nat) (b : List Byte) : Option Content :=
  let h := ofLeBytes (b.take 4)
  let c : Content :=
    match ft with
    | 0 => .eth b
    | 3 => .xl (BitVec.ofNat 11 (ofLeBytes (b.take 2))) (b.getD 2 0) (b.getD 3 0) (BitVec.ofNat 32 (ofLeBytes ((b.drop 4).take 4)))
             (bb (b.getD 10 0) 0) (b.drop 12)
    | 4 => .lin (b.getD 0 0) (b.drop 1)
    | _ => .can (BitVec.ofNat 29 h) (decide (h / 2 ^ 29 % 2 = 1)) (decide (h / 2 ^ 30 % 2 = 1)) (decide (h / 2 ^ 31 % 2 = 1))
             (bb (b.getD 4 0) 4) ((b.getD 4 0).setWidth 4) (b.drop 5)
  if carried c = b ∧ ftype c = ft then some c else none

/-- Fields of a descriptor's FLAGS (Table 18.5). -/
def hpPipe (d : HpDesc) : Fin 4 := Fin.ofNat 4 d.flags.toNat
def hpLock (d : HpDesc) : Bool := bb d.flags 7
def hpAuth (d : HpDesc) : Bool := bb d.flags 6
def hpLaunch (d : HpDesc) : Bool := bb d.flags 5
def hpCheck (d : HpDesc) : Bool := bb d.flags 4
def hpColour (d : HpDesc) : Nat := d.flags.toNat / 4 % 4
def hpType (d : HpDesc) : Nat := d.ftype.toNat / 8 % 8
def hpSem (d : HpDesc) : Nat := d.prof.toNat / 4096
def hpProf (d : HpDesc) : BitVec 10 := d.prof.setWidth 10

/-- The launch time of a descriptor, in the layout of STAMP_TIME (Table 9.3). -/
def hpLtime (d : HpDesc) : LaunchAt :=
  { dom := Fin.ofNat 4 (d.ltime.toNat / 2 ^ 62), ns := d.ltime.toNat / 2 ^ 30 % 2 ^ 32 * 1000000000 + d.ltime.toNat % 2 ^ 30 }

/-- A descriptor that breaks a field's range, or sets both HCHK and LAUTH (R494). -/
def hpBad (d : HpDesc) : Bool :=
  decide (d.len.toNat < 1) || decide (d.len.toNat > 9216) || decide (d.ftype.toNat ≠ 8 * hpType d) || decide (hpType d > 4) ||
  decide (hpColour d = 3) || decide (d.prof.toNat / 1024 % 4 ≠ 0) || decide (d.rsvd ≠ 0) || (hpCheck d && hpAuth d) ||
  (hpLaunch d && decide (d.ltime.toNat % 2 ^ 30 > 999999999))

/-- The completion of the descriptor in front (R496).
Mark: DEDUCED (log entry 55). -/
def hpComplete (s : State) (d : HpDesc) (st : Status) (stamp : Nat) : State :=
  let b := leBytes 4 d.tag.toNat ++ leBytes 1 st.code ++ leBytes 3 0 ++ leBytes 8 stamp
  let (ok, s) := dmaWrite s (ringBase s 1 + 16 * ringProd s 1) b
  let s := if ok then ringStep s 1 R_BRG_RING_PROD else s
  ringStep { s with bridge := { s.bridge with txWait := none } } 0 R_BRG_RING_CONS

/-- The transmit profile is FINAL: T is all ones (R371). -/
def hpFinal (s : State) (d : HpDesc) : Bool :=
  hpAuth d && laOn s (hpProf d).toNat 29 && decide (la64 s R_CIPH_LA_T_LO R_CIPH_LA_T_HI (hpProf d).toNat = 2 ^ 64 - 1)

/-- The frame of a descriptor whose lock is held, read from its buffer: checked, completed, and handed to its
pipeline. -/
def hpSend (s : State) (d : HpDesc) (c : Content) (lock : Option (Nat × Nat)) (stuck : Option Bool) : State :=
  let f : RxFrame :=
    { ing := 104, content := c, ok := true, stuck := stuck, pipe := hpPipe d, colour := Fin.ofNat 3 (hpColour d),
      launch := if hpLaunch d then some (hpLtime d) else none, prof := if hpAuth d then some (hpProf d) else none, lock := lock }
  if hpCheck d && decide (crc32c (carried c) ≠ d.hostchk) then
    unlockFrame (hpComplete (raise (statInc s R_CCK_HP_IN) .integrity) d .integrity 0) f
  else if hpFinal s d then receive (hpComplete s d .final 0) f
  else
    let stamp := (stampOf s 104 c).time
    receive (hpComplete s d .ok stamp.toNat) f

/-- The bridge can serve the descriptor in front: rings 0 and 1 enabled, a descriptor waiting, room for its
completion. -/
def hpReady (s : State) : Bool := ringHas s 0 && ringOn s 1 && dmaUp s && decide (ringFree s 1 ≥ 1)

/-- Acquire the semaphore of a LOCK descriptor for its pipeline: the state and the lock held, or none while it is not
free (R495, R501). -/
def hpAcquire (s : State) (d : HpDesc) : Option (State × Option (Nat × Nat)) :=
  if ! hpLock d then some (s, none)
  else
  let s := semSettle s (hpSem d)
  if semOwner s (hpSem d) ≠ 0 then none
  else
    let s := semAcq s (hpSem d) (0xF0 + (hpPipe d).val)
    some (s, some (hpSem d, semGen s (hpSem d)))

/-- The modes in which frames go through HP (Table 1.2). -/
def hpModes (s : State) : Bool :=
  decide (mode s = .rented) || decide (mode s = .drive) || decide (mode s = .service) || decide (mode s = .depot)

/-- HP_TX_DESCRIPTOR (R494 to R496). Outside the modes of Table 1.2 the descriptor completes with NOT_IN_MODE (R27). `bytes` are those the buffer
holds; `stuck` says that the frame sticks in its pipeline, `decided` that it does so after its decision (R254).
Mark: DEDUCED (log entry 55). -/
def execHpTxDescriptor (desc : HpDesc) (bytes : List Byte) (stuck decided : Bool) (s : State) : Host.Outcome State Fault Refusal :=
  .next (whenRunning (begin_ s) fun s =>
    if ! hpReady s then s
    else match judgeD s false (ringBase s 0 + 32 * ringCons s 0) 32 with
      | some (r, a) => hpComplete (refuse s .D r a false) desc .denied 0
      | none =>
        if ! hpModes s then hpComplete (dmaGood s) desc .notInMode 0
        else if hpBad desc then hpComplete (dmaGood s) desc .badParam 0
        else match judgeD s false desc.buf.toNat desc.len.toNat with
          | some (r, a) => hpComplete (refuse s .D r a false) desc .denied 0
          | none =>
            match parseCarried (hpType desc) (padTo desc.len.toNat bytes) with
            | none => hpComplete (dmaGood s) desc .badParam 0
            | some c =>
              match hpAcquire s desc with
              | none => { s with bridge := { s.bridge with txWait := some (hpSem desc) } }
              | some (s, lock) => hpSend (dmaGood s) desc c lock (if stuck then some decided else none))

/-! ## HP receive (R497) -/

/-- The highest HP queue that holds a frame. -/
def hpTop (s : State) : Option (Nat × QEnt) :=
  ((List.range 8).reverse.findSome? fun q => (queueOf s 104 q).head?.map fun x => (q, x))

/-- The receive completion of a frame (Table 18.7). -/
def hpRxBytes (f : Frame) (idx q : Nat) : List Byte :=
  recHead f ++ leBytes 4 f.carry.toNat ++ leBytes 2 idx ++ leBytes 1 q ++ leBytes 1 (f.colour.code + 4 * b2n f.ce) ++ leBytes 8 0

/-- Deliver the frame in front of an HP queue into a buffer: counted, completed and its cells given up. Where the
windows refuse the buffer, it is used up, and whether the frame is lost is a free value. A frame with a cell that
failed is dropped as a carry failure (Table 21.2). -/
def hpDeliver (s : State) (q : Nat) (x : QEnt) (f : Frame) (buf : Nat) : State :=
  let n := (carried f.content).length
  if f.bad then let (k, s) := draw s; carryFail (removeEnt s 104 q x.h) 104 x.h f (Config.freeWord k)
  else if n > fld s R_BRG_HP_CFG 0 14 then statInc (dropAt (removeEnt s 104 q x.h) 104 x.h) R_BRG_HP_RX_BIG
  else
    let idx := ringCons s 2
    let (ok, s) := dmaWrite s buf (carried f.content)
    let s := ringStep s 2 R_BRG_RING_CONS
    if ok then
      let (done, s) := dmaWrite s (ringBase s 3 + 32 * ringProd s 3) (hpRxBytes f idx q)
      let s := if done then ringStep s 3 R_BRG_RING_PROD else s
      let s := stat2AddI (stat2AddI s R_PORT_TXF 8 1) R_PORT_TXO 8 n
      releaseRef (removeEnt s 104 q x.h) x.h
    else
      let (k, s) := draw s
      if Config.freeBit k then releaseRef (removeEnt s 104 q x.h) x.h else s

/-- HP_RX_DELIVER (R497): the next frame in strict priority, with `buf` the address the free-buffer entry holds. A
sequenced frame passes its resequencer first (R265). Outside the modes of Table 1.2 frames wait (R27, R212).
Mark: DEDUCED (log entry 55). -/
def execHpRxDeliver (buf : BitVec 64) (s : State) : Host.Outcome State Fault Refusal :=
  .next (whenRunning (begin_ s) fun s =>
    if ! hpModes s || ! ringHas s 2 || ! ringOn s 3 || ! dmaUp s || decide (ringFree s 3 < 1) then s
    else match judgeD s false (ringBase s 2 + 8 * ringCons s 2) 8 with
      | some (r, a) => refuse s .D r a false
      | none =>
        let s := dmaGood s
        match hpTop s with
        | none => s
        | some (q, x) =>
          match frameOf s x.h with
          | none => s
          | some f =>
            if needsRsq x f then
              let s := rsqDequeue (removeEnt s 104 q x.h) f.stream 104 x.h (f.seq.getD 0)
              match queueOf s 104 q with
              | y :: _ => (match y.rsq, frameOf s y.h with
                | true, some g => hpDeliver s q y g buf.toNat
                | _, _ => s)
              | [] => s
            else hpDeliver s q x f buf.toNat)

/-! ## DMA failures (R499, R511) -/

/-- DMA_TIMEOUT (R499, R511): a read piece failed. What it served completes with RETRY, where a completion can still
be written; a command packet is fetched again.
Mark: DEDUCED (log entry 55). -/
def execDmaTimeout (op : DmaOp) (s : State) : Host.Outcome State Fault Refusal :=
  .next (whenRunning (begin_ s) fun s =>
    if onSpi s then s else
    let n := s.bridge.dmaFails + 1
    let s := { statInc s R_BRG_D_ERR with bridge := { s.bridge with dmaFails := n } }
    let s := if n ≥ 8 ∧ ¬ hostLost s then raise (setFld s R_BRG_STAT 16 1 1) .hostLost else s
    if hostLost s then s
    else
      match op with
      | .hpTx d => if hpReady s then hpComplete s d .retry 0 else s
      | .job e => (match (engOf s e).job with
        | some j => if j.vault then s else completeJob s e false j.desc .retry 0 0 0
        | none => s)
      | .fetch => s
      | .other => s)

/-! ## MSI-X (R508) -/

/-- The vector of source `k` (BRG_VMAP). -/
def vecOf (s : State) (k : Nat) : Nat := fld s (R_BRG_VMAP + 4 * (k / 4)) (8 * (k % 4)) 6

/-- The sources of a vector that are pending, unmasked and not yet announced.
Mark: PRESUMED (log entry 56). -/
def vecOwed (s : State) (v : Nat) : List Nat :=
  (List.range 256).filter fun k =>
    bit s (R_EVT_PEND + 4 * (k / 32)) 0 (k % 32) && bit s (R_EVT_EN + 4 * (k / 32)) 0 (k % 32) &&
    ! s.bridge.announced.getLsbD k && decide (vecOf s k = v)

/-- BEATS beats have passed since the vector's last message (R508). -/
def vecRested (s : State) (v : Nat) : Bool :=
  match tget 0 s.bridge.msixLast v with
  | 0 => true
  | t + 1 => decide ((s.time.beatCnt.toNat + 2 ^ 32 - t) % 2 ^ 32 ≥ fld s R_BRG_MOD 0 8)

/-- MSIX_SEND (R508): the message of a vector with a source to announce goes out, or its pending bit is set while the
vector or the function is masked.
Mark: PRESUMED (log entry 56). -/
def execMsixSend (vec : Fin 64) (fmask : Bool) (s : State) : Host.Outcome State Fault Refusal :=
  .next (whenRunning (begin_ s) fun s =>
    let v := vec.val
    let owed := vecOwed s v
    let m : BitVec 64 := BitVec.ofNat 64 (2 ^ v)
    if fld s R_BRG_CFG 0 2 ≠ 2 ∨ ! dmaUp s ∨ (owed = [] ∧ ¬ s.bridge.msixPend.getLsbD v) ∨ ! vecRested s v then s
    else
      let ann := owed.foldl (fun (x : BitVec 256) k => x ||| BitVec.ofNat 256 (2 ^ k)) s.bridge.announced
      if fmask ∨ bitsOf (msixWord s (4 * v + 3)) 0 1 = 1 then
        { s with bridge := { s.bridge with announced := ann, msixPend := s.bridge.msixPend ||| m } }
      else
        { s with
          bridge := { s.bridge with announced := ann, msixPend := s.bridge.msixPend &&& ~~~ m,
                                    msixLast := tset 0 s.bridge.msixLast v (s.time.beatCnt.toNat + 1) },
          out := { s.out with msix := s.out.msix ++ [v] } })

/-! ## The link (R489, R490, R623) -/

/-- LOCKED_READ_TLP (R489): answered with Unsupported Request. -/
def execLockedReadTlp (s : State) : Host.Outcome State Fault Refusal :=
  .next (
    let s := begin_ s
    if accepts s .H && ! onSpi s then statInc { s with out := { s.out with refused := true } } R_BRG_LOCKED_TLP else s)

/-- PCIE_LINK_UP (R623): LINK, WIDTH and RATE of BRG_STAT. -/
def execPcieLinkUp (width : Fin 3) (rate : Fin 4) (s : State) : Host.Outcome State Fault Refusal :=
  .next (
    let s := begin_ s
    if accepts s .H && ! onSpi s && decide (width.val ≠ 0) && decide (rate.val ≠ 0) then
      setFld (setFld (setFld s R_BRG_STAT 0 1 1) R_BRG_STAT 4 2 width.val) R_BRG_STAT 1 2 rate.val
    else s)

/-- The bulk jobs of the normal world are dropped without a completion (R490): their completion ring lies behind the
link.
Mark: DEDUCED (log entry 42). -/
def dropJobs (s : State) : State :=
  [0, 1].foldl (fun s e =>
    match (engOf s e).job with
    | some j => if j.vault then s else setJobOn (setEng s e { engOf s e with job := none }) e false
    | none => s) s

/-- The requests of a bridge reset (R534): none is left accepted or queued. -/
def dropRequests (s : State) : State :=
  let s := { s with disp := { s.disp with spiReq := [], ringReq := [], spiRsp := [], gateWaits := [] }, hlb := { s.hlb with push := none } }
  dropBatch s fun b => decide (b.1 = .ring)

/-- BRIDGE_RESET (R490, R506, R534).
Mark: DEDUCED (log entry 23). -/
def execBridgeReset (s : State) : Host.Outcome State Fault Refusal :=
  .next (
    let s := begin_ s
    if accepts s .H && ! onSpi s then
      let s := dropRequests (dropJobs s)
      let s := (List.range 8).foldl (fun s r => setFld s (R_BRG_RING_CFG + 0x20 * r) 31 1 0) s
      let s := setFld (setFld (setFld s R_BRG_STAT 0 1 0) R_BRG_STAT 4 2 0) R_BRG_STAT 1 2 0
      let s := { s with bridge := { s.bridge with msixTab := [], msixPend := 0, msixLast := [], txWait := none } }
      semForceAll s fun o => decide (1 ≤ o) && decide (o ≤ 0xEF)
    else s)

/-! ## A pipeline without progress (R254, R506) -/

/-- PIPE_RESET (R254): a pipeline that holds frames it makes no progress with is reset; its tables are kept. The frames
in it that wait for a key are abandoned with the others. -/
def execPipeReset (p : Fin 4) (s : State) : Host.Outcome State Fault Refusal :=
  .next (whenRunning (begin_ s) fun s =>
    if ! s.net.stuck.any fun x => decide (x.p = p.val) then s
    else
      let mine := (inPipes s).filter fun x => decide (x.p = p.val)
      let away (w : LaWait) : Bool := match w with
        | .tx f => decide (f.pipe.val = p.val)
        | .rx a _ _ _ => decide (a.p = p.val)
      let s := { s with
        net := { s.net with stuck := s.net.stuck.filter fun x => decide (x.p ≠ p.val) },
        cipher := { s.cipher with waits := s.cipher.waits.filter fun x => ! away x.2 } }
      let s := mine.foldl (fun s x => fcCheck (statIncI s R_SW_I_OVF x.ing) x.ing) s
      let s := statAddI (statInc s R_SW_PIPE_RESET) R_SW_RECLAIMED 0 (mine.foldl (fun a x => a + x.cells) 0)
      semForceAll (raise s .pipeReset) fun o => decide (o = 0xF0 + p.val))

end Sys2Proof.Machine
end

