-- ==== Sys2Proof/Machine/Startup.lean ====
section
/-! DEFINITION. Resets and the eight steps of start-up (chapter 4). -/

namespace Sys2Proof.Machine

/-! ## Resets (R7, R109) -/

/-- A cold reset with VCORE on: start-up begins at step 0. LOW_ENERGY, in the VBKP domain, is not touched (R7). -/
def coldFull (s : State) : State :=
  let s := coldCore s
  lanesFollow { s with power := { s.power with phase := .startup, cur := .dormant, sleepIn := .dormant } }

/-- COLD_RESET (R7, R621): the first power-good of VCORE after it has been off, or RESET_N low. A pulse of
50 to 100 ns resets or is ignored: a free value. Without VIO, asleep, in the rail phase and on the entry island, RESET_N
is ignored (Table 2.5).
Mark: DEDUCED (log entry 22). -/
def execColdReset (cause : ColdCause) (s : State) : Host.Outcome State Fault Refusal :=
  let s := begin_ s
  .next (match cause with
    | .powerGood => if s.power.phase = .railPhase ∧ s.power.railWait = some 0 then railGood s 0 else s
    | .resetN ns =>
      if ! vioUp s ∨ ns < 50 then s
      else
        let (k, s) := draw s
        if ns ≥ 100 ∨ Config.freeBit k then coldFull s else s)

/-- WARM_RESET (R109): only a cold reset leaves a halted start-up, and the entry island has no VCORE. -/
def execWarmReset (s : State) : Host.Outcome State Fault Refusal :=
  let s := begin_ s
  .next (if s.power.phase = .awake ∨ s.power.phase = .startup then warmCore s else s)

/-! ## Steps -/

/-- Start-up stands at a step that can run now: on the external rails, or on the entry island for steps 0 to
3 (R107, R108). -/
def atStep (s : State) (k : Nat) : Bool :=
  decide (s.boot.step = k) && (decide (s.power.phase = .startup) || (decide (s.power.phase = .island) && decide (k ≤ 3)))

/-- Run a step's work while start-up stands at it. -/
def runStep (k : Nat) (f : State → State) (s : State) : Host.Outcome State Fault Refusal :=
  let s := begin_ s
  .next (if atStep s k then f s else s)

/-- The step is complete. -/
def toStep (s : State) (k : Nat) : State := { s with boot := { s.boot with step := k } }

/-- A step failed: FAILED, and FSTEP names the first (R110). -/
def stepFailed (s : State) (k : Nat) : State :=
  if s.boot.failed then s else { s with boot := { s.boot with failed := true, fstep := k } }

/-- Start-up is halted at a step (R110): the lanes stay off (Table 4.2).
Mark: DEDUCED (log entry 22). -/
def haltAt (s : State) (k : Nat) : State :=
  let s := stepFailed s k
  lanesFollow { s with power := { s.power with phase := .halted } }

/-- What SYS_PINSTAT shows of rail 2, which a RESET_N leaves as it is: the spill store powered, or its rail failed
(R64, R69); a rail 2 that the strap leaves off goes off (R63), and a wanted one is brought up. -/
def spillRail (s : State) : State :=
  if ! bit s R_SYS_STRAP 0 2 then railOff s 2
  else if s.power.en.getLsbD 2 && s.power.pg.getLsbD 2 then orReg s R_SYS_PINSTAT 0 2
  else if s.power.dead.getLsbD 2 then orReg s R_SYS_PINSTAT 0 4
  else railNext s (railMode s)

/-- The straps as sampled after a cold reset (R60 to R65, Table 18.10).
Mark: DEDUCED (log entry 13). -/
def sampleStraps (s : State) (straps : BitVec 4) (rbiasOk : Bool) : State :=
  let h := straps.toNat % 4
  let s := wr s R_SYS_STRAP (straps.setWidth 32)
  let s := if h ≥ 2 then orReg s R_SYS_PINSTAT 0 1 else s
  let s := spillRail (setFld s R_BRG_STAT 9 1 (b2n (decide (h = 1))))
  if rbiasOk then s
  else [4, 5, 6, 7].foldl (fun s p => orReg s R_PORT_STAT p 0x200) (orReg s R_SYS_PINSTAT 0 8)

/-- STARTUP_PG (R107, R110). -/
def execStartupPg (straps : BitVec 4) (pllLocked rbiasOk : Bool) (s : State) : Host.Outcome State Fault Refusal :=
  runStep 0 (fun s =>
    let s := if s.boot.warm then s else sampleStraps s straps rbiasOk
    if pllLocked then toStep s 1 else haltAt s 0) s

/-! ## Fuses (R114 to R119) -/

/-- The class of a fuse word (Table 4.3): 0 SEC, 1 KEY, 2 CFG. -/
def fuseClass (k : Nat) : Nat := if k < 4 then 0 else if k < 32 then 1 else 2

/-- Resolve a word of its three reads: its value, whether MARGINAL, whether INVALID (R114 to R117).
Mark: DEDUCED (log entry 25). -/
def fuseResolve (k : Nat) (t : FuseTriple) : Word × Bool × Bool :=
  if t.n.data = t.lo.data ∧ t.lo.data = t.hi.data ∧ t.n.ecc.val = 0 then (t.n.data, false, false)
  else if fuseClass k = 0 then
    let v := t.n.data ||| t.lo.data ||| t.hi.data
    (if t.n.ecc.val = 1 then v ||| t.n.corrected else v, true, false)
  else if fuseClass k = 1 then
    if t.n.ecc.val ≠ 2 ∧ t.lo.ecc.val ≠ 2 ∧ t.hi.ecc.val ≠ 2 ∧ t.n.corrected = t.lo.corrected ∧ t.n.corrected = t.hi.corrected then
      (t.n.corrected, true, false)
    else (0, false, true)
  else if t.n.ecc.val = 2 then (0, false, true) else (t.n.corrected, true, false)

/-- A fuse word nobody read: unburnt. -/
def FuseTriple.blank : FuseTriple := { n := ⟨0, 0, 0⟩, lo := ⟨0, 0, 0⟩, hi := ⟨0, 0, 0⟩ }

/-- The three reads of word `k`. -/
def readOf (l : List FuseTriple) (k : Nat) : FuseTriple := l.getD k FuseTriple.blank

/-- A flag register word of 32 fuse words. -/
def flagWord (f : Nat → Bool) (k : Nat) : Word :=
  BitVec.ofNat 32 ((List.range 32).foldl (fun a b => if f (32 * k + b) then a + 2 ^ b else a) 0)

/-- SYS_FUSE_MARG, SYS_FUSE_INV and SYS_FUSE_STAT of a read (R118, R129). -/
def setFuseFlags (s : State) (marg inv : Nat → Bool) : State :=
  let s := (List.range 4).foldl (fun s k =>
    wr (wr s (R_SYS_FUSE_MARG + 4 * k) (flagWord marg k)) (R_SYS_FUSE_INV + 4 * k) (flagWord inv k)) s
  let cnt (f : Nat → Bool) : Nat := ((List.range 128).filter f).length
  let low := match (List.range 128).find? fun k => marg k || inv k with
    | some k => k
    | none => 0xFF
  wr s R_SYS_FUSE_STAT (fieldVal 16 8 (cnt marg) ||| fieldVal 8 8 (cnt inv) ||| fieldVal 0 8 low)

/-- SYS_LIFECYCLE and SYS_UID show the values in use (R128, R130). -/
def showFuses (s : State) : State :=
  let w1 := fuseWord s 1
  let w2 := fuseWord s 2
  let any (w : Word) (lo : Nat) : Nat := b2n (decide (bitsOf w lo 8 ≠ 0))
  let s := wr s R_SYS_LIFECYCLE (fieldVal 10 6 (fwMin s) ||| fieldVal 9 1 (any w2 8) ||| fieldVal 8 1 (any w2 0) |||
    fieldVal 7 1 (any w1 8) ||| fieldVal 6 1 (b2n (dbgCoreDis s)) ||| fieldVal 0 2 (lifecycle s).code)
  let u := uidBytes s
  (List.range 4).foldl (fun s k => wr s (R_SYS_UID + 4 * k) (BitVec.ofNat 32 (ofLeBytes ((u.drop (4 * k)).take 4)))) s

/-- The values that govern from now on (R119).
Mark: DEDUCED (log entry 25). -/
def governFuses (s : State) : State :=
  { s with fuses := { s.fuses with govLc := lifecycle s, govFwMin := fwMin s, govDbg := dbgCoreDis s } }

/-- A read of word `k` of the array: the bits that commands have burnt read 1 at the normal level, so that no burn is
ever undone (R120, R123, R126).
Mark: DEDUCED (log entry 25). -/
def arrayRead (s : State) (reads : List FuseTriple) (k : Nat) : FuseTriple :=
  let t := readOf reads k
  let b := tget 0 s.fuses.burnt k
  { t with n := { t.n with data := t.n.data ||| b, corrected := t.n.corrected ||| b } }

/-- STARTUP_FUSE (R114, R109): a warm reset reads no fuse. -/
def execStartupFuse (reads : List FuseTriple) (temp : Int) (s : State) : Host.Outcome State Fault Refusal :=
  runStep 1 (fun s =>
    let s := if s.boot.warm then s else
      let r (k : Nat) := fuseResolve k (arrayRead s reads k)
      let s := { s with
        fuses := { s.fuses with
          words := tsetMany 0 [] ((List.range 128).map fun k => (k, (r k).1)),
          invalid := tsetMany false [] ((List.range 128).map fun k => (k, (r k).2.2)) },
        boot := { s.boot with fusesDone := true }, bgs := { s.bgs with tempCur := temp, tempRef := temp, tempLast := temp } }
      governFuses (showFuses (setFuseFlags s (fun k => (r k).2.1) fun k => (r k).2.2))
    toStep s 2) s

/-- STARTUP_SELFTEST (R107, R110): a test that fails twice halts start-up; a retry is recorded. -/
def execStartupSelftest (firstOk secondOk : Bool) (s : State) : Host.Outcome State Fault Refusal :=
  runStep 2 (fun s =>
    let s' := { s with boot := { s.boot with vaultBad := false } }
    if s.boot.vaultBad then haltAt s' 2
    else if firstOk then toStep s 3
    else if secondOk then toStep (queueEntry s (.tamper 4 0)) 3
    else haltAt s 2) s

/-- The root is missing (R124): ROOT_ABSENT, the step failed, and in FIELD the cause ROOT_MISSING. Outside FIELD a tamper
that zeroed it is no QUARANTINE cause (Table 4.6, R75). -/
def rootMissing (s : State) : State :=
  let s := stepFailed s 3
  let s := { s with
    boot := { s.boot with rootAbsent := true },
    vault := { s.vault with rootPresent := false, slots := [], storeOk := false, slotsReady := true } }
  if lifecycle s = .field then causeArises s .rootMissing
  else { s with boot := { s.boot with qpend := s.boot.qpend.filter fun c => decide (c ≠ .tamper) } }

/-- The root passes its check: its memory and that of its check value, which `rootOk` and `checkOk` stand for, read as
written, and the value is that of R334. -/
def rootGood (s : State) (rootOk checkOk : Bool) : Bool :=
  s.vault.rootPresent && rootOk && checkOk && decide (checkOf s.vault.root = s.vault.rootCheck)

/-- STARTUP_ROOT (R124, R334, R343, R121): the root check, the slot store and the fuse key. Under LOW_ENERGY
start-up waits here in APPROACH (R108). -/
def execStartupRoot (rootOk checkOk storeOk : Bool) (s : State) : Host.Outcome State Fault Refusal :=
  runStep 3 (fun s =>
    let s :=
      if ! rootGood s rootOk checkOk then rootMissing s
      else if ! storeOk then rootMissing (tamperNow s 5)
      else
        let s := deriveSlots s
        { s with vault := { s.vault with slotsReady := true, storeOk := true } }
    let s := loadFuseKey s
    let s := toStep s 4
    if s.power.phase = .island then { s with power := { s.power with cur := .approach } } else s) s

/-- The firmware key hash of the fuses: words 24 to 31 as one string of 32 bytes (R640). -/
def fwHash (s : State) : List Byte := (List.range 8).flatMap fun j => leBytes 4 (fuseWord s (24 + j)).toNat

/-- An image is signed under the key of the fuses: the SHA-256 of its public key is the hash of words 24 to 31, none of
which is INVALID, and its signature verifies (R111, R116).
Mark: DEDUCED (log entry 58). -/
def imageSigned (s : State) (i : FwImage) : Bool :=
  i.sigOk && decide (sha256 i.pub = fwHash s) && ! (List.range 8).any fun j => tget false s.fuses.invalid (24 + j)

/-- A firmware slot passes (R111, R126). -/
def imageOk (s : State) (i : FwImage) : Bool :=
  decide (i.len ≤ 1048576) && imageSigned s i && decide (fwMin s ≤ i.svn) && decide (i.svn ≤ 32)

/-- The firmware slot in use comes from a slot: A or B. -/
def runSlot (s : State) (b fallback : Bool) (i : FwImage) : State :=
  { s with boot := { s.boot with slotB := b, fallback := fallback, svn := i.svn, version := i.version, step := 5 } }

/-- STARTUP_FW (R111): the active slot, else the other one, else the recovery service; then step 5 does not
run. `a` and `b` are what the slots hold where no FW_LOAD has written them.
Mark: DEDUCED (log entry 22). -/
def execStartupFw (a b : FwImage) (s : State) : Host.Outcome State Fault Refusal :=
  runStep 4 (fun s =>
    let a := s.fuses.slotA.getD a
    let b := s.fuses.slotB.getD b
    let act := if s.fuses.selB then b else a
    let oth := if s.fuses.selB then a else b
    if imageOk s act then runSlot s s.fuses.selB false act
    else if imageOk s oth then runSlot s (! s.fuses.selB) true oth
    else
      let s := causeArises (stepFailed s 4) .fwSig
      toStep { s with boot := { s.boot with recovery := true } } 6) s

/-- STARTUP_LANES (R112, R246, R278, R309, R483, R532): the map, when the flash gives it (`mapOk`) and its hash is the
one of the VBKP domain, is applied and the lanes are released; without a
valid map they stay receive-only, and only the static-safe set of the last valid map is placed.
Mark: DEDUCED (log entry 22). -/
def execStartupLanes (mapOk : Bool) (s : State) : Host.Outcome State Fault Refusal :=
  runStep 5 (fun s =>
    let s := if mapOk && decide (s.vault.mapHash = sha256 (mapBytes s.map)) then applyMap { s with boot := { s.boot with mapValid := true } }
             else applySafe (stepFailed s 5)
    lanesFollow (toStep (startTrackers s) 6)) s

/-! ## The ledger at start-up (R42, R441, R443, R448) -/

/-- The newest SESSION OPEN or CLOSE entry of a role. -/
def lastSession (s : State) (role : Nat) : Option Entry :=
  s.ledger.ring.foldl (fun o x => match x.2 with
    | .entry e => match e.payload with
      | .session ev r _ _ _ _ =>
        if r = role ∧ ev ≠ 1 then (match o with
          | some f => if e.seq > f.seq then some e else o
          | none => some e)
        else o
      | _ => o
    | _ => o) none

/-- A session left open by the reset is closed with reason RESET: its entry, and SYS_SESS_STAT (R37, R42, R44). -/
def closeLost (s : State) (role : Nat) : State :=
  match lastSession s role with
  | some e => match e.payload with
    | .session 0 r id _ idle _ => recordClose (queueEntry s (.session 2 r id 1 idle 0)) 1
    | _ => s
  | none => s

/-- An interrupted program makes its position VOID and consumes its sequence (R441). A position that was left partly
programmed by a failed program has used its sequence already. -/
def voidTail (s : State) : State :=
  let q := s.ledger.nextSeq
  let void (s : State) (q : Nat) : State :=
    { s with ledger := { s.ledger with ring := tset LPos.empty s.ledger.ring (q % ringSize) .void } }
  if 0 < q ∧ tget LPos.empty s.ledger.ring ((q - 1) % ringSize) = .partial_ then void s (q - 1) else useSeq (void s q)

/-- STARTUP_LEDGER (R441 to R443, R42, R448): `chainBreak` is the place among the newest 64 entries at which the chain
is broken. With the root missing there is no chain to read. -/
def execStartupLedger (chainBreak : Option Nat) (tailDirty : Bool) (s : State) : Host.Outcome State Fault Refusal :=
  runStep 6 (fun s =>
    let s :=
      if ! ledgerLive s then s
      else
        let s := match chainBreak with
          | none => s
          | some k => ledgerFault (stepFailed s 6) (max s.ledger.oldest (s.ledger.nextSeq - 64) + k - 1)
        let s := if tailDirty then voidTail s else s
        let s := closeLost (closeLost (closeLost s 1) 2) 3
        let s := boundaryCloses true (ltimeNow s + 1) s
        if s.ledger.lastGood.isSome then s else commitAll s
    toStep s 7) s

/-- L is restored and T resumes 65,536 beyond the last save (R373). -/
def laRestore (s : State) : State :=
  s.cipher.saved.foldl (fun s x =>
    let t := min (2 ^ 64 - 1) (x.2.2 + 65536)
    let put (s : State) (lo hi v : Nat) : State := wri (wri s lo x.1 (BitVec.ofNat 32 v)) hi x.1 (BitVec.ofNat 32 (v / 2 ^ 32))
    put (put s R_CIPH_LA_L_LO R_CIPH_LA_L_HI x.2.1) R_CIPH_LA_T_LO R_CIPH_LA_T_HI t) s

/-- Engage every bolt whose last command was ENGAGE and which does not read ENGAGED (R482). -/
def boltsResume (s : State) : State :=
  (bolts s).foldl (fun s b =>
    if (boltOf s b).lastEngage ∧ (boltOf s b).st ≠ .engaged ∧ ¬ (boltKind s b = 1 ∧ s.power.recorded = .drive) then
      requestMove s b true else s) s

/-- The vault's random generator seeds the back-off generator of every lane (R199). -/
def lanesSeed (s : State) : State :=
  (List.range 96).foldl (fun s n => let (k, s) := draw s; setLane s n { laneOf s n with rng := Config.freeWord k }) s

/-- STARTUP_MODE (R75, R99, R153, R373, R444, R541, R275): the derived mode is entered and the command channels
open; the Helber frame sequence starts from a random value.
Mark: DEDUCED (log entry 15). -/
def execStartupMode (s : State) : Host.Outcome State Fault Refusal :=
  runStep 7 (fun s =>
    let m := deriveMode s
    let c := startCause s
    let kept := keptCause s
    let warm := s.boot.warm
    let s := { s with power := { s.power with phase := .awake, riseAuto := false }, boot := { s.boot with qpend := [] } }
    let s := laRestore s
    let s := if warm then s else domsFollow s
    let s :=
      if m = .quarantine ∧ c = kept then
        let s := modeCore { s with power := { s.power with qcause := c } } .quarantine
        let s := { s with ledger := { s.ledger with sealed := true } }
        if standstill s then setImmob s true else { s with vault := { s.vault with immobPend := ! s.vault.immob } }
      else if m = .quarantine then quarantine s c
      else
        let s := modeCore s m
        if warm then s else { s with ledger := { s.ledger with sealed := false } }
    let (k, s) := draw s
    let s := { s with hlb := { s.hlb with seq := Config.freeWord k } }
    smpInit (lanesSeed (boltsResume s))) s

/-! ## FUSE_RECHECK (R118) -/

/-- One word of a re-read against the value in use: the value from now on and whether it drifts.
Mark: DEDUCED (log entry 25). -/
def fuseCompare (s : State) (k : Nat) (v : Word) (inv : Bool) : Word × Bool :=
  let old := fuseWord s k
  if fuseClass k = 0 then (old ||| v, decide (old &&& ~~~ v ≠ 0))
  else (old, decide (v ≠ old) || decide (inv ≠ tget false s.fuses.invalid k))

/-- FUSE_RECHECK (R118, R570): the re-check that runs, or one that starts now because the temperature has moved by
30 °C from REF; tightened SEC bits are adopted, every other change is kept back and flagged. R118 does not say whether
several words that drift in one re-check raise FUSE_DRIFT once or once each: the model raises it once.
Mark: DESIGN CHOICE (log entry 25). -/
def execFuseRecheck (reads : List FuseTriple) (temp : Int) (s : State) : Host.Outcome State Fault Refusal :=
  .next (whenRunning (begin_ s) fun s =>
    if ¬ s.bgs.fuseRun ∧ (temp - s.bgs.tempLast).natAbs < 300 then { s with bgs := { s.bgs with tempCur := temp } }
    else
      let r (k : Nat) := fuseResolve k (arrayRead s reads k)
      let cmp (k : Nat) := fuseCompare s k (r k).1 (r k).2.2
      let drift := (List.range 128).filter fun k => (cmp k).2
      let s' := { s with
        fuses := { s.fuses with words := tsetMany 0 s.fuses.words ((List.range 4).map fun k => (k, (cmp k).1)) },
        bgs := { s.bgs with tempCur := temp, tempRef := temp, tempLast := temp, fuseRun := false } }
      let s' := showFuses (setFuseFlags s' (fun k => (r k).2.1) fun k => (r k).2.2)
      let s' := drift.foldl (fun s k => orReg s (R_SYS_FUSE_DRIFT + 4 * (k / 32)) 0 (fieldMask (k % 32) 1)) s'
      let s' := drift.foldl (fun s k => if k < 4 then queueEntry s (.tamper 1 k) else s) s'
      if drift.isEmpty then s' else raise s' .fuseDrift)

end Sys2Proof.Machine
end

