-- ==== Sys2Proof/Machine/System.lean ====
section
/-! DEFINITION. The system commands of Table 19.3: firmware, lifecycle, SYS_RESET and the INSTALLER map. -/

namespace Sys2Proof.Machine

/-- The refusal of a host address named in a parameter: DENIED with the first forbidden address (R392, R393).
Mark: DEDUCED (log entry 58). -/
def Plan.hostDenied (r : Reason) (a : Nat) (write : Bool) : Plan :=
  { status := .denied, bytes := [], changes := false, act := fun s => (refuse s .D r a write, .denied, leBytes 8 a) }

/-- A MAKER command in SERVICE and DEPOT. -/
def judgeMaker : State → Nat → Option Status := judgeRight false false false true (inModes [.service, .depot])

/-- A MAKER command that the recovery service also takes in the HOST context (R528). -/
def judgeRecovery (s : State) (role : Nat) : Option Status := if s.boot.recovery then none else judgeMaker s role

/-! ## Firmware (R529, R530) -/

/-- An image has been read into a slot: it is what the slot holds from now on (R529). -/
def fillSlot (s : State) (b : Bool) (img : FwImage) : State :=
  if b then { s with fuses := { s.fuses with slotB := some img } } else { s with fuses := { s.fuses with slotA := some img } }

/-- A read that failed in part leaves the slot with its old content or, where bytes were written, with an image that does
not verify: a free value. -/
def spoilSlot (s : State) (b : Bool) (img : FwImage) : State :=
  let (k, s) := draw s
  if Config.freeBit k then fillSlot s b { img with sigOk := false } else s

/-- FW_LOAD (0x0120, R119, R529). `img` is what the LEN bytes at BUF are, `readOk` that all of them could be read. The
slot is written before the image is judged.
Mark: DEDUCED (log entry 58). -/
def execFwLoad (r : Req) (buf : BitVec 64) (len : Word) (img : FwImage) (readOk : Bool) (s : State) :
    Host.Outcome State Fault Refusal :=
  .next (dispatch 0x0120 r judgeRecovery (fun s =>
    let b := ! s.boot.recovery && ! s.boot.slotB
    let bad (st : Status) : Plan := { status := st, bytes := [], changes := true, act := fun s => (fillSlot s b img, st, []) }
    match judgeD s false buf.toNat len.toNat with
    | some (rs, a) => Plan.hostDenied rs a false
    | none =>
      if len.toNat > 1048576 then Plan.fail .range
      else if ! dmaUp s then Plan.fail .retry
      else if ! readOk then { status := .retry, bytes := [], changes := true, act := fun s => (spoilSlot s b img, .retry, []) }
      else if ! imageSigned s img then bad .integrity
      else if img.svn > 32 then bad .range
      else if img.svn < s.fuses.govFwMin then bad .stale
      else
        Plan.doBytes fun s =>
          let s := fillSlot s b img
          ({ s with fuses := { s.fuses with selB := b } }, leBytes 1 (b2n b) ++ leBytes 1 img.svn ++ leBytes 2 0)) s)

/-- Set bits of a fuse word for good, in the array and in the value in use (R119, R122, R530).
Mark: DEDUCED (log entry 25). -/
def burn (s : State) (k : Nat) (w : Word) : State :=
  showFuses { s with fuses := { s.fuses with
    words := tset 0 s.fuses.words k (fuseWord s k ||| w), burnt := tset 0 s.fuses.burnt k (tget 0 s.fuses.burnt k ||| w) } }

/-- The selector names the running slot. -/
def selectRunning (s : State) : State := { s with fuses := { s.fuses with selB := s.boot.slotB } }

/-- FW_COMMIT (0x0121, R126, R530): FW_MIN rises to the running image's security version, a thermometer of fuse bits.
Mark: DEDUCED (log entry 25). -/
def execFwCommit (r : Req) (s : State) : Host.Outcome State Fault Refusal :=
  .next (dispatch 0x0121 r judgeMaker (fun s =>
    if s.fuses.govFwMin = 32 then { status := .final, bytes := [], changes := true, act := fun s => (selectRunning s, .final, []) }
    else Plan.doBytes fun s =>
      let s := selectRunning s
      let s := if s.boot.svn ≤ fwMin s then s
        else
          let s := burn s 3 (BitVec.ofNat 32 (2 ^ s.boot.svn - 1))
          if s.boot.svn = 32 then monoFinal s 3 else s
      (s, leBytes 1 (fwMin s) ++ leBytes 3 0)) s)

/-! ## SYS_RESET (R534) -/

/-- SYS_RESET (0x0122): the warm reset it orders follows the delivery of its response. -/
def execSysReset (r : Req) (kind : BitVec 8) (s : State) : Host.Outcome State Fault Refusal :=
  let s := dispatch 0x0122 r judgeRecovery (fun _ =>
    if kind ≠ 0 then Plan.fail .badParam
    else Plan.do_ fun s => { s with boot := { s.boot with resetOrdered := some r.chan } }) s
  .next (if s.boot.resetOrdered = some .ring then { warmCore s with out := s.out } else s)

/-- SYS_RESET_DEADLINE (R534): on quad-SPI the reset comes 1 s after the response was queued. -/
def execSysResetDeadline (s : State) : Host.Outcome State Fault Refusal :=
  .next (whenRunning (begin_ s) fun s => if s.boot.resetOrdered = some .spi then warmCore s else s)

/-! ## Lifecycle (R121, R122) -/

/-- KS010 is committed to the slot store as it stands, with UCNT 0, before the FIELD group is burnt (R121). -/
def commitMakerKey (s : State) : State :=
  if lifecycle s = .field then s else setSlot (storeRecordOf s) 10 { slotOf s 10 with ucnt := 0 }

/-- The fuse bits of a lifecycle state (Table 4.4). -/
def lifecycleBits (target : Nat) : Word := fieldMask (8 * (target - 1)) 8

/-- LIFECYCLE_ADVANCE (0x0130, R122).
Mark: DEDUCED (log entry 25). -/
def execLifecycleAdvance (r : Req) (target : BitVec 8) (s : State) : Host.Outcome State Fault Refusal :=
  .next (dispatch 0x0130 r judgeMaker (fun s =>
    let t := target.toNat
    let now := s.fuses.govLc.code
    if t = 3 ∧ now = 3 then Plan.read []
    else if t > 3 ∨ (t ≠ 3 ∧ t ≠ now + 1) then Plan.fail .badParam
    else if t = 2 ∧ ! (s.vault.rootPresent && roleKeyOk s 1 && roleKeyOk s 2 && roleKeyOk s 3) then Plan.fail .denied
    else Plan.do_ fun s => burn (if t = 2 then commitMakerKey s else s) 0 (lifecycleBits t)) s)

/-! ## The INSTALLER map (R532, R548) -/

/-- The checks of MAP_LOAD once the bytes are read: the form of the map, then each record as its command would be
checked; none when the map is taken.
Mark: DEDUCED (log entry 58). -/
def mapPlan (s : State) (len : Nat) (m : List Cfg) (formOk : Bool) : Plan :=
  if ! formOk ∨ len ≠ mapLen m then Plan.fail .badParam
  else match mapCheck m 0 s with
    | some (i, op, st) =>
      { status := st, bytes := [], changes := false, act := fun s => (s, st, leBytes 4 i ++ leBytes 2 op ++ leBytes 2 0) }
    | none =>
      if epochFinal s then Plan.fail .final
      else Plan.doBytes fun s =>
        let s := commitChange (setMap s m)
        let (k, s) := draw s
        (schedule s [] .map, leBytes 6 (Config.freeNat k) ++ leBytes 2 0)

/-- MAP_LOAD (0x0140, R532): the records of the map at BUF; `formOk` says that the bytes are a header and records.
Mark: DEDUCED (log entry 58). -/
def execMapLoad (r : Req) (buf : BitVec 64) (len : Word) (m : List Cfg) (formOk readOk : Bool) (s : State) :
    Host.Outcome State Fault Refusal :=
  .next (dispatch 0x0140 r judgeInstaller (fun s =>
    match judgeD s false buf.toNat len.toNat with
    | some (rs, a) => Plan.hostDenied rs a false
    | none =>
      if len.toNat > 262144 then Plan.fail .range
      else if ! (readOk && dmaUp s) then Plan.fail .retry
      else mapPlan s len.toNat m formOk) s)

/-- The stored map as MAP_READ gives it: no bytes when none is stored. -/
def storedMap (s : State) : List Byte := if s.map = [] ∧ ! s.boot.mapValid then [] else mapBytes s.map

/-- MAP_READ (0x0141). -/
def execMapRead (r : Req) (buf : BitVec 64) (len : Word) (s : State) : Host.Outcome State Fault Refusal :=
  .next (dispatch 0x0141 r judgeHostAwake (fun s =>
    match judgeD s true buf.toNat len.toNat with
    | some (rs, a) => Plan.hostDenied rs a true
    | none =>
      let b := storedMap s
      if len.toNat < b.length then Plan.fail .range
      else if ! dmaUp s then Plan.fail .retry
      else Plan.doBytes fun s => ((dmaWrite s buf.toNat b).2, leBytes 4 b.length)) s)

end Sys2Proof.Machine
end

