-- ==== Sys2Proof/Machine/Background.lean ====
section
/-! DEFINITION. Background services, telemetry records, freeze, the snapshot and loopback (chapter 21). -/

namespace Sys2Proof.Machine

/-! ## Scrub (R568, R569, Table 21.2) -/

/-- Words of a scrub pass (Table 21.2). -/
abbrev scrubWords : Nat := 3127296

/-- Advance the scrub position; a new pass is counted (R568). -/
def scrubOn (s : State) (n : Nat) : State :=
  let p := s.bgs.scrubPos + min n (fld s R_BGS_CFG 0 12)
  let s := { s with bgs := { s.bgs with scrubPos := p % scrubWords } }
  statAddI s R_BGS_SCRUB_PASS 0 (p / scrubWords)

/-- Frames lose what an uncorrectable word held: the frame fails its carry check, and the cells from the failing one
to the end of its chain do not come back when it is freed. -/
def spoilFrame (s : State) (h cells : Nat) : State :=
  match frameOf s h with
  | some f => setFrame s h (some { f with bad := true, lost := max f.lost (min cells f.cells) })
  | none => s

/-- A cell header lost in both copies (Table 21.2).
Mark: DEDUCED (log entry 61). -/
def cellLost (s : State) (h : Option Nat) (k : Nat) : State :=
  let s := statInc s R_BGS_LEAK
  match h.bind fun h => (frameOf s h).map fun f => (h, f) with
  | some (h, f) => spoilFrame s h (f.cells - k)
  | none => { s with net := { s.net with leaked := s.net.leaked + 1 } }

/-- The map records that write an entry of a table: by key in the hash table, else by index.
Mark: DEDUCED (log entry 61). -/
def mapEntries (s : State) (table pipe place : Nat) (key : BitVec 64) : List Cfg :=
  s.map.filter fun c => match c with
    | .tblWrite t _ pm i e =>
      decide (t.toNat = table) && (decide (table > 2) || pm.getLsbD pipe) &&
      (if table = 2 then decide (keyNorm (((entryBits e).setWidth 128 : BitVec 128).setWidth 64) = key) else decide (i.toNat = place))
    | _ => false

/-- An entry of a table is invalidated, and its map record waits for the next FW window when it is STATIC. A lookup that
would have reached it misses (R246).
Mark: DEDUCED (log entry 61). -/
def entryLost (s : State) (table pipe place : Nat) : State :=
  if table = 2 then
    let e := hGet s pipe place
    if ! hValid e then s
    else
      let again := if hStatic e then mapEntries s 2 pipe place (hKey e) else []
      let s := hSet { s with tables := { s.tables with lostKeys := (pipe, hKey e) :: s.tables.lostKeys } } pipe place 0
      { s with bgs := { s.bgs with rewrite := s.bgs.rewrite ++ again } }
  else
    let again := mapEntries s table pipe place 0
    let s := if table = 3 ∧ bb (tget 0 s.tables.vlan place) 0 then
        { s with tables := { s.tables with lostVids := place :: s.tables.lostVids } } else s
    let s := if table < 2 then (pipeDelete s table place 0 pipe).2 else widePut s table place 0
    { s with bgs := { s.bgs with rewrite := s.bgs.rewrite ++ again } }

/-- A resequencer context is freed; what it holds is given up.
Mark: DEDUCED (log entry 38). -/
def ctxLost (s : State) (str e : Nat) : State :=
  match ctxOf s str e with
  | none => s
  | some c =>
    (c.slots.filterMap fun x => match x.2 with
      | some (.held h _) => some h
      | _ => none).foldl releaseRef (setCtx s str e none)

/-- A page of tag memory is written as zero; a page of the exchange file also sets STATE to IDLE. -/
def pageLost (s : State) (p : Nat) : State :=
  let t := (List.range 16).foldl (fun t i => tset 0 t (16 * p + i) 0) s.nfc.tag
  { s with nfc := { s.nfc with tag := t, ex := if p ≥ 256 then .idle else s.nfc.ex } }

/-- What Table 21.2 states for an uncorrectable word.
Mark: DEDUCED (log entry 61). -/
def wordLost (s : State) : UeWord → State
  | .pkt h => match h with
    | some h => spoilFrame s h 0
    | none => s
  | .pkth h k both => if both then cellLost s h k else s
  | .cmem => warmCore s
  | .entry t p place => entryLost s t p place
  | .policer n => polStart s n
  | .shaper e q =>
    let a := R_SCH_Q_BURST + 8 * q.val
    let s := setFldi s a e 16 16 (fldi s a e 0 16)
    { s with net := { s.net with shFrac := tset 0 s.net.shFrac (qn e q) 0 } }
  | .gate e => setEgr s e { egrOf s e with gRun := false, gLeft := 0 }
  | .rsq str e => ctxLost s str.toNat e
  | .tagPage p => pageLost s p
  | .vault => warmCore { s with boot := { s.boot with vaultBad := true } }

/-- Scrub skips the tag memory words inside an open exchange window (R568). -/
def skipped (s : State) : UeWord → Bool
  | .tagPage p => s.nfc.window && decide (256 ≤ p.val)
  | _ => false

/-- An error that scrub finds: counted, raised, and captured while no capture is held (R569).
Mark: DEDUCED (log entry 61). -/
def scrubErr (s : State) : ScrubErr → State
  | .ce => raise (statInc s R_BGS_SCRUB_CE) .scrubCe
  | .ue addr w =>
    if skipped s w then s
    else
    let s := raise (statInc s R_BGS_SCRUB_UE) .scrubUe
    let s := if bit s R_BGS_UE_HI 0 31 then s
      else wr (wr s R_BGS_UE_LO (addr.setWidth 32)) R_BGS_UE_HI (fieldVal 31 1 1 ||| fieldVal 0 8 (addr.toNat / 2 ^ 32))
    wordLost s w

/-! ## Calibration (R571, R572) -/

/-- A calibration result out of range. -/
def calFail (s : State) : State := raise (statInc s R_BGS_CAL_FAIL) .calFail

/-- Seconds of CAL_S in ticks. -/
def calTicks (s : State) : Nat := fld s R_BGS_CFG 16 12 * ticksPerS

/-- A round of calibration that is over begins again once per CAL_S (R571, R572).
Mark: DEDUCED (log entry 62). -/
def calRounds (s : State) : State :=
  let s := if s.bgs.calLane ≥ 96 ∧ s.bgs.calLaneAt ≤ s.time.ticks then
    { s with bgs := { s.bgs with calLane := 0, calLaneAt := s.time.ticks + calTicks s } } else s
  if s.bgs.calAdc ≥ 4 ∧ s.bgs.calAdcAt ≤ s.time.ticks then
    { s with bgs := { s.bgs with calAdc := 0, calAdcAt := s.time.ticks + calTicks s } } else s

/-- The lane that is calibrated next in this round: in ascending order, without those OFF, SHED or LATCHED; 96 when none is
left (R571). -/
def calNext (s : State) : Nat :=
  (((List.range 96).drop s.bgs.calLane).find? fun n => ! [LaneSt.off, .shed, .latched].contains (laneOf s n).st).getD 96

/-- One lane is calibrated; `ok` is that its trim lies in the range.
Mark: DEDUCED (log entry 62). -/
def laneCal (s : State) (ok : Bool) : State :=
  let n := calNext s
  let s := { s with bgs := { s.bgs with calLane := min 96 (n + 1) } }
  if n ≥ 96 ∨ ok then s else calFail s

/-- One FB channel is calibrated, unless the vault holds the ADC or the channel, either is gated, or a conversion of it
runs: it is then tried again.
Mark: DEDUCED (log entry 62). -/
def adcCal (s : State) (ok : Bool) : State :=
  let n := s.bgs.calAdc
  if n ≥ 4 || ! nwOpen s 4 || ! nwOpen s (6 + n) || (fbOf s n).conv.isSome then s
  else
    let s := { s with bgs := { s.bgs with calAdc := n + 1 } }
    if ok then s else calFail s

/-! ## Wear management (R573, R442) -/

/-- First position of the ring sector after the head's. -/
def nextSector (s : State) : Nat := (s.ledger.nextSeq + 63) / 64 * 64 % ringSize

/-- The sector after the head's sector holds something still.
Mark: DEDUCED (log entry 62). -/
def sectorDue (s : State) : Bool :=
  (List.range sectorEntries).any fun i => decide (tget LPos.empty s.ledger.ring (nextSector s + i) ≠ .empty)

/-- The sector after the head's is erased; the oldest entry is the first of the sector after it. -/
def sectorErase (s : State) : State :=
  let l := s.ledger
  let p := nextSector s
  let ring := (List.range sectorEntries).foldl (fun t i => tset LPos.empty t (p + i) .empty) l.ring
  { s with ledger := { l with ring := ring, oldest := max l.oldest ((l.nextSeq + 63) / 64 * 64 + sectorEntries - ringSize) } }

/-- An erase starts, unless one runs or the ledger's own is due first; it is suspended and resumed while flash requests
wait; at its end it is counted.
Mark: DEDUCED (log entry 62). -/
def wearStep (s : State) : WearEvt → State
  | .start k =>
    if s.bgs.eraseRun ∨ (if k.val = 0 then ¬ sectorDue s else sectorDue s) then s
    else { s with bgs := { s.bgs with eraseRun := true, eraseKind := k, suspended := false } }
  | .suspend => if s.bgs.eraseRun then { s with bgs := { s.bgs with suspended := true } } else s
  | .resume => { s with bgs := { s.bgs with suspended := false } }
  | .finish =>
    if ! s.bgs.eraseRun ∨ s.bgs.suspended then s
    else
      let s := if s.bgs.eraseKind = 0 then sectorErase s else s
      statInc { s with bgs := { s.bgs with eraseRun := false } } R_BGS_ERASE

/-- Sixty-four entries of the chain are verified; a pass that ends restarts its age. A chain found broken at the place
`brk` among them is a QUARANTINE cause (R443). -/
def chainStep (s : State) (brk : Option Nat) : State :=
  if ! ledgerLive s then s
  else match brk with
    | some k => ledgerFault { s with bgs := { s.bgs with chainRun := false, chainPos := 0 } } (s.ledger.oldest + s.bgs.chainPos + k - 1)
    | none =>
      let p := s.bgs.chainPos + 64
      if p ≥ s.ledger.nextSeq - s.ledger.oldest then
        { s with bgs := { s.bgs with chainRun := false, chainPos := 0, chainDone := s.time.ticks } }
      else { s with bgs := { s.bgs with chainRun := true, chainPos := p } }

/-- BGS_WINDOW_START (R567): the services run their shares of the window. A warm reset that an error orders ends it. -/
def execBgsWindowStart (work : BgsWork) (s : State) : Host.Outcome State Fault Refusal :=
  .next (whenRunning (begin_ s) fun s =>
    let s := work.errors.foldl (fun s e => whenRunning s fun s => scrubErr s e) (scrubOn s work.scrub)
    whenRunning s fun s =>
      let s := calRounds s
      let s := match work.lane with
        | some ok => laneCal s ok
        | none => s
      let s := match work.adc with
        | some ok => adcCal s ok
        | none => s
      let s := work.wear.foldl wearStep s
      match work.chain with
      | some brk => chainStep s brk
      | none => s)

/-! ## Telemetry (R574) -/

/-- A gauge of an accumulation. -/
def gaugeOf (t : Tab Gauge) (g : Nat) : Gauge := tget Gauge.zero t g

/-- One sample enters the accumulation; the first sets every minimum and maximum. -/
def accumulate (first : Bool) (t : Tab Gauge) (l : List Int) : Tab Gauge :=
  l.zipIdx.foldl (fun t x =>
    let g := gaugeOf t x.2
    tset Gauge.zero t x.2
      { min := if first then x.1 else min g.min x.1, max := if first then x.1 else max g.max x.1, sum := g.sum + x.1 }) t

/-- A signed number as two bytes. -/
def int2 (i : Int) : List Byte := leBytes 2 (int64 i)

/-- The bytes of a record (Table 21.4). -/
def telBytes (r : TelRec) : List Byte :=
  leBytes 4 r.beat.toNat ++ leBytes 2 r.samples ++ leBytes 2 r.missing ++ leBytes 8 0 ++
  (List.range 256).flatMap fun k =>
    let g := gaugeOf r.gauges k
    if r.samples = 0 then leBytes 6 0 else int2 g.min ++ int2 g.max ++ int2 (g.sum / r.samples)

/-- TELEM_RECORD (R574): the closed record is stored, of which the newest eight are kept. -/
def execTelemRecord (s : State) : Host.Outcome State Fault Refusal :=
  .next (whenRunning (begin_ s) fun s =>
    match s.bgs.telDue with
    | none => s
    | some r =>
      raise (statInc { s with bgs := { s.bgs with telDue := none, telRecords := (r :: s.bgs.telRecords).take 8 } } R_BGS_TELEM)
        .telemReady)

/-- TELEM_READ (0x0D04, R574).
Mark: DEDUCED (log entry 62). -/
def execTelemRead (r : Req) (buf : BitVec 64) (s : State) : Host.Outcome State Fault Refusal :=
  .next (dispatch 0x0D04 r judgeHostAwake (fun s =>
    match s.bgs.telRecords with
    | [] => Plan.fail .stale
    | t :: _ =>
      match judgeD s true buf.toNat 1552 with
      | some (x, a) => Plan.hostDenied x a true
      | none =>
        if ! dmaUp s then Plan.fail .retry
        else
          { status := .ok, bytes := [], changes := false,
            act := fun s => ((dmaWrite s buf.toNat (telBytes t)).2, .ok, leBytes 4 t.beat.toNat ++ leBytes 2 1552 ++ leBytes 2 0) }) s)

/-! ## Arming freeze (R580) -/

/-- The awake modes except DRIVE. -/
def armModes (m : Mode) : Bool := m.awake && decide (m ≠ .drive)

/-- FREEZE_ARM (0x0D01): its own entry is committed, then freeze is armed; an arm while armed restarts the window.
Mark: DEDUCED (log entry 63). -/
def execFreezeArm (r : Req) (window : BitVec 16) (s : State) : Host.Outcome State Fault Refusal :=
  .next (dispatch 0x0D01 r (judgeRight false false true true armModes) (fun s =>
    let w := window.toNat
    let role := curRole s
    if w = 0 ∨ w > 3600 then Plan.fail .range
    else if ledgerLive s ∧ ¬ ledgerRoomFor s 2 then Plan.noRoom
    else Plan.do_ fun s =>
      let s := commitEntry s (.freezeArm role r.session.toNat)
      { s with freeze := { s.freeze with armed := true, armRole := role, armEnd := s.time.ticks + w * ticksPerS } }) s)

/-- Arming ends. -/
def disarm (s : State) : State := { s with freeze := { s.freeze with armed := false } }

/-- FREEZE_DISARM (0x0D02). -/
def execFreezeDisarm (r : Req) (s : State) : Host.Outcome State Fault Refusal :=
  .next (dispatch 0x0D02 r (judgeRight false false true true Mode.awake) (fun _ => Plan.do_ disarm) s)

/-- FREEZE_WINDOW_END (R580): the window has ended. -/
def execFreezeWindowEnd (s : State) : Host.Outcome State Fault Refusal :=
  .next (whenRunning (begin_ s) fun s => if freezeArmed s then s else disarm s)

/-! ## Freeze (R581 to R583) -/

/-- FREEZE_IGNORED (R581, R67): a fall of FREEZE_N while freeze is not armed; in a freeze, and while VIO is off (Table
2.5), it has no effect. -/
def execFreezeIgnored (s : State) : Host.Outcome State Fault Refusal :=
  .next (
    let s := begin_ s
    if s.power.phase = .asleep ∨ s.power.phase = .railPhase ∨ ! vioUp s ∨ s.freeze.frozen ∨ freezeArmed s then s
    else raise (statInc s R_DBG_FRZ_IGN) .freezeIgnored)

/-- FREEZE_ENTER (R582): an armed fall of FREEZE_N gates every clock; the angle and compare outputs take their Freeze
state, low (Table 2.5).
Mark: DEDUCED (log entry 63). -/
def execFreezeEnter (s : State) : Host.Outcome State Fault Refusal :=
  .next (whenRunning (begin_ s) fun s =>
    if ! freezeArmed s then s
    else
      let s := statInc (orReg s R_DBG_FRZ_STAT 0 (fieldMask 30 1)) R_DBG_FRZ_CNT
      { s with freeze := { s.freeze with armed := false, frozen := true, shadow := 0, held := [] },
               wheels := { s.wheels with spd := 0, cmpo := 0, pulses := 0 } })

/-- The freeze lasted longer than SYNC_TMO sync intervals of a domain (Table 5.6). -/
def syncLost (s : State) (k n : Nat) : Bool :=
  let cfg := R_TIME_D_CFG + 0x40 * k
  let tmo := fld s cfg 20 4
  let l := fld s cfg 16 4
  if l < 8 then decide (n > tmo * 2 ^ l * ticksPerS) else decide (n * 2 ^ (16 - l) > tmo * ticksPerS)

/-- One domain at the restart: it advances, and LOCKED or ACQUIRE becomes HOLDOVER after a long freeze; a domain
already in HOLDOVER counts the time. -/
def domRestart (n : Nat) (s : State) (k : Nat) : State :=
  let s := domPass n s k
  let d := domOf s k
  if (d.st = .locked ∨ d.st = .acquire) ∧ syncLost s k n then
    raise (setDom s k { d with st := .holdover, good := 0, holdTicks := 0 }) .holdEnter
  else s

/-- Trigger targets that passed in freeze are late (R583 step 3, R149). -/
def trgRestart (old s : State) : State :=
  (List.range 32).foldl (fun s c =>
    if trgAct s c ≠ 0 ∧ ¬ trgPassed old c ∧ trgPassed s c then setPast s c true else s) s

/-- TIME_BEAT_CNT advances by the boundaries that passed, the running beat's and then one each nominal length; no task runs
for them (R583 step 4).
Mark: DEDUCED (log entry 63). -/
def beatsPassed (s : State) (n : Nat) : State :=
  let bt := beatNs s / 4
  let p := s.time.beatPos + n
  let past := decide (s.time.beatLen ≤ p)
  let r := p - s.time.beatLen
  let c := s.time.beatCnt.toNat + if past then 1 + r / bt else 0
  let s := { s with time := { s.time with
    beatPos := if past then r % bt else p, beatLen := if past then bt else s.time.beatLen,
    beatCnt := BitVec.ofNat 32 c, noCheck := true } }
  (List.range (c / 2 ^ 32)).foldl (fun s _ => raise s .beatWrap) s

/-- Timers on stopped clocks resume with their remaining time (R583 step 5): what is kept as a local tick moves on.
Mark: DEDUCED (log entry 63). -/
def timersResume (s : State) (n : Nat) : State :=
  let slot (x : Option RSlot) : Option RSlot := match x with
    | some (.held h t) => some (.held h (t + n))
    | y => y
  { s with
    bridge := { s.bridge with lease := s.bridge.lease.map fun x => (x.1, x.2 + n) },
    nfc := { s.nfc with reserve := s.nfc.reserve.map (fun x => (x.1, x.2 + n)), hostChal := s.nfc.hostChal.map fun x => (x.1 + n, x.2) },
    lanes := s.lanes.map fun x => (x.1, { x.2 with linNext := if x.2.linNext = 0 then 0 else x.2.linNext + n,
                                                    backEnd := if x.2.backoff then x.2.backEnd + n else x.2.backEnd }),
    ports := s.ports.map fun x => (x.1, { x.2 with wakeAt := if x.2.wakeAt = 0 then 0 else x.2.wakeAt + n }),
    cipher := { s.cipher with firings := s.cipher.firings.map (· + n) },
    hlb := { s.hlb with pulls := s.hlb.pulls.map fun x => (x.1, x.2 + n) },
    bgs := { s.bgs with chainDone := s.bgs.chainDone + n, calLaneAt := s.bgs.calLaneAt + n, calAdcAt := s.bgs.calAdcAt + n },
    net := { s.net with ctxs := s.net.ctxs.map fun x =>
      (x.1, x.2.map fun c => { c with slots := c.slots.map fun y => (y.1, slot y.2) }) } }

/-- Bolts, channels and trackers at the restart (R484): a running move ends as FAULT, channels whose excitation was
off in freeze start again, trackers restart (R465).
Mark: DEDUCED (log entry 63). -/
def wheelsRestart (s : State) : State :=
  let moving := (bolts s).filter fun b => boltMoving (boltOf s b)
  let s := ((List.range 4).filter (excOn s)).foldl (fun s n =>
    let s := setFb s n FbChan.init
    ((bolts s).filter fun b => decide (boltCh s b = n) && ! boltMoving (boltOf s b) && decide ((boltOf s b).st ≠ .fault)).foldl
      (fun s b => setBolt s b { boltOf s b with st := .unknown }) s) s
  let s := moving.foldl faultMove s
  startTrackers ((List.range 6).foldl spdSafe s)

/-- The restart after `n` ticks of freeze (R583, R281, R307, R409, R448).
Mark: DEDUCED (log entry 63). -/
def restart (s : State) (n : Nat) : State :=
  let old := s
  let s := { s with freeze := { s.freeze with frozen := false, shadow := 0, held := [] }, time := { s.time with ticks := s.time.ticks + n } }
  let s := old.freeze.held.foldl raiseN s
  let s := timersResume s n
  let s := beatsPassed ([0, 1, 2].foldl (domRestart n) s) n
  let s := wr s R_DBG_FRZ_DUR (BitVec.ofNat 32 (min (2 ^ 32 - 1) (n / ticksPerMs)))
  let s := trgRestart old (wheelsRestart s)
  let s := dropSpilled s fun _ => true
  let s := (List.range 104).foldl (fun s e => (List.range (nQueues e)).foldl (fun s q => launchMisses s e q) s) s
  let s := windowClose s
  commitAll (boundaryCloses true (ltimeNow s + 1) s)

/-- FREEZE_EXIT (R583, R621): a rise of FREEZE_N; the clocks restart no earlier than 1 us after the freeze.
Mark: DEDUCED (log entry 63). -/
def execFreezeExit (s : State) : Host.Outcome State Fault Refusal :=
  .next (
    let s := begin_ s
    if s.freeze.frozen then restart s (max s.freeze.shadow ticksPerUs) else s)

/-! ## The snapshot (R584, R585, R602) -/

/-- A key register of a bulk engine. -/
def keyReg (a : Nat) : Bool :=
  (List.range 2).any fun e => decide (R_CIPH_KEYW0 + 0x100 * e ≤ a) && decide (a < R_CIPH_KEYW0 + 0x100 * e + 32)

/-- The register a snapshot address reaches: windows show the instance of the H selectors, flat views any. -/
def snapHit (s : State) (off : Nat) : Option Hit :=
  if off % 65536 < 0x8000 then hit s .H off else hit s .V off

/-- A register word in the snapshot, without side effect; a selector shows its H copy. Except in MANUFACTURE the
vault's fields, its own registers, keys and vault-owned trigger channels read zero.
Mark: DEDUCED (log entry 64). -/
def snapReg (s : State) (off : Nat) : Word :=
  let open_ := decide (lifecycle s = .manufacture)
  match snapHit s off with
  | none => 0
  | some h =>
    let w := if selectors.contains h.a then selOf s .H h.a else regWord s h.a h.inst
    if open_ then w
    else if trgHidden s h.a || keyReg h.a then 0
    else w &&& ~~~ h.row.vs &&& ~~~ h.row.wo

/-- The regions of the snapshot (R584). -/
def snapRegion : Region → Bool
  | .rom => true | .vmem => true | .vpriv => true | .cmem => true | .pkt => true | .tagn => true | .tagx => true | .reg => true
  | .flOpen => false | .flClosed => false | .spill => false

/-- Captures are excluded: outside a freeze, at an unaligned address, and with SNAP_DIS for all but the identity (R584). -/
def capShut (s : State) (a : Nat) : Bool :=
  ! s.freeze.frozen || decide (a % 4 ≠ 0) || (snapDis s && decide (a ≠ regBase + R_SYS_IDENT) && decide (a ≠ regBase + R_SYS_REV))

/-- The offset of a spine address in the register space. -/
def regOff (a : Nat) : Nat := a - regBase

/-- The bytes of a stored frame in its cells: its record and what it carries (R251). -/
def frameBytes (f : Frame) : List Byte :=
  recHead f ++ leBytes 6 f.action.toNat ++ leBytes 2 0 ++ leBytes 4 f.carry.toNat ++ leBytes 4 0 ++ carried f.content

/-- The header of part `k` of a frame (Table 9.4). -/
def cellHead (h : Nat) (f : Frame) (k : Nat) : BitVec 64 :=
  let used := min 256 ((frameBytes f).length - 256 * k)
  let first := decide (k = 0)
  BitVec.ofNat 64 (Config.cellAt h (k + 1) % 65536 + f.owner.code * 2 ^ 16 + b2n first * 2 ^ 24 +
    b2n (decide (k + 1 = f.cells)) * 2 ^ 25 + (used - 1) * 2 ^ 26 +
    (if first then f.ref * 2 ^ 34 + b2n f.ce * 2 ^ 41 + f.colour.code * 2 ^ 42 + (f.seq.getD 0 % 65536) * 2 ^ 44 + b2n f.seq.isSome * 2 ^ 60 else 0))

/-- The frame, its handle and the part of it that a cell holds. -/
def cellUse (s : State) (c : Nat) : Option (Nat × Frame × Nat) :=
  s.net.frames.findSome? fun x => match x.2 with
    | some f => if f.spilled then none else
      ((List.range f.cells).find? fun k => decide (Config.cellAt x.1 k % 65536 = c)).map fun k => (x.1, f, k)
    | none => none

/-- A byte of packet memory or of one of the two copies of the cell headers, where a stored frame has it (R251, R252,
Table 21.2). -/
def pktByte (s : State) (a : Nat) : Option Byte :=
  let o := a - 0x0004000000
  if o < 2 ^ 24 then
    (cellUse s (o / 256)).bind fun (_, f, k) => (frameBytes f)[256 * k + o % 256]?
  else
    let o := o % 0x80000
    (cellUse s (o / 8)).map fun (h, f, k) => BitVec.ofNat 8 ((cellHead h f k).toNat / 2 ^ (8 * (o % 8)))

/-- The capture in a region. A cell that holds no stored frame, and the ROM, have contents that the spec does not give:
free words.
Mark: DESIGN CHOICE (log entry 8); DEDUCED (log entry 64). -/
def capWord (s : State) (a : Nat) (r : Region) : Option Word × State :=
  if ! snapRegion r then (none, s)
  else if r = .reg then (some (snapReg s (regOff a)), s)
  else if (r = .vmem ∨ r = .vpriv) ∧ lifecycle s ≠ .manufacture then (some 0, s)
  else
    let (k, s) := draw s
    let one (i : Nat) : Byte := if r = .pkt then (pktByte s (a + i)).getD (memByte s k (a + i)) else memByte s k (a + i)
    (some (BitVec.ofNat 32 (ofLeBytes ((List.range 4).map one))), s)

/-- The capture of an address: OK with a word, or none for an excluded address.
Mark: DEDUCED (log entry 64). -/
def capture (s : State) (a : Nat) : Option Word × State :=
  if capShut s a then (none, s)
  else match regionOf a with
    | none => (none, s)
    | some r => capWord s a r

/-- The debug port is powered.
Mark: DEDUCED (log entry 64). -/
def tapUp (s : State) : Bool := vioUp s && decide (s.power.phase ≠ .asleep) && decide (s.power.phase ≠ .railPhase)

/-- SNAP_ADDR (R584). -/
def execSnapAddr (a : BitVec 40) (s : State) : Host.Outcome State Fault Refusal :=
  let s := begin_ s
  .next (if tapUp s then { s with freeze := { s.freeze with snapAddr := a.toNat } } else s)

/-- SNAP_DATA (R584): OK and the word, and the address moves on by 4 in any case. -/
def execSnapData (s : State) : Host.Outcome State Fault Refusal :=
  let s := begin_ s
  .next (if ! tapUp s then s
    else
      let (w, s) := capture s s.freeze.snapAddr
      let d : BitVec 33 := match w with
        | some w => (1 : BitVec 1) ++ w
        | none => 0
      { s with freeze := { s.freeze with snapAddr := (s.freeze.snapAddr + 4) % 2 ^ 40, snapData := d },
               out := { s.out with rdata := [w.getD 0] } })

/-! ## Loopback (R586) -/

/-- Put a lane or port in loopback, or end it. -/
def setLoop (s : State) (e kind : Nat) : State := { s with net := { s.net with loop := tset 0 s.net.loop e kind } }

/-- DIAG_LOOPBACK (0x0D03, R586): at most eight targets, and only one that is ACTIVE or UP. -/
def execDiagLoopback (r : Req) (target kind : BitVec 8) (s : State) : Host.Outcome State Fault Refusal :=
  .next (dispatch 0x0D03 r judgeInstaller (fun s =>
    let e := target.toNat
    let up := if e < 96 then decide ((laneOf s e).st = .active) else bit s R_PORT_STAT (e - 96) 0
    if e > 103 ∨ kind.toNat > 2 then Plan.fail .badParam
    else if kind = 0 then Plan.do_ fun s => setLoop s e 0
    else if ! up ∨ (loopOf s e = 0 ∧ s.net.loop.length ≥ 8) then Plan.fail .busy
    else Plan.do_ fun s => setLoop s e kind.toNat) s)

end Sys2Proof.Machine
end

