-- ==== Sys2Proof/Machine/Vault.lean ====
section
/-! DEFINITION. The vault's commands (chapter 12): tamper, the random generator, update messages,
attestation and root provisioning. -/

namespace Sys2Proof.Machine

/-- TAMPER (R331, R332, R620): a tamper source fires. VGLITCH is watched only while VCORE is on, STORE at
store reads, and with VCORE off CLKGLITCH only once its edge watch is armed.
Mark: DEDUCED (log entry 51). -/
def execTamper (src : Fin 6) (s : State) : Host.Outcome State Fault Refusal :=
  let s := begin_ s
  let off := decide (s.power.phase = .asleep) || decide (s.power.phase = .railPhase)
  .next (if off && (decide (src.val = 1) || decide (src.val = 5) || (decide (src.val = 2) && decide (s.power.oscPeriods < 1024))) then s else tamperNow s src)

/-- RNG_FAIL (R333): a health test fails; no random value is issued until a reseed passes. -/
def execRngFail (reseedOk : Bool) (s : State) : Host.Outcome State Fault Refusal :=
  .next (whenRunning (begin_ s) fun s =>
    let s := raise { s with vault := { s.vault with rngFailed := ! reseedOk } } .rngFail
    queueEntry s (.tamper 3 0))

/-! ## Update messages (R345 to R350) -/

/-- The length of a type's key; 0 for EMPTY and reserved types. -/
def keyLen (ty : Nat) : Nat := [0, 16, 32, 32, 64, 32, 64].getD ty 0

/-- The types an engine or usage bit is permitted with (R338). -/
def attrFits (ty : Nat) (a : Word) : Bool :=
  let on (b : Nat) := decide (bitsOf a b 1 = 1)
  let isIn (l : List Nat) := l.contains ty
  (! (on 4 || on 5) || isIn [1, 2]) && (! on 6 || isIn [6]) && (! (on 7 || on 9) || isIn [1, 2, 5]) &&
  (! on 8 || isIn [3, 4]) && (! on 10 || isIn [2]) && (! on 16 || isIn [3]) && (! on 17 || isIn [4]) &&
  (! on 19 || isIn [3, 2])

/-- Check 1 of R347: the form of a message. -/
def msgFormed (m : KeyMsg) : Bool :=
  let op := m.op.toNat
  let ty := bitsOf m.attr 0 4
  let transport := decide (m.auth.toNat = 2)
  decide (m.ver.toNat = 1) && decide (1 ≤ op) && decide (op ≤ 3) && decide (m.rsv6 = 0) && decide (m.rsv2E = 0) &&
  decide (m.target.toNat < 512) && decide (m.auth.toNat < 512) &&
  (if op = 3 then decide (m.attr = 0) && decide (m.klen = 0)
   else decide (1 ≤ ty) && decide (ty ≤ 6) && decide (bitsOf m.attr 11 1 = 0) && decide (bitsOf m.attr 20 12 = 0) &&
     attrFits ty m.attr && ! (decide (op = 2) && decide (ty = 4)) &&
     decide (m.klen.toNat = if op = 1 then keyLen ty else 0)) &&
  decide (m.key.length = m.klen.toNat) && decide (m.iv.length = 12) && decide (m.tag.length = 16) &&
  (if transport then ecOnCurve m.eph else decide (m.eph = List.replicate 64 0))

/-- The AES-256-GCM key of a message (R346): the authorising slot's, or on the transport path what the KDF gives of the
ECDH secret of EPH and KS002. -/
def msgKey (s : State) (m : KeyMsg) : List Byte :=
  if m.auth.toNat = 2 then
    kdf (ecdh (ofBeBytes (slotOf s 2).key) m.eph) "KWXPORT"
      (leBytes 16 m.uid.toNat ++ leBytes 2 m.target.toNat ++ leBytes 4 m.ucnt.toNat) 32
  else (slotOf s m.auth.toNat).key

/-- The GCM tag of a message verifies over its first 0x70 bytes and the key ciphertext (check 8 of R347). -/
def msgTagOk (s : State) (m : KeyMsg) : Bool := decide (gcmTag (msgKey s m) m.iv m.head m.key = m.tag)

/-- The key that a WRITE carries, decrypted. -/
def msgPlain (s : State) (m : KeyMsg) : List Byte := gcmCrypt (msgKey s m) m.iv m.key

/-- Check 9 of R347: a scalar from 1 to n - 1, or a point on the curve. -/
def keyValid (ty : Nat) (k : List Byte) : Bool :=
  if ty = 3 then decide (1 ≤ ofBeBytes k) && decide (ofBeBytes k < p256n) else if ty = 4 then ecOnCurve k else true

/-- The UID in use as a number, zero when a UID word is INVALID. -/
def uidNum (s : State) : Nat := ofLeBytes (uidBytes s)

/-- A message's UID names this device; the all-zero UID names none (R116). -/
def uidMatches (s : State) (uid : BitVec 128) : Bool :=
  decide (uid.toNat = uidNum s) && ! (List.range 4).any (fun j => tget false s.fuses.invalid (4 + j))

/-- Check 4 of R347.
Mark: DEDUCED (log entry 51). -/
def authFit (s : State) (m : KeyMsg) : Status :=
  let a := m.auth.toNat
  let par := if a = 2 then 0 else a
  let st := slotState s a
  if st = 2 then .orphan
  else if st ≠ 1 then .denied
  else if a ≠ 2 ∧ ¬ (sType (slotOf s a) = 2 ∧ sUsage (slotOf s a) useUpd) then .denied
  else if m.op.toNat = 3 ∧ sParent (slotOf s m.target.toNat) ≠ par then .denied
  else .ok

/-- The status of the first check of R347 that fails; OK when every check passes.
Mark: DEDUCED (log entry 51). -/
def checkMsg (s : State) (m : KeyMsg) : Status :=
  let t := m.target.toNat
  let par := if m.auth.toNat = 2 then 0 else m.auth.toNat
  if ! msgFormed m then .badParam
  else if ! uidMatches s m.uid then .denied
  else if t < 8 ∨ (t = 10 ∧ s.fuses.govLc ≠ .field) then .denied
  else if (slotOf s t).final then .final
  else if authFit s m ≠ .ok then authFit s m
  else if m.op.toNat ≠ 3 ∧ below s t 8 par then .badParam
  else if m.op.toNat ≠ 3 ∧ depthOf s 9 par + 1 > 8 then .range
  else if ¬ (m.ucnt.toNat > (slotOf s t).ucnt.toNat) then .stale
  else if m.auth.toNat = 2 ∧ ¬ (slotLive s 10 ∧ sUsage (slotOf s 10) useVerify ∧ ecdsaVerify (slotOf s 10).key m.signed m.sig) then .denied
  else if ! msgTagOk s m then .integrity
  else if m.op.toNat = 1 ∧ ! keyValid (bitsOf m.attr 0 4) (msgPlain s m) then .badParam
  else .ok

/-- A key of a type from the random generator (R348). -/
def randomKey (ty d : Nat) : List Byte := if ty = 3 then beBytes 32 (randScalar d) else randBytes d (keyLen ty)

/-- What the slot receives from an accepted message (R348, R340, R342). -/
def updateSlot (s : State) (m : KeyMsg) : State :=
  let t := m.target.toNat
  let par := if m.auth.toNat = 2 then 0 else m.auth.toNat
  let x := slotOf s t
  let gen := x.gen + 1
  let close := decide (gen = 0xFFFF) || decide (m.ucnt = 0xFFFFFFFF)
  let (k, s) := draw s
  let low : BitVec 64 := if m.op.toNat = 3 then x.attr &&& 0xFFFFFFFF
    else m.attr.setWidth 64 ||| (if m.op.toNat = 1 then BitVec.ofNat 64 (2 ^ 20) else 0)
  let attr := low ||| BitVec.ofNat 64 (par * 2 ^ 32 + (slotOf s par).gen.toNat * 2 ^ 48)
  let key := if close then [] else if m.op.toNat = 3 then x.key else if m.op.toNat = 1 then msgPlain s m
    else randomKey (bitsOf m.attr 0 4) k
  let s := setSlot (storeRecordOf s) t { attr := attr, gen := gen, ucnt := m.ucnt, final := close, key := key }
  if close then raise s .slotFinal else s

/-- Bytes 0x00 to 0x7F of the confirmation of Table 12.6. -/
def confirmHead (s : State) (m : KeyMsg) : List Byte :=
  let t := m.target.toNat
  let x := slotOf s t
  [1, m.op] ++ leBytes 2 t ++ leBytes 4 x.ucnt.toNat ++ leBytes 2 x.gen.toNat ++ leBytes 2 (sPgen x) ++
  leBytes 1 (slotState s t) ++ kcvOf s t ++ uidBytes s ++ m.hash ++ pubOf s t

/-- The confirmation of Table 12.6 with its proof (R349). -/
def confirmation (s : State) (m : KeyMsg) : List Byte × State :=
  let x := slotOf s m.target.toNat
  let b := confirmHead s m
  if x.final ∨ sType x = 4 then
    let (g, s) := signature s b
    (b ++ g, s)
  else if sType x = 3 then
    let (g, s) := signBy s m.target.toNat b
    (b ++ g, s)
  else (b ++ cmac (x.key.take 32) b, s)

/-- The KEY_UPDATE entry of a message (R40). -/
def updateEntry (m : KeyMsg) (st : Status) (gen ucnt : Nat) : Payload :=
  .keyUpdate m.target.toNat m.auth.toNat m.op.toNat st.code gen ucnt (BitVec.ofNat 64 (ofLeBytes (m.hash.take 8)))

/-- Record the status of a message: VLT_LAST and its counter. -/
def noteUpdate (s : State) (m : KeyMsg) (st : Status) : State :=
  let s := wr s R_VLT_LAST (fieldVal 24 8 st.code ||| fieldVal 0 9 m.target.toNat)
  statInc s (if st = .ok then R_VLT_UPD_OK else R_VLT_UPD_REF)

/-- An update message that reaches the vault: checked, and when accepted its entry is committed before the
slot (R347, R348, R41). -/
def submitUpdate (s : State) (m : KeyMsg) : State × Status × List Byte :=
  let t := m.target.toNat
  let x := slotOf s t
  match checkMsg s m with
  | .ok =>
    if m.op.toNat = 2 ∧ s.vault.rngFailed then
      (noteUpdate (queueEntry (raise s .rngFail) (updateEntry m .busy x.gen.toNat x.ucnt.toNat)) m .busy, .busy, [])
    else if ledgerLive s && ! ledgerRoom s then
      let (s, st, b) := noEntry s
      (noteUpdate s m st, st, b)
    else
      let s := commitEntry s (updateEntry m .ok (x.gen + 1).toNat m.ucnt.toNat)
      if ! m.commitOk then
        (noteUpdate (commitEntry s (updateEntry m .busy x.gen.toNat x.ucnt.toNat)) m .busy, .busy, [])
      else
        let s := closeForKey (keyChanged (updateSlot s m) t) t
        let (b, s) := confirmation s m
        (noteUpdate s m .ok, .ok, b)
  | st => (noteUpdate (queueEntry s (updateEntry m st x.gen.toNat x.ucnt.toNat)) m st, st, [])

/-- Rights and modes of the Vault and keys group: the right, then TAMPERED, then the mode (R332, R353,
R392). -/
def judgeVault (modes : Mode → Bool) (s : State) (role : Nat) : Option Status :=
  match judgeRight true false false false anyAwake s role with
  | some st => some st
  | none => if groupTampered s then some .tampered else if modes (mode s) then none else some .notInMode

/-- KEY_UPDATE (R345 to R349). -/
def execKeyUpdate (r : Req) (msg : KeyMsg) (s : State) : Host.Outcome State Fault Refusal :=
  .next (dispatch 0x0701 r (judgeVault (inModes [.approach, .rented, .service, .depot]))
    (fun s => { status := checkMsg s msg, bytes := [], changes := decide (checkMsg s msg = .ok), act := fun s => submitUpdate s msg }) s)

/-- The attestation statement of Table 12.7, up to its signature. -/
def statement (s : State) (k : Nat) (nonce : BitVec 256) : List Byte :=
  let x := slotOf s k
  [1] ++ leBytes 1 (slotState s k) ++ leBytes 2 k ++ leBytes 8 x.attr.toNat ++ leBytes 2 x.gen.toNat ++ [1] ++
  kcvOf s k ++ leBytes 2 0 ++ leBytes 4 x.ucnt.toNat ++ uidBytes s ++ leBytes 32 nonce.toNat ++ pubOf s k ++
  leBytes 4 0x201 ++ leBytes 4 0

/-- KEY_ATTEST (R351). -/
def execKeyAttest (r : Req) (slot : BitVec 16) (nonce : BitVec 256) (s : State) : Host.Outcome State Fault Refusal :=
  .next (dispatch 0x0702 r (judgeVault (inModes [.approach, .rented, .service, .depot, .quarantine]))
    (fun _ => if slot.toNat > 511 then Plan.fail .badParam else
      { status := .ok, bytes := [], changes := false, act := fun s =>
          let st := statement s slot.toNat nonce
          let (g, s) := signature s st
          (s, .ok, st ++ g) }) s)

/-- Rights of ROOT_PROVISION (R336): judged under it outside QUARANTINE. -/
def judgeProvision (s : State) (role : Nat) : Option Status :=
  match judgeRight false false false true anyAwake s role with
  | some st => some st
  | none =>
    if mode s = .quarantine ∧ groupTampered s then some .tampered
    else if ! (mode s = .approach ∨ mode s = .service) then some .notInMode
    else if ! s.boot.rootAbsent ∨ ! (s.fuses.govLc = .manufacture ∨ s.fuses.govLc = .provision) then some .denied
    else none

/-- A new root (R336): KS000 to KS004 derived anew, the slot store erased, KS010 as R121 gives it, and a
new ledger with GENESIS at SEQ 0.
Mark: DEDUCED (log entry 51). -/
def provision (s : State) : State :=
  let k10 := slotOf s 10
  let (d, s) := draw s
  let s := { s with
    vault := { s.vault with
      root := randBytes d 32, rootCheck := checkOf (randBytes d 32), storeSeq := 0, storeChain := List.replicate 32 0, rootPresent := true, storeOk := true, slotsReady := true, slots := [], groupTampered := false },
    boot := { s.boot with rootAbsent := false },
    ledger := { s.ledger with
      head := none, headMac := 0, oldest := 0, nextSeq := 0, final := false, sealed := false, ring := [], queue := [] } }
  let s := wr s R_VLT_TAMPER 0
  let s := deriveSlots s
  let s := if sType k10 = 0 then s else setSlot s 10 { k10 with gen := 0, ucnt := 0 }
  commitEntry s .genesis

/-- ROOT_PROVISION (R336). -/
def execRootProvision (r : Req) (s : State) : Host.Outcome State Fault Refusal :=
  .next (dispatch 0x0703 r judgeProvision
    (fun s => if s.vault.rngFailed then
        { status := .busy, bytes := [], changes := false, act := fun s => (raise s .rngFail, .busy, []) }
      else Plan.doBytes fun s =>
        let s := provision s
        let b := pubOf s 1 ++ pubOf s 2
        let (g, s) := signature s b
        (s, b ++ g)) s)

end Sys2Proof.Machine
end

