-- ==== Sys2Proof/Machine/Helber.lean ====
section
/-! DEFINITION. Helber domains (chapter 20): the domain key, HELLO and membership, forwarding, queries, blobs, and
the commands of group 0x0C with TBL_READ. -/

namespace Sys2Proof.Machine

/-! ## The domain (R538 to R542) -/

/-- The domain kind (Table 20.1). -/
def hlbKind (s : State) : Nat := fld s R_HLB_CFG 16 2

/-- KEYSLOT is usable for the HELBER engine (R542). -/
def hlbKeyOk (s : State) : Bool :=
  let k := fld s R_HLB_KEYSLOT 0 9
  slotLive s k && sEngine (slotOf s k) engHelber

/-- A peer is known: neither ABSENT nor LOST. -/
def known (p : Peer) : Bool := decide (p.st ≠ .absent) && decide (p.st ≠ .lost)

/-- Replace a peer's record. -/
def setPeer (s : State) (n : Nat) (p : Peer) : State := { s with hlb := { s.hlb with peers := tset Peer.init s.hlb.peers n p } }

/-- Two joined peers on one domain port of a cluster (R546). -/
def topoNow (s : State) : Bool :=
  inCluster s && (List.range 8).any fun p => decide (((joinedPeers s).filter fun x => decide (x.2.port = p)).length ≥ 2)

/-- The topology is judged again; HLB_TOPO is raised when the fault appears. -/
def topoCheck (s : State) : State :=
  let t := topoNow s
  let s' := { s with hlb := { s.hlb with topo := t } }
  if t ∧ ¬ s.hlb.topo then raise s' .hlbTopo else s'

/-- A peer becomes LOST (R544). -/
def losePeer (s : State) (n : Nat) : State :=
  if known (peerOf s n) then topoCheck (raise (setPeer s n { peerOf s n with st := .lost }) .hlbLost) else s

/-- KEY_FAIL follows the domain key; when it fails every peer becomes LOST (R542). -/
def hlbKeyCheck (s : State) : State :=
  let bad := decide (hlbKind s ≠ 0) && ! hlbKeyOk s
  let s' := { s with hlb := { s.hlb with keyFail := bad } }
  if bad ∧ ¬ s.hlb.keyFail then (s.hlb.peers.map Prod.fst).foldl losePeer s' else s'

/-- Helber frames are exchanged now: a domain, its key, and a mode of R539. -/
def hlbUp (s : State) : Bool := decide (hlbKind s ≠ 0) && routing s && ! s.freeze.frozen && hlbKeyOk s

/-- A domain port that is UP with link. -/
def domainPort (s : State) (p : Nat) : Bool := bit s R_HLB_CFG 0 (24 + p) && bit s R_PORT_STAT p 0 && portLink s p

/-- The domain ports frames leave by. -/
def domainPorts (s : State) : List Nat := (List.range 8).filter (domainPort s)

/-- The multicast address of HELLO, PUSH and PULL frames (R539). -/
def hlbGroupMac : List Byte := [0x03, 0x4B, 0x57, 0x48, 0x4C, 0x42]

/-- A Helber frame up to its CMAC: addresses, EtherType, header (Table 20.2) and payload.
Mark: DEDUCED (log entry 60). -/
def hlbBytes (s : State) (port ty dst : Nat) (pay : List Byte) : List Byte :=
  (if ty = 1 ∨ ty = 5 ∨ ty = 7 then hlbGroupMac else stationBytes dst (peerOf s dst).rport) ++
  stationBytes (ownNode s) port ++ [0x88, 0xB5, 0x01, BitVec.ofNat 8 ty] ++ leBytes 2 (ownNode s) ++ leBytes 2 dst ++
  leBytes 2 0 ++ leBytes 4 (rd s R_HLB_DOMAIN).toNat ++ leBytes 4 s.hlb.seq.toNat ++ pay

/-- The CMAC of a frame under the domain key, over its header and payload (R540). -/
def hlbCmac (s : State) (b : List Byte) : List Byte := cmac (slotOf s (fld s R_HLB_KEYSLOT 0 9)).key b

/-- Send a Helber frame of a type on a port: its header and payload, ended by a CMAC under the domain key (R540). -/
def hlbSend (s : State) (port ty dst : Nat) (pay : List Byte) : State :=
  let b := hlbBytes s port ty dst pay
  { s with
    hlb := { s.hlb with seq := s.hlb.seq + 1 },
    out := { s.out with helber := s.out.helber ++ [(port, ty, dst, withFcs (b ++ hlbCmac s (b.drop 14)))] } }

/-- Send a frame to one peer, unless the node isolates itself (R545). -/
def hlbSendTo (s : State) (n ty : Nat) (pay : List Byte) : State :=
  if hlbUp s && ! s.hlb.dup && domainPort s (peerOf s n).port then hlbSend s (peerOf s n).port ty n pay else s

/-- The payload of a PUSH frame: segment `k` of the bytes of a blob (R554). -/
def pushSeg (id : Word) (kind : Nat) (data : List Byte) (k : Nat) : List Byte :=
  let d := (data.drop (1024 * k)).take 1024
  leBytes 4 id.toNat ++ leBytes 1 kind ++ leBytes 3 0 ++ leBytes 4 (1024 * k) ++ leBytes 2 d.length ++ leBytes 2 0 ++ d

/-- Send PUSH frames with these payloads to every node on every domain port. -/
def hlbPushAll (s : State) (l : List (List Byte)) : State :=
  if hlbUp s && ! s.hlb.dup then
    (domainPorts s).foldl (fun s p => l.foldl (fun s d => hlbSend s p 5 0xFFFF d) s) s
  else s

/-- Running firmware version of this node. -/
def ownMajor (s : State) : Nat := s.boot.version.toNat / 65536
/-- The minor part of the version this node reports. -/
def ownMinor (s : State) : Nat := s.boot.version.toNat % 65536

/-- The payload of a HELLO (Table 20.3). -/
def helloBytes (s : State) : List Byte :=
  leBytes 16 (uidNum s) ++ leBytes 1 (hlbKind s) ++ leBytes 1 (mode s).code ++ leBytes 1 (ownMajor s) ++ leBytes 1 (ownMinor s) ++
  leBytes 4 (rd s R_HLB_EPOCH).toNat ++ leBytes 4 (rd s R_HLB_DIGEST_LO).toNat ++ leBytes 4 (rd s R_HLB_DIGEST_HI).toNat ++
  leBytes 1 (ownLock s) ++ leBytes 3 0 ++ leBytes 4 (rd s R_NFC_EPOCH_MIN).toNat ++ leBytes 4 (rd s R_HLB_REV_SEQ).toNat

/-- HELLO_SEND (R543). -/
def execHelloSend (s : State) : Host.Outcome State Fault Refusal :=
  .next (whenRunning (begin_ s) fun s =>
    let s := hlbKeyCheck s
    if hlbUp s then (domainPorts s).foldl (fun s p => hlbSend s p 1 0xFFFF (helloBytes s)) s else s)

/-- PEER_LOST_TIMEOUT (R544). -/
def execPeerLostTimeout (node : BitVec 12) (s : State) : Host.Outcome State Fault Refusal :=
  .next (whenRunning (begin_ s) fun s => losePeer s node.toNat)

/-- PEER_ABSENT_TIMEOUT (R544). -/
def execPeerAbsentTimeout (node : BitVec 12) (s : State) : Host.Outcome State Fault Refusal :=
  .next (whenRunning (begin_ s) fun s => if (peerOf s node.toNat).st = .lost then setPeer s node.toNat Peer.init else s)

/-! ## HELLO (R543 to R549) -/

/-- The member state of a joined peer (Table 20.4). -/
def joinedAs (s : State) (epoch : Word) : MemSt := if (rd s R_HLB_EPOCH).toNat ≤ epoch.toNat then .member else .behind

/-- The state a peer's HELLO brings it to (R544, R545, R547).
Mark: DEDUCED (log entry 59). -/
def memNext (s : State) (p : Peer) (uid : BitVec 128) (major : Nat) (epoch : Word) : MemSt :=
  if ! known p then .joining
  else if p.st = .isoDup ∨ p.uid ≠ uid then .isoDup
  else if major % 256 ≠ ownMajor s % 256 then .isoVer
  else joinedAs s epoch

/-- Set a peer's member state: HLB_JOIN is raised on each entry into MEMBER or BEHIND.
Mark: DEDUCED (log entry 59). -/
def enterMember (s : State) (n : Nat) (p : Peer) (st : MemSt) : State :=
  let p' := { p with st := st }
  let s := setPeer s n p'
  if joined p' ∧ p.st ≠ st then raise s .hlbJoin else s

/-- HLB_EPOCH_MAX learns of a joined peer's epoch; falling behind raises HLB_BEHIND (R548, R549). -/
def learnEpoch (s : State) (epoch : Word) : State :=
  if ! inCluster s then s
  else
    let s := if (rd s R_HLB_EPOCH_MAX).toNat < epoch.toNat then wr s R_HLB_EPOCH_MAX epoch else s
    let b := behindNow s
    let s' := { s with hlb := { s.hlb with behind := b } }
    if b ∧ ¬ s.hlb.behind then raise s' .hlbBehind else s'

/-- A HELLO of another device under this node's own ID: this node isolates itself (R545).
Mark: DEDUCED (log entry 59). -/
def ownIdSeen (s : State) (n : Nat) : State :=
  raise { setPeer s n { peerOf s n with st := .isoDup } with hlb := { (setPeer s n { peerOf s n with st := .isoDup }).hlb with dup := true } } .hlbDup

/-- A verified HELLO of another node.
Mark: DEDUCED (log entry 59). -/
def helloPeer (s : State) (port rport n : Nat) (uid : BitVec 128) (md major minor : Byte) (epoch : Word) (digest : BitVec 64)
    (lock : BitVec 4) (revSeq : Word) : State :=
  let p := peerOf s n
  let st := memNext s p uid major.toNat epoch
  let p := { p with uid := if known p then p.uid else uid, major := major.toNat, minor := minor.toNat, mode := md.toNat, lock := lock,
                    epoch := epoch, digest := digest, port := port, rport := rport, revSeq := revSeq.toNat }
  let s := enterMember s n p st
  topoCheck (if joined (peerOf s n) then learnEpoch s epoch else s)

/-! ## Frames by type (R554 to R562) -/

/-- FORWARD (R560): accepted from the joined peer on that port, it enters the pipeline of its domain port.
Mark: DEDUCED (log entry 40). -/
def forwardIn (s : State) (port : Nat) (f : HlbFrame) (time : BitVec 64) (node : BitVec 12) (ing : Byte) (c : Content) (carry : Word) :
    State :=
  let p := peerOf s f.src.toNat
  let from_ := match f.station with
    | some (n, r) => decide (n = f.src) && decide (r.val = p.rport)
    | none => false
  if ! (inCluster s && from_ && joined p && decide (p.port = port)) || s.hlb.dup then statInc s R_HLB_FWD_DROP
  else if ((joinedPeers s).filter fun x => decide (x.2.port = port)).length ≥ 2 then s
  else
    forward s { p := ingPipe (96 + port), ing := 96 + port, l := if ing.toNat < 96 then ing.toNat % 24 else 0,
                st := { time := time, cap := captureNow s, node := node.toNat, ing := ing.toNat, carry := carry, viaDomain := true },
                content := c, colour := 0, launch := none, trapOnly := false } false none

/-- QUERY (R562): answered from the committed table.
Mark: DEDUCED (log entry 60). -/
def queryIn (s : State) (src table pipe : Nat) (index : Word) (key : BitVec 64) : State :=
  if ! joined (peerOf s src) then s
  else
    let e := if table ≤ 7 ∧ pipe ≤ 3 ∧ posOk table index.toNat then tblEntry s table pipe index.toNat key else none
    hlbSendTo s src 4 (readBytes e)

/-- PUSH (R555): a segment of a blob arrives; one of a blob that was complete is known.
Mark: DEDUCED (log entry 60). -/
def pushIn (s : State) (src : Nat) (id : Word) (kind offset : Nat) (data : List Byte) : State :=
  let seg := offset / 1024
  let mine (b : BlobIn) : Bool := decide (b.src = src) && decide (b.id = id)
  let have_ (b : BlobIn) : Bool := b.done || b.segs.any fun x => decide (x.1 = seg)
  let put (b : BlobIn) : BlobIn := if have_ b then b else { b with segs := b.segs ++ [(seg, data.take 1024)] }
  let bs := s.hlb.blobs
  let bs := if bs.any mine then bs.map fun b => if mine b then put b else b
            else bs ++ [put { src := src, id := id, kind := kind, segs := [], done := false }]
  { s with hlb := { s.hlb with blobs := bs } }

/-- PUSH_ACK (R555): the segments a peer still misses. -/
def ackIn (s : State) (src : Nat) (id : Word) (missing : List Nat) : State :=
  match s.hlb.push with
  | some p => if p.id = id then { s with hlb := { s.hlb with push := some { p with acks := tset none p.acks src (some missing) } } } else s
  | none => s

/-- PULL (R558): answered with the list last applied, as a PUSH of kind 2 to the sender; its PUSH_ID is free.
Mark: DEDUCED (log entry 60). -/
def pullIn (s : State) (src : Nat) : State :=
  let b := s.nfc.revList
  if b = [] then s
  else
    let (k, s) := draw s
    (List.range ((b.length + 1023) / 1024)).foldl (fun s i => hlbSendTo s src 5 (pushSeg (Config.freeWord k) 2 b i)) s

/-- The bitmap of missing segments (R555). -/
def missingMap (missing : List Nat) : List Byte :=
  (List.range 128).map fun i => BitVec.ofNat 8 ((List.range 8).foldl (fun a b => if missing.contains (8 * i + b) then a + 2 ^ b else a) 0)

/-- TYPE of a frame (Table 20.2). -/
def bodyType : HlbBody → Nat
  | .hello .. => 1
  | .forward .. => 2
  | .query .. => 3
  | .queryRsp .. => 4
  | .push .. => 5
  | .pushAck .. => 6
  | .pull => 7

/-- The payload of a frame other than FORWARD (Table 20.3, R554, R555, R562).
Mark: DEDUCED (log entry 60). -/
def bodyBytes : HlbBody → List Byte
  | .hello uid kind md major minor epoch digest lock epochMin revSeq =>
    leBytes 16 uid.toNat ++ [kind, md, major, minor] ++ leBytes 4 epoch.toNat ++ leBytes 8 digest.toNat ++ leBytes 1 lock.toNat ++
    leBytes 3 0 ++ leBytes 4 epochMin.toNat ++ leBytes 4 revSeq.toNat
  | .forward .. => []
  | .query table pipe index key => [table, pipe] ++ leBytes 4 index.toNat ++ leBytes 8 key.toNat
  | .queryRsp found entry => leBytes 4 (b2n found) ++ padTo 32 (wordBytes entry)
  | .push id kind offset data =>
    leBytes 4 id.toNat ++ [kind] ++ leBytes 3 0 ++ leBytes 4 offset.toNat ++ leBytes 2 data.length ++ leBytes 2 0 ++ data
  | .pushAck id missing => leBytes 4 id.toNat ++ missingMap missing
  | .pull => []

/-- The CMAC at the end of a received frame is that of its header and payload (R540, R541). -/
def frameCmacOk (s : State) (f : HlbFrame) : Bool :=
  let head := [0x01, BitVec.ofNat 8 (bodyType f.body)] ++ leBytes 2 f.src.toNat ++ leBytes 2 f.dst.toNat ++ leBytes 2 0 ++
    leBytes 4 f.domain.toNat ++ leBytes 4 f.seq.toNat
  decide (hlbCmac s (head ++ bodyBytes f.body) = beBytes 16 f.tag.toNat)

/-- A frame that passed R541, by its type. -/
def hlbBody (s : State) (port : Nat) (f : HlbFrame) : State :=
  let src := f.src.toNat
  match f.body with
  | .hello uid _ md major minor epoch digest lock _ revSeq =>
    if src = ownNode s then (if uid.toNat = uidNum s then s else ownIdSeen s src)
    else helloPeer s port (match f.station with
      | some (_, r) => r.val
      | none => port) src uid md major minor epoch digest lock revSeq
  | .forward time node ing content carry => forwardIn s port f time node ing content carry
  | .query table pipe index key => queryIn s src table.toNat pipe.toNat index key
  | .queryRsp _ _ => s
  | .push id kind offset data => pushIn s src id kind.toNat offset.toNat data
  | .pushAck id missing => ackIn s src id missing
  | .pull => pullIn s src

/-- A frame type that carries a CMAC (R540), and a HELLO. -/
def isForward : HlbBody → Bool
  | .forward .. => true
  | _ => false
/-- A HELLO. -/
def isHello : HlbBody → Bool
  | .hello .. => true
  | _ => false

/-- The checks of R541 in order, with the sender's sequence noted; the frame is then handled when it is for this
node.
Mark: DEDUCED (log entry 59). -/
def hlbTake (s : State) (port : Nat) (f : HlbFrame) : State :=
  let p := peerOf s f.src.toNat
  let ref := if isHello f.body && ! known p then none else p.seqRef
  if ! f.formOk ∨ f.domain ≠ rd s R_HLB_DOMAIN then s
  else if ! isForward f.body && ! frameCmacOk s f then statInc s R_HLB_RX_AUTH
  else if (match ref with
    | some r => ! seqLater f.seq.toNat r.toNat 32
    | none => false) then statInc s R_HLB_RX_REPLAY
  else
    let s := setPeer s f.src.toNat { p with seqRef := some f.seq }
    if f.dst = 0xFFFF ∨ f.dst.toNat = ownNode s then hlbBody s port f else s

/-- HELBER_RECEIVE (R539, R541). -/
def execHelberReceive (port : Fin 8) (f : HlbFrame) (s : State) : Host.Outcome State Fault Refusal :=
  .next (whenRunning (begin_ s) fun s =>
    let s := hlbKeyCheck s
    if hlbUp s && domainPort s port then hlbTake s port f else s)

/-! ## Blobs (R555 to R558) -/

/-- A little-endian field of some bytes. -/
def leAt (b : List Byte) (o n : Nat) : Nat := ofLeBytes ((b.drop o).take n)

/-- The bytes of an update message as its fields (Table 12.5); `commitOk` says that its slot can be programmed. -/
def msgOf (b : List Byte) (commitOk : Bool) : KeyMsg :=
  let at_ (o n : Nat) : List Byte := (b.drop o).take n
  let auth := leAt b 4 2
  let sig := if auth = 2 then 64 else 0
  let klen := b.length - 0x80 - sig
  { ver := b.getD 0 0, op := b.getD 1 0, target := BitVec.ofNat 16 (leAt b 2 2), auth := BitVec.ofNat 16 auth,
    rsv6 := BitVec.ofNat 16 (leAt b 6 2), ucnt := BitVec.ofNat 32 (leAt b 8 4), attr := BitVec.ofNat 32 (leAt b 0xC 4),
    uid := BitVec.ofNat 128 (leAt b 0x10 16), iv := at_ 0x20 12, klen := BitVec.ofNat 16 (leAt b 0x2C 2),
    rsv2E := BitVec.ofNat 16 (leAt b 0x2E 2), eph := at_ 0x30 64, key := at_ 0x70 klen, tag := at_ (0x70 + klen) 16,
    sig := at_ (0x80 + klen) sig, commitOk := commitOk }

/-- The update messages of a kind 1 blob, in order (R556); bytes after the last whole record are none. -/
def blobMsgs (commitOk : Bool) : Nat → List Byte → List KeyMsg
  | 0, _ => []
  | n + 1, b =>
    let len := leAt b 0 2
    if b.length < 2 ∨ b.length < 2 + len then [] else msgOf ((b.drop 2).take len) commitOk :: blobMsgs commitOk n (b.drop (2 + len))

/-- COUNT of a revocation list, and the length it then has (R556). -/
def listCount (b : List Byte) : Nat := leAt b 12 2

/-- The form of a revocation list (R556). -/
def listFormed (b : List Byte) : Bool :=
  decide (b.length = 80 + 8 * listCount b) && decide (b.getD 0 0 = 1) && decide (leAt b 1 3 = 0) && decide (leAt b 14 2 = 0) &&
  decide (listCount b ≤ 256)

/-- A revocation list verifies: KS011 is usable with VERIFY, and SIG is over the bytes before it (R556). -/
def listVerified (s : State) (b : List Byte) : Bool :=
  let n := 16 + 8 * listCount b
  listFormed b && slotLive s 11 && sUsage (slotOf s 11) useVerify && ecdsaVerify (pubOf s 11) (b.take n) (b.drop n)

/-- The token IDs of a revocation list. -/
def listTokens (b : List Byte) : List Nat := (List.range (listCount b)).map fun i => leAt b (16 + 8 * i) 8

/-- The bytes of a blob that are no firmware image. -/
def noImage (n : Nat) : FwImage := { len := n, pub := [], sigOk := false, svn := 0, version := 0 }

/-- A firmware image passes the checks of R529 (R557). -/
def imagePasses (s : State) (img : FwImage) : Bool :=
  decide (img.len ≤ 1048576) && imageSigned s img && decide (img.svn ≤ 32) && decide (s.fuses.govFwMin ≤ img.svn)

/-- A list that verified is newer: it replaces the revocation list, and EPOCH_MIN may rise (R556). -/
def takeList (s : State) (b : List Byte) : State :=
  let revSeq : Word := BitVec.ofNat 32 (leAt b 4 4)
  let epochMin : Word := BitVec.ofNat 32 (leAt b 8 4)
  let s := { s with nfc := { s.nfc with revoked := listTokens b, revList := b } }
  let s := if (rd s R_NFC_EPOCH_MIN).toNat < epochMin.toNat then
      (let s := wr s R_NFC_EPOCH_MIN epochMin
       if epochMin = 0xFFFFFFFF then monoFinal s 4 else s)
    else s
  let s := wr s R_HLB_REV_SEQ revSeq
  let s := if revSeq = 0xFFFFFFFF then monoFinal s 6 else s
  queueEntry s (.roleAction 0 Status.ok.code 0 0x0C03 (BitVec.ofNat 64 (ofLeBytes ((sha256 b).take 8))) 0 0)

/-- A complete blob is handled by its kind (R556, R557). `img` is what a firmware image is, `commitOk` that the slots of
update messages can be programmed. A receiver in DEPOT stores an image before it judges it, as FW_LOAD does.
Mark: DEDUCED (log entry 60). -/
def applyBlob (s : State) (kind : Nat) (b : List Byte) (img : Option FwImage) (commitOk : Bool) : State :=
  if kind = 1 then
    if inModes [.approach, .rented, .service, .depot] (mode s) && ! groupTampered s then
      (blobMsgs commitOk b.length b).foldl (fun s m => if uidMatches s m.uid then (submitUpdate s m).1 else s) s
    else s
  else if kind = 2 then
    if listVerified s b ∧ (rd s R_HLB_REV_SEQ).toNat < leAt b 4 4 then takeList s b else s
  else if kind = 3 then
    if mode s ≠ .depot then s
    else
      let i := img.getD (noImage b.length)
      let slot := ! s.boot.recovery && ! s.boot.slotB
      let s := fillSlot s slot i
      if imagePasses s i then { s with fuses := { s.fuses with selB := slot } } else s
  else s

/-- The bytes of a blob of `total` segments. -/
def blobData (b : BlobIn) (total : Nat) : List Byte :=
  (List.range total).flatMap fun k => ((b.segs.find? fun x => decide (x.1 = k)).map Prod.snd).getD []

/-- PUSH_ACK_SEND (R555): 250 ms after the last segment of a blob of `total` segments. A complete blob is handled once.
Mark: DEDUCED (log entry 60). -/
def execPushAckSend (src : BitVec 12) (id : Word) (total : Nat) (img : Option FwImage) (commitOk : Bool) (s : State) :
    Host.Outcome State Fault Refusal :=
  .next (whenRunning (begin_ s) fun s =>
    let mine (b : BlobIn) : Bool := decide (b.src = src.toNat) && decide (b.id = id)
    match s.hlb.blobs.find? mine with
    | none => s
    | some b =>
      let missing := if b.done then [] else (List.range total).filter fun k => ! b.segs.any fun x => decide (x.1 = k)
      let s := if missing = [] ∧ ! b.done then
          applyBlob { s with hlb := { s.hlb with blobs := s.hlb.blobs.map fun b => if mine b then { b with done := true, segs := [] } else b } }
            b.kind (blobData b total) img commitOk
        else s
      hlbSendTo s src.toNat 6 (leBytes 4 id.toNat ++ missingMap missing))

/-- BLOB_DISCARD (R555): a blob, 30 s after its last segment. -/
def execBlobDiscard (src : BitVec 12) (id : Word) (s : State) : Host.Outcome State Fault Refusal :=
  .next (whenRunning (begin_ s) fun s =>
    { s with hlb := { s.hlb with blobs := s.hlb.blobs.filter fun b => ! (decide (b.src = src.toNat) && decide (b.id = id)) } })

/-- The segments that some peer still misses. -/
def pushMissing (p : PushOut) : List Nat :=
  (List.range p.segs).filter fun k => p.acks.any fun x => match x.2 with
    | some l => l.contains k
    | none => false

/-- The payloads of some segments of a push. -/
def pushSegs (p : PushOut) (l : List Nat) : List (List Byte) := l.map (pushSeg p.id p.kind p.data)

/-- PUSH_RESEND_ROUND (R555): missing segments go out again for up to three rounds; then HLB_PUSH is answered with the
count of peers that miss none. -/
def execPushResendRound (s : State) : Host.Outcome State Fault Refusal :=
  .next (whenRunning (begin_ s) fun s =>
    match s.hlb.push with
    | none => s
    | some p =>
      let m := pushMissing p
      if m ≠ [] ∧ p.rounds < 3 then
        hlbPushAll { s with hlb := { s.hlb with push := some { p with rounds := p.rounds + 1 } } } (pushSegs p m)
      else
        let n := (p.acks.filter fun x => decide (x.2 = some [])).length
        answer (setCur { s with hlb := { s.hlb with push := none } } p.owed.ctx) p.owed.req 0x0C03 .ok (leBytes 2 n ++ leBytes 2 0))

/-- PULL_SEND (R558). -/
def execPullSend (node : BitVec 12) (s : State) : Host.Outcome State Fault Refusal :=
  .next (whenRunning (begin_ s) fun s =>
    let n := node.toNat
    let p := peerOf s n
    let last := tget 0 s.hlb.pulls n
    if (joined p ∨ p.st = .isoVer) ∧ (rd s R_HLB_REV_SEQ).toNat < p.revSeq ∧ (last = 0 ∨ last - 1 + 10 * ticksPerS ≤ s.time.ticks) then
      hlbSendTo { s with hlb := { s.hlb with pulls := tset 0 s.hlb.pulls n (s.time.ticks + 1) } } n 7 []
    else s)

/-! ## Commands (Tables 19.4 and 19.6) -/

/-- The payload of a QUERY: TABLE, PIPE, INDEX and KEY of the request (R562).
Mark: DEDUCED (log entry 60). -/
def queryBytes (table pipe : BitVec 8) (index : Word) (key : BitVec 64) : List Byte :=
  leBytes 1 table.toNat ++ leBytes 1 pipe.toNat ++ leBytes 4 index.toNat ++ leBytes 8 key.toNat

/-- TBL_READ (0x0402, R243, R562): from this node, or from the answer of another. -/
def execTblRead (r : Req) (table pipe : BitVec 8) (node : BitVec 16) (index : Word) (key : BitVec 64)
    (rsp : Option (Bool × List Word)) (s : State) : Host.Outcome State Fault Refusal :=
  .next (dispatch 0x0402 r judgeHostAwake (fun s =>
    let n := node.toNat
    if table.toNat > 7 ∨ (table.toNat ≤ 2 ∧ pipe.toNat > 3) ∨ (table = 2 ∧ index.toNat = 2 ^ 32 - 1 ∧ bf key 62 2 = 3) then
      Plan.fail .badParam
    else if ! posOk table.toNat index.toNat then Plan.fail .range
    else if n = ownNode s then Plan.read (readBytes (tblEntry s table.toNat (pipe.toNat % 4) index.toNat key))
    else if n > 4095 ∨ hlbKind s = 0 ∨ (peerOf s n).st = .absent then Plan.fail .badParam
    else if ! joined (peerOf s n) ∨ ! hlbUp s then Plan.fail .retry
    else match rsp with
      | none => { status := .retry, bytes := [], changes := false, act := fun s => (hlbSendTo s n 3 (queryBytes table pipe index key), .retry, []) }
      | some (found, e) => { status := .ok, bytes := [], changes := false, act := fun s =>
          (hlbSendTo s n 3 (queryBytes table pipe index key), .ok, if found then leBytes 4 1 ++ padTo 32 (wordBytes e) else leBytes 36 0) }) s)

/-- HLB_CONFIG (0x0C01, R538). -/
def execHlbConfig (r : Req) (node : BitVec 16) (kind ports : BitVec 8) (domain : Word) (keyslot : BitVec 16) (s : State) :
    Host.Outcome State Fault Refusal :=
  .next (dispatch 0x0C01 r judgeInstaller
    (fun s => cfgPlan (checkHlb s node kind keyslot) (.hlb node kind ports domain keyslot) (applyHlb node kind ports domain keyslot) s) s)

/-- The entry of a node in HLB_MEMBERS: NODE, STATE, FW_MAJOR, EPOCH; none when it is ABSENT. -/
def memberEntry (s : State) (n : Nat) : Option (List Byte) :=
  if n = ownNode s then some (leBytes 2 n ++ leBytes 1 7 ++ leBytes 1 (ownMajor s) ++ leBytes 4 (rd s R_HLB_EPOCH).toNat)
  else
    let p := peerOf s n
    if p.st = .absent then none
    else some (leBytes 2 n ++ leBytes 1 p.st.code ++ leBytes 1 p.major ++ leBytes 4 p.epoch.toNat)

/-- HLB_MEMBERS (0x0C02, R566). -/
def execHlbMembers (r : Req) (first : BitVec 16) (s : State) : Host.Outcome State Fault Refusal :=
  .next (dispatch 0x0C02 r judgeHostAwake (fun s =>
    let ns := (List.range 4096).filter fun n => decide (first.toNat ≤ n)
    let es := (ns.filterMap (memberEntry s)).take 56
    Plan.read (leBytes 2 es.length ++ leBytes 2 0 ++ es.flatten)) s)

/-- The largest blob of a kind (R554). -/
def blobLimit (kind : Nat) : Nat := if kind = 1 then 65536 else if kind = 2 then 4096 else 1048576

/-- What the sending node verifies before it sends (R554). -/
def blobOk (s : State) (kind : Nat) (b : List Byte) (img : Option FwImage) : Bool :=
  if kind = 2 then listVerified s b else if kind = 3 then imagePasses s (img.getD (noImage b.length)) else true

/-- HLB_PUSH (0x0C03, R554): the blob of LEN bytes at BUF is distributed and applied here as well.
Mark: DEDUCED (log entry 60). -/
def execHlbPush (r : Req) (kind : BitVec 8) (buf : BitVec 64) (len : Word) (blob : Blob)
    (commitOk readOk : Bool) (s : State) : Host.Outcome State Fault Refusal :=
  let k := kind.toNat
  let b := padTo len.toNat blob.data
  .next (dispatch 0x0C03 r (judgeRight false (decide (k ≠ 3)) false (decide (k = 3)) (fun m => decide (m = .depot))) (fun s =>
    if k < 1 ∨ k > 3 then Plan.fail .badParam
    else match judgeD s false buf.toNat len.toNat with
      | some (rs, a) => Plan.hostDenied rs a false
      | none =>
        if len.toNat > blobLimit k then Plan.fail .range
        else if s.hlb.push.isSome then Plan.fail .busy
        else if ! (readOk && dmaUp s) then Plan.fail .retry
        else if ! blobOk s k b blob.img then Plan.fail .integrity
        else
          { status := .ok, bytes := [], changes := true, later := fun _ => true, act := fun s =>
              let (d, s) := draw s
              let segs := (len.toNat + 1023) / 1024
              let p : PushOut := { owed := { req := r, ctx := s.disp.cur }, id := Config.freeWord d, kind := k, data := b, segs := segs,
                                   rounds := 0, acks := [] }
              (applyBlob (hlbPushAll { s with hlb := { s.hlb with push := some p } } (pushSegs p (List.range segs))) k b blob.img commitOk,
               .ok, []) }) s)

end Sys2Proof.Machine
end

