-- ==== Sys2Proof/Machine/Ledger.lean ====
section
/-! DEFINITION. The rental ledger and ledger time (chapter 16): commits, interval closes, the discipline of TRIM,
denial summaries, reads, billing and wall-time steps. -/

namespace Sys2Proof.Machine

/-- A program that failed verification three times: its position is unreadable and its sequence used, and it is a
QUARANTINE cause (R443); the entry waits behind the SEAL that restarts the chain. -/
def programFailed (s : State) : State :=
  let l := s.ledger
  let s' := useSeq { s with ledger := { l with ring := tset .empty l.ring (l.nextSeq % ringSize) .partial_ } }
  ledgerFault s' (l.head.getD 0)

/-- LEDGER_COMMIT (R440): the oldest queued entry is programmed and verified; it waits while its sector is not erased
(R442), under LOW_ENERGY (R449), and while a broken chain waits for the SEAL that restarts it (R443).
Mark: DEDUCED (log entry 46). -/
def execLedgerCommit (programOk : Bool) (s : State) : Host.Outcome State Fault Refusal :=
  let s := begin_ s
  .next (if ! clocked s || s.power.lowEnergy || s.ledger.queue.isEmpty || s.ledger.final || s.ledger.lastGood.isSome ||
      ! sectorReady s then s
    else if programOk then commitHead s else programFailed s)

/-- INTERVAL_CLOSE (R434): the interval closes at its end in ledger time and the next one opens there. -/
def execIntervalClose (s : State) : Host.Outcome State Fault Refusal :=
  .next (whenRunning (begin_ s) fun s => boundaryClose s false)

/-- TRIM that makes one second of ledger time equal the local second in which `periods` were counted, to the
nearest unit, clamped (R428, R429).
Mark: DEDUCED (log entry 47). -/
def trimTarget (periods : Nat) : Int :=
  max (-6711) (min 6711 (((2 ^ 40 + periods / 2) / periods : Nat) - (2 ^ 25 : Int)))

/-- TRIM_UPDATE (R429): TRIM moves towards its target by at most 34 units a second. -/
def execTrimUpdate (periods : Nat) (s : State) : Host.Outcome State Fault Refusal :=
  .next (whenRunning (begin_ s) fun s =>
    if periods = 0 ∨ ¬ s.power.osc then s
    else
      let d := trimTarget periods - s.ledger.trim
      { s with ledger := { s.ledger with trim := s.ledger.trim + max (-34) (min 34 d) } })

/-- DENY_SUMMARY (R395): 60 s of ledger time after the last summary, when a refusal has occurred since.
Mark: DEDUCED (log entry 65). -/
def execDenySummary (s : State) : Host.Outcome State Fault Refusal :=
  .next (whenRunning (begin_ s) fun s =>
    let due : Bool := match s.deny.lastSec with
      | some t => decide (t + 60 ≤ s.ledger.sec)
      | none => true
    if due then denySummaryNow s else s)

/-- Ledger time has reached all ones: the ledger is FINAL and MONO_FINAL names LTIME, once (R428). -/
def ltimeFinal (s : State) : State :=
  if s.ledger.sec = 2 ^ 48 - 1 ∧ s.ledger.frac = 2 ^ 40 - 1 ∧ ¬ s.ledger.timeFinal then
    monoFinal { s with ledger := { s.ledger with timeFinal := true, final := true } } 1
  else s

/-- LEDGER_TIME_FINAL (R428). -/
def execLedgerTimeFinal (s : State) : Host.Outcome State Fault Refusal := .next (ltimeFinal (begin_ s))

/-! ## LDG_READ (R446) -/

/-- The 64 bytes stored for a sequence: the entry and its MAC, or zeros of a VOID position; none where the position
cannot be read. -/
def entryBytes (s : State) (q : Nat) : Option (List Byte) :=
  match tget .empty s.ledger.ring (q % ringSize) with
  | .entry e => if e.seq = q then some (entryHead (uidBytes s) e ++ beBytes 16 e.mac.toNat) else none
  | .void => some (List.replicate 64 0)
  | _ => none

/-- The bytes of readable entries from `q`, at most `n`, ending where one cannot be read. -/
def entriesFrom (s : State) : Nat → Nat → List (List Byte)
  | 0, _ => []
  | n + 1, q =>
    match entryBytes s q with
    | some b => b :: entriesFrom s n (q + 1)
    | none => []

/-- The MAC of the newest entry before `q` that is not VOID, looking back over at most `n` positions. -/
def macBefore (s : State) : Nat → Nat → BitVec 128
  | 0, _ => 0
  | n + 1, q =>
    if q = 0 then 0
    else match tget .empty s.ledger.ring ((q - 1) % ringSize) with
      | .entry e => e.mac
      | .void => macBefore s n (q - 1)
      | _ => 0

/-- PREV_MAC of a read (Table 16.3): zero before GENESIS and before an entry that restarts the chain. -/
def prevMac (s : State) (q : Nat) : BitVec 128 :=
  match tget .empty s.ledger.ring (q % ringSize) with
  | .entry e => match e.payload with
    | .genesis => 0
    | _ => if e.restart then 0 else macBefore s ringSize q
  | _ => macBefore s ringSize q

/-- Only the OPERATOR reads the ledger, in every awake mode, in FIELD and RETURN (R446, R28). -/
def judgeLedgerRead (s : State) (role : Nat) : Option Status :=
  if role ≠ 1 ∨ lifecycleDenies s 1 true then some .denied
  else if (mode s).awake then none else some .notInMode

/-- A read joins the run of its session, or begins one (R39). -/
def noteRun (s : State) (first last : Nat) : State :=
  let x := sessOf s 1
  if x.runOn then setSess s 1 { x with runLast := last } else setSess s 1 { x with runOn := true, runFirst := first, runLast := last }

/-- Write the entries to the host and give the signed record of Table 16.3: KS001 signs the SHA-256 of the UID, the NONCE
and the record's first 0x38 bytes. -/
def readRecord (s : State) (first : Nat) (es : List (List Byte)) (buf : Nat) (nonce : BitVec 256) : State × List Byte :=
  let data := es.flatten
  let s := if data = [] then s else (dmaWrite s buf data).2
  let rec_ := leBytes 6 first ++ leBytes 2 es.length ++ beBytes 16 (prevMac s first).toNat ++ sha256 data
  let (sig, s) := signature s (uidBytes s ++ leBytes 32 nonce.toNat ++ rec_)
  (s, rec_ ++ sig)

/-- LDG_READ (0x0A01). `breakAt` is the place in the range at which the vault finds the chain broken, if it does.
Mark: DEDUCED (log entry 46). -/
def execLdgRead (r : Req) (first : BitVec 48) (count : BitVec 16) (buf : BitVec 64) (nonce : BitVec 256)
    (breakAt : Option Nat) (s : State) : Host.Outcome State Fault Refusal :=
  .next (dispatch 0x0A01 r judgeLedgerRead (fun s =>
    let q := first.toNat
    let n := count.toNat
    if n = 0 ∨ n > 64 then Plan.fail .range
    else match judgeD s true buf.toNat (64 * n) with
      | some (rs, a) => { status := .denied, bytes := [], changes := false,
                          act := fun s => (refuse s .D rs a true, .denied, leBytes 8 a) }
      | none =>
        if ! s.vault.rootPresent then Plan.fail .tampered
        else match s.ledger.head with
          | none => Plan.fail .range
          | some h =>
            if q < s.ledger.oldest ∨ q > h then Plan.fail .range
            else
              let m := min n (h - q + 1)
              let es := entriesFrom s (min m (breakAt.getD m)) q
              if es.length = m then Plan.doBytes fun s =>
                let (s, b) := readRecord s q es buf.toNat nonce
                (noteRun s q (q + m - 1), b)
              else { status := .integrity, bytes := [], changes := false, act := fun s =>
                       let (s, b) := readRecord s q es buf.toNat nonce
                       (ledgerFault s (q + es.length - 1), .integrity, b) }) s)

/-! ## LDG_BILLING and WALL_SET (R431, R433) -/

/-- LDG_BILLING (0x0A02): for the intervals that open later (R433). -/
def execLdgBilling (r : Req) (period tariff : Word) (s : State) : Host.Outcome State Fault Refusal :=
  .next (dispatch 0x0A02 r (judgeRight false true false false (inModes [.approach, .rented, .drive, .depot])) (fun _ =>
    if period.toNat = 0 ∨ period.toNat > 86400 then Plan.fail .range
    else Plan.do_ fun s => { s with ledger := { s.ledger with period := period.toNat, tariff := tariff.toNat } }) s)

/-- HOST-context wall steps of the last 24 h of ledger time (R431). -/
def recentSteps (s : State) : List (Nat × Nat) := s.ledger.hostSteps.filter fun x => decide (s.ledger.sec < x.1 + 86400)

/-- A wall-time step is committed and applied (R41, R431, R450): a boundary close due goes first, and an interval that
opened in this beat opens under the new offset.
Mark: DEDUCED (log entry 47). -/
def wallStep (s : State) (role sess : Nat) (ofs : Int) : State :=
  let s := boundaryCloses false 64 s
  let old := s.ledger.ofs
  let s := commitEntry s (.timeStep old ofs role sess)
  let hs := if role = 0 then recentSteps s ++ [(s.ledger.sec, (ofs - old).natAbs)] else s.ledger.hostSteps
  let s := { s with ledger := { s.ledger with ofs := ofs, wallValid := true, hostSteps := hs } }
  match s.ledger.interval with
  | some i => if i.num > 1 ∧ i.openBeat = s.time.beatCnt then openInterval s i.num i.lOpen else s
  | none => s

/-- WALL_SET (0x0A03, R431). -/
def execWallSet (r : Req) (sec : BitVec 48) (frac : BitVec 16) (s : State) : Host.Outcome State Fault Refusal :=
  .next (dispatch 0x0A03 r judgeHostAwake (fun s =>
    let role := curRole s
    let new : Int := (sec.toNat * 65536 + frac.toNat : Nat)
    let step := new - wallNow s
    if ¬ s.ledger.wallValid ∧ role ≠ 1 then Plan.fail .denied
    else if step.natAbs > 300 * 65536 ∧ role ≠ 1 then Plan.fail .denied
    else if role = 0 ∧ step.natAbs + ((recentSteps s).map Prod.snd).sum > 300 * 65536 then Plan.fail .denied
    else if ledgerLive s ∧ ¬ ledgerRoomFor s (if role = 0 then 1 else 2) then Plan.noRoom
    else Plan.do_ fun s => wallStep s role r.session.toNat (s.ledger.ofs + (new - wallNow s))) s)

end Sys2Proof.Machine
end

