-- ==== Sys2Proof/Machine/Beat.lean ====
section
/-! DEFINITION. The beat (chapter 5): what happens at a beat boundary and at the start of the FW window, and the
timebase tick. -/

namespace Sys2Proof.Machine

/-! ## Overrun (R138, R139) -/

/-- The TIME_OVR_STAT flags of the beat that ends: TELEM, REFILL, GATE, AGE, FW, VAULT. -/
def ovrFlags (s : State) (env : BeatEnv) : Word :=
  fieldVal 0 1 (b2n env.ovTelem) ||| fieldVal 1 1 (b2n (decide (s.time.refillMiss ≠ [] ∨ s.time.shaperMiss ≠ []))) |||
  fieldVal 2 1 (b2n (decide (s.time.gateMiss ≠ []))) ||| fieldVal 3 1 (b2n env.ovAge) ||| fieldVal 4 1 (b2n env.ovFw) |||
  fieldVal 5 1 (b2n env.ovVault)

/-- The consecutive overruns at throttle step 0; PERSIST of them are a QUARANTINE cause (R139).
Mark: DEDUCED (log entry 26). -/
def ovrPersist (s : State) (any : Bool) : State :=
  if s.power.step ≠ 0 then s
  else
    let n := if any then min 32767 (s.time.ovrCount + 1) else 0
    let s := { s with time := { s.time with ovrCount := n } }
    if any ∧ n = fld s R_TIME_OVR_CFG 0 15 then causeArises s .overrun else s

/-- The check for overrun, which the first boundary after a freeze leaves out (R583).
Mark: DEDUCED (log entry 26). -/
def ovrCheck (s : State) (env : BeatEnv) : State :=
  if s.time.noCheck then { s with time := { s.time with noCheck := false } }
  else
    let f := ovrFlags s env
    let s := { s with time := { s.time with ageOwed := s.time.ageOwed || env.ovAge } }
    let s := if f = 0 then s else raise (statInc (orReg s R_TIME_OVR_STAT 0 f) R_TIME_OVR_CNT) .overrun
    ovrPersist s (decide (f ≠ 0))

/-! ## Telemetry (R574) -/

/-- The sample of the beat that ends enters the accumulation, or is missing when TELEM overran. -/
def telDrain (s : State) (ov : Bool) : State :=
  match s.bgs.telLatch with
  | none => s
  | some l =>
    let b := s.bgs
    { s with bgs :=
      if ov then { b with telLatch := none, telMissing := b.telMissing + 1, telBeats := b.telBeats + 1 }
      else { b with telLatch := none, telN := b.telN + 1, telBeats := b.telBeats + 1,
                    telAcc := accumulate (decide (b.telN = 0)) b.telAcc l } }

/-- After 1,024 beats the accumulation closes. -/
def telClose (s : State) : State :=
  let b := s.bgs
  if b.telBeats < 1024 then s
  else { s with bgs := { b with
    telDue := some { beat := s.time.beatCnt, samples := b.telN, missing := b.telMissing, gauges := b.telAcc },
    telN := 0, telMissing := 0, telBeats := 0, telAcc := [] } }

/-- The 256 gauges of Table 21.3. -/
def gauges (s : State) (env : BeatEnv) : List Int :=
  (List.range 8).map (fun k => (env.temps.getD k 0).toInt) ++
  [(env.vbat.toNat : Int), (env.vcore.toNat : Int), (s.power.step : Int), ((cellsFree s / 16 : Nat) : Int)] ++
  (List.range 4).map (fun g => ((charged s g / 16 : Nat) : Int)) ++
  (List.range 104).map (fun e => ((((List.range (nQueues e)).foldl (fun a q => a + qDepth s e q) 0) / 16 : Nat) : Int)) ++
  (List.range 104).map (fun i => ((tget 0 s.net.rxBeat i : Nat) : Int)) ++
  (List.range 6).map (fun n => ((ttSpeed s n : Nat) : Int)) ++
  (List.range 4).map (fun n => (((fbOf s n).amp : Nat) : Int)) ++
  [(env.fwCycles.toNat : Int)] ++ List.replicate 21 0

/-- The TELEM latch; frames received are counted anew for the next beat.
Mark: DEDUCED (log entry 62). -/
def telLatch (s : State) (env : BeatEnv) : State :=
  let s := if s.power.phase = .awake then { s with bgs := { s.bgs with telLatch := some (gauges s env) } } else s
  { s with net := { s.net with rxBeat := [] } }

/-! ## Configuration that takes effect at the boundary -/

/-- The commits of the beat are resolved (R548, R564); HLB_EPOCH at all ones is final.
Mark: DEDUCED (log entry 27). -/
def commitsResolve (s : State) : State :=
  if s.hlb.commits = 0 then s
  else
    let x := epochAhead s
    let was := rd s R_HLB_EPOCH
    let s := { wr (wr s R_HLB_EPOCH (BitVec.ofNat 32 x.1)) R_HLB_EPOCH_MAX (BitVec.ofNat 32 x.2) with
               hlb := { s.hlb with commits := 0 } }
    let s := if x.1 = 2 ^ 32 - 1 ∧ was ≠ 0xFFFFFFFF then monoFinal s 5 else s
    (joinedPeers s).foldl (fun s p => enterMember s p.1 p.2 (joinedAs s p.2.epoch)) (showDigest s)

/-- The waiting beat length takes effect at this boundary: it lies on a multiple of 500 us, of local time for a change
that start-up scheduled and of the beat source otherwise, after the instant of scheduling (R131, R132).
Mark: DEDUCED (log entry 26). -/
def beatChangeDue (s : State) : Bool :=
  s.time.chgPend.isSome && decide (s.time.ticks ≠ s.time.chgAt) && decide ((domNs s (if s.time.chgLocal then 3 else beatSource s) + 2) % 500000 < 4)

/-- The gate list in force at an egress for a new beat length: it keeps its place and starts its present entry again (R132,
R304).
Mark: DEDUCED (log entry 26). -/
def gatesRederive (ns : Nat) (s : State) (e : Nat) : State :=
  match (egrOf s e).gIn with
  | none => s
  | some g =>
    let s := gclShow s ns e g
    let x := egrOf s e
    if x.gRun then setEgr s e { x with gLeft := (gclEnt s e (fldi s R_SCH_GCL_STAT e 16 6)).1 } else s

/-- The refill, shaper and gate engines switch to the new length, and the ageing passes restart (R132, R287).
Mark: DEDUCED (log entry 26). -/
def beatChange (s : State) : State :=
  match s.time.chgPend with
  | none => s
  | some code =>
    if ! beatChangeDue s then s
    else
      let ns := beatNsOf code
      let s := wr (rescale s (1000000000 / ns)) R_POL_BPS (BitVec.ofNat 32 (1000000000 / ns))
      let s := setFld { s with time := { s.time with chgPend := none } } R_TIME_BEAT 0 2 code
      let s := (List.range 104).foldl (gatesRederive ns) s
      [0, 1, 2, 3].foldl passRestart s

/-- The ticks of the beat that begins (R133). Aligned to a domain, the next boundary is moved towards the tick nearest to a
whole multiple of the beat length, the way that needs the smaller total correction, by at most 1 % of the nominal length;
otherwise the beat has its nominal length. -/
def beatTicks (s : State) : Nat :=
  let n := beatNs s / 4
  let k := beatSource s
  if k = 3 ∨ ! bit s R_TIME_BEAT 0 4 then n
  else
    let d := domOf s k
    let m := beatNs s * 65536
    let r := d.t % m
    let dist := if r ≤ m - r then m - r else 2 * m - r
    let den := (262144 * (2 ^ 40 + d.rate)).toNat
    max (n - n / 100) (min ((2 * (dist * 2 ^ 40 - d.acc) + den) / (2 * den)) (n + n / 100))

/-- What waits for a boundary takes effect: commits, configuration, the table batch with the table settings in it, fuse
values, domains, the beat length. -/
def boundaryConfig (s : State) : State :=
  let s := applyChanges (applyBatch (applyChanges (commitsResolve s)))
  let s := governFuses s
  let s := if s.power.phase = .awake then domsFollow s else s
  beatChange s

/-! ## The summary block (R507, R510) -/

/-- The summary block of Table 18.9. -/
def summaryBytes (s : State) : List Byte :=
  leBytes 4 s.time.beatCnt.toNat ++ leBytes 4 0 ++
  ((List.range 8).flatMap fun g => leBytes 4 (rd s (R_EVT_PEND + 4 * g) &&& rd s (R_EVT_EN + 4 * g)).toNat) ++
  leBytes 2 (ringProd s 1) ++ leBytes 2 (ringProd s 3) ++ leBytes 2 (ringProd s 5) ++
  leBytes 2 (rd s R_CIPH_CQ_TAIL).toNat ++ leBytes 2 (rd s (R_CIPH_CQ_TAIL + 0x100)).toNat ++ leBytes 14 0

/-- Where the block goes: to host memory over PCIe, to BRG_SUMMARY on quad-SPI. -/
def summaryWrite (s : State) : State :=
  let m := fld s R_BRG_CFG 0 2
  let b := summaryBytes s
  if onSpi s then
    (if m = 1 ∨ m = 3 then
      (List.range 16).foldl (fun s k => wr s (R_BRG_SUMMARY + 4 * k) (BitVec.ofNat 32 (ofLeBytes ((b.drop (4 * k)).take 4)))) s
     else s)
  else if m = 1 then (dmaWrite s ((rd s R_BRG_SUM_LO).toNat + 2 ^ 32 * (rd s R_BRG_SUM_HI).toNat) b).2
  else s

/-! ## Helber at the beat (R549, R552, R553) -/

/-- A peer's LOCK_REQ. -/
def lockReq (p : Peer) : Bool := p.lock.getLsbD 2

/-- Peers whose LOCK_REQ is newly set.
Mark: DEDUCED (log entry 59). -/
def newLocks (s : State) : Bool := (joinedPeers s).any fun x => lockReq x.2 && ! x.2.lockSeen

/-- Reports of the joined peers of a cluster, merged (Table 20.6); a peer that is not joined reports nothing (R553).
Mark: DEDUCED (log entry 59). -/
def mergeLocks (s : State) : State :=
  let js := if inCluster s then joinedPeers s else []
  let moving := js.filter fun x => x.2.lock.getLsbD 3
  { s with hlb := { s.hlb with
      immobAny := js.any fun x => x.2.lock.getLsbD 1, lockAny := js.any fun x => lockReq x.2, motionAny := decide (moving ≠ []),
      mnode := (moving.head?.map Prod.fst).getD 0,
      peers := s.hlb.peers.map fun x => (x.1, { x.2 with lockSeen := joined x.2 && lockReq x.2 }) } }

/-- The lock-state rule (Table 20.5).
Mark: DEDUCED (log entry 59). -/
def lockRule (s : State) : State :=
  let new := inCluster s && newLocks s
  let moved := s.hlb.motionAny
  let s := mergeLocks s
  let s := if ! new then s
    else if mode s = .drive then atStandstill s fun v => { v with lockPend := true, toRented := true } else engageAll s
  let s := if s.hlb.immobAny ∧ mode s = .drive then atStandstill s fun v => { v with immobPend := true, toRented := true } else s
  if moved ∧ ¬ s.hlb.motionAny then settle s else s

/-- The restriction of R549 begins or ends. -/
def behindRule (s : State) : State :=
  let b := inCluster s && behindNow s
  { s with hlb := { s.hlb with behind := b, safe := b } }

/-! ## Passing of time (R140, R428, R106) -/

/-- Ledger time advances by one 32.768 kHz period; at all ones it stays (R428). -/
def ltimeStep (s : State) : State :=
  let l := s.ledger
  let f := ((l.frac : Int) + 2 ^ 25 + l.trim).toNat
  let sec := l.sec + f / 2 ^ 40
  if sec ≥ 2 ^ 48 then { s with ledger := { l with sec := 2 ^ 48 - 1, frac := 2 ^ 40 - 1 } }
  else { s with ledger := { l with sec := sec, frac := f % 2 ^ 40 } }

/-- A period of the oscillator is counted, and the alarm runs (R106, R620). -/
def alarmStep (s : State) : State :=
  let s := { s with power := { s.power with oscPeriods := min 1024 (s.power.oscPeriods + 1) } }
  if s.power.alarmLeft = 0 then s
  else if s.power.alarmLeft = 1 then alarmFire s
  else { s with power := { s.power with alarmLeft := s.power.alarmLeft - 1 } }

/-- One period of the 32.768 kHz oscillator. -/
def periodStep (s : State) : State := alarmStep (ltimeFinal (ltimeStep s))

/-- The oscillator's part of `n` ticks: 32,768 periods in a second of 250,000,000 ticks.
Mark: DESIGN CHOICE (log entry 1). -/
def oscPass (n : Nat) (s : State) : State :=
  if ! s.power.osc then s
  else
    let p := s.ledger.phase + 32768 * n
    (List.range (p / 250000000)).foldl (fun s _ => periodStep s) { s with ledger := { s.ledger with phase := p % 250000000 } }

/-- `n` ticks pass. -/
def pass (n : Nat) (s : State) : State := oscPass n (corePass n s)

/-! ## What is judged once a beat -/

/-- The throttle's quiet beats (R87): after 8 in a row fclk doubles by one step.
Mark: DEDUCED (log entry 20). -/
def quietBeat (s : State) : State :=
  let p := s.power
  if p.sagInBeat || p.vbSag || p.vcSag then { s with power := { p with quiet := 0, sagInBeat := p.vbSag || p.vcSag } }
  else if p.quiet + 1 ≥ 8 then { s with power := { p with quiet := 0, step := p.step - 1 } }
  else { s with power := { p with quiet := p.quiet + 1 } }

/-- The fuse array's temperature against REF: a re-check starts (R570).
Mark: DEDUCED (log entry 62). -/
def tempJudge (s : State) (env : BeatEnv) : State :=
  let t := (env.temps.getD 0 0).toInt
  let s := { s with bgs := { s.bgs with tempCur := t } }
  if ¬ s.bgs.fuseRun ∧ (t - s.bgs.tempRef).natAbs ≥ 300 then
    { s with bgs := { s.bgs with fuseRun := true, tempRef := t } }
  else s

/-- The line monitor (R587). -/
def lineMonitor (s : State) (env : BeatEnv) : State :=
  (List.range 6).foldl (fun s k =>
    let l := (selOf s ([Cls.V, .S, .F, .H, .D, .G].getD k .H) R_DBG_LANE_SEL).toNat % 128
    if l ≥ 96 then s
    else
      let st := (laneOf s l).st
      wri s R_DBG_LANE_V l (if st = .off ∨ st = .shed then 0x80008000 else
        ((env.laneV.find? fun x => decide (x.1 = l)).map Prod.snd).getD (rdi s R_DBG_LANE_V l))) s

/-- The random drop's averages of the port, HP and PP queues (R272). -/
def averages (s : State) : State :=
  (List.range 10).foldl (fun s k => (List.range (nQueues (96 + k))).foldl (fun s q => avgUpdate s (96 + k) q) s) s

/-- What only runs after start-up step 7. -/
def awakeBeat (s : State) (env : BeatEnv) : State :=
  if s.power.phase ≠ .awake then s
  else lineMonitor (tempJudge (lockRule (behindRule (hlbKeyCheck s))) env) env

/-- TIME_BEAT_CNT increments; its wrap is raised (R134). -/
def beatCount (s : State) : State :=
  let s' := { s with time := { s.time with beatCnt := s.time.beatCnt + 1, beatPos := s.time.beatPos - s.time.beatLen } }
  if s'.time.beatCnt = 0 then raise s' .beatWrap else s'

/-- The boundary in the order of R136. The sample of VBAT of this beat, gauge 8 of Table 21.3, moves the comparisons
of Table 3.5.
Mark: DEDUCED (log entries 18, 26). -/
def boundary (env : BeatEnv) (s : State) : State :=
  let s := setVbat s (10 * env.vbat.toNat)
  let s := telDrain (ovrCheck s env) env.ovTelem
  let s := boundaryConfig (telClose (beatCount s))
  let s := { s with time := { s.time with beatLen := beatTicks s } }
  let s := summaryWrite (telLatch s env)
  let s := gatesWait (gateTask (refillTask s env.polMiss env.shMiss) env.gateMiss)
  resumeSleep (quietBeat (awakeBeat (averages s) env))

/-- BEAT_BOUNDARY (R133, R136): what is left of the running beat passes, and the boundary is reached.
Mark: DESIGN CHOICE (log entry 1). -/
def execBeatBoundary (env : BeatEnv) (s : State) : Host.Outcome State Fault Refusal :=
  .next (
    let s := begin_ s
    if clocked s then boundary env (pass (s.time.beatLen - s.time.beatPos) s) else s)

/-- Map records whose entries scrub invalidated are written again (Table 21.2).
Mark: DEDUCED (log entry 61). -/
def rewriteNow (s : State) : State :=
  let l := s.bgs.rewrite
  l.foldl (fun s c => placeEntry s true c) { s with bgs := { s.bgs with rewrite := [] } }

/-- FW_WINDOW_START (R136, R232): one ageing step of each pipeline, unless the last one still runs (R138).
Mark: DEDUCED (log entry 35). -/
def execFwWindowStart (s : State) : Host.Outcome State Fault Refusal :=
  .next (whenRunning (begin_ s) fun s =>
    let s := if s.time.ageOwed then { s with time := { s.time with ageOwed := false } } else [0, 1, 2, 3].foldl ageStep s
    rewriteNow s)

/-! ## The tick -/

/-- One 4 ns tick: what a step does while no command waits.
Mark: DESIGN CHOICE (log entry 1). -/
def tick (s : State) : State := pass 1 (begin_ s)

end Sys2Proof.Machine
end

