-- ==== Sys2Proof/Machine/Sessions.lean ====
section
/-! DEFINITION. Role sessions (chapter 1): challenges, opening and closing, lockouts and time-outs, SYS_INFO, and the
rejection of malformed packets. -/

namespace Sys2Proof.Machine

/-! ## Rejection before the checks (R517) -/

/-- A request rejected before every check: BAD_PARAM in an untagged response. An unlisted opcode under a session
whose tag verifies still writes its ROLE_ACTION entry (R394). -/
def rejectReq (r : Req) (op : Nat) (unlisted : Bool) (s0 : State) : State :=
  let s := begin_ s0
  if ! running s || ! (roomFor s r.chan || acceptedHead s r.chan) then s
  else match takeRequest s r op with
    | none => s
    | some s =>
      let s := match s.disp.cur with
        | some c =>
          if c.role ≠ 0 ∧ unlisted ∧ tagGood op r c then auditRefusal (endRun s c.role) c.role .badParam op r else s
        | none => s
      answer (setCur s none) r op .badParam []

/-- CMD_REJECT (R517): a malformed header, a length that does not match, or an opcode that is not listed.
Mark: DEDUCED (log entry 44). -/
def execCmdReject (r : Req) (opcode : BitVec 16) (unlisted : Bool) (s : State) : Host.Outcome State Fault Refusal :=
  .next (rejectReq r opcode.toNat unlisted s)

/-! ## SYS_INFO (R527, R528) -/

/-- SYS_INFO runs in every awake mode, and in the recovery service. -/
def judgeInfo (s : State) (role : Nat) : Option Status := if s.boot.recovery then none else judgeHostAwake s role

/-- The bytes SYS_INFO returns. The recovery service reports no running image. -/
def infoBytes (s : State) : List Byte :=
  let q := if mode s = .quarantine then s.power.qcause.code else 0
  let rec_ := s.boot.recovery
  leBytes 4 (rd s R_SYS_IDENT).toNat ++ leBytes 4 (rd s R_SYS_REV).toNat ++ uidBytes s ++
  leBytes 1 (lifecycle s).code ++ leBytes 1 (mode s).code ++ leBytes 1 q ++
  leBytes 1 (if rec_ then 0xFF else b2n s.boot.slotB) ++ leBytes 4 (if rec_ then 0 else s.boot.version.toNat) ++
  leBytes 1 (if rec_ then 0 else s.boot.svn) ++ leBytes 1 (fwMin s) ++ [0, 0]

/-- SYS_INFO (0x0101). -/
def execSysInfo (r : Req) (s : State) : Host.Outcome State Fault Refusal :=
  .next (dispatch 0x0101 r judgeInfo (fun s => Plan.read (infoBytes s)) s)

/-! ## Challenges (R29) -/

/-- SESSION_CHALLENGE (0x0110): the role's only outstanding challenge. R26 refuses "every session request" of a role
whose slot is EMPTY, ORPHAN or FINAL, and does not say whether the request for a challenge is one: the model gives the
challenge and refuses SESSION_OPEN (check 3 of R30).
Mark: DESIGN CHOICE (log entry 44). -/
def execSessionChallenge (r : Req) (role : BitVec 8) (s : State) : Host.Outcome State Fault Refusal :=
  .next (if r.session ≠ 0 then rejectReq r 0x0110 false s
    else dispatch 0x0110 r judgeHostAwake (fun s =>
      if role.toNat = 0 ∨ role.toNat > 3 then Plan.fail .badParam
      else if s.vault.rngFailed then { status := .busy, bytes := [], changes := false, act := fun s => ((wantRandom s).2, .busy, []) }
      else Plan.doBytes fun s =>
        let (k, s) := draw s
        (setSess s role.toNat { sessOf s role.toNat with chal := some (randBytes k 32) }, randBytes k 32)) s)

/-- SESSION_CHALLENGE_EXPIRY (R29). -/
def execSessionChallengeExpiry (role : Fin 4) (s : State) : Host.Outcome State Fault Refusal :=
  .next (whenRunning (begin_ s) fun s => setSess s role { sessOf s role with chal := none })

/-! ## Opening (R28, R30 to R32) -/

/-- The governing lifecycle opens sessions of this role (R28). -/
def roleOpens (s : State) (role : Nat) : Bool :=
  match s.fuses.govLc with
  | .field => true
  | .return_ => decide (role = 1) || decide (role = 3)
  | _ => decide (role = 3)

/-- A failed SESSION_OPEN (R32): the fifth in a row locks the role for 60 s, and each one at the end of a lockout
doubles it up to 3,840 s; the LOCKOUT entry follows (R40).
Mark: DEDUCED (log entry 44). -/
def openFailed (s : State) (role : Nat) : State :=
  let x := sessOf s role
  let lock (x : Sess) (secs : Nat) : State :=
    queueEntry (setSess s role { x with lockS := secs, locked := true }) (.session 1 role 0 0 0 secs)
  if x.locked then s
  else if x.fails ≥ 5 then lock x (min 3840 (2 * x.lockS))
  else if x.fails + 1 = 5 then lock { x with fails := 5 } 60
  else setSess s role { x with fails := x.fails + 1 }

/-- The challenge presented is the role's outstanding one. -/
def chalMatches (x : Sess) (c : BitVec 256) : Bool :=
  match x.chal with
  | some b => decide (leBytes 32 c.toNat = b)
  | none => false

/-- Checks 2 to 8 of R30: the status of the first that fails and whether the challenge was presented.
Mark: DEDUCED (log entry 44). -/
def openChecks (s : State) (role : BitVec 8) (idleS : BitVec 16) (challenge : BitVec 256) (uid : BitVec 128) (eph sig : List Byte) :
    Option Status × Bool :=
  let n := role.toNat
  let x := sessOf s n
  if ! ecOnCurve eph then (some .badParam, false)
  else if x.locked ∨ ! roleOpens s n ∨ ! roleKeyOk s n then (some .denied, false)
  else if idleS.toNat < 10 ∨ idleS.toNat > 3600 then (some .range, false)
  else if ! chalMatches x challenge then (some .stale, false)
  else if ! uidMatches s uid then (some .denied, true)
  else if ! ecdsaVerify (slotOf s (7 + n)).key (openSigned role idleS challenge uid eph) sig then (some .denied, true)
  else if x.isOpen then (some .busy, true)
  else (none, true)

/-- A session ID for draw `k`: random, not zero, and that of no open session (R31). -/
def newSessionId (s : State) (k : Nat) : BitVec 16 :=
  let used (i : BitVec 16) : Bool := decide (i = 0) || [1, 2, 3].any fun r => (sessOf s r).isOpen && decide ((sessOf s r).id = i)
  let c := Config.sessionId k
  ([c, c + 1, c + 2, c + 3].find? fun i => ! used i).getD (c + 4)

/-- A session opens (R31): its entry is committed first, the count and the lockout length are reset (R32). The session
key is what the KDF gives of the ECDH secret, the challenge and the role; it stays in the vault. The response carries the
ID, the vault's ephemeral key, and the signature by KS001 over the hash of the request and both fields, zero where no
root exists.
Mark: DEDUCED (log entry 44). -/
def openSession (s : State) (r : Req) (role idleS : Nat) (challenge : BitVec 256) (eph : List Byte) : State × List Byte :=
  let (k, s) := draw s
  let id := newSessionId s k
  let d := randScalar k
  let key := kdf (ecdh d eph) "KWSESS" (leBytes 32 challenge.toNat ++ leBytes 1 role) 32
  let s := commitEntry s (.session 0 role id.toNat 0 idleS 0)
  let s := setSess s role { sessOf s role with
    isOpen := true, id := id, chan := r.chan, lastSeq := 0, tagFails := 0, idleS := idleS, key := key,
    fails := 0, lockS := 0, locked := false }
  let (sig, s) := signature s (sha256 r.params ++ leBytes 2 id.toNat ++ ecPublic d)
  (s, leBytes 2 id.toNat ++ [0, 0] ++ ecPublic d ++ sig)

/-- SESSION_OPEN (0x0111): Table 1.3.
Mark: DEDUCED (log entry 44). -/
def execSessionOpen (r : Req) (role : BitVec 8) (idleS : BitVec 16) (challenge : BitVec 256) (uid : BitVec 128)
    (eph sig : List Byte) (s : State) : Host.Outcome State Fault Refusal :=
  .next (if r.session ≠ 0 then rejectReq r 0x0111 false s
    else dispatch 0x0111 r judgeHostAwake (fun s =>
      let n := role.toNat
      if n = 0 ∨ n > 3 then Plan.fail .badParam
      else
        let use (s : State) (presented : Bool) : State :=
          if presented then setSess s n { sessOf s n with chal := none } else s
        match openChecks s role idleS challenge uid eph sig with
        | (some st, p) => { status := st, bytes := [], changes := true, act := fun s => (openFailed (use s p) n, st, []) }
        | (none, p) =>
          if s.vault.rngFailed then
            { status := .busy, bytes := [], changes := false, act := fun s => ((wantRandom (use s p)).2, .busy, []) }
          else if ledgerLive s && ! ledgerRoom s then
            { status := .busy, bytes := [], changes := false, act := fun s => noEntry (use s p) }
          else Plan.doBytes fun s => openSession (use s p) r n idleS.toNat challenge eph) s)

/-- SESSION_LOCKOUT_END (R32). -/
def execSessionLockoutEnd (role : Fin 4) (s : State) : Host.Outcome State Fault Refusal :=
  .next (whenRunning (begin_ s) fun s => setSess s role { sessOf s role with locked := false })

/-! ## Closing (R37, R38) -/

/-- SESSION_IDLE_TIMEOUT (R37). -/
def execSessionIdleTimeout (role : Fin 4) (s : State) : Host.Outcome State Fault Refusal :=
  .next (whenRunning (begin_ s) fun s => closeSession s role 6)

/-- SESSION_LIFETIME (R37). -/
def execSessionLifetime (role : Fin 4) (s : State) : Host.Outcome State Fault Refusal :=
  .next (whenRunning (begin_ s) fun s => closeSession s role 5)

/-- SESSION_CLOSE is accepted only under the session it closes (R38). -/
def judgeClose (_ : State) (role : Nat) : Option Status := if role = 0 then some .noSession else none

/-- SESSION_CLOSE (0x0112). -/
def execSessionClose (r : Req) (s : State) : Host.Outcome State Fault Refusal :=
  .next (dispatch 0x0112 r judgeClose (fun s =>
    let role := curRole s
    Plan.do_ fun s => closeSession s role 7) s)

end Sys2Proof.Machine
end

