-- ==== Sys2Proof/Machine/Dispatch.lean ====
section
/-! DEFINITION. Dispatch: one arm for each command, each a direct call of its meaning. -/

namespace Sys2Proof.Machine

/-- What a command does to the state.
Mark: DESIGN CHOICE (log entries 6, 69). -/
def exec (i : Instr) (s : State) : Host.Outcome State Fault Refusal :=
  match i with
  | .coldReset cause => Sys2Proof.Machine.execColdReset cause s
  | .warmReset => Sys2Proof.Machine.execWarmReset s
  | .startupPg straps pllLocked rbiasOk => Sys2Proof.Machine.execStartupPg straps pllLocked rbiasOk s
  | .startupFuse reads temp => Sys2Proof.Machine.execStartupFuse reads temp s
  | .startupSelftest firstOk secondOk => Sys2Proof.Machine.execStartupSelftest firstOk secondOk s
  | .startupRoot rootOk checkOk storeOk => Sys2Proof.Machine.execStartupRoot rootOk checkOk storeOk s
  | .startupFw a b => Sys2Proof.Machine.execStartupFw a b s
  | .startupLanes mapOk => Sys2Proof.Machine.execStartupLanes mapOk s
  | .startupLedger chainBreak tailDirty => Sys2Proof.Machine.execStartupLedger chainBreak tailDirty s
  | .startupMode => Sys2Proof.Machine.execStartupMode s
  | .fieldWake vbat => Sys2Proof.Machine.execFieldWake vbat s
  | .alarmWake => Sys2Proof.Machine.execAlarmWake s
  | .vbatRiseSample mv => Sys2Proof.Machine.execVbatRiseSample mv s
  | .winWake pin => Sys2Proof.Machine.execWinWake pin s
  | .laneWake lane evt => Sys2Proof.Machine.execLaneWake lane evt s
  | .wakeReceiverShort lane => Sys2Proof.Machine.execWakeReceiverShort lane s
  | .railPowerGood rail => Sys2Proof.Machine.execRailPowerGood rail s
  | .railTimeout rail => Sys2Proof.Machine.execRailTimeout rail s
  | .railRetry => Sys2Proof.Machine.execRailRetry s
  | .railLoss rail => Sys2Proof.Machine.execRailLoss rail s
  | .brownOut => Sys2Proof.Machine.execBrownOut s
  | .vbkpLoss => Sys2Proof.Machine.execVbkpLoss s
  | .laneShed => Sys2Proof.Machine.execLaneShed s
  | .laneShedReturn => Sys2Proof.Machine.execLaneShedReturn s
  | .lowEnergyClear mv => Sys2Proof.Machine.execLowEnergyClear mv s
  | .sagTrip vcore => Sys2Proof.Machine.execSagTrip vcore s
  | .sagHalve => Sys2Proof.Machine.execSagHalve s
  | .sagRelease vcore => Sys2Proof.Machine.execSagRelease vcore s
  | .sentryDwellExpiry => Sys2Proof.Machine.execSentryDwellExpiry s
  | .parkTimeout => Sys2Proof.Machine.execParkTimeout s
  | .approachIdleExpiry => Sys2Proof.Machine.execApproachIdleExpiry s
  | .serviceIdleTimeout => Sys2Proof.Machine.execServiceIdleTimeout s
  | .depotIdleTimeout => Sys2Proof.Machine.execDepotIdleTimeout s
  | .driveStartRequest lane ide id data => Sys2Proof.Machine.execDriveStartRequest lane ide id data s
  | .driveStopRequest lane ide id data => Sys2Proof.Machine.execDriveStopRequest lane ide id data s
  | .woutAckWrite => Sys2Proof.Machine.execWoutAckWrite s
  | .pwrAlarmWrite w => Sys2Proof.Machine.execPwrAlarmWrite w s
  | .gateRequestWrite pwr w => Sys2Proof.Machine.execGateRequestWrite pwr w s
  | .gateEffect block => Sys2Proof.Machine.execGateEffect block s
  | .vaultHold block => Sys2Proof.Machine.execVaultHold block s
  | .vaultRelease block => Sys2Proof.Machine.execVaultRelease block s
  | .beatBoundary env => Sys2Proof.Machine.execBeatBoundary env s
  | .fwWindowStart => Sys2Proof.Machine.execFwWindowStart s
  | .agePeriodStart => Sys2Proof.Machine.execAgePeriodStart s
  | .bgsWindowStart work => Sys2Proof.Machine.execBgsWindowStart work s
  | .telemRecord => Sys2Proof.Machine.execTelemRecord s
  | .fuseRecheck reads temp => Sys2Proof.Machine.execFuseRecheck reads temp s
  | .syncReceived dom m => Sys2Proof.Machine.execSyncReceived dom m s
  | .syncTimeout dom own => Sys2Proof.Machine.execSyncTimeout dom own s
  | .triggerFire c => Sys2Proof.Machine.execTriggerFire c s
  | .trgcCfgWrite c w => Sys2Proof.Machine.execTrgcCfgWrite c w s
  | .frameReceive f => Sys2Proof.Machine.execFrameReceive f s
  | .pipeReset p => Sys2Proof.Machine.execPipeReset p s
  | .spillOut g => Sys2Proof.Machine.execSpillOut g s
  | .spillReturn p q => Sys2Proof.Machine.execSpillReturn p q s
  | .carryVerify egr q corrupt => Sys2Proof.Machine.execCarryVerify egr q corrupt s
  | .egressPick egr => Sys2Proof.Machine.execEgressPick egr s
  | .canArbitrationEnd lane error => Sys2Proof.Machine.execCanArbitrationEnd lane error s
  | .rsqTimeout stream egr => Sys2Proof.Machine.execRsqTimeout stream egr s
  | .rsqContextExpiry stream egr => Sys2Proof.Machine.execRsqContextExpiry stream egr s
  | .launchTimeReached egr q => Sys2Proof.Machine.execLaunchTimeReached egr q s
  | .launchMiss egr q => Sys2Proof.Machine.execLaunchMiss egr q s
  | .laneProbeEnd lane => Sys2Proof.Machine.execLaneProbeEnd lane s
  | .laneFaultDetect lane code => Sys2Proof.Machine.execLaneFaultDetect lane code s
  | .laneOpenDetect lane => Sys2Proof.Machine.execLaneOpenDetect lane s
  | .laneReversal lane => Sys2Proof.Machine.execLaneReversal lane s
  | .laneRetry lane present => Sys2Proof.Machine.execLaneRetry lane present s
  | .laneFaultFree lane => Sys2Proof.Machine.execLaneFaultFree lane s
  | .busOffRecovery lane => Sys2Proof.Machine.execBusOffRecovery lane s
  | .linHeader lane => Sys2Proof.Machine.execLinHeader lane s
  | .linResponse lane id rate missing => Sys2Proof.Machine.execLinResponse lane id rate missing s
  | .plcaFallback lane => Sys2Proof.Machine.execPlcaFallback lane s
  | .collision lane late => Sys2Proof.Machine.execCollision lane late s
  | .backoffExpiry lane => Sys2Proof.Machine.execBackoffExpiry lane s
  | .portUpDelay p => Sys2Proof.Machine.execPortUpDelay p s
  | .linkChange p up speed => Sys2Proof.Machine.execLinkChange p up speed s
  | .phyInt n => Sys2Proof.Machine.execPhyInt n s
  | .pauseReceived p pfc en quanta => Sys2Proof.Machine.execPauseReceived p pfc en quanta s
  | .pauseExpiry p b => Sys2Proof.Machine.execPauseExpiry p b s
  | .pauseWdRx p b => Sys2Proof.Machine.execPauseWdRx p b s
  | .pauseIgnoreEnd p b tx => Sys2Proof.Machine.execPauseIgnoreEnd p b tx s
  | .pauseWdTx p b => Sys2Proof.Machine.execPauseWdTx p b s
  | .pauseRefresh p b => Sys2Proof.Machine.execPauseRefresh p b s
  | .lldpSend p => Sys2Proof.Machine.execLldpSend p s
  | .lldpReceive p w => Sys2Proof.Machine.execLldpReceive p w s
  | .lldpAgeOut p => Sys2Proof.Machine.execLldpAgeOut p s
  | .lpiEnter p => Sys2Proof.Machine.execLpiEnter p s
  | .lpiExit p => Sys2Proof.Machine.execLpiExit p s
  | .tamper src => Sys2Proof.Machine.execTamper src s
  | .rngFail reseedOk => Sys2Proof.Machine.execRngFail reseedOk s
  | .ciphSqTailWrite e idx jobIds => Sys2Proof.Machine.execCiphSqTailWrite e idx jobIds s
  | .bulkJobStart e vault desc => Sys2Proof.Machine.execBulkJobStart e vault desc s
  | .bulkJobComplete e m => Sys2Proof.Machine.execBulkJobComplete e m s
  | .ciphKctlWrite e w => Sys2Proof.Machine.execCiphKctlWrite e w s
  | .ciphKeywWrite e k w => Sys2Proof.Machine.execCiphKeywWrite e k w s
  | .storeJob slot first run decrypt => Sys2Proof.Machine.execStoreJob slot first run decrypt s
  | .engineWd e => Sys2Proof.Machine.execEngineWd e s
  | .laneauthKeyLoad prof => Sys2Proof.Machine.execLaneauthKeyLoad prof s
  | .laSave => Sys2Proof.Machine.execLaSave s
  | .fieldSessionStart => Sys2Proof.Machine.execFieldSessionStart s
  | .nfcApdu x => Sys2Proof.Machine.execNfcApdu x s
  | .exchangeWindowClose => Sys2Proof.Machine.execExchangeWindowClose s
  | .tagWiredAccess c write acc => Sys2Proof.Machine.execTagWiredAccess c write acc s
  | .credentialCheck vbkp field vbat => Sys2Proof.Machine.execCredentialCheck vbkp field vbat s
  | .nfcChallengeExpiry => Sys2Proof.Machine.execNfcChallengeExpiry s
  | .fieldLossTimeout => Sys2Proof.Machine.execFieldLossTimeout s
  | .pendingGrantRun => Sys2Proof.Machine.execPendingGrantRun s
  | .pendingGrantExpiry => Sys2Proof.Machine.execPendingGrantExpiry s
  | .credLockoutEnd host => Sys2Proof.Machine.execCredLockoutEnd host s
  | .sessionLockoutEnd role => Sys2Proof.Machine.execSessionLockoutEnd role s
  | .sessionChallengeExpiry role => Sys2Proof.Machine.execSessionChallengeExpiry role s
  | .sessionIdleTimeout role => Sys2Proof.Machine.execSessionIdleTimeout role s
  | .sessionLifetime role => Sys2Proof.Machine.execSessionLifetime role s
  | .ledgerCommit programOk => Sys2Proof.Machine.execLedgerCommit programOk s
  | .intervalClose => Sys2Proof.Machine.execIntervalClose s
  | .trimUpdate periods => Sys2Proof.Machine.execTrimUpdate periods s
  | .denySummary => Sys2Proof.Machine.execDenySummary s
  | .toothEdge n width => Sys2Proof.Machine.execToothEdge n width s
  | .syntheticTooth n => Sys2Proof.Machine.execSyntheticTooth n s
  | .trackerStall n => Sys2Proof.Machine.execTrackerStall n s
  | .trackerFault n code => Sys2Proof.Machine.execTrackerFault n code s
  | .trackerFaultClear n => Sys2Proof.Machine.execTrackerFaultClear n s
  | .motionTimeout n => Sys2Proof.Machine.execMotionTimeout n s
  | .angleEvent k => Sys2Proof.Machine.execAngleEvent k s
  | .conversionDone ch sin cos theta => Sys2Proof.Machine.execConversionDone ch sin cos theta s
  | .boltLimit b => Sys2Proof.Machine.execBoltLimit b s
  | .boltRetry b => Sys2Proof.Machine.execBoltRetry b s
  | .keysafeHoldExpiry => Sys2Proof.Machine.execKeysafeHoldExpiry s
  | .cmpoPulseEnd k => Sys2Proof.Machine.execCmpoPulseEnd k s
  | .bridgeReset => Sys2Proof.Machine.execBridgeReset s
  | .lockedReadTlp => Sys2Proof.Machine.execLockedReadTlp s
  | .spiRead addr count => Sys2Proof.Machine.execSpiRead addr count s
  | .spiWrite addr words => Sys2Proof.Machine.execSpiWrite addr words s
  | .wstat => Sys2Proof.Machine.execWstat s
  | .spiAbort => Sys2Proof.Machine.execSpiAbort s
  | .cmdPut length opcode session seq => Sys2Proof.Machine.execCmdPut length opcode session seq s
  | .cmdGet => Sys2Proof.Machine.execCmdGet s
  | .cmdRingFetch opcode session seq => Sys2Proof.Machine.execCmdRingFetch opcode session seq s
  | .cmdReject r opcode unlisted => Sys2Proof.Machine.execCmdReject r opcode unlisted s
  | .hpTxDescriptor desc bytes stuck decided => Sys2Proof.Machine.execHpTxDescriptor desc bytes stuck decided s
  | .hpRxDeliver buf => Sys2Proof.Machine.execHpRxDeliver buf s
  | .dmaTimeout op => Sys2Proof.Machine.execDmaTimeout op s
  | .hostLostWrite c => Sys2Proof.Machine.execHostLostWrite c s
  | .msixSend vec fmask => Sys2Proof.Machine.execMsixSend vec fmask s
  | .semAcquire c k owner => Sys2Proof.Machine.execSemAcquire c k owner s
  | .semRelease c k w => Sys2Proof.Machine.execSemRelease c k w s
  | .semCommit c k w off data mask => Sys2Proof.Machine.execSemCommit c k w off data mask s
  | .semLeaseExpiry k => Sys2Proof.Machine.execSemLeaseExpiry k s
  | .helloSend => Sys2Proof.Machine.execHelloSend s
  | .helberReceive port f => Sys2Proof.Machine.execHelberReceive port f s
  | .peerLostTimeout node => Sys2Proof.Machine.execPeerLostTimeout node s
  | .peerAbsentTimeout node => Sys2Proof.Machine.execPeerAbsentTimeout node s
  | .pushAckSend src id total img commitOk => Sys2Proof.Machine.execPushAckSend src id total img commitOk s
  | .pushResendRound => Sys2Proof.Machine.execPushResendRound s
  | .blobDiscard src id => Sys2Proof.Machine.execBlobDiscard src id s
  | .pullSend node => Sys2Proof.Machine.execPullSend node s
  | .freezeEnter => Sys2Proof.Machine.execFreezeEnter s
  | .freezeIgnored => Sys2Proof.Machine.execFreezeIgnored s
  | .freezeExit => Sys2Proof.Machine.execFreezeExit s
  | .freezeWindowEnd => Sys2Proof.Machine.execFreezeWindowEnd s
  | .snapAddr a => Sys2Proof.Machine.execSnapAddr a s
  | .snapData => Sys2Proof.Machine.execSnapData s
  | .evtPendWrite c g w => Sys2Proof.Machine.execEvtPendWrite c g w s
  | .evtEnWrite c g w => Sys2Proof.Machine.execEvtEnWrite c g w s
  | .evtTestWrite c w => Sys2Proof.Machine.execEvtTestWrite c w s
  | .cckInjectWrite c w => Sys2Proof.Machine.execCckInjectWrite c w s
  | .statLowWordRead c off => Sys2Proof.Machine.execStatLowWordRead c off s
  | .rcRead c t acc => Sys2Proof.Machine.execRcRead c t acc s
  | .timeNsRead n => Sys2Proof.Machine.execTimeNsRead n s
  | .ldgLoRead c off => Sys2Proof.Machine.execLdgLoRead c off s
  | .regWrite c t acc => Sys2Proof.Machine.execRegWrite c t acc s
  | .sysInfo r => Sys2Proof.Machine.execSysInfo r s
  | .sessionChallenge r role => Sys2Proof.Machine.execSessionChallenge r role s
  | .sessionOpen r role idleS challenge uid eph sig => Sys2Proof.Machine.execSessionOpen r role idleS challenge uid eph sig s
  | .sessionClose r => Sys2Proof.Machine.execSessionClose r s
  | .fwLoad r buf len img readOk => Sys2Proof.Machine.execFwLoad r buf len img readOk s
  | .fwCommit r => Sys2Proof.Machine.execFwCommit r s
  | .sysReset r kind => Sys2Proof.Machine.execSysReset r kind s
  | .lifecycleAdvance r target => Sys2Proof.Machine.execLifecycleAdvance r target s
  | .mapLoad r buf len m formOk readOk => Sys2Proof.Machine.execMapLoad r buf len m formOk readOk s
  | .mapRead r buf len => Sys2Proof.Machine.execMapRead r buf len s
  | .modeSet r target => Sys2Proof.Machine.execModeSet r target s
  | .blockGate r block kind => Sys2Proof.Machine.execBlockGate r block kind s
  | .laneConfig r lane img => Sys2Proof.Machine.execLaneConfig r lane img s
  | .laneRecover r lane => Sys2Proof.Machine.execLaneRecover r lane s
  | .portConfig r port img => Sys2Proof.Machine.execPortConfig r port img s
  | .phyRead r phy clause dev reg value => Sys2Proof.Machine.execPhyRead r phy clause dev reg value s
  | .phyWrite r phy clause dev reg value answered => Sys2Proof.Machine.execPhyWrite r phy clause dev reg value answered s
  | .tblWrite r table flags pmask index entry => Sys2Proof.Machine.execTblWrite r table flags pmask index entry s
  | .tblRead r table pipe node index key rsp => Sys2Proof.Machine.execTblRead r table pipe node index key rsp s
  | .tblDelete r table pmask index key => Sys2Proof.Machine.execTblDelete r table pmask index key s
  | .tblFlush r pmask flags => Sys2Proof.Machine.execTblFlush r pmask flags s
  | .tblCommit r => Sys2Proof.Machine.execTblCommit r s
  | .swConfig r kind index img => Sys2Proof.Machine.execSwConfig r kind index img s
  | .polConfig r policer img => Sys2Proof.Machine.execPolConfig r policer img s
  | .schConfig r egr p => Sys2Proof.Machine.execSchConfig r egr p s
  | .carryReport r time node ing expv got => Sys2Proof.Machine.execCarryReport r time node ing expv got s
  | .timeBeatSet r len dom align => Sys2Proof.Machine.execTimeBeatSet r len dom align s
  | .timeConfig r index img => Sys2Proof.Machine.execTimeConfig r index img s
  | .keyUpdate r msg => Sys2Proof.Machine.execKeyUpdate r msg s
  | .keyAttest r slot nonce => Sys2Proof.Machine.execKeyAttest r slot nonce s
  | .rootProvision r => Sys2Proof.Machine.execRootProvision r s
  | .laConfig r prof img => Sys2Proof.Machine.execLaConfig r prof img s
  | .entryChallenge r => Sys2Proof.Machine.execEntryChallenge r s
  | .entrySubmit r head token proof => Sys2Proof.Machine.execEntrySubmit r head token proof s
  | .credRevoke r op tokenId => Sys2Proof.Machine.execCredRevoke r op tokenId s
  | .credEpoch r epoch => Sys2Proof.Machine.execCredEpoch r epoch s
  | .tripOpen r tripRef tokenId => Sys2Proof.Machine.execTripOpen r tripRef tokenId s
  | .tripClose r tripRef => Sys2Proof.Machine.execTripClose r tripRef s
  | .forceLock r => Sys2Proof.Machine.execForceLock r s
  | .immobilise r => Sys2Proof.Machine.execImmobilise r s
  | .tripPermit r drive => Sys2Proof.Machine.execTripPermit r drive s
  | .entryConfig r holdS start stop unlock lock => Sys2Proof.Machine.execEntryConfig r holdS start stop unlock lock s
  | .ldgRead r first count buf nonce breakAt => Sys2Proof.Machine.execLdgRead r first count buf nonce breakAt s
  | .ldgBilling r period tariff => Sys2Proof.Machine.execLdgBilling r period tariff s
  | .wallSet r sec frac => Sys2Proof.Machine.execWallSet r sec frac s
  | .ttConfig r tracker img => Sys2Proof.Machine.execTtConfig r tracker img s
  | .angEventSet r first count entries => Sys2Proof.Machine.execAngEventSet r first count entries s
  | .fbConfig r kind index img => Sys2Proof.Machine.execFbConfig r kind index img s
  | .fbCal r ch avg => Sys2Proof.Machine.execFbCal r ch avg s
  | .boltMove r bolt dir => Sys2Proof.Machine.execBoltMove r bolt dir s
  | .hlbConfig r node kind ports domain keyslot => Sys2Proof.Machine.execHlbConfig r node kind ports domain keyslot s
  | .hlbMembers r first => Sys2Proof.Machine.execHlbMembers r first s
  | .hlbPush r kind buf len blob commitOk readOk => Sys2Proof.Machine.execHlbPush r kind buf len blob commitOk readOk s
  | .freezeArm r window => Sys2Proof.Machine.execFreezeArm r window s
  | .freezeDisarm r => Sys2Proof.Machine.execFreezeDisarm r s
  | .diagLoopback r target kind => Sys2Proof.Machine.execDiagLoopback r target kind s
  | .telemRead r buf => Sys2Proof.Machine.execTelemRead r buf s
  | .frameTransmitEnd egr converted back => Sys2Proof.Machine.execFrameTransmitEnd egr converted back s
  | .plcaBeacon lane => Sys2Proof.Machine.execPlcaBeacon lane s
  | .fieldSessionEnd => Sys2Proof.Machine.execFieldSessionEnd s
  | .excOverload ch => Sys2Proof.Machine.execExcOverload ch s
  | .pcieLinkUp width rate => Sys2Proof.Machine.execPcieLinkUp width rate s
  | .vbkpPowerUp => Sys2Proof.Machine.execVbkpPowerUp s
  | .holdMsWrap dom => Sys2Proof.Machine.execHoldMsWrap dom s
  | .ledgerTimeFinal => Sys2Proof.Machine.execLedgerTimeFinal s
  | .wakeReceiverFrame lane ok => Sys2Proof.Machine.execWakeReceiverFrame lane ok s
  | .laneRoleSwap lane => Sys2Proof.Machine.execLaneRoleSwap lane s
  | .partnerLpi p enter => Sys2Proof.Machine.execPartnerLpi p enter s
  | .sysResetDeadline => Sys2Proof.Machine.execSysResetDeadline s

end Sys2Proof.Machine
end

