-- ==== Sys2Proof/Laws/Begin.lean ====
section
/-! SUPPORT. Clearing the outputs at the start of a command changes nothing that a command reads. -/

namespace Sys2Proof.Machine

@[simp] theorem rdi_begin (s : State) (a : ℕ) (i : ℕ) : rdi (begin_ s) a i = rdi s a i := rfl
@[simp] theorem rd_begin (s : State) (a : ℕ) : rd (begin_ s) a = rd s a := rfl
@[simp] theorem fldi_begin (s : State) (a : ℕ) (i : ℕ) (lo : ℕ) (w : ℕ) : fldi (begin_ s) a i lo w = fldi s a i lo w := rfl
@[simp] theorem fld_begin (s : State) (a : ℕ) (lo : ℕ) (w : ℕ) : fld (begin_ s) a lo w = fld s a lo w := rfl
@[simp] theorem bit_begin (s : State) (a : ℕ) (i : ℕ) (b : ℕ) : bit (begin_ s) a i b = bit s a i b := rfl
@[simp] theorem running_begin (s : State) : running (begin_ s) = running s := rfl
@[simp] theorem clocked_begin (s : State) : clocked (begin_ s) = clocked s := rfl
@[simp] theorem vioUp_begin (s : State) : vioUp (begin_ s) = vioUp s := rfl
@[simp] theorem freezeArmed_begin (s : State) : freezeArmed (begin_ s) = freezeArmed s := rfl
@[simp] theorem mode_begin (s : State) : mode (begin_ s) = mode s := rfl
@[simp] theorem fuseWord_begin (s : State) (k : ℕ) : fuseWord (begin_ s) k = fuseWord s k := rfl
@[simp] theorem lifecycle_begin (s : State) : lifecycle (begin_ s) = lifecycle s := rfl
@[simp] theorem fwMin_begin (s : State) : fwMin (begin_ s) = fwMin s := rfl
@[simp] theorem snapDis_begin (s : State) : snapDis (begin_ s) = snapDis s := rfl
@[simp] theorem dbgCoreDis_begin (s : State) : dbgCoreDis (begin_ s) = dbgCoreDis s := rfl
@[simp] theorem sessOf_begin (s : State) (role : ℕ) : sessOf (begin_ s) role = sessOf s role := rfl
@[simp] theorem slotOf_begin (s : State) (k : ℕ) : slotOf (begin_ s) k = slotOf s k := rfl
@[simp] theorem ltimeNow_begin (s : State) : ltimeNow (begin_ s) = ltimeNow s := rfl
@[simp] theorem wallNow_begin (s : State) : wallNow (begin_ s) = wallNow s := rfl
@[simp] theorem wallSec_begin (s : State) : wallSec (begin_ s) = wallSec s := rfl
@[simp] theorem ledgerLive_begin (s : State) : ledgerLive (begin_ s) = ledgerLive s := rfl
@[simp] theorem ledgerRoomFor_begin (s : State) (n : ℕ) : ledgerRoomFor (begin_ s) n = ledgerRoomFor s n := rfl
@[simp] theorem ledgerRoom_begin (s : State) : ledgerRoom (begin_ s) = ledgerRoom s := rfl
@[simp] theorem uidBytes_begin (s : State) : uidBytes (begin_ s) = uidBytes s := rfl
@[simp] theorem entryMac_begin (s : State) (e : Entry) (prev : BitVec 128) : entryMac (begin_ s) e prev = entryMac s e prev := rfl
@[simp] theorem sectorReady_begin (s : State) : sectorReady (begin_ s) = sectorReady s := rfl
@[simp] theorem ctxAt_begin (s : State) (chan : Chan) (session : BitVec 16) : ctxAt (begin_ s) chan session = ctxAt s chan session := rfl
@[simp] theorem curRole_begin (s : State) : curRole (begin_ s) = curRole s := rfl
@[simp] theorem hwin_begin (s : State) (k : ℕ) (write : Bool) : hwin (begin_ s) k write = hwin s k write := rfl
@[simp] theorem hwinCover_begin (s : State) (write : Bool) (a : ℕ) : hwinCover (begin_ s) write a = hwinCover s write a := rfl
@[simp] theorem judgeD_begin (s : State) (write : Bool) (a : ℕ) (len : ℕ) : judgeD (begin_ s) write a len = judgeD s write a len := rfl
@[simp] theorem ringEntries_begin (s : State) (r : ℕ) : ringEntries (begin_ s) r = ringEntries s r := rfl
@[simp] theorem ringOn_begin (s : State) (r : ℕ) : ringOn (begin_ s) r = ringOn s r := rfl
@[simp] theorem ringBase_begin (s : State) (r : ℕ) : ringBase (begin_ s) r = ringBase s r := rfl
@[simp] theorem ringProd_begin (s : State) (r : ℕ) : ringProd (begin_ s) r = ringProd s r := rfl
@[simp] theorem ringCons_begin (s : State) (r : ℕ) : ringCons (begin_ s) r = ringCons s r := rfl
@[simp] theorem hostLost_begin (s : State) : hostLost (begin_ s) = hostLost s := rfl
@[simp] theorem onSpi_begin (s : State) : onSpi (begin_ s) = onSpi s := rfl
@[simp] theorem hostOff_begin (s : State) : hostOff (begin_ s) = hostOff s := rfl
@[simp] theorem dmaUp_begin (s : State) : dmaUp (begin_ s) = dmaUp s := rfl
@[simp] theorem owedOn_begin (s : State) (c : Chan) : owedOn (begin_ s) c = owedOn s c := rfl
@[simp] theorem ringFree_begin (s : State) (r : ℕ) : ringFree (begin_ s) r = ringFree s r := rfl
@[simp] theorem roomFor_begin (s : State) (a1 : Chan) : roomFor (begin_ s) a1 = roomFor s a1 := rfl
@[simp] theorem waiting_begin (s : State) (a1 : Chan) : waiting (begin_ s) a1 = waiting s a1 := rfl
@[simp] theorem acceptedHead_begin (s : State) (c : Chan) : acceptedHead (begin_ s) c = acceptedHead s c := rfl
@[simp] theorem ctxLive_begin (s : State) (r : Req) (c : Ctx) : ctxLive (begin_ s) r c = ctxLive s r c := rfl
@[simp] theorem lifecycleDenies_begin (s : State) (role : ℕ) (ledgerRead : Bool) : lifecycleDenies (begin_ s) role ledgerRead = lifecycleDenies s role ledgerRead := rfl
@[simp] theorem inCluster_begin (s : State) : inCluster (begin_ s) = inCluster s := rfl
@[simp] theorem epochAhead_begin (s : State) : epochAhead (begin_ s) = epochAhead s := rfl
@[simp] theorem epochFinal_begin (s : State) : epochFinal (begin_ s) = epochFinal s := rfl
@[simp] theorem ahead_begin (s : State) (a : ℕ) (i : ℕ) : ahead (begin_ s) a i = ahead s a i := rfl
@[simp] theorem judgeInstaller_begin (a1 : State) (a2 : ℕ) : judgeInstaller (begin_ a1) a2 = judgeInstaller a1 a2 := rfl
@[simp] theorem judgeHostAwake_begin (a1 : State) (a2 : ℕ) : judgeHostAwake (begin_ a1) a2 = judgeHostAwake a1 a2 := rfl
@[simp] theorem hGet_begin (s : State) (p : ℕ) (pos : ℕ) : hGet (begin_ s) p pos = hGet s p pos := rfl
@[simp] theorem seedOf_begin (s : State) (p : ℕ) : seedOf (begin_ s) p = seedOf s p := rfl
@[simp] theorem ways_begin (s : State) (p : ℕ) (key : BitVec 64) : ways (begin_ s) p key = ways s p key := rfl
@[simp] theorem overflowHits_begin (s : State) (p : ℕ) (key : BitVec 64) : overflowHits (begin_ s) p key = overflowHits s p key := rfl
@[simp] theorem hFind_begin (s : State) (p : ℕ) (key : BitVec 64) : hFind (begin_ s) p key = hFind s p key := rfl
@[simp] theorem hFree_begin (s : State) (p : ℕ) (key : BitVec 64) : hFree (begin_ s) p key = hFree s p key := rfl
@[simp] theorem hPlaces_begin (s : State) (p : ℕ) : hPlaces (begin_ s) p = hPlaces s p := rfl
@[simp] theorem hashUsed_begin (s : State) (p : ℕ) : hashUsed (begin_ s) p = hashUsed s p := rfl
@[simp] theorem ovfUsed_begin (s : State) (p : ℕ) : ovfUsed (begin_ s) p = ovfUsed s p := rfl
@[simp] theorem vlanOf_begin (s : State) (vid : ℕ) : vlanOf (begin_ s) vid = vlanOf s vid := rfl
@[simp] theorem streamOf_begin (s : State) (n : ℕ) : streamOf (begin_ s) n = streamOf s n := rfl
@[simp] theorem groupOf_begin (s : State) (n : ℕ) : groupOf (begin_ s) n = groupOf s n := rfl
@[simp] theorem pers_begin (s : State) (n : ℕ) : pers (begin_ s) n = pers s n := rfl
@[simp] theorem vlanBit_begin (s : State) (v : BitVec 256) (k : ℕ) : vlanBit (begin_ s) v k = vlanBit s v k := rfl
@[simp] theorem pvid_begin (s : State) (ing : ℕ) : pvid (begin_ s) ing = pvid s ing := rfl
@[simp] theorem safeOnly_begin (s : State) : safeOnly (begin_ s) = safeOnly s := rfl
@[simp] theorem honoured_begin (s : State) (safe : Bool) (svc : Bool) : honoured (begin_ s) safe svc = honoured s safe svc := rfl
@[simp] theorem restricted_begin (s : State) : restricted (begin_ s) = restricted s := rfl
@[simp] theorem keyLost_begin (s : State) (p : ℕ) (key : BitVec 64) : keyLost (begin_ s) p key = keyLost s p key := rfl
@[simp] theorem vidLost_begin (s : State) (vid : ℕ) : vidLost (begin_ s) vid = vidLost s vid := rfl
@[simp] theorem learningOn_begin (s : State) : learningOn (begin_ s) = learningOn s := rfl
@[simp] theorem passOf_begin (s : State) (p : ℕ) : passOf (begin_ s) p = passOf s p := rfl
@[simp] theorem frameOf_begin (s : State) (h0 : ℕ) : frameOf (begin_ s) h0 = frameOf s h0 := rfl
@[simp] theorem allFrames_begin (s : State) : allFrames (begin_ s) = allFrames s := rfl
@[simp] theorem cellsWhere_begin (s : State) (p : Frame → Bool) : cellsWhere (begin_ s) p = cellsWhere s p := rfl
@[simp] theorem charged_begin (s : State) (g : ℕ) : charged (begin_ s) g = charged s g := rfl
@[simp] theorem inPipes_begin (s : State) : inPipes (begin_ s) = inPipes s := rfl
@[simp] theorem heldCells_begin (s : State) (p : Held → Bool) : heldCells (begin_ s) p = heldCells s p := rfl
@[simp] theorem stuckCells_begin (s : State) : stuckCells (begin_ s) = stuckCells s := rfl
@[simp] theorem cellsFree_begin (s : State) : cellsFree (begin_ s) = cellsFree s := rfl
@[simp] theorem ingUsed_begin (s : State) (ing : ℕ) : ingUsed (begin_ s) ing = ingUsed s ing := rfl
@[simp] theorem queueOf_begin (s : State) (e : ℕ) (q : ℕ) : queueOf (begin_ s) e q = queueOf s e q := rfl
@[simp] theorem egrOf_begin (s : State) (e : ℕ) : egrOf (begin_ s) e = egrOf s e := rfl
@[simp] theorem qDepth_begin (s : State) (e : ℕ) (q : ℕ) : qDepth (begin_ s) e q = qDepth s e q := rfl
@[simp] theorem qOnChip_begin (s : State) (e : ℕ) (q : ℕ) : qOnChip (begin_ s) e q = qOnChip s e q := rfl
@[simp] theorem qSpilled_begin (s : State) (e : ℕ) (q : ℕ) : qSpilled (begin_ s) e q = qSpilled s e q := rfl
@[simp] theorem laneDepth_begin (s : State) (e : ℕ) : laneDepth (begin_ s) e = laneDepth s e := rfl
@[simp] theorem laneOf_begin (s : State) (n : ℕ) : laneOf (begin_ s) n = laneOf s n := rfl
@[simp] theorem portOf_begin (s : State) (p : ℕ) : portOf (begin_ s) p = portOf s p := rfl
@[simp] theorem loopOf_begin (s : State) (e : ℕ) : loopOf (begin_ s) e = loopOf s e := rfl
@[simp] theorem portLink_begin (s : State) (p : ℕ) : portLink (begin_ s) p = portLink s p := rfl
@[simp] theorem pmode_begin (s : State) (p : ℕ) : pmode (begin_ s) p = pmode s p := rfl
@[simp] theorem scopes_begin (s : State) (p : ℕ) : scopes (begin_ s) p = scopes s p := rfl
@[simp] theorem scopeCells_begin (s : State) (p : ℕ) (b : ℕ) : scopeCells (begin_ s) p b = scopeCells s p b := rfl
@[simp] theorem strSeq_begin (s : State) (n : ℕ) : strSeq (begin_ s) n = strSeq s n := rfl
@[simp] theorem strCb_begin (s : State) (n : ℕ) : strCb (begin_ s) n = strCb s n := rfl
@[simp] theorem ctxOf_begin (s : State) (str : ℕ) (e : ℕ) : ctxOf (begin_ s) str e = ctxOf s str e := rfl
@[simp] theorem ctxUsed_begin (s : State) : ctxUsed (begin_ s) = ctxUsed s := rfl
@[simp] theorem rsqDue_begin (s : State) (c : Rsq) : rsqDue (begin_ s) c = rsqDue s c := rfl
@[simp] theorem heldAt_begin (s : State) (e : ℕ) : heldAt (begin_ s) e = heldAt s e := rfl
@[simp] theorem pgRsv_begin (s : State) (g : ℕ) : pgRsv (begin_ s) g = pgRsv s g := rfl
@[simp] theorem pgMax_begin (s : State) (g : ℕ) : pgMax (begin_ s) g = pgMax s g := rfl
@[simp] theorem poolFree_begin (s : State) : poolFree (begin_ s) = poolFree s := rfl
@[simp] theorem cond1_begin (s : State) (e : ℕ) (q : ℕ) (c : ℕ) : cond1 (begin_ s) e q c = cond1 s e q c := rfl
@[simp] theorem cond2_begin (s : State) (g : ℕ) (c : ℕ) : cond2 (begin_ s) g c = cond2 s g c := rfl
@[simp] theorem wred_begin (s : State) (e : ℕ) (q : ℕ) (c : Colour) : wred (begin_ s) e q c = wred s e q c := rfl
@[simp] theorem avgNext_begin (s : State) (e : ℕ) (q : ℕ) : avgNext (begin_ s) e q = avgNext s e q := rfl
@[simp] theorem tailDrops_begin (s : State) (e : ℕ) (k : ℕ) : tailDrops (begin_ s) e k = tailDrops s e k := rfl
@[simp] theorem pagesUsed_begin (s : State) : pagesUsed (begin_ s) = pagesUsed s := rfl
@[simp] theorem pagesAll_begin (s : State) : pagesAll (begin_ s) = pagesAll s := rfl
@[simp] theorem bufMode_begin (s : State) (g : ℕ) : bufMode (begin_ s) g = bufMode s g := rfl
@[simp] theorem domOf_begin (s : State) (n : ℕ) : domOf (begin_ s) n = domOf s n := rfl
@[simp] theorem domNs_begin (s : State) (dom : ℕ) : domNs (begin_ s) dom = domNs s dom := rfl
@[simp] theorem domOff_begin (s : State) (dom : ℕ) : domOff (begin_ s) dom = domOff s dom := rfl
@[simp] theorem captureNow_begin (s : State) : captureNow (begin_ s) = captureNow s := rfl
@[simp] theorem stampTime_begin (s : State) (dom : ℕ) : stampTime (begin_ s) dom = stampTime s dom := rfl
@[simp] theorem stampDom_begin (s : State) : stampDom (begin_ s) = stampDom s := rfl
@[simp] theorem stampOf_begin (s : State) (ing : ℕ) (c : Content) : stampOf (begin_ s) ing c = stampOf s ing c := rfl
@[simp] theorem ownNode_begin (s : State) : ownNode (begin_ s) = ownNode s := rfl
@[simp] theorem peerOf_begin (s : State) (n : ℕ) : peerOf (begin_ s) n = peerOf s n := rfl
@[simp] theorem joinedPeers_begin (s : State) : joinedPeers (begin_ s) = joinedPeers s := rfl
@[simp] theorem clusterPort_begin (s : State) (e : ℕ) : clusterPort (begin_ s) e = clusterPort s e := rfl
@[simp] theorem sharedTarget_begin (s : State) (e : ℕ) : sharedTarget (begin_ s) e = sharedTarget s e := rfl
@[simp] theorem gateOf_begin (s : State) (b : ℕ) : gateOf (begin_ s) b = gateOf s b := rfl
@[simp] theorem held_begin (s : State) (b : ℕ) : held (begin_ s) b = held s b := rfl
@[simp] theorem gateWanted_begin (s : State) (b : ℕ) : gateWanted (begin_ s) b = gateWanted s b := rfl
@[simp] theorem ungated_begin (s : State) (b : ℕ) : ungated (begin_ s) b = ungated s b := rfl
@[simp] theorem nwOpen_begin (s : State) (b : ℕ) : nwOpen (begin_ s) b = nwOpen s b := rfl
@[simp] theorem ttOf_begin (s : State) (n : ℕ) : ttOf (begin_ s) n = ttOf s n := rfl
@[simp] theorem ttRole_begin (s : State) (n : ℕ) : ttRole (begin_ s) n = ttRole s n := rfl
@[simp] theorem ttN_begin (s : State) (n : ℕ) : ttN (begin_ s) n = ttN s n := rfl
@[simp] theorem ttG1_begin (s : State) (n : ℕ) : ttG1 (begin_ s) n = ttG1 s n := rfl
@[simp] theorem ttM1_begin (s : State) (n : ℕ) : ttM1 (begin_ s) n = ttM1 s n := rfl
@[simp] theorem ttM0_begin (s : State) (n : ℕ) : ttM0 (begin_ s) n = ttM0 s n := rfl
@[simp] theorem ttTolerant_begin (s : State) (n : ℕ) : ttTolerant (begin_ s) n = ttTolerant s n := rfl
@[simp] theorem ttTol_begin (s : State) (n : ℕ) : ttTol (begin_ s) n = ttTol s n := rfl
@[simp] theorem ttCirc_begin (s : State) (n : ℕ) : ttCirc (begin_ s) n = ttCirc s n := rfl
@[simp] theorem ttNR_begin (s : State) (n : ℕ) : ttNR (begin_ s) n = ttNR s n := rfl
@[simp] theorem healthy_begin (s : State) (n : ℕ) : healthy (begin_ s) n = healthy s n := rfl
@[simp] theorem healthyCount_begin (s : State) : healthyCount (begin_ s) = healthyCount s := rfl
@[simp] theorem standstill_begin (s : State) : standstill (begin_ s) = standstill s := rfl
@[simp] theorem anyMotion_begin (s : State) : anyMotion (begin_ s) = anyMotion s := rfl
@[simp] theorem motionNow_begin (s : State) : motionNow (begin_ s) = motionNow s := rfl
@[simp] theorem odoTracker_begin (s : State) : odoTracker (begin_ s) = odoTracker s := rfl
@[simp] theorem ttSpeed_begin (s : State) (n : ℕ) : ttSpeed (begin_ s) n = ttSpeed s n := rfl
@[simp] theorem evtLo_begin (s : State) (k : ℕ) : evtLo (begin_ s) k = evtLo s k := rfl
@[simp] theorem evtHi_begin (s : State) (k : ℕ) : evtHi (begin_ s) k = evtHi s k := rfl
@[simp] theorem evtValid_begin (s : State) (k : ℕ) : evtValid (begin_ s) k = evtValid s k := rfl
@[simp] theorem evtTracker_begin (s : State) (k : ℕ) : evtTracker (begin_ s) k = evtTracker s k := rfl
@[simp] theorem evtAct_begin (s : State) (k : ℕ) : evtAct (begin_ s) k = evtAct s k := rfl
@[simp] theorem evtOut_begin (s : State) (k : ℕ) : evtOut (begin_ s) k = evtOut s k := rfl
@[simp] theorem evtAngle_begin (s : State) (k : ℕ) : evtAngle (begin_ s) k = evtAngle s k := rfl
@[simp] theorem evtRevDiv_begin (s : State) (k : ℕ) : evtRevDiv (begin_ s) k = evtRevDiv s k := rfl
@[simp] theorem evtsOf_begin (s : State) (n : ℕ) : evtsOf (begin_ s) n = evtsOf s n := rfl
@[simp] theorem fbOf_begin (s : State) (n : ℕ) : fbOf (begin_ s) n = fbOf s n := rfl
@[simp] theorem excOn_begin (s : State) (n : ℕ) : excOn (begin_ s) n = excOn s n := rfl
@[simp] theorem convOpen_begin (s : State) (n : ℕ) : convOpen (begin_ s) n = convOpen s n := rfl
@[simp] theorem cmpoChan_begin (s : State) (k : ℕ) : cmpoChan (begin_ s) k = cmpoChan s k := rfl
@[simp] theorem cmpoPulse_begin (s : State) (k : ℕ) : cmpoPulse (begin_ s) k = cmpoPulse s k := rfl
@[simp] theorem boltOf_begin (s : State) (b : ℕ) : boltOf (begin_ s) b = boltOf s b := rfl
@[simp] theorem boltCh_begin (s : State) (b : ℕ) : boltCh (begin_ s) b = boltCh s b := rfl
@[simp] theorem boltKind_begin (s : State) (b : ℕ) : boltKind (begin_ s) b = boltKind s b := rfl
@[simp] theorem boltRelOut_begin (s : State) (b : ℕ) : boltRelOut (begin_ s) b = boltRelOut s b := rfl
@[simp] theorem boltEngOut_begin (s : State) (b : ℕ) : boltEngOut (begin_ s) b = boltEngOut s b := rfl
@[simp] theorem boltBand_begin (s : State) (b : ℕ) : boltBand (begin_ s) b = boltBand s b := rfl
@[simp] theorem boltRel_begin (s : State) (b : ℕ) : boltRel (begin_ s) b = boltRel s b := rfl
@[simp] theorem boltEng_begin (s : State) (b : ℕ) : boltEng (begin_ s) b = boltEng s b := rfl
@[simp] theorem boltTrg_begin (s : State) (b : ℕ) : boltTrg (begin_ s) b = boltTrg s b := rfl
@[simp] theorem bolts_begin (s : State) : bolts (begin_ s) = bolts s := rfl
@[simp] theorem boltAt_begin (s : State) (b : ℕ) (p : ℤ) : boltAt (begin_ s) b p = boltAt s b p := rfl
@[simp] theorem boltOfKind_begin (s : State) (k : ℕ) : boltOfKind (begin_ s) k = boltOfKind s k := rfl
@[simp] theorem steeringReleased_begin (s : State) : steeringReleased (begin_ s) = steeringReleased s := rfl
@[simp] theorem allLocked_begin (s : State) : allLocked (begin_ s) = allLocked s := rfl
@[simp] theorem canMove_begin (s : State) (b : ℕ) (engage : Bool) : canMove (begin_ s) b engage = canMove s b engage := rfl
@[simp] theorem otherMoves_begin (s : State) (b : ℕ) (p : ℕ → Bool) : otherMoves (begin_ s) b p = otherMoves s b p := rfl
@[simp] theorem safeTo_begin (s : State) (e : ℕ) (a : BitVec 48) : safeTo (begin_ s) e a = safeTo s e a := rfl
@[simp] theorem carriesSafe_begin (s : State) (e : ℕ) : carriesSafe (begin_ s) e = carriesSafe s e := rfl
@[simp] theorem keptCause_begin (s : State) : keptCause (begin_ s) = keptCause s := rfl
@[simp] theorem startCause_begin (s : State) : startCause (begin_ s) = startCause s := rfl
@[simp] theorem deriveMode_begin (s : State) : deriveMode (begin_ s) = deriveMode s := rfl
@[simp] theorem laneMode_begin (s : State) : laneMode (begin_ s) = laneMode s := rfl
@[simp] theorem vlaneUp_begin (s : State) : vlaneUp (begin_ s) = vlaneUp s := rfl
@[simp] theorem crankKeep_begin (s : State) (n : ℕ) : crankKeep (begin_ s) n = crankKeep s n := rfl
@[simp] theorem laneTarget_begin (s : State) (n : ℕ) : laneTarget (begin_ s) n = laneTarget s n := rfl
@[simp] theorem portTarget_begin (s : State) (p : ℕ) : portTarget (begin_ s) p = portTarget s p := rfl
@[simp] theorem anyArmed_begin (s : State) : anyArmed (begin_ s) = anyArmed s := rfl
@[simp] theorem railWanted_begin (s : State) (m : Mode) (r : ℕ) : railWanted (begin_ s) m r = railWanted s m r := rfl
@[simp] theorem fullRight_begin (s : State) : fullRight (begin_ s) = fullRight s := rfl
@[simp] theorem notCovered_begin (s : State) : notCovered (begin_ s) = notCovered s := rfl
@[simp] theorem keyHeld_begin (s : State) (pmask : ℕ) (w : List Word) : keyHeld (begin_ s) pmask w = keyHeld s pmask w := rfl
@[simp] theorem hashAt_begin (s : State) (p : ℕ) (index : ℕ) (key : BitVec 64) : hashAt (begin_ s) p index key = hashAt s p index key := rfl
@[simp] theorem tblEntry_begin (s : State) (table : ℕ) (pipe : ℕ) (index : ℕ) (key : BitVec 64) : tblEntry (begin_ s) table pipe index key = tblEntry s table pipe index key := rfl
@[simp] theorem laneOn_begin (s : State) (n : ℕ) : laneOn (begin_ s) n = laneOn s n := rfl
@[simp] theorem faultFits_begin (s : State) (n : ℕ) (code : ℕ) : faultFits (begin_ s) n code = faultFits s n code := rfl
@[simp] theorem txFast_begin (s : State) (n : ℕ) : txFast (begin_ s) n = txFast s n := rfl
@[simp] theorem plcaLane_begin (s : State) (n : ℕ) : plcaLane (begin_ s) n = plcaLane s n := rfl
@[simp] theorem plcaFollower_begin (s : State) (n : ℕ) : plcaFollower (begin_ s) n = plcaFollower s n := rfl
@[simp] theorem linSlotOf_begin (s : State) (n : ℕ) (k : ℕ) : linSlotOf (begin_ s) n k = linSlotOf s n k := rfl
@[simp] theorem linkSpeed_begin (s : State) (p : ℕ) (partner : ℕ) : linkSpeed (begin_ s) p partner = linkSpeed s p partner := rfl
@[simp] theorem pauseIgnored_begin (s : State) (p : ℕ) (pfc : Bool) (en : BitVec 8) : pauseIgnored (begin_ s) p pfc en = pauseIgnored s p pfc en := rfl
@[simp] theorem lpiMode_begin (s : State) (p : ℕ) : lpiMode (begin_ s) p = lpiMode s p := rfl
@[simp] theorem lpiOn_begin (s : State) (p : ℕ) : lpiOn (begin_ s) p = lpiOn s p := rfl
@[simp] theorem ownWake_begin (s : State) (p : ℕ) : ownWake (begin_ s) p = ownWake s p := rfl
@[simp] theorem eeeTlv_begin (s : State) (p : ℕ) (k : ℕ) : eeeTlv (begin_ s) p k = eeeTlv s p k := rfl
@[simp] theorem portIdle_begin (s : State) (p : ℕ) : portIdle (begin_ s) p = portIdle s p := rfl
@[simp] theorem beatNs_begin (s : State) : beatNs (begin_ s) = beatNs s := rfl
@[simp] theorem beatSource_begin (s : State) : beatSource (begin_ s) = beatSource s := rfl
@[simp] theorem beatIndex_begin (s : State) : beatIndex (begin_ s) = beatIndex s := rfl
@[simp] theorem bps_begin (s : State) : bps (begin_ s) = bps s := rfl
@[simp] theorem polsValid_begin (s : State) : polsValid (begin_ s) = polsValid s := rfl
@[simp] theorem shRate_begin (s : State) (e : ℕ) (q : ℕ) : shRate (begin_ s) e q = shRate s e q := rfl
@[simp] theorem shapersOn_begin (s : State) : shapersOn (begin_ s) = shapersOn s := rfl
@[simp] theorem redDrops_begin (s : State) (k : ℕ) : redDrops (begin_ s) k = redDrops s k := rfl
@[simp] theorem gclOn_begin (s : State) (e : ℕ) : gclOn (begin_ s) e = gclOn s e := rfl
@[simp] theorem gclEnt_begin (s : State) (e : ℕ) (k : ℕ) : gclEnt (begin_ s) e k = gclEnt s e k := rfl
@[simp] theorem gateOpen_begin (s : State) (e : ℕ) (q : ℕ) : gateOpen (begin_ s) e q = gateOpen s e q := rfl
@[simp] theorem gclEntries_begin (s : State) (e : ℕ) : gclEntries (begin_ s) e = gclEntries s e := rfl
@[simp] theorem closeIn_begin (s : State) (e : ℕ) (q : ℕ) : closeIn (begin_ s) e q = closeIn s e q := rfl
@[simp] theorem longestOpen_begin (s : State) (e : ℕ) (q : ℕ) : longestOpen (begin_ s) e q = longestOpen s e q := rfl
@[simp] theorem forwardPeer_begin (s : State) (e : ℕ) : forwardPeer (begin_ s) e = forwardPeer s e := rfl
@[simp] theorem forwardBytes_begin (s : State) (e : ℕ) (f : Frame) : forwardBytes (begin_ s) e f = forwardBytes s e f := rfl
@[simp] theorem lineBytes_begin (s : State) (e : ℕ) (k : ℕ) (f : Frame) : lineBytes (begin_ s) e k f = lineBytes s e k f := rfl
@[simp] theorem lineLen_begin (s : State) (e : ℕ) (f : Frame) : lineLen (begin_ s) e f = lineLen s e f := rfl
@[simp] theorem linEntry_begin (s : State) (n : ℕ) (id : ℕ) : linEntry (begin_ s) n id = linEntry s n id := rfl
@[simp] theorem wireBytes_begin (s : State) (e : ℕ) (f : Frame) (b : List Byte) : wireBytes (begin_ s) e f b = wireBytes s e f b := rfl
@[simp] theorem mbps_begin (s : State) (e : ℕ) : mbps (begin_ s) e = mbps s e := rfl
@[simp] theorem txNs_begin (s : State) (e : ℕ) (f : Frame) : txNs (begin_ s) e f = txNs s e f := rfl
@[simp] theorem fits_begin (s : State) (e : ℕ) (k : ℕ) (f : Frame) : fits (begin_ s) e k f = fits s e k f := rfl
@[simp] theorem candidate_begin (s : State) (e : ℕ) (q : ℕ) : candidate (begin_ s) e q = candidate s e q := rfl
@[simp] theorem toVerify_begin (s : State) (e : ℕ) (q : ℕ) : toVerify (begin_ s) e q = toVerify s e q := rfl
@[simp] theorem launchDue_begin (s : State) (l : Option LaunchAt) : launchDue (begin_ s) l = launchDue s l := rfl
@[simp] theorem launchMissed_begin (s : State) (l : Option LaunchAt) : launchMissed (begin_ s) l = launchMissed s l := rfl
@[simp] theorem nextLaunch_begin (s : State) (e : ℕ) : nextLaunch (begin_ s) e = nextLaunch s e := rfl
@[simp] theorem egrReady_begin (s : State) (e : ℕ) : egrReady (begin_ s) e = egrReady s e := rfl
@[simp] theorem paused_begin (s : State) (e : ℕ) (q : ℕ) : paused (begin_ s) e q = paused s e q := rfl
@[simp] theorem hasToken_begin (s : State) (e : ℕ) (q : ℕ) : hasToken (begin_ s) e q = hasToken s e q := rfl
@[simp] theorem qTrig_begin (s : State) (e : ℕ) (q : ℕ) : qTrig (begin_ s) e q = qTrig s e q := rfl
@[simp] theorem qSp_begin (s : State) (e : ℕ) (q : ℕ) : qSp (begin_ s) e q = qSp s e q := rfl
@[simp] theorem qWeight_begin (s : State) (e : ℕ) (q : ℕ) : qWeight (begin_ s) e q = qWeight s e q := rfl
@[simp] theorem ethEgress_begin (s : State) (e : ℕ) : ethEgress (begin_ s) e = ethEgress s e := rfl
@[simp] theorem fitsNow_begin (s : State) (e : ℕ) (q : ℕ) (f : Frame) : fitsNow (begin_ s) e q f = fitsNow s e q f := rfl
@[simp] theorem eligible_begin (s : State) (e : ℕ) (q : ℕ) : eligible (begin_ s) e q = eligible s e q := rfl
@[simp] theorem spent_begin (s : State) (e : ℕ) (q : ℕ) : spent (begin_ s) e q = spent s e q := rfl
@[simp] theorem weightedReady_begin (s : State) (e : ℕ) (q : ℕ) : weightedReady (begin_ s) e q = weightedReady s e q := rfl
@[simp] theorem linOldest_begin (s : State) (n : ℕ) (id : ℕ) : linOldest (begin_ s) n id = linOldest s n id := rfl
@[simp] theorem linRateOk_begin (s : State) (n : ℕ) (rate : ℕ) : linRateOk (begin_ s) n rate = linRateOk s n rate := rfl
@[simp] theorem checkSch_begin (s : State) (egr : BitVec 8) (a1 : SchParam) : checkSch (begin_ s) egr a1 = checkSch s egr a1 := rfl
@[simp] theorem slotState_begin (s : State) (k : ℕ) : slotState (begin_ s) k = slotState s k := rfl
@[simp] theorem slotLive_begin (s : State) (k : ℕ) : slotLive (begin_ s) k = slotLive s k := rfl
@[simp] theorem delivery_begin (s : State) (k : ℕ) (engine : ℕ) (usage : ℕ) : delivery (begin_ s) k engine usage = delivery s k engine usage := rfl
@[simp] theorem derivedKey_begin (s : State) (k : ℕ) : derivedKey (begin_ s) k = derivedKey s k := rfl
@[simp] theorem fuseKey_begin (s : State) : fuseKey (begin_ s) = fuseKey s := rfl
@[simp] theorem roleKeyOk_begin (s : State) (role : ℕ) : roleKeyOk (begin_ s) role = roleKeyOk s role := rfl
@[simp] theorem pubOf_begin (s : State) (k : ℕ) : pubOf (begin_ s) k = pubOf s k := rfl
@[simp] theorem kcvOf_begin (s : State) (k : ℕ) : kcvOf (begin_ s) k = kcvOf s k := rfl
@[simp] theorem engOf_begin (s : State) (e : ℕ) : engOf (begin_ s) e = engOf s e := rfl
@[simp] theorem groupTampered_begin (s : State) : groupTampered (begin_ s) = groupTampered s := rfl
@[simp] theorem oscPeriod_begin (s : State) : oscPeriod (begin_ s) = oscPeriod s := rfl
@[simp] theorem wakeOpen_begin (s : State) : wakeOpen (begin_ s) = wakeOpen s := rfl
@[simp] theorem wakeCopy_begin (s : State) (n : ℕ) : wakeCopy (begin_ s) n = wakeCopy s n := rfl
@[simp] theorem wakeMeets_begin (s : State) (n : ℕ) (c : WakeCopy) (a1 : LaneWakeEvt) : wakeMeets (begin_ s) n c a1 = wakeMeets s n c a1 := rfl
@[simp] theorem wakeShadowed_begin (s : State) (n : ℕ) : wakeShadowed (begin_ s) n = wakeShadowed s n := rfl
@[simp] theorem railMode_begin (s : State) : railMode (begin_ s) = railMode s := rfl
@[simp] theorem approachIdle_begin (s : State) : approachIdle (begin_ s) = approachIdle s := rfl
@[simp] theorem groupEnabled_begin (s : State) (g : ℕ) : groupEnabled (begin_ s) g = groupEnabled s g := rfl
@[simp] theorem jobOn_begin (s : State) (b : ℕ) : jobOn (begin_ s) b = jobOn s b := rfl
@[simp] theorem blockBusy_begin (s : State) (b : ℕ) : blockBusy (begin_ s) b = blockBusy s b := rfl
@[simp] theorem judgeModeSet_begin (target : ℕ) (s : State) (role : ℕ) : judgeModeSet target (begin_ s) role = judgeModeSet target s role := rfl
@[simp] theorem modeRow_begin (s : State) (target : ℕ) : modeRow (begin_ s) target = modeRow s target := rfl
@[simp] theorem semOwner_begin (s : State) (k : ℕ) : semOwner (begin_ s) k = semOwner s k := rfl
@[simp] theorem semGen_begin (s : State) (k : ℕ) : semGen (begin_ s) k = semGen s k := rfl
@[simp] theorem la64_begin (s : State) (lo : ℕ) (hi : ℕ) (p : ℕ) : la64 (begin_ s) lo hi p = la64 s lo hi p := rfl
@[simp] theorem laMac_begin (s : State) (p : ℕ) : laMac (begin_ s) p = laMac s p := rfl
@[simp] theorem laFv_begin (s : State) (p : ℕ) : laFv (begin_ s) p = laFv s p := rfl
@[simp] theorem laOn_begin (s : State) (p : ℕ) (b : ℕ) : laOn (begin_ s) p b = laOn s p b := rfl
@[simp] theorem laKeyOk_begin (s : State) (p : ℕ) (usage : ℕ) : laKeyOk (begin_ s) p usage = laKeyOk s p usage := rfl
@[simp] theorem laSlot_begin (s : State) (p : ℕ) : laSlot (begin_ s) p = laSlot s p := rfl
@[simp] theorem laKey_begin (s : State) (p : ℕ) : laKey (begin_ s) p = laKey s p := rfl
@[simp] theorem laTag_begin (s : State) (p : ℕ) (pay : List Byte) (fv : ℕ) : laTag (begin_ s) p pay fv = laTag s p pay fv := rfl
@[simp] theorem laJudge_begin (s : State) (p : ℕ) (data : List Byte) : laJudge (begin_ s) p data = laJudge s p data := rfl
@[simp] theorem laAsksKey_begin (s : State) (p : ℕ) (data : List Byte) : laAsksKey (begin_ s) p data = laAsksKey s p data := rfl
@[simp] theorem vidOf_begin (s : State) (ing : ℕ) (b : List Byte) : vidOf (begin_ s) ing b = vidOf s ing b := rfl
@[simp] theorem policerOf_begin (s : State) (d : Decided) (strEn : Bool) : policerOf (begin_ s) d strEn = policerOf s d strEn := rfl
@[simp] theorem laProfile_begin (s : State) (d : Decided) : laProfile (begin_ s) d = laProfile s d := rfl
@[simp] theorem laQueued_begin (s : State) (p : ℕ) : laQueued (begin_ s) p = laQueued s p := rfl
@[simp] theorem laWaits_begin (s : State) (a : Arrival) (d : Decided) : laWaits (begin_ s) a d = laWaits s a d := rfl
@[simp] theorem routing_begin (s : State) : routing (begin_ s) = routing s := rfl
@[simp] theorem laneTakes_begin (s : State) (n : ℕ) (c : Content) : laneTakes (begin_ s) n c = laneTakes s n c := rfl
@[simp] theorem macTest_begin (s : State) (w : ℕ) (ok : Bool) (b : List Byte) : macTest (begin_ s) w ok b = macTest s w ok b := rfl
@[simp] theorem ctlIgnored_begin (s : State) (p : ℕ) (b : List Byte) : ctlIgnored (begin_ s) p b = ctlIgnored s p b := rfl
@[simp] theorem macTraps_begin (s : State) (b : List Byte) : macTraps (begin_ s) b = macTraps s b := rfl
@[simp] theorem arrivalOf_begin (s : State) (f : RxFrame) (c : Content) (trapOnly : Bool) : arrivalOf (begin_ s) f c trapOnly = arrivalOf s f c trapOnly := rfl
@[simp] theorem lineShut_begin (s : State) (ing : ℕ) : lineShut (begin_ s) ing = lineShut s ing := rfl
@[simp] theorem spillTail_begin (s : State) (e : ℕ) (q : ℕ) : spillTail (begin_ s) e q = spillTail s e q := rfl
@[simp] theorem deepest_begin (s : State) (g : ℕ) : deepest (begin_ s) g = deepest s g := rfl
@[simp] theorem rsvSum_begin (s : State) (g : ℕ) (rsv : ℕ) : rsvSum (begin_ s) g rsv = rsvSum s g rsv := rfl
@[simp] theorem checkSw_begin (s : State) (kind : BitVec 8) (index : BitVec 16) (img : List Word) : checkSw (begin_ s) kind index img = checkSw s kind index img := rfl
@[simp] theorem nextTooth_begin (s : State) (n : ℕ) (k : ℕ) : nextTooth (begin_ s) n k = nextTooth s n k := rfl
@[simp] theorem longEnough_begin (s : State) (n : ℕ) (p : ℕ) (period : ℕ) (sp : ℕ) : longEnough (begin_ s) n p period sp = longEnough s n p period sp := rfl
@[simp] theorem shortEnough_begin (s : State) (n : ℕ) (p : ℕ) (period : ℕ) (sp : ℕ) : shortEnough (begin_ s) n p period sp = shortEnough s n p period sp := rfl
@[simp] theorem consistent_begin (s : State) (n : ℕ) (p : ℕ) (period : ℕ) (sp : ℕ) : consistent (begin_ s) n p period sp = consistent s n p period sp := rfl
@[simp] theorem searchSpan_begin (s : State) (n : ℕ) (p : ℕ) (period : ℕ) : searchSpan (begin_ s) n p period = searchSpan s n p period := rfl
@[simp] theorem ttAngle_begin (s : State) (n : ℕ) : ttAngle (begin_ s) n = ttAngle s n := rfl
@[simp] theorem cmpFires_begin (s : State) (n : ℕ) (k : ℕ) (old : ℤ) (new : ℤ) : cmpFires (begin_ s) n k old new = cmpFires s n k old new := rfl
@[simp] theorem convFault_begin (s : State) (n : ℕ) (sin : ℤ) (cos : ℤ) (lowN : ℕ) (highN : ℕ) (track : Bool) : convFault (begin_ s) n sin cos lowN highN track = convFault s n sin cos lowN highN track := rfl
@[simp] theorem spdConflict_begin (s : State) (first : ℕ) (es : List (Word × Word)) : spdConflict (begin_ s) first es = spdConflict s first es := rfl
@[simp] theorem checkAng_begin (s : State) (first : ℕ) (count : ℕ) (es : List (Word × Word)) : checkAng (begin_ s) first count es = checkAng s first count es := rfl
@[simp] theorem checkBolt_begin (s : State) (b : ℕ) (img : List Word) : checkBolt (begin_ s) b img = checkBolt s b img := rfl
@[simp] theorem checkFb_begin (s : State) (kind : ℕ) (i : ℕ) (img : List Word) : checkFb (begin_ s) kind i img = checkFb s kind i img := rfl
@[simp] theorem sqSize_begin (s : State) (e : ℕ) : sqSize (begin_ s) e = sqSize s e := rfl
@[simp] theorem descRange_begin (s : State) (d : BulkDesc) : descRange (begin_ s) d = descRange s d := rfl
@[simp] theorem klenWords_begin (s : State) (e : ℕ) : klenWords (begin_ s) e = klenWords s e := rfl
@[simp] theorem engineKey_begin (s : State) (e : ℕ) : engineKey (begin_ s) e = engineKey s e := rfl
@[simp] theorem trgDom_begin (s : State) (c : ℕ) : trgDom (begin_ s) c = trgDom s c := rfl
@[simp] theorem trgSel_begin (s : State) (c : ℕ) : trgSel (begin_ s) c = trgSel s c := rfl
@[simp] theorem trgAct_begin (s : State) (c : ℕ) : trgAct (begin_ s) c = trgAct s c := rfl
@[simp] theorem trgOwned_begin (s : State) (c : ℕ) : trgOwned (begin_ s) c = trgOwned s c := rfl
@[simp] theorem trgTarget_begin (s : State) (c : ℕ) : trgTarget (begin_ s) c = trgTarget s c := rfl
@[simp] theorem trgPeriod_begin (s : State) (c : ℕ) : trgPeriod (begin_ s) c = trgPeriod s c := rfl
@[simp] theorem trgAhead_begin (s : State) (c : ℕ) : trgAhead (begin_ s) c = trgAhead s c := rfl
@[simp] theorem trgDue_begin (s : State) (c : ℕ) : trgDue (begin_ s) c = trgDue s c := rfl
@[simp] theorem trgPassed_begin (s : State) (c : ℕ) : trgPassed (begin_ s) c = trgPassed s c := rfl
@[simp] theorem trgBlock_begin (s : State) (c : ℕ) : trgBlock (begin_ s) c = trgBlock s c := rfl
@[simp] theorem trgRuns_begin (s : State) (c : ℕ) : trgRuns (begin_ s) c = trgRuns s c := rfl
@[simp] theorem trgBeaten_begin (s : State) (c : ℕ) : trgBeaten (begin_ s) c = trgBeaten s c := rfl
@[simp] theorem trgConv_begin (s : State) (c : ℕ) (n : ℕ) : trgConv (begin_ s) c n = trgConv s c n := rfl
@[simp] theorem syncFor_begin (s : State) (n : ℕ) (num : ℕ) (port : ℕ) : syncFor (begin_ s) n num port = syncFor s n num port := rfl
@[simp] theorem nsNow_begin (s : State) (n : ℕ) : nsNow (begin_ s) n = nsNow s n := rfl
@[simp] theorem checkBeat_begin (s : State) (len : BitVec 8) (dom : BitVec 8) (align : BitVec 8) : checkBeat (begin_ s) len dom align = checkBeat s len dom align := rfl
@[simp] theorem checkHlb_begin (s : State) (node : BitVec 16) (kind : BitVec 8) (keyslot : BitVec 16) : checkHlb (begin_ s) node kind keyslot = checkHlb s node kind keyslot := rfl
@[simp] theorem checkCfg_begin (s : State) (a1 : Cfg) : checkCfg (begin_ s) a1 = checkCfg s a1 := rfl
@[simp] theorem viewSys_begin (s : State) (a : ℕ) : viewSys (begin_ s) a = viewSys s a := rfl
@[simp] theorem viewPwr_begin (s : State) (a : ℕ) : viewPwr (begin_ s) a = viewPwr s a := rfl
@[simp] theorem viewLane_begin (s : State) (a : ℕ) (i : ℕ) : viewLane (begin_ s) a i = viewLane s a i := rfl
@[simp] theorem viewPort_begin (s : State) (a : ℕ) (i : ℕ) : viewPort (begin_ s) a i = viewPort s a i := rfl
@[simp] theorem viewTbl_begin (s : State) (a : ℕ) : viewTbl (begin_ s) a = viewTbl s a := rfl
@[simp] theorem viewSw_begin (s : State) (a : ℕ) (i : ℕ) : viewSw (begin_ s) a i = viewSw s a i := rfl
@[simp] theorem viewVlt_begin (s : State) (a : ℕ) (i : ℕ) : viewVlt (begin_ s) a i = viewVlt s a i := rfl
@[simp] theorem viewNfc_begin (s : State) (a : ℕ) : viewNfc (begin_ s) a = viewNfc s a := rfl
@[simp] theorem wall48_begin (s : State) : wall48 (begin_ s) = wall48 s := rfl
@[simp] theorem viewLdg_begin (s : State) (a : ℕ) : viewLdg (begin_ s) a = viewLdg s a := rfl
@[simp] theorem viewTt_begin (s : State) (n : ℕ) (off : ℕ) : viewTt (begin_ s) n off = viewTt s n off := rfl
@[simp] theorem viewBrg_begin (s : State) (a : ℕ) : viewBrg (begin_ s) a = viewBrg s a := rfl
@[simp] theorem ownLock_begin (s : State) : ownLock (begin_ s) = ownLock s := rfl
@[simp] theorem behindNow_begin (s : State) : behindNow (begin_ s) = behindNow s := rfl
@[simp] theorem hlbState_begin (s : State) : hlbState (begin_ s) = hlbState s := rfl
@[simp] theorem viewHlb_begin (s : State) (a : ℕ) (i : ℕ) : viewHlb (begin_ s) a i = viewHlb s a i := rfl
@[simp] theorem viewBgs_begin (s : State) (a : ℕ) : viewBgs (begin_ s) a = viewBgs s a := rfl
@[simp] theorem viewDbg_begin (s : State) (a : ℕ) : viewDbg (begin_ s) a = viewDbg s a := rfl
@[simp] theorem debugOpen_begin (s : State) : debugOpen (begin_ s) = debugOpen s := rfl
@[simp] theorem byteReason_begin (s : State) (c : Cls) (write : Bool) (a : ℕ) : byteReason (begin_ s) c write a = byteReason s c write a := rfl
@[simp] theorem lowestDenied_begin (s : State) (c : Cls) (write : Bool) (l : List ℕ) : lowestDenied (begin_ s) c write l = lowestDenied s c write l := rfl
@[simp] theorem judgeRange_begin (s : State) (c : Cls) (write : Bool) (a : ℕ) (len : ℕ) : judgeRange (begin_ s) c write a len = judgeRange s c write a len := rfl
@[simp] theorem notReady_begin (s : State) (c : Cls) (a : ℕ) (len : ℕ) : notReady (begin_ s) c a len = notReady s c a len := rfl
@[simp] theorem judgeSpine_begin (s : State) (c : Cls) (write : Bool) (a : ℕ) (len : ℕ) (be : Bool) : judgeSpine (begin_ s) c write a len be = judgeSpine s c write a len be := rfl
@[simp] theorem accepts_begin (s : State) (c : Cls) : accepts (begin_ s) c = accepts s c := rfl
@[simp] theorem selOf_begin (s : State) (c : Cls) (a : ℕ) : selOf (begin_ s) c a = selOf s c a := rfl
@[simp] theorem winInst_begin (s : State) (c : Cls) (a1 : Win) : winInst (begin_ s) c a1 = winInst s c a1 := rfl
@[simp] theorem portHas_begin (s : State) (a : ℕ) (i : ℕ) : portHas (begin_ s) a i = portHas s a i := rfl
@[simp] theorem hit_begin (s : State) (c : Cls) (off : ℕ) : hit (begin_ s) c off = hit s c off := rfl
@[simp] theorem trgHidden_begin (s : State) (a : ℕ) : trgHidden (begin_ s) a = trgHidden s a := rfl
@[simp] theorem writeMask_begin (s : State) (c : Cls) (h0 : Hit) : writeMask (begin_ s) c h0 = writeMask s c h0 := rfl
@[simp] theorem fbClosed_begin (s : State) (a : ℕ) : fbClosed (begin_ s) a = fbClosed s a := rfl
@[simp] theorem extraReserved_begin (s : State) (a : ℕ) (w : Word) : extraReserved (begin_ s) a w = extraReserved s a w := rfl
@[simp] theorem reservedBits_begin (s : State) (h0 : Hit) (m : Word) (w : Word) : reservedBits (begin_ s) h0 m w = reservedBits s h0 m w := rfl
@[simp] theorem inShop_begin (s : State) : inShop (begin_ s) = inShop s := rfl
@[simp] theorem atStep_begin (s : State) (k : ℕ) : atStep (begin_ s) k = atStep s k := rfl
@[simp] theorem arrayRead_begin (s : State) (reads : List FuseTriple) (k : ℕ) : arrayRead (begin_ s) reads k = arrayRead s reads k := rfl
@[simp] theorem rootGood_begin (s : State) (rootOk : Bool) : rootGood (begin_ s) rootOk = rootGood s rootOk := rfl
@[simp] theorem fwHash_begin (s : State) : fwHash (begin_ s) = fwHash s := rfl
@[simp] theorem imageSigned_begin (s : State) (i : FwImage) : imageSigned (begin_ s) i = imageSigned s i := rfl
@[simp] theorem imageOk_begin (s : State) (i : FwImage) : imageOk (begin_ s) i = imageOk s i := rfl
@[simp] theorem lastSession_begin (s : State) (role : ℕ) : lastSession (begin_ s) role = lastSession s role := rfl
@[simp] theorem fuseCompare_begin (s : State) (k : ℕ) (v : Word) (inv : Bool) : fuseCompare (begin_ s) k v inv = fuseCompare s k v inv := rfl
@[simp] theorem tagByte_begin (s : State) (i : ℕ) : tagByte (begin_ s) i = tagByte s i := rfl
@[simp] theorem tagBytes_begin (s : State) (i : ℕ) (n : ℕ) : tagBytes (begin_ s) i n = tagBytes s i n := rfl
@[simp] theorem memByte_begin (s : State) (free : ℕ) (a : ℕ) : memByte (begin_ s) free a = memByte s free a := rfl
@[simp] theorem memWords_begin (s : State) (a : ℕ) (n : ℕ) : memWords (begin_ s) a n = memWords s a n := rfl
@[simp] theorem vaultUp_begin (s : State) : vaultUp (begin_ s) = vaultUp s := rfl
@[simp] theorem exJudge_begin (s : State) (off : ℕ) (d : List Byte) : exJudge (begin_ s) off d = exJudge s off d := rfl
@[simp] theorem pathOf_begin (s : State) (p : ℕ) : pathOf (begin_ s) p = pathOf s p := rfl
@[simp] theorem credChecks_begin (s : State) (c : Cred) : credChecks (begin_ s) c = credChecks s c := rfl
@[simp] theorem credMode_begin (s : State) : credMode (begin_ s) = credMode s := rfl
@[simp] theorem credFits_begin (s : State) (req : ℕ) (tripRef : ℕ) : credFits (begin_ s) req tripRef = credFits s req tripRef := rfl
@[simp] theorem judgeCred_begin (a1 : State) (a2 : ℕ) : judgeCred (begin_ a1) a2 = judgeCred a1 a2 := rfl
@[simp] theorem judgeTrust_begin (a1 : State) (a2 : ℕ) : judgeTrust (begin_ a1) a2 = judgeTrust a1 a2 := rfl
@[simp] theorem judgeOper_begin (l : List Mode) (a1 : State) (a2 : ℕ) : judgeOper l (begin_ a1) a2 = judgeOper l a1 a2 := rfl
@[simp] theorem msixWord_begin (s : State) (i : ℕ) : msixWord (begin_ s) i = msixWord s i := rfl
@[simp] theorem ringHas_begin (s : State) (r : ℕ) : ringHas (begin_ s) r = ringHas s r := rfl
@[simp] theorem acceptCtx_begin (s : State) (session : BitVec 16) : acceptCtx (begin_ s) session = acceptCtx s session := rfl
@[simp] theorem hpFinal_begin (s : State) (d : HpDesc) : hpFinal (begin_ s) d = hpFinal s d := rfl
@[simp] theorem hpReady_begin (s : State) : hpReady (begin_ s) = hpReady s := rfl
@[simp] theorem hpModes_begin (s : State) : hpModes (begin_ s) = hpModes s := rfl
@[simp] theorem hpTop_begin (s : State) : hpTop (begin_ s) = hpTop s := rfl
@[simp] theorem vecOf_begin (s : State) (k : ℕ) : vecOf (begin_ s) k = vecOf s k := rfl
@[simp] theorem vecOwed_begin (s : State) (v : ℕ) : vecOwed (begin_ s) v = vecOwed s v := rfl
@[simp] theorem vecRested_begin (s : State) (v : ℕ) : vecRested (begin_ s) v = vecRested s v := rfl
@[simp] theorem judgeMaker_begin (a1 : State) (a2 : ℕ) : judgeMaker (begin_ a1) a2 = judgeMaker a1 a2 := rfl
@[simp] theorem judgeRecovery_begin (s : State) (role : ℕ) : judgeRecovery (begin_ s) role = judgeRecovery s role := rfl
@[simp] theorem storedMap_begin (s : State) : storedMap (begin_ s) = storedMap s := rfl
@[simp] theorem mapEntries_begin (s : State) (table : ℕ) (pipe : ℕ) (place : ℕ) (key : BitVec 64) : mapEntries (begin_ s) table pipe place key = mapEntries s table pipe place key := rfl
@[simp] theorem skipped_begin (s : State) (a1 : UeWord) : skipped (begin_ s) a1 = skipped s a1 := rfl
@[simp] theorem calTicks_begin (s : State) : calTicks (begin_ s) = calTicks s := rfl
@[simp] theorem calNext_begin (s : State) : calNext (begin_ s) = calNext s := rfl
@[simp] theorem nextSector_begin (s : State) : nextSector (begin_ s) = nextSector s := rfl
@[simp] theorem sectorDue_begin (s : State) : sectorDue (begin_ s) = sectorDue s := rfl
@[simp] theorem syncLost_begin (s : State) (k : ℕ) (n : ℕ) : syncLost (begin_ s) k n = syncLost s k n := rfl
@[simp] theorem snapHit_begin (s : State) (off : ℕ) : snapHit (begin_ s) off = snapHit s off := rfl
@[simp] theorem capShut_begin (s : State) (a : ℕ) : capShut (begin_ s) a = capShut s a := rfl
@[simp] theorem cellUse_begin (s : State) (c : ℕ) : cellUse (begin_ s) c = cellUse s c := rfl
@[simp] theorem pktByte_begin (s : State) (a : ℕ) : pktByte (begin_ s) a = pktByte s a := rfl
@[simp] theorem tapUp_begin (s : State) : tapUp (begin_ s) = tapUp s := rfl
@[simp] theorem msgKey_begin (s : State) (m : KeyMsg) : msgKey (begin_ s) m = msgKey s m := rfl
@[simp] theorem msgTagOk_begin (s : State) (m : KeyMsg) : msgTagOk (begin_ s) m = msgTagOk s m := rfl
@[simp] theorem msgPlain_begin (s : State) (m : KeyMsg) : msgPlain (begin_ s) m = msgPlain s m := rfl
@[simp] theorem uidNum_begin (s : State) : uidNum (begin_ s) = uidNum s := rfl
@[simp] theorem uidMatches_begin (s : State) (uid : BitVec 128) : uidMatches (begin_ s) uid = uidMatches s uid := rfl
@[simp] theorem authFit_begin (s : State) (m : KeyMsg) : authFit (begin_ s) m = authFit s m := rfl
@[simp] theorem checkMsg_begin (s : State) (m : KeyMsg) : checkMsg (begin_ s) m = checkMsg s m := rfl
@[simp] theorem confirmHead_begin (s : State) (m : KeyMsg) : confirmHead (begin_ s) m = confirmHead s m := rfl
@[simp] theorem judgeVault_begin (modes : Mode → Bool) (s : State) (role : ℕ) : judgeVault modes (begin_ s) role = judgeVault modes s role := rfl
@[simp] theorem statement_begin (s : State) (k : ℕ) (nonce : BitVec 256) : statement (begin_ s) k nonce = statement s k nonce := rfl
@[simp] theorem judgeProvision_begin (s : State) (role : ℕ) : judgeProvision (begin_ s) role = judgeProvision s role := rfl
@[simp] theorem hlbKind_begin (s : State) : hlbKind (begin_ s) = hlbKind s := rfl
@[simp] theorem hlbKeyOk_begin (s : State) : hlbKeyOk (begin_ s) = hlbKeyOk s := rfl
@[simp] theorem topoNow_begin (s : State) : topoNow (begin_ s) = topoNow s := rfl
@[simp] theorem hlbUp_begin (s : State) : hlbUp (begin_ s) = hlbUp s := rfl
@[simp] theorem domainPort_begin (s : State) (p : ℕ) : domainPort (begin_ s) p = domainPort s p := rfl
@[simp] theorem domainPorts_begin (s : State) : domainPorts (begin_ s) = domainPorts s := rfl
@[simp] theorem hlbBytes_begin (s : State) (port : ℕ) (ty : ℕ) (dst : ℕ) (pay : List Byte) : hlbBytes (begin_ s) port ty dst pay = hlbBytes s port ty dst pay := rfl
@[simp] theorem hlbCmac_begin (s : State) (b : List Byte) : hlbCmac (begin_ s) b = hlbCmac s b := rfl
@[simp] theorem ownMajor_begin (s : State) : ownMajor (begin_ s) = ownMajor s := rfl
@[simp] theorem ownMinor_begin (s : State) : ownMinor (begin_ s) = ownMinor s := rfl
@[simp] theorem helloBytes_begin (s : State) : helloBytes (begin_ s) = helloBytes s := rfl
@[simp] theorem joinedAs_begin (s : State) (epoch : Word) : joinedAs (begin_ s) epoch = joinedAs s epoch := rfl
@[simp] theorem memNext_begin (s : State) (p : Peer) (uid : BitVec 128) (major : ℕ) (epoch : Word) : memNext (begin_ s) p uid major epoch = memNext s p uid major epoch := rfl
@[simp] theorem frameCmacOk_begin (s : State) (f : HlbFrame) : frameCmacOk (begin_ s) f = frameCmacOk s f := rfl
@[simp] theorem listVerified_begin (s : State) (b : List Byte) : listVerified (begin_ s) b = listVerified s b := rfl
@[simp] theorem imagePasses_begin (s : State) (img : FwImage) : imagePasses (begin_ s) img = imagePasses s img := rfl
@[simp] theorem memberEntry_begin (s : State) (n : ℕ) : memberEntry (begin_ s) n = memberEntry s n := rfl
@[simp] theorem blobOk_begin (s : State) (kind : ℕ) (b : List Byte) (img : Option FwImage) : blobOk (begin_ s) kind b img = blobOk s kind b img := rfl
@[simp] theorem entryBytes_begin (s : State) (q : ℕ) : entryBytes (begin_ s) q = entryBytes s q := rfl
@[simp] theorem macBefore_begin (s : State) (n q : ℕ) : macBefore (begin_ s) n q = macBefore s n q := by
  induction n generalizing q with
  | zero => rfl
  | succ n ih =>
    have h : (begin_ s).ledger = s.ledger := rfl
    simp only [macBefore, h, ih]
@[simp] theorem prevMac_begin (s : State) (q : ℕ) : prevMac (begin_ s) q = prevMac s q := by
  have h : (begin_ s).ledger = s.ledger := rfl
  simp only [prevMac, h, macBefore_begin]
@[simp] theorem judgeLedgerRead_begin (s : State) (role : ℕ) : judgeLedgerRead (begin_ s) role = judgeLedgerRead s role := rfl
@[simp] theorem recentSteps_begin (s : State) : recentSteps (begin_ s) = recentSteps s := rfl
@[simp] theorem ovrFlags_begin (s : State) (env : BeatEnv) : ovrFlags (begin_ s) env = ovrFlags s env := rfl
@[simp] theorem gauges_begin (s : State) (env : BeatEnv) : gauges (begin_ s) env = gauges s env := rfl
@[simp] theorem beatChangeDue_begin (s : State) : beatChangeDue (begin_ s) = beatChangeDue s := rfl
@[simp] theorem beatTicks_begin (s : State) : beatTicks (begin_ s) = beatTicks s := rfl
@[simp] theorem summaryBytes_begin (s : State) : summaryBytes (begin_ s) = summaryBytes s := rfl
@[simp] theorem newLocks_begin (s : State) : newLocks (begin_ s) = newLocks s := rfl
@[simp] theorem judgeInfo_begin (s : State) (role : ℕ) : judgeInfo (begin_ s) role = judgeInfo s role := rfl
@[simp] theorem infoBytes_begin (s : State) : infoBytes (begin_ s) = infoBytes s := rfl
@[simp] theorem roleOpens_begin (s : State) (role : ℕ) : roleOpens (begin_ s) role = roleOpens s role := rfl
@[simp] theorem openChecks_begin (s : State) (role : BitVec 8) (idleS : BitVec 16) (challenge : BitVec 256) (uid : BitVec 128) (eph : List Byte) (sig : List Byte) : openChecks (begin_ s) role idleS challenge uid eph sig = openChecks s role idleS challenge uid eph sig := rfl
@[simp] theorem newSessionId_begin (s : State) (k : ℕ) : newSessionId (begin_ s) k = newSessionId s k := rfl
@[simp] theorem judgeClose_begin (a1 : State) (role : ℕ) : judgeClose (begin_ a1) role = judgeClose a1 role := rfl

end Sys2Proof.Machine
end

