-- ==== Sys2Proof/Laws/Access.lean ====
section
/-! SUPPORT. A request of whole words to the listed registers by the host or the control firmware is permitted, and what
one word of a write or read does. -/

namespace Sys2Proof.Machine

/-- Every byte of the listed registers is REG. -/
theorem regionOf_reg {a : Nat} (h1 : 0x10000000 ≤ a) (h2 : a < 0x10140000) : regionOf a = some .reg := by
  unfold regionOf regions
  simp only [List.find?]
  repeat (first
    | rw [decide_eq_false (p := a < _) (by omega), Bool.and_false]
    | rw [decide_eq_false (p := _ ≤ a) (by omega), Bool.false_and]
    | rw [decide_eq_true (p := a < _) (by omega), decide_eq_true (p := _ ≤ a) (by omega)]
    | dsimp only)
  rfl

/-- The host and the control firmware may read and write every byte of the listed registers. -/
theorem byteReason_reg {s : State} {c : Cls} {write : Bool} {a : Nat} (hc : c = .H ∨ c = .F) (h1 : 0x10000000 ≤ a) (h2 : a < 0x10140000) :
    byteReason s c write a = none := by
  unfold byteReason
  rw [regionOf_reg h1 h2]
  rcases hc with rfl | rfl <;> cases write <;> rfl

/-- No address that is permitted makes a refusal. -/
theorem lowestDenied_none {s : State} {c : Cls} {write : Bool} {l : List Nat} (h : ∀ a ∈ l, byteReason s c write a = none) :
    lowestDenied s c write l = none := by
  unfold lowestDenied
  induction l with
  | nil => rfl
  | cons a t ih =>
    rw [List.foldl_cons, h a List.mem_cons_self]
    exact ih fun x hx => h x (List.mem_cons_of_mem _ hx)

/-- A request of 1 to 32 whole words to the listed registers is permitted while the device is awake. -/
theorem judge_reg {s : State} {c : Cls} {write : Bool} {off n : Nat} (hr : s.power.phase = .awake) (hc : c = .H ∨ c = .F)
    (h4 : off % 4 = 0) (hn : 1 ≤ n) (hm : n ≤ 32) (h : off + 4 * n ≤ 0x140000) :
    judgeSpine s c write (regBase + off) (4 * n) true = none := by
  have e1 : notReady s c (regBase + off) (4 * n) = false := by
    rcases hc with rfl | rfl <;> simp [notReady, hr]
  have e2 : badForm c (regBase + off) (4 * n) true = false := by
    have h1 : (regBase + off) % 4 = 0 := by unfold regBase; omega
    have h2 : 4 * n % 4 = 0 := by omega
    have h3 : 4 * n ≤ 128 := by omega
    unfold badForm
    rw [decide_eq_true h1, decide_eq_true h2, decide_eq_true h3]
    simp
  unfold judgeSpine
  rw [e1, e2]
  simp only [Bool.false_eq_true, if_false]
  unfold judgeRange
  rw [if_neg (by unfold regBase; omega)]
  refine lowestDenied_none fun a ha => ?_
  rw [List.mem_cons, List.mem_filter] at ha
  rcases ha with rfl | ⟨_, ha⟩
  · exact byteReason_reg hc (by unfold regBase; omega) (by unfold regBase; omega)
  · simp only [Bool.and_eq_true, decide_eq_true_eq] at ha
    exact byteReason_reg hc (by have := ha.1; unfold regBase at this; omega) (by have := ha.2; unfold regBase at this; omega)

/-- A write of one word that is no commit word, carried out. -/
theorem regAccess_write {s : State} {c : Cls} {acc : Access} {off : Nat} {w : Word} (ho : acc.addr - regBase = off) (hw : acc.words = [w])
    (he : acc.enables = []) (hs : commitsOf off 1 = []) : regAccess s c true acc = writeReg c off w (outRead s [] .ok) := by
  unfold regAccess
  dsimp only
  rw [ho, hw, if_pos rfl]
  have hg : guardedWrite off [w] = none := by
    unfold guardedWrite
    split
    · rename_i hq; cases hq
    · rfl
  rw [hg]
  dsimp only
  have hl : (wordsAt off [w]).zipIdx.map (fun x => mergeWord (outRead s [] .ok) c x.1.1 x.1.2 (enableOf acc x.2)) = [w] := by
    unfold enableOf
    rw [he]
    rfl
  rw [hl]
  unfold writeWords
  rw [show [w].length = 1 from rfl, hs]
  rfl

/-- A read of one word carried out. -/
theorem regAccess_read {s : State} {c : Cls} {acc : Access} {off : Nat} {w : Word} (ho : acc.addr - regBase = off) (hw : acc.words = [w]) :
    regAccess s c false acc = outRead (readReg c off s).2 [(readReg c off s).1] .ok := by
  unfold regAccess
  dsimp only
  rw [ho, hw]
  rfl

/-- A guarded write carried out. -/
theorem regAccess_commit {s : State} {c : Cls} {acc : Access} {k off : Nat} {w o d m : Word} (ho : acc.addr - regBase = off)
    (hk : semReg off = some (k, 0x10)) (hw : acc.words = [w, o, d, m]) :
    regAccess s c true acc = semCommitDo (outRead s [] .ok) c k w o d m := by
  unfold regAccess
  dsimp only
  rw [ho, hw, if_pos rfl]
  have hg : guardedWrite off [w, o, d, m] = some (k, w, o, d, m) := by
    unfold guardedWrite
    simp only [hk]
  rw [hg]

/-- A write of one word to a listed register that is no commit word of a semaphore. -/
theorem regWord1_write {s : State} {c : Cls} {off : Nat} {w : Word} (hr : running s = true) (ho : hostOff s = false) (hc : c = .H ∨ c = .F) (h4 : off % 4 = 0)
    (h : off + 4 ≤ 0x140000) (hs : commitsOf off 1 = []) :
    regWord1 s c true off w = writeReg c off w (outRead (begin_ s) [] .ok) := by
  have hp : s.power.phase = .awake ∧ s.freeze.frozen = false := by simpa [running] using hr
  have ha : accepts (begin_ s) c = true := by
    have h1 : (begin_ s).power.phase = .awake := hp.1
    have h2 : (begin_ s).freeze.frozen = false := hp.2
    rcases hc with rfl | rfl <;> simp [accepts, h1, h2, show hostOff (begin_ s) = false from ho]
  have hb : (begin_ s).power.phase = .awake := hp.1
  unfold regWord1
  dsimp only
  rw [if_pos ha]
  unfold spineRequest
  have hw : regBase ≤ regBase + off ∧ regBase + off < regBase + 0x1000000 := ⟨Nat.le_add_right _ _, Nat.add_lt_add_left (by omega) _⟩
  rw [if_pos hw]
  have hj := judge_reg (write := true) (n := 1) hb hc h4 (by omega) (by omega) (by omega)
  dsimp only [List.length_cons, List.length_nil]
  have he : allEnabled { addr := regBase + off, words := [w], enables := [] } = true := rfl
  rw [he, show 0 + 1 = 1 from rfl, hj]
  exact regAccess_write (Nat.add_sub_cancel_left ..) rfl rfl hs

/-- A read of one listed word. -/
theorem regWord1_read {s : State} {c : Cls} {off : Nat} {w : Word} (hr : running s = true) (ho : hostOff s = false) (hc : c = .H ∨ c = .F) (h4 : off % 4 = 0)
    (h : off + 4 ≤ 0x140000) :
    regWord1 s c false off w = outRead (readReg c off (begin_ s)).2 [(readReg c off (begin_ s)).1] .ok := by
  have hp : s.power.phase = .awake ∧ s.freeze.frozen = false := by simpa [running] using hr
  have ha : accepts (begin_ s) c = true := by
    have h1 : (begin_ s).power.phase = .awake := hp.1
    have h2 : (begin_ s).freeze.frozen = false := hp.2
    rcases hc with rfl | rfl <;> simp [accepts, h1, h2, show hostOff (begin_ s) = false from ho]
  have hb : (begin_ s).power.phase = .awake := hp.1
  unfold regWord1
  dsimp only
  rw [if_pos ha]
  unfold spineRequest
  have hw : regBase ≤ regBase + off ∧ regBase + off < regBase + 0x1000000 :=
    ⟨Nat.le_add_right _ _, Nat.add_lt_add_left (by omega) _⟩
  rw [if_pos hw]
  have hj := judge_reg (write := false) (n := 1) hb hc h4 (by omega) (by omega) (by omega)
  dsimp only [List.length_cons, List.length_nil]
  have he : allEnabled { addr := regBase + off, words := [w], enables := [] } = true := rfl
  rw [he, show 0 + 1 = 1 from rfl, hj]
  exact regAccess_read (Nat.add_sub_cancel_left ..) rfl

/-- A guarded write: the four COMMIT words of a semaphore. -/
theorem commit_write {s : State} {c : Cls} {k : Fin 16} {w o d m : Word} (hr : running s = true) (ho : hostOff s = false) (hc : c = .H ∨ c = .F) :
    execSemCommit c k w o d m s = .next (semCommitDo (outRead (begin_ s) [] .ok) c k w o d m) := by
  have hp : s.power.phase = .awake ∧ s.freeze.frozen = false := by simpa [running] using hr
  have ha : accepts (begin_ s) c = true := by
    have h1 : (begin_ s).power.phase = .awake := hp.1
    have h2 : (begin_ s).freeze.frozen = false := hp.2
    rcases hc with rfl | rfl <;> simp [accepts, h1, h2, show hostOff (begin_ s) = false from ho]
  have hb : (begin_ s).power.phase = .awake := hp.1
  have hk : R_BRG_SEM_COMMIT0 + 0x20 * k.val + 16 ≤ 0x140000 ∧ (R_BRG_SEM_COMMIT0 + 0x20 * k.val) % 4 = 0 := by
    unfold R_BRG_SEM_COMMIT0; omega
  unfold execSemCommit
  dsimp only
  rw [if_pos ha]
  unfold spineRequest
  have e : regBase + R_BRG_SEM_COMMIT0 + 0x20 * k.val = regBase + (R_BRG_SEM_COMMIT0 + 0x20 * k.val) := Nat.add_assoc _ _ _
  rw [e]
  have hw : regBase ≤ regBase + (R_BRG_SEM_COMMIT0 + 0x20 * k.val) ∧ regBase + (R_BRG_SEM_COMMIT0 + 0x20 * k.val) < regBase + 0x1000000 :=
    ⟨Nat.le_add_right _ _, Nat.add_lt_add_left (by omega) _⟩
  rw [if_pos hw]
  have hj := judge_reg (write := true) (n := 4) hb hc hk.2 (by omega) (by omega) (by omega)
  dsimp only [List.length_cons, List.length_nil]
  have he : allEnabled { addr := regBase + (R_BRG_SEM_COMMIT0 + 0x20 * k.val), words := [w, o, d, m], enables := [] } = true := rfl
  rw [he, show 0 + 1 + 1 + 1 + 1 = 4 from rfl, hj]
  refine congrArg _ (regAccess_commit (Nat.add_sub_cancel_left ..) ?_ rfl)
  unfold semReg R_BRG_SEM_COMMIT0 R_BRG_SEM_ACQ
  rw [if_pos (by omega)]
  refine congrArg some (Prod.ext ?_ ?_) <;> dsimp only <;> omega

end Sys2Proof.Machine
end

