-- ==== Sys2Proof/Laws/Tab.lean ====
section
/-! SUPPORT. What reading and writing a sparse table do, and that writing keeps its canonical form. -/

namespace Sys2Proof.Machine

variable {α : Type} {d : Nat → α}

theorem tabGet_cons (k' : Nat) (v : α) (t : Tab α) (k : Nat) :
    tabGet d ((k', v) :: t) k = if k' = k then v else tabGet d t k := rfl

variable [DecidableEq α]

/-- The bound of a canonical table may be lowered. -/
theorem tabWfFrom_mono {b b' : Nat} (hb : b' ≤ b) : ∀ {t : Tab α}, tabWfFrom d b t = true → tabWfFrom d b' t = true
  | [], _ => rfl
  | (k, v) :: t, h => by
    simp only [tabWfFrom, Bool.and_eq_true, decide_eq_true_eq] at h ⊢
    exact ⟨⟨by omega, h.1.2⟩, h.2⟩

/-- Writing at a key at or above the bound keeps the canonical form. -/
theorem tabSet_wfFrom : ∀ {t : Tab α} {b : Nat} (k : Nat) (v : α), b ≤ k → tabWfFrom d b t = true →
    tabWfFrom d b (tabSet d t k v) = true
  | [], b, k, v, hk, _ => by
    by_cases hv : v = d k <;> simp [tabSet, tabWfFrom, hv, hk]
  | (k', v') :: t, b, k, v, hk, h => by
    simp only [tabWfFrom, Bool.and_eq_true, decide_eq_true_eq] at h
    obtain ⟨⟨h1, h2⟩, h3⟩ := h
    unfold tabSet
    split
    · by_cases hv : v = d k
      · simp [hv, tabWfFrom, h1, h2, h3]
      · have : k + 1 ≤ k' := by omega
        simp [hv, tabWfFrom, h2, h3, hk, this]
    · split
      · by_cases hv : v = d k
        · simp only [hv, if_true]
          exact tabWfFrom_mono (by omega) h3
        · rename_i hkk
          subst hkk
          simp [hv, tabWfFrom, h1, h3]
      · simp only [tabWfFrom, Bool.and_eq_true, decide_eq_true_eq]
        exact ⟨⟨h1, h2⟩, tabSet_wfFrom k v (by omega) h3⟩

/-- Writing keeps the canonical form. -/
theorem tabSet_wf {t : Tab α} (k : Nat) (v : α) (h : tabWf d t = true) : tabWf d (tabSet d t k v) = true :=
  tabSet_wfFrom k v (Nat.zero_le k) h

theorem tset_wf {e : α} {t : Tab α} (k : Nat) (v : α) (h : tabWf (fun _ => e) t = true) :
    tabWf (fun _ => e) (tset e t k v) = true := tabSet_wf k v h

/-- An unlisted key below the bound reads as the default. -/
theorem tabGet_below : ∀ {t : Tab α} {b k : Nat}, tabWfFrom d b t = true → k < b → tabGet d t k = d k
  | [], _, _, _, _ => rfl
  | (k', v') :: t, b, k, h, hk => by
    simp only [tabWfFrom, Bool.and_eq_true, decide_eq_true_eq] at h
    rw [tabGet_cons, if_neg (by omega)]
    exact tabGet_below h.2 (by omega)

/-- Reading the key just written, in a canonical table. -/
theorem tabGet_set_same : ∀ {t : Tab α} {b : Nat} (k : Nat) (v : α), tabWfFrom d b t = true →
    tabGet d (tabSet d t k v) k = v
  | [], _, k, v, _ => by
    by_cases hv : v = d k <;> simp [tabSet, tabGet, hv]
  | (k', v') :: t, b, k, v, h => by
    simp only [tabWfFrom, Bool.and_eq_true, decide_eq_true_eq] at h
    unfold tabSet
    split
    · by_cases hv : v = d k
      · simp only [hv, if_true]
        rw [tabGet_cons, if_neg (by omega)]
        exact tabGet_below h.2 (by omega)
      · simp [hv, tabGet]
    · split
      · rename_i hkk
        subst hkk
        by_cases hv : v = d k
        · simp only [hv, if_true]
          exact tabGet_below h.2 (by omega)
        · simp [hv, tabGet]
      · rw [tabGet_cons, if_neg (by omega)]
        exact tabGet_set_same k v h.2

/-- Reading another key than the one written, in any table. -/
theorem tabGet_set_other : ∀ {t : Tab α} (k : Nat) (v : α) {j : Nat}, j ≠ k → tabGet d (tabSet d t k v) j = tabGet d t j
  | [], k, v, j, hj => by
    by_cases hv : v = d k <;> simp [tabSet, tabGet, hv, Ne.symm hj]
  | (k', v') :: t, k, v, j, hj => by
    unfold tabSet
    split
    · by_cases hv : v = d k
      · simp [hv]
      · simp [hv, tabGet, Ne.symm hj]
    · split
      · rename_i hkk
        subst hkk
        by_cases hv : v = d k
        · simp [hv, tabGet, Ne.symm hj]
        · simp [hv, tabGet, Ne.symm hj]
      · rw [tabGet_cons, tabGet_cons, tabGet_set_other k v hj]

/-- Reading the key just written with a value that is not the unlisted one, in any table. -/
theorem tabGet_set_ne : ∀ {t : Tab α} (k : Nat) (v : α), v ≠ d k → tabGet d (tabSet d t k v) k = v
  | [], k, v, hv => by simp [tabSet, tabGet, hv]
  | (k', v') :: t, k, v, hv => by
    unfold tabSet
    split
    · simp [hv, tabGet]
    · split
      · simp [hv, tabGet]
      · rename_i hne
        rw [tabGet_cons, if_neg (fun h => hne h.symm), tabGet_set_ne k v hv]

/-- Reading just after writing, with one default for every key. -/
theorem tget_tset_same {e : α} {t : Tab α} (k : Nat) (v : α) (h : tabWf (fun _ => e) t = true) :
    tget e (tset e t k v) k = v := tabGet_set_same (b := 0) k v h

theorem tget_tset_other {e : α} {t : Tab α} (k : Nat) (v : α) {j : Nat} (hj : j ≠ k) :
    tget e (tset e t k v) j = tget e t j := tabGet_set_other k v hj

theorem tget_tset_ne {e : α} {t : Tab α} (k : Nat) (v : α) (hv : v ≠ e) : tget e (tset e t k v) k = v :=
  tabGet_set_ne k v hv

/-- Dropping entries keeps the canonical form, also when the kept ones change their value but keep their key. -/
theorem tabWfFrom_filterMap (f : Nat × α → Option (Nat × α)) (hf : ∀ x y, f x = some y → y.1 = x.1 ∧ y.2 ≠ d y.1) :
    ∀ {t : Tab α} {b : Nat}, tabWfFrom d b t = true → tabWfFrom d b (t.filterMap f) = true
  | [], _, _ => rfl
  | (k, v) :: t, b, h => by
    simp only [tabWfFrom, Bool.and_eq_true, decide_eq_true_eq] at h
    have ih := tabWfFrom_filterMap f hf h.2
    cases hx : f (k, v) with
    | none => rw [List.filterMap_cons_none hx]; exact tabWfFrom_mono (by omega) ih
    | some y =>
      rw [List.filterMap_cons_some hx]
      obtain ⟨y1, y2⟩ := y
      obtain ⟨h1, h2⟩ := hf _ _ hx
      simp only at h1 h2
      subst h1
      simp only [tabWfFrom, Bool.and_eq_true, decide_eq_true_eq]
      exact ⟨⟨h.1.1, h2⟩, ih⟩

/-- Dropping entries keeps the canonical form. -/
theorem tabWfFrom_filter (f : Nat × α → Bool) : ∀ {t : Tab α} {b : Nat}, tabWfFrom d b t = true →
    tabWfFrom d b (t.filter f) = true
  | [], _, _ => rfl
  | (k, v) :: t, b, h => by
    simp only [tabWfFrom, Bool.and_eq_true, decide_eq_true_eq] at h
    have ih := tabWfFrom_filter f h.2
    by_cases hf : f (k, v) = true
    · rw [List.filter_cons_of_pos hf]
      simp only [tabWfFrom, Bool.and_eq_true, decide_eq_true_eq]
      exact ⟨h.1, ih⟩
    · rw [List.filter_cons_of_neg hf]
      exact tabWfFrom_mono (by omega) ih

end Sys2Proof.Machine
end

