-- ==== Sys2Proof/WellFormed.lean ====
section
/-! DEFINITION. Which commands are well formed: the bounds that the form of a packet, frame, access or sample
puts on what a command brings, where its type does not already hold them. A command whose values the spec lets the device judge
is well formed whatever they are. -/

namespace Sys2Proof

/-- One raw fuse read: an uncorrected word carries its data. -/
def FuseRead.wf (r : FuseRead) : Bool := decide (r.ecc.val ≠ 0) || decide (r.corrected = r.data)

/-- The array has 128 words, each read three times (R114). -/
def readsWf (l : List FuseTriple) : Bool :=
  decide (l.length = 128) && l.all fun t => t.n.wf && t.lo.wf && t.hi.wf

/-- RESET_N held low below 50 ns begins no reset (R65). -/
def coldWf : ColdCause → Bool
  | .powerGood => true
  | .resetN ns => decide (50 ≤ ns)

/-- A frame's content within the limits of its line (Table 11.1). -/
def Content.wf : Content → Bool
  | .eth b => decide (b.length ≤ 9216)
  | .can id ide fdf _ _ dlc d =>
    (ide || decide (id.toNat < 2048)) && (if fdf then decide (d.length ≤ 64) else decide (d.length ≤ min 8 dlc.toNat))
  | .xl _ _ _ _ _ d => decide (1 ≤ d.length) && decide (d.length ≤ 2048)
  | .lin _ d => decide (d.length ≤ 8)

/-- A launch time lies within 48-bit seconds. -/
def launchWf : Option LaunchAt → Bool
  | none => true
  | some x => decide (x.ns < 2 ^ 48 * 1000000000)

/-- Bytes that a carry check found changed: as many as a frame may have. -/
def corruptWf : Option (List Byte) → Bool
  | none => true
  | some b => decide (b.length ≤ 9472)

/-- A command APDU: an AID of 5 to 16 bytes, at most 255 data bytes (R402). -/
def apduWf : Apdu → Bool
  | .selectApp aid => decide (5 ≤ aid.length) && decide (aid.length ≤ 16)
  | .selectFile _ => true
  | .read _ _ => true
  | .update _ d => decide (d.length ≤ 255)

/-- A request carries at least one word, and byte enables for no more words than it has. -/
def Access.wf (a : Access) : Bool :=
  decide (a.words ≠ []) && decide (a.enables.length ≤ a.words.length) && decide (a.addr < 2 ^ 64)

/-- A PUSH segment starts on 1,024 bytes and holds at most 1,024 (R555). -/
def HlbBody.wf : HlbBody → Bool
  | .push _ _ offset data => decide (offset.toNat % 1024 = 0) && decide (data.length ≤ 1024)
  | .pushAck _ missing => missing.all fun k => decide (k < 1024)
  | .forward _ _ _ c _ => c.wf
  | .hello .. => true
  | .query .. => true
  | .queryRsp _ e => decide (e.length ≤ 8)
  | .pull => true

/-- An entry that another node answers has eight words (R562). -/
def rspWf : Option (Bool × List Word) → Bool
  | none => true
  | some (_, e) => decide (e.length = 8)

/-- What a beat meets: eight temperatures, and policers, shapers, egresses and lanes that exist (Table 21.3). -/
def BeatEnv.wf (e : BeatEnv) : Bool :=
  decide (e.temps.length = 8) && e.polMiss.all (fun k => decide (k < 4096)) && e.shMiss.all (fun k => decide (k < 832)) &&
  e.gateMiss.all (fun k => decide (k < 104)) && e.laneV.all fun x => decide (x.1 < 96)

/-- The byte fields of an update message have the lengths of Table 12.5. -/
def KeyMsg.wf (m : KeyMsg) : Bool :=
  decide (m.iv.length = 12) && decide (m.eph.length = 64) && decide (m.tag.length = 16) && decide (m.sig.length = 64)

/-- A firmware image brings a public key of 64 bytes (R111). -/
def FwImage.wf (x : FwImage) : Bool := decide (x.pub.length = 64)

/-- The same of an image that may be absent. -/
def imgWf : Option FwImage → Bool
  | none => true
  | some x => x.wf

/-- The parameter bytes of a command packet are those that its operands spell, where it is a command whose operands spell
them (R515). -/
def Instr.paramsWf (i : Instr) : Bool :=
  match i.packet with
  | none => true
  | some (r, b) => decide (r.params = b)

/-- The bounds on a command's own operands. -/
def Instr.operandsWf : Instr → Bool
  | .coldReset c => coldWf c
  | .warmReset .. => true
  | .startupPg .. => true
  | .startupFuse reads _ => readsWf reads
  | .startupSelftest .. => true
  | .startupRoot .. => true
  | .startupFw a b => a.wf && b.wf
  | .startupLanes .. => true
  | .startupLedger .. => true
  | .startupMode .. => true
  | .fieldWake .. => true
  | .alarmWake .. => true
  | .vbatRiseSample .. => true
  | .winWake .. => true
  | .laneWake .. => true
  | .wakeReceiverShort .. => true
  | .railPowerGood .. => true
  | .railTimeout .. => true
  | .railRetry .. => true
  | .railLoss .. => true
  | .brownOut .. => true
  | .vbkpLoss .. => true
  | .laneShed .. => true
  | .laneShedReturn .. => true
  | .lowEnergyClear .. => true
  | .sagTrip .. => true
  | .sagHalve .. => true
  | .sagRelease .. => true
  | .sentryDwellExpiry .. => true
  | .parkTimeout .. => true
  | .approachIdleExpiry .. => true
  | .serviceIdleTimeout .. => true
  | .depotIdleTimeout .. => true
  | .driveStartRequest .. => true
  | .driveStopRequest .. => true
  | .woutAckWrite .. => true
  | .pwrAlarmWrite .. => true
  | .gateRequestWrite .. => true
  | .gateEffect .. => true
  | .vaultHold .. => true
  | .vaultRelease .. => true
  | .beatBoundary env => env.wf
  | .fwWindowStart .. => true
  | .agePeriodStart .. => true
  | .bgsWindowStart work => decide (work.scrub ≤ 4095)
  | .telemRecord .. => true
  | .fuseRecheck reads _ => readsWf reads
  | .syncReceived .. => true
  | .syncTimeout .. => true
  | .triggerFire .. => true
  | .trgcCfgWrite .. => true
  | .frameReceive f => f.content.wf && launchWf f.launch
  | .pipeReset .. => true
  | .spillOut .. => true
  | .spillReturn .. => true
  | .carryVerify _ _ corrupt => corruptWf corrupt
  | .egressPick .. => true
  | .canArbitrationEnd .. => true
  | .rsqTimeout .. => true
  | .rsqContextExpiry .. => true
  | .launchTimeReached .. => true
  | .launchMiss .. => true
  | .laneProbeEnd .. => true
  | .laneFaultDetect .. => true
  | .laneOpenDetect .. => true
  | .laneReversal .. => true
  | .laneRetry .. => true
  | .laneFaultFree .. => true
  | .busOffRecovery .. => true
  | .linHeader .. => true
  | .linResponse .. => true
  | .plcaFallback .. => true
  | .collision .. => true
  | .backoffExpiry .. => true
  | .portUpDelay .. => true
  | .linkChange .. => true
  | .phyInt .. => true
  | .pauseReceived _ _ _ quanta => decide (quanta.length = 8)
  | .pauseExpiry .. => true
  | .pauseWdRx .. => true
  | .pauseIgnoreEnd .. => true
  | .pauseWdTx .. => true
  | .pauseRefresh .. => true
  | .lldpSend .. => true
  | .lldpReceive .. => true
  | .lldpAgeOut .. => true
  | .lpiEnter .. => true
  | .lpiExit .. => true
  | .tamper .. => true
  | .rngFail .. => true
  | .ciphSqTailWrite _ _ jobIds => decide (jobIds.length < 4096)
  | .bulkJobStart .. => true
  | .bulkJobComplete .. => true
  | .ciphKctlWrite .. => true
  | .ciphKeywWrite .. => true
  | .storeJob _ first _ _ => decide (first.toNat % 16 = 0)
  | .engineWd .. => true
  | .laneauthKeyLoad .. => true
  | .laSave .. => true
  | .fieldSessionStart .. => true
  | .nfcApdu x => apduWf x.apdu
  | .exchangeWindowClose .. => true
  | .tagWiredAccess _ _ acc => acc.wf
  | .credentialCheck .. => true
  | .nfcChallengeExpiry .. => true
  | .fieldLossTimeout .. => true
  | .pendingGrantRun .. => true
  | .pendingGrantExpiry .. => true
  | .credLockoutEnd .. => true
  | .sessionLockoutEnd .. => true
  | .sessionChallengeExpiry .. => true
  | .sessionIdleTimeout .. => true
  | .sessionLifetime .. => true
  | .ledgerCommit .. => true
  | .intervalClose .. => true
  | .trimUpdate .. => true
  | .denySummary .. => true
  | .toothEdge .. => true
  | .syntheticTooth .. => true
  | .trackerStall .. => true
  | .trackerFault .. => true
  | .trackerFaultClear .. => true
  | .motionTimeout .. => true
  | .angleEvent .. => true
  | .conversionDone .. => true
  | .boltLimit .. => true
  | .boltRetry .. => true
  | .keysafeHoldExpiry .. => true
  | .cmpoPulseEnd .. => true
  | .bridgeReset .. => true
  | .lockedReadTlp .. => true
  | .spiRead .. => true
  | .spiWrite _ words => decide (words ≠ []) && decide (words.length ≤ 32)
  | .wstat .. => true
  | .spiAbort .. => true
  | .cmdPut len _ _ _ => decide (len.toNat ≤ 512)
  | .cmdGet .. => true
  | .cmdRingFetch .. => true
  | .cmdReject .. => true
  | .hpTxDescriptor _ bytes _ _ => decide (bytes.length ≤ 9216)
  | .hpRxDeliver .. => true
  | .dmaTimeout .. => true
  | .hostLostWrite .. => true
  | .msixSend .. => true
  | .semAcquire .. => true
  | .semRelease .. => true
  | .semCommit .. => true
  | .semLeaseExpiry .. => true
  | .helloSend .. => true
  | .helberReceive _ f => f.body.wf
  | .peerLostTimeout .. => true
  | .peerAbsentTimeout .. => true
  | .pushAckSend _ _ total img _ => decide (total ≤ 1024) && imgWf img
  | .pushResendRound .. => true
  | .blobDiscard .. => true
  | .pullSend .. => true
  | .freezeEnter .. => true
  | .freezeIgnored .. => true
  | .freezeExit .. => true
  | .freezeWindowEnd .. => true
  | .snapAddr .. => true
  | .snapData .. => true
  | .evtPendWrite .. => true
  | .evtEnWrite .. => true
  | .evtTestWrite .. => true
  | .cckInjectWrite .. => true
  | .statLowWordRead .. => true
  | .rcRead _ _ acc => acc.wf
  | .timeNsRead .. => true
  | .ldgLoRead .. => true
  | .regWrite _ _ acc => acc.wf
  | .sysInfo .. => true
  | .sessionChallenge .. => true
  | .sessionOpen _ _ _ _ _ eph sig => decide (eph.length = 64) && decide (sig.length = 64)
  | .sessionClose .. => true
  | .fwLoad _ _ _ img _ => img.wf
  | .fwCommit .. => true
  | .sysReset .. => true
  | .lifecycleAdvance .. => true
  | .mapLoad .. => true
  | .mapRead .. => true
  | .modeSet .. => true
  | .blockGate .. => true
  | .laneConfig .. => true
  | .laneRecover .. => true
  | .portConfig .. => true
  | .phyRead .. => true
  | .phyWrite .. => true
  | .tblWrite .. => true
  | .tblRead _ _ _ _ _ _ rsp => rspWf rsp
  | .tblDelete .. => true
  | .tblFlush .. => true
  | .tblCommit .. => true
  | .swConfig .. => true
  | .polConfig .. => true
  | .schConfig .. => true
  | .carryReport .. => true
  | .timeBeatSet .. => true
  | .timeConfig .. => true
  | .keyUpdate _ m => m.wf
  | .keyAttest .. => true
  | .rootProvision .. => true
  | .laConfig .. => true
  | .entryChallenge .. => true
  | .entrySubmit _ head token proof => decide ((head ++ token ++ proof).length ≤ 512)
  | .credRevoke .. => true
  | .credEpoch .. => true
  | .tripOpen .. => true
  | .tripClose .. => true
  | .forceLock .. => true
  | .immobilise .. => true
  | .tripPermit .. => true
  | .entryConfig .. => true
  | .ldgRead .. => true
  | .ldgBilling .. => true
  | .wallSet .. => true
  | .ttConfig .. => true
  | .angEventSet .. => true
  | .fbConfig .. => true
  | .fbCal .. => true
  | .boltMove .. => true
  | .hlbConfig .. => true
  | .hlbMembers .. => true
  | .hlbPush _ _ _ _ blob _ _ => imgWf blob.img
  | .freezeArm .. => true
  | .freezeDisarm .. => true
  | .diagLoopback .. => true
  | .telemRead .. => true
  | .frameTransmitEnd _ _ back => back.wf
  | .plcaBeacon .. => true
  | .fieldSessionEnd .. => true
  | .excOverload .. => true
  | .pcieLinkUp .. => true
  | .vbkpPowerUp .. => true
  | .holdMsWrap .. => true
  | .ledgerTimeFinal .. => true
  | .wakeReceiverFrame .. => true
  | .laneRoleSwap .. => true
  | .partnerLpi .. => true
  | .sysResetDeadline .. => true

/-- The well-formed commands. -/
def Instr.wf (i : Instr) : Bool := i.operandsWf && i.paramsWf

end Sys2Proof
end

