-- ==== Sys2Proof/Safety.lean ====
section
/-! DEFINITION. What holds of every state that steps reach from a state in which it holds. -/

namespace Sys2Proof.Machine

/-- The memories VMEM, VPRIV and CMEM are in their one canonical form: addresses rise strictly, and no byte equal to what
an unlisted address reads as is listed. -/
abbrev Memory.wf (s : State) : Prop := tabWf (fun _ => (0 : Byte)) s.mem = true

/-- The register file is in its one canonical form. -/
abbrev Regs.wf (s : State) : Prop := tabWf rfCold s.rf = true

/-- Canonical stores, a throttle step of Table 3.7 and an odometer of 48 bits (R464). -/
structure State.Sound (s : State) : Prop where
  regs : Regs.wf s
  mem : Memory.wf s
  step : s.power.step ≤ 3
  odo : s.wheels.odo ≤ 2 ^ 48 - 1

/-- Ledger time within its 48-bit seconds and 40-bit fraction, and TRIM within its clamp (R428). -/
structure State.Clock (s : State) : Prop where
  sec : s.ledger.sec < 2 ^ 48
  frac : s.ledger.frac < 2 ^ 40
  trimLo : -6711 ≤ s.ledger.trim
  trimHi : s.ledger.trim ≤ 6711

/-- The invariant of every step. -/
structure State.Inv (s : State) : Prop where
  sound : s.Sound
  clock : s.Clock

/-- The commands that may change TIME_BEAT_CNT: the beat itself, the restart after a freeze, and those that begin a cold
reset (R134, R153, R583). -/
def movesBeat : Instr → Bool
  | .beatBoundary _ => true
  | .freezeExit => true
  | .coldReset _ => true
  | .railPowerGood _ => true
  | .fieldWake _ => true
  | .alarmWake => true
  | .vbatRiseSample _ => true
  | .winWake _ => true
  | .laneWake _ _ => true
  | .wakeReceiverFrame _ _ => true
  | _ => false

/-- The commands that may change ledger time or its trim: the loss of VBKP, its return, TRIM_UPDATE, and BEAT_BOUNDARY,
which lets the rest of the running beat pass (R428, R429). -/
def movesClock : Instr → Bool
  | .beatBoundary _ => true
  | .vbkpLoss => true
  | .vbkpPowerUp => true
  | .trimUpdate _ => true
  | _ => false

/-- The commands that may lower the odometer: the loss of VBKP and its return (R464, R585). -/
def movesOdo : Instr → Bool
  | .vbkpLoss => true
  | .vbkpPowerUp => true
  | _ => false

/-- The commands that may lower the next ledger sequence number: the loss of VBKP, its return, and a new root (R336). -/
def movesSeq : Instr → Bool
  | .vbkpLoss => true
  | .rootProvision _ => true
  | .vbkpPowerUp => true
  | _ => false

/-- The commands that may change the INSTALLER map: the † commands, MAP_LOAD and FB_CAL (R531, R533). -/
def movesMap : Instr → Bool
  | .mapLoad _ _ _ _ _ _ => true
  | .laneConfig _ _ _ => true
  | .portConfig _ _ _ => true
  | .phyWrite _ _ _ _ _ _ _ => true
  | .tblWrite _ _ _ _ _ _ => true
  | .tblCommit _ => true
  | .swConfig _ _ _ _ => true
  | .polConfig _ _ _ => true
  | .schConfig _ _ _ => true
  | .timeBeatSet _ _ _ _ => true
  | .timeConfig _ _ _ => true
  | .laConfig _ _ _ => true
  | .entryConfig _ _ _ _ _ _ => true
  | .ttConfig _ _ _ => true
  | .angEventSet _ _ _ _ => true
  | .fbConfig _ _ _ _ => true
  | .fbCal _ _ _ => true
  | .hlbConfig _ _ _ _ _ _ => true
  | _ => false

/-- The commands that may change a key slot (R336, R343 to R356). -/
def movesSlots : Instr → Bool
  | .startupRoot _ _ _ => true
  | .vbkpLoss => true
  | .tamper _ => true
  | .pushAckSend _ _ _ _ _ => true
  | .lifecycleAdvance _ _ => true
  | .keyUpdate _ _ => true
  | .rootProvision _ => true
  | .hlbPush _ _ _ _ _ _ _ => true
  | .vbkpPowerUp => true
  | _ => false

/-! ## A request that is served (R33 to R36, R39, R41, R392, R520, R523) -/

/-- The context a request runs in: the one it was accepted in, else the one its channel and session ID name now (R25,
R36). -/
def heldCtx (r : Req) (s : State) : Option Ctx :=
  match waiting s r.chan with
  | [] => ctxAt s r.chan r.session
  | w :: _ => if w.accepted then w.ctx else ctxAt s r.chan r.session

/-- A request has been taken from its channel. -/
def taken (r : Req) (s : State) : State := pullRequest (begin_ s) r.chan (heldCtx r s)

/-- The sequence number that a request must be later than (R34). -/
def lastHeard (r : Req) (c : Ctx) (s : State) : BitVec 32 := if ctxLive s r c then (sessOf s c.role).lastSeq else c.last

/-- The request has passed the checks of its session: its sequence number is the session's last, where the session still
stands (R33, R34, R36). Role 0 is the HOST context, which has no session. -/
def noted (r : Req) (role : Nat) (s : State) : State :=
  match heldCtx r s with
  | none => taken r s
  | some c =>
    if role ≠ 0 ∧ ctxLive s r c = true then setSess (taken r s) role { sessOf s role with lastSeq := r.seq, tagFails := 0 }
    else taken r s

/-- The state in which the command's own checks are made: any command of a role but a ledger read ends a run of ledger
reads (R39). -/
def heard (op : Nat) (r : Req) (role : Nat) (s : State) : State :=
  if role = 0 ∨ op = 0x0A01 then noted r role s else endRun (noted r role s) role

/-- The state in which a command's effect happens: in a role's session its ROLE_ACTION entry, with the status that it
answers, has been committed (R39, R41), or, of a command that changes nothing, committed or counted as missed (R394). -/
def entered (op : Nat) (r : Req) (role : Nat) (changes : Bool) (st : Status) (s : State) : State :=
  if role = 0 ∨ op = 0x0A01 then heard op r role s
  else if changes then commitAll (roleEntry (heard op r role s) role st op r)
  else auditRefusal (heard op r role s) role st op r

/-- A command that changes state and answers OK has its effect in this state. -/
def admitted (op : Nat) (r : Req) (role : Nat) (s : State) : State := entered op r role true .ok s

/-- A command that changes nothing is answered OK in this state. -/
def audited (op : Nat) (r : Req) (role : Nat) (s : State) : State := entered op r role false .ok s

/-- What a served command's plan does and answers: the entry before it bears the status that it answers. -/
def planDone (op : Nat) (r : Req) (role : Nat) (p : Plan) (s : State) : State × Status × List Byte :=
  p.act (entered op r role p.changes (p.act (entered op r role p.changes .ok s)).2.1 s)

/-- The dispatcher serves a request: it runs, the channel has room for the response or the request has been accepted, the
request is the oldest that waits, its context stands (HOST, or a role's session with a good tag and a later sequence
number), the context has the right and the mode is listed. -/
structure Served (op : Nat) (r : Req) (role : Nat) (judge : State → Nat → Option Status) (s : State) : Prop where
  running : running s = true
  room : roomFor s r.chan = true ∨ acceptedHead s r.chan = true
  turn : ∀ w, (waiting s r.chan).head? = some w → w.opcode = op ∧ w.session = r.session ∧ w.seq = r.seq
  normal : s.boot.recovery = false
  context : (heldCtx r s).map Ctx.role = some role
  fresh : role ≠ 0 → ∀ c, heldCtx r s = some c → tagGood op r c = true ∧ seqLater r.seq.toNat (lastHeard r c s).toNat 32 = true
  right : judge (noted r role s) role = none

/-- A command that changes state is served: in a role's session the ledger, where one exists, has room for its entry as
well (R41). -/
structure Granted (op : Nat) (r : Req) (role : Nat) (judge : State → Nat → Option Status) (s : State) : Prop where
  served : Served op r role judge s
  ledger : role ≠ 0 → op ≠ 0x0A01 → ledgerLive (heard op r role s) = true → ledgerRoom (heard op r role s) = true

/-- The response OK of a served request, with its bytes. -/
def ok (op : Nat) (r : Req) (s : State) (b : List Byte) : State := answer s r op .ok b

/-- A configuration record fits the stored map, and HLB_EPOCH can advance (R533, R548). -/
def mapFits (s : State) (c : Cfg) : Bool := decide (mapLen (putRecord s.map c) ≤ 262144) && ! epochFinal s

/-- A † command's record is stored and committed, it takes effect by `apply`, and it is answered OK (R533, R548). -/
def configured (op : Nat) (r : Req) (role : Nat) (c : Cfg) (apply : State → State) (s : State) : State :=
  ok op r (apply (commitChange (storeRecord (admitted op r role s) c))) []

end Sys2Proof.Machine
end

