-- ==== Sys2Proof/Laws/Keep.lean ====
section
/-! SUPPORT. The bookkeeping of what operations leave alone: a mark of the waiting commands, ledger time and the beat
count that an operation keeps, and the soundness of the stores that it keeps. -/

namespace Sys2Proof.Machine

/-- The parts of a state that are compared; a part that is `none` is not. -/
structure Mark where
  pending : Option (List Instr)
  clock : Option (Nat × Nat × Int)
  beat : Option Word
  odo : Option Nat
  seq : Option Nat
  map : Option (List Cfg)
  slots : Option (Tab Slot)

/-- A state agrees with a mark (its odometer and ledger sequence have not gone back) and is sound, the last under a
condition. -/
structure Kept (C : Prop) (M : Mark) (s : State) : Prop where
  pending : ∀ p, M.pending = some p → s.pending = p
  clock : ∀ x, M.clock = some x → (s.ledger.sec, s.ledger.frac, s.ledger.trim) = x
  beat : ∀ b, M.beat = some b → s.time.beatCnt = b
  seq : ∀ n, M.seq = some n → n ≤ s.ledger.nextSeq
  map : ∀ m, M.map = some m → s.map = m
  slots : ∀ m, M.slots = some m → s.vault.slots = m
  odo : C → ∀ n, M.odo = some n → n ≤ s.wheels.odo
  sound : C → s.Sound

variable {C : Prop} {M : Mark} {s : State}

/-- The same of the compared parts alone. -/
structure Parts (C : Prop) (M : Mark) (rf : Tab Word) (mem : Tab Byte) (pending : List Instr) (sec frac : Nat) (trim : Int)
    (beat : Word) (step nseq odom : Nat) (mapv : List Cfg) (slotv : Tab Slot) : Prop where
  pending : ∀ p, M.pending = some p → pending = p
  clock : ∀ x, M.clock = some x → (sec, frac, trim) = x
  beat : ∀ b, M.beat = some b → beat = b
  seq : ∀ n, M.seq = some n → n ≤ nseq
  map : ∀ m, M.map = some m → mapv = m
  slots : ∀ m, M.slots = some m → slotv = m
  odo : C → ∀ n, M.odo = some n → n ≤ odom
  sound : C → tabWf rfCold rf = true ∧ tabWf (fun _ => (0 : Byte)) mem = true ∧ step ≤ 3 ∧ odom ≤ 2 ^ 48 - 1

/-- A record update is judged by its compared parts. -/
theorem kept_lit {rf shadow sel power boot fuses sess deny disp time vault nfc ledger lanes aon net tables ports
    cipher bridge hlb wheels map changes bgs mem freeze out fresh pending} :
    Kept C M (State.mk rf shadow sel power boot fuses sess deny disp time vault nfc ledger lanes aon net tables ports
      cipher bridge hlb wheels map changes bgs mem freeze out fresh pending) =
    Parts C M rf mem pending ledger.sec ledger.frac ledger.trim time.beatCnt power.step ledger.nextSeq wheels.odo map
      vault.slots :=
  propext ⟨fun h => ⟨h.pending, h.clock, h.beat, h.seq, h.map, h.slots, h.odo,
      fun c => ⟨(h.sound c).regs, (h.sound c).mem, (h.sound c).step, (h.sound c).odo⟩⟩,
    fun h => ⟨h.pending, h.clock, h.beat, h.seq, h.map, h.slots, h.odo,
      fun c => ⟨(h.sound c).1, (h.sound c).2.1, (h.sound c).2.2.1, (h.sound c).2.2.2⟩⟩⟩

/-- Parts taken from a state that keeps the mark. -/
theorem kept_parts {x : State} (h : Kept C M x) :
    Parts C M x.rf x.mem x.pending x.ledger.sec x.ledger.frac x.ledger.trim x.time.beatCnt x.power.step x.ledger.nextSeq
      x.wheels.odo x.map x.vault.slots :=
  ⟨h.pending, h.clock, h.beat, h.seq, h.map, h.slots, h.odo,
    fun c => ⟨(h.sound c).regs, (h.sound c).mem, (h.sound c).step, (h.sound c).odo⟩⟩

/-- The INSTALLER map is not compared where the mark has none; the same of the key slots. -/
theorem parts_map {x : State} (h : Kept C M x) (hm : M.map = none) (m : List Cfg) :
    Parts C M x.rf x.mem x.pending x.ledger.sec x.ledger.frac x.ledger.trim x.time.beatCnt x.power.step x.ledger.nextSeq
      x.wheels.odo m x.vault.slots :=
  { kept_parts h with map := fun n hn => by rw [hm] at hn; cases hn }

theorem parts_slots {x : State} (h : Kept C M x) (hk : M.slots = none) (m : Tab Slot) :
    Parts C M x.rf x.mem x.pending x.ledger.sec x.ledger.frac x.ledger.trim x.time.beatCnt x.power.step x.ledger.nextSeq
      x.wheels.odo x.map m :=
  { kept_parts h with slots := fun n hn => by rw [hk] at hn; cases hn }

/-- The next sequence number may grow. -/
theorem parts_seq {x : State} (h : Kept C M x) :
    Parts C M x.rf x.mem x.pending x.ledger.sec x.ledger.frac x.ledger.trim x.time.beatCnt x.power.step
      (x.ledger.nextSeq + 1) x.wheels.odo x.map x.vault.slots :=
  { kept_parts h with seq := fun n hn => Nat.le_succ_of_le (h.seq n hn) }

/-- Any change of the compared parts, each judged by itself. -/
theorem kept_any {x t : State} (h : Kept C M x) (h1 : Regs.wf x → Regs.wf t) (h2 : Memory.wf x → Memory.wf t)
    (h3 : t.pending = x.pending) (h4 : M.clock = none ∨ (t.ledger.sec, t.ledger.frac, t.ledger.trim) = (x.ledger.sec, x.ledger.frac, x.ledger.trim))
    (h5 : M.beat = none ∨ t.time.beatCnt = x.time.beatCnt) (h6 : x.power.step ≤ 3 → t.power.step ≤ 3)
    (h7 : M.seq = none ∨ x.ledger.nextSeq ≤ t.ledger.nextSeq) (h8 : M.map = none ∨ t.map = x.map)
    (h9 : M.slots = none ∨ t.vault.slots = x.vault.slots)
    (h10 : x.wheels.odo ≤ 2 ^ 48 - 1 → t.wheels.odo ≤ 2 ^ 48 - 1 ∧ (M.odo = none ∨ x.wheels.odo ≤ t.wheels.odo)) : Kept C M t := by
  constructor
  · intro p hp; rw [h3]; exact h.pending p hp
  · intro y hy
    rcases h4 with h4 | h4
    · rw [h4] at hy; cases hy
    · rw [h4]; exact h.clock y hy
  · intro b hb
    rcases h5 with h5 | h5
    · rw [h5] at hb; cases hb
    · rw [h5]; exact h.beat b hb
  · intro n hn
    rcases h7 with h7 | h7
    · rw [h7] at hn; cases hn
    · exact Nat.le_trans (h.seq n hn) h7
  · intro n hn
    rcases h8 with h8 | h8
    · rw [h8] at hn; cases hn
    · rw [h8]; exact h.map n hn
  · intro n hn
    rcases h9 with h9 | h9
    · rw [h9] at hn; cases hn
    · rw [h9]; exact h.slots n hn
  · intro c n hn
    rcases (h10 (h.sound c).odo).2 with h | h'
    · rw [h] at hn; cases hn
    · exact Nat.le_trans (h.odo c n hn) h'
  · intro c; obtain ⟨a, b, d, e⟩ := h.sound c; exact ⟨h1 a, h2 b, h6 d, (h10 e).1⟩

/-- A change of stores, clock, beat count and step alone. -/
theorem kept_stores {x t : State} (h : Kept C M x) (h1 : Regs.wf x → Regs.wf t) (h2 : Memory.wf x → Memory.wf t)
    (h3 : t.pending = x.pending) (h4 : M.clock = none ∨ (t.ledger.sec, t.ledger.frac, t.ledger.trim) = (x.ledger.sec, x.ledger.frac, x.ledger.trim))
    (h5 : M.beat = none ∨ t.time.beatCnt = x.time.beatCnt) (h6 : x.power.step ≤ 3 → t.power.step ≤ 3)
    (h7 : t.ledger.nextSeq = x.ledger.nextSeq := by rfl) (h8 : t.map = x.map := by rfl)
    (h9 : t.vault.slots = x.vault.slots := by rfl) (h10 : t.wheels.odo = x.wheels.odo := by rfl) : Kept C M t :=
  kept_any h h1 h2 h3 h4 h5 h6 (.inr (Nat.le_of_eq h7.symm)) (.inr h8) (.inr h9)
    (fun e => ⟨by rw [h10]; exact e, .inr (Nat.le_of_eq h10.symm)⟩)

theorem kept_fold {β : Type} {F : State → β → State} (hF : ∀ s x, Kept C M s → Kept C M (F s x)) :
    ∀ (l : List β) (s : State), Kept C M s → Kept C M (l.foldl F s)
  | [], _, h => h
  | x :: l, s, h => kept_fold hF l (F s x) (hF s x h)

theorem kept_fold_2 {α β : Type} {F : α × State → β → α × State} (hF : ∀ p x, Kept C M p.2 → Kept C M (F p x).2) :
    ∀ (l : List β) (p : α × State), Kept C M p.2 → Kept C M (l.foldl F p).2
  | [], _, h => h
  | x :: l, p, h => kept_fold_2 hF l (F p x) (hF p x h)

theorem kept_fold_1 {α β : Type} {F : State × α → β → State × α} (hF : ∀ p x, Kept C M p.1 → Kept C M (F p x).1) :
    ∀ (l : List β) (p : State × α), Kept C M p.1 → Kept C M (l.foldl F p).1
  | [], _, h => h
  | x :: l, p, h => kept_fold_1 hF l (F p x) (hF p x h)

theorem kept_ite {p : Prop} [Decidable p] {a b : State} (ha : Kept C M a) (hb : Kept C M b) : Kept C M (if p then a else b) := by
  split
  · exact ha
  · exact hb

theorem kept_of_eq_1 {β : Type} {p : State × β} {t : State} {b : β} (e : p = (t, b)) (h : Kept C M p.1) : Kept C M t := by
  subst e; exact h

theorem kept_of_eq_2 {α : Type} {p : α × State} {t : State} {a : α} (e : p = (a, t)) (h : Kept C M p.2) : Kept C M t := by
  subst e; exact h

theorem kept_of_eq_2_2 {α β : Type} {p : α × β × State} {t : State} {a : α} {b : β} (e : p = (a, b, t)) (h : Kept C M p.2.2) :
    Kept C M t := by
  subst e; exact h

theorem wri_kept (a i : Nat) (v : Word) (h : Kept C M s) : Kept C M (wri s a i v) :=
  kept_stores h (fun hr => tabSet_wf _ _ hr) id rfl (.inr rfl) (.inr rfl) id

theorem rfReset_wf (keep : RegRow → Word) {rf : Tab Word} (h : tabWf rfCold rf = true) : tabWf rfCold (rfReset keep rf) = true := by
  refine tabWfFrom_filterMap _ ?_ h
  rintro ⟨k, v⟩ y hy
  dsimp only at hy
  split at hy
  · cases hy
  · rename_i hne
    cases hy
    exact ⟨rfl, hne⟩

theorem rfVbkpLoss_wf {rf : Tab Word} (h : tabWf rfCold rf = true) : tabWf rfCold (rfVbkpLoss rf) = true := by
  refine tabWfFrom_filterMap _ ?_ h
  rintro ⟨k, v⟩ y hy
  dsimp only at hy
  split at hy
  · cases hy
  · rename_i hne
    cases hy
    exact ⟨rfl, hne⟩

end Sys2Proof.Machine
end

