-- ==== Sys2Proof/Laws/KeepOps.lean ====
section
/-! SUPPORT. What the operations of `Ops` leave alone. -/

namespace Sys2Proof.Machine

set_option linter.unusedTactic false
set_option linter.unreachableTactic false
set_option linter.unusedSimpArgs false

variable {C : Prop} {M : Mark}

structure PlanKept (C : Prop) (M : Mark) (p : Plan) : Prop where
  act : ∀ s, Kept C M s → Kept C M (p.act s).1

theorem plan_mk {st b ch act later} (h : ∀ s, Kept C M s → Kept C M (act s).1) : PlanKept C M (Plan.mk st b ch act later) := ⟨h⟩

theorem plan_fail (st : Status) : PlanKept C M (Plan.fail st) := ⟨fun _ h => h⟩

theorem plan_read (b : List Byte) : PlanKept C M (Plan.read b) := ⟨fun _ h => h⟩

theorem plan_doBytes {f : State → State × List Byte} (h : ∀ s, Kept C M s → Kept C M (f s).1) : PlanKept C M (Plan.doBytes f) := ⟨h⟩

theorem plan_do {f : State → State} (h : ∀ s, Kept C M s → Kept C M (f s)) : PlanKept C M (Plan.do_ f) := ⟨h⟩

theorem wr_kept (s : State) (a : ℕ) (v : Word) (h : Kept C M s) : Kept C M (wr s a v) := by
  unfold wr
  (try dsimp only)
  repeat' first
    | (with_reducible assumption) | (with_reducible apply wri_kept) | (with_reducible refine kept_fold ?_ _ _ ?_)
    | (with_reducible refine kept_fold_2 ?_ _ _ ?_) | (with_reducible refine kept_fold_1 ?_ _ _ ?_) | intro _
    | (simp only [kept_lit]) | (with_reducible apply kept_parts) | (with_reducible refine kept_ite ?_ ?_)
    | (dsimp only [id_eq]) | split

theorem setFldi_kept (s : State) (a : ℕ) (i : ℕ) (lo : ℕ) (w : ℕ) (v : ℕ) (h : Kept C M s) : Kept C M (setFldi s a i lo w v) := by
  unfold setFldi
  (try dsimp only)
  repeat' first
    | (with_reducible assumption) | (with_reducible apply wri_kept) | (with_reducible refine kept_fold ?_ _ _ ?_)
    | (with_reducible refine kept_fold_2 ?_ _ _ ?_) | (with_reducible refine kept_fold_1 ?_ _ _ ?_) | intro _
    | (simp only [kept_lit]) | (with_reducible apply kept_parts) | (with_reducible refine kept_ite ?_ ?_)
    | (dsimp only [id_eq]) | split

theorem setFld_kept (s : State) (a : ℕ) (lo : ℕ) (w : ℕ) (v : ℕ) (h : Kept C M s) : Kept C M (setFld s a lo w v) := by
  unfold setFld
  (try dsimp only)
  repeat' first
    | (with_reducible assumption) | (with_reducible apply setFldi_kept) | (with_reducible refine kept_fold ?_ _ _ ?_)
    | (with_reducible refine kept_fold_2 ?_ _ _ ?_) | (with_reducible refine kept_fold_1 ?_ _ _ ?_) | intro _
    | (simp only [kept_lit]) | (with_reducible apply kept_parts) | (with_reducible refine kept_ite ?_ ?_)
    | (dsimp only [id_eq]) | split

theorem orReg_kept (s : State) (a : ℕ) (i : ℕ) (m : Word) (h : Kept C M s) : Kept C M (orReg s a i m) := by
  unfold orReg
  (try dsimp only)
  repeat' first
    | (with_reducible assumption) | (with_reducible apply wri_kept) | (with_reducible refine kept_fold ?_ _ _ ?_)
    | (with_reducible refine kept_fold_2 ?_ _ _ ?_) | (with_reducible refine kept_fold_1 ?_ _ _ ?_) | intro _
    | (simp only [kept_lit]) | (with_reducible apply kept_parts) | (with_reducible refine kept_ite ?_ ?_)
    | (dsimp only [id_eq]) | split

theorem clrReg_kept (s : State) (a : ℕ) (i : ℕ) (m : Word) (h : Kept C M s) : Kept C M (clrReg s a i m) := by
  unfold clrReg
  (try dsimp only)
  repeat' first
    | (with_reducible assumption) | (with_reducible apply wri_kept) | (with_reducible refine kept_fold ?_ _ _ ?_)
    | (with_reducible refine kept_fold_2 ?_ _ _ ?_) | (with_reducible refine kept_fold_1 ?_ _ _ ?_) | intro _
    | (simp only [kept_lit]) | (with_reducible apply kept_parts) | (with_reducible refine kept_ite ?_ ?_)
    | (dsimp only [id_eq]) | split

theorem statIncI_kept (s : State) (a : ℕ) (i : ℕ) (h : Kept C M s) : Kept C M (statIncI s a i) := by
  unfold statIncI
  (try dsimp only)
  repeat' first
    | (with_reducible assumption) | (with_reducible apply wri_kept) | (with_reducible refine kept_fold ?_ _ _ ?_)
    | (with_reducible refine kept_fold_2 ?_ _ _ ?_) | (with_reducible refine kept_fold_1 ?_ _ _ ?_) | intro _
    | (simp only [kept_lit]) | (with_reducible apply kept_parts) | (with_reducible refine kept_ite ?_ ?_)
    | (dsimp only [id_eq]) | split

theorem statInc_kept (s : State) (a : ℕ) (h : Kept C M s) : Kept C M (statInc s a) := by
  unfold statInc
  (try dsimp only)
  repeat' first
    | (with_reducible assumption) | (with_reducible apply statIncI_kept) | (with_reducible refine kept_fold ?_ _ _ ?_)
    | (with_reducible refine kept_fold_2 ?_ _ _ ?_) | (with_reducible refine kept_fold_1 ?_ _ _ ?_) | intro _
    | (simp only [kept_lit]) | (with_reducible apply kept_parts) | (with_reducible refine kept_ite ?_ ?_)
    | (dsimp only [id_eq]) | split

theorem statAddI_kept (s : State) (a : ℕ) (i : ℕ) (n : ℕ) (h : Kept C M s) : Kept C M (statAddI s a i n) := by
  unfold statAddI
  (try dsimp only)
  repeat' first
    | (with_reducible assumption) | (with_reducible apply wri_kept) | (with_reducible refine kept_fold ?_ _ _ ?_)
    | (with_reducible refine kept_fold_2 ?_ _ _ ?_) | (with_reducible refine kept_fold_1 ?_ _ _ ?_) | intro _
    | (simp only [kept_lit]) | (with_reducible apply kept_parts) | (with_reducible refine kept_ite ?_ ?_)
    | (dsimp only [id_eq]) | split

theorem stat2AddI_kept (s : State) (a : ℕ) (i : ℕ) (n : ℕ) (h : Kept C M s) : Kept C M (stat2AddI s a i n) := by
  unfold stat2AddI
  (try dsimp only)
  repeat' first
    | (with_reducible assumption) | (with_reducible apply wri_kept) | (with_reducible refine kept_fold ?_ _ _ ?_)
    | (with_reducible refine kept_fold_2 ?_ _ _ ?_) | (with_reducible refine kept_fold_1 ?_ _ _ ?_) | intro _
    | (simp only [kept_lit]) | (with_reducible apply kept_parts) | (with_reducible refine kept_ite ?_ ?_)
    | (dsimp only [id_eq]) | split

theorem raiseN_kept (s : State) (n : ℕ) (h : Kept C M s) : Kept C M (raiseN s n) := by
  unfold raiseN
  (try dsimp only)
  repeat' first
    | (with_reducible assumption) | (with_reducible apply statInc_kept) | (with_reducible apply orReg_kept)
    | (with_reducible refine kept_fold ?_ _ _ ?_) | (with_reducible refine kept_fold_2 ?_ _ _ ?_)
    | (with_reducible refine kept_fold_1 ?_ _ _ ?_) | intro _ | (simp only [kept_lit]) | (with_reducible apply kept_parts)
    | (with_reducible refine kept_ite ?_ ?_) | (dsimp only [id_eq]) | split

theorem raise_kept (s : State) (e : Ev) (h : Kept C M s) : Kept C M (raise s e) := by
  unfold raise
  (try dsimp only)
  repeat' first
    | (with_reducible assumption) | (with_reducible apply raiseN_kept) | (with_reducible refine kept_fold ?_ _ _ ?_)
    | (with_reducible refine kept_fold_2 ?_ _ _ ?_) | (with_reducible refine kept_fold_1 ?_ _ _ ?_) | intro _
    | (simp only [kept_lit]) | (with_reducible apply kept_parts) | (with_reducible refine kept_ite ?_ ?_)
    | (dsimp only [id_eq]) | split

theorem monoFinal_kept (s : State) (code : ℕ) (h : Kept C M s) : Kept C M (monoFinal s code) := by
  unfold monoFinal
  (try dsimp only)
  repeat' first
    | (with_reducible assumption) | (with_reducible apply raise_kept) | (with_reducible apply setFld_kept)
    | (with_reducible refine kept_fold ?_ _ _ ?_) | (with_reducible refine kept_fold_2 ?_ _ _ ?_)
    | (with_reducible refine kept_fold_1 ?_ _ _ ?_) | intro _ | (simp only [kept_lit]) | (with_reducible apply kept_parts)
    | (with_reducible refine kept_ite ?_ ?_) | (dsimp only [id_eq]) | split

theorem draw_kept (s : State) (h : Kept C M s) : Kept C M (draw s).2 := by
  unfold draw
  (try dsimp only)
  repeat' first
    | (with_reducible assumption) | (with_reducible refine kept_fold ?_ _ _ ?_)
    | (with_reducible refine kept_fold_2 ?_ _ _ ?_) | (with_reducible refine kept_fold_1 ?_ _ _ ?_) | intro _
    | (simp only [kept_lit]) | (with_reducible apply kept_parts) | (with_reducible refine kept_ite ?_ ?_)
    | (dsimp only [id_eq]) | split

theorem whenRunning_kept (s : State) (f : State → State) (hf : ∀ s, Kept C M s → Kept C M (f s)) (h : Kept C M s) :
    Kept C M (whenRunning s f) := by
  unfold whenRunning
  split
  · exact hf s h
  · exact h

theorem begin__kept (s : State) (h : Kept C M s) : Kept C M (begin_ s) := by
  unfold begin_
  (try dsimp only)
  repeat' first
    | (with_reducible assumption) | (with_reducible refine kept_fold ?_ _ _ ?_)
    | (with_reducible refine kept_fold_2 ?_ _ _ ?_) | (with_reducible refine kept_fold_1 ?_ _ _ ?_) | intro _
    | (simp only [kept_lit]) | (with_reducible apply kept_parts) | (with_reducible refine kept_ite ?_ ?_)
    | (dsimp only [id_eq]) | split

theorem setSess_kept (s : State) (role : ℕ) (v : Sess) (h : Kept C M s) : Kept C M (setSess s role v) := by
  unfold setSess
  (try dsimp only)
  repeat' first
    | (with_reducible assumption) | (with_reducible refine kept_fold ?_ _ _ ?_)
    | (with_reducible refine kept_fold_2 ?_ _ _ ?_) | (with_reducible refine kept_fold_1 ?_ _ _ ?_) | intro _
    | (simp only [kept_lit]) | (with_reducible apply kept_parts) | (with_reducible refine kept_ite ?_ ?_)
    | (dsimp only [id_eq]) | split

theorem setSlot_kept (s : State) (k : Nat) (x : Slot) (h : Kept C M s) (hk : M.slots = none) : Kept C M (setSlot s k x) :=
  kept_any h id id rfl (.inr rfl) (.inr rfl) id (.inr (Nat.le_refl _)) (.inr rfl) (.inl hk)
    (fun e => ⟨e, .inr (Nat.le_refl _)⟩)

theorem queueEntryL_kept (s : State) (late : Bool) (restart : Bool) (lt : ℕ) (p : Payload) (h : Kept C M s) : Kept C M (queueEntryL s late restart lt p) := by
  unfold queueEntryL
  (try dsimp only)
  repeat' first
    | (with_reducible assumption) | (with_reducible refine kept_fold ?_ _ _ ?_)
    | (with_reducible refine kept_fold_2 ?_ _ _ ?_) | (with_reducible refine kept_fold_1 ?_ _ _ ?_) | intro _
    | (simp only [kept_lit]) | (with_reducible apply kept_parts) | (with_reducible refine kept_ite ?_ ?_)
    | (dsimp only [id_eq]) | split

theorem queueEntry_kept (s : State) (p : Payload) (h : Kept C M s) : Kept C M (queueEntry s p) := by
  unfold queueEntry
  (try dsimp only)
  repeat' first
    | (with_reducible assumption) | (with_reducible apply queueEntryL_kept) | (with_reducible refine kept_fold ?_ _ _ ?_)
    | (with_reducible refine kept_fold_2 ?_ _ _ ?_) | (with_reducible refine kept_fold_1 ?_ _ _ ?_) | intro _
    | (simp only [kept_lit]) | (with_reducible apply kept_parts) | (with_reducible refine kept_ite ?_ ?_)
    | (dsimp only [id_eq]) | split

theorem useSeq_kept (s : State) (h : Kept C M s) : Kept C M (useSeq s) := by
  unfold useSeq
  dsimp only
  repeat' first
    | (with_reducible apply monoFinal_kept)
    | exact kept_any h id id rfl (.inr rfl) (.inr rfl) id (.inr (Nat.le_refl _)) (.inr rfl) (.inr rfl) (fun e => ⟨e, .inr (Nat.le_refl _)⟩)
    | exact kept_any h id id rfl (.inr rfl) (.inr rfl) id (.inr (Nat.le_succ _)) (.inr rfl) (.inr rfl) (fun e => ⟨e, .inr (Nat.le_refl _)⟩)
    | split

theorem commitOne_kept (s : State) (q : Entry) (h : Kept C M s) : Kept C M (commitOne s q) := by
  unfold commitOne
  dsimp only
  repeat' first
    | (with_reducible assumption)
    | (with_reducible apply useSeq_kept)
    | (with_reducible apply raise_kept)
    | (with_reducible apply statInc_kept)
    | exact kept_any h id id rfl (.inr rfl) (.inr rfl) id (.inr (Nat.le_refl _)) (.inr rfl) (.inr rfl) (fun e => ⟨e, .inr (Nat.le_refl _)⟩)
    | split

theorem commitHead_kept (s : State) (h : Kept C M s) : Kept C M (commitHead s) := by
  unfold commitHead
  (try dsimp only)
  repeat' first
    | (with_reducible assumption) | (with_reducible apply commitOne_kept) | (with_reducible refine kept_fold ?_ _ _ ?_)
    | (with_reducible refine kept_fold_2 ?_ _ _ ?_) | (with_reducible refine kept_fold_1 ?_ _ _ ?_) | intro _
    | (simp only [kept_lit]) | (with_reducible apply kept_parts) | (with_reducible refine kept_ite ?_ ?_)
    | (dsimp only [id_eq]) | split

theorem commitN_kept : ∀ (n : Nat) (s : State), Kept C M s → Kept C M (commitN n s)
  | 0, _, h => h
  | n + 1, s, h => commitN_kept n _ (commitHead_kept s h)

theorem commitAll_kept (s : State) (h : Kept C M s) : Kept C M (commitAll s) := by
  unfold commitAll
  (try dsimp only)
  repeat' first
    | (with_reducible assumption) | (with_reducible apply commitN_kept) | (with_reducible refine kept_fold ?_ _ _ ?_)
    | (with_reducible refine kept_fold_2 ?_ _ _ ?_) | (with_reducible refine kept_fold_1 ?_ _ _ ?_) | intro _
    | (simp only [kept_lit]) | (with_reducible apply kept_parts) | (with_reducible refine kept_ite ?_ ?_)
    | (dsimp only [id_eq]) | split

theorem commitEntry_kept (s : State) (p : Payload) (h : Kept C M s) : Kept C M (commitEntry s p) := by
  unfold commitEntry
  (try dsimp only)
  repeat' first
    | (with_reducible assumption) | (with_reducible apply commitAll_kept) | (with_reducible apply queueEntry_kept)
    | (with_reducible refine kept_fold ?_ _ _ ?_) | (with_reducible refine kept_fold_2 ?_ _ _ ?_)
    | (with_reducible refine kept_fold_1 ?_ _ _ ?_) | intro _ | (simp only [kept_lit]) | (with_reducible apply kept_parts)
    | (with_reducible refine kept_ite ?_ ?_) | (dsimp only [id_eq]) | split

theorem endRun_kept (s : State) (role : ℕ) (h : Kept C M s) : Kept C M (endRun s role) := by
  unfold endRun
  (try dsimp only)
  repeat' first
    | (with_reducible assumption) | (with_reducible apply queueEntry_kept) | (with_reducible apply setSess_kept)
    | (with_reducible refine kept_fold ?_ _ _ ?_) | (with_reducible refine kept_fold_2 ?_ _ _ ?_)
    | (with_reducible refine kept_fold_1 ?_ _ _ ?_) | intro _ | (simp only [kept_lit]) | (with_reducible apply kept_parts)
    | (with_reducible refine kept_ite ?_ ?_) | (dsimp only [id_eq]) | split

theorem dropBatch_kept (s : State) (p : Chan × ℕ → Bool) (h : Kept C M s) : Kept C M (dropBatch s p) := by
  unfold dropBatch
  (try dsimp only)
  repeat' first
    | (with_reducible assumption) | (with_reducible refine kept_fold ?_ _ _ ?_)
    | (with_reducible refine kept_fold_2 ?_ _ _ ?_) | (with_reducible refine kept_fold_1 ?_ _ _ ?_) | intro _
    | (simp only [kept_lit]) | (with_reducible apply kept_parts) | (with_reducible refine kept_ite ?_ ?_)
    | (dsimp only [id_eq]) | split

theorem recordClose_kept (s : State) (reason : ℕ) (h : Kept C M s) : Kept C M (recordClose s reason) := by
  unfold recordClose
  (try dsimp only)
  repeat' first
    | (with_reducible assumption) | (with_reducible apply setFld_kept) | (with_reducible refine kept_fold ?_ _ _ ?_)
    | (with_reducible refine kept_fold_2 ?_ _ _ ?_) | (with_reducible refine kept_fold_1 ?_ _ _ ?_) | intro _
    | (simp only [kept_lit]) | (with_reducible apply kept_parts) | (with_reducible refine kept_ite ?_ ?_)
    | (dsimp only [id_eq]) | split

theorem lowerClose_kept (s : State) (role : ℕ) (reason : ℕ) (h : Kept C M s) : Kept C M (lowerClose s role reason) := by
  unfold lowerClose
  (try dsimp only)
  repeat' first
    | (with_reducible assumption) | (with_reducible apply recordClose_kept) | (with_reducible apply setSess_kept)
    | (with_reducible refine kept_fold ?_ _ _ ?_) | (with_reducible refine kept_fold_2 ?_ _ _ ?_)
    | (with_reducible refine kept_fold_1 ?_ _ _ ?_) | intro _ | (simp only [kept_lit]) | (with_reducible apply kept_parts)
    | (with_reducible refine kept_ite ?_ ?_) | (dsimp only [id_eq]) | split

theorem closeSession_kept (s : State) (role : ℕ) (reason : ℕ) (h : Kept C M s) : Kept C M (closeSession s role reason) := by
  unfold closeSession
  (try dsimp only)
  repeat' first
    | (with_reducible assumption) | (with_reducible apply endRun_kept) | (with_reducible apply setSess_kept)
    | (with_reducible apply recordClose_kept) | (with_reducible apply dropBatch_kept) | (with_reducible apply queueEntry_kept)
    | (with_reducible apply lowerClose_kept) | (with_reducible refine kept_fold ?_ _ _ ?_)
    | (with_reducible refine kept_fold_2 ?_ _ _ ?_) | (with_reducible refine kept_fold_1 ?_ _ _ ?_) | intro _
    | (simp only [kept_lit]) | (with_reducible apply kept_parts) | (with_reducible refine kept_ite ?_ ?_)
    | (dsimp only [id_eq]) | split

theorem closeAll_kept (s : State) (reason : ℕ) (h : Kept C M s) : Kept C M (closeAll s reason) := by
  unfold closeAll
  (try dsimp only)
  repeat' first
    | (with_reducible assumption) | (with_reducible apply closeSession_kept) | (with_reducible refine kept_fold ?_ _ _ ?_)
    | (with_reducible refine kept_fold_2 ?_ _ _ ?_) | (with_reducible refine kept_fold_1 ?_ _ _ ?_) | intro _
    | (simp only [kept_lit]) | (with_reducible apply kept_parts) | (with_reducible refine kept_ite ?_ ?_)
    | (dsimp only [id_eq]) | split

theorem setCur_kept (s : State) (c : Option Ctx) (h : Kept C M s) : Kept C M (setCur s c) := by
  unfold setCur
  (try dsimp only)
  repeat' first
    | (with_reducible assumption) | (with_reducible refine kept_fold ?_ _ _ ?_)
    | (with_reducible refine kept_fold_2 ?_ _ _ ?_) | (with_reducible refine kept_fold_1 ?_ _ _ ?_) | intro _
    | (simp only [kept_lit]) | (with_reducible apply kept_parts) | (with_reducible refine kept_ite ?_ ?_)
    | (dsimp only [id_eq]) | split

theorem refuse_kept (s : State) (c : Cls) (r : Reason) (addr : ℕ) (write : Bool) (h : Kept C M s) : Kept C M (refuse s c r addr write) := by
  unfold refuse
  (try dsimp only)
  repeat' first
    | (with_reducible assumption) | (with_reducible apply statInc_kept) | (with_reducible apply raise_kept)
    | (with_reducible apply wr_kept) | (with_reducible refine kept_fold ?_ _ _ ?_)
    | (with_reducible refine kept_fold_2 ?_ _ _ ?_) | (with_reducible refine kept_fold_1 ?_ _ _ ?_) | intro _
    | (simp only [kept_lit]) | (with_reducible apply kept_parts) | (with_reducible refine kept_ite ?_ ?_)
    | (dsimp only [id_eq]) | split

theorem dmaGood_kept (s : State) (h : Kept C M s) : Kept C M (dmaGood s) := by
  unfold dmaGood
  (try dsimp only)
  repeat' first
    | (with_reducible assumption) | (with_reducible refine kept_fold ?_ _ _ ?_)
    | (with_reducible refine kept_fold_2 ?_ _ _ ?_) | (with_reducible refine kept_fold_1 ?_ _ _ ?_) | intro _
    | (simp only [kept_lit]) | (with_reducible apply kept_parts) | (with_reducible refine kept_ite ?_ ?_)
    | (dsimp only [id_eq]) | split

theorem dmaWrite_kept (s : State) (a : ℕ) (b : List Byte) (h : Kept C M s) : Kept C M (dmaWrite s a b).2 := by
  unfold dmaWrite
  (try dsimp only)
  repeat' first
    | (with_reducible assumption) | (with_reducible apply refuse_kept) | (with_reducible refine kept_fold ?_ _ _ ?_)
    | (with_reducible refine kept_fold_2 ?_ _ _ ?_) | (with_reducible refine kept_fold_1 ?_ _ _ ?_) | intro _
    | (simp only [kept_lit]) | (with_reducible apply kept_parts) | (with_reducible refine kept_ite ?_ ?_)
    | (dsimp only [id_eq]) | split

theorem respond_kept (s : State) (c : Chan) (r : Rsp) (h : Kept C M s) : Kept C M (respond s c r) := by
  unfold respond
  (try dsimp only)
  repeat' first
    | (with_reducible assumption) | (with_reducible apply raise_kept) | (with_reducible apply statInc_kept)
    | (with_reducible apply wr_kept) | (with_reducible apply dmaWrite_kept) | (with_reducible apply setFld_kept)
    | (with_reducible refine kept_fold ?_ _ _ ?_) | (with_reducible refine kept_fold_2 ?_ _ _ ?_)
    | (with_reducible refine kept_fold_1 ?_ _ _ ?_) | intro _ | (simp only [kept_lit]) | (with_reducible apply kept_parts)
    | (with_reducible refine kept_of_eq_2 ‹dmaWrite _ _ _ = _› (dmaWrite_kept _ _ _ ?_))
    | (with_reducible refine kept_ite ?_ ?_) | (dsimp only [id_eq]) | split

theorem pullRequest_kept (s : State) (c : Chan) (x : Option Ctx) (h : Kept C M s) : Kept C M (pullRequest s c x) := by
  unfold pullRequest
  (try dsimp only)
  repeat' first
    | (with_reducible assumption) | (with_reducible refine kept_fold ?_ _ _ ?_)
    | (with_reducible refine kept_fold_2 ?_ _ _ ?_) | (with_reducible refine kept_fold_1 ?_ _ _ ?_) | intro _
    | (simp only [kept_lit]) | (with_reducible apply kept_parts) | (with_reducible refine kept_ite ?_ ?_)
    | (dsimp only [id_eq]) | split

theorem takeRequest_kept (s : State) (r : Req) (op : ℕ) (h : Kept C M s) : ∀ t, takeRequest s r op = some t → Kept C M t := by
  intro t ht
  unfold takeRequest at ht
  (try dsimp only)
  repeat' first
    | (with_reducible assumption) | (with_reducible apply pullRequest_kept) | (with_reducible refine kept_fold ?_ _ _ ?_)
    | (with_reducible refine kept_fold_2 ?_ _ _ ?_) | (with_reducible refine kept_fold_1 ?_ _ _ ?_) | intro _
    | (simp only [kept_lit]) | (with_reducible apply kept_parts) | (split at ht) | (cases ht) | (dsimp only at ht)
    | (with_reducible refine kept_ite ?_ ?_) | (dsimp only [id_eq]) | split

theorem noEntry_kept (s : State) (h : Kept C M s) : Kept C M (noEntry s).1 := by
  unfold noEntry
  split
  · exact h
  · exact statInc_kept _ _ h

theorem plan_noRoom : PlanKept C M Plan.noRoom := ⟨fun _ h => noEntry_kept _ h⟩

theorem roleEntry_kept (s : State) (role : ℕ) (st : Status) (op : ℕ) (r : Req) (h : Kept C M s) : Kept C M (roleEntry s role st op r) := by
  unfold roleEntry
  (try dsimp only)
  repeat' first
    | (with_reducible assumption) | (with_reducible apply queueEntry_kept) | (with_reducible refine kept_fold ?_ _ _ ?_)
    | (with_reducible refine kept_fold_2 ?_ _ _ ?_) | (with_reducible refine kept_fold_1 ?_ _ _ ?_) | intro _
    | (simp only [kept_lit]) | (with_reducible apply kept_parts) | (with_reducible refine kept_ite ?_ ?_)
    | (dsimp only [id_eq]) | split

theorem auditRefusal_kept (s : State) (role : ℕ) (st : Status) (op : ℕ) (r : Req) (h : Kept C M s) : Kept C M (auditRefusal s role st op r) := by
  unfold auditRefusal
  (try dsimp only)
  repeat' first
    | (with_reducible assumption) | (with_reducible apply commitAll_kept) | (with_reducible apply roleEntry_kept)
    | (with_reducible refine kept_fold ?_ _ _ ?_) | (with_reducible refine kept_fold_2 ?_ _ _ ?_)
    | (with_reducible refine kept_fold_1 ?_ _ _ ?_) | intro _ | (simp only [kept_lit]) | (with_reducible apply kept_parts)
    | (with_reducible refine kept_ite ?_ ?_) | (dsimp only [id_eq]) | split

theorem answer_kept (s : State) (r : Req) (op : ℕ) (st : Status) (b : List Byte) (h : Kept C M s) : Kept C M (answer s r op st b) := by
  unfold answer
  (try dsimp only)
  repeat' first
    | (with_reducible assumption) | (with_reducible apply setCur_kept) | (with_reducible apply respond_kept)
    | (with_reducible refine kept_fold ?_ _ _ ?_) | (with_reducible refine kept_fold_2 ?_ _ _ ?_)
    | (with_reducible refine kept_fold_1 ?_ _ _ ?_) | intro _ | (simp only [kept_lit]) | (with_reducible apply kept_parts)
    | (with_reducible refine kept_ite ?_ ?_) | (dsimp only [id_eq]) | split

theorem countHostDeny_kept (s : State) (role : ℕ) (st : Status) (h : Kept C M s) : Kept C M (countHostDeny s role st) := by
  unfold countHostDeny
  (try dsimp only)
  repeat' first
    | (with_reducible assumption) | (with_reducible apply statInc_kept) | (with_reducible refine kept_fold ?_ _ _ ?_)
    | (with_reducible refine kept_fold_2 ?_ _ _ ?_) | (with_reducible refine kept_fold_1 ?_ _ _ ?_) | intro _
    | (simp only [kept_lit]) | (with_reducible apply kept_parts) | (with_reducible refine kept_ite ?_ ?_)
    | (dsimp only [id_eq]) | split

theorem checkSession_kept (s : State) (op : ℕ) (r : Req) (c : Ctx) (h : Kept C M s) : Kept C M (checkSession s op r c).2 := by
  unfold checkSession
  (try dsimp only)
  repeat' first
    | (with_reducible assumption) | (with_reducible apply setCur_kept) | (with_reducible apply statInc_kept)
    | (with_reducible apply setSess_kept) | (with_reducible apply closeSession_kept)
    | (with_reducible refine kept_fold ?_ _ _ ?_) | (with_reducible refine kept_fold_2 ?_ _ _ ?_)
    | (with_reducible refine kept_fold_1 ?_ _ _ ?_) | intro _ | (simp only [kept_lit]) | (with_reducible apply kept_parts)
    | (with_reducible refine kept_ite ?_ ?_) | (dsimp only [id_eq]) | split

theorem actRecorded_kept (op : Nat) (r : Req) (role : Nat) (p : Plan) (s : State) (hp : PlanKept C M p) (h : Kept C M s) :
    Kept C M (actRecorded op r role p s).1 := by
  unfold actRecorded
  dsimp only
  split
  · exact noEntry_kept _ h
  · refine hp.act _ ?_
    split
    · exact commitAll_kept _ (roleEntry_kept _ _ _ _ _ h)
    · exact auditRefusal_kept _ _ _ _ _ h

theorem runCommand_kept (op : Nat) (r : Req) (role : Nat) (judge : State → Nat → Option Status) (body : State → Plan) (s : State)
    (hb : ∀ s, Kept C M s → PlanKept C M (body s)) (h : Kept C M s) : Kept C M (runCommand op r role judge body s) := by
  unfold runCommand
  dsimp only
  split
  · refine answer_kept _ _ _ _ _ ?_
    split
    · exact auditRefusal_kept _ _ _ _ _ (endRun_kept _ _ h)
    · exact countHostDeny_kept _ _ _ h
  · split
    · have h1 := endRun_kept s role h
      have h2 := actRecorded_kept op r role (body (endRun s role)) _ (hb _ h1) h1
      split
      · exact setCur_kept _ _ h2
      · exact answer_kept _ _ _ _ _ h2
    · have h2 := (hb _ h).act _ h
      split
      · exact setCur_kept _ _ h2
      · exact answer_kept _ _ _ _ _ (countHostDeny_kept _ _ _ h2)

theorem dispatch_kept (op : Nat) (r : Req) (judge : State → Nat → Option Status) (body : State → Plan) (s : State)
    (hb : ∀ s, Kept C M s → PlanKept C M (body s)) (h : Kept C M s) : Kept C M (dispatch op r judge body s) := by
  unfold dispatch
  dsimp only
  split
  · exact begin__kept s h
  · split
    · exact begin__kept s h
    · rename_i t ht
      have h1 := takeRequest_kept _ _ _ (begin__kept s h) _ ht
      split
      · exact answer_kept _ _ _ _ _ (setCur_kept _ _ h1)
      · split
        · exact answer_kept _ _ _ _ _ h1
        · rename_i c _
          have h2 := checkSession_kept t op r c h1
          split
          · rename_i e
            exact answer_kept _ _ _ _ _ (kept_of_eq_2 e h2)
          · rename_i e
            exact runCommand_kept _ _ _ _ _ _ hb (kept_of_eq_2 e h2)

theorem setMap_kept (s : State) (m : List Cfg) (h : Kept C M s) (hm : M.map = none) : Kept C M (setMap s m) := by
  unfold setMap
  (try dsimp only)
  repeat' first
    | (with_reducible assumption) | (with_reducible refine kept_fold ?_ _ _ ?_)
    | (with_reducible refine kept_fold_2 ?_ _ _ ?_) | (with_reducible refine kept_fold_1 ?_ _ _ ?_) | intro _
    | (simp only [kept_lit]) | (with_reducible apply kept_parts) | (with_reducible refine parts_map ?_ hm _)
    | (with_reducible refine kept_ite ?_ ?_) | (dsimp only [id_eq]) | split

theorem storeRecord_kept (s : State) (c : Cfg) (h : Kept C M s) (hm : M.map = none) : Kept C M (storeRecord s c) := by
  unfold storeRecord
  (try dsimp only)
  repeat' first
    | (with_reducible assumption) | (with_reducible apply setMap_kept) | (with_reducible refine kept_fold ?_ _ _ ?_)
    | (with_reducible refine kept_fold_2 ?_ _ _ ?_) | (with_reducible refine kept_fold_1 ?_ _ _ ?_) | intro _
    | (simp only [kept_lit]) | (with_reducible apply kept_parts) | (with_reducible refine parts_map ?_ hm _)
    | (with_reducible refine kept_ite ?_ ?_) | (dsimp only [id_eq]) | split

theorem commitChange_kept (s : State) (h : Kept C M s) : Kept C M (commitChange s) := by
  unfold commitChange
  (try dsimp only)
  repeat' first
    | (with_reducible assumption) | (with_reducible refine kept_fold ?_ _ _ ?_)
    | (with_reducible refine kept_fold_2 ?_ _ _ ?_) | (with_reducible refine kept_fold_1 ?_ _ _ ?_) | intro _
    | (simp only [kept_lit]) | (with_reducible apply kept_parts) | (with_reducible refine kept_ite ?_ ?_)
    | (dsimp only [id_eq]) | split

theorem cfgPlan_planKept (check : Option Status) (c : Cfg) (apply : State → State) (s : State)
    (ha : ∀ s, Kept C M s → Kept C M (apply s)) (hm : M.map = none) : PlanKept C M (cfgPlan check c apply s) := by
  unfold cfgPlan
  split
  · exact plan_fail _
  · split
    · exact plan_fail _
    · split
      · exact plan_fail _
      · exact plan_do fun s h => ha _ (commitChange_kept _ (storeRecord_kept _ _ h hm))

theorem schedule_kept (s : State) (writes : List (ℕ × ℕ × Word)) (k : ApplyKind) (h : Kept C M s) : Kept C M (schedule s writes k) := by
  unfold schedule
  (try dsimp only)
  repeat' first
    | (with_reducible assumption) | (with_reducible refine kept_fold ?_ _ _ ?_)
    | (with_reducible refine kept_fold_2 ?_ _ _ ?_) | (with_reducible refine kept_fold_1 ?_ _ _ ?_) | intro _
    | (simp only [kept_lit]) | (with_reducible apply kept_parts) | (with_reducible refine kept_ite ?_ ?_)
    | (dsimp only [id_eq]) | split

theorem wrCfg_kept (s : State) (a : ℕ) (i : ℕ) (v : Word) (h : Kept C M s) : Kept C M (wrCfg s a i v) := by
  unfold wrCfg
  (try dsimp only)
  repeat' first
    | (with_reducible assumption) | (with_reducible apply wri_kept) | (with_reducible refine kept_fold ?_ _ _ ?_)
    | (with_reducible refine kept_fold_2 ?_ _ _ ?_) | (with_reducible refine kept_fold_1 ?_ _ _ ?_) | intro _
    | (simp only [kept_lit]) | (with_reducible apply kept_parts) | (with_reducible refine kept_ite ?_ ?_)
    | (dsimp only [id_eq]) | split

end Sys2Proof.Machine
end

