-- ==== Sys2Proof/Laws/KeepTableOps.lean ====
section
/-! SUPPORT. What the operations of `TableOps` leave alone. -/

namespace Sys2Proof.Machine

set_option linter.unusedTactic false
set_option linter.unreachableTactic false
set_option linter.unusedSimpArgs false

variable {C : Prop} {M : Mark}

theorem hSet_kept (s : State) (p : ℕ) (pos : ℕ) (e : BitVec 128) (h : Kept C M s) : Kept C M (hSet s p pos e) := by
  unfold hSet
  (try dsimp only)
  repeat' first
    | (with_reducible assumption) | (with_reducible refine kept_fold ?_ _ _ ?_)
    | (with_reducible refine kept_fold_2 ?_ _ _ ?_) | (with_reducible refine kept_fold_1 ?_ _ _ ?_) | intro _
    | (simp only [kept_lit]) | (with_reducible apply kept_parts) | (with_reducible refine kept_ite ?_ ?_)
    | (dsimp only [id_eq]) | split

theorem keyFound_kept (s : State) (p : ℕ) (key : BitVec 64) (h : Kept C M s) : Kept C M (keyFound s p key) := by
  unfold keyFound
  (try dsimp only)
  repeat' first
    | (with_reducible assumption) | (with_reducible refine kept_fold ?_ _ _ ?_)
    | (with_reducible refine kept_fold_2 ?_ _ _ ?_) | (with_reducible refine kept_fold_1 ?_ _ _ ?_) | intro _
    | (simp only [kept_lit]) | (with_reducible apply kept_parts) | (with_reducible refine kept_ite ?_ ?_)
    | (dsimp only [id_eq]) | split

theorem learn_kept (s : State) (p : ℕ) (ing : ℕ) (key : BitVec 64) (h : Kept C M s) : Kept C M (learn s p ing key) := by
  unfold learn
  (try dsimp only)
  repeat' first
    | (with_reducible assumption) | (with_reducible apply statInc_kept) | (with_reducible apply draw_kept)
    | (with_reducible apply hSet_kept) | (with_reducible apply keyFound_kept) | (with_reducible refine kept_fold ?_ _ _ ?_)
    | (with_reducible refine kept_fold_2 ?_ _ _ ?_) | (with_reducible refine kept_fold_1 ?_ _ _ ?_) | intro _
    | (simp only [kept_lit]) | (with_reducible apply kept_parts)
    | (with_reducible refine kept_of_eq_2 ‹draw _ = _› (draw_kept _ ?_)) | (with_reducible refine kept_ite ?_ ?_)
    | (dsimp only [id_eq]) | split

theorem setPass_kept (s : State) (p : ℕ) (x : Pass) (h : Kept C M s) : Kept C M (setPass s p x) := by
  unfold setPass
  (try dsimp only)
  repeat' first
    | (with_reducible assumption) | (with_reducible refine kept_fold ?_ _ _ ?_)
    | (with_reducible refine kept_fold_2 ?_ _ _ ?_) | (with_reducible refine kept_fold_1 ?_ _ _ ?_) | intro _
    | (simp only [kept_lit]) | (with_reducible apply kept_parts) | (with_reducible refine kept_ite ?_ ?_)
    | (dsimp only [id_eq]) | split

theorem ageVisit_kept (s : State) (p : ℕ) (pos : ℕ) (h : Kept C M s) : Kept C M (ageVisit s p pos) := by
  unfold ageVisit
  (try dsimp only)
  repeat' first
    | (with_reducible assumption) | (with_reducible apply statInc_kept) | (with_reducible apply hSet_kept)
    | (with_reducible refine kept_fold ?_ _ _ ?_) | (with_reducible refine kept_fold_2 ?_ _ _ ?_)
    | (with_reducible refine kept_fold_1 ?_ _ _ ?_) | intro _ | (simp only [kept_lit]) | (with_reducible apply kept_parts)
    | (with_reducible refine kept_ite ?_ ?_) | (dsimp only [id_eq]) | split

theorem passBegin_kept (s : State) (p : ℕ) (h : Kept C M s) : Kept C M (passBegin s p) := by
  unfold passBegin
  (try dsimp only)
  repeat' first
    | (with_reducible assumption) | (with_reducible apply setPass_kept) | (with_reducible refine kept_fold ?_ _ _ ?_)
    | (with_reducible refine kept_fold_2 ?_ _ _ ?_) | (with_reducible refine kept_fold_1 ?_ _ _ ?_) | intro _
    | (simp only [kept_lit]) | (with_reducible apply kept_parts) | (with_reducible refine kept_ite ?_ ?_)
    | (dsimp only [id_eq]) | split

theorem ageStep_kept (s : State) (p : ℕ) (h : Kept C M s) : Kept C M (ageStep s p) := by
  unfold ageStep
  (try dsimp only)
  repeat' first
    | (with_reducible assumption) | (with_reducible apply setPass_kept) | (with_reducible apply ageVisit_kept)
    | (with_reducible apply passBegin_kept) | (with_reducible refine kept_fold ?_ _ _ ?_)
    | (with_reducible refine kept_fold_2 ?_ _ _ ?_) | (with_reducible refine kept_fold_1 ?_ _ _ ?_) | intro _
    | (simp only [kept_lit]) | (with_reducible apply kept_parts) | (with_reducible refine kept_ite ?_ ?_)
    | (dsimp only [id_eq]) | split

theorem agePeriod_kept (s : State) (p : ℕ) (h : Kept C M s) : Kept C M (agePeriod s p) := by
  unfold agePeriod
  (try dsimp only)
  repeat' first
    | (with_reducible assumption) | (with_reducible apply setPass_kept) | (with_reducible apply passBegin_kept)
    | (with_reducible refine kept_fold ?_ _ _ ?_) | (with_reducible refine kept_fold_2 ?_ _ _ ?_)
    | (with_reducible refine kept_fold_1 ?_ _ _ ?_) | intro _ | (simp only [kept_lit]) | (with_reducible apply kept_parts)
    | (with_reducible refine kept_ite ?_ ?_) | (dsimp only [id_eq]) | split

theorem passRestart_kept (s : State) (p : ℕ) (h : Kept C M s) : Kept C M (passRestart s p) := by
  unfold passRestart
  (try dsimp only)
  repeat' first
    | (with_reducible assumption) | (with_reducible apply setPass_kept) | (with_reducible refine kept_fold ?_ _ _ ?_)
    | (with_reducible refine kept_fold_2 ?_ _ _ ?_) | (with_reducible refine kept_fold_1 ?_ _ _ ?_) | intro _
    | (simp only [kept_lit]) | (with_reducible apply kept_parts) | (with_reducible refine kept_ite ?_ ?_)
    | (dsimp only [id_eq]) | split

end Sys2Proof.Machine
end

