-- ==== Sys2Proof/Laws/KeepNetOps.lean ====
section
/-! SUPPORT. What the operations of `NetOps` leave alone. -/

namespace Sys2Proof.Machine

set_option linter.unusedTactic false
set_option linter.unreachableTactic false
set_option linter.unusedSimpArgs false

variable {C : Prop} {M : Mark}

theorem setFrame_kept (s : State) (h0 : ℕ) (f : Option Frame) (h : Kept C M s) : Kept C M (setFrame s h0 f) := by
  unfold setFrame
  (try dsimp only)
  repeat' first
    | (with_reducible assumption) | (with_reducible refine kept_fold ?_ _ _ ?_)
    | (with_reducible refine kept_fold_2 ?_ _ _ ?_) | (with_reducible refine kept_fold_1 ?_ _ _ ?_) | intro _
    | (simp only [kept_lit]) | (with_reducible apply kept_parts) | (with_reducible refine kept_ite ?_ ?_)
    | (dsimp only [id_eq]) | split

theorem setQueue_kept (s : State) (e : ℕ) (q : ℕ) (l : List QEnt) (h : Kept C M s) : Kept C M (setQueue s e q l) := by
  unfold setQueue
  (try dsimp only)
  repeat' first
    | (with_reducible assumption) | (with_reducible refine kept_fold ?_ _ _ ?_)
    | (with_reducible refine kept_fold_2 ?_ _ _ ?_) | (with_reducible refine kept_fold_1 ?_ _ _ ?_) | intro _
    | (simp only [kept_lit]) | (with_reducible apply kept_parts) | (with_reducible refine kept_ite ?_ ?_)
    | (dsimp only [id_eq]) | split

theorem setEgr_kept (s : State) (e : ℕ) (x : Egr) (h : Kept C M s) : Kept C M (setEgr s e x) := by
  unfold setEgr
  (try dsimp only)
  repeat' first
    | (with_reducible assumption) | (with_reducible refine kept_fold ?_ _ _ ?_)
    | (with_reducible refine kept_fold_2 ?_ _ _ ?_) | (with_reducible refine kept_fold_1 ?_ _ _ ?_) | intro _
    | (simp only [kept_lit]) | (with_reducible apply kept_parts) | (with_reducible refine kept_ite ?_ ?_)
    | (dsimp only [id_eq]) | split

theorem setLane_kept (s : State) (n : ℕ) (x : Lane) (h : Kept C M s) : Kept C M (setLane s n x) := by
  unfold setLane
  (try dsimp only)
  repeat' first
    | (with_reducible assumption) | (with_reducible refine kept_fold ?_ _ _ ?_)
    | (with_reducible refine kept_fold_2 ?_ _ _ ?_) | (with_reducible refine kept_fold_1 ?_ _ _ ?_) | intro _
    | (simp only [kept_lit]) | (with_reducible apply kept_parts) | (with_reducible refine kept_ite ?_ ?_)
    | (dsimp only [id_eq]) | split

theorem setPort_kept (s : State) (p : ℕ) (x : Port) (h : Kept C M s) : Kept C M (setPort s p x) := by
  unfold setPort
  (try dsimp only)
  repeat' first
    | (with_reducible assumption) | (with_reducible refine kept_fold ?_ _ _ ?_)
    | (with_reducible refine kept_fold_2 ?_ _ _ ?_) | (with_reducible refine kept_fold_1 ?_ _ _ ?_) | intro _
    | (simp only [kept_lit]) | (with_reducible apply kept_parts) | (with_reducible refine kept_ite ?_ ?_)
    | (dsimp only [id_eq]) | split

theorem sendPause_kept (s : State) (p : ℕ) (b : ℕ) (quanta : ℕ) (h : Kept C M s) : Kept C M (sendPause s p b quanta) := by
  unfold sendPause
  (try dsimp only)
  repeat' first
    | (with_reducible assumption) | (with_reducible apply stat2AddI_kept) | (with_reducible apply statIncI_kept)
    | (with_reducible refine kept_fold ?_ _ _ ?_) | (with_reducible refine kept_fold_2 ?_ _ _ ?_)
    | (with_reducible refine kept_fold_1 ?_ _ _ ?_) | intro _ | (simp only [kept_lit]) | (with_reducible apply kept_parts)
    | (with_reducible refine kept_ite ?_ ?_) | (dsimp only [id_eq]) | split

theorem fcScope_kept (s : State) (p : ℕ) (b : ℕ) (h : Kept C M s) : Kept C M (fcScope s p b) := by
  unfold fcScope
  (try dsimp only)
  repeat' first
    | (with_reducible assumption) | (with_reducible apply sendPause_kept) | (with_reducible apply orReg_kept)
    | (with_reducible apply clrReg_kept) | (with_reducible refine kept_fold ?_ _ _ ?_)
    | (with_reducible refine kept_fold_2 ?_ _ _ ?_) | (with_reducible refine kept_fold_1 ?_ _ _ ?_) | intro _
    | (simp only [kept_lit]) | (with_reducible apply kept_parts) | (with_reducible refine kept_ite ?_ ?_)
    | (dsimp only [id_eq]) | split

theorem fcCheck_kept (s : State) (ing : ℕ) (h : Kept C M s) : Kept C M (fcCheck s ing) := by
  unfold fcCheck
  (try dsimp only)
  repeat' first
    | (with_reducible assumption) | (with_reducible apply fcScope_kept) | (with_reducible refine kept_fold ?_ _ _ ?_)
    | (with_reducible refine kept_fold_2 ?_ _ _ ?_) | (with_reducible refine kept_fold_1 ?_ _ _ ?_) | intro _
    | (simp only [kept_lit]) | (with_reducible apply kept_parts) | (with_reducible refine kept_ite ?_ ?_)
    | (dsimp only [id_eq]) | split

theorem releaseRef_kept (s : State) (h0 : ℕ) (h : Kept C M s) : Kept C M (releaseRef s h0) := by
  unfold releaseRef
  (try dsimp only)
  repeat' first
    | (with_reducible assumption) | (with_reducible apply setFrame_kept) | (with_reducible apply fcCheck_kept)
    | (with_reducible refine kept_fold ?_ _ _ ?_) | (with_reducible refine kept_fold_2 ?_ _ _ ?_)
    | (with_reducible refine kept_fold_1 ?_ _ _ ?_) | intro _ | (simp only [kept_lit]) | (with_reducible apply kept_parts)
    | (with_reducible refine kept_ite ?_ ?_) | (dsimp only [id_eq]) | split

theorem setCtx_kept (s : State) (str : ℕ) (e : ℕ) (c : Option Rsq) (h : Kept C M s) : Kept C M (setCtx s str e c) := by
  unfold setCtx
  (try dsimp only)
  repeat' first
    | (with_reducible assumption) | (with_reducible refine kept_fold ?_ _ _ ?_)
    | (with_reducible refine kept_fold_2 ?_ _ _ ?_) | (with_reducible refine kept_fold_1 ?_ _ _ ?_) | intro _
    | (simp only [kept_lit]) | (with_reducible apply kept_parts) | (with_reducible refine kept_ite ?_ ?_)
    | (dsimp only [id_eq]) | split

theorem rsqSend_kept (s : State) (e : ℕ) (l : List ℕ) (h : Kept C M s) : Kept C M (rsqSend s e l) := by
  unfold rsqSend
  (try dsimp only)
  repeat' first
    | (with_reducible assumption) | (with_reducible apply setFrame_kept) | (with_reducible apply setQueue_kept)
    | (with_reducible refine kept_fold ?_ _ _ ?_) | (with_reducible refine kept_fold_2 ?_ _ _ ?_)
    | (with_reducible refine kept_fold_1 ?_ _ _ ?_) | intro _ | (simp only [kept_lit]) | (with_reducible apply kept_parts)
    | (with_reducible refine kept_ite ?_ ?_) | (dsimp only [id_eq]) | split

theorem rsqStore_kept (s : State) (str : ℕ) (e : ℕ) (r : RsqRes) (h : Kept C M s) : Kept C M (rsqStore s str e r) := by
  unfold rsqStore
  (try dsimp only)
  repeat' first
    | (with_reducible assumption) | (with_reducible apply rsqSend_kept) | (with_reducible apply statAddI_kept)
    | (with_reducible apply setCtx_kept) | (with_reducible refine kept_fold ?_ _ _ ?_)
    | (with_reducible refine kept_fold_2 ?_ _ _ ?_) | (with_reducible refine kept_fold_1 ?_ _ _ ?_) | intro _
    | (simp only [kept_lit]) | (with_reducible apply kept_parts) | (with_reducible refine kept_ite ?_ ?_)
    | (dsimp only [id_eq]) | split

theorem rsqArrive_kept (s : State) (str : ℕ) (e : ℕ) (h0 : ℕ) (x : ℕ) (c : Rsq) (h : Kept C M s) : Kept C M (rsqArrive s str e h0 x c) := by
  unfold rsqArrive
  (try dsimp only)
  repeat' first
    | (with_reducible assumption) | (with_reducible apply setFrame_kept) | (with_reducible apply rsqStore_kept)
    | (with_reducible apply releaseRef_kept) | (with_reducible apply statIncI_kept)
    | (with_reducible refine kept_fold ?_ _ _ ?_) | (with_reducible refine kept_fold_2 ?_ _ _ ?_)
    | (with_reducible refine kept_fold_1 ?_ _ _ ?_) | intro _ | (simp only [kept_lit]) | (with_reducible apply kept_parts)
    | (with_reducible refine kept_ite ?_ ?_) | (dsimp only [id_eq]) | split

theorem rsqTimeout_kept (s : State) (str : ℕ) (e : ℕ) (h : Kept C M s) : Kept C M (rsqTimeout s str e) := by
  unfold rsqTimeout
  (try dsimp only)
  repeat' first
    | (with_reducible assumption) | (with_reducible apply rsqStore_kept) | (with_reducible refine kept_fold ?_ _ _ ?_)
    | (with_reducible refine kept_fold_2 ?_ _ _ ?_) | (with_reducible refine kept_fold_1 ?_ _ _ ?_) | intro _
    | (simp only [kept_lit]) | (with_reducible apply kept_parts) | (with_reducible refine kept_ite ?_ ?_)
    | (dsimp only [id_eq]) | split

theorem rsqTimeouts_kept (str e : Nat) : ∀ (n : Nat) (s : State), Kept C M s → Kept C M (rsqTimeouts str e n s)
  | 0, _, h => h
  | n + 1, s, h => by
    unfold rsqTimeouts
    split
    · split
      · exact rsqTimeouts_kept str e n _ (rsqTimeout_kept s str e h)
      · exact h
    · exact h

theorem rsqDequeue_kept (s : State) (str : ℕ) (e : ℕ) (h0 : ℕ) (x : ℕ) (h : Kept C M s) : Kept C M (rsqDequeue s str e h0 x) := by
  unfold rsqDequeue
  (try dsimp only)
  repeat' first
    | (with_reducible assumption) | (with_reducible apply rsqTimeouts_kept) | (with_reducible apply rsqArrive_kept)
    | (with_reducible apply rsqSend_kept) | (with_reducible apply statInc_kept) | (with_reducible apply setCtx_kept)
    | (with_reducible refine kept_fold ?_ _ _ ?_) | (with_reducible refine kept_fold_2 ?_ _ _ ?_)
    | (with_reducible refine kept_fold_1 ?_ _ _ ?_) | intro _ | (simp only [kept_lit]) | (with_reducible apply kept_parts)
    | (with_reducible refine kept_ite ?_ ?_) | (dsimp only [id_eq]) | split

theorem rsqAdvise_kept (s : State) (e : ℕ) (f : Frame) (h : Kept C M s) : Kept C M (rsqAdvise s e f) := by
  unfold rsqAdvise
  (try dsimp only)
  repeat' first
    | (with_reducible assumption) | (with_reducible apply rsqStore_kept) | (with_reducible apply setCtx_kept)
    | (with_reducible refine kept_fold ?_ _ _ ?_) | (with_reducible refine kept_fold_2 ?_ _ _ ?_)
    | (with_reducible refine kept_fold_1 ?_ _ _ ?_) | intro _ | (simp only [kept_lit]) | (with_reducible apply kept_parts)
    | (with_reducible refine kept_ite ?_ ?_) | (dsimp only [id_eq]) | split

theorem dropAt_kept (s : State) (e : ℕ) (h0 : ℕ) (h : Kept C M s) : Kept C M (dropAt s e h0) := by
  unfold dropAt
  (try dsimp only)
  repeat' first
    | (with_reducible assumption) | (with_reducible apply releaseRef_kept) | (with_reducible apply rsqAdvise_kept)
    | (with_reducible refine kept_fold ?_ _ _ ?_) | (with_reducible refine kept_fold_2 ?_ _ _ ?_)
    | (with_reducible refine kept_fold_1 ?_ _ _ ?_) | intro _ | (simp only [kept_lit]) | (with_reducible apply kept_parts)
    | (with_reducible refine kept_ite ?_ ?_) | (dsimp only [id_eq]) | split

theorem countTail_kept (s : State) (e : ℕ) (q : ℕ) (h : Kept C M s) : Kept C M (countTail s e q) := by
  unfold countTail
  (try dsimp only)
  repeat' first
    | (with_reducible assumption) | (with_reducible apply statIncI_kept) | (with_reducible refine kept_fold ?_ _ _ ?_)
    | (with_reducible refine kept_fold_2 ?_ _ _ ?_) | (with_reducible refine kept_fold_1 ?_ _ _ ?_) | intro _
    | (simp only [kept_lit]) | (with_reducible apply kept_parts) | (with_reducible refine kept_ite ?_ ?_)
    | (dsimp only [id_eq]) | split

theorem flushQueue_kept (cnt : State → ℕ → State) (e : ℕ) (s : State) (q : ℕ) (hf : ∀ s n, Kept C M s → Kept C M (cnt s n)) (h : Kept C M s) : Kept C M (flushQueue cnt e s q) := by
  unfold flushQueue
  (try dsimp only)
  repeat' first
    | (with_reducible assumption) | (with_reducible apply hf) | (with_reducible apply dropAt_kept)
    | (with_reducible apply setQueue_kept) | (with_reducible refine kept_fold ?_ _ _ ?_)
    | (with_reducible refine kept_fold_2 ?_ _ _ ?_) | (with_reducible refine kept_fold_1 ?_ _ _ ?_) | intro _
    | (simp only [kept_lit]) | (with_reducible apply kept_parts) | (with_reducible refine kept_ite ?_ ?_)
    | (dsimp only [id_eq]) | split

theorem flushAll_kept (cnt : State → ℕ → State) (s : State) (e : ℕ) (hf : ∀ s n, Kept C M s → Kept C M (cnt s n)) (h : Kept C M s) : Kept C M (flushAll cnt s e) := by
  unfold flushAll
  (try dsimp only)
  repeat' first
    | (with_reducible assumption) | (with_reducible apply hf) | (with_reducible apply flushQueue_kept)
    | (with_reducible refine kept_fold ?_ _ _ ?_) | (with_reducible refine kept_fold_2 ?_ _ _ ?_)
    | (with_reducible refine kept_fold_1 ?_ _ _ ?_) | intro _ | (simp only [kept_lit]) | (with_reducible apply kept_parts)
    | (with_reducible refine kept_ite ?_ ?_) | (dsimp only [id_eq]) | split

theorem abandonTx_kept (cnt : State → ℕ → State) (s : State) (e : ℕ) (hf : ∀ s n, Kept C M s → Kept C M (cnt s n)) (h : Kept C M s) : Kept C M (abandonTx cnt s e) := by
  unfold abandonTx
  (try dsimp only)
  repeat' first
    | (with_reducible assumption) | (with_reducible apply hf) | (with_reducible apply dropAt_kept)
    | (with_reducible apply setEgr_kept) | (with_reducible refine kept_fold ?_ _ _ ?_)
    | (with_reducible refine kept_fold_2 ?_ _ _ ?_) | (with_reducible refine kept_fold_1 ?_ _ _ ?_) | intro _
    | (simp only [kept_lit]) | (with_reducible apply kept_parts) | (with_reducible refine kept_ite ?_ ?_)
    | (dsimp only [id_eq]) | split

theorem flushLane_kept (s : State) (n : ℕ) (h : Kept C M s) : Kept C M (flushLane s n) := by
  unfold flushLane
  (try dsimp only)
  repeat' first
    | (with_reducible assumption) | (with_reducible apply flushAll_kept) | (with_reducible apply countTail_kept)
    | (with_reducible apply abandonTx_kept) | (with_reducible apply setLane_kept)
    | (with_reducible refine kept_fold ?_ _ _ ?_) | (with_reducible refine kept_fold_2 ?_ _ _ ?_)
    | (with_reducible refine kept_fold_1 ?_ _ _ ?_) | intro _ | (simp only [kept_lit]) | (with_reducible apply kept_parts)
    | (with_reducible refine kept_ite ?_ ?_) | (dsimp only [id_eq]) | split

theorem dropHeld_kept (s : State) (e : ℕ) (h : Kept C M s) : Kept C M (dropHeld s e) := by
  unfold dropHeld
  (try dsimp only)
  repeat' first
    | (with_reducible assumption) | (with_reducible apply setCtx_kept) | (with_reducible apply releaseRef_kept)
    | (with_reducible apply statIncI_kept) | (with_reducible refine kept_fold ?_ _ _ ?_)
    | (with_reducible refine kept_fold_2 ?_ _ _ ?_) | (with_reducible refine kept_fold_1 ?_ _ _ ?_) | intro _
    | (simp only [kept_lit]) | (with_reducible apply kept_parts) | (with_reducible refine kept_ite ?_ ?_)
    | (dsimp only [id_eq]) | split

theorem flushPort_kept (s : State) (p : ℕ) (h : Kept C M s) : Kept C M (flushPort s p) := by
  unfold flushPort
  (try dsimp only)
  repeat' first
    | (with_reducible assumption) | (with_reducible apply flushAll_kept) | (with_reducible apply statIncI_kept)
    | (with_reducible apply dropHeld_kept) | (with_reducible refine kept_fold ?_ _ _ ?_)
    | (with_reducible refine kept_fold_2 ?_ _ _ ?_) | (with_reducible refine kept_fold_1 ?_ _ _ ?_) | intro _
    | (simp only [kept_lit]) | (with_reducible apply kept_parts) | (with_reducible refine kept_ite ?_ ?_)
    | (dsimp only [id_eq]) | split

theorem avgUpdate_kept (s : State) (e : ℕ) (q : ℕ) (h : Kept C M s) : Kept C M (avgUpdate s e q) := by
  unfold avgUpdate
  (try dsimp only)
  repeat' first
    | (with_reducible assumption) | (with_reducible apply wri_kept) | (with_reducible refine kept_fold ?_ _ _ ?_)
    | (with_reducible refine kept_fold_2 ?_ _ _ ?_) | (with_reducible refine kept_fold_1 ?_ _ _ ?_) | intro _
    | (simp only [kept_lit]) | (with_reducible apply kept_parts) | (with_reducible refine kept_ite ?_ ?_)
    | (dsimp only [id_eq]) | split

theorem judgeWred_kept (s : State) (e : ℕ) (q : ℕ) (col : Colour) (ect : Bool) (h : Kept C M s) : Kept C M (judgeWred s e q col ect).2.2 := by
  unfold judgeWred
  (try dsimp only)
  repeat' first
    | (with_reducible assumption) | (with_reducible apply draw_kept) | (with_reducible refine kept_fold ?_ _ _ ?_)
    | (with_reducible refine kept_fold_2 ?_ _ _ ?_) | (with_reducible refine kept_fold_1 ?_ _ _ ?_) | intro _
    | (simp only [kept_lit]) | (with_reducible apply kept_parts)
    | (with_reducible refine kept_of_eq_2 ‹draw _ = _› (draw_kept _ ?_)) | (with_reducible refine kept_ite ?_ ?_)
    | (dsimp only [id_eq]) | split

theorem enqueue_kept (s : State) (e : ℕ) (q : ℕ) (h0 : ℕ) (launch : Option LaunchAt) (done : Bool) (h : Kept C M s) : Kept C M (enqueue s e q h0 launch done) := by
  unfold enqueue
  (try dsimp only)
  repeat' first
    | (with_reducible assumption) | (with_reducible apply stat2AddI_kept) | (with_reducible apply setQueue_kept)
    | (with_reducible refine kept_fold ?_ _ _ ?_) | (with_reducible refine kept_fold_2 ?_ _ _ ?_)
    | (with_reducible refine kept_fold_1 ?_ _ _ ?_) | intro _ | (simp only [kept_lit]) | (with_reducible apply kept_parts)
    | (with_reducible refine kept_ite ?_ ?_) | (dsimp only [id_eq]) | split

theorem removeEnt_kept (s : State) (e : ℕ) (q : ℕ) (h0 : ℕ) (h : Kept C M s) : Kept C M (removeEnt s e q h0) := by
  unfold removeEnt
  (try dsimp only)
  repeat' first
    | (with_reducible assumption) | (with_reducible apply setQueue_kept) | (with_reducible refine kept_fold ?_ _ _ ?_)
    | (with_reducible refine kept_fold_2 ?_ _ _ ?_) | (with_reducible refine kept_fold_1 ?_ _ _ ?_) | intro _
    | (simp only [kept_lit]) | (with_reducible apply kept_parts) | (with_reducible refine kept_ite ?_ ?_)
    | (dsimp only [id_eq]) | split

theorem makeRoom_kept (s : State) (e c : Nat) (l : List (Nat × Nat)) (h : Kept C M s) :
    ∀ t, makeRoom s e c l = some t → Kept C M t := by
  induction l generalizing s with
  | nil => intro t ht; cases ht
  | cons x l ih =>
    obtain ⟨q, k⟩ := x
    intro t ht
    have h' := dropAt_kept _ e k (countTail_kept _ e q (removeEnt_kept s e q k h))
    simp only [makeRoom] at ht
    split at ht
    · cases ht; exact h'
    · exact ih _ h' t ht

theorem admitAt_kept (s : State) (e : ℕ) (prio : ℕ) (c : ℕ) (col : Colour) (ect : Bool) (h : Kept C M s) : Kept C M (admitAt s e prio c col ect).2.2 := by
  unfold admitAt
  (try dsimp only)
  repeat' first
    | (with_reducible assumption) | (with_reducible apply countTail_kept) | (with_reducible apply avgUpdate_kept)
    | (with_reducible apply statIncI_kept) | (with_reducible apply judgeWred_kept)
    | (with_reducible refine kept_fold ?_ _ _ ?_) | (with_reducible refine kept_fold_2 ?_ _ _ ?_)
    | (with_reducible refine kept_fold_1 ?_ _ _ ?_) | intro _ | (simp only [kept_lit]) | (with_reducible apply kept_parts)
    | (with_reducible refine makeRoom_kept _ _ _ _ ?_ _ ‹makeRoom _ _ _ _ = some _›)
    | (with_reducible refine kept_of_eq_2_2 ‹judgeWred _ _ _ _ _ = _› (judgeWred_kept _ _ _ _ _ ?_))
    | (with_reducible refine kept_ite ?_ ?_) | (dsimp only [id_eq]) | split

theorem dropSpilled_kept (s : State) (g : ℕ → Bool) (h : Kept C M s) : Kept C M (dropSpilled s g) := by
  unfold dropSpilled
  (try dsimp only)
  repeat' first
    | (with_reducible assumption) | (with_reducible apply dropAt_kept) | (with_reducible apply statInc_kept)
    | (with_reducible apply removeEnt_kept) | (with_reducible refine kept_fold ?_ _ _ ?_)
    | (with_reducible refine kept_fold_2 ?_ _ _ ?_) | (with_reducible refine kept_fold_1 ?_ _ _ ?_) | intro _
    | (simp only [kept_lit]) | (with_reducible apply kept_parts) | (with_reducible refine kept_ite ?_ ?_)
    | (dsimp only [id_eq]) | split

end Sys2Proof.Machine
end

