-- ==== Sys2Proof/Laws/KeepCommit.lean ====
section
/-! SUPPORT. What the operations of `Commit` leave alone. -/

namespace Sys2Proof.Machine

set_option linter.unusedTactic false
set_option linter.unreachableTactic false
set_option linter.unusedSimpArgs false

variable {C : Prop} {M : Mark}

theorem setDom_kept (s : State) (n : ℕ) (d : Dom) (h : Kept C M s) : Kept C M (setDom s n d) := by
  unfold setDom
  (try dsimp only)
  repeat' first
    | (with_reducible assumption) | (with_reducible refine kept_fold ?_ _ _ ?_)
    | (with_reducible refine kept_fold_2 ?_ _ _ ?_) | (with_reducible refine kept_fold_1 ?_ _ _ ?_) | intro _
    | (simp only [kept_lit]) | (with_reducible apply kept_parts) | (with_reducible refine kept_ite ?_ ?_)
    | (dsimp only [id_eq]) | split

theorem inject_kept (s : State) (ing : ℕ) (c : Word) (h : Kept C M s) : Kept C M (inject s ing c).2 := by
  unfold inject
  (try dsimp only)
  repeat' first
    | (with_reducible assumption) | (with_reducible apply clrReg_kept) | (with_reducible refine kept_fold ?_ _ _ ?_)
    | (with_reducible refine kept_fold_2 ?_ _ _ ?_) | (with_reducible refine kept_fold_1 ?_ _ _ ?_) | intro _
    | (simp only [kept_lit]) | (with_reducible apply kept_parts) | (with_reducible refine kept_ite ?_ ?_)
    | (dsimp only [id_eq]) | split

theorem preDrop_kept (s : State) (st : Stamp) (c : Content) (prio : ℕ) (e : ℕ) (h : Kept C M s) : ∀ t, preDrop s st c prio e = some t → Kept C M t := by
  intro t ht
  unfold preDrop at ht
  (try dsimp only)
  repeat' first
    | (with_reducible assumption) | (with_reducible apply countTail_kept) | (with_reducible apply statInc_kept)
    | (with_reducible apply statIncI_kept) | (with_reducible refine kept_fold ?_ _ _ ?_)
    | (with_reducible refine kept_fold_2 ?_ _ _ ?_) | (with_reducible refine kept_fold_1 ?_ _ _ ?_) | intro _
    | (simp only [kept_lit]) | (with_reducible apply kept_parts) | (split at ht) | (cases ht) | (dsimp only at ht)
    | (with_reducible refine kept_ite ?_ ?_) | (dsimp only [id_eq]) | split

theorem launchAtCommit_kept (s : State) (e : ℕ) (l : Option LaunchAt) (h : Kept C M s) : Kept C M (launchAtCommit s e l).2.2 := by
  unfold launchAtCommit
  (try dsimp only)
  repeat' first
    | (with_reducible assumption) | (with_reducible apply statIncI_kept) | (with_reducible refine kept_fold ?_ _ _ ?_)
    | (with_reducible refine kept_fold_2 ?_ _ _ ?_) | (with_reducible refine kept_fold_1 ?_ _ _ ?_) | intro _
    | (simp only [kept_lit]) | (with_reducible apply kept_parts) | (with_reducible refine kept_ite ?_ ?_)
    | (dsimp only [id_eq]) | split

theorem tryTarget_kept (s : State) (f : Frame) (st : Stamp) (l : Option LaunchAt) (e : ℕ) (h : Kept C M s) : Kept C M (tryTarget s f st l e).2 := by
  unfold tryTarget
  (try dsimp only)
  repeat' first
    | (with_reducible assumption) | (with_reducible apply rsqAdvise_kept) | (with_reducible apply launchAtCommit_kept)
    | (with_reducible apply admitAt_kept) | (with_reducible refine kept_fold ?_ _ _ ?_)
    | (with_reducible refine kept_fold_2 ?_ _ _ ?_) | (with_reducible refine kept_fold_1 ?_ _ _ ?_) | intro _
    | (simp only [kept_lit]) | (with_reducible apply kept_parts)
    | (with_reducible refine preDrop_kept _ _ _ _ _ ?_ _ ‹preDrop _ _ _ _ _ = some _›)
    | (with_reducible refine kept_of_eq_2_2 ‹launchAtCommit _ _ _ = _› (launchAtCommit_kept _ _ _ ?_))
    | (with_reducible refine kept_of_eq_2_2 ‹admitAt _ _ _ _ _ _ = _› (admitAt_kept _ _ _ _ _ _ ?_))
    | (with_reducible refine kept_ite ?_ ?_) | (dsimp only [id_eq]) | split

theorem storeFrame_kept (s : State) (f : Frame) (h : Kept C M s) : Kept C M (storeFrame s f).2 := by
  unfold storeFrame
  (try dsimp only)
  repeat' first
    | (with_reducible assumption) | (with_reducible apply fcCheck_kept) | (with_reducible apply setFrame_kept)
    | (with_reducible refine kept_fold ?_ _ _ ?_) | (with_reducible refine kept_fold_2 ?_ _ _ ?_)
    | (with_reducible refine kept_fold_1 ?_ _ _ ?_) | intro _ | (simp only [kept_lit]) | (with_reducible apply kept_parts)
    | (with_reducible refine kept_ite ?_ ?_) | (dsimp only [id_eq]) | split

theorem commitCopy_kept (s : State) (f : Frame) (st : Stamp) (l : Option LaunchAt) (e : ℕ) (h : Kept C M s) : Kept C M (commitCopy s f st l e).2 := by
  unfold commitCopy
  (try dsimp only)
  repeat' first
    | (with_reducible assumption) | (with_reducible apply tryTarget_kept) | (with_reducible apply storeFrame_kept)
    | (with_reducible apply enqueue_kept) | (with_reducible refine kept_fold ?_ _ _ ?_)
    | (with_reducible refine kept_fold_2 ?_ _ _ ?_) | (with_reducible refine kept_fold_1 ?_ _ _ ?_) | intro _
    | (simp only [kept_lit]) | (with_reducible apply kept_parts)
    | (with_reducible refine kept_of_eq_2 ‹tryTarget _ _ _ _ _ = _› (tryTarget_kept _ _ _ _ _ ?_))
    | (with_reducible refine kept_of_eq_2 ‹storeFrame _ _ = _› (storeFrame_kept _ _ ?_))
    | (with_reducible refine kept_ite ?_ ?_) | (dsimp only [id_eq]) | split

theorem judgeShared_kept (f : Frame) (st : Stamp) (l : Option LaunchAt) (es : List Nat) (s : State) (h : Kept C M s) :
    Kept C M (judgeShared f st l es s).2 := by
  induction es generalizing s with
  | nil => exact h
  | cons e es ih =>
    have h' := tryTarget_kept s f st l e h
    unfold judgeShared
    split
    · rename_i e'
      rw [e'] at h'
      exact ih _ h'
    · rename_i e'
      rw [e'] at h'
      exact ih _ h'

theorem commitShared_kept (s : State) (f : Frame) (st : Stamp) (l : Option LaunchAt) (es : List ℕ) (h : Kept C M s) : Kept C M (commitShared s f st l es).2 := by
  unfold commitShared
  (try dsimp only)
  repeat' first
    | (with_reducible assumption) | (with_reducible apply judgeShared_kept) | (with_reducible apply storeFrame_kept)
    | (with_reducible apply enqueue_kept) | (with_reducible refine kept_fold ?_ _ _ ?_)
    | (with_reducible refine kept_fold_2 ?_ _ _ ?_) | (with_reducible refine kept_fold_1 ?_ _ _ ?_) | intro _
    | (simp only [kept_lit]) | (with_reducible apply kept_parts)
    | (with_reducible refine kept_of_eq_2 ‹judgeShared _ _ _ _ _ = _› (judgeShared_kept _ _ _ _ _ ?_))
    | (with_reducible refine kept_of_eq_2 ‹storeFrame _ _ = _› (storeFrame_kept _ _ ?_))
    | (with_reducible refine kept_ite ?_ ?_) | (dsimp only [id_eq]) | split

theorem commitCopies_kept (f : Frame) (st : Stamp) (l : Option LaunchAt) (es : List Nat) (s : State) (h : Kept C M s) :
    Kept C M (commitCopies f st l es s).2 := by
  induction es generalizing s with
  | nil => exact h
  | cons e es ih => exact ih _ (commitCopy_kept s f st l e h)

theorem commitFrame_kept (s : State) (f : Frame) (st : Stamp) (l : Option LaunchAt) (targets : List ℕ) (h : Kept C M s) : Kept C M (commitFrame s f st l targets).2 := by
  unfold commitFrame
  (try dsimp only)
  repeat' first
    | (with_reducible assumption) | (with_reducible apply commitCopies_kept) | (with_reducible apply commitShared_kept)
    | (with_reducible refine kept_fold ?_ _ _ ?_) | (with_reducible refine kept_fold_2 ?_ _ _ ?_)
    | (with_reducible refine kept_fold_1 ?_ _ _ ?_) | intro _ | (simp only [kept_lit]) | (with_reducible apply kept_parts)
    | (with_reducible refine kept_of_eq_2 ‹commitCopies _ _ _ _ _ = _› (commitCopies_kept _ _ _ _ _ ?_))
    | (with_reducible refine kept_of_eq_2 ‹commitShared _ _ _ _ _ = _› (commitShared_kept _ _ _ _ _ ?_))
    | (with_reducible refine kept_ite ?_ ?_) | (dsimp only [id_eq]) | split

theorem sendEntryFrame_kept (s : State) (w : List Word) (h : Kept C M s) : Kept C M (sendEntryFrame s w) := by
  unfold sendEntryFrame
  (try dsimp only)
  repeat' first
    | (with_reducible assumption) | (with_reducible apply draw_kept) | (with_reducible apply commitFrame_kept)
    | (with_reducible refine kept_fold ?_ _ _ ?_) | (with_reducible refine kept_fold_2 ?_ _ _ ?_)
    | (with_reducible refine kept_fold_1 ?_ _ _ ?_) | intro _ | (simp only [kept_lit]) | (with_reducible apply kept_parts)
    | (with_reducible refine kept_of_eq_2 ‹draw _ = _› (draw_kept _ ?_))
    | (with_reducible refine kept_of_eq_2 ‹commitFrame _ _ _ _ _ = _› (commitFrame_kept _ _ _ _ _ ?_))
    | (with_reducible refine kept_ite ?_ ?_) | (dsimp only [id_eq]) | split

theorem sendEntryFrames_kept (s : State) (l : List Word) (h : Kept C M s) : Kept C M (sendEntryFrames s l) := by
  unfold sendEntryFrames
  (try dsimp only)
  repeat' first
    | (with_reducible assumption) | (with_reducible apply sendEntryFrame_kept) | (with_reducible refine kept_fold ?_ _ _ ?_)
    | (with_reducible refine kept_fold_2 ?_ _ _ ?_) | (with_reducible refine kept_fold_1 ?_ _ _ ?_) | intro _
    | (simp only [kept_lit]) | (with_reducible apply kept_parts) | (with_reducible refine kept_ite ?_ ?_)
    | (dsimp only [id_eq]) | split

end Sys2Proof.Machine
end

