-- ==== Sys2Proof/Laws/KeepWheelOps.lean ====
section
/-! SUPPORT. What the operations of `WheelOps` leave alone. -/

namespace Sys2Proof.Machine

set_option linter.unusedTactic false
set_option linter.unreachableTactic false
set_option linter.unusedSimpArgs false

variable {C : Prop} {M : Mark}

theorem setGate_kept (s : State) (b : ℕ) (g : GateSt) (h : Kept C M s) : Kept C M (setGate s b g) := by
  unfold setGate
  (try dsimp only)
  repeat' first
    | (with_reducible assumption) | (with_reducible refine kept_fold ?_ _ _ ?_)
    | (with_reducible refine kept_fold_2 ?_ _ _ ?_) | (with_reducible refine kept_fold_1 ?_ _ _ ?_) | intro _
    | (simp only [kept_lit]) | (with_reducible apply kept_parts) | (with_reducible refine kept_ite ?_ ?_)
    | (dsimp only [id_eq]) | split

theorem loseGroup_kept (s : State) (g : ℕ) (h : Kept C M s) : Kept C M (loseGroup s g) := by
  unfold loseGroup
  (try dsimp only)
  repeat' first
    | (with_reducible assumption) | (with_reducible refine kept_fold ?_ _ _ ?_)
    | (with_reducible refine kept_fold_2 ?_ _ _ ?_) | (with_reducible refine kept_fold_1 ?_ _ _ ?_) | intro _
    | (simp only [kept_lit]) | (with_reducible apply kept_parts) | (with_reducible refine kept_ite ?_ ?_)
    | (dsimp only [id_eq]) | split

theorem losePower_kept (s : State) (b : ℕ) (h : Kept C M s) : Kept C M (losePower s b) := by
  unfold losePower
  (try dsimp only)
  repeat' first
    | (with_reducible assumption) | (with_reducible apply wr_kept) | (with_reducible apply setFld_kept)
    | (with_reducible apply loseGroup_kept) | (with_reducible refine kept_fold ?_ _ _ ?_)
    | (with_reducible refine kept_fold_2 ?_ _ _ ?_) | (with_reducible refine kept_fold_1 ?_ _ _ ?_) | intro _
    | (simp only [kept_lit]) | (with_reducible apply kept_parts) | (with_reducible refine kept_ite ?_ ?_)
    | (dsimp only [id_eq]) | split

theorem stopChannel_kept (s : State) (n : ℕ) (h : Kept C M s) : Kept C M (stopChannel s n) := by
  unfold stopChannel
  (try dsimp only)
  repeat' first
    | (with_reducible assumption) | (with_reducible refine kept_fold ?_ _ _ ?_)
    | (with_reducible refine kept_fold_2 ?_ _ _ ?_) | (with_reducible refine kept_fold_1 ?_ _ _ ?_) | intro _
    | (simp only [kept_lit]) | (with_reducible apply kept_parts) | (with_reducible refine kept_ite ?_ ?_)
    | (dsimp only [id_eq]) | split

theorem gateNow_kept (s : State) (b : ℕ) (h : Kept C M s) : Kept C M (gateNow s b) := by
  unfold gateNow
  (try dsimp only)
  repeat' first
    | (with_reducible assumption) | (with_reducible apply setGate_kept) | (with_reducible apply losePower_kept)
    | (with_reducible apply stopChannel_kept) | (with_reducible refine kept_fold ?_ _ _ ?_)
    | (with_reducible refine kept_fold_2 ?_ _ _ ?_) | (with_reducible refine kept_fold_1 ?_ _ _ ?_) | intro _
    | (simp only [kept_lit]) | (with_reducible apply kept_parts) | (with_reducible refine kept_ite ?_ ?_)
    | (dsimp only [id_eq]) | split

theorem holdBlock_kept (s : State) (b : ℕ) (h : Kept C M s) : Kept C M (holdBlock s b) := by
  unfold holdBlock
  (try dsimp only)
  repeat' first
    | (with_reducible assumption) | (with_reducible apply orReg_kept) | (with_reducible apply setGate_kept)
    | (with_reducible refine kept_fold ?_ _ _ ?_) | (with_reducible refine kept_fold_2 ?_ _ _ ?_)
    | (with_reducible refine kept_fold_1 ?_ _ _ ?_) | intro _ | (simp only [kept_lit]) | (with_reducible apply kept_parts)
    | (with_reducible refine kept_ite ?_ ?_) | (dsimp only [id_eq]) | split

theorem answerGates_kept (s : State) (b : ℕ) (h : Kept C M s) : Kept C M (answerGates s b) := by
  unfold answerGates
  (try dsimp only)
  repeat' first
    | (with_reducible assumption) | (with_reducible apply answer_kept) | (with_reducible apply setCur_kept)
    | (with_reducible refine kept_fold ?_ _ _ ?_) | (with_reducible refine kept_fold_2 ?_ _ _ ?_)
    | (with_reducible refine kept_fold_1 ?_ _ _ ?_) | intro _ | (simp only [kept_lit]) | (with_reducible apply kept_parts)
    | (with_reducible refine kept_ite ?_ ?_) | (dsimp only [id_eq]) | split

theorem releaseBlock_kept (s : State) (b : ℕ) (h : Kept C M s) : Kept C M (releaseBlock s b) := by
  unfold releaseBlock
  (try dsimp only)
  repeat' first
    | (with_reducible assumption) | (with_reducible apply clrReg_kept) | (with_reducible apply raise_kept)
    | (with_reducible apply answerGates_kept) | (with_reducible apply gateNow_kept)
    | (with_reducible refine kept_fold ?_ _ _ ?_) | (with_reducible refine kept_fold_2 ?_ _ _ ?_)
    | (with_reducible refine kept_fold_1 ?_ _ _ ?_) | intro _ | (simp only [kept_lit]) | (with_reducible apply kept_parts)
    | (with_reducible refine kept_ite ?_ ?_) | (dsimp only [id_eq]) | split

theorem setTt_kept (s : State) (n : ℕ) (t0 : Tracker) (h : Kept C M s) : Kept C M (setTt s n t0) := by
  unfold setTt
  (try dsimp only)
  repeat' first
    | (with_reducible assumption) | (with_reducible refine kept_fold ?_ _ _ ?_)
    | (with_reducible refine kept_fold_2 ?_ _ _ ?_) | (with_reducible refine kept_fold_1 ?_ _ _ ?_) | intro _
    | (simp only [kept_lit]) | (with_reducible apply kept_parts) | (with_reducible refine kept_ite ?_ ?_)
    | (dsimp only [id_eq]) | split

theorem quorumCheck_kept (s : State) (h : Kept C M s) : Kept C M (quorumCheck s) := by
  unfold quorumCheck
  (try dsimp only)
  repeat' first
    | (with_reducible assumption) | (with_reducible apply raise_kept) | (with_reducible refine kept_fold ?_ _ _ ?_)
    | (with_reducible refine kept_fold_2 ?_ _ _ ?_) | (with_reducible refine kept_fold_1 ?_ _ _ ?_) | intro _
    | (simp only [kept_lit]) | (with_reducible apply kept_parts) | (with_reducible refine kept_ite ?_ ?_)
    | (dsimp only [id_eq]) | split

theorem odoGuard_kept (old : State) (new : State) (h : Kept C M old) (h_new : Kept C M new) : Kept C M (odoGuard old new) := by
  unfold odoGuard
  (try dsimp only)
  repeat' first
    | (with_reducible assumption) | (with_reducible refine kept_fold ?_ _ _ ?_)
    | (with_reducible refine kept_fold_2 ?_ _ _ ?_) | (with_reducible refine kept_fold_1 ?_ _ _ ?_) | intro _
    | (simp only [kept_lit]) | (with_reducible apply kept_parts) | (with_reducible refine kept_ite ?_ ?_)
    | (dsimp only [id_eq]) | split

theorem addDistance_kept (s : State) (n : Nat) (h : Kept C M s) : Kept C M (addDistance s n) := by
  have h' : Kept C M { s with wheels := { s.wheels with
      acc := (s.wheels.acc + ttCirc s n) % ttNR s n
      odo := min (s.wheels.odo + (s.wheels.acc + ttCirc s n) / ttNR s n) (2 ^ 48 - 1)
      tripMm := if s.ledger.trip.isSome then
          min (s.wheels.tripMm + (s.wheels.acc + ttCirc s n) / ttNR s n) (2 ^ 48 - 1) else s.wheels.tripMm } } :=
    kept_any h id id rfl (.inr rfl) (.inr rfl) id (.inr (Nat.le_refl _)) (.inr rfl) (.inr rfl)
      (fun e => ⟨Nat.min_le_right _ _, .inr (Nat.le_min.mpr ⟨Nat.le_add_right _ _, e⟩)⟩)
  unfold addDistance
  dsimp only
  split
  · exact raise_kept _ _ h'
  · exact h'

theorem distSample_kept (s : State) (lost : Bool) (h : Kept C M s) : Kept C M (distSample s lost) := by
  unfold distSample
  (try dsimp only)
  repeat' first
    | (with_reducible assumption) | (with_reducible apply statInc_kept) | (with_reducible apply queueEntry_kept)
    | (with_reducible refine kept_fold ?_ _ _ ?_) | (with_reducible refine kept_fold_2 ?_ _ _ ?_)
    | (with_reducible refine kept_fold_1 ?_ _ _ ?_) | intro _ | (simp only [kept_lit]) | (with_reducible apply kept_parts)
    | (with_reducible refine kept_ite ?_ ?_) | (dsimp only [id_eq]) | split

theorem setSpd_kept (s : State) (o : ℕ) (high : Bool) (h : Kept C M s) : Kept C M (setSpd s o high) := by
  unfold setSpd
  (try dsimp only)
  repeat' first
    | (with_reducible assumption) | (with_reducible refine kept_fold ?_ _ _ ?_)
    | (with_reducible refine kept_fold_2 ?_ _ _ ?_) | (with_reducible refine kept_fold_1 ?_ _ _ ?_) | intro _
    | (simp only [kept_lit]) | (with_reducible apply kept_parts) | (with_reducible refine kept_ite ?_ ?_)
    | (dsimp only [id_eq]) | split

theorem evtDo_kept (s : State) (k : ℕ) (h : Kept C M s) : Kept C M (evtDo s k) := by
  unfold evtDo
  (try dsimp only)
  repeat' first
    | (with_reducible assumption) | (with_reducible apply setSpd_kept) | (with_reducible apply distSample_kept)
    | (with_reducible apply raise_kept) | (with_reducible apply setFld_kept) | (with_reducible refine kept_fold ?_ _ _ ?_)
    | (with_reducible refine kept_fold_2 ?_ _ _ ?_) | (with_reducible refine kept_fold_1 ?_ _ _ ?_) | intro _
    | (simp only [kept_lit]) | (with_reducible apply kept_parts) | (with_reducible refine kept_ite ?_ ?_)
    | (dsimp only [id_eq]) | split

theorem evtPass_kept (s : State) (k : ℕ) (h : Kept C M s) : Kept C M (evtPass s k) := by
  unfold evtPass
  (try dsimp only)
  repeat' first
    | (with_reducible assumption) | (with_reducible apply evtDo_kept) | (with_reducible refine kept_fold ?_ _ _ ?_)
    | (with_reducible refine kept_fold_2 ?_ _ _ ?_) | (with_reducible refine kept_fold_1 ?_ _ _ ?_) | intro _
    | (simp only [kept_lit]) | (with_reducible apply kept_parts) | (with_reducible refine kept_ite ?_ ?_)
    | (dsimp only [id_eq]) | split

theorem evtsAtTooth_kept (s : State) (n : ℕ) (old : ℕ) (new : ℕ) (h : Kept C M s) : Kept C M (evtsAtTooth s n old new) := by
  unfold evtsAtTooth
  (try dsimp only)
  repeat' first
    | (with_reducible assumption) | (with_reducible apply statInc_kept) | (with_reducible apply evtPass_kept)
    | (with_reducible refine kept_fold ?_ _ _ ?_) | (with_reducible refine kept_fold_2 ?_ _ _ ?_)
    | (with_reducible refine kept_fold_1 ?_ _ _ ?_) | intro _ | (simp only [kept_lit]) | (with_reducible apply kept_parts)
    | (with_reducible refine kept_ite ?_ ?_) | (dsimp only [id_eq]) | split

theorem distTeeth_kept (s : State) (n : ℕ) (h : Kept C M s) : Kept C M (distTeeth s n) := by
  unfold distTeeth
  (try dsimp only)
  repeat' first
    | (with_reducible assumption) | (with_reducible apply distSample_kept) | (with_reducible refine kept_fold ?_ _ _ ?_)
    | (with_reducible refine kept_fold_2 ?_ _ _ ?_) | (with_reducible refine kept_fold_1 ?_ _ _ ?_) | intro _
    | (simp only [kept_lit]) | (with_reducible apply kept_parts) | (with_reducible refine kept_ite ?_ ?_)
    | (dsimp only [id_eq]) | split

theorem spdSafe_kept (s : State) (n : ℕ) (h : Kept C M s) : Kept C M (spdSafe s n) := by
  unfold spdSafe
  (try dsimp only)
  repeat' first
    | (with_reducible assumption) | (with_reducible apply setSpd_kept) | (with_reducible refine kept_fold ?_ _ _ ?_)
    | (with_reducible refine kept_fold_2 ?_ _ _ ?_) | (with_reducible refine kept_fold_1 ?_ _ _ ?_) | intro _
    | (simp only [kept_lit]) | (with_reducible apply kept_parts) | (with_reducible refine kept_ite ?_ ?_)
    | (dsimp only [id_eq]) | split

theorem loseSync_kept (s : State) (n : ℕ) (reason : ℕ) (h : Kept C M s) : Kept C M (loseSync s n reason) := by
  unfold loseSync
  (try dsimp only)
  repeat' first
    | (with_reducible assumption) | (with_reducible apply setTt_kept) | (with_reducible apply raise_kept)
    | (with_reducible apply statInc_kept) | (with_reducible apply spdSafe_kept) | (with_reducible apply distSample_kept)
    | (with_reducible refine kept_fold ?_ _ _ ?_) | (with_reducible refine kept_fold_2 ?_ _ _ ?_)
    | (with_reducible refine kept_fold_1 ?_ _ _ ?_) | intro _ | (simp only [kept_lit]) | (with_reducible apply kept_parts)
    | (with_reducible refine kept_ite ?_ ?_) | (dsimp only [id_eq]) | split

theorem startTracker_kept (s : State) (n : ℕ) (h : Kept C M s) : Kept C M (startTracker s n) := by
  unfold startTracker
  (try dsimp only)
  repeat' first
    | (with_reducible assumption) | (with_reducible apply setTt_kept) | (with_reducible refine kept_fold ?_ _ _ ?_)
    | (with_reducible refine kept_fold_2 ?_ _ _ ?_) | (with_reducible refine kept_fold_1 ?_ _ _ ?_) | intro _
    | (simp only [kept_lit]) | (with_reducible apply kept_parts) | (with_reducible refine kept_ite ?_ ?_)
    | (dsimp only [id_eq]) | split

theorem startTrackers_kept (s : State) (h : Kept C M s) : Kept C M (startTrackers s) := by
  unfold startTrackers
  (try dsimp only)
  repeat' first
    | (with_reducible assumption) | (with_reducible apply quorumCheck_kept) | (with_reducible apply startTracker_kept)
    | (with_reducible refine kept_fold ?_ _ _ ?_) | (with_reducible refine kept_fold_2 ?_ _ _ ?_)
    | (with_reducible refine kept_fold_1 ?_ _ _ ?_) | intro _ | (simp only [kept_lit]) | (with_reducible apply kept_parts)
    | (with_reducible refine kept_ite ?_ ?_) | (dsimp only [id_eq]) | split

theorem setFb_kept (s : State) (n : ℕ) (c : FbChan) (h : Kept C M s) : Kept C M (setFb s n c) := by
  unfold setFb
  (try dsimp only)
  repeat' first
    | (with_reducible assumption) | (with_reducible refine kept_fold ?_ _ _ ?_)
    | (with_reducible refine kept_fold_2 ?_ _ _ ?_) | (with_reducible refine kept_fold_1 ?_ _ _ ?_) | intro _
    | (simp only [kept_lit]) | (with_reducible apply kept_parts) | (with_reducible refine kept_ite ?_ ?_)
    | (dsimp only [id_eq]) | split

theorem setCmpo_kept (s : State) (k : ℕ) (high : Bool) (h : Kept C M s) : Kept C M (setCmpo s k high) := by
  unfold setCmpo
  (try dsimp only)
  repeat' first
    | (with_reducible assumption) | (with_reducible refine kept_fold ?_ _ _ ?_)
    | (with_reducible refine kept_fold_2 ?_ _ _ ?_) | (with_reducible refine kept_fold_1 ?_ _ _ ?_) | intro _
    | (simp only [kept_lit]) | (with_reducible apply kept_parts) | (with_reducible refine kept_ite ?_ ?_)
    | (dsimp only [id_eq]) | split

theorem cmpoSafe_kept (s : State) (n : ℕ) (h : Kept C M s) : Kept C M (cmpoSafe s n) := by
  unfold cmpoSafe
  (try dsimp only)
  repeat' first
    | (with_reducible assumption) | (with_reducible apply setCmpo_kept) | (with_reducible refine kept_fold ?_ _ _ ?_)
    | (with_reducible refine kept_fold_2 ?_ _ _ ?_) | (with_reducible refine kept_fold_1 ?_ _ _ ?_) | intro _
    | (simp only [kept_lit]) | (with_reducible apply kept_parts) | (with_reducible refine kept_ite ?_ ?_)
    | (dsimp only [id_eq]) | split

theorem setBolt_kept (s : State) (b : ℕ) (x : Bolt) (h : Kept C M s) : Kept C M (setBolt s b x) := by
  unfold setBolt
  (try dsimp only)
  repeat' first
    | (with_reducible assumption) | (with_reducible refine kept_fold ?_ _ _ ?_)
    | (with_reducible refine kept_fold_2 ?_ _ _ ?_) | (with_reducible refine kept_fold_1 ?_ _ _ ?_) | intro _
    | (simp only [kept_lit]) | (with_reducible apply kept_parts) | (with_reducible refine kept_ite ?_ ?_)
    | (dsimp only [id_eq]) | split

theorem armMove_kept (s : State) (t0 : ℕ) (n : ℕ) (us : ℕ) (h : Kept C M s) : Kept C M (armMove s t0 n us) := by
  unfold armMove
  (try dsimp only)
  repeat' first
    | (with_reducible assumption) | (with_reducible apply wr_kept) | (with_reducible refine kept_fold ?_ _ _ ?_)
    | (with_reducible refine kept_fold_2 ?_ _ _ ?_) | (with_reducible refine kept_fold_1 ?_ _ _ ?_) | intro _
    | (simp only [kept_lit]) | (with_reducible apply kept_parts) | (with_reducible refine kept_ite ?_ ?_)
    | (dsimp only [id_eq]) | split

theorem startMove_kept (s : State) (b : ℕ) (engage : Bool) (undo : Bool) (h : Kept C M s) : Kept C M (startMove s b engage undo) := by
  unfold startMove
  (try dsimp only)
  repeat' first
    | (with_reducible assumption) | (with_reducible apply holdBlock_kept) | (with_reducible apply wr_kept)
    | (with_reducible apply armMove_kept) | (with_reducible apply setCmpo_kept) | (with_reducible apply setBolt_kept)
    | (with_reducible refine kept_fold ?_ _ _ ?_) | (with_reducible refine kept_fold_2 ?_ _ _ ?_)
    | (with_reducible refine kept_fold_1 ?_ _ _ ?_) | intro _ | (simp only [kept_lit]) | (with_reducible apply kept_parts)
    | (with_reducible refine kept_ite ?_ ?_) | (dsimp only [id_eq]) | split

theorem endMove_kept (s : State) (b : ℕ) (st : BoltSt) (h : Kept C M s) : Kept C M (endMove s b st) := by
  unfold endMove
  (try dsimp only)
  repeat' first
    | (with_reducible assumption) | (with_reducible apply setCmpo_kept) | (with_reducible apply setBolt_kept)
    | (with_reducible apply wr_kept) | (with_reducible apply releaseBlock_kept) | (with_reducible refine kept_fold ?_ _ _ ?_)
    | (with_reducible refine kept_fold_2 ?_ _ _ ?_) | (with_reducible refine kept_fold_1 ?_ _ _ ?_) | intro _
    | (simp only [kept_lit]) | (with_reducible apply kept_parts) | (with_reducible refine kept_ite ?_ ?_)
    | (dsimp only [id_eq]) | split

theorem faultMove_kept (s : State) (b : ℕ) (h : Kept C M s) : Kept C M (faultMove s b) := by
  unfold faultMove
  (try dsimp only)
  repeat' first
    | (with_reducible assumption) | (with_reducible apply raise_kept) | (with_reducible apply endMove_kept)
    | (with_reducible refine kept_fold ?_ _ _ ?_) | (with_reducible refine kept_fold_2 ?_ _ _ ?_)
    | (with_reducible refine kept_fold_1 ?_ _ _ ?_) | intro _ | (simp only [kept_lit]) | (with_reducible apply kept_parts)
    | (with_reducible refine kept_ite ?_ ?_) | (dsimp only [id_eq]) | split

theorem chanFault_kept (s : State) (n : ℕ) (code : ℕ) (h : Kept C M s) : Kept C M (chanFault s n code) := by
  unfold chanFault
  (try dsimp only)
  repeat' first
    | (with_reducible assumption) | (with_reducible apply setFb_kept) | (with_reducible apply cmpoSafe_kept)
    | (with_reducible apply faultMove_kept) | (with_reducible apply raise_kept) | (with_reducible apply statInc_kept)
    | (with_reducible refine kept_fold ?_ _ _ ?_) | (with_reducible refine kept_fold_2 ?_ _ _ ?_)
    | (with_reducible refine kept_fold_1 ?_ _ _ ?_) | intro _ | (simp only [kept_lit]) | (with_reducible apply kept_parts)
    | (with_reducible refine kept_ite ?_ ?_) | (dsimp only [id_eq]) | split

theorem requestMove_kept (s : State) (b : ℕ) (engage : Bool) (h : Kept C M s) : Kept C M (requestMove s b engage) := by
  unfold requestMove
  (try dsimp only)
  repeat' first
    | (with_reducible assumption) | (with_reducible apply setBolt_kept) | (with_reducible apply startMove_kept)
    | (with_reducible refine kept_fold ?_ _ _ ?_) | (with_reducible refine kept_fold_2 ?_ _ _ ?_)
    | (with_reducible refine kept_fold_1 ?_ _ _ ?_) | intro _ | (simp only [kept_lit]) | (with_reducible apply kept_parts)
    | (with_reducible refine kept_ite ?_ ?_) | (dsimp only [id_eq]) | split

theorem engageAll_kept (s : State) (h : Kept C M s) : Kept C M (engageAll s) := by
  unfold engageAll
  (try dsimp only)
  repeat' first
    | (with_reducible assumption) | (with_reducible apply requestMove_kept) | (with_reducible refine kept_fold ?_ _ _ ?_)
    | (with_reducible refine kept_fold_2 ?_ _ _ ?_) | (with_reducible refine kept_fold_1 ?_ _ _ ?_) | intro _
    | (simp only [kept_lit]) | (with_reducible apply kept_parts) | (with_reducible refine kept_ite ?_ ?_)
    | (dsimp only [id_eq]) | split

theorem retryBolt_kept (s : State) (b : ℕ) (h : Kept C M s) : Kept C M (retryBolt s b) := by
  unfold retryBolt
  (try dsimp only)
  repeat' first
    | (with_reducible assumption) | (with_reducible apply raise_kept) | (with_reducible apply setBolt_kept)
    | (with_reducible apply startMove_kept) | (with_reducible refine kept_fold ?_ _ _ ?_)
    | (with_reducible refine kept_fold_2 ?_ _ _ ?_) | (with_reducible refine kept_fold_1 ?_ _ _ ?_) | intro _
    | (simp only [kept_lit]) | (with_reducible apply kept_parts) | (with_reducible refine kept_ite ?_ ?_)
    | (dsimp only [id_eq]) | split

theorem retryBolts_kept (s : State) (h : Kept C M s) : Kept C M (retryBolts s) := by
  unfold retryBolts
  (try dsimp only)
  repeat' first
    | (with_reducible assumption) | (with_reducible apply retryBolt_kept) | (with_reducible refine kept_fold ?_ _ _ ?_)
    | (with_reducible refine kept_fold_2 ?_ _ _ ?_) | (with_reducible refine kept_fold_1 ?_ _ _ ?_) | intro _
    | (simp only [kept_lit]) | (with_reducible apply kept_parts) | (with_reducible refine kept_ite ?_ ?_)
    | (dsimp only [id_eq]) | split

theorem actuatorsSafe_kept (s : State) (h : Kept C M s) : Kept C M (actuatorsSafe s) := by
  unfold actuatorsSafe
  (try dsimp only)
  repeat' first
    | (with_reducible assumption) | (with_reducible refine kept_fold ?_ _ _ ?_)
    | (with_reducible refine kept_fold_2 ?_ _ _ ?_) | (with_reducible refine kept_fold_1 ?_ _ _ ?_) | intro _
    | (simp only [kept_lit]) | (with_reducible apply kept_parts) | (with_reducible refine kept_ite ?_ ?_)
    | (dsimp only [id_eq]) | split

end Sys2Proof.Machine
end

