-- ==== Sys2Proof/Laws/KeepModes.lean ====
section
/-! SUPPORT. What the operations of `Modes` leave alone. -/

namespace Sys2Proof.Machine

set_option linter.unusedTactic false
set_option linter.unreachableTactic false
set_option linter.unusedSimpArgs false

variable {C : Prop} {M : Mark}

theorem laneToActive_kept (s : State) (n : ℕ) (h : Kept C M s) : Kept C M (laneToActive s n) := by
  unfold laneToActive
  (try dsimp only)
  repeat' first
    | (with_reducible assumption) | (with_reducible apply setLane_kept) | (with_reducible refine kept_fold ?_ _ _ ?_)
    | (with_reducible refine kept_fold_2 ?_ _ _ ?_) | (with_reducible refine kept_fold_1 ?_ _ _ ?_) | intro _
    | (simp only [kept_lit]) | (with_reducible apply kept_parts) | (with_reducible refine kept_ite ?_ ?_)
    | (dsimp only [id_eq]) | split

theorem laneToTarget_kept (s : State) (n : ℕ) (h : Kept C M s) : Kept C M (laneToTarget s n) := by
  unfold laneToTarget
  (try dsimp only)
  repeat' first
    | (with_reducible assumption) | (with_reducible apply laneToActive_kept) | (with_reducible apply setLane_kept)
    | (with_reducible refine kept_fold ?_ _ _ ?_) | (with_reducible refine kept_fold_2 ?_ _ _ ?_)
    | (with_reducible refine kept_fold_1 ?_ _ _ ?_) | intro _ | (simp only [kept_lit]) | (with_reducible apply kept_parts)
    | (with_reducible refine kept_ite ?_ ?_) | (dsimp only [id_eq]) | split

theorem laneFollow_kept (s : State) (n : ℕ) (h : Kept C M s) : Kept C M (laneFollow s n) := by
  unfold laneFollow
  (try dsimp only)
  repeat' first
    | (with_reducible assumption) | (with_reducible apply laneToTarget_kept) | (with_reducible refine kept_fold ?_ _ _ ?_)
    | (with_reducible refine kept_fold_2 ?_ _ _ ?_) | (with_reducible refine kept_fold_1 ?_ _ _ ?_) | intro _
    | (simp only [kept_lit]) | (with_reducible apply kept_parts) | (with_reducible refine kept_ite ?_ ?_)
    | (dsimp only [id_eq]) | split

theorem lanesFollow_kept (s : State) (h : Kept C M s) : Kept C M (lanesFollow s) := by
  unfold lanesFollow
  (try dsimp only)
  repeat' first
    | (with_reducible assumption) | (with_reducible apply laneFollow_kept) | (with_reducible refine kept_fold ?_ _ _ ?_)
    | (with_reducible refine kept_fold_2 ?_ _ _ ?_) | (with_reducible refine kept_fold_1 ?_ _ _ ?_) | intro _
    | (simp only [kept_lit]) | (with_reducible apply kept_parts) | (with_reducible refine kept_ite ?_ ?_)
    | (dsimp only [id_eq]) | split

theorem portQuiet_kept (s : State) (p : ℕ) (h : Kept C M s) : Kept C M (portQuiet s p) := by
  unfold portQuiet
  (try dsimp only)
  repeat' first
    | (with_reducible assumption) | (with_reducible apply clrReg_kept) | (with_reducible apply wri_kept)
    | (with_reducible apply setPort_kept) | (with_reducible refine kept_fold ?_ _ _ ?_)
    | (with_reducible refine kept_fold_2 ?_ _ _ ?_) | (with_reducible refine kept_fold_1 ?_ _ _ ?_) | intro _
    | (simp only [kept_lit]) | (with_reducible apply kept_parts) | (with_reducible refine kept_ite ?_ ?_)
    | (dsimp only [id_eq]) | split

theorem linkLost_kept (s : State) (p : ℕ) (h : Kept C M s) : Kept C M (linkLost s p) := by
  unfold linkLost
  (try dsimp only)
  repeat' first
    | (with_reducible assumption) | (with_reducible apply clrReg_kept) | (with_reducible apply portQuiet_kept)
    | (with_reducible apply flushPort_kept) | (with_reducible apply raise_kept) | (with_reducible refine kept_fold ?_ _ _ ?_)
    | (with_reducible refine kept_fold_2 ?_ _ _ ?_) | (with_reducible refine kept_fold_1 ?_ _ _ ?_) | intro _
    | (simp only [kept_lit]) | (with_reducible apply kept_parts) | (with_reducible refine kept_ite ?_ ?_)
    | (dsimp only [id_eq]) | split

theorem portDown_kept (s : State) (p : ℕ) (h : Kept C M s) : Kept C M (portDown s p) := by
  unfold portDown
  (try dsimp only)
  repeat' first
    | (with_reducible assumption) | (with_reducible apply linkLost_kept) | (with_reducible apply setPort_kept)
    | (with_reducible apply clrReg_kept) | (with_reducible refine kept_fold ?_ _ _ ?_)
    | (with_reducible refine kept_fold_2 ?_ _ _ ?_) | (with_reducible refine kept_fold_1 ?_ _ _ ?_) | intro _
    | (simp only [kept_lit]) | (with_reducible apply kept_parts) | (with_reducible refine kept_ite ?_ ?_)
    | (dsimp only [id_eq]) | split

theorem portUp_kept (s : State) (p : ℕ) (h : Kept C M s) : Kept C M (portUp s p) := by
  unfold portUp
  (try dsimp only)
  repeat' first
    | (with_reducible assumption) | (with_reducible apply setPort_kept) | (with_reducible apply orReg_kept)
    | (with_reducible refine kept_fold ?_ _ _ ?_) | (with_reducible refine kept_fold_2 ?_ _ _ ?_)
    | (with_reducible refine kept_fold_1 ?_ _ _ ?_) | intro _ | (simp only [kept_lit]) | (with_reducible apply kept_parts)
    | (with_reducible refine kept_ite ?_ ?_) | (dsimp only [id_eq]) | split

theorem portsFollow_kept (s : State) (h : Kept C M s) : Kept C M (portsFollow s) := by
  unfold portsFollow
  (try dsimp only)
  repeat' first
    | (with_reducible assumption) | (with_reducible apply portUp_kept) | (with_reducible apply portDown_kept)
    | (with_reducible refine kept_fold ?_ _ _ ?_) | (with_reducible refine kept_fold_2 ?_ _ _ ?_)
    | (with_reducible refine kept_fold_1 ?_ _ _ ?_) | intro _ | (simp only [kept_lit]) | (with_reducible apply kept_parts)
    | (with_reducible refine kept_ite ?_ ?_) | (dsimp only [id_eq]) | split

theorem denySummaryNow_kept (s : State) (h : Kept C M s) : Kept C M (denySummaryNow s) := by
  unfold denySummaryNow
  (try dsimp only)
  repeat' first
    | (with_reducible assumption) | (with_reducible apply queueEntry_kept) | (with_reducible refine kept_fold ?_ _ _ ?_)
    | (with_reducible refine kept_fold_2 ?_ _ _ ?_) | (with_reducible refine kept_fold_1 ?_ _ _ ?_) | intro _
    | (simp only [kept_lit]) | (with_reducible apply kept_parts) | (with_reducible refine kept_ite ?_ ?_)
    | (dsimp only [id_eq]) | split

theorem copyWake_kept (s : State) (h : Kept C M s) : Kept C M (copyWake s) := by
  unfold copyWake
  (try dsimp only)
  repeat' first
    | (with_reducible assumption) | (with_reducible refine kept_fold ?_ _ _ ?_)
    | (with_reducible refine kept_fold_2 ?_ _ _ ?_) | (with_reducible refine kept_fold_1 ?_ _ _ ?_) | intro _
    | (simp only [kept_lit]) | (with_reducible apply kept_parts) | (with_reducible refine kept_ite ?_ ?_)
    | (dsimp only [id_eq]) | split

theorem laSaveNow_kept (s : State) (h : Kept C M s) : Kept C M (laSaveNow s) := by
  unfold laSaveNow
  (try dsimp only)
  repeat' first
    | (with_reducible assumption) | (with_reducible refine kept_fold ?_ _ _ ?_)
    | (with_reducible refine kept_fold_2 ?_ _ _ ?_) | (with_reducible refine kept_fold_1 ?_ _ _ ?_) | intro _
    | (simp only [kept_lit]) | (with_reducible apply kept_parts) | (with_reducible refine kept_ite ?_ ?_)
    | (dsimp only [id_eq]) | split

theorem railOff_kept (s : State) (r : ℕ) (h : Kept C M s) : Kept C M (railOff s r) := by
  unfold railOff
  (try dsimp only)
  repeat' first
    | (with_reducible assumption) | (with_reducible apply clrReg_kept) | (with_reducible refine kept_fold ?_ _ _ ?_)
    | (with_reducible refine kept_fold_2 ?_ _ _ ?_) | (with_reducible refine kept_fold_1 ?_ _ _ ?_) | intro _
    | (simp only [kept_lit]) | (with_reducible apply kept_parts) | (with_reducible refine kept_ite ?_ ?_)
    | (dsimp only [id_eq]) | split

theorem railOn_kept (s : State) (r : ℕ) (h : Kept C M s) : Kept C M (railOn s r) := by
  unfold railOn
  (try dsimp only)
  repeat' first
    | (with_reducible assumption) | (with_reducible refine kept_fold ?_ _ _ ?_)
    | (with_reducible refine kept_fold_2 ?_ _ _ ?_) | (with_reducible refine kept_fold_1 ?_ _ _ ?_) | intro _
    | (simp only [kept_lit]) | (with_reducible apply kept_parts) | (with_reducible refine kept_ite ?_ ?_)
    | (dsimp only [id_eq]) | split

theorem railDead_kept (s : State) (r : ℕ) (h : Kept C M s) : Kept C M (railDead s r) := by
  unfold railDead
  (try dsimp only)
  repeat' first
    | (with_reducible assumption) | (with_reducible apply railOff_kept) | (with_reducible refine kept_fold ?_ _ _ ?_)
    | (with_reducible refine kept_fold_2 ?_ _ _ ?_) | (with_reducible refine kept_fold_1 ?_ _ _ ?_) | intro _
    | (simp only [kept_lit]) | (with_reducible apply kept_parts) | (with_reducible refine kept_ite ?_ ?_)
    | (dsimp only [id_eq]) | split

theorem railNext_kept (s : State) (m : Mode) (h : Kept C M s) : Kept C M (railNext s m) := by
  unfold railNext
  (try dsimp only)
  repeat' first
    | (with_reducible assumption) | (with_reducible apply railOn_kept) | (with_reducible refine kept_fold ?_ _ _ ?_)
    | (with_reducible refine kept_fold_2 ?_ _ _ ?_) | (with_reducible refine kept_fold_1 ?_ _ _ ?_) | intro _
    | (simp only [kept_lit]) | (with_reducible apply kept_parts) | (with_reducible refine kept_ite ?_ ?_)
    | (dsimp only [id_eq]) | split

theorem railsFollow_kept (s : State) (m : Mode) (h : Kept C M s) : Kept C M (railsFollow s m) := by
  unfold railsFollow
  (try dsimp only)
  repeat' first
    | (with_reducible assumption) | (with_reducible apply railNext_kept) | (with_reducible apply railOff_kept)
    | (with_reducible refine kept_fold ?_ _ _ ?_) | (with_reducible refine kept_fold_2 ?_ _ _ ?_)
    | (with_reducible refine kept_fold_1 ?_ _ _ ?_) | intro _ | (simp only [kept_lit]) | (with_reducible apply kept_parts)
    | (with_reducible refine kept_ite ?_ ?_) | (dsimp only [id_eq]) | split

theorem modeCore_kept (s : State) (m : Mode) (h : Kept C M s) : Kept C M (modeCore s m) := by
  unfold modeCore
  (try dsimp only)
  repeat' first
    | (with_reducible assumption) | (with_reducible apply closeSession_kept) | (with_reducible apply railsFollow_kept)
    | (with_reducible apply portsFollow_kept) | (with_reducible apply lanesFollow_kept)
    | (with_reducible refine kept_fold ?_ _ _ ?_) | (with_reducible refine kept_fold_2 ?_ _ _ ?_)
    | (with_reducible refine kept_fold_1 ?_ _ _ ?_) | intro _ | (simp only [kept_lit]) | (with_reducible apply kept_parts)
    | (with_reducible refine kept_ite ?_ ?_) | (dsimp only [id_eq]) | split

theorem setImmob_kept (s : State) (v : Bool) (h : Kept C M s) : Kept C M (setImmob s v) := by
  unfold setImmob
  (try dsimp only)
  repeat' first
    | (with_reducible assumption) | (with_reducible refine kept_fold ?_ _ _ ?_)
    | (with_reducible refine kept_fold_2 ?_ _ _ ?_) | (with_reducible refine kept_fold_1 ?_ _ _ ?_) | intro _
    | (simp only [kept_lit]) | (with_reducible apply kept_parts) | (with_reducible refine kept_ite ?_ ?_)
    | (dsimp only [id_eq]) | split

theorem enterMode_kept (s : State) (m : Mode) (h : Kept C M s) : Kept C M (enterMode s m) := by
  unfold enterMode
  (try dsimp only)
  repeat' first
    | (with_reducible assumption) | (with_reducible apply modeCore_kept) | (with_reducible apply setImmob_kept)
    | (with_reducible refine kept_fold ?_ _ _ ?_) | (with_reducible refine kept_fold_2 ?_ _ _ ?_)
    | (with_reducible refine kept_fold_1 ?_ _ _ ?_) | intro _ | (simp only [kept_lit]) | (with_reducible apply kept_parts)
    | (with_reducible refine kept_ite ?_ ?_) | (dsimp only [id_eq]) | split

theorem sealEntry_kept (s : State) (c : QCause) (h : Kept C M s) : Kept C M (sealEntry s c) := by
  unfold sealEntry
  (try dsimp only)
  repeat' first
    | (with_reducible assumption) | (with_reducible apply queueEntryL_kept) | (with_reducible apply queueEntry_kept)
    | (with_reducible refine kept_fold ?_ _ _ ?_) | (with_reducible refine kept_fold_2 ?_ _ _ ?_)
    | (with_reducible refine kept_fold_1 ?_ _ _ ?_) | intro _ | (simp only [kept_lit]) | (with_reducible apply kept_parts)
    | (with_reducible refine kept_ite ?_ ?_) | (dsimp only [id_eq]) | split

theorem quarantine_kept (s : State) (c : QCause) (h : Kept C M s) : Kept C M (quarantine s c) := by
  unfold quarantine
  (try dsimp only)
  repeat' first
    | (with_reducible assumption) | (with_reducible apply sealEntry_kept) | (with_reducible apply modeCore_kept)
    | (with_reducible apply setImmob_kept) | (with_reducible refine kept_fold ?_ _ _ ?_)
    | (with_reducible refine kept_fold_2 ?_ _ _ ?_) | (with_reducible refine kept_fold_1 ?_ _ _ ?_) | intro _
    | (simp only [kept_lit]) | (with_reducible apply kept_parts) | (with_reducible refine kept_ite ?_ ?_)
    | (dsimp only [id_eq]) | split

theorem causeArises_kept (s : State) (c : QCause) (h : Kept C M s) : Kept C M (causeArises s c) := by
  unfold causeArises
  (try dsimp only)
  repeat' first
    | (with_reducible assumption) | (with_reducible apply quarantine_kept) | (with_reducible refine kept_fold ?_ _ _ ?_)
    | (with_reducible refine kept_fold_2 ?_ _ _ ?_) | (with_reducible refine kept_fold_1 ?_ _ _ ?_) | intro _
    | (simp only [kept_lit]) | (with_reducible apply kept_parts) | (with_reducible refine kept_ite ?_ ?_)
    | (dsimp only [id_eq]) | split

theorem ledgerFault_kept (s : State) (good : ℕ) (h : Kept C M s) : Kept C M (ledgerFault s good) := by
  unfold ledgerFault
  (try dsimp only)
  repeat' first
    | (with_reducible assumption) | (with_reducible apply causeArises_kept) | (with_reducible refine kept_fold ?_ _ _ ?_)
    | (with_reducible refine kept_fold_2 ?_ _ _ ?_) | (with_reducible refine kept_fold_1 ?_ _ _ ?_) | intro _
    | (simp only [kept_lit]) | (with_reducible apply kept_parts) | (with_reducible refine kept_ite ?_ ?_)
    | (dsimp only [id_eq]) | split

theorem coreOff_kept (s : State) (h : Kept C M s) : Kept C M (coreOff s) := by
  unfold coreOff
  (try dsimp only)
  repeat' first
    | (with_reducible assumption) | (with_reducible apply lanesFollow_kept) | (with_reducible refine kept_fold ?_ _ _ ?_)
    | (with_reducible refine kept_fold_2 ?_ _ _ ?_) | (with_reducible refine kept_fold_1 ?_ _ _ ?_) | intro _
    | (simp only [kept_lit]) | (with_reducible apply kept_parts) | (with_reducible refine kept_ite ?_ ?_)
    | (dsimp only [id_eq]) | split

theorem sleepFrom_kept (s : State) (m : Mode) (h : Kept C M s) : Kept C M (sleepFrom s m) := by
  unfold sleepFrom
  (try dsimp only)
  repeat' first
    | (with_reducible assumption) | (with_reducible apply commitAll_kept) | (with_reducible apply denySummaryNow_kept)
    | (with_reducible apply laSaveNow_kept) | (with_reducible apply copyWake_kept) | (with_reducible apply modeCore_kept)
    | (with_reducible apply railsFollow_kept) | (with_reducible apply coreOff_kept)
    | (with_reducible refine kept_fold ?_ _ _ ?_) | (with_reducible refine kept_fold_2 ?_ _ _ ?_)
    | (with_reducible refine kept_fold_1 ?_ _ _ ?_) | intro _ | (simp only [kept_lit]) | (with_reducible apply kept_parts)
    | (with_reducible refine kept_ite ?_ ?_) | (dsimp only [id_eq]) | split

theorem sleepTo_kept (s : State) (m : Mode) (h : Kept C M s) : Kept C M (sleepTo s m) := by
  unfold sleepTo
  (try dsimp only)
  repeat' first
    | (with_reducible assumption) | (with_reducible apply railsFollow_kept) | (with_reducible refine kept_fold ?_ _ _ ?_)
    | (with_reducible refine kept_fold_2 ?_ _ _ ?_) | (with_reducible refine kept_fold_1 ?_ _ _ ?_) | intro _
    | (simp only [kept_lit]) | (with_reducible apply kept_parts) | (with_reducible refine kept_ite ?_ ?_)
    | (dsimp only [id_eq]) | split

theorem zeroKeys_kept (s : State) (h : Kept C M s) : Kept C M (zeroKeys s) := by
  unfold zeroKeys
  (try dsimp only)
  repeat' first
    | (with_reducible assumption) | (with_reducible apply losePower_kept) | (with_reducible refine kept_fold ?_ _ _ ?_)
    | (with_reducible refine kept_fold_2 ?_ _ _ ?_) | (with_reducible refine kept_fold_1 ?_ _ _ ?_) | intro _
    | (simp only [kept_lit]) | (with_reducible apply kept_parts) | (with_reducible refine kept_ite ?_ ?_)
    | (dsimp only [id_eq]) | split

theorem brownOut_kept (s : State) (h : Kept C M s) : Kept C M (brownOut s) := by
  unfold brownOut
  (try dsimp only)
  repeat' first
    | (with_reducible assumption) | (with_reducible apply zeroKeys_kept) | (with_reducible apply actuatorsSafe_kept)
    | (with_reducible apply orReg_kept) | (with_reducible apply coreOff_kept) | (with_reducible refine kept_fold ?_ _ _ ?_)
    | (with_reducible refine kept_fold_2 ?_ _ _ ?_) | (with_reducible refine kept_fold_1 ?_ _ _ ?_) | intro _
    | (simp only [kept_lit]) | (with_reducible apply kept_parts) | (with_reducible refine kept_ite ?_ ?_)
    | (dsimp only [id_eq]) | split

theorem openInterval_kept (s : State) (num : ℕ) (lOpen : ℕ) (h : Kept C M s) : Kept C M (openInterval s num lOpen) := by
  unfold openInterval
  (try dsimp only)
  repeat' first
    | (with_reducible assumption) | (with_reducible refine kept_fold ?_ _ _ ?_)
    | (with_reducible refine kept_fold_2 ?_ _ _ ?_) | (with_reducible refine kept_fold_1 ?_ _ _ ?_) | intro _
    | (simp only [kept_lit]) | (with_reducible apply kept_parts) | (with_reducible refine kept_ite ?_ ?_)
    | (dsimp only [id_eq]) | split

theorem closeInterval_kept (s : State) (late : Bool) (lt : ℕ) (reason : ℕ) (h : Kept C M s) : Kept C M (closeInterval s late lt reason) := by
  unfold closeInterval
  (try dsimp only)
  repeat' first
    | (with_reducible assumption) | (with_reducible apply queueEntryL_kept) | (with_reducible refine kept_fold ?_ _ _ ?_)
    | (with_reducible refine kept_fold_2 ?_ _ _ ?_) | (with_reducible refine kept_fold_1 ?_ _ _ ?_) | intro _
    | (simp only [kept_lit]) | (with_reducible apply kept_parts) | (with_reducible refine kept_ite ?_ ?_)
    | (dsimp only [id_eq]) | split

theorem boundaryClose_kept (s : State) (late : Bool) (h : Kept C M s) : Kept C M (boundaryClose s late) := by
  unfold boundaryClose
  (try dsimp only)
  repeat' first
    | (with_reducible assumption) | (with_reducible apply openInterval_kept) | (with_reducible apply closeInterval_kept)
    | (with_reducible refine kept_fold ?_ _ _ ?_) | (with_reducible refine kept_fold_2 ?_ _ _ ?_)
    | (with_reducible refine kept_fold_1 ?_ _ _ ?_) | intro _ | (simp only [kept_lit]) | (with_reducible apply kept_parts)
    | (with_reducible refine kept_ite ?_ ?_) | (dsimp only [id_eq]) | split

theorem boundaryCloses_kept (late : Bool) (a1 : Nat) (a2 : State) (h : Kept C M a2) : Kept C M (boundaryCloses late a1 a2) := by
  induction a1 generalizing late a2 with
  | zero =>
    unfold boundaryCloses
    (try dsimp only)
    repeat' first
      | (with_reducible assumption)
      | (with_reducible apply boundaryClose_kept)
      | (with_reducible refine kept_fold ?_ _ _ ?_)
      | (with_reducible refine kept_fold_2 ?_ _ _ ?_)
      | (with_reducible refine kept_fold_1 ?_ _ _ ?_)
      | intro _
      | (simp only [kept_lit])
      | (with_reducible apply kept_parts)
      | (with_reducible refine kept_ite ?_ ?_)
      | (dsimp only [id_eq])
      | split
  | succ k_ ih =>
    unfold boundaryCloses
    (try dsimp only)
    repeat' first
      | (with_reducible assumption)
      | (with_reducible apply boundaryClose_kept)
      | (with_reducible refine kept_fold ?_ _ _ ?_)
      | (with_reducible refine kept_fold_2 ?_ _ _ ?_)
      | (with_reducible refine kept_fold_1 ?_ _ _ ?_)
      | (with_reducible apply ih)
      | intro _
      | (simp only [kept_lit])
      | (with_reducible apply kept_parts)
      | (with_reducible refine kept_ite ?_ ?_)
      | (dsimp only [id_eq])
      | split

theorem openTrip_kept (s : State) (tokenId : ℕ) (tripRef : ℕ) (src : ℕ) (drive : Bool) (h : Kept C M s) : Kept C M (openTrip s tokenId tripRef src drive) := by
  unfold openTrip
  (try dsimp only)
  repeat' first
    | (with_reducible assumption) | (with_reducible apply commitEntry_kept) | (with_reducible apply openInterval_kept)
    | (with_reducible apply enterMode_kept) | (with_reducible apply sendEntryFrames_kept)
    | (with_reducible apply requestMove_kept) | (with_reducible refine kept_fold ?_ _ _ ?_)
    | (with_reducible refine kept_fold_2 ?_ _ _ ?_) | (with_reducible refine kept_fold_1 ?_ _ _ ?_) | intro _
    | (simp only [kept_lit]) | (with_reducible apply kept_parts) | (with_reducible refine kept_ite ?_ ?_)
    | (dsimp only [id_eq]) | split

theorem closeTripRecords_kept (s : State) (t0 : Trip) (src : ℕ) (h : Kept C M s) : Kept C M (closeTripRecords s t0 src) := by
  unfold closeTripRecords
  (try dsimp only)
  repeat' first
    | (with_reducible assumption) | (with_reducible apply boundaryCloses_kept) | (with_reducible apply closeInterval_kept)
    | (with_reducible apply queueEntry_kept) | (with_reducible refine kept_fold ?_ _ _ ?_)
    | (with_reducible refine kept_fold_2 ?_ _ _ ?_) | (with_reducible refine kept_fold_1 ?_ _ _ ?_) | intro _
    | (simp only [kept_lit]) | (with_reducible apply kept_parts) | (with_reducible refine kept_ite ?_ ?_)
    | (dsimp only [id_eq]) | split

theorem closeTripLedger_kept (s : State) (src : ℕ) (h : Kept C M s) : Kept C M (closeTripLedger s src) := by
  unfold closeTripLedger
  (try dsimp only)
  repeat' first
    | (with_reducible assumption) | (with_reducible apply closeTripRecords_kept) | (with_reducible apply commitAll_kept)
    | (with_reducible apply denySummaryNow_kept) | (with_reducible refine kept_fold ?_ _ _ ?_)
    | (with_reducible refine kept_fold_2 ?_ _ _ ?_) | (with_reducible refine kept_fold_1 ?_ _ _ ?_) | intro _
    | (simp only [kept_lit]) | (with_reducible apply kept_parts) | (with_reducible refine kept_ite ?_ ?_)
    | (dsimp only [id_eq]) | split

theorem closeTrip_kept (s : State) (src : ℕ) (h : Kept C M s) : Kept C M (closeTrip s src) := by
  unfold closeTrip
  (try dsimp only)
  repeat' first
    | (with_reducible assumption) | (with_reducible apply closeTripLedger_kept) | (with_reducible apply enterMode_kept)
    | (with_reducible apply engageAll_kept) | (with_reducible apply sendEntryFrames_kept)
    | (with_reducible refine kept_fold ?_ _ _ ?_) | (with_reducible refine kept_fold_2 ?_ _ _ ?_)
    | (with_reducible refine kept_fold_1 ?_ _ _ ?_) | intro _ | (simp only [kept_lit]) | (with_reducible apply kept_parts)
    | (with_reducible refine kept_ite ?_ ?_) | (dsimp only [id_eq]) | split

theorem settle_kept (s : State) (h : Kept C M s) : Kept C M (settle s) := by
  unfold settle
  (try dsimp only)
  repeat' first
    | (with_reducible assumption) | (with_reducible apply setImmob_kept) | (with_reducible apply enterMode_kept)
    | (with_reducible apply engageAll_kept) | (with_reducible apply closeTrip_kept) | (with_reducible apply retryBolts_kept)
    | (with_reducible refine kept_fold ?_ _ _ ?_) | (with_reducible refine kept_fold_2 ?_ _ _ ?_)
    | (with_reducible refine kept_fold_1 ?_ _ _ ?_) | intro _ | (simp only [kept_lit]) | (with_reducible apply kept_parts)
    | (with_reducible refine kept_ite ?_ ?_) | (dsimp only [id_eq]) | split

theorem atStandstill_kept (s : State) (f : Vault → Vault) (h : Kept C M s) (hf : (f s.vault).slots = s.vault.slots) :
    Kept C M (atStandstill s f) := by
  unfold atStandstill
  apply settle_kept
  exact kept_stores h id id rfl (.inr rfl) (.inr rfl) id rfl rfl hf rfl

end Sys2Proof.Machine
end

