-- ==== Sys2Proof/Laws/KeepVaultOps.lean ====
section
/-! SUPPORT. What the operations of `VaultOps` leave alone. -/

namespace Sys2Proof.Machine

set_option linter.unusedTactic false
set_option linter.unreachableTactic false
set_option linter.unusedSimpArgs false

variable {C : Prop} {M : Mark}

theorem deriveSlots_kept (s : State) (h : Kept C M s) (hk : M.slots = none) : Kept C M (deriveSlots s) := by
  unfold deriveSlots
  (try dsimp only)
  repeat' first
    | (with_reducible assumption) | (with_reducible apply setSlot_kept) | (with_reducible refine kept_fold ?_ _ _ ?_)
    | (with_reducible refine kept_fold_2 ?_ _ _ ?_) | (with_reducible refine kept_fold_1 ?_ _ _ ?_) | intro _
    | (simp only [kept_lit]) | (with_reducible apply kept_parts) | (with_reducible refine parts_slots ?_ hk _)
    | (with_reducible refine kept_ite ?_ ?_) | (dsimp only [id_eq]) | split

theorem loadFuseKey_kept (s : State) (h : Kept C M s) (hk : M.slots = none) : Kept C M (loadFuseKey s) := by
  unfold loadFuseKey
  (try dsimp only)
  repeat' first
    | (with_reducible assumption) | (with_reducible apply setSlot_kept) | (with_reducible refine kept_fold ?_ _ _ ?_)
    | (with_reducible refine kept_fold_2 ?_ _ _ ?_) | (with_reducible refine kept_fold_1 ?_ _ _ ?_) | intro _
    | (simp only [kept_lit]) | (with_reducible apply kept_parts) | (with_reducible refine parts_slots ?_ hk _)
    | (with_reducible refine kept_ite ?_ ?_) | (dsimp only [id_eq]) | split

theorem signBy_kept (s : State) (k : ℕ) (m : List Byte) (h : Kept C M s) : Kept C M (signBy s k m).2 := by
  unfold signBy
  (try dsimp only)
  repeat' first
    | (with_reducible assumption) | (with_reducible apply draw_kept) | (with_reducible refine kept_fold ?_ _ _ ?_)
    | (with_reducible refine kept_fold_2 ?_ _ _ ?_) | (with_reducible refine kept_fold_1 ?_ _ _ ?_) | intro _
    | (simp only [kept_lit]) | (with_reducible apply kept_parts)
    | (with_reducible refine kept_of_eq_2 ‹draw _ = _› (draw_kept _ ?_)) | (with_reducible refine kept_ite ?_ ?_)
    | (dsimp only [id_eq]) | split

theorem signature_kept (s : State) (m : List Byte) (h : Kept C M s) : Kept C M (signature s m).2 := by
  unfold signature
  (try dsimp only)
  repeat' first
    | (with_reducible assumption) | (with_reducible apply signBy_kept) | (with_reducible refine kept_fold ?_ _ _ ?_)
    | (with_reducible refine kept_fold_2 ?_ _ _ ?_) | (with_reducible refine kept_fold_1 ?_ _ _ ?_) | intro _
    | (simp only [kept_lit]) | (with_reducible apply kept_parts)
    | (with_reducible refine kept_of_eq_2 ‹signBy _ _ _ = _› (signBy_kept _ _ _ ?_)) | (with_reducible refine kept_ite ?_ ?_)
    | (dsimp only [id_eq]) | split

theorem setEng_kept (s : State) (e : ℕ) (x : Eng) (h : Kept C M s) : Kept C M (setEng s e x) := by
  unfold setEng
  (try dsimp only)
  repeat' first
    | (with_reducible assumption) | (with_reducible refine kept_fold ?_ _ _ ?_)
    | (with_reducible refine kept_fold_2 ?_ _ _ ?_) | (with_reducible refine kept_fold_1 ?_ _ _ ?_) | intro _
    | (simp only [kept_lit]) | (with_reducible apply kept_parts) | (with_reducible refine kept_ite ?_ ?_)
    | (dsimp only [id_eq]) | split

theorem setJobOn_kept (s : State) (b : ℕ) (v : Bool) (h : Kept C M s) : Kept C M (setJobOn s b v) := by
  unfold setJobOn
  (try dsimp only)
  repeat' first
    | (with_reducible assumption) | (with_reducible refine kept_fold ?_ _ _ ?_)
    | (with_reducible refine kept_fold_2 ?_ _ _ ?_) | (with_reducible refine kept_fold_1 ?_ _ _ ?_) | intro _
    | (simp only [kept_lit]) | (with_reducible apply kept_parts) | (with_reducible refine kept_ite ?_ ?_)
    | (dsimp only [id_eq]) | split

theorem completeJob_kept (s : State) (e : ℕ) (vault : Bool) (d : BulkDesc) (st : Status) (cflags : ℕ) (done : ℕ) (fault : ℕ) (h : Kept C M s) : Kept C M (completeJob s e vault d st cflags done fault) := by
  unfold completeJob
  (try dsimp only)
  repeat' first
    | (with_reducible assumption) | (with_reducible apply setEng_kept) | (with_reducible apply statInc_kept)
    | (with_reducible apply setJobOn_kept) | (with_reducible apply dmaWrite_kept) | (with_reducible apply setFld_kept)
    | (with_reducible apply raise_kept) | (with_reducible refine kept_fold ?_ _ _ ?_)
    | (with_reducible refine kept_fold_2 ?_ _ _ ?_) | (with_reducible refine kept_fold_1 ?_ _ _ ?_) | intro _
    | (simp only [kept_lit]) | (with_reducible apply kept_parts)
    | (with_reducible refine kept_of_eq_2 ‹dmaWrite _ _ _ = _› (dmaWrite_kept _ _ _ ?_))
    | (with_reducible refine kept_ite ?_ ?_) | (dsimp only [id_eq]) | split

theorem loseKey_kept (t0 : ℕ) (s : State) (e : ℕ) (h : Kept C M s) : Kept C M (loseKey t0 s e) := by
  unfold loseKey
  (try dsimp only)
  repeat' first
    | (with_reducible assumption) | (with_reducible apply draw_kept) | (with_reducible apply completeJob_kept)
    | (with_reducible refine kept_fold ?_ _ _ ?_) | (with_reducible refine kept_fold_2 ?_ _ _ ?_)
    | (with_reducible refine kept_fold_1 ?_ _ _ ?_) | intro _ | (simp only [kept_lit]) | (with_reducible apply kept_parts)
    | (with_reducible refine kept_of_eq_2 ‹draw _ = _› (draw_kept _ ?_)) | (with_reducible refine kept_ite ?_ ?_)
    | (dsimp only [id_eq]) | split

theorem dropCached_kept (s : State) (t0 : ℕ) (h : Kept C M s) : Kept C M (dropCached s t0) := by
  unfold dropCached
  (try dsimp only)
  repeat' first
    | (with_reducible assumption) | (with_reducible refine kept_fold ?_ _ _ ?_)
    | (with_reducible refine kept_fold_2 ?_ _ _ ?_) | (with_reducible refine kept_fold_1 ?_ _ _ ?_) | intro _
    | (simp only [kept_lit]) | (with_reducible apply kept_parts) | (with_reducible refine kept_ite ?_ ?_)
    | (dsimp only [id_eq]) | split

theorem keyChanged_kept (s : State) (t0 : ℕ) (h : Kept C M s) : Kept C M (keyChanged s t0) := by
  unfold keyChanged
  (try dsimp only)
  repeat' first
    | (with_reducible assumption) | (with_reducible apply dropCached_kept) | (with_reducible apply loseKey_kept)
    | (with_reducible refine kept_fold ?_ _ _ ?_) | (with_reducible refine kept_fold_2 ?_ _ _ ?_)
    | (with_reducible refine kept_fold_1 ?_ _ _ ?_) | intro _ | (simp only [kept_lit]) | (with_reducible apply kept_parts)
    | (with_reducible refine kept_ite ?_ ?_) | (dsimp only [id_eq]) | split

theorem closeForKey_kept (s : State) (t0 : ℕ) (h : Kept C M s) : Kept C M (closeForKey s t0) := by
  unfold closeForKey
  (try dsimp only)
  repeat' first
    | (with_reducible assumption) | (with_reducible apply closeSession_kept) | (with_reducible refine kept_fold ?_ _ _ ?_)
    | (with_reducible refine kept_fold_2 ?_ _ _ ?_) | (with_reducible refine kept_fold_1 ?_ _ _ ?_) | intro _
    | (simp only [kept_lit]) | (with_reducible apply kept_parts) | (with_reducible refine kept_ite ?_ ?_)
    | (dsimp only [id_eq]) | split

theorem wantRandom_kept (s : State) (h : Kept C M s) : Kept C M (wantRandom s).2 := by
  unfold wantRandom
  (try dsimp only)
  repeat' first
    | (with_reducible assumption) | (with_reducible apply raise_kept) | (with_reducible refine kept_fold ?_ _ _ ?_)
    | (with_reducible refine kept_fold_2 ?_ _ _ ?_) | (with_reducible refine kept_fold_1 ?_ _ _ ?_) | intro _
    | (simp only [kept_lit]) | (with_reducible apply kept_parts) | (with_reducible refine kept_ite ?_ ?_)
    | (dsimp only [id_eq]) | split

theorem memWipe_kept (s : State) (h : Kept C M s) : Kept C M (memWipe s) :=
  kept_stores h id (fun hm => tabWfFrom_filter _ hm) rfl (.inr rfl) (.inr rfl) id

theorem tamperNow_kept (s : State) (src : ℕ) (h : Kept C M s) (hk : M.slots = none) : Kept C M (tamperNow s src) := by
  unfold tamperNow
  (try dsimp only)
  repeat' first
    | (with_reducible assumption) | (with_reducible apply memWipe_kept) | (with_reducible apply orReg_kept)
    | (with_reducible apply zeroKeys_kept) | (with_reducible apply closeAll_kept) | (with_reducible apply causeArises_kept)
    | (with_reducible refine kept_fold ?_ _ _ ?_) | (with_reducible refine kept_fold_2 ?_ _ _ ?_)
    | (with_reducible refine kept_fold_1 ?_ _ _ ?_) | intro _ | (simp only [kept_lit]) | (with_reducible apply kept_parts)
    | (with_reducible refine parts_slots ?_ hk _) | (with_reducible refine kept_ite ?_ ?_) | (dsimp only [id_eq]) | split

theorem storeRecordOf_kept (s : State) (h : Kept C M s) : Kept C M (storeRecordOf s) := by
  unfold storeRecordOf
  (try dsimp only)
  repeat' first
    | (with_reducible assumption) | (with_reducible apply draw_kept) | (with_reducible refine kept_fold ?_ _ _ ?_)
    | (with_reducible refine kept_fold_2 ?_ _ _ ?_) | (with_reducible refine kept_fold_1 ?_ _ _ ?_) | intro _
    | (simp only [kept_lit]) | (with_reducible apply kept_parts) | (with_reducible refine kept_ite ?_ ?_)
    | (dsimp only [id_eq]) | split

end Sys2Proof.Machine
end

