-- ==== Sys2Proof/Laws/KeepCipher.lean ====
section
/-! SUPPORT. What the operations of `Cipher` leave alone. -/

namespace Sys2Proof.Machine

set_option linter.unusedTactic false
set_option linter.unreachableTactic false
set_option linter.unusedSimpArgs false

variable {C : Prop} {M : Mark}

theorem sqTailSet_kept (s : State) (e : ℕ) (idx : ℕ) (jobIds : List Word) (h : Kept C M s) : Kept C M (sqTailSet s e idx jobIds) := by
  unfold sqTailSet
  (try dsimp only)
  repeat' first
    | (with_reducible assumption) | (with_reducible apply setFld_kept) | (with_reducible apply completeJob_kept)
    | (with_reducible apply setEng_kept) | (with_reducible refine kept_fold ?_ _ _ ?_)
    | (with_reducible refine kept_fold_2 ?_ _ _ ?_) | (with_reducible refine kept_fold_1 ?_ _ _ ?_) | intro _
    | (simp only [kept_lit]) | (with_reducible apply kept_parts) | (with_reducible refine kept_ite ?_ ?_)
    | (dsimp only [id_eq]) | split

theorem execCiphSqTailWrite_kept (e : Fin 2) (idx : BitVec 12) (jobIds : List Word) (s : State) (h : Kept C M s) : ∃ t, execCiphSqTailWrite e idx jobIds s = .next t ∧ Kept C M t := by
  unfold execCiphSqTailWrite
  refine ⟨_, rfl, ?_⟩
  (try dsimp only)
  repeat' first
    | (with_reducible assumption) | (with_reducible apply whenRunning_kept) | (with_reducible apply begin__kept)
    | (with_reducible apply sqTailSet_kept) | (with_reducible refine kept_fold ?_ _ _ ?_)
    | (with_reducible refine kept_fold_2 ?_ _ _ ?_) | (with_reducible refine kept_fold_1 ?_ _ _ ?_) | intro _
    | (simp only [kept_lit]) | (with_reducible apply kept_parts) | (with_reducible refine kept_ite ?_ ?_)
    | (dsimp only [id_eq]) | split

theorem startNormal_kept (s : State) (e : ℕ) (d : BulkDesc) (h : Kept C M s) : Kept C M (startNormal s e d) := by
  unfold startNormal
  (try dsimp only)
  repeat' first
    | (with_reducible assumption) | (with_reducible apply completeJob_kept) | (with_reducible apply refuse_kept)
    | (with_reducible apply setJobOn_kept) | (with_reducible apply setEng_kept) | (with_reducible refine kept_fold ?_ _ _ ?_)
    | (with_reducible refine kept_fold_2 ?_ _ _ ?_) | (with_reducible refine kept_fold_1 ?_ _ _ ?_) | intro _
    | (simp only [kept_lit]) | (with_reducible apply kept_parts) | (with_reducible refine kept_ite ?_ ?_)
    | (dsimp only [id_eq]) | split

theorem startVault_kept (s : State) (e : ℕ) (d : BulkDesc) (h : Kept C M s) : Kept C M (startVault s e d) := by
  unfold startVault
  (try dsimp only)
  repeat' first
    | (with_reducible assumption) | (with_reducible apply completeJob_kept) | (with_reducible apply setEng_kept)
    | (with_reducible refine kept_fold ?_ _ _ ?_) | (with_reducible refine kept_fold_2 ?_ _ _ ?_)
    | (with_reducible refine kept_fold_1 ?_ _ _ ?_) | intro _ | (simp only [kept_lit]) | (with_reducible apply kept_parts)
    | (with_reducible refine kept_ite ?_ ?_) | (dsimp only [id_eq]) | split

theorem execBulkJobStart_kept (e : Fin 2) (vault : Bool) (desc : BulkDesc) (s : State) (h : Kept C M s) : ∃ t, execBulkJobStart e vault desc s = .next t ∧ Kept C M t := by
  unfold execBulkJobStart
  refine ⟨_, rfl, ?_⟩
  (try dsimp only)
  repeat' first
    | (with_reducible assumption) | (with_reducible apply whenRunning_kept) | (with_reducible apply begin__kept)
    | (with_reducible apply startVault_kept) | (with_reducible apply setEng_kept) | (with_reducible apply setFld_kept)
    | (with_reducible apply startNormal_kept) | (with_reducible refine kept_fold ?_ _ _ ?_)
    | (with_reducible refine kept_fold_2 ?_ _ _ ?_) | (with_reducible refine kept_fold_1 ?_ _ _ ?_) | intro _
    | (simp only [kept_lit]) | (with_reducible apply kept_parts) | (with_reducible refine kept_ite ?_ ?_)
    | (dsimp only [id_eq]) | split

theorem jobOut_kept (s : State) (j : Job) (a : BitVec 64) (b : List Byte) (h : Kept C M s) : Kept C M (jobOut s j a b) := by
  unfold jobOut
  (try dsimp only)
  repeat' first
    | (with_reducible assumption) | (with_reducible apply dmaWrite_kept) | (with_reducible refine kept_fold ?_ _ _ ?_)
    | (with_reducible refine kept_fold_2 ?_ _ _ ?_) | (with_reducible refine kept_fold_1 ?_ _ _ ?_) | intro _
    | (simp only [kept_lit]) | (with_reducible apply kept_parts)
    | (with_reducible refine kept_of_eq_2 ‹dmaWrite _ _ _ = _› (dmaWrite_kept _ _ _ ?_))
    | (with_reducible refine kept_ite ?_ ?_) | (dsimp only [id_eq]) | split

theorem execBulkJobComplete_kept (e : Fin 2) (m : JobInput) (s : State) (h : Kept C M s) : ∃ t, execBulkJobComplete e m s = .next t ∧ Kept C M t := by
  unfold execBulkJobComplete
  refine ⟨_, rfl, ?_⟩
  (try dsimp only)
  repeat' first
    | (with_reducible assumption) | (with_reducible apply whenRunning_kept) | (with_reducible apply begin__kept)
    | (with_reducible apply dmaGood_kept) | (with_reducible apply jobOut_kept) | (with_reducible apply completeJob_kept)
    | (with_reducible refine kept_fold ?_ _ _ ?_) | (with_reducible refine kept_fold_2 ?_ _ _ ?_)
    | (with_reducible refine kept_fold_1 ?_ _ _ ?_) | intro _ | (simp only [kept_lit]) | (with_reducible apply kept_parts)
    | (with_reducible refine kept_ite ?_ ?_) | (dsimp only [id_eq]) | split

theorem kctlSet_kept (s : State) (e : ℕ) (w : Word) (h : Kept C M s) : Kept C M (kctlSet s e w) := by
  unfold kctlSet
  (try dsimp only)
  repeat' first
    | (with_reducible assumption) | (with_reducible apply raise_kept) | (with_reducible apply wr_kept)
    | (with_reducible apply setFld_kept) | (with_reducible apply setEng_kept) | (with_reducible refine kept_fold ?_ _ _ ?_)
    | (with_reducible refine kept_fold_2 ?_ _ _ ?_) | (with_reducible refine kept_fold_1 ?_ _ _ ?_) | intro _
    | (simp only [kept_lit]) | (with_reducible apply kept_parts) | (with_reducible refine kept_ite ?_ ?_)
    | (dsimp only [id_eq]) | split

theorem execCiphKctlWrite_kept (e : Fin 2) (w : Word) (s : State) (h : Kept C M s) : ∃ t, execCiphKctlWrite e w s = .next t ∧ Kept C M t := by
  unfold execCiphKctlWrite
  refine ⟨_, rfl, ?_⟩
  (try dsimp only)
  repeat' first
    | (with_reducible assumption) | (with_reducible apply whenRunning_kept) | (with_reducible apply begin__kept)
    | (with_reducible apply kctlSet_kept) | (with_reducible refine kept_fold ?_ _ _ ?_)
    | (with_reducible refine kept_fold_2 ?_ _ _ ?_) | (with_reducible refine kept_fold_1 ?_ _ _ ?_) | intro _
    | (simp only [kept_lit]) | (with_reducible apply kept_parts) | (with_reducible refine kept_ite ?_ ?_)
    | (dsimp only [id_eq]) | split

theorem keywSet_kept (s : State) (e : ℕ) (k : ℕ) (w : Word) (h : Kept C M s) : Kept C M (keywSet s e k w) := by
  unfold keywSet
  (try dsimp only)
  repeat' first
    | (with_reducible assumption) | (with_reducible apply wr_kept) | (with_reducible apply setEng_kept)
    | (with_reducible apply setFld_kept) | (with_reducible refine kept_fold ?_ _ _ ?_)
    | (with_reducible refine kept_fold_2 ?_ _ _ ?_) | (with_reducible refine kept_fold_1 ?_ _ _ ?_) | intro _
    | (simp only [kept_lit]) | (with_reducible apply kept_parts) | (with_reducible refine kept_ite ?_ ?_)
    | (dsimp only [id_eq]) | split

theorem execCiphKeywWrite_kept (e : Fin 2) (k : Fin 8) (w : Word) (s : State) (h : Kept C M s) : ∃ t, execCiphKeywWrite e k w s = .next t ∧ Kept C M t := by
  unfold execCiphKeywWrite
  refine ⟨_, rfl, ?_⟩
  (try dsimp only)
  repeat' first
    | (with_reducible assumption) | (with_reducible apply whenRunning_kept) | (with_reducible apply begin__kept)
    | (with_reducible apply keywSet_kept) | (with_reducible refine kept_fold ?_ _ _ ?_)
    | (with_reducible refine kept_fold_2 ?_ _ _ ?_) | (with_reducible refine kept_fold_1 ?_ _ _ ?_) | intro _
    | (simp only [kept_lit]) | (with_reducible apply kept_parts) | (with_reducible refine kept_ite ?_ ?_)
    | (dsimp only [id_eq]) | split

theorem execStoreJob_kept (slot : BitVec 9) (first : BitVec 64) (run : Sectors) (decrypt : Bool) (s : State) (h : Kept C M s) : ∃ t, execStoreJob slot first run decrypt s = .next t ∧ Kept C M t := by
  unfold execStoreJob
  refine ⟨_, rfl, ?_⟩
  (try dsimp only)
  repeat' first
    | (with_reducible assumption) | (with_reducible apply whenRunning_kept) | (with_reducible apply begin__kept)
    | (with_reducible refine kept_fold ?_ _ _ ?_) | (with_reducible refine kept_fold_2 ?_ _ _ ?_)
    | (with_reducible refine kept_fold_1 ?_ _ _ ?_) | intro _ | (simp only [kept_lit]) | (with_reducible apply kept_parts)
    | (with_reducible refine kept_ite ?_ ?_) | (dsimp only [id_eq]) | split

theorem execEngineWd_kept (e : Fin 4) (s : State) (h : Kept C M s) : ∃ t, execEngineWd e s = .next t ∧ Kept C M t := by
  unfold execEngineWd
  refine ⟨_, rfl, ?_⟩
  (try dsimp only)
  repeat' first
    | (with_reducible assumption) | (with_reducible apply whenRunning_kept) | (with_reducible apply begin__kept)
    | (with_reducible apply draw_kept) | (with_reducible apply completeJob_kept) | (with_reducible apply releaseBlock_kept)
    | (with_reducible apply statInc_kept) | (with_reducible apply queueEntry_kept) | (with_reducible apply raise_kept)
    | (with_reducible apply causeArises_kept) | (with_reducible refine kept_fold ?_ _ _ ?_)
    | (with_reducible refine kept_fold_2 ?_ _ _ ?_) | (with_reducible refine kept_fold_1 ?_ _ _ ?_) | intro _
    | (simp only [kept_lit]) | (with_reducible apply kept_parts)
    | (with_reducible refine kept_of_eq_2 ‹draw _ = _› (draw_kept _ ?_)) | (with_reducible refine kept_ite ?_ ?_)
    | (dsimp only [id_eq]) | split

theorem execLaSave_kept (s : State) (h : Kept C M s) : ∃ t, execLaSave s = .next t ∧ Kept C M t := by
  unfold execLaSave
  refine ⟨_, rfl, ?_⟩
  (try dsimp only)
  repeat' first
    | (with_reducible assumption) | (with_reducible apply whenRunning_kept) | (with_reducible apply begin__kept)
    | (with_reducible apply laSaveNow_kept) | (with_reducible refine kept_fold ?_ _ _ ?_)
    | (with_reducible refine kept_fold_2 ?_ _ _ ?_) | (with_reducible refine kept_fold_1 ?_ _ _ ?_) | intro _
    | (simp only [kept_lit]) | (with_reducible apply kept_parts) | (with_reducible refine kept_ite ?_ ?_)
    | (dsimp only [id_eq]) | split

theorem applyLa_kept (prof : ℕ) (img : List Word) (s : State) (h : Kept C M s) : Kept C M (applyLa prof img s) := by
  unfold applyLa
  (try dsimp only)
  repeat' first
    | (with_reducible assumption) | (with_reducible apply schedule_kept) | (with_reducible refine kept_fold ?_ _ _ ?_)
    | (with_reducible refine kept_fold_2 ?_ _ _ ?_) | (with_reducible refine kept_fold_1 ?_ _ _ ?_) | intro _
    | (simp only [kept_lit]) | (with_reducible apply kept_parts) | (with_reducible refine kept_ite ?_ ?_)
    | (dsimp only [id_eq]) | split

theorem execLaConfig_kept (r : Req) (prof : BitVec 16) (img : List Word) (s : State) (h : Kept C M s) (hm : M.map = none) : ∃ t, execLaConfig r prof img s = .next t ∧ Kept C M t := by
  unfold execLaConfig
  refine ⟨_, rfl, ?_⟩
  (try dsimp only)
  repeat' first
    | (with_reducible assumption) | (with_reducible apply dispatch_kept) | (with_reducible apply cfgPlan_planKept)
    | (with_reducible apply applyLa_kept) | (with_reducible refine kept_fold ?_ _ _ ?_)
    | (with_reducible refine kept_fold_2 ?_ _ _ ?_) | (with_reducible refine kept_fold_1 ?_ _ _ ?_) | intro _
    | (simp only [kept_lit]) | (with_reducible apply kept_parts) | (with_reducible refine parts_map ?_ hm _)
    | (with_reducible apply begin__kept) | (with_reducible refine kept_ite ?_ ?_) | (dsimp only [id_eq]) | split
    | (with_reducible refine plan_mk ?_)

end Sys2Proof.Machine
end

