-- ==== Sys2Proof/Laws/KeepResets.lean ====
section
/-! SUPPORT. What the operations of `Resets` leave alone. -/

namespace Sys2Proof.Machine

set_option linter.unusedTactic false
set_option linter.unreachableTactic false
set_option linter.unusedSimpArgs false

variable {C : Prop} {M : Mark}

theorem setVbat_kept (s : State) (mv : ℕ) (h : Kept C M s) : Kept C M (setVbat s mv) := by
  unfold setVbat
  (try dsimp only)
  repeat' first
    | (with_reducible assumption) | (with_reducible refine kept_fold ?_ _ _ ?_)
    | (with_reducible refine kept_fold_2 ?_ _ _ ?_) | (with_reducible refine kept_fold_1 ?_ _ _ ?_) | intro _
    | (simp only [kept_lit]) | (with_reducible apply kept_parts) | (with_reducible refine kept_ite ?_ ?_)
    | (dsimp only [id_eq]) | split

theorem halve_kept (s : State) (h : Kept C M s) : Kept C M (halve s) :=
  kept_stores h id id rfl (.inr rfl) (.inr rfl) (fun _ => Nat.min_le_left _ _)

theorem sagHit_kept (s : State) (h : Kept C M s) : Kept C M (sagHit s) := by
  unfold sagHit
  (try dsimp only)
  repeat' first
    | (with_reducible assumption) | (with_reducible apply halve_kept) | (with_reducible apply statInc_kept)
    | (with_reducible refine kept_fold ?_ _ _ ?_) | (with_reducible refine kept_fold_2 ?_ _ _ ?_)
    | (with_reducible refine kept_fold_1 ?_ _ _ ?_) | intro _ | (simp only [kept_lit]) | (with_reducible apply kept_parts)
    | (with_reducible refine kept_ite ?_ ?_) | (dsimp only [id_eq]) | split

theorem volatileOver_kept (s : State) (h : Kept C M s) : Kept C M (volatileOver s) :=
  kept_stores h id id rfl (.inr rfl) (.inr rfl) (fun _ => Nat.zero_le _)

theorem sagAfter_kept (s : State) (h : Kept C M s) : Kept C M (sagAfter s) := by
  unfold sagAfter
  (try dsimp only)
  repeat' first
    | (with_reducible assumption) | (with_reducible apply sagHit_kept) | (with_reducible refine kept_fold ?_ _ _ ?_)
    | (with_reducible refine kept_fold_2 ?_ _ _ ?_) | (with_reducible refine kept_fold_1 ?_ _ _ ?_) | intro _
    | (simp only [kept_lit]) | (with_reducible apply kept_parts) | (with_reducible refine kept_ite ?_ ?_)
    | (dsimp only [id_eq]) | split

theorem coldCore_kept (s : State) (h : Kept C M s) (hb : M.beat = none) : Kept C M (coldCore s) := by
  unfold coldCore
  apply sagAfter_kept
  exact kept_stores (volatileOver_kept s h) (rfReset_wf _) id rfl (.inr rfl) (.inl hb) id

theorem domsWarm_kept (s : State) (h : Kept C M s) : Kept C M (domsWarm s) := by
  unfold domsWarm
  (try dsimp only)
  repeat' first
    | (with_reducible assumption) | (with_reducible apply raise_kept) | (with_reducible refine kept_fold ?_ _ _ ?_)
    | (with_reducible refine kept_fold_2 ?_ _ _ ?_) | (with_reducible refine kept_fold_1 ?_ _ _ ?_) | intro _
    | (simp only [kept_lit]) | (with_reducible apply kept_parts) | (with_reducible refine kept_ite ?_ ?_)
    | (dsimp only [id_eq]) | split

theorem trgWarm_kept (old : State) (s : State) (h : Kept C M old) (h_s : Kept C M s) : Kept C M (trgWarm old s) := by
  unfold trgWarm
  (try dsimp only)
  repeat' first
    | (with_reducible assumption) | (with_reducible apply wr_kept) | (with_reducible refine kept_fold ?_ _ _ ?_)
    | (with_reducible refine kept_fold_2 ?_ _ _ ?_) | (with_reducible refine kept_fold_1 ?_ _ _ ?_) | intro _
    | (simp only [kept_lit]) | (with_reducible apply kept_parts) | (with_reducible refine kept_ite ?_ ?_)
    | (dsimp only [id_eq]) | split

theorem warmCore_kept (s0 : State) (h : Kept C M s0) : Kept C M (warmCore s0) := by
  unfold warmCore
  apply sagAfter_kept
  apply lanesFollow_kept
  apply trgWarm_kept _ _ h
  apply domsWarm_kept
  exact kept_stores (volatileOver_kept s0 h) (rfReset_wf _) id rfl (.inr rfl) (.inr rfl) id

theorem vbkpLost_kept (s : State) (h : Kept C M s) (hc : M.clock = none) (ho : M.odo = none) (hs : M.seq = none)
    (hk : M.slots = none) : Kept C M (vbkpLost s) :=
  kept_any h rfVbkpLoss_wf id rfl (.inl hc) (.inr rfl) id (.inl hs) (.inr rfl) (.inl hk)
    (fun _ => ⟨Nat.zero_le _, .inl ho⟩)

end Sys2Proof.Machine
end

