-- ==== Sys2Proof/Laws/KeepPower.lean ====
section
/-! SUPPORT. What the operations of `Power` leave alone. -/

namespace Sys2Proof.Machine

set_option linter.unusedTactic false
set_option linter.unreachableTactic false
set_option linter.unusedSimpArgs false

variable {C : Prop} {M : Mark}

theorem startCore_kept (s : State) (h : Kept C M s) (hb : M.beat = none) : Kept C M (startCore s) := by
  unfold startCore
  (try dsimp only)
  repeat' first
    | (with_reducible assumption) | (with_reducible apply coldCore_kept) | (with_reducible apply railOn_kept)
    | (with_reducible refine kept_fold ?_ _ _ ?_) | (with_reducible refine kept_fold_2 ?_ _ _ ?_)
    | (with_reducible refine kept_fold_1 ?_ _ _ ?_) | intro _ | (simp only [kept_lit]) | (with_reducible apply kept_parts)
    | (with_reducible refine kept_ite ?_ ?_) | (dsimp only [id_eq]) | split

theorem noteWake_kept (s : State) (src : ℕ) (h : Kept C M s) : Kept C M (noteWake s src) := by
  unfold noteWake
  (try dsimp only)
  repeat' first
    | (with_reducible assumption) | (with_reducible apply orReg_kept) | (with_reducible refine kept_fold ?_ _ _ ?_)
    | (with_reducible refine kept_fold_2 ?_ _ _ ?_) | (with_reducible refine kept_fold_1 ?_ _ _ ?_) | intro _
    | (simp only [kept_lit]) | (with_reducible apply kept_parts) | (with_reducible refine kept_ite ?_ ?_)
    | (dsimp only [id_eq]) | split

theorem wakeBy_kept (s : State) (src : ℕ) (h : Kept C M s) (hb : M.beat = none) : Kept C M (wakeBy s src) := by
  unfold wakeBy
  (try dsimp only)
  repeat' first
    | (with_reducible assumption) | (with_reducible apply noteWake_kept) | (with_reducible apply startCore_kept)
    | (with_reducible apply sleepTo_kept) | (with_reducible refine kept_fold ?_ _ _ ?_)
    | (with_reducible refine kept_fold_2 ?_ _ _ ?_) | (with_reducible refine kept_fold_1 ?_ _ _ ?_) | intro _
    | (simp only [kept_lit]) | (with_reducible apply kept_parts) | (with_reducible refine kept_ite ?_ ?_)
    | (dsimp only [id_eq]) | split

theorem execFieldWake_kept (vbat : ℕ) (s : State) (h : Kept C M s) (hb : M.beat = none) : ∃ t, execFieldWake vbat s = .next t ∧ Kept C M t := by
  unfold execFieldWake
  refine ⟨_, rfl, ?_⟩
  (try dsimp only)
  repeat' first
    | (with_reducible assumption) | (with_reducible apply begin__kept) | (with_reducible apply wakeBy_kept)
    | (with_reducible apply setVbat_kept) | (with_reducible refine kept_fold ?_ _ _ ?_)
    | (with_reducible refine kept_fold_2 ?_ _ _ ?_) | (with_reducible refine kept_fold_1 ?_ _ _ ?_) | intro _
    | (simp only [kept_lit]) | (with_reducible apply kept_parts) | (with_reducible refine kept_ite ?_ ?_)
    | (dsimp only [id_eq]) | split

theorem alarmFire_kept (s : State) (h : Kept C M s) (hb : M.beat = none) : Kept C M (alarmFire s) := by
  unfold alarmFire
  (try dsimp only)
  repeat' first
    | (with_reducible assumption) | (with_reducible apply wr_kept) | (with_reducible apply wakeBy_kept)
    | (with_reducible refine kept_fold ?_ _ _ ?_) | (with_reducible refine kept_fold_2 ?_ _ _ ?_)
    | (with_reducible refine kept_fold_1 ?_ _ _ ?_) | intro _ | (simp only [kept_lit]) | (with_reducible apply kept_parts)
    | (with_reducible refine kept_ite ?_ ?_) | (dsimp only [id_eq]) | split

theorem execAlarmWake_kept (s : State) (h : Kept C M s) (hb : M.beat = none) : ∃ t, execAlarmWake s = .next t ∧ Kept C M t := by
  unfold execAlarmWake
  refine ⟨_, rfl, ?_⟩
  (try dsimp only)
  repeat' first
    | (with_reducible assumption) | (with_reducible apply begin__kept) | (with_reducible apply alarmFire_kept)
    | (with_reducible refine kept_fold ?_ _ _ ?_) | (with_reducible refine kept_fold_2 ?_ _ _ ?_)
    | (with_reducible refine kept_fold_1 ?_ _ _ ?_) | intro _ | (simp only [kept_lit]) | (with_reducible apply kept_parts)
    | (with_reducible refine kept_ite ?_ ?_) | (dsimp only [id_eq]) | split

theorem execVbatRiseSample_kept (mv : ℕ) (s : State) (h : Kept C M s) (hb : M.beat = none) : ∃ t, execVbatRiseSample mv s = .next t ∧ Kept C M t := by
  unfold execVbatRiseSample
  refine ⟨_, rfl, ?_⟩
  (try dsimp only)
  repeat' first
    | (with_reducible assumption) | (with_reducible apply begin__kept) | (with_reducible apply setVbat_kept)
    | (with_reducible apply wakeBy_kept) | (with_reducible refine kept_fold ?_ _ _ ?_)
    | (with_reducible refine kept_fold_2 ?_ _ _ ?_) | (with_reducible refine kept_fold_1 ?_ _ _ ?_) | intro _
    | (simp only [kept_lit]) | (with_reducible apply kept_parts) | (with_reducible refine kept_ite ?_ ?_)
    | (dsimp only [id_eq]) | split

theorem execWinWake_kept (pin : Fin 4) (s : State) (h : Kept C M s) (hb : M.beat = none) : ∃ t, execWinWake pin s = .next t ∧ Kept C M t := by
  unfold execWinWake
  refine ⟨_, rfl, ?_⟩
  (try dsimp only)
  repeat' first
    | (with_reducible assumption) | (with_reducible apply begin__kept) | (with_reducible apply wakeBy_kept)
    | (with_reducible refine kept_fold ?_ _ _ ?_) | (with_reducible refine kept_fold_2 ?_ _ _ ?_)
    | (with_reducible refine kept_fold_1 ?_ _ _ ?_) | intro _ | (simp only [kept_lit]) | (with_reducible apply kept_parts)
    | (with_reducible refine kept_ite ?_ ?_) | (dsimp only [id_eq]) | split

theorem laneWakeRecord_kept (s : State) (n : ℕ) (e : LaneWakeEvt) (h : Kept C M s) : Kept C M (laneWakeRecord s n e) := by
  unfold laneWakeRecord
  (try dsimp only)
  repeat' first
    | (with_reducible assumption) | (with_reducible apply wr_kept) | (with_reducible apply draw_kept)
    | (with_reducible refine kept_fold ?_ _ _ ?_) | (with_reducible refine kept_fold_2 ?_ _ _ ?_)
    | (with_reducible refine kept_fold_1 ?_ _ _ ?_) | intro _ | (simp only [kept_lit]) | (with_reducible apply kept_parts)
    | (with_reducible refine kept_of_eq_2 ‹draw _ = _› (draw_kept _ ?_)) | (with_reducible refine kept_ite ?_ ?_)
    | (dsimp only [id_eq]) | split

theorem noteLaneWake_kept (s : State) (n : ℕ) (e : LaneWakeEvt) (h : Kept C M s) : Kept C M (noteLaneWake s n e) := by
  unfold noteLaneWake
  (try dsimp only)
  repeat' first
    | (with_reducible assumption) | (with_reducible apply laneWakeRecord_kept) | (with_reducible refine kept_fold ?_ _ _ ?_)
    | (with_reducible refine kept_fold_2 ?_ _ _ ?_) | (with_reducible refine kept_fold_1 ?_ _ _ ?_) | intro _
    | (simp only [kept_lit]) | (with_reducible apply kept_parts) | (with_reducible refine kept_ite ?_ ?_)
    | (dsimp only [id_eq]) | split

theorem execLaneWake_kept (lane : Fin 96) (evt : LaneWakeEvt) (s : State) (h : Kept C M s) (hb : M.beat = none) : ∃ t, execLaneWake lane evt s = .next t ∧ Kept C M t := by
  unfold execLaneWake
  refine ⟨_, rfl, ?_⟩
  (try dsimp only)
  repeat' first
    | (with_reducible assumption) | (with_reducible apply begin__kept) | (with_reducible apply wakeBy_kept)
    | (with_reducible apply noteLaneWake_kept) | (with_reducible refine kept_fold ?_ _ _ ?_)
    | (with_reducible refine kept_fold_2 ?_ _ _ ?_) | (with_reducible refine kept_fold_1 ?_ _ _ ?_) | intro _
    | (simp only [kept_lit]) | (with_reducible apply kept_parts) | (with_reducible refine kept_ite ?_ ?_)
    | (dsimp only [id_eq]) | split

theorem execWakeReceiverFrame_kept (lane : Fin 96) (ok : Bool) (s : State) (h : Kept C M s) (hb : M.beat = none) : ∃ t, execWakeReceiverFrame lane ok s = .next t ∧ Kept C M t := by
  unfold execWakeReceiverFrame
  refine ⟨_, rfl, ?_⟩
  (try dsimp only)
  repeat' first
    | (with_reducible assumption) | (with_reducible apply begin__kept) | (with_reducible apply setLane_kept)
    | (with_reducible apply wakeBy_kept) | (with_reducible apply noteLaneWake_kept)
    | (with_reducible refine kept_fold ?_ _ _ ?_) | (with_reducible refine kept_fold_2 ?_ _ _ ?_)
    | (with_reducible refine kept_fold_1 ?_ _ _ ?_) | intro _ | (simp only [kept_lit]) | (with_reducible apply kept_parts)
    | (with_reducible refine kept_ite ?_ ?_) | (dsimp only [id_eq]) | split

theorem execWakeReceiverShort_kept (lane : Fin 96) (s : State) (h : Kept C M s) : ∃ t, execWakeReceiverShort lane s = .next t ∧ Kept C M t := by
  unfold execWakeReceiverShort
  refine ⟨_, rfl, ?_⟩
  (try dsimp only)
  repeat' first
    | (with_reducible assumption) | (with_reducible apply begin__kept) | (with_reducible apply orReg_kept)
    | (with_reducible refine kept_fold ?_ _ _ ?_) | (with_reducible refine kept_fold_2 ?_ _ _ ?_)
    | (with_reducible refine kept_fold_1 ?_ _ _ ?_) | intro _ | (simp only [kept_lit]) | (with_reducible apply kept_parts)
    | (with_reducible refine kept_ite ?_ ?_) | (dsimp only [id_eq]) | split

theorem woutRise_kept (s : State) (h : Kept C M s) : Kept C M (woutRise s) := by
  unfold woutRise
  (try dsimp only)
  repeat' first
    | (with_reducible assumption) | (with_reducible refine kept_fold ?_ _ _ ?_)
    | (with_reducible refine kept_fold_2 ?_ _ _ ?_) | (with_reducible refine kept_fold_1 ?_ _ _ ?_) | intro _
    | (simp only [kept_lit]) | (with_reducible apply kept_parts) | (with_reducible refine kept_ite ?_ ?_)
    | (dsimp only [id_eq]) | split

theorem railGood_kept (s : State) (r : ℕ) (h : Kept C M s) (hb : M.beat = none) : Kept C M (railGood s r) := by
  unfold railGood
  (try dsimp only)
  repeat' first
    | (with_reducible assumption) | (with_reducible apply coldCore_kept) | (with_reducible apply woutRise_kept)
    | (with_reducible apply orReg_kept) | (with_reducible apply railNext_kept) | (with_reducible refine kept_fold ?_ _ _ ?_)
    | (with_reducible refine kept_fold_2 ?_ _ _ ?_) | (with_reducible refine kept_fold_1 ?_ _ _ ?_) | intro _
    | (simp only [kept_lit]) | (with_reducible apply kept_parts) | (with_reducible refine kept_ite ?_ ?_)
    | (dsimp only [id_eq]) | split

theorem execRailPowerGood_kept (rail : Fin 5) (s : State) (h : Kept C M s) (hb : M.beat = none) : ∃ t, execRailPowerGood rail s = .next t ∧ Kept C M t := by
  unfold execRailPowerGood
  refine ⟨_, rfl, ?_⟩
  (try dsimp only)
  repeat' first
    | (with_reducible assumption) | (with_reducible apply begin__kept) | (with_reducible apply railGood_kept)
    | (with_reducible refine kept_fold ?_ _ _ ?_) | (with_reducible refine kept_fold_2 ?_ _ _ ?_)
    | (with_reducible refine kept_fold_1 ?_ _ _ ?_) | intro _ | (simp only [kept_lit]) | (with_reducible apply kept_parts)
    | (with_reducible refine kept_ite ?_ ?_) | (dsimp only [id_eq]) | split

theorem coreRailFail_kept (s : State) (r : ℕ) (h : Kept C M s) : Kept C M (coreRailFail s r) := by
  unfold coreRailFail
  (try dsimp only)
  repeat' first
    | (with_reducible assumption) | (with_reducible apply railOff_kept) | (with_reducible apply orReg_kept)
    | (with_reducible refine kept_fold ?_ _ _ ?_) | (with_reducible refine kept_fold_2 ?_ _ _ ?_)
    | (with_reducible refine kept_fold_1 ?_ _ _ ?_) | intro _ | (simp only [kept_lit]) | (with_reducible apply kept_parts)
    | (with_reducible refine kept_ite ?_ ?_) | (dsimp only [id_eq]) | split

theorem railCause_kept (s : State) (r : ℕ) (h : Kept C M s) : Kept C M (railCause s r) := by
  unfold railCause
  (try dsimp only)
  repeat' first
    | (with_reducible assumption) | (with_reducible apply orReg_kept) | (with_reducible apply railOff_kept)
    | (with_reducible apply railDead_kept) | (with_reducible apply causeArises_kept) | (with_reducible apply lanesFollow_kept)
    | (with_reducible refine kept_fold ?_ _ _ ?_) | (with_reducible refine kept_fold_2 ?_ _ _ ?_)
    | (with_reducible refine kept_fold_1 ?_ _ _ ?_) | intro _ | (simp only [kept_lit]) | (with_reducible apply kept_parts)
    | (with_reducible refine kept_ite ?_ ?_) | (dsimp only [id_eq]) | split

theorem execRailTimeout_kept (rail : Fin 5) (s : State) (h : Kept C M s) : ∃ t, execRailTimeout rail s = .next t ∧ Kept C M t := by
  unfold execRailTimeout
  refine ⟨_, rfl, ?_⟩
  (try dsimp only)
  repeat' first
    | (with_reducible assumption) | (with_reducible apply begin__kept) | (with_reducible apply railCause_kept)
    | (with_reducible apply coreRailFail_kept) | (with_reducible apply orReg_kept) | (with_reducible apply railDead_kept)
    | (with_reducible apply railNext_kept) | (with_reducible refine kept_fold ?_ _ _ ?_)
    | (with_reducible refine kept_fold_2 ?_ _ _ ?_) | (with_reducible refine kept_fold_1 ?_ _ _ ?_) | intro _
    | (simp only [kept_lit]) | (with_reducible apply kept_parts) | (with_reducible refine kept_ite ?_ ?_)
    | (dsimp only [id_eq]) | split

theorem execRailRetry_kept (s : State) (h : Kept C M s) : ∃ t, execRailRetry s = .next t ∧ Kept C M t := by
  unfold execRailRetry
  refine ⟨_, rfl, ?_⟩
  (try dsimp only)
  repeat' first
    | (with_reducible assumption) | (with_reducible apply begin__kept) | (with_reducible apply railOn_kept)
    | (with_reducible refine kept_fold ?_ _ _ ?_) | (with_reducible refine kept_fold_2 ?_ _ _ ?_)
    | (with_reducible refine kept_fold_1 ?_ _ _ ?_) | intro _ | (simp only [kept_lit]) | (with_reducible apply kept_parts)
    | (with_reducible refine kept_ite ?_ ?_) | (dsimp only [id_eq]) | split

theorem spillLoss_kept (s : State) (h : Kept C M s) : Kept C M (spillLoss s) := by
  unfold spillLoss
  (try dsimp only)
  repeat' first
    | (with_reducible assumption) | (with_reducible apply dropSpilled_kept) | (with_reducible apply raise_kept)
    | (with_reducible apply orReg_kept) | (with_reducible refine kept_fold ?_ _ _ ?_)
    | (with_reducible refine kept_fold_2 ?_ _ _ ?_) | (with_reducible refine kept_fold_1 ?_ _ _ ?_) | intro _
    | (simp only [kept_lit]) | (with_reducible apply kept_parts) | (with_reducible refine kept_ite ?_ ?_)
    | (dsimp only [id_eq]) | split

theorem execRailLoss_kept (rail : Fin 5) (s : State) (h : Kept C M s) : ∃ t, execRailLoss rail s = .next t ∧ Kept C M t := by
  unfold execRailLoss
  refine ⟨_, rfl, ?_⟩
  (try dsimp only)
  repeat' first
    | (with_reducible assumption) | (with_reducible apply begin__kept) | (with_reducible apply brownOut_kept)
    | (with_reducible apply orReg_kept) | (with_reducible apply spillLoss_kept) | (with_reducible apply railDead_kept)
    | (with_reducible apply railCause_kept) | (with_reducible refine kept_fold ?_ _ _ ?_)
    | (with_reducible refine kept_fold_2 ?_ _ _ ?_) | (with_reducible refine kept_fold_1 ?_ _ _ ?_) | intro _
    | (simp only [kept_lit]) | (with_reducible apply kept_parts) | (with_reducible refine kept_ite ?_ ?_)
    | (dsimp only [id_eq]) | split

theorem execBrownOut_kept (s : State) (h : Kept C M s) : ∃ t, execBrownOut s = .next t ∧ Kept C M t := by
  unfold execBrownOut
  refine ⟨_, rfl, ?_⟩
  (try dsimp only)
  repeat' first
    | (with_reducible assumption) | (with_reducible apply begin__kept) | (with_reducible apply brownOut_kept)
    | (with_reducible refine kept_fold ?_ _ _ ?_) | (with_reducible refine kept_fold_2 ?_ _ _ ?_)
    | (with_reducible refine kept_fold_1 ?_ _ _ ?_) | intro _ | (simp only [kept_lit]) | (with_reducible apply kept_parts)
    | (with_reducible refine kept_ite ?_ ?_) | (dsimp only [id_eq]) | split

theorem execFieldLossTimeout_kept (s : State) (h : Kept C M s) : ∃ t, execFieldLossTimeout s = .next t ∧ Kept C M t := by
  unfold execFieldLossTimeout
  refine ⟨_, rfl, ?_⟩
  (try dsimp only)
  repeat' first
    | (with_reducible assumption) | (with_reducible apply begin__kept) | (with_reducible apply brownOut_kept)
    | (with_reducible refine kept_fold ?_ _ _ ?_) | (with_reducible refine kept_fold_2 ?_ _ _ ?_)
    | (with_reducible refine kept_fold_1 ?_ _ _ ?_) | intro _ | (simp only [kept_lit]) | (with_reducible apply kept_parts)
    | (with_reducible refine kept_ite ?_ ?_) | (dsimp only [id_eq]) | split

theorem execVbkpLoss_kept (s : State) (h : Kept C M s) (hc : M.clock = none) (ho : M.odo = none) (hs : M.seq = none) (hk : M.slots = none) : ∃ t, execVbkpLoss s = .next t ∧ Kept C M t := by
  unfold execVbkpLoss
  refine ⟨_, rfl, ?_⟩
  (try dsimp only)
  repeat' first
    | (with_reducible assumption) | (with_reducible apply vbkpLost_kept) | (with_reducible apply begin__kept)
    | (with_reducible refine kept_fold ?_ _ _ ?_) | (with_reducible refine kept_fold_2 ?_ _ _ ?_)
    | (with_reducible refine kept_fold_1 ?_ _ _ ?_) | intro _ | (simp only [kept_lit]) | (with_reducible apply kept_parts)
    | (with_reducible refine parts_slots ?_ hk _) | (with_reducible refine kept_ite ?_ ?_) | (dsimp only [id_eq]) | split

theorem execVbkpPowerUp_kept (s : State) (h : Kept C M s) (hc : M.clock = none) (ho : M.odo = none) (hs : M.seq = none) (hk : M.slots = none) : ∃ t, execVbkpPowerUp s = .next t ∧ Kept C M t := by
  unfold execVbkpPowerUp
  refine ⟨_, rfl, ?_⟩
  (try dsimp only)
  repeat' first
    | (with_reducible assumption) | (with_reducible apply vbkpLost_kept) | (with_reducible apply begin__kept)
    | (with_reducible refine kept_fold ?_ _ _ ?_) | (with_reducible refine kept_fold_2 ?_ _ _ ?_)
    | (with_reducible refine kept_fold_1 ?_ _ _ ?_) | intro _ | (simp only [kept_lit]) | (with_reducible apply kept_parts)
    | (with_reducible refine parts_slots ?_ hk _) | (with_reducible refine kept_ite ?_ ?_) | (dsimp only [id_eq]) | split

theorem execLaneShed_kept (s : State) (h : Kept C M s) : ∃ t, execLaneShed s = .next t ∧ Kept C M t := by
  unfold execLaneShed
  refine ⟨_, rfl, ?_⟩
  (try dsimp only)
  repeat' first
    | (with_reducible assumption) | (with_reducible apply begin__kept) | (with_reducible apply setLane_kept)
    | (with_reducible apply flushLane_kept) | (with_reducible refine kept_fold ?_ _ _ ?_)
    | (with_reducible refine kept_fold_2 ?_ _ _ ?_) | (with_reducible refine kept_fold_1 ?_ _ _ ?_) | intro _
    | (simp only [kept_lit]) | (with_reducible apply kept_parts) | (with_reducible refine kept_ite ?_ ?_)
    | (dsimp only [id_eq]) | split

theorem execLaneShedReturn_kept (s : State) (h : Kept C M s) : ∃ t, execLaneShedReturn s = .next t ∧ Kept C M t := by
  unfold execLaneShedReturn
  refine ⟨_, rfl, ?_⟩
  (try dsimp only)
  repeat' first
    | (with_reducible assumption) | (with_reducible apply begin__kept) | (with_reducible apply setLane_kept)
    | (with_reducible apply laneToTarget_kept) | (with_reducible refine kept_fold ?_ _ _ ?_)
    | (with_reducible refine kept_fold_2 ?_ _ _ ?_) | (with_reducible refine kept_fold_1 ?_ _ _ ?_) | intro _
    | (simp only [kept_lit]) | (with_reducible apply kept_parts) | (with_reducible refine kept_ite ?_ ?_)
    | (dsimp only [id_eq]) | split

theorem execLowEnergyClear_kept (mv : ℕ) (s : State) (h : Kept C M s) : ∃ t, execLowEnergyClear mv s = .next t ∧ Kept C M t := by
  unfold execLowEnergyClear
  refine ⟨_, rfl, ?_⟩
  (try dsimp only)
  repeat' first
    | (with_reducible assumption) | (with_reducible apply setVbat_kept) | (with_reducible apply begin__kept)
    | (with_reducible apply railOn_kept) | (with_reducible refine kept_fold ?_ _ _ ?_)
    | (with_reducible refine kept_fold_2 ?_ _ _ ?_) | (with_reducible refine kept_fold_1 ?_ _ _ ?_) | intro _
    | (simp only [kept_lit]) | (with_reducible apply kept_parts) | (with_reducible refine kept_ite ?_ ?_)
    | (dsimp only [id_eq]) | split

theorem execSagTrip_kept (vcore : Bool) (s : State) (h : Kept C M s) : ∃ t, execSagTrip vcore s = .next t ∧ Kept C M t := by
  unfold execSagTrip
  refine ⟨_, rfl, ?_⟩
  (try dsimp only)
  repeat' first
    | (with_reducible assumption) | (with_reducible apply begin__kept) | (with_reducible apply sagHit_kept)
    | (with_reducible refine kept_fold ?_ _ _ ?_) | (with_reducible refine kept_fold_2 ?_ _ _ ?_)
    | (with_reducible refine kept_fold_1 ?_ _ _ ?_) | intro _ | (simp only [kept_lit]) | (with_reducible apply kept_parts)
    | (with_reducible refine kept_ite ?_ ?_) | (dsimp only [id_eq]) | split

theorem execSagHalve_kept (s : State) (h : Kept C M s) : ∃ t, execSagHalve s = .next t ∧ Kept C M t := by
  unfold execSagHalve
  refine ⟨_, rfl, ?_⟩
  (try dsimp only)
  repeat' first
    | (with_reducible assumption) | (with_reducible apply begin__kept) | (with_reducible apply halve_kept)
    | (with_reducible refine kept_fold ?_ _ _ ?_) | (with_reducible refine kept_fold_2 ?_ _ _ ?_)
    | (with_reducible refine kept_fold_1 ?_ _ _ ?_) | intro _ | (simp only [kept_lit]) | (with_reducible apply kept_parts)
    | (with_reducible refine kept_ite ?_ ?_) | (dsimp only [id_eq]) | split

theorem execSagRelease_kept (vcore : Bool) (s : State) (h : Kept C M s) : ∃ t, execSagRelease vcore s = .next t ∧ Kept C M t := by
  unfold execSagRelease
  refine ⟨_, rfl, ?_⟩
  (try dsimp only)
  repeat' first
    | (with_reducible assumption) | (with_reducible apply begin__kept) | (with_reducible refine kept_fold ?_ _ _ ?_)
    | (with_reducible refine kept_fold_2 ?_ _ _ ?_) | (with_reducible refine kept_fold_1 ?_ _ _ ?_) | intro _
    | (simp only [kept_lit]) | (with_reducible apply kept_parts) | (with_reducible refine kept_ite ?_ ?_)
    | (dsimp only [id_eq]) | split

theorem execSentryDwellExpiry_kept (s : State) (h : Kept C M s) : ∃ t, execSentryDwellExpiry s = .next t ∧ Kept C M t := by
  unfold execSentryDwellExpiry
  refine ⟨_, rfl, ?_⟩
  (try dsimp only)
  repeat' first
    | (with_reducible assumption) | (with_reducible apply begin__kept) | (with_reducible apply sleepTo_kept)
    | (with_reducible refine kept_fold ?_ _ _ ?_) | (with_reducible refine kept_fold_2 ?_ _ _ ?_)
    | (with_reducible refine kept_fold_1 ?_ _ _ ?_) | intro _ | (simp only [kept_lit]) | (with_reducible apply kept_parts)
    | (with_reducible refine kept_ite ?_ ?_) | (dsimp only [id_eq]) | split

theorem execParkTimeout_kept (s : State) (h : Kept C M s) : ∃ t, execParkTimeout s = .next t ∧ Kept C M t := by
  unfold execParkTimeout
  refine ⟨_, rfl, ?_⟩
  (try dsimp only)
  repeat' first
    | (with_reducible assumption) | (with_reducible apply begin__kept) | (with_reducible apply sleepTo_kept)
    | (with_reducible refine kept_fold ?_ _ _ ?_) | (with_reducible refine kept_fold_2 ?_ _ _ ?_)
    | (with_reducible refine kept_fold_1 ?_ _ _ ?_) | intro _ | (simp only [kept_lit]) | (with_reducible apply kept_parts)
    | (with_reducible refine kept_ite ?_ ?_) | (dsimp only [id_eq]) | split

theorem sleepWhenFree_kept (s : State) (h : Kept C M s) : Kept C M (sleepWhenFree s) := by
  unfold sleepWhenFree
  (try dsimp only)
  repeat' first
    | (with_reducible assumption) | (with_reducible apply sleepFrom_kept) | (with_reducible refine kept_fold ?_ _ _ ?_)
    | (with_reducible refine kept_fold_2 ?_ _ _ ?_) | (with_reducible refine kept_fold_1 ?_ _ _ ?_) | intro _
    | (simp only [kept_lit]) | (with_reducible apply kept_parts) | (with_reducible refine kept_ite ?_ ?_)
    | (dsimp only [id_eq]) | split

theorem resumeSleep_kept (s : State) (h : Kept C M s) : Kept C M (resumeSleep s) := by
  unfold resumeSleep
  (try dsimp only)
  repeat' first
    | (with_reducible assumption) | (with_reducible apply sleepFrom_kept) | (with_reducible refine kept_fold ?_ _ _ ?_)
    | (with_reducible refine kept_fold_2 ?_ _ _ ?_) | (with_reducible refine kept_fold_1 ?_ _ _ ?_) | intro _
    | (simp only [kept_lit]) | (with_reducible apply kept_parts) | (with_reducible refine kept_ite ?_ ?_)
    | (dsimp only [id_eq]) | split

theorem execApproachIdleExpiry_kept (s : State) (h : Kept C M s) : ∃ t, execApproachIdleExpiry s = .next t ∧ Kept C M t := by
  unfold execApproachIdleExpiry
  refine ⟨_, rfl, ?_⟩
  (try dsimp only)
  repeat' first
    | (with_reducible assumption) | (with_reducible apply whenRunning_kept) | (with_reducible apply begin__kept)
    | (with_reducible apply sleepWhenFree_kept) | (with_reducible refine kept_fold ?_ _ _ ?_)
    | (with_reducible refine kept_fold_2 ?_ _ _ ?_) | (with_reducible refine kept_fold_1 ?_ _ _ ?_) | intro _
    | (simp only [kept_lit]) | (with_reducible apply kept_parts) | (with_reducible refine kept_ite ?_ ?_)
    | (dsimp only [id_eq]) | split

theorem execServiceIdleTimeout_kept (s : State) (h : Kept C M s) : ∃ t, execServiceIdleTimeout s = .next t ∧ Kept C M t := by
  unfold execServiceIdleTimeout
  refine ⟨_, rfl, ?_⟩
  (try dsimp only)
  repeat' first
    | (with_reducible assumption) | (with_reducible apply whenRunning_kept) | (with_reducible apply begin__kept)
    | (with_reducible apply enterMode_kept) | (with_reducible refine kept_fold ?_ _ _ ?_)
    | (with_reducible refine kept_fold_2 ?_ _ _ ?_) | (with_reducible refine kept_fold_1 ?_ _ _ ?_) | intro _
    | (simp only [kept_lit]) | (with_reducible apply kept_parts) | (with_reducible refine kept_ite ?_ ?_)
    | (dsimp only [id_eq]) | split

theorem execDepotIdleTimeout_kept (s : State) (h : Kept C M s) : ∃ t, execDepotIdleTimeout s = .next t ∧ Kept C M t := by
  unfold execDepotIdleTimeout
  refine ⟨_, rfl, ?_⟩
  (try dsimp only)
  repeat' first
    | (with_reducible assumption) | (with_reducible apply whenRunning_kept) | (with_reducible apply begin__kept)
    | (with_reducible apply enterMode_kept) | (with_reducible refine kept_fold ?_ _ _ ?_)
    | (with_reducible refine kept_fold_2 ?_ _ _ ?_) | (with_reducible refine kept_fold_1 ?_ _ _ ?_) | intro _
    | (simp only [kept_lit]) | (with_reducible apply kept_parts) | (with_reducible refine kept_ite ?_ ?_)
    | (dsimp only [id_eq]) | split

theorem startRequest_kept (s : State) (h : Kept C M s) : Kept C M (startRequest s) := by
  unfold startRequest
  (try dsimp only)
  repeat' first
    | (with_reducible assumption) | (with_reducible apply enterMode_kept) | (with_reducible refine kept_fold ?_ _ _ ?_)
    | (with_reducible refine kept_fold_2 ?_ _ _ ?_) | (with_reducible refine kept_fold_1 ?_ _ _ ?_) | intro _
    | (simp only [kept_lit]) | (with_reducible apply kept_parts) | (with_reducible refine kept_ite ?_ ?_)
    | (dsimp only [id_eq]) | split

theorem stopRequest_kept (s : State) (h : Kept C M s) : Kept C M (stopRequest s) := by
  unfold stopRequest
  (try dsimp only)
  repeat' first
    | (with_reducible assumption) | (with_reducible apply settle_kept) | (with_reducible refine kept_fold ?_ _ _ ?_)
    | (with_reducible refine kept_fold_2 ?_ _ _ ?_) | (with_reducible refine kept_fold_1 ?_ _ _ ?_) | intro _
    | (simp only [kept_lit]) | (with_reducible apply kept_parts) | (with_reducible refine kept_ite ?_ ?_)
    | (dsimp only [id_eq]) | split

theorem execDriveStartRequest_kept (lane : Fin 96) (ide : Bool) (id : BitVec 29) (data : BitVec 64) (s : State) (h : Kept C M s) : ∃ t, execDriveStartRequest lane ide id data s = .next t ∧ Kept C M t := by
  unfold execDriveStartRequest
  refine ⟨_, rfl, ?_⟩
  (try dsimp only)
  repeat' first
    | (with_reducible assumption) | (with_reducible apply whenRunning_kept) | (with_reducible apply begin__kept)
    | (with_reducible apply startRequest_kept) | (with_reducible refine kept_fold ?_ _ _ ?_)
    | (with_reducible refine kept_fold_2 ?_ _ _ ?_) | (with_reducible refine kept_fold_1 ?_ _ _ ?_) | intro _
    | (simp only [kept_lit]) | (with_reducible apply kept_parts) | (with_reducible refine kept_ite ?_ ?_)
    | (dsimp only [id_eq]) | split

theorem execDriveStopRequest_kept (lane : Fin 96) (ide : Bool) (id : BitVec 29) (data : BitVec 64) (s : State) (h : Kept C M s) : ∃ t, execDriveStopRequest lane ide id data s = .next t ∧ Kept C M t := by
  unfold execDriveStopRequest
  refine ⟨_, rfl, ?_⟩
  (try dsimp only)
  repeat' first
    | (with_reducible assumption) | (with_reducible apply whenRunning_kept) | (with_reducible apply begin__kept)
    | (with_reducible apply stopRequest_kept) | (with_reducible refine kept_fold ?_ _ _ ?_)
    | (with_reducible refine kept_fold_2 ?_ _ _ ?_) | (with_reducible refine kept_fold_1 ?_ _ _ ?_) | intro _
    | (simp only [kept_lit]) | (with_reducible apply kept_parts) | (with_reducible refine kept_ite ?_ ?_)
    | (dsimp only [id_eq]) | split

theorem woutAck_kept (s : State) (h : Kept C M s) : Kept C M (woutAck s) := by
  unfold woutAck
  (try dsimp only)
  repeat' first
    | (with_reducible assumption) | (with_reducible refine kept_fold ?_ _ _ ?_)
    | (with_reducible refine kept_fold_2 ?_ _ _ ?_) | (with_reducible refine kept_fold_1 ?_ _ _ ?_) | intro _
    | (simp only [kept_lit]) | (with_reducible apply kept_parts) | (with_reducible refine kept_ite ?_ ?_)
    | (dsimp only [id_eq]) | split

theorem execWoutAckWrite_kept (s : State) (h : Kept C M s) : ∃ t, execWoutAckWrite s = .next t ∧ Kept C M t := by
  unfold execWoutAckWrite
  refine ⟨_, rfl, ?_⟩
  (try dsimp only)
  repeat' first
    | (with_reducible assumption) | (with_reducible apply whenRunning_kept) | (with_reducible apply begin__kept)
    | (with_reducible apply woutAck_kept) | (with_reducible refine kept_fold ?_ _ _ ?_)
    | (with_reducible refine kept_fold_2 ?_ _ _ ?_) | (with_reducible refine kept_fold_1 ?_ _ _ ?_) | intro _
    | (simp only [kept_lit]) | (with_reducible apply kept_parts) | (with_reducible refine kept_ite ?_ ?_)
    | (dsimp only [id_eq]) | split

theorem alarmSet_kept (s : State) (w : Word) (h : Kept C M s) : Kept C M (alarmSet s w) := by
  unfold alarmSet
  (try dsimp only)
  repeat' first
    | (with_reducible assumption) | (with_reducible refine kept_fold ?_ _ _ ?_)
    | (with_reducible refine kept_fold_2 ?_ _ _ ?_) | (with_reducible refine kept_fold_1 ?_ _ _ ?_) | intro _
    | (simp only [kept_lit]) | (with_reducible apply kept_parts) | (with_reducible refine kept_ite ?_ ?_)
    | (dsimp only [id_eq]) | split

theorem execPwrAlarmWrite_kept (w : Word) (s : State) (h : Kept C M s) : ∃ t, execPwrAlarmWrite w s = .next t ∧ Kept C M t := by
  unfold execPwrAlarmWrite
  refine ⟨_, rfl, ?_⟩
  (try dsimp only)
  repeat' first
    | (with_reducible assumption) | (with_reducible apply whenRunning_kept) | (with_reducible apply begin__kept)
    | (with_reducible apply alarmSet_kept) | (with_reducible refine kept_fold ?_ _ _ ?_)
    | (with_reducible refine kept_fold_2 ?_ _ _ ?_) | (with_reducible refine kept_fold_1 ?_ _ _ ?_) | intro _
    | (simp only [kept_lit]) | (with_reducible apply kept_parts) | (with_reducible refine kept_ite ?_ ?_)
    | (dsimp only [id_eq]) | split

theorem gateRequested_kept (s : State) (b : ℕ) (h : Kept C M s) : Kept C M (gateRequested s b) := by
  unfold gateRequested
  (try dsimp only)
  repeat' first
    | (with_reducible assumption) | (with_reducible apply answerGates_kept) | (with_reducible apply setGate_kept)
    | (with_reducible apply gateNow_kept) | (with_reducible refine kept_fold ?_ _ _ ?_)
    | (with_reducible refine kept_fold_2 ?_ _ _ ?_) | (with_reducible refine kept_fold_1 ?_ _ _ ?_) | intro _
    | (simp only [kept_lit]) | (with_reducible apply kept_parts) | (with_reducible refine kept_ite ?_ ?_)
    | (dsimp only [id_eq]) | split

theorem gateVote_kept (s : State) (b : ℕ) (clk : Bool) (pwr : Bool) (h : Kept C M s) : Kept C M (gateVote s b clk pwr).1 := by
  unfold gateVote
  (try dsimp only)
  repeat' first
    | (with_reducible assumption) | (with_reducible apply raise_kept) | (with_reducible apply gateRequested_kept)
    | (with_reducible apply setFld_kept) | (with_reducible refine kept_fold ?_ _ _ ?_)
    | (with_reducible refine kept_fold_2 ?_ _ _ ?_) | (with_reducible refine kept_fold_1 ?_ _ _ ?_) | intro _
    | (simp only [kept_lit]) | (with_reducible apply kept_parts) | (with_reducible refine kept_ite ?_ ?_)
    | (dsimp only [id_eq]) | split

theorem gateWrite_kept (s : State) (pwr : Bool) (w : Word) (h : Kept C M s) : Kept C M (gateWrite s pwr w) := by
  unfold gateWrite
  (try dsimp only)
  repeat' first
    | (with_reducible assumption) | (with_reducible apply gateVote_kept) | (with_reducible refine kept_fold ?_ _ _ ?_)
    | (with_reducible refine kept_fold_2 ?_ _ _ ?_) | (with_reducible refine kept_fold_1 ?_ _ _ ?_) | intro _
    | (simp only [kept_lit]) | (with_reducible apply kept_parts)
    | (with_reducible refine kept_of_eq_1 ‹gateVote _ _ _ _ = _› (gateVote_kept _ _ _ _ ?_))
    | (with_reducible refine kept_ite ?_ ?_) | (dsimp only [id_eq]) | split

theorem execGateRequestWrite_kept (pwr : Bool) (w : Word) (s : State) (h : Kept C M s) : ∃ t, execGateRequestWrite pwr w s = .next t ∧ Kept C M t := by
  unfold execGateRequestWrite
  refine ⟨_, rfl, ?_⟩
  (try dsimp only)
  repeat' first
    | (with_reducible assumption) | (with_reducible apply whenRunning_kept) | (with_reducible apply begin__kept)
    | (with_reducible apply gateWrite_kept) | (with_reducible refine kept_fold ?_ _ _ ?_)
    | (with_reducible refine kept_fold_2 ?_ _ _ ?_) | (with_reducible refine kept_fold_1 ?_ _ _ ?_) | intro _
    | (simp only [kept_lit]) | (with_reducible apply kept_parts) | (with_reducible refine kept_ite ?_ ?_)
    | (dsimp only [id_eq]) | split

theorem execGateEffect_kept (block : Fin 14) (s : State) (h : Kept C M s) : ∃ t, execGateEffect block s = .next t ∧ Kept C M t := by
  unfold execGateEffect
  refine ⟨_, rfl, ?_⟩
  (try dsimp only)
  repeat' first
    | (with_reducible assumption) | (with_reducible apply whenRunning_kept) | (with_reducible apply begin__kept)
    | (with_reducible apply answerGates_kept) | (with_reducible apply gateNow_kept)
    | (with_reducible refine kept_fold ?_ _ _ ?_) | (with_reducible refine kept_fold_2 ?_ _ _ ?_)
    | (with_reducible refine kept_fold_1 ?_ _ _ ?_) | intro _ | (simp only [kept_lit]) | (with_reducible apply kept_parts)
    | (with_reducible refine kept_ite ?_ ?_) | (dsimp only [id_eq]) | split

theorem execVaultHold_kept (block : Fin 10) (s : State) (h : Kept C M s) : ∃ t, execVaultHold block s = .next t ∧ Kept C M t := by
  unfold execVaultHold
  refine ⟨_, rfl, ?_⟩
  (try dsimp only)
  repeat' first
    | (with_reducible assumption) | (with_reducible apply whenRunning_kept) | (with_reducible apply begin__kept)
    | (with_reducible apply holdBlock_kept) | (with_reducible refine kept_fold ?_ _ _ ?_)
    | (with_reducible refine kept_fold_2 ?_ _ _ ?_) | (with_reducible refine kept_fold_1 ?_ _ _ ?_) | intro _
    | (simp only [kept_lit]) | (with_reducible apply kept_parts) | (with_reducible refine kept_ite ?_ ?_)
    | (dsimp only [id_eq]) | split

theorem execVaultRelease_kept (block : Fin 10) (s : State) (h : Kept C M s) : ∃ t, execVaultRelease block s = .next t ∧ Kept C M t := by
  unfold execVaultRelease
  refine ⟨_, rfl, ?_⟩
  (try dsimp only)
  repeat' first
    | (with_reducible assumption) | (with_reducible apply whenRunning_kept) | (with_reducible apply begin__kept)
    | (with_reducible apply resumeSleep_kept) | (with_reducible apply releaseBlock_kept)
    | (with_reducible refine kept_fold ?_ _ _ ?_) | (with_reducible refine kept_fold_2 ?_ _ _ ?_)
    | (with_reducible refine kept_fold_1 ?_ _ _ ?_) | intro _ | (simp only [kept_lit]) | (with_reducible apply kept_parts)
    | (with_reducible refine kept_ite ?_ ?_) | (dsimp only [id_eq]) | split

theorem execBlockGate_kept (r : Req) (block : BitVec 8) (kind : BitVec 8) (s : State) (h : Kept C M s) : ∃ t, execBlockGate r block kind s = .next t ∧ Kept C M t := by
  unfold execBlockGate
  refine ⟨_, rfl, ?_⟩
  (try dsimp only)
  repeat' first
    | (with_reducible assumption) | (with_reducible apply dispatch_kept) | (with_reducible apply gateVote_kept)
    | (with_reducible apply plan_fail) | (with_reducible apply plan_read) | (with_reducible apply plan_noRoom)
    | (with_reducible refine plan_do ?_) | (with_reducible refine plan_doBytes ?_)
    | (with_reducible refine kept_fold ?_ _ _ ?_) | (with_reducible refine kept_fold_2 ?_ _ _ ?_)
    | (with_reducible refine kept_fold_1 ?_ _ _ ?_) | intro _ | (simp only [kept_lit]) | (with_reducible apply kept_parts)
    | (with_reducible refine kept_of_eq_1 ‹gateVote _ _ _ _ = _› (gateVote_kept _ _ _ _ ?_))
    | (with_reducible apply begin__kept) | (with_reducible refine kept_ite ?_ ?_) | (dsimp only [id_eq]) | split
    | (with_reducible refine plan_mk ?_)

theorem execModeSet_kept (r : Req) (target : BitVec 8) (s : State) (h : Kept C M s) : ∃ t, execModeSet r target s = .next t ∧ Kept C M t := by
  unfold execModeSet
  refine ⟨_, rfl, ?_⟩
  (try dsimp only)
  repeat' first
    | (with_reducible assumption) | (with_reducible apply dispatch_kept) | (with_reducible apply enterMode_kept)
    | (with_reducible apply plan_fail) | (with_reducible apply plan_read) | (with_reducible apply plan_noRoom)
    | (with_reducible refine plan_do ?_) | (with_reducible refine plan_doBytes ?_)
    | (with_reducible refine kept_fold ?_ _ _ ?_) | (with_reducible refine kept_fold_2 ?_ _ _ ?_)
    | (with_reducible refine kept_fold_1 ?_ _ _ ?_) | intro _ | (simp only [kept_lit]) | (with_reducible apply kept_parts)
    | (with_reducible apply begin__kept) | (with_reducible refine kept_ite ?_ ?_) | (dsimp only [id_eq]) | split
    | (with_reducible refine plan_mk ?_)

end Sys2Proof.Machine
end

