-- ==== Sys2Proof/Laws/KeepTables.lean ====
section
/-! SUPPORT. What the operations of `Tables` leave alone. -/

namespace Sys2Proof.Machine

set_option linter.unusedTactic false
set_option linter.unreachableTactic false
set_option linter.unusedSimpArgs false

variable {C : Prop} {M : Mark}

theorem hashPut_kept (s : State) (full : Bool) (p : ℕ) (e : BitVec 128) (h : Kept C M s) : Kept C M (hashPut s full p e).2 := by
  unfold hashPut
  (try dsimp only)
  repeat' first
    | (with_reducible assumption) | (with_reducible apply hSet_kept) | (with_reducible apply keyFound_kept)
    | (with_reducible refine kept_fold ?_ _ _ ?_) | (with_reducible refine kept_fold_2 ?_ _ _ ?_)
    | (with_reducible refine kept_fold_1 ?_ _ _ ?_) | intro _ | (simp only [kept_lit]) | (with_reducible apply kept_parts)
    | (with_reducible refine kept_ite ?_ ?_) | (dsimp only [id_eq]) | split

theorem pipePut_kept (s : State) (full : Bool) (table : ℕ) (index : ℕ) (e : BitVec 256) (p : ℕ) (h : Kept C M s) : Kept C M (pipePut s full table index e p).2 := by
  unfold pipePut
  (try dsimp only)
  repeat' first
    | (with_reducible assumption) | (with_reducible apply hashPut_kept) | (with_reducible refine kept_fold ?_ _ _ ?_)
    | (with_reducible refine kept_fold_2 ?_ _ _ ?_) | (with_reducible refine kept_fold_1 ?_ _ _ ?_) | intro _
    | (simp only [kept_lit]) | (with_reducible apply kept_parts)
    | (with_reducible refine kept_of_eq_2 ‹hashPut _ _ _ _ = _› (hashPut_kept _ _ _ _ ?_))
    | (with_reducible refine kept_ite ?_ ?_) | (dsimp only [id_eq]) | split

theorem maskPut_kept (s : State) (full : Bool) (table : ℕ) (pmask : ℕ) (index : ℕ) (e : BitVec 256) (h : Kept C M s) : Kept C M (maskPut s full table pmask index e).2 := by
  unfold maskPut
  (try dsimp only)
  repeat' first
    | (with_reducible assumption) | (with_reducible apply pipePut_kept) | (with_reducible refine kept_fold ?_ _ _ ?_)
    | (with_reducible refine kept_fold_2 ?_ _ _ ?_) | (with_reducible refine kept_fold_1 ?_ _ _ ?_) | intro _
    | (simp only [kept_lit]) | (with_reducible apply kept_parts)
    | (with_reducible refine kept_of_eq_2 ‹pipePut _ _ _ _ _ _ = _› (pipePut_kept _ _ _ _ _ _ ?_))
    | (with_reducible refine kept_ite ?_ ?_) | (dsimp only [id_eq]) | split

theorem widePut_kept (s : State) (table : ℕ) (index : ℕ) (e : BitVec 256) (h : Kept C M s) : Kept C M (widePut s table index e) := by
  unfold widePut
  (try dsimp only)
  repeat' first
    | (with_reducible assumption) | (with_reducible apply setFld_kept) | (with_reducible apply schedule_kept)
    | (with_reducible refine kept_fold ?_ _ _ ?_) | (with_reducible refine kept_fold_2 ?_ _ _ ?_)
    | (with_reducible refine kept_fold_1 ?_ _ _ ?_) | intro _ | (simp only [kept_lit]) | (with_reducible apply kept_parts)
    | (with_reducible refine kept_ite ?_ ?_) | (dsimp only [id_eq]) | split

theorem tblPut_kept (s : State) (full : Bool) (table : ℕ) (pmask : ℕ) (index : ℕ) (w : List Word) (h : Kept C M s) : Kept C M (tblPut s full table pmask index w).2 := by
  unfold tblPut
  (try dsimp only)
  repeat' first
    | (with_reducible assumption) | (with_reducible apply maskPut_kept) | (with_reducible apply widePut_kept)
    | (with_reducible refine kept_fold ?_ _ _ ?_) | (with_reducible refine kept_fold_2 ?_ _ _ ?_)
    | (with_reducible refine kept_fold_1 ?_ _ _ ?_) | intro _ | (simp only [kept_lit]) | (with_reducible apply kept_parts)
    | (with_reducible refine kept_of_eq_2 ‹maskPut _ _ _ _ _ _ = _› (maskPut_kept _ _ _ _ _ _ ?_))
    | (with_reducible refine kept_ite ?_ ?_) | (dsimp only [id_eq]) | split

theorem placeEntry_kept (s : State) (full : Bool) (c : Cfg) (h : Kept C M s) : Kept C M (placeEntry s full c) := by
  unfold placeEntry
  (try dsimp only)
  repeat' first
    | (with_reducible assumption) | (with_reducible apply tblPut_kept) | (with_reducible apply raise_kept)
    | (with_reducible refine kept_fold ?_ _ _ ?_) | (with_reducible refine kept_fold_2 ?_ _ _ ?_)
    | (with_reducible refine kept_fold_1 ?_ _ _ ?_) | intro _ | (simp only [kept_lit]) | (with_reducible apply kept_parts)
    | (with_reducible refine kept_of_eq_2 ‹tblPut _ _ _ _ _ _ = _› (tblPut_kept _ _ _ _ _ _ ?_))
    | (with_reducible refine kept_ite ?_ ?_) | (dsimp only [id_eq]) | split

theorem tblWritePlan_planKept (r : Req) (table : BitVec 8) (flags : BitVec 8) (pmask : BitVec 8) (index : Word) (entry : List Word) (s : State) (h : Kept C M s) (hm : M.map = none) : PlanKept C M (tblWritePlan r table flags pmask index entry s) := by
  unfold tblWritePlan
  (try dsimp only)
  repeat' first
    | (with_reducible assumption) | (with_reducible apply tblPut_kept) | (with_reducible apply commitChange_kept)
    | (with_reducible apply storeRecord_kept) | (with_reducible apply plan_fail) | (with_reducible apply plan_read)
    | (with_reducible apply plan_noRoom) | (with_reducible refine plan_do ?_) | (with_reducible refine plan_doBytes ?_)
    | (with_reducible refine kept_fold ?_ _ _ ?_) | (with_reducible refine kept_fold_2 ?_ _ _ ?_)
    | (with_reducible refine kept_fold_1 ?_ _ _ ?_) | intro _ | (simp only [kept_lit]) | (with_reducible apply kept_parts)
    | (with_reducible refine parts_map ?_ hm _)
    | (with_reducible refine kept_of_eq_2 ‹tblPut _ _ _ _ _ _ = _› (tblPut_kept _ _ _ _ _ _ ?_))
    | (with_reducible refine kept_ite ?_ ?_) | (dsimp only [id_eq]) | split | (with_reducible refine plan_mk ?_)

theorem execTblWrite_kept (r : Req) (table : BitVec 8) (flags : BitVec 8) (pmask : BitVec 8) (index : Word) (entry : List Word) (s : State) (h : Kept C M s) (hm : M.map = none) : ∃ t, execTblWrite r table flags pmask index entry s = .next t ∧ Kept C M t := by
  unfold execTblWrite
  refine ⟨_, rfl, ?_⟩
  (try dsimp only)
  repeat' first
    | (with_reducible assumption) | (with_reducible apply dispatch_kept) | (with_reducible apply tblWritePlan_planKept)
    | (with_reducible refine kept_fold ?_ _ _ ?_) | (with_reducible refine kept_fold_2 ?_ _ _ ?_)
    | (with_reducible refine kept_fold_1 ?_ _ _ ?_) | intro _ | (simp only [kept_lit]) | (with_reducible apply kept_parts)
    | (with_reducible refine parts_map ?_ hm _) | (with_reducible apply begin__kept) | (with_reducible refine kept_ite ?_ ?_)
    | (dsimp only [id_eq]) | split | (with_reducible refine plan_mk ?_)

theorem execTblCommit_kept (r : Req) (s : State) (h : Kept C M s) (hm : M.map = none) : ∃ t, execTblCommit r s = .next t ∧ Kept C M t := by
  unfold execTblCommit
  refine ⟨_, rfl, ?_⟩
  (try dsimp only)
  repeat' first
    | (with_reducible assumption) | (with_reducible apply dispatch_kept) | (with_reducible apply commitChange_kept)
    | (with_reducible apply storeRecord_kept) | (with_reducible apply plan_fail) | (with_reducible apply plan_read)
    | (with_reducible apply plan_noRoom) | (with_reducible refine plan_do ?_) | (with_reducible refine plan_doBytes ?_)
    | (with_reducible refine kept_fold ?_ _ _ ?_) | (with_reducible refine kept_fold_2 ?_ _ _ ?_)
    | (with_reducible refine kept_fold_1 ?_ _ _ ?_) | intro _ | (simp only [kept_lit]) | (with_reducible apply kept_parts)
    | (with_reducible refine parts_map ?_ hm _) | (with_reducible apply begin__kept) | (with_reducible refine kept_ite ?_ ?_)
    | (dsimp only [id_eq]) | split | (with_reducible refine plan_mk ?_)

theorem applyBatch_kept (s : State) (h : Kept C M s) : Kept C M (applyBatch s) := by
  unfold applyBatch
  (try dsimp only)
  repeat' first
    | (with_reducible assumption) | (with_reducible apply placeEntry_kept) | (with_reducible refine kept_fold ?_ _ _ ?_)
    | (with_reducible refine kept_fold_2 ?_ _ _ ?_) | (with_reducible refine kept_fold_1 ?_ _ _ ?_) | intro _
    | (simp only [kept_lit]) | (with_reducible apply kept_parts) | (with_reducible refine kept_ite ?_ ?_)
    | (dsimp only [id_eq]) | split

theorem pipeDelete_kept (s : State) (table : ℕ) (index : ℕ) (key : BitVec 64) (p : ℕ) (h : Kept C M s) : Kept C M (pipeDelete s table index key p).2 := by
  unfold pipeDelete
  (try dsimp only)
  repeat' first
    | (with_reducible assumption) | (with_reducible apply hSet_kept) | (with_reducible refine kept_fold ?_ _ _ ?_)
    | (with_reducible refine kept_fold_2 ?_ _ _ ?_) | (with_reducible refine kept_fold_1 ?_ _ _ ?_) | intro _
    | (simp only [kept_lit]) | (with_reducible apply kept_parts) | (with_reducible refine kept_ite ?_ ?_)
    | (dsimp only [id_eq]) | split

theorem tblDelete_kept (s : State) (table : ℕ) (pmask : ℕ) (index : ℕ) (key : BitVec 64) (h : Kept C M s) : Kept C M (tblDelete s table pmask index key).2 := by
  unfold tblDelete
  (try dsimp only)
  repeat' first
    | (with_reducible assumption) | (with_reducible apply pipeDelete_kept) | (with_reducible apply widePut_kept)
    | (with_reducible refine kept_fold ?_ _ _ ?_) | (with_reducible refine kept_fold_2 ?_ _ _ ?_)
    | (with_reducible refine kept_fold_1 ?_ _ _ ?_) | intro _ | (simp only [kept_lit]) | (with_reducible apply kept_parts)
    | (with_reducible refine kept_of_eq_2 ‹pipeDelete _ _ _ _ _ = _› (pipeDelete_kept _ _ _ _ _ ?_))
    | (with_reducible refine kept_ite ?_ ?_) | (dsimp only [id_eq]) | split

theorem execTblDelete_kept (r : Req) (table : BitVec 8) (pmask : BitVec 8) (index : Word) (key : BitVec 64) (s : State) (h : Kept C M s) : ∃ t, execTblDelete r table pmask index key s = .next t ∧ Kept C M t := by
  unfold execTblDelete
  refine ⟨_, rfl, ?_⟩
  (try dsimp only)
  repeat' first
    | (with_reducible assumption) | (with_reducible apply dispatch_kept) | (with_reducible apply tblDelete_kept)
    | (with_reducible apply plan_fail) | (with_reducible apply plan_read) | (with_reducible apply plan_noRoom)
    | (with_reducible refine plan_do ?_) | (with_reducible refine plan_doBytes ?_)
    | (with_reducible refine kept_fold ?_ _ _ ?_) | (with_reducible refine kept_fold_2 ?_ _ _ ?_)
    | (with_reducible refine kept_fold_1 ?_ _ _ ?_) | intro _ | (simp only [kept_lit]) | (with_reducible apply kept_parts)
    | (with_reducible refine kept_of_eq_2 ‹tblDelete _ _ _ _ _ = _› (tblDelete_kept _ _ _ _ _ ?_))
    | (with_reducible apply begin__kept) | (with_reducible refine kept_ite ?_ ?_) | (dsimp only [id_eq]) | split
    | (with_reducible refine plan_mk ?_)

theorem flushPipe_kept (s : State) (full : Bool) (learnedOnly : Bool) (p : ℕ) (h : Kept C M s) : Kept C M (flushPipe s full learnedOnly p) := by
  unfold flushPipe
  (try dsimp only)
  repeat' first
    | (with_reducible assumption) | (with_reducible apply hSet_kept) | (with_reducible refine kept_fold ?_ _ _ ?_)
    | (with_reducible refine kept_fold_2 ?_ _ _ ?_) | (with_reducible refine kept_fold_1 ?_ _ _ ?_) | intro _
    | (simp only [kept_lit]) | (with_reducible apply kept_parts) | (with_reducible refine kept_ite ?_ ?_)
    | (dsimp only [id_eq]) | split

theorem execTblFlush_kept (r : Req) (pmask : BitVec 8) (flags : BitVec 8) (s : State) (h : Kept C M s) : ∃ t, execTblFlush r pmask flags s = .next t ∧ Kept C M t := by
  unfold execTblFlush
  refine ⟨_, rfl, ?_⟩
  (try dsimp only)
  repeat' first
    | (with_reducible assumption) | (with_reducible apply dispatch_kept) | (with_reducible apply flushPipe_kept)
    | (with_reducible apply plan_fail) | (with_reducible apply plan_read) | (with_reducible apply plan_noRoom)
    | (with_reducible refine plan_do ?_) | (with_reducible refine plan_doBytes ?_)
    | (with_reducible refine kept_fold ?_ _ _ ?_) | (with_reducible refine kept_fold_2 ?_ _ _ ?_)
    | (with_reducible refine kept_fold_1 ?_ _ _ ?_) | intro _ | (simp only [kept_lit]) | (with_reducible apply kept_parts)
    | (with_reducible apply begin__kept) | (with_reducible refine kept_ite ?_ ?_) | (dsimp only [id_eq]) | split
    | (with_reducible refine plan_mk ?_)

theorem execAgePeriodStart_kept (s : State) (h : Kept C M s) : ∃ t, execAgePeriodStart s = .next t ∧ Kept C M t := by
  unfold execAgePeriodStart
  refine ⟨_, rfl, ?_⟩
  (try dsimp only)
  repeat' first
    | (with_reducible assumption) | (with_reducible apply whenRunning_kept) | (with_reducible apply begin__kept)
    | (with_reducible apply agePeriod_kept) | (with_reducible refine kept_fold ?_ _ _ ?_)
    | (with_reducible refine kept_fold_2 ?_ _ _ ?_) | (with_reducible refine kept_fold_1 ?_ _ _ ?_) | intro _
    | (simp only [kept_lit]) | (with_reducible apply kept_parts) | (with_reducible refine kept_ite ?_ ?_)
    | (dsimp only [id_eq]) | split

end Sys2Proof.Machine
end

