-- ==== Sys2Proof/Laws/KeepLanes.lean ====
section
/-! SUPPORT. What the operations of `Lanes` leave alone. -/

namespace Sys2Proof.Machine

set_option linter.unusedTactic false
set_option linter.unreachableTactic false
set_option linter.unusedSimpArgs false

variable {C : Prop} {M : Mark}

theorem whenClocked_kept (s : State) (f : State → State) (h : Kept C M s) (hf : ∀ s, Kept C M s → Kept C M (f s)) : Kept C M (whenClocked s f) := by
  unfold whenClocked
  (try dsimp only)
  repeat' first
    | (with_reducible assumption) | (with_reducible apply hf) | (with_reducible refine kept_fold ?_ _ _ ?_)
    | (with_reducible refine kept_fold_2 ?_ _ _ ?_) | (with_reducible refine kept_fold_1 ?_ _ _ ?_) | intro _
    | (simp only [kept_lit]) | (with_reducible apply kept_parts) | (with_reducible refine kept_ite ?_ ?_)
    | (dsimp only [id_eq]) | split

theorem probeEnd_kept (s : State) (n : ℕ) (h : Kept C M s) : Kept C M (probeEnd s n) := by
  unfold probeEnd
  (try dsimp only)
  repeat' first
    | (with_reducible assumption) | (with_reducible apply setLane_kept) | (with_reducible refine kept_fold ?_ _ _ ?_)
    | (with_reducible refine kept_fold_2 ?_ _ _ ?_) | (with_reducible refine kept_fold_1 ?_ _ _ ?_) | intro _
    | (simp only [kept_lit]) | (with_reducible apply kept_parts) | (with_reducible refine kept_ite ?_ ?_)
    | (dsimp only [id_eq]) | split

theorem execLaneProbeEnd_kept (lane : Fin 96) (s : State) (h : Kept C M s) : ∃ t, execLaneProbeEnd lane s = .next t ∧ Kept C M t := by
  unfold execLaneProbeEnd
  refine ⟨_, rfl, ?_⟩
  (try dsimp only)
  repeat' first
    | (with_reducible assumption) | (with_reducible apply whenClocked_kept) | (with_reducible apply begin__kept)
    | (with_reducible apply probeEnd_kept) | (with_reducible refine kept_fold ?_ _ _ ?_)
    | (with_reducible refine kept_fold_2 ?_ _ _ ?_) | (with_reducible refine kept_fold_1 ?_ _ _ ?_) | intro _
    | (simp only [kept_lit]) | (with_reducible apply kept_parts) | (with_reducible refine kept_ite ?_ ?_)
    | (dsimp only [id_eq]) | split

theorem laneFlag_kept (s : State) (n : ℕ) (code : ℕ) (h : Kept C M s) : Kept C M (laneFlag s n code) := by
  unfold laneFlag
  (try dsimp only)
  repeat' first
    | (with_reducible assumption) | (with_reducible apply orReg_kept) | (with_reducible refine kept_fold ?_ _ _ ?_)
    | (with_reducible refine kept_fold_2 ?_ _ _ ?_) | (with_reducible refine kept_fold_1 ?_ _ _ ?_) | intro _
    | (simp only [kept_lit]) | (with_reducible apply kept_parts) | (with_reducible refine kept_ite ?_ ?_)
    | (dsimp only [id_eq]) | split

theorem faultSeen_kept (s : State) (n : ℕ) (code : ℕ) (h : Kept C M s) : Kept C M (faultSeen s n code) := by
  unfold faultSeen
  (try dsimp only)
  repeat' first
    | (with_reducible assumption) | (with_reducible apply laneFlag_kept) | (with_reducible apply setLane_kept)
    | (with_reducible refine kept_fold ?_ _ _ ?_) | (with_reducible refine kept_fold_2 ?_ _ _ ?_)
    | (with_reducible refine kept_fold_1 ?_ _ _ ?_) | intro _ | (simp only [kept_lit]) | (with_reducible apply kept_parts)
    | (with_reducible refine kept_ite ?_ ?_) | (dsimp only [id_eq]) | split

theorem retryCount_kept (s : State) (n : ℕ) (h : Kept C M s) : Kept C M (retryCount s n) := by
  unfold retryCount
  (try dsimp only)
  repeat' first
    | (with_reducible assumption) | (with_reducible apply raise_kept) | (with_reducible apply setLane_kept)
    | (with_reducible refine kept_fold ?_ _ _ ?_) | (with_reducible refine kept_fold_2 ?_ _ _ ?_)
    | (with_reducible refine kept_fold_1 ?_ _ _ ?_) | intro _ | (simp only [kept_lit]) | (with_reducible apply kept_parts)
    | (with_reducible refine kept_ite ?_ ?_) | (dsimp only [id_eq]) | split

theorem laneFault_kept (s : State) (n : ℕ) (code : ℕ) (h : Kept C M s) : Kept C M (laneFault s n code) := by
  unfold laneFault
  (try dsimp only)
  repeat' first
    | (with_reducible assumption) | (with_reducible apply flushLane_kept) | (with_reducible apply faultSeen_kept)
    | (with_reducible apply setLane_kept) | (with_reducible apply raise_kept) | (with_reducible apply statIncI_kept)
    | (with_reducible apply retryCount_kept) | (with_reducible refine kept_fold ?_ _ _ ?_)
    | (with_reducible refine kept_fold_2 ?_ _ _ ?_) | (with_reducible refine kept_fold_1 ?_ _ _ ?_) | intro _
    | (simp only [kept_lit]) | (with_reducible apply kept_parts) | (with_reducible refine kept_ite ?_ ?_)
    | (dsimp only [id_eq]) | split

theorem execLaneFaultDetect_kept (lane : Fin 96) (code : Fin 10) (s : State) (h : Kept C M s) : ∃ t, execLaneFaultDetect lane code s = .next t ∧ Kept C M t := by
  unfold execLaneFaultDetect
  refine ⟨_, rfl, ?_⟩
  (try dsimp only)
  repeat' first
    | (with_reducible assumption) | (with_reducible apply whenClocked_kept) | (with_reducible apply begin__kept)
    | (with_reducible apply laneFault_kept) | (with_reducible apply faultSeen_kept)
    | (with_reducible refine kept_fold ?_ _ _ ?_) | (with_reducible refine kept_fold_2 ?_ _ _ ?_)
    | (with_reducible refine kept_fold_1 ?_ _ _ ?_) | intro _ | (simp only [kept_lit]) | (with_reducible apply kept_parts)
    | (with_reducible refine kept_ite ?_ ?_) | (dsimp only [id_eq]) | split

theorem execLaneOpenDetect_kept (lane : Fin 96) (s : State) (h : Kept C M s) : ∃ t, execLaneOpenDetect lane s = .next t ∧ Kept C M t := by
  unfold execLaneOpenDetect
  refine ⟨_, rfl, ?_⟩
  (try dsimp only)
  repeat' first
    | (with_reducible assumption) | (with_reducible apply whenClocked_kept) | (with_reducible apply begin__kept)
    | (with_reducible apply raise_kept) | (with_reducible apply faultSeen_kept) | (with_reducible refine kept_fold ?_ _ _ ?_)
    | (with_reducible refine kept_fold_2 ?_ _ _ ?_) | (with_reducible refine kept_fold_1 ?_ _ _ ?_) | intro _
    | (simp only [kept_lit]) | (with_reducible apply kept_parts) | (with_reducible refine kept_ite ?_ ?_)
    | (dsimp only [id_eq]) | split

theorem returnTx_kept (s : State) (e : ℕ) (h : Kept C M s) : Kept C M (returnTx s e) := by
  unfold returnTx
  (try dsimp only)
  repeat' first
    | (with_reducible assumption) | (with_reducible apply setEgr_kept) | (with_reducible apply setQueue_kept)
    | (with_reducible refine kept_fold ?_ _ _ ?_) | (with_reducible refine kept_fold_2 ?_ _ _ ?_)
    | (with_reducible refine kept_fold_1 ?_ _ _ ?_) | intro _ | (simp only [kept_lit]) | (with_reducible apply kept_parts)
    | (with_reducible refine kept_ite ?_ ?_) | (dsimp only [id_eq]) | split

theorem execLaneReversal_kept (lane : Fin 96) (s : State) (h : Kept C M s) : ∃ t, execLaneReversal lane s = .next t ∧ Kept C M t := by
  unfold execLaneReversal
  refine ⟨_, rfl, ?_⟩
  (try dsimp only)
  repeat' first
    | (with_reducible assumption) | (with_reducible apply whenClocked_kept) | (with_reducible apply begin__kept)
    | (with_reducible apply faultSeen_kept) | (with_reducible apply returnTx_kept) | (with_reducible apply setLane_kept)
    | (with_reducible apply laneFault_kept) | (with_reducible refine kept_fold ?_ _ _ ?_)
    | (with_reducible refine kept_fold_2 ?_ _ _ ?_) | (with_reducible refine kept_fold_1 ?_ _ _ ?_) | intro _
    | (simp only [kept_lit]) | (with_reducible apply kept_parts) | (with_reducible refine kept_ite ?_ ?_)
    | (dsimp only [id_eq]) | split

theorem execLaneRoleSwap_kept (lane : Fin 96) (s : State) (h : Kept C M s) : ∃ t, execLaneRoleSwap lane s = .next t ∧ Kept C M t := by
  unfold execLaneRoleSwap
  refine ⟨_, rfl, ?_⟩
  (try dsimp only)
  repeat' first
    | (with_reducible assumption) | (with_reducible apply whenClocked_kept) | (with_reducible apply begin__kept)
    | (with_reducible apply laneToTarget_kept) | (with_reducible apply setLane_kept)
    | (with_reducible refine kept_fold ?_ _ _ ?_) | (with_reducible refine kept_fold_2 ?_ _ _ ?_)
    | (with_reducible refine kept_fold_1 ?_ _ _ ?_) | intro _ | (simp only [kept_lit]) | (with_reducible apply kept_parts)
    | (with_reducible refine kept_ite ?_ ?_) | (dsimp only [id_eq]) | split

theorem execLaneRetry_kept (lane : Fin 96) (present : BitVec 9) (s : State) (h : Kept C M s) : ∃ t, execLaneRetry lane present s = .next t ∧ Kept C M t := by
  unfold execLaneRetry
  refine ⟨_, rfl, ?_⟩
  (try dsimp only)
  repeat' first
    | (with_reducible assumption) | (with_reducible apply whenClocked_kept) | (with_reducible apply begin__kept)
    | (with_reducible apply setLane_kept) | (with_reducible apply orReg_kept) | (with_reducible apply retryCount_kept)
    | (with_reducible apply laneToTarget_kept) | (with_reducible refine kept_fold ?_ _ _ ?_)
    | (with_reducible refine kept_fold_2 ?_ _ _ ?_) | (with_reducible refine kept_fold_1 ?_ _ _ ?_) | intro _
    | (simp only [kept_lit]) | (with_reducible apply kept_parts) | (with_reducible refine kept_ite ?_ ?_)
    | (dsimp only [id_eq]) | split

theorem execLaneFaultFree_kept (lane : Fin 96) (s : State) (h : Kept C M s) : ∃ t, execLaneFaultFree lane s = .next t ∧ Kept C M t := by
  unfold execLaneFaultFree
  refine ⟨_, rfl, ?_⟩
  (try dsimp only)
  repeat' first
    | (with_reducible assumption) | (with_reducible apply whenClocked_kept) | (with_reducible apply begin__kept)
    | (with_reducible apply setLane_kept) | (with_reducible refine kept_fold ?_ _ _ ?_)
    | (with_reducible refine kept_fold_2 ?_ _ _ ?_) | (with_reducible refine kept_fold_1 ?_ _ _ ?_) | intro _
    | (simp only [kept_lit]) | (with_reducible apply kept_parts) | (with_reducible refine kept_ite ?_ ?_)
    | (dsimp only [id_eq]) | split

theorem canTxError_kept (s : State) (n : ℕ) (h : Kept C M s) : Kept C M (canTxError s n) := by
  unfold canTxError
  (try dsimp only)
  repeat' first
    | (with_reducible assumption) | (with_reducible apply statIncI_kept) | (with_reducible apply setLane_kept)
    | (with_reducible refine kept_fold ?_ _ _ ?_) | (with_reducible refine kept_fold_2 ?_ _ _ ?_)
    | (with_reducible refine kept_fold_1 ?_ _ _ ?_) | intro _ | (simp only [kept_lit]) | (with_reducible apply kept_parts)
    | (with_reducible refine kept_ite ?_ ?_) | (dsimp only [id_eq]) | split

theorem canTxGood_kept (s : State) (n : ℕ) (h : Kept C M s) : Kept C M (canTxGood s n) := by
  unfold canTxGood
  (try dsimp only)
  repeat' first
    | (with_reducible assumption) | (with_reducible apply setLane_kept) | (with_reducible refine kept_fold ?_ _ _ ?_)
    | (with_reducible refine kept_fold_2 ?_ _ _ ?_) | (with_reducible refine kept_fold_1 ?_ _ _ ?_) | intro _
    | (simp only [kept_lit]) | (with_reducible apply kept_parts) | (with_reducible refine kept_ite ?_ ?_)
    | (dsimp only [id_eq]) | split

theorem canRxError_kept (s : State) (n : ℕ) (h : Kept C M s) : Kept C M (canRxError s n) := by
  unfold canRxError
  (try dsimp only)
  repeat' first
    | (with_reducible assumption) | (with_reducible apply statIncI_kept) | (with_reducible apply setLane_kept)
    | (with_reducible refine kept_fold ?_ _ _ ?_) | (with_reducible refine kept_fold_2 ?_ _ _ ?_)
    | (with_reducible refine kept_fold_1 ?_ _ _ ?_) | intro _ | (simp only [kept_lit]) | (with_reducible apply kept_parts)
    | (with_reducible refine kept_ite ?_ ?_) | (dsimp only [id_eq]) | split

theorem canRxGood_kept (s : State) (n : ℕ) (h : Kept C M s) : Kept C M (canRxGood s n) := by
  unfold canRxGood
  (try dsimp only)
  repeat' first
    | (with_reducible assumption) | (with_reducible apply setLane_kept) | (with_reducible apply probeEnd_kept)
    | (with_reducible refine kept_fold ?_ _ _ ?_) | (with_reducible refine kept_fold_2 ?_ _ _ ?_)
    | (with_reducible refine kept_fold_1 ?_ _ _ ?_) | intro _ | (simp only [kept_lit]) | (with_reducible apply kept_parts)
    | (with_reducible refine kept_ite ?_ ?_) | (dsimp only [id_eq]) | split

theorem execBusOffRecovery_kept (lane : Fin 96) (s : State) (h : Kept C M s) : ∃ t, execBusOffRecovery lane s = .next t ∧ Kept C M t := by
  unfold execBusOffRecovery
  refine ⟨_, rfl, ?_⟩
  (try dsimp only)
  repeat' first
    | (with_reducible assumption) | (with_reducible apply whenClocked_kept) | (with_reducible apply begin__kept)
    | (with_reducible apply laneToTarget_kept) | (with_reducible apply setLane_kept)
    | (with_reducible refine kept_fold ?_ _ _ ?_) | (with_reducible refine kept_fold_2 ?_ _ _ ?_)
    | (with_reducible refine kept_fold_1 ?_ _ _ ?_) | intro _ | (simp only [kept_lit]) | (with_reducible apply kept_parts)
    | (with_reducible refine kept_ite ?_ ?_) | (dsimp only [id_eq]) | split

theorem execPlcaFallback_kept (lane : Fin 96) (s : State) (h : Kept C M s) : ∃ t, execPlcaFallback lane s = .next t ∧ Kept C M t := by
  unfold execPlcaFallback
  refine ⟨_, rfl, ?_⟩
  (try dsimp only)
  repeat' first
    | (with_reducible assumption) | (with_reducible apply whenClocked_kept) | (with_reducible apply begin__kept)
    | (with_reducible apply setLane_kept) | (with_reducible refine kept_fold ?_ _ _ ?_)
    | (with_reducible refine kept_fold_2 ?_ _ _ ?_) | (with_reducible refine kept_fold_1 ?_ _ _ ?_) | intro _
    | (simp only [kept_lit]) | (with_reducible apply kept_parts) | (with_reducible refine kept_ite ?_ ?_)
    | (dsimp only [id_eq]) | split

theorem execPlcaBeacon_kept (lane : Fin 96) (s : State) (h : Kept C M s) : ∃ t, execPlcaBeacon lane s = .next t ∧ Kept C M t := by
  unfold execPlcaBeacon
  refine ⟨_, rfl, ?_⟩
  (try dsimp only)
  repeat' first
    | (with_reducible assumption) | (with_reducible apply whenClocked_kept) | (with_reducible apply begin__kept)
    | (with_reducible apply setLane_kept) | (with_reducible refine kept_fold ?_ _ _ ?_)
    | (with_reducible refine kept_fold_2 ?_ _ _ ?_) | (with_reducible refine kept_fold_1 ?_ _ _ ?_) | intro _
    | (simp only [kept_lit]) | (with_reducible apply kept_parts) | (with_reducible refine kept_ite ?_ ?_)
    | (dsimp only [id_eq]) | split

theorem execLinHeader_kept (lane : Fin 96) (s : State) (h : Kept C M s) : ∃ t, execLinHeader lane s = .next t ∧ Kept C M t := by
  unfold execLinHeader
  refine ⟨_, rfl, ?_⟩
  (try dsimp only)
  repeat' first
    | (with_reducible assumption) | (with_reducible apply whenRunning_kept) | (with_reducible apply begin__kept)
    | (with_reducible apply setLane_kept) | (with_reducible refine kept_fold ?_ _ _ ?_)
    | (with_reducible refine kept_fold_2 ?_ _ _ ?_) | (with_reducible refine kept_fold_1 ?_ _ _ ?_) | intro _
    | (simp only [kept_lit]) | (with_reducible apply kept_parts) | (with_reducible refine kept_ite ?_ ?_)
    | (dsimp only [id_eq]) | split

theorem applyLane_kept (n : ℕ) (img : List Word) (s : State) (h : Kept C M s) : Kept C M (applyLane n img s) := by
  unfold applyLane
  (try dsimp only)
  repeat' first
    | (with_reducible assumption) | (with_reducible apply flushLane_kept) | (with_reducible apply setLane_kept)
    | (with_reducible apply schedule_kept) | (with_reducible refine kept_fold ?_ _ _ ?_)
    | (with_reducible refine kept_fold_2 ?_ _ _ ?_) | (with_reducible refine kept_fold_1 ?_ _ _ ?_) | intro _
    | (simp only [kept_lit]) | (with_reducible apply kept_parts) | (with_reducible refine kept_ite ?_ ?_)
    | (dsimp only [id_eq]) | split

theorem laneStart_kept (s : State) (n : ℕ) (h : Kept C M s) : Kept C M (laneStart s n) := by
  unfold laneStart
  (try dsimp only)
  repeat' first
    | (with_reducible assumption) | (with_reducible apply setLane_kept) | (with_reducible apply laneToTarget_kept)
    | (with_reducible refine kept_fold ?_ _ _ ?_) | (with_reducible refine kept_fold_2 ?_ _ _ ?_)
    | (with_reducible refine kept_fold_1 ?_ _ _ ?_) | intro _ | (simp only [kept_lit]) | (with_reducible apply kept_parts)
    | (with_reducible refine kept_ite ?_ ?_) | (dsimp only [id_eq]) | split

theorem execLaneConfig_kept (r : Req) (lane : BitVec 8) (img : List Word) (s : State) (h : Kept C M s) (hm : M.map = none) : ∃ t, execLaneConfig r lane img s = .next t ∧ Kept C M t := by
  unfold execLaneConfig
  refine ⟨_, rfl, ?_⟩
  (try dsimp only)
  repeat' first
    | (with_reducible assumption) | (with_reducible apply dispatch_kept) | (with_reducible apply cfgPlan_planKept)
    | (with_reducible apply applyLane_kept) | (with_reducible refine kept_fold ?_ _ _ ?_)
    | (with_reducible refine kept_fold_2 ?_ _ _ ?_) | (with_reducible refine kept_fold_1 ?_ _ _ ?_) | intro _
    | (simp only [kept_lit]) | (with_reducible apply kept_parts) | (with_reducible refine parts_map ?_ hm _)
    | (with_reducible apply begin__kept) | (with_reducible refine kept_ite ?_ ?_) | (dsimp only [id_eq]) | split
    | (with_reducible refine plan_mk ?_)

theorem execLaneRecover_kept (r : Req) (lane : BitVec 8) (s : State) (h : Kept C M s) : ∃ t, execLaneRecover r lane s = .next t ∧ Kept C M t := by
  unfold execLaneRecover
  refine ⟨_, rfl, ?_⟩
  (try dsimp only)
  repeat' first
    | (with_reducible assumption) | (with_reducible apply dispatch_kept) | (with_reducible apply setLane_kept)
    | (with_reducible apply plan_fail) | (with_reducible apply plan_read) | (with_reducible apply plan_noRoom)
    | (with_reducible refine plan_do ?_) | (with_reducible refine plan_doBytes ?_)
    | (with_reducible refine kept_fold ?_ _ _ ?_) | (with_reducible refine kept_fold_2 ?_ _ _ ?_)
    | (with_reducible refine kept_fold_1 ?_ _ _ ?_) | intro _ | (simp only [kept_lit]) | (with_reducible apply kept_parts)
    | (with_reducible apply begin__kept) | (with_reducible refine kept_ite ?_ ?_) | (dsimp only [id_eq]) | split
    | (with_reducible refine plan_mk ?_)

end Sys2Proof.Machine
end

