-- ==== Sys2Proof/Laws/KeepPorts.lean ====
section
/-! SUPPORT. What the operations of `Ports` leave alone. -/

namespace Sys2Proof.Machine

set_option linter.unusedTactic false
set_option linter.unreachableTactic false
set_option linter.unusedSimpArgs false

variable {C : Prop} {M : Mark}

theorem mdioOut_kept (s : State) (n : ℕ) (m : Mdio) (h : Kept C M s) : Kept C M (mdioOut s n m) := by
  unfold mdioOut
  (try dsimp only)
  repeat' first
    | (with_reducible assumption) | (with_reducible refine kept_fold ?_ _ _ ?_)
    | (with_reducible refine kept_fold_2 ?_ _ _ ?_) | (with_reducible refine kept_fold_1 ?_ _ _ ?_) | intro _
    | (simp only [kept_lit]) | (with_reducible apply kept_parts) | (with_reducible refine kept_ite ?_ ?_)
    | (dsimp only [id_eq]) | split

theorem execPortUpDelay_kept (p : Fin 4) (s : State) (h : Kept C M s) : ∃ t, execPortUpDelay p s = .next t ∧ Kept C M t := by
  unfold execPortUpDelay
  refine ⟨_, rfl, ?_⟩
  (try dsimp only)
  repeat' first
    | (with_reducible assumption) | (with_reducible apply whenRunning_kept) | (with_reducible apply begin__kept)
    | (with_reducible apply setPort_kept) | (with_reducible apply portUp_kept) | (with_reducible refine kept_fold ?_ _ _ ?_)
    | (with_reducible refine kept_fold_2 ?_ _ _ ?_) | (with_reducible refine kept_fold_1 ?_ _ _ ?_) | intro _
    | (simp only [kept_lit]) | (with_reducible apply kept_parts) | (with_reducible refine kept_ite ?_ ?_)
    | (dsimp only [id_eq]) | split

theorem execLinkChange_kept (p : Fin 8) (up : Bool) (speed : Fin 6) (s : State) (h : Kept C M s) : ∃ t, execLinkChange p up speed s = .next t ∧ Kept C M t := by
  unfold execLinkChange
  refine ⟨_, rfl, ?_⟩
  (try dsimp only)
  repeat' first
    | (with_reducible assumption) | (with_reducible apply whenRunning_kept) | (with_reducible apply begin__kept)
    | (with_reducible apply setFldi_kept) | (with_reducible apply orReg_kept) | (with_reducible apply raise_kept)
    | (with_reducible apply linkLost_kept) | (with_reducible refine kept_fold ?_ _ _ ?_)
    | (with_reducible refine kept_fold_2 ?_ _ _ ?_) | (with_reducible refine kept_fold_1 ?_ _ _ ?_) | intro _
    | (simp only [kept_lit]) | (with_reducible apply kept_parts) | (with_reducible refine kept_ite ?_ ?_)
    | (dsimp only [id_eq]) | split

theorem execPhyInt_kept (n : Fin 4) (s : State) (h : Kept C M s) : ∃ t, execPhyInt n s = .next t ∧ Kept C M t := by
  unfold execPhyInt
  refine ⟨_, rfl, ?_⟩
  (try dsimp only)
  repeat' first
    | (with_reducible assumption) | (with_reducible apply whenRunning_kept) | (with_reducible apply begin__kept)
    | (with_reducible apply mdioOut_kept) | (with_reducible refine kept_fold ?_ _ _ ?_)
    | (with_reducible refine kept_fold_2 ?_ _ _ ?_) | (with_reducible refine kept_fold_1 ?_ _ _ ?_) | intro _
    | (simp only [kept_lit]) | (with_reducible apply kept_parts) | (with_reducible refine kept_ite ?_ ?_)
    | (dsimp only [id_eq]) | split

theorem pauseScope_kept (s : State) (p : ℕ) (b : ℕ) (quanta : ℕ) (h : Kept C M s) : Kept C M (pauseScope s p b quanta) := by
  unfold pauseScope
  (try dsimp only)
  repeat' first
    | (with_reducible assumption) | (with_reducible apply clrReg_kept) | (with_reducible apply orReg_kept)
    | (with_reducible refine kept_fold ?_ _ _ ?_) | (with_reducible refine kept_fold_2 ?_ _ _ ?_)
    | (with_reducible refine kept_fold_1 ?_ _ _ ?_) | intro _ | (simp only [kept_lit]) | (with_reducible apply kept_parts)
    | (with_reducible refine kept_ite ?_ ?_) | (dsimp only [id_eq]) | split

theorem pauseFrame_kept (s : State) (p : ℕ) (pfc : Bool) (en : BitVec 8) (quanta : List ℕ) (h : Kept C M s) : Kept C M (pauseFrame s p pfc en quanta) := by
  unfold pauseFrame
  (try dsimp only)
  repeat' first
    | (with_reducible assumption) | (with_reducible apply statIncI_kept) | (with_reducible apply pauseScope_kept)
    | (with_reducible refine kept_fold ?_ _ _ ?_) | (with_reducible refine kept_fold_2 ?_ _ _ ?_)
    | (with_reducible refine kept_fold_1 ?_ _ _ ?_) | intro _ | (simp only [kept_lit]) | (with_reducible apply kept_parts)
    | (with_reducible refine kept_ite ?_ ?_) | (dsimp only [id_eq]) | split

theorem execPauseReceived_kept (p : Fin 8) (pfc : Bool) (en : BitVec 8) (quanta : List (BitVec 16)) (s : State) (h : Kept C M s) : ∃ t, execPauseReceived p pfc en quanta s = .next t ∧ Kept C M t := by
  unfold execPauseReceived
  refine ⟨_, rfl, ?_⟩
  (try dsimp only)
  repeat' first
    | (with_reducible assumption) | (with_reducible apply whenRunning_kept) | (with_reducible apply begin__kept)
    | (with_reducible apply stat2AddI_kept) | (with_reducible apply pauseFrame_kept)
    | (with_reducible refine kept_fold ?_ _ _ ?_) | (with_reducible refine kept_fold_2 ?_ _ _ ?_)
    | (with_reducible refine kept_fold_1 ?_ _ _ ?_) | intro _ | (simp only [kept_lit]) | (with_reducible apply kept_parts)
    | (with_reducible refine kept_ite ?_ ?_) | (dsimp only [id_eq]) | split

theorem execPauseExpiry_kept (p : Fin 8) (b : Fin 8) (s : State) (h : Kept C M s) : ∃ t, execPauseExpiry p b s = .next t ∧ Kept C M t := by
  unfold execPauseExpiry
  refine ⟨_, rfl, ?_⟩
  (try dsimp only)
  repeat' first
    | (with_reducible assumption) | (with_reducible apply whenRunning_kept) | (with_reducible apply begin__kept)
    | (with_reducible apply clrReg_kept) | (with_reducible refine kept_fold ?_ _ _ ?_)
    | (with_reducible refine kept_fold_2 ?_ _ _ ?_) | (with_reducible refine kept_fold_1 ?_ _ _ ?_) | intro _
    | (simp only [kept_lit]) | (with_reducible apply kept_parts) | (with_reducible refine kept_ite ?_ ?_)
    | (dsimp only [id_eq]) | split

theorem execPauseWdRx_kept (p : Fin 8) (b : Fin 8) (s : State) (h : Kept C M s) : ∃ t, execPauseWdRx p b s = .next t ∧ Kept C M t := by
  unfold execPauseWdRx
  refine ⟨_, rfl, ?_⟩
  (try dsimp only)
  repeat' first
    | (with_reducible assumption) | (with_reducible apply whenRunning_kept) | (with_reducible apply begin__kept)
    | (with_reducible apply orReg_kept) | (with_reducible apply clrReg_kept) | (with_reducible apply raise_kept)
    | (with_reducible apply statIncI_kept) | (with_reducible refine kept_fold ?_ _ _ ?_)
    | (with_reducible refine kept_fold_2 ?_ _ _ ?_) | (with_reducible refine kept_fold_1 ?_ _ _ ?_) | intro _
    | (simp only [kept_lit]) | (with_reducible apply kept_parts) | (with_reducible refine kept_ite ?_ ?_)
    | (dsimp only [id_eq]) | split

theorem execPauseIgnoreEnd_kept (p : Fin 8) (b : Fin 8) (tx : Bool) (s : State) (h : Kept C M s) : ∃ t, execPauseIgnoreEnd p b tx s = .next t ∧ Kept C M t := by
  unfold execPauseIgnoreEnd
  refine ⟨_, rfl, ?_⟩
  (try dsimp only)
  repeat' first
    | (with_reducible assumption) | (with_reducible apply whenRunning_kept) | (with_reducible apply begin__kept)
    | (with_reducible apply clrReg_kept) | (with_reducible apply setPort_kept) | (with_reducible apply sendPause_kept)
    | (with_reducible apply orReg_kept) | (with_reducible refine kept_fold ?_ _ _ ?_)
    | (with_reducible refine kept_fold_2 ?_ _ _ ?_) | (with_reducible refine kept_fold_1 ?_ _ _ ?_) | intro _
    | (simp only [kept_lit]) | (with_reducible apply kept_parts) | (with_reducible refine kept_ite ?_ ?_)
    | (dsimp only [id_eq]) | split

theorem execPauseWdTx_kept (p : Fin 8) (b : Fin 8) (s : State) (h : Kept C M s) : ∃ t, execPauseWdTx p b s = .next t ∧ Kept C M t := by
  unfold execPauseWdTx
  refine ⟨_, rfl, ?_⟩
  (try dsimp only)
  repeat' first
    | (with_reducible assumption) | (with_reducible apply whenRunning_kept) | (with_reducible apply begin__kept)
    | (with_reducible apply sendPause_kept) | (with_reducible apply clrReg_kept) | (with_reducible apply orReg_kept)
    | (with_reducible apply setPort_kept) | (with_reducible apply raise_kept) | (with_reducible apply statIncI_kept)
    | (with_reducible refine kept_fold ?_ _ _ ?_) | (with_reducible refine kept_fold_2 ?_ _ _ ?_)
    | (with_reducible refine kept_fold_1 ?_ _ _ ?_) | intro _ | (simp only [kept_lit]) | (with_reducible apply kept_parts)
    | (with_reducible refine kept_ite ?_ ?_) | (dsimp only [id_eq]) | split

theorem execPauseRefresh_kept (p : Fin 8) (b : Fin 8) (s : State) (h : Kept C M s) : ∃ t, execPauseRefresh p b s = .next t ∧ Kept C M t := by
  unfold execPauseRefresh
  refine ⟨_, rfl, ?_⟩
  (try dsimp only)
  repeat' first
    | (with_reducible assumption) | (with_reducible apply whenRunning_kept) | (with_reducible apply begin__kept)
    | (with_reducible apply sendPause_kept) | (with_reducible refine kept_fold ?_ _ _ ?_)
    | (with_reducible refine kept_fold_2 ?_ _ _ ?_) | (with_reducible refine kept_fold_1 ?_ _ _ ?_) | intro _
    | (simp only [kept_lit]) | (with_reducible apply kept_parts) | (with_reducible refine kept_ite ?_ ?_)
    | (dsimp only [id_eq]) | split

theorem ppSend_kept (s : State) (c : Content) (dest : ℕ) (h : Kept C M s) : Kept C M (ppSend s c dest) := by
  unfold ppSend
  (try dsimp only)
  repeat' first
    | (with_reducible assumption) | (with_reducible apply draw_kept) | (with_reducible apply stat2AddI_kept)
    | (with_reducible apply commitFrame_kept) | (with_reducible refine kept_fold ?_ _ _ ?_)
    | (with_reducible refine kept_fold_2 ?_ _ _ ?_) | (with_reducible refine kept_fold_1 ?_ _ _ ?_) | intro _
    | (simp only [kept_lit]) | (with_reducible apply kept_parts)
    | (with_reducible refine kept_of_eq_2 ‹draw _ = _› (draw_kept _ ?_))
    | (with_reducible refine kept_of_eq_2 ‹commitFrame _ _ _ _ _ = _› (commitFrame_kept _ _ _ _ _ ?_))
    | (with_reducible refine kept_ite ?_ ?_) | (dsimp only [id_eq]) | split

theorem execLldpSend_kept (p : Fin 8) (s : State) (h : Kept C M s) : ∃ t, execLldpSend p s = .next t ∧ Kept C M t := by
  unfold execLldpSend
  refine ⟨_, rfl, ?_⟩
  (try dsimp only)
  repeat' first
    | (with_reducible assumption) | (with_reducible apply whenRunning_kept) | (with_reducible apply begin__kept)
    | (with_reducible apply draw_kept) | (with_reducible apply ppSend_kept) | (with_reducible apply setPort_kept)
    | (with_reducible apply setFldi_kept) | (with_reducible refine kept_fold ?_ _ _ ?_)
    | (with_reducible refine kept_fold_2 ?_ _ _ ?_) | (with_reducible refine kept_fold_1 ?_ _ _ ?_) | intro _
    | (simp only [kept_lit]) | (with_reducible apply kept_parts)
    | (with_reducible refine kept_of_eq_2 ‹draw _ = _› (draw_kept _ ?_)) | (with_reducible refine kept_ite ?_ ?_)
    | (dsimp only [id_eq]) | split

theorem execLldpReceive_kept (p : Fin 8) (w : WakeTimes) (s : State) (h : Kept C M s) : ∃ t, execLldpReceive p w s = .next t ∧ Kept C M t := by
  unfold execLldpReceive
  refine ⟨_, rfl, ?_⟩
  (try dsimp only)
  repeat' first
    | (with_reducible assumption) | (with_reducible apply whenRunning_kept) | (with_reducible apply begin__kept)
    | (with_reducible apply setPort_kept) | (with_reducible apply setFldi_kept) | (with_reducible apply orReg_kept)
    | (with_reducible refine kept_fold ?_ _ _ ?_) | (with_reducible refine kept_fold_2 ?_ _ _ ?_)
    | (with_reducible refine kept_fold_1 ?_ _ _ ?_) | intro _ | (simp only [kept_lit]) | (with_reducible apply kept_parts)
    | (with_reducible refine kept_ite ?_ ?_) | (dsimp only [id_eq]) | split

theorem lpiLeave_kept (s : State) (p : ℕ) (h : Kept C M s) : Kept C M (lpiLeave s p) := by
  unfold lpiLeave
  (try dsimp only)
  repeat' first
    | (with_reducible assumption) | (with_reducible apply clrReg_kept) | (with_reducible apply setPort_kept)
    | (with_reducible refine kept_fold ?_ _ _ ?_) | (with_reducible refine kept_fold_2 ?_ _ _ ?_)
    | (with_reducible refine kept_fold_1 ?_ _ _ ?_) | intro _ | (simp only [kept_lit]) | (with_reducible apply kept_parts)
    | (with_reducible refine kept_ite ?_ ?_) | (dsimp only [id_eq]) | split

theorem execLldpAgeOut_kept (p : Fin 8) (s : State) (h : Kept C M s) : ∃ t, execLldpAgeOut p s = .next t ∧ Kept C M t := by
  unfold execLldpAgeOut
  refine ⟨_, rfl, ?_⟩
  (try dsimp only)
  repeat' first
    | (with_reducible assumption) | (with_reducible apply whenRunning_kept) | (with_reducible apply begin__kept)
    | (with_reducible apply clrReg_kept) | (with_reducible apply lpiLeave_kept) | (with_reducible apply setPort_kept)
    | (with_reducible refine kept_fold ?_ _ _ ?_) | (with_reducible refine kept_fold_2 ?_ _ _ ?_)
    | (with_reducible refine kept_fold_1 ?_ _ _ ?_) | intro _ | (simp only [kept_lit]) | (with_reducible apply kept_parts)
    | (with_reducible refine kept_ite ?_ ?_) | (dsimp only [id_eq]) | split

theorem execLpiEnter_kept (p : Fin 8) (s : State) (h : Kept C M s) : ∃ t, execLpiEnter p s = .next t ∧ Kept C M t := by
  unfold execLpiEnter
  refine ⟨_, rfl, ?_⟩
  (try dsimp only)
  repeat' first
    | (with_reducible assumption) | (with_reducible apply whenRunning_kept) | (with_reducible apply begin__kept)
    | (with_reducible apply statIncI_kept) | (with_reducible apply orReg_kept) | (with_reducible refine kept_fold ?_ _ _ ?_)
    | (with_reducible refine kept_fold_2 ?_ _ _ ?_) | (with_reducible refine kept_fold_1 ?_ _ _ ?_) | intro _
    | (simp only [kept_lit]) | (with_reducible apply kept_parts) | (with_reducible refine kept_ite ?_ ?_)
    | (dsimp only [id_eq]) | split

theorem execLpiExit_kept (p : Fin 8) (s : State) (h : Kept C M s) : ∃ t, execLpiExit p s = .next t ∧ Kept C M t := by
  unfold execLpiExit
  refine ⟨_, rfl, ?_⟩
  (try dsimp only)
  repeat' first
    | (with_reducible assumption) | (with_reducible apply whenRunning_kept) | (with_reducible apply begin__kept)
    | (with_reducible apply lpiLeave_kept) | (with_reducible refine kept_fold ?_ _ _ ?_)
    | (with_reducible refine kept_fold_2 ?_ _ _ ?_) | (with_reducible refine kept_fold_1 ?_ _ _ ?_) | intro _
    | (simp only [kept_lit]) | (with_reducible apply kept_parts) | (with_reducible refine kept_ite ?_ ?_)
    | (dsimp only [id_eq]) | split

theorem execPartnerLpi_kept (p : Fin 8) (enter : Bool) (s : State) (h : Kept C M s) : ∃ t, execPartnerLpi p enter s = .next t ∧ Kept C M t := by
  unfold execPartnerLpi
  refine ⟨_, rfl, ?_⟩
  (try dsimp only)
  repeat' first
    | (with_reducible assumption) | (with_reducible apply whenRunning_kept) | (with_reducible apply begin__kept)
    | (with_reducible apply clrReg_kept) | (with_reducible apply statIncI_kept) | (with_reducible apply orReg_kept)
    | (with_reducible refine kept_fold ?_ _ _ ?_) | (with_reducible refine kept_fold_2 ?_ _ _ ?_)
    | (with_reducible refine kept_fold_1 ?_ _ _ ?_) | intro _ | (simp only [kept_lit]) | (with_reducible apply kept_parts)
    | (with_reducible refine kept_ite ?_ ?_) | (dsimp only [id_eq]) | split

theorem dropTx_kept (s : State) (n : ℕ) (h : Kept C M s) : Kept C M (dropTx s n) := by
  unfold dropTx
  (try dsimp only)
  repeat' first
    | (with_reducible assumption) | (with_reducible apply dropAt_kept) | (with_reducible apply setEgr_kept)
    | (with_reducible apply setLane_kept) | (with_reducible refine kept_fold ?_ _ _ ?_)
    | (with_reducible refine kept_fold_2 ?_ _ _ ?_) | (with_reducible refine kept_fold_1 ?_ _ _ ?_) | intro _
    | (simp only [kept_lit]) | (with_reducible apply kept_parts) | (with_reducible refine kept_ite ?_ ?_)
    | (dsimp only [id_eq]) | split

theorem execCollision_kept (lane : Fin 96) (late : Bool) (s : State) (h : Kept C M s) : ∃ t, execCollision lane late s = .next t ∧ Kept C M t := by
  unfold execCollision
  refine ⟨_, rfl, ?_⟩
  (try dsimp only)
  repeat' first
    | (with_reducible assumption) | (with_reducible apply whenRunning_kept) | (with_reducible apply begin__kept)
    | (with_reducible apply statIncI_kept) | (with_reducible apply dropTx_kept) | (with_reducible apply setLane_kept)
    | (with_reducible refine kept_fold ?_ _ _ ?_) | (with_reducible refine kept_fold_2 ?_ _ _ ?_)
    | (with_reducible refine kept_fold_1 ?_ _ _ ?_) | intro _ | (simp only [kept_lit]) | (with_reducible apply kept_parts)
    | (with_reducible refine kept_ite ?_ ?_) | (dsimp only [id_eq]) | split

theorem applyPort_kept (p : ℕ) (img : List Word) (s : State) (h : Kept C M s) : Kept C M (applyPort p img s) := by
  unfold applyPort
  (try dsimp only)
  repeat' first
    | (with_reducible assumption) | (with_reducible apply schedule_kept) | (with_reducible apply portDown_kept)
    | (with_reducible refine kept_fold ?_ _ _ ?_) | (with_reducible refine kept_fold_2 ?_ _ _ ?_)
    | (with_reducible refine kept_fold_1 ?_ _ _ ?_) | intro _ | (simp only [kept_lit]) | (with_reducible apply kept_parts)
    | (with_reducible refine kept_ite ?_ ?_) | (dsimp only [id_eq]) | split

theorem portStart_kept (s : State) (p : ℕ) (h : Kept C M s) : Kept C M (portStart s p) := by
  unfold portStart
  (try dsimp only)
  repeat' first
    | (with_reducible assumption) | (with_reducible apply setPort_kept) | (with_reducible apply portUp_kept)
    | (with_reducible refine kept_fold ?_ _ _ ?_) | (with_reducible refine kept_fold_2 ?_ _ _ ?_)
    | (with_reducible refine kept_fold_1 ?_ _ _ ?_) | intro _ | (simp only [kept_lit]) | (with_reducible apply kept_parts)
    | (with_reducible refine kept_ite ?_ ?_) | (dsimp only [id_eq]) | split

theorem execPortConfig_kept (r : Req) (port : BitVec 8) (img : List Word) (s : State) (h : Kept C M s) (hm : M.map = none) : ∃ t, execPortConfig r port img s = .next t ∧ Kept C M t := by
  unfold execPortConfig
  refine ⟨_, rfl, ?_⟩
  (try dsimp only)
  repeat' first
    | (with_reducible assumption) | (with_reducible apply dispatch_kept) | (with_reducible apply cfgPlan_planKept)
    | (with_reducible apply applyPort_kept) | (with_reducible refine kept_fold ?_ _ _ ?_)
    | (with_reducible refine kept_fold_2 ?_ _ _ ?_) | (with_reducible refine kept_fold_1 ?_ _ _ ?_) | intro _
    | (simp only [kept_lit]) | (with_reducible apply kept_parts) | (with_reducible refine parts_map ?_ hm _)
    | (with_reducible apply begin__kept) | (with_reducible refine kept_ite ?_ ?_) | (dsimp only [id_eq]) | split
    | (with_reducible refine plan_mk ?_)

theorem Plan.withMdio_planKept (p : Plan) (n : ℕ) (m : Mdio) (hp : PlanKept C M p) : PlanKept C M (Plan.withMdio p n m) :=
  plan_mk fun _ h => hp.act _ (mdioOut_kept _ _ _ h)

theorem execPhyRead_kept (r : Req) (phy : BitVec 8) (clause : BitVec 8) (dev : BitVec 8) (reg : BitVec 16) (value : Option (BitVec 16)) (s : State) (h : Kept C M s) : ∃ t, execPhyRead r phy clause dev reg value s = .next t ∧ Kept C M t := by
  unfold execPhyRead
  refine ⟨_, rfl, ?_⟩
  (try dsimp only)
  repeat' first
    | (with_reducible assumption) | (with_reducible apply dispatch_kept) | (with_reducible apply Plan.withMdio_planKept)
    | (with_reducible apply plan_fail) | (with_reducible apply plan_read) | (with_reducible apply plan_noRoom)
    | (with_reducible refine plan_do ?_) | (with_reducible refine plan_doBytes ?_)
    | (with_reducible refine kept_fold ?_ _ _ ?_) | (with_reducible refine kept_fold_2 ?_ _ _ ?_)
    | (with_reducible refine kept_fold_1 ?_ _ _ ?_) | intro _ | (simp only [kept_lit]) | (with_reducible apply kept_parts)
    | (with_reducible apply begin__kept) | (with_reducible refine kept_ite ?_ ?_) | (dsimp only [id_eq]) | split
    | (with_reducible refine plan_mk ?_)

theorem execPhyWrite_kept (r : Req) (phy : BitVec 8) (clause : BitVec 8) (dev : BitVec 8) (reg : BitVec 16) (value : BitVec 16) (answered : Bool) (s : State) (h : Kept C M s) (hm : M.map = none) : ∃ t, execPhyWrite r phy clause dev reg value answered s = .next t ∧ Kept C M t := by
  unfold execPhyWrite
  refine ⟨_, rfl, ?_⟩
  (try dsimp only)
  repeat' first
    | (with_reducible assumption) | (with_reducible apply dispatch_kept) | (with_reducible apply Plan.withMdio_planKept)
    | (with_reducible apply cfgPlan_planKept) | (with_reducible apply plan_fail) | (with_reducible apply plan_read)
    | (with_reducible apply plan_noRoom) | (with_reducible refine plan_do ?_) | (with_reducible refine plan_doBytes ?_)
    | (with_reducible refine kept_fold ?_ _ _ ?_) | (with_reducible refine kept_fold_2 ?_ _ _ ?_)
    | (with_reducible refine kept_fold_1 ?_ _ _ ?_) | intro _ | (simp only [kept_lit]) | (with_reducible apply kept_parts)
    | (with_reducible refine parts_map ?_ hm _) | (with_reducible apply begin__kept) | (with_reducible refine kept_ite ?_ ?_)
    | (dsimp only [id_eq]) | split | (with_reducible refine plan_mk ?_)

end Sys2Proof.Machine
end

