-- ==== Sys2Proof/Laws/KeepSched.lean ====
section
/-! SUPPORT. What the operations of `Sched` leave alone. -/

namespace Sys2Proof.Machine

set_option linter.unusedTactic false
set_option linter.unreachableTactic false
set_option linter.unusedSimpArgs false

variable {C : Prop} {M : Mark}

theorem refillPol_kept (s : State) (k : ℕ) (n : ℕ) (h : Kept C M s) : Kept C M (refillPol s k n) := by
  unfold refillPol
  (try dsimp only)
  repeat' first
    | (with_reducible assumption) | (with_reducible apply wri_kept) | (with_reducible refine kept_fold ?_ _ _ ?_)
    | (with_reducible refine kept_fold_2 ?_ _ _ ?_) | (with_reducible refine kept_fold_1 ?_ _ _ ?_) | intro _
    | (simp only [kept_lit]) | (with_reducible apply kept_parts) | (with_reducible refine kept_ite ?_ ?_)
    | (dsimp only [id_eq]) | split

theorem refillSh_kept (s : State) (e : ℕ) (q : ℕ) (n : ℕ) (h : Kept C M s) : Kept C M (refillSh s e q n) := by
  unfold refillSh
  (try dsimp only)
  repeat' first
    | (with_reducible assumption) | (with_reducible apply setFldi_kept) | (with_reducible refine kept_fold ?_ _ _ ?_)
    | (with_reducible refine kept_fold_2 ?_ _ _ ?_) | (with_reducible refine kept_fold_1 ?_ _ _ ?_) | intro _
    | (simp only [kept_lit]) | (with_reducible apply kept_parts) | (with_reducible refine kept_ite ?_ ?_)
    | (dsimp only [id_eq]) | split

theorem refillTask_kept (s : State) (polMiss : List ℕ) (shMiss : List ℕ) (h : Kept C M s) : Kept C M (refillTask s polMiss shMiss) := by
  unfold refillTask
  (try dsimp only)
  repeat' first
    | (with_reducible assumption) | (with_reducible apply refillPol_kept) | (with_reducible apply refillSh_kept)
    | (with_reducible refine kept_fold ?_ _ _ ?_) | (with_reducible refine kept_fold_2 ?_ _ _ ?_)
    | (with_reducible refine kept_fold_1 ?_ _ _ ?_) | intro _ | (simp only [kept_lit]) | (with_reducible apply kept_parts)
    | (with_reducible refine kept_ite ?_ ?_) | (dsimp only [id_eq]) | split

theorem rescale_kept (s : State) (new : ℕ) (h : Kept C M s) : Kept C M (rescale s new) := by
  unfold rescale
  (try dsimp only)
  repeat' first
    | (with_reducible assumption) | (with_reducible apply setFldi_kept) | (with_reducible refine kept_fold ?_ _ _ ?_)
    | (with_reducible refine kept_fold_2 ?_ _ _ ?_) | (with_reducible refine kept_fold_1 ?_ _ _ ?_) | intro _
    | (simp only [kept_lit]) | (with_reducible apply kept_parts) | (with_reducible refine kept_ite ?_ ?_)
    | (dsimp only [id_eq]) | split

theorem markFrame_kept (s : State) (k : ℕ) (pre : Colour) (h : Kept C M s) : Kept C M (markFrame s k pre).2 := by
  unfold markFrame
  (try dsimp only)
  repeat' first
    | (with_reducible assumption) | (with_reducible apply statIncI_kept) | (with_reducible apply setFldi_kept)
    | (with_reducible refine kept_fold ?_ _ _ ?_) | (with_reducible refine kept_fold_2 ?_ _ _ ?_)
    | (with_reducible refine kept_fold_1 ?_ _ _ ?_) | intro _ | (simp only [kept_lit]) | (with_reducible apply kept_parts)
    | (with_reducible refine kept_ite ?_ ?_) | (dsimp only [id_eq]) | split

theorem gclEnter_kept (s : State) (e : ℕ) (k : ℕ) (h : Kept C M s) : Kept C M (gclEnter s e k) := by
  unfold gclEnter
  (try dsimp only)
  repeat' first
    | (with_reducible assumption) | (with_reducible apply wri_kept) | (with_reducible apply setEgr_kept)
    | (with_reducible refine kept_fold ?_ _ _ ?_) | (with_reducible refine kept_fold_2 ?_ _ _ ?_)
    | (with_reducible refine kept_fold_1 ?_ _ _ ?_) | intro _ | (simp only [kept_lit]) | (with_reducible apply kept_parts)
    | (with_reducible refine kept_ite ?_ ?_) | (dsimp only [id_eq]) | split

theorem gclOpen_kept (s : State) (e : ℕ) (h : Kept C M s) : Kept C M (gclOpen s e) := by
  unfold gclOpen
  (try dsimp only)
  repeat' first
    | (with_reducible assumption) | (with_reducible apply setEgr_kept) | (with_reducible apply wri_kept)
    | (with_reducible refine kept_fold ?_ _ _ ?_) | (with_reducible refine kept_fold_2 ?_ _ _ ?_)
    | (with_reducible refine kept_fold_1 ?_ _ _ ?_) | intro _ | (simp only [kept_lit]) | (with_reducible apply kept_parts)
    | (with_reducible refine kept_ite ?_ ?_) | (dsimp only [id_eq]) | split

theorem gclShow_kept (s : State) (ns : ℕ) (e : ℕ) (g : GateList) (h : Kept C M s) : Kept C M (gclShow s ns e g) := by
  unfold gclShow
  (try dsimp only)
  repeat' first
    | (with_reducible assumption) | (with_reducible apply wri_kept) | (with_reducible refine kept_fold ?_ _ _ ?_)
    | (with_reducible refine kept_fold_2 ?_ _ _ ?_) | (with_reducible refine kept_fold_1 ?_ _ _ ?_) | intro _
    | (simp only [kept_lit]) | (with_reducible apply kept_parts) | (with_reducible refine kept_ite ?_ ?_)
    | (dsimp only [id_eq]) | split

theorem gclLoad_kept (s : State) (e : ℕ) (g : GateList) (h : Kept C M s) : Kept C M (gclLoad s e g) := by
  unfold gclLoad
  (try dsimp only)
  repeat' first
    | (with_reducible assumption) | (with_reducible apply gclOpen_kept) | (with_reducible apply setEgr_kept)
    | (with_reducible apply gclShow_kept) | (with_reducible refine kept_fold ?_ _ _ ?_)
    | (with_reducible refine kept_fold_2 ?_ _ _ ?_) | (with_reducible refine kept_fold_1 ?_ _ _ ?_) | intro _
    | (simp only [kept_lit]) | (with_reducible apply kept_parts) | (with_reducible refine kept_ite ?_ ?_)
    | (dsimp only [id_eq]) | split

theorem gateAdvance_kept (s : State) (e : ℕ) (idx : ℕ) (h : Kept C M s) : Kept C M (gateAdvance s e idx).2 := by
  unfold gateAdvance
  (try dsimp only)
  repeat' first
    | (with_reducible assumption) | (with_reducible apply gclLoad_kept) | (with_reducible apply gclEnter_kept)
    | (with_reducible apply setEgr_kept) | (with_reducible refine kept_fold ?_ _ _ ?_)
    | (with_reducible refine kept_fold_2 ?_ _ _ ?_) | (with_reducible refine kept_fold_1 ?_ _ _ ?_) | intro _
    | (simp only [kept_lit]) | (with_reducible apply kept_parts) | (with_reducible refine kept_ite ?_ ?_)
    | (dsimp only [id_eq]) | split

theorem gateCatchUp_kept (e : Nat) (idx : Nat) : ∀ (n : Nat) (entered : Bool) (s : State), Kept C M s →
    Kept C M (gateCatchUp e idx n entered s)
  | 0, entered, s, h => by
    have h1 := gateAdvance_kept s e idx h
    unfold gateCatchUp
    generalize gateAdvance s e idx = p at h1 ⊢
    exact kept_ite (statIncI_kept _ _ _ h1) h1
  | n + 1, entered, s, h => by
    have h1 := gateAdvance_kept s e (idx - (n + 1)) h
    unfold gateCatchUp
    generalize gateAdvance s e (idx - (n + 1)) = p at h1 ⊢
    exact gateCatchUp_kept e idx n _ _ (kept_ite (statIncI_kept _ _ _ h1) h1)

theorem gateTask_kept (s : State) (miss : List ℕ) (h : Kept C M s) : Kept C M (gateTask s miss) := by
  unfold gateTask
  (try dsimp only)
  repeat' first
    | (with_reducible assumption) | (with_reducible apply gateCatchUp_kept) | (with_reducible refine kept_fold ?_ _ _ ?_)
    | (with_reducible refine kept_fold_2 ?_ _ _ ?_) | (with_reducible refine kept_fold_1 ?_ _ _ ?_) | intro _
    | (simp only [kept_lit]) | (with_reducible apply kept_parts) | (with_reducible refine kept_ite ?_ ?_)
    | (dsimp only [id_eq]) | split

theorem captureCarry_kept (s : State) (e : ℕ) (node : ℕ) (ing : ℕ) (time : BitVec 64) (expv : Word) (got : Word) (h : Kept C M s) : Kept C M (captureCarry s e node ing time expv got) := by
  unfold captureCarry
  (try dsimp only)
  repeat' first
    | (with_reducible assumption) | (with_reducible apply wr_kept) | (with_reducible refine kept_fold ?_ _ _ ?_)
    | (with_reducible refine kept_fold_2 ?_ _ _ ?_) | (with_reducible refine kept_fold_1 ?_ _ _ ?_) | intro _
    | (simp only [kept_lit]) | (with_reducible apply kept_parts) | (with_reducible refine kept_ite ?_ ?_)
    | (dsimp only [id_eq]) | split

theorem carryFail_kept (s : State) (e : ℕ) (h0 : ℕ) (f : Frame) (got : Word) (h : Kept C M s) : Kept C M (carryFail s e h0 f got) := by
  unfold carryFail
  (try dsimp only)
  repeat' first
    | (with_reducible assumption) | (with_reducible apply dropAt_kept) | (with_reducible apply statInc_kept)
    | (with_reducible apply statIncI_kept) | (with_reducible apply raise_kept) | (with_reducible apply captureCarry_kept)
    | (with_reducible refine kept_fold ?_ _ _ ?_) | (with_reducible refine kept_fold_2 ?_ _ _ ?_)
    | (with_reducible refine kept_fold_1 ?_ _ _ ?_) | intro _ | (simp only [kept_lit]) | (with_reducible apply kept_parts)
    | (with_reducible refine kept_ite ?_ ?_) | (dsimp only [id_eq]) | split

theorem setEnt_kept (s : State) (e : ℕ) (q : ℕ) (i : ℕ) (x : QEnt) (h : Kept C M s) : Kept C M (setEnt s e q i x) := by
  unfold setEnt
  (try dsimp only)
  repeat' first
    | (with_reducible assumption) | (with_reducible apply setQueue_kept) | (with_reducible refine kept_fold ?_ _ _ ?_)
    | (with_reducible refine kept_fold_2 ?_ _ _ ?_) | (with_reducible refine kept_fold_1 ?_ _ _ ?_) | intro _
    | (simp only [kept_lit]) | (with_reducible apply kept_parts) | (with_reducible refine kept_ite ?_ ?_)
    | (dsimp only [id_eq]) | split

theorem verifyAt_kept (s : State) (e : ℕ) (q : ℕ) (corrupt : Option (List Byte)) (h : Kept C M s) : Kept C M (verifyAt s e q corrupt) := by
  unfold verifyAt
  (try dsimp only)
  repeat' first
    | (with_reducible assumption) | (with_reducible apply draw_kept) | (with_reducible apply carryFail_kept)
    | (with_reducible apply removeEnt_kept) | (with_reducible apply statInc_kept) | (with_reducible apply dropAt_kept)
    | (with_reducible apply setEnt_kept) | (with_reducible refine kept_fold ?_ _ _ ?_)
    | (with_reducible refine kept_fold_2 ?_ _ _ ?_) | (with_reducible refine kept_fold_1 ?_ _ _ ?_) | intro _
    | (simp only [kept_lit]) | (with_reducible apply kept_parts)
    | (with_reducible refine kept_of_eq_2 ‹draw _ = _› (draw_kept _ ?_)) | (with_reducible refine kept_ite ?_ ?_)
    | (dsimp only [id_eq]) | split

theorem execCarryVerify_kept (egr : Fin 106) (q : Fin 8) (corrupt : Option (List Byte)) (s : State) (h : Kept C M s) : ∃ t, execCarryVerify egr q corrupt s = .next t ∧ Kept C M t := by
  unfold execCarryVerify
  refine ⟨_, rfl, ?_⟩
  (try dsimp only)
  repeat' first
    | (with_reducible assumption) | (with_reducible apply whenRunning_kept) | (with_reducible apply begin__kept)
    | (with_reducible apply verifyAt_kept) | (with_reducible refine kept_fold ?_ _ _ ?_)
    | (with_reducible refine kept_fold_2 ?_ _ _ ?_) | (with_reducible refine kept_fold_1 ?_ _ _ ?_) | intro _
    | (simp only [kept_lit]) | (with_reducible apply kept_parts) | (with_reducible refine kept_ite ?_ ?_)
    | (dsimp only [id_eq]) | split

theorem launchMisses_kept (s : State) (e : ℕ) (q : ℕ) (h : Kept C M s) : Kept C M (launchMisses s e q) := by
  unfold launchMisses
  (try dsimp only)
  repeat' first
    | (with_reducible assumption) | (with_reducible apply statIncI_kept) | (with_reducible apply setQueue_kept)
    | (with_reducible apply dropAt_kept) | (with_reducible apply removeEnt_kept) | (with_reducible refine kept_fold ?_ _ _ ?_)
    | (with_reducible refine kept_fold_2 ?_ _ _ ?_) | (with_reducible refine kept_fold_1 ?_ _ _ ?_) | intro _
    | (simp only [kept_lit]) | (with_reducible apply kept_parts) | (with_reducible refine kept_ite ?_ ?_)
    | (dsimp only [id_eq]) | split

theorem execLaunchMiss_kept (egr : Fin 104) (q : Fin 8) (s : State) (h : Kept C M s) : ∃ t, execLaunchMiss egr q s = .next t ∧ Kept C M t := by
  unfold execLaunchMiss
  refine ⟨_, rfl, ?_⟩
  (try dsimp only)
  repeat' first
    | (with_reducible assumption) | (with_reducible apply whenRunning_kept) | (with_reducible apply begin__kept)
    | (with_reducible apply launchMisses_kept) | (with_reducible refine kept_fold ?_ _ _ ?_)
    | (with_reducible refine kept_fold_2 ?_ _ _ ?_) | (with_reducible refine kept_fold_1 ?_ _ _ ?_) | intro _
    | (simp only [kept_lit]) | (with_reducible apply kept_parts) | (with_reducible refine kept_ite ?_ ?_)
    | (dsimp only [id_eq]) | split

theorem setSpent_kept (s : State) (e : ℕ) (q : ℕ) (n : ℕ) (h : Kept C M s) : Kept C M (setSpent s e q n) := by
  unfold setSpent
  (try dsimp only)
  repeat' first
    | (with_reducible assumption) | (with_reducible refine kept_fold ?_ _ _ ?_)
    | (with_reducible refine kept_fold_2 ?_ _ _ ?_) | (with_reducible refine kept_fold_1 ?_ _ _ ?_) | intro _
    | (simp only [kept_lit]) | (with_reducible apply kept_parts) | (with_reducible refine kept_ite ?_ ?_)
    | (dsimp only [id_eq]) | split

theorem pick_kept (s : State) (e : ℕ) (h : Kept C M s) : Kept C M (pick s e).2 := by
  unfold pick
  (try dsimp only)
  repeat' first
    | (with_reducible assumption) | (with_reducible apply setSpent_kept) | (with_reducible refine kept_fold ?_ _ _ ?_)
    | (with_reducible refine kept_fold_2 ?_ _ _ ?_) | (with_reducible refine kept_fold_1 ?_ _ _ ?_) | intro _
    | (simp only [kept_lit]) | (with_reducible apply kept_parts) | (with_reducible refine kept_ite ?_ ?_)
    | (dsimp only [id_eq]) | split

theorem dropOversize_kept (s : State) (e : ℕ) (h : Kept C M s) : Kept C M (dropOversize s e) := by
  unfold dropOversize
  (try dsimp only)
  repeat' first
    | (with_reducible assumption) | (with_reducible apply statIncI_kept) | (with_reducible apply dropAt_kept)
    | (with_reducible apply removeEnt_kept) | (with_reducible refine kept_fold ?_ _ _ ?_)
    | (with_reducible refine kept_fold_2 ?_ _ _ ?_) | (with_reducible refine kept_fold_1 ?_ _ _ ?_) | intro _
    | (simp only [kept_lit]) | (with_reducible apply kept_parts) | (with_reducible refine kept_ite ?_ ?_)
    | (dsimp only [id_eq]) | split

theorem bypassed_kept (s : State) (e : ℕ) (q : ℕ) (i : ℕ) (h : Kept C M s) : Kept C M (bypassed s e q i) := by
  unfold bypassed
  (try dsimp only)
  repeat' first
    | (with_reducible assumption) | (with_reducible apply statIncI_kept) | (with_reducible refine kept_fold ?_ _ _ ?_)
    | (with_reducible refine kept_fold_2 ?_ _ _ ?_) | (with_reducible refine kept_fold_1 ?_ _ _ ?_) | intro _
    | (simp only [kept_lit]) | (with_reducible apply kept_parts) | (with_reducible refine kept_ite ?_ ?_)
    | (dsimp only [id_eq]) | split

theorem startTx_kept (s : State) (e : ℕ) (q : ℕ) (i : ℕ) (h : Kept C M s) : Kept C M (startTx s e q i) := by
  unfold startTx
  (try dsimp only)
  repeat' first
    | (with_reducible assumption) | (with_reducible apply removeEnt_kept) | (with_reducible apply statInc_kept)
    | (with_reducible apply dropAt_kept) | (with_reducible apply setFldi_kept) | (with_reducible apply setEgr_kept)
    | (with_reducible apply setSpent_kept) | (with_reducible apply bypassed_kept) | (with_reducible apply draw_kept)
    | (with_reducible refine kept_fold ?_ _ _ ?_) | (with_reducible refine kept_fold_2 ?_ _ _ ?_)
    | (with_reducible refine kept_fold_1 ?_ _ _ ?_) | intro _ | (simp only [kept_lit]) | (with_reducible apply kept_parts)
    | (with_reducible refine kept_of_eq_2 ‹draw _ = _› (draw_kept _ ?_)) | (with_reducible refine kept_ite ?_ ?_)
    | (dsimp only [id_eq]) | split

theorem serve_kept (s : State) (e : ℕ) (q : ℕ) (i : ℕ) (h : Kept C M s) : Kept C M (serve s e q i) := by
  unfold serve
  (try dsimp only)
  repeat' first
    | (with_reducible assumption) | (with_reducible apply rsqDequeue_kept) | (with_reducible apply removeEnt_kept)
    | (with_reducible apply bypassed_kept) | (with_reducible apply startTx_kept) | (with_reducible refine kept_fold ?_ _ _ ?_)
    | (with_reducible refine kept_fold_2 ?_ _ _ ?_) | (with_reducible refine kept_fold_1 ?_ _ _ ?_) | intro _
    | (simp only [kept_lit]) | (with_reducible apply kept_parts) | (with_reducible refine kept_ite ?_ ?_)
    | (dsimp only [id_eq]) | split

theorem pickStart_kept (s : State) (e : ℕ) (h : Kept C M s) : Kept C M (pickStart s e) := by
  unfold pickStart
  (try dsimp only)
  repeat' first
    | (with_reducible assumption) | (with_reducible apply dropOversize_kept) | (with_reducible apply pick_kept)
    | (with_reducible apply serve_kept) | (with_reducible refine kept_fold ?_ _ _ ?_)
    | (with_reducible refine kept_fold_2 ?_ _ _ ?_) | (with_reducible refine kept_fold_1 ?_ _ _ ?_) | intro _
    | (simp only [kept_lit]) | (with_reducible apply kept_parts)
    | (with_reducible refine kept_of_eq_2 ‹pick _ _ = _› (pick_kept _ _ ?_)) | (with_reducible refine kept_ite ?_ ?_)
    | (dsimp only [id_eq]) | split

theorem execEgressPick_kept (egr : Fin 106) (s : State) (h : Kept C M s) : ∃ t, execEgressPick egr s = .next t ∧ Kept C M t := by
  unfold execEgressPick
  refine ⟨_, rfl, ?_⟩
  (try dsimp only)
  repeat' first
    | (with_reducible assumption) | (with_reducible apply whenRunning_kept) | (with_reducible apply begin__kept)
    | (with_reducible apply pickStart_kept) | (with_reducible refine kept_fold ?_ _ _ ?_)
    | (with_reducible refine kept_fold_2 ?_ _ _ ?_) | (with_reducible refine kept_fold_1 ?_ _ _ ?_) | intro _
    | (simp only [kept_lit]) | (with_reducible apply kept_parts) | (with_reducible refine kept_ite ?_ ?_)
    | (dsimp only [id_eq]) | split

theorem execLaunchTimeReached_kept (egr : Fin 104) (q : Fin 8) (s : State) (h : Kept C M s) : ∃ t, execLaunchTimeReached egr q s = .next t ∧ Kept C M t := by
  unfold execLaunchTimeReached
  refine ⟨_, rfl, ?_⟩
  (try dsimp only)
  repeat' first
    | (with_reducible assumption) | (with_reducible apply whenRunning_kept) | (with_reducible apply begin__kept)
    | (with_reducible apply pickStart_kept) | (with_reducible refine kept_fold ?_ _ _ ?_)
    | (with_reducible refine kept_fold_2 ?_ _ _ ?_) | (with_reducible refine kept_fold_1 ?_ _ _ ?_) | intro _
    | (simp only [kept_lit]) | (with_reducible apply kept_parts) | (with_reducible refine kept_ite ?_ ?_)
    | (dsimp only [id_eq]) | split

theorem execCanArbitrationEnd_kept (lane : Fin 96) (error : Bool) (s : State) (h : Kept C M s) : ∃ t, execCanArbitrationEnd lane error s = .next t ∧ Kept C M t := by
  unfold execCanArbitrationEnd
  refine ⟨_, rfl, ?_⟩
  (try dsimp only)
  repeat' first
    | (with_reducible assumption) | (with_reducible apply whenRunning_kept) | (with_reducible apply begin__kept)
    | (with_reducible apply returnTx_kept) | (with_reducible apply canTxError_kept)
    | (with_reducible refine kept_fold ?_ _ _ ?_) | (with_reducible refine kept_fold_2 ?_ _ _ ?_)
    | (with_reducible refine kept_fold_1 ?_ _ _ ?_) | intro _ | (simp only [kept_lit]) | (with_reducible apply kept_parts)
    | (with_reducible refine kept_ite ?_ ?_) | (dsimp only [id_eq]) | split

theorem setPaid_kept (s : State) (e : ℕ) (q : ℕ) (i : ℕ) (h : Kept C M s) : Kept C M (setPaid s e q i) := by
  unfold setPaid
  (try dsimp only)
  repeat' first
    | (with_reducible assumption) | (with_reducible apply setQueue_kept) | (with_reducible refine kept_fold ?_ _ _ ?_)
    | (with_reducible refine kept_fold_2 ?_ _ _ ?_) | (with_reducible refine kept_fold_1 ?_ _ _ ?_) | intro _
    | (simp only [kept_lit]) | (with_reducible apply kept_parts) | (with_reducible refine kept_ite ?_ ?_)
    | (dsimp only [id_eq]) | split

theorem linAnswer_kept (s : State) (n : ℕ) (id : ℕ) (h : Kept C M s) : Kept C M (linAnswer s n id) := by
  unfold linAnswer
  (try dsimp only)
  repeat' first
    | (with_reducible assumption) | (with_reducible apply startTx_kept) | (with_reducible apply setPaid_kept)
    | (with_reducible apply rsqDequeue_kept) | (with_reducible apply removeEnt_kept)
    | (with_reducible refine kept_fold ?_ _ _ ?_) | (with_reducible refine kept_fold_2 ?_ _ _ ?_)
    | (with_reducible refine kept_fold_1 ?_ _ _ ?_) | intro _ | (simp only [kept_lit]) | (with_reducible apply kept_parts)
    | (with_reducible refine kept_ite ?_ ?_) | (dsimp only [id_eq]) | split

theorem execLinResponse_kept (lane : Fin 96) (id : Fin 64) (rate : BitVec 16) (missing : Bool) (s : State) (h : Kept C M s) : ∃ t, execLinResponse lane id rate missing s = .next t ∧ Kept C M t := by
  unfold execLinResponse
  refine ⟨_, rfl, ?_⟩
  (try dsimp only)
  repeat' first
    | (with_reducible assumption) | (with_reducible apply whenRunning_kept) | (with_reducible apply begin__kept)
    | (with_reducible apply setLane_kept) | (with_reducible apply linAnswer_kept) | (with_reducible apply statIncI_kept)
    | (with_reducible refine kept_fold ?_ _ _ ?_) | (with_reducible refine kept_fold_2 ?_ _ _ ?_)
    | (with_reducible refine kept_fold_1 ?_ _ _ ?_) | intro _ | (simp only [kept_lit]) | (with_reducible apply kept_parts)
    | (with_reducible refine kept_ite ?_ ?_) | (dsimp only [id_eq]) | split

theorem execRsqTimeout_kept (stream : BitVec 12) (egr : Fin 106) (s : State) (h : Kept C M s) : ∃ t, execRsqTimeout stream egr s = .next t ∧ Kept C M t := by
  unfold execRsqTimeout
  refine ⟨_, rfl, ?_⟩
  (try dsimp only)
  repeat' first
    | (with_reducible assumption) | (with_reducible apply whenRunning_kept) | (with_reducible apply begin__kept)
    | (with_reducible apply rsqTimeout_kept) | (with_reducible refine kept_fold ?_ _ _ ?_)
    | (with_reducible refine kept_fold_2 ?_ _ _ ?_) | (with_reducible refine kept_fold_1 ?_ _ _ ?_) | intro _
    | (simp only [kept_lit]) | (with_reducible apply kept_parts) | (with_reducible refine kept_ite ?_ ?_)
    | (dsimp only [id_eq]) | split

theorem execRsqContextExpiry_kept (stream : BitVec 12) (egr : Fin 106) (s : State) (h : Kept C M s) : ∃ t, execRsqContextExpiry stream egr s = .next t ∧ Kept C M t := by
  unfold execRsqContextExpiry
  refine ⟨_, rfl, ?_⟩
  (try dsimp only)
  repeat' first
    | (with_reducible assumption) | (with_reducible apply whenRunning_kept) | (with_reducible apply begin__kept)
    | (with_reducible apply setCtx_kept) | (with_reducible refine kept_fold ?_ _ _ ?_)
    | (with_reducible refine kept_fold_2 ?_ _ _ ?_) | (with_reducible refine kept_fold_1 ?_ _ _ ?_) | intro _
    | (simp only [kept_lit]) | (with_reducible apply kept_parts) | (with_reducible refine kept_ite ?_ ?_)
    | (dsimp only [id_eq]) | split

theorem applyPol_kept (n : ℕ) (img : List Word) (s : State) (h : Kept C M s) : Kept C M (applyPol n img s) := by
  unfold applyPol
  (try dsimp only)
  repeat' first
    | (with_reducible assumption) | (with_reducible apply schedule_kept) | (with_reducible refine kept_fold ?_ _ _ ?_)
    | (with_reducible refine kept_fold_2 ?_ _ _ ?_) | (with_reducible refine kept_fold_1 ?_ _ _ ?_) | intro _
    | (simp only [kept_lit]) | (with_reducible apply kept_parts) | (with_reducible refine kept_ite ?_ ?_)
    | (dsimp only [id_eq]) | split

theorem polStart_kept (s : State) (n : ℕ) (h : Kept C M s) : Kept C M (polStart s n) := by
  unfold polStart
  (try dsimp only)
  repeat' first
    | (with_reducible assumption) | (with_reducible apply wri_kept) | (with_reducible refine kept_fold ?_ _ _ ?_)
    | (with_reducible refine kept_fold_2 ?_ _ _ ?_) | (with_reducible refine kept_fold_1 ?_ _ _ ?_) | intro _
    | (simp only [kept_lit]) | (with_reducible apply kept_parts) | (with_reducible refine kept_ite ?_ ?_)
    | (dsimp only [id_eq]) | split

theorem execPolConfig_kept (r : Req) (policer : BitVec 16) (img : List Word) (s : State) (h : Kept C M s) (hm : M.map = none) : ∃ t, execPolConfig r policer img s = .next t ∧ Kept C M t := by
  unfold execPolConfig
  refine ⟨_, rfl, ?_⟩
  (try dsimp only)
  repeat' first
    | (with_reducible assumption) | (with_reducible apply dispatch_kept) | (with_reducible apply cfgPlan_planKept)
    | (with_reducible apply applyPol_kept) | (with_reducible refine kept_fold ?_ _ _ ?_)
    | (with_reducible refine kept_fold_2 ?_ _ _ ?_) | (with_reducible refine kept_fold_1 ?_ _ _ ?_) | intro _
    | (simp only [kept_lit]) | (with_reducible apply kept_parts) | (with_reducible refine parts_map ?_ hm _)
    | (with_reducible apply begin__kept) | (with_reducible refine kept_ite ?_ ?_) | (dsimp only [id_eq]) | split
    | (with_reducible refine plan_mk ?_)

theorem applySch_kept (egr : ℕ) (p : SchParam) (s : State) (h : Kept C M s) : Kept C M (applySch egr p s) := by
  unfold applySch
  (try dsimp only)
  repeat' first
    | (with_reducible assumption) | (with_reducible apply schedule_kept) | (with_reducible refine kept_fold ?_ _ _ ?_)
    | (with_reducible refine kept_fold_2 ?_ _ _ ?_) | (with_reducible refine kept_fold_1 ?_ _ _ ?_) | intro _
    | (simp only [kept_lit]) | (with_reducible apply kept_parts) | (with_reducible refine kept_ite ?_ ?_)
    | (dsimp only [id_eq]) | split

theorem queuesStart_kept (s : State) (e : ℕ) (h : Kept C M s) : Kept C M (queuesStart s e) := by
  unfold queuesStart
  (try dsimp only)
  repeat' first
    | (with_reducible assumption) | (with_reducible apply setFldi_kept) | (with_reducible apply setSpent_kept)
    | (with_reducible refine kept_fold ?_ _ _ ?_) | (with_reducible refine kept_fold_2 ?_ _ _ ?_)
    | (with_reducible refine kept_fold_1 ?_ _ _ ?_) | intro _ | (simp only [kept_lit]) | (with_reducible apply kept_parts)
    | (with_reducible refine kept_ite ?_ ?_) | (dsimp only [id_eq]) | split

theorem execSchConfig_kept (r : Req) (egr : BitVec 8) (p : SchParam) (s : State) (h : Kept C M s) (hm : M.map = none) : ∃ t, execSchConfig r egr p s = .next t ∧ Kept C M t := by
  unfold execSchConfig
  refine ⟨_, rfl, ?_⟩
  (try dsimp only)
  repeat' first
    | (with_reducible assumption) | (with_reducible apply dispatch_kept) | (with_reducible apply cfgPlan_planKept)
    | (with_reducible apply applySch_kept) | (with_reducible refine kept_fold ?_ _ _ ?_)
    | (with_reducible refine kept_fold_2 ?_ _ _ ?_) | (with_reducible refine kept_fold_1 ?_ _ _ ?_) | intro _
    | (simp only [kept_lit]) | (with_reducible apply kept_parts) | (with_reducible refine parts_map ?_ hm _)
    | (with_reducible apply begin__kept) | (with_reducible refine kept_ite ?_ ?_) | (dsimp only [id_eq]) | split
    | (with_reducible refine plan_mk ?_)

theorem execBackoffExpiry_kept (lane : Fin 96) (s : State) (h : Kept C M s) : ∃ t, execBackoffExpiry lane s = .next t ∧ Kept C M t := by
  unfold execBackoffExpiry
  refine ⟨_, rfl, ?_⟩
  (try dsimp only)
  repeat' first
    | (with_reducible assumption) | (with_reducible apply whenRunning_kept) | (with_reducible apply begin__kept)
    | (with_reducible apply setLane_kept) | (with_reducible refine kept_fold ?_ _ _ ?_)
    | (with_reducible refine kept_fold_2 ?_ _ _ ?_) | (with_reducible refine kept_fold_1 ?_ _ _ ?_) | intro _
    | (simp only [kept_lit]) | (with_reducible apply kept_parts) | (with_reducible refine kept_ite ?_ ?_)
    | (dsimp only [id_eq]) | split

end Sys2Proof.Machine
end

