-- ==== Sys2Proof/Laws/KeepSems.lean ====
section
/-! SUPPORT. What the operations of `Sems` leave alone. -/

namespace Sys2Proof.Machine

set_option linter.unusedTactic false
set_option linter.unreachableTactic false
set_option linter.unusedSimpArgs false

variable {C : Prop} {M : Mark}

theorem semTake_kept (s : State) (k : ℕ) (o : ℕ) (h : Kept C M s) : Kept C M (semTake s k o) := by
  unfold semTake
  (try dsimp only)
  repeat' first
    | (with_reducible assumption) | (with_reducible apply setFld_kept) | (with_reducible refine kept_fold ?_ _ _ ?_)
    | (with_reducible refine kept_fold_2 ?_ _ _ ?_) | (with_reducible refine kept_fold_1 ?_ _ _ ?_) | intro _
    | (simp only [kept_lit]) | (with_reducible apply kept_parts) | (with_reducible refine kept_ite ?_ ?_)
    | (dsimp only [id_eq]) | split

theorem semAcq_kept (s : State) (k : ℕ) (o : ℕ) (h : Kept C M s) : Kept C M (semAcq s k o) := by
  unfold semAcq
  (try dsimp only)
  repeat' first
    | (with_reducible assumption) | (with_reducible apply semTake_kept) | (with_reducible refine kept_fold ?_ _ _ ?_)
    | (with_reducible refine kept_fold_2 ?_ _ _ ?_) | (with_reducible refine kept_fold_1 ?_ _ _ ?_) | intro _
    | (simp only [kept_lit]) | (with_reducible apply kept_parts) | (with_reducible refine kept_ite ?_ ?_)
    | (dsimp only [id_eq]) | split

theorem semFree_kept (s : State) (k : ℕ) (h : Kept C M s) : Kept C M (semFree s k) := by
  unfold semFree
  (try dsimp only)
  repeat' first
    | (with_reducible assumption) | (with_reducible apply setFld_kept) | (with_reducible refine kept_fold ?_ _ _ ?_)
    | (with_reducible refine kept_fold_2 ?_ _ _ ?_) | (with_reducible refine kept_fold_1 ?_ _ _ ?_) | intro _
    | (simp only [kept_lit]) | (with_reducible apply kept_parts) | (with_reducible refine kept_ite ?_ ?_)
    | (dsimp only [id_eq]) | split

theorem semForce_kept (s : State) (k : ℕ) (h : Kept C M s) : Kept C M (semForce s k) := by
  unfold semForce
  (try dsimp only)
  repeat' first
    | (with_reducible assumption) | (with_reducible apply raise_kept) | (with_reducible apply statInc_kept)
    | (with_reducible apply semFree_kept) | (with_reducible refine kept_fold ?_ _ _ ?_)
    | (with_reducible refine kept_fold_2 ?_ _ _ ?_) | (with_reducible refine kept_fold_1 ?_ _ _ ?_) | intro _
    | (simp only [kept_lit]) | (with_reducible apply kept_parts) | (with_reducible refine kept_ite ?_ ?_)
    | (dsimp only [id_eq]) | split

theorem semForceAll_kept (s : State) (p : ℕ → Bool) (h : Kept C M s) : Kept C M (semForceAll s p) := by
  unfold semForceAll
  (try dsimp only)
  repeat' first
    | (with_reducible assumption) | (with_reducible apply semForce_kept) | (with_reducible refine kept_fold ?_ _ _ ?_)
    | (with_reducible refine kept_fold_2 ?_ _ _ ?_) | (with_reducible refine kept_fold_1 ?_ _ _ ?_) | intro _
    | (simp only [kept_lit]) | (with_reducible apply kept_parts) | (with_reducible refine kept_ite ?_ ?_)
    | (dsimp only [id_eq]) | split

theorem semSettle_kept (s : State) (k : ℕ) (h : Kept C M s) : Kept C M (semSettle s k) := by
  unfold semSettle
  (try dsimp only)
  repeat' first
    | (with_reducible assumption) | (with_reducible apply semForce_kept) | (with_reducible refine kept_fold ?_ _ _ ?_)
    | (with_reducible refine kept_fold_2 ?_ _ _ ?_) | (with_reducible refine kept_fold_1 ?_ _ _ ?_) | intro _
    | (simp only [kept_lit]) | (with_reducible apply kept_parts) | (with_reducible refine kept_ite ?_ ?_)
    | (dsimp only [id_eq]) | split

theorem semAcqWrite_kept (s : State) (c : Cls) (k : ℕ) (o : ℕ) (h : Kept C M s) : Kept C M (semAcqWrite s c k o) := by
  unfold semAcqWrite
  (try dsimp only)
  repeat' first
    | (with_reducible assumption) | (with_reducible apply semAcq_kept) | (with_reducible apply semSettle_kept)
    | (with_reducible apply raise_kept) | (with_reducible refine kept_fold ?_ _ _ ?_)
    | (with_reducible refine kept_fold_2 ?_ _ _ ?_) | (with_reducible refine kept_fold_1 ?_ _ _ ?_) | intro _
    | (simp only [kept_lit]) | (with_reducible apply kept_parts) | (with_reducible refine kept_ite ?_ ?_)
    | (dsimp only [id_eq]) | split

theorem semRel_kept (s : State) (k : ℕ) (w : Word) (h : Kept C M s) : Kept C M (semRel s k w) := by
  unfold semRel
  (try dsimp only)
  repeat' first
    | (with_reducible assumption) | (with_reducible apply semSettle_kept) | (with_reducible apply semFree_kept)
    | (with_reducible apply statInc_kept) | (with_reducible refine kept_fold ?_ _ _ ?_)
    | (with_reducible refine kept_fold_2 ?_ _ _ ?_) | (with_reducible refine kept_fold_1 ?_ _ _ ?_) | intro _
    | (simp only [kept_lit]) | (with_reducible apply kept_parts) | (with_reducible refine kept_ite ?_ ?_)
    | (dsimp only [id_eq]) | split

end Sys2Proof.Machine
end

