-- ==== Sys2Proof/Laws/KeepSwitch.lean ====
section
/-! SUPPORT. What the operations of `Switch` leave alone. -/

namespace Sys2Proof.Machine

set_option linter.unusedTactic false
set_option linter.unreachableTactic false
set_option linter.unusedSimpArgs false

variable {C : Prop} {M : Mark}

theorem setLa64_kept (s : State) (lo : ℕ) (hi : ℕ) (p : ℕ) (v : ℕ) (h : Kept C M s) : Kept C M (setLa64 s lo hi p v) := by
  unfold setLa64
  (try dsimp only)
  repeat' first
    | (with_reducible assumption) | (with_reducible apply wri_kept) | (with_reducible refine kept_fold ?_ _ _ ?_)
    | (with_reducible refine kept_fold_2 ?_ _ _ ?_) | (with_reducible refine kept_fold_1 ?_ _ _ ?_) | intro _
    | (simp only [kept_lit]) | (with_reducible apply kept_parts) | (with_reducible refine kept_ite ?_ ?_)
    | (dsimp only [id_eq]) | split

theorem laTouch_kept (s : State) (p : ℕ) (h : Kept C M s) : Kept C M (laTouch s p) := by
  unfold laTouch
  (try dsimp only)
  repeat' first
    | (with_reducible assumption) | (with_reducible refine kept_fold ?_ _ _ ?_)
    | (with_reducible refine kept_fold_2 ?_ _ _ ?_) | (with_reducible refine kept_fold_1 ?_ _ _ ?_) | intro _
    | (simp only [kept_lit]) | (with_reducible apply kept_parts) | (with_reducible refine kept_ite ?_ ?_)
    | (dsimp only [id_eq]) | split

theorem laVerify_kept (s : State) (p : ℕ) (data : List Byte) (h : Kept C M s) : Kept C M (laVerify s p data).2 := by
  unfold laVerify
  (try dsimp only)
  repeat' first
    | (with_reducible assumption) | (with_reducible apply statIncI_kept) | (with_reducible apply laTouch_kept)
    | (with_reducible apply setLa64_kept) | (with_reducible apply raise_kept) | (with_reducible refine kept_fold ?_ _ _ ?_)
    | (with_reducible refine kept_fold_2 ?_ _ _ ?_) | (with_reducible refine kept_fold_1 ?_ _ _ ?_) | intro _
    | (simp only [kept_lit]) | (with_reducible apply kept_parts) | (with_reducible refine kept_ite ?_ ?_)
    | (dsimp only [id_eq]) | split

theorem laSend_kept (s : State) (p : ℕ) (c : Content) (h : Kept C M s) : Kept C M (laSend s p c).2 := by
  unfold laSend
  (try dsimp only)
  repeat' first
    | (with_reducible assumption) | (with_reducible apply statIncI_kept) | (with_reducible apply raise_kept)
    | (with_reducible apply setLa64_kept) | (with_reducible apply laTouch_kept) | (with_reducible refine kept_fold ?_ _ _ ?_)
    | (with_reducible refine kept_fold_2 ?_ _ _ ?_) | (with_reducible refine kept_fold_1 ?_ _ _ ?_) | intro _
    | (simp only [kept_lit]) | (with_reducible apply kept_parts) | (with_reducible refine kept_ite ?_ ?_)
    | (dsimp only [id_eq]) | split

theorem trapped_kept (s : State) (vid : ℕ) (h : Kept C M s) : Kept C M (trapped s vid).2 := by
  unfold trapped
  (try dsimp only)
  repeat' first
    | (with_reducible assumption) | (with_reducible apply draw_kept) | (with_reducible refine kept_fold ?_ _ _ ?_)
    | (with_reducible refine kept_fold_2 ?_ _ _ ?_) | (with_reducible refine kept_fold_1 ?_ _ _ ?_) | intro _
    | (simp only [kept_lit]) | (with_reducible apply kept_parts)
    | (with_reducible refine kept_of_eq_2 ‹draw _ = _› (draw_kept _ ?_)) | (with_reducible refine kept_ite ?_ ?_)
    | (dsimp only [id_eq]) | split

theorem missed_kept (s : State) (p : ℕ) (h : Kept C M s) : Kept C M (missed s p) := by
  unfold missed
  (try dsimp only)
  repeat' first
    | (with_reducible assumption) | (with_reducible apply statInc_kept) | (with_reducible refine kept_fold ?_ _ _ ?_)
    | (with_reducible refine kept_fold_2 ?_ _ _ ?_) | (with_reducible refine kept_fold_1 ?_ _ _ ?_) | intro _
    | (simp only [kept_lit]) | (with_reducible apply kept_parts) | (with_reducible refine kept_ite ?_ ?_)
    | (dsimp only [id_eq]) | split

theorem actTargets_kept (s : State) (p : ℕ) (ing : ℕ) (vid : ℕ) (a : BitVec 48) (vmem : ℕ → Bool) (h : Kept C M s) : Kept C M (actTargets s p ing vid a vmem).2 := by
  unfold actTargets
  (try dsimp only)
  repeat' first
    | (with_reducible assumption) | (with_reducible apply missed_kept) | (with_reducible refine kept_fold ?_ _ _ ?_)
    | (with_reducible refine kept_fold_2 ?_ _ _ ?_) | (with_reducible refine kept_fold_1 ?_ _ _ ?_) | intro _
    | (simp only [kept_lit]) | (with_reducible apply kept_parts) | (with_reducible refine kept_ite ?_ ?_)
    | (dsimp only [id_eq]) | split

theorem decideHit_kept (s : State) (p : ℕ) (ing : ℕ) (vid : ℕ) (a : BitVec 48) (vmem : ℕ → Bool) (h : Kept C M s) : Kept C M (decideHit s p ing vid a vmem).2 := by
  unfold decideHit
  (try dsimp only)
  repeat' first
    | (with_reducible assumption) | (with_reducible apply missed_kept) | (with_reducible apply actTargets_kept)
    | (with_reducible refine kept_fold ?_ _ _ ?_) | (with_reducible refine kept_fold_2 ?_ _ _ ?_)
    | (with_reducible refine kept_fold_1 ?_ _ _ ?_) | intro _ | (simp only [kept_lit]) | (with_reducible apply kept_parts)
    | (with_reducible refine kept_of_eq_2 ‹actTargets _ _ _ _ _ _ = _› (actTargets_kept _ _ _ _ _ _ ?_))
    | (with_reducible refine kept_ite ?_ ?_) | (dsimp only [id_eq]) | split

theorem decideBus_kept (s : State) (p ing l : Nat) (c : Content) (h : Kept C M s) : Kept C M (decideBus s p ing l c).2 := by
  unfold decideBus
  extract_lets hashed a
  split
  · exact decideHit_kept s p ing 0 a _ h
  · split
    · exact trapped_kept _ _ (missed_kept _ _ h)
    · exact missed_kept _ _ h

theorem flood_kept (s : State) (p : ℕ) (ing : ℕ) (vid : ℕ) (h : Kept C M s) : Kept C M (flood s p ing vid).2 := by
  unfold flood
  (try dsimp only)
  repeat' first
    | (with_reducible assumption) | (with_reducible apply statInc_kept) | (with_reducible apply missed_kept)
    | (with_reducible refine kept_fold ?_ _ _ ?_) | (with_reducible refine kept_fold_2 ?_ _ _ ?_)
    | (with_reducible refine kept_fold_1 ?_ _ _ ?_) | intro _ | (simp only [kept_lit]) | (with_reducible apply kept_parts)
    | (with_reducible refine kept_ite ?_ ?_) | (dsimp only [id_eq]) | split

theorem decideEth_kept (s : State) (p : ℕ) (ing : ℕ) (b : List Byte) (h : Kept C M s) : Kept C M (decideEth s p ing b).2 := by
  unfold decideEth
  (try dsimp only)
  repeat' first
    | (with_reducible assumption) | (with_reducible apply missed_kept) | (with_reducible apply statInc_kept)
    | (with_reducible apply decideHit_kept) | (with_reducible apply flood_kept) | (with_reducible apply learn_kept)
    | (with_reducible refine kept_fold ?_ _ _ ?_) | (with_reducible refine kept_fold_2 ?_ _ _ ?_)
    | (with_reducible refine kept_fold_1 ?_ _ _ ?_) | intro _ | (simp only [kept_lit]) | (with_reducible apply kept_parts)
    | (with_reducible refine kept_of_eq_2 ‹decideHit _ _ _ _ _ _ = _› (decideHit_kept _ _ _ _ _ _ ?_))
    | (with_reducible refine kept_of_eq_2 ‹flood _ _ _ _ = _› (flood_kept _ _ _ _ ?_))
    | (with_reducible refine kept_ite ?_ ?_) | (dsimp only [id_eq]) | split

theorem decideFrame_kept (s : State) (p : ℕ) (ing : ℕ) (l : ℕ) (c : Content) (h : Kept C M s) : Kept C M (decideFrame s p ing l c).2 := by
  unfold decideFrame
  (try dsimp only)
  repeat' first
    | (with_reducible assumption) | (with_reducible apply decideEth_kept) | (with_reducible apply decideBus_kept)
    | (with_reducible refine kept_fold ?_ _ _ ?_) | (with_reducible refine kept_fold_2 ?_ _ _ ?_)
    | (with_reducible refine kept_fold_1 ?_ _ _ ?_) | intro _ | (simp only [kept_lit]) | (with_reducible apply kept_parts)
    | (with_reducible refine kept_of_eq_2 ‹decideEth _ _ _ _ = _› (decideEth_kept _ _ _ _ ?_))
    | (with_reducible refine kept_of_eq_2 ‹decideBus _ _ _ _ _ = _› (decideBus_kept _ _ _ _ _ ?_))
    | (with_reducible refine kept_ite ?_ ?_) | (dsimp only [id_eq]) | split

theorem meter_kept (s : State) (d : Decided) (c : Content) (pre : Colour) (h : Kept C M s) : Kept C M (meter s d c pre).2 := by
  unfold meter
  (try dsimp only)
  repeat' first
    | (with_reducible assumption) | (with_reducible apply statIncI_kept) | (with_reducible apply markFrame_kept)
    | (with_reducible refine kept_fold ?_ _ _ ?_) | (with_reducible refine kept_fold_2 ?_ _ _ ?_)
    | (with_reducible refine kept_fold_1 ?_ _ _ ?_) | intro _ | (simp only [kept_lit]) | (with_reducible apply kept_parts)
    | (with_reducible refine kept_of_eq_2 ‹markFrame _ _ _ = _› (markFrame_kept _ _ _ ?_))
    | (with_reducible refine kept_ite ?_ ?_) | (dsimp only [id_eq]) | split

theorem seqFor_kept (s : State) (strEn : Bool) (n : ℕ) (c : Content) (h : Kept C M s) : Kept C M (seqFor s strEn n c).2.2 := by
  unfold seqFor
  (try dsimp only)
  repeat' first
    | (with_reducible assumption) | (with_reducible apply statIncI_kept) | (with_reducible apply wri_kept)
    | (with_reducible refine kept_fold ?_ _ _ ?_) | (with_reducible refine kept_fold_2 ?_ _ _ ?_)
    | (with_reducible refine kept_fold_1 ?_ _ _ ?_) | intro _ | (simp only [kept_lit]) | (with_reducible apply kept_parts)
    | (with_reducible refine kept_ite ?_ ?_) | (dsimp only [id_eq]) | split

theorem smpDraw_kept (s : State) (ing : ℕ) (h : Kept C M s) : Kept C M (smpDraw s ing) := by
  unfold smpDraw
  (try dsimp only)
  repeat' first
    | (with_reducible assumption) | (with_reducible apply draw_kept) | (with_reducible refine kept_fold ?_ _ _ ?_)
    | (with_reducible refine kept_fold_2 ?_ _ _ ?_) | (with_reducible refine kept_fold_1 ?_ _ _ ?_) | intro _
    | (simp only [kept_lit]) | (with_reducible apply kept_parts)
    | (with_reducible refine kept_of_eq_2 ‹draw _ = _› (draw_kept _ ?_)) | (with_reducible refine kept_ite ?_ ?_)
    | (dsimp only [id_eq]) | split

theorem smpInit_kept (s : State) (h : Kept C M s) : Kept C M (smpInit s) := by
  unfold smpInit
  (try dsimp only)
  repeat' first
    | (with_reducible assumption) | (with_reducible apply smpDraw_kept) | (with_reducible refine kept_fold ?_ _ _ ?_)
    | (with_reducible refine kept_fold_2 ?_ _ _ ?_) | (with_reducible refine kept_fold_1 ?_ _ _ ?_) | intro _
    | (simp only [kept_lit]) | (with_reducible apply kept_parts) | (with_reducible refine kept_ite ?_ ?_)
    | (dsimp only [id_eq]) | split

theorem sampleStep_kept (s : State) (ing : ℕ) (f : Frame) (out : ℕ) (h : Kept C M s) : Kept C M (sampleStep s ing f out) := by
  unfold sampleStep
  (try dsimp only)
  repeat' first
    | (with_reducible assumption) | (with_reducible apply statIncI_kept) | (with_reducible apply smpDraw_kept)
    | (with_reducible apply statInc_kept) | (with_reducible apply storeFrame_kept) | (with_reducible apply enqueue_kept)
    | (with_reducible refine kept_fold ?_ _ _ ?_) | (with_reducible refine kept_fold_2 ?_ _ _ ?_)
    | (with_reducible refine kept_fold_1 ?_ _ _ ?_) | intro _ | (simp only [kept_lit]) | (with_reducible apply kept_parts)
    | (with_reducible refine kept_of_eq_2 ‹storeFrame _ _ = _› (storeFrame_kept _ _ ?_))
    | (with_reducible refine kept_ite ?_ ?_) | (dsimp only [id_eq]) | split

theorem unlockAt_kept (s : State) (p : ℕ) (lock : Option (ℕ × ℕ)) (h : Kept C M s) : Kept C M (unlockAt s p lock) := by
  unfold unlockAt
  (try dsimp only)
  repeat' first
    | (with_reducible assumption) | (with_reducible apply semFree_kept) | (with_reducible refine kept_fold ?_ _ _ ?_)
    | (with_reducible refine kept_fold_2 ?_ _ _ ?_) | (with_reducible refine kept_fold_1 ?_ _ _ ?_) | intro _
    | (simp only [kept_lit]) | (with_reducible apply kept_parts) | (with_reducible refine kept_ite ?_ ?_)
    | (dsimp only [id_eq]) | split

theorem sampleFree_kept (s : State) (ing : ℕ) (f : Frame) (h : Kept C M s) : Kept C M (sampleFree s ing f) := by
  unfold sampleFree
  (try dsimp only)
  repeat' first
    | (with_reducible assumption) | (with_reducible apply draw_kept) | (with_reducible apply sampleStep_kept)
    | (with_reducible refine kept_fold ?_ _ _ ?_) | (with_reducible refine kept_fold_2 ?_ _ _ ?_)
    | (with_reducible refine kept_fold_1 ?_ _ _ ?_) | intro _ | (simp only [kept_lit]) | (with_reducible apply kept_parts)
    | (with_reducible refine kept_of_eq_2 ‹draw _ = _› (draw_kept _ ?_)) | (with_reducible refine kept_ite ?_ ?_)
    | (dsimp only [id_eq]) | split

theorem commitStage_kept (s : State) (a : Arrival) (d : Decided) (col : Colour) (h : Kept C M s) : Kept C M (commitStage s a d col) := by
  unfold commitStage
  (try dsimp only)
  repeat' first
    | (with_reducible assumption) | (with_reducible apply seqFor_kept) | (with_reducible apply sampleFree_kept)
    | (with_reducible apply inject_kept) | (with_reducible apply commitFrame_kept) | (with_reducible apply sampleStep_kept)
    | (with_reducible refine kept_fold ?_ _ _ ?_) | (with_reducible refine kept_fold_2 ?_ _ _ ?_)
    | (with_reducible refine kept_fold_1 ?_ _ _ ?_) | intro _ | (simp only [kept_lit]) | (with_reducible apply kept_parts)
    | (with_reducible refine kept_of_eq_2_2 ‹seqFor _ _ _ _ = _› (seqFor_kept _ _ _ _ ?_))
    | (with_reducible refine kept_of_eq_2 ‹inject _ _ _ = _› (inject_kept _ _ _ ?_))
    | (with_reducible refine kept_of_eq_2 ‹commitFrame _ _ _ _ _ = _› (commitFrame_kept _ _ _ _ _ ?_))
    | (with_reducible refine kept_ite ?_ ?_) | (dsimp only [id_eq]) | split

theorem verifyStage_kept (s : State) (a : Arrival) (d : Decided) (col : Colour) (lock : Option (ℕ × ℕ)) (h : Kept C M s) : Kept C M (verifyStage s a d col lock) := by
  unfold verifyStage
  (try dsimp only)
  repeat' first
    | (with_reducible assumption) | (with_reducible apply laVerify_kept) | (with_reducible apply unlockAt_kept)
    | (with_reducible apply commitStage_kept) | (with_reducible apply sampleFree_kept)
    | (with_reducible refine kept_fold ?_ _ _ ?_) | (with_reducible refine kept_fold_2 ?_ _ _ ?_)
    | (with_reducible refine kept_fold_1 ?_ _ _ ?_) | intro _ | (simp only [kept_lit]) | (with_reducible apply kept_parts)
    | (with_reducible refine kept_of_eq_2 ‹laVerify _ _ _ = _› (laVerify_kept _ _ _ ?_))
    | (with_reducible refine kept_ite ?_ ?_) | (dsimp only [id_eq]) | split

theorem holdFrame_kept (s : State) (a : Arrival) (h : Kept C M s) : Kept C M (holdFrame s a) := by
  unfold holdFrame
  (try dsimp only)
  repeat' first
    | (with_reducible assumption) | (with_reducible apply fcCheck_kept) | (with_reducible refine kept_fold ?_ _ _ ?_)
    | (with_reducible refine kept_fold_2 ?_ _ _ ?_) | (with_reducible refine kept_fold_1 ?_ _ _ ?_) | intro _
    | (simp only [kept_lit]) | (with_reducible apply kept_parts) | (with_reducible refine kept_ite ?_ ?_)
    | (dsimp only [id_eq]) | split

theorem passOn_kept (s : State) (a : Arrival) (d : Decided) (col : Colour) (stuck : Bool) (lock : Option (ℕ × ℕ)) (h : Kept C M s) : Kept C M (passOn s a d col stuck lock) := by
  unfold passOn
  (try dsimp only)
  repeat' first
    | (with_reducible assumption) | (with_reducible apply statIncI_kept) | (with_reducible apply unlockAt_kept)
    | (with_reducible apply sampleStep_kept) | (with_reducible apply holdFrame_kept) | (with_reducible apply fcCheck_kept)
    | (with_reducible apply verifyStage_kept) | (with_reducible refine kept_fold ?_ _ _ ?_)
    | (with_reducible refine kept_fold_2 ?_ _ _ ?_) | (with_reducible refine kept_fold_1 ?_ _ _ ?_) | intro _
    | (simp only [kept_lit]) | (with_reducible apply kept_parts) | (with_reducible refine kept_ite ?_ ?_)
    | (dsimp only [id_eq]) | split

theorem forward_kept (s : State) (a : Arrival) (stuck : Bool) (lock : Option (ℕ × ℕ)) (h : Kept C M s) : Kept C M (forward s a stuck lock) := by
  unfold forward
  (try dsimp only)
  repeat' first
    | (with_reducible assumption) | (with_reducible apply trapped_kept) | (with_reducible apply decideFrame_kept)
    | (with_reducible apply unlockAt_kept) | (with_reducible apply sampleStep_kept) | (with_reducible apply meter_kept)
    | (with_reducible apply sampleFree_kept) | (with_reducible apply passOn_kept)
    | (with_reducible refine kept_fold ?_ _ _ ?_) | (with_reducible refine kept_fold_2 ?_ _ _ ?_)
    | (with_reducible refine kept_fold_1 ?_ _ _ ?_) | intro _ | (simp only [kept_lit]) | (with_reducible apply kept_parts)
    | (with_reducible refine kept_of_eq_2 ‹trapped _ _ = _› (trapped_kept _ _ ?_))
    | (with_reducible refine kept_of_eq_2 ‹decideFrame _ _ _ _ _ = _› (decideFrame_kept _ _ _ _ _ ?_))
    | (with_reducible refine kept_of_eq_2 ‹meter _ _ _ _ = _› (meter_kept _ _ _ _ ?_))
    | (with_reducible refine kept_ite ?_ ?_) | (dsimp only [id_eq]) | split

theorem macCount_kept (s : State) (w : ℕ) (n : ℕ) (fcs : ℕ) (h : Kept C M s) : Kept C M (macCount s w n fcs) := by
  unfold macCount
  (try dsimp only)
  repeat' first
    | (with_reducible assumption) | (with_reducible apply stat2AddI_kept) | (with_reducible refine kept_fold ?_ _ _ ?_)
    | (with_reducible refine kept_fold_2 ?_ _ _ ?_) | (with_reducible refine kept_fold_1 ?_ _ _ ?_) | intro _
    | (simp only [kept_lit]) | (with_reducible apply kept_parts) | (with_reducible refine kept_ite ?_ ?_)
    | (dsimp only [id_eq]) | split

theorem acceptFrame_kept (s : State) (ing : ℕ) (c : Content) (ok : Bool) (h : Kept C M s) : Kept C M (acceptFrame s ing c ok).2 := by
  unfold acceptFrame
  (try dsimp only)
  repeat' first
    | (with_reducible assumption) | (with_reducible apply statIncI_kept) | (with_reducible apply macCount_kept)
    | (with_reducible apply stat2AddI_kept) | (with_reducible apply canRxGood_kept) | (with_reducible apply canRxError_kept)
    | (with_reducible refine kept_fold ?_ _ _ ?_) | (with_reducible refine kept_fold_2 ?_ _ _ ?_)
    | (with_reducible refine kept_fold_1 ?_ _ _ ?_) | intro _ | (simp only [kept_lit]) | (with_reducible apply kept_parts)
    | (with_reducible refine kept_ite ?_ ?_) | (dsimp only [id_eq]) | split

theorem macControl_kept (s : State) (ing : ℕ) (b : List Byte) (h : Kept C M s) : Kept C M (macControl s ing b) := by
  unfold macControl
  (try dsimp only)
  repeat' first
    | (with_reducible assumption) | (with_reducible apply pauseFrame_kept) | (with_reducible refine kept_fold ?_ _ _ ?_)
    | (with_reducible refine kept_fold_2 ?_ _ _ ?_) | (with_reducible refine kept_fold_1 ?_ _ _ ?_) | intro _
    | (simp only [kept_lit]) | (with_reducible apply kept_parts) | (with_reducible refine kept_ite ?_ ?_)
    | (dsimp only [id_eq]) | split

theorem entryRequests_kept (s : State) (ing : ℕ) (c : Content) (h : Kept C M s) : Kept C M (entryRequests s ing c) := by
  unfold entryRequests
  (try dsimp only)
  repeat' first
    | (with_reducible assumption) | (with_reducible apply startRequest_kept) | (with_reducible apply stopRequest_kept)
    | (with_reducible refine kept_fold ?_ _ _ ?_) | (with_reducible refine kept_fold_2 ?_ _ _ ?_)
    | (with_reducible refine kept_fold_1 ?_ _ _ ?_) | intro _ | (simp only [kept_lit]) | (with_reducible apply kept_parts)
    | (with_reducible refine kept_ite ?_ ?_) | (dsimp only [id_eq]) | split

theorem secureOut_kept (s : State) (f : RxFrame) (h : Kept C M s) :
    (∀ t, secureOut s f = .inl t → Kept C M t) ∧ (∀ c t, secureOut s f = .inr (c, t) → Kept C M t) := by
  constructor
  · intro t ht
    unfold secureOut at ht
    split at ht
    · cases ht
    · dsimp only at ht
      split at ht
      · cases ht
      · split at ht
        · cases ht
          simp only [kept_lit]
          exact kept_parts h
        · split at ht
          · cases ht
          · rename_i e
            cases ht
            exact kept_of_eq_2 e (laSend_kept _ _ _ h)
  · intro c t ht
    unfold secureOut at ht
    split at ht
    · cases ht; exact h
    · dsimp only at ht
      split at ht
      · cases ht; exact h
      · split at ht
        · cases ht
        · split at ht
          · rename_i e
            cases ht
            exact kept_of_eq_2 e (laSend_kept _ _ _ h)
          · cases ht

theorem unlockFrame_kept (s : State) (f : RxFrame) (h : Kept C M s) : Kept C M (unlockFrame s f) := by
  unfold unlockFrame
  (try dsimp only)
  repeat' first
    | (with_reducible assumption) | (with_reducible apply unlockAt_kept) | (with_reducible refine kept_fold ?_ _ _ ?_)
    | (with_reducible refine kept_fold_2 ?_ _ _ ?_) | (with_reducible refine kept_fold_1 ?_ _ _ ?_) | intro _
    | (simp only [kept_lit]) | (with_reducible apply kept_parts) | (with_reducible refine kept_ite ?_ ?_)
    | (dsimp only [id_eq]) | split

theorem receiveGo_kept (s : State) (f : RxFrame) (h : Kept C M s) : Kept C M (receiveGo s f) := by
  unfold receiveGo
  (try dsimp only)
  repeat' first
    | (with_reducible assumption) | (with_reducible apply unlockFrame_kept) | (with_reducible apply holdFrame_kept)
    | (with_reducible apply forward_kept) | (with_reducible refine kept_fold ?_ _ _ ?_)
    | (with_reducible refine kept_fold_2 ?_ _ _ ?_) | (with_reducible refine kept_fold_1 ?_ _ _ ?_) | intro _
    | (simp only [kept_lit]) | (with_reducible apply kept_parts)
    | (with_reducible refine (secureOut_kept _ _ ?_).1 _ ‹secureOut _ _ = _›)
    | (with_reducible refine (secureOut_kept _ _ ?_).2 _ _ ‹secureOut _ _ = _›) | (with_reducible refine kept_ite ?_ ?_)
    | (dsimp only [id_eq]) | split

theorem receive_kept (s : State) (f : RxFrame) (h : Kept C M s) : Kept C M (receive s f) := by
  unfold receive
  (try dsimp only)
  repeat' first
    | (with_reducible assumption) | (with_reducible apply acceptFrame_kept) | (with_reducible apply unlockFrame_kept)
    | (with_reducible apply entryRequests_kept) | (with_reducible apply macControl_kept)
    | (with_reducible apply receiveGo_kept) | (with_reducible refine kept_fold ?_ _ _ ?_)
    | (with_reducible refine kept_fold_2 ?_ _ _ ?_) | (with_reducible refine kept_fold_1 ?_ _ _ ?_) | intro _
    | (simp only [kept_lit]) | (with_reducible apply kept_parts)
    | (with_reducible refine kept_of_eq_2 ‹acceptFrame _ _ _ _ = _› (acceptFrame_kept _ _ _ _ ?_))
    | (with_reducible refine kept_ite ?_ ?_) | (dsimp only [id_eq]) | split

theorem execFrameReceive_kept (f : RxFrame) (s : State) (h : Kept C M s) : ∃ t, execFrameReceive f s = .next t ∧ Kept C M t := by
  unfold execFrameReceive
  refine ⟨_, rfl, ?_⟩
  (try dsimp only)
  repeat' first
    | (with_reducible assumption) | (with_reducible apply whenClocked_kept) | (with_reducible apply begin__kept)
    | (with_reducible apply receive_kept) | (with_reducible refine kept_fold ?_ _ _ ?_)
    | (with_reducible refine kept_fold_2 ?_ _ _ ?_) | (with_reducible refine kept_fold_1 ?_ _ _ ?_) | intro _
    | (simp only [kept_lit]) | (with_reducible apply kept_parts) | (with_reducible refine kept_ite ?_ ?_)
    | (dsimp only [id_eq]) | split

theorem tdcMeasure_kept (s : State) (n : ℕ) (f : Option Frame) (h : Kept C M s) : Kept C M (tdcMeasure s n f) := by
  unfold tdcMeasure
  (try dsimp only)
  repeat' first
    | (with_reducible assumption) | (with_reducible apply draw_kept) | (with_reducible apply setLane_kept)
    | (with_reducible refine kept_fold ?_ _ _ ?_) | (with_reducible refine kept_fold_2 ?_ _ _ ?_)
    | (with_reducible refine kept_fold_1 ?_ _ _ ?_) | intro _ | (simp only [kept_lit]) | (with_reducible apply kept_parts)
    | (with_reducible refine kept_of_eq_2 ‹draw _ = _› (draw_kept _ ?_)) | (with_reducible refine kept_ite ?_ ?_)
    | (dsimp only [id_eq]) | split

theorem execFrameTransmitEnd_kept (egr : Fin 106) (converted : Bool) (back : Content) (s : State) (h : Kept C M s) : ∃ t, execFrameTransmitEnd egr converted back s = .next t ∧ Kept C M t := by
  unfold execFrameTransmitEnd
  refine ⟨_, rfl, ?_⟩
  (try dsimp only)
  repeat' first
    | (with_reducible assumption) | (with_reducible apply whenRunning_kept) | (with_reducible apply begin__kept)
    | (with_reducible apply stat2AddI_kept) | (with_reducible apply tdcMeasure_kept) | (with_reducible apply canTxGood_kept)
    | (with_reducible apply setLane_kept) | (with_reducible apply releaseRef_kept) | (with_reducible apply setEgr_kept)
    | (with_reducible apply receive_kept) | (with_reducible refine kept_fold ?_ _ _ ?_)
    | (with_reducible refine kept_fold_2 ?_ _ _ ?_) | (with_reducible refine kept_fold_1 ?_ _ _ ?_) | intro _
    | (simp only [kept_lit]) | (with_reducible apply kept_parts) | (with_reducible refine kept_ite ?_ ?_)
    | (dsimp only [id_eq]) | split

theorem laResume_kept (s : State) (w : LaWait) (h : Kept C M s) : Kept C M (laResume s w) := by
  unfold laResume
  (try dsimp only)
  repeat' first
    | (with_reducible assumption) | (with_reducible apply receiveGo_kept) | (with_reducible apply unlockFrame_kept)
    | (with_reducible apply verifyStage_kept) | (with_reducible apply unlockAt_kept) | (with_reducible apply fcCheck_kept)
    | (with_reducible refine kept_fold ?_ _ _ ?_) | (with_reducible refine kept_fold_2 ?_ _ _ ?_)
    | (with_reducible refine kept_fold_1 ?_ _ _ ?_) | intro _ | (simp only [kept_lit]) | (with_reducible apply kept_parts)
    | (with_reducible refine kept_ite ?_ ?_) | (dsimp only [id_eq]) | split

theorem execLaneauthKeyLoad_kept (prof : BitVec 10) (s : State) (h : Kept C M s) : ∃ t, execLaneauthKeyLoad prof s = .next t ∧ Kept C M t := by
  unfold execLaneauthKeyLoad
  refine ⟨_, rfl, ?_⟩
  (try dsimp only)
  repeat' first
    | (with_reducible assumption) | (with_reducible apply whenRunning_kept) | (with_reducible apply begin__kept)
    | (with_reducible apply laTouch_kept) | (with_reducible apply laResume_kept) | (with_reducible refine kept_fold ?_ _ _ ?_)
    | (with_reducible refine kept_fold_2 ?_ _ _ ?_) | (with_reducible refine kept_fold_1 ?_ _ _ ?_) | intro _
    | (simp only [kept_lit]) | (with_reducible apply kept_parts) | (with_reducible refine kept_ite ?_ ?_)
    | (dsimp only [id_eq]) | split

theorem spillLoop_kept (g : Nat) (a1 : Nat) (a2 : State) (h : Kept C M a2) : Kept C M (spillLoop g a1 a2) := by
  induction a1 generalizing g a2 with
  | zero =>
    unfold spillLoop
    (try dsimp only)
    repeat' first
      | (with_reducible assumption)
      | (with_reducible apply setFrame_kept)
      | (with_reducible apply setQueue_kept)
      | (with_reducible apply fcCheck_kept)
      | (with_reducible refine kept_fold ?_ _ _ ?_)
      | (with_reducible refine kept_fold_2 ?_ _ _ ?_)
      | (with_reducible refine kept_fold_1 ?_ _ _ ?_)
      | intro _
      | (simp only [kept_lit])
      | (with_reducible apply kept_parts)
      | (with_reducible refine kept_ite ?_ ?_)
      | (dsimp only [id_eq])
      | split
  | succ k_ ih =>
    unfold spillLoop
    (try dsimp only)
    repeat' first
      | (with_reducible assumption)
      | (with_reducible apply setFrame_kept)
      | (with_reducible apply setQueue_kept)
      | (with_reducible apply fcCheck_kept)
      | (with_reducible refine kept_fold ?_ _ _ ?_)
      | (with_reducible refine kept_fold_2 ?_ _ _ ?_)
      | (with_reducible refine kept_fold_1 ?_ _ _ ?_)
      | (with_reducible apply ih)
      | intro _
      | (simp only [kept_lit])
      | (with_reducible apply kept_parts)
      | (with_reducible refine kept_ite ?_ ?_)
      | (dsimp only [id_eq])
      | split

theorem execSpillOut_kept (g : Fin 4) (s : State) (h : Kept C M s) : ∃ t, execSpillOut g s = .next t ∧ Kept C M t := by
  unfold execSpillOut
  refine ⟨_, rfl, ?_⟩
  (try dsimp only)
  repeat' first
    | (with_reducible assumption) | (with_reducible apply whenRunning_kept) | (with_reducible apply begin__kept)
    | (with_reducible apply spillLoop_kept) | (with_reducible refine kept_fold ?_ _ _ ?_)
    | (with_reducible refine kept_fold_2 ?_ _ _ ?_) | (with_reducible refine kept_fold_1 ?_ _ _ ?_) | intro _
    | (simp only [kept_lit]) | (with_reducible apply kept_parts) | (with_reducible refine kept_ite ?_ ?_)
    | (dsimp only [id_eq]) | split

theorem execSpillReturn_kept (p : Fin 8) (q : Fin 8) (s : State) (h : Kept C M s) : ∃ t, execSpillReturn p q s = .next t ∧ Kept C M t := by
  unfold execSpillReturn
  refine ⟨_, rfl, ?_⟩
  (try dsimp only)
  repeat' first
    | (with_reducible assumption) | (with_reducible apply whenRunning_kept) | (with_reducible apply begin__kept)
    | (with_reducible apply fcCheck_kept) | (with_reducible apply setFrame_kept) | (with_reducible refine kept_fold ?_ _ _ ?_)
    | (with_reducible refine kept_fold_2 ?_ _ _ ?_) | (with_reducible refine kept_fold_1 ?_ _ _ ?_) | intro _
    | (simp only [kept_lit]) | (with_reducible apply kept_parts) | (with_reducible refine kept_ite ?_ ?_)
    | (dsimp only [id_eq]) | split

theorem applySw_kept (kind : ℕ) (i : ℕ) (img : List Word) (s : State) (h : Kept C M s) : Kept C M (applySw kind i img s) := by
  unfold applySw
  (try dsimp only)
  repeat' first
    | (with_reducible assumption) | (with_reducible apply schedule_kept) | (with_reducible refine kept_fold ?_ _ _ ?_)
    | (with_reducible refine kept_fold_2 ?_ _ _ ?_) | (with_reducible refine kept_fold_1 ?_ _ _ ?_) | intro _
    | (simp only [kept_lit]) | (with_reducible apply kept_parts) | (with_reducible refine kept_ite ?_ ?_)
    | (dsimp only [id_eq]) | split

theorem groupStart_kept (s : State) (g : ℕ) (m : ℕ) (h : Kept C M s) : Kept C M (groupStart s g m) := by
  unfold groupStart
  (try dsimp only)
  repeat' first
    | (with_reducible assumption) | (with_reducible apply dropSpilled_kept) | (with_reducible apply flushAll_kept)
    | (with_reducible apply countTail_kept) | (with_reducible apply statIncI_kept) | (with_reducible apply setFld_kept)
    | (with_reducible refine kept_fold ?_ _ _ ?_) | (with_reducible refine kept_fold_2 ?_ _ _ ?_)
    | (with_reducible refine kept_fold_1 ?_ _ _ ?_) | intro _ | (simp only [kept_lit]) | (with_reducible apply kept_parts)
    | (with_reducible refine kept_ite ?_ ?_) | (dsimp only [id_eq]) | split

theorem execSwConfig_kept (r : Req) (kind : BitVec 8) (index : BitVec 16) (img : List Word) (s : State) (h : Kept C M s) (hm : M.map = none) : ∃ t, execSwConfig r kind index img s = .next t ∧ Kept C M t := by
  unfold execSwConfig
  refine ⟨_, rfl, ?_⟩
  (try dsimp only)
  repeat' first
    | (with_reducible assumption) | (with_reducible apply dispatch_kept) | (with_reducible apply cfgPlan_planKept)
    | (with_reducible apply applySw_kept) | (with_reducible refine kept_fold ?_ _ _ ?_)
    | (with_reducible refine kept_fold_2 ?_ _ _ ?_) | (with_reducible refine kept_fold_1 ?_ _ _ ?_) | intro _
    | (simp only [kept_lit]) | (with_reducible apply kept_parts) | (with_reducible refine parts_map ?_ hm _)
    | (with_reducible apply begin__kept) | (with_reducible refine kept_ite ?_ ?_) | (dsimp only [id_eq]) | split
    | (with_reducible refine plan_mk ?_)

theorem execCarryReport_kept (r : Req) (time : BitVec 64) (node : BitVec 16) (ing : BitVec 8) (expv : Word) (got : Word) (s : State) (h : Kept C M s) : ∃ t, execCarryReport r time node ing expv got s = .next t ∧ Kept C M t := by
  unfold execCarryReport
  refine ⟨_, rfl, ?_⟩
  (try dsimp only)
  repeat' first
    | (with_reducible assumption) | (with_reducible apply dispatch_kept) | (with_reducible apply raise_kept)
    | (with_reducible apply captureCarry_kept) | (with_reducible apply statInc_kept) | (with_reducible apply plan_fail)
    | (with_reducible apply plan_read) | (with_reducible apply plan_noRoom) | (with_reducible refine plan_do ?_)
    | (with_reducible refine plan_doBytes ?_) | (with_reducible refine kept_fold ?_ _ _ ?_)
    | (with_reducible refine kept_fold_2 ?_ _ _ ?_) | (with_reducible refine kept_fold_1 ?_ _ _ ?_) | intro _
    | (simp only [kept_lit]) | (with_reducible apply kept_parts) | (with_reducible apply begin__kept)
    | (with_reducible refine kept_ite ?_ ?_) | (dsimp only [id_eq]) | split | (with_reducible refine plan_mk ?_)

end Sys2Proof.Machine
end

