-- ==== Sys2Proof/Laws/KeepWheels.lean ====
section
/-! SUPPORT. What the operations of `Wheels` leave alone. -/

namespace Sys2Proof.Machine

set_option linter.unusedTactic false
set_option linter.unreachableTactic false
set_option linter.unusedSimpArgs false

variable {C : Prop} {M : Mark}

theorem countTooth_kept (s : State) (n : ℕ) (h : Kept C M s) : Kept C M (countTooth s n) := by
  unfold countTooth
  (try dsimp only)
  repeat' first
    | (with_reducible assumption) | (with_reducible apply stat2AddI_kept) | (with_reducible apply setTt_kept)
    | (with_reducible apply addDistance_kept) | (with_reducible refine kept_fold ?_ _ _ ?_)
    | (with_reducible refine kept_fold_2 ?_ _ _ ?_) | (with_reducible refine kept_fold_1 ?_ _ _ ?_) | intro _
    | (simp only [kept_lit]) | (with_reducible apply kept_parts) | (with_reducible refine kept_ite ?_ ?_)
    | (dsimp only [id_eq]) | split

theorem syncTooth_kept (s : State) (n : ℕ) (now : ℕ) (h : Kept C M s) : Kept C M (syncTooth s n now) := by
  unfold syncTooth
  (try dsimp only)
  repeat' first
    | (with_reducible assumption) | (with_reducible apply setTt_kept) | (with_reducible apply raise_kept)
    | (with_reducible apply countTooth_kept) | (with_reducible apply evtsAtTooth_kept)
    | (with_reducible refine kept_fold ?_ _ _ ?_) | (with_reducible refine kept_fold_2 ?_ _ _ ?_)
    | (with_reducible refine kept_fold_1 ?_ _ _ ?_) | intro _ | (simp only [kept_lit]) | (with_reducible apply kept_parts)
    | (with_reducible refine kept_ite ?_ ?_) | (dsimp only [id_eq]) | split

theorem searchTooth_kept (s : State) (n : ℕ) (now : ℕ) (h : Kept C M s) : Kept C M (searchTooth s n now) := by
  unfold searchTooth
  (try dsimp only)
  repeat' first
    | (with_reducible assumption) | (with_reducible apply distTeeth_kept) | (with_reducible apply countTooth_kept)
    | (with_reducible apply setTt_kept) | (with_reducible refine kept_fold ?_ _ _ ?_)
    | (with_reducible refine kept_fold_2 ?_ _ _ ?_) | (with_reducible refine kept_fold_1 ?_ _ _ ?_) | intro _
    | (simp only [kept_lit]) | (with_reducible apply kept_parts) | (with_reducible refine kept_ite ?_ ?_)
    | (dsimp only [id_eq]) | split

theorem breakSync_kept (s : State) (n : ℕ) (now : ℕ) (reason : ℕ) (h : Kept C M s) : Kept C M (breakSync s n now reason) := by
  unfold breakSync
  (try dsimp only)
  repeat' first
    | (with_reducible assumption) | (with_reducible apply loseSync_kept) | (with_reducible apply searchTooth_kept)
    | (with_reducible refine kept_fold ?_ _ _ ?_) | (with_reducible refine kept_fold_2 ?_ _ _ ?_)
    | (with_reducible refine kept_fold_1 ?_ _ _ ?_) | intro _ | (simp only [kept_lit]) | (with_reducible apply kept_parts)
    | (with_reducible refine kept_ite ?_ ?_) | (dsimp only [id_eq]) | split

theorem edgeInSync_kept (s : State) (n : ℕ) (now : ℕ) (h : Kept C M s) : Kept C M (edgeInSync s n now) := by
  unfold edgeInSync
  (try dsimp only)
  repeat' first
    | (with_reducible assumption) | (with_reducible apply syncTooth_kept) | (with_reducible apply breakSync_kept)
    | (with_reducible apply statInc_kept) | (with_reducible apply setTt_kept) | (with_reducible refine kept_fold ?_ _ _ ?_)
    | (with_reducible refine kept_fold_2 ?_ _ _ ?_) | (with_reducible refine kept_fold_1 ?_ _ _ ?_) | intro _
    | (simp only [kept_lit]) | (with_reducible apply kept_parts) | (with_reducible refine kept_ite ?_ ?_)
    | (dsimp only [id_eq]) | split

theorem enterTtFault_kept (s : State) (n : ℕ) (code : ℕ) (h : Kept C M s) : Kept C M (enterTtFault s n code) := by
  unfold enterTtFault
  (try dsimp only)
  repeat' first
    | (with_reducible assumption) | (with_reducible apply odoGuard_kept) | (with_reducible apply setTt_kept)
    | (with_reducible apply raise_kept) | (with_reducible apply spdSafe_kept) | (with_reducible apply distSample_kept)
    | (with_reducible apply settle_kept) | (with_reducible apply quorumCheck_kept)
    | (with_reducible refine kept_fold ?_ _ _ ?_) | (with_reducible refine kept_fold_2 ?_ _ _ ?_)
    | (with_reducible refine kept_fold_1 ?_ _ _ ?_) | intro _ | (simp only [kept_lit]) | (with_reducible apply kept_parts)
    | (with_reducible refine kept_ite ?_ ?_) | (dsimp only [id_eq]) | split

theorem toothEdge_kept (s : State) (n : ℕ) (width : ℕ) (h : Kept C M s) : Kept C M (toothEdge s n width) := by
  unfold toothEdge
  (try dsimp only)
  repeat' first
    | (with_reducible assumption) | (with_reducible apply statInc_kept) | (with_reducible apply enterTtFault_kept)
    | (with_reducible apply setTt_kept) | (with_reducible apply odoGuard_kept) | (with_reducible apply edgeInSync_kept)
    | (with_reducible apply searchTooth_kept) | (with_reducible refine kept_fold ?_ _ _ ?_)
    | (with_reducible refine kept_fold_2 ?_ _ _ ?_) | (with_reducible refine kept_fold_1 ?_ _ _ ?_) | intro _
    | (simp only [kept_lit]) | (with_reducible apply kept_parts) | (with_reducible refine kept_ite ?_ ?_)
    | (dsimp only [id_eq]) | split

theorem execToothEdge_kept (n : Fin 6) (width : ℕ) (s : State) (h : Kept C M s) : ∃ t, execToothEdge n width s = .next t ∧ Kept C M t := by
  unfold execToothEdge
  refine ⟨_, rfl, ?_⟩
  (try dsimp only)
  repeat' first
    | (with_reducible assumption) | (with_reducible apply whenRunning_kept) | (with_reducible apply begin__kept)
    | (with_reducible apply toothEdge_kept) | (with_reducible refine kept_fold ?_ _ _ ?_)
    | (with_reducible refine kept_fold_2 ?_ _ _ ?_) | (with_reducible refine kept_fold_1 ?_ _ _ ?_) | intro _
    | (simp only [kept_lit]) | (with_reducible apply kept_parts) | (with_reducible refine kept_ite ?_ ?_)
    | (dsimp only [id_eq]) | split

theorem execSyntheticTooth_kept (n : Fin 6) (s : State) (h : Kept C M s) : ∃ t, execSyntheticTooth n s = .next t ∧ Kept C M t := by
  unfold execSyntheticTooth
  refine ⟨_, rfl, ?_⟩
  (try dsimp only)
  repeat' first
    | (with_reducible assumption) | (with_reducible apply whenRunning_kept) | (with_reducible apply begin__kept)
    | (with_reducible apply syncTooth_kept) | (with_reducible apply setTt_kept) | (with_reducible apply statInc_kept)
    | (with_reducible refine kept_fold ?_ _ _ ?_) | (with_reducible refine kept_fold_2 ?_ _ _ ?_)
    | (with_reducible refine kept_fold_1 ?_ _ _ ?_) | intro _ | (simp only [kept_lit]) | (with_reducible apply kept_parts)
    | (with_reducible refine kept_ite ?_ ?_) | (dsimp only [id_eq]) | split

theorem execTrackerStall_kept (n : Fin 6) (s : State) (h : Kept C M s) : ∃ t, execTrackerStall n s = .next t ∧ Kept C M t := by
  unfold execTrackerStall
  refine ⟨_, rfl, ?_⟩
  (try dsimp only)
  repeat' first
    | (with_reducible assumption) | (with_reducible apply whenRunning_kept) | (with_reducible apply begin__kept)
    | (with_reducible apply spdSafe_kept) | (with_reducible apply setTt_kept) | (with_reducible refine kept_fold ?_ _ _ ?_)
    | (with_reducible refine kept_fold_2 ?_ _ _ ?_) | (with_reducible refine kept_fold_1 ?_ _ _ ?_) | intro _
    | (simp only [kept_lit]) | (with_reducible apply kept_parts) | (with_reducible refine kept_ite ?_ ?_)
    | (dsimp only [id_eq]) | split

theorem execTrackerFault_kept (n : Fin 6) (code : Fin 4) (s : State) (h : Kept C M s) : ∃ t, execTrackerFault n code s = .next t ∧ Kept C M t := by
  unfold execTrackerFault
  refine ⟨_, rfl, ?_⟩
  (try dsimp only)
  repeat' first
    | (with_reducible assumption) | (with_reducible apply whenRunning_kept) | (with_reducible apply begin__kept)
    | (with_reducible apply enterTtFault_kept) | (with_reducible refine kept_fold ?_ _ _ ?_)
    | (with_reducible refine kept_fold_2 ?_ _ _ ?_) | (with_reducible refine kept_fold_1 ?_ _ _ ?_) | intro _
    | (simp only [kept_lit]) | (with_reducible apply kept_parts) | (with_reducible refine kept_ite ?_ ?_)
    | (dsimp only [id_eq]) | split

theorem execTrackerFaultClear_kept (n : Fin 6) (s : State) (h : Kept C M s) : ∃ t, execTrackerFaultClear n s = .next t ∧ Kept C M t := by
  unfold execTrackerFaultClear
  refine ⟨_, rfl, ?_⟩
  (try dsimp only)
  repeat' first
    | (with_reducible assumption) | (with_reducible apply whenRunning_kept) | (with_reducible apply begin__kept)
    | (with_reducible apply odoGuard_kept) | (with_reducible apply quorumCheck_kept) | (with_reducible apply setTt_kept)
    | (with_reducible refine kept_fold ?_ _ _ ?_) | (with_reducible refine kept_fold_2 ?_ _ _ ?_)
    | (with_reducible refine kept_fold_1 ?_ _ _ ?_) | intro _ | (simp only [kept_lit]) | (with_reducible apply kept_parts)
    | (with_reducible refine kept_ite ?_ ?_) | (dsimp only [id_eq]) | split

theorem execMotionTimeout_kept (n : Fin 6) (s : State) (h : Kept C M s) : ∃ t, execMotionTimeout n s = .next t ∧ Kept C M t := by
  unfold execMotionTimeout
  refine ⟨_, rfl, ?_⟩
  (try dsimp only)
  repeat' first
    | (with_reducible assumption) | (with_reducible apply whenRunning_kept) | (with_reducible apply begin__kept)
    | (with_reducible apply settle_kept) | (with_reducible apply setTt_kept) | (with_reducible refine kept_fold ?_ _ _ ?_)
    | (with_reducible refine kept_fold_2 ?_ _ _ ?_) | (with_reducible refine kept_fold_1 ?_ _ _ ?_) | intro _
    | (simp only [kept_lit]) | (with_reducible apply kept_parts) | (with_reducible refine kept_ite ?_ ?_)
    | (dsimp only [id_eq]) | split

theorem execAngleEvent_kept (k : Fin 64) (s : State) (h : Kept C M s) : ∃ t, execAngleEvent k s = .next t ∧ Kept C M t := by
  unfold execAngleEvent
  refine ⟨_, rfl, ?_⟩
  (try dsimp only)
  repeat' first
    | (with_reducible assumption) | (with_reducible apply whenRunning_kept) | (with_reducible apply begin__kept)
    | (with_reducible apply evtPass_kept) | (with_reducible refine kept_fold ?_ _ _ ?_)
    | (with_reducible refine kept_fold_2 ?_ _ _ ?_) | (with_reducible refine kept_fold_1 ?_ _ _ ?_) | intro _
    | (simp only [kept_lit]) | (with_reducible apply kept_parts) | (with_reducible refine kept_ite ?_ ?_)
    | (dsimp only [id_eq]) | split

theorem cmpAct_kept (s : State) (n : ℕ) (l : List ℕ) (h : Kept C M s) : Kept C M (cmpAct s n l) := by
  unfold cmpAct
  (try dsimp only)
  repeat' first
    | (with_reducible assumption) | (with_reducible apply setCmpo_kept) | (with_reducible apply setFld_kept)
    | (with_reducible refine kept_fold ?_ _ _ ?_) | (with_reducible refine kept_fold_2 ?_ _ _ ?_)
    | (with_reducible refine kept_fold_1 ?_ _ _ ?_) | intro _ | (simp only [kept_lit]) | (with_reducible apply kept_parts)
    | (with_reducible refine kept_ite ?_ ?_) | (dsimp only [id_eq]) | split

theorem abortMove_kept (s : State) (b : ℕ) (motion : Bool) (h : Kept C M s) : Kept C M (abortMove s b motion) := by
  unfold abortMove
  (try dsimp only)
  repeat' first
    | (with_reducible assumption) | (with_reducible apply endMove_kept) | (with_reducible apply setBolt_kept)
    | (with_reducible apply raise_kept) | (with_reducible apply startMove_kept) | (with_reducible refine kept_fold ?_ _ _ ?_)
    | (with_reducible refine kept_fold_2 ?_ _ _ ?_) | (with_reducible refine kept_fold_1 ?_ _ _ ?_) | intro _
    | (simp only [kept_lit]) | (with_reducible apply kept_parts) | (with_reducible refine kept_ite ?_ ?_)
    | (dsimp only [id_eq]) | split

theorem boltOnConversion_kept (s : State) (b : ℕ) (ctrl : Bool) (f14 : Bool) (f15 : Bool) (h : Kept C M s) : Kept C M (boltOnConversion s b ctrl f14 f15) := by
  unfold boltOnConversion
  (try dsimp only)
  repeat' first
    | (with_reducible assumption) | (with_reducible apply faultMove_kept) | (with_reducible apply abortMove_kept)
    | (with_reducible apply endMove_kept) | (with_reducible apply raise_kept) | (with_reducible apply setBolt_kept)
    | (with_reducible apply settle_kept) | (with_reducible refine kept_fold ?_ _ _ ?_)
    | (with_reducible refine kept_fold_2 ?_ _ _ ?_) | (with_reducible refine kept_fold_1 ?_ _ _ ?_) | intro _
    | (simp only [kept_lit]) | (with_reducible apply kept_parts) | (with_reducible refine kept_ite ?_ ?_)
    | (dsimp only [id_eq]) | split

theorem conversion_kept (s : State) (n : ℕ) (sin : ℤ) (cos : ℤ) (theta : ℕ) (h : Kept C M s) : Kept C M (conversion s n sin cos theta) := by
  unfold conversion
  (try dsimp only)
  repeat' first
    | (with_reducible assumption) | (with_reducible apply setFb_kept) | (with_reducible apply chanFault_kept)
    | (with_reducible apply cmpAct_kept) | (with_reducible apply boltOnConversion_kept)
    | (with_reducible refine kept_fold ?_ _ _ ?_) | (with_reducible refine kept_fold_2 ?_ _ _ ?_)
    | (with_reducible refine kept_fold_1 ?_ _ _ ?_) | intro _ | (simp only [kept_lit]) | (with_reducible apply kept_parts)
    | (with_reducible refine kept_ite ?_ ?_) | (dsimp only [id_eq]) | split

theorem execConversionDone_kept (ch : Fin 4) (sin : BitVec 16) (cos : BitVec 16) (theta : BitVec 16) (s : State) (h : Kept C M s) : ∃ t, execConversionDone ch sin cos theta s = .next t ∧ Kept C M t := by
  unfold execConversionDone
  refine ⟨_, rfl, ?_⟩
  (try dsimp only)
  repeat' first
    | (with_reducible assumption) | (with_reducible apply whenRunning_kept) | (with_reducible apply begin__kept)
    | (with_reducible apply conversion_kept) | (with_reducible refine kept_fold ?_ _ _ ?_)
    | (with_reducible refine kept_fold_2 ?_ _ _ ?_) | (with_reducible refine kept_fold_1 ?_ _ _ ?_) | intro _
    | (simp only [kept_lit]) | (with_reducible apply kept_parts) | (with_reducible refine kept_ite ?_ ?_)
    | (dsimp only [id_eq]) | split

theorem execBoltLimit_kept (b : Fin 4) (s : State) (h : Kept C M s) : ∃ t, execBoltLimit b s = .next t ∧ Kept C M t := by
  unfold execBoltLimit
  refine ⟨_, rfl, ?_⟩
  (try dsimp only)
  repeat' first
    | (with_reducible assumption) | (with_reducible apply whenRunning_kept) | (with_reducible apply begin__kept)
    | (with_reducible apply faultMove_kept) | (with_reducible refine kept_fold ?_ _ _ ?_)
    | (with_reducible refine kept_fold_2 ?_ _ _ ?_) | (with_reducible refine kept_fold_1 ?_ _ _ ?_) | intro _
    | (simp only [kept_lit]) | (with_reducible apply kept_parts) | (with_reducible refine kept_ite ?_ ?_)
    | (dsimp only [id_eq]) | split

theorem execBoltRetry_kept (b : Fin 4) (s : State) (h : Kept C M s) : ∃ t, execBoltRetry b s = .next t ∧ Kept C M t := by
  unfold execBoltRetry
  refine ⟨_, rfl, ?_⟩
  (try dsimp only)
  repeat' first
    | (with_reducible assumption) | (with_reducible apply whenRunning_kept) | (with_reducible apply begin__kept)
    | (with_reducible apply retryBolt_kept) | (with_reducible refine kept_fold ?_ _ _ ?_)
    | (with_reducible refine kept_fold_2 ?_ _ _ ?_) | (with_reducible refine kept_fold_1 ?_ _ _ ?_) | intro _
    | (simp only [kept_lit]) | (with_reducible apply kept_parts) | (with_reducible refine kept_ite ?_ ?_)
    | (dsimp only [id_eq]) | split

theorem execKeysafeHoldExpiry_kept (s : State) (h : Kept C M s) : ∃ t, execKeysafeHoldExpiry s = .next t ∧ Kept C M t := by
  unfold execKeysafeHoldExpiry
  refine ⟨_, rfl, ?_⟩
  (try dsimp only)
  repeat' first
    | (with_reducible assumption) | (with_reducible apply whenRunning_kept) | (with_reducible apply begin__kept)
    | (with_reducible apply requestMove_kept) | (with_reducible refine kept_fold ?_ _ _ ?_)
    | (with_reducible refine kept_fold_2 ?_ _ _ ?_) | (with_reducible refine kept_fold_1 ?_ _ _ ?_) | intro _
    | (simp only [kept_lit]) | (with_reducible apply kept_parts) | (with_reducible refine kept_ite ?_ ?_)
    | (dsimp only [id_eq]) | split

theorem execCmpoPulseEnd_kept (k : Fin 4) (s : State) (h : Kept C M s) : ∃ t, execCmpoPulseEnd k s = .next t ∧ Kept C M t := by
  unfold execCmpoPulseEnd
  refine ⟨_, rfl, ?_⟩
  (try dsimp only)
  repeat' first
    | (with_reducible assumption) | (with_reducible apply whenRunning_kept) | (with_reducible apply begin__kept)
    | (with_reducible apply setCmpo_kept) | (with_reducible refine kept_fold ?_ _ _ ?_)
    | (with_reducible refine kept_fold_2 ?_ _ _ ?_) | (with_reducible refine kept_fold_1 ?_ _ _ ?_) | intro _
    | (simp only [kept_lit]) | (with_reducible apply kept_parts) | (with_reducible refine kept_ite ?_ ?_)
    | (dsimp only [id_eq]) | split

theorem execExcOverload_kept (ch : Fin 4) (s : State) (h : Kept C M s) : ∃ t, execExcOverload ch s = .next t ∧ Kept C M t := by
  unfold execExcOverload
  refine ⟨_, rfl, ?_⟩
  (try dsimp only)
  repeat' first
    | (with_reducible assumption) | (with_reducible apply whenRunning_kept) | (with_reducible apply begin__kept)
    | (with_reducible apply chanFault_kept) | (with_reducible refine kept_fold ?_ _ _ ?_)
    | (with_reducible refine kept_fold_2 ?_ _ _ ?_) | (with_reducible refine kept_fold_1 ?_ _ _ ?_) | intro _
    | (simp only [kept_lit]) | (with_reducible apply kept_parts) | (with_reducible refine kept_ite ?_ ?_)
    | (dsimp only [id_eq]) | split

theorem applyTt_kept (t0 : ℕ) (img : List Word) (s : State) (h : Kept C M s) : Kept C M (applyTt t0 img s) := by
  unfold applyTt
  (try dsimp only)
  repeat' first
    | (with_reducible assumption) | (with_reducible apply schedule_kept) | (with_reducible refine kept_fold ?_ _ _ ?_)
    | (with_reducible refine kept_fold_2 ?_ _ _ ?_) | (with_reducible refine kept_fold_1 ?_ _ _ ?_) | intro _
    | (simp only [kept_lit]) | (with_reducible apply kept_parts) | (with_reducible refine kept_ite ?_ ?_)
    | (dsimp only [id_eq]) | split

theorem applyAng_kept (first : ℕ) (es : List (Word × Word)) (s : State) (h : Kept C M s) : Kept C M (applyAng first es s) := by
  unfold applyAng
  (try dsimp only)
  repeat' first
    | (with_reducible assumption) | (with_reducible apply schedule_kept) | (with_reducible refine kept_fold ?_ _ _ ?_)
    | (with_reducible refine kept_fold_2 ?_ _ _ ?_) | (with_reducible refine kept_fold_1 ?_ _ _ ?_) | intro _
    | (simp only [kept_lit]) | (with_reducible apply kept_parts) | (with_reducible refine kept_ite ?_ ?_)
    | (dsimp only [id_eq]) | split

theorem applyFb_kept (kind : ℕ) (i : ℕ) (img : List Word) (s : State) (h : Kept C M s) : Kept C M (applyFb kind i img s) := by
  unfold applyFb
  (try dsimp only)
  repeat' first
    | (with_reducible assumption) | (with_reducible apply schedule_kept) | (with_reducible refine kept_fold ?_ _ _ ?_)
    | (with_reducible refine kept_fold_2 ?_ _ _ ?_) | (with_reducible refine kept_fold_1 ?_ _ _ ?_) | intro _
    | (simp only [kept_lit]) | (with_reducible apply kept_parts) | (with_reducible refine kept_ite ?_ ?_)
    | (dsimp only [id_eq]) | split

theorem execTtConfig_kept (r : Req) (tracker : BitVec 8) (img : List Word) (s : State) (h : Kept C M s) (hm : M.map = none) : ∃ t, execTtConfig r tracker img s = .next t ∧ Kept C M t := by
  unfold execTtConfig
  refine ⟨_, rfl, ?_⟩
  (try dsimp only)
  repeat' first
    | (with_reducible assumption) | (with_reducible apply dispatch_kept) | (with_reducible apply cfgPlan_planKept)
    | (with_reducible apply applyTt_kept) | (with_reducible refine kept_fold ?_ _ _ ?_)
    | (with_reducible refine kept_fold_2 ?_ _ _ ?_) | (with_reducible refine kept_fold_1 ?_ _ _ ?_) | intro _
    | (simp only [kept_lit]) | (with_reducible apply kept_parts) | (with_reducible refine parts_map ?_ hm _)
    | (with_reducible apply begin__kept) | (with_reducible refine kept_ite ?_ ?_) | (dsimp only [id_eq]) | split
    | (with_reducible refine plan_mk ?_)

theorem execAngEventSet_kept (r : Req) (first : BitVec 8) (count : BitVec 8) (entries : List (Word × Word)) (s : State) (h : Kept C M s) (hm : M.map = none) : ∃ t, execAngEventSet r first count entries s = .next t ∧ Kept C M t := by
  unfold execAngEventSet
  refine ⟨_, rfl, ?_⟩
  (try dsimp only)
  repeat' first
    | (with_reducible assumption) | (with_reducible apply dispatch_kept) | (with_reducible apply cfgPlan_planKept)
    | (with_reducible apply applyAng_kept) | (with_reducible refine kept_fold ?_ _ _ ?_)
    | (with_reducible refine kept_fold_2 ?_ _ _ ?_) | (with_reducible refine kept_fold_1 ?_ _ _ ?_) | intro _
    | (simp only [kept_lit]) | (with_reducible apply kept_parts) | (with_reducible refine parts_map ?_ hm _)
    | (with_reducible apply begin__kept) | (with_reducible refine kept_ite ?_ ?_) | (dsimp only [id_eq]) | split
    | (with_reducible refine plan_mk ?_)

theorem execFbConfig_kept (r : Req) (kind : BitVec 8) (index : BitVec 8) (img : List Word) (s : State) (h : Kept C M s) (hm : M.map = none) : ∃ t, execFbConfig r kind index img s = .next t ∧ Kept C M t := by
  unfold execFbConfig
  refine ⟨_, rfl, ?_⟩
  (try dsimp only)
  repeat' first
    | (with_reducible assumption) | (with_reducible apply dispatch_kept) | (with_reducible apply cfgPlan_planKept)
    | (with_reducible apply applyFb_kept) | (with_reducible refine kept_fold ?_ _ _ ?_)
    | (with_reducible refine kept_fold_2 ?_ _ _ ?_) | (with_reducible refine kept_fold_1 ?_ _ _ ?_) | intro _
    | (simp only [kept_lit]) | (with_reducible apply kept_parts) | (with_reducible refine parts_map ?_ hm _)
    | (with_reducible apply begin__kept) | (with_reducible refine kept_ite ?_ ?_) | (dsimp only [id_eq]) | split
    | (with_reducible refine plan_mk ?_)

theorem execFbCal_kept (r : Req) (ch : BitVec 8) (avg : ℕ) (s : State) (h : Kept C M s) (hm : M.map = none) : ∃ t, execFbCal r ch avg s = .next t ∧ Kept C M t := by
  unfold execFbCal
  refine ⟨_, rfl, ?_⟩
  (try dsimp only)
  repeat' first
    | (with_reducible assumption) | (with_reducible apply dispatch_kept) | (with_reducible apply schedule_kept)
    | (with_reducible apply setMap_kept) | (with_reducible apply plan_fail) | (with_reducible apply plan_read)
    | (with_reducible apply plan_noRoom) | (with_reducible refine plan_do ?_) | (with_reducible refine plan_doBytes ?_)
    | (with_reducible refine kept_fold ?_ _ _ ?_) | (with_reducible refine kept_fold_2 ?_ _ _ ?_)
    | (with_reducible refine kept_fold_1 ?_ _ _ ?_) | intro _ | (simp only [kept_lit]) | (with_reducible apply kept_parts)
    | (with_reducible refine parts_map ?_ hm _) | (with_reducible apply begin__kept) | (with_reducible refine kept_ite ?_ ?_)
    | (dsimp only [id_eq]) | split | (with_reducible refine plan_mk ?_)

theorem execBoltMove_kept (r : Req) (bolt : BitVec 8) (dir : BitVec 8) (s : State) (h : Kept C M s) : ∃ t, execBoltMove r bolt dir s = .next t ∧ Kept C M t := by
  unfold execBoltMove
  refine ⟨_, rfl, ?_⟩
  (try dsimp only)
  repeat' first
    | (with_reducible assumption) | (with_reducible apply dispatch_kept) | (with_reducible apply startMove_kept)
    | (with_reducible apply setBolt_kept) | (with_reducible apply plan_fail) | (with_reducible apply plan_read)
    | (with_reducible apply plan_noRoom) | (with_reducible refine plan_do ?_) | (with_reducible refine plan_doBytes ?_)
    | (with_reducible refine kept_fold ?_ _ _ ?_) | (with_reducible refine kept_fold_2 ?_ _ _ ?_)
    | (with_reducible refine kept_fold_1 ?_ _ _ ?_) | intro _ | (simp only [kept_lit]) | (with_reducible apply kept_parts)
    | (with_reducible apply begin__kept) | (with_reducible refine kept_ite ?_ ?_) | (dsimp only [id_eq]) | split
    | (with_reducible refine plan_mk ?_)

end Sys2Proof.Machine
end

