-- ==== Sys2Proof/Laws/KeepTime.lean ====
section
/-! SUPPORT. What the operations of `Time` leave alone. -/

namespace Sys2Proof.Machine

set_option linter.unusedTactic false
set_option linter.unreachableTactic false
set_option linter.unusedSimpArgs false

variable {C : Prop} {M : Mark}

theorem domPass_kept (n : ℕ) (s : State) (k : ℕ) (h : Kept C M s) : Kept C M (domPass n s k) := by
  unfold domPass
  (try dsimp only)
  repeat' first
    | (with_reducible assumption) | (with_reducible apply setDom_kept) | (with_reducible apply raise_kept)
    | (with_reducible refine kept_fold ?_ _ _ ?_) | (with_reducible refine kept_fold_2 ?_ _ _ ?_)
    | (with_reducible refine kept_fold_1 ?_ _ _ ?_) | intro _ | (simp only [kept_lit]) | (with_reducible apply kept_parts)
    | (with_reducible refine kept_ite ?_ ?_) | (dsimp only [id_eq]) | split

theorem domsPass_kept (n : ℕ) (s : State) (h : Kept C M s) : Kept C M (domsPass n s) := by
  unfold domsPass
  (try dsimp only)
  repeat' first
    | (with_reducible assumption) | (with_reducible apply domPass_kept) | (with_reducible refine kept_fold ?_ _ _ ?_)
    | (with_reducible refine kept_fold_2 ?_ _ _ ?_) | (with_reducible refine kept_fold_1 ?_ _ _ ?_) | intro _
    | (simp only [kept_lit]) | (with_reducible apply kept_parts) | (with_reducible refine kept_ite ?_ ?_)
    | (dsimp only [id_eq]) | split

theorem domsFollow_kept (s : State) (h : Kept C M s) : Kept C M (domsFollow s) := by
  unfold domsFollow
  (try dsimp only)
  repeat' first
    | (with_reducible assumption) | (with_reducible apply setDom_kept) | (with_reducible refine kept_fold ?_ _ _ ?_)
    | (with_reducible refine kept_fold_2 ?_ _ _ ?_) | (with_reducible refine kept_fold_1 ?_ _ _ ?_) | intro _
    | (simp only [kept_lit]) | (with_reducible apply kept_parts) | (with_reducible refine kept_ite ?_ ?_)
    | (dsimp only [id_eq]) | split

theorem corePass_kept (n : ℕ) (s : State) (h : Kept C M s) : Kept C M (corePass n s) := by
  unfold corePass
  (try dsimp only)
  repeat' first
    | (with_reducible assumption) | (with_reducible apply domsPass_kept) | (with_reducible refine kept_fold ?_ _ _ ?_)
    | (with_reducible refine kept_fold_2 ?_ _ _ ?_) | (with_reducible refine kept_fold_1 ?_ _ _ ?_) | intro _
    | (simp only [kept_lit]) | (with_reducible apply kept_parts) | (with_reducible refine kept_ite ?_ ?_)
    | (dsimp only [id_eq]) | split

theorem setPast_kept (s : State) (c : ℕ) (v : Bool) (h : Kept C M s) : Kept C M (setPast s c v) := by
  unfold setPast
  (try dsimp only)
  repeat' first
    | (with_reducible assumption) | (with_reducible refine kept_fold ?_ _ _ ?_)
    | (with_reducible refine kept_fold_2 ?_ _ _ ?_) | (with_reducible refine kept_fold_1 ?_ _ _ ?_) | intro _
    | (simp only [kept_lit]) | (with_reducible apply kept_parts) | (with_reducible refine kept_ite ?_ ?_)
    | (dsimp only [id_eq]) | split

theorem setTarget_kept (s : State) (c : ℕ) (ns : ℕ) (h : Kept C M s) : Kept C M (setTarget s c ns) := by
  unfold setTarget
  (try dsimp only)
  repeat' first
    | (with_reducible assumption) | (with_reducible refine kept_fold ?_ _ _ ?_)
    | (with_reducible refine kept_fold_2 ?_ _ _ ?_) | (with_reducible refine kept_fold_1 ?_ _ _ ?_) | intro _
    | (simp only [kept_lit]) | (with_reducible apply kept_parts) | (with_reducible refine kept_ite ?_ ?_)
    | (dsimp only [id_eq]) | split

theorem trgArm_kept (s : State) (c : ℕ) (h : Kept C M s) : Kept C M (trgArm s c) := by
  unfold trgArm
  (try dsimp only)
  repeat' first
    | (with_reducible assumption) | (with_reducible apply setPast_kept) | (with_reducible refine kept_fold ?_ _ _ ?_)
    | (with_reducible refine kept_fold_2 ?_ _ _ ?_) | (with_reducible refine kept_fold_1 ?_ _ _ ?_) | intro _
    | (simp only [kept_lit]) | (with_reducible apply kept_parts) | (with_reducible refine kept_ite ?_ ?_)
    | (dsimp only [id_eq]) | split

theorem trgAdvance_kept (s : State) (c : ℕ) (skips : ℕ) (h : Kept C M s) : Kept C M (trgAdvance s c skips) := by
  unfold trgAdvance
  (try dsimp only)
  repeat' first
    | (with_reducible assumption) | (with_reducible apply setFld_kept) | (with_reducible apply setTarget_kept)
    | (with_reducible refine kept_fold ?_ _ _ ?_) | (with_reducible refine kept_fold_2 ?_ _ _ ?_)
    | (with_reducible refine kept_fold_1 ?_ _ _ ?_) | intro _ | (simp only [kept_lit]) | (with_reducible apply kept_parts)
    | (with_reducible refine kept_ite ?_ ?_) | (dsimp only [id_eq]) | split

theorem trgMark_kept (s : State) (c : ℕ) (h : Kept C M s) : Kept C M (trgMark s c) := by
  unfold trgMark
  (try dsimp only)
  repeat' first
    | (with_reducible assumption) | (with_reducible refine kept_fold ?_ _ _ ?_)
    | (with_reducible refine kept_fold_2 ?_ _ _ ?_) | (with_reducible refine kept_fold_1 ?_ _ _ ?_) | intro _
    | (simp only [kept_lit]) | (with_reducible apply kept_parts) | (with_reducible refine kept_ite ?_ ?_)
    | (dsimp only [id_eq]) | split

theorem launchHead_kept (s : State) (e : ℕ) (q : ℕ) (h : Kept C M s) : Kept C M (launchHead s e q) := by
  unfold launchHead
  (try dsimp only)
  repeat' first
    | (with_reducible assumption) | (with_reducible apply setQueue_kept) | (with_reducible apply statIncI_kept)
    | (with_reducible refine kept_fold ?_ _ _ ?_) | (with_reducible refine kept_fold_2 ?_ _ _ ?_)
    | (with_reducible refine kept_fold_1 ?_ _ _ ?_) | intro _ | (simp only [kept_lit]) | (with_reducible apply kept_parts)
    | (with_reducible refine kept_ite ?_ ?_) | (dsimp only [id_eq]) | split

theorem trgDo.ctrlRefused_kept (s : State) (n : ℕ) (h : Kept C M s) : Kept C M (trgDo.ctrlRefused s n) := by
  unfold trgDo.ctrlRefused
  (try dsimp only)
  repeat' first
    | (with_reducible assumption) | (with_reducible apply chanFault_kept) | (with_reducible refine kept_fold ?_ _ _ ?_)
    | (with_reducible refine kept_fold_2 ?_ _ _ ?_) | (with_reducible refine kept_fold_1 ?_ _ _ ?_) | intro _
    | (simp only [kept_lit]) | (with_reducible apply kept_parts) | (with_reducible refine kept_ite ?_ ?_)
    | (dsimp only [id_eq]) | split

theorem trgDo_kept (s : State) (c : ℕ) (h : Kept C M s) : Kept C M (trgDo s c).2 := by
  unfold trgDo
  (try dsimp only)
  repeat' first
    | (with_reducible assumption) | (with_reducible apply launchHead_kept) | (with_reducible apply setFb_kept)
    | (with_reducible apply trgDo.ctrlRefused_kept) | (with_reducible apply raise_kept)
    | (with_reducible refine kept_fold ?_ _ _ ?_) | (with_reducible refine kept_fold_2 ?_ _ _ ?_)
    | (with_reducible refine kept_fold_1 ?_ _ _ ?_) | intro _ | (simp only [kept_lit]) | (with_reducible apply kept_parts)
    | (with_reducible refine kept_ite ?_ ?_) | (dsimp only [id_eq]) | split

theorem trgFire_kept (s : State) (c : ℕ) (h : Kept C M s) : Kept C M (trgFire s c) := by
  unfold trgFire
  (try dsimp only)
  repeat' first
    | (with_reducible assumption) | (with_reducible apply setPast_kept) | (with_reducible apply trgDo_kept)
    | (with_reducible apply trgMark_kept) | (with_reducible apply statAddI_kept) | (with_reducible apply raise_kept)
    | (with_reducible apply orReg_kept) | (with_reducible apply trgAdvance_kept) | (with_reducible refine kept_fold ?_ _ _ ?_)
    | (with_reducible refine kept_fold_2 ?_ _ _ ?_) | (with_reducible refine kept_fold_1 ?_ _ _ ?_) | intro _
    | (simp only [kept_lit]) | (with_reducible apply kept_parts)
    | (with_reducible refine kept_of_eq_2 ‹trgDo _ _ = _› (trgDo_kept _ _ ?_)) | (with_reducible refine kept_ite ?_ ?_)
    | (dsimp only [id_eq]) | split

theorem execTriggerFire_kept (c : Fin 32) (s : State) (h : Kept C M s) : ∃ t, execTriggerFire c s = .next t ∧ Kept C M t := by
  unfold execTriggerFire
  refine ⟨_, rfl, ?_⟩
  (try dsimp only)
  repeat' first
    | (with_reducible assumption) | (with_reducible apply begin__kept) | (with_reducible apply trgFire_kept)
    | (with_reducible refine kept_fold ?_ _ _ ?_) | (with_reducible refine kept_fold_2 ?_ _ _ ?_)
    | (with_reducible refine kept_fold_1 ?_ _ _ ?_) | intro _ | (simp only [kept_lit]) | (with_reducible apply kept_parts)
    | (with_reducible refine kept_ite ?_ ?_) | (dsimp only [id_eq]) | split

theorem trgCfgSet_kept (s : State) (c : ℕ) (w : Word) (h : Kept C M s) : Kept C M (trgCfgSet s c w) := by
  unfold trgCfgSet
  (try dsimp only)
  repeat' first
    | (with_reducible assumption) | (with_reducible apply setFld_kept) | (with_reducible apply raise_kept)
    | (with_reducible apply trgArm_kept) | (with_reducible refine kept_fold ?_ _ _ ?_)
    | (with_reducible refine kept_fold_2 ?_ _ _ ?_) | (with_reducible refine kept_fold_1 ?_ _ _ ?_) | intro _
    | (simp only [kept_lit]) | (with_reducible apply kept_parts) | (with_reducible refine kept_ite ?_ ?_)
    | (dsimp only [id_eq]) | split

theorem execTrgcCfgWrite_kept (c : Fin 32) (w : Word) (s : State) (h : Kept C M s) : ∃ t, execTrgcCfgWrite c w s = .next t ∧ Kept C M t := by
  unfold execTrgcCfgWrite
  refine ⟨_, rfl, ?_⟩
  (try dsimp only)
  repeat' first
    | (with_reducible assumption) | (with_reducible apply whenRunning_kept) | (with_reducible apply begin__kept)
    | (with_reducible apply trgCfgSet_kept) | (with_reducible refine kept_fold ?_ _ _ ?_)
    | (with_reducible refine kept_fold_2 ?_ _ _ ?_) | (with_reducible refine kept_fold_1 ?_ _ _ ?_) | intro _
    | (simp only [kept_lit]) | (with_reducible apply kept_parts) | (with_reducible refine kept_ite ?_ ?_)
    | (dsimp only [id_eq]) | split

theorem pastByStep_kept (old : State) (s : State) (n : ℕ) (h : Kept C M old) (h_s : Kept C M s) : Kept C M (pastByStep old s n) := by
  unfold pastByStep
  (try dsimp only)
  repeat' first
    | (with_reducible assumption) | (with_reducible apply setPast_kept) | (with_reducible refine kept_fold ?_ _ _ ?_)
    | (with_reducible refine kept_fold_2 ?_ _ _ ?_) | (with_reducible refine kept_fold_1 ?_ _ _ ?_) | intro _
    | (simp only [kept_lit]) | (with_reducible apply kept_parts) | (with_reducible refine kept_ite ?_ ?_)
    | (dsimp only [id_eq]) | split

theorem execSyncReceived_kept (dom : Fin 3) (m : SyncMsg) (s : State) (h : Kept C M s) : ∃ t, execSyncReceived dom m s = .next t ∧ Kept C M t := by
  unfold execSyncReceived
  refine ⟨_, rfl, ?_⟩
  (try dsimp only)
  repeat' first
    | (with_reducible assumption) | (with_reducible apply whenRunning_kept) | (with_reducible apply begin__kept)
    | (with_reducible apply setDom_kept) | (with_reducible apply raise_kept) | (with_reducible apply orReg_kept)
    | (with_reducible apply pastByStep_kept) | (with_reducible apply draw_kept) | (with_reducible refine kept_fold ?_ _ _ ?_)
    | (with_reducible refine kept_fold_2 ?_ _ _ ?_) | (with_reducible refine kept_fold_1 ?_ _ _ ?_) | intro _
    | (simp only [kept_lit]) | (with_reducible apply kept_parts)
    | (with_reducible refine kept_of_eq_2 ‹draw _ = _› (draw_kept _ ?_)) | (with_reducible refine kept_ite ?_ ?_)
    | (dsimp only [id_eq]) | split

theorem execSyncTimeout_kept (dom : Fin 3) (own : Bool) (s : State) (h : Kept C M s) : ∃ t, execSyncTimeout dom own s = .next t ∧ Kept C M t := by
  unfold execSyncTimeout
  refine ⟨_, rfl, ?_⟩
  (try dsimp only)
  repeat' first
    | (with_reducible assumption) | (with_reducible apply whenRunning_kept) | (with_reducible apply begin__kept)
    | (with_reducible apply setDom_kept) | (with_reducible apply raise_kept) | (with_reducible refine kept_fold ?_ _ _ ?_)
    | (with_reducible refine kept_fold_2 ?_ _ _ ?_) | (with_reducible refine kept_fold_1 ?_ _ _ ?_) | intro _
    | (simp only [kept_lit]) | (with_reducible apply kept_parts) | (with_reducible refine kept_ite ?_ ?_)
    | (dsimp only [id_eq]) | split

theorem execHoldMsWrap_kept (dom : Fin 3) (s : State) (h : Kept C M s) : ∃ t, execHoldMsWrap dom s = .next t ∧ Kept C M t := by
  unfold execHoldMsWrap
  refine ⟨_, rfl, ?_⟩
  (try dsimp only)
  repeat' first
    | (with_reducible assumption) | (with_reducible apply whenRunning_kept) | (with_reducible apply begin__kept)
    | (with_reducible apply raise_kept) | (with_reducible apply setDom_kept) | (with_reducible refine kept_fold ?_ _ _ ?_)
    | (with_reducible refine kept_fold_2 ?_ _ _ ?_) | (with_reducible refine kept_fold_1 ?_ _ _ ?_) | intro _
    | (simp only [kept_lit]) | (with_reducible apply kept_parts) | (with_reducible refine kept_ite ?_ ?_)
    | (dsimp only [id_eq]) | split

theorem nsLatch_kept (s : State) (n : ℕ) (h : Kept C M s) : Kept C M (nsLatch s n) := by
  unfold nsLatch
  (try dsimp only)
  repeat' first
    | (with_reducible assumption) | (with_reducible apply setDom_kept) | (with_reducible refine kept_fold ?_ _ _ ?_)
    | (with_reducible refine kept_fold_2 ?_ _ _ ?_) | (with_reducible refine kept_fold_1 ?_ _ _ ?_) | intro _
    | (simp only [kept_lit]) | (with_reducible apply kept_parts) | (with_reducible refine kept_ite ?_ ?_)
    | (dsimp only [id_eq]) | split

theorem execTimeNsRead_kept (n : Fin 3) (s : State) (h : Kept C M s) : ∃ t, execTimeNsRead n s = .next t ∧ Kept C M t := by
  unfold execTimeNsRead
  refine ⟨_, rfl, ?_⟩
  (try dsimp only)
  repeat' first
    | (with_reducible assumption) | (with_reducible apply whenRunning_kept) | (with_reducible apply begin__kept)
    | (with_reducible apply nsLatch_kept) | (with_reducible refine kept_fold ?_ _ _ ?_)
    | (with_reducible refine kept_fold_2 ?_ _ _ ?_) | (with_reducible refine kept_fold_1 ?_ _ _ ?_) | intro _
    | (simp only [kept_lit]) | (with_reducible apply kept_parts) | (with_reducible refine kept_ite ?_ ?_)
    | (dsimp only [id_eq]) | split

theorem applyBeat_kept (len : BitVec 8) (dom : BitVec 8) (align : BitVec 8) (s : State) (h : Kept C M s) : Kept C M (applyBeat len dom align s) := by
  unfold applyBeat
  (try dsimp only)
  repeat' first
    | (with_reducible assumption) | (with_reducible apply setFld_kept) | (with_reducible apply schedule_kept)
    | (with_reducible refine kept_fold ?_ _ _ ?_) | (with_reducible refine kept_fold_2 ?_ _ _ ?_)
    | (with_reducible refine kept_fold_1 ?_ _ _ ?_) | intro _ | (simp only [kept_lit]) | (with_reducible apply kept_parts)
    | (with_reducible refine kept_ite ?_ ?_) | (dsimp only [id_eq]) | split

theorem execTimeBeatSet_kept (r : Req) (len : BitVec 8) (dom : BitVec 8) (align : BitVec 8) (s : State) (h : Kept C M s) (hm : M.map = none) : ∃ t, execTimeBeatSet r len dom align s = .next t ∧ Kept C M t := by
  unfold execTimeBeatSet
  refine ⟨_, rfl, ?_⟩
  (try dsimp only)
  repeat' first
    | (with_reducible assumption) | (with_reducible apply dispatch_kept) | (with_reducible apply cfgPlan_planKept)
    | (with_reducible apply applyBeat_kept) | (with_reducible refine kept_fold ?_ _ _ ?_)
    | (with_reducible refine kept_fold_2 ?_ _ _ ?_) | (with_reducible refine kept_fold_1 ?_ _ _ ?_) | intro _
    | (simp only [kept_lit]) | (with_reducible apply kept_parts) | (with_reducible refine parts_map ?_ hm _)
    | (with_reducible apply begin__kept) | (with_reducible refine kept_ite ?_ ?_) | (dsimp only [id_eq]) | split
    | (with_reducible refine plan_mk ?_)

theorem applyTime_kept (index : BitVec 8) (img : List Word) (s : State) (h : Kept C M s) : Kept C M (applyTime index img s) := by
  unfold applyTime
  (try dsimp only)
  repeat' first
    | (with_reducible assumption) | (with_reducible apply schedule_kept) | (with_reducible refine kept_fold ?_ _ _ ?_)
    | (with_reducible refine kept_fold_2 ?_ _ _ ?_) | (with_reducible refine kept_fold_1 ?_ _ _ ?_) | intro _
    | (simp only [kept_lit]) | (with_reducible apply kept_parts) | (with_reducible refine kept_ite ?_ ?_)
    | (dsimp only [id_eq]) | split

theorem execTimeConfig_kept (r : Req) (index : BitVec 8) (img : List Word) (s : State) (h : Kept C M s) (hm : M.map = none) : ∃ t, execTimeConfig r index img s = .next t ∧ Kept C M t := by
  unfold execTimeConfig
  refine ⟨_, rfl, ?_⟩
  (try dsimp only)
  repeat' first
    | (with_reducible assumption) | (with_reducible apply dispatch_kept) | (with_reducible apply cfgPlan_planKept)
    | (with_reducible apply applyTime_kept) | (with_reducible refine kept_fold ?_ _ _ ?_)
    | (with_reducible refine kept_fold_2 ?_ _ _ ?_) | (with_reducible refine kept_fold_1 ?_ _ _ ?_) | intro _
    | (simp only [kept_lit]) | (with_reducible apply kept_parts) | (with_reducible refine parts_map ?_ hm _)
    | (with_reducible apply begin__kept) | (with_reducible refine kept_ite ?_ ?_) | (dsimp only [id_eq]) | split
    | (with_reducible refine plan_mk ?_)

end Sys2Proof.Machine
end

