-- ==== Sys2Proof/Laws/KeepMapOps.lean ====
section
/-! SUPPORT. What the operations of `MapOps` leave alone. -/

namespace Sys2Proof.Machine

set_option linter.unusedTactic false
set_option linter.unreachableTactic false
set_option linter.unusedSimpArgs false

variable {C : Prop} {M : Mark}

theorem showDigest_kept (s : State) (h : Kept C M s) : Kept C M (showDigest s) := by
  unfold showDigest
  (try dsimp only)
  repeat' first
    | (with_reducible assumption) | (with_reducible apply wr_kept) | (with_reducible refine kept_fold ?_ _ _ ?_)
    | (with_reducible refine kept_fold_2 ?_ _ _ ?_) | (with_reducible refine kept_fold_1 ?_ _ _ ?_) | intro _
    | (simp only [kept_lit]) | (with_reducible apply kept_parts) | (with_reducible refine kept_ite ?_ ?_)
    | (dsimp only [id_eq]) | split

theorem applyEntry_kept (hold : BitVec 16) (start : List Word) (stop : List Word) (unlock : List Word) (lock : List Word) (s : State) (h : Kept C M s) : Kept C M (applyEntry hold start stop unlock lock s) := by
  unfold applyEntry
  (try dsimp only)
  repeat' first
    | (with_reducible assumption) | (with_reducible apply setFld_kept) | (with_reducible refine kept_fold ?_ _ _ ?_)
    | (with_reducible refine kept_fold_2 ?_ _ _ ?_) | (with_reducible refine kept_fold_1 ?_ _ _ ?_) | intro _
    | (simp only [kept_lit]) | (with_reducible apply kept_parts) | (with_reducible refine kept_ite ?_ ?_)
    | (dsimp only [id_eq]) | split

theorem applyHlb_kept (node : BitVec 16) (kind : BitVec 8) (ports : BitVec 8) (domain : Word) (keyslot : BitVec 16) (s : State) (h : Kept C M s) : Kept C M (applyHlb node kind ports domain keyslot s) := by
  unfold applyHlb
  (try dsimp only)
  repeat' first
    | (with_reducible assumption) | (with_reducible apply schedule_kept) | (with_reducible refine kept_fold ?_ _ _ ?_)
    | (with_reducible refine kept_fold_2 ?_ _ _ ?_) | (with_reducible refine kept_fold_1 ?_ _ _ ?_) | intro _
    | (simp only [kept_lit]) | (with_reducible apply kept_parts) | (with_reducible refine kept_ite ?_ ?_)
    | (dsimp only [id_eq]) | split

theorem hlbStart_kept (s : State) (h : Kept C M s) : Kept C M (hlbStart s) := by
  unfold hlbStart
  (try dsimp only)
  repeat' first
    | (with_reducible assumption) | (with_reducible apply wr_kept) | (with_reducible refine kept_fold ?_ _ _ ?_)
    | (with_reducible refine kept_fold_2 ?_ _ _ ?_) | (with_reducible refine kept_fold_1 ?_ _ _ ?_) | intro _
    | (simp only [kept_lit]) | (with_reducible apply kept_parts) | (with_reducible refine kept_ite ?_ ?_)
    | (dsimp only [id_eq]) | split

theorem applyCfg_kept (c : Cfg) (s : State) (h : Kept C M s) : Kept C M (applyCfg c s) := by
  unfold applyCfg
  (try dsimp only)
  repeat' first
    | (with_reducible assumption) | (with_reducible apply applyLane_kept) | (with_reducible apply applyPort_kept)
    | (with_reducible apply mdioOut_kept) | (with_reducible apply placeEntry_kept) | (with_reducible apply applySw_kept)
    | (with_reducible apply applyPol_kept) | (with_reducible apply applySch_kept) | (with_reducible apply applyBeat_kept)
    | (with_reducible apply applyTime_kept) | (with_reducible apply applyLa_kept) | (with_reducible apply applyEntry_kept)
    | (with_reducible apply applyTt_kept) | (with_reducible apply applyAng_kept) | (with_reducible apply applyFb_kept)
    | (with_reducible apply applyHlb_kept) | (with_reducible refine kept_fold ?_ _ _ ?_)
    | (with_reducible refine kept_fold_2 ?_ _ _ ?_) | (with_reducible refine kept_fold_1 ?_ _ _ ?_) | intro _
    | (simp only [kept_lit]) | (with_reducible apply kept_parts) | (with_reducible refine kept_ite ?_ ?_)
    | (dsimp only [id_eq]) | split

theorem trackerStart_kept (s : State) (n : ℕ) (h : Kept C M s) : Kept C M (trackerStart s n) := by
  unfold trackerStart
  (try dsimp only)
  repeat' first
    | (with_reducible assumption) | (with_reducible apply loseSync_kept) | (with_reducible apply spdSafe_kept)
    | (with_reducible apply startTracker_kept) | (with_reducible apply setTt_kept) | (with_reducible apply quorumCheck_kept)
    | (with_reducible refine kept_fold ?_ _ _ ?_) | (with_reducible refine kept_fold_2 ?_ _ _ ?_)
    | (with_reducible refine kept_fold_1 ?_ _ _ ?_) | intro _ | (simp only [kept_lit]) | (with_reducible apply kept_parts)
    | (with_reducible refine kept_ite ?_ ?_) | (dsimp only [id_eq]) | split

theorem chanStart_kept (s : State) (n : ℕ) (h : Kept C M s) : Kept C M (chanStart s n) := by
  unfold chanStart
  (try dsimp only)
  repeat' first
    | (with_reducible assumption) | (with_reducible apply setFb_kept) | (with_reducible apply setBolt_kept)
    | (with_reducible apply stopChannel_kept) | (with_reducible refine kept_fold ?_ _ _ ?_)
    | (with_reducible refine kept_fold_2 ?_ _ _ ?_) | (with_reducible refine kept_fold_1 ?_ _ _ ?_) | intro _
    | (simp only [kept_lit]) | (with_reducible apply kept_parts) | (with_reducible refine kept_ite ?_ ?_)
    | (dsimp only [id_eq]) | split

theorem boltStart_kept (s : State) (b : ℕ) (h : Kept C M s) : Kept C M (boltStart s b) := by
  unfold boltStart
  (try dsimp only)
  repeat' first
    | (with_reducible assumption) | (with_reducible apply setBolt_kept) | (with_reducible refine kept_fold ?_ _ _ ?_)
    | (with_reducible refine kept_fold_2 ?_ _ _ ?_) | (with_reducible refine kept_fold_1 ?_ _ _ ?_) | intro _
    | (simp only [kept_lit]) | (with_reducible apply kept_parts) | (with_reducible refine kept_ite ?_ ?_)
    | (dsimp only [id_eq]) | split

theorem applyKind_kept (s : State) (a1 : ApplyKind) (h : Kept C M s) : Kept C M (applyKind s a1) := by
  unfold applyKind
  (try dsimp only)
  repeat' first
    | (with_reducible assumption) | (with_reducible apply laneStart_kept) | (with_reducible apply portStart_kept)
    | (with_reducible apply polStart_kept) | (with_reducible apply trackerStart_kept)
    | (with_reducible apply quorumCheck_kept) | (with_reducible apply chanStart_kept) | (with_reducible apply boltStart_kept)
    | (with_reducible apply queuesStart_kept) | (with_reducible apply groupStart_kept) | (with_reducible apply smpDraw_kept)
    | (with_reducible apply hlbStart_kept) | (with_reducible refine kept_fold ?_ _ _ ?_)
    | (with_reducible refine kept_fold_2 ?_ _ _ ?_) | (with_reducible refine kept_fold_1 ?_ _ _ ?_) | intro _
    | (simp only [kept_lit]) | (with_reducible apply kept_parts) | (with_reducible refine kept_ite ?_ ?_)
    | (dsimp only [id_eq]) | split

theorem applyChange_kept (s : State) (c : Change) (h : Kept C M s) : Kept C M (applyChange s c) := by
  unfold applyChange
  (try dsimp only)
  repeat' first
    | (with_reducible assumption) | (with_reducible apply odoGuard_kept) | (with_reducible apply applyKind_kept)
    | (with_reducible apply wrCfg_kept) | (with_reducible refine kept_fold ?_ _ _ ?_)
    | (with_reducible refine kept_fold_2 ?_ _ _ ?_) | (with_reducible refine kept_fold_1 ?_ _ _ ?_) | intro _
    | (simp only [kept_lit]) | (with_reducible apply kept_parts) | (with_reducible refine kept_ite ?_ ?_)
    | (dsimp only [id_eq]) | split

theorem recordNow_kept (s : State) (c : Cfg) (h : Kept C M s) : Kept C M (recordNow s c) := by
  unfold recordNow
  (try dsimp only)
  repeat' first
    | (with_reducible assumption) | (with_reducible apply applyCfg_kept) | (with_reducible apply applyChange_kept)
    | (with_reducible refine kept_fold ?_ _ _ ?_) | (with_reducible refine kept_fold_2 ?_ _ _ ?_)
    | (with_reducible refine kept_fold_1 ?_ _ _ ?_) | intro _ | (simp only [kept_lit]) | (with_reducible apply kept_parts)
    | (with_reducible refine kept_ite ?_ ?_) | (dsimp only [id_eq]) | split

theorem mapNow_kept (s : State) (h : Kept C M s) : Kept C M (mapNow s) := by
  unfold mapNow
  (try dsimp only)
  repeat' first
    | (with_reducible assumption) | (with_reducible apply recordNow_kept) | (with_reducible refine kept_fold ?_ _ _ ?_)
    | (with_reducible refine kept_fold_2 ?_ _ _ ?_) | (with_reducible refine kept_fold_1 ?_ _ _ ?_) | intro _
    | (simp only [kept_lit]) | (with_reducible apply kept_parts) | (with_reducible refine kept_ite ?_ ?_)
    | (dsimp only [id_eq]) | split

theorem applyChanges_kept (s : State) (h : Kept C M s) : Kept C M (applyChanges s) := by
  unfold applyChanges
  (try dsimp only)
  repeat' first
    | (with_reducible assumption) | (with_reducible apply mapNow_kept) | (with_reducible apply applyChange_kept)
    | (with_reducible refine kept_fold ?_ _ _ ?_) | (with_reducible refine kept_fold_2 ?_ _ _ ?_)
    | (with_reducible refine kept_fold_1 ?_ _ _ ?_) | intro _ | (simp only [kept_lit]) | (with_reducible apply kept_parts)
    | (with_reducible refine kept_ite ?_ ?_) | (dsimp only [id_eq]) | split

theorem gatesWait_kept (s : State) (h : Kept C M s) : Kept C M (gatesWait s) := by
  unfold gatesWait
  (try dsimp only)
  repeat' first
    | (with_reducible assumption) | (with_reducible apply setEgr_kept) | (with_reducible refine kept_fold ?_ _ _ ?_)
    | (with_reducible refine kept_fold_2 ?_ _ _ ?_) | (with_reducible refine kept_fold_1 ?_ _ _ ?_) | intro _
    | (simp only [kept_lit]) | (with_reducible apply kept_parts) | (with_reducible refine kept_ite ?_ ?_)
    | (dsimp only [id_eq]) | split

theorem seedTables_kept (s : State) (h : Kept C M s) : Kept C M (seedTables s) := by
  unfold seedTables
  (try dsimp only)
  repeat' first
    | (with_reducible assumption) | (with_reducible apply draw_kept) | (with_reducible apply wr_kept)
    | (with_reducible refine kept_fold ?_ _ _ ?_) | (with_reducible refine kept_fold_2 ?_ _ _ ?_)
    | (with_reducible refine kept_fold_1 ?_ _ _ ?_) | intro _ | (simp only [kept_lit]) | (with_reducible apply kept_parts)
    | (with_reducible refine kept_of_eq_2 ‹draw _ = _› (draw_kept _ ?_)) | (with_reducible refine kept_ite ?_ ?_)
    | (dsimp only [id_eq]) | split

theorem applyMap_kept (s : State) (h : Kept C M s) : Kept C M (applyMap s) := by
  unfold applyMap
  (try dsimp only)
  repeat' first
    | (with_reducible assumption) | (with_reducible apply showDigest_kept) | (with_reducible apply gatesWait_kept)
    | (with_reducible apply mapNow_kept) | (with_reducible apply seedTables_kept) | (with_reducible apply wr_kept)
    | (with_reducible refine kept_fold ?_ _ _ ?_) | (with_reducible refine kept_fold_2 ?_ _ _ ?_)
    | (with_reducible refine kept_fold_1 ?_ _ _ ?_) | intro _ | (simp only [kept_lit]) | (with_reducible apply kept_parts)
    | (with_reducible refine kept_ite ?_ ?_) | (dsimp only [id_eq]) | split

theorem applySafe_kept (s : State) (h : Kept C M s) : Kept C M (applySafe s) := by
  unfold applySafe
  (try dsimp only)
  repeat' first
    | (with_reducible assumption) | (with_reducible apply recordNow_kept) | (with_reducible apply seedTables_kept)
    | (with_reducible refine kept_fold ?_ _ _ ?_) | (with_reducible refine kept_fold_2 ?_ _ _ ?_)
    | (with_reducible refine kept_fold_1 ?_ _ _ ?_) | intro _ | (simp only [kept_lit]) | (with_reducible apply kept_parts)
    | (with_reducible refine kept_ite ?_ ?_) | (dsimp only [id_eq]) | split

end Sys2Proof.Machine
end

