-- ==== Sys2Proof/Laws/KeepAccess.lean ====
section
/-! SUPPORT. What the operations of `Access` leave alone. -/

namespace Sys2Proof.Machine

set_option linter.unusedTactic false
set_option linter.unreachableTactic false
set_option linter.unusedSimpArgs false

variable {C : Prop} {M : Mark}

theorem setSel_kept (s : State) (c : Cls) (a : ℕ) (w : Word) (h : Kept C M s) : Kept C M (setSel s c a w) := by
  unfold setSel
  (try dsimp only)
  repeat' first
    | (with_reducible assumption) | (with_reducible refine kept_fold ?_ _ _ ?_)
    | (with_reducible refine kept_fold_2 ?_ _ _ ?_) | (with_reducible refine kept_fold_1 ?_ _ _ ?_) | intro _
    | (simp only [kept_lit]) | (with_reducible apply kept_parts) | (with_reducible refine kept_ite ?_ ?_)
    | (dsimp only [id_eq]) | split

theorem loLatch_kept (s : State) (a : ℕ) (h : Kept C M s) : Kept C M (loLatch s a) := by
  unfold loLatch
  (try dsimp only)
  repeat' first
    | (with_reducible assumption) | (with_reducible apply nsLatch_kept) | (with_reducible refine kept_fold ?_ _ _ ?_)
    | (with_reducible refine kept_fold_2 ?_ _ _ ?_) | (with_reducible refine kept_fold_1 ?_ _ _ ?_) | intro _
    | (simp only [kept_lit]) | (with_reducible apply kept_parts) | (with_reducible refine kept_ite ?_ ?_)
    | (dsimp only [id_eq]) | split

theorem readEffect_kept (s : State) (c : Cls) (h0 : Hit) (h : Kept C M s) : Kept C M (readEffect s c h0) := by
  unfold readEffect
  (try dsimp only)
  repeat' first
    | (with_reducible assumption) | (with_reducible apply wri_kept) | (with_reducible apply loLatch_kept)
    | (with_reducible refine kept_fold ?_ _ _ ?_) | (with_reducible refine kept_fold_2 ?_ _ _ ?_)
    | (with_reducible refine kept_fold_1 ?_ _ _ ?_) | intro _ | (simp only [kept_lit]) | (with_reducible apply kept_parts)
    | (with_reducible refine kept_ite ?_ ?_) | (dsimp only [id_eq]) | split

theorem readReg_kept (c : Cls) (off : ℕ) (s : State) (h : Kept C M s) : Kept C M (readReg c off s).2 := by
  unfold readReg
  (try dsimp only)
  repeat' first
    | (with_reducible assumption) | (with_reducible apply readEffect_kept) | (with_reducible refine kept_fold ?_ _ _ ?_)
    | (with_reducible refine kept_fold_2 ?_ _ _ ?_) | (with_reducible refine kept_fold_1 ?_ _ _ ?_) | intro _
    | (simp only [kept_lit]) | (with_reducible apply kept_parts) | (with_reducible refine kept_ite ?_ ?_)
    | (dsimp only [id_eq]) | split

theorem readRegs_kept (c : Cls) : ∀ (n off : Nat) (s : State), Kept C M s → Kept C M (readRegs c n off s).2
  | 0, _, _, h => h
  | n + 1, off, s, h => readRegs_kept c n (off + 4) _ (readReg_kept c off s h)

theorem evtSettle_kept (s : State) (h : Kept C M s) : Kept C M (evtSettle s) := by
  unfold evtSettle
  (try dsimp only)
  repeat' first
    | (with_reducible assumption) | (with_reducible refine kept_fold ?_ _ _ ?_)
    | (with_reducible refine kept_fold_2 ?_ _ _ ?_) | (with_reducible refine kept_fold_1 ?_ _ _ ?_) | intro _
    | (simp only [kept_lit]) | (with_reducible apply kept_parts) | (with_reducible refine kept_ite ?_ ?_)
    | (dsimp only [id_eq]) | split

theorem evtPendClear_kept (s : State) (g : ℕ) (w : Word) (h : Kept C M s) : Kept C M (evtPendClear s g w) := by
  unfold evtPendClear
  (try dsimp only)
  repeat' first
    | (with_reducible assumption) | (with_reducible apply evtSettle_kept) | (with_reducible apply clrReg_kept)
    | (with_reducible refine kept_fold ?_ _ _ ?_) | (with_reducible refine kept_fold_2 ?_ _ _ ?_)
    | (with_reducible refine kept_fold_1 ?_ _ _ ?_) | intro _ | (simp only [kept_lit]) | (with_reducible apply kept_parts)
    | (with_reducible refine kept_ite ?_ ?_) | (dsimp only [id_eq]) | split

theorem evtEnSet_kept (s : State) (g : ℕ) (w : Word) (h : Kept C M s) : Kept C M (evtEnSet s g w) := by
  unfold evtEnSet
  (try dsimp only)
  repeat' first
    | (with_reducible assumption) | (with_reducible apply evtSettle_kept) | (with_reducible apply wr_kept)
    | (with_reducible refine kept_fold ?_ _ _ ?_) | (with_reducible refine kept_fold_2 ?_ _ _ ?_)
    | (with_reducible refine kept_fold_1 ?_ _ _ ?_) | intro _ | (simp only [kept_lit]) | (with_reducible apply kept_parts)
    | (with_reducible refine kept_ite ?_ ?_) | (dsimp only [id_eq]) | split

theorem evtTest_kept (s : State) (w : Word) (h : Kept C M s) : Kept C M (evtTest s w) := by
  unfold evtTest
  (try dsimp only)
  repeat' first
    | (with_reducible assumption) | (with_reducible apply raiseN_kept) | (with_reducible refine kept_fold ?_ _ _ ?_)
    | (with_reducible refine kept_fold_2 ?_ _ _ ?_) | (with_reducible refine kept_fold_1 ?_ _ _ ?_) | intro _
    | (simp only [kept_lit]) | (with_reducible apply kept_parts) | (with_reducible refine kept_ite ?_ ?_)
    | (dsimp only [id_eq]) | split

theorem injectSet_kept (s : State) (w : Word) (h : Kept C M s) : Kept C M (injectSet s w) := by
  unfold injectSet
  (try dsimp only)
  repeat' first
    | (with_reducible assumption) | (with_reducible apply setFld_kept) | (with_reducible apply raise_kept)
    | (with_reducible refine kept_fold ?_ _ _ ?_) | (with_reducible refine kept_fold_2 ?_ _ _ ?_)
    | (with_reducible refine kept_fold_1 ?_ _ _ ?_) | intro _ | (simp only [kept_lit]) | (with_reducible apply kept_parts)
    | (with_reducible refine kept_ite ?_ ?_) | (dsimp only [id_eq]) | split

theorem storeReg_kept (c : Cls) (h0 : Hit) (old : Word) (new : Word) (w : Word) (s : State) (h : Kept C M s) : Kept C M (storeReg c h0 old new w s) := by
  unfold storeReg
  (try dsimp only)
  repeat' first
    | (with_reducible assumption) | (with_reducible apply setSel_kept) | (with_reducible apply alarmSet_kept)
    | (with_reducible apply gateWrite_kept) | (with_reducible apply setVbat_kept) | (with_reducible apply wr_kept)
    | (with_reducible apply woutAck_kept) | (with_reducible apply holdBlock_kept) | (with_reducible apply releaseBlock_kept)
    | (with_reducible apply injectSet_kept) | (with_reducible apply evtTest_kept) | (with_reducible apply wri_kept)
    | (with_reducible apply evtPendClear_kept) | (with_reducible apply evtEnSet_kept) | (with_reducible apply setFld_kept)
    | (with_reducible apply trgCfgSet_kept) | (with_reducible apply clrReg_kept) | (with_reducible apply semAcqWrite_kept)
    | (with_reducible apply semRel_kept) | (with_reducible apply sqTailSet_kept) | (with_reducible apply kctlSet_kept)
    | (with_reducible apply keywSet_kept) | (with_reducible refine kept_fold ?_ _ _ ?_)
    | (with_reducible refine kept_fold_2 ?_ _ _ ?_) | (with_reducible refine kept_fold_1 ?_ _ _ ?_) | intro _
    | (simp only [kept_lit]) | (with_reducible apply kept_parts) | (with_reducible refine kept_ite ?_ ?_)
    | (dsimp only [id_eq]) | split

theorem writeReg_kept (c : Cls) (off : ℕ) (w : Word) (s : State) (h : Kept C M s) : Kept C M (writeReg c off w s) := by
  unfold writeReg
  (try dsimp only)
  repeat' first
    | (with_reducible assumption) | (with_reducible apply raise_kept) | (with_reducible apply storeReg_kept)
    | (with_reducible refine kept_fold ?_ _ _ ?_) | (with_reducible refine kept_fold_2 ?_ _ _ ?_)
    | (with_reducible refine kept_fold_1 ?_ _ _ ?_) | intro _ | (simp only [kept_lit]) | (with_reducible apply kept_parts)
    | (with_reducible refine kept_ite ?_ ?_) | (dsimp only [id_eq]) | split

theorem writeRegs_kept (c : Cls) (l : List Word) (off : Nat) (s : State) (h : Kept C M s) : Kept C M (writeRegs c off l s) := by
  induction l generalizing off s with
  | nil => exact h
  | cons w l ih => exact ih _ _ (writeReg_kept c off w s h)

end Sys2Proof.Machine
end

