-- ==== Sys2Proof/Laws/KeepPhone.lean ====
section
/-! SUPPORT. What the operations of `Phone` leave alone. -/

namespace Sys2Proof.Machine

set_option linter.unusedTactic false
set_option linter.unreachableTactic false
set_option linter.unusedSimpArgs false

variable {C : Prop} {M : Mark}

theorem tagPut_kept (s : State) (i : ℕ) (b : Byte) (h : Kept C M s) : Kept C M (tagPut s i b) := by
  unfold tagPut
  (try dsimp only)
  repeat' first
    | (with_reducible assumption) | (with_reducible refine kept_fold ?_ _ _ ?_)
    | (with_reducible refine kept_fold_2 ?_ _ _ ?_) | (with_reducible refine kept_fold_1 ?_ _ _ ?_) | intro _
    | (simp only [kept_lit]) | (with_reducible apply kept_parts) | (with_reducible refine kept_ite ?_ ?_)
    | (dsimp only [id_eq]) | split

theorem tagPuts_kept (a1 : Nat) (a2 : List Sys2Proof.Byte) (a3 : State) (h : Kept C M a3) : Kept C M (tagPuts a1 a2 a3) := by
  induction a2 generalizing a1 a3 with
  | nil =>
    unfold tagPuts
    (try dsimp only)
    repeat' first
      | (with_reducible assumption)
      | (with_reducible apply tagPut_kept)
      | (with_reducible refine kept_fold ?_ _ _ ?_)
      | (with_reducible refine kept_fold_2 ?_ _ _ ?_)
      | (with_reducible refine kept_fold_1 ?_ _ _ ?_)
      | intro _
      | (simp only [kept_lit])
      | (with_reducible apply kept_parts)
      | (with_reducible refine kept_ite ?_ ?_)
      | (dsimp only [id_eq])
      | split
  | cons b_ l_ ih =>
    unfold tagPuts
    (try dsimp only)
    repeat' first
      | (with_reducible assumption)
      | (with_reducible apply tagPut_kept)
      | (with_reducible refine kept_fold ?_ _ _ ?_)
      | (with_reducible refine kept_fold_2 ?_ _ _ ?_)
      | (with_reducible refine kept_fold_1 ?_ _ _ ?_)
      | (with_reducible apply ih)
      | intro _
      | (simp only [kept_lit])
      | (with_reducible apply kept_parts)
      | (with_reducible refine kept_ite ?_ ?_)
      | (dsimp only [id_eq])
      | split

theorem memPut_kept (s : State) (a : Nat) (b : Byte) (h : Kept C M s) : Kept C M (memPut s a b) := by
  unfold memPut
  split
  · exact tagPut_kept s _ b h
  · exact tagPut_kept s _ b h
  · exact kept_stores h id (fun hm => tset_wf _ _ hm) rfl (.inr rfl) (.inr rfl) id
  · exact kept_stores h id (fun hm => tset_wf _ _ hm) rfl (.inr rfl) (.inr rfl) id
  · exact kept_stores h id (fun hm => tset_wf _ _ hm) rfl (.inr rfl) (.inr rfl) id
  · exact h

theorem memWrite_kept (s : State) (acc : Access) (h : Kept C M s) : Kept C M (memWrite s acc) := by
  unfold memWrite
  (try dsimp only)
  repeat' first
    | (with_reducible assumption) | (with_reducible apply memPut_kept) | (with_reducible refine kept_fold ?_ _ _ ?_)
    | (with_reducible refine kept_fold_2 ?_ _ _ ?_) | (with_reducible refine kept_fold_1 ?_ _ _ ?_) | intro _
    | (simp only [kept_lit]) | (with_reducible apply kept_parts) | (with_reducible refine kept_ite ?_ ?_)
    | (dsimp only [id_eq]) | split

theorem outRead_kept (s : State) (ws : List Word) (st : Status) (h : Kept C M s) : Kept C M (outRead s ws st) := by
  unfold outRead
  (try dsimp only)
  repeat' first
    | (with_reducible assumption) | (with_reducible refine kept_fold ?_ _ _ ?_)
    | (with_reducible refine kept_fold_2 ?_ _ _ ?_) | (with_reducible refine kept_fold_1 ?_ _ _ ?_) | intro _
    | (simp only [kept_lit]) | (with_reducible apply kept_parts) | (with_reducible refine kept_ite ?_ ?_)
    | (dsimp only [id_eq]) | split

theorem memAccess_kept (s : State) (write : Bool) (acc : Access) (h : Kept C M s) : Kept C M (memAccess s write acc) := by
  unfold memAccess
  (try dsimp only)
  repeat' first
    | (with_reducible assumption) | (with_reducible apply outRead_kept) | (with_reducible apply memWrite_kept)
    | (with_reducible refine kept_fold ?_ _ _ ?_) | (with_reducible refine kept_fold_2 ?_ _ _ ?_)
    | (with_reducible refine kept_fold_1 ?_ _ _ ?_) | intro _ | (simp only [kept_lit]) | (with_reducible apply kept_parts)
    | (with_reducible refine kept_ite ?_ ?_) | (dsimp only [id_eq]) | split

theorem wireRetry_kept (s : State) (w : Wired) (h : Kept C M s) : Kept C M (wireRetry s w) := by
  unfold wireRetry
  (try dsimp only)
  repeat' first
    | (with_reducible assumption) | (with_reducible apply setFld_kept) | (with_reducible apply statInc_kept)
    | (with_reducible apply outRead_kept) | (with_reducible refine kept_fold ?_ _ _ ?_)
    | (with_reducible refine kept_fold_2 ?_ _ _ ?_) | (with_reducible refine kept_fold_1 ?_ _ _ ?_) | intro _
    | (simp only [kept_lit]) | (with_reducible apply kept_parts) | (with_reducible refine kept_ite ?_ ?_)
    | (dsimp only [id_eq]) | split

theorem windowClose_kept (s : State) (h : Kept C M s) : Kept C M (windowClose s) := by
  unfold windowClose
  (try dsimp only)
  repeat' first
    | (with_reducible assumption) | (with_reducible apply wireRetry_kept) | (with_reducible refine kept_fold ?_ _ _ ?_)
    | (with_reducible refine kept_fold_2 ?_ _ _ ?_) | (with_reducible refine kept_fold_1 ?_ _ _ ?_) | intro _
    | (simp only [kept_lit]) | (with_reducible apply kept_parts) | (with_reducible refine kept_ite ?_ ?_)
    | (dsimp only [id_eq]) | split

theorem wireAccess_kept (s : State) (c : Cls) (write : Bool) (acc : Access) (h : Kept C M s) : Kept C M (wireAccess s c write acc) := by
  unfold wireAccess
  (try dsimp only)
  repeat' first
    | (with_reducible assumption) | (with_reducible apply memAccess_kept) | (with_reducible refine kept_fold ?_ _ _ ?_)
    | (with_reducible refine kept_fold_2 ?_ _ _ ?_) | (with_reducible refine kept_fold_1 ?_ _ _ ?_) | intro _
    | (simp only [kept_lit]) | (with_reducible apply kept_parts) | (with_reducible refine kept_ite ?_ ?_)
    | (dsimp only [id_eq]) | split

theorem refuseOut_kept (s : State) (c : Cls) (r : Reason) (a : ℕ) (write : Bool) (h : Kept C M s) : Kept C M (refuseOut s c r a write) := by
  unfold refuseOut
  (try dsimp only)
  repeat' first
    | (with_reducible assumption) | (with_reducible apply refuse_kept) | (with_reducible refine kept_fold ?_ _ _ ?_)
    | (with_reducible refine kept_fold_2 ?_ _ _ ?_) | (with_reducible refine kept_fold_1 ?_ _ _ ?_) | intro _
    | (simp only [kept_lit]) | (with_reducible apply kept_parts) | (with_reducible refine kept_ite ?_ ?_)
    | (dsimp only [id_eq]) | split

theorem memRequest_kept (s : State) (c : Cls) (write : Bool) (acc : Access) (h : Kept C M s) : Kept C M (memRequest s c write acc) := by
  unfold memRequest
  (try dsimp only)
  repeat' first
    | (with_reducible assumption) | (with_reducible apply refuseOut_kept) | (with_reducible apply wireAccess_kept)
    | (with_reducible apply memAccess_kept) | (with_reducible refine kept_fold ?_ _ _ ?_)
    | (with_reducible refine kept_fold_2 ?_ _ _ ?_) | (with_reducible refine kept_fold_1 ?_ _ _ ?_) | intro _
    | (simp only [kept_lit]) | (with_reducible apply kept_parts) | (with_reducible refine kept_ite ?_ ?_)
    | (dsimp only [id_eq]) | split

theorem execTagWiredAccess_kept (c : Cls) (write : Bool) (acc : Access) (s : State) (h : Kept C M s) : ∃ t, execTagWiredAccess c write acc s = .next t ∧ Kept C M t := by
  unfold execTagWiredAccess
  refine ⟨_, rfl, ?_⟩
  (try dsimp only)
  repeat' first
    | (with_reducible assumption) | (with_reducible apply begin__kept) | (with_reducible apply memRequest_kept)
    | (with_reducible refine kept_fold ?_ _ _ ?_) | (with_reducible refine kept_fold_2 ?_ _ _ ?_)
    | (with_reducible refine kept_fold_1 ?_ _ _ ?_) | intro _ | (simp only [kept_lit]) | (with_reducible apply kept_parts)
    | (with_reducible refine kept_ite ?_ ?_) | (dsimp only [id_eq]) | split

theorem sendWtx_kept (s : State) (h : Kept C M s) : Kept C M (sendWtx s) := by
  unfold sendWtx
  (try dsimp only)
  repeat' first
    | (with_reducible assumption) | (with_reducible apply draw_kept) | (with_reducible refine kept_fold ?_ _ _ ?_)
    | (with_reducible refine kept_fold_2 ?_ _ _ ?_) | (with_reducible refine kept_fold_1 ?_ _ _ ?_) | intro _
    | (simp only [kept_lit]) | (with_reducible apply kept_parts)
    | (with_reducible refine kept_of_eq_2 ‹draw _ = _› (draw_kept _ ?_)) | (with_reducible refine kept_ite ?_ ?_)
    | (dsimp only [id_eq]) | split

theorem execExchangeWindowClose_kept (s : State) (h : Kept C M s) : ∃ t, execExchangeWindowClose s = .next t ∧ Kept C M t := by
  unfold execExchangeWindowClose
  refine ⟨_, rfl, ?_⟩
  (try dsimp only)
  repeat' first
    | (with_reducible assumption) | (with_reducible apply begin__kept) | (with_reducible apply windowClose_kept)
    | (with_reducible apply sendWtx_kept) | (with_reducible refine kept_fold ?_ _ _ ?_)
    | (with_reducible refine kept_fold_2 ?_ _ _ ?_) | (with_reducible refine kept_fold_1 ?_ _ _ ?_) | intro _
    | (simp only [kept_lit]) | (with_reducible apply kept_parts) | (with_reducible refine kept_ite ?_ ?_)
    | (dsimp only [id_eq]) | split

theorem newChallenge_kept (s : State) (h : Kept C M s) : Kept C M (newChallenge s) := by
  unfold newChallenge
  (try dsimp only)
  repeat' first
    | (with_reducible assumption) | (with_reducible apply wantRandom_kept) | (with_reducible apply draw_kept)
    | (with_reducible apply tagPuts_kept) | (with_reducible refine kept_fold ?_ _ _ ?_)
    | (with_reducible refine kept_fold_2 ?_ _ _ ?_) | (with_reducible refine kept_fold_1 ?_ _ _ ?_) | intro _
    | (simp only [kept_lit]) | (with_reducible apply kept_parts)
    | (with_reducible refine kept_of_eq_2 ‹wantRandom _ = _› (wantRandom_kept _ ?_))
    | (with_reducible refine kept_of_eq_2 ‹draw _ = _› (draw_kept _ ?_)) | (with_reducible refine kept_ite ?_ ?_)
    | (dsimp only [id_eq]) | split

theorem execFieldSessionStart_kept (s : State) (h : Kept C M s) : ∃ t, execFieldSessionStart s = .next t ∧ Kept C M t := by
  unfold execFieldSessionStart
  refine ⟨_, rfl, ?_⟩
  (try dsimp only)
  repeat' first
    | (with_reducible assumption) | (with_reducible apply begin__kept) | (with_reducible apply draw_kept)
    | (with_reducible apply newChallenge_kept) | (with_reducible refine kept_fold ?_ _ _ ?_)
    | (with_reducible refine kept_fold_2 ?_ _ _ ?_) | (with_reducible refine kept_fold_1 ?_ _ _ ?_) | intro _
    | (simp only [kept_lit]) | (with_reducible apply kept_parts)
    | (with_reducible refine kept_of_eq_2 ‹draw _ = _› (draw_kept _ ?_)) | (with_reducible refine kept_ite ?_ ?_)
    | (dsimp only [id_eq]) | split

theorem execFieldSessionEnd_kept (s : State) (h : Kept C M s) : ∃ t, execFieldSessionEnd s = .next t ∧ Kept C M t := by
  unfold execFieldSessionEnd
  refine ⟨_, rfl, ?_⟩
  (try dsimp only)
  repeat' first
    | (with_reducible assumption) | (with_reducible apply begin__kept) | (with_reducible refine kept_fold ?_ _ _ ?_)
    | (with_reducible refine kept_fold_2 ?_ _ _ ?_) | (with_reducible refine kept_fold_1 ?_ _ _ ?_) | intro _
    | (simp only [kept_lit]) | (with_reducible apply kept_parts) | (with_reducible refine kept_ite ?_ ?_)
    | (dsimp only [id_eq]) | split

theorem execNfcChallengeExpiry_kept (s : State) (h : Kept C M s) : ∃ t, execNfcChallengeExpiry s = .next t ∧ Kept C M t := by
  unfold execNfcChallengeExpiry
  refine ⟨_, rfl, ?_⟩
  (try dsimp only)
  repeat' first
    | (with_reducible assumption) | (with_reducible apply begin__kept) | (with_reducible apply newChallenge_kept)
    | (with_reducible refine kept_fold ?_ _ _ ?_) | (with_reducible refine kept_fold_2 ?_ _ _ ?_)
    | (with_reducible refine kept_fold_1 ?_ _ _ ?_) | intro _ | (simp only [kept_lit]) | (with_reducible apply kept_parts)
    | (with_reducible refine kept_ite ?_ ?_) | (dsimp only [id_eq]) | split

theorem apduDo_kept (s : State) (a1 : Apdu) (h : Kept C M s) : Kept C M (apduDo s a1).2.2 := by
  unfold apduDo
  (try dsimp only)
  repeat' first
    | (with_reducible assumption) | (with_reducible apply tagPuts_kept) | (with_reducible refine kept_fold ?_ _ _ ?_)
    | (with_reducible refine kept_fold_2 ?_ _ _ ?_) | (with_reducible refine kept_fold_1 ?_ _ _ ?_) | intro _
    | (simp only [kept_lit]) | (with_reducible apply kept_parts) | (with_reducible refine kept_ite ?_ ?_)
    | (dsimp only [id_eq]) | split

theorem execNfcApdu_kept (x : ApduCmd) (s : State) (h : Kept C M s) : ∃ t, execNfcApdu x s = .next t ∧ Kept C M t := by
  unfold execNfcApdu
  refine ⟨_, rfl, ?_⟩
  (try dsimp only)
  repeat' first
    | (with_reducible assumption) | (with_reducible apply begin__kept) | (with_reducible apply sendWtx_kept)
    | (with_reducible apply apduDo_kept) | (with_reducible apply statInc_kept) | (with_reducible refine kept_fold ?_ _ _ ?_)
    | (with_reducible refine kept_fold_2 ?_ _ _ ?_) | (with_reducible refine kept_fold_1 ?_ _ _ ?_) | intro _
    | (simp only [kept_lit]) | (with_reducible apply kept_parts)
    | (with_reducible refine kept_of_eq_2_2 ‹apduDo _ _ = _› (apduDo_kept _ _ ?_)) | (with_reducible refine kept_ite ?_ ?_)
    | (dsimp only [id_eq]) | split

theorem setPath_kept (s : State) (p : ℕ) (x : CredPath) (h : Kept C M s) : Kept C M (setPath s p x) := by
  unfold setPath
  (try dsimp only)
  repeat' first
    | (with_reducible assumption) | (with_reducible refine kept_fold ?_ _ _ ?_)
    | (with_reducible refine kept_fold_2 ?_ _ _ ?_) | (with_reducible refine kept_fold_1 ?_ _ _ ?_) | intro _
    | (simp only [kept_lit]) | (with_reducible apply kept_parts) | (with_reducible refine kept_ite ?_ ?_)
    | (dsimp only [id_eq]) | split

theorem credAct_kept (s : State) (path : ℕ) (req : ℕ) (tokenId : ℕ) (tripRef : ℕ) (drive : Bool) (h : Kept C M s) : Kept C M (credAct s path req tokenId tripRef drive) := by
  unfold credAct
  (try dsimp only)
  repeat' first
    | (with_reducible assumption) | (with_reducible apply openTrip_kept) | (with_reducible apply closeTrip_kept)
    | (with_reducible apply commitEntry_kept) | (with_reducible apply requestMove_kept)
    | (with_reducible refine kept_fold ?_ _ _ ?_) | (with_reducible refine kept_fold_2 ?_ _ _ ?_)
    | (with_reducible refine kept_fold_1 ?_ _ _ ?_) | intro _ | (simp only [kept_lit]) | (with_reducible apply kept_parts)
    | (with_reducible refine kept_ite ?_ ?_) | (dsimp only [id_eq]) | split

theorem credNote_kept (s : State) (path : ℕ) (req : ℕ) (st : Status) (step : ℕ) (count : Bool) (h : Kept C M s) : Kept C M (credNote s path req st step count) := by
  unfold credNote
  (try dsimp only)
  repeat' first
    | (with_reducible assumption) | (with_reducible apply setPath_kept) | (with_reducible apply wr_kept)
    | (with_reducible apply statInc_kept) | (with_reducible refine kept_fold ?_ _ _ ?_)
    | (with_reducible refine kept_fold_2 ?_ _ _ ?_) | (with_reducible refine kept_fold_1 ?_ _ _ ?_) | intro _
    | (simp only [kept_lit]) | (with_reducible apply kept_parts) | (with_reducible refine kept_ite ?_ ?_)
    | (dsimp only [id_eq]) | split

theorem credRun_kept (s : State) (c : Cred) (vbkpOk : Bool) (h : Kept C M s) : Kept C M (credRun s c vbkpOk).2 := by
  unfold credRun
  (try dsimp only)
  repeat' first
    | (with_reducible assumption) | (with_reducible apply credNote_kept) | (with_reducible apply credAct_kept)
    | (with_reducible refine kept_fold ?_ _ _ ?_) | (with_reducible refine kept_fold_2 ?_ _ _ ?_)
    | (with_reducible refine kept_fold_1 ?_ _ _ ?_) | intro _ | (simp only [kept_lit]) | (with_reducible apply kept_parts)
    | (with_reducible refine kept_ite ?_ ?_) | (dsimp only [id_eq]) | split

theorem receipt_kept (s : State) (c : Cred) (st : Status) (h : Kept C M s) : Kept C M (receipt s c st).2 := by
  unfold receipt
  (try dsimp only)
  repeat' first
    | (with_reducible assumption) | (with_reducible apply signature_kept) | (with_reducible refine kept_fold ?_ _ _ ?_)
    | (with_reducible refine kept_fold_2 ?_ _ _ ?_) | (with_reducible refine kept_fold_1 ?_ _ _ ?_) | intro _
    | (simp only [kept_lit]) | (with_reducible apply kept_parts)
    | (with_reducible refine kept_of_eq_2 ‹signature _ _ = _› (signature_kept _ _ ?_))
    | (with_reducible refine kept_ite ?_ ?_) | (dsimp only [id_eq]) | split

theorem nfcCheck_kept (s : State) (v : Bool) (h : Kept C M s) : Kept C M (nfcCheck s v) := by
  unfold nfcCheck
  (try dsimp only)
  repeat' first
    | (with_reducible assumption) | (with_reducible apply begin__kept) | (with_reducible apply credRun_kept)
    | (with_reducible apply setVbat_kept) | (with_reducible apply receipt_kept) | (with_reducible apply tagPuts_kept) | (with_reducible apply tagPut_kept)
    | (with_reducible apply raise_kept) | (with_reducible apply newChallenge_kept)
    | (with_reducible refine kept_fold ?_ _ _ ?_) | (with_reducible refine kept_fold_2 ?_ _ _ ?_)
    | (with_reducible refine kept_fold_1 ?_ _ _ ?_) | intro _ | (simp only [kept_lit]) | (with_reducible apply kept_parts)
    | (with_reducible refine kept_of_eq_2 ‹credRun _ _ _ = _› (credRun_kept _ _ _ ?_))
    | (with_reducible refine kept_of_eq_2 ‹receipt _ _ _ = _› (receipt_kept _ _ _ ?_))
    | (with_reducible refine kept_ite ?_ ?_) | (dsimp only [id_eq]) | split

theorem execCredentialCheck_kept (vbkp field vbat : Nat) (s : State) (h : Kept C M s) : ∃ t, execCredentialCheck vbkp field vbat s = .next t ∧ Kept C M t := by
  unfold execCredentialCheck
  refine ⟨_, rfl, ?_⟩
  (try dsimp only)
  repeat' first
    | (with_reducible assumption) | (with_reducible apply begin__kept) | (with_reducible apply nfcCheck_kept)
    | (with_reducible apply setVbat_kept) | (with_reducible refine kept_ite ?_ ?_) | split

theorem nfcFirst_kept (s : State) (h : Kept C M s) : Kept C M (nfcFirst s) := by
  unfold nfcFirst
  repeat' first
    | (with_reducible assumption) | (with_reducible apply nfcCheck_kept) | (with_reducible refine kept_ite ?_ ?_) | split

theorem execPendingGrantRun_kept (s : State) (h : Kept C M s) : ∃ t, execPendingGrantRun s = .next t ∧ Kept C M t := by
  unfold execPendingGrantRun
  refine ⟨_, rfl, ?_⟩
  (try dsimp only)
  repeat' first
    | (with_reducible assumption) | (with_reducible apply whenRunning_kept) | (with_reducible apply begin__kept)
    | (with_reducible apply credNote_kept) | (with_reducible apply credAct_kept) | (with_reducible refine kept_fold ?_ _ _ ?_)
    | (with_reducible refine kept_fold_2 ?_ _ _ ?_) | (with_reducible refine kept_fold_1 ?_ _ _ ?_) | intro _
    | (simp only [kept_lit]) | (with_reducible apply kept_parts) | (with_reducible refine kept_ite ?_ ?_)
    | (dsimp only [id_eq]) | split

theorem execPendingGrantExpiry_kept (s : State) (h : Kept C M s) : ∃ t, execPendingGrantExpiry s = .next t ∧ Kept C M t := by
  unfold execPendingGrantExpiry
  refine ⟨_, rfl, ?_⟩
  (try dsimp only)
  repeat' first
    | (with_reducible assumption) | (with_reducible apply begin__kept) | (with_reducible refine kept_fold ?_ _ _ ?_)
    | (with_reducible refine kept_fold_2 ?_ _ _ ?_) | (with_reducible refine kept_fold_1 ?_ _ _ ?_) | intro _
    | (simp only [kept_lit]) | (with_reducible apply kept_parts) | (with_reducible refine kept_ite ?_ ?_)
    | (dsimp only [id_eq]) | split

theorem execCredLockoutEnd_kept (host : Bool) (s : State) (h : Kept C M s) : ∃ t, execCredLockoutEnd host s = .next t ∧ Kept C M t := by
  unfold execCredLockoutEnd
  refine ⟨_, rfl, ?_⟩
  (try dsimp only)
  repeat' first
    | (with_reducible assumption) | (with_reducible apply begin__kept) | (with_reducible apply setPath_kept)
    | (with_reducible refine kept_fold ?_ _ _ ?_) | (with_reducible refine kept_fold_2 ?_ _ _ ?_)
    | (with_reducible refine kept_fold_1 ?_ _ _ ?_) | intro _ | (simp only [kept_lit]) | (with_reducible apply kept_parts)
    | (with_reducible refine kept_ite ?_ ?_) | (dsimp only [id_eq]) | split

theorem execEntryChallenge_kept (r : Req) (s : State) (h : Kept C M s) : ∃ t, execEntryChallenge r s = .next t ∧ Kept C M t := by
  unfold execEntryChallenge
  refine ⟨_, rfl, ?_⟩
  (try dsimp only)
  repeat' first
    | (with_reducible assumption) | (with_reducible apply dispatch_kept) | (with_reducible apply wantRandom_kept)
    | (with_reducible apply draw_kept) | (with_reducible apply plan_fail) | (with_reducible apply plan_read)
    | (with_reducible apply plan_noRoom) | (with_reducible refine plan_do ?_) | (with_reducible refine plan_doBytes ?_)
    | (with_reducible refine kept_fold ?_ _ _ ?_) | (with_reducible refine kept_fold_2 ?_ _ _ ?_)
    | (with_reducible refine kept_fold_1 ?_ _ _ ?_) | intro _ | (simp only [kept_lit]) | (with_reducible apply kept_parts)
    | (with_reducible refine kept_of_eq_2 ‹wantRandom _ = _› (wantRandom_kept _ ?_))
    | (with_reducible refine kept_of_eq_2 ‹draw _ = _› (draw_kept _ ?_)) | (with_reducible apply begin__kept)
    | (with_reducible refine kept_ite ?_ ?_) | (dsimp only [id_eq]) | split | (with_reducible refine plan_mk ?_)

theorem execEntrySubmit_kept (r : Req) (head token proof : List Byte) (s : State) (h : Kept C M s) : ∃ t, execEntrySubmit r head token proof s = .next t ∧ Kept C M t := by
  unfold execEntrySubmit
  refine ⟨_, rfl, ?_⟩
  (try dsimp only)
  repeat' first
    | (with_reducible assumption) | (with_reducible apply dispatch_kept) | (with_reducible apply credRun_kept)
    | (with_reducible apply nfcFirst_kept)
    | (with_reducible apply receipt_kept) | (with_reducible apply raise_kept) | (with_reducible apply plan_fail)
    | (with_reducible apply plan_read) | (with_reducible apply plan_noRoom) | (with_reducible refine plan_do ?_)
    | (with_reducible refine plan_doBytes ?_) | (with_reducible refine kept_fold ?_ _ _ ?_)
    | (with_reducible refine kept_fold_2 ?_ _ _ ?_) | (with_reducible refine kept_fold_1 ?_ _ _ ?_) | intro _
    | (simp only [kept_lit]) | (with_reducible apply kept_parts)
    | (with_reducible refine kept_of_eq_2 ‹credRun _ _ _ = _› (credRun_kept _ _ _ ?_))
    | (with_reducible refine kept_of_eq_2 ‹receipt _ _ _ = _› (receipt_kept _ _ _ ?_)) | (with_reducible apply begin__kept)
    | (with_reducible refine kept_ite ?_ ?_) | (dsimp only [id_eq]) | split | (with_reducible refine plan_mk ?_)

theorem execCredRevoke_kept (r : Req) (op : BitVec 8) (tokenId : BitVec 64) (s : State) (h : Kept C M s) : ∃ t, execCredRevoke r op tokenId s = .next t ∧ Kept C M t := by
  unfold execCredRevoke
  refine ⟨_, rfl, ?_⟩
  (try dsimp only)
  repeat' first
    | (with_reducible assumption) | (with_reducible apply dispatch_kept) | (with_reducible apply plan_fail)
    | (with_reducible apply plan_read) | (with_reducible apply plan_noRoom) | (with_reducible refine plan_do ?_)
    | (with_reducible refine plan_doBytes ?_) | (with_reducible refine kept_fold ?_ _ _ ?_)
    | (with_reducible refine kept_fold_2 ?_ _ _ ?_) | (with_reducible refine kept_fold_1 ?_ _ _ ?_) | intro _
    | (simp only [kept_lit]) | (with_reducible apply kept_parts) | (with_reducible apply begin__kept)
    | (with_reducible refine kept_ite ?_ ?_) | (dsimp only [id_eq]) | split | (with_reducible refine plan_mk ?_)

theorem execCredEpoch_kept (r : Req) (epoch : Word) (s : State) (h : Kept C M s) : ∃ t, execCredEpoch r epoch s = .next t ∧ Kept C M t := by
  unfold execCredEpoch
  refine ⟨_, rfl, ?_⟩
  (try dsimp only)
  repeat' first
    | (with_reducible assumption) | (with_reducible apply dispatch_kept) | (with_reducible apply wr_kept)
    | (with_reducible apply monoFinal_kept) | (with_reducible apply plan_fail) | (with_reducible apply plan_read)
    | (with_reducible apply plan_noRoom) | (with_reducible refine plan_do ?_) | (with_reducible refine plan_doBytes ?_)
    | (with_reducible refine kept_fold ?_ _ _ ?_) | (with_reducible refine kept_fold_2 ?_ _ _ ?_)
    | (with_reducible refine kept_fold_1 ?_ _ _ ?_) | intro _ | (simp only [kept_lit]) | (with_reducible apply kept_parts)
    | (with_reducible apply begin__kept) | (with_reducible refine kept_ite ?_ ?_) | (dsimp only [id_eq]) | split
    | (with_reducible refine plan_mk ?_)

theorem execTripOpen_kept (r : Req) (tripRef : BitVec 64) (tokenId : BitVec 64) (s : State) (h : Kept C M s) : ∃ t, execTripOpen r tripRef tokenId s = .next t ∧ Kept C M t := by
  unfold execTripOpen
  refine ⟨_, rfl, ?_⟩
  (try dsimp only)
  repeat' first
    | (with_reducible assumption) | (with_reducible apply dispatch_kept) | (with_reducible apply openTrip_kept)
    | (with_reducible apply plan_fail) | (with_reducible apply plan_read) | (with_reducible apply plan_noRoom)
    | (with_reducible refine plan_do ?_) | (with_reducible refine plan_doBytes ?_)
    | (with_reducible refine kept_fold ?_ _ _ ?_) | (with_reducible refine kept_fold_2 ?_ _ _ ?_)
    | (with_reducible refine kept_fold_1 ?_ _ _ ?_) | intro _ | (simp only [kept_lit]) | (with_reducible apply kept_parts)
    | (with_reducible apply begin__kept) | (with_reducible refine kept_ite ?_ ?_) | (dsimp only [id_eq]) | split
    | (with_reducible refine plan_mk ?_)

theorem execTripClose_kept (r : Req) (tripRef : BitVec 64) (s : State) (h : Kept C M s) : ∃ t, execTripClose r tripRef s = .next t ∧ Kept C M t := by
  unfold execTripClose
  refine ⟨_, rfl, ?_⟩
  (try dsimp only)
  repeat' first
    | (with_reducible assumption) | (with_reducible apply dispatch_kept) | (with_reducible apply atStandstill_kept)
    | (with_reducible apply closeTrip_kept) | (with_reducible apply plan_fail) | (with_reducible apply plan_read)
    | (with_reducible apply plan_noRoom) | (with_reducible refine plan_do ?_) | (with_reducible refine plan_doBytes ?_)
    | (with_reducible refine kept_fold ?_ _ _ ?_) | (with_reducible refine kept_fold_2 ?_ _ _ ?_)
    | (with_reducible refine kept_fold_1 ?_ _ _ ?_) | intro _ | (simp only [kept_lit]) | (with_reducible apply kept_parts)
    | (with_reducible apply begin__kept) | (with_reducible refine kept_ite ?_ ?_) | (dsimp only [id_eq]) | split
    | (with_reducible refine plan_mk ?_)

theorem immobiliseTrip_kept (s : State) (h : Kept C M s) : Kept C M (immobiliseTrip s) := by
  unfold immobiliseTrip
  (try dsimp only)
  repeat' first
    | (with_reducible assumption) | (with_reducible apply atStandstill_kept) | (with_reducible refine kept_fold ?_ _ _ ?_)
    | (with_reducible refine kept_fold_2 ?_ _ _ ?_) | (with_reducible refine kept_fold_1 ?_ _ _ ?_) | intro _
    | (simp only [kept_lit]) | (with_reducible apply kept_parts) | (with_reducible refine kept_ite ?_ ?_)
    | (dsimp only [id_eq]) | split

theorem execForceLock_kept (r : Req) (s : State) (h : Kept C M s) : ∃ t, execForceLock r s = .next t ∧ Kept C M t := by
  unfold execForceLock
  refine ⟨_, rfl, ?_⟩
  (try dsimp only)
  repeat' first
    | (with_reducible assumption) | (with_reducible apply dispatch_kept) | (with_reducible apply atStandstill_kept)
    | (with_reducible apply engageAll_kept) | (with_reducible apply plan_fail) | (with_reducible apply plan_read)
    | (with_reducible apply plan_noRoom) | (with_reducible refine plan_do ?_) | (with_reducible refine plan_doBytes ?_)
    | (with_reducible refine kept_fold ?_ _ _ ?_) | (with_reducible refine kept_fold_2 ?_ _ _ ?_)
    | (with_reducible refine kept_fold_1 ?_ _ _ ?_) | intro _ | (simp only [kept_lit]) | (with_reducible apply kept_parts)
    | (with_reducible apply begin__kept) | (with_reducible refine kept_ite ?_ ?_) | (dsimp only [id_eq]) | split
    | (with_reducible refine plan_mk ?_)

theorem execImmobilise_kept (r : Req) (s : State) (h : Kept C M s) : ∃ t, execImmobilise r s = .next t ∧ Kept C M t := by
  unfold execImmobilise
  refine ⟨_, rfl, ?_⟩
  (try dsimp only)
  repeat' first
    | (with_reducible assumption) | (with_reducible apply dispatch_kept) | (with_reducible apply immobiliseTrip_kept)
    | (with_reducible apply plan_fail) | (with_reducible apply plan_read) | (with_reducible apply plan_noRoom)
    | (with_reducible refine plan_do ?_) | (with_reducible refine plan_doBytes ?_)
    | (with_reducible refine kept_fold ?_ _ _ ?_) | (with_reducible refine kept_fold_2 ?_ _ _ ?_)
    | (with_reducible refine kept_fold_1 ?_ _ _ ?_) | intro _ | (simp only [kept_lit]) | (with_reducible apply kept_parts)
    | (with_reducible apply begin__kept) | (with_reducible refine kept_ite ?_ ?_) | (dsimp only [id_eq]) | split
    | (with_reducible refine plan_mk ?_)

theorem execTripPermit_kept (r : Req) (drive : BitVec 8) (s : State) (h : Kept C M s) : ∃ t, execTripPermit r drive s = .next t ∧ Kept C M t := by
  unfold execTripPermit
  refine ⟨_, rfl, ?_⟩
  (try dsimp only)
  repeat' first
    | (with_reducible assumption) | (with_reducible apply dispatch_kept) | (with_reducible apply immobiliseTrip_kept)
    | (with_reducible apply plan_fail) | (with_reducible apply plan_read) | (with_reducible apply plan_noRoom)
    | (with_reducible refine plan_do ?_) | (with_reducible refine plan_doBytes ?_)
    | (with_reducible refine kept_fold ?_ _ _ ?_) | (with_reducible refine kept_fold_2 ?_ _ _ ?_)
    | (with_reducible refine kept_fold_1 ?_ _ _ ?_) | intro _ | (simp only [kept_lit]) | (with_reducible apply kept_parts)
    | (with_reducible apply begin__kept) | (with_reducible refine kept_ite ?_ ?_) | (dsimp only [id_eq]) | split
    | (with_reducible refine plan_mk ?_)

theorem execEntryConfig_kept (r : Req) (holdS : BitVec 16) (start : List Word) (stop : List Word) (unlock : List Word) (lock : List Word) (s : State) (h : Kept C M s) (hm : M.map = none) : ∃ t, execEntryConfig r holdS start stop unlock lock s = .next t ∧ Kept C M t := by
  unfold execEntryConfig
  refine ⟨_, rfl, ?_⟩
  (try dsimp only)
  repeat' first
    | (with_reducible assumption) | (with_reducible apply dispatch_kept) | (with_reducible apply cfgPlan_planKept)
    | (with_reducible apply applyEntry_kept) | (with_reducible refine kept_fold ?_ _ _ ?_)
    | (with_reducible refine kept_fold_2 ?_ _ _ ?_) | (with_reducible refine kept_fold_1 ?_ _ _ ?_) | intro _
    | (simp only [kept_lit]) | (with_reducible apply kept_parts) | (with_reducible refine parts_map ?_ hm _)
    | (with_reducible apply begin__kept) | (with_reducible refine kept_ite ?_ ?_) | (dsimp only [id_eq]) | split
    | (with_reducible refine plan_mk ?_)

end Sys2Proof.Machine
end

