-- ==== Sys2Proof/Laws/KeepBridge.lean ====
section
/-! SUPPORT. What the operations of `Bridge` leave alone. -/

namespace Sys2Proof.Machine

set_option linter.unusedTactic false
set_option linter.unreachableTactic false
set_option linter.unusedSimpArgs false

variable {C : Prop} {M : Mark}

theorem writeWords_kept (c : Cls) (off : ℕ) (ws : List Word) (s : State) (h : Kept C M s) : Kept C M (writeWords c off ws s) := by
  unfold writeWords
  (try dsimp only)
  repeat' first
    | (with_reducible assumption) | (with_reducible apply statInc_kept) | (with_reducible apply writeRegs_kept)
    | (with_reducible refine kept_fold ?_ _ _ ?_) | (with_reducible refine kept_fold_2 ?_ _ _ ?_)
    | (with_reducible refine kept_fold_1 ?_ _ _ ?_) | intro _ | (simp only [kept_lit]) | (with_reducible apply kept_parts)
    | (with_reducible refine kept_ite ?_ ?_) | (dsimp only [id_eq]) | split

theorem semCommitDo_kept (s : State) (c : Cls) (k : ℕ) (w : Word) (off : Word) (data : Word) (mask : Word) (h : Kept C M s) : Kept C M (semCommitDo s c k w off data mask) := by
  unfold semCommitDo
  (try dsimp only)
  repeat' first
    | (with_reducible assumption) | (with_reducible apply semSettle_kept) | (with_reducible apply refuseOut_kept)
    | (with_reducible apply writeWords_kept) | (with_reducible apply statInc_kept)
    | (with_reducible refine kept_fold ?_ _ _ ?_) | (with_reducible refine kept_fold_2 ?_ _ _ ?_)
    | (with_reducible refine kept_fold_1 ?_ _ _ ?_) | intro _ | (simp only [kept_lit]) | (with_reducible apply kept_parts)
    | (with_reducible refine kept_ite ?_ ?_) | (dsimp only [id_eq]) | split

theorem regAccess_kept (s : State) (c : Cls) (write : Bool) (acc : Access) (h : Kept C M s) : Kept C M (regAccess s c write acc) := by
  unfold regAccess
  (try dsimp only)
  repeat' first
    | (with_reducible assumption) | (with_reducible apply outRead_kept) | (with_reducible apply semCommitDo_kept)
    | (with_reducible apply writeWords_kept) | (with_reducible apply readRegs_kept)
    | (with_reducible refine kept_fold ?_ _ _ ?_) | (with_reducible refine kept_fold_2 ?_ _ _ ?_)
    | (with_reducible refine kept_fold_1 ?_ _ _ ?_) | intro _ | (simp only [kept_lit]) | (with_reducible apply kept_parts)
    | (with_reducible refine kept_of_eq_2 ‹readRegs _ _ _ _ = _› (readRegs_kept _ _ _ _ ?_))
    | (with_reducible refine kept_ite ?_ ?_) | (dsimp only [id_eq]) | split

theorem spineRequest_kept (s : State) (c : Cls) (write : Bool) (acc : Access) (h : Kept C M s) : Kept C M (spineRequest s c write acc) := by
  unfold spineRequest
  (try dsimp only)
  repeat' first
    | (with_reducible assumption) | (with_reducible apply refuseOut_kept) | (with_reducible apply regAccess_kept)
    | (with_reducible apply memRequest_kept) | (with_reducible refine kept_fold ?_ _ _ ?_)
    | (with_reducible refine kept_fold_2 ?_ _ _ ?_) | (with_reducible refine kept_fold_1 ?_ _ _ ?_) | intro _
    | (simp only [kept_lit]) | (with_reducible apply kept_parts) | (with_reducible refine kept_ite ?_ ?_)
    | (dsimp only [id_eq]) | split

theorem regWord1_kept (s : State) (c : Cls) (write : Bool) (off : ℕ) (w : Word) (h : Kept C M s) : Kept C M (regWord1 s c write off w) := by
  unfold regWord1
  (try dsimp only)
  repeat' first
    | (with_reducible assumption) | (with_reducible apply begin__kept) | (with_reducible apply spineRequest_kept)
    | (with_reducible refine kept_fold ?_ _ _ ?_) | (with_reducible refine kept_fold_2 ?_ _ _ ?_)
    | (with_reducible refine kept_fold_1 ?_ _ _ ?_) | intro _ | (simp only [kept_lit]) | (with_reducible apply kept_parts)
    | (with_reducible refine kept_ite ?_ ?_) | (dsimp only [id_eq]) | split

theorem setMsixWord_kept (s : State) (i : ℕ) (w : Word) (h : Kept C M s) : Kept C M (setMsixWord s i w) := by
  unfold setMsixWord
  (try dsimp only)
  repeat' first
    | (with_reducible assumption) | (with_reducible refine kept_fold ?_ _ _ ?_)
    | (with_reducible refine kept_fold_2 ?_ _ _ ?_) | (with_reducible refine kept_fold_1 ?_ _ _ ?_) | intro _
    | (simp only [kept_lit]) | (with_reducible apply kept_parts) | (with_reducible refine kept_ite ?_ ?_)
    | (dsimp only [id_eq]) | split

theorem msixAccess_kept (s : State) (write : Bool) (acc : Access) (h : Kept C M s) : Kept C M (msixAccess s write acc) := by
  unfold msixAccess
  (try dsimp only)
  repeat' first
    | (with_reducible assumption) | (with_reducible apply outRead_kept) | (with_reducible apply setMsixWord_kept)
    | (with_reducible refine kept_fold ?_ _ _ ?_) | (with_reducible refine kept_fold_2 ?_ _ _ ?_)
    | (with_reducible refine kept_fold_1 ?_ _ _ ?_) | intro _ | (simp only [kept_lit]) | (with_reducible apply kept_parts)
    | (with_reducible refine kept_ite ?_ ?_) | (dsimp only [id_eq]) | split

theorem bar2Request_kept (s : State) (write : Bool) (acc : Access) (h : Kept C M s) : Kept C M (bar2Request s write acc) := by
  unfold bar2Request
  (try dsimp only)
  repeat' first
    | (with_reducible assumption) | (with_reducible apply refuseOut_kept) | (with_reducible apply memRequest_kept)
    | (with_reducible apply msixAccess_kept) | (with_reducible refine kept_fold ?_ _ _ ?_)
    | (with_reducible refine kept_fold_2 ?_ _ _ ?_) | (with_reducible refine kept_fold_1 ?_ _ _ ?_) | intro _
    | (simp only [kept_lit]) | (with_reducible apply kept_parts) | (with_reducible refine kept_ite ?_ ?_)
    | (dsimp only [id_eq]) | split

theorem targetRequest_kept (s : State) (c : Cls) (t0 : Target) (write : Bool) (acc : Access) (h : Kept C M s) : Kept C M (targetRequest s c t0 write acc) := by
  unfold targetRequest
  (try dsimp only)
  repeat' first
    | (with_reducible assumption) | (with_reducible apply spineRequest_kept) | (with_reducible apply refuseOut_kept)
    | (with_reducible apply bar2Request_kept) | (with_reducible refine kept_fold ?_ _ _ ?_)
    | (with_reducible refine kept_fold_2 ?_ _ _ ?_) | (with_reducible refine kept_fold_1 ?_ _ _ ?_) | intro _
    | (simp only [kept_lit]) | (with_reducible apply kept_parts) | (with_reducible refine kept_ite ?_ ?_)
    | (dsimp only [id_eq]) | split

theorem execStatLowWordRead_kept (c : Cls) (off : BitVec 24) (s : State) (h : Kept C M s) : ∃ t, execStatLowWordRead c off s = .next t ∧ Kept C M t := by
  unfold execStatLowWordRead
  refine ⟨_, rfl, ?_⟩
  (try dsimp only)
  repeat' first
    | (with_reducible assumption) | (with_reducible apply regWord1_kept) | (with_reducible refine kept_fold ?_ _ _ ?_)
    | (with_reducible refine kept_fold_2 ?_ _ _ ?_) | (with_reducible refine kept_fold_1 ?_ _ _ ?_) | intro _
    | (simp only [kept_lit]) | (with_reducible apply kept_parts) | (with_reducible apply begin__kept)
    | (with_reducible refine kept_ite ?_ ?_) | (dsimp only [id_eq]) | split

theorem execRcRead_kept (c : Cls) (t0 : Target) (acc : Access) (s : State) (h : Kept C M s) : ∃ t, execRcRead c t0 acc s = .next t ∧ Kept C M t := by
  unfold execRcRead
  refine ⟨_, rfl, ?_⟩
  (try dsimp only)
  repeat' first
    | (with_reducible assumption) | (with_reducible apply targetRequest_kept) | (with_reducible apply begin__kept)
    | (with_reducible refine kept_fold ?_ _ _ ?_) | (with_reducible refine kept_fold_2 ?_ _ _ ?_)
    | (with_reducible refine kept_fold_1 ?_ _ _ ?_) | intro _ | (simp only [kept_lit]) | (with_reducible apply kept_parts)
    | (with_reducible refine kept_ite ?_ ?_) | (dsimp only [id_eq]) | split

theorem execLdgLoRead_kept (c : Cls) (off : BitVec 24) (s : State) (h : Kept C M s) : ∃ t, execLdgLoRead c off s = .next t ∧ Kept C M t := by
  unfold execLdgLoRead
  refine ⟨_, rfl, ?_⟩
  (try dsimp only)
  repeat' first
    | (with_reducible assumption) | (with_reducible apply regWord1_kept) | (with_reducible refine kept_fold ?_ _ _ ?_)
    | (with_reducible refine kept_fold_2 ?_ _ _ ?_) | (with_reducible refine kept_fold_1 ?_ _ _ ?_) | intro _
    | (simp only [kept_lit]) | (with_reducible apply kept_parts) | (with_reducible apply begin__kept)
    | (with_reducible refine kept_ite ?_ ?_) | (dsimp only [id_eq]) | split

theorem execRegWrite_kept (c : Cls) (t0 : Target) (acc : Access) (s : State) (h : Kept C M s) : ∃ t, execRegWrite c t0 acc s = .next t ∧ Kept C M t := by
  unfold execRegWrite
  refine ⟨_, rfl, ?_⟩
  (try dsimp only)
  repeat' first
    | (with_reducible assumption) | (with_reducible apply targetRequest_kept) | (with_reducible apply begin__kept)
    | (with_reducible refine kept_fold ?_ _ _ ?_) | (with_reducible refine kept_fold_2 ?_ _ _ ?_)
    | (with_reducible refine kept_fold_1 ?_ _ _ ?_) | intro _ | (simp only [kept_lit]) | (with_reducible apply kept_parts)
    | (with_reducible refine kept_ite ?_ ?_) | (dsimp only [id_eq]) | split

theorem execEvtPendWrite_kept (c : Cls) (g : Fin 8) (w : Word) (s : State) (h : Kept C M s) : ∃ t, execEvtPendWrite c g w s = .next t ∧ Kept C M t := by
  unfold execEvtPendWrite
  refine ⟨_, rfl, ?_⟩
  (try dsimp only)
  repeat' first
    | (with_reducible assumption) | (with_reducible apply regWord1_kept) | (with_reducible refine kept_fold ?_ _ _ ?_)
    | (with_reducible refine kept_fold_2 ?_ _ _ ?_) | (with_reducible refine kept_fold_1 ?_ _ _ ?_) | intro _
    | (simp only [kept_lit]) | (with_reducible apply kept_parts) | (with_reducible apply begin__kept)
    | (with_reducible refine kept_ite ?_ ?_) | (dsimp only [id_eq]) | split

theorem execEvtEnWrite_kept (c : Cls) (g : Fin 8) (w : Word) (s : State) (h : Kept C M s) : ∃ t, execEvtEnWrite c g w s = .next t ∧ Kept C M t := by
  unfold execEvtEnWrite
  refine ⟨_, rfl, ?_⟩
  (try dsimp only)
  repeat' first
    | (with_reducible assumption) | (with_reducible apply regWord1_kept) | (with_reducible refine kept_fold ?_ _ _ ?_)
    | (with_reducible refine kept_fold_2 ?_ _ _ ?_) | (with_reducible refine kept_fold_1 ?_ _ _ ?_) | intro _
    | (simp only [kept_lit]) | (with_reducible apply kept_parts) | (with_reducible apply begin__kept)
    | (with_reducible refine kept_ite ?_ ?_) | (dsimp only [id_eq]) | split

theorem execEvtTestWrite_kept (c : Cls) (w : Word) (s : State) (h : Kept C M s) : ∃ t, execEvtTestWrite c w s = .next t ∧ Kept C M t := by
  unfold execEvtTestWrite
  refine ⟨_, rfl, ?_⟩
  (try dsimp only)
  repeat' first
    | (with_reducible assumption) | (with_reducible apply regWord1_kept) | (with_reducible refine kept_fold ?_ _ _ ?_)
    | (with_reducible refine kept_fold_2 ?_ _ _ ?_) | (with_reducible refine kept_fold_1 ?_ _ _ ?_) | intro _
    | (simp only [kept_lit]) | (with_reducible apply kept_parts) | (with_reducible apply begin__kept)
    | (with_reducible refine kept_ite ?_ ?_) | (dsimp only [id_eq]) | split

theorem execCckInjectWrite_kept (c : Cls) (w : Word) (s : State) (h : Kept C M s) : ∃ t, execCckInjectWrite c w s = .next t ∧ Kept C M t := by
  unfold execCckInjectWrite
  refine ⟨_, rfl, ?_⟩
  (try dsimp only)
  repeat' first
    | (with_reducible assumption) | (with_reducible apply regWord1_kept) | (with_reducible refine kept_fold ?_ _ _ ?_)
    | (with_reducible refine kept_fold_2 ?_ _ _ ?_) | (with_reducible refine kept_fold_1 ?_ _ _ ?_) | intro _
    | (simp only [kept_lit]) | (with_reducible apply kept_parts) | (with_reducible apply begin__kept)
    | (with_reducible refine kept_ite ?_ ?_) | (dsimp only [id_eq]) | split

theorem execHostLostWrite_kept (c : Cls) (s : State) (h : Kept C M s) : ∃ t, execHostLostWrite c s = .next t ∧ Kept C M t := by
  unfold execHostLostWrite
  refine ⟨_, rfl, ?_⟩
  (try dsimp only)
  repeat' first
    | (with_reducible assumption) | (with_reducible apply regWord1_kept) | (with_reducible refine kept_fold ?_ _ _ ?_)
    | (with_reducible refine kept_fold_2 ?_ _ _ ?_) | (with_reducible refine kept_fold_1 ?_ _ _ ?_) | intro _
    | (simp only [kept_lit]) | (with_reducible apply kept_parts) | (with_reducible apply begin__kept)
    | (with_reducible refine kept_ite ?_ ?_) | (dsimp only [id_eq]) | split

theorem execSemAcquire_kept (c : Cls) (k : Fin 16) (owner : BitVec 8) (s : State) (h : Kept C M s) : ∃ t, execSemAcquire c k owner s = .next t ∧ Kept C M t := by
  unfold execSemAcquire
  refine ⟨_, rfl, ?_⟩
  (try dsimp only)
  repeat' first
    | (with_reducible assumption) | (with_reducible apply regWord1_kept) | (with_reducible refine kept_fold ?_ _ _ ?_)
    | (with_reducible refine kept_fold_2 ?_ _ _ ?_) | (with_reducible refine kept_fold_1 ?_ _ _ ?_) | intro _
    | (simp only [kept_lit]) | (with_reducible apply kept_parts) | (with_reducible apply begin__kept)
    | (with_reducible refine kept_ite ?_ ?_) | (dsimp only [id_eq]) | split

theorem execSemRelease_kept (c : Cls) (k : Fin 16) (w : Word) (s : State) (h : Kept C M s) : ∃ t, execSemRelease c k w s = .next t ∧ Kept C M t := by
  unfold execSemRelease
  refine ⟨_, rfl, ?_⟩
  (try dsimp only)
  repeat' first
    | (with_reducible assumption) | (with_reducible apply regWord1_kept) | (with_reducible refine kept_fold ?_ _ _ ?_)
    | (with_reducible refine kept_fold_2 ?_ _ _ ?_) | (with_reducible refine kept_fold_1 ?_ _ _ ?_) | intro _
    | (simp only [kept_lit]) | (with_reducible apply kept_parts) | (with_reducible apply begin__kept)
    | (with_reducible refine kept_ite ?_ ?_) | (dsimp only [id_eq]) | split

theorem execSemCommit_kept (c : Cls) (k : Fin 16) (w : Word) (off : Word) (data : Word) (mask : Word) (s : State) (h : Kept C M s) : ∃ t, execSemCommit c k w off data mask s = .next t ∧ Kept C M t := by
  unfold execSemCommit
  refine ⟨_, rfl, ?_⟩
  (try dsimp only)
  repeat' first
    | (with_reducible assumption) | (with_reducible apply begin__kept) | (with_reducible apply spineRequest_kept)
    | (with_reducible refine kept_fold ?_ _ _ ?_) | (with_reducible refine kept_fold_2 ?_ _ _ ?_)
    | (with_reducible refine kept_fold_1 ?_ _ _ ?_) | intro _ | (simp only [kept_lit]) | (with_reducible apply kept_parts)
    | (with_reducible refine kept_ite ?_ ?_) | (dsimp only [id_eq]) | split

theorem execSemLeaseExpiry_kept (k : Fin 16) (s : State) (h : Kept C M s) : ∃ t, execSemLeaseExpiry k s = .next t ∧ Kept C M t := by
  unfold execSemLeaseExpiry
  refine ⟨_, rfl, ?_⟩
  (try dsimp only)
  repeat' first
    | (with_reducible assumption) | (with_reducible apply whenClocked_kept) | (with_reducible apply begin__kept)
    | (with_reducible apply semSettle_kept) | (with_reducible refine kept_fold ?_ _ _ ?_)
    | (with_reducible refine kept_fold_2 ?_ _ _ ?_) | (with_reducible refine kept_fold_1 ?_ _ _ ?_) | intro _
    | (simp only [kept_lit]) | (with_reducible apply kept_parts) | (with_reducible refine kept_ite ?_ ?_)
    | (dsimp only [id_eq]) | split

theorem whenSpi_kept (s : State) (f : State → State) (h : Kept C M s) (hf : ∀ s, Kept C M s → Kept C M (f s)) : Kept C M (whenSpi s f) := by
  unfold whenSpi
  (try dsimp only)
  repeat' first
    | (with_reducible assumption) | (with_reducible apply hf) | (with_reducible apply begin__kept)
    | (with_reducible refine kept_fold ?_ _ _ ?_) | (with_reducible refine kept_fold_2 ?_ _ _ ?_)
    | (with_reducible refine kept_fold_1 ?_ _ _ ?_) | intro _ | (simp only [kept_lit]) | (with_reducible apply kept_parts)
    | (with_reducible refine kept_ite ?_ ?_) | (dsimp only [id_eq]) | split

theorem execSpiRead_kept (addr : Word) (count : BitVec 8) (s : State) (h : Kept C M s) : ∃ t, execSpiRead addr count s = .next t ∧ Kept C M t := by
  unfold execSpiRead
  refine ⟨_, rfl, ?_⟩
  (try dsimp only)
  repeat' first
    | (with_reducible assumption) | (with_reducible apply whenSpi_kept) | (with_reducible apply spineRequest_kept)
    | (with_reducible refine kept_fold ?_ _ _ ?_) | (with_reducible refine kept_fold_2 ?_ _ _ ?_)
    | (with_reducible refine kept_fold_1 ?_ _ _ ?_) | intro _ | (simp only [kept_lit]) | (with_reducible apply kept_parts)
    | (with_reducible apply begin__kept) | (with_reducible refine kept_ite ?_ ?_) | (dsimp only [id_eq]) | split

theorem execSpiWrite_kept (addr : Word) (words : List Word) (s : State) (h : Kept C M s) : ∃ t, execSpiWrite addr words s = .next t ∧ Kept C M t := by
  unfold execSpiWrite
  refine ⟨_, rfl, ?_⟩
  (try dsimp only)
  repeat' first
    | (with_reducible assumption) | (with_reducible apply whenSpi_kept) | (with_reducible apply spineRequest_kept)
    | (with_reducible refine kept_fold ?_ _ _ ?_) | (with_reducible refine kept_fold_2 ?_ _ _ ?_)
    | (with_reducible refine kept_fold_1 ?_ _ _ ?_) | intro _ | (simp only [kept_lit]) | (with_reducible apply kept_parts)
    | (with_reducible apply begin__kept) | (with_reducible refine kept_ite ?_ ?_) | (dsimp only [id_eq]) | split

theorem execWstat_kept (s : State) (h : Kept C M s) : ∃ t, execWstat s = .next t ∧ Kept C M t := by
  unfold execWstat
  refine ⟨_, rfl, ?_⟩
  (try dsimp only)
  repeat' first
    | (with_reducible assumption) | (with_reducible apply whenSpi_kept) | (with_reducible refine kept_fold ?_ _ _ ?_)
    | (with_reducible refine kept_fold_2 ?_ _ _ ?_) | (with_reducible refine kept_fold_1 ?_ _ _ ?_) | intro _
    | (simp only [kept_lit]) | (with_reducible apply kept_parts) | (with_reducible apply begin__kept)
    | (with_reducible refine kept_ite ?_ ?_) | (dsimp only [id_eq]) | split

theorem execSpiAbort_kept (s : State) (h : Kept C M s) : ∃ t, execSpiAbort s = .next t ∧ Kept C M t := by
  unfold execSpiAbort
  refine ⟨_, rfl, ?_⟩
  (try dsimp only)
  repeat' first
    | (with_reducible assumption) | (with_reducible apply whenSpi_kept) | (with_reducible apply statInc_kept)
    | (with_reducible refine kept_fold ?_ _ _ ?_) | (with_reducible refine kept_fold_2 ?_ _ _ ?_)
    | (with_reducible refine kept_fold_1 ?_ _ _ ?_) | intro _ | (simp only [kept_lit]) | (with_reducible apply kept_parts)
    | (with_reducible apply begin__kept) | (with_reducible refine kept_ite ?_ ?_) | (dsimp only [id_eq]) | split

theorem execCmdPut_kept (length : BitVec 16) (opcode : BitVec 16) (session : BitVec 16) (seq : BitVec 32) (s : State) (h : Kept C M s) : ∃ t, execCmdPut length opcode session seq s = .next t ∧ Kept C M t := by
  unfold execCmdPut
  refine ⟨_, rfl, ?_⟩
  (try dsimp only)
  repeat' first
    | (with_reducible assumption) | (with_reducible apply whenSpi_kept) | (with_reducible refine kept_fold ?_ _ _ ?_)
    | (with_reducible refine kept_fold_2 ?_ _ _ ?_) | (with_reducible refine kept_fold_1 ?_ _ _ ?_) | intro _
    | (simp only [kept_lit]) | (with_reducible apply kept_parts) | (with_reducible apply begin__kept)
    | (with_reducible refine kept_ite ?_ ?_) | (dsimp only [id_eq]) | split

theorem execCmdGet_kept (s : State) (h : Kept C M s) : ∃ t, execCmdGet s = .next t ∧ Kept C M t := by
  unfold execCmdGet
  refine ⟨_, rfl, ?_⟩
  (try dsimp only)
  repeat' first
    | (with_reducible assumption) | (with_reducible apply whenSpi_kept) | (with_reducible apply warmCore_kept)
    | (with_reducible refine kept_fold ?_ _ _ ?_) | (with_reducible refine kept_fold_2 ?_ _ _ ?_)
    | (with_reducible refine kept_fold_1 ?_ _ _ ?_) | intro _ | (simp only [kept_lit]) | (with_reducible apply kept_parts)
    | (with_reducible apply begin__kept) | (with_reducible refine kept_ite ?_ ?_) | (dsimp only [id_eq]) | split

theorem ringStep_kept (s : State) (r : ℕ) (a : ℕ) (h : Kept C M s) : Kept C M (ringStep s r a) := by
  unfold ringStep
  (try dsimp only)
  repeat' first
    | (with_reducible assumption) | (with_reducible apply setFld_kept) | (with_reducible refine kept_fold ?_ _ _ ?_)
    | (with_reducible refine kept_fold_2 ?_ _ _ ?_) | (with_reducible refine kept_fold_1 ?_ _ _ ?_) | intro _
    | (simp only [kept_lit]) | (with_reducible apply kept_parts) | (with_reducible refine kept_ite ?_ ?_)
    | (dsimp only [id_eq]) | split

theorem execCmdRingFetch_kept (opcode : BitVec 16) (session : BitVec 16) (seq : BitVec 32) (s : State) (h : Kept C M s) : ∃ t, execCmdRingFetch opcode session seq s = .next t ∧ Kept C M t := by
  unfold execCmdRingFetch
  refine ⟨_, rfl, ?_⟩
  (try dsimp only)
  repeat' first
    | (with_reducible assumption) | (with_reducible apply whenRunning_kept) | (with_reducible apply begin__kept)
    | (with_reducible apply refuse_kept) | (with_reducible apply ringStep_kept) | (with_reducible apply dmaGood_kept)
    | (with_reducible refine kept_fold ?_ _ _ ?_) | (with_reducible refine kept_fold_2 ?_ _ _ ?_)
    | (with_reducible refine kept_fold_1 ?_ _ _ ?_) | intro _ | (simp only [kept_lit]) | (with_reducible apply kept_parts)
    | (with_reducible refine kept_ite ?_ ?_) | (dsimp only [id_eq]) | split

theorem hpComplete_kept (s : State) (d : HpDesc) (st : Status) (stamp : ℕ) (h : Kept C M s) : Kept C M (hpComplete s d st stamp) := by
  unfold hpComplete
  (try dsimp only)
  repeat' first
    | (with_reducible assumption) | (with_reducible apply dmaWrite_kept) | (with_reducible apply ringStep_kept)
    | (with_reducible refine kept_fold ?_ _ _ ?_) | (with_reducible refine kept_fold_2 ?_ _ _ ?_)
    | (with_reducible refine kept_fold_1 ?_ _ _ ?_) | intro _ | (simp only [kept_lit]) | (with_reducible apply kept_parts)
    | (with_reducible refine kept_of_eq_2 ‹dmaWrite _ _ _ = _› (dmaWrite_kept _ _ _ ?_))
    | (with_reducible refine kept_ite ?_ ?_) | (dsimp only [id_eq]) | split

theorem hpSend_kept (s : State) (d : HpDesc) (c : Content) (lock : Option (ℕ × ℕ)) (stuck : Option Bool) (h : Kept C M s) : Kept C M (hpSend s d c lock stuck) := by
  unfold hpSend
  (try dsimp only)
  repeat' first
    | (with_reducible assumption) | (with_reducible apply unlockFrame_kept) | (with_reducible apply hpComplete_kept)
    | (with_reducible apply raise_kept) | (with_reducible apply statInc_kept) | (with_reducible apply receive_kept)
    | (with_reducible refine kept_fold ?_ _ _ ?_) | (with_reducible refine kept_fold_2 ?_ _ _ ?_)
    | (with_reducible refine kept_fold_1 ?_ _ _ ?_) | intro _ | (simp only [kept_lit]) | (with_reducible apply kept_parts)
    | (with_reducible refine kept_ite ?_ ?_) | (dsimp only [id_eq]) | split

theorem hpAcquire_kept (s : State) (d : HpDesc) (h : Kept C M s) : ∀ t x, hpAcquire s d = some (t, x) → Kept C M t := by
  intro t x ht
  unfold hpAcquire at ht
  split at ht
  · cases ht; exact h
  · dsimp only at ht
    split at ht
    · cases ht
    · cases ht
      exact semAcq_kept _ _ _ (semSettle_kept _ _ h)

theorem execHpTxDescriptor_kept (desc : HpDesc) (bytes : List Byte) (stuck decided : Bool) (s : State) (h : Kept C M s) : ∃ t, execHpTxDescriptor desc bytes stuck decided s = .next t ∧ Kept C M t := by
  unfold execHpTxDescriptor
  refine ⟨_, rfl, ?_⟩
  (try dsimp only)
  repeat' first
    | (with_reducible assumption) | (with_reducible apply whenRunning_kept) | (with_reducible apply begin__kept)
    | (with_reducible apply hpComplete_kept) | (with_reducible apply refuse_kept) | (with_reducible apply dmaGood_kept)
    | (with_reducible apply hpSend_kept) | (with_reducible refine kept_fold ?_ _ _ ?_)
    | (with_reducible refine kept_fold_2 ?_ _ _ ?_) | (with_reducible refine kept_fold_1 ?_ _ _ ?_) | intro _
    | (simp only [kept_lit]) | (with_reducible apply kept_parts)
    | (with_reducible refine hpAcquire_kept _ _ ?_ _ _ ‹hpAcquire _ _ = _›) | (with_reducible refine kept_ite ?_ ?_)
    | (dsimp only [id_eq]) | split

theorem hpDeliver_kept (s : State) (q : ℕ) (x : QEnt) (f : Frame) (buf : ℕ) (h : Kept C M s) : Kept C M (hpDeliver s q x f buf) := by
  unfold hpDeliver
  (try dsimp only)
  repeat' first
    | (with_reducible assumption) | (with_reducible apply draw_kept) | (with_reducible apply carryFail_kept)
    | (with_reducible apply removeEnt_kept) | (with_reducible apply statInc_kept) | (with_reducible apply dropAt_kept)
    | (with_reducible apply dmaWrite_kept) | (with_reducible apply ringStep_kept) | (with_reducible apply stat2AddI_kept)
    | (with_reducible apply releaseRef_kept) | (with_reducible refine kept_fold ?_ _ _ ?_)
    | (with_reducible refine kept_fold_2 ?_ _ _ ?_) | (with_reducible refine kept_fold_1 ?_ _ _ ?_) | intro _
    | (simp only [kept_lit]) | (with_reducible apply kept_parts)
    | (with_reducible refine kept_of_eq_2 ‹draw _ = _› (draw_kept _ ?_))
    | (with_reducible refine kept_of_eq_2 ‹dmaWrite _ _ _ = _› (dmaWrite_kept _ _ _ ?_))
    | (with_reducible refine kept_ite ?_ ?_) | (dsimp only [id_eq]) | split

theorem execHpRxDeliver_kept (buf : BitVec 64) (s : State) (h : Kept C M s) : ∃ t, execHpRxDeliver buf s = .next t ∧ Kept C M t := by
  unfold execHpRxDeliver
  refine ⟨_, rfl, ?_⟩
  (try dsimp only)
  repeat' first
    | (with_reducible assumption) | (with_reducible apply whenRunning_kept) | (with_reducible apply begin__kept)
    | (with_reducible apply refuse_kept) | (with_reducible apply dmaGood_kept) | (with_reducible apply rsqDequeue_kept)
    | (with_reducible apply removeEnt_kept) | (with_reducible apply hpDeliver_kept)
    | (with_reducible refine kept_fold ?_ _ _ ?_) | (with_reducible refine kept_fold_2 ?_ _ _ ?_)
    | (with_reducible refine kept_fold_1 ?_ _ _ ?_) | intro _ | (simp only [kept_lit]) | (with_reducible apply kept_parts)
    | (with_reducible refine kept_ite ?_ ?_) | (dsimp only [id_eq]) | split

theorem execDmaTimeout_kept (op : DmaOp) (s : State) (h : Kept C M s) : ∃ t, execDmaTimeout op s = .next t ∧ Kept C M t := by
  unfold execDmaTimeout
  refine ⟨_, rfl, ?_⟩
  (try dsimp only)
  repeat' first
    | (with_reducible assumption) | (with_reducible apply whenRunning_kept) | (with_reducible apply begin__kept)
    | (with_reducible apply statInc_kept) | (with_reducible apply raise_kept) | (with_reducible apply setFld_kept)
    | (with_reducible apply hpComplete_kept) | (with_reducible apply completeJob_kept)
    | (with_reducible refine kept_fold ?_ _ _ ?_) | (with_reducible refine kept_fold_2 ?_ _ _ ?_)
    | (with_reducible refine kept_fold_1 ?_ _ _ ?_) | intro _ | (simp only [kept_lit]) | (with_reducible apply kept_parts)
    | (with_reducible refine kept_ite ?_ ?_) | (dsimp only [id_eq]) | split

theorem execMsixSend_kept (vec : Fin 64) (fmask : Bool) (s : State) (h : Kept C M s) : ∃ t, execMsixSend vec fmask s = .next t ∧ Kept C M t := by
  unfold execMsixSend
  refine ⟨_, rfl, ?_⟩
  (try dsimp only)
  repeat' first
    | (with_reducible assumption) | (with_reducible apply whenRunning_kept) | (with_reducible apply begin__kept)
    | (with_reducible refine kept_fold ?_ _ _ ?_) | (with_reducible refine kept_fold_2 ?_ _ _ ?_)
    | (with_reducible refine kept_fold_1 ?_ _ _ ?_) | intro _ | (simp only [kept_lit]) | (with_reducible apply kept_parts)
    | (with_reducible refine kept_ite ?_ ?_) | (dsimp only [id_eq]) | split

theorem execLockedReadTlp_kept (s : State) (h : Kept C M s) : ∃ t, execLockedReadTlp s = .next t ∧ Kept C M t := by
  unfold execLockedReadTlp
  refine ⟨_, rfl, ?_⟩
  (try dsimp only)
  repeat' first
    | (with_reducible assumption) | (with_reducible apply begin__kept) | (with_reducible apply statInc_kept)
    | (with_reducible refine kept_fold ?_ _ _ ?_) | (with_reducible refine kept_fold_2 ?_ _ _ ?_)
    | (with_reducible refine kept_fold_1 ?_ _ _ ?_) | intro _ | (simp only [kept_lit]) | (with_reducible apply kept_parts)
    | (with_reducible refine kept_ite ?_ ?_) | (dsimp only [id_eq]) | split

theorem execPcieLinkUp_kept (width : Fin 3) (rate : Fin 4) (s : State) (h : Kept C M s) : ∃ t, execPcieLinkUp width rate s = .next t ∧ Kept C M t := by
  unfold execPcieLinkUp
  refine ⟨_, rfl, ?_⟩
  (try dsimp only)
  repeat' first
    | (with_reducible assumption) | (with_reducible apply begin__kept) | (with_reducible apply setFld_kept)
    | (with_reducible refine kept_fold ?_ _ _ ?_) | (with_reducible refine kept_fold_2 ?_ _ _ ?_)
    | (with_reducible refine kept_fold_1 ?_ _ _ ?_) | intro _ | (simp only [kept_lit]) | (with_reducible apply kept_parts)
    | (with_reducible refine kept_ite ?_ ?_) | (dsimp only [id_eq]) | split

theorem dropJobs_kept (s : State) (h : Kept C M s) : Kept C M (dropJobs s) := by
  unfold dropJobs
  (try dsimp only)
  repeat' first
    | (with_reducible assumption) | (with_reducible apply setJobOn_kept) | (with_reducible apply setEng_kept)
    | (with_reducible refine kept_fold ?_ _ _ ?_) | (with_reducible refine kept_fold_2 ?_ _ _ ?_)
    | (with_reducible refine kept_fold_1 ?_ _ _ ?_) | intro _ | (simp only [kept_lit]) | (with_reducible apply kept_parts)
    | (with_reducible refine kept_ite ?_ ?_) | (dsimp only [id_eq]) | split

theorem dropRequests_kept (s : State) (h : Kept C M s) : Kept C M (dropRequests s) := by
  unfold dropRequests
  (try dsimp only)
  repeat' first
    | (with_reducible assumption) | (with_reducible apply dropBatch_kept) | (with_reducible refine kept_fold ?_ _ _ ?_)
    | (with_reducible refine kept_fold_2 ?_ _ _ ?_) | (with_reducible refine kept_fold_1 ?_ _ _ ?_) | intro _
    | (simp only [kept_lit]) | (with_reducible apply kept_parts) | (with_reducible refine kept_ite ?_ ?_)
    | (dsimp only [id_eq]) | split

theorem execBridgeReset_kept (s : State) (h : Kept C M s) : ∃ t, execBridgeReset s = .next t ∧ Kept C M t := by
  unfold execBridgeReset
  refine ⟨_, rfl, ?_⟩
  (try dsimp only)
  repeat' first
    | (with_reducible assumption) | (with_reducible apply begin__kept) | (with_reducible apply dropRequests_kept)
    | (with_reducible apply dropJobs_kept) | (with_reducible apply setFld_kept) | (with_reducible apply semForceAll_kept)
    | (with_reducible refine kept_fold ?_ _ _ ?_) | (with_reducible refine kept_fold_2 ?_ _ _ ?_)
    | (with_reducible refine kept_fold_1 ?_ _ _ ?_) | intro _ | (simp only [kept_lit]) | (with_reducible apply kept_parts)
    | (with_reducible refine kept_ite ?_ ?_) | (dsimp only [id_eq]) | split

theorem execPipeReset_kept (p : Fin 4) (s : State) (h : Kept C M s) : ∃ t, execPipeReset p s = .next t ∧ Kept C M t := by
  unfold execPipeReset
  refine ⟨_, rfl, ?_⟩
  (try dsimp only)
  repeat' first
    | (with_reducible assumption) | (with_reducible apply whenRunning_kept) | (with_reducible apply begin__kept)
    | (with_reducible apply fcCheck_kept) | (with_reducible apply statIncI_kept) | (with_reducible apply statAddI_kept)
    | (with_reducible apply statInc_kept) | (with_reducible apply semForceAll_kept) | (with_reducible apply raise_kept)
    | (with_reducible refine kept_fold ?_ _ _ ?_) | (with_reducible refine kept_fold_2 ?_ _ _ ?_)
    | (with_reducible refine kept_fold_1 ?_ _ _ ?_) | intro _ | (simp only [kept_lit]) | (with_reducible apply kept_parts)
    | (with_reducible refine kept_ite ?_ ?_) | (dsimp only [id_eq]) | split

end Sys2Proof.Machine
end

