-- ==== Sys2Proof/Laws/KeepStartup.lean ====
section
/-! SUPPORT. What the operations of `Startup` leave alone. -/

namespace Sys2Proof.Machine

set_option linter.unusedTactic false
set_option linter.unreachableTactic false
set_option linter.unusedSimpArgs false

variable {C : Prop} {M : Mark}

theorem coldFull_kept (s : State) (h : Kept C M s) (hb : M.beat = none) : Kept C M (coldFull s) := by
  unfold coldFull
  (try dsimp only)
  repeat' first
    | (with_reducible assumption) | (with_reducible apply coldCore_kept) | (with_reducible apply lanesFollow_kept)
    | (with_reducible refine kept_fold ?_ _ _ ?_) | (with_reducible refine kept_fold_2 ?_ _ _ ?_)
    | (with_reducible refine kept_fold_1 ?_ _ _ ?_) | intro _ | (simp only [kept_lit]) | (with_reducible apply kept_parts)
    | (with_reducible refine kept_ite ?_ ?_) | (dsimp only [id_eq]) | split

theorem execColdReset_kept (cause : ColdCause) (s : State) (h : Kept C M s) (hb : M.beat = none) : ∃ t, execColdReset cause s = .next t ∧ Kept C M t := by
  unfold execColdReset
  refine ⟨_, rfl, ?_⟩
  (try dsimp only)
  repeat' first
    | (with_reducible assumption) | (with_reducible apply begin__kept) | (with_reducible apply railGood_kept)
    | (with_reducible apply draw_kept) | (with_reducible apply coldFull_kept) | (with_reducible refine kept_fold ?_ _ _ ?_)
    | (with_reducible refine kept_fold_2 ?_ _ _ ?_) | (with_reducible refine kept_fold_1 ?_ _ _ ?_) | intro _
    | (simp only [kept_lit]) | (with_reducible apply kept_parts)
    | (with_reducible refine kept_of_eq_2 ‹draw _ = _› (draw_kept _ ?_)) | (with_reducible refine kept_ite ?_ ?_)
    | (dsimp only [id_eq]) | split

theorem execWarmReset_kept (s : State) (h : Kept C M s) : ∃ t, execWarmReset s = .next t ∧ Kept C M t := by
  unfold execWarmReset
  refine ⟨_, rfl, ?_⟩
  (try dsimp only)
  repeat' first
    | (with_reducible assumption) | (with_reducible apply begin__kept) | (with_reducible apply warmCore_kept)
    | (with_reducible refine kept_fold ?_ _ _ ?_) | (with_reducible refine kept_fold_2 ?_ _ _ ?_)
    | (with_reducible refine kept_fold_1 ?_ _ _ ?_) | intro _ | (simp only [kept_lit]) | (with_reducible apply kept_parts)
    | (with_reducible refine kept_ite ?_ ?_) | (dsimp only [id_eq]) | split

theorem runStep_kept (k : ℕ) (f : State → State) (s : State) (hf : ∀ s, Kept C M s → Kept C M (f s)) (h : Kept C M s) : ∃ t, runStep k f s = .next t ∧ Kept C M t := by
  unfold runStep
  refine ⟨_, rfl, ?_⟩
  (try dsimp only)
  repeat' first
    | (with_reducible assumption) | (with_reducible apply hf) | (with_reducible apply begin__kept)
    | (with_reducible refine kept_fold ?_ _ _ ?_) | (with_reducible refine kept_fold_2 ?_ _ _ ?_)
    | (with_reducible refine kept_fold_1 ?_ _ _ ?_) | intro _ | (simp only [kept_lit]) | (with_reducible apply kept_parts)
    | (with_reducible refine kept_ite ?_ ?_) | (dsimp only [id_eq]) | split

theorem toStep_kept (s : State) (k : ℕ) (h : Kept C M s) : Kept C M (toStep s k) := by
  unfold toStep
  (try dsimp only)
  repeat' first
    | (with_reducible assumption) | (with_reducible refine kept_fold ?_ _ _ ?_)
    | (with_reducible refine kept_fold_2 ?_ _ _ ?_) | (with_reducible refine kept_fold_1 ?_ _ _ ?_) | intro _
    | (simp only [kept_lit]) | (with_reducible apply kept_parts) | (with_reducible refine kept_ite ?_ ?_)
    | (dsimp only [id_eq]) | split

theorem stepFailed_kept (s : State) (k : ℕ) (h : Kept C M s) : Kept C M (stepFailed s k) := by
  unfold stepFailed
  (try dsimp only)
  repeat' first
    | (with_reducible assumption) | (with_reducible refine kept_fold ?_ _ _ ?_)
    | (with_reducible refine kept_fold_2 ?_ _ _ ?_) | (with_reducible refine kept_fold_1 ?_ _ _ ?_) | intro _
    | (simp only [kept_lit]) | (with_reducible apply kept_parts) | (with_reducible refine kept_ite ?_ ?_)
    | (dsimp only [id_eq]) | split

theorem haltAt_kept (s : State) (k : ℕ) (h : Kept C M s) : Kept C M (haltAt s k) := by
  unfold haltAt
  (try dsimp only)
  repeat' first
    | (with_reducible assumption) | (with_reducible apply stepFailed_kept) | (with_reducible apply lanesFollow_kept)
    | (with_reducible refine kept_fold ?_ _ _ ?_) | (with_reducible refine kept_fold_2 ?_ _ _ ?_)
    | (with_reducible refine kept_fold_1 ?_ _ _ ?_) | intro _ | (simp only [kept_lit]) | (with_reducible apply kept_parts)
    | (with_reducible refine kept_ite ?_ ?_) | (dsimp only [id_eq]) | split

theorem spillRail_kept (s : State) (h : Kept C M s) : Kept C M (spillRail s) := by
  unfold spillRail
  (try dsimp only)
  repeat' first
    | (with_reducible assumption) | (with_reducible apply railOff_kept) | (with_reducible apply orReg_kept)
    | (with_reducible apply railNext_kept) | (with_reducible refine kept_fold ?_ _ _ ?_)
    | (with_reducible refine kept_fold_2 ?_ _ _ ?_) | (with_reducible refine kept_fold_1 ?_ _ _ ?_) | intro _
    | (simp only [kept_lit]) | (with_reducible apply kept_parts) | (with_reducible refine kept_ite ?_ ?_)
    | (dsimp only [id_eq]) | split

theorem sampleStraps_kept (s : State) (straps : BitVec 4) (rbiasOk : Bool) (h : Kept C M s) : Kept C M (sampleStraps s straps rbiasOk) := by
  unfold sampleStraps
  (try dsimp only)
  repeat' first
    | (with_reducible assumption) | (with_reducible apply wr_kept) | (with_reducible apply orReg_kept)
    | (with_reducible apply spillRail_kept) | (with_reducible apply setFld_kept) | (with_reducible refine kept_fold ?_ _ _ ?_)
    | (with_reducible refine kept_fold_2 ?_ _ _ ?_) | (with_reducible refine kept_fold_1 ?_ _ _ ?_) | intro _
    | (simp only [kept_lit]) | (with_reducible apply kept_parts) | (with_reducible refine kept_ite ?_ ?_)
    | (dsimp only [id_eq]) | split

theorem execStartupPg_kept (straps : BitVec 4) (pllLocked : Bool) (rbiasOk : Bool) (s : State) (h : Kept C M s) : ∃ t, execStartupPg straps pllLocked rbiasOk s = .next t ∧ Kept C M t := by
  unfold execStartupPg
  refine ⟨_, rfl, ?_⟩
  (try dsimp only)
  repeat' first
    | (with_reducible assumption) | (with_reducible apply runStep_kept) | (with_reducible apply sampleStraps_kept)
    | (with_reducible apply toStep_kept) | (with_reducible apply haltAt_kept) | (with_reducible refine kept_fold ?_ _ _ ?_)
    | (with_reducible refine kept_fold_2 ?_ _ _ ?_) | (with_reducible refine kept_fold_1 ?_ _ _ ?_) | intro _
    | (simp only [kept_lit]) | (with_reducible apply kept_parts) | (with_reducible apply begin__kept)
    | (with_reducible refine kept_ite ?_ ?_) | (dsimp only [id_eq]) | split

theorem setFuseFlags_kept (s : State) (marg : ℕ → Bool) (inv : ℕ → Bool) (h : Kept C M s) : Kept C M (setFuseFlags s marg inv) := by
  unfold setFuseFlags
  (try dsimp only)
  repeat' first
    | (with_reducible assumption) | (with_reducible apply wr_kept) | (with_reducible refine kept_fold ?_ _ _ ?_)
    | (with_reducible refine kept_fold_2 ?_ _ _ ?_) | (with_reducible refine kept_fold_1 ?_ _ _ ?_) | intro _
    | (simp only [kept_lit]) | (with_reducible apply kept_parts) | (with_reducible refine kept_ite ?_ ?_)
    | (dsimp only [id_eq]) | split

theorem showFuses_kept (s : State) (h : Kept C M s) : Kept C M (showFuses s) := by
  unfold showFuses
  (try dsimp only)
  repeat' first
    | (with_reducible assumption) | (with_reducible apply wr_kept) | (with_reducible refine kept_fold ?_ _ _ ?_)
    | (with_reducible refine kept_fold_2 ?_ _ _ ?_) | (with_reducible refine kept_fold_1 ?_ _ _ ?_) | intro _
    | (simp only [kept_lit]) | (with_reducible apply kept_parts) | (with_reducible refine kept_ite ?_ ?_)
    | (dsimp only [id_eq]) | split

theorem governFuses_kept (s : State) (h : Kept C M s) : Kept C M (governFuses s) := by
  unfold governFuses
  (try dsimp only)
  repeat' first
    | (with_reducible assumption) | (with_reducible refine kept_fold ?_ _ _ ?_)
    | (with_reducible refine kept_fold_2 ?_ _ _ ?_) | (with_reducible refine kept_fold_1 ?_ _ _ ?_) | intro _
    | (simp only [kept_lit]) | (with_reducible apply kept_parts) | (with_reducible refine kept_ite ?_ ?_)
    | (dsimp only [id_eq]) | split

theorem execStartupFuse_kept (reads : List FuseTriple) (temp : ℤ) (s : State) (h : Kept C M s) : ∃ t, execStartupFuse reads temp s = .next t ∧ Kept C M t := by
  unfold execStartupFuse
  refine ⟨_, rfl, ?_⟩
  (try dsimp only)
  repeat' first
    | (with_reducible assumption) | (with_reducible apply runStep_kept) | (with_reducible apply governFuses_kept)
    | (with_reducible apply showFuses_kept) | (with_reducible apply setFuseFlags_kept) | (with_reducible apply toStep_kept)
    | (with_reducible refine kept_fold ?_ _ _ ?_) | (with_reducible refine kept_fold_2 ?_ _ _ ?_)
    | (with_reducible refine kept_fold_1 ?_ _ _ ?_) | intro _ | (simp only [kept_lit]) | (with_reducible apply kept_parts)
    | (with_reducible apply begin__kept) | (with_reducible refine kept_ite ?_ ?_) | (dsimp only [id_eq]) | split

theorem execStartupSelftest_kept (firstOk : Bool) (secondOk : Bool) (s : State) (h : Kept C M s) : ∃ t, execStartupSelftest firstOk secondOk s = .next t ∧ Kept C M t := by
  unfold execStartupSelftest
  refine ⟨_, rfl, ?_⟩
  (try dsimp only)
  repeat' first
    | (with_reducible assumption) | (with_reducible apply runStep_kept) | (with_reducible apply haltAt_kept)
    | (with_reducible apply toStep_kept) | (with_reducible apply queueEntry_kept)
    | (with_reducible refine kept_fold ?_ _ _ ?_) | (with_reducible refine kept_fold_2 ?_ _ _ ?_)
    | (with_reducible refine kept_fold_1 ?_ _ _ ?_) | intro _ | (simp only [kept_lit]) | (with_reducible apply kept_parts)
    | (with_reducible apply begin__kept) | (with_reducible refine kept_ite ?_ ?_) | (dsimp only [id_eq]) | split

theorem rootMissing_kept (s : State) (h : Kept C M s) (hk : M.slots = none) : Kept C M (rootMissing s) := by
  unfold rootMissing
  (try dsimp only)
  repeat' first
    | (with_reducible assumption) | (with_reducible apply stepFailed_kept) | (with_reducible apply causeArises_kept)
    | (with_reducible refine kept_fold ?_ _ _ ?_) | (with_reducible refine kept_fold_2 ?_ _ _ ?_)
    | (with_reducible refine kept_fold_1 ?_ _ _ ?_) | intro _ | (simp only [kept_lit]) | (with_reducible apply kept_parts)
    | (with_reducible refine parts_slots ?_ hk _) | (with_reducible refine kept_ite ?_ ?_) | (dsimp only [id_eq]) | split

theorem execStartupRoot_kept (rootOk : Bool) (checkOk : Bool) (storeOk : Bool) (s : State) (h : Kept C M s) (hk : M.slots = none) : ∃ t, execStartupRoot rootOk checkOk storeOk s = .next t ∧ Kept C M t := by
  unfold execStartupRoot
  refine ⟨_, rfl, ?_⟩
  (try dsimp only)
  repeat' first
    | (with_reducible assumption) | (with_reducible apply runStep_kept) | (with_reducible apply rootMissing_kept)
    | (with_reducible apply tamperNow_kept) | (with_reducible apply deriveSlots_kept)
    | (with_reducible apply loadFuseKey_kept) | (with_reducible apply toStep_kept)
    | (with_reducible refine kept_fold ?_ _ _ ?_) | (with_reducible refine kept_fold_2 ?_ _ _ ?_)
    | (with_reducible refine kept_fold_1 ?_ _ _ ?_) | intro _ | (simp only [kept_lit]) | (with_reducible apply kept_parts)
    | (with_reducible refine parts_slots ?_ hk _) | (with_reducible apply begin__kept)
    | (with_reducible refine kept_ite ?_ ?_) | (dsimp only [id_eq]) | split

theorem runSlot_kept (s : State) (b : Bool) (fallback : Bool) (i : FwImage) (h : Kept C M s) : Kept C M (runSlot s b fallback i) := by
  unfold runSlot
  (try dsimp only)
  repeat' first
    | (with_reducible assumption) | (with_reducible refine kept_fold ?_ _ _ ?_)
    | (with_reducible refine kept_fold_2 ?_ _ _ ?_) | (with_reducible refine kept_fold_1 ?_ _ _ ?_) | intro _
    | (simp only [kept_lit]) | (with_reducible apply kept_parts) | (with_reducible refine kept_ite ?_ ?_)
    | (dsimp only [id_eq]) | split

theorem execStartupFw_kept (a : FwImage) (b : FwImage) (s : State) (h : Kept C M s) : ∃ t, execStartupFw a b s = .next t ∧ Kept C M t := by
  unfold execStartupFw
  refine ⟨_, rfl, ?_⟩
  (try dsimp only)
  repeat' first
    | (with_reducible assumption) | (with_reducible apply runStep_kept) | (with_reducible apply runSlot_kept)
    | (with_reducible apply causeArises_kept) | (with_reducible apply stepFailed_kept) | (with_reducible apply toStep_kept)
    | (with_reducible refine kept_fold ?_ _ _ ?_) | (with_reducible refine kept_fold_2 ?_ _ _ ?_)
    | (with_reducible refine kept_fold_1 ?_ _ _ ?_) | intro _ | (simp only [kept_lit]) | (with_reducible apply kept_parts)
    | (with_reducible apply begin__kept) | (with_reducible refine kept_ite ?_ ?_) | (dsimp only [id_eq]) | split

theorem execStartupLanes_kept (mapOk : Bool) (s : State) (h : Kept C M s) : ∃ t, execStartupLanes mapOk s = .next t ∧ Kept C M t := by
  unfold execStartupLanes
  refine ⟨_, rfl, ?_⟩
  (try dsimp only)
  repeat' first
    | (with_reducible assumption) | (with_reducible apply runStep_kept) | (with_reducible apply applyMap_kept)
    | (with_reducible apply applySafe_kept) | (with_reducible apply stepFailed_kept) | (with_reducible apply lanesFollow_kept)
    | (with_reducible apply toStep_kept) | (with_reducible apply startTrackers_kept)
    | (with_reducible refine kept_fold ?_ _ _ ?_) | (with_reducible refine kept_fold_2 ?_ _ _ ?_)
    | (with_reducible refine kept_fold_1 ?_ _ _ ?_) | intro _ | (simp only [kept_lit]) | (with_reducible apply kept_parts)
    | (with_reducible apply begin__kept) | (with_reducible refine kept_ite ?_ ?_) | (dsimp only [id_eq]) | split

theorem closeLost_kept (s : State) (role : ℕ) (h : Kept C M s) : Kept C M (closeLost s role) := by
  unfold closeLost
  (try dsimp only)
  repeat' first
    | (with_reducible assumption) | (with_reducible apply recordClose_kept) | (with_reducible apply queueEntry_kept)
    | (with_reducible refine kept_fold ?_ _ _ ?_) | (with_reducible refine kept_fold_2 ?_ _ _ ?_)
    | (with_reducible refine kept_fold_1 ?_ _ _ ?_) | intro _ | (simp only [kept_lit]) | (with_reducible apply kept_parts)
    | (with_reducible refine kept_ite ?_ ?_) | (dsimp only [id_eq]) | split

theorem voidTail_kept (s : State) (h : Kept C M s) : Kept C M (voidTail s) := by
  unfold voidTail
  (try dsimp only)
  repeat' first
    | (with_reducible assumption) | (with_reducible apply useSeq_kept) | (with_reducible refine kept_fold ?_ _ _ ?_)
    | (with_reducible refine kept_fold_2 ?_ _ _ ?_) | (with_reducible refine kept_fold_1 ?_ _ _ ?_) | intro _
    | (simp only [kept_lit]) | (with_reducible apply kept_parts) | (with_reducible refine kept_ite ?_ ?_)
    | (dsimp only [id_eq]) | split

theorem execStartupLedger_kept (chainBreak : Option ℕ) (tailDirty : Bool) (s : State) (h : Kept C M s) : ∃ t, execStartupLedger chainBreak tailDirty s = .next t ∧ Kept C M t := by
  unfold execStartupLedger
  refine ⟨_, rfl, ?_⟩
  (try dsimp only)
  repeat' first
    | (with_reducible assumption) | (with_reducible apply runStep_kept) | (with_reducible apply ledgerFault_kept)
    | (with_reducible apply stepFailed_kept) | (with_reducible apply voidTail_kept) | (with_reducible apply closeLost_kept)
    | (with_reducible apply boundaryCloses_kept) | (with_reducible apply commitAll_kept) | (with_reducible apply toStep_kept)
    | (with_reducible refine kept_fold ?_ _ _ ?_) | (with_reducible refine kept_fold_2 ?_ _ _ ?_)
    | (with_reducible refine kept_fold_1 ?_ _ _ ?_) | intro _ | (simp only [kept_lit]) | (with_reducible apply kept_parts)
    | (with_reducible apply begin__kept) | (with_reducible refine kept_ite ?_ ?_) | (dsimp only [id_eq]) | split

theorem laRestore_kept (s : State) (h : Kept C M s) : Kept C M (laRestore s) := by
  unfold laRestore
  (try dsimp only)
  repeat' first
    | (with_reducible assumption) | (with_reducible apply wri_kept) | (with_reducible refine kept_fold ?_ _ _ ?_)
    | (with_reducible refine kept_fold_2 ?_ _ _ ?_) | (with_reducible refine kept_fold_1 ?_ _ _ ?_) | intro _
    | (simp only [kept_lit]) | (with_reducible apply kept_parts) | (with_reducible refine kept_ite ?_ ?_)
    | (dsimp only [id_eq]) | split

theorem boltsResume_kept (s : State) (h : Kept C M s) : Kept C M (boltsResume s) := by
  unfold boltsResume
  (try dsimp only)
  repeat' first
    | (with_reducible assumption) | (with_reducible apply requestMove_kept) | (with_reducible refine kept_fold ?_ _ _ ?_)
    | (with_reducible refine kept_fold_2 ?_ _ _ ?_) | (with_reducible refine kept_fold_1 ?_ _ _ ?_) | intro _
    | (simp only [kept_lit]) | (with_reducible apply kept_parts) | (with_reducible refine kept_ite ?_ ?_)
    | (dsimp only [id_eq]) | split

theorem lanesSeed_kept (s : State) (h : Kept C M s) : Kept C M (lanesSeed s) := by
  unfold lanesSeed
  (try dsimp only)
  repeat' first
    | (with_reducible assumption) | (with_reducible apply draw_kept) | (with_reducible apply setLane_kept)
    | (with_reducible refine kept_fold ?_ _ _ ?_) | (with_reducible refine kept_fold_2 ?_ _ _ ?_)
    | (with_reducible refine kept_fold_1 ?_ _ _ ?_) | intro _ | (simp only [kept_lit]) | (with_reducible apply kept_parts)
    | (with_reducible refine kept_of_eq_2 ‹draw _ = _› (draw_kept _ ?_)) | (with_reducible refine kept_ite ?_ ?_)
    | (dsimp only [id_eq]) | split

theorem execStartupMode_kept (s : State) (h : Kept C M s) : ∃ t, execStartupMode s = .next t ∧ Kept C M t := by
  unfold execStartupMode
  refine ⟨_, rfl, ?_⟩
  (try dsimp only)
  repeat' first
    | (with_reducible assumption) | (with_reducible apply runStep_kept) | (with_reducible apply laRestore_kept)
    | (with_reducible apply domsFollow_kept) | (with_reducible apply modeCore_kept) | (with_reducible apply setImmob_kept)
    | (with_reducible apply quarantine_kept) | (with_reducible apply draw_kept) | (with_reducible apply smpInit_kept)
    | (with_reducible apply lanesSeed_kept) | (with_reducible apply boltsResume_kept)
    | (with_reducible refine kept_fold ?_ _ _ ?_) | (with_reducible refine kept_fold_2 ?_ _ _ ?_)
    | (with_reducible refine kept_fold_1 ?_ _ _ ?_) | intro _ | (simp only [kept_lit]) | (with_reducible apply kept_parts)
    | (with_reducible refine kept_of_eq_2 ‹draw _ = _› (draw_kept _ ?_)) | (with_reducible apply begin__kept)
    | (with_reducible refine kept_ite ?_ ?_) | (dsimp only [id_eq]) | split

theorem execFuseRecheck_kept (reads : List FuseTriple) (temp : ℤ) (s : State) (h : Kept C M s) : ∃ t, execFuseRecheck reads temp s = .next t ∧ Kept C M t := by
  unfold execFuseRecheck
  refine ⟨_, rfl, ?_⟩
  (try dsimp only)
  repeat' first
    | (with_reducible assumption) | (with_reducible apply whenRunning_kept) | (with_reducible apply begin__kept)
    | (with_reducible apply showFuses_kept) | (with_reducible apply setFuseFlags_kept) | (with_reducible apply orReg_kept)
    | (with_reducible apply queueEntry_kept) | (with_reducible apply raise_kept) | (with_reducible refine kept_fold ?_ _ _ ?_)
    | (with_reducible refine kept_fold_2 ?_ _ _ ?_) | (with_reducible refine kept_fold_1 ?_ _ _ ?_) | intro _
    | (simp only [kept_lit]) | (with_reducible apply kept_parts) | (with_reducible refine kept_ite ?_ ?_)
    | (dsimp only [id_eq]) | split

end Sys2Proof.Machine
end

