-- ==== Sys2Proof/Laws/KeepSystem.lean ====
section
/-! SUPPORT. What the operations of `System` leave alone. -/

namespace Sys2Proof.Machine

set_option linter.unusedTactic false
set_option linter.unreachableTactic false
set_option linter.unusedSimpArgs false

variable {C : Prop} {M : Mark}

theorem Plan.hostDenied_planKept (r : Reason) (a : Nat) (write : Bool) : PlanKept C M (Plan.hostDenied r a write) := by
  unfold Plan.hostDenied
  refine plan_mk ?_
  intro s h
  exact refuse_kept _ _ _ _ _ h

theorem fillSlot_kept (s : State) (b : Bool) (img : FwImage) (h : Kept C M s) : Kept C M (fillSlot s b img) := by
  unfold fillSlot
  (try dsimp only)
  repeat' first
    | (with_reducible assumption) | (with_reducible refine kept_fold ?_ _ _ ?_)
    | (with_reducible refine kept_fold_2 ?_ _ _ ?_) | (with_reducible refine kept_fold_1 ?_ _ _ ?_) | intro _
    | (simp only [kept_lit]) | (with_reducible apply kept_parts) | (with_reducible refine kept_ite ?_ ?_)
    | (dsimp only [id_eq]) | split

theorem spoilSlot_kept (s : State) (b : Bool) (img : FwImage) (h : Kept C M s) : Kept C M (spoilSlot s b img) := by
  unfold spoilSlot
  (try dsimp only)
  repeat' first
    | (with_reducible assumption) | (with_reducible apply draw_kept) | (with_reducible apply fillSlot_kept)
    | (with_reducible refine kept_fold ?_ _ _ ?_) | (with_reducible refine kept_fold_2 ?_ _ _ ?_)
    | (with_reducible refine kept_fold_1 ?_ _ _ ?_) | intro _ | (simp only [kept_lit]) | (with_reducible apply kept_parts)
    | (with_reducible refine kept_of_eq_2 ‹draw _ = _› (draw_kept _ ?_)) | (with_reducible refine kept_ite ?_ ?_)
    | (dsimp only [id_eq]) | split

theorem execFwLoad_kept (r : Req) (buf : BitVec 64) (len : Word) (img : FwImage) (readOk : Bool) (s : State) (h : Kept C M s) : ∃ t, execFwLoad r buf len img readOk s = .next t ∧ Kept C M t := by
  unfold execFwLoad
  refine ⟨_, rfl, ?_⟩
  (try dsimp only)
  repeat' first
    | (with_reducible assumption) | (with_reducible apply dispatch_kept) | (with_reducible apply fillSlot_kept)
    | (with_reducible apply Plan.hostDenied_planKept) | (with_reducible apply spoilSlot_kept)
    | (with_reducible apply plan_fail) | (with_reducible apply plan_read) | (with_reducible apply plan_noRoom)
    | (with_reducible refine plan_do ?_) | (with_reducible refine plan_doBytes ?_)
    | (with_reducible refine kept_fold ?_ _ _ ?_) | (with_reducible refine kept_fold_2 ?_ _ _ ?_)
    | (with_reducible refine kept_fold_1 ?_ _ _ ?_) | intro _ | (simp only [kept_lit]) | (with_reducible apply kept_parts)
    | (with_reducible apply begin__kept) | (with_reducible refine kept_ite ?_ ?_) | (dsimp only [id_eq]) | split
    | (with_reducible refine plan_mk ?_)

theorem burn_kept (s : State) (k : ℕ) (w : Word) (h : Kept C M s) : Kept C M (burn s k w) := by
  unfold burn
  (try dsimp only)
  repeat' first
    | (with_reducible assumption) | (with_reducible apply showFuses_kept) | (with_reducible refine kept_fold ?_ _ _ ?_)
    | (with_reducible refine kept_fold_2 ?_ _ _ ?_) | (with_reducible refine kept_fold_1 ?_ _ _ ?_) | intro _
    | (simp only [kept_lit]) | (with_reducible apply kept_parts) | (with_reducible refine kept_ite ?_ ?_)
    | (dsimp only [id_eq]) | split

theorem selectRunning_kept (s : State) (h : Kept C M s) : Kept C M (selectRunning s) := by
  unfold selectRunning
  (try dsimp only)
  repeat' first
    | (with_reducible assumption) | (with_reducible refine kept_fold ?_ _ _ ?_)
    | (with_reducible refine kept_fold_2 ?_ _ _ ?_) | (with_reducible refine kept_fold_1 ?_ _ _ ?_) | intro _
    | (simp only [kept_lit]) | (with_reducible apply kept_parts) | (with_reducible refine kept_ite ?_ ?_)
    | (dsimp only [id_eq]) | split

theorem execFwCommit_kept (r : Req) (s : State) (h : Kept C M s) : ∃ t, execFwCommit r s = .next t ∧ Kept C M t := by
  unfold execFwCommit
  refine ⟨_, rfl, ?_⟩
  (try dsimp only)
  repeat' first
    | (with_reducible assumption) | (with_reducible apply dispatch_kept) | (with_reducible apply selectRunning_kept)
    | (with_reducible apply burn_kept) | (with_reducible apply monoFinal_kept) | (with_reducible apply plan_fail)
    | (with_reducible apply plan_read) | (with_reducible apply plan_noRoom) | (with_reducible refine plan_do ?_)
    | (with_reducible refine plan_doBytes ?_) | (with_reducible refine kept_fold ?_ _ _ ?_)
    | (with_reducible refine kept_fold_2 ?_ _ _ ?_) | (with_reducible refine kept_fold_1 ?_ _ _ ?_) | intro _
    | (simp only [kept_lit]) | (with_reducible apply kept_parts) | (with_reducible apply begin__kept)
    | (with_reducible refine kept_ite ?_ ?_) | (dsimp only [id_eq]) | split | (with_reducible refine plan_mk ?_)

theorem execSysReset_kept (r : Req) (kind : BitVec 8) (s : State) (h : Kept C M s) : ∃ t, execSysReset r kind s = .next t ∧ Kept C M t := by
  unfold execSysReset
  refine ⟨_, rfl, ?_⟩
  (try dsimp only)
  repeat' first
    | (with_reducible assumption) | (with_reducible apply dispatch_kept) | (with_reducible apply warmCore_kept)
    | (with_reducible apply plan_fail) | (with_reducible apply plan_read) | (with_reducible apply plan_noRoom)
    | (with_reducible refine plan_do ?_) | (with_reducible refine plan_doBytes ?_)
    | (with_reducible refine kept_fold ?_ _ _ ?_) | (with_reducible refine kept_fold_2 ?_ _ _ ?_)
    | (with_reducible refine kept_fold_1 ?_ _ _ ?_) | intro _ | (simp only [kept_lit]) | (with_reducible apply kept_parts)
    | (with_reducible apply begin__kept) | (with_reducible refine kept_ite ?_ ?_) | (dsimp only [id_eq]) | split
    | (with_reducible refine plan_mk ?_)

theorem execSysResetDeadline_kept (s : State) (h : Kept C M s) : ∃ t, execSysResetDeadline s = .next t ∧ Kept C M t := by
  unfold execSysResetDeadline
  refine ⟨_, rfl, ?_⟩
  (try dsimp only)
  repeat' first
    | (with_reducible assumption) | (with_reducible apply whenRunning_kept) | (with_reducible apply begin__kept)
    | (with_reducible apply warmCore_kept) | (with_reducible refine kept_fold ?_ _ _ ?_)
    | (with_reducible refine kept_fold_2 ?_ _ _ ?_) | (with_reducible refine kept_fold_1 ?_ _ _ ?_) | intro _
    | (simp only [kept_lit]) | (with_reducible apply kept_parts) | (with_reducible refine kept_ite ?_ ?_)
    | (dsimp only [id_eq]) | split

theorem commitMakerKey_kept (s : State) (h : Kept C M s) (hk : M.slots = none) : Kept C M (commitMakerKey s) := by
  unfold commitMakerKey
  (try dsimp only)
  repeat' first
    | (with_reducible assumption) | (with_reducible apply setSlot_kept) | (with_reducible apply storeRecordOf_kept) | (with_reducible refine kept_fold ?_ _ _ ?_)
    | (with_reducible refine kept_fold_2 ?_ _ _ ?_) | (with_reducible refine kept_fold_1 ?_ _ _ ?_) | intro _
    | (simp only [kept_lit]) | (with_reducible apply kept_parts) | (with_reducible refine parts_slots ?_ hk _)
    | (with_reducible refine kept_ite ?_ ?_) | (dsimp only [id_eq]) | split

theorem execLifecycleAdvance_kept (r : Req) (target : BitVec 8) (s : State) (h : Kept C M s) (hk : M.slots = none) : ∃ t, execLifecycleAdvance r target s = .next t ∧ Kept C M t := by
  unfold execLifecycleAdvance
  refine ⟨_, rfl, ?_⟩
  (try dsimp only)
  repeat' first
    | (with_reducible assumption) | (with_reducible apply dispatch_kept) | (with_reducible apply burn_kept)
    | (with_reducible apply commitMakerKey_kept) | (with_reducible apply plan_fail) | (with_reducible apply plan_read)
    | (with_reducible apply plan_noRoom) | (with_reducible refine plan_do ?_) | (with_reducible refine plan_doBytes ?_)
    | (with_reducible refine kept_fold ?_ _ _ ?_) | (with_reducible refine kept_fold_2 ?_ _ _ ?_)
    | (with_reducible refine kept_fold_1 ?_ _ _ ?_) | intro _ | (simp only [kept_lit]) | (with_reducible apply kept_parts)
    | (with_reducible refine parts_slots ?_ hk _) | (with_reducible apply begin__kept)
    | (with_reducible refine kept_ite ?_ ?_) | (dsimp only [id_eq]) | split | (with_reducible refine plan_mk ?_)

theorem mapPlan_planKept (s : State) (len : ℕ) (m : List Cfg) (formOk : Bool) (h : Kept C M s) (hm : M.map = none) : PlanKept C M (mapPlan s len m formOk) := by
  unfold mapPlan
  (try dsimp only)
  repeat' first
    | (with_reducible assumption) | (with_reducible apply commitChange_kept) | (with_reducible apply setMap_kept)
    | (with_reducible apply draw_kept) | (with_reducible apply schedule_kept) | (with_reducible apply plan_fail)
    | (with_reducible apply plan_read) | (with_reducible apply plan_noRoom) | (with_reducible refine plan_do ?_)
    | (with_reducible refine plan_doBytes ?_) | (with_reducible refine kept_fold ?_ _ _ ?_)
    | (with_reducible refine kept_fold_2 ?_ _ _ ?_) | (with_reducible refine kept_fold_1 ?_ _ _ ?_) | intro _
    | (simp only [kept_lit]) | (with_reducible apply kept_parts) | (with_reducible refine parts_map ?_ hm _)
    | (with_reducible refine kept_of_eq_2 ‹draw _ = _› (draw_kept _ ?_)) | (with_reducible refine kept_ite ?_ ?_)
    | (dsimp only [id_eq]) | split | (with_reducible refine plan_mk ?_)

theorem execMapLoad_kept (r : Req) (buf : BitVec 64) (len : Word) (m : List Cfg) (formOk : Bool) (readOk : Bool) (s : State) (h : Kept C M s) (hm : M.map = none) : ∃ t, execMapLoad r buf len m formOk readOk s = .next t ∧ Kept C M t := by
  unfold execMapLoad
  refine ⟨_, rfl, ?_⟩
  (try dsimp only)
  repeat' first
    | (with_reducible assumption) | (with_reducible apply dispatch_kept) | (with_reducible apply Plan.hostDenied_planKept)
    | (with_reducible apply mapPlan_planKept) | (with_reducible apply plan_fail) | (with_reducible apply plan_read)
    | (with_reducible apply plan_noRoom) | (with_reducible refine plan_do ?_) | (with_reducible refine plan_doBytes ?_)
    | (with_reducible refine kept_fold ?_ _ _ ?_) | (with_reducible refine kept_fold_2 ?_ _ _ ?_)
    | (with_reducible refine kept_fold_1 ?_ _ _ ?_) | intro _ | (simp only [kept_lit]) | (with_reducible apply kept_parts)
    | (with_reducible refine parts_map ?_ hm _) | (with_reducible apply begin__kept) | (with_reducible refine kept_ite ?_ ?_)
    | (dsimp only [id_eq]) | split | (with_reducible refine plan_mk ?_)

theorem execMapRead_kept (r : Req) (buf : BitVec 64) (len : Word) (s : State) (h : Kept C M s) : ∃ t, execMapRead r buf len s = .next t ∧ Kept C M t := by
  unfold execMapRead
  refine ⟨_, rfl, ?_⟩
  (try dsimp only)
  repeat' first
    | (with_reducible assumption) | (with_reducible apply dispatch_kept) | (with_reducible apply Plan.hostDenied_planKept)
    | (with_reducible apply dmaWrite_kept) | (with_reducible apply plan_fail) | (with_reducible apply plan_read)
    | (with_reducible apply plan_noRoom) | (with_reducible refine plan_do ?_) | (with_reducible refine plan_doBytes ?_)
    | (with_reducible refine kept_fold ?_ _ _ ?_) | (with_reducible refine kept_fold_2 ?_ _ _ ?_)
    | (with_reducible refine kept_fold_1 ?_ _ _ ?_) | intro _ | (simp only [kept_lit]) | (with_reducible apply kept_parts)
    | (with_reducible refine kept_of_eq_2 ‹dmaWrite _ _ _ = _› (dmaWrite_kept _ _ _ ?_)) | (with_reducible apply begin__kept)
    | (with_reducible refine kept_ite ?_ ?_) | (dsimp only [id_eq]) | split | (with_reducible refine plan_mk ?_)

end Sys2Proof.Machine
end

