-- ==== Sys2Proof/Laws/KeepBackground.lean ====
section
/-! SUPPORT. What the operations of `Background` leave alone. -/

namespace Sys2Proof.Machine

set_option linter.unusedTactic false
set_option linter.unreachableTactic false
set_option linter.unusedSimpArgs false

variable {C : Prop} {M : Mark}

theorem scrubOn_kept (s : State) (n : ℕ) (h : Kept C M s) : Kept C M (scrubOn s n) := by
  unfold scrubOn
  (try dsimp only)
  repeat' first
    | (with_reducible assumption) | (with_reducible apply statAddI_kept) | (with_reducible refine kept_fold ?_ _ _ ?_)
    | (with_reducible refine kept_fold_2 ?_ _ _ ?_) | (with_reducible refine kept_fold_1 ?_ _ _ ?_) | intro _
    | (simp only [kept_lit]) | (with_reducible apply kept_parts) | (with_reducible refine kept_ite ?_ ?_)
    | (dsimp only [id_eq]) | split

theorem spoilFrame_kept (s : State) (h0 : ℕ) (cells : ℕ) (h : Kept C M s) : Kept C M (spoilFrame s h0 cells) := by
  unfold spoilFrame
  (try dsimp only)
  repeat' first
    | (with_reducible assumption) | (with_reducible apply setFrame_kept) | (with_reducible refine kept_fold ?_ _ _ ?_)
    | (with_reducible refine kept_fold_2 ?_ _ _ ?_) | (with_reducible refine kept_fold_1 ?_ _ _ ?_) | intro _
    | (simp only [kept_lit]) | (with_reducible apply kept_parts) | (with_reducible refine kept_ite ?_ ?_)
    | (dsimp only [id_eq]) | split

theorem cellLost_kept (s : State) (h0 : Option ℕ) (k : ℕ) (h : Kept C M s) : Kept C M (cellLost s h0 k) := by
  unfold cellLost
  (try dsimp only)
  repeat' first
    | (with_reducible assumption) | (with_reducible apply statInc_kept) | (with_reducible apply spoilFrame_kept)
    | (with_reducible refine kept_fold ?_ _ _ ?_) | (with_reducible refine kept_fold_2 ?_ _ _ ?_)
    | (with_reducible refine kept_fold_1 ?_ _ _ ?_) | intro _ | (simp only [kept_lit]) | (with_reducible apply kept_parts)
    | (with_reducible refine kept_ite ?_ ?_) | (dsimp only [id_eq]) | split

theorem entryLost_kept (s : State) (table : ℕ) (pipe : ℕ) (place : ℕ) (h : Kept C M s) : Kept C M (entryLost s table pipe place) := by
  unfold entryLost
  (try dsimp only)
  repeat' first
    | (with_reducible assumption) | (with_reducible apply hSet_kept) | (with_reducible apply pipeDelete_kept)
    | (with_reducible apply widePut_kept) | (with_reducible refine kept_fold ?_ _ _ ?_)
    | (with_reducible refine kept_fold_2 ?_ _ _ ?_) | (with_reducible refine kept_fold_1 ?_ _ _ ?_) | intro _
    | (simp only [kept_lit]) | (with_reducible apply kept_parts)
    | (with_reducible refine kept_of_eq_2 ‹pipeDelete _ _ _ _ _ = _› (pipeDelete_kept _ _ _ _ _ ?_))
    | (with_reducible refine kept_ite ?_ ?_) | (dsimp only [id_eq]) | split

theorem ctxLost_kept (s : State) (str : ℕ) (e : ℕ) (h : Kept C M s) : Kept C M (ctxLost s str e) := by
  unfold ctxLost
  (try dsimp only)
  repeat' first
    | (with_reducible assumption) | (with_reducible apply releaseRef_kept) | (with_reducible apply setCtx_kept)
    | (with_reducible refine kept_fold ?_ _ _ ?_) | (with_reducible refine kept_fold_2 ?_ _ _ ?_)
    | (with_reducible refine kept_fold_1 ?_ _ _ ?_) | intro _ | (simp only [kept_lit]) | (with_reducible apply kept_parts)
    | (with_reducible refine kept_ite ?_ ?_) | (dsimp only [id_eq]) | split

theorem pageLost_kept (s : State) (p : ℕ) (h : Kept C M s) : Kept C M (pageLost s p) := by
  unfold pageLost
  (try dsimp only)
  repeat' first
    | (with_reducible assumption) | (with_reducible refine kept_fold ?_ _ _ ?_)
    | (with_reducible refine kept_fold_2 ?_ _ _ ?_) | (with_reducible refine kept_fold_1 ?_ _ _ ?_) | intro _
    | (simp only [kept_lit]) | (with_reducible apply kept_parts) | (with_reducible refine kept_ite ?_ ?_)
    | (dsimp only [id_eq]) | split

theorem wordLost_kept (s : State) (a1 : UeWord) (h : Kept C M s) : Kept C M (wordLost s a1) := by
  unfold wordLost
  (try dsimp only)
  repeat' first
    | (with_reducible assumption) | (with_reducible apply spoilFrame_kept) | (with_reducible apply cellLost_kept)
    | (with_reducible apply warmCore_kept) | (with_reducible apply entryLost_kept) | (with_reducible apply polStart_kept)
    | (with_reducible apply setFldi_kept) | (with_reducible apply setEgr_kept) | (with_reducible apply ctxLost_kept)
    | (with_reducible apply pageLost_kept) | (with_reducible refine kept_fold ?_ _ _ ?_)
    | (with_reducible refine kept_fold_2 ?_ _ _ ?_) | (with_reducible refine kept_fold_1 ?_ _ _ ?_) | intro _
    | (simp only [kept_lit]) | (with_reducible apply kept_parts) | (with_reducible refine kept_ite ?_ ?_)
    | (dsimp only [id_eq]) | split

theorem scrubErr_kept (s : State) (a1 : ScrubErr) (h : Kept C M s) : Kept C M (scrubErr s a1) := by
  unfold scrubErr
  (try dsimp only)
  repeat' first
    | (with_reducible assumption) | (with_reducible apply raise_kept) | (with_reducible apply statInc_kept)
    | (with_reducible apply wr_kept) | (with_reducible apply wordLost_kept) | (with_reducible refine kept_fold ?_ _ _ ?_)
    | (with_reducible refine kept_fold_2 ?_ _ _ ?_) | (with_reducible refine kept_fold_1 ?_ _ _ ?_) | intro _
    | (simp only [kept_lit]) | (with_reducible apply kept_parts) | (with_reducible refine kept_ite ?_ ?_)
    | (dsimp only [id_eq]) | split

theorem calFail_kept (s : State) (h : Kept C M s) : Kept C M (calFail s) := by
  unfold calFail
  (try dsimp only)
  repeat' first
    | (with_reducible assumption) | (with_reducible apply raise_kept) | (with_reducible apply statInc_kept)
    | (with_reducible refine kept_fold ?_ _ _ ?_) | (with_reducible refine kept_fold_2 ?_ _ _ ?_)
    | (with_reducible refine kept_fold_1 ?_ _ _ ?_) | intro _ | (simp only [kept_lit]) | (with_reducible apply kept_parts)
    | (with_reducible refine kept_ite ?_ ?_) | (dsimp only [id_eq]) | split

theorem calRounds_kept (s : State) (h : Kept C M s) : Kept C M (calRounds s) := by
  unfold calRounds
  (try dsimp only)
  repeat' first
    | (with_reducible assumption) | (with_reducible refine kept_fold ?_ _ _ ?_)
    | (with_reducible refine kept_fold_2 ?_ _ _ ?_) | (with_reducible refine kept_fold_1 ?_ _ _ ?_) | intro _
    | (simp only [kept_lit]) | (with_reducible apply kept_parts) | (with_reducible refine kept_ite ?_ ?_)
    | (dsimp only [id_eq]) | split

theorem laneCal_kept (s : State) (ok : Bool) (h : Kept C M s) : Kept C M (laneCal s ok) := by
  unfold laneCal
  (try dsimp only)
  repeat' first
    | (with_reducible assumption) | (with_reducible apply calFail_kept) | (with_reducible refine kept_fold ?_ _ _ ?_)
    | (with_reducible refine kept_fold_2 ?_ _ _ ?_) | (with_reducible refine kept_fold_1 ?_ _ _ ?_) | intro _
    | (simp only [kept_lit]) | (with_reducible apply kept_parts) | (with_reducible refine kept_ite ?_ ?_)
    | (dsimp only [id_eq]) | split

theorem adcCal_kept (s : State) (ok : Bool) (h : Kept C M s) : Kept C M (adcCal s ok) := by
  unfold adcCal
  (try dsimp only)
  repeat' first
    | (with_reducible assumption) | (with_reducible apply calFail_kept) | (with_reducible refine kept_fold ?_ _ _ ?_)
    | (with_reducible refine kept_fold_2 ?_ _ _ ?_) | (with_reducible refine kept_fold_1 ?_ _ _ ?_) | intro _
    | (simp only [kept_lit]) | (with_reducible apply kept_parts) | (with_reducible refine kept_ite ?_ ?_)
    | (dsimp only [id_eq]) | split

theorem sectorErase_kept (s : State) (h : Kept C M s) : Kept C M (sectorErase s) := by
  unfold sectorErase
  (try dsimp only)
  repeat' first
    | (with_reducible assumption) | (with_reducible refine kept_fold ?_ _ _ ?_)
    | (with_reducible refine kept_fold_2 ?_ _ _ ?_) | (with_reducible refine kept_fold_1 ?_ _ _ ?_) | intro _
    | (simp only [kept_lit]) | (with_reducible apply kept_parts) | (with_reducible refine kept_ite ?_ ?_)
    | (dsimp only [id_eq]) | split

theorem wearStep_kept (s : State) (a1 : WearEvt) (h : Kept C M s) : Kept C M (wearStep s a1) := by
  unfold wearStep
  (try dsimp only)
  repeat' first
    | (with_reducible assumption) | (with_reducible apply sectorErase_kept) | (with_reducible apply statInc_kept)
    | (with_reducible refine kept_fold ?_ _ _ ?_) | (with_reducible refine kept_fold_2 ?_ _ _ ?_)
    | (with_reducible refine kept_fold_1 ?_ _ _ ?_) | intro _ | (simp only [kept_lit]) | (with_reducible apply kept_parts)
    | (with_reducible refine kept_ite ?_ ?_) | (dsimp only [id_eq]) | split

theorem chainStep_kept (s : State) (brk : Option ℕ) (h : Kept C M s) : Kept C M (chainStep s brk) := by
  unfold chainStep
  (try dsimp only)
  repeat' first
    | (with_reducible assumption) | (with_reducible apply ledgerFault_kept) | (with_reducible refine kept_fold ?_ _ _ ?_)
    | (with_reducible refine kept_fold_2 ?_ _ _ ?_) | (with_reducible refine kept_fold_1 ?_ _ _ ?_) | intro _
    | (simp only [kept_lit]) | (with_reducible apply kept_parts) | (with_reducible refine kept_ite ?_ ?_)
    | (dsimp only [id_eq]) | split

theorem execBgsWindowStart_kept (work : BgsWork) (s : State) (h : Kept C M s) : ∃ t, execBgsWindowStart work s = .next t ∧ Kept C M t := by
  unfold execBgsWindowStart
  refine ⟨_, rfl, ?_⟩
  (try dsimp only)
  repeat' first
    | (with_reducible assumption) | (with_reducible apply whenRunning_kept) | (with_reducible apply begin__kept)
    | (with_reducible apply scrubErr_kept) | (with_reducible apply scrubOn_kept) | (with_reducible apply calRounds_kept)
    | (with_reducible apply laneCal_kept) | (with_reducible apply adcCal_kept) | (with_reducible apply wearStep_kept)
    | (with_reducible apply chainStep_kept) | (with_reducible refine kept_fold ?_ _ _ ?_)
    | (with_reducible refine kept_fold_2 ?_ _ _ ?_) | (with_reducible refine kept_fold_1 ?_ _ _ ?_) | intro _
    | (simp only [kept_lit]) | (with_reducible apply kept_parts) | (with_reducible refine kept_ite ?_ ?_)
    | (dsimp only [id_eq]) | split

theorem execTelemRecord_kept (s : State) (h : Kept C M s) : ∃ t, execTelemRecord s = .next t ∧ Kept C M t := by
  unfold execTelemRecord
  refine ⟨_, rfl, ?_⟩
  (try dsimp only)
  repeat' first
    | (with_reducible assumption) | (with_reducible apply whenRunning_kept) | (with_reducible apply begin__kept)
    | (with_reducible apply raise_kept) | (with_reducible apply statInc_kept) | (with_reducible refine kept_fold ?_ _ _ ?_)
    | (with_reducible refine kept_fold_2 ?_ _ _ ?_) | (with_reducible refine kept_fold_1 ?_ _ _ ?_) | intro _
    | (simp only [kept_lit]) | (with_reducible apply kept_parts) | (with_reducible refine kept_ite ?_ ?_)
    | (dsimp only [id_eq]) | split

theorem execTelemRead_kept (r : Req) (buf : BitVec 64) (s : State) (h : Kept C M s) : ∃ t, execTelemRead r buf s = .next t ∧ Kept C M t := by
  unfold execTelemRead
  refine ⟨_, rfl, ?_⟩
  (try dsimp only)
  repeat' first
    | (with_reducible assumption) | (with_reducible apply dispatch_kept) | (with_reducible apply Plan.hostDenied_planKept)
    | (with_reducible apply dmaWrite_kept) | (with_reducible apply plan_fail) | (with_reducible apply plan_read)
    | (with_reducible apply plan_noRoom) | (with_reducible refine plan_do ?_) | (with_reducible refine plan_doBytes ?_)
    | (with_reducible refine kept_fold ?_ _ _ ?_) | (with_reducible refine kept_fold_2 ?_ _ _ ?_)
    | (with_reducible refine kept_fold_1 ?_ _ _ ?_) | intro _ | (simp only [kept_lit]) | (with_reducible apply kept_parts)
    | (with_reducible refine kept_of_eq_2 ‹dmaWrite _ _ _ = _› (dmaWrite_kept _ _ _ ?_)) | (with_reducible apply begin__kept)
    | (with_reducible refine kept_ite ?_ ?_) | (dsimp only [id_eq]) | split | (with_reducible refine plan_mk ?_)

theorem execFreezeArm_kept (r : Req) (window : BitVec 16) (s : State) (h : Kept C M s) : ∃ t, execFreezeArm r window s = .next t ∧ Kept C M t := by
  unfold execFreezeArm
  refine ⟨_, rfl, ?_⟩
  (try dsimp only)
  repeat' first
    | (with_reducible assumption) | (with_reducible apply dispatch_kept) | (with_reducible apply commitEntry_kept)
    | (with_reducible apply plan_fail) | (with_reducible apply plan_read) | (with_reducible apply plan_noRoom)
    | (with_reducible refine plan_do ?_) | (with_reducible refine plan_doBytes ?_)
    | (with_reducible refine kept_fold ?_ _ _ ?_) | (with_reducible refine kept_fold_2 ?_ _ _ ?_)
    | (with_reducible refine kept_fold_1 ?_ _ _ ?_) | intro _ | (simp only [kept_lit]) | (with_reducible apply kept_parts)
    | (with_reducible apply begin__kept) | (with_reducible refine kept_ite ?_ ?_) | (dsimp only [id_eq]) | split
    | (with_reducible refine plan_mk ?_)

theorem disarm_kept (s : State) (h : Kept C M s) : Kept C M (disarm s) := by
  unfold disarm
  (try dsimp only)
  repeat' first
    | (with_reducible assumption) | (with_reducible refine kept_fold ?_ _ _ ?_)
    | (with_reducible refine kept_fold_2 ?_ _ _ ?_) | (with_reducible refine kept_fold_1 ?_ _ _ ?_) | intro _
    | (simp only [kept_lit]) | (with_reducible apply kept_parts) | (with_reducible refine kept_ite ?_ ?_)
    | (dsimp only [id_eq]) | split

theorem execFreezeDisarm_kept (r : Req) (s : State) (h : Kept C M s) : ∃ t, execFreezeDisarm r s = .next t ∧ Kept C M t := by
  unfold execFreezeDisarm
  refine ⟨_, rfl, ?_⟩
  (try dsimp only)
  repeat' first
    | (with_reducible assumption) | (with_reducible apply dispatch_kept) | (with_reducible apply disarm_kept)
    | (with_reducible apply plan_fail) | (with_reducible apply plan_read) | (with_reducible apply plan_noRoom)
    | (with_reducible refine plan_do ?_) | (with_reducible refine plan_doBytes ?_)
    | (with_reducible refine kept_fold ?_ _ _ ?_) | (with_reducible refine kept_fold_2 ?_ _ _ ?_)
    | (with_reducible refine kept_fold_1 ?_ _ _ ?_) | intro _ | (simp only [kept_lit]) | (with_reducible apply kept_parts)
    | (with_reducible apply begin__kept) | (with_reducible refine kept_ite ?_ ?_) | (dsimp only [id_eq]) | split
    | (with_reducible refine plan_mk ?_)

theorem execFreezeWindowEnd_kept (s : State) (h : Kept C M s) : ∃ t, execFreezeWindowEnd s = .next t ∧ Kept C M t := by
  unfold execFreezeWindowEnd
  refine ⟨_, rfl, ?_⟩
  (try dsimp only)
  repeat' first
    | (with_reducible assumption) | (with_reducible apply whenRunning_kept) | (with_reducible apply begin__kept)
    | (with_reducible apply disarm_kept) | (with_reducible refine kept_fold ?_ _ _ ?_)
    | (with_reducible refine kept_fold_2 ?_ _ _ ?_) | (with_reducible refine kept_fold_1 ?_ _ _ ?_) | intro _
    | (simp only [kept_lit]) | (with_reducible apply kept_parts) | (with_reducible refine kept_ite ?_ ?_)
    | (dsimp only [id_eq]) | split

theorem execFreezeIgnored_kept (s : State) (h : Kept C M s) : ∃ t, execFreezeIgnored s = .next t ∧ Kept C M t := by
  unfold execFreezeIgnored
  refine ⟨_, rfl, ?_⟩
  (try dsimp only)
  repeat' first
    | (with_reducible assumption) | (with_reducible apply begin__kept) | (with_reducible apply raise_kept)
    | (with_reducible apply statInc_kept) | (with_reducible refine kept_fold ?_ _ _ ?_)
    | (with_reducible refine kept_fold_2 ?_ _ _ ?_) | (with_reducible refine kept_fold_1 ?_ _ _ ?_) | intro _
    | (simp only [kept_lit]) | (with_reducible apply kept_parts) | (with_reducible refine kept_ite ?_ ?_)
    | (dsimp only [id_eq]) | split

theorem execFreezeEnter_kept (s : State) (h : Kept C M s) : ∃ t, execFreezeEnter s = .next t ∧ Kept C M t := by
  unfold execFreezeEnter
  refine ⟨_, rfl, ?_⟩
  (try dsimp only)
  repeat' first
    | (with_reducible assumption) | (with_reducible apply whenRunning_kept) | (with_reducible apply begin__kept)
    | (with_reducible apply statInc_kept) | (with_reducible apply orReg_kept) | (with_reducible refine kept_fold ?_ _ _ ?_)
    | (with_reducible refine kept_fold_2 ?_ _ _ ?_) | (with_reducible refine kept_fold_1 ?_ _ _ ?_) | intro _
    | (simp only [kept_lit]) | (with_reducible apply kept_parts) | (with_reducible refine kept_ite ?_ ?_)
    | (dsimp only [id_eq]) | split

theorem domRestart_kept (n : ℕ) (s : State) (k : ℕ) (h : Kept C M s) : Kept C M (domRestart n s k) := by
  unfold domRestart
  (try dsimp only)
  repeat' first
    | (with_reducible assumption) | (with_reducible apply domPass_kept) | (with_reducible apply raise_kept)
    | (with_reducible apply setDom_kept) | (with_reducible refine kept_fold ?_ _ _ ?_)
    | (with_reducible refine kept_fold_2 ?_ _ _ ?_) | (with_reducible refine kept_fold_1 ?_ _ _ ?_) | intro _
    | (simp only [kept_lit]) | (with_reducible apply kept_parts) | (with_reducible refine kept_ite ?_ ?_)
    | (dsimp only [id_eq]) | split

theorem trgRestart_kept (old : State) (s : State) (h : Kept C M old) (h_s : Kept C M s) : Kept C M (trgRestart old s) := by
  unfold trgRestart
  (try dsimp only)
  repeat' first
    | (with_reducible assumption) | (with_reducible apply setPast_kept) | (with_reducible refine kept_fold ?_ _ _ ?_)
    | (with_reducible refine kept_fold_2 ?_ _ _ ?_) | (with_reducible refine kept_fold_1 ?_ _ _ ?_) | intro _
    | (simp only [kept_lit]) | (with_reducible apply kept_parts) | (with_reducible refine kept_ite ?_ ?_)
    | (dsimp only [id_eq]) | split

theorem beatsPassed_kept (s : State) (n : Nat) (h : Kept C M s) (hb : M.beat = none) : Kept C M (beatsPassed s n) := by
  unfold beatsPassed
  dsimp only
  refine kept_fold (fun s _ h => raise_kept _ _ h) _ _ ?_
  exact kept_stores h id id rfl (.inr rfl) (.inl hb) id

theorem timersResume_kept (s : State) (n : ℕ) (h : Kept C M s) : Kept C M (timersResume s n) := by
  unfold timersResume
  (try dsimp only)
  repeat' first
    | (with_reducible assumption) | (with_reducible refine kept_fold ?_ _ _ ?_)
    | (with_reducible refine kept_fold_2 ?_ _ _ ?_) | (with_reducible refine kept_fold_1 ?_ _ _ ?_) | intro _
    | (simp only [kept_lit]) | (with_reducible apply kept_parts) | (with_reducible refine kept_ite ?_ ?_)
    | (dsimp only [id_eq]) | split

theorem wheelsRestart_kept (s : State) (h : Kept C M s) : Kept C M (wheelsRestart s) := by
  unfold wheelsRestart
  (try dsimp only)
  repeat' first
    | (with_reducible assumption) | (with_reducible apply setFb_kept) | (with_reducible apply setBolt_kept)
    | (with_reducible apply faultMove_kept) | (with_reducible apply startTrackers_kept) | (with_reducible apply spdSafe_kept)
    | (with_reducible refine kept_fold ?_ _ _ ?_) | (with_reducible refine kept_fold_2 ?_ _ _ ?_)
    | (with_reducible refine kept_fold_1 ?_ _ _ ?_) | intro _ | (simp only [kept_lit]) | (with_reducible apply kept_parts)
    | (with_reducible refine kept_ite ?_ ?_) | (dsimp only [id_eq]) | split

theorem restart_kept (s : State) (n : ℕ) (h : Kept C M s) (hb : M.beat = none) : Kept C M (restart s n) := by
  unfold restart
  (try dsimp only)
  repeat' first
    | (with_reducible assumption) | (with_reducible apply raiseN_kept) | (with_reducible apply timersResume_kept)
    | (with_reducible apply beatsPassed_kept) | (with_reducible apply domRestart_kept) | (with_reducible apply wr_kept)
    | (with_reducible apply trgRestart_kept) | (with_reducible apply wheelsRestart_kept)
    | (with_reducible apply dropSpilled_kept) | (with_reducible apply launchMisses_kept)
    | (with_reducible apply windowClose_kept) | (with_reducible apply commitAll_kept)
    | (with_reducible apply boundaryCloses_kept) | (with_reducible refine kept_fold ?_ _ _ ?_)
    | (with_reducible refine kept_fold_2 ?_ _ _ ?_) | (with_reducible refine kept_fold_1 ?_ _ _ ?_) | intro _
    | (simp only [kept_lit]) | (with_reducible apply kept_parts) | (with_reducible refine kept_ite ?_ ?_)
    | (dsimp only [id_eq]) | split

theorem execFreezeExit_kept (s : State) (h : Kept C M s) (hb : M.beat = none) : ∃ t, execFreezeExit s = .next t ∧ Kept C M t := by
  unfold execFreezeExit
  refine ⟨_, rfl, ?_⟩
  (try dsimp only)
  repeat' first
    | (with_reducible assumption) | (with_reducible apply begin__kept) | (with_reducible apply restart_kept)
    | (with_reducible refine kept_fold ?_ _ _ ?_) | (with_reducible refine kept_fold_2 ?_ _ _ ?_)
    | (with_reducible refine kept_fold_1 ?_ _ _ ?_) | intro _ | (simp only [kept_lit]) | (with_reducible apply kept_parts)
    | (with_reducible refine kept_ite ?_ ?_) | (dsimp only [id_eq]) | split

theorem capWord_kept (s : State) (a : ℕ) (r : Region) (h : Kept C M s) : Kept C M (capWord s a r).2 := by
  unfold capWord
  (try dsimp only)
  repeat' first
    | (with_reducible assumption) | (with_reducible apply draw_kept) | (with_reducible refine kept_fold ?_ _ _ ?_)
    | (with_reducible refine kept_fold_2 ?_ _ _ ?_) | (with_reducible refine kept_fold_1 ?_ _ _ ?_) | intro _
    | (simp only [kept_lit]) | (with_reducible apply kept_parts)
    | (with_reducible refine kept_of_eq_2 ‹draw _ = _› (draw_kept _ ?_)) | (with_reducible refine kept_ite ?_ ?_)
    | (dsimp only [id_eq]) | split

theorem capture_kept (s : State) (a : ℕ) (h : Kept C M s) : Kept C M (capture s a).2 := by
  unfold capture
  (try dsimp only)
  repeat' first
    | (with_reducible assumption) | (with_reducible apply capWord_kept) | (with_reducible refine kept_fold ?_ _ _ ?_)
    | (with_reducible refine kept_fold_2 ?_ _ _ ?_) | (with_reducible refine kept_fold_1 ?_ _ _ ?_) | intro _
    | (simp only [kept_lit]) | (with_reducible apply kept_parts)
    | (with_reducible refine kept_of_eq_2 ‹capWord _ _ _ = _› (capWord_kept _ _ _ ?_))
    | (with_reducible refine kept_ite ?_ ?_) | (dsimp only [id_eq]) | split

theorem execSnapAddr_kept (a : BitVec 40) (s : State) (h : Kept C M s) : ∃ t, execSnapAddr a s = .next t ∧ Kept C M t := by
  unfold execSnapAddr
  refine ⟨_, rfl, ?_⟩
  (try dsimp only)
  repeat' first
    | (with_reducible assumption) | (with_reducible apply begin__kept) | (with_reducible refine kept_fold ?_ _ _ ?_)
    | (with_reducible refine kept_fold_2 ?_ _ _ ?_) | (with_reducible refine kept_fold_1 ?_ _ _ ?_) | intro _
    | (simp only [kept_lit]) | (with_reducible apply kept_parts) | (with_reducible refine kept_ite ?_ ?_)
    | (dsimp only [id_eq]) | split

theorem execSnapData_kept (s : State) (h : Kept C M s) : ∃ t, execSnapData s = .next t ∧ Kept C M t := by
  unfold execSnapData
  refine ⟨_, rfl, ?_⟩
  (try dsimp only)
  repeat' first
    | (with_reducible assumption) | (with_reducible apply begin__kept) | (with_reducible apply capture_kept)
    | (with_reducible refine kept_fold ?_ _ _ ?_) | (with_reducible refine kept_fold_2 ?_ _ _ ?_)
    | (with_reducible refine kept_fold_1 ?_ _ _ ?_) | intro _ | (simp only [kept_lit]) | (with_reducible apply kept_parts)
    | (with_reducible refine kept_of_eq_2 ‹capture _ _ = _› (capture_kept _ _ ?_)) | (with_reducible refine kept_ite ?_ ?_)
    | (dsimp only [id_eq]) | split

theorem setLoop_kept (s : State) (e : ℕ) (kind : ℕ) (h : Kept C M s) : Kept C M (setLoop s e kind) := by
  unfold setLoop
  (try dsimp only)
  repeat' first
    | (with_reducible assumption) | (with_reducible refine kept_fold ?_ _ _ ?_)
    | (with_reducible refine kept_fold_2 ?_ _ _ ?_) | (with_reducible refine kept_fold_1 ?_ _ _ ?_) | intro _
    | (simp only [kept_lit]) | (with_reducible apply kept_parts) | (with_reducible refine kept_ite ?_ ?_)
    | (dsimp only [id_eq]) | split

theorem execDiagLoopback_kept (r : Req) (target : BitVec 8) (kind : BitVec 8) (s : State) (h : Kept C M s) : ∃ t, execDiagLoopback r target kind s = .next t ∧ Kept C M t := by
  unfold execDiagLoopback
  refine ⟨_, rfl, ?_⟩
  (try dsimp only)
  repeat' first
    | (with_reducible assumption) | (with_reducible apply dispatch_kept) | (with_reducible apply setLoop_kept)
    | (with_reducible apply plan_fail) | (with_reducible apply plan_read) | (with_reducible apply plan_noRoom)
    | (with_reducible refine plan_do ?_) | (with_reducible refine plan_doBytes ?_)
    | (with_reducible refine kept_fold ?_ _ _ ?_) | (with_reducible refine kept_fold_2 ?_ _ _ ?_)
    | (with_reducible refine kept_fold_1 ?_ _ _ ?_) | intro _ | (simp only [kept_lit]) | (with_reducible apply kept_parts)
    | (with_reducible apply begin__kept) | (with_reducible refine kept_ite ?_ ?_) | (dsimp only [id_eq]) | split
    | (with_reducible refine plan_mk ?_)

end Sys2Proof.Machine
end

