-- ==== Sys2Proof/Laws/KeepVault.lean ====
section
/-! SUPPORT. What the operations of `Vault` leave alone. -/

namespace Sys2Proof.Machine

set_option linter.unusedTactic false
set_option linter.unreachableTactic false
set_option linter.unusedSimpArgs false

variable {C : Prop} {M : Mark}

theorem execTamper_kept (src : Fin 6) (s : State) (h : Kept C M s) (hk : M.slots = none) : ∃ t, execTamper src s = .next t ∧ Kept C M t := by
  unfold execTamper
  refine ⟨_, rfl, ?_⟩
  (try dsimp only)
  repeat' first
    | (with_reducible assumption) | (with_reducible apply begin__kept) | (with_reducible apply tamperNow_kept)
    | (with_reducible refine kept_fold ?_ _ _ ?_) | (with_reducible refine kept_fold_2 ?_ _ _ ?_)
    | (with_reducible refine kept_fold_1 ?_ _ _ ?_) | intro _ | (simp only [kept_lit]) | (with_reducible apply kept_parts)
    | (with_reducible refine parts_slots ?_ hk _) | (with_reducible refine kept_ite ?_ ?_) | (dsimp only [id_eq]) | split

theorem execRngFail_kept (reseedOk : Bool) (s : State) (h : Kept C M s) : ∃ t, execRngFail reseedOk s = .next t ∧ Kept C M t := by
  unfold execRngFail
  refine ⟨_, rfl, ?_⟩
  (try dsimp only)
  repeat' first
    | (with_reducible assumption) | (with_reducible apply whenRunning_kept) | (with_reducible apply begin__kept)
    | (with_reducible apply raise_kept) | (with_reducible apply queueEntry_kept) | (with_reducible refine kept_fold ?_ _ _ ?_)
    | (with_reducible refine kept_fold_2 ?_ _ _ ?_) | (with_reducible refine kept_fold_1 ?_ _ _ ?_) | intro _
    | (simp only [kept_lit]) | (with_reducible apply kept_parts) | (with_reducible refine kept_ite ?_ ?_)
    | (dsimp only [id_eq]) | split

theorem updateSlot_kept (s : State) (m : KeyMsg) (h : Kept C M s) (hk : M.slots = none) : Kept C M (updateSlot s m) := by
  unfold updateSlot
  (try dsimp only)
  repeat' first
    | (with_reducible assumption) | (with_reducible apply draw_kept) | (with_reducible apply setSlot_kept)
    | (with_reducible apply storeRecordOf_kept) | (with_reducible apply raise_kept)
    | (with_reducible refine kept_fold ?_ _ _ ?_) | (with_reducible refine kept_fold_2 ?_ _ _ ?_)
    | (with_reducible refine kept_fold_1 ?_ _ _ ?_) | intro _ | (simp only [kept_lit]) | (with_reducible apply kept_parts)
    | (with_reducible refine parts_slots ?_ hk _) | (with_reducible refine kept_of_eq_2 ‹draw _ = _› (draw_kept _ ?_))
    | (with_reducible refine kept_ite ?_ ?_) | (dsimp only [id_eq]) | split

theorem confirmation_kept (s : State) (m : KeyMsg) (h : Kept C M s) : Kept C M (confirmation s m).2 := by
  unfold confirmation
  (try dsimp only)
  repeat' first
    | (with_reducible assumption) | (with_reducible apply signature_kept) | (with_reducible apply signBy_kept)
    | (with_reducible refine kept_fold ?_ _ _ ?_) | (with_reducible refine kept_fold_2 ?_ _ _ ?_)
    | (with_reducible refine kept_fold_1 ?_ _ _ ?_) | intro _ | (simp only [kept_lit]) | (with_reducible apply kept_parts)
    | (with_reducible refine kept_of_eq_2 ‹signature _ _ = _› (signature_kept _ _ ?_))
    | (with_reducible refine kept_of_eq_2 ‹signBy _ _ _ = _› (signBy_kept _ _ _ ?_)) | (with_reducible refine kept_ite ?_ ?_)
    | (dsimp only [id_eq]) | split

theorem noteUpdate_kept (s : State) (m : KeyMsg) (st : Status) (h : Kept C M s) : Kept C M (noteUpdate s m st) := by
  unfold noteUpdate
  (try dsimp only)
  repeat' first
    | (with_reducible assumption) | (with_reducible apply wr_kept) | (with_reducible apply statInc_kept)
    | (with_reducible refine kept_fold ?_ _ _ ?_) | (with_reducible refine kept_fold_2 ?_ _ _ ?_)
    | (with_reducible refine kept_fold_1 ?_ _ _ ?_) | intro _ | (simp only [kept_lit]) | (with_reducible apply kept_parts)
    | (with_reducible refine kept_ite ?_ ?_) | (dsimp only [id_eq]) | split

theorem submitUpdate_kept (s : State) (m : KeyMsg) (h : Kept C M s) (hk : M.slots = none) : Kept C M (submitUpdate s m).1 := by
  unfold submitUpdate
  (try dsimp only)
  repeat' first
    | (with_reducible assumption) | (with_reducible apply noteUpdate_kept) | (with_reducible apply queueEntry_kept)
    | (with_reducible apply raise_kept) | (with_reducible apply noEntry_kept) | (with_reducible apply commitEntry_kept)
    | (with_reducible apply closeForKey_kept) | (with_reducible apply keyChanged_kept)
    | (with_reducible apply updateSlot_kept) | (with_reducible apply confirmation_kept)
    | (with_reducible refine kept_fold ?_ _ _ ?_) | (with_reducible refine kept_fold_2 ?_ _ _ ?_)
    | (with_reducible refine kept_fold_1 ?_ _ _ ?_) | intro _ | (simp only [kept_lit]) | (with_reducible apply kept_parts)
    | (with_reducible refine parts_slots ?_ hk _) | (with_reducible refine kept_of_eq_1 ‹noEntry _ = _› (noEntry_kept _ ?_))
    | (with_reducible refine kept_of_eq_2 ‹confirmation _ _ = _› (confirmation_kept _ _ ?_))
    | (with_reducible refine kept_ite ?_ ?_) | (dsimp only [id_eq]) | split

theorem execKeyUpdate_kept (r : Req) (msg : KeyMsg) (s : State) (h : Kept C M s) (hk : M.slots = none) : ∃ t, execKeyUpdate r msg s = .next t ∧ Kept C M t := by
  unfold execKeyUpdate
  refine ⟨_, rfl, ?_⟩
  (try dsimp only)
  repeat' first
    | (with_reducible assumption) | (with_reducible apply dispatch_kept) | (with_reducible apply submitUpdate_kept)
    | (with_reducible refine kept_fold ?_ _ _ ?_) | (with_reducible refine kept_fold_2 ?_ _ _ ?_)
    | (with_reducible refine kept_fold_1 ?_ _ _ ?_) | intro _ | (simp only [kept_lit]) | (with_reducible apply kept_parts)
    | (with_reducible refine parts_slots ?_ hk _)
    | (with_reducible refine kept_of_eq_1 ‹submitUpdate _ _ = _› (submitUpdate_kept _ _ ?_))
    | (with_reducible apply begin__kept) | (with_reducible refine kept_ite ?_ ?_) | (dsimp only [id_eq]) | split
    | (with_reducible refine plan_mk ?_)

theorem execKeyAttest_kept (r : Req) (slot : BitVec 16) (nonce : BitVec 256) (s : State) (h : Kept C M s) : ∃ t, execKeyAttest r slot nonce s = .next t ∧ Kept C M t := by
  unfold execKeyAttest
  refine ⟨_, rfl, ?_⟩
  (try dsimp only)
  repeat' first
    | (with_reducible assumption) | (with_reducible apply dispatch_kept) | (with_reducible apply signature_kept)
    | (with_reducible apply plan_fail) | (with_reducible apply plan_read) | (with_reducible apply plan_noRoom)
    | (with_reducible refine plan_do ?_) | (with_reducible refine plan_doBytes ?_)
    | (with_reducible refine kept_fold ?_ _ _ ?_) | (with_reducible refine kept_fold_2 ?_ _ _ ?_)
    | (with_reducible refine kept_fold_1 ?_ _ _ ?_) | intro _ | (simp only [kept_lit]) | (with_reducible apply kept_parts)
    | (with_reducible refine kept_of_eq_2 ‹signature _ _ = _› (signature_kept _ _ ?_)) | (with_reducible apply begin__kept)
    | (with_reducible refine kept_ite ?_ ?_) | (dsimp only [id_eq]) | split | (with_reducible refine plan_mk ?_)

theorem provision_kept (s : State) (h : Kept C M s) (hs : M.seq = none) (hk : M.slots = none) :
    Kept C M (provision s) := by
  unfold provision
  dsimp only
  repeat' first
    | (with_reducible assumption)
    | (with_reducible apply commitEntry_kept)
    | (with_reducible apply setSlot_kept)
    | (with_reducible apply deriveSlots_kept)
    | (with_reducible apply wr_kept)
    | (with_reducible refine kept_ite ?_ ?_)
    | exact kept_any h id id rfl (.inr rfl) (.inr rfl) id (.inl hs) (.inr rfl) (.inl hk) (fun e => ⟨e, .inr (Nat.le_refl _)⟩)

theorem execRootProvision_kept (r : Req) (s : State) (h : Kept C M s) (hs : M.seq = none) (hk : M.slots = none) : ∃ t, execRootProvision r s = .next t ∧ Kept C M t := by
  unfold execRootProvision
  refine ⟨_, rfl, ?_⟩
  (try dsimp only)
  repeat' first
    | (with_reducible assumption) | (with_reducible apply dispatch_kept) | (with_reducible apply raise_kept)
    | (with_reducible apply provision_kept) | (with_reducible apply signature_kept) | (with_reducible apply plan_fail)
    | (with_reducible apply plan_read) | (with_reducible apply plan_noRoom) | (with_reducible refine plan_do ?_)
    | (with_reducible refine plan_doBytes ?_) | (with_reducible refine kept_fold ?_ _ _ ?_)
    | (with_reducible refine kept_fold_2 ?_ _ _ ?_) | (with_reducible refine kept_fold_1 ?_ _ _ ?_) | intro _
    | (simp only [kept_lit]) | (with_reducible apply kept_parts) | (with_reducible refine parts_slots ?_ hk _)
    | (with_reducible refine kept_of_eq_2 ‹signature _ _ = _› (signature_kept _ _ ?_)) | (with_reducible apply begin__kept)
    | (with_reducible refine kept_ite ?_ ?_) | (dsimp only [id_eq]) | split | (with_reducible refine plan_mk ?_)

end Sys2Proof.Machine
end

