-- ==== Sys2Proof/Laws/KeepHelber.lean ====
section
/-! SUPPORT. What the operations of `Helber` leave alone. -/

namespace Sys2Proof.Machine

set_option linter.unusedTactic false
set_option linter.unreachableTactic false
set_option linter.unusedSimpArgs false

variable {C : Prop} {M : Mark}

theorem setPeer_kept (s : State) (n : ℕ) (p : Peer) (h : Kept C M s) : Kept C M (setPeer s n p) := by
  unfold setPeer
  (try dsimp only)
  repeat' first
    | (with_reducible assumption) | (with_reducible refine kept_fold ?_ _ _ ?_)
    | (with_reducible refine kept_fold_2 ?_ _ _ ?_) | (with_reducible refine kept_fold_1 ?_ _ _ ?_) | intro _
    | (simp only [kept_lit]) | (with_reducible apply kept_parts) | (with_reducible refine kept_ite ?_ ?_)
    | (dsimp only [id_eq]) | split

theorem topoCheck_kept (s : State) (h : Kept C M s) : Kept C M (topoCheck s) := by
  unfold topoCheck
  (try dsimp only)
  repeat' first
    | (with_reducible assumption) | (with_reducible apply raise_kept) | (with_reducible refine kept_fold ?_ _ _ ?_)
    | (with_reducible refine kept_fold_2 ?_ _ _ ?_) | (with_reducible refine kept_fold_1 ?_ _ _ ?_) | intro _
    | (simp only [kept_lit]) | (with_reducible apply kept_parts) | (with_reducible refine kept_ite ?_ ?_)
    | (dsimp only [id_eq]) | split

theorem losePeer_kept (s : State) (n : ℕ) (h : Kept C M s) : Kept C M (losePeer s n) := by
  unfold losePeer
  (try dsimp only)
  repeat' first
    | (with_reducible assumption) | (with_reducible apply topoCheck_kept) | (with_reducible apply raise_kept)
    | (with_reducible apply setPeer_kept) | (with_reducible refine kept_fold ?_ _ _ ?_)
    | (with_reducible refine kept_fold_2 ?_ _ _ ?_) | (with_reducible refine kept_fold_1 ?_ _ _ ?_) | intro _
    | (simp only [kept_lit]) | (with_reducible apply kept_parts) | (with_reducible refine kept_ite ?_ ?_)
    | (dsimp only [id_eq]) | split

theorem hlbKeyCheck_kept (s : State) (h : Kept C M s) : Kept C M (hlbKeyCheck s) := by
  unfold hlbKeyCheck
  (try dsimp only)
  repeat' first
    | (with_reducible assumption) | (with_reducible apply losePeer_kept) | (with_reducible refine kept_fold ?_ _ _ ?_)
    | (with_reducible refine kept_fold_2 ?_ _ _ ?_) | (with_reducible refine kept_fold_1 ?_ _ _ ?_) | intro _
    | (simp only [kept_lit]) | (with_reducible apply kept_parts) | (with_reducible refine kept_ite ?_ ?_)
    | (dsimp only [id_eq]) | split

theorem hlbSend_kept (s : State) (port : ℕ) (ty : ℕ) (dst : ℕ) (pay : List Byte) (h : Kept C M s) : Kept C M (hlbSend s port ty dst pay) := by
  unfold hlbSend
  (try dsimp only)
  repeat' first
    | (with_reducible assumption) | (with_reducible refine kept_fold ?_ _ _ ?_)
    | (with_reducible refine kept_fold_2 ?_ _ _ ?_) | (with_reducible refine kept_fold_1 ?_ _ _ ?_) | intro _
    | (simp only [kept_lit]) | (with_reducible apply kept_parts) | (with_reducible refine kept_ite ?_ ?_)
    | (dsimp only [id_eq]) | split

theorem hlbSendTo_kept (s : State) (n : ℕ) (ty : ℕ) (pay : List Byte) (h : Kept C M s) : Kept C M (hlbSendTo s n ty pay) := by
  unfold hlbSendTo
  (try dsimp only)
  repeat' first
    | (with_reducible assumption) | (with_reducible apply hlbSend_kept) | (with_reducible refine kept_fold ?_ _ _ ?_)
    | (with_reducible refine kept_fold_2 ?_ _ _ ?_) | (with_reducible refine kept_fold_1 ?_ _ _ ?_) | intro _
    | (simp only [kept_lit]) | (with_reducible apply kept_parts) | (with_reducible refine kept_ite ?_ ?_)
    | (dsimp only [id_eq]) | split

theorem hlbPushAll_kept (s : State) (l : List (List Byte)) (h : Kept C M s) : Kept C M (hlbPushAll s l) := by
  unfold hlbPushAll
  (try dsimp only)
  repeat' first
    | (with_reducible assumption) | (with_reducible apply hlbSend_kept) | (with_reducible refine kept_fold ?_ _ _ ?_)
    | (with_reducible refine kept_fold_2 ?_ _ _ ?_) | (with_reducible refine kept_fold_1 ?_ _ _ ?_) | intro _
    | (simp only [kept_lit]) | (with_reducible apply kept_parts) | (with_reducible refine kept_ite ?_ ?_)
    | (dsimp only [id_eq]) | split

theorem execHelloSend_kept (s : State) (h : Kept C M s) : ∃ t, execHelloSend s = .next t ∧ Kept C M t := by
  unfold execHelloSend
  refine ⟨_, rfl, ?_⟩
  (try dsimp only)
  repeat' first
    | (with_reducible assumption) | (with_reducible apply whenRunning_kept) | (with_reducible apply begin__kept)
    | (with_reducible apply hlbKeyCheck_kept) | (with_reducible apply hlbSend_kept)
    | (with_reducible refine kept_fold ?_ _ _ ?_) | (with_reducible refine kept_fold_2 ?_ _ _ ?_)
    | (with_reducible refine kept_fold_1 ?_ _ _ ?_) | intro _ | (simp only [kept_lit]) | (with_reducible apply kept_parts)
    | (with_reducible refine kept_ite ?_ ?_) | (dsimp only [id_eq]) | split

theorem execPeerLostTimeout_kept (node : BitVec 12) (s : State) (h : Kept C M s) : ∃ t, execPeerLostTimeout node s = .next t ∧ Kept C M t := by
  unfold execPeerLostTimeout
  refine ⟨_, rfl, ?_⟩
  (try dsimp only)
  repeat' first
    | (with_reducible assumption) | (with_reducible apply whenRunning_kept) | (with_reducible apply begin__kept)
    | (with_reducible apply losePeer_kept) | (with_reducible refine kept_fold ?_ _ _ ?_)
    | (with_reducible refine kept_fold_2 ?_ _ _ ?_) | (with_reducible refine kept_fold_1 ?_ _ _ ?_) | intro _
    | (simp only [kept_lit]) | (with_reducible apply kept_parts) | (with_reducible refine kept_ite ?_ ?_)
    | (dsimp only [id_eq]) | split

theorem execPeerAbsentTimeout_kept (node : BitVec 12) (s : State) (h : Kept C M s) : ∃ t, execPeerAbsentTimeout node s = .next t ∧ Kept C M t := by
  unfold execPeerAbsentTimeout
  refine ⟨_, rfl, ?_⟩
  (try dsimp only)
  repeat' first
    | (with_reducible assumption) | (with_reducible apply whenRunning_kept) | (with_reducible apply begin__kept)
    | (with_reducible apply setPeer_kept) | (with_reducible refine kept_fold ?_ _ _ ?_)
    | (with_reducible refine kept_fold_2 ?_ _ _ ?_) | (with_reducible refine kept_fold_1 ?_ _ _ ?_) | intro _
    | (simp only [kept_lit]) | (with_reducible apply kept_parts) | (with_reducible refine kept_ite ?_ ?_)
    | (dsimp only [id_eq]) | split

theorem enterMember_kept (s : State) (n : ℕ) (p : Peer) (st : MemSt) (h : Kept C M s) : Kept C M (enterMember s n p st) := by
  unfold enterMember
  (try dsimp only)
  repeat' first
    | (with_reducible assumption) | (with_reducible apply setPeer_kept) | (with_reducible apply raise_kept)
    | (with_reducible refine kept_fold ?_ _ _ ?_) | (with_reducible refine kept_fold_2 ?_ _ _ ?_)
    | (with_reducible refine kept_fold_1 ?_ _ _ ?_) | intro _ | (simp only [kept_lit]) | (with_reducible apply kept_parts)
    | (with_reducible refine kept_ite ?_ ?_) | (dsimp only [id_eq]) | split

theorem learnEpoch_kept (s : State) (epoch : Word) (h : Kept C M s) : Kept C M (learnEpoch s epoch) := by
  unfold learnEpoch
  (try dsimp only)
  repeat' first
    | (with_reducible assumption) | (with_reducible apply wr_kept) | (with_reducible apply raise_kept)
    | (with_reducible refine kept_fold ?_ _ _ ?_) | (with_reducible refine kept_fold_2 ?_ _ _ ?_)
    | (with_reducible refine kept_fold_1 ?_ _ _ ?_) | intro _ | (simp only [kept_lit]) | (with_reducible apply kept_parts)
    | (with_reducible refine kept_ite ?_ ?_) | (dsimp only [id_eq]) | split

theorem ownIdSeen_kept (s : State) (n : ℕ) (h : Kept C M s) : Kept C M (ownIdSeen s n) := by
  unfold ownIdSeen
  (try dsimp only)
  repeat' first
    | (with_reducible assumption) | (with_reducible apply raise_kept) | (with_reducible apply setPeer_kept)
    | (with_reducible refine kept_fold ?_ _ _ ?_) | (with_reducible refine kept_fold_2 ?_ _ _ ?_)
    | (with_reducible refine kept_fold_1 ?_ _ _ ?_) | intro _ | (simp only [kept_lit]) | (with_reducible apply kept_parts)
    | (with_reducible refine kept_ite ?_ ?_) | (dsimp only [id_eq]) | split

theorem helloPeer_kept (s : State) (port : ℕ) (rport : ℕ) (n : ℕ) (uid : BitVec 128) (md : Byte) (major : Byte) (minor : Byte) (epoch : Word) (digest : BitVec 64) (lock : BitVec 4) (revSeq : Word) (h : Kept C M s) : Kept C M (helloPeer s port rport n uid md major minor epoch digest lock revSeq) := by
  unfold helloPeer
  (try dsimp only)
  repeat' first
    | (with_reducible assumption) | (with_reducible apply enterMember_kept) | (with_reducible apply topoCheck_kept)
    | (with_reducible apply learnEpoch_kept) | (with_reducible refine kept_fold ?_ _ _ ?_)
    | (with_reducible refine kept_fold_2 ?_ _ _ ?_) | (with_reducible refine kept_fold_1 ?_ _ _ ?_) | intro _
    | (simp only [kept_lit]) | (with_reducible apply kept_parts) | (with_reducible refine kept_ite ?_ ?_)
    | (dsimp only [id_eq]) | split

theorem forwardIn_kept (s : State) (port : ℕ) (f : HlbFrame) (time : BitVec 64) (node : BitVec 12) (ing : Byte) (c : Content) (carry : Word) (h : Kept C M s) : Kept C M (forwardIn s port f time node ing c carry) := by
  unfold forwardIn
  (try dsimp only)
  repeat' first
    | (with_reducible assumption) | (with_reducible apply statInc_kept) | (with_reducible apply forward_kept)
    | (with_reducible refine kept_fold ?_ _ _ ?_) | (with_reducible refine kept_fold_2 ?_ _ _ ?_)
    | (with_reducible refine kept_fold_1 ?_ _ _ ?_) | intro _ | (simp only [kept_lit]) | (with_reducible apply kept_parts)
    | (with_reducible refine kept_ite ?_ ?_) | (dsimp only [id_eq]) | split

theorem queryIn_kept (s : State) (src : ℕ) (table : ℕ) (pipe : ℕ) (index : Word) (key : BitVec 64) (h : Kept C M s) : Kept C M (queryIn s src table pipe index key) := by
  unfold queryIn
  (try dsimp only)
  repeat' first
    | (with_reducible assumption) | (with_reducible apply hlbSendTo_kept) | (with_reducible refine kept_fold ?_ _ _ ?_)
    | (with_reducible refine kept_fold_2 ?_ _ _ ?_) | (with_reducible refine kept_fold_1 ?_ _ _ ?_) | intro _
    | (simp only [kept_lit]) | (with_reducible apply kept_parts) | (with_reducible refine kept_ite ?_ ?_)
    | (dsimp only [id_eq]) | split

theorem pushIn_kept (s : State) (src : ℕ) (id : Word) (kind : ℕ) (offset : ℕ) (data : List Byte) (h : Kept C M s) : Kept C M (pushIn s src id kind offset data) := by
  unfold pushIn
  (try dsimp only)
  repeat' first
    | (with_reducible assumption) | (with_reducible refine kept_fold ?_ _ _ ?_)
    | (with_reducible refine kept_fold_2 ?_ _ _ ?_) | (with_reducible refine kept_fold_1 ?_ _ _ ?_) | intro _
    | (simp only [kept_lit]) | (with_reducible apply kept_parts) | (with_reducible refine kept_ite ?_ ?_)
    | (dsimp only [id_eq]) | split

theorem ackIn_kept (s : State) (src : ℕ) (id : Word) (missing : List ℕ) (h : Kept C M s) : Kept C M (ackIn s src id missing) := by
  unfold ackIn
  (try dsimp only)
  repeat' first
    | (with_reducible assumption) | (with_reducible refine kept_fold ?_ _ _ ?_)
    | (with_reducible refine kept_fold_2 ?_ _ _ ?_) | (with_reducible refine kept_fold_1 ?_ _ _ ?_) | intro _
    | (simp only [kept_lit]) | (with_reducible apply kept_parts) | (with_reducible refine kept_ite ?_ ?_)
    | (dsimp only [id_eq]) | split

theorem pullIn_kept (s : State) (src : ℕ) (h : Kept C M s) : Kept C M (pullIn s src) := by
  unfold pullIn
  (try dsimp only)
  repeat' first
    | (with_reducible assumption) | (with_reducible apply draw_kept) | (with_reducible apply hlbSendTo_kept)
    | (with_reducible refine kept_fold ?_ _ _ ?_) | (with_reducible refine kept_fold_2 ?_ _ _ ?_)
    | (with_reducible refine kept_fold_1 ?_ _ _ ?_) | intro _ | (simp only [kept_lit]) | (with_reducible apply kept_parts)
    | (with_reducible refine kept_of_eq_2 ‹draw _ = _› (draw_kept _ ?_)) | (with_reducible refine kept_ite ?_ ?_)
    | (dsimp only [id_eq]) | split

theorem hlbBody_kept (s : State) (port : ℕ) (f : HlbFrame) (h : Kept C M s) : Kept C M (hlbBody s port f) := by
  unfold hlbBody
  (try dsimp only)
  repeat' first
    | (with_reducible assumption) | (with_reducible apply ownIdSeen_kept) | (with_reducible apply helloPeer_kept)
    | (with_reducible apply forwardIn_kept) | (with_reducible apply queryIn_kept) | (with_reducible apply pushIn_kept)
    | (with_reducible apply ackIn_kept) | (with_reducible apply pullIn_kept) | (with_reducible refine kept_fold ?_ _ _ ?_)
    | (with_reducible refine kept_fold_2 ?_ _ _ ?_) | (with_reducible refine kept_fold_1 ?_ _ _ ?_) | intro _
    | (simp only [kept_lit]) | (with_reducible apply kept_parts) | (with_reducible refine kept_ite ?_ ?_)
    | (dsimp only [id_eq]) | split

theorem hlbTake_kept (s : State) (port : ℕ) (f : HlbFrame) (h : Kept C M s) : Kept C M (hlbTake s port f) := by
  unfold hlbTake
  (try dsimp only)
  repeat' first
    | (with_reducible assumption) | (with_reducible apply statInc_kept) | (with_reducible apply setPeer_kept)
    | (with_reducible apply hlbBody_kept) | (with_reducible refine kept_fold ?_ _ _ ?_)
    | (with_reducible refine kept_fold_2 ?_ _ _ ?_) | (with_reducible refine kept_fold_1 ?_ _ _ ?_) | intro _
    | (simp only [kept_lit]) | (with_reducible apply kept_parts) | (with_reducible refine kept_ite ?_ ?_)
    | (dsimp only [id_eq]) | split

theorem execHelberReceive_kept (port : Fin 8) (f : HlbFrame) (s : State) (h : Kept C M s) : ∃ t, execHelberReceive port f s = .next t ∧ Kept C M t := by
  unfold execHelberReceive
  refine ⟨_, rfl, ?_⟩
  (try dsimp only)
  repeat' first
    | (with_reducible assumption) | (with_reducible apply whenRunning_kept) | (with_reducible apply begin__kept)
    | (with_reducible apply hlbKeyCheck_kept) | (with_reducible apply hlbTake_kept)
    | (with_reducible refine kept_fold ?_ _ _ ?_) | (with_reducible refine kept_fold_2 ?_ _ _ ?_)
    | (with_reducible refine kept_fold_1 ?_ _ _ ?_) | intro _ | (simp only [kept_lit]) | (with_reducible apply kept_parts)
    | (with_reducible refine kept_ite ?_ ?_) | (dsimp only [id_eq]) | split

theorem takeList_kept (s : State) (b : List Byte) (h : Kept C M s) : Kept C M (takeList s b) := by
  unfold takeList
  (try dsimp only)
  repeat' first
    | (with_reducible assumption) | (with_reducible apply wr_kept) | (with_reducible apply monoFinal_kept)
    | (with_reducible apply queueEntry_kept) | (with_reducible refine kept_fold ?_ _ _ ?_)
    | (with_reducible refine kept_fold_2 ?_ _ _ ?_) | (with_reducible refine kept_fold_1 ?_ _ _ ?_) | intro _
    | (simp only [kept_lit]) | (with_reducible apply kept_parts) | (with_reducible refine kept_ite ?_ ?_)
    | (dsimp only [id_eq]) | split

theorem applyBlob_kept (s : State) (kind : ℕ) (b : List Byte) (img : Option FwImage) (commitOk : Bool) (h : Kept C M s) (hk : M.slots = none) : Kept C M (applyBlob s kind b img commitOk) := by
  unfold applyBlob
  (try dsimp only)
  repeat' first
    | (with_reducible assumption) | (with_reducible apply submitUpdate_kept) | (with_reducible apply takeList_kept)
    | (with_reducible apply fillSlot_kept) | (with_reducible refine kept_fold ?_ _ _ ?_)
    | (with_reducible refine kept_fold_2 ?_ _ _ ?_) | (with_reducible refine kept_fold_1 ?_ _ _ ?_) | intro _
    | (simp only [kept_lit]) | (with_reducible apply kept_parts) | (with_reducible refine parts_slots ?_ hk _)
    | (with_reducible refine kept_of_eq_1 ‹submitUpdate _ _ = _› (submitUpdate_kept _ _ ?_))
    | (with_reducible refine kept_ite ?_ ?_) | (dsimp only [id_eq]) | split

theorem execPushAckSend_kept (src : BitVec 12) (id : Word) (total : ℕ) (img : Option FwImage) (commitOk : Bool) (s : State) (h : Kept C M s) (hk : M.slots = none) : ∃ t, execPushAckSend src id total img commitOk s = .next t ∧ Kept C M t := by
  unfold execPushAckSend
  refine ⟨_, rfl, ?_⟩
  (try dsimp only)
  repeat' first
    | (with_reducible assumption) | (with_reducible apply whenRunning_kept) | (with_reducible apply begin__kept)
    | (with_reducible apply applyBlob_kept) | (with_reducible apply hlbSendTo_kept)
    | (with_reducible refine kept_fold ?_ _ _ ?_) | (with_reducible refine kept_fold_2 ?_ _ _ ?_)
    | (with_reducible refine kept_fold_1 ?_ _ _ ?_) | intro _ | (simp only [kept_lit]) | (with_reducible apply kept_parts)
    | (with_reducible refine parts_slots ?_ hk _) | (with_reducible refine kept_ite ?_ ?_) | (dsimp only [id_eq]) | split

theorem execBlobDiscard_kept (src : BitVec 12) (id : Word) (s : State) (h : Kept C M s) : ∃ t, execBlobDiscard src id s = .next t ∧ Kept C M t := by
  unfold execBlobDiscard
  refine ⟨_, rfl, ?_⟩
  (try dsimp only)
  repeat' first
    | (with_reducible assumption) | (with_reducible apply whenRunning_kept) | (with_reducible apply begin__kept)
    | (with_reducible refine kept_fold ?_ _ _ ?_) | (with_reducible refine kept_fold_2 ?_ _ _ ?_)
    | (with_reducible refine kept_fold_1 ?_ _ _ ?_) | intro _ | (simp only [kept_lit]) | (with_reducible apply kept_parts)
    | (with_reducible refine kept_ite ?_ ?_) | (dsimp only [id_eq]) | split

theorem execPushResendRound_kept (s : State) (h : Kept C M s) : ∃ t, execPushResendRound s = .next t ∧ Kept C M t := by
  unfold execPushResendRound
  refine ⟨_, rfl, ?_⟩
  (try dsimp only)
  repeat' first
    | (with_reducible assumption) | (with_reducible apply whenRunning_kept) | (with_reducible apply begin__kept)
    | (with_reducible apply hlbPushAll_kept) | (with_reducible apply answer_kept) | (with_reducible apply setCur_kept)
    | (with_reducible refine kept_fold ?_ _ _ ?_) | (with_reducible refine kept_fold_2 ?_ _ _ ?_)
    | (with_reducible refine kept_fold_1 ?_ _ _ ?_) | intro _ | (simp only [kept_lit]) | (with_reducible apply kept_parts)
    | (with_reducible refine kept_ite ?_ ?_) | (dsimp only [id_eq]) | split

theorem execPullSend_kept (node : BitVec 12) (s : State) (h : Kept C M s) : ∃ t, execPullSend node s = .next t ∧ Kept C M t := by
  unfold execPullSend
  refine ⟨_, rfl, ?_⟩
  (try dsimp only)
  repeat' first
    | (with_reducible assumption) | (with_reducible apply whenRunning_kept) | (with_reducible apply begin__kept)
    | (with_reducible apply hlbSendTo_kept) | (with_reducible refine kept_fold ?_ _ _ ?_)
    | (with_reducible refine kept_fold_2 ?_ _ _ ?_) | (with_reducible refine kept_fold_1 ?_ _ _ ?_) | intro _
    | (simp only [kept_lit]) | (with_reducible apply kept_parts) | (with_reducible refine kept_ite ?_ ?_)
    | (dsimp only [id_eq]) | split

theorem execTblRead_kept (r : Req) (table : BitVec 8) (pipe : BitVec 8) (node : BitVec 16) (index : Word) (key : BitVec 64) (rsp : Option (Bool × List Word)) (s : State) (h : Kept C M s) : ∃ t, execTblRead r table pipe node index key rsp s = .next t ∧ Kept C M t := by
  unfold execTblRead
  refine ⟨_, rfl, ?_⟩
  (try dsimp only)
  repeat' first
    | (with_reducible assumption) | (with_reducible apply dispatch_kept) | (with_reducible apply hlbSendTo_kept)
    | (with_reducible apply plan_fail) | (with_reducible apply plan_read) | (with_reducible apply plan_noRoom)
    | (with_reducible refine plan_do ?_) | (with_reducible refine plan_doBytes ?_)
    | (with_reducible refine kept_fold ?_ _ _ ?_) | (with_reducible refine kept_fold_2 ?_ _ _ ?_)
    | (with_reducible refine kept_fold_1 ?_ _ _ ?_) | intro _ | (simp only [kept_lit]) | (with_reducible apply kept_parts)
    | (with_reducible apply begin__kept) | (with_reducible refine kept_ite ?_ ?_) | (dsimp only [id_eq]) | split
    | (with_reducible refine plan_mk ?_)

theorem execHlbConfig_kept (r : Req) (node : BitVec 16) (kind : BitVec 8) (ports : BitVec 8) (domain : Word) (keyslot : BitVec 16) (s : State) (h : Kept C M s) (hm : M.map = none) : ∃ t, execHlbConfig r node kind ports domain keyslot s = .next t ∧ Kept C M t := by
  unfold execHlbConfig
  refine ⟨_, rfl, ?_⟩
  (try dsimp only)
  repeat' first
    | (with_reducible assumption) | (with_reducible apply dispatch_kept) | (with_reducible apply cfgPlan_planKept)
    | (with_reducible apply applyHlb_kept) | (with_reducible refine kept_fold ?_ _ _ ?_)
    | (with_reducible refine kept_fold_2 ?_ _ _ ?_) | (with_reducible refine kept_fold_1 ?_ _ _ ?_) | intro _
    | (simp only [kept_lit]) | (with_reducible apply kept_parts) | (with_reducible refine parts_map ?_ hm _)
    | (with_reducible apply begin__kept) | (with_reducible refine kept_ite ?_ ?_) | (dsimp only [id_eq]) | split
    | (with_reducible refine plan_mk ?_)

theorem execHlbMembers_kept (r : Req) (first : BitVec 16) (s : State) (h : Kept C M s) : ∃ t, execHlbMembers r first s = .next t ∧ Kept C M t := by
  unfold execHlbMembers
  refine ⟨_, rfl, ?_⟩
  (try dsimp only)
  repeat' first
    | (with_reducible assumption) | (with_reducible apply dispatch_kept) | (with_reducible apply plan_fail)
    | (with_reducible apply plan_read) | (with_reducible apply plan_noRoom) | (with_reducible refine plan_do ?_)
    | (with_reducible refine plan_doBytes ?_) | (with_reducible refine kept_fold ?_ _ _ ?_)
    | (with_reducible refine kept_fold_2 ?_ _ _ ?_) | (with_reducible refine kept_fold_1 ?_ _ _ ?_) | intro _
    | (simp only [kept_lit]) | (with_reducible apply kept_parts) | (with_reducible apply begin__kept)
    | (with_reducible refine kept_ite ?_ ?_) | (dsimp only [id_eq]) | split | (with_reducible refine plan_mk ?_)

theorem execHlbPush_kept (r : Req) (kind : BitVec 8) (buf : BitVec 64) (len : Word) (blob : Blob) (commitOk : Bool) (readOk : Bool) (s : State) (h : Kept C M s) (hk : M.slots = none) : ∃ t, execHlbPush r kind buf len blob commitOk readOk s = .next t ∧ Kept C M t := by
  unfold execHlbPush
  refine ⟨_, rfl, ?_⟩
  (try dsimp only)
  repeat' first
    | (with_reducible assumption) | (with_reducible apply dispatch_kept) | (with_reducible apply Plan.hostDenied_planKept)
    | (with_reducible apply draw_kept) | (with_reducible apply applyBlob_kept) | (with_reducible apply hlbPushAll_kept)
    | (with_reducible apply plan_fail) | (with_reducible apply plan_read) | (with_reducible apply plan_noRoom)
    | (with_reducible refine plan_do ?_) | (with_reducible refine plan_doBytes ?_)
    | (with_reducible refine kept_fold ?_ _ _ ?_) | (with_reducible refine kept_fold_2 ?_ _ _ ?_)
    | (with_reducible refine kept_fold_1 ?_ _ _ ?_) | intro _ | (simp only [kept_lit]) | (with_reducible apply kept_parts)
    | (with_reducible refine parts_slots ?_ hk _) | (with_reducible refine kept_of_eq_2 ‹draw _ = _› (draw_kept _ ?_))
    | (with_reducible apply begin__kept) | (with_reducible refine kept_ite ?_ ?_) | (dsimp only [id_eq]) | split
    | (with_reducible refine plan_mk ?_)

end Sys2Proof.Machine
end

