-- ==== Sys2Proof/Laws/KeepLedger.lean ====
section
/-! SUPPORT. What the operations of `Ledger` leave alone. -/

namespace Sys2Proof.Machine

set_option linter.unusedTactic false
set_option linter.unreachableTactic false
set_option linter.unusedSimpArgs false

variable {C : Prop} {M : Mark}

theorem programFailed_kept (s : State) (h : Kept C M s) : Kept C M (programFailed s) := by
  unfold programFailed
  (try dsimp only)
  repeat' first
    | (with_reducible assumption) | (with_reducible apply useSeq_kept) | (with_reducible apply ledgerFault_kept)
    | (with_reducible refine kept_fold ?_ _ _ ?_) | (with_reducible refine kept_fold_2 ?_ _ _ ?_)
    | (with_reducible refine kept_fold_1 ?_ _ _ ?_) | intro _ | (simp only [kept_lit]) | (with_reducible apply kept_parts)
    | (with_reducible refine kept_ite ?_ ?_) | (dsimp only [id_eq]) | split

theorem execLedgerCommit_kept (programOk : Bool) (s : State) (h : Kept C M s) : ∃ t, execLedgerCommit programOk s = .next t ∧ Kept C M t := by
  unfold execLedgerCommit
  refine ⟨_, rfl, ?_⟩
  (try dsimp only)
  repeat' first
    | (with_reducible assumption) | (with_reducible apply begin__kept) | (with_reducible apply commitHead_kept)
    | (with_reducible apply programFailed_kept) | (with_reducible refine kept_fold ?_ _ _ ?_)
    | (with_reducible refine kept_fold_2 ?_ _ _ ?_) | (with_reducible refine kept_fold_1 ?_ _ _ ?_) | intro _
    | (simp only [kept_lit]) | (with_reducible apply kept_parts) | (with_reducible refine kept_ite ?_ ?_)
    | (dsimp only [id_eq]) | split

theorem execIntervalClose_kept (s : State) (h : Kept C M s) : ∃ t, execIntervalClose s = .next t ∧ Kept C M t := by
  unfold execIntervalClose
  refine ⟨_, rfl, ?_⟩
  (try dsimp only)
  repeat' first
    | (with_reducible assumption) | (with_reducible apply whenRunning_kept) | (with_reducible apply begin__kept)
    | (with_reducible apply boundaryClose_kept) | (with_reducible refine kept_fold ?_ _ _ ?_)
    | (with_reducible refine kept_fold_2 ?_ _ _ ?_) | (with_reducible refine kept_fold_1 ?_ _ _ ?_) | intro _
    | (simp only [kept_lit]) | (with_reducible apply kept_parts) | (with_reducible refine kept_ite ?_ ?_)
    | (dsimp only [id_eq]) | split

theorem execTrimUpdate_kept (periods : Nat) (s : State) (h : Kept C M s) (hc : M.clock = none) :
    ∃ t, execTrimUpdate periods s = .next t ∧ Kept C M t := by
  unfold execTrimUpdate
  refine ⟨_, rfl, ?_⟩
  apply whenRunning_kept _ _ _ (begin__kept s h)
  intro s h
  dsimp only
  split
  · exact h
  · exact kept_stores h id id rfl (.inl hc) (.inr rfl) id

theorem execDenySummary_kept (s : State) (h : Kept C M s) : ∃ t, execDenySummary s = .next t ∧ Kept C M t := by
  unfold execDenySummary
  refine ⟨_, rfl, ?_⟩
  (try dsimp only)
  repeat' first
    | (with_reducible assumption) | (with_reducible apply whenRunning_kept) | (with_reducible apply begin__kept)
    | (with_reducible apply denySummaryNow_kept) | (with_reducible refine kept_fold ?_ _ _ ?_)
    | (with_reducible refine kept_fold_2 ?_ _ _ ?_) | (with_reducible refine kept_fold_1 ?_ _ _ ?_) | intro _
    | (simp only [kept_lit]) | (with_reducible apply kept_parts) | (with_reducible refine kept_ite ?_ ?_)
    | (dsimp only [id_eq]) | split

theorem ltimeFinal_kept (s : State) (h : Kept C M s) : Kept C M (ltimeFinal s) := by
  unfold ltimeFinal
  (try dsimp only)
  repeat' first
    | (with_reducible assumption) | (with_reducible apply monoFinal_kept) | (with_reducible refine kept_fold ?_ _ _ ?_)
    | (with_reducible refine kept_fold_2 ?_ _ _ ?_) | (with_reducible refine kept_fold_1 ?_ _ _ ?_) | intro _
    | (simp only [kept_lit]) | (with_reducible apply kept_parts) | (with_reducible refine kept_ite ?_ ?_)
    | (dsimp only [id_eq]) | split

theorem execLedgerTimeFinal_kept (s : State) (h : Kept C M s) : ∃ t, execLedgerTimeFinal s = .next t ∧ Kept C M t := by
  unfold execLedgerTimeFinal
  refine ⟨_, rfl, ?_⟩
  (try dsimp only)
  repeat' first
    | (with_reducible assumption) | (with_reducible apply ltimeFinal_kept) | (with_reducible apply begin__kept)
    | (with_reducible refine kept_fold ?_ _ _ ?_) | (with_reducible refine kept_fold_2 ?_ _ _ ?_)
    | (with_reducible refine kept_fold_1 ?_ _ _ ?_) | intro _ | (simp only [kept_lit]) | (with_reducible apply kept_parts)
    | (with_reducible refine kept_ite ?_ ?_) | (dsimp only [id_eq]) | split

theorem noteRun_kept (s : State) (first : ℕ) (last : ℕ) (h : Kept C M s) : Kept C M (noteRun s first last) := by
  unfold noteRun
  (try dsimp only)
  repeat' first
    | (with_reducible assumption) | (with_reducible apply setSess_kept) | (with_reducible refine kept_fold ?_ _ _ ?_)
    | (with_reducible refine kept_fold_2 ?_ _ _ ?_) | (with_reducible refine kept_fold_1 ?_ _ _ ?_) | intro _
    | (simp only [kept_lit]) | (with_reducible apply kept_parts) | (with_reducible refine kept_ite ?_ ?_)
    | (dsimp only [id_eq]) | split

theorem readRecord_kept (s : State) (first : ℕ) (es : List (List Byte)) (buf : ℕ) (nonce : BitVec 256) (h : Kept C M s) : Kept C M (readRecord s first es buf nonce).1 := by
  unfold readRecord
  (try dsimp only)
  repeat' first
    | (with_reducible assumption) | (with_reducible apply dmaWrite_kept) | (with_reducible apply signature_kept)
    | (with_reducible refine kept_fold ?_ _ _ ?_) | (with_reducible refine kept_fold_2 ?_ _ _ ?_)
    | (with_reducible refine kept_fold_1 ?_ _ _ ?_) | intro _ | (simp only [kept_lit]) | (with_reducible apply kept_parts)
    | (with_reducible refine kept_of_eq_2 ‹dmaWrite _ _ _ = _› (dmaWrite_kept _ _ _ ?_))
    | (with_reducible refine kept_of_eq_2 ‹signature _ _ = _› (signature_kept _ _ ?_))
    | (with_reducible refine kept_ite ?_ ?_) | (dsimp only [id_eq]) | split

theorem execLdgRead_kept (r : Req) (first : BitVec 48) (count : BitVec 16) (buf : BitVec 64) (nonce : BitVec 256) (breakAt : Option ℕ) (s : State) (h : Kept C M s) : ∃ t, execLdgRead r first count buf nonce breakAt s = .next t ∧ Kept C M t := by
  unfold execLdgRead
  refine ⟨_, rfl, ?_⟩
  (try dsimp only)
  repeat' first
    | (with_reducible assumption) | (with_reducible apply dispatch_kept) | (with_reducible apply refuse_kept)
    | (with_reducible apply readRecord_kept) | (with_reducible apply noteRun_kept) | (with_reducible apply ledgerFault_kept)
    | (with_reducible apply plan_fail) | (with_reducible apply plan_read) | (with_reducible apply plan_noRoom)
    | (with_reducible refine plan_do ?_) | (with_reducible refine plan_doBytes ?_)
    | (with_reducible refine kept_fold ?_ _ _ ?_) | (with_reducible refine kept_fold_2 ?_ _ _ ?_)
    | (with_reducible refine kept_fold_1 ?_ _ _ ?_) | intro _ | (simp only [kept_lit]) | (with_reducible apply kept_parts)
    | (with_reducible refine kept_of_eq_1 ‹readRecord _ _ _ _ _ = _› (readRecord_kept _ _ _ _ _ ?_))
    | (with_reducible apply begin__kept) | (with_reducible refine kept_ite ?_ ?_) | (dsimp only [id_eq]) | split
    | (with_reducible refine plan_mk ?_)

theorem execLdgBilling_kept (r : Req) (period : Word) (tariff : Word) (s : State) (h : Kept C M s) : ∃ t, execLdgBilling r period tariff s = .next t ∧ Kept C M t := by
  unfold execLdgBilling
  refine ⟨_, rfl, ?_⟩
  (try dsimp only)
  repeat' first
    | (with_reducible assumption) | (with_reducible apply dispatch_kept) | (with_reducible apply plan_fail)
    | (with_reducible apply plan_read) | (with_reducible apply plan_noRoom) | (with_reducible refine plan_do ?_)
    | (with_reducible refine plan_doBytes ?_) | (with_reducible refine kept_fold ?_ _ _ ?_)
    | (with_reducible refine kept_fold_2 ?_ _ _ ?_) | (with_reducible refine kept_fold_1 ?_ _ _ ?_) | intro _
    | (simp only [kept_lit]) | (with_reducible apply kept_parts) | (with_reducible apply begin__kept)
    | (with_reducible refine kept_ite ?_ ?_) | (dsimp only [id_eq]) | split | (with_reducible refine plan_mk ?_)

theorem wallStep_kept (s : State) (role : ℕ) (sess : ℕ) (ofs : ℤ) (h : Kept C M s) : Kept C M (wallStep s role sess ofs) := by
  unfold wallStep
  (try dsimp only)
  repeat' first
    | (with_reducible assumption) | (with_reducible apply boundaryCloses_kept) | (with_reducible apply commitEntry_kept)
    | (with_reducible apply openInterval_kept) | (with_reducible refine kept_fold ?_ _ _ ?_)
    | (with_reducible refine kept_fold_2 ?_ _ _ ?_) | (with_reducible refine kept_fold_1 ?_ _ _ ?_) | intro _
    | (simp only [kept_lit]) | (with_reducible apply kept_parts) | (with_reducible refine kept_ite ?_ ?_)
    | (dsimp only [id_eq]) | split

theorem execWallSet_kept (r : Req) (sec : BitVec 48) (frac : BitVec 16) (s : State) (h : Kept C M s) : ∃ t, execWallSet r sec frac s = .next t ∧ Kept C M t := by
  unfold execWallSet
  refine ⟨_, rfl, ?_⟩
  (try dsimp only)
  repeat' first
    | (with_reducible assumption) | (with_reducible apply dispatch_kept) | (with_reducible apply wallStep_kept)
    | (with_reducible apply plan_fail) | (with_reducible apply plan_read) | (with_reducible apply plan_noRoom)
    | (with_reducible refine plan_do ?_) | (with_reducible refine plan_doBytes ?_)
    | (with_reducible refine kept_fold ?_ _ _ ?_) | (with_reducible refine kept_fold_2 ?_ _ _ ?_)
    | (with_reducible refine kept_fold_1 ?_ _ _ ?_) | intro _ | (simp only [kept_lit]) | (with_reducible apply kept_parts)
    | (with_reducible apply begin__kept) | (with_reducible refine kept_ite ?_ ?_) | (dsimp only [id_eq]) | split
    | (with_reducible refine plan_mk ?_)

end Sys2Proof.Machine
end

