-- ==== Sys2Proof/Laws/KeepBeat.lean ====
section
/-! SUPPORT. What the operations of `Beat` leave alone. -/

namespace Sys2Proof.Machine

set_option linter.unusedTactic false
set_option linter.unreachableTactic false
set_option linter.unusedSimpArgs false

variable {C : Prop} {M : Mark}

theorem ovrPersist_kept (s : State) (any : Bool) (h : Kept C M s) : Kept C M (ovrPersist s any) := by
  unfold ovrPersist
  (try dsimp only)
  repeat' first
    | (with_reducible assumption) | (with_reducible apply causeArises_kept) | (with_reducible refine kept_fold ?_ _ _ ?_)
    | (with_reducible refine kept_fold_2 ?_ _ _ ?_) | (with_reducible refine kept_fold_1 ?_ _ _ ?_) | intro _
    | (simp only [kept_lit]) | (with_reducible apply kept_parts) | (with_reducible refine kept_ite ?_ ?_)
    | (dsimp only [id_eq]) | split

theorem ovrCheck_kept (s : State) (env : BeatEnv) (h : Kept C M s) : Kept C M (ovrCheck s env) := by
  unfold ovrCheck
  (try dsimp only)
  repeat' first
    | (with_reducible assumption) | (with_reducible apply raise_kept) | (with_reducible apply statInc_kept)
    | (with_reducible apply orReg_kept) | (with_reducible apply ovrPersist_kept) | (with_reducible refine kept_fold ?_ _ _ ?_)
    | (with_reducible refine kept_fold_2 ?_ _ _ ?_) | (with_reducible refine kept_fold_1 ?_ _ _ ?_) | intro _
    | (simp only [kept_lit]) | (with_reducible apply kept_parts) | (with_reducible refine kept_ite ?_ ?_)
    | (dsimp only [id_eq]) | split

theorem telDrain_kept (s : State) (ov : Bool) (h : Kept C M s) : Kept C M (telDrain s ov) := by
  unfold telDrain
  (try dsimp only)
  repeat' first
    | (with_reducible assumption) | (with_reducible refine kept_fold ?_ _ _ ?_)
    | (with_reducible refine kept_fold_2 ?_ _ _ ?_) | (with_reducible refine kept_fold_1 ?_ _ _ ?_) | intro _
    | (simp only [kept_lit]) | (with_reducible apply kept_parts) | (with_reducible refine kept_ite ?_ ?_)
    | (dsimp only [id_eq]) | split

theorem telClose_kept (s : State) (h : Kept C M s) : Kept C M (telClose s) := by
  unfold telClose
  (try dsimp only)
  repeat' first
    | (with_reducible assumption) | (with_reducible refine kept_fold ?_ _ _ ?_)
    | (with_reducible refine kept_fold_2 ?_ _ _ ?_) | (with_reducible refine kept_fold_1 ?_ _ _ ?_) | intro _
    | (simp only [kept_lit]) | (with_reducible apply kept_parts) | (with_reducible refine kept_ite ?_ ?_)
    | (dsimp only [id_eq]) | split

theorem telLatch_kept (s : State) (env : BeatEnv) (h : Kept C M s) : Kept C M (telLatch s env) := by
  unfold telLatch
  (try dsimp only)
  repeat' first
    | (with_reducible assumption) | (with_reducible refine kept_fold ?_ _ _ ?_)
    | (with_reducible refine kept_fold_2 ?_ _ _ ?_) | (with_reducible refine kept_fold_1 ?_ _ _ ?_) | intro _
    | (simp only [kept_lit]) | (with_reducible apply kept_parts) | (with_reducible refine kept_ite ?_ ?_)
    | (dsimp only [id_eq]) | split

theorem commitsResolve_kept (s : State) (h : Kept C M s) : Kept C M (commitsResolve s) := by
  unfold commitsResolve
  (try dsimp only)
  repeat' first
    | (with_reducible assumption) | (with_reducible apply wr_kept) | (with_reducible apply monoFinal_kept)
    | (with_reducible apply enterMember_kept) | (with_reducible apply showDigest_kept)
    | (with_reducible refine kept_fold ?_ _ _ ?_) | (with_reducible refine kept_fold_2 ?_ _ _ ?_)
    | (with_reducible refine kept_fold_1 ?_ _ _ ?_) | intro _ | (simp only [kept_lit]) | (with_reducible apply kept_parts)
    | (with_reducible refine kept_ite ?_ ?_) | (dsimp only [id_eq]) | split

theorem gatesRederive_kept (ns : ℕ) (s : State) (e : ℕ) (h : Kept C M s) : Kept C M (gatesRederive ns s e) := by
  unfold gatesRederive
  (try dsimp only)
  repeat' first
    | (with_reducible assumption) | (with_reducible apply gclShow_kept) | (with_reducible apply setEgr_kept)
    | (with_reducible refine kept_fold ?_ _ _ ?_) | (with_reducible refine kept_fold_2 ?_ _ _ ?_)
    | (with_reducible refine kept_fold_1 ?_ _ _ ?_) | intro _ | (simp only [kept_lit]) | (with_reducible apply kept_parts)
    | (with_reducible refine kept_ite ?_ ?_) | (dsimp only [id_eq]) | split

theorem beatChange_kept (s : State) (h : Kept C M s) : Kept C M (beatChange s) := by
  unfold beatChange
  (try dsimp only)
  repeat' first
    | (with_reducible assumption) | (with_reducible apply wr_kept) | (with_reducible apply rescale_kept)
    | (with_reducible apply setFld_kept) | (with_reducible apply gatesRederive_kept) | (with_reducible apply passRestart_kept)
    | (with_reducible refine kept_fold ?_ _ _ ?_) | (with_reducible refine kept_fold_2 ?_ _ _ ?_)
    | (with_reducible refine kept_fold_1 ?_ _ _ ?_) | intro _ | (simp only [kept_lit]) | (with_reducible apply kept_parts)
    | (with_reducible refine kept_ite ?_ ?_) | (dsimp only [id_eq]) | split

theorem boundaryConfig_kept (s : State) (h : Kept C M s) : Kept C M (boundaryConfig s) := by
  unfold boundaryConfig
  (try dsimp only)
  repeat' first
    | (with_reducible assumption) | (with_reducible apply applyChanges_kept) | (with_reducible apply applyBatch_kept)
    | (with_reducible apply commitsResolve_kept) | (with_reducible apply governFuses_kept)
    | (with_reducible apply domsFollow_kept) | (with_reducible apply beatChange_kept)
    | (with_reducible refine kept_fold ?_ _ _ ?_) | (with_reducible refine kept_fold_2 ?_ _ _ ?_)
    | (with_reducible refine kept_fold_1 ?_ _ _ ?_) | intro _ | (simp only [kept_lit]) | (with_reducible apply kept_parts)
    | (with_reducible refine kept_ite ?_ ?_) | (dsimp only [id_eq]) | split

theorem summaryWrite_kept (s : State) (h : Kept C M s) : Kept C M (summaryWrite s) := by
  unfold summaryWrite
  (try dsimp only)
  repeat' first
    | (with_reducible assumption) | (with_reducible apply wr_kept) | (with_reducible apply dmaWrite_kept)
    | (with_reducible refine kept_fold ?_ _ _ ?_) | (with_reducible refine kept_fold_2 ?_ _ _ ?_)
    | (with_reducible refine kept_fold_1 ?_ _ _ ?_) | intro _ | (simp only [kept_lit]) | (with_reducible apply kept_parts)
    | (with_reducible refine kept_of_eq_2 ‹dmaWrite _ _ _ = _› (dmaWrite_kept _ _ _ ?_))
    | (with_reducible refine kept_ite ?_ ?_) | (dsimp only [id_eq]) | split

theorem mergeLocks_kept (s : State) (h : Kept C M s) : Kept C M (mergeLocks s) := by
  unfold mergeLocks
  (try dsimp only)
  repeat' first
    | (with_reducible assumption) | (with_reducible refine kept_fold ?_ _ _ ?_)
    | (with_reducible refine kept_fold_2 ?_ _ _ ?_) | (with_reducible refine kept_fold_1 ?_ _ _ ?_) | intro _
    | (simp only [kept_lit]) | (with_reducible apply kept_parts) | (with_reducible refine kept_ite ?_ ?_)
    | (dsimp only [id_eq]) | split

theorem lockRule_kept (s : State) (h : Kept C M s) : Kept C M (lockRule s) := by
  unfold lockRule
  (try dsimp only)
  repeat' first
    | (with_reducible assumption) | (with_reducible apply mergeLocks_kept) | (with_reducible apply atStandstill_kept)
    | (with_reducible apply engageAll_kept) | (with_reducible apply settle_kept) | (with_reducible refine kept_fold ?_ _ _ ?_)
    | (with_reducible refine kept_fold_2 ?_ _ _ ?_) | (with_reducible refine kept_fold_1 ?_ _ _ ?_) | intro _
    | (simp only [kept_lit]) | (with_reducible apply kept_parts) | (with_reducible refine kept_ite ?_ ?_)
    | (dsimp only [id_eq]) | split

theorem behindRule_kept (s : State) (h : Kept C M s) : Kept C M (behindRule s) := by
  unfold behindRule
  (try dsimp only)
  repeat' first
    | (with_reducible assumption) | (with_reducible refine kept_fold ?_ _ _ ?_)
    | (with_reducible refine kept_fold_2 ?_ _ _ ?_) | (with_reducible refine kept_fold_1 ?_ _ _ ?_) | intro _
    | (simp only [kept_lit]) | (with_reducible apply kept_parts) | (with_reducible refine kept_ite ?_ ?_)
    | (dsimp only [id_eq]) | split

theorem ltimeStep_kept (s : State) (h : Kept C M s) (hc : M.clock = none) : Kept C M (ltimeStep s) := by
  unfold ltimeStep
  dsimp only
  split
  · exact kept_stores h id id rfl (.inl hc) (.inr rfl) id
  · exact kept_stores h id id rfl (.inl hc) (.inr rfl) id

theorem alarmStep_kept (s : State) (h : Kept C M s) (hb : M.beat = none) : Kept C M (alarmStep s) := by
  unfold alarmStep
  (try dsimp only)
  repeat' first
    | (with_reducible assumption) | (with_reducible apply alarmFire_kept) | (with_reducible refine kept_fold ?_ _ _ ?_)
    | (with_reducible refine kept_fold_2 ?_ _ _ ?_) | (with_reducible refine kept_fold_1 ?_ _ _ ?_) | intro _
    | (simp only [kept_lit]) | (with_reducible apply kept_parts) | (with_reducible refine kept_ite ?_ ?_)
    | (dsimp only [id_eq]) | split

theorem periodStep_kept (s : State) (h : Kept C M s) (hb : M.beat = none) (hc : M.clock = none) : Kept C M (periodStep s) := by
  unfold periodStep
  (try dsimp only)
  repeat' first
    | (with_reducible assumption) | (with_reducible apply alarmStep_kept) | (with_reducible apply ltimeFinal_kept)
    | (with_reducible apply ltimeStep_kept) | (with_reducible refine kept_fold ?_ _ _ ?_)
    | (with_reducible refine kept_fold_2 ?_ _ _ ?_) | (with_reducible refine kept_fold_1 ?_ _ _ ?_) | intro _
    | (simp only [kept_lit]) | (with_reducible apply kept_parts) | (with_reducible refine kept_ite ?_ ?_)
    | (dsimp only [id_eq]) | split

theorem oscPass_kept (n : ℕ) (s : State) (h : Kept C M s) (hb : M.beat = none) (hc : M.clock = none) : Kept C M (oscPass n s) := by
  unfold oscPass
  (try dsimp only)
  repeat' first
    | (with_reducible assumption) | (with_reducible apply periodStep_kept) | (with_reducible refine kept_fold ?_ _ _ ?_)
    | (with_reducible refine kept_fold_2 ?_ _ _ ?_) | (with_reducible refine kept_fold_1 ?_ _ _ ?_) | intro _
    | (simp only [kept_lit]) | (with_reducible apply kept_parts) | (with_reducible refine kept_ite ?_ ?_)
    | (dsimp only [id_eq]) | split

theorem pass_kept (n : ℕ) (s : State) (h : Kept C M s) (hb : M.beat = none) (hc : M.clock = none) : Kept C M (pass n s) := by
  unfold pass
  (try dsimp only)
  repeat' first
    | (with_reducible assumption) | (with_reducible apply oscPass_kept) | (with_reducible apply corePass_kept)
    | (with_reducible refine kept_fold ?_ _ _ ?_) | (with_reducible refine kept_fold_2 ?_ _ _ ?_)
    | (with_reducible refine kept_fold_1 ?_ _ _ ?_) | intro _ | (simp only [kept_lit]) | (with_reducible apply kept_parts)
    | (with_reducible refine kept_ite ?_ ?_) | (dsimp only [id_eq]) | split

theorem quietBeat_kept (s : State) (h : Kept C M s) : Kept C M (quietBeat s) := by
  unfold quietBeat
  dsimp only
  split
  · exact kept_stores h id id rfl (.inr rfl) (.inr rfl) id
  · split
    · exact kept_stores h id id rfl (.inr rfl) (.inr rfl) (fun hs => Nat.le_trans (Nat.sub_le _ _) hs)
    · exact kept_stores h id id rfl (.inr rfl) (.inr rfl) id

theorem tempJudge_kept (s : State) (env : BeatEnv) (h : Kept C M s) : Kept C M (tempJudge s env) := by
  unfold tempJudge
  (try dsimp only)
  repeat' first
    | (with_reducible assumption) | (with_reducible refine kept_fold ?_ _ _ ?_)
    | (with_reducible refine kept_fold_2 ?_ _ _ ?_) | (with_reducible refine kept_fold_1 ?_ _ _ ?_) | intro _
    | (simp only [kept_lit]) | (with_reducible apply kept_parts) | (with_reducible refine kept_ite ?_ ?_)
    | (dsimp only [id_eq]) | split

theorem lineMonitor_kept (s : State) (env : BeatEnv) (h : Kept C M s) : Kept C M (lineMonitor s env) := by
  unfold lineMonitor
  (try dsimp only)
  repeat' first
    | (with_reducible assumption) | (with_reducible apply wri_kept) | (with_reducible refine kept_fold ?_ _ _ ?_)
    | (with_reducible refine kept_fold_2 ?_ _ _ ?_) | (with_reducible refine kept_fold_1 ?_ _ _ ?_) | intro _
    | (simp only [kept_lit]) | (with_reducible apply kept_parts) | (with_reducible refine kept_ite ?_ ?_)
    | (dsimp only [id_eq]) | split

theorem averages_kept (s : State) (h : Kept C M s) : Kept C M (averages s) := by
  unfold averages
  (try dsimp only)
  repeat' first
    | (with_reducible assumption) | (with_reducible apply avgUpdate_kept) | (with_reducible refine kept_fold ?_ _ _ ?_)
    | (with_reducible refine kept_fold_2 ?_ _ _ ?_) | (with_reducible refine kept_fold_1 ?_ _ _ ?_) | intro _
    | (simp only [kept_lit]) | (with_reducible apply kept_parts) | (with_reducible refine kept_ite ?_ ?_)
    | (dsimp only [id_eq]) | split

theorem awakeBeat_kept (s : State) (env : BeatEnv) (h : Kept C M s) : Kept C M (awakeBeat s env) := by
  unfold awakeBeat
  (try dsimp only)
  repeat' first
    | (with_reducible assumption) | (with_reducible apply lineMonitor_kept) | (with_reducible apply tempJudge_kept)
    | (with_reducible apply lockRule_kept) | (with_reducible apply behindRule_kept) | (with_reducible apply hlbKeyCheck_kept)
    | (with_reducible refine kept_fold ?_ _ _ ?_) | (with_reducible refine kept_fold_2 ?_ _ _ ?_)
    | (with_reducible refine kept_fold_1 ?_ _ _ ?_) | intro _ | (simp only [kept_lit]) | (with_reducible apply kept_parts)
    | (with_reducible refine kept_ite ?_ ?_) | (dsimp only [id_eq]) | split

theorem beatCount_kept (s : State) (h : Kept C M s) (hb : M.beat = none) : Kept C M (beatCount s) := by
  have h' : Kept C M { s with time := { s.time with beatCnt := s.time.beatCnt + 1, beatPos := s.time.beatPos - s.time.beatLen } } :=
    kept_stores h id id rfl (.inr rfl) (.inl hb) id
  unfold beatCount
  dsimp only
  split
  · exact raise_kept _ _ h'
  · exact h'

theorem boundary_kept (env : BeatEnv) (s : State) (h : Kept C M s) (hb : M.beat = none) : Kept C M (boundary env s) := by
  unfold boundary
  (try dsimp only)
  repeat' first
    | (with_reducible assumption) | (with_reducible apply setVbat_kept) | (with_reducible apply telDrain_kept)
    | (with_reducible apply ovrCheck_kept) | (with_reducible apply boundaryConfig_kept) | (with_reducible apply telClose_kept)
    | (with_reducible apply beatCount_kept) | (with_reducible apply summaryWrite_kept) | (with_reducible apply telLatch_kept)
    | (with_reducible apply gatesWait_kept) | (with_reducible apply gateTask_kept) | (with_reducible apply refillTask_kept)
    | (with_reducible apply resumeSleep_kept) | (with_reducible apply quietBeat_kept) | (with_reducible apply awakeBeat_kept)
    | (with_reducible apply averages_kept) | (with_reducible refine kept_fold ?_ _ _ ?_)
    | (with_reducible refine kept_fold_2 ?_ _ _ ?_) | (with_reducible refine kept_fold_1 ?_ _ _ ?_) | intro _
    | (simp only [kept_lit]) | (with_reducible apply kept_parts) | (with_reducible refine kept_ite ?_ ?_)
    | (dsimp only [id_eq]) | split

theorem execBeatBoundary_kept (env : BeatEnv) (s : State) (h : Kept C M s) (hb : M.beat = none) (hc : M.clock = none) : ∃ t, execBeatBoundary env s = .next t ∧ Kept C M t := by
  unfold execBeatBoundary
  refine ⟨_, rfl, ?_⟩
  (try dsimp only)
  repeat' first
    | (with_reducible assumption) | (with_reducible apply begin__kept) | (with_reducible apply boundary_kept)
    | (with_reducible apply pass_kept) | (with_reducible refine kept_fold ?_ _ _ ?_)
    | (with_reducible refine kept_fold_2 ?_ _ _ ?_) | (with_reducible refine kept_fold_1 ?_ _ _ ?_) | intro _
    | (simp only [kept_lit]) | (with_reducible apply kept_parts) | (with_reducible refine kept_ite ?_ ?_)
    | (dsimp only [id_eq]) | split

theorem rewriteNow_kept (s : State) (h : Kept C M s) : Kept C M (rewriteNow s) := by
  unfold rewriteNow
  (try dsimp only)
  repeat' first
    | (with_reducible assumption) | (with_reducible apply placeEntry_kept) | (with_reducible refine kept_fold ?_ _ _ ?_)
    | (with_reducible refine kept_fold_2 ?_ _ _ ?_) | (with_reducible refine kept_fold_1 ?_ _ _ ?_) | intro _
    | (simp only [kept_lit]) | (with_reducible apply kept_parts) | (with_reducible refine kept_ite ?_ ?_)
    | (dsimp only [id_eq]) | split

theorem execFwWindowStart_kept (s : State) (h : Kept C M s) : ∃ t, execFwWindowStart s = .next t ∧ Kept C M t := by
  unfold execFwWindowStart
  refine ⟨_, rfl, ?_⟩
  (try dsimp only)
  repeat' first
    | (with_reducible assumption) | (with_reducible apply whenRunning_kept) | (with_reducible apply begin__kept)
    | (with_reducible apply ageStep_kept) | (with_reducible apply rewriteNow_kept)
    | (with_reducible refine kept_fold ?_ _ _ ?_) | (with_reducible refine kept_fold_2 ?_ _ _ ?_)
    | (with_reducible refine kept_fold_1 ?_ _ _ ?_) | intro _ | (simp only [kept_lit]) | (with_reducible apply kept_parts)
    | (with_reducible refine kept_ite ?_ ?_) | (dsimp only [id_eq]) | split

theorem tick_kept (s : State) (h : Kept C M s) (hb : M.beat = none) (hc : M.clock = none) : Kept C M (tick s) := by
  unfold tick
  (try dsimp only)
  repeat' first
    | (with_reducible assumption) | (with_reducible apply pass_kept) | (with_reducible apply begin__kept)
    | (with_reducible refine kept_fold ?_ _ _ ?_) | (with_reducible refine kept_fold_2 ?_ _ _ ?_)
    | (with_reducible refine kept_fold_1 ?_ _ _ ?_) | intro _ | (simp only [kept_lit]) | (with_reducible apply kept_parts)
    | (with_reducible refine kept_ite ?_ ?_) | (dsimp only [id_eq]) | split

end Sys2Proof.Machine
end

