-- ==== Sys2Proof/Laws/KeepSessions.lean ====
section
/-! SUPPORT. What the operations of `Sessions` leave alone. -/

namespace Sys2Proof.Machine

set_option linter.unusedTactic false
set_option linter.unreachableTactic false
set_option linter.unusedSimpArgs false

variable {C : Prop} {M : Mark}

theorem rejectReq_kept (r : Req) (op : ℕ) (unlisted : Bool) (s0 : State) (h : Kept C M s0) : Kept C M (rejectReq r op unlisted s0) := by
  unfold rejectReq
  (try dsimp only)
  repeat' first
    | (with_reducible assumption) | (with_reducible apply begin__kept) | (with_reducible apply auditRefusal_kept)
    | (with_reducible apply endRun_kept) | (with_reducible apply answer_kept) | (with_reducible apply setCur_kept)
    | (with_reducible refine kept_fold ?_ _ _ ?_) | (with_reducible refine kept_fold_2 ?_ _ _ ?_)
    | (with_reducible refine kept_fold_1 ?_ _ _ ?_) | intro _ | (simp only [kept_lit]) | (with_reducible apply kept_parts)
    | (with_reducible refine takeRequest_kept _ _ _ ?_ _ ‹takeRequest _ _ _ = some _›)
    | (with_reducible refine kept_ite ?_ ?_) | (dsimp only [id_eq]) | split

theorem execCmdReject_kept (r : Req) (opcode : BitVec 16) (unlisted : Bool) (s : State) (h : Kept C M s) : ∃ t, execCmdReject r opcode unlisted s = .next t ∧ Kept C M t := by
  unfold execCmdReject
  refine ⟨_, rfl, ?_⟩
  (try dsimp only)
  repeat' first
    | (with_reducible assumption) | (with_reducible apply rejectReq_kept) | (with_reducible refine kept_fold ?_ _ _ ?_)
    | (with_reducible refine kept_fold_2 ?_ _ _ ?_) | (with_reducible refine kept_fold_1 ?_ _ _ ?_) | intro _
    | (simp only [kept_lit]) | (with_reducible apply kept_parts) | (with_reducible apply begin__kept)
    | (with_reducible refine kept_ite ?_ ?_) | (dsimp only [id_eq]) | split

theorem execSysInfo_kept (r : Req) (s : State) (h : Kept C M s) : ∃ t, execSysInfo r s = .next t ∧ Kept C M t := by
  unfold execSysInfo
  refine ⟨_, rfl, ?_⟩
  (try dsimp only)
  repeat' first
    | (with_reducible assumption) | (with_reducible apply dispatch_kept) | (with_reducible apply plan_fail)
    | (with_reducible apply plan_read) | (with_reducible apply plan_noRoom) | (with_reducible refine plan_do ?_)
    | (with_reducible refine plan_doBytes ?_) | (with_reducible refine kept_fold ?_ _ _ ?_)
    | (with_reducible refine kept_fold_2 ?_ _ _ ?_) | (with_reducible refine kept_fold_1 ?_ _ _ ?_) | intro _
    | (simp only [kept_lit]) | (with_reducible apply kept_parts) | (with_reducible apply begin__kept)
    | (with_reducible refine kept_ite ?_ ?_) | (dsimp only [id_eq]) | split | (with_reducible refine plan_mk ?_)

theorem execSessionChallenge_kept (r : Req) (role : BitVec 8) (s : State) (h : Kept C M s) : ∃ t, execSessionChallenge r role s = .next t ∧ Kept C M t := by
  unfold execSessionChallenge
  refine ⟨_, rfl, ?_⟩
  (try dsimp only)
  repeat' first
    | (with_reducible assumption) | (with_reducible apply rejectReq_kept) | (with_reducible apply dispatch_kept)
    | (with_reducible apply wantRandom_kept) | (with_reducible apply draw_kept) | (with_reducible apply setSess_kept)
    | (with_reducible apply plan_fail) | (with_reducible apply plan_read) | (with_reducible apply plan_noRoom)
    | (with_reducible refine plan_do ?_) | (with_reducible refine plan_doBytes ?_)
    | (with_reducible refine kept_fold ?_ _ _ ?_) | (with_reducible refine kept_fold_2 ?_ _ _ ?_)
    | (with_reducible refine kept_fold_1 ?_ _ _ ?_) | intro _ | (simp only [kept_lit]) | (with_reducible apply kept_parts)
    | (with_reducible refine kept_of_eq_2 ‹wantRandom _ = _› (wantRandom_kept _ ?_))
    | (with_reducible refine kept_of_eq_2 ‹draw _ = _› (draw_kept _ ?_)) | (with_reducible apply begin__kept)
    | (with_reducible refine kept_ite ?_ ?_) | (dsimp only [id_eq]) | split | (with_reducible refine plan_mk ?_)

theorem execSessionChallengeExpiry_kept (role : Fin 4) (s : State) (h : Kept C M s) : ∃ t, execSessionChallengeExpiry role s = .next t ∧ Kept C M t := by
  unfold execSessionChallengeExpiry
  refine ⟨_, rfl, ?_⟩
  (try dsimp only)
  repeat' first
    | (with_reducible assumption) | (with_reducible apply whenRunning_kept) | (with_reducible apply begin__kept)
    | (with_reducible apply setSess_kept) | (with_reducible refine kept_fold ?_ _ _ ?_)
    | (with_reducible refine kept_fold_2 ?_ _ _ ?_) | (with_reducible refine kept_fold_1 ?_ _ _ ?_) | intro _
    | (simp only [kept_lit]) | (with_reducible apply kept_parts) | (with_reducible refine kept_ite ?_ ?_)
    | (dsimp only [id_eq]) | split

theorem openFailed_kept (s : State) (role : ℕ) (h : Kept C M s) : Kept C M (openFailed s role) := by
  unfold openFailed
  (try dsimp only)
  repeat' first
    | (with_reducible assumption) | (with_reducible apply queueEntry_kept) | (with_reducible apply setSess_kept)
    | (with_reducible refine kept_fold ?_ _ _ ?_) | (with_reducible refine kept_fold_2 ?_ _ _ ?_)
    | (with_reducible refine kept_fold_1 ?_ _ _ ?_) | intro _ | (simp only [kept_lit]) | (with_reducible apply kept_parts)
    | (with_reducible refine kept_ite ?_ ?_) | (dsimp only [id_eq]) | split

theorem openSession_kept (s : State) (r : Req) (role : ℕ) (idleS : ℕ) (challenge : BitVec 256) (eph : List Byte) (h : Kept C M s) : Kept C M (openSession s r role idleS challenge eph).1 := by
  unfold openSession
  (try dsimp only)
  repeat' first
    | (with_reducible assumption) | (with_reducible apply draw_kept) | (with_reducible apply commitEntry_kept)
    | (with_reducible apply setSess_kept) | (with_reducible apply signature_kept)
    | (with_reducible refine kept_fold ?_ _ _ ?_) | (with_reducible refine kept_fold_2 ?_ _ _ ?_)
    | (with_reducible refine kept_fold_1 ?_ _ _ ?_) | intro _ | (simp only [kept_lit]) | (with_reducible apply kept_parts)
    | (with_reducible refine kept_of_eq_2 ‹draw _ = _› (draw_kept _ ?_))
    | (with_reducible refine kept_of_eq_2 ‹signature _ _ = _› (signature_kept _ _ ?_))
    | (with_reducible refine kept_ite ?_ ?_) | (dsimp only [id_eq]) | split

theorem execSessionOpen_kept (r : Req) (role : BitVec 8) (idleS : BitVec 16) (challenge : BitVec 256) (uid : BitVec 128) (eph : List Byte) (sig : List Byte) (s : State) (h : Kept C M s) : ∃ t, execSessionOpen r role idleS challenge uid eph sig s = .next t ∧ Kept C M t := by
  unfold execSessionOpen
  refine ⟨_, rfl, ?_⟩
  (try dsimp only)
  repeat' first
    | (with_reducible assumption) | (with_reducible apply rejectReq_kept) | (with_reducible apply dispatch_kept)
    | (with_reducible apply setSess_kept) | (with_reducible apply openFailed_kept) | (with_reducible apply wantRandom_kept)
    | (with_reducible apply noEntry_kept) | (with_reducible apply openSession_kept) | (with_reducible apply plan_fail)
    | (with_reducible apply plan_read) | (with_reducible apply plan_noRoom) | (with_reducible refine plan_do ?_)
    | (with_reducible refine plan_doBytes ?_) | (with_reducible refine kept_fold ?_ _ _ ?_)
    | (with_reducible refine kept_fold_2 ?_ _ _ ?_) | (with_reducible refine kept_fold_1 ?_ _ _ ?_) | intro _
    | (simp only [kept_lit]) | (with_reducible apply kept_parts)
    | (with_reducible refine kept_of_eq_2 ‹wantRandom _ = _› (wantRandom_kept _ ?_))
    | (with_reducible refine kept_of_eq_1 ‹noEntry _ = _› (noEntry_kept _ ?_))
    | (with_reducible refine kept_of_eq_1 ‹openSession _ _ _ _ _ _ = _› (openSession_kept _ _ _ _ _ _ ?_))
    | (with_reducible apply begin__kept) | (with_reducible refine kept_ite ?_ ?_) | (dsimp only [id_eq]) | split
    | (with_reducible refine plan_mk ?_)

theorem execSessionLockoutEnd_kept (role : Fin 4) (s : State) (h : Kept C M s) : ∃ t, execSessionLockoutEnd role s = .next t ∧ Kept C M t := by
  unfold execSessionLockoutEnd
  refine ⟨_, rfl, ?_⟩
  (try dsimp only)
  repeat' first
    | (with_reducible assumption) | (with_reducible apply whenRunning_kept) | (with_reducible apply begin__kept)
    | (with_reducible apply setSess_kept) | (with_reducible refine kept_fold ?_ _ _ ?_)
    | (with_reducible refine kept_fold_2 ?_ _ _ ?_) | (with_reducible refine kept_fold_1 ?_ _ _ ?_) | intro _
    | (simp only [kept_lit]) | (with_reducible apply kept_parts) | (with_reducible refine kept_ite ?_ ?_)
    | (dsimp only [id_eq]) | split

theorem execSessionIdleTimeout_kept (role : Fin 4) (s : State) (h : Kept C M s) : ∃ t, execSessionIdleTimeout role s = .next t ∧ Kept C M t := by
  unfold execSessionIdleTimeout
  refine ⟨_, rfl, ?_⟩
  (try dsimp only)
  repeat' first
    | (with_reducible assumption) | (with_reducible apply whenRunning_kept) | (with_reducible apply begin__kept)
    | (with_reducible apply closeSession_kept) | (with_reducible refine kept_fold ?_ _ _ ?_)
    | (with_reducible refine kept_fold_2 ?_ _ _ ?_) | (with_reducible refine kept_fold_1 ?_ _ _ ?_) | intro _
    | (simp only [kept_lit]) | (with_reducible apply kept_parts) | (with_reducible refine kept_ite ?_ ?_)
    | (dsimp only [id_eq]) | split

theorem execSessionLifetime_kept (role : Fin 4) (s : State) (h : Kept C M s) : ∃ t, execSessionLifetime role s = .next t ∧ Kept C M t := by
  unfold execSessionLifetime
  refine ⟨_, rfl, ?_⟩
  (try dsimp only)
  repeat' first
    | (with_reducible assumption) | (with_reducible apply whenRunning_kept) | (with_reducible apply begin__kept)
    | (with_reducible apply closeSession_kept) | (with_reducible refine kept_fold ?_ _ _ ?_)
    | (with_reducible refine kept_fold_2 ?_ _ _ ?_) | (with_reducible refine kept_fold_1 ?_ _ _ ?_) | intro _
    | (simp only [kept_lit]) | (with_reducible apply kept_parts) | (with_reducible refine kept_ite ?_ ?_)
    | (dsimp only [id_eq]) | split

theorem execSessionClose_kept (r : Req) (s : State) (h : Kept C M s) : ∃ t, execSessionClose r s = .next t ∧ Kept C M t := by
  unfold execSessionClose
  refine ⟨_, rfl, ?_⟩
  (try dsimp only)
  repeat' first
    | (with_reducible assumption) | (with_reducible apply dispatch_kept) | (with_reducible apply closeSession_kept)
    | (with_reducible apply plan_fail) | (with_reducible apply plan_read) | (with_reducible apply plan_noRoom)
    | (with_reducible refine plan_do ?_) | (with_reducible refine plan_doBytes ?_)
    | (with_reducible refine kept_fold ?_ _ _ ?_) | (with_reducible refine kept_fold_2 ?_ _ _ ?_)
    | (with_reducible refine kept_fold_1 ?_ _ _ ?_) | intro _ | (simp only [kept_lit]) | (with_reducible apply kept_parts)
    | (with_reducible apply begin__kept) | (with_reducible refine kept_ite ?_ ?_) | (dsimp only [id_eq]) | split
    | (with_reducible refine plan_mk ?_)

end Sys2Proof.Machine
end

