-- ==== Sys2Proof/Laws/KeepExec.lean ====
section
/-! SUPPORT. What every command leaves alone: the waiting commands; the beat count, ledger time, the INSTALLER map and the
key slots but for the commands that move them; an odometer and a ledger sequence that do not go back but for the commands
that clear them; and the soundness of the stores, which every command keeps. -/

namespace Sys2Proof.Machine

variable {C : Prop} {M : Mark}

/-- Every command answers a next state, which keeps a mark. -/
theorem exec_kept (c : Instr) (s : State) (h : Kept C M s) (hb : movesBeat c = true → M.beat = none)
    (hc : movesClock c = true → M.clock = none) (ho : movesOdo c = true → M.odo = none)
    (hs : movesSeq c = true → M.seq = none) (hm : movesMap c = true → M.map = none)
    (hk : movesSlots c = true → M.slots = none) : ∃ t, exec c s = .next t ∧ Kept C M t := by
  cases c with
  | coldReset cause => exact execColdReset_kept cause s h (hb rfl)
  | warmReset => exact execWarmReset_kept s h
  | startupPg straps pllLocked rbiasOk => exact execStartupPg_kept straps pllLocked rbiasOk s h
  | startupFuse reads temp => exact execStartupFuse_kept reads temp s h
  | startupSelftest firstOk secondOk => exact execStartupSelftest_kept firstOk secondOk s h
  | startupRoot rootOk checkOk storeOk => exact execStartupRoot_kept rootOk checkOk storeOk s h (hk rfl)
  | startupFw a b => exact execStartupFw_kept a b s h
  | startupLanes mapOk => exact execStartupLanes_kept mapOk s h
  | startupLedger chainBreak tailDirty => exact execStartupLedger_kept chainBreak tailDirty s h
  | startupMode => exact execStartupMode_kept s h
  | fieldWake vbat => exact execFieldWake_kept vbat s h (hb rfl)
  | alarmWake => exact execAlarmWake_kept s h (hb rfl)
  | vbatRiseSample mv => exact execVbatRiseSample_kept mv s h (hb rfl)
  | winWake pin => exact execWinWake_kept pin s h (hb rfl)
  | laneWake lane evt => exact execLaneWake_kept lane evt s h (hb rfl)
  | wakeReceiverShort lane => exact execWakeReceiverShort_kept lane s h
  | railPowerGood rail => exact execRailPowerGood_kept rail s h (hb rfl)
  | railTimeout rail => exact execRailTimeout_kept rail s h
  | railRetry => exact execRailRetry_kept s h
  | railLoss rail => exact execRailLoss_kept rail s h
  | brownOut => exact execBrownOut_kept s h
  | vbkpLoss => exact execVbkpLoss_kept s h (hc rfl) (ho rfl) (hs rfl) (hk rfl)
  | laneShed => exact execLaneShed_kept s h
  | laneShedReturn => exact execLaneShedReturn_kept s h
  | lowEnergyClear mv => exact execLowEnergyClear_kept mv s h
  | sagTrip vcore => exact execSagTrip_kept vcore s h
  | sagHalve => exact execSagHalve_kept s h
  | sagRelease vcore => exact execSagRelease_kept vcore s h
  | sentryDwellExpiry => exact execSentryDwellExpiry_kept s h
  | parkTimeout => exact execParkTimeout_kept s h
  | approachIdleExpiry => exact execApproachIdleExpiry_kept s h
  | serviceIdleTimeout => exact execServiceIdleTimeout_kept s h
  | depotIdleTimeout => exact execDepotIdleTimeout_kept s h
  | driveStartRequest lane ide id data => exact execDriveStartRequest_kept lane ide id data s h
  | driveStopRequest lane ide id data => exact execDriveStopRequest_kept lane ide id data s h
  | woutAckWrite => exact execWoutAckWrite_kept s h
  | pwrAlarmWrite w => exact execPwrAlarmWrite_kept w s h
  | gateRequestWrite pwr w => exact execGateRequestWrite_kept pwr w s h
  | gateEffect block => exact execGateEffect_kept block s h
  | vaultHold block => exact execVaultHold_kept block s h
  | vaultRelease block => exact execVaultRelease_kept block s h
  | beatBoundary env => exact execBeatBoundary_kept env s h (hb rfl) (hc rfl)
  | fwWindowStart => exact execFwWindowStart_kept s h
  | agePeriodStart => exact execAgePeriodStart_kept s h
  | bgsWindowStart work => exact execBgsWindowStart_kept work s h
  | telemRecord => exact execTelemRecord_kept s h
  | fuseRecheck reads temp => exact execFuseRecheck_kept reads temp s h
  | syncReceived dom m => exact execSyncReceived_kept dom m s h
  | syncTimeout dom own => exact execSyncTimeout_kept dom own s h
  | triggerFire c => exact execTriggerFire_kept c s h
  | trgcCfgWrite c w => exact execTrgcCfgWrite_kept c w s h
  | frameReceive f => exact execFrameReceive_kept f s h
  | pipeReset p => exact execPipeReset_kept p s h
  | spillOut g => exact execSpillOut_kept g s h
  | spillReturn p q => exact execSpillReturn_kept p q s h
  | carryVerify egr q corrupt => exact execCarryVerify_kept egr q corrupt s h
  | egressPick egr => exact execEgressPick_kept egr s h
  | canArbitrationEnd lane error => exact execCanArbitrationEnd_kept lane error s h
  | rsqTimeout stream egr => exact execRsqTimeout_kept stream egr s h
  | rsqContextExpiry stream egr => exact execRsqContextExpiry_kept stream egr s h
  | launchTimeReached egr q => exact execLaunchTimeReached_kept egr q s h
  | launchMiss egr q => exact execLaunchMiss_kept egr q s h
  | laneProbeEnd lane => exact execLaneProbeEnd_kept lane s h
  | laneFaultDetect lane code => exact execLaneFaultDetect_kept lane code s h
  | laneOpenDetect lane => exact execLaneOpenDetect_kept lane s h
  | laneReversal lane => exact execLaneReversal_kept lane s h
  | laneRetry lane present => exact execLaneRetry_kept lane present s h
  | laneFaultFree lane => exact execLaneFaultFree_kept lane s h
  | busOffRecovery lane => exact execBusOffRecovery_kept lane s h
  | linHeader lane => exact execLinHeader_kept lane s h
  | linResponse lane id rate missing => exact execLinResponse_kept lane id rate missing s h
  | plcaFallback lane => exact execPlcaFallback_kept lane s h
  | collision lane late => exact execCollision_kept lane late s h
  | backoffExpiry lane => exact execBackoffExpiry_kept lane s h
  | portUpDelay p => exact execPortUpDelay_kept p s h
  | linkChange p up speed => exact execLinkChange_kept p up speed s h
  | phyInt n => exact execPhyInt_kept n s h
  | pauseReceived p pfc en quanta => exact execPauseReceived_kept p pfc en quanta s h
  | pauseExpiry p b => exact execPauseExpiry_kept p b s h
  | pauseWdRx p b => exact execPauseWdRx_kept p b s h
  | pauseIgnoreEnd p b tx => exact execPauseIgnoreEnd_kept p b tx s h
  | pauseWdTx p b => exact execPauseWdTx_kept p b s h
  | pauseRefresh p b => exact execPauseRefresh_kept p b s h
  | lldpSend p => exact execLldpSend_kept p s h
  | lldpReceive p w => exact execLldpReceive_kept p w s h
  | lldpAgeOut p => exact execLldpAgeOut_kept p s h
  | lpiEnter p => exact execLpiEnter_kept p s h
  | lpiExit p => exact execLpiExit_kept p s h
  | tamper src => exact execTamper_kept src s h (hk rfl)
  | rngFail reseedOk => exact execRngFail_kept reseedOk s h
  | ciphSqTailWrite e idx jobIds => exact execCiphSqTailWrite_kept e idx jobIds s h
  | bulkJobStart e vault desc => exact execBulkJobStart_kept e vault desc s h
  | bulkJobComplete e m => exact execBulkJobComplete_kept e m s h
  | ciphKctlWrite e w => exact execCiphKctlWrite_kept e w s h
  | ciphKeywWrite e k w => exact execCiphKeywWrite_kept e k w s h
  | storeJob slot first run decrypt => exact execStoreJob_kept slot first run decrypt s h
  | engineWd e => exact execEngineWd_kept e s h
  | laneauthKeyLoad prof => exact execLaneauthKeyLoad_kept prof s h
  | laSave => exact execLaSave_kept s h
  | fieldSessionStart => exact execFieldSessionStart_kept s h
  | nfcApdu x => exact execNfcApdu_kept x s h
  | exchangeWindowClose => exact execExchangeWindowClose_kept s h
  | tagWiredAccess c write acc => exact execTagWiredAccess_kept c write acc s h
  | credentialCheck vbkp field vbat => exact execCredentialCheck_kept vbkp field vbat s h
  | nfcChallengeExpiry => exact execNfcChallengeExpiry_kept s h
  | fieldLossTimeout => exact execFieldLossTimeout_kept s h
  | pendingGrantRun => exact execPendingGrantRun_kept s h
  | pendingGrantExpiry => exact execPendingGrantExpiry_kept s h
  | credLockoutEnd host => exact execCredLockoutEnd_kept host s h
  | sessionLockoutEnd role => exact execSessionLockoutEnd_kept role s h
  | sessionChallengeExpiry role => exact execSessionChallengeExpiry_kept role s h
  | sessionIdleTimeout role => exact execSessionIdleTimeout_kept role s h
  | sessionLifetime role => exact execSessionLifetime_kept role s h
  | ledgerCommit programOk => exact execLedgerCommit_kept programOk s h
  | intervalClose => exact execIntervalClose_kept s h
  | trimUpdate periods => exact execTrimUpdate_kept periods s h (hc rfl)
  | denySummary => exact execDenySummary_kept s h
  | toothEdge n width => exact execToothEdge_kept n width s h
  | syntheticTooth n => exact execSyntheticTooth_kept n s h
  | trackerStall n => exact execTrackerStall_kept n s h
  | trackerFault n code => exact execTrackerFault_kept n code s h
  | trackerFaultClear n => exact execTrackerFaultClear_kept n s h
  | motionTimeout n => exact execMotionTimeout_kept n s h
  | angleEvent k => exact execAngleEvent_kept k s h
  | conversionDone ch sin cos theta => exact execConversionDone_kept ch sin cos theta s h
  | boltLimit b => exact execBoltLimit_kept b s h
  | boltRetry b => exact execBoltRetry_kept b s h
  | keysafeHoldExpiry => exact execKeysafeHoldExpiry_kept s h
  | cmpoPulseEnd k => exact execCmpoPulseEnd_kept k s h
  | bridgeReset => exact execBridgeReset_kept s h
  | lockedReadTlp => exact execLockedReadTlp_kept s h
  | spiRead addr count => exact execSpiRead_kept addr count s h
  | spiWrite addr words => exact execSpiWrite_kept addr words s h
  | wstat => exact execWstat_kept s h
  | spiAbort => exact execSpiAbort_kept s h
  | cmdPut length opcode session seq => exact execCmdPut_kept length opcode session seq s h
  | cmdGet => exact execCmdGet_kept s h
  | cmdRingFetch opcode session seq => exact execCmdRingFetch_kept opcode session seq s h
  | cmdReject r opcode unlisted => exact execCmdReject_kept r opcode unlisted s h
  | hpTxDescriptor desc bytes stuck decided => exact execHpTxDescriptor_kept desc bytes stuck decided s h
  | hpRxDeliver buf => exact execHpRxDeliver_kept buf s h
  | dmaTimeout op => exact execDmaTimeout_kept op s h
  | hostLostWrite c => exact execHostLostWrite_kept c s h
  | msixSend vec fmask => exact execMsixSend_kept vec fmask s h
  | semAcquire c k owner => exact execSemAcquire_kept c k owner s h
  | semRelease c k w => exact execSemRelease_kept c k w s h
  | semCommit c k w off data mask => exact execSemCommit_kept c k w off data mask s h
  | semLeaseExpiry k => exact execSemLeaseExpiry_kept k s h
  | helloSend => exact execHelloSend_kept s h
  | helberReceive port f => exact execHelberReceive_kept port f s h
  | peerLostTimeout node => exact execPeerLostTimeout_kept node s h
  | peerAbsentTimeout node => exact execPeerAbsentTimeout_kept node s h
  | pushAckSend src id total img commitOk => exact execPushAckSend_kept src id total img commitOk s h (hk rfl)
  | pushResendRound => exact execPushResendRound_kept s h
  | blobDiscard src id => exact execBlobDiscard_kept src id s h
  | pullSend node => exact execPullSend_kept node s h
  | freezeEnter => exact execFreezeEnter_kept s h
  | freezeIgnored => exact execFreezeIgnored_kept s h
  | freezeExit => exact execFreezeExit_kept s h (hb rfl)
  | freezeWindowEnd => exact execFreezeWindowEnd_kept s h
  | snapAddr a => exact execSnapAddr_kept a s h
  | snapData => exact execSnapData_kept s h
  | evtPendWrite c g w => exact execEvtPendWrite_kept c g w s h
  | evtEnWrite c g w => exact execEvtEnWrite_kept c g w s h
  | evtTestWrite c w => exact execEvtTestWrite_kept c w s h
  | cckInjectWrite c w => exact execCckInjectWrite_kept c w s h
  | statLowWordRead c off => exact execStatLowWordRead_kept c off s h
  | rcRead c t acc => exact execRcRead_kept c t acc s h
  | timeNsRead n => exact execTimeNsRead_kept n s h
  | ldgLoRead c off => exact execLdgLoRead_kept c off s h
  | regWrite c t acc => exact execRegWrite_kept c t acc s h
  | sysInfo r => exact execSysInfo_kept r s h
  | sessionChallenge r role => exact execSessionChallenge_kept r role s h
  | sessionOpen r role idleS challenge uid eph sig => exact execSessionOpen_kept r role idleS challenge uid eph sig s h
  | sessionClose r => exact execSessionClose_kept r s h
  | fwLoad r buf len img readOk => exact execFwLoad_kept r buf len img readOk s h
  | fwCommit r => exact execFwCommit_kept r s h
  | sysReset r kind => exact execSysReset_kept r kind s h
  | lifecycleAdvance r target => exact execLifecycleAdvance_kept r target s h (hk rfl)
  | mapLoad r buf len m formOk readOk => exact execMapLoad_kept r buf len m formOk readOk s h (hm rfl)
  | mapRead r buf len => exact execMapRead_kept r buf len s h
  | modeSet r target => exact execModeSet_kept r target s h
  | blockGate r block kind => exact execBlockGate_kept r block kind s h
  | laneConfig r lane img => exact execLaneConfig_kept r lane img s h (hm rfl)
  | laneRecover r lane => exact execLaneRecover_kept r lane s h
  | portConfig r port img => exact execPortConfig_kept r port img s h (hm rfl)
  | phyRead r phy clause dev reg value => exact execPhyRead_kept r phy clause dev reg value s h
  | phyWrite r phy clause dev reg value answered => exact execPhyWrite_kept r phy clause dev reg value answered s h (hm rfl)
  | tblWrite r table flags pmask index entry => exact execTblWrite_kept r table flags pmask index entry s h (hm rfl)
  | tblRead r table pipe node index key rsp => exact execTblRead_kept r table pipe node index key rsp s h
  | tblDelete r table pmask index key => exact execTblDelete_kept r table pmask index key s h
  | tblFlush r pmask flags => exact execTblFlush_kept r pmask flags s h
  | tblCommit r => exact execTblCommit_kept r s h (hm rfl)
  | swConfig r kind index img => exact execSwConfig_kept r kind index img s h (hm rfl)
  | polConfig r policer img => exact execPolConfig_kept r policer img s h (hm rfl)
  | schConfig r egr p => exact execSchConfig_kept r egr p s h (hm rfl)
  | carryReport r time node ing expv got => exact execCarryReport_kept r time node ing expv got s h
  | timeBeatSet r len dom align => exact execTimeBeatSet_kept r len dom align s h (hm rfl)
  | timeConfig r index img => exact execTimeConfig_kept r index img s h (hm rfl)
  | keyUpdate r msg => exact execKeyUpdate_kept r msg s h (hk rfl)
  | keyAttest r slot nonce => exact execKeyAttest_kept r slot nonce s h
  | rootProvision r => exact execRootProvision_kept r s h (hs rfl) (hk rfl)
  | laConfig r prof img => exact execLaConfig_kept r prof img s h (hm rfl)
  | entryChallenge r => exact execEntryChallenge_kept r s h
  | entrySubmit r head token proof => exact execEntrySubmit_kept r head token proof s h
  | credRevoke r op tokenId => exact execCredRevoke_kept r op tokenId s h
  | credEpoch r epoch => exact execCredEpoch_kept r epoch s h
  | tripOpen r tripRef tokenId => exact execTripOpen_kept r tripRef tokenId s h
  | tripClose r tripRef => exact execTripClose_kept r tripRef s h
  | forceLock r => exact execForceLock_kept r s h
  | immobilise r => exact execImmobilise_kept r s h
  | tripPermit r drive => exact execTripPermit_kept r drive s h
  | entryConfig r holdS start stop unlock lock => exact execEntryConfig_kept r holdS start stop unlock lock s h (hm rfl)
  | ldgRead r first count buf nonce breakAt => exact execLdgRead_kept r first count buf nonce breakAt s h
  | ldgBilling r period tariff => exact execLdgBilling_kept r period tariff s h
  | wallSet r sec frac => exact execWallSet_kept r sec frac s h
  | ttConfig r tracker img => exact execTtConfig_kept r tracker img s h (hm rfl)
  | angEventSet r first count entries => exact execAngEventSet_kept r first count entries s h (hm rfl)
  | fbConfig r kind index img => exact execFbConfig_kept r kind index img s h (hm rfl)
  | fbCal r ch avg => exact execFbCal_kept r ch avg s h (hm rfl)
  | boltMove r bolt dir => exact execBoltMove_kept r bolt dir s h
  | hlbConfig r node kind ports domain keyslot => exact execHlbConfig_kept r node kind ports domain keyslot s h (hm rfl)
  | hlbMembers r first => exact execHlbMembers_kept r first s h
  | hlbPush r kind buf len blob commitOk readOk => exact execHlbPush_kept r kind buf len blob commitOk readOk s h (hk rfl)
  | freezeArm r window => exact execFreezeArm_kept r window s h
  | freezeDisarm r => exact execFreezeDisarm_kept r s h
  | diagLoopback r target kind => exact execDiagLoopback_kept r target kind s h
  | telemRead r buf => exact execTelemRead_kept r buf s h
  | frameTransmitEnd egr converted back => exact execFrameTransmitEnd_kept egr converted back s h
  | plcaBeacon lane => exact execPlcaBeacon_kept lane s h
  | fieldSessionEnd => exact execFieldSessionEnd_kept s h
  | excOverload ch => exact execExcOverload_kept ch s h
  | pcieLinkUp width rate => exact execPcieLinkUp_kept width rate s h
  | vbkpPowerUp => exact execVbkpPowerUp_kept s h (hc rfl) (ho rfl) (hs rfl) (hk rfl)
  | holdMsWrap dom => exact execHoldMsWrap_kept dom s h
  | ledgerTimeFinal => exact execLedgerTimeFinal_kept s h
  | wakeReceiverFrame lane ok => exact execWakeReceiverFrame_kept lane ok s h (hb rfl)
  | laneRoleSwap lane => exact execLaneRoleSwap_kept lane s h
  | partnerLpi p enter => exact execPartnerLpi_kept p enter s h
  | sysResetDeadline => exact execSysResetDeadline_kept s h

end Sys2Proof.Machine
end

