-- ==== Sys2Proof/Laws/State.lean ====
section
/-! SUPPORT. What each basic operation leaves of each field of the state. -/

namespace Sys2Proof.Machine

set_option linter.unusedTactic false
set_option linter.unreachableTactic false

/-- A fold whose steps leave a part of the state leaves that part. -/
theorem foldl_field {α β : Type} (p : State → α) {F : State → β → State} (h : ∀ s x, p (F s x) = p s) :
    ∀ (l : List β) (s : State), p (l.foldl F s) = p s
  | [], _ => rfl
  | x :: l, s => (foldl_field p h l (F s x)).trans (h s x)

@[simp] theorem wri_shadow (s : State) (a : ℕ) (i : ℕ) (v : Word) : ((wri s a i v)).shadow = s.shadow := rfl
@[simp] theorem wri_sel (s : State) (a : ℕ) (i : ℕ) (v : Word) : ((wri s a i v)).sel = s.sel := rfl
@[simp] theorem wri_power (s : State) (a : ℕ) (i : ℕ) (v : Word) : ((wri s a i v)).power = s.power := rfl
@[simp] theorem wri_boot (s : State) (a : ℕ) (i : ℕ) (v : Word) : ((wri s a i v)).boot = s.boot := rfl
@[simp] theorem wri_fuses (s : State) (a : ℕ) (i : ℕ) (v : Word) : ((wri s a i v)).fuses = s.fuses := rfl
@[simp] theorem wri_sess (s : State) (a : ℕ) (i : ℕ) (v : Word) : ((wri s a i v)).sess = s.sess := rfl
@[simp] theorem wri_deny (s : State) (a : ℕ) (i : ℕ) (v : Word) : ((wri s a i v)).deny = s.deny := rfl
@[simp] theorem wri_disp (s : State) (a : ℕ) (i : ℕ) (v : Word) : ((wri s a i v)).disp = s.disp := rfl
@[simp] theorem wri_time (s : State) (a : ℕ) (i : ℕ) (v : Word) : ((wri s a i v)).time = s.time := rfl
@[simp] theorem wri_vault (s : State) (a : ℕ) (i : ℕ) (v : Word) : ((wri s a i v)).vault = s.vault := rfl
@[simp] theorem wri_nfc (s : State) (a : ℕ) (i : ℕ) (v : Word) : ((wri s a i v)).nfc = s.nfc := rfl
@[simp] theorem wri_ledger (s : State) (a : ℕ) (i : ℕ) (v : Word) : ((wri s a i v)).ledger = s.ledger := rfl
@[simp] theorem wri_lanes (s : State) (a : ℕ) (i : ℕ) (v : Word) : ((wri s a i v)).lanes = s.lanes := rfl
@[simp] theorem wri_aon (s : State) (a : ℕ) (i : ℕ) (v : Word) : ((wri s a i v)).aon = s.aon := rfl
@[simp] theorem wri_net (s : State) (a : ℕ) (i : ℕ) (v : Word) : ((wri s a i v)).net = s.net := rfl
@[simp] theorem wri_tables (s : State) (a : ℕ) (i : ℕ) (v : Word) : ((wri s a i v)).tables = s.tables := rfl
@[simp] theorem wri_ports (s : State) (a : ℕ) (i : ℕ) (v : Word) : ((wri s a i v)).ports = s.ports := rfl
@[simp] theorem wri_cipher (s : State) (a : ℕ) (i : ℕ) (v : Word) : ((wri s a i v)).cipher = s.cipher := rfl
@[simp] theorem wri_bridge (s : State) (a : ℕ) (i : ℕ) (v : Word) : ((wri s a i v)).bridge = s.bridge := rfl
@[simp] theorem wri_hlb (s : State) (a : ℕ) (i : ℕ) (v : Word) : ((wri s a i v)).hlb = s.hlb := rfl
@[simp] theorem wri_wheels (s : State) (a : ℕ) (i : ℕ) (v : Word) : ((wri s a i v)).wheels = s.wheels := rfl
@[simp] theorem wri_map (s : State) (a : ℕ) (i : ℕ) (v : Word) : ((wri s a i v)).map = s.map := rfl
@[simp] theorem wri_changes (s : State) (a : ℕ) (i : ℕ) (v : Word) : ((wri s a i v)).changes = s.changes := rfl
@[simp] theorem wri_bgs (s : State) (a : ℕ) (i : ℕ) (v : Word) : ((wri s a i v)).bgs = s.bgs := rfl
@[simp] theorem wri_mem (s : State) (a : ℕ) (i : ℕ) (v : Word) : ((wri s a i v)).mem = s.mem := rfl
@[simp] theorem wri_freeze (s : State) (a : ℕ) (i : ℕ) (v : Word) : ((wri s a i v)).freeze = s.freeze := rfl
@[simp] theorem wri_out (s : State) (a : ℕ) (i : ℕ) (v : Word) : ((wri s a i v)).out = s.out := rfl
@[simp] theorem wri_fresh (s : State) (a : ℕ) (i : ℕ) (v : Word) : ((wri s a i v)).fresh = s.fresh := rfl
@[simp] theorem wri_pending (s : State) (a : ℕ) (i : ℕ) (v : Word) : ((wri s a i v)).pending = s.pending := rfl
@[simp] theorem wr_shadow (s : State) (a : ℕ) (v : Word) : ((wr s a v)).shadow = s.shadow := rfl
@[simp] theorem wr_sel (s : State) (a : ℕ) (v : Word) : ((wr s a v)).sel = s.sel := rfl
@[simp] theorem wr_power (s : State) (a : ℕ) (v : Word) : ((wr s a v)).power = s.power := rfl
@[simp] theorem wr_boot (s : State) (a : ℕ) (v : Word) : ((wr s a v)).boot = s.boot := rfl
@[simp] theorem wr_fuses (s : State) (a : ℕ) (v : Word) : ((wr s a v)).fuses = s.fuses := rfl
@[simp] theorem wr_sess (s : State) (a : ℕ) (v : Word) : ((wr s a v)).sess = s.sess := rfl
@[simp] theorem wr_deny (s : State) (a : ℕ) (v : Word) : ((wr s a v)).deny = s.deny := rfl
@[simp] theorem wr_disp (s : State) (a : ℕ) (v : Word) : ((wr s a v)).disp = s.disp := rfl
@[simp] theorem wr_time (s : State) (a : ℕ) (v : Word) : ((wr s a v)).time = s.time := rfl
@[simp] theorem wr_vault (s : State) (a : ℕ) (v : Word) : ((wr s a v)).vault = s.vault := rfl
@[simp] theorem wr_nfc (s : State) (a : ℕ) (v : Word) : ((wr s a v)).nfc = s.nfc := rfl
@[simp] theorem wr_ledger (s : State) (a : ℕ) (v : Word) : ((wr s a v)).ledger = s.ledger := rfl
@[simp] theorem wr_lanes (s : State) (a : ℕ) (v : Word) : ((wr s a v)).lanes = s.lanes := rfl
@[simp] theorem wr_aon (s : State) (a : ℕ) (v : Word) : ((wr s a v)).aon = s.aon := rfl
@[simp] theorem wr_net (s : State) (a : ℕ) (v : Word) : ((wr s a v)).net = s.net := rfl
@[simp] theorem wr_tables (s : State) (a : ℕ) (v : Word) : ((wr s a v)).tables = s.tables := rfl
@[simp] theorem wr_ports (s : State) (a : ℕ) (v : Word) : ((wr s a v)).ports = s.ports := rfl
@[simp] theorem wr_cipher (s : State) (a : ℕ) (v : Word) : ((wr s a v)).cipher = s.cipher := rfl
@[simp] theorem wr_bridge (s : State) (a : ℕ) (v : Word) : ((wr s a v)).bridge = s.bridge := rfl
@[simp] theorem wr_hlb (s : State) (a : ℕ) (v : Word) : ((wr s a v)).hlb = s.hlb := rfl
@[simp] theorem wr_wheels (s : State) (a : ℕ) (v : Word) : ((wr s a v)).wheels = s.wheels := rfl
@[simp] theorem wr_map (s : State) (a : ℕ) (v : Word) : ((wr s a v)).map = s.map := rfl
@[simp] theorem wr_changes (s : State) (a : ℕ) (v : Word) : ((wr s a v)).changes = s.changes := rfl
@[simp] theorem wr_bgs (s : State) (a : ℕ) (v : Word) : ((wr s a v)).bgs = s.bgs := rfl
@[simp] theorem wr_mem (s : State) (a : ℕ) (v : Word) : ((wr s a v)).mem = s.mem := rfl
@[simp] theorem wr_freeze (s : State) (a : ℕ) (v : Word) : ((wr s a v)).freeze = s.freeze := rfl
@[simp] theorem wr_out (s : State) (a : ℕ) (v : Word) : ((wr s a v)).out = s.out := rfl
@[simp] theorem wr_fresh (s : State) (a : ℕ) (v : Word) : ((wr s a v)).fresh = s.fresh := rfl
@[simp] theorem wr_pending (s : State) (a : ℕ) (v : Word) : ((wr s a v)).pending = s.pending := rfl
@[simp] theorem orReg_shadow (s : State) (a : ℕ) (i : ℕ) (m : Word) : ((orReg s a i m)).shadow = s.shadow := rfl
@[simp] theorem orReg_sel (s : State) (a : ℕ) (i : ℕ) (m : Word) : ((orReg s a i m)).sel = s.sel := rfl
@[simp] theorem orReg_power (s : State) (a : ℕ) (i : ℕ) (m : Word) : ((orReg s a i m)).power = s.power := rfl
@[simp] theorem orReg_boot (s : State) (a : ℕ) (i : ℕ) (m : Word) : ((orReg s a i m)).boot = s.boot := rfl
@[simp] theorem orReg_fuses (s : State) (a : ℕ) (i : ℕ) (m : Word) : ((orReg s a i m)).fuses = s.fuses := rfl
@[simp] theorem orReg_sess (s : State) (a : ℕ) (i : ℕ) (m : Word) : ((orReg s a i m)).sess = s.sess := rfl
@[simp] theorem orReg_deny (s : State) (a : ℕ) (i : ℕ) (m : Word) : ((orReg s a i m)).deny = s.deny := rfl
@[simp] theorem orReg_disp (s : State) (a : ℕ) (i : ℕ) (m : Word) : ((orReg s a i m)).disp = s.disp := rfl
@[simp] theorem orReg_time (s : State) (a : ℕ) (i : ℕ) (m : Word) : ((orReg s a i m)).time = s.time := rfl
@[simp] theorem orReg_vault (s : State) (a : ℕ) (i : ℕ) (m : Word) : ((orReg s a i m)).vault = s.vault := rfl
@[simp] theorem orReg_nfc (s : State) (a : ℕ) (i : ℕ) (m : Word) : ((orReg s a i m)).nfc = s.nfc := rfl
@[simp] theorem orReg_ledger (s : State) (a : ℕ) (i : ℕ) (m : Word) : ((orReg s a i m)).ledger = s.ledger := rfl
@[simp] theorem orReg_lanes (s : State) (a : ℕ) (i : ℕ) (m : Word) : ((orReg s a i m)).lanes = s.lanes := rfl
@[simp] theorem orReg_aon (s : State) (a : ℕ) (i : ℕ) (m : Word) : ((orReg s a i m)).aon = s.aon := rfl
@[simp] theorem orReg_net (s : State) (a : ℕ) (i : ℕ) (m : Word) : ((orReg s a i m)).net = s.net := rfl
@[simp] theorem orReg_tables (s : State) (a : ℕ) (i : ℕ) (m : Word) : ((orReg s a i m)).tables = s.tables := rfl
@[simp] theorem orReg_ports (s : State) (a : ℕ) (i : ℕ) (m : Word) : ((orReg s a i m)).ports = s.ports := rfl
@[simp] theorem orReg_cipher (s : State) (a : ℕ) (i : ℕ) (m : Word) : ((orReg s a i m)).cipher = s.cipher := rfl
@[simp] theorem orReg_bridge (s : State) (a : ℕ) (i : ℕ) (m : Word) : ((orReg s a i m)).bridge = s.bridge := rfl
@[simp] theorem orReg_hlb (s : State) (a : ℕ) (i : ℕ) (m : Word) : ((orReg s a i m)).hlb = s.hlb := rfl
@[simp] theorem orReg_wheels (s : State) (a : ℕ) (i : ℕ) (m : Word) : ((orReg s a i m)).wheels = s.wheels := rfl
@[simp] theorem orReg_map (s : State) (a : ℕ) (i : ℕ) (m : Word) : ((orReg s a i m)).map = s.map := rfl
@[simp] theorem orReg_changes (s : State) (a : ℕ) (i : ℕ) (m : Word) : ((orReg s a i m)).changes = s.changes := rfl
@[simp] theorem orReg_bgs (s : State) (a : ℕ) (i : ℕ) (m : Word) : ((orReg s a i m)).bgs = s.bgs := rfl
@[simp] theorem orReg_mem (s : State) (a : ℕ) (i : ℕ) (m : Word) : ((orReg s a i m)).mem = s.mem := rfl
@[simp] theorem orReg_freeze (s : State) (a : ℕ) (i : ℕ) (m : Word) : ((orReg s a i m)).freeze = s.freeze := rfl
@[simp] theorem orReg_out (s : State) (a : ℕ) (i : ℕ) (m : Word) : ((orReg s a i m)).out = s.out := rfl
@[simp] theorem orReg_fresh (s : State) (a : ℕ) (i : ℕ) (m : Word) : ((orReg s a i m)).fresh = s.fresh := rfl
@[simp] theorem orReg_pending (s : State) (a : ℕ) (i : ℕ) (m : Word) : ((orReg s a i m)).pending = s.pending := rfl
@[simp] theorem clrReg_shadow (s : State) (a : ℕ) (i : ℕ) (m : Word) : ((clrReg s a i m)).shadow = s.shadow := rfl
@[simp] theorem clrReg_sel (s : State) (a : ℕ) (i : ℕ) (m : Word) : ((clrReg s a i m)).sel = s.sel := rfl
@[simp] theorem clrReg_power (s : State) (a : ℕ) (i : ℕ) (m : Word) : ((clrReg s a i m)).power = s.power := rfl
@[simp] theorem clrReg_boot (s : State) (a : ℕ) (i : ℕ) (m : Word) : ((clrReg s a i m)).boot = s.boot := rfl
@[simp] theorem clrReg_fuses (s : State) (a : ℕ) (i : ℕ) (m : Word) : ((clrReg s a i m)).fuses = s.fuses := rfl
@[simp] theorem clrReg_sess (s : State) (a : ℕ) (i : ℕ) (m : Word) : ((clrReg s a i m)).sess = s.sess := rfl
@[simp] theorem clrReg_deny (s : State) (a : ℕ) (i : ℕ) (m : Word) : ((clrReg s a i m)).deny = s.deny := rfl
@[simp] theorem clrReg_disp (s : State) (a : ℕ) (i : ℕ) (m : Word) : ((clrReg s a i m)).disp = s.disp := rfl
@[simp] theorem clrReg_time (s : State) (a : ℕ) (i : ℕ) (m : Word) : ((clrReg s a i m)).time = s.time := rfl
@[simp] theorem clrReg_vault (s : State) (a : ℕ) (i : ℕ) (m : Word) : ((clrReg s a i m)).vault = s.vault := rfl
@[simp] theorem clrReg_nfc (s : State) (a : ℕ) (i : ℕ) (m : Word) : ((clrReg s a i m)).nfc = s.nfc := rfl
@[simp] theorem clrReg_ledger (s : State) (a : ℕ) (i : ℕ) (m : Word) : ((clrReg s a i m)).ledger = s.ledger := rfl
@[simp] theorem clrReg_lanes (s : State) (a : ℕ) (i : ℕ) (m : Word) : ((clrReg s a i m)).lanes = s.lanes := rfl
@[simp] theorem clrReg_aon (s : State) (a : ℕ) (i : ℕ) (m : Word) : ((clrReg s a i m)).aon = s.aon := rfl
@[simp] theorem clrReg_net (s : State) (a : ℕ) (i : ℕ) (m : Word) : ((clrReg s a i m)).net = s.net := rfl
@[simp] theorem clrReg_tables (s : State) (a : ℕ) (i : ℕ) (m : Word) : ((clrReg s a i m)).tables = s.tables := rfl
@[simp] theorem clrReg_ports (s : State) (a : ℕ) (i : ℕ) (m : Word) : ((clrReg s a i m)).ports = s.ports := rfl
@[simp] theorem clrReg_cipher (s : State) (a : ℕ) (i : ℕ) (m : Word) : ((clrReg s a i m)).cipher = s.cipher := rfl
@[simp] theorem clrReg_bridge (s : State) (a : ℕ) (i : ℕ) (m : Word) : ((clrReg s a i m)).bridge = s.bridge := rfl
@[simp] theorem clrReg_hlb (s : State) (a : ℕ) (i : ℕ) (m : Word) : ((clrReg s a i m)).hlb = s.hlb := rfl
@[simp] theorem clrReg_wheels (s : State) (a : ℕ) (i : ℕ) (m : Word) : ((clrReg s a i m)).wheels = s.wheels := rfl
@[simp] theorem clrReg_map (s : State) (a : ℕ) (i : ℕ) (m : Word) : ((clrReg s a i m)).map = s.map := rfl
@[simp] theorem clrReg_changes (s : State) (a : ℕ) (i : ℕ) (m : Word) : ((clrReg s a i m)).changes = s.changes := rfl
@[simp] theorem clrReg_bgs (s : State) (a : ℕ) (i : ℕ) (m : Word) : ((clrReg s a i m)).bgs = s.bgs := rfl
@[simp] theorem clrReg_mem (s : State) (a : ℕ) (i : ℕ) (m : Word) : ((clrReg s a i m)).mem = s.mem := rfl
@[simp] theorem clrReg_freeze (s : State) (a : ℕ) (i : ℕ) (m : Word) : ((clrReg s a i m)).freeze = s.freeze := rfl
@[simp] theorem clrReg_out (s : State) (a : ℕ) (i : ℕ) (m : Word) : ((clrReg s a i m)).out = s.out := rfl
@[simp] theorem clrReg_fresh (s : State) (a : ℕ) (i : ℕ) (m : Word) : ((clrReg s a i m)).fresh = s.fresh := rfl
@[simp] theorem clrReg_pending (s : State) (a : ℕ) (i : ℕ) (m : Word) : ((clrReg s a i m)).pending = s.pending := rfl
@[simp] theorem statIncI_shadow (s : State) (a : ℕ) (i : ℕ) : ((statIncI s a i)).shadow = s.shadow := rfl
@[simp] theorem statIncI_sel (s : State) (a : ℕ) (i : ℕ) : ((statIncI s a i)).sel = s.sel := rfl
@[simp] theorem statIncI_power (s : State) (a : ℕ) (i : ℕ) : ((statIncI s a i)).power = s.power := rfl
@[simp] theorem statIncI_boot (s : State) (a : ℕ) (i : ℕ) : ((statIncI s a i)).boot = s.boot := rfl
@[simp] theorem statIncI_fuses (s : State) (a : ℕ) (i : ℕ) : ((statIncI s a i)).fuses = s.fuses := rfl
@[simp] theorem statIncI_sess (s : State) (a : ℕ) (i : ℕ) : ((statIncI s a i)).sess = s.sess := rfl
@[simp] theorem statIncI_deny (s : State) (a : ℕ) (i : ℕ) : ((statIncI s a i)).deny = s.deny := rfl
@[simp] theorem statIncI_disp (s : State) (a : ℕ) (i : ℕ) : ((statIncI s a i)).disp = s.disp := rfl
@[simp] theorem statIncI_time (s : State) (a : ℕ) (i : ℕ) : ((statIncI s a i)).time = s.time := rfl
@[simp] theorem statIncI_vault (s : State) (a : ℕ) (i : ℕ) : ((statIncI s a i)).vault = s.vault := rfl
@[simp] theorem statIncI_nfc (s : State) (a : ℕ) (i : ℕ) : ((statIncI s a i)).nfc = s.nfc := rfl
@[simp] theorem statIncI_ledger (s : State) (a : ℕ) (i : ℕ) : ((statIncI s a i)).ledger = s.ledger := rfl
@[simp] theorem statIncI_lanes (s : State) (a : ℕ) (i : ℕ) : ((statIncI s a i)).lanes = s.lanes := rfl
@[simp] theorem statIncI_aon (s : State) (a : ℕ) (i : ℕ) : ((statIncI s a i)).aon = s.aon := rfl
@[simp] theorem statIncI_net (s : State) (a : ℕ) (i : ℕ) : ((statIncI s a i)).net = s.net := rfl
@[simp] theorem statIncI_tables (s : State) (a : ℕ) (i : ℕ) : ((statIncI s a i)).tables = s.tables := rfl
@[simp] theorem statIncI_ports (s : State) (a : ℕ) (i : ℕ) : ((statIncI s a i)).ports = s.ports := rfl
@[simp] theorem statIncI_cipher (s : State) (a : ℕ) (i : ℕ) : ((statIncI s a i)).cipher = s.cipher := rfl
@[simp] theorem statIncI_bridge (s : State) (a : ℕ) (i : ℕ) : ((statIncI s a i)).bridge = s.bridge := rfl
@[simp] theorem statIncI_hlb (s : State) (a : ℕ) (i : ℕ) : ((statIncI s a i)).hlb = s.hlb := rfl
@[simp] theorem statIncI_wheels (s : State) (a : ℕ) (i : ℕ) : ((statIncI s a i)).wheels = s.wheels := rfl
@[simp] theorem statIncI_map (s : State) (a : ℕ) (i : ℕ) : ((statIncI s a i)).map = s.map := rfl
@[simp] theorem statIncI_changes (s : State) (a : ℕ) (i : ℕ) : ((statIncI s a i)).changes = s.changes := rfl
@[simp] theorem statIncI_bgs (s : State) (a : ℕ) (i : ℕ) : ((statIncI s a i)).bgs = s.bgs := rfl
@[simp] theorem statIncI_mem (s : State) (a : ℕ) (i : ℕ) : ((statIncI s a i)).mem = s.mem := rfl
@[simp] theorem statIncI_freeze (s : State) (a : ℕ) (i : ℕ) : ((statIncI s a i)).freeze = s.freeze := rfl
@[simp] theorem statIncI_out (s : State) (a : ℕ) (i : ℕ) : ((statIncI s a i)).out = s.out := rfl
@[simp] theorem statIncI_fresh (s : State) (a : ℕ) (i : ℕ) : ((statIncI s a i)).fresh = s.fresh := rfl
@[simp] theorem statIncI_pending (s : State) (a : ℕ) (i : ℕ) : ((statIncI s a i)).pending = s.pending := rfl
@[simp] theorem statInc_shadow (s : State) (a : ℕ) : ((statInc s a)).shadow = s.shadow := rfl
@[simp] theorem statInc_sel (s : State) (a : ℕ) : ((statInc s a)).sel = s.sel := rfl
@[simp] theorem statInc_power (s : State) (a : ℕ) : ((statInc s a)).power = s.power := rfl
@[simp] theorem statInc_boot (s : State) (a : ℕ) : ((statInc s a)).boot = s.boot := rfl
@[simp] theorem statInc_fuses (s : State) (a : ℕ) : ((statInc s a)).fuses = s.fuses := rfl
@[simp] theorem statInc_sess (s : State) (a : ℕ) : ((statInc s a)).sess = s.sess := rfl
@[simp] theorem statInc_deny (s : State) (a : ℕ) : ((statInc s a)).deny = s.deny := rfl
@[simp] theorem statInc_disp (s : State) (a : ℕ) : ((statInc s a)).disp = s.disp := rfl
@[simp] theorem statInc_time (s : State) (a : ℕ) : ((statInc s a)).time = s.time := rfl
@[simp] theorem statInc_vault (s : State) (a : ℕ) : ((statInc s a)).vault = s.vault := rfl
@[simp] theorem statInc_nfc (s : State) (a : ℕ) : ((statInc s a)).nfc = s.nfc := rfl
@[simp] theorem statInc_ledger (s : State) (a : ℕ) : ((statInc s a)).ledger = s.ledger := rfl
@[simp] theorem statInc_lanes (s : State) (a : ℕ) : ((statInc s a)).lanes = s.lanes := rfl
@[simp] theorem statInc_aon (s : State) (a : ℕ) : ((statInc s a)).aon = s.aon := rfl
@[simp] theorem statInc_net (s : State) (a : ℕ) : ((statInc s a)).net = s.net := rfl
@[simp] theorem statInc_tables (s : State) (a : ℕ) : ((statInc s a)).tables = s.tables := rfl
@[simp] theorem statInc_ports (s : State) (a : ℕ) : ((statInc s a)).ports = s.ports := rfl
@[simp] theorem statInc_cipher (s : State) (a : ℕ) : ((statInc s a)).cipher = s.cipher := rfl
@[simp] theorem statInc_bridge (s : State) (a : ℕ) : ((statInc s a)).bridge = s.bridge := rfl
@[simp] theorem statInc_hlb (s : State) (a : ℕ) : ((statInc s a)).hlb = s.hlb := rfl
@[simp] theorem statInc_wheels (s : State) (a : ℕ) : ((statInc s a)).wheels = s.wheels := rfl
@[simp] theorem statInc_map (s : State) (a : ℕ) : ((statInc s a)).map = s.map := rfl
@[simp] theorem statInc_changes (s : State) (a : ℕ) : ((statInc s a)).changes = s.changes := rfl
@[simp] theorem statInc_bgs (s : State) (a : ℕ) : ((statInc s a)).bgs = s.bgs := rfl
@[simp] theorem statInc_mem (s : State) (a : ℕ) : ((statInc s a)).mem = s.mem := rfl
@[simp] theorem statInc_freeze (s : State) (a : ℕ) : ((statInc s a)).freeze = s.freeze := rfl
@[simp] theorem statInc_out (s : State) (a : ℕ) : ((statInc s a)).out = s.out := rfl
@[simp] theorem statInc_fresh (s : State) (a : ℕ) : ((statInc s a)).fresh = s.fresh := rfl
@[simp] theorem statInc_pending (s : State) (a : ℕ) : ((statInc s a)).pending = s.pending := rfl
@[simp] theorem statAddI_shadow (s : State) (a : ℕ) (i : ℕ) (n : ℕ) : ((statAddI s a i n)).shadow = s.shadow := rfl
@[simp] theorem statAddI_sel (s : State) (a : ℕ) (i : ℕ) (n : ℕ) : ((statAddI s a i n)).sel = s.sel := rfl
@[simp] theorem statAddI_power (s : State) (a : ℕ) (i : ℕ) (n : ℕ) : ((statAddI s a i n)).power = s.power := rfl
@[simp] theorem statAddI_boot (s : State) (a : ℕ) (i : ℕ) (n : ℕ) : ((statAddI s a i n)).boot = s.boot := rfl
@[simp] theorem statAddI_fuses (s : State) (a : ℕ) (i : ℕ) (n : ℕ) : ((statAddI s a i n)).fuses = s.fuses := rfl
@[simp] theorem statAddI_sess (s : State) (a : ℕ) (i : ℕ) (n : ℕ) : ((statAddI s a i n)).sess = s.sess := rfl
@[simp] theorem statAddI_deny (s : State) (a : ℕ) (i : ℕ) (n : ℕ) : ((statAddI s a i n)).deny = s.deny := rfl
@[simp] theorem statAddI_disp (s : State) (a : ℕ) (i : ℕ) (n : ℕ) : ((statAddI s a i n)).disp = s.disp := rfl
@[simp] theorem statAddI_time (s : State) (a : ℕ) (i : ℕ) (n : ℕ) : ((statAddI s a i n)).time = s.time := rfl
@[simp] theorem statAddI_vault (s : State) (a : ℕ) (i : ℕ) (n : ℕ) : ((statAddI s a i n)).vault = s.vault := rfl
@[simp] theorem statAddI_nfc (s : State) (a : ℕ) (i : ℕ) (n : ℕ) : ((statAddI s a i n)).nfc = s.nfc := rfl
@[simp] theorem statAddI_ledger (s : State) (a : ℕ) (i : ℕ) (n : ℕ) : ((statAddI s a i n)).ledger = s.ledger := rfl
@[simp] theorem statAddI_lanes (s : State) (a : ℕ) (i : ℕ) (n : ℕ) : ((statAddI s a i n)).lanes = s.lanes := rfl
@[simp] theorem statAddI_aon (s : State) (a : ℕ) (i : ℕ) (n : ℕ) : ((statAddI s a i n)).aon = s.aon := rfl
@[simp] theorem statAddI_net (s : State) (a : ℕ) (i : ℕ) (n : ℕ) : ((statAddI s a i n)).net = s.net := rfl
@[simp] theorem statAddI_tables (s : State) (a : ℕ) (i : ℕ) (n : ℕ) : ((statAddI s a i n)).tables = s.tables := rfl
@[simp] theorem statAddI_ports (s : State) (a : ℕ) (i : ℕ) (n : ℕ) : ((statAddI s a i n)).ports = s.ports := rfl
@[simp] theorem statAddI_cipher (s : State) (a : ℕ) (i : ℕ) (n : ℕ) : ((statAddI s a i n)).cipher = s.cipher := rfl
@[simp] theorem statAddI_bridge (s : State) (a : ℕ) (i : ℕ) (n : ℕ) : ((statAddI s a i n)).bridge = s.bridge := rfl
@[simp] theorem statAddI_hlb (s : State) (a : ℕ) (i : ℕ) (n : ℕ) : ((statAddI s a i n)).hlb = s.hlb := rfl
@[simp] theorem statAddI_wheels (s : State) (a : ℕ) (i : ℕ) (n : ℕ) : ((statAddI s a i n)).wheels = s.wheels := rfl
@[simp] theorem statAddI_map (s : State) (a : ℕ) (i : ℕ) (n : ℕ) : ((statAddI s a i n)).map = s.map := rfl
@[simp] theorem statAddI_changes (s : State) (a : ℕ) (i : ℕ) (n : ℕ) : ((statAddI s a i n)).changes = s.changes := rfl
@[simp] theorem statAddI_bgs (s : State) (a : ℕ) (i : ℕ) (n : ℕ) : ((statAddI s a i n)).bgs = s.bgs := rfl
@[simp] theorem statAddI_mem (s : State) (a : ℕ) (i : ℕ) (n : ℕ) : ((statAddI s a i n)).mem = s.mem := rfl
@[simp] theorem statAddI_freeze (s : State) (a : ℕ) (i : ℕ) (n : ℕ) : ((statAddI s a i n)).freeze = s.freeze := rfl
@[simp] theorem statAddI_out (s : State) (a : ℕ) (i : ℕ) (n : ℕ) : ((statAddI s a i n)).out = s.out := rfl
@[simp] theorem statAddI_fresh (s : State) (a : ℕ) (i : ℕ) (n : ℕ) : ((statAddI s a i n)).fresh = s.fresh := rfl
@[simp] theorem statAddI_pending (s : State) (a : ℕ) (i : ℕ) (n : ℕ) : ((statAddI s a i n)).pending = s.pending := rfl
@[simp] theorem setFldi_shadow (s : State) (a : ℕ) (i : ℕ) (lo : ℕ) (w : ℕ) (v : ℕ) : ((setFldi s a i lo w v)).shadow = s.shadow := rfl
@[simp] theorem setFldi_sel (s : State) (a : ℕ) (i : ℕ) (lo : ℕ) (w : ℕ) (v : ℕ) : ((setFldi s a i lo w v)).sel = s.sel := rfl
@[simp] theorem setFldi_power (s : State) (a : ℕ) (i : ℕ) (lo : ℕ) (w : ℕ) (v : ℕ) : ((setFldi s a i lo w v)).power = s.power := rfl
@[simp] theorem setFldi_boot (s : State) (a : ℕ) (i : ℕ) (lo : ℕ) (w : ℕ) (v : ℕ) : ((setFldi s a i lo w v)).boot = s.boot := rfl
@[simp] theorem setFldi_fuses (s : State) (a : ℕ) (i : ℕ) (lo : ℕ) (w : ℕ) (v : ℕ) : ((setFldi s a i lo w v)).fuses = s.fuses := rfl
@[simp] theorem setFldi_sess (s : State) (a : ℕ) (i : ℕ) (lo : ℕ) (w : ℕ) (v : ℕ) : ((setFldi s a i lo w v)).sess = s.sess := rfl
@[simp] theorem setFldi_deny (s : State) (a : ℕ) (i : ℕ) (lo : ℕ) (w : ℕ) (v : ℕ) : ((setFldi s a i lo w v)).deny = s.deny := rfl
@[simp] theorem setFldi_disp (s : State) (a : ℕ) (i : ℕ) (lo : ℕ) (w : ℕ) (v : ℕ) : ((setFldi s a i lo w v)).disp = s.disp := rfl
@[simp] theorem setFldi_time (s : State) (a : ℕ) (i : ℕ) (lo : ℕ) (w : ℕ) (v : ℕ) : ((setFldi s a i lo w v)).time = s.time := rfl
@[simp] theorem setFldi_vault (s : State) (a : ℕ) (i : ℕ) (lo : ℕ) (w : ℕ) (v : ℕ) : ((setFldi s a i lo w v)).vault = s.vault := rfl
@[simp] theorem setFldi_nfc (s : State) (a : ℕ) (i : ℕ) (lo : ℕ) (w : ℕ) (v : ℕ) : ((setFldi s a i lo w v)).nfc = s.nfc := rfl
@[simp] theorem setFldi_ledger (s : State) (a : ℕ) (i : ℕ) (lo : ℕ) (w : ℕ) (v : ℕ) : ((setFldi s a i lo w v)).ledger = s.ledger := rfl
@[simp] theorem setFldi_lanes (s : State) (a : ℕ) (i : ℕ) (lo : ℕ) (w : ℕ) (v : ℕ) : ((setFldi s a i lo w v)).lanes = s.lanes := rfl
@[simp] theorem setFldi_aon (s : State) (a : ℕ) (i : ℕ) (lo : ℕ) (w : ℕ) (v : ℕ) : ((setFldi s a i lo w v)).aon = s.aon := rfl
@[simp] theorem setFldi_net (s : State) (a : ℕ) (i : ℕ) (lo : ℕ) (w : ℕ) (v : ℕ) : ((setFldi s a i lo w v)).net = s.net := rfl
@[simp] theorem setFldi_tables (s : State) (a : ℕ) (i : ℕ) (lo : ℕ) (w : ℕ) (v : ℕ) : ((setFldi s a i lo w v)).tables = s.tables := rfl
@[simp] theorem setFldi_ports (s : State) (a : ℕ) (i : ℕ) (lo : ℕ) (w : ℕ) (v : ℕ) : ((setFldi s a i lo w v)).ports = s.ports := rfl
@[simp] theorem setFldi_cipher (s : State) (a : ℕ) (i : ℕ) (lo : ℕ) (w : ℕ) (v : ℕ) : ((setFldi s a i lo w v)).cipher = s.cipher := rfl
@[simp] theorem setFldi_bridge (s : State) (a : ℕ) (i : ℕ) (lo : ℕ) (w : ℕ) (v : ℕ) : ((setFldi s a i lo w v)).bridge = s.bridge := rfl
@[simp] theorem setFldi_hlb (s : State) (a : ℕ) (i : ℕ) (lo : ℕ) (w : ℕ) (v : ℕ) : ((setFldi s a i lo w v)).hlb = s.hlb := rfl
@[simp] theorem setFldi_wheels (s : State) (a : ℕ) (i : ℕ) (lo : ℕ) (w : ℕ) (v : ℕ) : ((setFldi s a i lo w v)).wheels = s.wheels := rfl
@[simp] theorem setFldi_map (s : State) (a : ℕ) (i : ℕ) (lo : ℕ) (w : ℕ) (v : ℕ) : ((setFldi s a i lo w v)).map = s.map := rfl
@[simp] theorem setFldi_changes (s : State) (a : ℕ) (i : ℕ) (lo : ℕ) (w : ℕ) (v : ℕ) : ((setFldi s a i lo w v)).changes = s.changes := rfl
@[simp] theorem setFldi_bgs (s : State) (a : ℕ) (i : ℕ) (lo : ℕ) (w : ℕ) (v : ℕ) : ((setFldi s a i lo w v)).bgs = s.bgs := rfl
@[simp] theorem setFldi_mem (s : State) (a : ℕ) (i : ℕ) (lo : ℕ) (w : ℕ) (v : ℕ) : ((setFldi s a i lo w v)).mem = s.mem := rfl
@[simp] theorem setFldi_freeze (s : State) (a : ℕ) (i : ℕ) (lo : ℕ) (w : ℕ) (v : ℕ) : ((setFldi s a i lo w v)).freeze = s.freeze := rfl
@[simp] theorem setFldi_out (s : State) (a : ℕ) (i : ℕ) (lo : ℕ) (w : ℕ) (v : ℕ) : ((setFldi s a i lo w v)).out = s.out := rfl
@[simp] theorem setFldi_fresh (s : State) (a : ℕ) (i : ℕ) (lo : ℕ) (w : ℕ) (v : ℕ) : ((setFldi s a i lo w v)).fresh = s.fresh := rfl
@[simp] theorem setFldi_pending (s : State) (a : ℕ) (i : ℕ) (lo : ℕ) (w : ℕ) (v : ℕ) : ((setFldi s a i lo w v)).pending = s.pending := rfl
@[simp] theorem setFld_shadow (s : State) (a : ℕ) (lo : ℕ) (w : ℕ) (v : ℕ) : ((setFld s a lo w v)).shadow = s.shadow := rfl
@[simp] theorem setFld_sel (s : State) (a : ℕ) (lo : ℕ) (w : ℕ) (v : ℕ) : ((setFld s a lo w v)).sel = s.sel := rfl
@[simp] theorem setFld_power (s : State) (a : ℕ) (lo : ℕ) (w : ℕ) (v : ℕ) : ((setFld s a lo w v)).power = s.power := rfl
@[simp] theorem setFld_boot (s : State) (a : ℕ) (lo : ℕ) (w : ℕ) (v : ℕ) : ((setFld s a lo w v)).boot = s.boot := rfl
@[simp] theorem setFld_fuses (s : State) (a : ℕ) (lo : ℕ) (w : ℕ) (v : ℕ) : ((setFld s a lo w v)).fuses = s.fuses := rfl
@[simp] theorem setFld_sess (s : State) (a : ℕ) (lo : ℕ) (w : ℕ) (v : ℕ) : ((setFld s a lo w v)).sess = s.sess := rfl
@[simp] theorem setFld_deny (s : State) (a : ℕ) (lo : ℕ) (w : ℕ) (v : ℕ) : ((setFld s a lo w v)).deny = s.deny := rfl
@[simp] theorem setFld_disp (s : State) (a : ℕ) (lo : ℕ) (w : ℕ) (v : ℕ) : ((setFld s a lo w v)).disp = s.disp := rfl
@[simp] theorem setFld_time (s : State) (a : ℕ) (lo : ℕ) (w : ℕ) (v : ℕ) : ((setFld s a lo w v)).time = s.time := rfl
@[simp] theorem setFld_vault (s : State) (a : ℕ) (lo : ℕ) (w : ℕ) (v : ℕ) : ((setFld s a lo w v)).vault = s.vault := rfl
@[simp] theorem setFld_nfc (s : State) (a : ℕ) (lo : ℕ) (w : ℕ) (v : ℕ) : ((setFld s a lo w v)).nfc = s.nfc := rfl
@[simp] theorem setFld_ledger (s : State) (a : ℕ) (lo : ℕ) (w : ℕ) (v : ℕ) : ((setFld s a lo w v)).ledger = s.ledger := rfl
@[simp] theorem setFld_lanes (s : State) (a : ℕ) (lo : ℕ) (w : ℕ) (v : ℕ) : ((setFld s a lo w v)).lanes = s.lanes := rfl
@[simp] theorem setFld_aon (s : State) (a : ℕ) (lo : ℕ) (w : ℕ) (v : ℕ) : ((setFld s a lo w v)).aon = s.aon := rfl
@[simp] theorem setFld_net (s : State) (a : ℕ) (lo : ℕ) (w : ℕ) (v : ℕ) : ((setFld s a lo w v)).net = s.net := rfl
@[simp] theorem setFld_tables (s : State) (a : ℕ) (lo : ℕ) (w : ℕ) (v : ℕ) : ((setFld s a lo w v)).tables = s.tables := rfl
@[simp] theorem setFld_ports (s : State) (a : ℕ) (lo : ℕ) (w : ℕ) (v : ℕ) : ((setFld s a lo w v)).ports = s.ports := rfl
@[simp] theorem setFld_cipher (s : State) (a : ℕ) (lo : ℕ) (w : ℕ) (v : ℕ) : ((setFld s a lo w v)).cipher = s.cipher := rfl
@[simp] theorem setFld_bridge (s : State) (a : ℕ) (lo : ℕ) (w : ℕ) (v : ℕ) : ((setFld s a lo w v)).bridge = s.bridge := rfl
@[simp] theorem setFld_hlb (s : State) (a : ℕ) (lo : ℕ) (w : ℕ) (v : ℕ) : ((setFld s a lo w v)).hlb = s.hlb := rfl
@[simp] theorem setFld_wheels (s : State) (a : ℕ) (lo : ℕ) (w : ℕ) (v : ℕ) : ((setFld s a lo w v)).wheels = s.wheels := rfl
@[simp] theorem setFld_map (s : State) (a : ℕ) (lo : ℕ) (w : ℕ) (v : ℕ) : ((setFld s a lo w v)).map = s.map := rfl
@[simp] theorem setFld_changes (s : State) (a : ℕ) (lo : ℕ) (w : ℕ) (v : ℕ) : ((setFld s a lo w v)).changes = s.changes := rfl
@[simp] theorem setFld_bgs (s : State) (a : ℕ) (lo : ℕ) (w : ℕ) (v : ℕ) : ((setFld s a lo w v)).bgs = s.bgs := rfl
@[simp] theorem setFld_mem (s : State) (a : ℕ) (lo : ℕ) (w : ℕ) (v : ℕ) : ((setFld s a lo w v)).mem = s.mem := rfl
@[simp] theorem setFld_freeze (s : State) (a : ℕ) (lo : ℕ) (w : ℕ) (v : ℕ) : ((setFld s a lo w v)).freeze = s.freeze := rfl
@[simp] theorem setFld_out (s : State) (a : ℕ) (lo : ℕ) (w : ℕ) (v : ℕ) : ((setFld s a lo w v)).out = s.out := rfl
@[simp] theorem setFld_fresh (s : State) (a : ℕ) (lo : ℕ) (w : ℕ) (v : ℕ) : ((setFld s a lo w v)).fresh = s.fresh := rfl
@[simp] theorem setFld_pending (s : State) (a : ℕ) (lo : ℕ) (w : ℕ) (v : ℕ) : ((setFld s a lo w v)).pending = s.pending := rfl
@[simp] theorem draw_rf (s : State) : ((draw s).2).rf = s.rf := rfl
@[simp] theorem draw_shadow (s : State) : ((draw s).2).shadow = s.shadow := rfl
@[simp] theorem draw_sel (s : State) : ((draw s).2).sel = s.sel := rfl
@[simp] theorem draw_power (s : State) : ((draw s).2).power = s.power := rfl
@[simp] theorem draw_boot (s : State) : ((draw s).2).boot = s.boot := rfl
@[simp] theorem draw_fuses (s : State) : ((draw s).2).fuses = s.fuses := rfl
@[simp] theorem draw_sess (s : State) : ((draw s).2).sess = s.sess := rfl
@[simp] theorem draw_deny (s : State) : ((draw s).2).deny = s.deny := rfl
@[simp] theorem draw_disp (s : State) : ((draw s).2).disp = s.disp := rfl
@[simp] theorem draw_time (s : State) : ((draw s).2).time = s.time := rfl
@[simp] theorem draw_vault (s : State) : ((draw s).2).vault = s.vault := rfl
@[simp] theorem draw_nfc (s : State) : ((draw s).2).nfc = s.nfc := rfl
@[simp] theorem draw_ledger (s : State) : ((draw s).2).ledger = s.ledger := rfl
@[simp] theorem draw_lanes (s : State) : ((draw s).2).lanes = s.lanes := rfl
@[simp] theorem draw_aon (s : State) : ((draw s).2).aon = s.aon := rfl
@[simp] theorem draw_net (s : State) : ((draw s).2).net = s.net := rfl
@[simp] theorem draw_tables (s : State) : ((draw s).2).tables = s.tables := rfl
@[simp] theorem draw_ports (s : State) : ((draw s).2).ports = s.ports := rfl
@[simp] theorem draw_cipher (s : State) : ((draw s).2).cipher = s.cipher := rfl
@[simp] theorem draw_bridge (s : State) : ((draw s).2).bridge = s.bridge := rfl
@[simp] theorem draw_hlb (s : State) : ((draw s).2).hlb = s.hlb := rfl
@[simp] theorem draw_wheels (s : State) : ((draw s).2).wheels = s.wheels := rfl
@[simp] theorem draw_map (s : State) : ((draw s).2).map = s.map := rfl
@[simp] theorem draw_changes (s : State) : ((draw s).2).changes = s.changes := rfl
@[simp] theorem draw_bgs (s : State) : ((draw s).2).bgs = s.bgs := rfl
@[simp] theorem draw_mem (s : State) : ((draw s).2).mem = s.mem := rfl
@[simp] theorem draw_freeze (s : State) : ((draw s).2).freeze = s.freeze := rfl
@[simp] theorem draw_out (s : State) : ((draw s).2).out = s.out := rfl
@[simp] theorem draw_pending (s : State) : ((draw s).2).pending = s.pending := rfl
@[simp] theorem schedule_rf (s : State) (writes : List (ℕ × ℕ × Word)) (k : ApplyKind) : ((schedule s writes k)).rf = s.rf := rfl
@[simp] theorem schedule_shadow (s : State) (writes : List (ℕ × ℕ × Word)) (k : ApplyKind) : ((schedule s writes k)).shadow = s.shadow := rfl
@[simp] theorem schedule_sel (s : State) (writes : List (ℕ × ℕ × Word)) (k : ApplyKind) : ((schedule s writes k)).sel = s.sel := rfl
@[simp] theorem schedule_power (s : State) (writes : List (ℕ × ℕ × Word)) (k : ApplyKind) : ((schedule s writes k)).power = s.power := rfl
@[simp] theorem schedule_boot (s : State) (writes : List (ℕ × ℕ × Word)) (k : ApplyKind) : ((schedule s writes k)).boot = s.boot := rfl
@[simp] theorem schedule_fuses (s : State) (writes : List (ℕ × ℕ × Word)) (k : ApplyKind) : ((schedule s writes k)).fuses = s.fuses := rfl
@[simp] theorem schedule_sess (s : State) (writes : List (ℕ × ℕ × Word)) (k : ApplyKind) : ((schedule s writes k)).sess = s.sess := rfl
@[simp] theorem schedule_deny (s : State) (writes : List (ℕ × ℕ × Word)) (k : ApplyKind) : ((schedule s writes k)).deny = s.deny := rfl
@[simp] theorem schedule_disp (s : State) (writes : List (ℕ × ℕ × Word)) (k : ApplyKind) : ((schedule s writes k)).disp = s.disp := rfl
@[simp] theorem schedule_time (s : State) (writes : List (ℕ × ℕ × Word)) (k : ApplyKind) : ((schedule s writes k)).time = s.time := rfl
@[simp] theorem schedule_vault (s : State) (writes : List (ℕ × ℕ × Word)) (k : ApplyKind) : ((schedule s writes k)).vault = s.vault := rfl
@[simp] theorem schedule_nfc (s : State) (writes : List (ℕ × ℕ × Word)) (k : ApplyKind) : ((schedule s writes k)).nfc = s.nfc := rfl
@[simp] theorem schedule_ledger (s : State) (writes : List (ℕ × ℕ × Word)) (k : ApplyKind) : ((schedule s writes k)).ledger = s.ledger := rfl
@[simp] theorem schedule_lanes (s : State) (writes : List (ℕ × ℕ × Word)) (k : ApplyKind) : ((schedule s writes k)).lanes = s.lanes := rfl
@[simp] theorem schedule_aon (s : State) (writes : List (ℕ × ℕ × Word)) (k : ApplyKind) : ((schedule s writes k)).aon = s.aon := rfl
@[simp] theorem schedule_net (s : State) (writes : List (ℕ × ℕ × Word)) (k : ApplyKind) : ((schedule s writes k)).net = s.net := rfl
@[simp] theorem schedule_tables (s : State) (writes : List (ℕ × ℕ × Word)) (k : ApplyKind) : ((schedule s writes k)).tables = s.tables := rfl
@[simp] theorem schedule_ports (s : State) (writes : List (ℕ × ℕ × Word)) (k : ApplyKind) : ((schedule s writes k)).ports = s.ports := rfl
@[simp] theorem schedule_cipher (s : State) (writes : List (ℕ × ℕ × Word)) (k : ApplyKind) : ((schedule s writes k)).cipher = s.cipher := rfl
@[simp] theorem schedule_bridge (s : State) (writes : List (ℕ × ℕ × Word)) (k : ApplyKind) : ((schedule s writes k)).bridge = s.bridge := rfl
@[simp] theorem schedule_hlb (s : State) (writes : List (ℕ × ℕ × Word)) (k : ApplyKind) : ((schedule s writes k)).hlb = s.hlb := rfl
@[simp] theorem schedule_wheels (s : State) (writes : List (ℕ × ℕ × Word)) (k : ApplyKind) : ((schedule s writes k)).wheels = s.wheels := rfl
@[simp] theorem schedule_map (s : State) (writes : List (ℕ × ℕ × Word)) (k : ApplyKind) : ((schedule s writes k)).map = s.map := rfl
@[simp] theorem schedule_bgs (s : State) (writes : List (ℕ × ℕ × Word)) (k : ApplyKind) : ((schedule s writes k)).bgs = s.bgs := rfl
@[simp] theorem schedule_mem (s : State) (writes : List (ℕ × ℕ × Word)) (k : ApplyKind) : ((schedule s writes k)).mem = s.mem := rfl
@[simp] theorem schedule_freeze (s : State) (writes : List (ℕ × ℕ × Word)) (k : ApplyKind) : ((schedule s writes k)).freeze = s.freeze := rfl
@[simp] theorem schedule_out (s : State) (writes : List (ℕ × ℕ × Word)) (k : ApplyKind) : ((schedule s writes k)).out = s.out := rfl
@[simp] theorem schedule_fresh (s : State) (writes : List (ℕ × ℕ × Word)) (k : ApplyKind) : ((schedule s writes k)).fresh = s.fresh := rfl
@[simp] theorem schedule_pending (s : State) (writes : List (ℕ × ℕ × Word)) (k : ApplyKind) : ((schedule s writes k)).pending = s.pending := rfl
@[simp] theorem queueEntryL_rf (s : State) (late : Bool) (restart : Bool) (lt : ℕ) (p : Payload) : ((queueEntryL s late restart lt p)).rf = s.rf := by unfold queueEntryL; repeat' (first | rfl | (simp; done) | split | (dsimp only; split))
@[simp] theorem queueEntryL_shadow (s : State) (late : Bool) (restart : Bool) (lt : ℕ) (p : Payload) : ((queueEntryL s late restart lt p)).shadow = s.shadow := by unfold queueEntryL; repeat' (first | rfl | (simp; done) | split | (dsimp only; split))
@[simp] theorem queueEntryL_sel (s : State) (late : Bool) (restart : Bool) (lt : ℕ) (p : Payload) : ((queueEntryL s late restart lt p)).sel = s.sel := by unfold queueEntryL; repeat' (first | rfl | (simp; done) | split | (dsimp only; split))
@[simp] theorem queueEntryL_power (s : State) (late : Bool) (restart : Bool) (lt : ℕ) (p : Payload) : ((queueEntryL s late restart lt p)).power = s.power := by unfold queueEntryL; repeat' (first | rfl | (simp; done) | split | (dsimp only; split))
@[simp] theorem queueEntryL_boot (s : State) (late : Bool) (restart : Bool) (lt : ℕ) (p : Payload) : ((queueEntryL s late restart lt p)).boot = s.boot := by unfold queueEntryL; repeat' (first | rfl | (simp; done) | split | (dsimp only; split))
@[simp] theorem queueEntryL_fuses (s : State) (late : Bool) (restart : Bool) (lt : ℕ) (p : Payload) : ((queueEntryL s late restart lt p)).fuses = s.fuses := by unfold queueEntryL; repeat' (first | rfl | (simp; done) | split | (dsimp only; split))
@[simp] theorem queueEntryL_sess (s : State) (late : Bool) (restart : Bool) (lt : ℕ) (p : Payload) : ((queueEntryL s late restart lt p)).sess = s.sess := by unfold queueEntryL; repeat' (first | rfl | (simp; done) | split | (dsimp only; split))
@[simp] theorem queueEntryL_deny (s : State) (late : Bool) (restart : Bool) (lt : ℕ) (p : Payload) : ((queueEntryL s late restart lt p)).deny = s.deny := by unfold queueEntryL; repeat' (first | rfl | (simp; done) | split | (dsimp only; split))
@[simp] theorem queueEntryL_disp (s : State) (late : Bool) (restart : Bool) (lt : ℕ) (p : Payload) : ((queueEntryL s late restart lt p)).disp = s.disp := by unfold queueEntryL; repeat' (first | rfl | (simp; done) | split | (dsimp only; split))
@[simp] theorem queueEntryL_time (s : State) (late : Bool) (restart : Bool) (lt : ℕ) (p : Payload) : ((queueEntryL s late restart lt p)).time = s.time := by unfold queueEntryL; repeat' (first | rfl | (simp; done) | split | (dsimp only; split))
@[simp] theorem queueEntryL_vault (s : State) (late : Bool) (restart : Bool) (lt : ℕ) (p : Payload) : ((queueEntryL s late restart lt p)).vault = s.vault := by unfold queueEntryL; repeat' (first | rfl | (simp; done) | split | (dsimp only; split))
@[simp] theorem queueEntryL_nfc (s : State) (late : Bool) (restart : Bool) (lt : ℕ) (p : Payload) : ((queueEntryL s late restart lt p)).nfc = s.nfc := by unfold queueEntryL; repeat' (first | rfl | (simp; done) | split | (dsimp only; split))
@[simp] theorem queueEntryL_lanes (s : State) (late : Bool) (restart : Bool) (lt : ℕ) (p : Payload) : ((queueEntryL s late restart lt p)).lanes = s.lanes := by unfold queueEntryL; repeat' (first | rfl | (simp; done) | split | (dsimp only; split))
@[simp] theorem queueEntryL_aon (s : State) (late : Bool) (restart : Bool) (lt : ℕ) (p : Payload) : ((queueEntryL s late restart lt p)).aon = s.aon := by unfold queueEntryL; repeat' (first | rfl | (simp; done) | split | (dsimp only; split))
@[simp] theorem queueEntryL_net (s : State) (late : Bool) (restart : Bool) (lt : ℕ) (p : Payload) : ((queueEntryL s late restart lt p)).net = s.net := by unfold queueEntryL; repeat' (first | rfl | (simp; done) | split | (dsimp only; split))
@[simp] theorem queueEntryL_tables (s : State) (late : Bool) (restart : Bool) (lt : ℕ) (p : Payload) : ((queueEntryL s late restart lt p)).tables = s.tables := by unfold queueEntryL; repeat' (first | rfl | (simp; done) | split | (dsimp only; split))
@[simp] theorem queueEntryL_ports (s : State) (late : Bool) (restart : Bool) (lt : ℕ) (p : Payload) : ((queueEntryL s late restart lt p)).ports = s.ports := by unfold queueEntryL; repeat' (first | rfl | (simp; done) | split | (dsimp only; split))
@[simp] theorem queueEntryL_cipher (s : State) (late : Bool) (restart : Bool) (lt : ℕ) (p : Payload) : ((queueEntryL s late restart lt p)).cipher = s.cipher := by unfold queueEntryL; repeat' (first | rfl | (simp; done) | split | (dsimp only; split))
@[simp] theorem queueEntryL_bridge (s : State) (late : Bool) (restart : Bool) (lt : ℕ) (p : Payload) : ((queueEntryL s late restart lt p)).bridge = s.bridge := by unfold queueEntryL; repeat' (first | rfl | (simp; done) | split | (dsimp only; split))
@[simp] theorem queueEntryL_hlb (s : State) (late : Bool) (restart : Bool) (lt : ℕ) (p : Payload) : ((queueEntryL s late restart lt p)).hlb = s.hlb := by unfold queueEntryL; repeat' (first | rfl | (simp; done) | split | (dsimp only; split))
@[simp] theorem queueEntryL_wheels (s : State) (late : Bool) (restart : Bool) (lt : ℕ) (p : Payload) : ((queueEntryL s late restart lt p)).wheels = s.wheels := by unfold queueEntryL; repeat' (first | rfl | (simp; done) | split | (dsimp only; split))
@[simp] theorem queueEntryL_map (s : State) (late : Bool) (restart : Bool) (lt : ℕ) (p : Payload) : ((queueEntryL s late restart lt p)).map = s.map := by unfold queueEntryL; repeat' (first | rfl | (simp; done) | split | (dsimp only; split))
@[simp] theorem queueEntryL_changes (s : State) (late : Bool) (restart : Bool) (lt : ℕ) (p : Payload) : ((queueEntryL s late restart lt p)).changes = s.changes := by unfold queueEntryL; repeat' (first | rfl | (simp; done) | split | (dsimp only; split))
@[simp] theorem queueEntryL_bgs (s : State) (late : Bool) (restart : Bool) (lt : ℕ) (p : Payload) : ((queueEntryL s late restart lt p)).bgs = s.bgs := by unfold queueEntryL; repeat' (first | rfl | (simp; done) | split | (dsimp only; split))
@[simp] theorem queueEntryL_mem (s : State) (late : Bool) (restart : Bool) (lt : ℕ) (p : Payload) : ((queueEntryL s late restart lt p)).mem = s.mem := by unfold queueEntryL; repeat' (first | rfl | (simp; done) | split | (dsimp only; split))
@[simp] theorem queueEntryL_freeze (s : State) (late : Bool) (restart : Bool) (lt : ℕ) (p : Payload) : ((queueEntryL s late restart lt p)).freeze = s.freeze := by unfold queueEntryL; repeat' (first | rfl | (simp; done) | split | (dsimp only; split))
@[simp] theorem queueEntryL_out (s : State) (late : Bool) (restart : Bool) (lt : ℕ) (p : Payload) : ((queueEntryL s late restart lt p)).out = s.out := by unfold queueEntryL; repeat' (first | rfl | (simp; done) | split | (dsimp only; split))
@[simp] theorem queueEntryL_fresh (s : State) (late : Bool) (restart : Bool) (lt : ℕ) (p : Payload) : ((queueEntryL s late restart lt p)).fresh = s.fresh := by unfold queueEntryL; repeat' (first | rfl | (simp; done) | split | (dsimp only; split))
@[simp] theorem queueEntryL_pending (s : State) (late : Bool) (restart : Bool) (lt : ℕ) (p : Payload) : ((queueEntryL s late restart lt p)).pending = s.pending := by unfold queueEntryL; repeat' (first | rfl | (simp; done) | split | (dsimp only; split))
@[simp] theorem queueEntry_rf (s : State) (p : Payload) : ((queueEntry s p)).rf = s.rf := by unfold queueEntry; repeat' (first | rfl | (simp; done) | split | (dsimp only; split))
@[simp] theorem queueEntry_shadow (s : State) (p : Payload) : ((queueEntry s p)).shadow = s.shadow := by unfold queueEntry; repeat' (first | rfl | (simp; done) | split | (dsimp only; split))
@[simp] theorem queueEntry_sel (s : State) (p : Payload) : ((queueEntry s p)).sel = s.sel := by unfold queueEntry; repeat' (first | rfl | (simp; done) | split | (dsimp only; split))
@[simp] theorem queueEntry_power (s : State) (p : Payload) : ((queueEntry s p)).power = s.power := by unfold queueEntry; repeat' (first | rfl | (simp; done) | split | (dsimp only; split))
@[simp] theorem queueEntry_boot (s : State) (p : Payload) : ((queueEntry s p)).boot = s.boot := by unfold queueEntry; repeat' (first | rfl | (simp; done) | split | (dsimp only; split))
@[simp] theorem queueEntry_fuses (s : State) (p : Payload) : ((queueEntry s p)).fuses = s.fuses := by unfold queueEntry; repeat' (first | rfl | (simp; done) | split | (dsimp only; split))
@[simp] theorem queueEntry_sess (s : State) (p : Payload) : ((queueEntry s p)).sess = s.sess := by unfold queueEntry; repeat' (first | rfl | (simp; done) | split | (dsimp only; split))
@[simp] theorem queueEntry_deny (s : State) (p : Payload) : ((queueEntry s p)).deny = s.deny := by unfold queueEntry; repeat' (first | rfl | (simp; done) | split | (dsimp only; split))
@[simp] theorem queueEntry_disp (s : State) (p : Payload) : ((queueEntry s p)).disp = s.disp := by unfold queueEntry; repeat' (first | rfl | (simp; done) | split | (dsimp only; split))
@[simp] theorem queueEntry_time (s : State) (p : Payload) : ((queueEntry s p)).time = s.time := by unfold queueEntry; repeat' (first | rfl | (simp; done) | split | (dsimp only; split))
@[simp] theorem queueEntry_vault (s : State) (p : Payload) : ((queueEntry s p)).vault = s.vault := by unfold queueEntry; repeat' (first | rfl | (simp; done) | split | (dsimp only; split))
@[simp] theorem queueEntry_nfc (s : State) (p : Payload) : ((queueEntry s p)).nfc = s.nfc := by unfold queueEntry; repeat' (first | rfl | (simp; done) | split | (dsimp only; split))
@[simp] theorem queueEntry_lanes (s : State) (p : Payload) : ((queueEntry s p)).lanes = s.lanes := by unfold queueEntry; repeat' (first | rfl | (simp; done) | split | (dsimp only; split))
@[simp] theorem queueEntry_aon (s : State) (p : Payload) : ((queueEntry s p)).aon = s.aon := by unfold queueEntry; repeat' (first | rfl | (simp; done) | split | (dsimp only; split))
@[simp] theorem queueEntry_net (s : State) (p : Payload) : ((queueEntry s p)).net = s.net := by unfold queueEntry; repeat' (first | rfl | (simp; done) | split | (dsimp only; split))
@[simp] theorem queueEntry_tables (s : State) (p : Payload) : ((queueEntry s p)).tables = s.tables := by unfold queueEntry; repeat' (first | rfl | (simp; done) | split | (dsimp only; split))
@[simp] theorem queueEntry_ports (s : State) (p : Payload) : ((queueEntry s p)).ports = s.ports := by unfold queueEntry; repeat' (first | rfl | (simp; done) | split | (dsimp only; split))
@[simp] theorem queueEntry_cipher (s : State) (p : Payload) : ((queueEntry s p)).cipher = s.cipher := by unfold queueEntry; repeat' (first | rfl | (simp; done) | split | (dsimp only; split))
@[simp] theorem queueEntry_bridge (s : State) (p : Payload) : ((queueEntry s p)).bridge = s.bridge := by unfold queueEntry; repeat' (first | rfl | (simp; done) | split | (dsimp only; split))
@[simp] theorem queueEntry_hlb (s : State) (p : Payload) : ((queueEntry s p)).hlb = s.hlb := by unfold queueEntry; repeat' (first | rfl | (simp; done) | split | (dsimp only; split))
@[simp] theorem queueEntry_wheels (s : State) (p : Payload) : ((queueEntry s p)).wheels = s.wheels := by unfold queueEntry; repeat' (first | rfl | (simp; done) | split | (dsimp only; split))
@[simp] theorem queueEntry_map (s : State) (p : Payload) : ((queueEntry s p)).map = s.map := by unfold queueEntry; repeat' (first | rfl | (simp; done) | split | (dsimp only; split))
@[simp] theorem queueEntry_changes (s : State) (p : Payload) : ((queueEntry s p)).changes = s.changes := by unfold queueEntry; repeat' (first | rfl | (simp; done) | split | (dsimp only; split))
@[simp] theorem queueEntry_bgs (s : State) (p : Payload) : ((queueEntry s p)).bgs = s.bgs := by unfold queueEntry; repeat' (first | rfl | (simp; done) | split | (dsimp only; split))
@[simp] theorem queueEntry_mem (s : State) (p : Payload) : ((queueEntry s p)).mem = s.mem := by unfold queueEntry; repeat' (first | rfl | (simp; done) | split | (dsimp only; split))
@[simp] theorem queueEntry_freeze (s : State) (p : Payload) : ((queueEntry s p)).freeze = s.freeze := by unfold queueEntry; repeat' (first | rfl | (simp; done) | split | (dsimp only; split))
@[simp] theorem queueEntry_out (s : State) (p : Payload) : ((queueEntry s p)).out = s.out := by unfold queueEntry; repeat' (first | rfl | (simp; done) | split | (dsimp only; split))
@[simp] theorem queueEntry_fresh (s : State) (p : Payload) : ((queueEntry s p)).fresh = s.fresh := by unfold queueEntry; repeat' (first | rfl | (simp; done) | split | (dsimp only; split))
@[simp] theorem queueEntry_pending (s : State) (p : Payload) : ((queueEntry s p)).pending = s.pending := by unfold queueEntry; repeat' (first | rfl | (simp; done) | split | (dsimp only; split))
@[simp] theorem setSess_rf (s : State) (role : ℕ) (v : Sess) : ((setSess s role v)).rf = s.rf := rfl
@[simp] theorem setSess_shadow (s : State) (role : ℕ) (v : Sess) : ((setSess s role v)).shadow = s.shadow := rfl
@[simp] theorem setSess_sel (s : State) (role : ℕ) (v : Sess) : ((setSess s role v)).sel = s.sel := rfl
@[simp] theorem setSess_power (s : State) (role : ℕ) (v : Sess) : ((setSess s role v)).power = s.power := rfl
@[simp] theorem setSess_boot (s : State) (role : ℕ) (v : Sess) : ((setSess s role v)).boot = s.boot := rfl
@[simp] theorem setSess_fuses (s : State) (role : ℕ) (v : Sess) : ((setSess s role v)).fuses = s.fuses := rfl
@[simp] theorem setSess_deny (s : State) (role : ℕ) (v : Sess) : ((setSess s role v)).deny = s.deny := rfl
@[simp] theorem setSess_disp (s : State) (role : ℕ) (v : Sess) : ((setSess s role v)).disp = s.disp := rfl
@[simp] theorem setSess_time (s : State) (role : ℕ) (v : Sess) : ((setSess s role v)).time = s.time := rfl
@[simp] theorem setSess_vault (s : State) (role : ℕ) (v : Sess) : ((setSess s role v)).vault = s.vault := rfl
@[simp] theorem setSess_nfc (s : State) (role : ℕ) (v : Sess) : ((setSess s role v)).nfc = s.nfc := rfl
@[simp] theorem setSess_ledger (s : State) (role : ℕ) (v : Sess) : ((setSess s role v)).ledger = s.ledger := rfl
@[simp] theorem setSess_lanes (s : State) (role : ℕ) (v : Sess) : ((setSess s role v)).lanes = s.lanes := rfl
@[simp] theorem setSess_aon (s : State) (role : ℕ) (v : Sess) : ((setSess s role v)).aon = s.aon := rfl
@[simp] theorem setSess_net (s : State) (role : ℕ) (v : Sess) : ((setSess s role v)).net = s.net := rfl
@[simp] theorem setSess_tables (s : State) (role : ℕ) (v : Sess) : ((setSess s role v)).tables = s.tables := rfl
@[simp] theorem setSess_ports (s : State) (role : ℕ) (v : Sess) : ((setSess s role v)).ports = s.ports := rfl
@[simp] theorem setSess_cipher (s : State) (role : ℕ) (v : Sess) : ((setSess s role v)).cipher = s.cipher := rfl
@[simp] theorem setSess_bridge (s : State) (role : ℕ) (v : Sess) : ((setSess s role v)).bridge = s.bridge := rfl
@[simp] theorem setSess_hlb (s : State) (role : ℕ) (v : Sess) : ((setSess s role v)).hlb = s.hlb := rfl
@[simp] theorem setSess_wheels (s : State) (role : ℕ) (v : Sess) : ((setSess s role v)).wheels = s.wheels := rfl
@[simp] theorem setSess_map (s : State) (role : ℕ) (v : Sess) : ((setSess s role v)).map = s.map := rfl
@[simp] theorem setSess_changes (s : State) (role : ℕ) (v : Sess) : ((setSess s role v)).changes = s.changes := rfl
@[simp] theorem setSess_bgs (s : State) (role : ℕ) (v : Sess) : ((setSess s role v)).bgs = s.bgs := rfl
@[simp] theorem setSess_mem (s : State) (role : ℕ) (v : Sess) : ((setSess s role v)).mem = s.mem := rfl
@[simp] theorem setSess_freeze (s : State) (role : ℕ) (v : Sess) : ((setSess s role v)).freeze = s.freeze := rfl
@[simp] theorem setSess_out (s : State) (role : ℕ) (v : Sess) : ((setSess s role v)).out = s.out := rfl
@[simp] theorem setSess_fresh (s : State) (role : ℕ) (v : Sess) : ((setSess s role v)).fresh = s.fresh := rfl
@[simp] theorem setSess_pending (s : State) (role : ℕ) (v : Sess) : ((setSess s role v)).pending = s.pending := rfl
@[simp] theorem begin__rf (s : State) : ((begin_ s)).rf = s.rf := rfl
@[simp] theorem begin__shadow (s : State) : ((begin_ s)).shadow = s.shadow := rfl
@[simp] theorem begin__sel (s : State) : ((begin_ s)).sel = s.sel := rfl
@[simp] theorem begin__power (s : State) : ((begin_ s)).power = s.power := rfl
@[simp] theorem begin__boot (s : State) : ((begin_ s)).boot = s.boot := rfl
@[simp] theorem begin__fuses (s : State) : ((begin_ s)).fuses = s.fuses := rfl
@[simp] theorem begin__sess (s : State) : ((begin_ s)).sess = s.sess := rfl
@[simp] theorem begin__deny (s : State) : ((begin_ s)).deny = s.deny := rfl
@[simp] theorem begin__disp (s : State) : ((begin_ s)).disp = s.disp := rfl
@[simp] theorem begin__time (s : State) : ((begin_ s)).time = s.time := rfl
@[simp] theorem begin__vault (s : State) : ((begin_ s)).vault = s.vault := rfl
@[simp] theorem begin__nfc (s : State) : ((begin_ s)).nfc = s.nfc := rfl
@[simp] theorem begin__ledger (s : State) : ((begin_ s)).ledger = s.ledger := rfl
@[simp] theorem begin__lanes (s : State) : ((begin_ s)).lanes = s.lanes := rfl
@[simp] theorem begin__aon (s : State) : ((begin_ s)).aon = s.aon := rfl
@[simp] theorem begin__net (s : State) : ((begin_ s)).net = s.net := rfl
@[simp] theorem begin__tables (s : State) : ((begin_ s)).tables = s.tables := rfl
@[simp] theorem begin__ports (s : State) : ((begin_ s)).ports = s.ports := rfl
@[simp] theorem begin__cipher (s : State) : ((begin_ s)).cipher = s.cipher := rfl
@[simp] theorem begin__bridge (s : State) : ((begin_ s)).bridge = s.bridge := rfl
@[simp] theorem begin__hlb (s : State) : ((begin_ s)).hlb = s.hlb := rfl
@[simp] theorem begin__wheels (s : State) : ((begin_ s)).wheels = s.wheels := rfl
@[simp] theorem begin__map (s : State) : ((begin_ s)).map = s.map := rfl
@[simp] theorem begin__changes (s : State) : ((begin_ s)).changes = s.changes := rfl
@[simp] theorem begin__bgs (s : State) : ((begin_ s)).bgs = s.bgs := rfl
@[simp] theorem begin__mem (s : State) : ((begin_ s)).mem = s.mem := rfl
@[simp] theorem begin__freeze (s : State) : ((begin_ s)).freeze = s.freeze := rfl
@[simp] theorem begin__fresh (s : State) : ((begin_ s)).fresh = s.fresh := rfl
@[simp] theorem begin__pending (s : State) : ((begin_ s)).pending = s.pending := rfl
@[simp] theorem dropBatch_rf (s : State) (p : Chan × ℕ → Bool) : ((dropBatch s p)).rf = s.rf := by unfold dropBatch; repeat' (first | rfl | (simp; done) | split | (dsimp only; split))
@[simp] theorem dropBatch_shadow (s : State) (p : Chan × ℕ → Bool) : ((dropBatch s p)).shadow = s.shadow := by unfold dropBatch; repeat' (first | rfl | (simp; done) | split | (dsimp only; split))
@[simp] theorem dropBatch_sel (s : State) (p : Chan × ℕ → Bool) : ((dropBatch s p)).sel = s.sel := by unfold dropBatch; repeat' (first | rfl | (simp; done) | split | (dsimp only; split))
@[simp] theorem dropBatch_power (s : State) (p : Chan × ℕ → Bool) : ((dropBatch s p)).power = s.power := by unfold dropBatch; repeat' (first | rfl | (simp; done) | split | (dsimp only; split))
@[simp] theorem dropBatch_boot (s : State) (p : Chan × ℕ → Bool) : ((dropBatch s p)).boot = s.boot := by unfold dropBatch; repeat' (first | rfl | (simp; done) | split | (dsimp only; split))
@[simp] theorem dropBatch_fuses (s : State) (p : Chan × ℕ → Bool) : ((dropBatch s p)).fuses = s.fuses := by unfold dropBatch; repeat' (first | rfl | (simp; done) | split | (dsimp only; split))
@[simp] theorem dropBatch_sess (s : State) (p : Chan × ℕ → Bool) : ((dropBatch s p)).sess = s.sess := by unfold dropBatch; repeat' (first | rfl | (simp; done) | split | (dsimp only; split))
@[simp] theorem dropBatch_deny (s : State) (p : Chan × ℕ → Bool) : ((dropBatch s p)).deny = s.deny := by unfold dropBatch; repeat' (first | rfl | (simp; done) | split | (dsimp only; split))
@[simp] theorem dropBatch_disp (s : State) (p : Chan × ℕ → Bool) : ((dropBatch s p)).disp = s.disp := by unfold dropBatch; repeat' (first | rfl | (simp; done) | split | (dsimp only; split))
@[simp] theorem dropBatch_time (s : State) (p : Chan × ℕ → Bool) : ((dropBatch s p)).time = s.time := by unfold dropBatch; repeat' (first | rfl | (simp; done) | split | (dsimp only; split))
@[simp] theorem dropBatch_vault (s : State) (p : Chan × ℕ → Bool) : ((dropBatch s p)).vault = s.vault := by unfold dropBatch; repeat' (first | rfl | (simp; done) | split | (dsimp only; split))
@[simp] theorem dropBatch_nfc (s : State) (p : Chan × ℕ → Bool) : ((dropBatch s p)).nfc = s.nfc := by unfold dropBatch; repeat' (first | rfl | (simp; done) | split | (dsimp only; split))
@[simp] theorem dropBatch_ledger (s : State) (p : Chan × ℕ → Bool) : ((dropBatch s p)).ledger = s.ledger := by unfold dropBatch; repeat' (first | rfl | (simp; done) | split | (dsimp only; split))
@[simp] theorem dropBatch_lanes (s : State) (p : Chan × ℕ → Bool) : ((dropBatch s p)).lanes = s.lanes := by unfold dropBatch; repeat' (first | rfl | (simp; done) | split | (dsimp only; split))
@[simp] theorem dropBatch_aon (s : State) (p : Chan × ℕ → Bool) : ((dropBatch s p)).aon = s.aon := by unfold dropBatch; repeat' (first | rfl | (simp; done) | split | (dsimp only; split))
@[simp] theorem dropBatch_net (s : State) (p : Chan × ℕ → Bool) : ((dropBatch s p)).net = s.net := by unfold dropBatch; repeat' (first | rfl | (simp; done) | split | (dsimp only; split))
@[simp] theorem dropBatch_ports (s : State) (p : Chan × ℕ → Bool) : ((dropBatch s p)).ports = s.ports := by unfold dropBatch; repeat' (first | rfl | (simp; done) | split | (dsimp only; split))
@[simp] theorem dropBatch_cipher (s : State) (p : Chan × ℕ → Bool) : ((dropBatch s p)).cipher = s.cipher := by unfold dropBatch; repeat' (first | rfl | (simp; done) | split | (dsimp only; split))
@[simp] theorem dropBatch_bridge (s : State) (p : Chan × ℕ → Bool) : ((dropBatch s p)).bridge = s.bridge := by unfold dropBatch; repeat' (first | rfl | (simp; done) | split | (dsimp only; split))
@[simp] theorem dropBatch_hlb (s : State) (p : Chan × ℕ → Bool) : ((dropBatch s p)).hlb = s.hlb := by unfold dropBatch; repeat' (first | rfl | (simp; done) | split | (dsimp only; split))
@[simp] theorem dropBatch_wheels (s : State) (p : Chan × ℕ → Bool) : ((dropBatch s p)).wheels = s.wheels := by unfold dropBatch; repeat' (first | rfl | (simp; done) | split | (dsimp only; split))
@[simp] theorem dropBatch_map (s : State) (p : Chan × ℕ → Bool) : ((dropBatch s p)).map = s.map := by unfold dropBatch; repeat' (first | rfl | (simp; done) | split | (dsimp only; split))
@[simp] theorem dropBatch_changes (s : State) (p : Chan × ℕ → Bool) : ((dropBatch s p)).changes = s.changes := by unfold dropBatch; repeat' (first | rfl | (simp; done) | split | (dsimp only; split))
@[simp] theorem dropBatch_bgs (s : State) (p : Chan × ℕ → Bool) : ((dropBatch s p)).bgs = s.bgs := by unfold dropBatch; repeat' (first | rfl | (simp; done) | split | (dsimp only; split))
@[simp] theorem dropBatch_mem (s : State) (p : Chan × ℕ → Bool) : ((dropBatch s p)).mem = s.mem := by unfold dropBatch; repeat' (first | rfl | (simp; done) | split | (dsimp only; split))
@[simp] theorem dropBatch_freeze (s : State) (p : Chan × ℕ → Bool) : ((dropBatch s p)).freeze = s.freeze := by unfold dropBatch; repeat' (first | rfl | (simp; done) | split | (dsimp only; split))
@[simp] theorem dropBatch_out (s : State) (p : Chan × ℕ → Bool) : ((dropBatch s p)).out = s.out := by unfold dropBatch; repeat' (first | rfl | (simp; done) | split | (dsimp only; split))
@[simp] theorem dropBatch_fresh (s : State) (p : Chan × ℕ → Bool) : ((dropBatch s p)).fresh = s.fresh := by unfold dropBatch; repeat' (first | rfl | (simp; done) | split | (dsimp only; split))
@[simp] theorem dropBatch_pending (s : State) (p : Chan × ℕ → Bool) : ((dropBatch s p)).pending = s.pending := by unfold dropBatch; repeat' (first | rfl | (simp; done) | split | (dsimp only; split))
@[simp] theorem roleEntry_rf (s : State) (role : ℕ) (st : Status) (op : ℕ) (r : Req) : ((roleEntry s role st op r)).rf = s.rf := by unfold roleEntry; repeat' (first | rfl | (simp; done) | split | (dsimp only; split))
@[simp] theorem roleEntry_shadow (s : State) (role : ℕ) (st : Status) (op : ℕ) (r : Req) : ((roleEntry s role st op r)).shadow = s.shadow := by unfold roleEntry; repeat' (first | rfl | (simp; done) | split | (dsimp only; split))
@[simp] theorem roleEntry_sel (s : State) (role : ℕ) (st : Status) (op : ℕ) (r : Req) : ((roleEntry s role st op r)).sel = s.sel := by unfold roleEntry; repeat' (first | rfl | (simp; done) | split | (dsimp only; split))
@[simp] theorem roleEntry_power (s : State) (role : ℕ) (st : Status) (op : ℕ) (r : Req) : ((roleEntry s role st op r)).power = s.power := by unfold roleEntry; repeat' (first | rfl | (simp; done) | split | (dsimp only; split))
@[simp] theorem roleEntry_boot (s : State) (role : ℕ) (st : Status) (op : ℕ) (r : Req) : ((roleEntry s role st op r)).boot = s.boot := by unfold roleEntry; repeat' (first | rfl | (simp; done) | split | (dsimp only; split))
@[simp] theorem roleEntry_fuses (s : State) (role : ℕ) (st : Status) (op : ℕ) (r : Req) : ((roleEntry s role st op r)).fuses = s.fuses := by unfold roleEntry; repeat' (first | rfl | (simp; done) | split | (dsimp only; split))
@[simp] theorem roleEntry_sess (s : State) (role : ℕ) (st : Status) (op : ℕ) (r : Req) : ((roleEntry s role st op r)).sess = s.sess := by unfold roleEntry; repeat' (first | rfl | (simp; done) | split | (dsimp only; split))
@[simp] theorem roleEntry_deny (s : State) (role : ℕ) (st : Status) (op : ℕ) (r : Req) : ((roleEntry s role st op r)).deny = s.deny := by unfold roleEntry; repeat' (first | rfl | (simp; done) | split | (dsimp only; split))
@[simp] theorem roleEntry_disp (s : State) (role : ℕ) (st : Status) (op : ℕ) (r : Req) : ((roleEntry s role st op r)).disp = s.disp := by unfold roleEntry; repeat' (first | rfl | (simp; done) | split | (dsimp only; split))
@[simp] theorem roleEntry_time (s : State) (role : ℕ) (st : Status) (op : ℕ) (r : Req) : ((roleEntry s role st op r)).time = s.time := by unfold roleEntry; repeat' (first | rfl | (simp; done) | split | (dsimp only; split))
@[simp] theorem roleEntry_vault (s : State) (role : ℕ) (st : Status) (op : ℕ) (r : Req) : ((roleEntry s role st op r)).vault = s.vault := by unfold roleEntry; repeat' (first | rfl | (simp; done) | split | (dsimp only; split))
@[simp] theorem roleEntry_nfc (s : State) (role : ℕ) (st : Status) (op : ℕ) (r : Req) : ((roleEntry s role st op r)).nfc = s.nfc := by unfold roleEntry; repeat' (first | rfl | (simp; done) | split | (dsimp only; split))
@[simp] theorem roleEntry_lanes (s : State) (role : ℕ) (st : Status) (op : ℕ) (r : Req) : ((roleEntry s role st op r)).lanes = s.lanes := by unfold roleEntry; repeat' (first | rfl | (simp; done) | split | (dsimp only; split))
@[simp] theorem roleEntry_aon (s : State) (role : ℕ) (st : Status) (op : ℕ) (r : Req) : ((roleEntry s role st op r)).aon = s.aon := by unfold roleEntry; repeat' (first | rfl | (simp; done) | split | (dsimp only; split))
@[simp] theorem roleEntry_net (s : State) (role : ℕ) (st : Status) (op : ℕ) (r : Req) : ((roleEntry s role st op r)).net = s.net := by unfold roleEntry; repeat' (first | rfl | (simp; done) | split | (dsimp only; split))
@[simp] theorem roleEntry_tables (s : State) (role : ℕ) (st : Status) (op : ℕ) (r : Req) : ((roleEntry s role st op r)).tables = s.tables := by unfold roleEntry; repeat' (first | rfl | (simp; done) | split | (dsimp only; split))
@[simp] theorem roleEntry_ports (s : State) (role : ℕ) (st : Status) (op : ℕ) (r : Req) : ((roleEntry s role st op r)).ports = s.ports := by unfold roleEntry; repeat' (first | rfl | (simp; done) | split | (dsimp only; split))
@[simp] theorem roleEntry_cipher (s : State) (role : ℕ) (st : Status) (op : ℕ) (r : Req) : ((roleEntry s role st op r)).cipher = s.cipher := by unfold roleEntry; repeat' (first | rfl | (simp; done) | split | (dsimp only; split))
@[simp] theorem roleEntry_bridge (s : State) (role : ℕ) (st : Status) (op : ℕ) (r : Req) : ((roleEntry s role st op r)).bridge = s.bridge := by unfold roleEntry; repeat' (first | rfl | (simp; done) | split | (dsimp only; split))
@[simp] theorem roleEntry_hlb (s : State) (role : ℕ) (st : Status) (op : ℕ) (r : Req) : ((roleEntry s role st op r)).hlb = s.hlb := by unfold roleEntry; repeat' (first | rfl | (simp; done) | split | (dsimp only; split))
@[simp] theorem roleEntry_wheels (s : State) (role : ℕ) (st : Status) (op : ℕ) (r : Req) : ((roleEntry s role st op r)).wheels = s.wheels := by unfold roleEntry; repeat' (first | rfl | (simp; done) | split | (dsimp only; split))
@[simp] theorem roleEntry_map (s : State) (role : ℕ) (st : Status) (op : ℕ) (r : Req) : ((roleEntry s role st op r)).map = s.map := by unfold roleEntry; repeat' (first | rfl | (simp; done) | split | (dsimp only; split))
@[simp] theorem roleEntry_changes (s : State) (role : ℕ) (st : Status) (op : ℕ) (r : Req) : ((roleEntry s role st op r)).changes = s.changes := by unfold roleEntry; repeat' (first | rfl | (simp; done) | split | (dsimp only; split))
@[simp] theorem roleEntry_bgs (s : State) (role : ℕ) (st : Status) (op : ℕ) (r : Req) : ((roleEntry s role st op r)).bgs = s.bgs := by unfold roleEntry; repeat' (first | rfl | (simp; done) | split | (dsimp only; split))
@[simp] theorem roleEntry_mem (s : State) (role : ℕ) (st : Status) (op : ℕ) (r : Req) : ((roleEntry s role st op r)).mem = s.mem := by unfold roleEntry; repeat' (first | rfl | (simp; done) | split | (dsimp only; split))
@[simp] theorem roleEntry_freeze (s : State) (role : ℕ) (st : Status) (op : ℕ) (r : Req) : ((roleEntry s role st op r)).freeze = s.freeze := by unfold roleEntry; repeat' (first | rfl | (simp; done) | split | (dsimp only; split))
@[simp] theorem roleEntry_out (s : State) (role : ℕ) (st : Status) (op : ℕ) (r : Req) : ((roleEntry s role st op r)).out = s.out := by unfold roleEntry; repeat' (first | rfl | (simp; done) | split | (dsimp only; split))
@[simp] theorem roleEntry_fresh (s : State) (role : ℕ) (st : Status) (op : ℕ) (r : Req) : ((roleEntry s role st op r)).fresh = s.fresh := by unfold roleEntry; repeat' (first | rfl | (simp; done) | split | (dsimp only; split))
@[simp] theorem roleEntry_pending (s : State) (role : ℕ) (st : Status) (op : ℕ) (r : Req) : ((roleEntry s role st op r)).pending = s.pending := by unfold roleEntry; repeat' (first | rfl | (simp; done) | split | (dsimp only; split))
@[simp] theorem storeRecord_rf (s : State) (c : Cfg) : ((storeRecord s c)).rf = s.rf := rfl
@[simp] theorem storeRecord_shadow (s : State) (c : Cfg) : ((storeRecord s c)).shadow = s.shadow := rfl
@[simp] theorem storeRecord_sel (s : State) (c : Cfg) : ((storeRecord s c)).sel = s.sel := rfl
@[simp] theorem storeRecord_power (s : State) (c : Cfg) : ((storeRecord s c)).power = s.power := rfl
@[simp] theorem storeRecord_fuses (s : State) (c : Cfg) : ((storeRecord s c)).fuses = s.fuses := rfl
@[simp] theorem storeRecord_sess (s : State) (c : Cfg) : ((storeRecord s c)).sess = s.sess := rfl
@[simp] theorem storeRecord_deny (s : State) (c : Cfg) : ((storeRecord s c)).deny = s.deny := rfl
@[simp] theorem storeRecord_disp (s : State) (c : Cfg) : ((storeRecord s c)).disp = s.disp := rfl
@[simp] theorem storeRecord_time (s : State) (c : Cfg) : ((storeRecord s c)).time = s.time := rfl
@[simp] theorem storeRecord_nfc (s : State) (c : Cfg) : ((storeRecord s c)).nfc = s.nfc := rfl
@[simp] theorem storeRecord_ledger (s : State) (c : Cfg) : ((storeRecord s c)).ledger = s.ledger := rfl
@[simp] theorem storeRecord_lanes (s : State) (c : Cfg) : ((storeRecord s c)).lanes = s.lanes := rfl
@[simp] theorem storeRecord_aon (s : State) (c : Cfg) : ((storeRecord s c)).aon = s.aon := rfl
@[simp] theorem storeRecord_net (s : State) (c : Cfg) : ((storeRecord s c)).net = s.net := rfl
@[simp] theorem storeRecord_tables (s : State) (c : Cfg) : ((storeRecord s c)).tables = s.tables := rfl
@[simp] theorem storeRecord_ports (s : State) (c : Cfg) : ((storeRecord s c)).ports = s.ports := rfl
@[simp] theorem storeRecord_cipher (s : State) (c : Cfg) : ((storeRecord s c)).cipher = s.cipher := rfl
@[simp] theorem storeRecord_bridge (s : State) (c : Cfg) : ((storeRecord s c)).bridge = s.bridge := rfl
@[simp] theorem storeRecord_hlb (s : State) (c : Cfg) : ((storeRecord s c)).hlb = s.hlb := rfl
@[simp] theorem storeRecord_wheels (s : State) (c : Cfg) : ((storeRecord s c)).wheels = s.wheels := rfl
@[simp] theorem storeRecord_changes (s : State) (c : Cfg) : ((storeRecord s c)).changes = s.changes := rfl
@[simp] theorem storeRecord_bgs (s : State) (c : Cfg) : ((storeRecord s c)).bgs = s.bgs := rfl
@[simp] theorem storeRecord_mem (s : State) (c : Cfg) : ((storeRecord s c)).mem = s.mem := rfl
@[simp] theorem storeRecord_freeze (s : State) (c : Cfg) : ((storeRecord s c)).freeze = s.freeze := rfl
@[simp] theorem storeRecord_out (s : State) (c : Cfg) : ((storeRecord s c)).out = s.out := rfl
@[simp] theorem storeRecord_fresh (s : State) (c : Cfg) : ((storeRecord s c)).fresh = s.fresh := rfl
@[simp] theorem storeRecord_pending (s : State) (c : Cfg) : ((storeRecord s c)).pending = s.pending := rfl
@[simp] theorem commitChange_rf (s : State) : ((commitChange s)).rf = s.rf := rfl
@[simp] theorem commitChange_shadow (s : State) : ((commitChange s)).shadow = s.shadow := rfl
@[simp] theorem commitChange_sel (s : State) : ((commitChange s)).sel = s.sel := rfl
@[simp] theorem commitChange_power (s : State) : ((commitChange s)).power = s.power := rfl
@[simp] theorem commitChange_boot (s : State) : ((commitChange s)).boot = s.boot := rfl
@[simp] theorem commitChange_fuses (s : State) : ((commitChange s)).fuses = s.fuses := rfl
@[simp] theorem commitChange_sess (s : State) : ((commitChange s)).sess = s.sess := rfl
@[simp] theorem commitChange_deny (s : State) : ((commitChange s)).deny = s.deny := rfl
@[simp] theorem commitChange_disp (s : State) : ((commitChange s)).disp = s.disp := rfl
@[simp] theorem commitChange_time (s : State) : ((commitChange s)).time = s.time := rfl
@[simp] theorem commitChange_vault (s : State) : ((commitChange s)).vault = s.vault := rfl
@[simp] theorem commitChange_nfc (s : State) : ((commitChange s)).nfc = s.nfc := rfl
@[simp] theorem commitChange_ledger (s : State) : ((commitChange s)).ledger = s.ledger := rfl
@[simp] theorem commitChange_lanes (s : State) : ((commitChange s)).lanes = s.lanes := rfl
@[simp] theorem commitChange_aon (s : State) : ((commitChange s)).aon = s.aon := rfl
@[simp] theorem commitChange_net (s : State) : ((commitChange s)).net = s.net := rfl
@[simp] theorem commitChange_tables (s : State) : ((commitChange s)).tables = s.tables := rfl
@[simp] theorem commitChange_ports (s : State) : ((commitChange s)).ports = s.ports := rfl
@[simp] theorem commitChange_cipher (s : State) : ((commitChange s)).cipher = s.cipher := rfl
@[simp] theorem commitChange_bridge (s : State) : ((commitChange s)).bridge = s.bridge := rfl
@[simp] theorem commitChange_wheels (s : State) : ((commitChange s)).wheels = s.wheels := rfl
@[simp] theorem commitChange_map (s : State) : ((commitChange s)).map = s.map := rfl
@[simp] theorem commitChange_changes (s : State) : ((commitChange s)).changes = s.changes := rfl
@[simp] theorem commitChange_bgs (s : State) : ((commitChange s)).bgs = s.bgs := rfl
@[simp] theorem commitChange_mem (s : State) : ((commitChange s)).mem = s.mem := rfl
@[simp] theorem commitChange_freeze (s : State) : ((commitChange s)).freeze = s.freeze := rfl
@[simp] theorem commitChange_out (s : State) : ((commitChange s)).out = s.out := rfl
@[simp] theorem commitChange_fresh (s : State) : ((commitChange s)).fresh = s.fresh := rfl
@[simp] theorem commitChange_pending (s : State) : ((commitChange s)).pending = s.pending := rfl
@[simp] theorem wrCfg_shadow (s : State) (a : ℕ) (i : ℕ) (v : Word) : ((wrCfg s a i v)).shadow = s.shadow := rfl
@[simp] theorem wrCfg_sel (s : State) (a : ℕ) (i : ℕ) (v : Word) : ((wrCfg s a i v)).sel = s.sel := rfl
@[simp] theorem wrCfg_power (s : State) (a : ℕ) (i : ℕ) (v : Word) : ((wrCfg s a i v)).power = s.power := rfl
@[simp] theorem wrCfg_boot (s : State) (a : ℕ) (i : ℕ) (v : Word) : ((wrCfg s a i v)).boot = s.boot := rfl
@[simp] theorem wrCfg_fuses (s : State) (a : ℕ) (i : ℕ) (v : Word) : ((wrCfg s a i v)).fuses = s.fuses := rfl
@[simp] theorem wrCfg_sess (s : State) (a : ℕ) (i : ℕ) (v : Word) : ((wrCfg s a i v)).sess = s.sess := rfl
@[simp] theorem wrCfg_deny (s : State) (a : ℕ) (i : ℕ) (v : Word) : ((wrCfg s a i v)).deny = s.deny := rfl
@[simp] theorem wrCfg_disp (s : State) (a : ℕ) (i : ℕ) (v : Word) : ((wrCfg s a i v)).disp = s.disp := rfl
@[simp] theorem wrCfg_time (s : State) (a : ℕ) (i : ℕ) (v : Word) : ((wrCfg s a i v)).time = s.time := rfl
@[simp] theorem wrCfg_vault (s : State) (a : ℕ) (i : ℕ) (v : Word) : ((wrCfg s a i v)).vault = s.vault := rfl
@[simp] theorem wrCfg_nfc (s : State) (a : ℕ) (i : ℕ) (v : Word) : ((wrCfg s a i v)).nfc = s.nfc := rfl
@[simp] theorem wrCfg_ledger (s : State) (a : ℕ) (i : ℕ) (v : Word) : ((wrCfg s a i v)).ledger = s.ledger := rfl
@[simp] theorem wrCfg_lanes (s : State) (a : ℕ) (i : ℕ) (v : Word) : ((wrCfg s a i v)).lanes = s.lanes := rfl
@[simp] theorem wrCfg_aon (s : State) (a : ℕ) (i : ℕ) (v : Word) : ((wrCfg s a i v)).aon = s.aon := rfl
@[simp] theorem wrCfg_net (s : State) (a : ℕ) (i : ℕ) (v : Word) : ((wrCfg s a i v)).net = s.net := rfl
@[simp] theorem wrCfg_tables (s : State) (a : ℕ) (i : ℕ) (v : Word) : ((wrCfg s a i v)).tables = s.tables := rfl
@[simp] theorem wrCfg_ports (s : State) (a : ℕ) (i : ℕ) (v : Word) : ((wrCfg s a i v)).ports = s.ports := rfl
@[simp] theorem wrCfg_cipher (s : State) (a : ℕ) (i : ℕ) (v : Word) : ((wrCfg s a i v)).cipher = s.cipher := rfl
@[simp] theorem wrCfg_bridge (s : State) (a : ℕ) (i : ℕ) (v : Word) : ((wrCfg s a i v)).bridge = s.bridge := rfl
@[simp] theorem wrCfg_hlb (s : State) (a : ℕ) (i : ℕ) (v : Word) : ((wrCfg s a i v)).hlb = s.hlb := rfl
@[simp] theorem wrCfg_wheels (s : State) (a : ℕ) (i : ℕ) (v : Word) : ((wrCfg s a i v)).wheels = s.wheels := rfl
@[simp] theorem wrCfg_map (s : State) (a : ℕ) (i : ℕ) (v : Word) : ((wrCfg s a i v)).map = s.map := rfl
@[simp] theorem wrCfg_changes (s : State) (a : ℕ) (i : ℕ) (v : Word) : ((wrCfg s a i v)).changes = s.changes := rfl
@[simp] theorem wrCfg_bgs (s : State) (a : ℕ) (i : ℕ) (v : Word) : ((wrCfg s a i v)).bgs = s.bgs := rfl
@[simp] theorem wrCfg_mem (s : State) (a : ℕ) (i : ℕ) (v : Word) : ((wrCfg s a i v)).mem = s.mem := rfl
@[simp] theorem wrCfg_freeze (s : State) (a : ℕ) (i : ℕ) (v : Word) : ((wrCfg s a i v)).freeze = s.freeze := rfl
@[simp] theorem wrCfg_out (s : State) (a : ℕ) (i : ℕ) (v : Word) : ((wrCfg s a i v)).out = s.out := rfl
@[simp] theorem wrCfg_fresh (s : State) (a : ℕ) (i : ℕ) (v : Word) : ((wrCfg s a i v)).fresh = s.fresh := rfl
@[simp] theorem wrCfg_pending (s : State) (a : ℕ) (i : ℕ) (v : Word) : ((wrCfg s a i v)).pending = s.pending := rfl
@[simp] theorem countHostDeny_shadow (s : State) (role : ℕ) (st : Status) : ((countHostDeny s role st)).shadow = s.shadow := by unfold countHostDeny; repeat' (first | rfl | (simp; done) | split | (dsimp only; split))
@[simp] theorem countHostDeny_sel (s : State) (role : ℕ) (st : Status) : ((countHostDeny s role st)).sel = s.sel := by unfold countHostDeny; repeat' (first | rfl | (simp; done) | split | (dsimp only; split))
@[simp] theorem countHostDeny_power (s : State) (role : ℕ) (st : Status) : ((countHostDeny s role st)).power = s.power := by unfold countHostDeny; repeat' (first | rfl | (simp; done) | split | (dsimp only; split))
@[simp] theorem countHostDeny_boot (s : State) (role : ℕ) (st : Status) : ((countHostDeny s role st)).boot = s.boot := by unfold countHostDeny; repeat' (first | rfl | (simp; done) | split | (dsimp only; split))
@[simp] theorem countHostDeny_fuses (s : State) (role : ℕ) (st : Status) : ((countHostDeny s role st)).fuses = s.fuses := by unfold countHostDeny; repeat' (first | rfl | (simp; done) | split | (dsimp only; split))
@[simp] theorem countHostDeny_sess (s : State) (role : ℕ) (st : Status) : ((countHostDeny s role st)).sess = s.sess := by unfold countHostDeny; repeat' (first | rfl | (simp; done) | split | (dsimp only; split))
@[simp] theorem countHostDeny_disp (s : State) (role : ℕ) (st : Status) : ((countHostDeny s role st)).disp = s.disp := by unfold countHostDeny; repeat' (first | rfl | (simp; done) | split | (dsimp only; split))
@[simp] theorem countHostDeny_time (s : State) (role : ℕ) (st : Status) : ((countHostDeny s role st)).time = s.time := by unfold countHostDeny; repeat' (first | rfl | (simp; done) | split | (dsimp only; split))
@[simp] theorem countHostDeny_vault (s : State) (role : ℕ) (st : Status) : ((countHostDeny s role st)).vault = s.vault := by unfold countHostDeny; repeat' (first | rfl | (simp; done) | split | (dsimp only; split))
@[simp] theorem countHostDeny_nfc (s : State) (role : ℕ) (st : Status) : ((countHostDeny s role st)).nfc = s.nfc := by unfold countHostDeny; repeat' (first | rfl | (simp; done) | split | (dsimp only; split))
@[simp] theorem countHostDeny_ledger (s : State) (role : ℕ) (st : Status) : ((countHostDeny s role st)).ledger = s.ledger := by unfold countHostDeny; repeat' (first | rfl | (simp; done) | split | (dsimp only; split))
@[simp] theorem countHostDeny_lanes (s : State) (role : ℕ) (st : Status) : ((countHostDeny s role st)).lanes = s.lanes := by unfold countHostDeny; repeat' (first | rfl | (simp; done) | split | (dsimp only; split))
@[simp] theorem countHostDeny_aon (s : State) (role : ℕ) (st : Status) : ((countHostDeny s role st)).aon = s.aon := by unfold countHostDeny; repeat' (first | rfl | (simp; done) | split | (dsimp only; split))
@[simp] theorem countHostDeny_net (s : State) (role : ℕ) (st : Status) : ((countHostDeny s role st)).net = s.net := by unfold countHostDeny; repeat' (first | rfl | (simp; done) | split | (dsimp only; split))
@[simp] theorem countHostDeny_tables (s : State) (role : ℕ) (st : Status) : ((countHostDeny s role st)).tables = s.tables := by unfold countHostDeny; repeat' (first | rfl | (simp; done) | split | (dsimp only; split))
@[simp] theorem countHostDeny_ports (s : State) (role : ℕ) (st : Status) : ((countHostDeny s role st)).ports = s.ports := by unfold countHostDeny; repeat' (first | rfl | (simp; done) | split | (dsimp only; split))
@[simp] theorem countHostDeny_cipher (s : State) (role : ℕ) (st : Status) : ((countHostDeny s role st)).cipher = s.cipher := by unfold countHostDeny; repeat' (first | rfl | (simp; done) | split | (dsimp only; split))
@[simp] theorem countHostDeny_bridge (s : State) (role : ℕ) (st : Status) : ((countHostDeny s role st)).bridge = s.bridge := by unfold countHostDeny; repeat' (first | rfl | (simp; done) | split | (dsimp only; split))
@[simp] theorem countHostDeny_hlb (s : State) (role : ℕ) (st : Status) : ((countHostDeny s role st)).hlb = s.hlb := by unfold countHostDeny; repeat' (first | rfl | (simp; done) | split | (dsimp only; split))
@[simp] theorem countHostDeny_wheels (s : State) (role : ℕ) (st : Status) : ((countHostDeny s role st)).wheels = s.wheels := by unfold countHostDeny; repeat' (first | rfl | (simp; done) | split | (dsimp only; split))
@[simp] theorem countHostDeny_map (s : State) (role : ℕ) (st : Status) : ((countHostDeny s role st)).map = s.map := by unfold countHostDeny; repeat' (first | rfl | (simp; done) | split | (dsimp only; split))
@[simp] theorem countHostDeny_changes (s : State) (role : ℕ) (st : Status) : ((countHostDeny s role st)).changes = s.changes := by unfold countHostDeny; repeat' (first | rfl | (simp; done) | split | (dsimp only; split))
@[simp] theorem countHostDeny_bgs (s : State) (role : ℕ) (st : Status) : ((countHostDeny s role st)).bgs = s.bgs := by unfold countHostDeny; repeat' (first | rfl | (simp; done) | split | (dsimp only; split))
@[simp] theorem countHostDeny_mem (s : State) (role : ℕ) (st : Status) : ((countHostDeny s role st)).mem = s.mem := by unfold countHostDeny; repeat' (first | rfl | (simp; done) | split | (dsimp only; split))
@[simp] theorem countHostDeny_freeze (s : State) (role : ℕ) (st : Status) : ((countHostDeny s role st)).freeze = s.freeze := by unfold countHostDeny; repeat' (first | rfl | (simp; done) | split | (dsimp only; split))
@[simp] theorem countHostDeny_out (s : State) (role : ℕ) (st : Status) : ((countHostDeny s role st)).out = s.out := by unfold countHostDeny; repeat' (first | rfl | (simp; done) | split | (dsimp only; split))
@[simp] theorem countHostDeny_fresh (s : State) (role : ℕ) (st : Status) : ((countHostDeny s role st)).fresh = s.fresh := by unfold countHostDeny; repeat' (first | rfl | (simp; done) | split | (dsimp only; split))
@[simp] theorem countHostDeny_pending (s : State) (role : ℕ) (st : Status) : ((countHostDeny s role st)).pending = s.pending := by unfold countHostDeny; repeat' (first | rfl | (simp; done) | split | (dsimp only; split))
@[simp] theorem setLane_rf (s : State) (n : ℕ) (x : Lane) : ((setLane s n x)).rf = s.rf := rfl
@[simp] theorem setLane_shadow (s : State) (n : ℕ) (x : Lane) : ((setLane s n x)).shadow = s.shadow := rfl
@[simp] theorem setLane_sel (s : State) (n : ℕ) (x : Lane) : ((setLane s n x)).sel = s.sel := rfl
@[simp] theorem setLane_power (s : State) (n : ℕ) (x : Lane) : ((setLane s n x)).power = s.power := rfl
@[simp] theorem setLane_boot (s : State) (n : ℕ) (x : Lane) : ((setLane s n x)).boot = s.boot := rfl
@[simp] theorem setLane_fuses (s : State) (n : ℕ) (x : Lane) : ((setLane s n x)).fuses = s.fuses := rfl
@[simp] theorem setLane_sess (s : State) (n : ℕ) (x : Lane) : ((setLane s n x)).sess = s.sess := rfl
@[simp] theorem setLane_deny (s : State) (n : ℕ) (x : Lane) : ((setLane s n x)).deny = s.deny := rfl
@[simp] theorem setLane_disp (s : State) (n : ℕ) (x : Lane) : ((setLane s n x)).disp = s.disp := rfl
@[simp] theorem setLane_time (s : State) (n : ℕ) (x : Lane) : ((setLane s n x)).time = s.time := rfl
@[simp] theorem setLane_vault (s : State) (n : ℕ) (x : Lane) : ((setLane s n x)).vault = s.vault := rfl
@[simp] theorem setLane_nfc (s : State) (n : ℕ) (x : Lane) : ((setLane s n x)).nfc = s.nfc := rfl
@[simp] theorem setLane_ledger (s : State) (n : ℕ) (x : Lane) : ((setLane s n x)).ledger = s.ledger := rfl
@[simp] theorem setLane_aon (s : State) (n : ℕ) (x : Lane) : ((setLane s n x)).aon = s.aon := rfl
@[simp] theorem setLane_net (s : State) (n : ℕ) (x : Lane) : ((setLane s n x)).net = s.net := rfl
@[simp] theorem setLane_tables (s : State) (n : ℕ) (x : Lane) : ((setLane s n x)).tables = s.tables := rfl
@[simp] theorem setLane_ports (s : State) (n : ℕ) (x : Lane) : ((setLane s n x)).ports = s.ports := rfl
@[simp] theorem setLane_cipher (s : State) (n : ℕ) (x : Lane) : ((setLane s n x)).cipher = s.cipher := rfl
@[simp] theorem setLane_bridge (s : State) (n : ℕ) (x : Lane) : ((setLane s n x)).bridge = s.bridge := rfl
@[simp] theorem setLane_hlb (s : State) (n : ℕ) (x : Lane) : ((setLane s n x)).hlb = s.hlb := rfl
@[simp] theorem setLane_wheels (s : State) (n : ℕ) (x : Lane) : ((setLane s n x)).wheels = s.wheels := rfl
@[simp] theorem setLane_map (s : State) (n : ℕ) (x : Lane) : ((setLane s n x)).map = s.map := rfl
@[simp] theorem setLane_changes (s : State) (n : ℕ) (x : Lane) : ((setLane s n x)).changes = s.changes := rfl
@[simp] theorem setLane_bgs (s : State) (n : ℕ) (x : Lane) : ((setLane s n x)).bgs = s.bgs := rfl
@[simp] theorem setLane_mem (s : State) (n : ℕ) (x : Lane) : ((setLane s n x)).mem = s.mem := rfl
@[simp] theorem setLane_freeze (s : State) (n : ℕ) (x : Lane) : ((setLane s n x)).freeze = s.freeze := rfl
@[simp] theorem setLane_out (s : State) (n : ℕ) (x : Lane) : ((setLane s n x)).out = s.out := rfl
@[simp] theorem setLane_fresh (s : State) (n : ℕ) (x : Lane) : ((setLane s n x)).fresh = s.fresh := rfl
@[simp] theorem setLane_pending (s : State) (n : ℕ) (x : Lane) : ((setLane s n x)).pending = s.pending := rfl
@[simp] theorem setDom_rf (s : State) (n : ℕ) (d : Dom) : ((setDom s n d)).rf = s.rf := rfl
@[simp] theorem setDom_shadow (s : State) (n : ℕ) (d : Dom) : ((setDom s n d)).shadow = s.shadow := rfl
@[simp] theorem setDom_sel (s : State) (n : ℕ) (d : Dom) : ((setDom s n d)).sel = s.sel := rfl
@[simp] theorem setDom_power (s : State) (n : ℕ) (d : Dom) : ((setDom s n d)).power = s.power := rfl
@[simp] theorem setDom_boot (s : State) (n : ℕ) (d : Dom) : ((setDom s n d)).boot = s.boot := rfl
@[simp] theorem setDom_fuses (s : State) (n : ℕ) (d : Dom) : ((setDom s n d)).fuses = s.fuses := rfl
@[simp] theorem setDom_sess (s : State) (n : ℕ) (d : Dom) : ((setDom s n d)).sess = s.sess := rfl
@[simp] theorem setDom_deny (s : State) (n : ℕ) (d : Dom) : ((setDom s n d)).deny = s.deny := rfl
@[simp] theorem setDom_disp (s : State) (n : ℕ) (d : Dom) : ((setDom s n d)).disp = s.disp := rfl
@[simp] theorem setDom_vault (s : State) (n : ℕ) (d : Dom) : ((setDom s n d)).vault = s.vault := rfl
@[simp] theorem setDom_nfc (s : State) (n : ℕ) (d : Dom) : ((setDom s n d)).nfc = s.nfc := rfl
@[simp] theorem setDom_ledger (s : State) (n : ℕ) (d : Dom) : ((setDom s n d)).ledger = s.ledger := rfl
@[simp] theorem setDom_lanes (s : State) (n : ℕ) (d : Dom) : ((setDom s n d)).lanes = s.lanes := rfl
@[simp] theorem setDom_aon (s : State) (n : ℕ) (d : Dom) : ((setDom s n d)).aon = s.aon := rfl
@[simp] theorem setDom_net (s : State) (n : ℕ) (d : Dom) : ((setDom s n d)).net = s.net := rfl
@[simp] theorem setDom_tables (s : State) (n : ℕ) (d : Dom) : ((setDom s n d)).tables = s.tables := rfl
@[simp] theorem setDom_ports (s : State) (n : ℕ) (d : Dom) : ((setDom s n d)).ports = s.ports := rfl
@[simp] theorem setDom_cipher (s : State) (n : ℕ) (d : Dom) : ((setDom s n d)).cipher = s.cipher := rfl
@[simp] theorem setDom_bridge (s : State) (n : ℕ) (d : Dom) : ((setDom s n d)).bridge = s.bridge := rfl
@[simp] theorem setDom_hlb (s : State) (n : ℕ) (d : Dom) : ((setDom s n d)).hlb = s.hlb := rfl
@[simp] theorem setDom_wheels (s : State) (n : ℕ) (d : Dom) : ((setDom s n d)).wheels = s.wheels := rfl
@[simp] theorem setDom_map (s : State) (n : ℕ) (d : Dom) : ((setDom s n d)).map = s.map := rfl
@[simp] theorem setDom_changes (s : State) (n : ℕ) (d : Dom) : ((setDom s n d)).changes = s.changes := rfl
@[simp] theorem setDom_bgs (s : State) (n : ℕ) (d : Dom) : ((setDom s n d)).bgs = s.bgs := rfl
@[simp] theorem setDom_mem (s : State) (n : ℕ) (d : Dom) : ((setDom s n d)).mem = s.mem := rfl
@[simp] theorem setDom_freeze (s : State) (n : ℕ) (d : Dom) : ((setDom s n d)).freeze = s.freeze := rfl
@[simp] theorem setDom_out (s : State) (n : ℕ) (d : Dom) : ((setDom s n d)).out = s.out := rfl
@[simp] theorem setDom_fresh (s : State) (n : ℕ) (d : Dom) : ((setDom s n d)).fresh = s.fresh := rfl
@[simp] theorem setDom_pending (s : State) (n : ℕ) (d : Dom) : ((setDom s n d)).pending = s.pending := rfl
@[simp] theorem setPeer_rf (s : State) (n : ℕ) (p : Peer) : ((setPeer s n p)).rf = s.rf := rfl
@[simp] theorem setPeer_shadow (s : State) (n : ℕ) (p : Peer) : ((setPeer s n p)).shadow = s.shadow := rfl
@[simp] theorem setPeer_sel (s : State) (n : ℕ) (p : Peer) : ((setPeer s n p)).sel = s.sel := rfl
@[simp] theorem setPeer_power (s : State) (n : ℕ) (p : Peer) : ((setPeer s n p)).power = s.power := rfl
@[simp] theorem setPeer_boot (s : State) (n : ℕ) (p : Peer) : ((setPeer s n p)).boot = s.boot := rfl
@[simp] theorem setPeer_fuses (s : State) (n : ℕ) (p : Peer) : ((setPeer s n p)).fuses = s.fuses := rfl
@[simp] theorem setPeer_sess (s : State) (n : ℕ) (p : Peer) : ((setPeer s n p)).sess = s.sess := rfl
@[simp] theorem setPeer_deny (s : State) (n : ℕ) (p : Peer) : ((setPeer s n p)).deny = s.deny := rfl
@[simp] theorem setPeer_disp (s : State) (n : ℕ) (p : Peer) : ((setPeer s n p)).disp = s.disp := rfl
@[simp] theorem setPeer_time (s : State) (n : ℕ) (p : Peer) : ((setPeer s n p)).time = s.time := rfl
@[simp] theorem setPeer_vault (s : State) (n : ℕ) (p : Peer) : ((setPeer s n p)).vault = s.vault := rfl
@[simp] theorem setPeer_nfc (s : State) (n : ℕ) (p : Peer) : ((setPeer s n p)).nfc = s.nfc := rfl
@[simp] theorem setPeer_ledger (s : State) (n : ℕ) (p : Peer) : ((setPeer s n p)).ledger = s.ledger := rfl
@[simp] theorem setPeer_lanes (s : State) (n : ℕ) (p : Peer) : ((setPeer s n p)).lanes = s.lanes := rfl
@[simp] theorem setPeer_aon (s : State) (n : ℕ) (p : Peer) : ((setPeer s n p)).aon = s.aon := rfl
@[simp] theorem setPeer_net (s : State) (n : ℕ) (p : Peer) : ((setPeer s n p)).net = s.net := rfl
@[simp] theorem setPeer_tables (s : State) (n : ℕ) (p : Peer) : ((setPeer s n p)).tables = s.tables := rfl
@[simp] theorem setPeer_ports (s : State) (n : ℕ) (p : Peer) : ((setPeer s n p)).ports = s.ports := rfl
@[simp] theorem setPeer_cipher (s : State) (n : ℕ) (p : Peer) : ((setPeer s n p)).cipher = s.cipher := rfl
@[simp] theorem setPeer_bridge (s : State) (n : ℕ) (p : Peer) : ((setPeer s n p)).bridge = s.bridge := rfl
@[simp] theorem setPeer_wheels (s : State) (n : ℕ) (p : Peer) : ((setPeer s n p)).wheels = s.wheels := rfl
@[simp] theorem setPeer_map (s : State) (n : ℕ) (p : Peer) : ((setPeer s n p)).map = s.map := rfl
@[simp] theorem setPeer_changes (s : State) (n : ℕ) (p : Peer) : ((setPeer s n p)).changes = s.changes := rfl
@[simp] theorem setPeer_bgs (s : State) (n : ℕ) (p : Peer) : ((setPeer s n p)).bgs = s.bgs := rfl
@[simp] theorem setPeer_mem (s : State) (n : ℕ) (p : Peer) : ((setPeer s n p)).mem = s.mem := rfl
@[simp] theorem setPeer_freeze (s : State) (n : ℕ) (p : Peer) : ((setPeer s n p)).freeze = s.freeze := rfl
@[simp] theorem setPeer_out (s : State) (n : ℕ) (p : Peer) : ((setPeer s n p)).out = s.out := rfl
@[simp] theorem setPeer_fresh (s : State) (n : ℕ) (p : Peer) : ((setPeer s n p)).fresh = s.fresh := rfl
@[simp] theorem setPeer_pending (s : State) (n : ℕ) (p : Peer) : ((setPeer s n p)).pending = s.pending := rfl
@[simp] theorem setFrame_rf (s : State) (h0 : ℕ) (f : Option Frame) : ((setFrame s h0 f)).rf = s.rf := rfl
@[simp] theorem setFrame_shadow (s : State) (h0 : ℕ) (f : Option Frame) : ((setFrame s h0 f)).shadow = s.shadow := rfl
@[simp] theorem setFrame_sel (s : State) (h0 : ℕ) (f : Option Frame) : ((setFrame s h0 f)).sel = s.sel := rfl
@[simp] theorem setFrame_power (s : State) (h0 : ℕ) (f : Option Frame) : ((setFrame s h0 f)).power = s.power := rfl
@[simp] theorem setFrame_boot (s : State) (h0 : ℕ) (f : Option Frame) : ((setFrame s h0 f)).boot = s.boot := rfl
@[simp] theorem setFrame_fuses (s : State) (h0 : ℕ) (f : Option Frame) : ((setFrame s h0 f)).fuses = s.fuses := rfl
@[simp] theorem setFrame_sess (s : State) (h0 : ℕ) (f : Option Frame) : ((setFrame s h0 f)).sess = s.sess := rfl
@[simp] theorem setFrame_deny (s : State) (h0 : ℕ) (f : Option Frame) : ((setFrame s h0 f)).deny = s.deny := rfl
@[simp] theorem setFrame_disp (s : State) (h0 : ℕ) (f : Option Frame) : ((setFrame s h0 f)).disp = s.disp := rfl
@[simp] theorem setFrame_time (s : State) (h0 : ℕ) (f : Option Frame) : ((setFrame s h0 f)).time = s.time := rfl
@[simp] theorem setFrame_vault (s : State) (h0 : ℕ) (f : Option Frame) : ((setFrame s h0 f)).vault = s.vault := rfl
@[simp] theorem setFrame_nfc (s : State) (h0 : ℕ) (f : Option Frame) : ((setFrame s h0 f)).nfc = s.nfc := rfl
@[simp] theorem setFrame_ledger (s : State) (h0 : ℕ) (f : Option Frame) : ((setFrame s h0 f)).ledger = s.ledger := rfl
@[simp] theorem setFrame_lanes (s : State) (h0 : ℕ) (f : Option Frame) : ((setFrame s h0 f)).lanes = s.lanes := rfl
@[simp] theorem setFrame_aon (s : State) (h0 : ℕ) (f : Option Frame) : ((setFrame s h0 f)).aon = s.aon := rfl
@[simp] theorem setFrame_tables (s : State) (h0 : ℕ) (f : Option Frame) : ((setFrame s h0 f)).tables = s.tables := rfl
@[simp] theorem setFrame_ports (s : State) (h0 : ℕ) (f : Option Frame) : ((setFrame s h0 f)).ports = s.ports := rfl
@[simp] theorem setFrame_cipher (s : State) (h0 : ℕ) (f : Option Frame) : ((setFrame s h0 f)).cipher = s.cipher := rfl
@[simp] theorem setFrame_bridge (s : State) (h0 : ℕ) (f : Option Frame) : ((setFrame s h0 f)).bridge = s.bridge := rfl
@[simp] theorem setFrame_hlb (s : State) (h0 : ℕ) (f : Option Frame) : ((setFrame s h0 f)).hlb = s.hlb := rfl
@[simp] theorem setFrame_wheels (s : State) (h0 : ℕ) (f : Option Frame) : ((setFrame s h0 f)).wheels = s.wheels := rfl
@[simp] theorem setFrame_map (s : State) (h0 : ℕ) (f : Option Frame) : ((setFrame s h0 f)).map = s.map := rfl
@[simp] theorem setFrame_changes (s : State) (h0 : ℕ) (f : Option Frame) : ((setFrame s h0 f)).changes = s.changes := rfl
@[simp] theorem setFrame_bgs (s : State) (h0 : ℕ) (f : Option Frame) : ((setFrame s h0 f)).bgs = s.bgs := rfl
@[simp] theorem setFrame_mem (s : State) (h0 : ℕ) (f : Option Frame) : ((setFrame s h0 f)).mem = s.mem := rfl
@[simp] theorem setFrame_freeze (s : State) (h0 : ℕ) (f : Option Frame) : ((setFrame s h0 f)).freeze = s.freeze := rfl
@[simp] theorem setFrame_out (s : State) (h0 : ℕ) (f : Option Frame) : ((setFrame s h0 f)).out = s.out := rfl
@[simp] theorem setFrame_fresh (s : State) (h0 : ℕ) (f : Option Frame) : ((setFrame s h0 f)).fresh = s.fresh := rfl
@[simp] theorem setFrame_pending (s : State) (h0 : ℕ) (f : Option Frame) : ((setFrame s h0 f)).pending = s.pending := rfl
@[simp] theorem setQueue_rf (s : State) (e : ℕ) (q : ℕ) (l : List QEnt) : ((setQueue s e q l)).rf = s.rf := rfl
@[simp] theorem setQueue_shadow (s : State) (e : ℕ) (q : ℕ) (l : List QEnt) : ((setQueue s e q l)).shadow = s.shadow := rfl
@[simp] theorem setQueue_sel (s : State) (e : ℕ) (q : ℕ) (l : List QEnt) : ((setQueue s e q l)).sel = s.sel := rfl
@[simp] theorem setQueue_power (s : State) (e : ℕ) (q : ℕ) (l : List QEnt) : ((setQueue s e q l)).power = s.power := rfl
@[simp] theorem setQueue_boot (s : State) (e : ℕ) (q : ℕ) (l : List QEnt) : ((setQueue s e q l)).boot = s.boot := rfl
@[simp] theorem setQueue_fuses (s : State) (e : ℕ) (q : ℕ) (l : List QEnt) : ((setQueue s e q l)).fuses = s.fuses := rfl
@[simp] theorem setQueue_sess (s : State) (e : ℕ) (q : ℕ) (l : List QEnt) : ((setQueue s e q l)).sess = s.sess := rfl
@[simp] theorem setQueue_deny (s : State) (e : ℕ) (q : ℕ) (l : List QEnt) : ((setQueue s e q l)).deny = s.deny := rfl
@[simp] theorem setQueue_disp (s : State) (e : ℕ) (q : ℕ) (l : List QEnt) : ((setQueue s e q l)).disp = s.disp := rfl
@[simp] theorem setQueue_time (s : State) (e : ℕ) (q : ℕ) (l : List QEnt) : ((setQueue s e q l)).time = s.time := rfl
@[simp] theorem setQueue_vault (s : State) (e : ℕ) (q : ℕ) (l : List QEnt) : ((setQueue s e q l)).vault = s.vault := rfl
@[simp] theorem setQueue_nfc (s : State) (e : ℕ) (q : ℕ) (l : List QEnt) : ((setQueue s e q l)).nfc = s.nfc := rfl
@[simp] theorem setQueue_ledger (s : State) (e : ℕ) (q : ℕ) (l : List QEnt) : ((setQueue s e q l)).ledger = s.ledger := rfl
@[simp] theorem setQueue_lanes (s : State) (e : ℕ) (q : ℕ) (l : List QEnt) : ((setQueue s e q l)).lanes = s.lanes := rfl
@[simp] theorem setQueue_aon (s : State) (e : ℕ) (q : ℕ) (l : List QEnt) : ((setQueue s e q l)).aon = s.aon := rfl
@[simp] theorem setQueue_tables (s : State) (e : ℕ) (q : ℕ) (l : List QEnt) : ((setQueue s e q l)).tables = s.tables := rfl
@[simp] theorem setQueue_ports (s : State) (e : ℕ) (q : ℕ) (l : List QEnt) : ((setQueue s e q l)).ports = s.ports := rfl
@[simp] theorem setQueue_cipher (s : State) (e : ℕ) (q : ℕ) (l : List QEnt) : ((setQueue s e q l)).cipher = s.cipher := rfl
@[simp] theorem setQueue_bridge (s : State) (e : ℕ) (q : ℕ) (l : List QEnt) : ((setQueue s e q l)).bridge = s.bridge := rfl
@[simp] theorem setQueue_hlb (s : State) (e : ℕ) (q : ℕ) (l : List QEnt) : ((setQueue s e q l)).hlb = s.hlb := rfl
@[simp] theorem setQueue_wheels (s : State) (e : ℕ) (q : ℕ) (l : List QEnt) : ((setQueue s e q l)).wheels = s.wheels := rfl
@[simp] theorem setQueue_map (s : State) (e : ℕ) (q : ℕ) (l : List QEnt) : ((setQueue s e q l)).map = s.map := rfl
@[simp] theorem setQueue_changes (s : State) (e : ℕ) (q : ℕ) (l : List QEnt) : ((setQueue s e q l)).changes = s.changes := rfl
@[simp] theorem setQueue_bgs (s : State) (e : ℕ) (q : ℕ) (l : List QEnt) : ((setQueue s e q l)).bgs = s.bgs := rfl
@[simp] theorem setQueue_mem (s : State) (e : ℕ) (q : ℕ) (l : List QEnt) : ((setQueue s e q l)).mem = s.mem := rfl
@[simp] theorem setQueue_freeze (s : State) (e : ℕ) (q : ℕ) (l : List QEnt) : ((setQueue s e q l)).freeze = s.freeze := rfl
@[simp] theorem setQueue_out (s : State) (e : ℕ) (q : ℕ) (l : List QEnt) : ((setQueue s e q l)).out = s.out := rfl
@[simp] theorem setQueue_fresh (s : State) (e : ℕ) (q : ℕ) (l : List QEnt) : ((setQueue s e q l)).fresh = s.fresh := rfl
@[simp] theorem setQueue_pending (s : State) (e : ℕ) (q : ℕ) (l : List QEnt) : ((setQueue s e q l)).pending = s.pending := rfl
@[simp] theorem setEgr_rf (s : State) (e : ℕ) (x : Egr) : ((setEgr s e x)).rf = s.rf := rfl
@[simp] theorem setEgr_shadow (s : State) (e : ℕ) (x : Egr) : ((setEgr s e x)).shadow = s.shadow := rfl
@[simp] theorem setEgr_sel (s : State) (e : ℕ) (x : Egr) : ((setEgr s e x)).sel = s.sel := rfl
@[simp] theorem setEgr_power (s : State) (e : ℕ) (x : Egr) : ((setEgr s e x)).power = s.power := rfl
@[simp] theorem setEgr_boot (s : State) (e : ℕ) (x : Egr) : ((setEgr s e x)).boot = s.boot := rfl
@[simp] theorem setEgr_fuses (s : State) (e : ℕ) (x : Egr) : ((setEgr s e x)).fuses = s.fuses := rfl
@[simp] theorem setEgr_sess (s : State) (e : ℕ) (x : Egr) : ((setEgr s e x)).sess = s.sess := rfl
@[simp] theorem setEgr_deny (s : State) (e : ℕ) (x : Egr) : ((setEgr s e x)).deny = s.deny := rfl
@[simp] theorem setEgr_disp (s : State) (e : ℕ) (x : Egr) : ((setEgr s e x)).disp = s.disp := rfl
@[simp] theorem setEgr_time (s : State) (e : ℕ) (x : Egr) : ((setEgr s e x)).time = s.time := rfl
@[simp] theorem setEgr_vault (s : State) (e : ℕ) (x : Egr) : ((setEgr s e x)).vault = s.vault := rfl
@[simp] theorem setEgr_nfc (s : State) (e : ℕ) (x : Egr) : ((setEgr s e x)).nfc = s.nfc := rfl
@[simp] theorem setEgr_ledger (s : State) (e : ℕ) (x : Egr) : ((setEgr s e x)).ledger = s.ledger := rfl
@[simp] theorem setEgr_lanes (s : State) (e : ℕ) (x : Egr) : ((setEgr s e x)).lanes = s.lanes := rfl
@[simp] theorem setEgr_aon (s : State) (e : ℕ) (x : Egr) : ((setEgr s e x)).aon = s.aon := rfl
@[simp] theorem setEgr_tables (s : State) (e : ℕ) (x : Egr) : ((setEgr s e x)).tables = s.tables := rfl
@[simp] theorem setEgr_ports (s : State) (e : ℕ) (x : Egr) : ((setEgr s e x)).ports = s.ports := rfl
@[simp] theorem setEgr_cipher (s : State) (e : ℕ) (x : Egr) : ((setEgr s e x)).cipher = s.cipher := rfl
@[simp] theorem setEgr_bridge (s : State) (e : ℕ) (x : Egr) : ((setEgr s e x)).bridge = s.bridge := rfl
@[simp] theorem setEgr_hlb (s : State) (e : ℕ) (x : Egr) : ((setEgr s e x)).hlb = s.hlb := rfl
@[simp] theorem setEgr_wheels (s : State) (e : ℕ) (x : Egr) : ((setEgr s e x)).wheels = s.wheels := rfl
@[simp] theorem setEgr_map (s : State) (e : ℕ) (x : Egr) : ((setEgr s e x)).map = s.map := rfl
@[simp] theorem setEgr_changes (s : State) (e : ℕ) (x : Egr) : ((setEgr s e x)).changes = s.changes := rfl
@[simp] theorem setEgr_bgs (s : State) (e : ℕ) (x : Egr) : ((setEgr s e x)).bgs = s.bgs := rfl
@[simp] theorem setEgr_mem (s : State) (e : ℕ) (x : Egr) : ((setEgr s e x)).mem = s.mem := rfl
@[simp] theorem setEgr_freeze (s : State) (e : ℕ) (x : Egr) : ((setEgr s e x)).freeze = s.freeze := rfl
@[simp] theorem setEgr_out (s : State) (e : ℕ) (x : Egr) : ((setEgr s e x)).out = s.out := rfl
@[simp] theorem setEgr_fresh (s : State) (e : ℕ) (x : Egr) : ((setEgr s e x)).fresh = s.fresh := rfl
@[simp] theorem setEgr_pending (s : State) (e : ℕ) (x : Egr) : ((setEgr s e x)).pending = s.pending := rfl
@[simp] theorem setPort_rf (s : State) (p : ℕ) (x : Port) : ((setPort s p x)).rf = s.rf := rfl
@[simp] theorem setPort_shadow (s : State) (p : ℕ) (x : Port) : ((setPort s p x)).shadow = s.shadow := rfl
@[simp] theorem setPort_sel (s : State) (p : ℕ) (x : Port) : ((setPort s p x)).sel = s.sel := rfl
@[simp] theorem setPort_power (s : State) (p : ℕ) (x : Port) : ((setPort s p x)).power = s.power := rfl
@[simp] theorem setPort_boot (s : State) (p : ℕ) (x : Port) : ((setPort s p x)).boot = s.boot := rfl
@[simp] theorem setPort_fuses (s : State) (p : ℕ) (x : Port) : ((setPort s p x)).fuses = s.fuses := rfl
@[simp] theorem setPort_sess (s : State) (p : ℕ) (x : Port) : ((setPort s p x)).sess = s.sess := rfl
@[simp] theorem setPort_deny (s : State) (p : ℕ) (x : Port) : ((setPort s p x)).deny = s.deny := rfl
@[simp] theorem setPort_disp (s : State) (p : ℕ) (x : Port) : ((setPort s p x)).disp = s.disp := rfl
@[simp] theorem setPort_time (s : State) (p : ℕ) (x : Port) : ((setPort s p x)).time = s.time := rfl
@[simp] theorem setPort_vault (s : State) (p : ℕ) (x : Port) : ((setPort s p x)).vault = s.vault := rfl
@[simp] theorem setPort_nfc (s : State) (p : ℕ) (x : Port) : ((setPort s p x)).nfc = s.nfc := rfl
@[simp] theorem setPort_ledger (s : State) (p : ℕ) (x : Port) : ((setPort s p x)).ledger = s.ledger := rfl
@[simp] theorem setPort_lanes (s : State) (p : ℕ) (x : Port) : ((setPort s p x)).lanes = s.lanes := rfl
@[simp] theorem setPort_aon (s : State) (p : ℕ) (x : Port) : ((setPort s p x)).aon = s.aon := rfl
@[simp] theorem setPort_net (s : State) (p : ℕ) (x : Port) : ((setPort s p x)).net = s.net := rfl
@[simp] theorem setPort_tables (s : State) (p : ℕ) (x : Port) : ((setPort s p x)).tables = s.tables := rfl
@[simp] theorem setPort_cipher (s : State) (p : ℕ) (x : Port) : ((setPort s p x)).cipher = s.cipher := rfl
@[simp] theorem setPort_bridge (s : State) (p : ℕ) (x : Port) : ((setPort s p x)).bridge = s.bridge := rfl
@[simp] theorem setPort_hlb (s : State) (p : ℕ) (x : Port) : ((setPort s p x)).hlb = s.hlb := rfl
@[simp] theorem setPort_wheels (s : State) (p : ℕ) (x : Port) : ((setPort s p x)).wheels = s.wheels := rfl
@[simp] theorem setPort_map (s : State) (p : ℕ) (x : Port) : ((setPort s p x)).map = s.map := rfl
@[simp] theorem setPort_changes (s : State) (p : ℕ) (x : Port) : ((setPort s p x)).changes = s.changes := rfl
@[simp] theorem setPort_bgs (s : State) (p : ℕ) (x : Port) : ((setPort s p x)).bgs = s.bgs := rfl
@[simp] theorem setPort_mem (s : State) (p : ℕ) (x : Port) : ((setPort s p x)).mem = s.mem := rfl
@[simp] theorem setPort_freeze (s : State) (p : ℕ) (x : Port) : ((setPort s p x)).freeze = s.freeze := rfl
@[simp] theorem setPort_out (s : State) (p : ℕ) (x : Port) : ((setPort s p x)).out = s.out := rfl
@[simp] theorem setPort_fresh (s : State) (p : ℕ) (x : Port) : ((setPort s p x)).fresh = s.fresh := rfl
@[simp] theorem setPort_pending (s : State) (p : ℕ) (x : Port) : ((setPort s p x)).pending = s.pending := rfl
@[simp] theorem setCtx_rf (s : State) (str : ℕ) (e : ℕ) (c : Option Rsq) : ((setCtx s str e c)).rf = s.rf := rfl
@[simp] theorem setCtx_shadow (s : State) (str : ℕ) (e : ℕ) (c : Option Rsq) : ((setCtx s str e c)).shadow = s.shadow := rfl
@[simp] theorem setCtx_sel (s : State) (str : ℕ) (e : ℕ) (c : Option Rsq) : ((setCtx s str e c)).sel = s.sel := rfl
@[simp] theorem setCtx_power (s : State) (str : ℕ) (e : ℕ) (c : Option Rsq) : ((setCtx s str e c)).power = s.power := rfl
@[simp] theorem setCtx_boot (s : State) (str : ℕ) (e : ℕ) (c : Option Rsq) : ((setCtx s str e c)).boot = s.boot := rfl
@[simp] theorem setCtx_fuses (s : State) (str : ℕ) (e : ℕ) (c : Option Rsq) : ((setCtx s str e c)).fuses = s.fuses := rfl
@[simp] theorem setCtx_sess (s : State) (str : ℕ) (e : ℕ) (c : Option Rsq) : ((setCtx s str e c)).sess = s.sess := rfl
@[simp] theorem setCtx_deny (s : State) (str : ℕ) (e : ℕ) (c : Option Rsq) : ((setCtx s str e c)).deny = s.deny := rfl
@[simp] theorem setCtx_disp (s : State) (str : ℕ) (e : ℕ) (c : Option Rsq) : ((setCtx s str e c)).disp = s.disp := rfl
@[simp] theorem setCtx_time (s : State) (str : ℕ) (e : ℕ) (c : Option Rsq) : ((setCtx s str e c)).time = s.time := rfl
@[simp] theorem setCtx_vault (s : State) (str : ℕ) (e : ℕ) (c : Option Rsq) : ((setCtx s str e c)).vault = s.vault := rfl
@[simp] theorem setCtx_nfc (s : State) (str : ℕ) (e : ℕ) (c : Option Rsq) : ((setCtx s str e c)).nfc = s.nfc := rfl
@[simp] theorem setCtx_ledger (s : State) (str : ℕ) (e : ℕ) (c : Option Rsq) : ((setCtx s str e c)).ledger = s.ledger := rfl
@[simp] theorem setCtx_lanes (s : State) (str : ℕ) (e : ℕ) (c : Option Rsq) : ((setCtx s str e c)).lanes = s.lanes := rfl
@[simp] theorem setCtx_aon (s : State) (str : ℕ) (e : ℕ) (c : Option Rsq) : ((setCtx s str e c)).aon = s.aon := rfl
@[simp] theorem setCtx_tables (s : State) (str : ℕ) (e : ℕ) (c : Option Rsq) : ((setCtx s str e c)).tables = s.tables := rfl
@[simp] theorem setCtx_ports (s : State) (str : ℕ) (e : ℕ) (c : Option Rsq) : ((setCtx s str e c)).ports = s.ports := rfl
@[simp] theorem setCtx_cipher (s : State) (str : ℕ) (e : ℕ) (c : Option Rsq) : ((setCtx s str e c)).cipher = s.cipher := rfl
@[simp] theorem setCtx_bridge (s : State) (str : ℕ) (e : ℕ) (c : Option Rsq) : ((setCtx s str e c)).bridge = s.bridge := rfl
@[simp] theorem setCtx_hlb (s : State) (str : ℕ) (e : ℕ) (c : Option Rsq) : ((setCtx s str e c)).hlb = s.hlb := rfl
@[simp] theorem setCtx_wheels (s : State) (str : ℕ) (e : ℕ) (c : Option Rsq) : ((setCtx s str e c)).wheels = s.wheels := rfl
@[simp] theorem setCtx_map (s : State) (str : ℕ) (e : ℕ) (c : Option Rsq) : ((setCtx s str e c)).map = s.map := rfl
@[simp] theorem setCtx_changes (s : State) (str : ℕ) (e : ℕ) (c : Option Rsq) : ((setCtx s str e c)).changes = s.changes := rfl
@[simp] theorem setCtx_bgs (s : State) (str : ℕ) (e : ℕ) (c : Option Rsq) : ((setCtx s str e c)).bgs = s.bgs := rfl
@[simp] theorem setCtx_mem (s : State) (str : ℕ) (e : ℕ) (c : Option Rsq) : ((setCtx s str e c)).mem = s.mem := rfl
@[simp] theorem setCtx_freeze (s : State) (str : ℕ) (e : ℕ) (c : Option Rsq) : ((setCtx s str e c)).freeze = s.freeze := rfl
@[simp] theorem setCtx_out (s : State) (str : ℕ) (e : ℕ) (c : Option Rsq) : ((setCtx s str e c)).out = s.out := rfl
@[simp] theorem setCtx_fresh (s : State) (str : ℕ) (e : ℕ) (c : Option Rsq) : ((setCtx s str e c)).fresh = s.fresh := rfl
@[simp] theorem setCtx_pending (s : State) (str : ℕ) (e : ℕ) (c : Option Rsq) : ((setCtx s str e c)).pending = s.pending := rfl
@[simp] theorem setJobOn_rf (s : State) (b : ℕ) (v : Bool) : ((setJobOn s b v)).rf = s.rf := rfl
@[simp] theorem setJobOn_shadow (s : State) (b : ℕ) (v : Bool) : ((setJobOn s b v)).shadow = s.shadow := rfl
@[simp] theorem setJobOn_sel (s : State) (b : ℕ) (v : Bool) : ((setJobOn s b v)).sel = s.sel := rfl
@[simp] theorem setJobOn_boot (s : State) (b : ℕ) (v : Bool) : ((setJobOn s b v)).boot = s.boot := rfl
@[simp] theorem setJobOn_fuses (s : State) (b : ℕ) (v : Bool) : ((setJobOn s b v)).fuses = s.fuses := rfl
@[simp] theorem setJobOn_sess (s : State) (b : ℕ) (v : Bool) : ((setJobOn s b v)).sess = s.sess := rfl
@[simp] theorem setJobOn_deny (s : State) (b : ℕ) (v : Bool) : ((setJobOn s b v)).deny = s.deny := rfl
@[simp] theorem setJobOn_disp (s : State) (b : ℕ) (v : Bool) : ((setJobOn s b v)).disp = s.disp := rfl
@[simp] theorem setJobOn_time (s : State) (b : ℕ) (v : Bool) : ((setJobOn s b v)).time = s.time := rfl
@[simp] theorem setJobOn_vault (s : State) (b : ℕ) (v : Bool) : ((setJobOn s b v)).vault = s.vault := rfl
@[simp] theorem setJobOn_nfc (s : State) (b : ℕ) (v : Bool) : ((setJobOn s b v)).nfc = s.nfc := rfl
@[simp] theorem setJobOn_ledger (s : State) (b : ℕ) (v : Bool) : ((setJobOn s b v)).ledger = s.ledger := rfl
@[simp] theorem setJobOn_lanes (s : State) (b : ℕ) (v : Bool) : ((setJobOn s b v)).lanes = s.lanes := rfl
@[simp] theorem setJobOn_aon (s : State) (b : ℕ) (v : Bool) : ((setJobOn s b v)).aon = s.aon := rfl
@[simp] theorem setJobOn_net (s : State) (b : ℕ) (v : Bool) : ((setJobOn s b v)).net = s.net := rfl
@[simp] theorem setJobOn_tables (s : State) (b : ℕ) (v : Bool) : ((setJobOn s b v)).tables = s.tables := rfl
@[simp] theorem setJobOn_ports (s : State) (b : ℕ) (v : Bool) : ((setJobOn s b v)).ports = s.ports := rfl
@[simp] theorem setJobOn_cipher (s : State) (b : ℕ) (v : Bool) : ((setJobOn s b v)).cipher = s.cipher := rfl
@[simp] theorem setJobOn_bridge (s : State) (b : ℕ) (v : Bool) : ((setJobOn s b v)).bridge = s.bridge := rfl
@[simp] theorem setJobOn_hlb (s : State) (b : ℕ) (v : Bool) : ((setJobOn s b v)).hlb = s.hlb := rfl
@[simp] theorem setJobOn_wheels (s : State) (b : ℕ) (v : Bool) : ((setJobOn s b v)).wheels = s.wheels := rfl
@[simp] theorem setJobOn_map (s : State) (b : ℕ) (v : Bool) : ((setJobOn s b v)).map = s.map := rfl
@[simp] theorem setJobOn_changes (s : State) (b : ℕ) (v : Bool) : ((setJobOn s b v)).changes = s.changes := rfl
@[simp] theorem setJobOn_bgs (s : State) (b : ℕ) (v : Bool) : ((setJobOn s b v)).bgs = s.bgs := rfl
@[simp] theorem setJobOn_mem (s : State) (b : ℕ) (v : Bool) : ((setJobOn s b v)).mem = s.mem := rfl
@[simp] theorem setJobOn_freeze (s : State) (b : ℕ) (v : Bool) : ((setJobOn s b v)).freeze = s.freeze := rfl
@[simp] theorem setJobOn_out (s : State) (b : ℕ) (v : Bool) : ((setJobOn s b v)).out = s.out := rfl
@[simp] theorem setJobOn_fresh (s : State) (b : ℕ) (v : Bool) : ((setJobOn s b v)).fresh = s.fresh := rfl
@[simp] theorem setJobOn_pending (s : State) (b : ℕ) (v : Bool) : ((setJobOn s b v)).pending = s.pending := rfl
@[simp] theorem setEng_rf (s : State) (e : ℕ) (x : Eng) : ((setEng s e x)).rf = s.rf := rfl
@[simp] theorem setEng_shadow (s : State) (e : ℕ) (x : Eng) : ((setEng s e x)).shadow = s.shadow := rfl
@[simp] theorem setEng_sel (s : State) (e : ℕ) (x : Eng) : ((setEng s e x)).sel = s.sel := rfl
@[simp] theorem setEng_power (s : State) (e : ℕ) (x : Eng) : ((setEng s e x)).power = s.power := rfl
@[simp] theorem setEng_boot (s : State) (e : ℕ) (x : Eng) : ((setEng s e x)).boot = s.boot := rfl
@[simp] theorem setEng_fuses (s : State) (e : ℕ) (x : Eng) : ((setEng s e x)).fuses = s.fuses := rfl
@[simp] theorem setEng_sess (s : State) (e : ℕ) (x : Eng) : ((setEng s e x)).sess = s.sess := rfl
@[simp] theorem setEng_deny (s : State) (e : ℕ) (x : Eng) : ((setEng s e x)).deny = s.deny := rfl
@[simp] theorem setEng_disp (s : State) (e : ℕ) (x : Eng) : ((setEng s e x)).disp = s.disp := rfl
@[simp] theorem setEng_time (s : State) (e : ℕ) (x : Eng) : ((setEng s e x)).time = s.time := rfl
@[simp] theorem setEng_vault (s : State) (e : ℕ) (x : Eng) : ((setEng s e x)).vault = s.vault := rfl
@[simp] theorem setEng_nfc (s : State) (e : ℕ) (x : Eng) : ((setEng s e x)).nfc = s.nfc := rfl
@[simp] theorem setEng_ledger (s : State) (e : ℕ) (x : Eng) : ((setEng s e x)).ledger = s.ledger := rfl
@[simp] theorem setEng_lanes (s : State) (e : ℕ) (x : Eng) : ((setEng s e x)).lanes = s.lanes := rfl
@[simp] theorem setEng_aon (s : State) (e : ℕ) (x : Eng) : ((setEng s e x)).aon = s.aon := rfl
@[simp] theorem setEng_net (s : State) (e : ℕ) (x : Eng) : ((setEng s e x)).net = s.net := rfl
@[simp] theorem setEng_tables (s : State) (e : ℕ) (x : Eng) : ((setEng s e x)).tables = s.tables := rfl
@[simp] theorem setEng_ports (s : State) (e : ℕ) (x : Eng) : ((setEng s e x)).ports = s.ports := rfl
@[simp] theorem setEng_bridge (s : State) (e : ℕ) (x : Eng) : ((setEng s e x)).bridge = s.bridge := rfl
@[simp] theorem setEng_hlb (s : State) (e : ℕ) (x : Eng) : ((setEng s e x)).hlb = s.hlb := rfl
@[simp] theorem setEng_wheels (s : State) (e : ℕ) (x : Eng) : ((setEng s e x)).wheels = s.wheels := rfl
@[simp] theorem setEng_map (s : State) (e : ℕ) (x : Eng) : ((setEng s e x)).map = s.map := rfl
@[simp] theorem setEng_changes (s : State) (e : ℕ) (x : Eng) : ((setEng s e x)).changes = s.changes := rfl
@[simp] theorem setEng_bgs (s : State) (e : ℕ) (x : Eng) : ((setEng s e x)).bgs = s.bgs := rfl
@[simp] theorem setEng_mem (s : State) (e : ℕ) (x : Eng) : ((setEng s e x)).mem = s.mem := rfl
@[simp] theorem setEng_freeze (s : State) (e : ℕ) (x : Eng) : ((setEng s e x)).freeze = s.freeze := rfl
@[simp] theorem setEng_out (s : State) (e : ℕ) (x : Eng) : ((setEng s e x)).out = s.out := rfl
@[simp] theorem setEng_fresh (s : State) (e : ℕ) (x : Eng) : ((setEng s e x)).fresh = s.fresh := rfl
@[simp] theorem setEng_pending (s : State) (e : ℕ) (x : Eng) : ((setEng s e x)).pending = s.pending := rfl
@[simp] theorem setSlot_rf (s : State) (k : ℕ) (x : Slot) : ((setSlot s k x)).rf = s.rf := rfl
@[simp] theorem setSlot_shadow (s : State) (k : ℕ) (x : Slot) : ((setSlot s k x)).shadow = s.shadow := rfl
@[simp] theorem setSlot_sel (s : State) (k : ℕ) (x : Slot) : ((setSlot s k x)).sel = s.sel := rfl
@[simp] theorem setSlot_power (s : State) (k : ℕ) (x : Slot) : ((setSlot s k x)).power = s.power := rfl
@[simp] theorem setSlot_boot (s : State) (k : ℕ) (x : Slot) : ((setSlot s k x)).boot = s.boot := rfl
@[simp] theorem setSlot_fuses (s : State) (k : ℕ) (x : Slot) : ((setSlot s k x)).fuses = s.fuses := rfl
@[simp] theorem setSlot_sess (s : State) (k : ℕ) (x : Slot) : ((setSlot s k x)).sess = s.sess := rfl
@[simp] theorem setSlot_deny (s : State) (k : ℕ) (x : Slot) : ((setSlot s k x)).deny = s.deny := rfl
@[simp] theorem setSlot_disp (s : State) (k : ℕ) (x : Slot) : ((setSlot s k x)).disp = s.disp := rfl
@[simp] theorem setSlot_time (s : State) (k : ℕ) (x : Slot) : ((setSlot s k x)).time = s.time := rfl
@[simp] theorem setSlot_nfc (s : State) (k : ℕ) (x : Slot) : ((setSlot s k x)).nfc = s.nfc := rfl
@[simp] theorem setSlot_ledger (s : State) (k : ℕ) (x : Slot) : ((setSlot s k x)).ledger = s.ledger := rfl
@[simp] theorem setSlot_lanes (s : State) (k : ℕ) (x : Slot) : ((setSlot s k x)).lanes = s.lanes := rfl
@[simp] theorem setSlot_aon (s : State) (k : ℕ) (x : Slot) : ((setSlot s k x)).aon = s.aon := rfl
@[simp] theorem setSlot_net (s : State) (k : ℕ) (x : Slot) : ((setSlot s k x)).net = s.net := rfl
@[simp] theorem setSlot_tables (s : State) (k : ℕ) (x : Slot) : ((setSlot s k x)).tables = s.tables := rfl
@[simp] theorem setSlot_ports (s : State) (k : ℕ) (x : Slot) : ((setSlot s k x)).ports = s.ports := rfl
@[simp] theorem setSlot_cipher (s : State) (k : ℕ) (x : Slot) : ((setSlot s k x)).cipher = s.cipher := rfl
@[simp] theorem setSlot_bridge (s : State) (k : ℕ) (x : Slot) : ((setSlot s k x)).bridge = s.bridge := rfl
@[simp] theorem setSlot_hlb (s : State) (k : ℕ) (x : Slot) : ((setSlot s k x)).hlb = s.hlb := rfl
@[simp] theorem setSlot_wheels (s : State) (k : ℕ) (x : Slot) : ((setSlot s k x)).wheels = s.wheels := rfl
@[simp] theorem setSlot_map (s : State) (k : ℕ) (x : Slot) : ((setSlot s k x)).map = s.map := rfl
@[simp] theorem setSlot_changes (s : State) (k : ℕ) (x : Slot) : ((setSlot s k x)).changes = s.changes := rfl
@[simp] theorem setSlot_bgs (s : State) (k : ℕ) (x : Slot) : ((setSlot s k x)).bgs = s.bgs := rfl
@[simp] theorem setSlot_mem (s : State) (k : ℕ) (x : Slot) : ((setSlot s k x)).mem = s.mem := rfl
@[simp] theorem setSlot_freeze (s : State) (k : ℕ) (x : Slot) : ((setSlot s k x)).freeze = s.freeze := rfl
@[simp] theorem setSlot_out (s : State) (k : ℕ) (x : Slot) : ((setSlot s k x)).out = s.out := rfl
@[simp] theorem setSlot_fresh (s : State) (k : ℕ) (x : Slot) : ((setSlot s k x)).fresh = s.fresh := rfl
@[simp] theorem setSlot_pending (s : State) (k : ℕ) (x : Slot) : ((setSlot s k x)).pending = s.pending := rfl
@[simp] theorem setGate_rf (s : State) (b : ℕ) (g : GateSt) : ((setGate s b g)).rf = s.rf := rfl
@[simp] theorem setGate_shadow (s : State) (b : ℕ) (g : GateSt) : ((setGate s b g)).shadow = s.shadow := rfl
@[simp] theorem setGate_sel (s : State) (b : ℕ) (g : GateSt) : ((setGate s b g)).sel = s.sel := rfl
@[simp] theorem setGate_boot (s : State) (b : ℕ) (g : GateSt) : ((setGate s b g)).boot = s.boot := rfl
@[simp] theorem setGate_fuses (s : State) (b : ℕ) (g : GateSt) : ((setGate s b g)).fuses = s.fuses := rfl
@[simp] theorem setGate_sess (s : State) (b : ℕ) (g : GateSt) : ((setGate s b g)).sess = s.sess := rfl
@[simp] theorem setGate_deny (s : State) (b : ℕ) (g : GateSt) : ((setGate s b g)).deny = s.deny := rfl
@[simp] theorem setGate_disp (s : State) (b : ℕ) (g : GateSt) : ((setGate s b g)).disp = s.disp := rfl
@[simp] theorem setGate_time (s : State) (b : ℕ) (g : GateSt) : ((setGate s b g)).time = s.time := rfl
@[simp] theorem setGate_vault (s : State) (b : ℕ) (g : GateSt) : ((setGate s b g)).vault = s.vault := rfl
@[simp] theorem setGate_nfc (s : State) (b : ℕ) (g : GateSt) : ((setGate s b g)).nfc = s.nfc := rfl
@[simp] theorem setGate_ledger (s : State) (b : ℕ) (g : GateSt) : ((setGate s b g)).ledger = s.ledger := rfl
@[simp] theorem setGate_lanes (s : State) (b : ℕ) (g : GateSt) : ((setGate s b g)).lanes = s.lanes := rfl
@[simp] theorem setGate_aon (s : State) (b : ℕ) (g : GateSt) : ((setGate s b g)).aon = s.aon := rfl
@[simp] theorem setGate_net (s : State) (b : ℕ) (g : GateSt) : ((setGate s b g)).net = s.net := rfl
@[simp] theorem setGate_tables (s : State) (b : ℕ) (g : GateSt) : ((setGate s b g)).tables = s.tables := rfl
@[simp] theorem setGate_ports (s : State) (b : ℕ) (g : GateSt) : ((setGate s b g)).ports = s.ports := rfl
@[simp] theorem setGate_cipher (s : State) (b : ℕ) (g : GateSt) : ((setGate s b g)).cipher = s.cipher := rfl
@[simp] theorem setGate_bridge (s : State) (b : ℕ) (g : GateSt) : ((setGate s b g)).bridge = s.bridge := rfl
@[simp] theorem setGate_hlb (s : State) (b : ℕ) (g : GateSt) : ((setGate s b g)).hlb = s.hlb := rfl
@[simp] theorem setGate_wheels (s : State) (b : ℕ) (g : GateSt) : ((setGate s b g)).wheels = s.wheels := rfl
@[simp] theorem setGate_map (s : State) (b : ℕ) (g : GateSt) : ((setGate s b g)).map = s.map := rfl
@[simp] theorem setGate_changes (s : State) (b : ℕ) (g : GateSt) : ((setGate s b g)).changes = s.changes := rfl
@[simp] theorem setGate_bgs (s : State) (b : ℕ) (g : GateSt) : ((setGate s b g)).bgs = s.bgs := rfl
@[simp] theorem setGate_mem (s : State) (b : ℕ) (g : GateSt) : ((setGate s b g)).mem = s.mem := rfl
@[simp] theorem setGate_freeze (s : State) (b : ℕ) (g : GateSt) : ((setGate s b g)).freeze = s.freeze := rfl
@[simp] theorem setGate_out (s : State) (b : ℕ) (g : GateSt) : ((setGate s b g)).out = s.out := rfl
@[simp] theorem setGate_fresh (s : State) (b : ℕ) (g : GateSt) : ((setGate s b g)).fresh = s.fresh := rfl
@[simp] theorem setGate_pending (s : State) (b : ℕ) (g : GateSt) : ((setGate s b g)).pending = s.pending := rfl
@[simp] theorem setTt_rf (s : State) (n : ℕ) (t0 : Tracker) : ((setTt s n t0)).rf = s.rf := rfl
@[simp] theorem setTt_shadow (s : State) (n : ℕ) (t0 : Tracker) : ((setTt s n t0)).shadow = s.shadow := rfl
@[simp] theorem setTt_sel (s : State) (n : ℕ) (t0 : Tracker) : ((setTt s n t0)).sel = s.sel := rfl
@[simp] theorem setTt_power (s : State) (n : ℕ) (t0 : Tracker) : ((setTt s n t0)).power = s.power := rfl
@[simp] theorem setTt_boot (s : State) (n : ℕ) (t0 : Tracker) : ((setTt s n t0)).boot = s.boot := rfl
@[simp] theorem setTt_fuses (s : State) (n : ℕ) (t0 : Tracker) : ((setTt s n t0)).fuses = s.fuses := rfl
@[simp] theorem setTt_sess (s : State) (n : ℕ) (t0 : Tracker) : ((setTt s n t0)).sess = s.sess := rfl
@[simp] theorem setTt_deny (s : State) (n : ℕ) (t0 : Tracker) : ((setTt s n t0)).deny = s.deny := rfl
@[simp] theorem setTt_disp (s : State) (n : ℕ) (t0 : Tracker) : ((setTt s n t0)).disp = s.disp := rfl
@[simp] theorem setTt_time (s : State) (n : ℕ) (t0 : Tracker) : ((setTt s n t0)).time = s.time := rfl
@[simp] theorem setTt_vault (s : State) (n : ℕ) (t0 : Tracker) : ((setTt s n t0)).vault = s.vault := rfl
@[simp] theorem setTt_nfc (s : State) (n : ℕ) (t0 : Tracker) : ((setTt s n t0)).nfc = s.nfc := rfl
@[simp] theorem setTt_ledger (s : State) (n : ℕ) (t0 : Tracker) : ((setTt s n t0)).ledger = s.ledger := rfl
@[simp] theorem setTt_lanes (s : State) (n : ℕ) (t0 : Tracker) : ((setTt s n t0)).lanes = s.lanes := rfl
@[simp] theorem setTt_aon (s : State) (n : ℕ) (t0 : Tracker) : ((setTt s n t0)).aon = s.aon := rfl
@[simp] theorem setTt_net (s : State) (n : ℕ) (t0 : Tracker) : ((setTt s n t0)).net = s.net := rfl
@[simp] theorem setTt_tables (s : State) (n : ℕ) (t0 : Tracker) : ((setTt s n t0)).tables = s.tables := rfl
@[simp] theorem setTt_ports (s : State) (n : ℕ) (t0 : Tracker) : ((setTt s n t0)).ports = s.ports := rfl
@[simp] theorem setTt_cipher (s : State) (n : ℕ) (t0 : Tracker) : ((setTt s n t0)).cipher = s.cipher := rfl
@[simp] theorem setTt_bridge (s : State) (n : ℕ) (t0 : Tracker) : ((setTt s n t0)).bridge = s.bridge := rfl
@[simp] theorem setTt_hlb (s : State) (n : ℕ) (t0 : Tracker) : ((setTt s n t0)).hlb = s.hlb := rfl
@[simp] theorem setTt_map (s : State) (n : ℕ) (t0 : Tracker) : ((setTt s n t0)).map = s.map := rfl
@[simp] theorem setTt_changes (s : State) (n : ℕ) (t0 : Tracker) : ((setTt s n t0)).changes = s.changes := rfl
@[simp] theorem setTt_bgs (s : State) (n : ℕ) (t0 : Tracker) : ((setTt s n t0)).bgs = s.bgs := rfl
@[simp] theorem setTt_mem (s : State) (n : ℕ) (t0 : Tracker) : ((setTt s n t0)).mem = s.mem := rfl
@[simp] theorem setTt_freeze (s : State) (n : ℕ) (t0 : Tracker) : ((setTt s n t0)).freeze = s.freeze := rfl
@[simp] theorem setTt_out (s : State) (n : ℕ) (t0 : Tracker) : ((setTt s n t0)).out = s.out := rfl
@[simp] theorem setTt_fresh (s : State) (n : ℕ) (t0 : Tracker) : ((setTt s n t0)).fresh = s.fresh := rfl
@[simp] theorem setTt_pending (s : State) (n : ℕ) (t0 : Tracker) : ((setTt s n t0)).pending = s.pending := rfl
@[simp] theorem setFb_rf (s : State) (n : ℕ) (c : FbChan) : ((setFb s n c)).rf = s.rf := rfl
@[simp] theorem setFb_shadow (s : State) (n : ℕ) (c : FbChan) : ((setFb s n c)).shadow = s.shadow := rfl
@[simp] theorem setFb_sel (s : State) (n : ℕ) (c : FbChan) : ((setFb s n c)).sel = s.sel := rfl
@[simp] theorem setFb_power (s : State) (n : ℕ) (c : FbChan) : ((setFb s n c)).power = s.power := rfl
@[simp] theorem setFb_boot (s : State) (n : ℕ) (c : FbChan) : ((setFb s n c)).boot = s.boot := rfl
@[simp] theorem setFb_fuses (s : State) (n : ℕ) (c : FbChan) : ((setFb s n c)).fuses = s.fuses := rfl
@[simp] theorem setFb_sess (s : State) (n : ℕ) (c : FbChan) : ((setFb s n c)).sess = s.sess := rfl
@[simp] theorem setFb_deny (s : State) (n : ℕ) (c : FbChan) : ((setFb s n c)).deny = s.deny := rfl
@[simp] theorem setFb_disp (s : State) (n : ℕ) (c : FbChan) : ((setFb s n c)).disp = s.disp := rfl
@[simp] theorem setFb_time (s : State) (n : ℕ) (c : FbChan) : ((setFb s n c)).time = s.time := rfl
@[simp] theorem setFb_vault (s : State) (n : ℕ) (c : FbChan) : ((setFb s n c)).vault = s.vault := rfl
@[simp] theorem setFb_nfc (s : State) (n : ℕ) (c : FbChan) : ((setFb s n c)).nfc = s.nfc := rfl
@[simp] theorem setFb_ledger (s : State) (n : ℕ) (c : FbChan) : ((setFb s n c)).ledger = s.ledger := rfl
@[simp] theorem setFb_lanes (s : State) (n : ℕ) (c : FbChan) : ((setFb s n c)).lanes = s.lanes := rfl
@[simp] theorem setFb_aon (s : State) (n : ℕ) (c : FbChan) : ((setFb s n c)).aon = s.aon := rfl
@[simp] theorem setFb_net (s : State) (n : ℕ) (c : FbChan) : ((setFb s n c)).net = s.net := rfl
@[simp] theorem setFb_tables (s : State) (n : ℕ) (c : FbChan) : ((setFb s n c)).tables = s.tables := rfl
@[simp] theorem setFb_ports (s : State) (n : ℕ) (c : FbChan) : ((setFb s n c)).ports = s.ports := rfl
@[simp] theorem setFb_cipher (s : State) (n : ℕ) (c : FbChan) : ((setFb s n c)).cipher = s.cipher := rfl
@[simp] theorem setFb_bridge (s : State) (n : ℕ) (c : FbChan) : ((setFb s n c)).bridge = s.bridge := rfl
@[simp] theorem setFb_hlb (s : State) (n : ℕ) (c : FbChan) : ((setFb s n c)).hlb = s.hlb := rfl
@[simp] theorem setFb_map (s : State) (n : ℕ) (c : FbChan) : ((setFb s n c)).map = s.map := rfl
@[simp] theorem setFb_changes (s : State) (n : ℕ) (c : FbChan) : ((setFb s n c)).changes = s.changes := rfl
@[simp] theorem setFb_bgs (s : State) (n : ℕ) (c : FbChan) : ((setFb s n c)).bgs = s.bgs := rfl
@[simp] theorem setFb_mem (s : State) (n : ℕ) (c : FbChan) : ((setFb s n c)).mem = s.mem := rfl
@[simp] theorem setFb_freeze (s : State) (n : ℕ) (c : FbChan) : ((setFb s n c)).freeze = s.freeze := rfl
@[simp] theorem setFb_out (s : State) (n : ℕ) (c : FbChan) : ((setFb s n c)).out = s.out := rfl
@[simp] theorem setFb_fresh (s : State) (n : ℕ) (c : FbChan) : ((setFb s n c)).fresh = s.fresh := rfl
@[simp] theorem setFb_pending (s : State) (n : ℕ) (c : FbChan) : ((setFb s n c)).pending = s.pending := rfl
@[simp] theorem setCmpo_rf (s : State) (k : ℕ) (high : Bool) : ((setCmpo s k high)).rf = s.rf := by unfold setCmpo; repeat' (first | rfl | (simp; done) | split | (dsimp only; split))
@[simp] theorem setCmpo_shadow (s : State) (k : ℕ) (high : Bool) : ((setCmpo s k high)).shadow = s.shadow := by unfold setCmpo; repeat' (first | rfl | (simp; done) | split | (dsimp only; split))
@[simp] theorem setCmpo_sel (s : State) (k : ℕ) (high : Bool) : ((setCmpo s k high)).sel = s.sel := by unfold setCmpo; repeat' (first | rfl | (simp; done) | split | (dsimp only; split))
@[simp] theorem setCmpo_power (s : State) (k : ℕ) (high : Bool) : ((setCmpo s k high)).power = s.power := by unfold setCmpo; repeat' (first | rfl | (simp; done) | split | (dsimp only; split))
@[simp] theorem setCmpo_boot (s : State) (k : ℕ) (high : Bool) : ((setCmpo s k high)).boot = s.boot := by unfold setCmpo; repeat' (first | rfl | (simp; done) | split | (dsimp only; split))
@[simp] theorem setCmpo_fuses (s : State) (k : ℕ) (high : Bool) : ((setCmpo s k high)).fuses = s.fuses := by unfold setCmpo; repeat' (first | rfl | (simp; done) | split | (dsimp only; split))
@[simp] theorem setCmpo_sess (s : State) (k : ℕ) (high : Bool) : ((setCmpo s k high)).sess = s.sess := by unfold setCmpo; repeat' (first | rfl | (simp; done) | split | (dsimp only; split))
@[simp] theorem setCmpo_deny (s : State) (k : ℕ) (high : Bool) : ((setCmpo s k high)).deny = s.deny := by unfold setCmpo; repeat' (first | rfl | (simp; done) | split | (dsimp only; split))
@[simp] theorem setCmpo_disp (s : State) (k : ℕ) (high : Bool) : ((setCmpo s k high)).disp = s.disp := by unfold setCmpo; repeat' (first | rfl | (simp; done) | split | (dsimp only; split))
@[simp] theorem setCmpo_time (s : State) (k : ℕ) (high : Bool) : ((setCmpo s k high)).time = s.time := by unfold setCmpo; repeat' (first | rfl | (simp; done) | split | (dsimp only; split))
@[simp] theorem setCmpo_vault (s : State) (k : ℕ) (high : Bool) : ((setCmpo s k high)).vault = s.vault := by unfold setCmpo; repeat' (first | rfl | (simp; done) | split | (dsimp only; split))
@[simp] theorem setCmpo_nfc (s : State) (k : ℕ) (high : Bool) : ((setCmpo s k high)).nfc = s.nfc := by unfold setCmpo; repeat' (first | rfl | (simp; done) | split | (dsimp only; split))
@[simp] theorem setCmpo_ledger (s : State) (k : ℕ) (high : Bool) : ((setCmpo s k high)).ledger = s.ledger := by unfold setCmpo; repeat' (first | rfl | (simp; done) | split | (dsimp only; split))
@[simp] theorem setCmpo_lanes (s : State) (k : ℕ) (high : Bool) : ((setCmpo s k high)).lanes = s.lanes := by unfold setCmpo; repeat' (first | rfl | (simp; done) | split | (dsimp only; split))
@[simp] theorem setCmpo_aon (s : State) (k : ℕ) (high : Bool) : ((setCmpo s k high)).aon = s.aon := by unfold setCmpo; repeat' (first | rfl | (simp; done) | split | (dsimp only; split))
@[simp] theorem setCmpo_net (s : State) (k : ℕ) (high : Bool) : ((setCmpo s k high)).net = s.net := by unfold setCmpo; repeat' (first | rfl | (simp; done) | split | (dsimp only; split))
@[simp] theorem setCmpo_tables (s : State) (k : ℕ) (high : Bool) : ((setCmpo s k high)).tables = s.tables := by unfold setCmpo; repeat' (first | rfl | (simp; done) | split | (dsimp only; split))
@[simp] theorem setCmpo_ports (s : State) (k : ℕ) (high : Bool) : ((setCmpo s k high)).ports = s.ports := by unfold setCmpo; repeat' (first | rfl | (simp; done) | split | (dsimp only; split))
@[simp] theorem setCmpo_cipher (s : State) (k : ℕ) (high : Bool) : ((setCmpo s k high)).cipher = s.cipher := by unfold setCmpo; repeat' (first | rfl | (simp; done) | split | (dsimp only; split))
@[simp] theorem setCmpo_bridge (s : State) (k : ℕ) (high : Bool) : ((setCmpo s k high)).bridge = s.bridge := by unfold setCmpo; repeat' (first | rfl | (simp; done) | split | (dsimp only; split))
@[simp] theorem setCmpo_hlb (s : State) (k : ℕ) (high : Bool) : ((setCmpo s k high)).hlb = s.hlb := by unfold setCmpo; repeat' (first | rfl | (simp; done) | split | (dsimp only; split))
@[simp] theorem setCmpo_map (s : State) (k : ℕ) (high : Bool) : ((setCmpo s k high)).map = s.map := by unfold setCmpo; repeat' (first | rfl | (simp; done) | split | (dsimp only; split))
@[simp] theorem setCmpo_changes (s : State) (k : ℕ) (high : Bool) : ((setCmpo s k high)).changes = s.changes := by unfold setCmpo; repeat' (first | rfl | (simp; done) | split | (dsimp only; split))
@[simp] theorem setCmpo_bgs (s : State) (k : ℕ) (high : Bool) : ((setCmpo s k high)).bgs = s.bgs := by unfold setCmpo; repeat' (first | rfl | (simp; done) | split | (dsimp only; split))
@[simp] theorem setCmpo_mem (s : State) (k : ℕ) (high : Bool) : ((setCmpo s k high)).mem = s.mem := by unfold setCmpo; repeat' (first | rfl | (simp; done) | split | (dsimp only; split))
@[simp] theorem setCmpo_freeze (s : State) (k : ℕ) (high : Bool) : ((setCmpo s k high)).freeze = s.freeze := by unfold setCmpo; repeat' (first | rfl | (simp; done) | split | (dsimp only; split))
@[simp] theorem setCmpo_out (s : State) (k : ℕ) (high : Bool) : ((setCmpo s k high)).out = s.out := by unfold setCmpo; repeat' (first | rfl | (simp; done) | split | (dsimp only; split))
@[simp] theorem setCmpo_fresh (s : State) (k : ℕ) (high : Bool) : ((setCmpo s k high)).fresh = s.fresh := by unfold setCmpo; repeat' (first | rfl | (simp; done) | split | (dsimp only; split))
@[simp] theorem setCmpo_pending (s : State) (k : ℕ) (high : Bool) : ((setCmpo s k high)).pending = s.pending := by unfold setCmpo; repeat' (first | rfl | (simp; done) | split | (dsimp only; split))
@[simp] theorem setBolt_rf (s : State) (b : ℕ) (x : Bolt) : ((setBolt s b x)).rf = s.rf := rfl
@[simp] theorem setBolt_shadow (s : State) (b : ℕ) (x : Bolt) : ((setBolt s b x)).shadow = s.shadow := rfl
@[simp] theorem setBolt_sel (s : State) (b : ℕ) (x : Bolt) : ((setBolt s b x)).sel = s.sel := rfl
@[simp] theorem setBolt_power (s : State) (b : ℕ) (x : Bolt) : ((setBolt s b x)).power = s.power := rfl
@[simp] theorem setBolt_boot (s : State) (b : ℕ) (x : Bolt) : ((setBolt s b x)).boot = s.boot := rfl
@[simp] theorem setBolt_fuses (s : State) (b : ℕ) (x : Bolt) : ((setBolt s b x)).fuses = s.fuses := rfl
@[simp] theorem setBolt_sess (s : State) (b : ℕ) (x : Bolt) : ((setBolt s b x)).sess = s.sess := rfl
@[simp] theorem setBolt_deny (s : State) (b : ℕ) (x : Bolt) : ((setBolt s b x)).deny = s.deny := rfl
@[simp] theorem setBolt_disp (s : State) (b : ℕ) (x : Bolt) : ((setBolt s b x)).disp = s.disp := rfl
@[simp] theorem setBolt_time (s : State) (b : ℕ) (x : Bolt) : ((setBolt s b x)).time = s.time := rfl
@[simp] theorem setBolt_vault (s : State) (b : ℕ) (x : Bolt) : ((setBolt s b x)).vault = s.vault := rfl
@[simp] theorem setBolt_nfc (s : State) (b : ℕ) (x : Bolt) : ((setBolt s b x)).nfc = s.nfc := rfl
@[simp] theorem setBolt_ledger (s : State) (b : ℕ) (x : Bolt) : ((setBolt s b x)).ledger = s.ledger := rfl
@[simp] theorem setBolt_lanes (s : State) (b : ℕ) (x : Bolt) : ((setBolt s b x)).lanes = s.lanes := rfl
@[simp] theorem setBolt_aon (s : State) (b : ℕ) (x : Bolt) : ((setBolt s b x)).aon = s.aon := rfl
@[simp] theorem setBolt_net (s : State) (b : ℕ) (x : Bolt) : ((setBolt s b x)).net = s.net := rfl
@[simp] theorem setBolt_tables (s : State) (b : ℕ) (x : Bolt) : ((setBolt s b x)).tables = s.tables := rfl
@[simp] theorem setBolt_ports (s : State) (b : ℕ) (x : Bolt) : ((setBolt s b x)).ports = s.ports := rfl
@[simp] theorem setBolt_cipher (s : State) (b : ℕ) (x : Bolt) : ((setBolt s b x)).cipher = s.cipher := rfl
@[simp] theorem setBolt_bridge (s : State) (b : ℕ) (x : Bolt) : ((setBolt s b x)).bridge = s.bridge := rfl
@[simp] theorem setBolt_hlb (s : State) (b : ℕ) (x : Bolt) : ((setBolt s b x)).hlb = s.hlb := rfl
@[simp] theorem setBolt_map (s : State) (b : ℕ) (x : Bolt) : ((setBolt s b x)).map = s.map := rfl
@[simp] theorem setBolt_changes (s : State) (b : ℕ) (x : Bolt) : ((setBolt s b x)).changes = s.changes := rfl
@[simp] theorem setBolt_bgs (s : State) (b : ℕ) (x : Bolt) : ((setBolt s b x)).bgs = s.bgs := rfl
@[simp] theorem setBolt_mem (s : State) (b : ℕ) (x : Bolt) : ((setBolt s b x)).mem = s.mem := rfl
@[simp] theorem setBolt_freeze (s : State) (b : ℕ) (x : Bolt) : ((setBolt s b x)).freeze = s.freeze := rfl
@[simp] theorem setBolt_out (s : State) (b : ℕ) (x : Bolt) : ((setBolt s b x)).out = s.out := rfl
@[simp] theorem setBolt_fresh (s : State) (b : ℕ) (x : Bolt) : ((setBolt s b x)).fresh = s.fresh := rfl
@[simp] theorem setBolt_pending (s : State) (b : ℕ) (x : Bolt) : ((setBolt s b x)).pending = s.pending := rfl
@[simp] theorem setVbat_rf (s : State) (mv : ℕ) : ((setVbat s mv)).rf = s.rf := rfl
@[simp] theorem setVbat_shadow (s : State) (mv : ℕ) : ((setVbat s mv)).shadow = s.shadow := rfl
@[simp] theorem setVbat_sel (s : State) (mv : ℕ) : ((setVbat s mv)).sel = s.sel := rfl
@[simp] theorem setVbat_boot (s : State) (mv : ℕ) : ((setVbat s mv)).boot = s.boot := rfl
@[simp] theorem setVbat_fuses (s : State) (mv : ℕ) : ((setVbat s mv)).fuses = s.fuses := rfl
@[simp] theorem setVbat_sess (s : State) (mv : ℕ) : ((setVbat s mv)).sess = s.sess := rfl
@[simp] theorem setVbat_deny (s : State) (mv : ℕ) : ((setVbat s mv)).deny = s.deny := rfl
@[simp] theorem setVbat_disp (s : State) (mv : ℕ) : ((setVbat s mv)).disp = s.disp := rfl
@[simp] theorem setVbat_time (s : State) (mv : ℕ) : ((setVbat s mv)).time = s.time := rfl
@[simp] theorem setVbat_vault (s : State) (mv : ℕ) : ((setVbat s mv)).vault = s.vault := rfl
@[simp] theorem setVbat_nfc (s : State) (mv : ℕ) : ((setVbat s mv)).nfc = s.nfc := rfl
@[simp] theorem setVbat_ledger (s : State) (mv : ℕ) : ((setVbat s mv)).ledger = s.ledger := rfl
@[simp] theorem setVbat_lanes (s : State) (mv : ℕ) : ((setVbat s mv)).lanes = s.lanes := rfl
@[simp] theorem setVbat_aon (s : State) (mv : ℕ) : ((setVbat s mv)).aon = s.aon := rfl
@[simp] theorem setVbat_net (s : State) (mv : ℕ) : ((setVbat s mv)).net = s.net := rfl
@[simp] theorem setVbat_tables (s : State) (mv : ℕ) : ((setVbat s mv)).tables = s.tables := rfl
@[simp] theorem setVbat_ports (s : State) (mv : ℕ) : ((setVbat s mv)).ports = s.ports := rfl
@[simp] theorem setVbat_cipher (s : State) (mv : ℕ) : ((setVbat s mv)).cipher = s.cipher := rfl
@[simp] theorem setVbat_bridge (s : State) (mv : ℕ) : ((setVbat s mv)).bridge = s.bridge := rfl
@[simp] theorem setVbat_hlb (s : State) (mv : ℕ) : ((setVbat s mv)).hlb = s.hlb := rfl
@[simp] theorem setVbat_wheels (s : State) (mv : ℕ) : ((setVbat s mv)).wheels = s.wheels := rfl
@[simp] theorem setVbat_map (s : State) (mv : ℕ) : ((setVbat s mv)).map = s.map := rfl
@[simp] theorem setVbat_changes (s : State) (mv : ℕ) : ((setVbat s mv)).changes = s.changes := rfl
@[simp] theorem setVbat_bgs (s : State) (mv : ℕ) : ((setVbat s mv)).bgs = s.bgs := rfl
@[simp] theorem setVbat_mem (s : State) (mv : ℕ) : ((setVbat s mv)).mem = s.mem := rfl
@[simp] theorem setVbat_freeze (s : State) (mv : ℕ) : ((setVbat s mv)).freeze = s.freeze := rfl
@[simp] theorem setVbat_out (s : State) (mv : ℕ) : ((setVbat s mv)).out = s.out := rfl
@[simp] theorem setVbat_fresh (s : State) (mv : ℕ) : ((setVbat s mv)).fresh = s.fresh := rfl
@[simp] theorem setVbat_pending (s : State) (mv : ℕ) : ((setVbat s mv)).pending = s.pending := rfl
@[simp] theorem setImmob_rf (s : State) (v : Bool) : ((setImmob s v)).rf = s.rf := rfl
@[simp] theorem setImmob_shadow (s : State) (v : Bool) : ((setImmob s v)).shadow = s.shadow := rfl
@[simp] theorem setImmob_sel (s : State) (v : Bool) : ((setImmob s v)).sel = s.sel := rfl
@[simp] theorem setImmob_power (s : State) (v : Bool) : ((setImmob s v)).power = s.power := rfl
@[simp] theorem setImmob_boot (s : State) (v : Bool) : ((setImmob s v)).boot = s.boot := rfl
@[simp] theorem setImmob_fuses (s : State) (v : Bool) : ((setImmob s v)).fuses = s.fuses := rfl
@[simp] theorem setImmob_sess (s : State) (v : Bool) : ((setImmob s v)).sess = s.sess := rfl
@[simp] theorem setImmob_deny (s : State) (v : Bool) : ((setImmob s v)).deny = s.deny := rfl
@[simp] theorem setImmob_disp (s : State) (v : Bool) : ((setImmob s v)).disp = s.disp := rfl
@[simp] theorem setImmob_time (s : State) (v : Bool) : ((setImmob s v)).time = s.time := rfl
@[simp] theorem setImmob_nfc (s : State) (v : Bool) : ((setImmob s v)).nfc = s.nfc := rfl
@[simp] theorem setImmob_ledger (s : State) (v : Bool) : ((setImmob s v)).ledger = s.ledger := rfl
@[simp] theorem setImmob_lanes (s : State) (v : Bool) : ((setImmob s v)).lanes = s.lanes := rfl
@[simp] theorem setImmob_aon (s : State) (v : Bool) : ((setImmob s v)).aon = s.aon := rfl
@[simp] theorem setImmob_net (s : State) (v : Bool) : ((setImmob s v)).net = s.net := rfl
@[simp] theorem setImmob_tables (s : State) (v : Bool) : ((setImmob s v)).tables = s.tables := rfl
@[simp] theorem setImmob_ports (s : State) (v : Bool) : ((setImmob s v)).ports = s.ports := rfl
@[simp] theorem setImmob_cipher (s : State) (v : Bool) : ((setImmob s v)).cipher = s.cipher := rfl
@[simp] theorem setImmob_bridge (s : State) (v : Bool) : ((setImmob s v)).bridge = s.bridge := rfl
@[simp] theorem setImmob_hlb (s : State) (v : Bool) : ((setImmob s v)).hlb = s.hlb := rfl
@[simp] theorem setImmob_wheels (s : State) (v : Bool) : ((setImmob s v)).wheels = s.wheels := rfl
@[simp] theorem setImmob_map (s : State) (v : Bool) : ((setImmob s v)).map = s.map := rfl
@[simp] theorem setImmob_changes (s : State) (v : Bool) : ((setImmob s v)).changes = s.changes := rfl
@[simp] theorem setImmob_bgs (s : State) (v : Bool) : ((setImmob s v)).bgs = s.bgs := rfl
@[simp] theorem setImmob_mem (s : State) (v : Bool) : ((setImmob s v)).mem = s.mem := rfl
@[simp] theorem setImmob_freeze (s : State) (v : Bool) : ((setImmob s v)).freeze = s.freeze := rfl
@[simp] theorem setImmob_out (s : State) (v : Bool) : ((setImmob s v)).out = s.out := rfl
@[simp] theorem setImmob_fresh (s : State) (v : Bool) : ((setImmob s v)).fresh = s.fresh := rfl
@[simp] theorem setImmob_pending (s : State) (v : Bool) : ((setImmob s v)).pending = s.pending := rfl
@[simp] theorem toStep_rf (s : State) (k : ℕ) : ((toStep s k)).rf = s.rf := rfl
@[simp] theorem toStep_shadow (s : State) (k : ℕ) : ((toStep s k)).shadow = s.shadow := rfl
@[simp] theorem toStep_sel (s : State) (k : ℕ) : ((toStep s k)).sel = s.sel := rfl
@[simp] theorem toStep_power (s : State) (k : ℕ) : ((toStep s k)).power = s.power := rfl
@[simp] theorem toStep_fuses (s : State) (k : ℕ) : ((toStep s k)).fuses = s.fuses := rfl
@[simp] theorem toStep_sess (s : State) (k : ℕ) : ((toStep s k)).sess = s.sess := rfl
@[simp] theorem toStep_deny (s : State) (k : ℕ) : ((toStep s k)).deny = s.deny := rfl
@[simp] theorem toStep_disp (s : State) (k : ℕ) : ((toStep s k)).disp = s.disp := rfl
@[simp] theorem toStep_time (s : State) (k : ℕ) : ((toStep s k)).time = s.time := rfl
@[simp] theorem toStep_vault (s : State) (k : ℕ) : ((toStep s k)).vault = s.vault := rfl
@[simp] theorem toStep_nfc (s : State) (k : ℕ) : ((toStep s k)).nfc = s.nfc := rfl
@[simp] theorem toStep_ledger (s : State) (k : ℕ) : ((toStep s k)).ledger = s.ledger := rfl
@[simp] theorem toStep_lanes (s : State) (k : ℕ) : ((toStep s k)).lanes = s.lanes := rfl
@[simp] theorem toStep_aon (s : State) (k : ℕ) : ((toStep s k)).aon = s.aon := rfl
@[simp] theorem toStep_net (s : State) (k : ℕ) : ((toStep s k)).net = s.net := rfl
@[simp] theorem toStep_tables (s : State) (k : ℕ) : ((toStep s k)).tables = s.tables := rfl
@[simp] theorem toStep_ports (s : State) (k : ℕ) : ((toStep s k)).ports = s.ports := rfl
@[simp] theorem toStep_cipher (s : State) (k : ℕ) : ((toStep s k)).cipher = s.cipher := rfl
@[simp] theorem toStep_bridge (s : State) (k : ℕ) : ((toStep s k)).bridge = s.bridge := rfl
@[simp] theorem toStep_hlb (s : State) (k : ℕ) : ((toStep s k)).hlb = s.hlb := rfl
@[simp] theorem toStep_wheels (s : State) (k : ℕ) : ((toStep s k)).wheels = s.wheels := rfl
@[simp] theorem toStep_map (s : State) (k : ℕ) : ((toStep s k)).map = s.map := rfl
@[simp] theorem toStep_changes (s : State) (k : ℕ) : ((toStep s k)).changes = s.changes := rfl
@[simp] theorem toStep_bgs (s : State) (k : ℕ) : ((toStep s k)).bgs = s.bgs := rfl
@[simp] theorem toStep_mem (s : State) (k : ℕ) : ((toStep s k)).mem = s.mem := rfl
@[simp] theorem toStep_freeze (s : State) (k : ℕ) : ((toStep s k)).freeze = s.freeze := rfl
@[simp] theorem toStep_out (s : State) (k : ℕ) : ((toStep s k)).out = s.out := rfl
@[simp] theorem toStep_fresh (s : State) (k : ℕ) : ((toStep s k)).fresh = s.fresh := rfl
@[simp] theorem toStep_pending (s : State) (k : ℕ) : ((toStep s k)).pending = s.pending := rfl
@[simp] theorem stepFailed_rf (s : State) (k : ℕ) : ((stepFailed s k)).rf = s.rf := by unfold stepFailed; repeat' (first | rfl | (simp; done) | split | (dsimp only; split))
@[simp] theorem stepFailed_shadow (s : State) (k : ℕ) : ((stepFailed s k)).shadow = s.shadow := by unfold stepFailed; repeat' (first | rfl | (simp; done) | split | (dsimp only; split))
@[simp] theorem stepFailed_sel (s : State) (k : ℕ) : ((stepFailed s k)).sel = s.sel := by unfold stepFailed; repeat' (first | rfl | (simp; done) | split | (dsimp only; split))
@[simp] theorem stepFailed_power (s : State) (k : ℕ) : ((stepFailed s k)).power = s.power := by unfold stepFailed; repeat' (first | rfl | (simp; done) | split | (dsimp only; split))
@[simp] theorem stepFailed_fuses (s : State) (k : ℕ) : ((stepFailed s k)).fuses = s.fuses := by unfold stepFailed; repeat' (first | rfl | (simp; done) | split | (dsimp only; split))
@[simp] theorem stepFailed_sess (s : State) (k : ℕ) : ((stepFailed s k)).sess = s.sess := by unfold stepFailed; repeat' (first | rfl | (simp; done) | split | (dsimp only; split))
@[simp] theorem stepFailed_deny (s : State) (k : ℕ) : ((stepFailed s k)).deny = s.deny := by unfold stepFailed; repeat' (first | rfl | (simp; done) | split | (dsimp only; split))
@[simp] theorem stepFailed_disp (s : State) (k : ℕ) : ((stepFailed s k)).disp = s.disp := by unfold stepFailed; repeat' (first | rfl | (simp; done) | split | (dsimp only; split))
@[simp] theorem stepFailed_time (s : State) (k : ℕ) : ((stepFailed s k)).time = s.time := by unfold stepFailed; repeat' (first | rfl | (simp; done) | split | (dsimp only; split))
@[simp] theorem stepFailed_vault (s : State) (k : ℕ) : ((stepFailed s k)).vault = s.vault := by unfold stepFailed; repeat' (first | rfl | (simp; done) | split | (dsimp only; split))
@[simp] theorem stepFailed_nfc (s : State) (k : ℕ) : ((stepFailed s k)).nfc = s.nfc := by unfold stepFailed; repeat' (first | rfl | (simp; done) | split | (dsimp only; split))
@[simp] theorem stepFailed_ledger (s : State) (k : ℕ) : ((stepFailed s k)).ledger = s.ledger := by unfold stepFailed; repeat' (first | rfl | (simp; done) | split | (dsimp only; split))
@[simp] theorem stepFailed_lanes (s : State) (k : ℕ) : ((stepFailed s k)).lanes = s.lanes := by unfold stepFailed; repeat' (first | rfl | (simp; done) | split | (dsimp only; split))
@[simp] theorem stepFailed_aon (s : State) (k : ℕ) : ((stepFailed s k)).aon = s.aon := by unfold stepFailed; repeat' (first | rfl | (simp; done) | split | (dsimp only; split))
@[simp] theorem stepFailed_net (s : State) (k : ℕ) : ((stepFailed s k)).net = s.net := by unfold stepFailed; repeat' (first | rfl | (simp; done) | split | (dsimp only; split))
@[simp] theorem stepFailed_tables (s : State) (k : ℕ) : ((stepFailed s k)).tables = s.tables := by unfold stepFailed; repeat' (first | rfl | (simp; done) | split | (dsimp only; split))
@[simp] theorem stepFailed_ports (s : State) (k : ℕ) : ((stepFailed s k)).ports = s.ports := by unfold stepFailed; repeat' (first | rfl | (simp; done) | split | (dsimp only; split))
@[simp] theorem stepFailed_cipher (s : State) (k : ℕ) : ((stepFailed s k)).cipher = s.cipher := by unfold stepFailed; repeat' (first | rfl | (simp; done) | split | (dsimp only; split))
@[simp] theorem stepFailed_bridge (s : State) (k : ℕ) : ((stepFailed s k)).bridge = s.bridge := by unfold stepFailed; repeat' (first | rfl | (simp; done) | split | (dsimp only; split))
@[simp] theorem stepFailed_hlb (s : State) (k : ℕ) : ((stepFailed s k)).hlb = s.hlb := by unfold stepFailed; repeat' (first | rfl | (simp; done) | split | (dsimp only; split))
@[simp] theorem stepFailed_wheels (s : State) (k : ℕ) : ((stepFailed s k)).wheels = s.wheels := by unfold stepFailed; repeat' (first | rfl | (simp; done) | split | (dsimp only; split))
@[simp] theorem stepFailed_map (s : State) (k : ℕ) : ((stepFailed s k)).map = s.map := by unfold stepFailed; repeat' (first | rfl | (simp; done) | split | (dsimp only; split))
@[simp] theorem stepFailed_changes (s : State) (k : ℕ) : ((stepFailed s k)).changes = s.changes := by unfold stepFailed; repeat' (first | rfl | (simp; done) | split | (dsimp only; split))
@[simp] theorem stepFailed_bgs (s : State) (k : ℕ) : ((stepFailed s k)).bgs = s.bgs := by unfold stepFailed; repeat' (first | rfl | (simp; done) | split | (dsimp only; split))
@[simp] theorem stepFailed_mem (s : State) (k : ℕ) : ((stepFailed s k)).mem = s.mem := by unfold stepFailed; repeat' (first | rfl | (simp; done) | split | (dsimp only; split))
@[simp] theorem stepFailed_freeze (s : State) (k : ℕ) : ((stepFailed s k)).freeze = s.freeze := by unfold stepFailed; repeat' (first | rfl | (simp; done) | split | (dsimp only; split))
@[simp] theorem stepFailed_out (s : State) (k : ℕ) : ((stepFailed s k)).out = s.out := by unfold stepFailed; repeat' (first | rfl | (simp; done) | split | (dsimp only; split))
@[simp] theorem stepFailed_fresh (s : State) (k : ℕ) : ((stepFailed s k)).fresh = s.fresh := by unfold stepFailed; repeat' (first | rfl | (simp; done) | split | (dsimp only; split))
@[simp] theorem stepFailed_pending (s : State) (k : ℕ) : ((stepFailed s k)).pending = s.pending := by unfold stepFailed; repeat' (first | rfl | (simp; done) | split | (dsimp only; split))
@[simp] theorem railOff_shadow (s : State) (r : ℕ) : ((railOff s r)).shadow = s.shadow := by unfold railOff; repeat' (first | rfl | (simp; done) | split | (dsimp only; split))
@[simp] theorem railOff_sel (s : State) (r : ℕ) : ((railOff s r)).sel = s.sel := by unfold railOff; repeat' (first | rfl | (simp; done) | split | (dsimp only; split))
@[simp] theorem railOff_boot (s : State) (r : ℕ) : ((railOff s r)).boot = s.boot := by unfold railOff; repeat' (first | rfl | (simp; done) | split | (dsimp only; split))
@[simp] theorem railOff_fuses (s : State) (r : ℕ) : ((railOff s r)).fuses = s.fuses := by unfold railOff; repeat' (first | rfl | (simp; done) | split | (dsimp only; split))
@[simp] theorem railOff_sess (s : State) (r : ℕ) : ((railOff s r)).sess = s.sess := by unfold railOff; repeat' (first | rfl | (simp; done) | split | (dsimp only; split))
@[simp] theorem railOff_deny (s : State) (r : ℕ) : ((railOff s r)).deny = s.deny := by unfold railOff; repeat' (first | rfl | (simp; done) | split | (dsimp only; split))
@[simp] theorem railOff_disp (s : State) (r : ℕ) : ((railOff s r)).disp = s.disp := by unfold railOff; repeat' (first | rfl | (simp; done) | split | (dsimp only; split))
@[simp] theorem railOff_time (s : State) (r : ℕ) : ((railOff s r)).time = s.time := by unfold railOff; repeat' (first | rfl | (simp; done) | split | (dsimp only; split))
@[simp] theorem railOff_vault (s : State) (r : ℕ) : ((railOff s r)).vault = s.vault := by unfold railOff; repeat' (first | rfl | (simp; done) | split | (dsimp only; split))
@[simp] theorem railOff_nfc (s : State) (r : ℕ) : ((railOff s r)).nfc = s.nfc := by unfold railOff; repeat' (first | rfl | (simp; done) | split | (dsimp only; split))
@[simp] theorem railOff_ledger (s : State) (r : ℕ) : ((railOff s r)).ledger = s.ledger := by unfold railOff; repeat' (first | rfl | (simp; done) | split | (dsimp only; split))
@[simp] theorem railOff_lanes (s : State) (r : ℕ) : ((railOff s r)).lanes = s.lanes := by unfold railOff; repeat' (first | rfl | (simp; done) | split | (dsimp only; split))
@[simp] theorem railOff_aon (s : State) (r : ℕ) : ((railOff s r)).aon = s.aon := by unfold railOff; repeat' (first | rfl | (simp; done) | split | (dsimp only; split))
@[simp] theorem railOff_net (s : State) (r : ℕ) : ((railOff s r)).net = s.net := by unfold railOff; repeat' (first | rfl | (simp; done) | split | (dsimp only; split))
@[simp] theorem railOff_tables (s : State) (r : ℕ) : ((railOff s r)).tables = s.tables := by unfold railOff; repeat' (first | rfl | (simp; done) | split | (dsimp only; split))
@[simp] theorem railOff_ports (s : State) (r : ℕ) : ((railOff s r)).ports = s.ports := by unfold railOff; repeat' (first | rfl | (simp; done) | split | (dsimp only; split))
@[simp] theorem railOff_cipher (s : State) (r : ℕ) : ((railOff s r)).cipher = s.cipher := by unfold railOff; repeat' (first | rfl | (simp; done) | split | (dsimp only; split))
@[simp] theorem railOff_bridge (s : State) (r : ℕ) : ((railOff s r)).bridge = s.bridge := by unfold railOff; repeat' (first | rfl | (simp; done) | split | (dsimp only; split))
@[simp] theorem railOff_hlb (s : State) (r : ℕ) : ((railOff s r)).hlb = s.hlb := by unfold railOff; repeat' (first | rfl | (simp; done) | split | (dsimp only; split))
@[simp] theorem railOff_wheels (s : State) (r : ℕ) : ((railOff s r)).wheels = s.wheels := by unfold railOff; repeat' (first | rfl | (simp; done) | split | (dsimp only; split))
@[simp] theorem railOff_map (s : State) (r : ℕ) : ((railOff s r)).map = s.map := by unfold railOff; repeat' (first | rfl | (simp; done) | split | (dsimp only; split))
@[simp] theorem railOff_changes (s : State) (r : ℕ) : ((railOff s r)).changes = s.changes := by unfold railOff; repeat' (first | rfl | (simp; done) | split | (dsimp only; split))
@[simp] theorem railOff_bgs (s : State) (r : ℕ) : ((railOff s r)).bgs = s.bgs := by unfold railOff; repeat' (first | rfl | (simp; done) | split | (dsimp only; split))
@[simp] theorem railOff_mem (s : State) (r : ℕ) : ((railOff s r)).mem = s.mem := by unfold railOff; repeat' (first | rfl | (simp; done) | split | (dsimp only; split))
@[simp] theorem railOff_freeze (s : State) (r : ℕ) : ((railOff s r)).freeze = s.freeze := by unfold railOff; repeat' (first | rfl | (simp; done) | split | (dsimp only; split))
@[simp] theorem railOff_out (s : State) (r : ℕ) : ((railOff s r)).out = s.out := by unfold railOff; repeat' (first | rfl | (simp; done) | split | (dsimp only; split))
@[simp] theorem railOff_fresh (s : State) (r : ℕ) : ((railOff s r)).fresh = s.fresh := by unfold railOff; repeat' (first | rfl | (simp; done) | split | (dsimp only; split))
@[simp] theorem railOff_pending (s : State) (r : ℕ) : ((railOff s r)).pending = s.pending := by unfold railOff; repeat' (first | rfl | (simp; done) | split | (dsimp only; split))
@[simp] theorem railOn_rf (s : State) (r : ℕ) : ((railOn s r)).rf = s.rf := rfl
@[simp] theorem railOn_shadow (s : State) (r : ℕ) : ((railOn s r)).shadow = s.shadow := rfl
@[simp] theorem railOn_sel (s : State) (r : ℕ) : ((railOn s r)).sel = s.sel := rfl
@[simp] theorem railOn_boot (s : State) (r : ℕ) : ((railOn s r)).boot = s.boot := rfl
@[simp] theorem railOn_fuses (s : State) (r : ℕ) : ((railOn s r)).fuses = s.fuses := rfl
@[simp] theorem railOn_sess (s : State) (r : ℕ) : ((railOn s r)).sess = s.sess := rfl
@[simp] theorem railOn_deny (s : State) (r : ℕ) : ((railOn s r)).deny = s.deny := rfl
@[simp] theorem railOn_disp (s : State) (r : ℕ) : ((railOn s r)).disp = s.disp := rfl
@[simp] theorem railOn_time (s : State) (r : ℕ) : ((railOn s r)).time = s.time := rfl
@[simp] theorem railOn_vault (s : State) (r : ℕ) : ((railOn s r)).vault = s.vault := rfl
@[simp] theorem railOn_nfc (s : State) (r : ℕ) : ((railOn s r)).nfc = s.nfc := rfl
@[simp] theorem railOn_ledger (s : State) (r : ℕ) : ((railOn s r)).ledger = s.ledger := rfl
@[simp] theorem railOn_lanes (s : State) (r : ℕ) : ((railOn s r)).lanes = s.lanes := rfl
@[simp] theorem railOn_aon (s : State) (r : ℕ) : ((railOn s r)).aon = s.aon := rfl
@[simp] theorem railOn_net (s : State) (r : ℕ) : ((railOn s r)).net = s.net := rfl
@[simp] theorem railOn_tables (s : State) (r : ℕ) : ((railOn s r)).tables = s.tables := rfl
@[simp] theorem railOn_ports (s : State) (r : ℕ) : ((railOn s r)).ports = s.ports := rfl
@[simp] theorem railOn_cipher (s : State) (r : ℕ) : ((railOn s r)).cipher = s.cipher := rfl
@[simp] theorem railOn_bridge (s : State) (r : ℕ) : ((railOn s r)).bridge = s.bridge := rfl
@[simp] theorem railOn_hlb (s : State) (r : ℕ) : ((railOn s r)).hlb = s.hlb := rfl
@[simp] theorem railOn_wheels (s : State) (r : ℕ) : ((railOn s r)).wheels = s.wheels := rfl
@[simp] theorem railOn_map (s : State) (r : ℕ) : ((railOn s r)).map = s.map := rfl
@[simp] theorem railOn_changes (s : State) (r : ℕ) : ((railOn s r)).changes = s.changes := rfl
@[simp] theorem railOn_bgs (s : State) (r : ℕ) : ((railOn s r)).bgs = s.bgs := rfl
@[simp] theorem railOn_mem (s : State) (r : ℕ) : ((railOn s r)).mem = s.mem := rfl
@[simp] theorem railOn_freeze (s : State) (r : ℕ) : ((railOn s r)).freeze = s.freeze := rfl
@[simp] theorem railOn_out (s : State) (r : ℕ) : ((railOn s r)).out = s.out := rfl
@[simp] theorem railOn_fresh (s : State) (r : ℕ) : ((railOn s r)).fresh = s.fresh := rfl
@[simp] theorem railOn_pending (s : State) (r : ℕ) : ((railOn s r)).pending = s.pending := rfl
@[simp] theorem railDead_shadow (s : State) (r : ℕ) : ((railDead s r)).shadow = s.shadow := by unfold railDead; repeat' (first | rfl | (simp; done) | split | (dsimp only; split))
@[simp] theorem railDead_sel (s : State) (r : ℕ) : ((railDead s r)).sel = s.sel := by unfold railDead; repeat' (first | rfl | (simp; done) | split | (dsimp only; split))
@[simp] theorem railDead_boot (s : State) (r : ℕ) : ((railDead s r)).boot = s.boot := by unfold railDead; repeat' (first | rfl | (simp; done) | split | (dsimp only; split))
@[simp] theorem railDead_fuses (s : State) (r : ℕ) : ((railDead s r)).fuses = s.fuses := by unfold railDead; repeat' (first | rfl | (simp; done) | split | (dsimp only; split))
@[simp] theorem railDead_sess (s : State) (r : ℕ) : ((railDead s r)).sess = s.sess := by unfold railDead; repeat' (first | rfl | (simp; done) | split | (dsimp only; split))
@[simp] theorem railDead_deny (s : State) (r : ℕ) : ((railDead s r)).deny = s.deny := by unfold railDead; repeat' (first | rfl | (simp; done) | split | (dsimp only; split))
@[simp] theorem railDead_disp (s : State) (r : ℕ) : ((railDead s r)).disp = s.disp := by unfold railDead; repeat' (first | rfl | (simp; done) | split | (dsimp only; split))
@[simp] theorem railDead_time (s : State) (r : ℕ) : ((railDead s r)).time = s.time := by unfold railDead; repeat' (first | rfl | (simp; done) | split | (dsimp only; split))
@[simp] theorem railDead_vault (s : State) (r : ℕ) : ((railDead s r)).vault = s.vault := by unfold railDead; repeat' (first | rfl | (simp; done) | split | (dsimp only; split))
@[simp] theorem railDead_nfc (s : State) (r : ℕ) : ((railDead s r)).nfc = s.nfc := by unfold railDead; repeat' (first | rfl | (simp; done) | split | (dsimp only; split))
@[simp] theorem railDead_ledger (s : State) (r : ℕ) : ((railDead s r)).ledger = s.ledger := by unfold railDead; repeat' (first | rfl | (simp; done) | split | (dsimp only; split))
@[simp] theorem railDead_lanes (s : State) (r : ℕ) : ((railDead s r)).lanes = s.lanes := by unfold railDead; repeat' (first | rfl | (simp; done) | split | (dsimp only; split))
@[simp] theorem railDead_aon (s : State) (r : ℕ) : ((railDead s r)).aon = s.aon := by unfold railDead; repeat' (first | rfl | (simp; done) | split | (dsimp only; split))
@[simp] theorem railDead_net (s : State) (r : ℕ) : ((railDead s r)).net = s.net := by unfold railDead; repeat' (first | rfl | (simp; done) | split | (dsimp only; split))
@[simp] theorem railDead_tables (s : State) (r : ℕ) : ((railDead s r)).tables = s.tables := by unfold railDead; repeat' (first | rfl | (simp; done) | split | (dsimp only; split))
@[simp] theorem railDead_ports (s : State) (r : ℕ) : ((railDead s r)).ports = s.ports := by unfold railDead; repeat' (first | rfl | (simp; done) | split | (dsimp only; split))
@[simp] theorem railDead_cipher (s : State) (r : ℕ) : ((railDead s r)).cipher = s.cipher := by unfold railDead; repeat' (first | rfl | (simp; done) | split | (dsimp only; split))
@[simp] theorem railDead_bridge (s : State) (r : ℕ) : ((railDead s r)).bridge = s.bridge := by unfold railDead; repeat' (first | rfl | (simp; done) | split | (dsimp only; split))
@[simp] theorem railDead_hlb (s : State) (r : ℕ) : ((railDead s r)).hlb = s.hlb := by unfold railDead; repeat' (first | rfl | (simp; done) | split | (dsimp only; split))
@[simp] theorem railDead_wheels (s : State) (r : ℕ) : ((railDead s r)).wheels = s.wheels := by unfold railDead; repeat' (first | rfl | (simp; done) | split | (dsimp only; split))
@[simp] theorem railDead_map (s : State) (r : ℕ) : ((railDead s r)).map = s.map := by unfold railDead; repeat' (first | rfl | (simp; done) | split | (dsimp only; split))
@[simp] theorem railDead_changes (s : State) (r : ℕ) : ((railDead s r)).changes = s.changes := by unfold railDead; repeat' (first | rfl | (simp; done) | split | (dsimp only; split))
@[simp] theorem railDead_bgs (s : State) (r : ℕ) : ((railDead s r)).bgs = s.bgs := by unfold railDead; repeat' (first | rfl | (simp; done) | split | (dsimp only; split))
@[simp] theorem railDead_mem (s : State) (r : ℕ) : ((railDead s r)).mem = s.mem := by unfold railDead; repeat' (first | rfl | (simp; done) | split | (dsimp only; split))
@[simp] theorem railDead_freeze (s : State) (r : ℕ) : ((railDead s r)).freeze = s.freeze := by unfold railDead; repeat' (first | rfl | (simp; done) | split | (dsimp only; split))
@[simp] theorem railDead_out (s : State) (r : ℕ) : ((railDead s r)).out = s.out := by unfold railDead; repeat' (first | rfl | (simp; done) | split | (dsimp only; split))
@[simp] theorem railDead_fresh (s : State) (r : ℕ) : ((railDead s r)).fresh = s.fresh := by unfold railDead; repeat' (first | rfl | (simp; done) | split | (dsimp only; split))
@[simp] theorem railDead_pending (s : State) (r : ℕ) : ((railDead s r)).pending = s.pending := by unfold railDead; repeat' (first | rfl | (simp; done) | split | (dsimp only; split))
@[simp] theorem railNext_rf (s : State) (m : Mode) : ((railNext s m)).rf = s.rf := by unfold railNext; repeat' (first | rfl | (simp; done) | split | (dsimp only; split))
@[simp] theorem railNext_shadow (s : State) (m : Mode) : ((railNext s m)).shadow = s.shadow := by unfold railNext; repeat' (first | rfl | (simp; done) | split | (dsimp only; split))
@[simp] theorem railNext_sel (s : State) (m : Mode) : ((railNext s m)).sel = s.sel := by unfold railNext; repeat' (first | rfl | (simp; done) | split | (dsimp only; split))
@[simp] theorem railNext_boot (s : State) (m : Mode) : ((railNext s m)).boot = s.boot := by unfold railNext; repeat' (first | rfl | (simp; done) | split | (dsimp only; split))
@[simp] theorem railNext_fuses (s : State) (m : Mode) : ((railNext s m)).fuses = s.fuses := by unfold railNext; repeat' (first | rfl | (simp; done) | split | (dsimp only; split))
@[simp] theorem railNext_sess (s : State) (m : Mode) : ((railNext s m)).sess = s.sess := by unfold railNext; repeat' (first | rfl | (simp; done) | split | (dsimp only; split))
@[simp] theorem railNext_deny (s : State) (m : Mode) : ((railNext s m)).deny = s.deny := by unfold railNext; repeat' (first | rfl | (simp; done) | split | (dsimp only; split))
@[simp] theorem railNext_disp (s : State) (m : Mode) : ((railNext s m)).disp = s.disp := by unfold railNext; repeat' (first | rfl | (simp; done) | split | (dsimp only; split))
@[simp] theorem railNext_time (s : State) (m : Mode) : ((railNext s m)).time = s.time := by unfold railNext; repeat' (first | rfl | (simp; done) | split | (dsimp only; split))
@[simp] theorem railNext_vault (s : State) (m : Mode) : ((railNext s m)).vault = s.vault := by unfold railNext; repeat' (first | rfl | (simp; done) | split | (dsimp only; split))
@[simp] theorem railNext_nfc (s : State) (m : Mode) : ((railNext s m)).nfc = s.nfc := by unfold railNext; repeat' (first | rfl | (simp; done) | split | (dsimp only; split))
@[simp] theorem railNext_ledger (s : State) (m : Mode) : ((railNext s m)).ledger = s.ledger := by unfold railNext; repeat' (first | rfl | (simp; done) | split | (dsimp only; split))
@[simp] theorem railNext_lanes (s : State) (m : Mode) : ((railNext s m)).lanes = s.lanes := by unfold railNext; repeat' (first | rfl | (simp; done) | split | (dsimp only; split))
@[simp] theorem railNext_aon (s : State) (m : Mode) : ((railNext s m)).aon = s.aon := by unfold railNext; repeat' (first | rfl | (simp; done) | split | (dsimp only; split))
@[simp] theorem railNext_net (s : State) (m : Mode) : ((railNext s m)).net = s.net := by unfold railNext; repeat' (first | rfl | (simp; done) | split | (dsimp only; split))
@[simp] theorem railNext_tables (s : State) (m : Mode) : ((railNext s m)).tables = s.tables := by unfold railNext; repeat' (first | rfl | (simp; done) | split | (dsimp only; split))
@[simp] theorem railNext_ports (s : State) (m : Mode) : ((railNext s m)).ports = s.ports := by unfold railNext; repeat' (first | rfl | (simp; done) | split | (dsimp only; split))
@[simp] theorem railNext_cipher (s : State) (m : Mode) : ((railNext s m)).cipher = s.cipher := by unfold railNext; repeat' (first | rfl | (simp; done) | split | (dsimp only; split))
@[simp] theorem railNext_bridge (s : State) (m : Mode) : ((railNext s m)).bridge = s.bridge := by unfold railNext; repeat' (first | rfl | (simp; done) | split | (dsimp only; split))
@[simp] theorem railNext_hlb (s : State) (m : Mode) : ((railNext s m)).hlb = s.hlb := by unfold railNext; repeat' (first | rfl | (simp; done) | split | (dsimp only; split))
@[simp] theorem railNext_wheels (s : State) (m : Mode) : ((railNext s m)).wheels = s.wheels := by unfold railNext; repeat' (first | rfl | (simp; done) | split | (dsimp only; split))
@[simp] theorem railNext_map (s : State) (m : Mode) : ((railNext s m)).map = s.map := by unfold railNext; repeat' (first | rfl | (simp; done) | split | (dsimp only; split))
@[simp] theorem railNext_changes (s : State) (m : Mode) : ((railNext s m)).changes = s.changes := by unfold railNext; repeat' (first | rfl | (simp; done) | split | (dsimp only; split))
@[simp] theorem railNext_bgs (s : State) (m : Mode) : ((railNext s m)).bgs = s.bgs := by unfold railNext; repeat' (first | rfl | (simp; done) | split | (dsimp only; split))
@[simp] theorem railNext_mem (s : State) (m : Mode) : ((railNext s m)).mem = s.mem := by unfold railNext; repeat' (first | rfl | (simp; done) | split | (dsimp only; split))
@[simp] theorem railNext_freeze (s : State) (m : Mode) : ((railNext s m)).freeze = s.freeze := by unfold railNext; repeat' (first | rfl | (simp; done) | split | (dsimp only; split))
@[simp] theorem railNext_out (s : State) (m : Mode) : ((railNext s m)).out = s.out := by unfold railNext; repeat' (first | rfl | (simp; done) | split | (dsimp only; split))
@[simp] theorem railNext_fresh (s : State) (m : Mode) : ((railNext s m)).fresh = s.fresh := by unfold railNext; repeat' (first | rfl | (simp; done) | split | (dsimp only; split))
@[simp] theorem railNext_pending (s : State) (m : Mode) : ((railNext s m)).pending = s.pending := by unfold railNext; repeat' (first | rfl | (simp; done) | split | (dsimp only; split))
@[simp] theorem setLoop_rf (s : State) (e : ℕ) (kind : ℕ) : ((setLoop s e kind)).rf = s.rf := rfl
@[simp] theorem setLoop_shadow (s : State) (e : ℕ) (kind : ℕ) : ((setLoop s e kind)).shadow = s.shadow := rfl
@[simp] theorem setLoop_sel (s : State) (e : ℕ) (kind : ℕ) : ((setLoop s e kind)).sel = s.sel := rfl
@[simp] theorem setLoop_power (s : State) (e : ℕ) (kind : ℕ) : ((setLoop s e kind)).power = s.power := rfl
@[simp] theorem setLoop_boot (s : State) (e : ℕ) (kind : ℕ) : ((setLoop s e kind)).boot = s.boot := rfl
@[simp] theorem setLoop_fuses (s : State) (e : ℕ) (kind : ℕ) : ((setLoop s e kind)).fuses = s.fuses := rfl
@[simp] theorem setLoop_sess (s : State) (e : ℕ) (kind : ℕ) : ((setLoop s e kind)).sess = s.sess := rfl
@[simp] theorem setLoop_deny (s : State) (e : ℕ) (kind : ℕ) : ((setLoop s e kind)).deny = s.deny := rfl
@[simp] theorem setLoop_disp (s : State) (e : ℕ) (kind : ℕ) : ((setLoop s e kind)).disp = s.disp := rfl
@[simp] theorem setLoop_time (s : State) (e : ℕ) (kind : ℕ) : ((setLoop s e kind)).time = s.time := rfl
@[simp] theorem setLoop_vault (s : State) (e : ℕ) (kind : ℕ) : ((setLoop s e kind)).vault = s.vault := rfl
@[simp] theorem setLoop_nfc (s : State) (e : ℕ) (kind : ℕ) : ((setLoop s e kind)).nfc = s.nfc := rfl
@[simp] theorem setLoop_ledger (s : State) (e : ℕ) (kind : ℕ) : ((setLoop s e kind)).ledger = s.ledger := rfl
@[simp] theorem setLoop_lanes (s : State) (e : ℕ) (kind : ℕ) : ((setLoop s e kind)).lanes = s.lanes := rfl
@[simp] theorem setLoop_aon (s : State) (e : ℕ) (kind : ℕ) : ((setLoop s e kind)).aon = s.aon := rfl
@[simp] theorem setLoop_tables (s : State) (e : ℕ) (kind : ℕ) : ((setLoop s e kind)).tables = s.tables := rfl
@[simp] theorem setLoop_ports (s : State) (e : ℕ) (kind : ℕ) : ((setLoop s e kind)).ports = s.ports := rfl
@[simp] theorem setLoop_cipher (s : State) (e : ℕ) (kind : ℕ) : ((setLoop s e kind)).cipher = s.cipher := rfl
@[simp] theorem setLoop_bridge (s : State) (e : ℕ) (kind : ℕ) : ((setLoop s e kind)).bridge = s.bridge := rfl
@[simp] theorem setLoop_hlb (s : State) (e : ℕ) (kind : ℕ) : ((setLoop s e kind)).hlb = s.hlb := rfl
@[simp] theorem setLoop_wheels (s : State) (e : ℕ) (kind : ℕ) : ((setLoop s e kind)).wheels = s.wheels := rfl
@[simp] theorem setLoop_map (s : State) (e : ℕ) (kind : ℕ) : ((setLoop s e kind)).map = s.map := rfl
@[simp] theorem setLoop_changes (s : State) (e : ℕ) (kind : ℕ) : ((setLoop s e kind)).changes = s.changes := rfl
@[simp] theorem setLoop_bgs (s : State) (e : ℕ) (kind : ℕ) : ((setLoop s e kind)).bgs = s.bgs := rfl
@[simp] theorem setLoop_mem (s : State) (e : ℕ) (kind : ℕ) : ((setLoop s e kind)).mem = s.mem := rfl
@[simp] theorem setLoop_freeze (s : State) (e : ℕ) (kind : ℕ) : ((setLoop s e kind)).freeze = s.freeze := rfl
@[simp] theorem setLoop_out (s : State) (e : ℕ) (kind : ℕ) : ((setLoop s e kind)).out = s.out := rfl
@[simp] theorem setLoop_fresh (s : State) (e : ℕ) (kind : ℕ) : ((setLoop s e kind)).fresh = s.fresh := rfl
@[simp] theorem setLoop_pending (s : State) (e : ℕ) (kind : ℕ) : ((setLoop s e kind)).pending = s.pending := rfl
@[simp] theorem setPath_rf (s : State) (p : ℕ) (x : CredPath) : ((setPath s p x)).rf = s.rf := by unfold setPath; repeat' (first | rfl | (simp; done) | split | (dsimp only; split))
@[simp] theorem setPath_shadow (s : State) (p : ℕ) (x : CredPath) : ((setPath s p x)).shadow = s.shadow := by unfold setPath; repeat' (first | rfl | (simp; done) | split | (dsimp only; split))
@[simp] theorem setPath_sel (s : State) (p : ℕ) (x : CredPath) : ((setPath s p x)).sel = s.sel := by unfold setPath; repeat' (first | rfl | (simp; done) | split | (dsimp only; split))
@[simp] theorem setPath_power (s : State) (p : ℕ) (x : CredPath) : ((setPath s p x)).power = s.power := by unfold setPath; repeat' (first | rfl | (simp; done) | split | (dsimp only; split))
@[simp] theorem setPath_boot (s : State) (p : ℕ) (x : CredPath) : ((setPath s p x)).boot = s.boot := by unfold setPath; repeat' (first | rfl | (simp; done) | split | (dsimp only; split))
@[simp] theorem setPath_fuses (s : State) (p : ℕ) (x : CredPath) : ((setPath s p x)).fuses = s.fuses := by unfold setPath; repeat' (first | rfl | (simp; done) | split | (dsimp only; split))
@[simp] theorem setPath_sess (s : State) (p : ℕ) (x : CredPath) : ((setPath s p x)).sess = s.sess := by unfold setPath; repeat' (first | rfl | (simp; done) | split | (dsimp only; split))
@[simp] theorem setPath_deny (s : State) (p : ℕ) (x : CredPath) : ((setPath s p x)).deny = s.deny := by unfold setPath; repeat' (first | rfl | (simp; done) | split | (dsimp only; split))
@[simp] theorem setPath_disp (s : State) (p : ℕ) (x : CredPath) : ((setPath s p x)).disp = s.disp := by unfold setPath; repeat' (first | rfl | (simp; done) | split | (dsimp only; split))
@[simp] theorem setPath_time (s : State) (p : ℕ) (x : CredPath) : ((setPath s p x)).time = s.time := by unfold setPath; repeat' (first | rfl | (simp; done) | split | (dsimp only; split))
@[simp] theorem setPath_vault (s : State) (p : ℕ) (x : CredPath) : ((setPath s p x)).vault = s.vault := by unfold setPath; repeat' (first | rfl | (simp; done) | split | (dsimp only; split))
@[simp] theorem setPath_ledger (s : State) (p : ℕ) (x : CredPath) : ((setPath s p x)).ledger = s.ledger := by unfold setPath; repeat' (first | rfl | (simp; done) | split | (dsimp only; split))
@[simp] theorem setPath_lanes (s : State) (p : ℕ) (x : CredPath) : ((setPath s p x)).lanes = s.lanes := by unfold setPath; repeat' (first | rfl | (simp; done) | split | (dsimp only; split))
@[simp] theorem setPath_aon (s : State) (p : ℕ) (x : CredPath) : ((setPath s p x)).aon = s.aon := by unfold setPath; repeat' (first | rfl | (simp; done) | split | (dsimp only; split))
@[simp] theorem setPath_net (s : State) (p : ℕ) (x : CredPath) : ((setPath s p x)).net = s.net := by unfold setPath; repeat' (first | rfl | (simp; done) | split | (dsimp only; split))
@[simp] theorem setPath_tables (s : State) (p : ℕ) (x : CredPath) : ((setPath s p x)).tables = s.tables := by unfold setPath; repeat' (first | rfl | (simp; done) | split | (dsimp only; split))
@[simp] theorem setPath_ports (s : State) (p : ℕ) (x : CredPath) : ((setPath s p x)).ports = s.ports := by unfold setPath; repeat' (first | rfl | (simp; done) | split | (dsimp only; split))
@[simp] theorem setPath_cipher (s : State) (p : ℕ) (x : CredPath) : ((setPath s p x)).cipher = s.cipher := by unfold setPath; repeat' (first | rfl | (simp; done) | split | (dsimp only; split))
@[simp] theorem setPath_bridge (s : State) (p : ℕ) (x : CredPath) : ((setPath s p x)).bridge = s.bridge := by unfold setPath; repeat' (first | rfl | (simp; done) | split | (dsimp only; split))
@[simp] theorem setPath_hlb (s : State) (p : ℕ) (x : CredPath) : ((setPath s p x)).hlb = s.hlb := by unfold setPath; repeat' (first | rfl | (simp; done) | split | (dsimp only; split))
@[simp] theorem setPath_wheels (s : State) (p : ℕ) (x : CredPath) : ((setPath s p x)).wheels = s.wheels := by unfold setPath; repeat' (first | rfl | (simp; done) | split | (dsimp only; split))
@[simp] theorem setPath_map (s : State) (p : ℕ) (x : CredPath) : ((setPath s p x)).map = s.map := by unfold setPath; repeat' (first | rfl | (simp; done) | split | (dsimp only; split))
@[simp] theorem setPath_changes (s : State) (p : ℕ) (x : CredPath) : ((setPath s p x)).changes = s.changes := by unfold setPath; repeat' (first | rfl | (simp; done) | split | (dsimp only; split))
@[simp] theorem setPath_bgs (s : State) (p : ℕ) (x : CredPath) : ((setPath s p x)).bgs = s.bgs := by unfold setPath; repeat' (first | rfl | (simp; done) | split | (dsimp only; split))
@[simp] theorem setPath_mem (s : State) (p : ℕ) (x : CredPath) : ((setPath s p x)).mem = s.mem := by unfold setPath; repeat' (first | rfl | (simp; done) | split | (dsimp only; split))
@[simp] theorem setPath_freeze (s : State) (p : ℕ) (x : CredPath) : ((setPath s p x)).freeze = s.freeze := by unfold setPath; repeat' (first | rfl | (simp; done) | split | (dsimp only; split))
@[simp] theorem setPath_out (s : State) (p : ℕ) (x : CredPath) : ((setPath s p x)).out = s.out := by unfold setPath; repeat' (first | rfl | (simp; done) | split | (dsimp only; split))
@[simp] theorem setPath_fresh (s : State) (p : ℕ) (x : CredPath) : ((setPath s p x)).fresh = s.fresh := by unfold setPath; repeat' (first | rfl | (simp; done) | split | (dsimp only; split))
@[simp] theorem setPath_pending (s : State) (p : ℕ) (x : CredPath) : ((setPath s p x)).pending = s.pending := by unfold setPath; repeat' (first | rfl | (simp; done) | split | (dsimp only; split))
@[simp] theorem setCur_rf (s : State) (c : Option Ctx) : ((setCur s c)).rf = s.rf := rfl
@[simp] theorem setCur_shadow (s : State) (c : Option Ctx) : ((setCur s c)).shadow = s.shadow := rfl
@[simp] theorem setCur_sel (s : State) (c : Option Ctx) : ((setCur s c)).sel = s.sel := rfl
@[simp] theorem setCur_power (s : State) (c : Option Ctx) : ((setCur s c)).power = s.power := rfl
@[simp] theorem setCur_boot (s : State) (c : Option Ctx) : ((setCur s c)).boot = s.boot := rfl
@[simp] theorem setCur_fuses (s : State) (c : Option Ctx) : ((setCur s c)).fuses = s.fuses := rfl
@[simp] theorem setCur_sess (s : State) (c : Option Ctx) : ((setCur s c)).sess = s.sess := rfl
@[simp] theorem setCur_deny (s : State) (c : Option Ctx) : ((setCur s c)).deny = s.deny := rfl
@[simp] theorem setCur_time (s : State) (c : Option Ctx) : ((setCur s c)).time = s.time := rfl
@[simp] theorem setCur_vault (s : State) (c : Option Ctx) : ((setCur s c)).vault = s.vault := rfl
@[simp] theorem setCur_nfc (s : State) (c : Option Ctx) : ((setCur s c)).nfc = s.nfc := rfl
@[simp] theorem setCur_ledger (s : State) (c : Option Ctx) : ((setCur s c)).ledger = s.ledger := rfl
@[simp] theorem setCur_lanes (s : State) (c : Option Ctx) : ((setCur s c)).lanes = s.lanes := rfl
@[simp] theorem setCur_aon (s : State) (c : Option Ctx) : ((setCur s c)).aon = s.aon := rfl
@[simp] theorem setCur_net (s : State) (c : Option Ctx) : ((setCur s c)).net = s.net := rfl
@[simp] theorem setCur_tables (s : State) (c : Option Ctx) : ((setCur s c)).tables = s.tables := rfl
@[simp] theorem setCur_ports (s : State) (c : Option Ctx) : ((setCur s c)).ports = s.ports := rfl
@[simp] theorem setCur_cipher (s : State) (c : Option Ctx) : ((setCur s c)).cipher = s.cipher := rfl
@[simp] theorem setCur_bridge (s : State) (c : Option Ctx) : ((setCur s c)).bridge = s.bridge := rfl
@[simp] theorem setCur_hlb (s : State) (c : Option Ctx) : ((setCur s c)).hlb = s.hlb := rfl
@[simp] theorem setCur_wheels (s : State) (c : Option Ctx) : ((setCur s c)).wheels = s.wheels := rfl
@[simp] theorem setCur_map (s : State) (c : Option Ctx) : ((setCur s c)).map = s.map := rfl
@[simp] theorem setCur_changes (s : State) (c : Option Ctx) : ((setCur s c)).changes = s.changes := rfl
@[simp] theorem setCur_bgs (s : State) (c : Option Ctx) : ((setCur s c)).bgs = s.bgs := rfl
@[simp] theorem setCur_mem (s : State) (c : Option Ctx) : ((setCur s c)).mem = s.mem := rfl
@[simp] theorem setCur_freeze (s : State) (c : Option Ctx) : ((setCur s c)).freeze = s.freeze := rfl
@[simp] theorem setCur_out (s : State) (c : Option Ctx) : ((setCur s c)).out = s.out := rfl
@[simp] theorem setCur_fresh (s : State) (c : Option Ctx) : ((setCur s c)).fresh = s.fresh := rfl
@[simp] theorem setCur_pending (s : State) (c : Option Ctx) : ((setCur s c)).pending = s.pending := rfl
@[simp] theorem pullRequest_rf (s : State) (c : Chan) (x : Option Ctx) : ((pullRequest s c x)).rf = s.rf := by unfold pullRequest; repeat' (first | rfl | (simp; done) | split | (dsimp only; split))
@[simp] theorem pullRequest_shadow (s : State) (c : Chan) (x : Option Ctx) : ((pullRequest s c x)).shadow = s.shadow := by unfold pullRequest; repeat' (first | rfl | (simp; done) | split | (dsimp only; split))
@[simp] theorem pullRequest_sel (s : State) (c : Chan) (x : Option Ctx) : ((pullRequest s c x)).sel = s.sel := by unfold pullRequest; repeat' (first | rfl | (simp; done) | split | (dsimp only; split))
@[simp] theorem pullRequest_power (s : State) (c : Chan) (x : Option Ctx) : ((pullRequest s c x)).power = s.power := by unfold pullRequest; repeat' (first | rfl | (simp; done) | split | (dsimp only; split))
@[simp] theorem pullRequest_boot (s : State) (c : Chan) (x : Option Ctx) : ((pullRequest s c x)).boot = s.boot := by unfold pullRequest; repeat' (first | rfl | (simp; done) | split | (dsimp only; split))
@[simp] theorem pullRequest_fuses (s : State) (c : Chan) (x : Option Ctx) : ((pullRequest s c x)).fuses = s.fuses := by unfold pullRequest; repeat' (first | rfl | (simp; done) | split | (dsimp only; split))
@[simp] theorem pullRequest_sess (s : State) (c : Chan) (x : Option Ctx) : ((pullRequest s c x)).sess = s.sess := by unfold pullRequest; repeat' (first | rfl | (simp; done) | split | (dsimp only; split))
@[simp] theorem pullRequest_deny (s : State) (c : Chan) (x : Option Ctx) : ((pullRequest s c x)).deny = s.deny := by unfold pullRequest; repeat' (first | rfl | (simp; done) | split | (dsimp only; split))
@[simp] theorem pullRequest_time (s : State) (c : Chan) (x : Option Ctx) : ((pullRequest s c x)).time = s.time := by unfold pullRequest; repeat' (first | rfl | (simp; done) | split | (dsimp only; split))
@[simp] theorem pullRequest_vault (s : State) (c : Chan) (x : Option Ctx) : ((pullRequest s c x)).vault = s.vault := by unfold pullRequest; repeat' (first | rfl | (simp; done) | split | (dsimp only; split))
@[simp] theorem pullRequest_nfc (s : State) (c : Chan) (x : Option Ctx) : ((pullRequest s c x)).nfc = s.nfc := by unfold pullRequest; repeat' (first | rfl | (simp; done) | split | (dsimp only; split))
@[simp] theorem pullRequest_ledger (s : State) (c : Chan) (x : Option Ctx) : ((pullRequest s c x)).ledger = s.ledger := by unfold pullRequest; repeat' (first | rfl | (simp; done) | split | (dsimp only; split))
@[simp] theorem pullRequest_lanes (s : State) (c : Chan) (x : Option Ctx) : ((pullRequest s c x)).lanes = s.lanes := by unfold pullRequest; repeat' (first | rfl | (simp; done) | split | (dsimp only; split))
@[simp] theorem pullRequest_aon (s : State) (c : Chan) (x : Option Ctx) : ((pullRequest s c x)).aon = s.aon := by unfold pullRequest; repeat' (first | rfl | (simp; done) | split | (dsimp only; split))
@[simp] theorem pullRequest_net (s : State) (c : Chan) (x : Option Ctx) : ((pullRequest s c x)).net = s.net := by unfold pullRequest; repeat' (first | rfl | (simp; done) | split | (dsimp only; split))
@[simp] theorem pullRequest_tables (s : State) (c : Chan) (x : Option Ctx) : ((pullRequest s c x)).tables = s.tables := by unfold pullRequest; repeat' (first | rfl | (simp; done) | split | (dsimp only; split))
@[simp] theorem pullRequest_ports (s : State) (c : Chan) (x : Option Ctx) : ((pullRequest s c x)).ports = s.ports := by unfold pullRequest; repeat' (first | rfl | (simp; done) | split | (dsimp only; split))
@[simp] theorem pullRequest_cipher (s : State) (c : Chan) (x : Option Ctx) : ((pullRequest s c x)).cipher = s.cipher := by unfold pullRequest; repeat' (first | rfl | (simp; done) | split | (dsimp only; split))
@[simp] theorem pullRequest_bridge (s : State) (c : Chan) (x : Option Ctx) : ((pullRequest s c x)).bridge = s.bridge := by unfold pullRequest; repeat' (first | rfl | (simp; done) | split | (dsimp only; split))
@[simp] theorem pullRequest_hlb (s : State) (c : Chan) (x : Option Ctx) : ((pullRequest s c x)).hlb = s.hlb := by unfold pullRequest; repeat' (first | rfl | (simp; done) | split | (dsimp only; split))
@[simp] theorem pullRequest_wheels (s : State) (c : Chan) (x : Option Ctx) : ((pullRequest s c x)).wheels = s.wheels := by unfold pullRequest; repeat' (first | rfl | (simp; done) | split | (dsimp only; split))
@[simp] theorem pullRequest_map (s : State) (c : Chan) (x : Option Ctx) : ((pullRequest s c x)).map = s.map := by unfold pullRequest; repeat' (first | rfl | (simp; done) | split | (dsimp only; split))
@[simp] theorem pullRequest_changes (s : State) (c : Chan) (x : Option Ctx) : ((pullRequest s c x)).changes = s.changes := by unfold pullRequest; repeat' (first | rfl | (simp; done) | split | (dsimp only; split))
@[simp] theorem pullRequest_bgs (s : State) (c : Chan) (x : Option Ctx) : ((pullRequest s c x)).bgs = s.bgs := by unfold pullRequest; repeat' (first | rfl | (simp; done) | split | (dsimp only; split))
@[simp] theorem pullRequest_mem (s : State) (c : Chan) (x : Option Ctx) : ((pullRequest s c x)).mem = s.mem := by unfold pullRequest; repeat' (first | rfl | (simp; done) | split | (dsimp only; split))
@[simp] theorem pullRequest_freeze (s : State) (c : Chan) (x : Option Ctx) : ((pullRequest s c x)).freeze = s.freeze := by unfold pullRequest; repeat' (first | rfl | (simp; done) | split | (dsimp only; split))
@[simp] theorem pullRequest_out (s : State) (c : Chan) (x : Option Ctx) : ((pullRequest s c x)).out = s.out := by unfold pullRequest; repeat' (first | rfl | (simp; done) | split | (dsimp only; split))
@[simp] theorem pullRequest_fresh (s : State) (c : Chan) (x : Option Ctx) : ((pullRequest s c x)).fresh = s.fresh := by unfold pullRequest; repeat' (first | rfl | (simp; done) | split | (dsimp only; split))
@[simp] theorem pullRequest_pending (s : State) (c : Chan) (x : Option Ctx) : ((pullRequest s c x)).pending = s.pending := by unfold pullRequest; repeat' (first | rfl | (simp; done) | split | (dsimp only; split))
@[simp] theorem recordClose_shadow (s : State) (reason : ℕ) : ((recordClose s reason)).shadow = s.shadow := rfl
@[simp] theorem recordClose_sel (s : State) (reason : ℕ) : ((recordClose s reason)).sel = s.sel := rfl
@[simp] theorem recordClose_power (s : State) (reason : ℕ) : ((recordClose s reason)).power = s.power := rfl
@[simp] theorem recordClose_boot (s : State) (reason : ℕ) : ((recordClose s reason)).boot = s.boot := rfl
@[simp] theorem recordClose_fuses (s : State) (reason : ℕ) : ((recordClose s reason)).fuses = s.fuses := rfl
@[simp] theorem recordClose_sess (s : State) (reason : ℕ) : ((recordClose s reason)).sess = s.sess := rfl
@[simp] theorem recordClose_deny (s : State) (reason : ℕ) : ((recordClose s reason)).deny = s.deny := rfl
@[simp] theorem recordClose_disp (s : State) (reason : ℕ) : ((recordClose s reason)).disp = s.disp := rfl
@[simp] theorem recordClose_time (s : State) (reason : ℕ) : ((recordClose s reason)).time = s.time := rfl
@[simp] theorem recordClose_vault (s : State) (reason : ℕ) : ((recordClose s reason)).vault = s.vault := rfl
@[simp] theorem recordClose_nfc (s : State) (reason : ℕ) : ((recordClose s reason)).nfc = s.nfc := rfl
@[simp] theorem recordClose_ledger (s : State) (reason : ℕ) : ((recordClose s reason)).ledger = s.ledger := rfl
@[simp] theorem recordClose_lanes (s : State) (reason : ℕ) : ((recordClose s reason)).lanes = s.lanes := rfl
@[simp] theorem recordClose_aon (s : State) (reason : ℕ) : ((recordClose s reason)).aon = s.aon := rfl
@[simp] theorem recordClose_net (s : State) (reason : ℕ) : ((recordClose s reason)).net = s.net := rfl
@[simp] theorem recordClose_tables (s : State) (reason : ℕ) : ((recordClose s reason)).tables = s.tables := rfl
@[simp] theorem recordClose_ports (s : State) (reason : ℕ) : ((recordClose s reason)).ports = s.ports := rfl
@[simp] theorem recordClose_cipher (s : State) (reason : ℕ) : ((recordClose s reason)).cipher = s.cipher := rfl
@[simp] theorem recordClose_bridge (s : State) (reason : ℕ) : ((recordClose s reason)).bridge = s.bridge := rfl
@[simp] theorem recordClose_hlb (s : State) (reason : ℕ) : ((recordClose s reason)).hlb = s.hlb := rfl
@[simp] theorem recordClose_wheels (s : State) (reason : ℕ) : ((recordClose s reason)).wheels = s.wheels := rfl
@[simp] theorem recordClose_map (s : State) (reason : ℕ) : ((recordClose s reason)).map = s.map := rfl
@[simp] theorem recordClose_changes (s : State) (reason : ℕ) : ((recordClose s reason)).changes = s.changes := rfl
@[simp] theorem recordClose_bgs (s : State) (reason : ℕ) : ((recordClose s reason)).bgs = s.bgs := rfl
@[simp] theorem recordClose_mem (s : State) (reason : ℕ) : ((recordClose s reason)).mem = s.mem := rfl
@[simp] theorem recordClose_freeze (s : State) (reason : ℕ) : ((recordClose s reason)).freeze = s.freeze := rfl
@[simp] theorem recordClose_out (s : State) (reason : ℕ) : ((recordClose s reason)).out = s.out := rfl
@[simp] theorem recordClose_fresh (s : State) (reason : ℕ) : ((recordClose s reason)).fresh = s.fresh := rfl
@[simp] theorem recordClose_pending (s : State) (reason : ℕ) : ((recordClose s reason)).pending = s.pending := rfl
@[simp] theorem setMap_rf (s : State) (m : List Cfg) : ((setMap s m)).rf = s.rf := rfl
@[simp] theorem setMap_shadow (s : State) (m : List Cfg) : ((setMap s m)).shadow = s.shadow := rfl
@[simp] theorem setMap_sel (s : State) (m : List Cfg) : ((setMap s m)).sel = s.sel := rfl
@[simp] theorem setMap_power (s : State) (m : List Cfg) : ((setMap s m)).power = s.power := rfl
@[simp] theorem setMap_fuses (s : State) (m : List Cfg) : ((setMap s m)).fuses = s.fuses := rfl
@[simp] theorem setMap_sess (s : State) (m : List Cfg) : ((setMap s m)).sess = s.sess := rfl
@[simp] theorem setMap_deny (s : State) (m : List Cfg) : ((setMap s m)).deny = s.deny := rfl
@[simp] theorem setMap_disp (s : State) (m : List Cfg) : ((setMap s m)).disp = s.disp := rfl
@[simp] theorem setMap_time (s : State) (m : List Cfg) : ((setMap s m)).time = s.time := rfl
@[simp] theorem setMap_nfc (s : State) (m : List Cfg) : ((setMap s m)).nfc = s.nfc := rfl
@[simp] theorem setMap_ledger (s : State) (m : List Cfg) : ((setMap s m)).ledger = s.ledger := rfl
@[simp] theorem setMap_lanes (s : State) (m : List Cfg) : ((setMap s m)).lanes = s.lanes := rfl
@[simp] theorem setMap_aon (s : State) (m : List Cfg) : ((setMap s m)).aon = s.aon := rfl
@[simp] theorem setMap_net (s : State) (m : List Cfg) : ((setMap s m)).net = s.net := rfl
@[simp] theorem setMap_tables (s : State) (m : List Cfg) : ((setMap s m)).tables = s.tables := rfl
@[simp] theorem setMap_ports (s : State) (m : List Cfg) : ((setMap s m)).ports = s.ports := rfl
@[simp] theorem setMap_cipher (s : State) (m : List Cfg) : ((setMap s m)).cipher = s.cipher := rfl
@[simp] theorem setMap_bridge (s : State) (m : List Cfg) : ((setMap s m)).bridge = s.bridge := rfl
@[simp] theorem setMap_hlb (s : State) (m : List Cfg) : ((setMap s m)).hlb = s.hlb := rfl
@[simp] theorem setMap_wheels (s : State) (m : List Cfg) : ((setMap s m)).wheels = s.wheels := rfl
@[simp] theorem setMap_changes (s : State) (m : List Cfg) : ((setMap s m)).changes = s.changes := rfl
@[simp] theorem setMap_bgs (s : State) (m : List Cfg) : ((setMap s m)).bgs = s.bgs := rfl
@[simp] theorem setMap_mem (s : State) (m : List Cfg) : ((setMap s m)).mem = s.mem := rfl
@[simp] theorem setMap_freeze (s : State) (m : List Cfg) : ((setMap s m)).freeze = s.freeze := rfl
@[simp] theorem setMap_out (s : State) (m : List Cfg) : ((setMap s m)).out = s.out := rfl
@[simp] theorem setMap_fresh (s : State) (m : List Cfg) : ((setMap s m)).fresh = s.fresh := rfl
@[simp] theorem setMap_pending (s : State) (m : List Cfg) : ((setMap s m)).pending = s.pending := rfl
@[simp] theorem mdioOut_rf (s : State) (n : ℕ) (m : Mdio) : ((mdioOut s n m)).rf = s.rf := rfl
@[simp] theorem mdioOut_shadow (s : State) (n : ℕ) (m : Mdio) : ((mdioOut s n m)).shadow = s.shadow := rfl
@[simp] theorem mdioOut_sel (s : State) (n : ℕ) (m : Mdio) : ((mdioOut s n m)).sel = s.sel := rfl
@[simp] theorem mdioOut_power (s : State) (n : ℕ) (m : Mdio) : ((mdioOut s n m)).power = s.power := rfl
@[simp] theorem mdioOut_boot (s : State) (n : ℕ) (m : Mdio) : ((mdioOut s n m)).boot = s.boot := rfl
@[simp] theorem mdioOut_fuses (s : State) (n : ℕ) (m : Mdio) : ((mdioOut s n m)).fuses = s.fuses := rfl
@[simp] theorem mdioOut_sess (s : State) (n : ℕ) (m : Mdio) : ((mdioOut s n m)).sess = s.sess := rfl
@[simp] theorem mdioOut_deny (s : State) (n : ℕ) (m : Mdio) : ((mdioOut s n m)).deny = s.deny := rfl
@[simp] theorem mdioOut_disp (s : State) (n : ℕ) (m : Mdio) : ((mdioOut s n m)).disp = s.disp := rfl
@[simp] theorem mdioOut_time (s : State) (n : ℕ) (m : Mdio) : ((mdioOut s n m)).time = s.time := rfl
@[simp] theorem mdioOut_vault (s : State) (n : ℕ) (m : Mdio) : ((mdioOut s n m)).vault = s.vault := rfl
@[simp] theorem mdioOut_nfc (s : State) (n : ℕ) (m : Mdio) : ((mdioOut s n m)).nfc = s.nfc := rfl
@[simp] theorem mdioOut_ledger (s : State) (n : ℕ) (m : Mdio) : ((mdioOut s n m)).ledger = s.ledger := rfl
@[simp] theorem mdioOut_lanes (s : State) (n : ℕ) (m : Mdio) : ((mdioOut s n m)).lanes = s.lanes := rfl
@[simp] theorem mdioOut_aon (s : State) (n : ℕ) (m : Mdio) : ((mdioOut s n m)).aon = s.aon := rfl
@[simp] theorem mdioOut_net (s : State) (n : ℕ) (m : Mdio) : ((mdioOut s n m)).net = s.net := rfl
@[simp] theorem mdioOut_tables (s : State) (n : ℕ) (m : Mdio) : ((mdioOut s n m)).tables = s.tables := rfl
@[simp] theorem mdioOut_ports (s : State) (n : ℕ) (m : Mdio) : ((mdioOut s n m)).ports = s.ports := rfl
@[simp] theorem mdioOut_cipher (s : State) (n : ℕ) (m : Mdio) : ((mdioOut s n m)).cipher = s.cipher := rfl
@[simp] theorem mdioOut_bridge (s : State) (n : ℕ) (m : Mdio) : ((mdioOut s n m)).bridge = s.bridge := rfl
@[simp] theorem mdioOut_hlb (s : State) (n : ℕ) (m : Mdio) : ((mdioOut s n m)).hlb = s.hlb := rfl
@[simp] theorem mdioOut_wheels (s : State) (n : ℕ) (m : Mdio) : ((mdioOut s n m)).wheels = s.wheels := rfl
@[simp] theorem mdioOut_map (s : State) (n : ℕ) (m : Mdio) : ((mdioOut s n m)).map = s.map := rfl
@[simp] theorem mdioOut_changes (s : State) (n : ℕ) (m : Mdio) : ((mdioOut s n m)).changes = s.changes := rfl
@[simp] theorem mdioOut_bgs (s : State) (n : ℕ) (m : Mdio) : ((mdioOut s n m)).bgs = s.bgs := rfl
@[simp] theorem mdioOut_mem (s : State) (n : ℕ) (m : Mdio) : ((mdioOut s n m)).mem = s.mem := rfl
@[simp] theorem mdioOut_freeze (s : State) (n : ℕ) (m : Mdio) : ((mdioOut s n m)).freeze = s.freeze := rfl
@[simp] theorem mdioOut_fresh (s : State) (n : ℕ) (m : Mdio) : ((mdioOut s n m)).fresh = s.fresh := rfl
@[simp] theorem mdioOut_pending (s : State) (n : ℕ) (m : Mdio) : ((mdioOut s n m)).pending = s.pending := rfl
@[simp] theorem dmaGood_rf (s : State) : ((dmaGood s)).rf = s.rf := rfl
@[simp] theorem dmaGood_shadow (s : State) : ((dmaGood s)).shadow = s.shadow := rfl
@[simp] theorem dmaGood_sel (s : State) : ((dmaGood s)).sel = s.sel := rfl
@[simp] theorem dmaGood_power (s : State) : ((dmaGood s)).power = s.power := rfl
@[simp] theorem dmaGood_boot (s : State) : ((dmaGood s)).boot = s.boot := rfl
@[simp] theorem dmaGood_fuses (s : State) : ((dmaGood s)).fuses = s.fuses := rfl
@[simp] theorem dmaGood_sess (s : State) : ((dmaGood s)).sess = s.sess := rfl
@[simp] theorem dmaGood_deny (s : State) : ((dmaGood s)).deny = s.deny := rfl
@[simp] theorem dmaGood_disp (s : State) : ((dmaGood s)).disp = s.disp := rfl
@[simp] theorem dmaGood_time (s : State) : ((dmaGood s)).time = s.time := rfl
@[simp] theorem dmaGood_vault (s : State) : ((dmaGood s)).vault = s.vault := rfl
@[simp] theorem dmaGood_nfc (s : State) : ((dmaGood s)).nfc = s.nfc := rfl
@[simp] theorem dmaGood_ledger (s : State) : ((dmaGood s)).ledger = s.ledger := rfl
@[simp] theorem dmaGood_lanes (s : State) : ((dmaGood s)).lanes = s.lanes := rfl
@[simp] theorem dmaGood_aon (s : State) : ((dmaGood s)).aon = s.aon := rfl
@[simp] theorem dmaGood_net (s : State) : ((dmaGood s)).net = s.net := rfl
@[simp] theorem dmaGood_tables (s : State) : ((dmaGood s)).tables = s.tables := rfl
@[simp] theorem dmaGood_ports (s : State) : ((dmaGood s)).ports = s.ports := rfl
@[simp] theorem dmaGood_cipher (s : State) : ((dmaGood s)).cipher = s.cipher := rfl
@[simp] theorem dmaGood_hlb (s : State) : ((dmaGood s)).hlb = s.hlb := rfl
@[simp] theorem dmaGood_wheels (s : State) : ((dmaGood s)).wheels = s.wheels := rfl
@[simp] theorem dmaGood_map (s : State) : ((dmaGood s)).map = s.map := rfl
@[simp] theorem dmaGood_changes (s : State) : ((dmaGood s)).changes = s.changes := rfl
@[simp] theorem dmaGood_bgs (s : State) : ((dmaGood s)).bgs = s.bgs := rfl
@[simp] theorem dmaGood_mem (s : State) : ((dmaGood s)).mem = s.mem := rfl
@[simp] theorem dmaGood_freeze (s : State) : ((dmaGood s)).freeze = s.freeze := rfl
@[simp] theorem dmaGood_out (s : State) : ((dmaGood s)).out = s.out := rfl
@[simp] theorem dmaGood_fresh (s : State) : ((dmaGood s)).fresh = s.fresh := rfl
@[simp] theorem dmaGood_pending (s : State) : ((dmaGood s)).pending = s.pending := rfl
@[simp] theorem raiseN_shadow (s : State) (n : ℕ) : ((raiseN s n)).shadow = s.shadow := by unfold raiseN; repeat' (first | rfl | (simp; done) | split | (dsimp only; split))
@[simp] theorem raiseN_sel (s : State) (n : ℕ) : ((raiseN s n)).sel = s.sel := by unfold raiseN; repeat' (first | rfl | (simp; done) | split | (dsimp only; split))
@[simp] theorem raiseN_power (s : State) (n : ℕ) : ((raiseN s n)).power = s.power := by unfold raiseN; repeat' (first | rfl | (simp; done) | split | (dsimp only; split))
@[simp] theorem raiseN_boot (s : State) (n : ℕ) : ((raiseN s n)).boot = s.boot := by unfold raiseN; repeat' (first | rfl | (simp; done) | split | (dsimp only; split))
@[simp] theorem raiseN_fuses (s : State) (n : ℕ) : ((raiseN s n)).fuses = s.fuses := by unfold raiseN; repeat' (first | rfl | (simp; done) | split | (dsimp only; split))
@[simp] theorem raiseN_sess (s : State) (n : ℕ) : ((raiseN s n)).sess = s.sess := by unfold raiseN; repeat' (first | rfl | (simp; done) | split | (dsimp only; split))
@[simp] theorem raiseN_deny (s : State) (n : ℕ) : ((raiseN s n)).deny = s.deny := by unfold raiseN; repeat' (first | rfl | (simp; done) | split | (dsimp only; split))
@[simp] theorem raiseN_disp (s : State) (n : ℕ) : ((raiseN s n)).disp = s.disp := by unfold raiseN; repeat' (first | rfl | (simp; done) | split | (dsimp only; split))
@[simp] theorem raiseN_time (s : State) (n : ℕ) : ((raiseN s n)).time = s.time := by unfold raiseN; repeat' (first | rfl | (simp; done) | split | (dsimp only; split))
@[simp] theorem raiseN_vault (s : State) (n : ℕ) : ((raiseN s n)).vault = s.vault := by unfold raiseN; repeat' (first | rfl | (simp; done) | split | (dsimp only; split))
@[simp] theorem raiseN_nfc (s : State) (n : ℕ) : ((raiseN s n)).nfc = s.nfc := by unfold raiseN; repeat' (first | rfl | (simp; done) | split | (dsimp only; split))
@[simp] theorem raiseN_ledger (s : State) (n : ℕ) : ((raiseN s n)).ledger = s.ledger := by unfold raiseN; repeat' (first | rfl | (simp; done) | split | (dsimp only; split))
@[simp] theorem raiseN_lanes (s : State) (n : ℕ) : ((raiseN s n)).lanes = s.lanes := by unfold raiseN; repeat' (first | rfl | (simp; done) | split | (dsimp only; split))
@[simp] theorem raiseN_aon (s : State) (n : ℕ) : ((raiseN s n)).aon = s.aon := by unfold raiseN; repeat' (first | rfl | (simp; done) | split | (dsimp only; split))
@[simp] theorem raiseN_net (s : State) (n : ℕ) : ((raiseN s n)).net = s.net := by unfold raiseN; repeat' (first | rfl | (simp; done) | split | (dsimp only; split))
@[simp] theorem raiseN_tables (s : State) (n : ℕ) : ((raiseN s n)).tables = s.tables := by unfold raiseN; repeat' (first | rfl | (simp; done) | split | (dsimp only; split))
@[simp] theorem raiseN_ports (s : State) (n : ℕ) : ((raiseN s n)).ports = s.ports := by unfold raiseN; repeat' (first | rfl | (simp; done) | split | (dsimp only; split))
@[simp] theorem raiseN_cipher (s : State) (n : ℕ) : ((raiseN s n)).cipher = s.cipher := by unfold raiseN; repeat' (first | rfl | (simp; done) | split | (dsimp only; split))
@[simp] theorem raiseN_bridge (s : State) (n : ℕ) : ((raiseN s n)).bridge = s.bridge := by unfold raiseN; repeat' (first | rfl | (simp; done) | split | (dsimp only; split))
@[simp] theorem raiseN_hlb (s : State) (n : ℕ) : ((raiseN s n)).hlb = s.hlb := by unfold raiseN; repeat' (first | rfl | (simp; done) | split | (dsimp only; split))
@[simp] theorem raiseN_wheels (s : State) (n : ℕ) : ((raiseN s n)).wheels = s.wheels := by unfold raiseN; repeat' (first | rfl | (simp; done) | split | (dsimp only; split))
@[simp] theorem raiseN_map (s : State) (n : ℕ) : ((raiseN s n)).map = s.map := by unfold raiseN; repeat' (first | rfl | (simp; done) | split | (dsimp only; split))
@[simp] theorem raiseN_changes (s : State) (n : ℕ) : ((raiseN s n)).changes = s.changes := by unfold raiseN; repeat' (first | rfl | (simp; done) | split | (dsimp only; split))
@[simp] theorem raiseN_mem (s : State) (n : ℕ) : ((raiseN s n)).mem = s.mem := by unfold raiseN; repeat' (first | rfl | (simp; done) | split | (dsimp only; split))
@[simp] theorem raiseN_out (s : State) (n : ℕ) : ((raiseN s n)).out = s.out := by unfold raiseN; repeat' (first | rfl | (simp; done) | split | (dsimp only; split))
@[simp] theorem raiseN_fresh (s : State) (n : ℕ) : ((raiseN s n)).fresh = s.fresh := by unfold raiseN; repeat' (first | rfl | (simp; done) | split | (dsimp only; split))
@[simp] theorem raiseN_pending (s : State) (n : ℕ) : ((raiseN s n)).pending = s.pending := by unfold raiseN; repeat' (first | rfl | (simp; done) | split | (dsimp only; split))
@[simp] theorem raise_shadow (s : State) (e : Ev) : ((raise s e)).shadow = s.shadow := by unfold raise; repeat' (first | rfl | (simp; done) | split | (dsimp only; split))
@[simp] theorem raise_sel (s : State) (e : Ev) : ((raise s e)).sel = s.sel := by unfold raise; repeat' (first | rfl | (simp; done) | split | (dsimp only; split))
@[simp] theorem raise_power (s : State) (e : Ev) : ((raise s e)).power = s.power := by unfold raise; repeat' (first | rfl | (simp; done) | split | (dsimp only; split))
@[simp] theorem raise_boot (s : State) (e : Ev) : ((raise s e)).boot = s.boot := by unfold raise; repeat' (first | rfl | (simp; done) | split | (dsimp only; split))
@[simp] theorem raise_fuses (s : State) (e : Ev) : ((raise s e)).fuses = s.fuses := by unfold raise; repeat' (first | rfl | (simp; done) | split | (dsimp only; split))
@[simp] theorem raise_sess (s : State) (e : Ev) : ((raise s e)).sess = s.sess := by unfold raise; repeat' (first | rfl | (simp; done) | split | (dsimp only; split))
@[simp] theorem raise_deny (s : State) (e : Ev) : ((raise s e)).deny = s.deny := by unfold raise; repeat' (first | rfl | (simp; done) | split | (dsimp only; split))
@[simp] theorem raise_disp (s : State) (e : Ev) : ((raise s e)).disp = s.disp := by unfold raise; repeat' (first | rfl | (simp; done) | split | (dsimp only; split))
@[simp] theorem raise_time (s : State) (e : Ev) : ((raise s e)).time = s.time := by unfold raise; repeat' (first | rfl | (simp; done) | split | (dsimp only; split))
@[simp] theorem raise_vault (s : State) (e : Ev) : ((raise s e)).vault = s.vault := by unfold raise; repeat' (first | rfl | (simp; done) | split | (dsimp only; split))
@[simp] theorem raise_nfc (s : State) (e : Ev) : ((raise s e)).nfc = s.nfc := by unfold raise; repeat' (first | rfl | (simp; done) | split | (dsimp only; split))
@[simp] theorem raise_ledger (s : State) (e : Ev) : ((raise s e)).ledger = s.ledger := by unfold raise; repeat' (first | rfl | (simp; done) | split | (dsimp only; split))
@[simp] theorem raise_lanes (s : State) (e : Ev) : ((raise s e)).lanes = s.lanes := by unfold raise; repeat' (first | rfl | (simp; done) | split | (dsimp only; split))
@[simp] theorem raise_aon (s : State) (e : Ev) : ((raise s e)).aon = s.aon := by unfold raise; repeat' (first | rfl | (simp; done) | split | (dsimp only; split))
@[simp] theorem raise_net (s : State) (e : Ev) : ((raise s e)).net = s.net := by unfold raise; repeat' (first | rfl | (simp; done) | split | (dsimp only; split))
@[simp] theorem raise_tables (s : State) (e : Ev) : ((raise s e)).tables = s.tables := by unfold raise; repeat' (first | rfl | (simp; done) | split | (dsimp only; split))
@[simp] theorem raise_ports (s : State) (e : Ev) : ((raise s e)).ports = s.ports := by unfold raise; repeat' (first | rfl | (simp; done) | split | (dsimp only; split))
@[simp] theorem raise_cipher (s : State) (e : Ev) : ((raise s e)).cipher = s.cipher := by unfold raise; repeat' (first | rfl | (simp; done) | split | (dsimp only; split))
@[simp] theorem raise_bridge (s : State) (e : Ev) : ((raise s e)).bridge = s.bridge := by unfold raise; repeat' (first | rfl | (simp; done) | split | (dsimp only; split))
@[simp] theorem raise_hlb (s : State) (e : Ev) : ((raise s e)).hlb = s.hlb := by unfold raise; repeat' (first | rfl | (simp; done) | split | (dsimp only; split))
@[simp] theorem raise_wheels (s : State) (e : Ev) : ((raise s e)).wheels = s.wheels := by unfold raise; repeat' (first | rfl | (simp; done) | split | (dsimp only; split))
@[simp] theorem raise_map (s : State) (e : Ev) : ((raise s e)).map = s.map := by unfold raise; repeat' (first | rfl | (simp; done) | split | (dsimp only; split))
@[simp] theorem raise_changes (s : State) (e : Ev) : ((raise s e)).changes = s.changes := by unfold raise; repeat' (first | rfl | (simp; done) | split | (dsimp only; split))
@[simp] theorem raise_mem (s : State) (e : Ev) : ((raise s e)).mem = s.mem := by unfold raise; repeat' (first | rfl | (simp; done) | split | (dsimp only; split))
@[simp] theorem raise_out (s : State) (e : Ev) : ((raise s e)).out = s.out := by unfold raise; repeat' (first | rfl | (simp; done) | split | (dsimp only; split))
@[simp] theorem raise_fresh (s : State) (e : Ev) : ((raise s e)).fresh = s.fresh := by unfold raise; repeat' (first | rfl | (simp; done) | split | (dsimp only; split))
@[simp] theorem raise_pending (s : State) (e : Ev) : ((raise s e)).pending = s.pending := by unfold raise; repeat' (first | rfl | (simp; done) | split | (dsimp only; split))
@[simp] theorem monoFinal_shadow (s : State) (code : ℕ) : ((monoFinal s code)).shadow = s.shadow := by unfold monoFinal; repeat' (first | rfl | (simp; done) | split | (dsimp only; split))
@[simp] theorem monoFinal_sel (s : State) (code : ℕ) : ((monoFinal s code)).sel = s.sel := by unfold monoFinal; repeat' (first | rfl | (simp; done) | split | (dsimp only; split))
@[simp] theorem monoFinal_power (s : State) (code : ℕ) : ((monoFinal s code)).power = s.power := by unfold monoFinal; repeat' (first | rfl | (simp; done) | split | (dsimp only; split))
@[simp] theorem monoFinal_boot (s : State) (code : ℕ) : ((monoFinal s code)).boot = s.boot := by unfold monoFinal; repeat' (first | rfl | (simp; done) | split | (dsimp only; split))
@[simp] theorem monoFinal_fuses (s : State) (code : ℕ) : ((monoFinal s code)).fuses = s.fuses := by unfold monoFinal; repeat' (first | rfl | (simp; done) | split | (dsimp only; split))
@[simp] theorem monoFinal_sess (s : State) (code : ℕ) : ((monoFinal s code)).sess = s.sess := by unfold monoFinal; repeat' (first | rfl | (simp; done) | split | (dsimp only; split))
@[simp] theorem monoFinal_deny (s : State) (code : ℕ) : ((monoFinal s code)).deny = s.deny := by unfold monoFinal; repeat' (first | rfl | (simp; done) | split | (dsimp only; split))
@[simp] theorem monoFinal_disp (s : State) (code : ℕ) : ((monoFinal s code)).disp = s.disp := by unfold monoFinal; repeat' (first | rfl | (simp; done) | split | (dsimp only; split))
@[simp] theorem monoFinal_time (s : State) (code : ℕ) : ((monoFinal s code)).time = s.time := by unfold monoFinal; repeat' (first | rfl | (simp; done) | split | (dsimp only; split))
@[simp] theorem monoFinal_vault (s : State) (code : ℕ) : ((monoFinal s code)).vault = s.vault := by unfold monoFinal; repeat' (first | rfl | (simp; done) | split | (dsimp only; split))
@[simp] theorem monoFinal_nfc (s : State) (code : ℕ) : ((monoFinal s code)).nfc = s.nfc := by unfold monoFinal; repeat' (first | rfl | (simp; done) | split | (dsimp only; split))
@[simp] theorem monoFinal_ledger (s : State) (code : ℕ) : ((monoFinal s code)).ledger = s.ledger := by unfold monoFinal; repeat' (first | rfl | (simp; done) | split | (dsimp only; split))
@[simp] theorem monoFinal_lanes (s : State) (code : ℕ) : ((monoFinal s code)).lanes = s.lanes := by unfold monoFinal; repeat' (first | rfl | (simp; done) | split | (dsimp only; split))
@[simp] theorem monoFinal_aon (s : State) (code : ℕ) : ((monoFinal s code)).aon = s.aon := by unfold monoFinal; repeat' (first | rfl | (simp; done) | split | (dsimp only; split))
@[simp] theorem monoFinal_net (s : State) (code : ℕ) : ((monoFinal s code)).net = s.net := by unfold monoFinal; repeat' (first | rfl | (simp; done) | split | (dsimp only; split))
@[simp] theorem monoFinal_tables (s : State) (code : ℕ) : ((monoFinal s code)).tables = s.tables := by unfold monoFinal; repeat' (first | rfl | (simp; done) | split | (dsimp only; split))
@[simp] theorem monoFinal_ports (s : State) (code : ℕ) : ((monoFinal s code)).ports = s.ports := by unfold monoFinal; repeat' (first | rfl | (simp; done) | split | (dsimp only; split))
@[simp] theorem monoFinal_cipher (s : State) (code : ℕ) : ((monoFinal s code)).cipher = s.cipher := by unfold monoFinal; repeat' (first | rfl | (simp; done) | split | (dsimp only; split))
@[simp] theorem monoFinal_bridge (s : State) (code : ℕ) : ((monoFinal s code)).bridge = s.bridge := by unfold monoFinal; repeat' (first | rfl | (simp; done) | split | (dsimp only; split))
@[simp] theorem monoFinal_hlb (s : State) (code : ℕ) : ((monoFinal s code)).hlb = s.hlb := by unfold monoFinal; repeat' (first | rfl | (simp; done) | split | (dsimp only; split))
@[simp] theorem monoFinal_wheels (s : State) (code : ℕ) : ((monoFinal s code)).wheels = s.wheels := by unfold monoFinal; repeat' (first | rfl | (simp; done) | split | (dsimp only; split))
@[simp] theorem monoFinal_map (s : State) (code : ℕ) : ((monoFinal s code)).map = s.map := by unfold monoFinal; repeat' (first | rfl | (simp; done) | split | (dsimp only; split))
@[simp] theorem monoFinal_changes (s : State) (code : ℕ) : ((monoFinal s code)).changes = s.changes := by unfold monoFinal; repeat' (first | rfl | (simp; done) | split | (dsimp only; split))
@[simp] theorem monoFinal_mem (s : State) (code : ℕ) : ((monoFinal s code)).mem = s.mem := by unfold monoFinal; repeat' (first | rfl | (simp; done) | split | (dsimp only; split))
@[simp] theorem monoFinal_out (s : State) (code : ℕ) : ((monoFinal s code)).out = s.out := by unfold monoFinal; repeat' (first | rfl | (simp; done) | split | (dsimp only; split))
@[simp] theorem monoFinal_fresh (s : State) (code : ℕ) : ((monoFinal s code)).fresh = s.fresh := by unfold monoFinal; repeat' (first | rfl | (simp; done) | split | (dsimp only; split))
@[simp] theorem monoFinal_pending (s : State) (code : ℕ) : ((monoFinal s code)).pending = s.pending := by unfold monoFinal; repeat' (first | rfl | (simp; done) | split | (dsimp only; split))
@[simp] theorem refuse_shadow (s : State) (c : Cls) (r : Reason) (addr : ℕ) (write : Bool) : ((refuse s c r addr write)).shadow = s.shadow := by unfold refuse; repeat' (first | rfl | (simp; done) | split | (dsimp only; split))
@[simp] theorem refuse_sel (s : State) (c : Cls) (r : Reason) (addr : ℕ) (write : Bool) : ((refuse s c r addr write)).sel = s.sel := by unfold refuse; repeat' (first | rfl | (simp; done) | split | (dsimp only; split))
@[simp] theorem refuse_power (s : State) (c : Cls) (r : Reason) (addr : ℕ) (write : Bool) : ((refuse s c r addr write)).power = s.power := by unfold refuse; repeat' (first | rfl | (simp; done) | split | (dsimp only; split))
@[simp] theorem refuse_boot (s : State) (c : Cls) (r : Reason) (addr : ℕ) (write : Bool) : ((refuse s c r addr write)).boot = s.boot := by unfold refuse; repeat' (first | rfl | (simp; done) | split | (dsimp only; split))
@[simp] theorem refuse_fuses (s : State) (c : Cls) (r : Reason) (addr : ℕ) (write : Bool) : ((refuse s c r addr write)).fuses = s.fuses := by unfold refuse; repeat' (first | rfl | (simp; done) | split | (dsimp only; split))
@[simp] theorem refuse_sess (s : State) (c : Cls) (r : Reason) (addr : ℕ) (write : Bool) : ((refuse s c r addr write)).sess = s.sess := by unfold refuse; repeat' (first | rfl | (simp; done) | split | (dsimp only; split))
@[simp] theorem refuse_disp (s : State) (c : Cls) (r : Reason) (addr : ℕ) (write : Bool) : ((refuse s c r addr write)).disp = s.disp := by unfold refuse; repeat' (first | rfl | (simp; done) | split | (dsimp only; split))
@[simp] theorem refuse_time (s : State) (c : Cls) (r : Reason) (addr : ℕ) (write : Bool) : ((refuse s c r addr write)).time = s.time := by unfold refuse; repeat' (first | rfl | (simp; done) | split | (dsimp only; split))
@[simp] theorem refuse_vault (s : State) (c : Cls) (r : Reason) (addr : ℕ) (write : Bool) : ((refuse s c r addr write)).vault = s.vault := by unfold refuse; repeat' (first | rfl | (simp; done) | split | (dsimp only; split))
@[simp] theorem refuse_nfc (s : State) (c : Cls) (r : Reason) (addr : ℕ) (write : Bool) : ((refuse s c r addr write)).nfc = s.nfc := by unfold refuse; repeat' (first | rfl | (simp; done) | split | (dsimp only; split))
@[simp] theorem refuse_ledger (s : State) (c : Cls) (r : Reason) (addr : ℕ) (write : Bool) : ((refuse s c r addr write)).ledger = s.ledger := by unfold refuse; repeat' (first | rfl | (simp; done) | split | (dsimp only; split))
@[simp] theorem refuse_lanes (s : State) (c : Cls) (r : Reason) (addr : ℕ) (write : Bool) : ((refuse s c r addr write)).lanes = s.lanes := by unfold refuse; repeat' (first | rfl | (simp; done) | split | (dsimp only; split))
@[simp] theorem refuse_aon (s : State) (c : Cls) (r : Reason) (addr : ℕ) (write : Bool) : ((refuse s c r addr write)).aon = s.aon := by unfold refuse; repeat' (first | rfl | (simp; done) | split | (dsimp only; split))
@[simp] theorem refuse_net (s : State) (c : Cls) (r : Reason) (addr : ℕ) (write : Bool) : ((refuse s c r addr write)).net = s.net := by unfold refuse; repeat' (first | rfl | (simp; done) | split | (dsimp only; split))
@[simp] theorem refuse_tables (s : State) (c : Cls) (r : Reason) (addr : ℕ) (write : Bool) : ((refuse s c r addr write)).tables = s.tables := by unfold refuse; repeat' (first | rfl | (simp; done) | split | (dsimp only; split))
@[simp] theorem refuse_ports (s : State) (c : Cls) (r : Reason) (addr : ℕ) (write : Bool) : ((refuse s c r addr write)).ports = s.ports := by unfold refuse; repeat' (first | rfl | (simp; done) | split | (dsimp only; split))
@[simp] theorem refuse_cipher (s : State) (c : Cls) (r : Reason) (addr : ℕ) (write : Bool) : ((refuse s c r addr write)).cipher = s.cipher := by unfold refuse; repeat' (first | rfl | (simp; done) | split | (dsimp only; split))
@[simp] theorem refuse_bridge (s : State) (c : Cls) (r : Reason) (addr : ℕ) (write : Bool) : ((refuse s c r addr write)).bridge = s.bridge := by unfold refuse; repeat' (first | rfl | (simp; done) | split | (dsimp only; split))
@[simp] theorem refuse_hlb (s : State) (c : Cls) (r : Reason) (addr : ℕ) (write : Bool) : ((refuse s c r addr write)).hlb = s.hlb := by unfold refuse; repeat' (first | rfl | (simp; done) | split | (dsimp only; split))
@[simp] theorem refuse_wheels (s : State) (c : Cls) (r : Reason) (addr : ℕ) (write : Bool) : ((refuse s c r addr write)).wheels = s.wheels := by unfold refuse; repeat' (first | rfl | (simp; done) | split | (dsimp only; split))
@[simp] theorem refuse_map (s : State) (c : Cls) (r : Reason) (addr : ℕ) (write : Bool) : ((refuse s c r addr write)).map = s.map := by unfold refuse; repeat' (first | rfl | (simp; done) | split | (dsimp only; split))
@[simp] theorem refuse_changes (s : State) (c : Cls) (r : Reason) (addr : ℕ) (write : Bool) : ((refuse s c r addr write)).changes = s.changes := by unfold refuse; repeat' (first | rfl | (simp; done) | split | (dsimp only; split))
@[simp] theorem refuse_mem (s : State) (c : Cls) (r : Reason) (addr : ℕ) (write : Bool) : ((refuse s c r addr write)).mem = s.mem := by unfold refuse; repeat' (first | rfl | (simp; done) | split | (dsimp only; split))
@[simp] theorem refuse_out (s : State) (c : Cls) (r : Reason) (addr : ℕ) (write : Bool) : ((refuse s c r addr write)).out = s.out := by unfold refuse; repeat' (first | rfl | (simp; done) | split | (dsimp only; split))
@[simp] theorem refuse_fresh (s : State) (c : Cls) (r : Reason) (addr : ℕ) (write : Bool) : ((refuse s c r addr write)).fresh = s.fresh := by unfold refuse; repeat' (first | rfl | (simp; done) | split | (dsimp only; split))
@[simp] theorem refuse_pending (s : State) (c : Cls) (r : Reason) (addr : ℕ) (write : Bool) : ((refuse s c r addr write)).pending = s.pending := by unfold refuse; repeat' (first | rfl | (simp; done) | split | (dsimp only; split))
@[simp] theorem halve_rf (s : State) : ((halve s)).rf = s.rf := rfl
@[simp] theorem halve_shadow (s : State) : ((halve s)).shadow = s.shadow := rfl
@[simp] theorem halve_sel (s : State) : ((halve s)).sel = s.sel := rfl
@[simp] theorem halve_boot (s : State) : ((halve s)).boot = s.boot := rfl
@[simp] theorem halve_fuses (s : State) : ((halve s)).fuses = s.fuses := rfl
@[simp] theorem halve_sess (s : State) : ((halve s)).sess = s.sess := rfl
@[simp] theorem halve_deny (s : State) : ((halve s)).deny = s.deny := rfl
@[simp] theorem halve_disp (s : State) : ((halve s)).disp = s.disp := rfl
@[simp] theorem halve_time (s : State) : ((halve s)).time = s.time := rfl
@[simp] theorem halve_vault (s : State) : ((halve s)).vault = s.vault := rfl
@[simp] theorem halve_nfc (s : State) : ((halve s)).nfc = s.nfc := rfl
@[simp] theorem halve_ledger (s : State) : ((halve s)).ledger = s.ledger := rfl
@[simp] theorem halve_lanes (s : State) : ((halve s)).lanes = s.lanes := rfl
@[simp] theorem halve_aon (s : State) : ((halve s)).aon = s.aon := rfl
@[simp] theorem halve_net (s : State) : ((halve s)).net = s.net := rfl
@[simp] theorem halve_tables (s : State) : ((halve s)).tables = s.tables := rfl
@[simp] theorem halve_ports (s : State) : ((halve s)).ports = s.ports := rfl
@[simp] theorem halve_cipher (s : State) : ((halve s)).cipher = s.cipher := rfl
@[simp] theorem halve_bridge (s : State) : ((halve s)).bridge = s.bridge := rfl
@[simp] theorem halve_hlb (s : State) : ((halve s)).hlb = s.hlb := rfl
@[simp] theorem halve_wheels (s : State) : ((halve s)).wheels = s.wheels := rfl
@[simp] theorem halve_map (s : State) : ((halve s)).map = s.map := rfl
@[simp] theorem halve_changes (s : State) : ((halve s)).changes = s.changes := rfl
@[simp] theorem halve_bgs (s : State) : ((halve s)).bgs = s.bgs := rfl
@[simp] theorem halve_mem (s : State) : ((halve s)).mem = s.mem := rfl
@[simp] theorem halve_freeze (s : State) : ((halve s)).freeze = s.freeze := rfl
@[simp] theorem halve_out (s : State) : ((halve s)).out = s.out := rfl
@[simp] theorem halve_fresh (s : State) : ((halve s)).fresh = s.fresh := rfl
@[simp] theorem halve_pending (s : State) : ((halve s)).pending = s.pending := rfl
@[simp] theorem sagHit_shadow (s : State) : ((sagHit s)).shadow = s.shadow := rfl
@[simp] theorem sagHit_sel (s : State) : ((sagHit s)).sel = s.sel := rfl
@[simp] theorem sagHit_boot (s : State) : ((sagHit s)).boot = s.boot := rfl
@[simp] theorem sagHit_fuses (s : State) : ((sagHit s)).fuses = s.fuses := rfl
@[simp] theorem sagHit_sess (s : State) : ((sagHit s)).sess = s.sess := rfl
@[simp] theorem sagHit_deny (s : State) : ((sagHit s)).deny = s.deny := rfl
@[simp] theorem sagHit_disp (s : State) : ((sagHit s)).disp = s.disp := rfl
@[simp] theorem sagHit_time (s : State) : ((sagHit s)).time = s.time := rfl
@[simp] theorem sagHit_vault (s : State) : ((sagHit s)).vault = s.vault := rfl
@[simp] theorem sagHit_nfc (s : State) : ((sagHit s)).nfc = s.nfc := rfl
@[simp] theorem sagHit_ledger (s : State) : ((sagHit s)).ledger = s.ledger := rfl
@[simp] theorem sagHit_lanes (s : State) : ((sagHit s)).lanes = s.lanes := rfl
@[simp] theorem sagHit_aon (s : State) : ((sagHit s)).aon = s.aon := rfl
@[simp] theorem sagHit_net (s : State) : ((sagHit s)).net = s.net := rfl
@[simp] theorem sagHit_tables (s : State) : ((sagHit s)).tables = s.tables := rfl
@[simp] theorem sagHit_ports (s : State) : ((sagHit s)).ports = s.ports := rfl
@[simp] theorem sagHit_cipher (s : State) : ((sagHit s)).cipher = s.cipher := rfl
@[simp] theorem sagHit_bridge (s : State) : ((sagHit s)).bridge = s.bridge := rfl
@[simp] theorem sagHit_hlb (s : State) : ((sagHit s)).hlb = s.hlb := rfl
@[simp] theorem sagHit_wheels (s : State) : ((sagHit s)).wheels = s.wheels := rfl
@[simp] theorem sagHit_map (s : State) : ((sagHit s)).map = s.map := rfl
@[simp] theorem sagHit_changes (s : State) : ((sagHit s)).changes = s.changes := rfl
@[simp] theorem sagHit_bgs (s : State) : ((sagHit s)).bgs = s.bgs := rfl
@[simp] theorem sagHit_mem (s : State) : ((sagHit s)).mem = s.mem := rfl
@[simp] theorem sagHit_freeze (s : State) : ((sagHit s)).freeze = s.freeze := rfl
@[simp] theorem sagHit_out (s : State) : ((sagHit s)).out = s.out := rfl
@[simp] theorem sagHit_fresh (s : State) : ((sagHit s)).fresh = s.fresh := rfl
@[simp] theorem sagHit_pending (s : State) : ((sagHit s)).pending = s.pending := rfl
@[simp] theorem sagAfter_shadow (s : State) : ((sagAfter s)).shadow = s.shadow := by unfold sagAfter; repeat' (first | rfl | (simp; done) | split | (dsimp only; split))
@[simp] theorem sagAfter_sel (s : State) : ((sagAfter s)).sel = s.sel := by unfold sagAfter; repeat' (first | rfl | (simp; done) | split | (dsimp only; split))
@[simp] theorem sagAfter_boot (s : State) : ((sagAfter s)).boot = s.boot := by unfold sagAfter; repeat' (first | rfl | (simp; done) | split | (dsimp only; split))
@[simp] theorem sagAfter_fuses (s : State) : ((sagAfter s)).fuses = s.fuses := by unfold sagAfter; repeat' (first | rfl | (simp; done) | split | (dsimp only; split))
@[simp] theorem sagAfter_sess (s : State) : ((sagAfter s)).sess = s.sess := by unfold sagAfter; repeat' (first | rfl | (simp; done) | split | (dsimp only; split))
@[simp] theorem sagAfter_deny (s : State) : ((sagAfter s)).deny = s.deny := by unfold sagAfter; repeat' (first | rfl | (simp; done) | split | (dsimp only; split))
@[simp] theorem sagAfter_disp (s : State) : ((sagAfter s)).disp = s.disp := by unfold sagAfter; repeat' (first | rfl | (simp; done) | split | (dsimp only; split))
@[simp] theorem sagAfter_time (s : State) : ((sagAfter s)).time = s.time := by unfold sagAfter; repeat' (first | rfl | (simp; done) | split | (dsimp only; split))
@[simp] theorem sagAfter_vault (s : State) : ((sagAfter s)).vault = s.vault := by unfold sagAfter; repeat' (first | rfl | (simp; done) | split | (dsimp only; split))
@[simp] theorem sagAfter_nfc (s : State) : ((sagAfter s)).nfc = s.nfc := by unfold sagAfter; repeat' (first | rfl | (simp; done) | split | (dsimp only; split))
@[simp] theorem sagAfter_ledger (s : State) : ((sagAfter s)).ledger = s.ledger := by unfold sagAfter; repeat' (first | rfl | (simp; done) | split | (dsimp only; split))
@[simp] theorem sagAfter_lanes (s : State) : ((sagAfter s)).lanes = s.lanes := by unfold sagAfter; repeat' (first | rfl | (simp; done) | split | (dsimp only; split))
@[simp] theorem sagAfter_aon (s : State) : ((sagAfter s)).aon = s.aon := by unfold sagAfter; repeat' (first | rfl | (simp; done) | split | (dsimp only; split))
@[simp] theorem sagAfter_net (s : State) : ((sagAfter s)).net = s.net := by unfold sagAfter; repeat' (first | rfl | (simp; done) | split | (dsimp only; split))
@[simp] theorem sagAfter_tables (s : State) : ((sagAfter s)).tables = s.tables := by unfold sagAfter; repeat' (first | rfl | (simp; done) | split | (dsimp only; split))
@[simp] theorem sagAfter_ports (s : State) : ((sagAfter s)).ports = s.ports := by unfold sagAfter; repeat' (first | rfl | (simp; done) | split | (dsimp only; split))
@[simp] theorem sagAfter_cipher (s : State) : ((sagAfter s)).cipher = s.cipher := by unfold sagAfter; repeat' (first | rfl | (simp; done) | split | (dsimp only; split))
@[simp] theorem sagAfter_bridge (s : State) : ((sagAfter s)).bridge = s.bridge := by unfold sagAfter; repeat' (first | rfl | (simp; done) | split | (dsimp only; split))
@[simp] theorem sagAfter_hlb (s : State) : ((sagAfter s)).hlb = s.hlb := by unfold sagAfter; repeat' (first | rfl | (simp; done) | split | (dsimp only; split))
@[simp] theorem sagAfter_wheels (s : State) : ((sagAfter s)).wheels = s.wheels := by unfold sagAfter; repeat' (first | rfl | (simp; done) | split | (dsimp only; split))
@[simp] theorem sagAfter_map (s : State) : ((sagAfter s)).map = s.map := by unfold sagAfter; repeat' (first | rfl | (simp; done) | split | (dsimp only; split))
@[simp] theorem sagAfter_changes (s : State) : ((sagAfter s)).changes = s.changes := by unfold sagAfter; repeat' (first | rfl | (simp; done) | split | (dsimp only; split))
@[simp] theorem sagAfter_bgs (s : State) : ((sagAfter s)).bgs = s.bgs := by unfold sagAfter; repeat' (first | rfl | (simp; done) | split | (dsimp only; split))
@[simp] theorem sagAfter_mem (s : State) : ((sagAfter s)).mem = s.mem := by unfold sagAfter; repeat' (first | rfl | (simp; done) | split | (dsimp only; split))
@[simp] theorem sagAfter_freeze (s : State) : ((sagAfter s)).freeze = s.freeze := by unfold sagAfter; repeat' (first | rfl | (simp; done) | split | (dsimp only; split))
@[simp] theorem sagAfter_out (s : State) : ((sagAfter s)).out = s.out := by unfold sagAfter; repeat' (first | rfl | (simp; done) | split | (dsimp only; split))
@[simp] theorem sagAfter_fresh (s : State) : ((sagAfter s)).fresh = s.fresh := by unfold sagAfter; repeat' (first | rfl | (simp; done) | split | (dsimp only; split))
@[simp] theorem sagAfter_pending (s : State) : ((sagAfter s)).pending = s.pending := by unfold sagAfter; repeat' (first | rfl | (simp; done) | split | (dsimp only; split))
@[simp] theorem laneToActive_rf (s : State) (n : ℕ) : ((laneToActive s n)).rf = s.rf := by unfold laneToActive; repeat' (first | rfl | (simp; done) | split | (dsimp only; split))
@[simp] theorem laneToActive_shadow (s : State) (n : ℕ) : ((laneToActive s n)).shadow = s.shadow := by unfold laneToActive; repeat' (first | rfl | (simp; done) | split | (dsimp only; split))
@[simp] theorem laneToActive_sel (s : State) (n : ℕ) : ((laneToActive s n)).sel = s.sel := by unfold laneToActive; repeat' (first | rfl | (simp; done) | split | (dsimp only; split))
@[simp] theorem laneToActive_power (s : State) (n : ℕ) : ((laneToActive s n)).power = s.power := by unfold laneToActive; repeat' (first | rfl | (simp; done) | split | (dsimp only; split))
@[simp] theorem laneToActive_boot (s : State) (n : ℕ) : ((laneToActive s n)).boot = s.boot := by unfold laneToActive; repeat' (first | rfl | (simp; done) | split | (dsimp only; split))
@[simp] theorem laneToActive_fuses (s : State) (n : ℕ) : ((laneToActive s n)).fuses = s.fuses := by unfold laneToActive; repeat' (first | rfl | (simp; done) | split | (dsimp only; split))
@[simp] theorem laneToActive_sess (s : State) (n : ℕ) : ((laneToActive s n)).sess = s.sess := by unfold laneToActive; repeat' (first | rfl | (simp; done) | split | (dsimp only; split))
@[simp] theorem laneToActive_deny (s : State) (n : ℕ) : ((laneToActive s n)).deny = s.deny := by unfold laneToActive; repeat' (first | rfl | (simp; done) | split | (dsimp only; split))
@[simp] theorem laneToActive_disp (s : State) (n : ℕ) : ((laneToActive s n)).disp = s.disp := by unfold laneToActive; repeat' (first | rfl | (simp; done) | split | (dsimp only; split))
@[simp] theorem laneToActive_time (s : State) (n : ℕ) : ((laneToActive s n)).time = s.time := by unfold laneToActive; repeat' (first | rfl | (simp; done) | split | (dsimp only; split))
@[simp] theorem laneToActive_vault (s : State) (n : ℕ) : ((laneToActive s n)).vault = s.vault := by unfold laneToActive; repeat' (first | rfl | (simp; done) | split | (dsimp only; split))
@[simp] theorem laneToActive_nfc (s : State) (n : ℕ) : ((laneToActive s n)).nfc = s.nfc := by unfold laneToActive; repeat' (first | rfl | (simp; done) | split | (dsimp only; split))
@[simp] theorem laneToActive_ledger (s : State) (n : ℕ) : ((laneToActive s n)).ledger = s.ledger := by unfold laneToActive; repeat' (first | rfl | (simp; done) | split | (dsimp only; split))
@[simp] theorem laneToActive_aon (s : State) (n : ℕ) : ((laneToActive s n)).aon = s.aon := by unfold laneToActive; repeat' (first | rfl | (simp; done) | split | (dsimp only; split))
@[simp] theorem laneToActive_net (s : State) (n : ℕ) : ((laneToActive s n)).net = s.net := by unfold laneToActive; repeat' (first | rfl | (simp; done) | split | (dsimp only; split))
@[simp] theorem laneToActive_tables (s : State) (n : ℕ) : ((laneToActive s n)).tables = s.tables := by unfold laneToActive; repeat' (first | rfl | (simp; done) | split | (dsimp only; split))
@[simp] theorem laneToActive_ports (s : State) (n : ℕ) : ((laneToActive s n)).ports = s.ports := by unfold laneToActive; repeat' (first | rfl | (simp; done) | split | (dsimp only; split))
@[simp] theorem laneToActive_cipher (s : State) (n : ℕ) : ((laneToActive s n)).cipher = s.cipher := by unfold laneToActive; repeat' (first | rfl | (simp; done) | split | (dsimp only; split))
@[simp] theorem laneToActive_bridge (s : State) (n : ℕ) : ((laneToActive s n)).bridge = s.bridge := by unfold laneToActive; repeat' (first | rfl | (simp; done) | split | (dsimp only; split))
@[simp] theorem laneToActive_hlb (s : State) (n : ℕ) : ((laneToActive s n)).hlb = s.hlb := by unfold laneToActive; repeat' (first | rfl | (simp; done) | split | (dsimp only; split))
@[simp] theorem laneToActive_wheels (s : State) (n : ℕ) : ((laneToActive s n)).wheels = s.wheels := by unfold laneToActive; repeat' (first | rfl | (simp; done) | split | (dsimp only; split))
@[simp] theorem laneToActive_map (s : State) (n : ℕ) : ((laneToActive s n)).map = s.map := by unfold laneToActive; repeat' (first | rfl | (simp; done) | split | (dsimp only; split))
@[simp] theorem laneToActive_changes (s : State) (n : ℕ) : ((laneToActive s n)).changes = s.changes := by unfold laneToActive; repeat' (first | rfl | (simp; done) | split | (dsimp only; split))
@[simp] theorem laneToActive_bgs (s : State) (n : ℕ) : ((laneToActive s n)).bgs = s.bgs := by unfold laneToActive; repeat' (first | rfl | (simp; done) | split | (dsimp only; split))
@[simp] theorem laneToActive_mem (s : State) (n : ℕ) : ((laneToActive s n)).mem = s.mem := by unfold laneToActive; repeat' (first | rfl | (simp; done) | split | (dsimp only; split))
@[simp] theorem laneToActive_freeze (s : State) (n : ℕ) : ((laneToActive s n)).freeze = s.freeze := by unfold laneToActive; repeat' (first | rfl | (simp; done) | split | (dsimp only; split))
@[simp] theorem laneToActive_out (s : State) (n : ℕ) : ((laneToActive s n)).out = s.out := by unfold laneToActive; repeat' (first | rfl | (simp; done) | split | (dsimp only; split))
@[simp] theorem laneToActive_fresh (s : State) (n : ℕ) : ((laneToActive s n)).fresh = s.fresh := by unfold laneToActive; repeat' (first | rfl | (simp; done) | split | (dsimp only; split))
@[simp] theorem laneToActive_pending (s : State) (n : ℕ) : ((laneToActive s n)).pending = s.pending := by unfold laneToActive; repeat' (first | rfl | (simp; done) | split | (dsimp only; split))
@[simp] theorem laneToTarget_rf (s : State) (n : ℕ) : ((laneToTarget s n)).rf = s.rf := by unfold laneToTarget; repeat' (first | rfl | (simp; done) | split | (dsimp only; split))
@[simp] theorem laneToTarget_shadow (s : State) (n : ℕ) : ((laneToTarget s n)).shadow = s.shadow := by unfold laneToTarget; repeat' (first | rfl | (simp; done) | split | (dsimp only; split))
@[simp] theorem laneToTarget_sel (s : State) (n : ℕ) : ((laneToTarget s n)).sel = s.sel := by unfold laneToTarget; repeat' (first | rfl | (simp; done) | split | (dsimp only; split))
@[simp] theorem laneToTarget_power (s : State) (n : ℕ) : ((laneToTarget s n)).power = s.power := by unfold laneToTarget; repeat' (first | rfl | (simp; done) | split | (dsimp only; split))
@[simp] theorem laneToTarget_boot (s : State) (n : ℕ) : ((laneToTarget s n)).boot = s.boot := by unfold laneToTarget; repeat' (first | rfl | (simp; done) | split | (dsimp only; split))
@[simp] theorem laneToTarget_fuses (s : State) (n : ℕ) : ((laneToTarget s n)).fuses = s.fuses := by unfold laneToTarget; repeat' (first | rfl | (simp; done) | split | (dsimp only; split))
@[simp] theorem laneToTarget_sess (s : State) (n : ℕ) : ((laneToTarget s n)).sess = s.sess := by unfold laneToTarget; repeat' (first | rfl | (simp; done) | split | (dsimp only; split))
@[simp] theorem laneToTarget_deny (s : State) (n : ℕ) : ((laneToTarget s n)).deny = s.deny := by unfold laneToTarget; repeat' (first | rfl | (simp; done) | split | (dsimp only; split))
@[simp] theorem laneToTarget_disp (s : State) (n : ℕ) : ((laneToTarget s n)).disp = s.disp := by unfold laneToTarget; repeat' (first | rfl | (simp; done) | split | (dsimp only; split))
@[simp] theorem laneToTarget_time (s : State) (n : ℕ) : ((laneToTarget s n)).time = s.time := by unfold laneToTarget; repeat' (first | rfl | (simp; done) | split | (dsimp only; split))
@[simp] theorem laneToTarget_vault (s : State) (n : ℕ) : ((laneToTarget s n)).vault = s.vault := by unfold laneToTarget; repeat' (first | rfl | (simp; done) | split | (dsimp only; split))
@[simp] theorem laneToTarget_nfc (s : State) (n : ℕ) : ((laneToTarget s n)).nfc = s.nfc := by unfold laneToTarget; repeat' (first | rfl | (simp; done) | split | (dsimp only; split))
@[simp] theorem laneToTarget_ledger (s : State) (n : ℕ) : ((laneToTarget s n)).ledger = s.ledger := by unfold laneToTarget; repeat' (first | rfl | (simp; done) | split | (dsimp only; split))
@[simp] theorem laneToTarget_aon (s : State) (n : ℕ) : ((laneToTarget s n)).aon = s.aon := by unfold laneToTarget; repeat' (first | rfl | (simp; done) | split | (dsimp only; split))
@[simp] theorem laneToTarget_net (s : State) (n : ℕ) : ((laneToTarget s n)).net = s.net := by unfold laneToTarget; repeat' (first | rfl | (simp; done) | split | (dsimp only; split))
@[simp] theorem laneToTarget_tables (s : State) (n : ℕ) : ((laneToTarget s n)).tables = s.tables := by unfold laneToTarget; repeat' (first | rfl | (simp; done) | split | (dsimp only; split))
@[simp] theorem laneToTarget_ports (s : State) (n : ℕ) : ((laneToTarget s n)).ports = s.ports := by unfold laneToTarget; repeat' (first | rfl | (simp; done) | split | (dsimp only; split))
@[simp] theorem laneToTarget_cipher (s : State) (n : ℕ) : ((laneToTarget s n)).cipher = s.cipher := by unfold laneToTarget; repeat' (first | rfl | (simp; done) | split | (dsimp only; split))
@[simp] theorem laneToTarget_bridge (s : State) (n : ℕ) : ((laneToTarget s n)).bridge = s.bridge := by unfold laneToTarget; repeat' (first | rfl | (simp; done) | split | (dsimp only; split))
@[simp] theorem laneToTarget_hlb (s : State) (n : ℕ) : ((laneToTarget s n)).hlb = s.hlb := by unfold laneToTarget; repeat' (first | rfl | (simp; done) | split | (dsimp only; split))
@[simp] theorem laneToTarget_wheels (s : State) (n : ℕ) : ((laneToTarget s n)).wheels = s.wheels := by unfold laneToTarget; repeat' (first | rfl | (simp; done) | split | (dsimp only; split))
@[simp] theorem laneToTarget_map (s : State) (n : ℕ) : ((laneToTarget s n)).map = s.map := by unfold laneToTarget; repeat' (first | rfl | (simp; done) | split | (dsimp only; split))
@[simp] theorem laneToTarget_changes (s : State) (n : ℕ) : ((laneToTarget s n)).changes = s.changes := by unfold laneToTarget; repeat' (first | rfl | (simp; done) | split | (dsimp only; split))
@[simp] theorem laneToTarget_bgs (s : State) (n : ℕ) : ((laneToTarget s n)).bgs = s.bgs := by unfold laneToTarget; repeat' (first | rfl | (simp; done) | split | (dsimp only; split))
@[simp] theorem laneToTarget_mem (s : State) (n : ℕ) : ((laneToTarget s n)).mem = s.mem := by unfold laneToTarget; repeat' (first | rfl | (simp; done) | split | (dsimp only; split))
@[simp] theorem laneToTarget_freeze (s : State) (n : ℕ) : ((laneToTarget s n)).freeze = s.freeze := by unfold laneToTarget; repeat' (first | rfl | (simp; done) | split | (dsimp only; split))
@[simp] theorem laneToTarget_out (s : State) (n : ℕ) : ((laneToTarget s n)).out = s.out := by unfold laneToTarget; repeat' (first | rfl | (simp; done) | split | (dsimp only; split))
@[simp] theorem laneToTarget_fresh (s : State) (n : ℕ) : ((laneToTarget s n)).fresh = s.fresh := by unfold laneToTarget; repeat' (first | rfl | (simp; done) | split | (dsimp only; split))
@[simp] theorem laneToTarget_pending (s : State) (n : ℕ) : ((laneToTarget s n)).pending = s.pending := by unfold laneToTarget; repeat' (first | rfl | (simp; done) | split | (dsimp only; split))
@[simp] theorem laneFollow_rf (s : State) (n : ℕ) : ((laneFollow s n)).rf = s.rf := by unfold laneFollow; repeat' (first | rfl | (simp; done) | split | (dsimp only; split))
@[simp] theorem laneFollow_shadow (s : State) (n : ℕ) : ((laneFollow s n)).shadow = s.shadow := by unfold laneFollow; repeat' (first | rfl | (simp; done) | split | (dsimp only; split))
@[simp] theorem laneFollow_sel (s : State) (n : ℕ) : ((laneFollow s n)).sel = s.sel := by unfold laneFollow; repeat' (first | rfl | (simp; done) | split | (dsimp only; split))
@[simp] theorem laneFollow_power (s : State) (n : ℕ) : ((laneFollow s n)).power = s.power := by unfold laneFollow; repeat' (first | rfl | (simp; done) | split | (dsimp only; split))
@[simp] theorem laneFollow_boot (s : State) (n : ℕ) : ((laneFollow s n)).boot = s.boot := by unfold laneFollow; repeat' (first | rfl | (simp; done) | split | (dsimp only; split))
@[simp] theorem laneFollow_fuses (s : State) (n : ℕ) : ((laneFollow s n)).fuses = s.fuses := by unfold laneFollow; repeat' (first | rfl | (simp; done) | split | (dsimp only; split))
@[simp] theorem laneFollow_sess (s : State) (n : ℕ) : ((laneFollow s n)).sess = s.sess := by unfold laneFollow; repeat' (first | rfl | (simp; done) | split | (dsimp only; split))
@[simp] theorem laneFollow_deny (s : State) (n : ℕ) : ((laneFollow s n)).deny = s.deny := by unfold laneFollow; repeat' (first | rfl | (simp; done) | split | (dsimp only; split))
@[simp] theorem laneFollow_disp (s : State) (n : ℕ) : ((laneFollow s n)).disp = s.disp := by unfold laneFollow; repeat' (first | rfl | (simp; done) | split | (dsimp only; split))
@[simp] theorem laneFollow_time (s : State) (n : ℕ) : ((laneFollow s n)).time = s.time := by unfold laneFollow; repeat' (first | rfl | (simp; done) | split | (dsimp only; split))
@[simp] theorem laneFollow_vault (s : State) (n : ℕ) : ((laneFollow s n)).vault = s.vault := by unfold laneFollow; repeat' (first | rfl | (simp; done) | split | (dsimp only; split))
@[simp] theorem laneFollow_nfc (s : State) (n : ℕ) : ((laneFollow s n)).nfc = s.nfc := by unfold laneFollow; repeat' (first | rfl | (simp; done) | split | (dsimp only; split))
@[simp] theorem laneFollow_ledger (s : State) (n : ℕ) : ((laneFollow s n)).ledger = s.ledger := by unfold laneFollow; repeat' (first | rfl | (simp; done) | split | (dsimp only; split))
@[simp] theorem laneFollow_aon (s : State) (n : ℕ) : ((laneFollow s n)).aon = s.aon := by unfold laneFollow; repeat' (first | rfl | (simp; done) | split | (dsimp only; split))
@[simp] theorem laneFollow_net (s : State) (n : ℕ) : ((laneFollow s n)).net = s.net := by unfold laneFollow; repeat' (first | rfl | (simp; done) | split | (dsimp only; split))
@[simp] theorem laneFollow_tables (s : State) (n : ℕ) : ((laneFollow s n)).tables = s.tables := by unfold laneFollow; repeat' (first | rfl | (simp; done) | split | (dsimp only; split))
@[simp] theorem laneFollow_ports (s : State) (n : ℕ) : ((laneFollow s n)).ports = s.ports := by unfold laneFollow; repeat' (first | rfl | (simp; done) | split | (dsimp only; split))
@[simp] theorem laneFollow_cipher (s : State) (n : ℕ) : ((laneFollow s n)).cipher = s.cipher := by unfold laneFollow; repeat' (first | rfl | (simp; done) | split | (dsimp only; split))
@[simp] theorem laneFollow_bridge (s : State) (n : ℕ) : ((laneFollow s n)).bridge = s.bridge := by unfold laneFollow; repeat' (first | rfl | (simp; done) | split | (dsimp only; split))
@[simp] theorem laneFollow_hlb (s : State) (n : ℕ) : ((laneFollow s n)).hlb = s.hlb := by unfold laneFollow; repeat' (first | rfl | (simp; done) | split | (dsimp only; split))
@[simp] theorem laneFollow_wheels (s : State) (n : ℕ) : ((laneFollow s n)).wheels = s.wheels := by unfold laneFollow; repeat' (first | rfl | (simp; done) | split | (dsimp only; split))
@[simp] theorem laneFollow_map (s : State) (n : ℕ) : ((laneFollow s n)).map = s.map := by unfold laneFollow; repeat' (first | rfl | (simp; done) | split | (dsimp only; split))
@[simp] theorem laneFollow_changes (s : State) (n : ℕ) : ((laneFollow s n)).changes = s.changes := by unfold laneFollow; repeat' (first | rfl | (simp; done) | split | (dsimp only; split))
@[simp] theorem laneFollow_bgs (s : State) (n : ℕ) : ((laneFollow s n)).bgs = s.bgs := by unfold laneFollow; repeat' (first | rfl | (simp; done) | split | (dsimp only; split))
@[simp] theorem laneFollow_mem (s : State) (n : ℕ) : ((laneFollow s n)).mem = s.mem := by unfold laneFollow; repeat' (first | rfl | (simp; done) | split | (dsimp only; split))
@[simp] theorem laneFollow_freeze (s : State) (n : ℕ) : ((laneFollow s n)).freeze = s.freeze := by unfold laneFollow; repeat' (first | rfl | (simp; done) | split | (dsimp only; split))
@[simp] theorem laneFollow_out (s : State) (n : ℕ) : ((laneFollow s n)).out = s.out := by unfold laneFollow; repeat' (first | rfl | (simp; done) | split | (dsimp only; split))
@[simp] theorem laneFollow_fresh (s : State) (n : ℕ) : ((laneFollow s n)).fresh = s.fresh := by unfold laneFollow; repeat' (first | rfl | (simp; done) | split | (dsimp only; split))
@[simp] theorem laneFollow_pending (s : State) (n : ℕ) : ((laneFollow s n)).pending = s.pending := by unfold laneFollow; repeat' (first | rfl | (simp; done) | split | (dsimp only; split))
@[simp] theorem domsWarm_shadow (s : State) : ((domsWarm s)).shadow = s.shadow := by unfold domsWarm; (try dsimp only); repeat' (first | rfl | (simp; done) | (refine (foldl_field State.shadow (fun _ _ => ?_) _ _).trans ?_) | split)
@[simp] theorem domsWarm_sel (s : State) : ((domsWarm s)).sel = s.sel := by unfold domsWarm; (try dsimp only); repeat' (first | rfl | (simp; done) | (refine (foldl_field State.sel (fun _ _ => ?_) _ _).trans ?_) | split)
@[simp] theorem domsWarm_power (s : State) : ((domsWarm s)).power = s.power := by unfold domsWarm; (try dsimp only); repeat' (first | rfl | (simp; done) | (refine (foldl_field State.power (fun _ _ => ?_) _ _).trans ?_) | split)
@[simp] theorem domsWarm_boot (s : State) : ((domsWarm s)).boot = s.boot := by unfold domsWarm; (try dsimp only); repeat' (first | rfl | (simp; done) | (refine (foldl_field State.boot (fun _ _ => ?_) _ _).trans ?_) | split)
@[simp] theorem domsWarm_fuses (s : State) : ((domsWarm s)).fuses = s.fuses := by unfold domsWarm; (try dsimp only); repeat' (first | rfl | (simp; done) | (refine (foldl_field State.fuses (fun _ _ => ?_) _ _).trans ?_) | split)
@[simp] theorem domsWarm_sess (s : State) : ((domsWarm s)).sess = s.sess := by unfold domsWarm; (try dsimp only); repeat' (first | rfl | (simp; done) | (refine (foldl_field State.sess (fun _ _ => ?_) _ _).trans ?_) | split)
@[simp] theorem domsWarm_deny (s : State) : ((domsWarm s)).deny = s.deny := by unfold domsWarm; (try dsimp only); repeat' (first | rfl | (simp; done) | (refine (foldl_field State.deny (fun _ _ => ?_) _ _).trans ?_) | split)
@[simp] theorem domsWarm_disp (s : State) : ((domsWarm s)).disp = s.disp := by unfold domsWarm; (try dsimp only); repeat' (first | rfl | (simp; done) | (refine (foldl_field State.disp (fun _ _ => ?_) _ _).trans ?_) | split)
@[simp] theorem domsWarm_vault (s : State) : ((domsWarm s)).vault = s.vault := by unfold domsWarm; (try dsimp only); repeat' (first | rfl | (simp; done) | (refine (foldl_field State.vault (fun _ _ => ?_) _ _).trans ?_) | split)
@[simp] theorem domsWarm_nfc (s : State) : ((domsWarm s)).nfc = s.nfc := by unfold domsWarm; (try dsimp only); repeat' (first | rfl | (simp; done) | (refine (foldl_field State.nfc (fun _ _ => ?_) _ _).trans ?_) | split)
@[simp] theorem domsWarm_ledger (s : State) : ((domsWarm s)).ledger = s.ledger := by unfold domsWarm; (try dsimp only); repeat' (first | rfl | (simp; done) | (refine (foldl_field State.ledger (fun _ _ => ?_) _ _).trans ?_) | split)
@[simp] theorem domsWarm_lanes (s : State) : ((domsWarm s)).lanes = s.lanes := by unfold domsWarm; (try dsimp only); repeat' (first | rfl | (simp; done) | (refine (foldl_field State.lanes (fun _ _ => ?_) _ _).trans ?_) | split)
@[simp] theorem domsWarm_aon (s : State) : ((domsWarm s)).aon = s.aon := by unfold domsWarm; (try dsimp only); repeat' (first | rfl | (simp; done) | (refine (foldl_field State.aon (fun _ _ => ?_) _ _).trans ?_) | split)
@[simp] theorem domsWarm_net (s : State) : ((domsWarm s)).net = s.net := by unfold domsWarm; (try dsimp only); repeat' (first | rfl | (simp; done) | (refine (foldl_field State.net (fun _ _ => ?_) _ _).trans ?_) | split)
@[simp] theorem domsWarm_tables (s : State) : ((domsWarm s)).tables = s.tables := by unfold domsWarm; (try dsimp only); repeat' (first | rfl | (simp; done) | (refine (foldl_field State.tables (fun _ _ => ?_) _ _).trans ?_) | split)
@[simp] theorem domsWarm_ports (s : State) : ((domsWarm s)).ports = s.ports := by unfold domsWarm; (try dsimp only); repeat' (first | rfl | (simp; done) | (refine (foldl_field State.ports (fun _ _ => ?_) _ _).trans ?_) | split)
@[simp] theorem domsWarm_cipher (s : State) : ((domsWarm s)).cipher = s.cipher := by unfold domsWarm; (try dsimp only); repeat' (first | rfl | (simp; done) | (refine (foldl_field State.cipher (fun _ _ => ?_) _ _).trans ?_) | split)
@[simp] theorem domsWarm_bridge (s : State) : ((domsWarm s)).bridge = s.bridge := by unfold domsWarm; (try dsimp only); repeat' (first | rfl | (simp; done) | (refine (foldl_field State.bridge (fun _ _ => ?_) _ _).trans ?_) | split)
@[simp] theorem domsWarm_hlb (s : State) : ((domsWarm s)).hlb = s.hlb := by unfold domsWarm; (try dsimp only); repeat' (first | rfl | (simp; done) | (refine (foldl_field State.hlb (fun _ _ => ?_) _ _).trans ?_) | split)
@[simp] theorem domsWarm_wheels (s : State) : ((domsWarm s)).wheels = s.wheels := by unfold domsWarm; (try dsimp only); repeat' (first | rfl | (simp; done) | (refine (foldl_field State.wheels (fun _ _ => ?_) _ _).trans ?_) | split)
@[simp] theorem domsWarm_map (s : State) : ((domsWarm s)).map = s.map := by unfold domsWarm; (try dsimp only); repeat' (first | rfl | (simp; done) | (refine (foldl_field State.map (fun _ _ => ?_) _ _).trans ?_) | split)
@[simp] theorem domsWarm_changes (s : State) : ((domsWarm s)).changes = s.changes := by unfold domsWarm; (try dsimp only); repeat' (first | rfl | (simp; done) | (refine (foldl_field State.changes (fun _ _ => ?_) _ _).trans ?_) | split)
@[simp] theorem domsWarm_mem (s : State) : ((domsWarm s)).mem = s.mem := by unfold domsWarm; (try dsimp only); repeat' (first | rfl | (simp; done) | (refine (foldl_field State.mem (fun _ _ => ?_) _ _).trans ?_) | split)
@[simp] theorem domsWarm_out (s : State) : ((domsWarm s)).out = s.out := by unfold domsWarm; (try dsimp only); repeat' (first | rfl | (simp; done) | (refine (foldl_field State.out (fun _ _ => ?_) _ _).trans ?_) | split)
@[simp] theorem domsWarm_fresh (s : State) : ((domsWarm s)).fresh = s.fresh := by unfold domsWarm; (try dsimp only); repeat' (first | rfl | (simp; done) | (refine (foldl_field State.fresh (fun _ _ => ?_) _ _).trans ?_) | split)
@[simp] theorem domsWarm_pending (s : State) : ((domsWarm s)).pending = s.pending := by unfold domsWarm; (try dsimp only); repeat' (first | rfl | (simp; done) | (refine (foldl_field State.pending (fun _ _ => ?_) _ _).trans ?_) | split)
@[simp] theorem trgWarm_shadow (old : State) (s : State) : ((trgWarm old s)).shadow = s.shadow := by unfold trgWarm; (try dsimp only); repeat' (first | rfl | (simp; done) | (refine (foldl_field State.shadow (fun _ _ => ?_) _ _).trans ?_) | split)
@[simp] theorem trgWarm_sel (old : State) (s : State) : ((trgWarm old s)).sel = s.sel := by unfold trgWarm; (try dsimp only); repeat' (first | rfl | (simp; done) | (refine (foldl_field State.sel (fun _ _ => ?_) _ _).trans ?_) | split)
@[simp] theorem trgWarm_power (old : State) (s : State) : ((trgWarm old s)).power = s.power := by unfold trgWarm; (try dsimp only); repeat' (first | rfl | (simp; done) | (refine (foldl_field State.power (fun _ _ => ?_) _ _).trans ?_) | split)
@[simp] theorem trgWarm_boot (old : State) (s : State) : ((trgWarm old s)).boot = s.boot := by unfold trgWarm; (try dsimp only); repeat' (first | rfl | (simp; done) | (refine (foldl_field State.boot (fun _ _ => ?_) _ _).trans ?_) | split)
@[simp] theorem trgWarm_fuses (old : State) (s : State) : ((trgWarm old s)).fuses = s.fuses := by unfold trgWarm; (try dsimp only); repeat' (first | rfl | (simp; done) | (refine (foldl_field State.fuses (fun _ _ => ?_) _ _).trans ?_) | split)
@[simp] theorem trgWarm_sess (old : State) (s : State) : ((trgWarm old s)).sess = s.sess := by unfold trgWarm; (try dsimp only); repeat' (first | rfl | (simp; done) | (refine (foldl_field State.sess (fun _ _ => ?_) _ _).trans ?_) | split)
@[simp] theorem trgWarm_deny (old : State) (s : State) : ((trgWarm old s)).deny = s.deny := by unfold trgWarm; (try dsimp only); repeat' (first | rfl | (simp; done) | (refine (foldl_field State.deny (fun _ _ => ?_) _ _).trans ?_) | split)
@[simp] theorem trgWarm_disp (old : State) (s : State) : ((trgWarm old s)).disp = s.disp := by unfold trgWarm; (try dsimp only); repeat' (first | rfl | (simp; done) | (refine (foldl_field State.disp (fun _ _ => ?_) _ _).trans ?_) | split)
@[simp] theorem trgWarm_time (old : State) (s : State) : ((trgWarm old s)).time = s.time := by unfold trgWarm; (try dsimp only); repeat' (first | rfl | (simp; done) | (refine (foldl_field State.time (fun _ _ => ?_) _ _).trans ?_) | split)
@[simp] theorem trgWarm_vault (old : State) (s : State) : ((trgWarm old s)).vault = s.vault := by unfold trgWarm; (try dsimp only); repeat' (first | rfl | (simp; done) | (refine (foldl_field State.vault (fun _ _ => ?_) _ _).trans ?_) | split)
@[simp] theorem trgWarm_nfc (old : State) (s : State) : ((trgWarm old s)).nfc = s.nfc := by unfold trgWarm; (try dsimp only); repeat' (first | rfl | (simp; done) | (refine (foldl_field State.nfc (fun _ _ => ?_) _ _).trans ?_) | split)
@[simp] theorem trgWarm_ledger (old : State) (s : State) : ((trgWarm old s)).ledger = s.ledger := by unfold trgWarm; (try dsimp only); repeat' (first | rfl | (simp; done) | (refine (foldl_field State.ledger (fun _ _ => ?_) _ _).trans ?_) | split)
@[simp] theorem trgWarm_lanes (old : State) (s : State) : ((trgWarm old s)).lanes = s.lanes := by unfold trgWarm; (try dsimp only); repeat' (first | rfl | (simp; done) | (refine (foldl_field State.lanes (fun _ _ => ?_) _ _).trans ?_) | split)
@[simp] theorem trgWarm_aon (old : State) (s : State) : ((trgWarm old s)).aon = s.aon := by unfold trgWarm; (try dsimp only); repeat' (first | rfl | (simp; done) | (refine (foldl_field State.aon (fun _ _ => ?_) _ _).trans ?_) | split)
@[simp] theorem trgWarm_net (old : State) (s : State) : ((trgWarm old s)).net = s.net := by unfold trgWarm; (try dsimp only); repeat' (first | rfl | (simp; done) | (refine (foldl_field State.net (fun _ _ => ?_) _ _).trans ?_) | split)
@[simp] theorem trgWarm_tables (old : State) (s : State) : ((trgWarm old s)).tables = s.tables := by unfold trgWarm; (try dsimp only); repeat' (first | rfl | (simp; done) | (refine (foldl_field State.tables (fun _ _ => ?_) _ _).trans ?_) | split)
@[simp] theorem trgWarm_ports (old : State) (s : State) : ((trgWarm old s)).ports = s.ports := by unfold trgWarm; (try dsimp only); repeat' (first | rfl | (simp; done) | (refine (foldl_field State.ports (fun _ _ => ?_) _ _).trans ?_) | split)
@[simp] theorem trgWarm_cipher (old : State) (s : State) : ((trgWarm old s)).cipher = s.cipher := by unfold trgWarm; (try dsimp only); repeat' (first | rfl | (simp; done) | (refine (foldl_field State.cipher (fun _ _ => ?_) _ _).trans ?_) | split)
@[simp] theorem trgWarm_bridge (old : State) (s : State) : ((trgWarm old s)).bridge = s.bridge := by unfold trgWarm; (try dsimp only); repeat' (first | rfl | (simp; done) | (refine (foldl_field State.bridge (fun _ _ => ?_) _ _).trans ?_) | split)
@[simp] theorem trgWarm_hlb (old : State) (s : State) : ((trgWarm old s)).hlb = s.hlb := by unfold trgWarm; (try dsimp only); repeat' (first | rfl | (simp; done) | (refine (foldl_field State.hlb (fun _ _ => ?_) _ _).trans ?_) | split)
@[simp] theorem trgWarm_wheels (old : State) (s : State) : ((trgWarm old s)).wheels = s.wheels := by unfold trgWarm; (try dsimp only); repeat' (first | rfl | (simp; done) | (refine (foldl_field State.wheels (fun _ _ => ?_) _ _).trans ?_) | split)
@[simp] theorem trgWarm_map (old : State) (s : State) : ((trgWarm old s)).map = s.map := by unfold trgWarm; (try dsimp only); repeat' (first | rfl | (simp; done) | (refine (foldl_field State.map (fun _ _ => ?_) _ _).trans ?_) | split)
@[simp] theorem trgWarm_changes (old : State) (s : State) : ((trgWarm old s)).changes = s.changes := by unfold trgWarm; (try dsimp only); repeat' (first | rfl | (simp; done) | (refine (foldl_field State.changes (fun _ _ => ?_) _ _).trans ?_) | split)
@[simp] theorem trgWarm_bgs (old : State) (s : State) : ((trgWarm old s)).bgs = s.bgs := by unfold trgWarm; (try dsimp only); repeat' (first | rfl | (simp; done) | (refine (foldl_field State.bgs (fun _ _ => ?_) _ _).trans ?_) | split)
@[simp] theorem trgWarm_mem (old : State) (s : State) : ((trgWarm old s)).mem = s.mem := by unfold trgWarm; (try dsimp only); repeat' (first | rfl | (simp; done) | (refine (foldl_field State.mem (fun _ _ => ?_) _ _).trans ?_) | split)
@[simp] theorem trgWarm_freeze (old : State) (s : State) : ((trgWarm old s)).freeze = s.freeze := by unfold trgWarm; (try dsimp only); repeat' (first | rfl | (simp; done) | (refine (foldl_field State.freeze (fun _ _ => ?_) _ _).trans ?_) | split)
@[simp] theorem trgWarm_out (old : State) (s : State) : ((trgWarm old s)).out = s.out := by unfold trgWarm; (try dsimp only); repeat' (first | rfl | (simp; done) | (refine (foldl_field State.out (fun _ _ => ?_) _ _).trans ?_) | split)
@[simp] theorem trgWarm_fresh (old : State) (s : State) : ((trgWarm old s)).fresh = s.fresh := by unfold trgWarm; (try dsimp only); repeat' (first | rfl | (simp; done) | (refine (foldl_field State.fresh (fun _ _ => ?_) _ _).trans ?_) | split)
@[simp] theorem trgWarm_pending (old : State) (s : State) : ((trgWarm old s)).pending = s.pending := by unfold trgWarm; (try dsimp only); repeat' (first | rfl | (simp; done) | (refine (foldl_field State.pending (fun _ _ => ?_) _ _).trans ?_) | split)
@[simp] theorem noteWake_shadow (s : State) (src : ℕ) : ((noteWake s src)).shadow = s.shadow := by unfold noteWake; repeat' (first | rfl | (simp; done) | split | (dsimp only; split))
@[simp] theorem noteWake_sel (s : State) (src : ℕ) : ((noteWake s src)).sel = s.sel := by unfold noteWake; repeat' (first | rfl | (simp; done) | split | (dsimp only; split))
@[simp] theorem noteWake_boot (s : State) (src : ℕ) : ((noteWake s src)).boot = s.boot := by unfold noteWake; repeat' (first | rfl | (simp; done) | split | (dsimp only; split))
@[simp] theorem noteWake_fuses (s : State) (src : ℕ) : ((noteWake s src)).fuses = s.fuses := by unfold noteWake; repeat' (first | rfl | (simp; done) | split | (dsimp only; split))
@[simp] theorem noteWake_sess (s : State) (src : ℕ) : ((noteWake s src)).sess = s.sess := by unfold noteWake; repeat' (first | rfl | (simp; done) | split | (dsimp only; split))
@[simp] theorem noteWake_deny (s : State) (src : ℕ) : ((noteWake s src)).deny = s.deny := by unfold noteWake; repeat' (first | rfl | (simp; done) | split | (dsimp only; split))
@[simp] theorem noteWake_disp (s : State) (src : ℕ) : ((noteWake s src)).disp = s.disp := by unfold noteWake; repeat' (first | rfl | (simp; done) | split | (dsimp only; split))
@[simp] theorem noteWake_time (s : State) (src : ℕ) : ((noteWake s src)).time = s.time := by unfold noteWake; repeat' (first | rfl | (simp; done) | split | (dsimp only; split))
@[simp] theorem noteWake_vault (s : State) (src : ℕ) : ((noteWake s src)).vault = s.vault := by unfold noteWake; repeat' (first | rfl | (simp; done) | split | (dsimp only; split))
@[simp] theorem noteWake_nfc (s : State) (src : ℕ) : ((noteWake s src)).nfc = s.nfc := by unfold noteWake; repeat' (first | rfl | (simp; done) | split | (dsimp only; split))
@[simp] theorem noteWake_ledger (s : State) (src : ℕ) : ((noteWake s src)).ledger = s.ledger := by unfold noteWake; repeat' (first | rfl | (simp; done) | split | (dsimp only; split))
@[simp] theorem noteWake_lanes (s : State) (src : ℕ) : ((noteWake s src)).lanes = s.lanes := by unfold noteWake; repeat' (first | rfl | (simp; done) | split | (dsimp only; split))
@[simp] theorem noteWake_aon (s : State) (src : ℕ) : ((noteWake s src)).aon = s.aon := by unfold noteWake; repeat' (first | rfl | (simp; done) | split | (dsimp only; split))
@[simp] theorem noteWake_net (s : State) (src : ℕ) : ((noteWake s src)).net = s.net := by unfold noteWake; repeat' (first | rfl | (simp; done) | split | (dsimp only; split))
@[simp] theorem noteWake_tables (s : State) (src : ℕ) : ((noteWake s src)).tables = s.tables := by unfold noteWake; repeat' (first | rfl | (simp; done) | split | (dsimp only; split))
@[simp] theorem noteWake_ports (s : State) (src : ℕ) : ((noteWake s src)).ports = s.ports := by unfold noteWake; repeat' (first | rfl | (simp; done) | split | (dsimp only; split))
@[simp] theorem noteWake_cipher (s : State) (src : ℕ) : ((noteWake s src)).cipher = s.cipher := by unfold noteWake; repeat' (first | rfl | (simp; done) | split | (dsimp only; split))
@[simp] theorem noteWake_bridge (s : State) (src : ℕ) : ((noteWake s src)).bridge = s.bridge := by unfold noteWake; repeat' (first | rfl | (simp; done) | split | (dsimp only; split))
@[simp] theorem noteWake_hlb (s : State) (src : ℕ) : ((noteWake s src)).hlb = s.hlb := by unfold noteWake; repeat' (first | rfl | (simp; done) | split | (dsimp only; split))
@[simp] theorem noteWake_wheels (s : State) (src : ℕ) : ((noteWake s src)).wheels = s.wheels := by unfold noteWake; repeat' (first | rfl | (simp; done) | split | (dsimp only; split))
@[simp] theorem noteWake_map (s : State) (src : ℕ) : ((noteWake s src)).map = s.map := by unfold noteWake; repeat' (first | rfl | (simp; done) | split | (dsimp only; split))
@[simp] theorem noteWake_changes (s : State) (src : ℕ) : ((noteWake s src)).changes = s.changes := by unfold noteWake; repeat' (first | rfl | (simp; done) | split | (dsimp only; split))
@[simp] theorem noteWake_bgs (s : State) (src : ℕ) : ((noteWake s src)).bgs = s.bgs := by unfold noteWake; repeat' (first | rfl | (simp; done) | split | (dsimp only; split))
@[simp] theorem noteWake_mem (s : State) (src : ℕ) : ((noteWake s src)).mem = s.mem := by unfold noteWake; repeat' (first | rfl | (simp; done) | split | (dsimp only; split))
@[simp] theorem noteWake_freeze (s : State) (src : ℕ) : ((noteWake s src)).freeze = s.freeze := by unfold noteWake; repeat' (first | rfl | (simp; done) | split | (dsimp only; split))
@[simp] theorem noteWake_out (s : State) (src : ℕ) : ((noteWake s src)).out = s.out := by unfold noteWake; repeat' (first | rfl | (simp; done) | split | (dsimp only; split))
@[simp] theorem noteWake_fresh (s : State) (src : ℕ) : ((noteWake s src)).fresh = s.fresh := by unfold noteWake; repeat' (first | rfl | (simp; done) | split | (dsimp only; split))
@[simp] theorem noteWake_pending (s : State) (src : ℕ) : ((noteWake s src)).pending = s.pending := by unfold noteWake; repeat' (first | rfl | (simp; done) | split | (dsimp only; split))
@[simp] theorem dmaWrite_shadow (s : State) (a : ℕ) (b : List Byte) : ((dmaWrite s a b).2).shadow = s.shadow := by unfold dmaWrite; repeat' (first | rfl | (simp; done) | split | (dsimp only; split))
@[simp] theorem dmaWrite_sel (s : State) (a : ℕ) (b : List Byte) : ((dmaWrite s a b).2).sel = s.sel := by unfold dmaWrite; repeat' (first | rfl | (simp; done) | split | (dsimp only; split))
@[simp] theorem dmaWrite_power (s : State) (a : ℕ) (b : List Byte) : ((dmaWrite s a b).2).power = s.power := by unfold dmaWrite; repeat' (first | rfl | (simp; done) | split | (dsimp only; split))
@[simp] theorem dmaWrite_boot (s : State) (a : ℕ) (b : List Byte) : ((dmaWrite s a b).2).boot = s.boot := by unfold dmaWrite; repeat' (first | rfl | (simp; done) | split | (dsimp only; split))
@[simp] theorem dmaWrite_fuses (s : State) (a : ℕ) (b : List Byte) : ((dmaWrite s a b).2).fuses = s.fuses := by unfold dmaWrite; repeat' (first | rfl | (simp; done) | split | (dsimp only; split))
@[simp] theorem dmaWrite_sess (s : State) (a : ℕ) (b : List Byte) : ((dmaWrite s a b).2).sess = s.sess := by unfold dmaWrite; repeat' (first | rfl | (simp; done) | split | (dsimp only; split))
@[simp] theorem dmaWrite_disp (s : State) (a : ℕ) (b : List Byte) : ((dmaWrite s a b).2).disp = s.disp := by unfold dmaWrite; repeat' (first | rfl | (simp; done) | split | (dsimp only; split))
@[simp] theorem dmaWrite_time (s : State) (a : ℕ) (b : List Byte) : ((dmaWrite s a b).2).time = s.time := by unfold dmaWrite; repeat' (first | rfl | (simp; done) | split | (dsimp only; split))
@[simp] theorem dmaWrite_vault (s : State) (a : ℕ) (b : List Byte) : ((dmaWrite s a b).2).vault = s.vault := by unfold dmaWrite; repeat' (first | rfl | (simp; done) | split | (dsimp only; split))
@[simp] theorem dmaWrite_nfc (s : State) (a : ℕ) (b : List Byte) : ((dmaWrite s a b).2).nfc = s.nfc := by unfold dmaWrite; repeat' (first | rfl | (simp; done) | split | (dsimp only; split))
@[simp] theorem dmaWrite_ledger (s : State) (a : ℕ) (b : List Byte) : ((dmaWrite s a b).2).ledger = s.ledger := by unfold dmaWrite; repeat' (first | rfl | (simp; done) | split | (dsimp only; split))
@[simp] theorem dmaWrite_lanes (s : State) (a : ℕ) (b : List Byte) : ((dmaWrite s a b).2).lanes = s.lanes := by unfold dmaWrite; repeat' (first | rfl | (simp; done) | split | (dsimp only; split))
@[simp] theorem dmaWrite_aon (s : State) (a : ℕ) (b : List Byte) : ((dmaWrite s a b).2).aon = s.aon := by unfold dmaWrite; repeat' (first | rfl | (simp; done) | split | (dsimp only; split))
@[simp] theorem dmaWrite_net (s : State) (a : ℕ) (b : List Byte) : ((dmaWrite s a b).2).net = s.net := by unfold dmaWrite; repeat' (first | rfl | (simp; done) | split | (dsimp only; split))
@[simp] theorem dmaWrite_tables (s : State) (a : ℕ) (b : List Byte) : ((dmaWrite s a b).2).tables = s.tables := by unfold dmaWrite; repeat' (first | rfl | (simp; done) | split | (dsimp only; split))
@[simp] theorem dmaWrite_ports (s : State) (a : ℕ) (b : List Byte) : ((dmaWrite s a b).2).ports = s.ports := by unfold dmaWrite; repeat' (first | rfl | (simp; done) | split | (dsimp only; split))
@[simp] theorem dmaWrite_cipher (s : State) (a : ℕ) (b : List Byte) : ((dmaWrite s a b).2).cipher = s.cipher := by unfold dmaWrite; repeat' (first | rfl | (simp; done) | split | (dsimp only; split))
@[simp] theorem dmaWrite_bridge (s : State) (a : ℕ) (b : List Byte) : ((dmaWrite s a b).2).bridge = s.bridge := by unfold dmaWrite; repeat' (first | rfl | (simp; done) | split | (dsimp only; split))
@[simp] theorem dmaWrite_hlb (s : State) (a : ℕ) (b : List Byte) : ((dmaWrite s a b).2).hlb = s.hlb := by unfold dmaWrite; repeat' (first | rfl | (simp; done) | split | (dsimp only; split))
@[simp] theorem dmaWrite_wheels (s : State) (a : ℕ) (b : List Byte) : ((dmaWrite s a b).2).wheels = s.wheels := by unfold dmaWrite; repeat' (first | rfl | (simp; done) | split | (dsimp only; split))
@[simp] theorem dmaWrite_map (s : State) (a : ℕ) (b : List Byte) : ((dmaWrite s a b).2).map = s.map := by unfold dmaWrite; repeat' (first | rfl | (simp; done) | split | (dsimp only; split))
@[simp] theorem dmaWrite_changes (s : State) (a : ℕ) (b : List Byte) : ((dmaWrite s a b).2).changes = s.changes := by unfold dmaWrite; repeat' (first | rfl | (simp; done) | split | (dsimp only; split))
@[simp] theorem dmaWrite_mem (s : State) (a : ℕ) (b : List Byte) : ((dmaWrite s a b).2).mem = s.mem := by unfold dmaWrite; repeat' (first | rfl | (simp; done) | split | (dsimp only; split))
@[simp] theorem dmaWrite_fresh (s : State) (a : ℕ) (b : List Byte) : ((dmaWrite s a b).2).fresh = s.fresh := by unfold dmaWrite; repeat' (first | rfl | (simp; done) | split | (dsimp only; split))
@[simp] theorem dmaWrite_pending (s : State) (a : ℕ) (b : List Byte) : ((dmaWrite s a b).2).pending = s.pending := by unfold dmaWrite; repeat' (first | rfl | (simp; done) | split | (dsimp only; split))
@[simp] theorem respond_shadow (s : State) (c : Chan) (r : Rsp) : ((respond s c r)).shadow = s.shadow := by unfold respond; repeat' (first | rfl | (simp; done) | split | (dsimp only; split))
@[simp] theorem respond_sel (s : State) (c : Chan) (r : Rsp) : ((respond s c r)).sel = s.sel := by unfold respond; repeat' (first | rfl | (simp; done) | split | (dsimp only; split))
@[simp] theorem respond_power (s : State) (c : Chan) (r : Rsp) : ((respond s c r)).power = s.power := by unfold respond; repeat' (first | rfl | (simp; done) | split | (dsimp only; split))
@[simp] theorem respond_boot (s : State) (c : Chan) (r : Rsp) : ((respond s c r)).boot = s.boot := by unfold respond; repeat' (first | rfl | (simp; done) | split | (dsimp only; split))
@[simp] theorem respond_fuses (s : State) (c : Chan) (r : Rsp) : ((respond s c r)).fuses = s.fuses := by unfold respond; repeat' (first | rfl | (simp; done) | split | (dsimp only; split))
@[simp] theorem respond_sess (s : State) (c : Chan) (r : Rsp) : ((respond s c r)).sess = s.sess := by unfold respond; repeat' (first | rfl | (simp; done) | split | (dsimp only; split))
@[simp] theorem respond_time (s : State) (c : Chan) (r : Rsp) : ((respond s c r)).time = s.time := by unfold respond; repeat' (first | rfl | (simp; done) | split | (dsimp only; split))
@[simp] theorem respond_vault (s : State) (c : Chan) (r : Rsp) : ((respond s c r)).vault = s.vault := by unfold respond; repeat' (first | rfl | (simp; done) | split | (dsimp only; split))
@[simp] theorem respond_nfc (s : State) (c : Chan) (r : Rsp) : ((respond s c r)).nfc = s.nfc := by unfold respond; repeat' (first | rfl | (simp; done) | split | (dsimp only; split))
@[simp] theorem respond_ledger (s : State) (c : Chan) (r : Rsp) : ((respond s c r)).ledger = s.ledger := by unfold respond; repeat' (first | rfl | (simp; done) | split | (dsimp only; split))
@[simp] theorem respond_lanes (s : State) (c : Chan) (r : Rsp) : ((respond s c r)).lanes = s.lanes := by unfold respond; repeat' (first | rfl | (simp; done) | split | (dsimp only; split))
@[simp] theorem respond_aon (s : State) (c : Chan) (r : Rsp) : ((respond s c r)).aon = s.aon := by unfold respond; repeat' (first | rfl | (simp; done) | split | (dsimp only; split))
@[simp] theorem respond_net (s : State) (c : Chan) (r : Rsp) : ((respond s c r)).net = s.net := by unfold respond; repeat' (first | rfl | (simp; done) | split | (dsimp only; split))
@[simp] theorem respond_tables (s : State) (c : Chan) (r : Rsp) : ((respond s c r)).tables = s.tables := by unfold respond; repeat' (first | rfl | (simp; done) | split | (dsimp only; split))
@[simp] theorem respond_ports (s : State) (c : Chan) (r : Rsp) : ((respond s c r)).ports = s.ports := by unfold respond; repeat' (first | rfl | (simp; done) | split | (dsimp only; split))
@[simp] theorem respond_cipher (s : State) (c : Chan) (r : Rsp) : ((respond s c r)).cipher = s.cipher := by unfold respond; repeat' (first | rfl | (simp; done) | split | (dsimp only; split))
@[simp] theorem respond_bridge (s : State) (c : Chan) (r : Rsp) : ((respond s c r)).bridge = s.bridge := by unfold respond; repeat' (first | rfl | (simp; done) | split | (dsimp only; split))
@[simp] theorem respond_hlb (s : State) (c : Chan) (r : Rsp) : ((respond s c r)).hlb = s.hlb := by unfold respond; repeat' (first | rfl | (simp; done) | split | (dsimp only; split))
@[simp] theorem respond_wheels (s : State) (c : Chan) (r : Rsp) : ((respond s c r)).wheels = s.wheels := by unfold respond; repeat' (first | rfl | (simp; done) | split | (dsimp only; split))
@[simp] theorem respond_map (s : State) (c : Chan) (r : Rsp) : ((respond s c r)).map = s.map := by unfold respond; repeat' (first | rfl | (simp; done) | split | (dsimp only; split))
@[simp] theorem respond_changes (s : State) (c : Chan) (r : Rsp) : ((respond s c r)).changes = s.changes := by unfold respond; repeat' (first | rfl | (simp; done) | split | (dsimp only; split))
@[simp] theorem respond_mem (s : State) (c : Chan) (r : Rsp) : ((respond s c r)).mem = s.mem := by unfold respond; repeat' (first | rfl | (simp; done) | split | (dsimp only; split))
@[simp] theorem respond_fresh (s : State) (c : Chan) (r : Rsp) : ((respond s c r)).fresh = s.fresh := by unfold respond; repeat' (first | rfl | (simp; done) | split | (dsimp only; split))
@[simp] theorem respond_pending (s : State) (c : Chan) (r : Rsp) : ((respond s c r)).pending = s.pending := by unfold respond; repeat' (first | rfl | (simp; done) | split | (dsimp only; split))
@[simp] theorem answer_shadow (s : State) (r : Req) (op : ℕ) (st : Status) (b : List Byte) : ((answer s r op st b)).shadow = s.shadow := by unfold answer; repeat' (first | rfl | (simp; done) | split | (dsimp only; split))
@[simp] theorem answer_sel (s : State) (r : Req) (op : ℕ) (st : Status) (b : List Byte) : ((answer s r op st b)).sel = s.sel := by unfold answer; repeat' (first | rfl | (simp; done) | split | (dsimp only; split))
@[simp] theorem answer_power (s : State) (r : Req) (op : ℕ) (st : Status) (b : List Byte) : ((answer s r op st b)).power = s.power := by unfold answer; repeat' (first | rfl | (simp; done) | split | (dsimp only; split))
@[simp] theorem answer_boot (s : State) (r : Req) (op : ℕ) (st : Status) (b : List Byte) : ((answer s r op st b)).boot = s.boot := by unfold answer; repeat' (first | rfl | (simp; done) | split | (dsimp only; split))
@[simp] theorem answer_fuses (s : State) (r : Req) (op : ℕ) (st : Status) (b : List Byte) : ((answer s r op st b)).fuses = s.fuses := by unfold answer; repeat' (first | rfl | (simp; done) | split | (dsimp only; split))
@[simp] theorem answer_sess (s : State) (r : Req) (op : ℕ) (st : Status) (b : List Byte) : ((answer s r op st b)).sess = s.sess := by unfold answer; repeat' (first | rfl | (simp; done) | split | (dsimp only; split))
@[simp] theorem answer_time (s : State) (r : Req) (op : ℕ) (st : Status) (b : List Byte) : ((answer s r op st b)).time = s.time := by unfold answer; repeat' (first | rfl | (simp; done) | split | (dsimp only; split))
@[simp] theorem answer_vault (s : State) (r : Req) (op : ℕ) (st : Status) (b : List Byte) : ((answer s r op st b)).vault = s.vault := by unfold answer; repeat' (first | rfl | (simp; done) | split | (dsimp only; split))
@[simp] theorem answer_nfc (s : State) (r : Req) (op : ℕ) (st : Status) (b : List Byte) : ((answer s r op st b)).nfc = s.nfc := by unfold answer; repeat' (first | rfl | (simp; done) | split | (dsimp only; split))
@[simp] theorem answer_ledger (s : State) (r : Req) (op : ℕ) (st : Status) (b : List Byte) : ((answer s r op st b)).ledger = s.ledger := by unfold answer; repeat' (first | rfl | (simp; done) | split | (dsimp only; split))
@[simp] theorem answer_lanes (s : State) (r : Req) (op : ℕ) (st : Status) (b : List Byte) : ((answer s r op st b)).lanes = s.lanes := by unfold answer; repeat' (first | rfl | (simp; done) | split | (dsimp only; split))
@[simp] theorem answer_aon (s : State) (r : Req) (op : ℕ) (st : Status) (b : List Byte) : ((answer s r op st b)).aon = s.aon := by unfold answer; repeat' (first | rfl | (simp; done) | split | (dsimp only; split))
@[simp] theorem answer_net (s : State) (r : Req) (op : ℕ) (st : Status) (b : List Byte) : ((answer s r op st b)).net = s.net := by unfold answer; repeat' (first | rfl | (simp; done) | split | (dsimp only; split))
@[simp] theorem answer_tables (s : State) (r : Req) (op : ℕ) (st : Status) (b : List Byte) : ((answer s r op st b)).tables = s.tables := by unfold answer; repeat' (first | rfl | (simp; done) | split | (dsimp only; split))
@[simp] theorem answer_ports (s : State) (r : Req) (op : ℕ) (st : Status) (b : List Byte) : ((answer s r op st b)).ports = s.ports := by unfold answer; repeat' (first | rfl | (simp; done) | split | (dsimp only; split))
@[simp] theorem answer_cipher (s : State) (r : Req) (op : ℕ) (st : Status) (b : List Byte) : ((answer s r op st b)).cipher = s.cipher := by unfold answer; repeat' (first | rfl | (simp; done) | split | (dsimp only; split))
@[simp] theorem answer_bridge (s : State) (r : Req) (op : ℕ) (st : Status) (b : List Byte) : ((answer s r op st b)).bridge = s.bridge := by unfold answer; repeat' (first | rfl | (simp; done) | split | (dsimp only; split))
@[simp] theorem answer_hlb (s : State) (r : Req) (op : ℕ) (st : Status) (b : List Byte) : ((answer s r op st b)).hlb = s.hlb := by unfold answer; repeat' (first | rfl | (simp; done) | split | (dsimp only; split))
@[simp] theorem answer_wheels (s : State) (r : Req) (op : ℕ) (st : Status) (b : List Byte) : ((answer s r op st b)).wheels = s.wheels := by unfold answer; repeat' (first | rfl | (simp; done) | split | (dsimp only; split))
@[simp] theorem answer_map (s : State) (r : Req) (op : ℕ) (st : Status) (b : List Byte) : ((answer s r op st b)).map = s.map := by unfold answer; repeat' (first | rfl | (simp; done) | split | (dsimp only; split))
@[simp] theorem answer_changes (s : State) (r : Req) (op : ℕ) (st : Status) (b : List Byte) : ((answer s r op st b)).changes = s.changes := by unfold answer; repeat' (first | rfl | (simp; done) | split | (dsimp only; split))
@[simp] theorem answer_mem (s : State) (r : Req) (op : ℕ) (st : Status) (b : List Byte) : ((answer s r op st b)).mem = s.mem := by unfold answer; repeat' (first | rfl | (simp; done) | split | (dsimp only; split))
@[simp] theorem answer_fresh (s : State) (r : Req) (op : ℕ) (st : Status) (b : List Byte) : ((answer s r op st b)).fresh = s.fresh := by unfold answer; repeat' (first | rfl | (simp; done) | split | (dsimp only; split))
@[simp] theorem answer_pending (s : State) (r : Req) (op : ℕ) (st : Status) (b : List Byte) : ((answer s r op st b)).pending = s.pending := by unfold answer; repeat' (first | rfl | (simp; done) | split | (dsimp only; split))
@[simp] theorem setFuseFlags_shadow (s : State) (marg : ℕ → Bool) (inv : ℕ → Bool) : ((setFuseFlags s marg inv)).shadow = s.shadow := rfl
@[simp] theorem setFuseFlags_sel (s : State) (marg : ℕ → Bool) (inv : ℕ → Bool) : ((setFuseFlags s marg inv)).sel = s.sel := rfl
@[simp] theorem setFuseFlags_power (s : State) (marg : ℕ → Bool) (inv : ℕ → Bool) : ((setFuseFlags s marg inv)).power = s.power := rfl
@[simp] theorem setFuseFlags_boot (s : State) (marg : ℕ → Bool) (inv : ℕ → Bool) : ((setFuseFlags s marg inv)).boot = s.boot := rfl
@[simp] theorem setFuseFlags_fuses (s : State) (marg : ℕ → Bool) (inv : ℕ → Bool) : ((setFuseFlags s marg inv)).fuses = s.fuses := rfl
@[simp] theorem setFuseFlags_sess (s : State) (marg : ℕ → Bool) (inv : ℕ → Bool) : ((setFuseFlags s marg inv)).sess = s.sess := rfl
@[simp] theorem setFuseFlags_deny (s : State) (marg : ℕ → Bool) (inv : ℕ → Bool) : ((setFuseFlags s marg inv)).deny = s.deny := rfl
@[simp] theorem setFuseFlags_disp (s : State) (marg : ℕ → Bool) (inv : ℕ → Bool) : ((setFuseFlags s marg inv)).disp = s.disp := rfl
@[simp] theorem setFuseFlags_time (s : State) (marg : ℕ → Bool) (inv : ℕ → Bool) : ((setFuseFlags s marg inv)).time = s.time := rfl
@[simp] theorem setFuseFlags_vault (s : State) (marg : ℕ → Bool) (inv : ℕ → Bool) : ((setFuseFlags s marg inv)).vault = s.vault := rfl
@[simp] theorem setFuseFlags_nfc (s : State) (marg : ℕ → Bool) (inv : ℕ → Bool) : ((setFuseFlags s marg inv)).nfc = s.nfc := rfl
@[simp] theorem setFuseFlags_ledger (s : State) (marg : ℕ → Bool) (inv : ℕ → Bool) : ((setFuseFlags s marg inv)).ledger = s.ledger := rfl
@[simp] theorem setFuseFlags_lanes (s : State) (marg : ℕ → Bool) (inv : ℕ → Bool) : ((setFuseFlags s marg inv)).lanes = s.lanes := rfl
@[simp] theorem setFuseFlags_aon (s : State) (marg : ℕ → Bool) (inv : ℕ → Bool) : ((setFuseFlags s marg inv)).aon = s.aon := rfl
@[simp] theorem setFuseFlags_net (s : State) (marg : ℕ → Bool) (inv : ℕ → Bool) : ((setFuseFlags s marg inv)).net = s.net := rfl
@[simp] theorem setFuseFlags_tables (s : State) (marg : ℕ → Bool) (inv : ℕ → Bool) : ((setFuseFlags s marg inv)).tables = s.tables := rfl
@[simp] theorem setFuseFlags_ports (s : State) (marg : ℕ → Bool) (inv : ℕ → Bool) : ((setFuseFlags s marg inv)).ports = s.ports := rfl
@[simp] theorem setFuseFlags_cipher (s : State) (marg : ℕ → Bool) (inv : ℕ → Bool) : ((setFuseFlags s marg inv)).cipher = s.cipher := rfl
@[simp] theorem setFuseFlags_bridge (s : State) (marg : ℕ → Bool) (inv : ℕ → Bool) : ((setFuseFlags s marg inv)).bridge = s.bridge := rfl
@[simp] theorem setFuseFlags_hlb (s : State) (marg : ℕ → Bool) (inv : ℕ → Bool) : ((setFuseFlags s marg inv)).hlb = s.hlb := rfl
@[simp] theorem setFuseFlags_wheels (s : State) (marg : ℕ → Bool) (inv : ℕ → Bool) : ((setFuseFlags s marg inv)).wheels = s.wheels := rfl
@[simp] theorem setFuseFlags_map (s : State) (marg : ℕ → Bool) (inv : ℕ → Bool) : ((setFuseFlags s marg inv)).map = s.map := rfl
@[simp] theorem setFuseFlags_changes (s : State) (marg : ℕ → Bool) (inv : ℕ → Bool) : ((setFuseFlags s marg inv)).changes = s.changes := rfl
@[simp] theorem setFuseFlags_bgs (s : State) (marg : ℕ → Bool) (inv : ℕ → Bool) : ((setFuseFlags s marg inv)).bgs = s.bgs := rfl
@[simp] theorem setFuseFlags_mem (s : State) (marg : ℕ → Bool) (inv : ℕ → Bool) : ((setFuseFlags s marg inv)).mem = s.mem := rfl
@[simp] theorem setFuseFlags_freeze (s : State) (marg : ℕ → Bool) (inv : ℕ → Bool) : ((setFuseFlags s marg inv)).freeze = s.freeze := rfl
@[simp] theorem setFuseFlags_out (s : State) (marg : ℕ → Bool) (inv : ℕ → Bool) : ((setFuseFlags s marg inv)).out = s.out := rfl
@[simp] theorem setFuseFlags_fresh (s : State) (marg : ℕ → Bool) (inv : ℕ → Bool) : ((setFuseFlags s marg inv)).fresh = s.fresh := rfl
@[simp] theorem setFuseFlags_pending (s : State) (marg : ℕ → Bool) (inv : ℕ → Bool) : ((setFuseFlags s marg inv)).pending = s.pending := rfl
@[simp] theorem showFuses_shadow (s : State) : ((showFuses s)).shadow = s.shadow := rfl
@[simp] theorem showFuses_sel (s : State) : ((showFuses s)).sel = s.sel := rfl
@[simp] theorem showFuses_power (s : State) : ((showFuses s)).power = s.power := rfl
@[simp] theorem showFuses_boot (s : State) : ((showFuses s)).boot = s.boot := rfl
@[simp] theorem showFuses_fuses (s : State) : ((showFuses s)).fuses = s.fuses := rfl
@[simp] theorem showFuses_sess (s : State) : ((showFuses s)).sess = s.sess := rfl
@[simp] theorem showFuses_deny (s : State) : ((showFuses s)).deny = s.deny := rfl
@[simp] theorem showFuses_disp (s : State) : ((showFuses s)).disp = s.disp := rfl
@[simp] theorem showFuses_time (s : State) : ((showFuses s)).time = s.time := rfl
@[simp] theorem showFuses_vault (s : State) : ((showFuses s)).vault = s.vault := rfl
@[simp] theorem showFuses_nfc (s : State) : ((showFuses s)).nfc = s.nfc := rfl
@[simp] theorem showFuses_ledger (s : State) : ((showFuses s)).ledger = s.ledger := rfl
@[simp] theorem showFuses_lanes (s : State) : ((showFuses s)).lanes = s.lanes := rfl
@[simp] theorem showFuses_aon (s : State) : ((showFuses s)).aon = s.aon := rfl
@[simp] theorem showFuses_net (s : State) : ((showFuses s)).net = s.net := rfl
@[simp] theorem showFuses_tables (s : State) : ((showFuses s)).tables = s.tables := rfl
@[simp] theorem showFuses_ports (s : State) : ((showFuses s)).ports = s.ports := rfl
@[simp] theorem showFuses_cipher (s : State) : ((showFuses s)).cipher = s.cipher := rfl
@[simp] theorem showFuses_bridge (s : State) : ((showFuses s)).bridge = s.bridge := rfl
@[simp] theorem showFuses_hlb (s : State) : ((showFuses s)).hlb = s.hlb := rfl
@[simp] theorem showFuses_wheels (s : State) : ((showFuses s)).wheels = s.wheels := rfl
@[simp] theorem showFuses_map (s : State) : ((showFuses s)).map = s.map := rfl
@[simp] theorem showFuses_changes (s : State) : ((showFuses s)).changes = s.changes := rfl
@[simp] theorem showFuses_bgs (s : State) : ((showFuses s)).bgs = s.bgs := rfl
@[simp] theorem showFuses_mem (s : State) : ((showFuses s)).mem = s.mem := rfl
@[simp] theorem showFuses_freeze (s : State) : ((showFuses s)).freeze = s.freeze := rfl
@[simp] theorem showFuses_out (s : State) : ((showFuses s)).out = s.out := rfl
@[simp] theorem showFuses_fresh (s : State) : ((showFuses s)).fresh = s.fresh := rfl
@[simp] theorem showFuses_pending (s : State) : ((showFuses s)).pending = s.pending := rfl
@[simp] theorem governFuses_rf (s : State) : ((governFuses s)).rf = s.rf := rfl
@[simp] theorem governFuses_shadow (s : State) : ((governFuses s)).shadow = s.shadow := rfl
@[simp] theorem governFuses_sel (s : State) : ((governFuses s)).sel = s.sel := rfl
@[simp] theorem governFuses_power (s : State) : ((governFuses s)).power = s.power := rfl
@[simp] theorem governFuses_boot (s : State) : ((governFuses s)).boot = s.boot := rfl
@[simp] theorem governFuses_sess (s : State) : ((governFuses s)).sess = s.sess := rfl
@[simp] theorem governFuses_deny (s : State) : ((governFuses s)).deny = s.deny := rfl
@[simp] theorem governFuses_disp (s : State) : ((governFuses s)).disp = s.disp := rfl
@[simp] theorem governFuses_time (s : State) : ((governFuses s)).time = s.time := rfl
@[simp] theorem governFuses_vault (s : State) : ((governFuses s)).vault = s.vault := rfl
@[simp] theorem governFuses_nfc (s : State) : ((governFuses s)).nfc = s.nfc := rfl
@[simp] theorem governFuses_ledger (s : State) : ((governFuses s)).ledger = s.ledger := rfl
@[simp] theorem governFuses_lanes (s : State) : ((governFuses s)).lanes = s.lanes := rfl
@[simp] theorem governFuses_aon (s : State) : ((governFuses s)).aon = s.aon := rfl
@[simp] theorem governFuses_net (s : State) : ((governFuses s)).net = s.net := rfl
@[simp] theorem governFuses_tables (s : State) : ((governFuses s)).tables = s.tables := rfl
@[simp] theorem governFuses_ports (s : State) : ((governFuses s)).ports = s.ports := rfl
@[simp] theorem governFuses_cipher (s : State) : ((governFuses s)).cipher = s.cipher := rfl
@[simp] theorem governFuses_bridge (s : State) : ((governFuses s)).bridge = s.bridge := rfl
@[simp] theorem governFuses_hlb (s : State) : ((governFuses s)).hlb = s.hlb := rfl
@[simp] theorem governFuses_wheels (s : State) : ((governFuses s)).wheels = s.wheels := rfl
@[simp] theorem governFuses_map (s : State) : ((governFuses s)).map = s.map := rfl
@[simp] theorem governFuses_changes (s : State) : ((governFuses s)).changes = s.changes := rfl
@[simp] theorem governFuses_bgs (s : State) : ((governFuses s)).bgs = s.bgs := rfl
@[simp] theorem governFuses_mem (s : State) : ((governFuses s)).mem = s.mem := rfl
@[simp] theorem governFuses_freeze (s : State) : ((governFuses s)).freeze = s.freeze := rfl
@[simp] theorem governFuses_out (s : State) : ((governFuses s)).out = s.out := rfl
@[simp] theorem governFuses_fresh (s : State) : ((governFuses s)).fresh = s.fresh := rfl
@[simp] theorem governFuses_pending (s : State) : ((governFuses s)).pending = s.pending := rfl
@[simp] theorem spillRail_shadow (s : State) : ((spillRail s)).shadow = s.shadow := by unfold spillRail; repeat' (first | rfl | (simp; done) | split | (dsimp only; split))
@[simp] theorem spillRail_sel (s : State) : ((spillRail s)).sel = s.sel := by unfold spillRail; repeat' (first | rfl | (simp; done) | split | (dsimp only; split))
@[simp] theorem spillRail_boot (s : State) : ((spillRail s)).boot = s.boot := by unfold spillRail; repeat' (first | rfl | (simp; done) | split | (dsimp only; split))
@[simp] theorem spillRail_fuses (s : State) : ((spillRail s)).fuses = s.fuses := by unfold spillRail; repeat' (first | rfl | (simp; done) | split | (dsimp only; split))
@[simp] theorem spillRail_sess (s : State) : ((spillRail s)).sess = s.sess := by unfold spillRail; repeat' (first | rfl | (simp; done) | split | (dsimp only; split))
@[simp] theorem spillRail_deny (s : State) : ((spillRail s)).deny = s.deny := by unfold spillRail; repeat' (first | rfl | (simp; done) | split | (dsimp only; split))
@[simp] theorem spillRail_disp (s : State) : ((spillRail s)).disp = s.disp := by unfold spillRail; repeat' (first | rfl | (simp; done) | split | (dsimp only; split))
@[simp] theorem spillRail_time (s : State) : ((spillRail s)).time = s.time := by unfold spillRail; repeat' (first | rfl | (simp; done) | split | (dsimp only; split))
@[simp] theorem spillRail_vault (s : State) : ((spillRail s)).vault = s.vault := by unfold spillRail; repeat' (first | rfl | (simp; done) | split | (dsimp only; split))
@[simp] theorem spillRail_nfc (s : State) : ((spillRail s)).nfc = s.nfc := by unfold spillRail; repeat' (first | rfl | (simp; done) | split | (dsimp only; split))
@[simp] theorem spillRail_ledger (s : State) : ((spillRail s)).ledger = s.ledger := by unfold spillRail; repeat' (first | rfl | (simp; done) | split | (dsimp only; split))
@[simp] theorem spillRail_lanes (s : State) : ((spillRail s)).lanes = s.lanes := by unfold spillRail; repeat' (first | rfl | (simp; done) | split | (dsimp only; split))
@[simp] theorem spillRail_aon (s : State) : ((spillRail s)).aon = s.aon := by unfold spillRail; repeat' (first | rfl | (simp; done) | split | (dsimp only; split))
@[simp] theorem spillRail_net (s : State) : ((spillRail s)).net = s.net := by unfold spillRail; repeat' (first | rfl | (simp; done) | split | (dsimp only; split))
@[simp] theorem spillRail_tables (s : State) : ((spillRail s)).tables = s.tables := by unfold spillRail; repeat' (first | rfl | (simp; done) | split | (dsimp only; split))
@[simp] theorem spillRail_ports (s : State) : ((spillRail s)).ports = s.ports := by unfold spillRail; repeat' (first | rfl | (simp; done) | split | (dsimp only; split))
@[simp] theorem spillRail_cipher (s : State) : ((spillRail s)).cipher = s.cipher := by unfold spillRail; repeat' (first | rfl | (simp; done) | split | (dsimp only; split))
@[simp] theorem spillRail_bridge (s : State) : ((spillRail s)).bridge = s.bridge := by unfold spillRail; repeat' (first | rfl | (simp; done) | split | (dsimp only; split))
@[simp] theorem spillRail_hlb (s : State) : ((spillRail s)).hlb = s.hlb := by unfold spillRail; repeat' (first | rfl | (simp; done) | split | (dsimp only; split))
@[simp] theorem spillRail_wheels (s : State) : ((spillRail s)).wheels = s.wheels := by unfold spillRail; repeat' (first | rfl | (simp; done) | split | (dsimp only; split))
@[simp] theorem spillRail_map (s : State) : ((spillRail s)).map = s.map := by unfold spillRail; repeat' (first | rfl | (simp; done) | split | (dsimp only; split))
@[simp] theorem spillRail_changes (s : State) : ((spillRail s)).changes = s.changes := by unfold spillRail; repeat' (first | rfl | (simp; done) | split | (dsimp only; split))
@[simp] theorem spillRail_bgs (s : State) : ((spillRail s)).bgs = s.bgs := by unfold spillRail; repeat' (first | rfl | (simp; done) | split | (dsimp only; split))
@[simp] theorem spillRail_mem (s : State) : ((spillRail s)).mem = s.mem := by unfold spillRail; repeat' (first | rfl | (simp; done) | split | (dsimp only; split))
@[simp] theorem spillRail_freeze (s : State) : ((spillRail s)).freeze = s.freeze := by unfold spillRail; repeat' (first | rfl | (simp; done) | split | (dsimp only; split))
@[simp] theorem spillRail_out (s : State) : ((spillRail s)).out = s.out := by unfold spillRail; repeat' (first | rfl | (simp; done) | split | (dsimp only; split))
@[simp] theorem spillRail_fresh (s : State) : ((spillRail s)).fresh = s.fresh := by unfold spillRail; repeat' (first | rfl | (simp; done) | split | (dsimp only; split))
@[simp] theorem spillRail_pending (s : State) : ((spillRail s)).pending = s.pending := by unfold spillRail; repeat' (first | rfl | (simp; done) | split | (dsimp only; split))
@[simp] theorem sampleStraps_shadow (s : State) (straps : BitVec 4) (rbiasOk : Bool) : ((sampleStraps s straps rbiasOk)).shadow = s.shadow := by unfold sampleStraps; (try dsimp only); repeat' (first | rfl | (simp; done) | (refine (foldl_field State.shadow (fun _ _ => ?_) _ _).trans ?_) | split)
@[simp] theorem sampleStraps_sel (s : State) (straps : BitVec 4) (rbiasOk : Bool) : ((sampleStraps s straps rbiasOk)).sel = s.sel := by unfold sampleStraps; (try dsimp only); repeat' (first | rfl | (simp; done) | (refine (foldl_field State.sel (fun _ _ => ?_) _ _).trans ?_) | split)
@[simp] theorem sampleStraps_boot (s : State) (straps : BitVec 4) (rbiasOk : Bool) : ((sampleStraps s straps rbiasOk)).boot = s.boot := by unfold sampleStraps; (try dsimp only); repeat' (first | rfl | (simp; done) | (refine (foldl_field State.boot (fun _ _ => ?_) _ _).trans ?_) | split)
@[simp] theorem sampleStraps_fuses (s : State) (straps : BitVec 4) (rbiasOk : Bool) : ((sampleStraps s straps rbiasOk)).fuses = s.fuses := by unfold sampleStraps; (try dsimp only); repeat' (first | rfl | (simp; done) | (refine (foldl_field State.fuses (fun _ _ => ?_) _ _).trans ?_) | split)
@[simp] theorem sampleStraps_sess (s : State) (straps : BitVec 4) (rbiasOk : Bool) : ((sampleStraps s straps rbiasOk)).sess = s.sess := by unfold sampleStraps; (try dsimp only); repeat' (first | rfl | (simp; done) | (refine (foldl_field State.sess (fun _ _ => ?_) _ _).trans ?_) | split)
@[simp] theorem sampleStraps_deny (s : State) (straps : BitVec 4) (rbiasOk : Bool) : ((sampleStraps s straps rbiasOk)).deny = s.deny := by unfold sampleStraps; (try dsimp only); repeat' (first | rfl | (simp; done) | (refine (foldl_field State.deny (fun _ _ => ?_) _ _).trans ?_) | split)
@[simp] theorem sampleStraps_disp (s : State) (straps : BitVec 4) (rbiasOk : Bool) : ((sampleStraps s straps rbiasOk)).disp = s.disp := by unfold sampleStraps; (try dsimp only); repeat' (first | rfl | (simp; done) | (refine (foldl_field State.disp (fun _ _ => ?_) _ _).trans ?_) | split)
@[simp] theorem sampleStraps_time (s : State) (straps : BitVec 4) (rbiasOk : Bool) : ((sampleStraps s straps rbiasOk)).time = s.time := by unfold sampleStraps; (try dsimp only); repeat' (first | rfl | (simp; done) | (refine (foldl_field State.time (fun _ _ => ?_) _ _).trans ?_) | split)
@[simp] theorem sampleStraps_vault (s : State) (straps : BitVec 4) (rbiasOk : Bool) : ((sampleStraps s straps rbiasOk)).vault = s.vault := by unfold sampleStraps; (try dsimp only); repeat' (first | rfl | (simp; done) | (refine (foldl_field State.vault (fun _ _ => ?_) _ _).trans ?_) | split)
@[simp] theorem sampleStraps_nfc (s : State) (straps : BitVec 4) (rbiasOk : Bool) : ((sampleStraps s straps rbiasOk)).nfc = s.nfc := by unfold sampleStraps; (try dsimp only); repeat' (first | rfl | (simp; done) | (refine (foldl_field State.nfc (fun _ _ => ?_) _ _).trans ?_) | split)
@[simp] theorem sampleStraps_ledger (s : State) (straps : BitVec 4) (rbiasOk : Bool) : ((sampleStraps s straps rbiasOk)).ledger = s.ledger := by unfold sampleStraps; (try dsimp only); repeat' (first | rfl | (simp; done) | (refine (foldl_field State.ledger (fun _ _ => ?_) _ _).trans ?_) | split)
@[simp] theorem sampleStraps_lanes (s : State) (straps : BitVec 4) (rbiasOk : Bool) : ((sampleStraps s straps rbiasOk)).lanes = s.lanes := by unfold sampleStraps; (try dsimp only); repeat' (first | rfl | (simp; done) | (refine (foldl_field State.lanes (fun _ _ => ?_) _ _).trans ?_) | split)
@[simp] theorem sampleStraps_aon (s : State) (straps : BitVec 4) (rbiasOk : Bool) : ((sampleStraps s straps rbiasOk)).aon = s.aon := by unfold sampleStraps; (try dsimp only); repeat' (first | rfl | (simp; done) | (refine (foldl_field State.aon (fun _ _ => ?_) _ _).trans ?_) | split)
@[simp] theorem sampleStraps_net (s : State) (straps : BitVec 4) (rbiasOk : Bool) : ((sampleStraps s straps rbiasOk)).net = s.net := by unfold sampleStraps; (try dsimp only); repeat' (first | rfl | (simp; done) | (refine (foldl_field State.net (fun _ _ => ?_) _ _).trans ?_) | split)
@[simp] theorem sampleStraps_tables (s : State) (straps : BitVec 4) (rbiasOk : Bool) : ((sampleStraps s straps rbiasOk)).tables = s.tables := by unfold sampleStraps; (try dsimp only); repeat' (first | rfl | (simp; done) | (refine (foldl_field State.tables (fun _ _ => ?_) _ _).trans ?_) | split)
@[simp] theorem sampleStraps_ports (s : State) (straps : BitVec 4) (rbiasOk : Bool) : ((sampleStraps s straps rbiasOk)).ports = s.ports := by unfold sampleStraps; (try dsimp only); repeat' (first | rfl | (simp; done) | (refine (foldl_field State.ports (fun _ _ => ?_) _ _).trans ?_) | split)
@[simp] theorem sampleStraps_cipher (s : State) (straps : BitVec 4) (rbiasOk : Bool) : ((sampleStraps s straps rbiasOk)).cipher = s.cipher := by unfold sampleStraps; (try dsimp only); repeat' (first | rfl | (simp; done) | (refine (foldl_field State.cipher (fun _ _ => ?_) _ _).trans ?_) | split)
@[simp] theorem sampleStraps_bridge (s : State) (straps : BitVec 4) (rbiasOk : Bool) : ((sampleStraps s straps rbiasOk)).bridge = s.bridge := by unfold sampleStraps; (try dsimp only); repeat' (first | rfl | (simp; done) | (refine (foldl_field State.bridge (fun _ _ => ?_) _ _).trans ?_) | split)
@[simp] theorem sampleStraps_hlb (s : State) (straps : BitVec 4) (rbiasOk : Bool) : ((sampleStraps s straps rbiasOk)).hlb = s.hlb := by unfold sampleStraps; (try dsimp only); repeat' (first | rfl | (simp; done) | (refine (foldl_field State.hlb (fun _ _ => ?_) _ _).trans ?_) | split)
@[simp] theorem sampleStraps_wheels (s : State) (straps : BitVec 4) (rbiasOk : Bool) : ((sampleStraps s straps rbiasOk)).wheels = s.wheels := by unfold sampleStraps; (try dsimp only); repeat' (first | rfl | (simp; done) | (refine (foldl_field State.wheels (fun _ _ => ?_) _ _).trans ?_) | split)
@[simp] theorem sampleStraps_map (s : State) (straps : BitVec 4) (rbiasOk : Bool) : ((sampleStraps s straps rbiasOk)).map = s.map := by unfold sampleStraps; (try dsimp only); repeat' (first | rfl | (simp; done) | (refine (foldl_field State.map (fun _ _ => ?_) _ _).trans ?_) | split)
@[simp] theorem sampleStraps_changes (s : State) (straps : BitVec 4) (rbiasOk : Bool) : ((sampleStraps s straps rbiasOk)).changes = s.changes := by unfold sampleStraps; (try dsimp only); repeat' (first | rfl | (simp; done) | (refine (foldl_field State.changes (fun _ _ => ?_) _ _).trans ?_) | split)
@[simp] theorem sampleStraps_bgs (s : State) (straps : BitVec 4) (rbiasOk : Bool) : ((sampleStraps s straps rbiasOk)).bgs = s.bgs := by unfold sampleStraps; (try dsimp only); repeat' (first | rfl | (simp; done) | (refine (foldl_field State.bgs (fun _ _ => ?_) _ _).trans ?_) | split)
@[simp] theorem sampleStraps_mem (s : State) (straps : BitVec 4) (rbiasOk : Bool) : ((sampleStraps s straps rbiasOk)).mem = s.mem := by unfold sampleStraps; (try dsimp only); repeat' (first | rfl | (simp; done) | (refine (foldl_field State.mem (fun _ _ => ?_) _ _).trans ?_) | split)
@[simp] theorem sampleStraps_freeze (s : State) (straps : BitVec 4) (rbiasOk : Bool) : ((sampleStraps s straps rbiasOk)).freeze = s.freeze := by unfold sampleStraps; (try dsimp only); repeat' (first | rfl | (simp; done) | (refine (foldl_field State.freeze (fun _ _ => ?_) _ _).trans ?_) | split)
@[simp] theorem sampleStraps_out (s : State) (straps : BitVec 4) (rbiasOk : Bool) : ((sampleStraps s straps rbiasOk)).out = s.out := by unfold sampleStraps; (try dsimp only); repeat' (first | rfl | (simp; done) | (refine (foldl_field State.out (fun _ _ => ?_) _ _).trans ?_) | split)
@[simp] theorem sampleStraps_fresh (s : State) (straps : BitVec 4) (rbiasOk : Bool) : ((sampleStraps s straps rbiasOk)).fresh = s.fresh := by unfold sampleStraps; (try dsimp only); repeat' (first | rfl | (simp; done) | (refine (foldl_field State.fresh (fun _ _ => ?_) _ _).trans ?_) | split)
@[simp] theorem sampleStraps_pending (s : State) (straps : BitVec 4) (rbiasOk : Bool) : ((sampleStraps s straps rbiasOk)).pending = s.pending := by unfold sampleStraps; (try dsimp only); repeat' (first | rfl | (simp; done) | (refine (foldl_field State.pending (fun _ _ => ?_) _ _).trans ?_) | split)
@[simp] theorem domPass_shadow (n : ℕ) (s : State) (k : ℕ) : ((domPass n s k)).shadow = s.shadow := by unfold domPass; repeat' (first | rfl | (simp; done) | split | (dsimp only; split))
@[simp] theorem domPass_sel (n : ℕ) (s : State) (k : ℕ) : ((domPass n s k)).sel = s.sel := by unfold domPass; repeat' (first | rfl | (simp; done) | split | (dsimp only; split))
@[simp] theorem domPass_power (n : ℕ) (s : State) (k : ℕ) : ((domPass n s k)).power = s.power := by unfold domPass; repeat' (first | rfl | (simp; done) | split | (dsimp only; split))
@[simp] theorem domPass_boot (n : ℕ) (s : State) (k : ℕ) : ((domPass n s k)).boot = s.boot := by unfold domPass; repeat' (first | rfl | (simp; done) | split | (dsimp only; split))
@[simp] theorem domPass_fuses (n : ℕ) (s : State) (k : ℕ) : ((domPass n s k)).fuses = s.fuses := by unfold domPass; repeat' (first | rfl | (simp; done) | split | (dsimp only; split))
@[simp] theorem domPass_sess (n : ℕ) (s : State) (k : ℕ) : ((domPass n s k)).sess = s.sess := by unfold domPass; repeat' (first | rfl | (simp; done) | split | (dsimp only; split))
@[simp] theorem domPass_deny (n : ℕ) (s : State) (k : ℕ) : ((domPass n s k)).deny = s.deny := by unfold domPass; repeat' (first | rfl | (simp; done) | split | (dsimp only; split))
@[simp] theorem domPass_disp (n : ℕ) (s : State) (k : ℕ) : ((domPass n s k)).disp = s.disp := by unfold domPass; repeat' (first | rfl | (simp; done) | split | (dsimp only; split))
@[simp] theorem domPass_vault (n : ℕ) (s : State) (k : ℕ) : ((domPass n s k)).vault = s.vault := by unfold domPass; repeat' (first | rfl | (simp; done) | split | (dsimp only; split))
@[simp] theorem domPass_nfc (n : ℕ) (s : State) (k : ℕ) : ((domPass n s k)).nfc = s.nfc := by unfold domPass; repeat' (first | rfl | (simp; done) | split | (dsimp only; split))
@[simp] theorem domPass_ledger (n : ℕ) (s : State) (k : ℕ) : ((domPass n s k)).ledger = s.ledger := by unfold domPass; repeat' (first | rfl | (simp; done) | split | (dsimp only; split))
@[simp] theorem domPass_lanes (n : ℕ) (s : State) (k : ℕ) : ((domPass n s k)).lanes = s.lanes := by unfold domPass; repeat' (first | rfl | (simp; done) | split | (dsimp only; split))
@[simp] theorem domPass_aon (n : ℕ) (s : State) (k : ℕ) : ((domPass n s k)).aon = s.aon := by unfold domPass; repeat' (first | rfl | (simp; done) | split | (dsimp only; split))
@[simp] theorem domPass_net (n : ℕ) (s : State) (k : ℕ) : ((domPass n s k)).net = s.net := by unfold domPass; repeat' (first | rfl | (simp; done) | split | (dsimp only; split))
@[simp] theorem domPass_tables (n : ℕ) (s : State) (k : ℕ) : ((domPass n s k)).tables = s.tables := by unfold domPass; repeat' (first | rfl | (simp; done) | split | (dsimp only; split))
@[simp] theorem domPass_ports (n : ℕ) (s : State) (k : ℕ) : ((domPass n s k)).ports = s.ports := by unfold domPass; repeat' (first | rfl | (simp; done) | split | (dsimp only; split))
@[simp] theorem domPass_cipher (n : ℕ) (s : State) (k : ℕ) : ((domPass n s k)).cipher = s.cipher := by unfold domPass; repeat' (first | rfl | (simp; done) | split | (dsimp only; split))
@[simp] theorem domPass_bridge (n : ℕ) (s : State) (k : ℕ) : ((domPass n s k)).bridge = s.bridge := by unfold domPass; repeat' (first | rfl | (simp; done) | split | (dsimp only; split))
@[simp] theorem domPass_hlb (n : ℕ) (s : State) (k : ℕ) : ((domPass n s k)).hlb = s.hlb := by unfold domPass; repeat' (first | rfl | (simp; done) | split | (dsimp only; split))
@[simp] theorem domPass_wheels (n : ℕ) (s : State) (k : ℕ) : ((domPass n s k)).wheels = s.wheels := by unfold domPass; repeat' (first | rfl | (simp; done) | split | (dsimp only; split))
@[simp] theorem domPass_map (n : ℕ) (s : State) (k : ℕ) : ((domPass n s k)).map = s.map := by unfold domPass; repeat' (first | rfl | (simp; done) | split | (dsimp only; split))
@[simp] theorem domPass_changes (n : ℕ) (s : State) (k : ℕ) : ((domPass n s k)).changes = s.changes := by unfold domPass; repeat' (first | rfl | (simp; done) | split | (dsimp only; split))
@[simp] theorem domPass_mem (n : ℕ) (s : State) (k : ℕ) : ((domPass n s k)).mem = s.mem := by unfold domPass; repeat' (first | rfl | (simp; done) | split | (dsimp only; split))
@[simp] theorem domPass_out (n : ℕ) (s : State) (k : ℕ) : ((domPass n s k)).out = s.out := by unfold domPass; repeat' (first | rfl | (simp; done) | split | (dsimp only; split))
@[simp] theorem domPass_fresh (n : ℕ) (s : State) (k : ℕ) : ((domPass n s k)).fresh = s.fresh := by unfold domPass; repeat' (first | rfl | (simp; done) | split | (dsimp only; split))
@[simp] theorem domPass_pending (n : ℕ) (s : State) (k : ℕ) : ((domPass n s k)).pending = s.pending := by unfold domPass; repeat' (first | rfl | (simp; done) | split | (dsimp only; split))
@[simp] theorem domsPass_shadow (n : ℕ) (s : State) : ((domsPass n s)).shadow = s.shadow := by unfold domsPass; (try dsimp only); repeat' (first | rfl | (simp; done) | (refine (foldl_field State.shadow (fun _ _ => ?_) _ _).trans ?_) | split)
@[simp] theorem domsPass_sel (n : ℕ) (s : State) : ((domsPass n s)).sel = s.sel := by unfold domsPass; (try dsimp only); repeat' (first | rfl | (simp; done) | (refine (foldl_field State.sel (fun _ _ => ?_) _ _).trans ?_) | split)
@[simp] theorem domsPass_power (n : ℕ) (s : State) : ((domsPass n s)).power = s.power := by unfold domsPass; (try dsimp only); repeat' (first | rfl | (simp; done) | (refine (foldl_field State.power (fun _ _ => ?_) _ _).trans ?_) | split)
@[simp] theorem domsPass_boot (n : ℕ) (s : State) : ((domsPass n s)).boot = s.boot := by unfold domsPass; (try dsimp only); repeat' (first | rfl | (simp; done) | (refine (foldl_field State.boot (fun _ _ => ?_) _ _).trans ?_) | split)
@[simp] theorem domsPass_fuses (n : ℕ) (s : State) : ((domsPass n s)).fuses = s.fuses := by unfold domsPass; (try dsimp only); repeat' (first | rfl | (simp; done) | (refine (foldl_field State.fuses (fun _ _ => ?_) _ _).trans ?_) | split)
@[simp] theorem domsPass_sess (n : ℕ) (s : State) : ((domsPass n s)).sess = s.sess := by unfold domsPass; (try dsimp only); repeat' (first | rfl | (simp; done) | (refine (foldl_field State.sess (fun _ _ => ?_) _ _).trans ?_) | split)
@[simp] theorem domsPass_deny (n : ℕ) (s : State) : ((domsPass n s)).deny = s.deny := by unfold domsPass; (try dsimp only); repeat' (first | rfl | (simp; done) | (refine (foldl_field State.deny (fun _ _ => ?_) _ _).trans ?_) | split)
@[simp] theorem domsPass_disp (n : ℕ) (s : State) : ((domsPass n s)).disp = s.disp := by unfold domsPass; (try dsimp only); repeat' (first | rfl | (simp; done) | (refine (foldl_field State.disp (fun _ _ => ?_) _ _).trans ?_) | split)
@[simp] theorem domsPass_vault (n : ℕ) (s : State) : ((domsPass n s)).vault = s.vault := by unfold domsPass; (try dsimp only); repeat' (first | rfl | (simp; done) | (refine (foldl_field State.vault (fun _ _ => ?_) _ _).trans ?_) | split)
@[simp] theorem domsPass_nfc (n : ℕ) (s : State) : ((domsPass n s)).nfc = s.nfc := by unfold domsPass; (try dsimp only); repeat' (first | rfl | (simp; done) | (refine (foldl_field State.nfc (fun _ _ => ?_) _ _).trans ?_) | split)
@[simp] theorem domsPass_ledger (n : ℕ) (s : State) : ((domsPass n s)).ledger = s.ledger := by unfold domsPass; (try dsimp only); repeat' (first | rfl | (simp; done) | (refine (foldl_field State.ledger (fun _ _ => ?_) _ _).trans ?_) | split)
@[simp] theorem domsPass_lanes (n : ℕ) (s : State) : ((domsPass n s)).lanes = s.lanes := by unfold domsPass; (try dsimp only); repeat' (first | rfl | (simp; done) | (refine (foldl_field State.lanes (fun _ _ => ?_) _ _).trans ?_) | split)
@[simp] theorem domsPass_aon (n : ℕ) (s : State) : ((domsPass n s)).aon = s.aon := by unfold domsPass; (try dsimp only); repeat' (first | rfl | (simp; done) | (refine (foldl_field State.aon (fun _ _ => ?_) _ _).trans ?_) | split)
@[simp] theorem domsPass_net (n : ℕ) (s : State) : ((domsPass n s)).net = s.net := by unfold domsPass; (try dsimp only); repeat' (first | rfl | (simp; done) | (refine (foldl_field State.net (fun _ _ => ?_) _ _).trans ?_) | split)
@[simp] theorem domsPass_tables (n : ℕ) (s : State) : ((domsPass n s)).tables = s.tables := by unfold domsPass; (try dsimp only); repeat' (first | rfl | (simp; done) | (refine (foldl_field State.tables (fun _ _ => ?_) _ _).trans ?_) | split)
@[simp] theorem domsPass_ports (n : ℕ) (s : State) : ((domsPass n s)).ports = s.ports := by unfold domsPass; (try dsimp only); repeat' (first | rfl | (simp; done) | (refine (foldl_field State.ports (fun _ _ => ?_) _ _).trans ?_) | split)
@[simp] theorem domsPass_cipher (n : ℕ) (s : State) : ((domsPass n s)).cipher = s.cipher := by unfold domsPass; (try dsimp only); repeat' (first | rfl | (simp; done) | (refine (foldl_field State.cipher (fun _ _ => ?_) _ _).trans ?_) | split)
@[simp] theorem domsPass_bridge (n : ℕ) (s : State) : ((domsPass n s)).bridge = s.bridge := by unfold domsPass; (try dsimp only); repeat' (first | rfl | (simp; done) | (refine (foldl_field State.bridge (fun _ _ => ?_) _ _).trans ?_) | split)
@[simp] theorem domsPass_hlb (n : ℕ) (s : State) : ((domsPass n s)).hlb = s.hlb := by unfold domsPass; (try dsimp only); repeat' (first | rfl | (simp; done) | (refine (foldl_field State.hlb (fun _ _ => ?_) _ _).trans ?_) | split)
@[simp] theorem domsPass_wheels (n : ℕ) (s : State) : ((domsPass n s)).wheels = s.wheels := by unfold domsPass; (try dsimp only); repeat' (first | rfl | (simp; done) | (refine (foldl_field State.wheels (fun _ _ => ?_) _ _).trans ?_) | split)
@[simp] theorem domsPass_map (n : ℕ) (s : State) : ((domsPass n s)).map = s.map := by unfold domsPass; (try dsimp only); repeat' (first | rfl | (simp; done) | (refine (foldl_field State.map (fun _ _ => ?_) _ _).trans ?_) | split)
@[simp] theorem domsPass_changes (n : ℕ) (s : State) : ((domsPass n s)).changes = s.changes := by unfold domsPass; (try dsimp only); repeat' (first | rfl | (simp; done) | (refine (foldl_field State.changes (fun _ _ => ?_) _ _).trans ?_) | split)
@[simp] theorem domsPass_mem (n : ℕ) (s : State) : ((domsPass n s)).mem = s.mem := by unfold domsPass; (try dsimp only); repeat' (first | rfl | (simp; done) | (refine (foldl_field State.mem (fun _ _ => ?_) _ _).trans ?_) | split)
@[simp] theorem domsPass_out (n : ℕ) (s : State) : ((domsPass n s)).out = s.out := by unfold domsPass; (try dsimp only); repeat' (first | rfl | (simp; done) | (refine (foldl_field State.out (fun _ _ => ?_) _ _).trans ?_) | split)
@[simp] theorem domsPass_fresh (n : ℕ) (s : State) : ((domsPass n s)).fresh = s.fresh := by unfold domsPass; (try dsimp only); repeat' (first | rfl | (simp; done) | (refine (foldl_field State.fresh (fun _ _ => ?_) _ _).trans ?_) | split)
@[simp] theorem domsPass_pending (n : ℕ) (s : State) : ((domsPass n s)).pending = s.pending := by unfold domsPass; (try dsimp only); repeat' (first | rfl | (simp; done) | (refine (foldl_field State.pending (fun _ _ => ?_) _ _).trans ?_) | split)
@[simp] theorem useSeq_shadow (s : State) : ((useSeq s)).shadow = s.shadow := by unfold useSeq; repeat' (first | rfl | (simp; done) | split | (dsimp only; split))
@[simp] theorem useSeq_sel (s : State) : ((useSeq s)).sel = s.sel := by unfold useSeq; repeat' (first | rfl | (simp; done) | split | (dsimp only; split))
@[simp] theorem useSeq_power (s : State) : ((useSeq s)).power = s.power := by unfold useSeq; repeat' (first | rfl | (simp; done) | split | (dsimp only; split))
@[simp] theorem useSeq_boot (s : State) : ((useSeq s)).boot = s.boot := by unfold useSeq; repeat' (first | rfl | (simp; done) | split | (dsimp only; split))
@[simp] theorem useSeq_fuses (s : State) : ((useSeq s)).fuses = s.fuses := by unfold useSeq; repeat' (first | rfl | (simp; done) | split | (dsimp only; split))
@[simp] theorem useSeq_sess (s : State) : ((useSeq s)).sess = s.sess := by unfold useSeq; repeat' (first | rfl | (simp; done) | split | (dsimp only; split))
@[simp] theorem useSeq_deny (s : State) : ((useSeq s)).deny = s.deny := by unfold useSeq; repeat' (first | rfl | (simp; done) | split | (dsimp only; split))
@[simp] theorem useSeq_disp (s : State) : ((useSeq s)).disp = s.disp := by unfold useSeq; repeat' (first | rfl | (simp; done) | split | (dsimp only; split))
@[simp] theorem useSeq_time (s : State) : ((useSeq s)).time = s.time := by unfold useSeq; repeat' (first | rfl | (simp; done) | split | (dsimp only; split))
@[simp] theorem useSeq_vault (s : State) : ((useSeq s)).vault = s.vault := by unfold useSeq; repeat' (first | rfl | (simp; done) | split | (dsimp only; split))
@[simp] theorem useSeq_nfc (s : State) : ((useSeq s)).nfc = s.nfc := by unfold useSeq; repeat' (first | rfl | (simp; done) | split | (dsimp only; split))
@[simp] theorem useSeq_lanes (s : State) : ((useSeq s)).lanes = s.lanes := by unfold useSeq; repeat' (first | rfl | (simp; done) | split | (dsimp only; split))
@[simp] theorem useSeq_aon (s : State) : ((useSeq s)).aon = s.aon := by unfold useSeq; repeat' (first | rfl | (simp; done) | split | (dsimp only; split))
@[simp] theorem useSeq_net (s : State) : ((useSeq s)).net = s.net := by unfold useSeq; repeat' (first | rfl | (simp; done) | split | (dsimp only; split))
@[simp] theorem useSeq_tables (s : State) : ((useSeq s)).tables = s.tables := by unfold useSeq; repeat' (first | rfl | (simp; done) | split | (dsimp only; split))
@[simp] theorem useSeq_ports (s : State) : ((useSeq s)).ports = s.ports := by unfold useSeq; repeat' (first | rfl | (simp; done) | split | (dsimp only; split))
@[simp] theorem useSeq_cipher (s : State) : ((useSeq s)).cipher = s.cipher := by unfold useSeq; repeat' (first | rfl | (simp; done) | split | (dsimp only; split))
@[simp] theorem useSeq_bridge (s : State) : ((useSeq s)).bridge = s.bridge := by unfold useSeq; repeat' (first | rfl | (simp; done) | split | (dsimp only; split))
@[simp] theorem useSeq_hlb (s : State) : ((useSeq s)).hlb = s.hlb := by unfold useSeq; repeat' (first | rfl | (simp; done) | split | (dsimp only; split))
@[simp] theorem useSeq_wheels (s : State) : ((useSeq s)).wheels = s.wheels := by unfold useSeq; repeat' (first | rfl | (simp; done) | split | (dsimp only; split))
@[simp] theorem useSeq_map (s : State) : ((useSeq s)).map = s.map := by unfold useSeq; repeat' (first | rfl | (simp; done) | split | (dsimp only; split))
@[simp] theorem useSeq_changes (s : State) : ((useSeq s)).changes = s.changes := by unfold useSeq; repeat' (first | rfl | (simp; done) | split | (dsimp only; split))
@[simp] theorem useSeq_mem (s : State) : ((useSeq s)).mem = s.mem := by unfold useSeq; repeat' (first | rfl | (simp; done) | split | (dsimp only; split))
@[simp] theorem useSeq_out (s : State) : ((useSeq s)).out = s.out := by unfold useSeq; repeat' (first | rfl | (simp; done) | split | (dsimp only; split))
@[simp] theorem useSeq_fresh (s : State) : ((useSeq s)).fresh = s.fresh := by unfold useSeq; repeat' (first | rfl | (simp; done) | split | (dsimp only; split))
@[simp] theorem useSeq_pending (s : State) : ((useSeq s)).pending = s.pending := by unfold useSeq; repeat' (first | rfl | (simp; done) | split | (dsimp only; split))
@[simp] theorem endRun_rf (s : State) (role : ℕ) : ((endRun s role)).rf = s.rf := by unfold endRun; repeat' (first | rfl | (simp; done) | split | (dsimp only; split))
@[simp] theorem endRun_shadow (s : State) (role : ℕ) : ((endRun s role)).shadow = s.shadow := by unfold endRun; repeat' (first | rfl | (simp; done) | split | (dsimp only; split))
@[simp] theorem endRun_sel (s : State) (role : ℕ) : ((endRun s role)).sel = s.sel := by unfold endRun; repeat' (first | rfl | (simp; done) | split | (dsimp only; split))
@[simp] theorem endRun_power (s : State) (role : ℕ) : ((endRun s role)).power = s.power := by unfold endRun; repeat' (first | rfl | (simp; done) | split | (dsimp only; split))
@[simp] theorem endRun_boot (s : State) (role : ℕ) : ((endRun s role)).boot = s.boot := by unfold endRun; repeat' (first | rfl | (simp; done) | split | (dsimp only; split))
@[simp] theorem endRun_fuses (s : State) (role : ℕ) : ((endRun s role)).fuses = s.fuses := by unfold endRun; repeat' (first | rfl | (simp; done) | split | (dsimp only; split))
@[simp] theorem endRun_deny (s : State) (role : ℕ) : ((endRun s role)).deny = s.deny := by unfold endRun; repeat' (first | rfl | (simp; done) | split | (dsimp only; split))
@[simp] theorem endRun_disp (s : State) (role : ℕ) : ((endRun s role)).disp = s.disp := by unfold endRun; repeat' (first | rfl | (simp; done) | split | (dsimp only; split))
@[simp] theorem endRun_time (s : State) (role : ℕ) : ((endRun s role)).time = s.time := by unfold endRun; repeat' (first | rfl | (simp; done) | split | (dsimp only; split))
@[simp] theorem endRun_vault (s : State) (role : ℕ) : ((endRun s role)).vault = s.vault := by unfold endRun; repeat' (first | rfl | (simp; done) | split | (dsimp only; split))
@[simp] theorem endRun_nfc (s : State) (role : ℕ) : ((endRun s role)).nfc = s.nfc := by unfold endRun; repeat' (first | rfl | (simp; done) | split | (dsimp only; split))
@[simp] theorem endRun_lanes (s : State) (role : ℕ) : ((endRun s role)).lanes = s.lanes := by unfold endRun; repeat' (first | rfl | (simp; done) | split | (dsimp only; split))
@[simp] theorem endRun_aon (s : State) (role : ℕ) : ((endRun s role)).aon = s.aon := by unfold endRun; repeat' (first | rfl | (simp; done) | split | (dsimp only; split))
@[simp] theorem endRun_net (s : State) (role : ℕ) : ((endRun s role)).net = s.net := by unfold endRun; repeat' (first | rfl | (simp; done) | split | (dsimp only; split))
@[simp] theorem endRun_tables (s : State) (role : ℕ) : ((endRun s role)).tables = s.tables := by unfold endRun; repeat' (first | rfl | (simp; done) | split | (dsimp only; split))
@[simp] theorem endRun_ports (s : State) (role : ℕ) : ((endRun s role)).ports = s.ports := by unfold endRun; repeat' (first | rfl | (simp; done) | split | (dsimp only; split))
@[simp] theorem endRun_cipher (s : State) (role : ℕ) : ((endRun s role)).cipher = s.cipher := by unfold endRun; repeat' (first | rfl | (simp; done) | split | (dsimp only; split))
@[simp] theorem endRun_bridge (s : State) (role : ℕ) : ((endRun s role)).bridge = s.bridge := by unfold endRun; repeat' (first | rfl | (simp; done) | split | (dsimp only; split))
@[simp] theorem endRun_hlb (s : State) (role : ℕ) : ((endRun s role)).hlb = s.hlb := by unfold endRun; repeat' (first | rfl | (simp; done) | split | (dsimp only; split))
@[simp] theorem endRun_wheels (s : State) (role : ℕ) : ((endRun s role)).wheels = s.wheels := by unfold endRun; repeat' (first | rfl | (simp; done) | split | (dsimp only; split))
@[simp] theorem endRun_map (s : State) (role : ℕ) : ((endRun s role)).map = s.map := by unfold endRun; repeat' (first | rfl | (simp; done) | split | (dsimp only; split))
@[simp] theorem endRun_changes (s : State) (role : ℕ) : ((endRun s role)).changes = s.changes := by unfold endRun; repeat' (first | rfl | (simp; done) | split | (dsimp only; split))
@[simp] theorem endRun_bgs (s : State) (role : ℕ) : ((endRun s role)).bgs = s.bgs := by unfold endRun; repeat' (first | rfl | (simp; done) | split | (dsimp only; split))
@[simp] theorem endRun_mem (s : State) (role : ℕ) : ((endRun s role)).mem = s.mem := by unfold endRun; repeat' (first | rfl | (simp; done) | split | (dsimp only; split))
@[simp] theorem endRun_freeze (s : State) (role : ℕ) : ((endRun s role)).freeze = s.freeze := by unfold endRun; repeat' (first | rfl | (simp; done) | split | (dsimp only; split))
@[simp] theorem endRun_out (s : State) (role : ℕ) : ((endRun s role)).out = s.out := by unfold endRun; repeat' (first | rfl | (simp; done) | split | (dsimp only; split))
@[simp] theorem endRun_fresh (s : State) (role : ℕ) : ((endRun s role)).fresh = s.fresh := by unfold endRun; repeat' (first | rfl | (simp; done) | split | (dsimp only; split))
@[simp] theorem endRun_pending (s : State) (role : ℕ) : ((endRun s role)).pending = s.pending := by unfold endRun; repeat' (first | rfl | (simp; done) | split | (dsimp only; split))
@[simp] theorem lowerClose_shadow (s : State) (role : ℕ) (reason : ℕ) : ((lowerClose s role reason)).shadow = s.shadow := by unfold lowerClose; repeat' (first | rfl | (simp; done) | split | (dsimp only; split))
@[simp] theorem lowerClose_sel (s : State) (role : ℕ) (reason : ℕ) : ((lowerClose s role reason)).sel = s.sel := by unfold lowerClose; repeat' (first | rfl | (simp; done) | split | (dsimp only; split))
@[simp] theorem lowerClose_power (s : State) (role : ℕ) (reason : ℕ) : ((lowerClose s role reason)).power = s.power := by unfold lowerClose; repeat' (first | rfl | (simp; done) | split | (dsimp only; split))
@[simp] theorem lowerClose_boot (s : State) (role : ℕ) (reason : ℕ) : ((lowerClose s role reason)).boot = s.boot := by unfold lowerClose; repeat' (first | rfl | (simp; done) | split | (dsimp only; split))
@[simp] theorem lowerClose_fuses (s : State) (role : ℕ) (reason : ℕ) : ((lowerClose s role reason)).fuses = s.fuses := by unfold lowerClose; repeat' (first | rfl | (simp; done) | split | (dsimp only; split))
@[simp] theorem lowerClose_deny (s : State) (role : ℕ) (reason : ℕ) : ((lowerClose s role reason)).deny = s.deny := by unfold lowerClose; repeat' (first | rfl | (simp; done) | split | (dsimp only; split))
@[simp] theorem lowerClose_disp (s : State) (role : ℕ) (reason : ℕ) : ((lowerClose s role reason)).disp = s.disp := by unfold lowerClose; repeat' (first | rfl | (simp; done) | split | (dsimp only; split))
@[simp] theorem lowerClose_time (s : State) (role : ℕ) (reason : ℕ) : ((lowerClose s role reason)).time = s.time := by unfold lowerClose; repeat' (first | rfl | (simp; done) | split | (dsimp only; split))
@[simp] theorem lowerClose_vault (s : State) (role : ℕ) (reason : ℕ) : ((lowerClose s role reason)).vault = s.vault := by unfold lowerClose; repeat' (first | rfl | (simp; done) | split | (dsimp only; split))
@[simp] theorem lowerClose_nfc (s : State) (role : ℕ) (reason : ℕ) : ((lowerClose s role reason)).nfc = s.nfc := by unfold lowerClose; repeat' (first | rfl | (simp; done) | split | (dsimp only; split))
@[simp] theorem lowerClose_lanes (s : State) (role : ℕ) (reason : ℕ) : ((lowerClose s role reason)).lanes = s.lanes := by unfold lowerClose; repeat' (first | rfl | (simp; done) | split | (dsimp only; split))
@[simp] theorem lowerClose_aon (s : State) (role : ℕ) (reason : ℕ) : ((lowerClose s role reason)).aon = s.aon := by unfold lowerClose; repeat' (first | rfl | (simp; done) | split | (dsimp only; split))
@[simp] theorem lowerClose_net (s : State) (role : ℕ) (reason : ℕ) : ((lowerClose s role reason)).net = s.net := by unfold lowerClose; repeat' (first | rfl | (simp; done) | split | (dsimp only; split))
@[simp] theorem lowerClose_tables (s : State) (role : ℕ) (reason : ℕ) : ((lowerClose s role reason)).tables = s.tables := by unfold lowerClose; repeat' (first | rfl | (simp; done) | split | (dsimp only; split))
@[simp] theorem lowerClose_ports (s : State) (role : ℕ) (reason : ℕ) : ((lowerClose s role reason)).ports = s.ports := by unfold lowerClose; repeat' (first | rfl | (simp; done) | split | (dsimp only; split))
@[simp] theorem lowerClose_cipher (s : State) (role : ℕ) (reason : ℕ) : ((lowerClose s role reason)).cipher = s.cipher := by unfold lowerClose; repeat' (first | rfl | (simp; done) | split | (dsimp only; split))
@[simp] theorem lowerClose_bridge (s : State) (role : ℕ) (reason : ℕ) : ((lowerClose s role reason)).bridge = s.bridge := by unfold lowerClose; repeat' (first | rfl | (simp; done) | split | (dsimp only; split))
@[simp] theorem lowerClose_hlb (s : State) (role : ℕ) (reason : ℕ) : ((lowerClose s role reason)).hlb = s.hlb := by unfold lowerClose; repeat' (first | rfl | (simp; done) | split | (dsimp only; split))
@[simp] theorem lowerClose_wheels (s : State) (role : ℕ) (reason : ℕ) : ((lowerClose s role reason)).wheels = s.wheels := by unfold lowerClose; repeat' (first | rfl | (simp; done) | split | (dsimp only; split))
@[simp] theorem lowerClose_map (s : State) (role : ℕ) (reason : ℕ) : ((lowerClose s role reason)).map = s.map := by unfold lowerClose; repeat' (first | rfl | (simp; done) | split | (dsimp only; split))
@[simp] theorem lowerClose_changes (s : State) (role : ℕ) (reason : ℕ) : ((lowerClose s role reason)).changes = s.changes := by unfold lowerClose; repeat' (first | rfl | (simp; done) | split | (dsimp only; split))
@[simp] theorem lowerClose_bgs (s : State) (role : ℕ) (reason : ℕ) : ((lowerClose s role reason)).bgs = s.bgs := by unfold lowerClose; repeat' (first | rfl | (simp; done) | split | (dsimp only; split))
@[simp] theorem lowerClose_mem (s : State) (role : ℕ) (reason : ℕ) : ((lowerClose s role reason)).mem = s.mem := by unfold lowerClose; repeat' (first | rfl | (simp; done) | split | (dsimp only; split))
@[simp] theorem lowerClose_freeze (s : State) (role : ℕ) (reason : ℕ) : ((lowerClose s role reason)).freeze = s.freeze := by unfold lowerClose; repeat' (first | rfl | (simp; done) | split | (dsimp only; split))
@[simp] theorem lowerClose_out (s : State) (role : ℕ) (reason : ℕ) : ((lowerClose s role reason)).out = s.out := by unfold lowerClose; repeat' (first | rfl | (simp; done) | split | (dsimp only; split))
@[simp] theorem lowerClose_fresh (s : State) (role : ℕ) (reason : ℕ) : ((lowerClose s role reason)).fresh = s.fresh := by unfold lowerClose; repeat' (first | rfl | (simp; done) | split | (dsimp only; split))
@[simp] theorem lowerClose_pending (s : State) (role : ℕ) (reason : ℕ) : ((lowerClose s role reason)).pending = s.pending := by unfold lowerClose; repeat' (first | rfl | (simp; done) | split | (dsimp only; split))
@[simp] theorem closeSession_shadow (s : State) (role : ℕ) (reason : ℕ) : ((closeSession s role reason)).shadow = s.shadow := by unfold closeSession; repeat' (first | rfl | (simp; done) | split | (dsimp only; split))
@[simp] theorem closeSession_sel (s : State) (role : ℕ) (reason : ℕ) : ((closeSession s role reason)).sel = s.sel := by unfold closeSession; repeat' (first | rfl | (simp; done) | split | (dsimp only; split))
@[simp] theorem closeSession_power (s : State) (role : ℕ) (reason : ℕ) : ((closeSession s role reason)).power = s.power := by unfold closeSession; repeat' (first | rfl | (simp; done) | split | (dsimp only; split))
@[simp] theorem closeSession_boot (s : State) (role : ℕ) (reason : ℕ) : ((closeSession s role reason)).boot = s.boot := by unfold closeSession; repeat' (first | rfl | (simp; done) | split | (dsimp only; split))
@[simp] theorem closeSession_fuses (s : State) (role : ℕ) (reason : ℕ) : ((closeSession s role reason)).fuses = s.fuses := by unfold closeSession; repeat' (first | rfl | (simp; done) | split | (dsimp only; split))
@[simp] theorem closeSession_deny (s : State) (role : ℕ) (reason : ℕ) : ((closeSession s role reason)).deny = s.deny := by unfold closeSession; repeat' (first | rfl | (simp; done) | split | (dsimp only; split))
@[simp] theorem closeSession_disp (s : State) (role : ℕ) (reason : ℕ) : ((closeSession s role reason)).disp = s.disp := by unfold closeSession; repeat' (first | rfl | (simp; done) | split | (dsimp only; split))
@[simp] theorem closeSession_time (s : State) (role : ℕ) (reason : ℕ) : ((closeSession s role reason)).time = s.time := by unfold closeSession; repeat' (first | rfl | (simp; done) | split | (dsimp only; split))
@[simp] theorem closeSession_vault (s : State) (role : ℕ) (reason : ℕ) : ((closeSession s role reason)).vault = s.vault := by unfold closeSession; repeat' (first | rfl | (simp; done) | split | (dsimp only; split))
@[simp] theorem closeSession_nfc (s : State) (role : ℕ) (reason : ℕ) : ((closeSession s role reason)).nfc = s.nfc := by unfold closeSession; repeat' (first | rfl | (simp; done) | split | (dsimp only; split))
@[simp] theorem closeSession_lanes (s : State) (role : ℕ) (reason : ℕ) : ((closeSession s role reason)).lanes = s.lanes := by unfold closeSession; repeat' (first | rfl | (simp; done) | split | (dsimp only; split))
@[simp] theorem closeSession_aon (s : State) (role : ℕ) (reason : ℕ) : ((closeSession s role reason)).aon = s.aon := by unfold closeSession; repeat' (first | rfl | (simp; done) | split | (dsimp only; split))
@[simp] theorem closeSession_net (s : State) (role : ℕ) (reason : ℕ) : ((closeSession s role reason)).net = s.net := by unfold closeSession; repeat' (first | rfl | (simp; done) | split | (dsimp only; split))
@[simp] theorem closeSession_ports (s : State) (role : ℕ) (reason : ℕ) : ((closeSession s role reason)).ports = s.ports := by unfold closeSession; repeat' (first | rfl | (simp; done) | split | (dsimp only; split))
@[simp] theorem closeSession_cipher (s : State) (role : ℕ) (reason : ℕ) : ((closeSession s role reason)).cipher = s.cipher := by unfold closeSession; repeat' (first | rfl | (simp; done) | split | (dsimp only; split))
@[simp] theorem closeSession_bridge (s : State) (role : ℕ) (reason : ℕ) : ((closeSession s role reason)).bridge = s.bridge := by unfold closeSession; repeat' (first | rfl | (simp; done) | split | (dsimp only; split))
@[simp] theorem closeSession_hlb (s : State) (role : ℕ) (reason : ℕ) : ((closeSession s role reason)).hlb = s.hlb := by unfold closeSession; repeat' (first | rfl | (simp; done) | split | (dsimp only; split))
@[simp] theorem closeSession_wheels (s : State) (role : ℕ) (reason : ℕ) : ((closeSession s role reason)).wheels = s.wheels := by unfold closeSession; repeat' (first | rfl | (simp; done) | split | (dsimp only; split))
@[simp] theorem closeSession_map (s : State) (role : ℕ) (reason : ℕ) : ((closeSession s role reason)).map = s.map := by unfold closeSession; repeat' (first | rfl | (simp; done) | split | (dsimp only; split))
@[simp] theorem closeSession_changes (s : State) (role : ℕ) (reason : ℕ) : ((closeSession s role reason)).changes = s.changes := by unfold closeSession; repeat' (first | rfl | (simp; done) | split | (dsimp only; split))
@[simp] theorem closeSession_bgs (s : State) (role : ℕ) (reason : ℕ) : ((closeSession s role reason)).bgs = s.bgs := by unfold closeSession; repeat' (first | rfl | (simp; done) | split | (dsimp only; split))
@[simp] theorem closeSession_mem (s : State) (role : ℕ) (reason : ℕ) : ((closeSession s role reason)).mem = s.mem := by unfold closeSession; repeat' (first | rfl | (simp; done) | split | (dsimp only; split))
@[simp] theorem closeSession_out (s : State) (role : ℕ) (reason : ℕ) : ((closeSession s role reason)).out = s.out := by unfold closeSession; repeat' (first | rfl | (simp; done) | split | (dsimp only; split))
@[simp] theorem closeSession_fresh (s : State) (role : ℕ) (reason : ℕ) : ((closeSession s role reason)).fresh = s.fresh := by unfold closeSession; repeat' (first | rfl | (simp; done) | split | (dsimp only; split))
@[simp] theorem closeSession_pending (s : State) (role : ℕ) (reason : ℕ) : ((closeSession s role reason)).pending = s.pending := by unfold closeSession; repeat' (first | rfl | (simp; done) | split | (dsimp only; split))
@[simp] theorem closeAll_shadow (s : State) (reason : ℕ) : ((closeAll s reason)).shadow = s.shadow := by unfold closeAll; repeat' (first | rfl | (simp; done) | split | (dsimp only; split))
@[simp] theorem closeAll_sel (s : State) (reason : ℕ) : ((closeAll s reason)).sel = s.sel := by unfold closeAll; repeat' (first | rfl | (simp; done) | split | (dsimp only; split))
@[simp] theorem closeAll_power (s : State) (reason : ℕ) : ((closeAll s reason)).power = s.power := by unfold closeAll; repeat' (first | rfl | (simp; done) | split | (dsimp only; split))
@[simp] theorem closeAll_boot (s : State) (reason : ℕ) : ((closeAll s reason)).boot = s.boot := by unfold closeAll; repeat' (first | rfl | (simp; done) | split | (dsimp only; split))
@[simp] theorem closeAll_fuses (s : State) (reason : ℕ) : ((closeAll s reason)).fuses = s.fuses := by unfold closeAll; repeat' (first | rfl | (simp; done) | split | (dsimp only; split))
@[simp] theorem closeAll_deny (s : State) (reason : ℕ) : ((closeAll s reason)).deny = s.deny := by unfold closeAll; repeat' (first | rfl | (simp; done) | split | (dsimp only; split))
@[simp] theorem closeAll_disp (s : State) (reason : ℕ) : ((closeAll s reason)).disp = s.disp := by unfold closeAll; repeat' (first | rfl | (simp; done) | split | (dsimp only; split))
@[simp] theorem closeAll_time (s : State) (reason : ℕ) : ((closeAll s reason)).time = s.time := by unfold closeAll; repeat' (first | rfl | (simp; done) | split | (dsimp only; split))
@[simp] theorem closeAll_vault (s : State) (reason : ℕ) : ((closeAll s reason)).vault = s.vault := by unfold closeAll; repeat' (first | rfl | (simp; done) | split | (dsimp only; split))
@[simp] theorem closeAll_nfc (s : State) (reason : ℕ) : ((closeAll s reason)).nfc = s.nfc := by unfold closeAll; repeat' (first | rfl | (simp; done) | split | (dsimp only; split))
@[simp] theorem closeAll_lanes (s : State) (reason : ℕ) : ((closeAll s reason)).lanes = s.lanes := by unfold closeAll; repeat' (first | rfl | (simp; done) | split | (dsimp only; split))
@[simp] theorem closeAll_aon (s : State) (reason : ℕ) : ((closeAll s reason)).aon = s.aon := by unfold closeAll; repeat' (first | rfl | (simp; done) | split | (dsimp only; split))
@[simp] theorem closeAll_net (s : State) (reason : ℕ) : ((closeAll s reason)).net = s.net := by unfold closeAll; repeat' (first | rfl | (simp; done) | split | (dsimp only; split))
@[simp] theorem closeAll_ports (s : State) (reason : ℕ) : ((closeAll s reason)).ports = s.ports := by unfold closeAll; repeat' (first | rfl | (simp; done) | split | (dsimp only; split))
@[simp] theorem closeAll_cipher (s : State) (reason : ℕ) : ((closeAll s reason)).cipher = s.cipher := by unfold closeAll; repeat' (first | rfl | (simp; done) | split | (dsimp only; split))
@[simp] theorem closeAll_bridge (s : State) (reason : ℕ) : ((closeAll s reason)).bridge = s.bridge := by unfold closeAll; repeat' (first | rfl | (simp; done) | split | (dsimp only; split))
@[simp] theorem closeAll_hlb (s : State) (reason : ℕ) : ((closeAll s reason)).hlb = s.hlb := by unfold closeAll; repeat' (first | rfl | (simp; done) | split | (dsimp only; split))
@[simp] theorem closeAll_wheels (s : State) (reason : ℕ) : ((closeAll s reason)).wheels = s.wheels := by unfold closeAll; repeat' (first | rfl | (simp; done) | split | (dsimp only; split))
@[simp] theorem closeAll_map (s : State) (reason : ℕ) : ((closeAll s reason)).map = s.map := by unfold closeAll; repeat' (first | rfl | (simp; done) | split | (dsimp only; split))
@[simp] theorem closeAll_changes (s : State) (reason : ℕ) : ((closeAll s reason)).changes = s.changes := by unfold closeAll; repeat' (first | rfl | (simp; done) | split | (dsimp only; split))
@[simp] theorem closeAll_bgs (s : State) (reason : ℕ) : ((closeAll s reason)).bgs = s.bgs := by unfold closeAll; repeat' (first | rfl | (simp; done) | split | (dsimp only; split))
@[simp] theorem closeAll_mem (s : State) (reason : ℕ) : ((closeAll s reason)).mem = s.mem := by unfold closeAll; repeat' (first | rfl | (simp; done) | split | (dsimp only; split))
@[simp] theorem closeAll_out (s : State) (reason : ℕ) : ((closeAll s reason)).out = s.out := by unfold closeAll; repeat' (first | rfl | (simp; done) | split | (dsimp only; split))
@[simp] theorem closeAll_fresh (s : State) (reason : ℕ) : ((closeAll s reason)).fresh = s.fresh := by unfold closeAll; repeat' (first | rfl | (simp; done) | split | (dsimp only; split))
@[simp] theorem closeAll_pending (s : State) (reason : ℕ) : ((closeAll s reason)).pending = s.pending := by unfold closeAll; repeat' (first | rfl | (simp; done) | split | (dsimp only; split))
@[simp] theorem commitOne_shadow (s : State) (q : Entry) : ((commitOne s q)).shadow = s.shadow := by unfold commitOne; repeat' (first | rfl | (simp; done) | split | (dsimp only; split))
@[simp] theorem commitOne_sel (s : State) (q : Entry) : ((commitOne s q)).sel = s.sel := by unfold commitOne; repeat' (first | rfl | (simp; done) | split | (dsimp only; split))
@[simp] theorem commitOne_power (s : State) (q : Entry) : ((commitOne s q)).power = s.power := by unfold commitOne; repeat' (first | rfl | (simp; done) | split | (dsimp only; split))
@[simp] theorem commitOne_boot (s : State) (q : Entry) : ((commitOne s q)).boot = s.boot := by unfold commitOne; repeat' (first | rfl | (simp; done) | split | (dsimp only; split))
@[simp] theorem commitOne_fuses (s : State) (q : Entry) : ((commitOne s q)).fuses = s.fuses := by unfold commitOne; repeat' (first | rfl | (simp; done) | split | (dsimp only; split))
@[simp] theorem commitOne_sess (s : State) (q : Entry) : ((commitOne s q)).sess = s.sess := by unfold commitOne; repeat' (first | rfl | (simp; done) | split | (dsimp only; split))
@[simp] theorem commitOne_deny (s : State) (q : Entry) : ((commitOne s q)).deny = s.deny := by unfold commitOne; repeat' (first | rfl | (simp; done) | split | (dsimp only; split))
@[simp] theorem commitOne_disp (s : State) (q : Entry) : ((commitOne s q)).disp = s.disp := by unfold commitOne; repeat' (first | rfl | (simp; done) | split | (dsimp only; split))
@[simp] theorem commitOne_time (s : State) (q : Entry) : ((commitOne s q)).time = s.time := by unfold commitOne; repeat' (first | rfl | (simp; done) | split | (dsimp only; split))
@[simp] theorem commitOne_vault (s : State) (q : Entry) : ((commitOne s q)).vault = s.vault := by unfold commitOne; repeat' (first | rfl | (simp; done) | split | (dsimp only; split))
@[simp] theorem commitOne_nfc (s : State) (q : Entry) : ((commitOne s q)).nfc = s.nfc := by unfold commitOne; repeat' (first | rfl | (simp; done) | split | (dsimp only; split))
@[simp] theorem commitOne_lanes (s : State) (q : Entry) : ((commitOne s q)).lanes = s.lanes := by unfold commitOne; repeat' (first | rfl | (simp; done) | split | (dsimp only; split))
@[simp] theorem commitOne_aon (s : State) (q : Entry) : ((commitOne s q)).aon = s.aon := by unfold commitOne; repeat' (first | rfl | (simp; done) | split | (dsimp only; split))
@[simp] theorem commitOne_net (s : State) (q : Entry) : ((commitOne s q)).net = s.net := by unfold commitOne; repeat' (first | rfl | (simp; done) | split | (dsimp only; split))
@[simp] theorem commitOne_tables (s : State) (q : Entry) : ((commitOne s q)).tables = s.tables := by unfold commitOne; repeat' (first | rfl | (simp; done) | split | (dsimp only; split))
@[simp] theorem commitOne_ports (s : State) (q : Entry) : ((commitOne s q)).ports = s.ports := by unfold commitOne; repeat' (first | rfl | (simp; done) | split | (dsimp only; split))
@[simp] theorem commitOne_cipher (s : State) (q : Entry) : ((commitOne s q)).cipher = s.cipher := by unfold commitOne; repeat' (first | rfl | (simp; done) | split | (dsimp only; split))
@[simp] theorem commitOne_bridge (s : State) (q : Entry) : ((commitOne s q)).bridge = s.bridge := by unfold commitOne; repeat' (first | rfl | (simp; done) | split | (dsimp only; split))
@[simp] theorem commitOne_hlb (s : State) (q : Entry) : ((commitOne s q)).hlb = s.hlb := by unfold commitOne; repeat' (first | rfl | (simp; done) | split | (dsimp only; split))
@[simp] theorem commitOne_wheels (s : State) (q : Entry) : ((commitOne s q)).wheels = s.wheels := by unfold commitOne; repeat' (first | rfl | (simp; done) | split | (dsimp only; split))
@[simp] theorem commitOne_map (s : State) (q : Entry) : ((commitOne s q)).map = s.map := by unfold commitOne; repeat' (first | rfl | (simp; done) | split | (dsimp only; split))
@[simp] theorem commitOne_changes (s : State) (q : Entry) : ((commitOne s q)).changes = s.changes := by unfold commitOne; repeat' (first | rfl | (simp; done) | split | (dsimp only; split))
@[simp] theorem commitOne_mem (s : State) (q : Entry) : ((commitOne s q)).mem = s.mem := by unfold commitOne; repeat' (first | rfl | (simp; done) | split | (dsimp only; split))
@[simp] theorem commitOne_out (s : State) (q : Entry) : ((commitOne s q)).out = s.out := by unfold commitOne; repeat' (first | rfl | (simp; done) | split | (dsimp only; split))
@[simp] theorem commitOne_fresh (s : State) (q : Entry) : ((commitOne s q)).fresh = s.fresh := by unfold commitOne; repeat' (first | rfl | (simp; done) | split | (dsimp only; split))
@[simp] theorem commitOne_pending (s : State) (q : Entry) : ((commitOne s q)).pending = s.pending := by unfold commitOne; repeat' (first | rfl | (simp; done) | split | (dsimp only; split))
@[simp] theorem commitHead_shadow (s : State) : ((commitHead s)).shadow = s.shadow := by unfold commitHead; repeat' (first | rfl | (simp; done) | split | (dsimp only; split))
@[simp] theorem commitHead_sel (s : State) : ((commitHead s)).sel = s.sel := by unfold commitHead; repeat' (first | rfl | (simp; done) | split | (dsimp only; split))
@[simp] theorem commitHead_power (s : State) : ((commitHead s)).power = s.power := by unfold commitHead; repeat' (first | rfl | (simp; done) | split | (dsimp only; split))
@[simp] theorem commitHead_boot (s : State) : ((commitHead s)).boot = s.boot := by unfold commitHead; repeat' (first | rfl | (simp; done) | split | (dsimp only; split))
@[simp] theorem commitHead_fuses (s : State) : ((commitHead s)).fuses = s.fuses := by unfold commitHead; repeat' (first | rfl | (simp; done) | split | (dsimp only; split))
@[simp] theorem commitHead_sess (s : State) : ((commitHead s)).sess = s.sess := by unfold commitHead; repeat' (first | rfl | (simp; done) | split | (dsimp only; split))
@[simp] theorem commitHead_deny (s : State) : ((commitHead s)).deny = s.deny := by unfold commitHead; repeat' (first | rfl | (simp; done) | split | (dsimp only; split))
@[simp] theorem commitHead_disp (s : State) : ((commitHead s)).disp = s.disp := by unfold commitHead; repeat' (first | rfl | (simp; done) | split | (dsimp only; split))
@[simp] theorem commitHead_time (s : State) : ((commitHead s)).time = s.time := by unfold commitHead; repeat' (first | rfl | (simp; done) | split | (dsimp only; split))
@[simp] theorem commitHead_vault (s : State) : ((commitHead s)).vault = s.vault := by unfold commitHead; repeat' (first | rfl | (simp; done) | split | (dsimp only; split))
@[simp] theorem commitHead_nfc (s : State) : ((commitHead s)).nfc = s.nfc := by unfold commitHead; repeat' (first | rfl | (simp; done) | split | (dsimp only; split))
@[simp] theorem commitHead_lanes (s : State) : ((commitHead s)).lanes = s.lanes := by unfold commitHead; repeat' (first | rfl | (simp; done) | split | (dsimp only; split))
@[simp] theorem commitHead_aon (s : State) : ((commitHead s)).aon = s.aon := by unfold commitHead; repeat' (first | rfl | (simp; done) | split | (dsimp only; split))
@[simp] theorem commitHead_net (s : State) : ((commitHead s)).net = s.net := by unfold commitHead; repeat' (first | rfl | (simp; done) | split | (dsimp only; split))
@[simp] theorem commitHead_tables (s : State) : ((commitHead s)).tables = s.tables := by unfold commitHead; repeat' (first | rfl | (simp; done) | split | (dsimp only; split))
@[simp] theorem commitHead_ports (s : State) : ((commitHead s)).ports = s.ports := by unfold commitHead; repeat' (first | rfl | (simp; done) | split | (dsimp only; split))
@[simp] theorem commitHead_cipher (s : State) : ((commitHead s)).cipher = s.cipher := by unfold commitHead; repeat' (first | rfl | (simp; done) | split | (dsimp only; split))
@[simp] theorem commitHead_bridge (s : State) : ((commitHead s)).bridge = s.bridge := by unfold commitHead; repeat' (first | rfl | (simp; done) | split | (dsimp only; split))
@[simp] theorem commitHead_hlb (s : State) : ((commitHead s)).hlb = s.hlb := by unfold commitHead; repeat' (first | rfl | (simp; done) | split | (dsimp only; split))
@[simp] theorem commitHead_wheels (s : State) : ((commitHead s)).wheels = s.wheels := by unfold commitHead; repeat' (first | rfl | (simp; done) | split | (dsimp only; split))
@[simp] theorem commitHead_map (s : State) : ((commitHead s)).map = s.map := by unfold commitHead; repeat' (first | rfl | (simp; done) | split | (dsimp only; split))
@[simp] theorem commitHead_changes (s : State) : ((commitHead s)).changes = s.changes := by unfold commitHead; repeat' (first | rfl | (simp; done) | split | (dsimp only; split))
@[simp] theorem commitHead_mem (s : State) : ((commitHead s)).mem = s.mem := by unfold commitHead; repeat' (first | rfl | (simp; done) | split | (dsimp only; split))
@[simp] theorem commitHead_out (s : State) : ((commitHead s)).out = s.out := by unfold commitHead; repeat' (first | rfl | (simp; done) | split | (dsimp only; split))
@[simp] theorem commitHead_fresh (s : State) : ((commitHead s)).fresh = s.fresh := by unfold commitHead; repeat' (first | rfl | (simp; done) | split | (dsimp only; split))
@[simp] theorem commitHead_pending (s : State) : ((commitHead s)).pending = s.pending := by unfold commitHead; repeat' (first | rfl | (simp; done) | split | (dsimp only; split))
@[simp] theorem commitN_shadow : ∀ (n : Nat) (s : State), (commitN n s).shadow = s.shadow
  | 0, _ => rfl
  | n + 1, s => (commitN_shadow n _).trans (commitHead_shadow s)
@[simp] theorem commitN_sel : ∀ (n : Nat) (s : State), (commitN n s).sel = s.sel
  | 0, _ => rfl
  | n + 1, s => (commitN_sel n _).trans (commitHead_sel s)
@[simp] theorem commitN_power : ∀ (n : Nat) (s : State), (commitN n s).power = s.power
  | 0, _ => rfl
  | n + 1, s => (commitN_power n _).trans (commitHead_power s)
@[simp] theorem commitN_boot : ∀ (n : Nat) (s : State), (commitN n s).boot = s.boot
  | 0, _ => rfl
  | n + 1, s => (commitN_boot n _).trans (commitHead_boot s)
@[simp] theorem commitN_fuses : ∀ (n : Nat) (s : State), (commitN n s).fuses = s.fuses
  | 0, _ => rfl
  | n + 1, s => (commitN_fuses n _).trans (commitHead_fuses s)
@[simp] theorem commitN_sess : ∀ (n : Nat) (s : State), (commitN n s).sess = s.sess
  | 0, _ => rfl
  | n + 1, s => (commitN_sess n _).trans (commitHead_sess s)
@[simp] theorem commitN_deny : ∀ (n : Nat) (s : State), (commitN n s).deny = s.deny
  | 0, _ => rfl
  | n + 1, s => (commitN_deny n _).trans (commitHead_deny s)
@[simp] theorem commitN_disp : ∀ (n : Nat) (s : State), (commitN n s).disp = s.disp
  | 0, _ => rfl
  | n + 1, s => (commitN_disp n _).trans (commitHead_disp s)
@[simp] theorem commitN_time : ∀ (n : Nat) (s : State), (commitN n s).time = s.time
  | 0, _ => rfl
  | n + 1, s => (commitN_time n _).trans (commitHead_time s)
@[simp] theorem commitN_vault : ∀ (n : Nat) (s : State), (commitN n s).vault = s.vault
  | 0, _ => rfl
  | n + 1, s => (commitN_vault n _).trans (commitHead_vault s)
@[simp] theorem commitN_nfc : ∀ (n : Nat) (s : State), (commitN n s).nfc = s.nfc
  | 0, _ => rfl
  | n + 1, s => (commitN_nfc n _).trans (commitHead_nfc s)
@[simp] theorem commitN_lanes : ∀ (n : Nat) (s : State), (commitN n s).lanes = s.lanes
  | 0, _ => rfl
  | n + 1, s => (commitN_lanes n _).trans (commitHead_lanes s)
@[simp] theorem commitN_aon : ∀ (n : Nat) (s : State), (commitN n s).aon = s.aon
  | 0, _ => rfl
  | n + 1, s => (commitN_aon n _).trans (commitHead_aon s)
@[simp] theorem commitN_net : ∀ (n : Nat) (s : State), (commitN n s).net = s.net
  | 0, _ => rfl
  | n + 1, s => (commitN_net n _).trans (commitHead_net s)
@[simp] theorem commitN_tables : ∀ (n : Nat) (s : State), (commitN n s).tables = s.tables
  | 0, _ => rfl
  | n + 1, s => (commitN_tables n _).trans (commitHead_tables s)
@[simp] theorem commitN_ports : ∀ (n : Nat) (s : State), (commitN n s).ports = s.ports
  | 0, _ => rfl
  | n + 1, s => (commitN_ports n _).trans (commitHead_ports s)
@[simp] theorem commitN_cipher : ∀ (n : Nat) (s : State), (commitN n s).cipher = s.cipher
  | 0, _ => rfl
  | n + 1, s => (commitN_cipher n _).trans (commitHead_cipher s)
@[simp] theorem commitN_bridge : ∀ (n : Nat) (s : State), (commitN n s).bridge = s.bridge
  | 0, _ => rfl
  | n + 1, s => (commitN_bridge n _).trans (commitHead_bridge s)
@[simp] theorem commitN_hlb : ∀ (n : Nat) (s : State), (commitN n s).hlb = s.hlb
  | 0, _ => rfl
  | n + 1, s => (commitN_hlb n _).trans (commitHead_hlb s)
@[simp] theorem commitN_wheels : ∀ (n : Nat) (s : State), (commitN n s).wheels = s.wheels
  | 0, _ => rfl
  | n + 1, s => (commitN_wheels n _).trans (commitHead_wheels s)
@[simp] theorem commitN_map : ∀ (n : Nat) (s : State), (commitN n s).map = s.map
  | 0, _ => rfl
  | n + 1, s => (commitN_map n _).trans (commitHead_map s)
@[simp] theorem commitN_changes : ∀ (n : Nat) (s : State), (commitN n s).changes = s.changes
  | 0, _ => rfl
  | n + 1, s => (commitN_changes n _).trans (commitHead_changes s)
@[simp] theorem commitN_mem : ∀ (n : Nat) (s : State), (commitN n s).mem = s.mem
  | 0, _ => rfl
  | n + 1, s => (commitN_mem n _).trans (commitHead_mem s)
@[simp] theorem commitN_out : ∀ (n : Nat) (s : State), (commitN n s).out = s.out
  | 0, _ => rfl
  | n + 1, s => (commitN_out n _).trans (commitHead_out s)
@[simp] theorem commitN_fresh : ∀ (n : Nat) (s : State), (commitN n s).fresh = s.fresh
  | 0, _ => rfl
  | n + 1, s => (commitN_fresh n _).trans (commitHead_fresh s)
@[simp] theorem commitN_pending : ∀ (n : Nat) (s : State), (commitN n s).pending = s.pending
  | 0, _ => rfl
  | n + 1, s => (commitN_pending n _).trans (commitHead_pending s)
@[simp] theorem commitAll_shadow (s : State) : ((commitAll s)).shadow = s.shadow := by unfold commitAll; repeat' (first | rfl | (simp; done) | split | (dsimp only; split))
@[simp] theorem commitAll_sel (s : State) : ((commitAll s)).sel = s.sel := by unfold commitAll; repeat' (first | rfl | (simp; done) | split | (dsimp only; split))
@[simp] theorem commitAll_power (s : State) : ((commitAll s)).power = s.power := by unfold commitAll; repeat' (first | rfl | (simp; done) | split | (dsimp only; split))
@[simp] theorem commitAll_boot (s : State) : ((commitAll s)).boot = s.boot := by unfold commitAll; repeat' (first | rfl | (simp; done) | split | (dsimp only; split))
@[simp] theorem commitAll_fuses (s : State) : ((commitAll s)).fuses = s.fuses := by unfold commitAll; repeat' (first | rfl | (simp; done) | split | (dsimp only; split))
@[simp] theorem commitAll_sess (s : State) : ((commitAll s)).sess = s.sess := by unfold commitAll; repeat' (first | rfl | (simp; done) | split | (dsimp only; split))
@[simp] theorem commitAll_deny (s : State) : ((commitAll s)).deny = s.deny := by unfold commitAll; repeat' (first | rfl | (simp; done) | split | (dsimp only; split))
@[simp] theorem commitAll_disp (s : State) : ((commitAll s)).disp = s.disp := by unfold commitAll; repeat' (first | rfl | (simp; done) | split | (dsimp only; split))
@[simp] theorem commitAll_time (s : State) : ((commitAll s)).time = s.time := by unfold commitAll; repeat' (first | rfl | (simp; done) | split | (dsimp only; split))
@[simp] theorem commitAll_vault (s : State) : ((commitAll s)).vault = s.vault := by unfold commitAll; repeat' (first | rfl | (simp; done) | split | (dsimp only; split))
@[simp] theorem commitAll_nfc (s : State) : ((commitAll s)).nfc = s.nfc := by unfold commitAll; repeat' (first | rfl | (simp; done) | split | (dsimp only; split))
@[simp] theorem commitAll_lanes (s : State) : ((commitAll s)).lanes = s.lanes := by unfold commitAll; repeat' (first | rfl | (simp; done) | split | (dsimp only; split))
@[simp] theorem commitAll_aon (s : State) : ((commitAll s)).aon = s.aon := by unfold commitAll; repeat' (first | rfl | (simp; done) | split | (dsimp only; split))
@[simp] theorem commitAll_net (s : State) : ((commitAll s)).net = s.net := by unfold commitAll; repeat' (first | rfl | (simp; done) | split | (dsimp only; split))
@[simp] theorem commitAll_tables (s : State) : ((commitAll s)).tables = s.tables := by unfold commitAll; repeat' (first | rfl | (simp; done) | split | (dsimp only; split))
@[simp] theorem commitAll_ports (s : State) : ((commitAll s)).ports = s.ports := by unfold commitAll; repeat' (first | rfl | (simp; done) | split | (dsimp only; split))
@[simp] theorem commitAll_cipher (s : State) : ((commitAll s)).cipher = s.cipher := by unfold commitAll; repeat' (first | rfl | (simp; done) | split | (dsimp only; split))
@[simp] theorem commitAll_bridge (s : State) : ((commitAll s)).bridge = s.bridge := by unfold commitAll; repeat' (first | rfl | (simp; done) | split | (dsimp only; split))
@[simp] theorem commitAll_hlb (s : State) : ((commitAll s)).hlb = s.hlb := by unfold commitAll; repeat' (first | rfl | (simp; done) | split | (dsimp only; split))
@[simp] theorem commitAll_wheels (s : State) : ((commitAll s)).wheels = s.wheels := by unfold commitAll; repeat' (first | rfl | (simp; done) | split | (dsimp only; split))
@[simp] theorem commitAll_map (s : State) : ((commitAll s)).map = s.map := by unfold commitAll; repeat' (first | rfl | (simp; done) | split | (dsimp only; split))
@[simp] theorem commitAll_changes (s : State) : ((commitAll s)).changes = s.changes := by unfold commitAll; repeat' (first | rfl | (simp; done) | split | (dsimp only; split))
@[simp] theorem commitAll_mem (s : State) : ((commitAll s)).mem = s.mem := by unfold commitAll; repeat' (first | rfl | (simp; done) | split | (dsimp only; split))
@[simp] theorem commitAll_out (s : State) : ((commitAll s)).out = s.out := by unfold commitAll; repeat' (first | rfl | (simp; done) | split | (dsimp only; split))
@[simp] theorem commitAll_fresh (s : State) : ((commitAll s)).fresh = s.fresh := by unfold commitAll; repeat' (first | rfl | (simp; done) | split | (dsimp only; split))
@[simp] theorem commitAll_pending (s : State) : ((commitAll s)).pending = s.pending := by unfold commitAll; repeat' (first | rfl | (simp; done) | split | (dsimp only; split))
@[simp] theorem commitEntry_shadow (s : State) (p : Payload) : ((commitEntry s p)).shadow = s.shadow := by unfold commitEntry; repeat' (first | rfl | (simp; done) | split | (dsimp only; split))
@[simp] theorem commitEntry_sel (s : State) (p : Payload) : ((commitEntry s p)).sel = s.sel := by unfold commitEntry; repeat' (first | rfl | (simp; done) | split | (dsimp only; split))
@[simp] theorem commitEntry_power (s : State) (p : Payload) : ((commitEntry s p)).power = s.power := by unfold commitEntry; repeat' (first | rfl | (simp; done) | split | (dsimp only; split))
@[simp] theorem commitEntry_boot (s : State) (p : Payload) : ((commitEntry s p)).boot = s.boot := by unfold commitEntry; repeat' (first | rfl | (simp; done) | split | (dsimp only; split))
@[simp] theorem commitEntry_fuses (s : State) (p : Payload) : ((commitEntry s p)).fuses = s.fuses := by unfold commitEntry; repeat' (first | rfl | (simp; done) | split | (dsimp only; split))
@[simp] theorem commitEntry_sess (s : State) (p : Payload) : ((commitEntry s p)).sess = s.sess := by unfold commitEntry; repeat' (first | rfl | (simp; done) | split | (dsimp only; split))
@[simp] theorem commitEntry_deny (s : State) (p : Payload) : ((commitEntry s p)).deny = s.deny := by unfold commitEntry; repeat' (first | rfl | (simp; done) | split | (dsimp only; split))
@[simp] theorem commitEntry_disp (s : State) (p : Payload) : ((commitEntry s p)).disp = s.disp := by unfold commitEntry; repeat' (first | rfl | (simp; done) | split | (dsimp only; split))
@[simp] theorem commitEntry_time (s : State) (p : Payload) : ((commitEntry s p)).time = s.time := by unfold commitEntry; repeat' (first | rfl | (simp; done) | split | (dsimp only; split))
@[simp] theorem commitEntry_vault (s : State) (p : Payload) : ((commitEntry s p)).vault = s.vault := by unfold commitEntry; repeat' (first | rfl | (simp; done) | split | (dsimp only; split))
@[simp] theorem commitEntry_nfc (s : State) (p : Payload) : ((commitEntry s p)).nfc = s.nfc := by unfold commitEntry; repeat' (first | rfl | (simp; done) | split | (dsimp only; split))
@[simp] theorem commitEntry_lanes (s : State) (p : Payload) : ((commitEntry s p)).lanes = s.lanes := by unfold commitEntry; repeat' (first | rfl | (simp; done) | split | (dsimp only; split))
@[simp] theorem commitEntry_aon (s : State) (p : Payload) : ((commitEntry s p)).aon = s.aon := by unfold commitEntry; repeat' (first | rfl | (simp; done) | split | (dsimp only; split))
@[simp] theorem commitEntry_net (s : State) (p : Payload) : ((commitEntry s p)).net = s.net := by unfold commitEntry; repeat' (first | rfl | (simp; done) | split | (dsimp only; split))
@[simp] theorem commitEntry_tables (s : State) (p : Payload) : ((commitEntry s p)).tables = s.tables := by unfold commitEntry; repeat' (first | rfl | (simp; done) | split | (dsimp only; split))
@[simp] theorem commitEntry_ports (s : State) (p : Payload) : ((commitEntry s p)).ports = s.ports := by unfold commitEntry; repeat' (first | rfl | (simp; done) | split | (dsimp only; split))
@[simp] theorem commitEntry_cipher (s : State) (p : Payload) : ((commitEntry s p)).cipher = s.cipher := by unfold commitEntry; repeat' (first | rfl | (simp; done) | split | (dsimp only; split))
@[simp] theorem commitEntry_bridge (s : State) (p : Payload) : ((commitEntry s p)).bridge = s.bridge := by unfold commitEntry; repeat' (first | rfl | (simp; done) | split | (dsimp only; split))
@[simp] theorem commitEntry_hlb (s : State) (p : Payload) : ((commitEntry s p)).hlb = s.hlb := by unfold commitEntry; repeat' (first | rfl | (simp; done) | split | (dsimp only; split))
@[simp] theorem commitEntry_wheels (s : State) (p : Payload) : ((commitEntry s p)).wheels = s.wheels := by unfold commitEntry; repeat' (first | rfl | (simp; done) | split | (dsimp only; split))
@[simp] theorem commitEntry_map (s : State) (p : Payload) : ((commitEntry s p)).map = s.map := by unfold commitEntry; repeat' (first | rfl | (simp; done) | split | (dsimp only; split))
@[simp] theorem commitEntry_changes (s : State) (p : Payload) : ((commitEntry s p)).changes = s.changes := by unfold commitEntry; repeat' (first | rfl | (simp; done) | split | (dsimp only; split))
@[simp] theorem commitEntry_mem (s : State) (p : Payload) : ((commitEntry s p)).mem = s.mem := by unfold commitEntry; repeat' (first | rfl | (simp; done) | split | (dsimp only; split))
@[simp] theorem commitEntry_out (s : State) (p : Payload) : ((commitEntry s p)).out = s.out := by unfold commitEntry; repeat' (first | rfl | (simp; done) | split | (dsimp only; split))
@[simp] theorem commitEntry_fresh (s : State) (p : Payload) : ((commitEntry s p)).fresh = s.fresh := by unfold commitEntry; repeat' (first | rfl | (simp; done) | split | (dsimp only; split))
@[simp] theorem commitEntry_pending (s : State) (p : Payload) : ((commitEntry s p)).pending = s.pending := by unfold commitEntry; repeat' (first | rfl | (simp; done) | split | (dsimp only; split))
@[simp] theorem auditRefusal_shadow (s : State) (role : ℕ) (st : Status) (op : ℕ) (r : Req) : ((auditRefusal s role st op r)).shadow = s.shadow := by unfold auditRefusal; repeat' (first | rfl | (simp; done) | split | (dsimp only; split))
@[simp] theorem auditRefusal_sel (s : State) (role : ℕ) (st : Status) (op : ℕ) (r : Req) : ((auditRefusal s role st op r)).sel = s.sel := by unfold auditRefusal; repeat' (first | rfl | (simp; done) | split | (dsimp only; split))
@[simp] theorem auditRefusal_power (s : State) (role : ℕ) (st : Status) (op : ℕ) (r : Req) : ((auditRefusal s role st op r)).power = s.power := by unfold auditRefusal; repeat' (first | rfl | (simp; done) | split | (dsimp only; split))
@[simp] theorem auditRefusal_boot (s : State) (role : ℕ) (st : Status) (op : ℕ) (r : Req) : ((auditRefusal s role st op r)).boot = s.boot := by unfold auditRefusal; repeat' (first | rfl | (simp; done) | split | (dsimp only; split))
@[simp] theorem auditRefusal_fuses (s : State) (role : ℕ) (st : Status) (op : ℕ) (r : Req) : ((auditRefusal s role st op r)).fuses = s.fuses := by unfold auditRefusal; repeat' (first | rfl | (simp; done) | split | (dsimp only; split))
@[simp] theorem auditRefusal_sess (s : State) (role : ℕ) (st : Status) (op : ℕ) (r : Req) : ((auditRefusal s role st op r)).sess = s.sess := by unfold auditRefusal; repeat' (first | rfl | (simp; done) | split | (dsimp only; split))
@[simp] theorem auditRefusal_disp (s : State) (role : ℕ) (st : Status) (op : ℕ) (r : Req) : ((auditRefusal s role st op r)).disp = s.disp := by unfold auditRefusal; repeat' (first | rfl | (simp; done) | split | (dsimp only; split))
@[simp] theorem auditRefusal_time (s : State) (role : ℕ) (st : Status) (op : ℕ) (r : Req) : ((auditRefusal s role st op r)).time = s.time := by unfold auditRefusal; repeat' (first | rfl | (simp; done) | split | (dsimp only; split))
@[simp] theorem auditRefusal_vault (s : State) (role : ℕ) (st : Status) (op : ℕ) (r : Req) : ((auditRefusal s role st op r)).vault = s.vault := by unfold auditRefusal; repeat' (first | rfl | (simp; done) | split | (dsimp only; split))
@[simp] theorem auditRefusal_nfc (s : State) (role : ℕ) (st : Status) (op : ℕ) (r : Req) : ((auditRefusal s role st op r)).nfc = s.nfc := by unfold auditRefusal; repeat' (first | rfl | (simp; done) | split | (dsimp only; split))
@[simp] theorem auditRefusal_lanes (s : State) (role : ℕ) (st : Status) (op : ℕ) (r : Req) : ((auditRefusal s role st op r)).lanes = s.lanes := by unfold auditRefusal; repeat' (first | rfl | (simp; done) | split | (dsimp only; split))
@[simp] theorem auditRefusal_aon (s : State) (role : ℕ) (st : Status) (op : ℕ) (r : Req) : ((auditRefusal s role st op r)).aon = s.aon := by unfold auditRefusal; repeat' (first | rfl | (simp; done) | split | (dsimp only; split))
@[simp] theorem auditRefusal_net (s : State) (role : ℕ) (st : Status) (op : ℕ) (r : Req) : ((auditRefusal s role st op r)).net = s.net := by unfold auditRefusal; repeat' (first | rfl | (simp; done) | split | (dsimp only; split))
@[simp] theorem auditRefusal_tables (s : State) (role : ℕ) (st : Status) (op : ℕ) (r : Req) : ((auditRefusal s role st op r)).tables = s.tables := by unfold auditRefusal; repeat' (first | rfl | (simp; done) | split | (dsimp only; split))
@[simp] theorem auditRefusal_ports (s : State) (role : ℕ) (st : Status) (op : ℕ) (r : Req) : ((auditRefusal s role st op r)).ports = s.ports := by unfold auditRefusal; repeat' (first | rfl | (simp; done) | split | (dsimp only; split))
@[simp] theorem auditRefusal_cipher (s : State) (role : ℕ) (st : Status) (op : ℕ) (r : Req) : ((auditRefusal s role st op r)).cipher = s.cipher := by unfold auditRefusal; repeat' (first | rfl | (simp; done) | split | (dsimp only; split))
@[simp] theorem auditRefusal_bridge (s : State) (role : ℕ) (st : Status) (op : ℕ) (r : Req) : ((auditRefusal s role st op r)).bridge = s.bridge := by unfold auditRefusal; repeat' (first | rfl | (simp; done) | split | (dsimp only; split))
@[simp] theorem auditRefusal_hlb (s : State) (role : ℕ) (st : Status) (op : ℕ) (r : Req) : ((auditRefusal s role st op r)).hlb = s.hlb := by unfold auditRefusal; repeat' (first | rfl | (simp; done) | split | (dsimp only; split))
@[simp] theorem auditRefusal_wheels (s : State) (role : ℕ) (st : Status) (op : ℕ) (r : Req) : ((auditRefusal s role st op r)).wheels = s.wheels := by unfold auditRefusal; repeat' (first | rfl | (simp; done) | split | (dsimp only; split))
@[simp] theorem auditRefusal_map (s : State) (role : ℕ) (st : Status) (op : ℕ) (r : Req) : ((auditRefusal s role st op r)).map = s.map := by unfold auditRefusal; repeat' (first | rfl | (simp; done) | split | (dsimp only; split))
@[simp] theorem auditRefusal_changes (s : State) (role : ℕ) (st : Status) (op : ℕ) (r : Req) : ((auditRefusal s role st op r)).changes = s.changes := by unfold auditRefusal; repeat' (first | rfl | (simp; done) | split | (dsimp only; split))
@[simp] theorem auditRefusal_mem (s : State) (role : ℕ) (st : Status) (op : ℕ) (r : Req) : ((auditRefusal s role st op r)).mem = s.mem := by unfold auditRefusal; repeat' (first | rfl | (simp; done) | split | (dsimp only; split))
@[simp] theorem auditRefusal_out (s : State) (role : ℕ) (st : Status) (op : ℕ) (r : Req) : ((auditRefusal s role st op r)).out = s.out := by unfold auditRefusal; repeat' (first | rfl | (simp; done) | split | (dsimp only; split))
@[simp] theorem auditRefusal_fresh (s : State) (role : ℕ) (st : Status) (op : ℕ) (r : Req) : ((auditRefusal s role st op r)).fresh = s.fresh := by unfold auditRefusal; repeat' (first | rfl | (simp; done) | split | (dsimp only; split))
@[simp] theorem auditRefusal_pending (s : State) (role : ℕ) (st : Status) (op : ℕ) (r : Req) : ((auditRefusal s role st op r)).pending = s.pending := by unfold auditRefusal; repeat' (first | rfl | (simp; done) | split | (dsimp only; split))

@[simp] theorem lanesFollow_rf (s : State) : (lanesFollow s).rf = s.rf := foldl_field State.rf laneFollow_rf _ _
@[simp] theorem lanesFollow_shadow (s : State) : (lanesFollow s).shadow = s.shadow := foldl_field State.shadow laneFollow_shadow _ _
@[simp] theorem lanesFollow_sel (s : State) : (lanesFollow s).sel = s.sel := foldl_field State.sel laneFollow_sel _ _
@[simp] theorem lanesFollow_power (s : State) : (lanesFollow s).power = s.power := foldl_field State.power laneFollow_power _ _
@[simp] theorem lanesFollow_boot (s : State) : (lanesFollow s).boot = s.boot := foldl_field State.boot laneFollow_boot _ _
@[simp] theorem lanesFollow_fuses (s : State) : (lanesFollow s).fuses = s.fuses := foldl_field State.fuses laneFollow_fuses _ _
@[simp] theorem lanesFollow_sess (s : State) : (lanesFollow s).sess = s.sess := foldl_field State.sess laneFollow_sess _ _
@[simp] theorem lanesFollow_deny (s : State) : (lanesFollow s).deny = s.deny := foldl_field State.deny laneFollow_deny _ _
@[simp] theorem lanesFollow_disp (s : State) : (lanesFollow s).disp = s.disp := foldl_field State.disp laneFollow_disp _ _
@[simp] theorem lanesFollow_time (s : State) : (lanesFollow s).time = s.time := foldl_field State.time laneFollow_time _ _
@[simp] theorem lanesFollow_vault (s : State) : (lanesFollow s).vault = s.vault := foldl_field State.vault laneFollow_vault _ _
@[simp] theorem lanesFollow_nfc (s : State) : (lanesFollow s).nfc = s.nfc := foldl_field State.nfc laneFollow_nfc _ _
@[simp] theorem lanesFollow_ledger (s : State) : (lanesFollow s).ledger = s.ledger := foldl_field State.ledger laneFollow_ledger _ _
@[simp] theorem lanesFollow_aon (s : State) : (lanesFollow s).aon = s.aon := foldl_field State.aon laneFollow_aon _ _
@[simp] theorem lanesFollow_net (s : State) : (lanesFollow s).net = s.net := foldl_field State.net laneFollow_net _ _
@[simp] theorem lanesFollow_tables (s : State) : (lanesFollow s).tables = s.tables := foldl_field State.tables laneFollow_tables _ _
@[simp] theorem lanesFollow_ports (s : State) : (lanesFollow s).ports = s.ports := foldl_field State.ports laneFollow_ports _ _
@[simp] theorem lanesFollow_cipher (s : State) : (lanesFollow s).cipher = s.cipher := foldl_field State.cipher laneFollow_cipher _ _
@[simp] theorem lanesFollow_bridge (s : State) : (lanesFollow s).bridge = s.bridge := foldl_field State.bridge laneFollow_bridge _ _
@[simp] theorem lanesFollow_hlb (s : State) : (lanesFollow s).hlb = s.hlb := foldl_field State.hlb laneFollow_hlb _ _
@[simp] theorem lanesFollow_wheels (s : State) : (lanesFollow s).wheels = s.wheels := foldl_field State.wheels laneFollow_wheels _ _
@[simp] theorem lanesFollow_map (s : State) : (lanesFollow s).map = s.map := foldl_field State.map laneFollow_map _ _
@[simp] theorem lanesFollow_changes (s : State) : (lanesFollow s).changes = s.changes := foldl_field State.changes laneFollow_changes _ _
@[simp] theorem lanesFollow_bgs (s : State) : (lanesFollow s).bgs = s.bgs := foldl_field State.bgs laneFollow_bgs _ _
@[simp] theorem lanesFollow_mem (s : State) : (lanesFollow s).mem = s.mem := foldl_field State.mem laneFollow_mem _ _
@[simp] theorem lanesFollow_freeze (s : State) : (lanesFollow s).freeze = s.freeze := foldl_field State.freeze laneFollow_freeze _ _
@[simp] theorem lanesFollow_out (s : State) : (lanesFollow s).out = s.out := foldl_field State.out laneFollow_out _ _
@[simp] theorem lanesFollow_fresh (s : State) : (lanesFollow s).fresh = s.fresh := foldl_field State.fresh laneFollow_fresh _ _
@[simp] theorem lanesFollow_pending (s : State) : (lanesFollow s).pending = s.pending := foldl_field State.pending laneFollow_pending _ _
@[simp] theorem haltAt_rf (s : State) (k : Nat) : (haltAt s k).rf = s.rf := by unfold haltAt; simp
@[simp] theorem haltAt_shadow (s : State) (k : Nat) : (haltAt s k).shadow = s.shadow := by unfold haltAt; simp
@[simp] theorem haltAt_sel (s : State) (k : Nat) : (haltAt s k).sel = s.sel := by unfold haltAt; simp
@[simp] theorem haltAt_fuses (s : State) (k : Nat) : (haltAt s k).fuses = s.fuses := by unfold haltAt; simp
@[simp] theorem haltAt_sess (s : State) (k : Nat) : (haltAt s k).sess = s.sess := by unfold haltAt; simp
@[simp] theorem haltAt_deny (s : State) (k : Nat) : (haltAt s k).deny = s.deny := by unfold haltAt; simp
@[simp] theorem haltAt_disp (s : State) (k : Nat) : (haltAt s k).disp = s.disp := by unfold haltAt; simp
@[simp] theorem haltAt_time (s : State) (k : Nat) : (haltAt s k).time = s.time := by unfold haltAt; simp
@[simp] theorem haltAt_vault (s : State) (k : Nat) : (haltAt s k).vault = s.vault := by unfold haltAt; simp
@[simp] theorem haltAt_nfc (s : State) (k : Nat) : (haltAt s k).nfc = s.nfc := by unfold haltAt; simp
@[simp] theorem haltAt_ledger (s : State) (k : Nat) : (haltAt s k).ledger = s.ledger := by unfold haltAt; simp
@[simp] theorem haltAt_aon (s : State) (k : Nat) : (haltAt s k).aon = s.aon := by unfold haltAt; simp
@[simp] theorem haltAt_net (s : State) (k : Nat) : (haltAt s k).net = s.net := by unfold haltAt; simp
@[simp] theorem haltAt_tables (s : State) (k : Nat) : (haltAt s k).tables = s.tables := by unfold haltAt; simp
@[simp] theorem haltAt_ports (s : State) (k : Nat) : (haltAt s k).ports = s.ports := by unfold haltAt; simp
@[simp] theorem haltAt_cipher (s : State) (k : Nat) : (haltAt s k).cipher = s.cipher := by unfold haltAt; simp
@[simp] theorem haltAt_bridge (s : State) (k : Nat) : (haltAt s k).bridge = s.bridge := by unfold haltAt; simp
@[simp] theorem haltAt_hlb (s : State) (k : Nat) : (haltAt s k).hlb = s.hlb := by unfold haltAt; simp
@[simp] theorem haltAt_wheels (s : State) (k : Nat) : (haltAt s k).wheels = s.wheels := by unfold haltAt; simp
@[simp] theorem haltAt_map (s : State) (k : Nat) : (haltAt s k).map = s.map := by unfold haltAt; simp
@[simp] theorem haltAt_changes (s : State) (k : Nat) : (haltAt s k).changes = s.changes := by unfold haltAt; simp
@[simp] theorem haltAt_bgs (s : State) (k : Nat) : (haltAt s k).bgs = s.bgs := by unfold haltAt; simp
@[simp] theorem haltAt_mem (s : State) (k : Nat) : (haltAt s k).mem = s.mem := by unfold haltAt; simp
@[simp] theorem haltAt_freeze (s : State) (k : Nat) : (haltAt s k).freeze = s.freeze := by unfold haltAt; simp
@[simp] theorem haltAt_out (s : State) (k : Nat) : (haltAt s k).out = s.out := by unfold haltAt; simp
@[simp] theorem haltAt_fresh (s : State) (k : Nat) : (haltAt s k).fresh = s.fresh := by unfold haltAt; simp
@[simp] theorem haltAt_pending (s : State) (k : Nat) : (haltAt s k).pending = s.pending := by unfold haltAt; simp
@[simp] theorem haltAt_phase (s : State) (k : Nat) : (haltAt s k).power.phase = .halted := by unfold haltAt; simp
@[simp] theorem haltAt_boot (s : State) (k : Nat) : (haltAt s k).boot = (stepFailed s k).boot := by unfold haltAt; simp

end Sys2Proof.Machine
end

