-- ==== Sys2Proof/Laws/Clock.lean ====
section
/-! SUPPORT. What the passing of time does to ledger time, and what it leaves of the beat count of a core that is not asleep. -/

namespace Sys2Proof.Machine

/-- Ledger time in units of 2^-40 s. -/
abbrev ltimeUnits (s : State) : Nat := s.ledger.sec * 2 ^ 40 + s.ledger.frac

/-- A state whose ledger time lies in its fields, at or after a moment. -/
structure ClockFrom (n : Nat) (s : State) : Prop where
  clock : s.Clock
  later : n ≤ ltimeUnits s

/-- Ledger time and TRIM as they were. -/
theorem clock_of_eq {n : Nat} {s t : State} (h : ClockFrom n s)
    (e : (t.ledger.sec, t.ledger.frac, t.ledger.trim) = (s.ledger.sec, s.ledger.frac, s.ledger.trim)) : ClockFrom n t := by
  simp only [Prod.mk.injEq] at e
  obtain ⟨e1, e2, e3⟩ := e
  obtain ⟨⟨a, b, c, d⟩, l⟩ := h
  refine ⟨⟨by rw [e1]; exact a, by rw [e2]; exact b, by rw [e3]; exact c, by rw [e3]; exact d⟩, ?_⟩
  unfold ltimeUnits at *
  rw [e1, e2]
  exact l

/-- An operation that keeps every mark of the clock keeps ledger time where it is. -/
theorem clock_of_kept {n : Nat} {s t : State} (h : ClockFrom n s)
    (k : Kept False ⟨none, some (s.ledger.sec, s.ledger.frac, s.ledger.trim), none, none, none, none, none⟩ s →
      Kept False ⟨none, some (s.ledger.sec, s.ledger.frac, s.ledger.trim), none, none, none, none, none⟩ t) : ClockFrom n t :=
  clock_of_eq h ((k
    { pending := fun _ e => by cases e
      clock := fun _ e => by cases e; rfl
      beat := fun _ e => by cases e
      seq := fun _ e => by cases e
      map := fun _ e => by cases e
      slots := fun _ e => by cases e
      odo := fun c => c.elim
      sound := fun c => c.elim }).clock _ rfl)

theorem ltimeStep_fields (s : State) :
    (ltimeStep s).ledger.trim = s.ledger.trim ∧
    ((ltimeStep s).ledger.sec = 2 ^ 48 - 1 ∧ (ltimeStep s).ledger.frac = 2 ^ 40 - 1 ∨
     (ltimeStep s).ledger.sec < 2 ^ 48 ∧ (ltimeStep s).ledger.frac < 2 ^ 40 ∧
      ltimeUnits (ltimeStep s) = s.ledger.sec * 2 ^ 40 + ((s.ledger.frac : Int) + 2 ^ 25 + s.ledger.trim).toNat) := by
  unfold ltimeStep ltimeUnits
  dsimp only
  generalize ((s.ledger.frac : Int) + 2 ^ 25 + s.ledger.trim).toNat = f
  split
  · exact ⟨rfl, .inl ⟨rfl, rfl⟩⟩
  · refine ⟨rfl, .inr ⟨by dsimp only; omega, by dsimp only; omega, by dsimp only; omega⟩⟩

theorem ltimeStep_clock {n : Nat} {s : State} (h : ClockFrom n s) : ClockFrom n (ltimeStep s) := by
  obtain ⟨⟨a, b, c, d⟩, l⟩ := h
  obtain ⟨e, f⟩ := ltimeStep_fields s
  unfold ltimeUnits at l f
  generalize ltimeStep s = t at e f
  rcases f with ⟨f1, f2⟩ | ⟨f1, f2, f3⟩
  · refine ⟨⟨by omega, by omega, by omega, by omega⟩, ?_⟩
    show n ≤ t.ledger.sec * 2 ^ 40 + t.ledger.frac
    rw [f1, f2]
    clear f1 f2 c d e
    generalize s.ledger.sec = x at *
    generalize s.ledger.frac = y at *
    refine Nat.le_trans l ?_
    have h1 : x * 2 ^ 40 ≤ (2 ^ 48 - 1) * 2 ^ 40 := Nat.mul_le_mul_right _ (by omega)
    exact Nat.add_le_add h1 (by omega)
  · refine ⟨⟨by omega, by omega, by omega, by omega⟩, ?_⟩
    show n ≤ t.ledger.sec * 2 ^ 40 + t.ledger.frac
    rw [f3]
    clear f1 f2 f3 a b
    have e : s.ledger.frac ≤ ((s.ledger.frac : Int) + 2 ^ 25 + s.ledger.trim).toNat := by omega
    exact Nat.le_trans l (Nat.add_le_add_left e _)

theorem periodStep_clock {n : Nat} {s : State} (h : ClockFrom n s) : ClockFrom n (periodStep s) := by
  unfold periodStep
  exact clock_of_kept (clock_of_kept (ltimeStep_clock h) fun k => ltimeFinal_kept _ k) fun k => alarmStep_kept _ k rfl

theorem oscPass_clock (m : Nat) {n : Nat} {s : State} (h : ClockFrom n s) : ClockFrom n (oscPass m s) := by
  unfold oscPass
  split
  · exact h
  · dsimp only
    have h0 : ClockFrom n { s with ledger := { s.ledger with phase := (s.ledger.phase + 32768 * m) % 250000000 } } := clock_of_eq h rfl
    generalize List.range ((s.ledger.phase + 32768 * m) / 250000000) = l
    generalize { s with ledger := { s.ledger with phase := (s.ledger.phase + 32768 * m) % 250000000 } } = t at h0
    induction l generalizing t with
    | nil => exact h0
    | cons x l ih => exact ih _ (periodStep_clock h0)

/-- The passing of ticks never takes ledger time back. -/
theorem pass_clock (m : Nat) {n : Nat} {s : State} (h : ClockFrom n s) : ClockFrom n (pass m s) :=
  oscPass_clock m (clock_of_kept h fun k => corePass_kept _ _ k)

/-- A core that is not asleep, with its beat count and local time. -/
def CoreAt (p : Phase) (b : Word) (n : Nat) (s : State) : Prop := s.power.phase = p ∧ s.time.beatCnt = b ∧ s.time.ticks = n

theorem raiseN_core {p : Phase} {b : Word} {n : Nat} {s : State} (k : Nat) (h : CoreAt p b n s) : CoreAt p b n (raiseN s k) := by
  have e : (raiseN s k).power = s.power ∧ (raiseN s k).time = s.time := by
    unfold raiseN
    split
    · exact ⟨rfl, rfl⟩
    · dsimp only; split <;> exact ⟨by simp, by simp⟩
  unfold CoreAt
  rw [e.1, e.2]
  exact h

theorem wakeBy_core {p : Phase} {b : Word} {n : Nat} {s : State} (k : Nat) (hp : p ≠ .asleep) (h : CoreAt p b n s) :
    CoreAt p b n (wakeBy s k) := by
  have e : (noteWake s k).power.phase = s.power.phase ∧ (noteWake s k).time = s.time := by
    unfold noteWake
    dsimp only
    split <;> exact ⟨by simp, by simp⟩
  have e' : CoreAt p b n (noteWake s k) := by
    unfold CoreAt
    rw [e.1, e.2]
    exact h
  unfold wakeBy
  split
  · exact e'
  · split
    · exact e'
    · exact h
  · rename_i ha
    exact absurd (h.1.symm.trans ha) hp
  · exact h

theorem alarmFire_core {p : Phase} {b : Word} {n : Nat} {s : State} (hp : p ≠ .asleep) (h : CoreAt p b n s) :
    CoreAt p b n (alarmFire s) := by
  have h' : CoreAt p b n (wr { s with power := { s.power with alarmLeft := 0 } } R_PWR_ALARM 0) := h
  unfold alarmFire
  dsimp only
  split
  · exact wakeBy_core _ hp h'
  · exact h'

theorem periodStep_core {p : Phase} {b : Word} {n : Nat} {s : State} (hp : p ≠ .asleep) (h : CoreAt p b n s) :
    CoreAt p b n (periodStep s) := by
  have h1 : CoreAt p b n (ltimeStep s) := by
    unfold ltimeStep; dsimp only; split <;> exact h
  have h2 : CoreAt p b n (ltimeFinal (ltimeStep s)) := by
    unfold ltimeFinal
    split
    · unfold monoFinal raise
      refine raiseN_core _ ?_
      exact h1
    · exact h1
  unfold periodStep alarmStep
  dsimp only
  split
  · exact h2
  · split
    · exact alarmFire_core hp h2
    · exact h2

theorem oscPass_core {p : Phase} {b : Word} {n : Nat} (m : Nat) {s : State} (hp : p ≠ .asleep) (h : CoreAt p b n s) :
    CoreAt p b n (oscPass m s) := by
  unfold oscPass
  split
  · exact h
  · dsimp only
    have h0 : CoreAt p b n { s with ledger := { s.ledger with phase := (s.ledger.phase + 32768 * m) % 250000000 } } := h
    generalize List.range ((s.ledger.phase + 32768 * m) / 250000000) = l
    generalize { s with ledger := { s.ledger with phase := (s.ledger.phase + 32768 * m) % 250000000 } } = t at h0
    induction l generalizing t with
    | nil => exact h0
    | cons x l ih => exact ih _ (periodStep_core hp h0)

theorem domPass_core {p : Phase} {b : Word} {n : Nat} (m : Nat) {s : State} (k : Nat) (h : CoreAt p b n s) :
    CoreAt p b n (domPass m s k) := by
  unfold domPass
  split
  · exact h
  · dsimp only
    split
    · exact raiseN_core _ h
    · exact h

/-- Outside freeze the ticks that pass are counted in the timebase of a core that is on. -/
theorem corePass_core {p : Phase} {b : Word} {n : Nat} (m : Nat) {s : State} (ha : p ≠ .asleep) (hr : p ≠ .railPhase)
    (hf : s.freeze.frozen = false) (h : CoreAt p b n s) : CoreAt p b (n + m) (corePass m s) := by
  have h0 : CoreAt p b (n + m) { s with time := { s.time with ticks := s.time.ticks + m, beatPos := s.time.beatPos + m } } :=
    ⟨h.1, h.2.1, by dsimp only; rw [h.2.2]⟩
  unfold corePass
  rw [hf, if_neg (by decide)]
  split
  · rename_i e; exact absurd (h.1.symm.trans e) ha
  · rename_i e; exact absurd (h.1.symm.trans e) hr
  · exact domPass_core _ _ (domPass_core _ _ (domPass_core _ _ h0))

theorem pass_core {p : Phase} {b : Word} {n : Nat} (m : Nat) {s : State} (ha : p ≠ .asleep) (hr : p ≠ .railPhase)
    (hf : s.freeze.frozen = false) (h : CoreAt p b n s) : CoreAt p b (n + m) (Machine.pass m s) :=
  oscPass_core m ha (corePass_core m ha hr hf h)

end Sys2Proof.Machine
end

