-- ==== Sys2Proof/Laws/Dispatch.lean ====
section
/-! SUPPORT. What the dispatcher does with a request that it serves, and with one that it refuses. -/

namespace Sys2Proof.Machine

variable {op : Nat} {r : Req} {role : Nat} {judge : State → Nat → Option Status} {s : State}

@[simp] theorem waiting_pull (s : State) (c d : Chan) (x : Option Ctx) (h : d ≠ c) :
    waiting (pullRequest s c x) d = waiting s d := by
  cases c <;> cases d <;> first | rfl | exact absurd rfl h

@[simp] theorem cur_pull (s : State) (c : Chan) (x : Option Ctx) : (pullRequest s c x).disp.cur = x := by
  cases c <;> rfl

@[simp] theorem sessOf_pull (s : State) (c : Chan) (x : Option Ctx) (k : Nat) : sessOf (pullRequest s c x) k = sessOf s k := by
  cases c <;> rfl

@[simp] theorem boot_pull (s : State) (c : Chan) (x : Option Ctx) : (pullRequest s c x).boot = s.boot := by
  cases c <;> rfl

theorem ctxLive_pull (s : State) (c : Chan) (x : Option Ctx) (r : Req) (k : Ctx) :
    ctxLive (pullRequest s c x) r k = ctxLive s r k := by
  unfold ctxLive
  rw [sessOf_pull]

theorem takeRequest_served (h : ∀ w, (waiting s r.chan).head? = some w → w.opcode = op ∧ w.session = r.session ∧ w.seq = r.seq) :
    takeRequest (begin_ s) r op = some (taken r s) := by
  unfold takeRequest taken heldCtx
  rw [waiting_begin]
  cases e : waiting s r.chan with
  | nil => rfl
  | cons w t =>
    have := h w (by rw [e]; rfl)
    simp only [this, and_self, if_true]
    rfl

theorem noted_cur {c : Ctx} (h : heldCtx r s = some c) : (noted r role s).disp.cur = some c := by
  unfold noted taken
  rw [h]
  dsimp only
  split
  · exact cur_pull _ _ _
  · exact cur_pull _ _ _

theorem checkSession_served {c : Ctx} (hc : heldCtx r s = some c)
    (hf : c.role ≠ 0 → tagGood op r c = true ∧ seqLater r.seq.toNat (lastHeard r c s).toNat 32 = true) :
    checkSession (taken r s) op r c = (none, noted r c.role s) := by
  have hl : ctxLive (taken r s) r c = ctxLive s r c := ctxLive_pull _ _ _ _ _
  have hs : sessOf (taken r s) c.role = sessOf s c.role := sessOf_pull _ _ _ _
  unfold checkSession noted
  rw [hc]
  dsimp only
  by_cases h0 : c.role = 0
  · simp [h0]
  · obtain ⟨h1, h2⟩ := hf h0
    unfold lastHeard at h2
    rw [if_neg h0, hl, hs]
    simp only [h1, h2, Bool.not_true, Bool.false_eq_true, if_false, ne_eq, h0, not_false_eq_true, true_and]

theorem entered_true : entered op r role true .ok s = admitted op r role s := rfl

theorem entered_false : entered op r role false .ok s = audited op r role s := rfl

/-- A served request runs the command: its plan is planDone out and answered, unless the answer comes later. -/
theorem dispatch_served {body : State → Plan} (h : Served op r role judge s) (hp : op = 0x0A01 → (body (noted r role s)).status = .ok)
    (hL : role ≠ 0 → op ≠ 0x0A01 → (body (heard op r role s)).changes = true → ledgerLive (heard op r role s) = true →
      ledgerRoom (heard op r role s) = true) :
    dispatch op r judge body s =
      let p := body (heard op r role s)
      let x := planDone op r role p s
      if p.later (heard op r role s) then setCur x.1 none
      else answer (if role = 0 ∨ op = 0x0A01 then countHostDeny x.1 role x.2.1 else x.1) r op x.2.1 x.2.2 := by
  obtain ⟨c, hc, hr⟩ : ∃ c, heldCtx r s = some c ∧ c.role = role := by
    have := h.context
    cases e : heldCtx r s with
    | none => rw [e] at this; cases this
    | some c => rw [e] at this; exact ⟨c, rfl, Option.some.inj this⟩
  have h1 : running (begin_ s) = true := h.running
  have h2 : (roomFor (begin_ s) r.chan || acceptedHead (begin_ s) r.chan) = true := by
    rw [roomFor_begin, acceptedHead_begin, Bool.or_eq_true]; exact h.room
  have h3 : (taken r s).boot.recovery = false := by
    unfold taken; rw [boot_pull]; exact h.normal
  have h4 : (taken r s).disp.cur = some c := by
    unfold taken; rw [cur_pull]; exact hc
  have h5 := checkSession_served (op := op) hc (fun h0 => h.fresh (by rw [← hr]; exact h0) c hc)
  rw [hr] at h5
  unfold dispatch
  dsimp only
  rw [h1, h2, takeRequest_served h.turn]
  dsimp only
  rw [h3, h4]
  simp only [Bool.not_true, Bool.or_self, Bool.false_eq_true, if_false, Bool.false_and, h5, hr]
  unfold runCommand
  rw [h.right]
  dsimp only
  by_cases hh : role = 0 ∨ op = 0x0A01
  · have hn : ¬ (role ≠ 0 ∧ ¬ (op = 0x0A01 ∧ (body (noted r role s)).status = .ok)) := by
      rintro ⟨a, b⟩
      rcases hh with hh | hh
      · exact a hh
      · exact b ⟨hh, hp hh⟩
    have hd : heard op r role s = noted r role s := by unfold heard; rw [if_pos hh]
    have he : ∀ ch st, entered op r role ch st s = noted r role s := fun ch st => by
      unfold entered; rw [if_pos hh, hd]
    rw [if_neg hn, if_pos hh, hd]
    unfold planDone
    simp only [he]
  · have hn : role ≠ 0 ∧ ¬ (op = 0x0A01 ∧ (body (noted r role s)).status = .ok) := ⟨fun a => hh (.inl a), fun a => hh (.inr a.1)⟩
    have hd : heard op r role s = endRun (noted r role s) role := by unfold heard; rw [if_neg hh]
    have he : ∀ ch st, entered op r role ch st s =
        if ch then commitAll (roleEntry (heard op r role s) role st op r) else auditRefusal (heard op r role s) role st op r :=
      fun ch st => by unfold entered; rw [if_neg hh]
    rw [if_pos hn, if_neg hh, ← hd]
    have hb : (body (heard op r role s)).barred (heard op r role s) = false := by
      unfold Plan.barred
      cases hc : (body (heard op r role s)).changes with
      | false => rfl
      | true =>
        cases hv : ledgerLive (heard op r role s) with
        | false => rfl
        | true => rw [hL hn.1 (fun e => hh (.inr e)) hc hv]; rfl
    have hx : actRecorded op r role (body (heard op r role s)) (heard op r role s) = planDone op r role (body (heard op r role s)) s := by
      unfold actRecorded planDone
      simp only [he]
      rw [hb]
      rfl
    rw [hx, hb, Bool.not_false, Bool.and_true]

/-- A granted command that changes state and answers OK. -/
theorem dispatch_ok {body : State → Plan} {f : State → State × List Byte} (h : Granted op r role judge s)
    (ho : op ≠ 0x0A01) (hp : body (heard op r role s) = Plan.doBytes f) :
    dispatch op r judge body s = ok op r (f (admitted op r role s)).1 (f (admitted op r role s)).2 := by
  rw [dispatch_served h.served (fun e => absurd e ho) (fun a b _ d => h.ledger a b d), hp]
  simp only [planDone, Plan.doBytes, entered_true, Bool.false_eq_true, if_false, countHostDeny, ok, reduceCtorEq, and_false, ite_self]

/-- A served command that only reads. -/
theorem dispatch_read {body : State → Plan} {b : List Byte} (h : Served op r role judge s)
    (ho : op ≠ 0x0A01) (hp : body (heard op r role s) = Plan.read b) :
    dispatch op r judge body s = ok op r (audited op r role s) b := by
  rw [dispatch_served h (fun e => absurd e ho) (fun _ _ c _ => by rw [hp] at c; cases c), hp]
  simp only [planDone, Plan.read, entered_false, Bool.false_eq_true, if_false, countHostDeny, ok, reduceCtorEq, and_false, ite_self]

/-- A granted † command whose checks pass. -/
theorem dispatch_cfg {body : State → Plan} {c : Cfg} {apply : State → State} (h : Granted op r role judge s)
    (ho : op ≠ 0x0A01) (hp : body (heard op r role s) = cfgPlan none c apply (heard op r role s))
    (hf : mapFits (heard op r role s) c = true) :
    dispatch op r judge body s = configured op r role c apply s := by
  unfold mapFits at hf
  simp only [Bool.and_eq_true, decide_eq_true_eq, Bool.not_eq_true'] at hf
  refine dispatch_ok (f := fun s => (apply (commitChange (storeRecord s c)), [])) h ho (hp.trans ?_)
  unfold cfgPlan
  dsimp only
  rw [if_neg (by omega), if_neg (by rw [hf.2]; decide)]
  rfl

end Sys2Proof.Machine
end

