-- ==== Sys2Proof/Laws/Exec.lean ====
section
/-! SUPPORT. Which meaning each command runs: the arms of exec, one lemma each. -/

namespace Sys2Proof.Machine

variable (s : State)

@[simp] theorem exec_coldReset (cause : _) : exec (.coldReset cause) s = execColdReset cause s := rfl
@[simp] theorem exec_warmReset : exec .warmReset s = execWarmReset s := rfl
@[simp] theorem exec_startupPg (straps : _) (pllLocked : _) (rbiasOk : _) : exec (.startupPg straps pllLocked rbiasOk) s = execStartupPg straps pllLocked rbiasOk s := rfl
@[simp] theorem exec_startupFuse (reads : _) (temp : _) : exec (.startupFuse reads temp) s = execStartupFuse reads temp s := rfl
@[simp] theorem exec_startupSelftest (firstOk : _) (secondOk : _) : exec (.startupSelftest firstOk secondOk) s = execStartupSelftest firstOk secondOk s := rfl
@[simp] theorem exec_startupRoot (rootOk : _) (checkOk : _) (storeOk : _) : exec (.startupRoot rootOk checkOk storeOk) s = execStartupRoot rootOk checkOk storeOk s := rfl
@[simp] theorem exec_startupFw (a : _) (b : _) : exec (.startupFw a b) s = execStartupFw a b s := rfl
@[simp] theorem exec_startupLanes (mapOk : _) : exec (.startupLanes mapOk) s = execStartupLanes mapOk s := rfl
@[simp] theorem exec_startupLedger (chainBreak : _) (tailDirty : _) : exec (.startupLedger chainBreak tailDirty) s = execStartupLedger chainBreak tailDirty s := rfl
@[simp] theorem exec_startupMode : exec .startupMode s = execStartupMode s := rfl
@[simp] theorem exec_fieldWake (vbat : _) : exec (.fieldWake vbat) s = execFieldWake vbat s := rfl
@[simp] theorem exec_alarmWake : exec .alarmWake s = execAlarmWake s := rfl
@[simp] theorem exec_vbatRiseSample (mv : _) : exec (.vbatRiseSample mv) s = execVbatRiseSample mv s := rfl
@[simp] theorem exec_winWake (pin : _) : exec (.winWake pin) s = execWinWake pin s := rfl
@[simp] theorem exec_laneWake (lane : _) (evt : _) : exec (.laneWake lane evt) s = execLaneWake lane evt s := rfl
@[simp] theorem exec_wakeReceiverShort (lane : _) : exec (.wakeReceiverShort lane) s = execWakeReceiverShort lane s := rfl
@[simp] theorem exec_railPowerGood (rail : _) : exec (.railPowerGood rail) s = execRailPowerGood rail s := rfl
@[simp] theorem exec_railTimeout (rail : _) : exec (.railTimeout rail) s = execRailTimeout rail s := rfl
@[simp] theorem exec_railRetry : exec .railRetry s = execRailRetry s := rfl
@[simp] theorem exec_railLoss (rail : _) : exec (.railLoss rail) s = execRailLoss rail s := rfl
@[simp] theorem exec_brownOut : exec .brownOut s = execBrownOut s := rfl
@[simp] theorem exec_vbkpLoss : exec .vbkpLoss s = execVbkpLoss s := rfl
@[simp] theorem exec_laneShed : exec .laneShed s = execLaneShed s := rfl
@[simp] theorem exec_laneShedReturn : exec .laneShedReturn s = execLaneShedReturn s := rfl
@[simp] theorem exec_lowEnergyClear (mv : _) : exec (.lowEnergyClear mv) s = execLowEnergyClear mv s := rfl
@[simp] theorem exec_sagTrip (vcore : _) : exec (.sagTrip vcore) s = execSagTrip vcore s := rfl
@[simp] theorem exec_sagHalve : exec .sagHalve s = execSagHalve s := rfl
@[simp] theorem exec_sagRelease (vcore : _) : exec (.sagRelease vcore) s = execSagRelease vcore s := rfl
@[simp] theorem exec_sentryDwellExpiry : exec .sentryDwellExpiry s = execSentryDwellExpiry s := rfl
@[simp] theorem exec_parkTimeout : exec .parkTimeout s = execParkTimeout s := rfl
@[simp] theorem exec_approachIdleExpiry : exec .approachIdleExpiry s = execApproachIdleExpiry s := rfl
@[simp] theorem exec_serviceIdleTimeout : exec .serviceIdleTimeout s = execServiceIdleTimeout s := rfl
@[simp] theorem exec_depotIdleTimeout : exec .depotIdleTimeout s = execDepotIdleTimeout s := rfl
@[simp] theorem exec_driveStartRequest (lane : _) (ide : _) (id : _) (data : _) : exec (.driveStartRequest lane ide id data) s = execDriveStartRequest lane ide id data s := rfl
@[simp] theorem exec_driveStopRequest (lane : _) (ide : _) (id : _) (data : _) : exec (.driveStopRequest lane ide id data) s = execDriveStopRequest lane ide id data s := rfl
@[simp] theorem exec_woutAckWrite : exec .woutAckWrite s = execWoutAckWrite s := rfl
@[simp] theorem exec_pwrAlarmWrite (w : _) : exec (.pwrAlarmWrite w) s = execPwrAlarmWrite w s := rfl
@[simp] theorem exec_gateRequestWrite (pwr : _) (w : _) : exec (.gateRequestWrite pwr w) s = execGateRequestWrite pwr w s := rfl
@[simp] theorem exec_gateEffect (block : _) : exec (.gateEffect block) s = execGateEffect block s := rfl
@[simp] theorem exec_vaultHold (block : _) : exec (.vaultHold block) s = execVaultHold block s := rfl
@[simp] theorem exec_vaultRelease (block : _) : exec (.vaultRelease block) s = execVaultRelease block s := rfl
@[simp] theorem exec_beatBoundary (env : _) : exec (.beatBoundary env) s = execBeatBoundary env s := rfl
@[simp] theorem exec_fwWindowStart : exec .fwWindowStart s = execFwWindowStart s := rfl
@[simp] theorem exec_agePeriodStart : exec .agePeriodStart s = execAgePeriodStart s := rfl
@[simp] theorem exec_bgsWindowStart (work : _) : exec (.bgsWindowStart work) s = execBgsWindowStart work s := rfl
@[simp] theorem exec_telemRecord : exec .telemRecord s = execTelemRecord s := rfl
@[simp] theorem exec_fuseRecheck (reads : _) (temp : _) : exec (.fuseRecheck reads temp) s = execFuseRecheck reads temp s := rfl
@[simp] theorem exec_syncReceived (dom : _) (m : _) : exec (.syncReceived dom m) s = execSyncReceived dom m s := rfl
@[simp] theorem exec_syncTimeout (dom : _) (own : _) : exec (.syncTimeout dom own) s = execSyncTimeout dom own s := rfl
@[simp] theorem exec_triggerFire (c : _) : exec (.triggerFire c) s = execTriggerFire c s := rfl
@[simp] theorem exec_trgcCfgWrite (c : _) (w : _) : exec (.trgcCfgWrite c w) s = execTrgcCfgWrite c w s := rfl
@[simp] theorem exec_frameReceive (f : _) : exec (.frameReceive f) s = execFrameReceive f s := rfl
@[simp] theorem exec_pipeReset (p : _) : exec (.pipeReset p) s = execPipeReset p s := rfl
@[simp] theorem exec_spillOut (g : _) : exec (.spillOut g) s = execSpillOut g s := rfl
@[simp] theorem exec_spillReturn (p : _) (q : _) : exec (.spillReturn p q) s = execSpillReturn p q s := rfl
@[simp] theorem exec_carryVerify (egr : _) (q : _) (corrupt : _) : exec (.carryVerify egr q corrupt) s = execCarryVerify egr q corrupt s := rfl
@[simp] theorem exec_egressPick (egr : _) : exec (.egressPick egr) s = execEgressPick egr s := rfl
@[simp] theorem exec_canArbitrationEnd (lane : _) (error : _) : exec (.canArbitrationEnd lane error) s = execCanArbitrationEnd lane error s := rfl
@[simp] theorem exec_rsqTimeout (stream : _) (egr : _) : exec (.rsqTimeout stream egr) s = execRsqTimeout stream egr s := rfl
@[simp] theorem exec_rsqContextExpiry (stream : _) (egr : _) : exec (.rsqContextExpiry stream egr) s = execRsqContextExpiry stream egr s := rfl
@[simp] theorem exec_launchTimeReached (egr : _) (q : _) : exec (.launchTimeReached egr q) s = execLaunchTimeReached egr q s := rfl
@[simp] theorem exec_launchMiss (egr : _) (q : _) : exec (.launchMiss egr q) s = execLaunchMiss egr q s := rfl
@[simp] theorem exec_laneProbeEnd (lane : _) : exec (.laneProbeEnd lane) s = execLaneProbeEnd lane s := rfl
@[simp] theorem exec_laneFaultDetect (lane : _) (code : _) : exec (.laneFaultDetect lane code) s = execLaneFaultDetect lane code s := rfl
@[simp] theorem exec_laneOpenDetect (lane : _) : exec (.laneOpenDetect lane) s = execLaneOpenDetect lane s := rfl
@[simp] theorem exec_laneReversal (lane : _) : exec (.laneReversal lane) s = execLaneReversal lane s := rfl
@[simp] theorem exec_laneRetry (lane : _) (present : _) : exec (.laneRetry lane present) s = execLaneRetry lane present s := rfl
@[simp] theorem exec_laneFaultFree (lane : _) : exec (.laneFaultFree lane) s = execLaneFaultFree lane s := rfl
@[simp] theorem exec_busOffRecovery (lane : _) : exec (.busOffRecovery lane) s = execBusOffRecovery lane s := rfl
@[simp] theorem exec_linHeader (lane : _) : exec (.linHeader lane) s = execLinHeader lane s := rfl
@[simp] theorem exec_linResponse (lane : _) (id : _) (rate : _) (missing : _) : exec (.linResponse lane id rate missing) s = execLinResponse lane id rate missing s := rfl
@[simp] theorem exec_plcaFallback (lane : _) : exec (.plcaFallback lane) s = execPlcaFallback lane s := rfl
@[simp] theorem exec_collision (lane : _) (late : _) : exec (.collision lane late) s = execCollision lane late s := rfl
@[simp] theorem exec_backoffExpiry (lane : _) : exec (.backoffExpiry lane) s = execBackoffExpiry lane s := rfl
@[simp] theorem exec_portUpDelay (p : _) : exec (.portUpDelay p) s = execPortUpDelay p s := rfl
@[simp] theorem exec_linkChange (p : _) (up : _) (speed : _) : exec (.linkChange p up speed) s = execLinkChange p up speed s := rfl
@[simp] theorem exec_phyInt (n : _) : exec (.phyInt n) s = execPhyInt n s := rfl
@[simp] theorem exec_pauseReceived (p : _) (pfc : _) (en : _) (quanta : _) : exec (.pauseReceived p pfc en quanta) s = execPauseReceived p pfc en quanta s := rfl
@[simp] theorem exec_pauseExpiry (p : _) (b : _) : exec (.pauseExpiry p b) s = execPauseExpiry p b s := rfl
@[simp] theorem exec_pauseWdRx (p : _) (b : _) : exec (.pauseWdRx p b) s = execPauseWdRx p b s := rfl
@[simp] theorem exec_pauseIgnoreEnd (p : _) (b : _) (tx : _) : exec (.pauseIgnoreEnd p b tx) s = execPauseIgnoreEnd p b tx s := rfl
@[simp] theorem exec_pauseWdTx (p : _) (b : _) : exec (.pauseWdTx p b) s = execPauseWdTx p b s := rfl
@[simp] theorem exec_pauseRefresh (p : _) (b : _) : exec (.pauseRefresh p b) s = execPauseRefresh p b s := rfl
@[simp] theorem exec_lldpSend (p : _) : exec (.lldpSend p) s = execLldpSend p s := rfl
@[simp] theorem exec_lldpReceive (p : _) (w : _) : exec (.lldpReceive p w) s = execLldpReceive p w s := rfl
@[simp] theorem exec_lldpAgeOut (p : _) : exec (.lldpAgeOut p) s = execLldpAgeOut p s := rfl
@[simp] theorem exec_lpiEnter (p : _) : exec (.lpiEnter p) s = execLpiEnter p s := rfl
@[simp] theorem exec_lpiExit (p : _) : exec (.lpiExit p) s = execLpiExit p s := rfl
@[simp] theorem exec_tamper (src : _) : exec (.tamper src) s = execTamper src s := rfl
@[simp] theorem exec_rngFail (reseedOk : _) : exec (.rngFail reseedOk) s = execRngFail reseedOk s := rfl
@[simp] theorem exec_ciphSqTailWrite (e : _) (idx : _) (jobIds : _) : exec (.ciphSqTailWrite e idx jobIds) s = execCiphSqTailWrite e idx jobIds s := rfl
@[simp] theorem exec_bulkJobStart (e : _) (vault : _) (desc : _) : exec (.bulkJobStart e vault desc) s = execBulkJobStart e vault desc s := rfl
@[simp] theorem exec_bulkJobComplete (e : _) (m : _) : exec (.bulkJobComplete e m) s = execBulkJobComplete e m s := rfl
@[simp] theorem exec_ciphKctlWrite (e : _) (w : _) : exec (.ciphKctlWrite e w) s = execCiphKctlWrite e w s := rfl
@[simp] theorem exec_ciphKeywWrite (e : _) (k : _) (w : _) : exec (.ciphKeywWrite e k w) s = execCiphKeywWrite e k w s := rfl
@[simp] theorem exec_storeJob (slot : _) (first : _) (run : _) (decrypt : _) : exec (.storeJob slot first run decrypt) s = execStoreJob slot first run decrypt s := rfl
@[simp] theorem exec_engineWd (e : _) : exec (.engineWd e) s = execEngineWd e s := rfl
@[simp] theorem exec_laneauthKeyLoad (prof : _) : exec (.laneauthKeyLoad prof) s = execLaneauthKeyLoad prof s := rfl
@[simp] theorem exec_laSave : exec .laSave s = execLaSave s := rfl
@[simp] theorem exec_fieldSessionStart : exec .fieldSessionStart s = execFieldSessionStart s := rfl
@[simp] theorem exec_nfcApdu (x : _) : exec (.nfcApdu x) s = execNfcApdu x s := rfl
@[simp] theorem exec_exchangeWindowClose : exec .exchangeWindowClose s = execExchangeWindowClose s := rfl
@[simp] theorem exec_tagWiredAccess (c : _) (write : _) (acc : _) : exec (.tagWiredAccess c write acc) s = execTagWiredAccess c write acc s := rfl
@[simp] theorem exec_credentialCheck (vbkp : _) (field : _) (vbat : _) : exec (.credentialCheck vbkp field vbat) s = execCredentialCheck vbkp field vbat s := rfl
@[simp] theorem exec_nfcChallengeExpiry : exec .nfcChallengeExpiry s = execNfcChallengeExpiry s := rfl
@[simp] theorem exec_fieldLossTimeout : exec .fieldLossTimeout s = execFieldLossTimeout s := rfl
@[simp] theorem exec_pendingGrantRun : exec .pendingGrantRun s = execPendingGrantRun s := rfl
@[simp] theorem exec_pendingGrantExpiry : exec .pendingGrantExpiry s = execPendingGrantExpiry s := rfl
@[simp] theorem exec_credLockoutEnd (host : _) : exec (.credLockoutEnd host) s = execCredLockoutEnd host s := rfl
@[simp] theorem exec_sessionLockoutEnd (role : _) : exec (.sessionLockoutEnd role) s = execSessionLockoutEnd role s := rfl
@[simp] theorem exec_sessionChallengeExpiry (role : _) : exec (.sessionChallengeExpiry role) s = execSessionChallengeExpiry role s := rfl
@[simp] theorem exec_sessionIdleTimeout (role : _) : exec (.sessionIdleTimeout role) s = execSessionIdleTimeout role s := rfl
@[simp] theorem exec_sessionLifetime (role : _) : exec (.sessionLifetime role) s = execSessionLifetime role s := rfl
@[simp] theorem exec_ledgerCommit (programOk : _) : exec (.ledgerCommit programOk) s = execLedgerCommit programOk s := rfl
@[simp] theorem exec_intervalClose : exec .intervalClose s = execIntervalClose s := rfl
@[simp] theorem exec_trimUpdate (periods : _) : exec (.trimUpdate periods) s = execTrimUpdate periods s := rfl
@[simp] theorem exec_denySummary : exec .denySummary s = execDenySummary s := rfl
@[simp] theorem exec_toothEdge (n : _) (width : _) : exec (.toothEdge n width) s = execToothEdge n width s := rfl
@[simp] theorem exec_syntheticTooth (n : _) : exec (.syntheticTooth n) s = execSyntheticTooth n s := rfl
@[simp] theorem exec_trackerStall (n : _) : exec (.trackerStall n) s = execTrackerStall n s := rfl
@[simp] theorem exec_trackerFault (n : _) (code : _) : exec (.trackerFault n code) s = execTrackerFault n code s := rfl
@[simp] theorem exec_trackerFaultClear (n : _) : exec (.trackerFaultClear n) s = execTrackerFaultClear n s := rfl
@[simp] theorem exec_motionTimeout (n : _) : exec (.motionTimeout n) s = execMotionTimeout n s := rfl
@[simp] theorem exec_angleEvent (k : _) : exec (.angleEvent k) s = execAngleEvent k s := rfl
@[simp] theorem exec_conversionDone (ch : _) (sin : _) (cos : _) (theta : _) : exec (.conversionDone ch sin cos theta) s = execConversionDone ch sin cos theta s := rfl
@[simp] theorem exec_boltLimit (b : _) : exec (.boltLimit b) s = execBoltLimit b s := rfl
@[simp] theorem exec_boltRetry (b : _) : exec (.boltRetry b) s = execBoltRetry b s := rfl
@[simp] theorem exec_keysafeHoldExpiry : exec .keysafeHoldExpiry s = execKeysafeHoldExpiry s := rfl
@[simp] theorem exec_cmpoPulseEnd (k : _) : exec (.cmpoPulseEnd k) s = execCmpoPulseEnd k s := rfl
@[simp] theorem exec_bridgeReset : exec .bridgeReset s = execBridgeReset s := rfl
@[simp] theorem exec_lockedReadTlp : exec .lockedReadTlp s = execLockedReadTlp s := rfl
@[simp] theorem exec_spiRead (addr : _) (count : _) : exec (.spiRead addr count) s = execSpiRead addr count s := rfl
@[simp] theorem exec_spiWrite (addr : _) (words : _) : exec (.spiWrite addr words) s = execSpiWrite addr words s := rfl
@[simp] theorem exec_wstat : exec .wstat s = execWstat s := rfl
@[simp] theorem exec_spiAbort : exec .spiAbort s = execSpiAbort s := rfl
@[simp] theorem exec_cmdPut (length : _) (opcode : _) (session : _) (seq : _) : exec (.cmdPut length opcode session seq) s = execCmdPut length opcode session seq s := rfl
@[simp] theorem exec_cmdGet : exec .cmdGet s = execCmdGet s := rfl
@[simp] theorem exec_cmdRingFetch (opcode : _) (session : _) (seq : _) : exec (.cmdRingFetch opcode session seq) s = execCmdRingFetch opcode session seq s := rfl
@[simp] theorem exec_cmdReject (r : _) (opcode : _) (unlisted : _) : exec (.cmdReject r opcode unlisted) s = execCmdReject r opcode unlisted s := rfl
@[simp] theorem exec_hpTxDescriptor (desc : _) (bytes : _) (stuck : _) (decided : _) : exec (.hpTxDescriptor desc bytes stuck decided) s = execHpTxDescriptor desc bytes stuck decided s := rfl
@[simp] theorem exec_hpRxDeliver (buf : _) : exec (.hpRxDeliver buf) s = execHpRxDeliver buf s := rfl
@[simp] theorem exec_dmaTimeout (op : _) : exec (.dmaTimeout op) s = execDmaTimeout op s := rfl
@[simp] theorem exec_hostLostWrite (c : _) : exec (.hostLostWrite c) s = execHostLostWrite c s := rfl
@[simp] theorem exec_msixSend (vec : _) (fmask : _) : exec (.msixSend vec fmask) s = execMsixSend vec fmask s := rfl
@[simp] theorem exec_semAcquire (c : _) (k : _) (owner : _) : exec (.semAcquire c k owner) s = execSemAcquire c k owner s := rfl
@[simp] theorem exec_semRelease (c : _) (k : _) (w : _) : exec (.semRelease c k w) s = execSemRelease c k w s := rfl
@[simp] theorem exec_semCommit (c : _) (k : _) (w : _) (off : _) (data : _) (mask : _) : exec (.semCommit c k w off data mask) s = execSemCommit c k w off data mask s := rfl
@[simp] theorem exec_semLeaseExpiry (k : _) : exec (.semLeaseExpiry k) s = execSemLeaseExpiry k s := rfl
@[simp] theorem exec_helloSend : exec .helloSend s = execHelloSend s := rfl
@[simp] theorem exec_helberReceive (port : _) (f : _) : exec (.helberReceive port f) s = execHelberReceive port f s := rfl
@[simp] theorem exec_peerLostTimeout (node : _) : exec (.peerLostTimeout node) s = execPeerLostTimeout node s := rfl
@[simp] theorem exec_peerAbsentTimeout (node : _) : exec (.peerAbsentTimeout node) s = execPeerAbsentTimeout node s := rfl
@[simp] theorem exec_pushAckSend (src : _) (id : _) (total : _) (img : _) (commitOk : _) : exec (.pushAckSend src id total img commitOk) s = execPushAckSend src id total img commitOk s := rfl
@[simp] theorem exec_pushResendRound : exec .pushResendRound s = execPushResendRound s := rfl
@[simp] theorem exec_blobDiscard (src : _) (id : _) : exec (.blobDiscard src id) s = execBlobDiscard src id s := rfl
@[simp] theorem exec_pullSend (node : _) : exec (.pullSend node) s = execPullSend node s := rfl
@[simp] theorem exec_freezeEnter : exec .freezeEnter s = execFreezeEnter s := rfl
@[simp] theorem exec_freezeIgnored : exec .freezeIgnored s = execFreezeIgnored s := rfl
@[simp] theorem exec_freezeExit : exec .freezeExit s = execFreezeExit s := rfl
@[simp] theorem exec_freezeWindowEnd : exec .freezeWindowEnd s = execFreezeWindowEnd s := rfl
@[simp] theorem exec_snapAddr (a : _) : exec (.snapAddr a) s = execSnapAddr a s := rfl
@[simp] theorem exec_snapData : exec .snapData s = execSnapData s := rfl
@[simp] theorem exec_evtPendWrite (c : _) (g : _) (w : _) : exec (.evtPendWrite c g w) s = execEvtPendWrite c g w s := rfl
@[simp] theorem exec_evtEnWrite (c : _) (g : _) (w : _) : exec (.evtEnWrite c g w) s = execEvtEnWrite c g w s := rfl
@[simp] theorem exec_evtTestWrite (c : _) (w : _) : exec (.evtTestWrite c w) s = execEvtTestWrite c w s := rfl
@[simp] theorem exec_cckInjectWrite (c : _) (w : _) : exec (.cckInjectWrite c w) s = execCckInjectWrite c w s := rfl
@[simp] theorem exec_statLowWordRead (c : _) (off : _) : exec (.statLowWordRead c off) s = execStatLowWordRead c off s := rfl
@[simp] theorem exec_rcRead (c : _) (t : _) (acc : _) : exec (.rcRead c t acc) s = execRcRead c t acc s := rfl
@[simp] theorem exec_timeNsRead (n : _) : exec (.timeNsRead n) s = execTimeNsRead n s := rfl
@[simp] theorem exec_ldgLoRead (c : _) (off : _) : exec (.ldgLoRead c off) s = execLdgLoRead c off s := rfl
@[simp] theorem exec_regWrite (c : _) (t : _) (acc : _) : exec (.regWrite c t acc) s = execRegWrite c t acc s := rfl
@[simp] theorem exec_sysInfo (r : _) : exec (.sysInfo r) s = execSysInfo r s := rfl
@[simp] theorem exec_sessionChallenge (r : _) (role : _) : exec (.sessionChallenge r role) s = execSessionChallenge r role s := rfl
@[simp] theorem exec_sessionOpen (r : _) (role : _) (idleS : _) (challenge : _) (uid : _) (eph : _) (sig : _) : exec (.sessionOpen r role idleS challenge uid eph sig) s = execSessionOpen r role idleS challenge uid eph sig s := rfl
@[simp] theorem exec_sessionClose (r : _) : exec (.sessionClose r) s = execSessionClose r s := rfl
@[simp] theorem exec_fwLoad (r : _) (buf : _) (len : _) (img : _) (readOk : _) : exec (.fwLoad r buf len img readOk) s = execFwLoad r buf len img readOk s := rfl
@[simp] theorem exec_fwCommit (r : _) : exec (.fwCommit r) s = execFwCommit r s := rfl
@[simp] theorem exec_sysReset (r : _) (kind : _) : exec (.sysReset r kind) s = execSysReset r kind s := rfl
@[simp] theorem exec_lifecycleAdvance (r : _) (target : _) : exec (.lifecycleAdvance r target) s = execLifecycleAdvance r target s := rfl
@[simp] theorem exec_mapLoad (r : _) (buf : _) (len : _) (m : _) (formOk : _) (readOk : _) : exec (.mapLoad r buf len m formOk readOk) s = execMapLoad r buf len m formOk readOk s := rfl
@[simp] theorem exec_mapRead (r : _) (buf : _) (len : _) : exec (.mapRead r buf len) s = execMapRead r buf len s := rfl
@[simp] theorem exec_modeSet (r : _) (target : _) : exec (.modeSet r target) s = execModeSet r target s := rfl
@[simp] theorem exec_blockGate (r : _) (block : _) (kind : _) : exec (.blockGate r block kind) s = execBlockGate r block kind s := rfl
@[simp] theorem exec_laneConfig (r : _) (lane : _) (img : _) : exec (.laneConfig r lane img) s = execLaneConfig r lane img s := rfl
@[simp] theorem exec_laneRecover (r : _) (lane : _) : exec (.laneRecover r lane) s = execLaneRecover r lane s := rfl
@[simp] theorem exec_portConfig (r : _) (port : _) (img : _) : exec (.portConfig r port img) s = execPortConfig r port img s := rfl
@[simp] theorem exec_phyRead (r : _) (phy : _) (clause : _) (dev : _) (reg : _) (value : _) : exec (.phyRead r phy clause dev reg value) s = execPhyRead r phy clause dev reg value s := rfl
@[simp] theorem exec_phyWrite (r : _) (phy : _) (clause : _) (dev : _) (reg : _) (value : _) (answered : _) : exec (.phyWrite r phy clause dev reg value answered) s = execPhyWrite r phy clause dev reg value answered s := rfl
@[simp] theorem exec_tblWrite (r : _) (table : _) (flags : _) (pmask : _) (index : _) (entry : _) : exec (.tblWrite r table flags pmask index entry) s = execTblWrite r table flags pmask index entry s := rfl
@[simp] theorem exec_tblRead (r : _) (table : _) (pipe : _) (node : _) (index : _) (key : _) (rsp : _) : exec (.tblRead r table pipe node index key rsp) s = execTblRead r table pipe node index key rsp s := rfl
@[simp] theorem exec_tblDelete (r : _) (table : _) (pmask : _) (index : _) (key : _) : exec (.tblDelete r table pmask index key) s = execTblDelete r table pmask index key s := rfl
@[simp] theorem exec_tblFlush (r : _) (pmask : _) (flags : _) : exec (.tblFlush r pmask flags) s = execTblFlush r pmask flags s := rfl
@[simp] theorem exec_tblCommit (r : _) : exec (.tblCommit r) s = execTblCommit r s := rfl
@[simp] theorem exec_swConfig (r : _) (kind : _) (index : _) (img : _) : exec (.swConfig r kind index img) s = execSwConfig r kind index img s := rfl
@[simp] theorem exec_polConfig (r : _) (policer : _) (img : _) : exec (.polConfig r policer img) s = execPolConfig r policer img s := rfl
@[simp] theorem exec_schConfig (r : _) (egr : _) (p : _) : exec (.schConfig r egr p) s = execSchConfig r egr p s := rfl
@[simp] theorem exec_carryReport (r : _) (time : _) (node : _) (ing : _) (expv : _) (got : _) : exec (.carryReport r time node ing expv got) s = execCarryReport r time node ing expv got s := rfl
@[simp] theorem exec_timeBeatSet (r : _) (len : _) (dom : _) (align : _) : exec (.timeBeatSet r len dom align) s = execTimeBeatSet r len dom align s := rfl
@[simp] theorem exec_timeConfig (r : _) (index : _) (img : _) : exec (.timeConfig r index img) s = execTimeConfig r index img s := rfl
@[simp] theorem exec_keyUpdate (r : _) (msg : _) : exec (.keyUpdate r msg) s = execKeyUpdate r msg s := rfl
@[simp] theorem exec_keyAttest (r : _) (slot : _) (nonce : _) : exec (.keyAttest r slot nonce) s = execKeyAttest r slot nonce s := rfl
@[simp] theorem exec_rootProvision (r : _) : exec (.rootProvision r) s = execRootProvision r s := rfl
@[simp] theorem exec_laConfig (r : _) (prof : _) (img : _) : exec (.laConfig r prof img) s = execLaConfig r prof img s := rfl
@[simp] theorem exec_entryChallenge (r : _) : exec (.entryChallenge r) s = execEntryChallenge r s := rfl
@[simp] theorem exec_entrySubmit (r : _) (head : _) (token : _) (proof : _) : exec (.entrySubmit r head token proof) s = execEntrySubmit r head token proof s := rfl
@[simp] theorem exec_credRevoke (r : _) (op : _) (tokenId : _) : exec (.credRevoke r op tokenId) s = execCredRevoke r op tokenId s := rfl
@[simp] theorem exec_credEpoch (r : _) (epoch : _) : exec (.credEpoch r epoch) s = execCredEpoch r epoch s := rfl
@[simp] theorem exec_tripOpen (r : _) (tripRef : _) (tokenId : _) : exec (.tripOpen r tripRef tokenId) s = execTripOpen r tripRef tokenId s := rfl
@[simp] theorem exec_tripClose (r : _) (tripRef : _) : exec (.tripClose r tripRef) s = execTripClose r tripRef s := rfl
@[simp] theorem exec_forceLock (r : _) : exec (.forceLock r) s = execForceLock r s := rfl
@[simp] theorem exec_immobilise (r : _) : exec (.immobilise r) s = execImmobilise r s := rfl
@[simp] theorem exec_tripPermit (r : _) (drive : _) : exec (.tripPermit r drive) s = execTripPermit r drive s := rfl
@[simp] theorem exec_entryConfig (r : _) (holdS : _) (start : _) (stop : _) (unlock : _) (lock : _) : exec (.entryConfig r holdS start stop unlock lock) s = execEntryConfig r holdS start stop unlock lock s := rfl
@[simp] theorem exec_ldgRead (r : _) (first : _) (count : _) (buf : _) (nonce : _) (breakAt : _) : exec (.ldgRead r first count buf nonce breakAt) s = execLdgRead r first count buf nonce breakAt s := rfl
@[simp] theorem exec_ldgBilling (r : _) (period : _) (tariff : _) : exec (.ldgBilling r period tariff) s = execLdgBilling r period tariff s := rfl
@[simp] theorem exec_wallSet (r : _) (sec : _) (frac : _) : exec (.wallSet r sec frac) s = execWallSet r sec frac s := rfl
@[simp] theorem exec_ttConfig (r : _) (tracker : _) (img : _) : exec (.ttConfig r tracker img) s = execTtConfig r tracker img s := rfl
@[simp] theorem exec_angEventSet (r : _) (first : _) (count : _) (entries : _) : exec (.angEventSet r first count entries) s = execAngEventSet r first count entries s := rfl
@[simp] theorem exec_fbConfig (r : _) (kind : _) (index : _) (img : _) : exec (.fbConfig r kind index img) s = execFbConfig r kind index img s := rfl
@[simp] theorem exec_fbCal (r : _) (ch : _) (avg : _) : exec (.fbCal r ch avg) s = execFbCal r ch avg s := rfl
@[simp] theorem exec_boltMove (r : _) (bolt : _) (dir : _) : exec (.boltMove r bolt dir) s = execBoltMove r bolt dir s := rfl
@[simp] theorem exec_hlbConfig (r : _) (node : _) (kind : _) (ports : _) (domain : _) (keyslot : _) : exec (.hlbConfig r node kind ports domain keyslot) s = execHlbConfig r node kind ports domain keyslot s := rfl
@[simp] theorem exec_hlbMembers (r : _) (first : _) : exec (.hlbMembers r first) s = execHlbMembers r first s := rfl
@[simp] theorem exec_hlbPush (r : _) (kind : _) (buf : _) (len : _) (blob : _) (commitOk : _) (readOk : _) : exec (.hlbPush r kind buf len blob commitOk readOk) s = execHlbPush r kind buf len blob commitOk readOk s := rfl
@[simp] theorem exec_freezeArm (r : _) (window : _) : exec (.freezeArm r window) s = execFreezeArm r window s := rfl
@[simp] theorem exec_freezeDisarm (r : _) : exec (.freezeDisarm r) s = execFreezeDisarm r s := rfl
@[simp] theorem exec_diagLoopback (r : _) (target : _) (kind : _) : exec (.diagLoopback r target kind) s = execDiagLoopback r target kind s := rfl
@[simp] theorem exec_telemRead (r : _) (buf : _) : exec (.telemRead r buf) s = execTelemRead r buf s := rfl
@[simp] theorem exec_frameTransmitEnd (egr : _) (converted : _) (back : _) : exec (.frameTransmitEnd egr converted back) s = execFrameTransmitEnd egr converted back s := rfl
@[simp] theorem exec_plcaBeacon (lane : _) : exec (.plcaBeacon lane) s = execPlcaBeacon lane s := rfl
@[simp] theorem exec_fieldSessionEnd : exec .fieldSessionEnd s = execFieldSessionEnd s := rfl
@[simp] theorem exec_excOverload (ch : _) : exec (.excOverload ch) s = execExcOverload ch s := rfl
@[simp] theorem exec_pcieLinkUp (width : _) (rate : _) : exec (.pcieLinkUp width rate) s = execPcieLinkUp width rate s := rfl
@[simp] theorem exec_vbkpPowerUp : exec .vbkpPowerUp s = execVbkpPowerUp s := rfl
@[simp] theorem exec_holdMsWrap (dom : _) : exec (.holdMsWrap dom) s = execHoldMsWrap dom s := rfl
@[simp] theorem exec_ledgerTimeFinal : exec .ledgerTimeFinal s = execLedgerTimeFinal s := rfl
@[simp] theorem exec_wakeReceiverFrame (lane : _) (ok : _) : exec (.wakeReceiverFrame lane ok) s = execWakeReceiverFrame lane ok s := rfl
@[simp] theorem exec_laneRoleSwap (lane : _) : exec (.laneRoleSwap lane) s = execLaneRoleSwap lane s := rfl
@[simp] theorem exec_partnerLpi (p : _) (enter : _) : exec (.partnerLpi p enter) s = execPartnerLpi p enter s := rfl
@[simp] theorem exec_sysResetDeadline : exec .sysResetDeadline s = execSysResetDeadline s := rfl

end Sys2Proof.Machine
end

