-- ==== Sys2Proof/Laws/Regs.lean ====
section
/-! SUPPORT. Reading a register after a write of it, and after a write of another. -/

namespace Sys2Proof.Machine

/-- Keys of instances below 8,192 name the register and the instance. -/
theorem regKey_inj {a b i j : Nat} (hi : i < 8192) (hj : j < 8192) (h : regKey a i = regKey b j) : a = b ∧ i = j := by
  unfold regKey at h
  omega

theorem rdi_wri_same (s : State) (a i : Nat) (v : Word) (h : Regs.wf s) : rdi (wri s a i v) a i = v :=
  tabGet_set_same (b := 0) _ _ h

theorem rdi_wri_other (s : State) {a b i j : Nat} (v : Word) (h : regKey b j ≠ regKey a i) :
    rdi (wri s a i v) b j = rdi s b j := tabGet_set_other _ _ h

theorem rd_wr_same (s : State) (a : Nat) (v : Word) (h : Regs.wf s) : rd (wr s a v) a = v := rdi_wri_same s a 0 v h

theorem rd_wr_other (s : State) {a b : Nat} (v : Word) (h : b ≠ a) : rd (wr s a v) b = rd s b :=
  rdi_wri_other s v (fun hk => h (regKey_inj (by decide) (by decide) hk).1)

theorem bit_wr_other (s : State) {a b : Nat} (v : Word) (n : Nat) (h : b ≠ a) : bit (wr s a v) b 0 n = bit s b 0 n := by
  unfold bit fldi
  rw [show rdi (wr s a v) b 0 = rdi s b 0 from rd_wr_other s v h]

theorem fld_wr_other (s : State) {a b : Nat} (v : Word) (lo w : Nat) (h : b ≠ a) : fld (wr s a v) b lo w = fld s b lo w := by
  unfold fld fldi
  rw [show rdi (wr s a v) b 0 = rdi s b 0 from rd_wr_other s v h]

theorem wri_regs (s : State) (a i : Nat) (v : Word) (h : Regs.wf s) : Regs.wf (wri s a i v) := tabSet_wf _ _ h

/-- Outside freeze one occurrence of a source that is not pending sets its bit and adds no repeat. -/
theorem raiseN_unpended (s : State) (n : Nat) (hf : s.freeze.frozen = false) (h : bit s (R_EVT_PEND + 4 * (n / 32)) 0 (n % 32) = false) :
    raiseN s n = orReg { s with bgs := { s.bgs with fwPend := s.bgs.fwPend ||| BitVec.ofNat 256 (2 ^ n) } }
      (R_EVT_PEND + 4 * (n / 32)) 0 (fieldMask (n % 32) 1) := by
  unfold raiseN
  rw [hf, if_neg (by decide)]
  dsimp only
  rw [if_neg]
  intro hb
  rw [show bit { s with bgs := { s.bgs with fwPend := s.bgs.fwPend ||| BitVec.ofNat 256 (2 ^ n) } }
    (R_EVT_PEND + 4 * (n / 32)) 0 (n % 32) = bit s (R_EVT_PEND + 4 * (n / 32)) 0 (n % 32) from rfl, h] at hb
  cases hb

end Sys2Proof.Machine
end

