-- ==== Sys2Proof/Certificates/Slice0/Obligations.lean ====
section
/-! DEFINITION. The statements for the provers. -/

open Sys2Proof Sys2Proof.Machine

/-- With command c at the front of the queue, a step is exec of c on the state whose queue is the rest. With an empty
queue a step answers a tick of 4 ns, the model's own choice (log entry 1): outside freeze, while the device is awake, the
tick counts one in the timebase. (R36, R140) -/
def Obligations.StepRunsTheFrontCommand : Prop :=
  (∀ (c : Instr) (rest : List Instr) (s : State), step { s with pending := c :: rest } = exec c { s with pending := rest }) ∧
  (∀ s : State, s.pending = [] → step s = .next (tick s)) ∧
  (∀ s : State, s.freeze.frozen = false → s.power.phase = .awake →
    (tick s).time.ticks = s.time.ticks + 1)

/-- From every state every command answers a next state, and its effect leaves the queue of waiting commands as it was: no
command stops the block, and no command commands another. (R36, spec/opcode_table.json) -/
def Obligations.EveryCommandCompletes : Prop :=
  ∀ (c : Instr) (s : State), ∃ t, exec c s = .next t ∧ t.pending = s.pending

/-- From every state in which the register file and the memories are in their canonical form, the throttle step is one of
Table 3.7, the odometer has 48 bits, ledger time lies within its 48-bit seconds and 40-bit fraction and TRIM within
its clamp, every step (any command, or a tick of an empty queue) answers a state in which all of these hold. (R86,
R428, R429, R464) -/
def Obligations.StepKeepsTheInvariant : Prop :=
  ∀ s t : State, s.Inv → step s = .next t → t.Inv

/-- The invariant of StepKeepsTheInvariant holds of the state after reset. (R8, R428, R464) -/
def Obligations.ResetMeetsTheInvariant : Prop :=
  State.reset.Inv

/-- From every state that meets the invariant, a step that runs neither VBKP_LOSS nor VBKP_POWER_UP never lowers ledger
time, counted in units of 2^-40 s. No command but those two, TRIM_UPDATE and BEAT_BOUNDARY, which lets the rest of its
beat pass, changes ledger time or TRIM at all. It rests on readings of the model (log entries 1, 17, 24). (R428, R429,
R145, R82) -/
def Obligations.LedgerTimeNeverGoesBack : Prop :=
  (∀ s t : State, s.Inv → step s = .next t → s.pending.head? ≠ some .vbkpLoss → s.pending.head? ≠ some .vbkpPowerUp →
    s.ledger.sec * 2 ^ 40 + s.ledger.frac ≤ t.ledger.sec * 2 ^ 40 + t.ledger.frac) ∧
  (∀ (c : Instr) (s t : State), movesClock c = false → exec c s = .next t →
    t.ledger.sec = s.ledger.sec ∧ t.ledger.frac = s.ledger.frac ∧ t.ledger.trim = s.ledger.trim)

/-- No command but VBKP_LOSS and VBKP_POWER_UP lowers the odometer, and no command but those two and ROOT_PROVISION lowers
the next ledger sequence number; a tick lowers neither. It rests on readings of the model (log entry 1). (R9, R464,
R436, R336, R82) -/
def Obligations.MonoCountersNeverGoBack : Prop :=
  (∀ (c : Instr) (s t : State), s.Inv → movesOdo c = false → exec c s = .next t → s.wheels.odo ≤ t.wheels.odo) ∧
  (∀ (c : Instr) (s t : State), movesSeq c = false → exec c s = .next t → s.ledger.nextSeq ≤ t.ledger.nextSeq) ∧
  (∀ s : State, s.Inv → s.wheels.odo ≤ (tick s).wheels.odo ∧ s.ledger.nextSeq ≤ (tick s).ledger.nextSeq)

/-- A command outside the listed ones leaves the stored INSTALLER map, every key slot, or TIME_BEAT_CNT as it was: the map
changes by the † commands, MAP_LOAD and FB_CAL; a key slot by key updates, provisioning, tamper, VBKP loss and its
return, start-up step 3, LIFECYCLE_ADVANCE and the commands that push keys or accept pushed ones; the beat count by
BEAT_BOUNDARY, the end of a freeze and what begins a cold reset. A tick leaves the map and the slots as they were. It
rests on readings of the model (log entry 1). (R134, R531, R533, R336) -/
def Obligations.OnlyNamedCommandsChangeMapSlotsAndBeat : Prop :=
  (∀ (c : Instr) (s t : State), movesMap c = false → exec c s = .next t → t.map = s.map) ∧
  (∀ (c : Instr) (s t : State), movesSlots c = false → exec c s = .next t → t.vault.slots = s.vault.slots) ∧
  (∀ (c : Instr) (s t : State), movesBeat c = false → exec c s = .next t → t.time.beatCnt = s.time.beatCnt) ∧
  (∀ s : State, (tick s).map = s.map ∧ (tick s).vault.slots = s.vault.slots)

/-- COLD_RESET by RESET_N low for at least 100 ns, with VIO on and no sag sensor tripped, completes: start-up stands at
step 0 with its flags cleared, the dispatcher, the waiting configuration and the ledger write queue are empty, the
odometer, the INSTALLER map and LOW_ENERGY are as they were, and every register word takes its Cold value except the
fields marked K, which keep theirs. A pulse of less than 50 ns, or any while VIO is off, is ignored. COLD_RESET by the
power-good of VCORE that ends the off state, with no sag sensor tripped, records the power-good, and start-up stands at
step 0 with its flags cleared as well. It rests on readings of the model (log entries 3, 22). (R7, R8, R621) -/
def Obligations.ColdResetSetsTheRegisters : Prop :=
  (∀ (s : State) (ns : Nat), vioUp s = true → 100 ≤ ns → Regs.wf s → s.power.vcSag = false → s.power.vbSag = false →
    ∃ t, exec (.coldReset (.resetN ns)) s = .next t ∧ t.power.phase = .startup ∧ t.boot = bootReset ∧ t.disp = dispReset ∧
      t.changes = [] ∧ t.ledger = { s.ledger with queue := [], shLtHi := 0, shWallHi := 0 } ∧
      t.wheels.odo = s.wheels.odo ∧ t.map = s.map ∧ t.power.lowEnergy = s.power.lowEnergy ∧
      ∀ a i, i < 8192 →
        let k := ((regRow a).map RegRow.coldKeep).getD 0
        rdi t a i = (rdi s a i &&& k) ||| (regCold a &&& ~~~ k)) ∧
  (∀ (s : State) (ns : Nat), vioUp s = false ∨ ns < 50 → exec (.coldReset (.resetN ns)) s = .next (begin_ s)) ∧
  (∀ s : State, s.power.phase = .railPhase → s.power.railWait = some 0 → s.power.vcSag = false → s.power.vbSag = false →
    ∃ t, exec (.coldReset .powerGood) s = .next t ∧ t.power.pg = s.power.pg ||| 1 ∧ t.power.phase = .railPhase ∧
      t.boot = bootReset ∧ t.disp = dispReset ∧ t.wheels.odo = s.wheels.odo ∧ t.map = s.map)

/-- WARM_RESET of a core that is awake or in start-up completes: start-up stands at step 0 with WARM noted and every
other start-up flag cleared but the word that fuses have been read and a failed test of the vault; the dispatcher, the
waiting configuration and the ledger write queue are empty; the fuse values in use, ledger time and the ledger's head,
the odometer, the INSTALLER map, the key slots, the recorded mode, the local time and the beat count are as they were.
In any other phase nothing changes but the outputs. It rests on readings of the model (log entries 3, 23). (R109, R7,
R397) -/
def Obligations.WarmResetRestartsStartUp : Prop :=
  (∀ s : State, s.power.phase = .awake ∨ s.power.phase = .startup →
    ∃ t, exec .warmReset s = .next t ∧ t.power.phase = .startup ∧
      t.boot = { bootReset with warm := true, fusesDone := s.boot.fusesDone, vaultBad := s.boot.vaultBad } ∧
      t.disp = dispReset ∧ t.changes = [] ∧ t.ledger = { s.ledger with queue := [], shLtHi := 0, shWallHi := 0 } ∧
      t.fuses = s.fuses ∧ t.wheels.odo = s.wheels.odo ∧ t.map = s.map ∧
      t.vault = { s.vault with slotsReady := false, storeOk := false, rngFailed := false } ∧
      t.power.recorded = s.power.recorded ∧ t.time.ticks = s.time.ticks ∧ t.time.beatCnt = s.time.beatCnt) ∧
  (∀ s : State, s.power.phase ≠ .awake → s.power.phase ≠ .startup → exec .warmReset s = .next (begin_ s))

/-- Steps 0 to 3 of start-up complete while start-up stands at them. STARTUP_PG samples the straps unless the reset was
warm, and start-up stands at step 1, or is halted where the PLL does not lock. STARTUP_FUSE gives every fuse word its
value resolved from three reads of the array, records the temperature as REF and CUR and shows lifecycle and UID, or
reads no fuse after a warm reset; start-up stands at step 2. STARTUP_SELFTEST passes at the first or, with a TAMPER
entry queued, at the second try; it halts start-up when a test fails twice or the vault's lockstep has failed before.
STARTUP_ROOT with a good root and store derives the slots and the fuse key; without one the root is marked missing, after
a tamper where the store alone failed; start-up stands at step 4, on the entry island in APPROACH. It rests on readings
of the model (log entries 13, 22, 25, 46, 51). (R107, R109, R110, R114, R124, R343) -/
def Obligations.StartUpStepsInOrder : Prop :=
  (∀ (s : State) (straps : BitVec 4) (rb : Bool), atStep s 0 = true →
    exec (.startupPg straps true rb) s =
      .next (toStep (if s.boot.warm then begin_ s else sampleStraps (begin_ s) straps rb) 1) ∧
    exec (.startupPg straps false rb) s =
      .next (haltAt (if s.boot.warm then begin_ s else sampleStraps (begin_ s) straps rb) 0)) ∧
  (∀ (s : State) (straps : BitVec 4), Regs.wf s → rd (sampleStraps s straps true) R_SYS_STRAP = straps.setWidth 32) ∧
  (∀ (s : State) reads temp, atStep s 1 = true → s.boot.warm = true →
    exec (.startupFuse reads temp) s = .next { begin_ s with boot := { s.boot with step := 2 } }) ∧
  (∀ (s : State) reads temp, atStep s 1 = true → s.boot.warm = false →
    ∃ t, exec (.startupFuse reads temp) s = .next t ∧ t.boot = { s.boot with step := 2, fusesDone := true } ∧
      (∀ k, k < 128 → fuseWord t k = (fuseResolve k (arrayRead s reads k)).1 ∧
        tget false t.fuses.invalid k = (fuseResolve k (arrayRead s reads k)).2.2) ∧
      t.fuses.govLc = lifecycle t ∧ t.fuses.govFwMin = fwMin t ∧ t.fuses.govDbg = dbgCoreDis t ∧
      t.bgs = { s.bgs with tempCur := temp, tempRef := temp, tempLast := temp }) ∧
  (∀ (s : State) (second : Bool), atStep s 2 = true → s.boot.vaultBad = false →
    exec (.startupSelftest true second) s = .next { begin_ s with boot := { s.boot with step := 3 } } ∧
    exec (.startupSelftest false true) s = .next (toStep (queueEntry (begin_ s) (.tamper 4 0)) 3) ∧
    exec (.startupSelftest false false) s = .next (haltAt (begin_ s) 2)) ∧
  (∀ (s : State) (first second : Bool), atStep s 2 = true → s.boot.vaultBad = true →
    exec (.startupSelftest first second) s = .next (haltAt { begin_ s with boot := { s.boot with vaultBad := false } } 2)) ∧
  (∀ s : State, atStep s 3 = true → rootGood s true true = true → s.power.phase = .startup →
    exec (.startupRoot true true true) s =
      .next (let u := deriveSlots (begin_ s)
             toStep (loadFuseKey { u with vault := { u.vault with slotsReady := true, storeOk := true } }) 4) ∧
    exec (.startupRoot true true false) s = .next (toStep (loadFuseKey (rootMissing (tamperNow (begin_ s) 5))) 4)) ∧
  (∀ (s : State) (rootOk checkOk storeOk : Bool), atStep s 3 = true → s.power.phase = .startup → rootGood s rootOk checkOk = false →
    exec (.startupRoot rootOk checkOk storeOk) s = .next (toStep (loadFuseKey (rootMissing (begin_ s))) 4)) ∧
  (∀ (s : State) (rootOk checkOk storeOk : Bool), atStep s 3 = true → s.power.phase = .island →
    ∃ t, exec (.startupRoot rootOk checkOk storeOk) s = .next t ∧ t.boot.step = 4 ∧ t.power.cur = .approach) ∧
  (∀ s : State, s.power.phase = .startup → (rootMissing s).boot.rootAbsent = true ∧ (rootMissing s).boot.failed = true ∧
    (rootMissing s).vault.rootPresent = false ∧ (rootMissing s).vault.slots = []) ∧
  (∀ (s : State) (k : Nat), (haltAt s k).power.phase = .halted ∧ (haltAt s k).boot.failed = true ∧
    (s.boot.failed = false → (haltAt s k).boot.fstep = k))

/-- Steps 4 to 7 of start-up complete while start-up stands at them. STARTUP_FW runs the active firmware slot when its image
passes, else the other one with FALLBACK, else the recovery service with cause FW_SIG, step 4 failed and step 5 left out.
STARTUP_LANES applies a valid map, or only the static-safe set with step 5 failed, and the lanes follow. STARTUP_LEDGER
with no live ledger does nothing; else a broken chain fails step 6 and pends cause LEDGER, an interrupted position becomes
VOID, and lost sessions and due intervals are closed; the entries are committed unless the chain is broken.
STARTUP_MODE makes the device awake in the derived mode: a cause of QUARANTINE kept from before a warm reset or in FIELD
writes no SEAL, another one enters QUARANTINE with its SEAL, and every other mode clears the seal after a cold reset; the
bolts, back-off generators and sample counters start, with the Helber sequence at a free value. It rests on readings of
the model (log entries 15, 22). (R107, R111, R112, R42, R441, R75, R541) -/
def Obligations.StartUpFinishes : Prop :=
  (∀ (s : State) (a b : FwImage), atStep s 4 = true →
    let x := s.fuses.slotA.getD a
    let y := s.fuses.slotB.getD b
    let act := if s.fuses.selB then y else x
    let oth := if s.fuses.selB then x else y
    (imageOk s act = true → exec (.startupFw a b) s = .next { begin_ s with boot := { s.boot with
      step := 5, slotB := s.fuses.selB, fallback := false, svn := act.svn, version := act.version } }) ∧
    (imageOk s act = false → imageOk s oth = true → exec (.startupFw a b) s = .next { begin_ s with boot := { s.boot with
      step := 5, slotB := ! s.fuses.selB, fallback := true, svn := oth.svn, version := oth.version } }) ∧
    (imageOk s act = false → imageOk s oth = false →
      ∃ t, exec (.startupFw a b) s = .next t ∧ t.boot.step = 6 ∧ t.boot.recovery = true ∧ t.boot.failed = true ∧
        (s.power.phase = .startup → t.boot.qpend = s.boot.qpend ++ [.fwSig]))) ∧
  (∀ s : State, atStep s 5 = true →
    (s.vault.mapHash = sha256 (mapBytes s.map) → exec (.startupLanes true) s =
      .next (lanesFollow (toStep (startTrackers (applyMap { begin_ s with boot := { s.boot with mapValid := true } })) 6))) ∧
    (s.vault.mapHash ≠ sha256 (mapBytes s.map) → exec (.startupLanes true) s =
      .next (lanesFollow (toStep (startTrackers (applySafe (stepFailed (begin_ s) 5))) 6))) ∧
    exec (.startupLanes false) s = .next (lanesFollow (toStep (startTrackers (applySafe (stepFailed (begin_ s) 5))) 6))) ∧
  (∀ (s : State) (cb : Option Nat) (td : Bool), atStep s 6 = true → ledgerLive s = false →
    exec (.startupLedger cb td) s = .next { begin_ s with boot := { s.boot with step := 7 } }) ∧
  (∀ (s : State) (td : Bool), atStep s 6 = true → ledgerLive s = true → s.ledger.lastGood = none →
    exec (.startupLedger none td) s =
      .next (toStep (let v := if td then voidTail (begin_ s) else begin_ s
                     let u := closeLost (closeLost (closeLost v 1) 2) 3
                     commitAll (boundaryCloses true (ltimeNow s + 1) u)) 7)) ∧
  (∀ (s : State) (k : Nat), s.power.phase = .startup → atStep s 6 = true → ledgerLive s = true →
    exec (.startupLedger (some k) false) s =
      .next (toStep (let v := { stepFailed (begin_ s) 6 with
                       ledger := { s.ledger with lastGood := some (max s.ledger.oldest (s.ledger.nextSeq - 64) + k - 1) } }
                     let w := { v with boot := { v.boot with qpend := v.boot.qpend ++ [.ledger] } }
                     boundaryCloses true (ltimeNow s + 1) (closeLost (closeLost (closeLost w 1) 2) 3)) 7)) ∧
  (∀ s : State, atStep s 7 = true →
    let m := deriveMode s
    let c := startCause s
    let a := laRestore { begin_ s with power := { s.power with phase := .awake, riseAuto := false }, boot := { s.boot with qpend := [] } }
    let u := if s.boot.warm then a else domsFollow a
    let w :=
      if m = .quarantine ∧ c = keptCause s then
        let v := modeCore { u with power := { u.power with qcause := c } } .quarantine
        let v := { v with ledger := { v.ledger with sealed := true } }
        if standstill v then setImmob v true else { v with vault := { v.vault with immobPend := ! v.vault.immob } }
      else if m = .quarantine then quarantine u c
      else
        let v := modeCore u m
        if s.boot.warm then v else { v with ledger := { v.ledger with sealed := false } }
    exec .startupMode s =
      .next (smpInit (lanesSeed (boltsResume { w with fresh := w.fresh + 1, hlb := { w.hlb with seq := Config.freeWord w.fresh } }))))

/-- What the wake sources do where they work. FIELD_WAKE asleep records FIELD and the voltage, and with VBAT at or above
4.5 V enables rail 0 and awaits its power-good; below it the core starts on the entry island under LOW_ENERGY. ALARM_WAKE
at zero in DORMANT enters SENTRY when armed; so does VBAT_RISE_SAMPLE after a rise of more than 1 V, when no awake mode is
recorded; with one recorded it starts the core. WIN_WAKE of an armed pin, and LANE_WAKE of a lane whose wake condition is met, the lane recorded with its
event, start the core from SENTRY. WAKE_RECEIVER_SHORT stops a wake receiver and sets WAKE_FLT. WAKE_RECEIVER_FRAME of a
CAN lane lowers the wake-frame error counter by 1, not below 0, for a good frame, and raises it by 1 for one in error; at
32 the lane wakes where its configuration has the error wake, and the counter returns to 0 where it has not. It rests on
readings of the model (log entries 16, 18). (R76, R77, R79, R106, R171, R172, R173, R174) -/
def Obligations.WakesStartTheCore : Prop :=
  (∀ (s : State) (mv : Nat), s.power.phase = .asleep → 4500 ≤ mv → ∃ t, exec (.fieldWake mv) s = .next t ∧
    t.power.phase = .railPhase ∧ t.power.railWait = some 0 ∧ t.power.en = s.power.en ||| 1 ∧ t.power.vbat = mv ∧
    rd t R_PWR_WAKE_CAUSE = rd (orReg s R_PWR_WAKE_CAUSE 0 1) R_PWR_WAKE_CAUSE ∧ t.map = s.map ∧ t.ledger = s.ledger) ∧
  (∀ (s : State) (mv : Nat), s.power.phase = .asleep → mv < 4500 → ∃ t, exec (.fieldWake mv) s = .next t ∧
    t.power.phase = .island ∧ t.power.lowEnergy = true ∧ t.power.vbat = mv ∧ t.boot = bootReset ∧ t.map = s.map) ∧
  (∀ s : State, s.power.alarmLeft ≠ 0 → bit s R_PWR_WAKE_ARM 0 8 = true → s.power.phase = .asleep → s.power.cur = .dormant →
    4500 ≤ s.power.vbat →
    exec .alarmWake s = .next (sleepTo (noteWake (wr { begin_ s with power := { s.power with alarmLeft := 0 } } R_PWR_ALARM 0) 3) .sentry)) ∧
  (∀ (s : State) (mv x : Nat), s.power.phase = .asleep → s.power.cur = .dormant → s.power.recorded = .dormant ∨ s.power.recorded = .sentry →
    x ∈ s.power.samples → x + 1000 < mv → bit s R_PWR_WAKE_ARM 0 9 = true → 4500 ≤ mv →
    exec (.vbatRiseSample mv) s = .next (sleepTo (noteWake
      (setVbat { begin_ s with power := { s.power with samples := (mv :: s.power.samples).take 4 } } mv) 4) .sentry)) ∧
  (∀ (s : State) (mv x : Nat), s.power.phase = .asleep → s.power.cur = .dormant → s.power.recorded ≠ .dormant →
    s.power.recorded ≠ .sentry → x ∈ s.power.samples → x + 1000 < mv → s.power.riseAuto = true → 4500 ≤ mv →
    exec (.vbatRiseSample mv) s = .next (startCore (noteWake
      (setVbat { begin_ s with power := { s.power with samples := (mv :: s.power.samples).take 4 } } mv) 4))) ∧
  (∀ (s : State) (pin : Fin 4), s.power.cur = .sentry → s.power.phase = .asleep → bit s R_PWR_WAKE_ARM 0 pin = true →
    exec (.winWake pin) s = .next (startCore (noteWake (begin_ s) 1))) ∧
  (∀ (s : State) (lane : Fin 96) e c, s.power.phase = .asleep → wakeCopy s lane = some c → wakeMeets s lane c e = true →
    exec (.laneWake lane e) s = .next (startCore (noteWake (noteLaneWake (begin_ s) lane e) 2))) ∧
  (∀ (s : State) (lane : Fin 96) c, wakeCopy s lane = some c →
    exec (.wakeReceiverShort lane) s = .next (orReg { begin_ s with
      aon := { s.aon with stopped := tset false s.aon.stopped lane true } } R_LANE_WAKE_LAST 0 (fieldMask 30 1))) ∧
  (∀ (s : State) (lane : Fin 96) c, wakeCopy s lane = some c → c.pers = 1 → (laneOf s lane).fec ≤ 30 →
    exec (.wakeReceiverFrame lane true) s = .next (setLane (begin_ s) lane { laneOf s lane with fec := (laneOf s lane).fec - 1 }) ∧
    exec (.wakeReceiverFrame lane false) s = .next (setLane (begin_ s) lane { laneOf s lane with fec := (laneOf s lane).fec + 1 })) ∧
  (∀ (s : State) (lane : Fin 96) c, wakeCopy s lane = some c → c.pers = 1 → (laneOf s lane).fec = 31 →
    (bitsOf c.cfg 2 1 = 0 →
      exec (.wakeReceiverFrame lane false) s = .next (setLane (begin_ s) lane { laneOf s lane with fec := 0 })) ∧
    (bitsOf c.cfg 2 1 = 1 → exec (.wakeReceiverFrame lane false) s =
      .next (wakeBy (noteLaneWake (setLane (begin_ s) lane { laneOf s lane with fec := 32 }) lane .frameErrors) 2)))

/-- What the commands of the rails do. RAIL_POWER_GOOD of the awaited rail records it and turns to the next rail of the
order, by the operation whose effect this statement gives: in the rail phase rail 0 resets the core and rail 1 begins
start-up; of a rail that is enabled and not awaited it is recorded alone. RAIL_TIMEOUT of rail 0 or 1 turns both off, with
a retry at the first and second failure; at the third FAIL is set, and the wake ends asleep or the entry island stays. Of
rail 2 it sets SPILL_FAIL and goes on, and of rail 3 or 4, awaited or coming up, it sets FAIL, with cause RAIL where the
core runs. RAIL_RETRY enables rail 0 again. RAIL_LOSS of a rail that is good sets FAIL and takes the brown-out path (0 or
1), loses the spill store (2) or sets FAIL with cause RAIL (3 or 4). LOW_ENERGY_CLEAR on the entry island, with VBAT at
4.5 V, brings up rail 0. It rests on readings of the model (log entry 17). (R64, R79, R80, R81, R102, R262) -/
def Obligations.RailsFollowTheirOrder : Prop :=
  (∀ (s : State) (r : Fin 5), s.power.railWait = some r.val → exec (.railPowerGood r) s = .next (railGood (begin_ s) r)) ∧
  (∀ s : State, s.power.phase = .railPhase →
    (railGood s 1).power.pg = s.power.pg ||| 2 ∧ (railGood s 1).power.phase = .startup ∧
    (railGood s 0).power.phase = .railPhase) ∧
  (∀ (s : State) (r : Fin 5), s.power.phase = .awake →
    (railGood s r).power.pg = s.power.pg ||| BitVec.ofNat 5 (2 ^ r.val) ∧ (railGood s r).power.phase = .awake) ∧
  (∀ (s : State) (r : Fin 5), s.power.railWait ≠ some r.val → s.power.en.getLsbD r = true → s.power.pg.getLsbD r = false →
    exec (.railPowerGood r) s =
      .next { begin_ s with power := { s.power with pg := s.power.pg ||| BitVec.ofNat 5 (2 ^ r.val) } } ∧
    exec (.railTimeout r) s = .next (railCause (begin_ s) r)) ∧
  (∀ (s : State) (r : Fin 5), s.power.railWait = some r.val → r.val ≤ 1 → s.power.railRetries < 2 →
    exec (.railTimeout r) s = .next { begin_ s with power := { s.power with
      en := s.power.en &&& 28, pg := s.power.pg &&& 28, railRetries := s.power.railRetries + 1, railSettle := true,
      railWait := none } }) ∧
  (∀ (s : State) (r : Fin 5), s.power.railWait = some r.val → r.val ≤ 1 → 2 ≤ s.power.railRetries →
    ∃ t, exec (.railTimeout r) s = .next t ∧ t.rf = (orReg s R_PWR_RAIL 0 (fieldMask (16 + r) 1)).rf ∧
      t.power.railRetries = 0 ∧ t.power.railSettle = false ∧ t.power.railWait = none ∧
      (s.power.phase = .railPhase → t.power.phase = .asleep) ∧
      (s.power.phase = .island → t.power.phase = .island ∧ t.power.leBlocked = true)) ∧
  (∀ (s : State), s.power.railWait = some 2 →
    exec (.railTimeout 2) s = .next (let u := orReg (railDead (begin_ s) 2) R_SYS_PINSTAT 0 4; railNext u (railMode u))) ∧
  (∀ (s : State) (r : Fin 5), s.power.railWait = some r.val → 3 ≤ r.val →
    exec (.railTimeout r) s = .next (let u := railCause (begin_ s) r; railNext u (railMode u))) ∧
  (∀ (s : State) (r : Nat), (s.power.phase = .startup ∨ s.power.phase = .awake →
      railCause s r = causeArises (lanesFollow (orReg (railDead s r) R_PWR_RAIL 0 (fieldMask (16 + r) 1))) .rail) ∧
    (s.power.phase = .asleep → railCause s r = orReg (railDead s r) R_PWR_RAIL 0 (fieldMask (16 + r) 1)) ∧
    (s.power.phase = .railPhase → railCause s r = orReg (railOff s r) R_PWR_RAIL 0 (fieldMask (16 + r) 1))) ∧
  (∀ s : State, s.power.railSettle = true →
    exec .railRetry s = .next { begin_ s with power := { s.power with
      railSettle := false, en := s.power.en ||| 1, railWait := some 0 } }) ∧
  (∀ (s : State) (r : Fin 5), s.power.en.getLsbD r = true → s.power.pg.getLsbD r = true →
    exec (.railLoss r) s = .next (if r.val ≤ 1 then brownOut (orReg (begin_ s) R_PWR_RAIL 0 (fieldMask (16 + r) 1))
      else if r.val = 2 then spillLoss (orReg (railDead (begin_ s) 2) R_PWR_RAIL 0 (fieldMask 18 1))
      else railCause (begin_ s) r)) ∧
  (∀ (s : State) (mv : Nat), s.power.phase = .island → s.boot.step = 4 → 4500 ≤ mv → s.power.leBlocked = false →
    s.power.railWait = none → s.power.railSettle = false →
    ∃ t, exec (.lowEnergyClear mv) s = .next t ∧ t.power.railWait = some 0 ∧ t.power.en = s.power.en ||| 1 ∧ t.power.vbat = mv)

/-- A sag trip halves fclk by one step of Table 3.7, down to 50 MHz, is counted in PWR_SAG_CNT and restarts the quiet
count; while a sensor stays tripped each further 10 us halves fclk again; a released sensor no longer counts as
tripped. Nothing else changes. (R86) -/
def Obligations.SagThrottle : Prop :=
  (∀ (s : State) (v : Bool), clocked s = true →
    exec (.sagTrip v) s = .next { statInc (begin_ s) R_PWR_SAG_CNT with power := { s.power with
      vcSag := s.power.vcSag || v, vbSag := s.power.vbSag || ! v, step := min 3 (s.power.step + 1), quiet := 0, sagInBeat := true } }) ∧
  (∀ s : State, clocked s = true → s.power.vcSag = true ∨ s.power.vbSag = true →
    exec .sagHalve s = .next { begin_ s with power := { s.power with step := min 3 (s.power.step + 1) } }) ∧
  (∀ (s : State) (v : Bool),
    exec (.sagRelease v) s = .next { begin_ s with power := { s.power with vcSag := s.power.vcSag && ! v, vbSag := s.power.vbSag && v } })

/-- BROWN_OUT, wherever one of its conditions holds, completes by the path of R97: the
device is asleep in DORMANT with every rail off, the recorded mode as it was, LOW_ENERGY clear and VBAT_RISE armed, and
the ledger write queue and the waiting configuration are gone. FIELD_LOSS_TIMEOUT under LOW_ENERGY is a brown-out with the
field gone. VBKP_LOSS clears ledger time and the ledger's head, the odometer, the recorded mode and the root, and sets the
immobiliser unless a tracker reports motion; VBKP_POWER_UP reads the same with the oscillator running. LANE_SHED with the
core clocked turns every lane without CRANK_KEEP off and drops its frames, and LANE_SHED_RETURN brings the shed lanes
back, a faulted one to its fault. It rests on readings of the model (log entries 17, 22, 24, 30, 36). (R82, R84, R96,
R97, R183, R405, R407, R620) -/
def Obligations.PowerLossAndShedding : Prop :=
  (∀ s : State, exec .brownOut s = .next (brownOut (begin_ s))) ∧
  (∀ s : State, (brownOut s).power.phase = .asleep ∧ (brownOut s).power.cur = .dormant ∧
    (brownOut s).power.recorded = s.power.recorded ∧ (brownOut s).power.lowEnergy = false ∧
    (brownOut s).power.riseAuto = true ∧ (brownOut s).power.en = 0 ∧ (brownOut s).ledger = { s.ledger with queue := [] } ∧
    (brownOut s).changes = [] ∧ (brownOut s).map = s.map ∧ (brownOut s).wheels.cmpo = 0 ∧ (brownOut s).wheels.spd = 0) ∧
  (∀ s : State, s.power.lowEnergy = true → s.power.phase ≠ .asleep →
    exec .fieldLossTimeout s = .next (brownOut { begin_ s with nfc := { nfcReset' s.nfc with field := false } })) ∧
  (∀ s : State, exec .vbkpLoss s = .next (vbkpLost (begin_ s)) ∧
    exec .vbkpPowerUp s = .next { vbkpLost (begin_ s) with power := { (vbkpLost (begin_ s)).power with osc := true } } ∧
    (vbkpLost s).ledger = { ledgerReset with ring := s.ledger.ring } ∧ (vbkpLost s).wheels.odo = 0 ∧
    (vbkpLost s).power.recorded = .dormant ∧ (vbkpLost s).vault.rootPresent = false ∧
    (vbkpLost s).vault.root = List.replicate 32 0 ∧ (vbkpLost s).vault.immob = (s.vault.immob || ! motionNow s) ∧
    (vbkpLost s).map = s.map ∧ (vbkpLost s).tables = s.tables) ∧
  (∀ s : State, clocked s = true → exec .laneShed s = .next ((List.range 96).foldl (fun s n =>
      let x := laneOf s n
      if crankKeep s n ∨ x.st = .shed ∨ x.st = .off then s
      else
        let keep := if x.st = .fault ∨ x.st = .latched then x.st else .off
        setLane (flushLane s n) n { laneOf s n with st := .shed, preShed := keep, probe := false, swapPend := false })
    { begin_ s with power := { s.power with shed := true } })) ∧
  (∀ s : State, clocked s = true → exec .laneShedReturn s = .next ((List.range 96).foldl (fun s n =>
      let x := laneOf s n
      if x.st ≠ .shed then s
      else if x.preShed ≠ .off then setLane s n { x with st := x.preShed, preShed := .off }
      else laneToTarget (setLane s n { x with st := .off }) n)
    { begin_ s with power := { s.power with shed := false } }))

/-- SENTRY_DWELL_EXPIRY and PARK_TIMEOUT, where they are configured, take SENTRY to DORMANT. APPROACH_IDLE_EXPIRY of an
APPROACH with nothing in hand goes to SENTRY, or waits while the vault holds a block. SERVICE_IDLE_TIMEOUT and
DEPOT_IDLE_TIMEOUT without their sessions go to APPROACH. DRIVE_START_REQUEST by the configured frame takes RENTED to DRIVE
when its preconditions hold; DRIVE_STOP_REQUEST by the configured frame is held until standstill, and at standstill takes
DRIVE to RENTED. WOUT_ACK_WRITE releases WAKE_OUT, PWR_ALARM_WRITE starts the countdown, and MODE_SET with the right and
along a row of Table 3.2 enters the mode and answers OK. It rests on readings of the model (log entries 18, 19, 54).
(R71, R73, R78, R95, R101, R106, R638) -/
def Obligations.IdleTimersAndRequests : Prop :=
  (∀ s : State, s.power.phase = .asleep → s.power.cur = .sentry → fld s R_PWR_TIMERS 16 12 ≠ 0 →
    exec .sentryDwellExpiry s = .next (sleepTo (begin_ s) .dormant)) ∧
  (∀ s : State, s.power.phase = .asleep → s.power.cur = .sentry → fld s R_PWR_VTH 16 8 ≠ 0 →
    exec .parkTimeout s = .next (sleepTo (begin_ s) .dormant)) ∧
  (∀ s : State, running s = true → mode s = .approach → approachIdle s = true →
    ((List.range 10).any (held s) = false → exec .approachIdleExpiry s = .next (sleepFrom (begin_ s) .sentry)) ∧
    ((List.range 10).any (held s) = true →
      exec .approachIdleExpiry s = .next { begin_ s with power := { s.power with sleepPend := true } })) ∧
  (∀ s : State, running s = true → mode s = .service → (sessOf s 2).isOpen = false →
    exec .serviceIdleTimeout s = .next (enterMode (begin_ s) .approach)) ∧
  (∀ s : State, running s = true → mode s = .depot → (sessOf s 1).isOpen = false → (sessOf s 3).isOpen = false →
    exec .depotIdleTimeout s = .next (enterMode (begin_ s) .approach)) ∧
  (∀ (s : State) (l : Fin 96) ide id d t, running s = true → requestMatch s.nfc.startFrm l ide id d = true → mode s = .rented →
    s.ledger.trip = some t → t.drive = true → s.hlb.immobAny = false → steeringReleased s = true → s.power.actLow = false →
    exec (.driveStartRequest l ide id d) s = .next (enterMode (begin_ s) .drive)) ∧
  (∀ (s : State) (l : Fin 96) ide id d, running s = true → requestMatch s.nfc.stopFrm l ide id d = true → mode s = .drive →
    exec (.driveStopRequest l ide id d) s = .next (settle { begin_ s with vault := { s.vault with toRented := true } })) ∧
  (∀ s : State, standstill s = false → settle s = s) ∧
  (∀ s : State, standstill s = true → mode s = .drive → s.vault.toRented = true → s.vault.closePend = false →
    mode (settle s) = .rented) ∧
  (∀ (s : State) (w : Sys2Proof.Word), running s = true →
    exec .woutAckWrite s = .next { begin_ s with power := { s.power with wakeOut := false } } ∧
    exec (.pwrAlarmWrite w) s = .next { begin_ s with power := { s.power with alarmLeft := bitsOf w 0 24 * 32768 } }) ∧
  (∀ (s : State) (r : Req) (role : Nat) (m : BitVec 8), Granted 0x0201 r role (judgeModeSet m.toNat) s → modeRow (heard 0x0201 r role s) m.toNat = true →
    exec (.modeSet r m) s = .next (ok 0x0201 r (enterMode (admitted 0x0201 r role s)
      (if m.toNat = 5 then .service else if m.toNat = 6 then .depot else .approach)) []))

/-- GATE_REQUEST_WRITE votes block by block, each block's request bits set or cleared and its gate following. GATE_EFFECT
of a pending gate of a block with no hold and no work takes effect and answers the commands that wait for it. VAULT_HOLD
of a block with no work sets its PWR_HOLD bit, and a gated block is ungated with its request pending; VAULT_RELEASE clears
the bit, lets a pending gate take effect with GATE_DONE, and a way to sleep that waited goes on. BLOCK_GATE that clears a
request, or asks for one of a free block, votes and answers OK; of a held block it votes and answers HELD_SECURE; of an
enabled port group it answers DENIED; with work running on the block it votes, and the answer waits for the gate. It
rests on readings of the model (log entry 21). (R89, R90, R91, R92, R94, R95) -/
def Obligations.GatesAndHolds : Prop :=
  (∀ (s : State) (p : Bool) (w : Sys2Proof.Word), running s = true → exec (.gateRequestWrite p w) s =
    .next ((List.range 14).foldl (fun s b => let v := decide (bitsOf w b 1 = 1)
      (if p then gateVote s b (bit s R_PWR_GATE_CLK 0 b) v else gateVote s b v (bit s R_PWR_GATE_PWR 0 b)).1) (begin_ s))) ∧
  (∀ (s : State) (b : Nat) (clk pwr : Bool), (clk, pwr) ≠ (bit s R_PWR_GATE_CLK 0 b, bit s R_PWR_GATE_PWR 0 b) → b < 10 →
    gateVote s b clk pwr =
      (gateRequested (setFld (setFld s R_PWR_GATE_CLK b 1 (b2n clk)) R_PWR_GATE_PWR b 1 (b2n pwr)) b, true)) ∧
  (∀ (s : State) (b : Fin 14), running s = true → gateOf s b = .pending → held s b = false → blockBusy s b = false →
    exec (.gateEffect b) s = .next (answerGates (gateNow (begin_ s) b) b)) ∧
  (∀ (s : State) (b : Fin 10), running s = true → held s b = false → blockBusy s b = false →
    (gateOf s b = .on → exec (.vaultHold b) s = .next (orReg (begin_ s) R_PWR_HOLD 0 (fieldMask b 1))) ∧
    (gateOf s b ≠ .on → exec (.vaultHold b) s = .next (setGate (orReg (begin_ s) R_PWR_HOLD 0 (fieldMask b 1)) b .pending))) ∧
  (∀ (s : State) (b : Fin 10), running s = true → held s b = true → gateOf s b ≠ .pending →
    exec (.vaultRelease b) s = .next (resumeSleep (clrReg (begin_ s) R_PWR_HOLD 0 (fieldMask b 1)))) ∧
  (∀ (s : State) (b : Fin 10), running s = true → held s b = true → gateOf s b = .pending →
    exec (.vaultRelease b) s =
      .next (resumeSleep (raise (answerGates (gateNow (clrReg (begin_ s) R_PWR_HOLD 0 (fieldMask b 1)) b) b) .gateDone))) ∧
  (∀ (s : State) (r : Req) (b k : BitVec 8), Granted 0x0203 r 0 judgeHostAwake s → b.toNat ≤ 13 → k.toNat ≤ 2 →
    let u := heard 0x0203 r 0 s
    let clk := decide (k.toNat = 1)
    let pwr := decide (k.toNat = 2)
    let v := (gateVote (admitted 0x0203 r 0 s) b.toNat clk pwr).1
    (k.toNat = 0 → exec (.blockGate r b k) s = .next (ok 0x0203 r v [])) ∧
    ((gateVote u b.toNat clk pwr).2 = true → held u b.toNat = false → blockBusy u b.toNat = false →
      exec (.blockGate r b k) s = .next (ok 0x0203 r v [])) ∧
    ((gateVote u b.toNat clk pwr).2 = true → k.toNat ≠ 0 → held u b.toNat = true →
      exec (.blockGate r b k) s = .next (answer (countHostDeny v 0 .heldSecure) r 0x0203 .heldSecure [])) ∧
    ((gateVote u b.toNat clk pwr).2 = false →
      exec (.blockGate r b k) s = .next (answer (countHostDeny v 0 .denied) r 0x0203 .denied [])) ∧
    ((gateVote u b.toNat clk pwr).2 = true → k.toNat ≠ 0 → held u b.toNat = false → blockBusy u b.toNat = true →
      exec (.blockGate r b k) s = .next (setCur { v with disp := { v.disp with
        gateWaits := v.disp.gateWaits ++ [({ req := r, ctx := v.disp.cur }, b.toNat)] } } none)))

/-- BEAT_BOUNDARY of a core whose clocks run completes, and TIME_BEAT_CNT increments by one, modulo 2^32; a wrap to zero
raises BEAT_WRAP. The local time stands at the end of the running beat. The queue, the key slots and the stored map are as
they were. Without clocks nothing changes but the outputs. It rests on readings of the model (log entry 1). (R134, R140) -/
def Obligations.BeatBoundaryCountsOne : Prop :=
  (∀ (s : State) (env : BeatEnv), clocked s = true →
    ∃ t, exec (.beatBoundary env) s = .next t ∧ t.time.beatCnt = s.time.beatCnt + 1 ∧
      t.time.ticks = s.time.ticks + (s.time.beatLen - s.time.beatPos) ∧ t.pending = s.pending ∧
      t.vault.slots = s.vault.slots ∧ t.map = s.map) ∧
  (∀ (s : State) (env : BeatEnv), clocked s = false → exec (.beatBoundary env) s = .next (begin_ s)) ∧
  (∀ s : State, s.time.beatCnt = 0xFFFFFFFF →
    beatCount s = raise { s with time := { s.time with beatCnt := 0, beatPos := s.time.beatPos - s.time.beatLen } } .beatWrap) ∧
  (∀ s : State, s.time.beatCnt ≠ 0xFFFFFFFF →
    beatCount s = { s with time := { s.time with
      beatCnt := s.time.beatCnt + 1, beatPos := s.time.beatPos - s.time.beatLen } })

/-- FW_WINDOW_START makes one ageing step in each pipeline unless the last one still runs, and writes scrubbed records
again. AGE_PERIOD_START starts the pass of each pipeline. BGS_WINDOW_START scrubs its words, treats the errors found, and,
unless one of them ordered a warm reset, runs the calibration, wear and chain shares of the window. TELEM_RECORD keeps a
closed record among the newest eight, counts it and raises TELEM_READY. FUSE_RECHECK of a temperature within 30 degrees of
the last re-check, with none running, makes it the current one; another one re-reads the array, gives SEC words the
tightened values, keeps all other words, and ends with the temperature as REF and CUR. It rests on readings of the model
(log entries 25, 35, 61, 62). (R118, R136, R138, R232, R233, R567, R568, R574) -/
def Obligations.WindowsOfTheBeat : Prop :=
  (∀ s : State, running s = true → s.time.ageOwed = false →
    exec .fwWindowStart s = .next (rewriteNow ([0, 1, 2, 3].foldl ageStep (begin_ s)))) ∧
  (∀ s : State, running s = true → s.time.ageOwed = true →
    exec .fwWindowStart s = .next (rewriteNow { begin_ s with time := { s.time with ageOwed := false } })) ∧
  (∀ s : State, running s = true → exec .agePeriodStart s = .next ((List.range 4).foldl agePeriod (begin_ s))) ∧
  (∀ (s : State) (w : BgsWork), running s = true →
    let u := w.errors.foldl (fun s e => if running s then scrubErr s e else s) (scrubOn (begin_ s) w.scrub)
    (running u = false → exec (.bgsWindowStart w) s = .next u) ∧
    (running u = true → exec (.bgsWindowStart w) s = .next (
      let a := match w.lane with
        | some ok => laneCal (calRounds u) ok
        | none => calRounds u
      let b := match w.adc with
        | some ok => adcCal a ok
        | none => a
      let c := w.wear.foldl wearStep b
      match w.chain with
        | some brk => chainStep c brk
        | none => c))) ∧
  (∀ (s : State) rec, running s = true → s.bgs.telDue = some rec →
    exec .telemRecord s = .next (raise (statInc { begin_ s with bgs := { s.bgs with
      telDue := none, telRecords := (rec :: s.bgs.telRecords).take 8 } } R_BGS_TELEM) .telemReady)) ∧
  (∀ (s : State) reads (t : Int), running s = true → s.bgs.fuseRun = false → (t - s.bgs.tempLast).natAbs < 300 →
    exec (.fuseRecheck reads t) s = .next { begin_ s with bgs := { s.bgs with tempCur := t } }) ∧
  (∀ (s : State) reads (t : Int), running s = true → s.bgs.fuseRun = true ∨ 300 ≤ (t - s.bgs.tempLast).natAbs →
    ∃ u, exec (.fuseRecheck reads t) s = .next u ∧
      u.fuses = { s.fuses with words := tsetMany 0 s.fuses.words ((List.range 4).map fun k =>
        (k, (fuseCompare s k (fuseResolve k (arrayRead s reads k)).1 (fuseResolve k (arrayRead s reads k)).2.2).1)) } ∧
      u.bgs.tempCur = t ∧ u.bgs.tempRef = t ∧ u.bgs.tempLast = t ∧ u.bgs.fuseRun = false) ∧
  (∀ (s : State) (k : Nat) (v : Sys2Proof.Word) (inv : Bool), k < 4 → (fuseCompare s k v inv).1 = fuseWord s k ||| v)

/-- SYNC_RECEIVED of a domain whose number, port and link fit moves its state, and an offset beyond STEP_US steps the domain,
sets STEPPED, raises DOM_STEP and marks the channels whose targets it passed; another one gives it a new rate, a free value
within 200 ppm. SYNC_TIMEOUT puts a LOCKED or ACQUIRE domain into HOLDOVER with HOLD_ENTER, and makes a device that may be
grandmaster and is selected the GM. HOLD_MS_WRAP at all ones in HOLDOVER wraps the count to zero with HOLD_WRAP.
TIME_NS_READ latches the other fields of the same tick and gives the nanoseconds. TRIGGER_FIRE of a channel that runs and
whose target is reached acts on time, or late with the grid points passed over skipped and TRG_LATE, or leaves its block to
a lower channel; a refused firing is counted in SKIP, and the channel moves to its next target; before its target nothing
happens. TRGC_CFG_WRITE stores the fields of a channel of the normal world and arms it, keeps ACT at a reserved code with
RESERVED_ENC, and leaves a channel of the vault alone. It rests on readings of the model (log entries 28, 29). (R142, R143,
R144, R146, R147, R148, R149, R150, R151, R158) -/
def Obligations.DomainsAndTriggers : Prop :=
  (∀ (s : State) (n : Fin 3) (num : BitVec 8) (p : Fin 8) (o : Int), running s = true → syncFor s n num.toNat p = true →
    o.natAbs > fld s (R_TIME_D_SERVO + 0x40 * n.val) 16 16 * 65536000 →
    exec (.syncReceived n ⟨num, p, o⟩) s = .next (
      let d := syncState (domOf s n) (decide (o.natAbs < fld s (R_TIME_D_SERVO + 0x40 * n.val) 0 16 * 65536))
      pastByStep (begin_ s) (raise (orReg (setDom (begin_ s) n { d with t := domWrap ((d.t : Int) + o) })
        (R_TIME_D_STAT + 0x40 * n.val) 0 0x10) .domStep) n)) ∧
  (∀ (s : State) (n : Fin 3) (num : BitVec 8) (p : Fin 8) (o : Int), running s = true → syncFor s n num.toNat p = true →
    o.natAbs ≤ fld s (R_TIME_D_SERVO + 0x40 * n.val) 16 16 * 65536000 →
    ∃ rate : Int, rate.natAbs ≤ rateMax ∧ exec (.syncReceived n ⟨num, p, o⟩) s = .next (
      let d := syncState (domOf s n) (decide (o.natAbs < fld s (R_TIME_D_SERVO + 0x40 * n.val) 0 16 * 65536))
      setDom { begin_ s with fresh := s.fresh + 1 } n { d with rate := rate })) ∧
  (∀ (s : State) (n : Fin 3), running s = true → (domOf s n).st = .locked ∨ (domOf s n).st = .acquire →
    exec (.syncTimeout n false) s =
      .next (raise (setDom (begin_ s) n { domOf s n with st := .holdover, good := 0, holdTicks := 0 }) .holdEnter)) ∧
  (∀ (s : State) (n : Fin 3), running s = true → (domOf s n).st ≠ .off → bit s (R_TIME_D_CFG + 0x40 * n.val) 0 1 = true →
    exec (.syncTimeout n true) s = .next (setDom (begin_ s) n { domOf s n with st := .gm, good := 0 })) ∧
  (∀ (s : State) (n : Fin 3), running s = true → (domOf s n).st = .holdover → holdMs (domOf s n) = 2 ^ 32 - 1 →
    exec (.holdMsWrap n) s = .next (raise (setDom (begin_ s) n { domOf s n with holdTicks := 0 }) .holdWrap)) ∧
  (∀ (s : State) (n : Fin 3), running s = true →
    exec (.timeNsRead n) s = .next (let u := nsLatch (begin_ s) n
      { u with out := { u.out with rdata := [BitVec.ofNat 32 ((domOf s n).t / 65536 % 1000000000)] } })) ∧
  (∀ (s : State) (c : Fin 32), trgRuns s c = true → trgDue s c = true → trgBeaten s c = false → tget false s.time.trgPast c = false →
    exec (.triggerFire c) s = .next (
      let x := trgDo (trgMark (setPast (begin_ s) c false) c) c
      trgAdvance (statAddI x.2 (trg R_TRG_SKIP c) 0 (0 + if x.1 then 0 else 1)) c 0)) ∧
  (∀ (s : State) (c : Fin 32), trgRuns s c = true → trgDue s c = true → trgBeaten s c = false → tget false s.time.trgPast c = true →
    exec (.triggerFire c) s = .next (
      let k := if trgPeriod s c ≠ 0 then trgAhead s c / trgPeriod s c else 0
      let x := trgDo (trgMark (setPast (begin_ s) c false) c) c
      trgAdvance (raise (orReg (statAddI x.2 (trg R_TRG_SKIP c) 0 (k + if x.1 then 0 else 1)) (trg R_TRG_STAT c) 0 2) .trgLate) c k)) ∧
  (∀ (s : State) (c : Fin 32), trgRuns s c = true → trgDue s c = true → trgBeaten s c = true →
    exec (.triggerFire c) s =
      .next (trgAdvance (statAddI (setPast (begin_ s) c false) (trg R_TRG_SKIP c) 0 (0 + 1)) c 0)) ∧
  (∀ (s : State) (c : Fin 32), trgDue s c = false → exec (.triggerFire c) s = .next (begin_ s)) ∧
  (∀ (s : State) (c : Fin 32) (w : Sys2Proof.Word), running s = true → trgOwned s c = false →
    let u := setFld (setFld (begin_ s) (trg R_TRG_CFG c) 20 2 (bitsOf w 20 2)) (trg R_TRG_CFG c) 8 12 (bitsOf w 8 12)
    (4 < bitsOf w 0 4 → exec (.trgcCfgWrite c w) s = .next (raise u .reservedEnc)) ∧
    (bitsOf w 0 4 = 0 → exec (.trgcCfgWrite c w) s = .next (setFld u (trg R_TRG_CFG c) 0 4 0)) ∧
    (1 ≤ bitsOf w 0 4 → bitsOf w 0 4 ≤ 4 →
      exec (.trgcCfgWrite c w) s = .next (trgArm (setFld u (trg R_TRG_CFG c) 0 4 (bitsOf w 0 4)) c))) ∧
  (∀ (s : State) (c : Fin 32) (w : Sys2Proof.Word), running s = true → trgOwned s c = true →
    exec (.trgcCfgWrite c w) s = .next (begin_ s))

/-- FREEZE_ENTER while armed stops the clocks, ends the arming, is counted, and drives the angle and compare outputs low.
FREEZE_IGNORED of a fall while not armed, with VIO on, is counted and raised. FREEZE_EXIT restarts the clocks by what the
shadow counted, at least 1 us. FREEZE_WINDOW_END at the end of the window and FREEZE_DISARM end the arming. FREEZE_ARM
commits its entry and arms for its window. SNAP_ADDR sets the debug port's address. SNAP_DATA moves it on by 4, and answers
OK with the word of a register in a freeze where SNAP_DIS is not set, and no word outside a freeze. It rests on readings of
the model (log entries 45, 63, 64, 66, 67). (R580, R581, R582, R583, R584, R621) -/
def Obligations.FreezeAndSnapshot : Prop :=
  (∀ s : State, running s = true → freezeArmed s = true →
    exec .freezeEnter s = .next (let u := statInc (orReg (begin_ s) R_DBG_FRZ_STAT 0 (fieldMask 30 1)) R_DBG_FRZ_CNT
      { u with freeze := { s.freeze with armed := false, frozen := true, shadow := 0, held := [] },
               wheels := { s.wheels with spd := 0, cmpo := 0, pulses := 0 } })) ∧
  (∀ s : State, s.power.phase ≠ .asleep → s.power.phase ≠ .railPhase → vioUp s = true → s.freeze.frozen = false →
    freezeArmed s = false → exec .freezeIgnored s = .next (raise (statInc (begin_ s) R_DBG_FRZ_IGN) .freezeIgnored)) ∧
  (∀ s : State, s.freeze.frozen = true → exec .freezeExit s = .next (restart (begin_ s) (max s.freeze.shadow 250))) ∧
  (∀ s : State, running s = true → freezeArmed s = false →
    exec .freezeWindowEnd s = .next { begin_ s with freeze := { s.freeze with armed := false } }) ∧
  (∀ (s : State) r role (w : BitVec 16), Granted 0x0D01 r role (judgeRight false false true true armModes) s → 1 ≤ w.toNat → w.toNat ≤ 3600 →
    (ledgerLive (heard 0x0D01 r role s) = true → ledgerRoomFor (heard 0x0D01 r role s) 2 = true) →
    exec (.freezeArm r w) s = .next (ok 0x0D01 r (
      let u := commitEntry (admitted 0x0D01 r role s) (.freezeArm (curRole (heard 0x0D01 r role s)) r.session.toNat)
      { u with freeze := { u.freeze with
          armed := true, armRole := curRole (heard 0x0D01 r role s), armEnd := u.time.ticks + w.toNat * 250000000 } }) [])) ∧
  (∀ (s : State) r role, Granted 0x0D02 r role (judgeRight false false true true Mode.awake) s →
    exec (.freezeDisarm r) s = .next (ok 0x0D02 r (
      let u := admitted 0x0D02 r role s
      { u with freeze := { u.freeze with armed := false } }) [])) ∧
  (∀ (s : State) (a : BitVec 40), tapUp s = true →
    exec (.snapAddr a) s = .next { begin_ s with freeze := { s.freeze with snapAddr := a.toNat } }) ∧
  (∀ s : State, tapUp s = true → s.freeze.frozen = false →
    exec .snapData s = .next { begin_ s with freeze := { s.freeze with snapAddr := (s.freeze.snapAddr + 4) % 2 ^ 40, snapData := 0 },
                                             out := { Outp.none with rdata := [0] } }) ∧
  (∀ s : State, tapUp s = true → s.freeze.frozen = true → s.freeze.snapAddr % 4 = 0 → snapDis s = false →
    regionOf s.freeze.snapAddr = some .reg →
    let w := snapReg (begin_ s) (s.freeze.snapAddr - regBase)
    exec .snapData s = .next { begin_ s with
      freeze := { s.freeze with snapAddr := (s.freeze.snapAddr + 4) % 2 ^ 40, snapData := (1 : BitVec 1) ++ w },
      out := { Outp.none with rdata := [w] } })

/-- A † command granted in SERVICE whose own checks pass, whose record fits the stored map and for which HLB_EPOCH can
advance completes: its record is stored, one commit is counted for the next beat boundary, its effect follows and it
answers OK. This statement covers LANE_CONFIG, PORT_CONFIG, PHY_WRITE of a PHY that answers, SW_CONFIG, POL_CONFIG and
SCH_CONFIG, and says what storing a record and counting a commit change. It rests on readings of the model (log entries
27, 30, 33, 70). (R41, R161, R170, R190, R213, R256, R285, R305, R533, R548) -/
def Obligations.ConfigurationOfLinesAndTables : Prop :=
  (∀ (s : State) r role lane img, Granted 0x0301 r role judgeInstaller s → checkLane lane img = none →
    mapFits (heard 0x0301 r role s) (.lane lane img) = true →
    exec (.laneConfig r lane img) s = .next (configured 0x0301 r role (.lane lane img) (applyLane lane.toNat img) s)) ∧
  (∀ (s : State) r role port img, Granted 0x0303 r role judgeInstaller s → checkPort port img = none →
    mapFits (heard 0x0303 r role s) (.port port img) = true →
    exec (.portConfig r port img) s = .next (configured 0x0303 r role (.port port img) (applyPort port.toNat img) s)) ∧
  (∀ (s : State) r role phy clause dev reg value, Granted 0x0305 r role judgeInstaller s → checkPhy phy clause dev reg = none →
    mapFits (heard 0x0305 r role s) (.phyWrite phy clause dev reg value) = true →
    exec (.phyWrite r phy clause dev reg value true) s =
      .next (ok 0x0305 r (commitChange (storeRecord
        (mdioOut (admitted 0x0305 r role s) phy.toNat (.write clause.toNat dev.toNat reg.toNat value.toNat))
        (.phyWrite phy clause dev reg value))) [])) ∧
  (∀ (s : State) r role kind index img, Granted 0x0501 r role judgeInstaller s →
    checkSw (heard 0x0501 r role s) kind index img = none → mapFits (heard 0x0501 r role s) (.sw kind index img) = true →
    exec (.swConfig r kind index img) s =
      .next (configured 0x0501 r role (.sw kind index img) (applySw kind.toNat index.toNat img) s)) ∧
  (∀ (s : State) r role n img, Granted 0x0502 r role judgeInstaller s → checkPol n img = none →
    mapFits (heard 0x0502 r role s) (.pol n img) = true →
    exec (.polConfig r n img) s = .next (configured 0x0502 r role (.pol n img) (applyPol n.toNat img) s)) ∧
  (∀ (s : State) r role egr p, Granted 0x0503 r role judgeInstaller s → checkSch (heard 0x0503 r role s) egr p = none →
    mapFits (heard 0x0503 r role s) (schRec egr p) = true →
    exec (.schConfig r egr p) s = .next (configured 0x0503 r role (schRec egr p) (applySch egr.toNat p) s)) ∧
  (∀ (s : State) (c : Cfg), commitChange (storeRecord s c) = (
    let m := putRecord (if s.boot.mapValid then s.map else []) c
    { s with map := m, vault := { s.vault with mapHash := sha256 (mapBytes m) }, boot := { s.boot with mapValid := true },
             hlb := { s.hlb with commits := s.hlb.commits + 1 } }))

/-- A † command granted in SERVICE whose own checks pass, whose record fits the stored map and for which HLB_EPOCH can
advance completes: its record is stored, one commit is counted for the next beat boundary, its effect follows and it
answers OK. This statement covers TIME_BEAT_SET, TIME_CONFIG, LA_CONFIG, ENTRY_CONFIG, TT_CONFIG, ANG_EVENT_SET, FB_CONFIG
and HLB_CONFIG. It rests on readings of the model (log entries 27, 58, 70). (R41, R132, R368, R456, R467, R470, R533,
R538, R548) -/
def Obligations.ConfigurationOfTimeWheelsAndDomain : Prop :=
  (∀ (s : State) r role len dom al, Granted 0x0601 r role judgeInstaller s → checkBeat (heard 0x0601 r role s) len dom al = none →
    mapFits (heard 0x0601 r role s) (.beat len dom al) = true →
    exec (.timeBeatSet r len dom al) s = .next (configured 0x0601 r role (.beat len dom al) (applyBeat len dom al) s)) ∧
  (∀ (s : State) r role index img, Granted 0x0602 r role judgeInstaller s → checkTime index img = none →
    mapFits (heard 0x0602 r role s) (.time index img) = true →
    exec (.timeConfig r index img) s = .next (configured 0x0602 r role (.time index img) (applyTime index img) s)) ∧
  (∀ (s : State) r role prof img, Granted 0x0801 r role judgeInstaller s → checkLa prof img = none →
    mapFits (heard 0x0801 r role s) (.la prof img) = true →
    exec (.laConfig r prof img) s = .next (configured 0x0801 r role (.la prof img) (applyLa prof.toNat img) s)) ∧
  (∀ (s : State) r role hold a b c d, Granted 0x0910 r role judgeInstaller s → checkEntry hold a b c d = none →
    mapFits (heard 0x0910 r role s) (.entry hold a b c d) = true →
    exec (.entryConfig r hold a b c d) s = .next (configured 0x0910 r role (.entry hold a b c d) (applyEntry hold a b c d) s)) ∧
  (∀ (s : State) r role n img, Granted 0x0B01 r role judgeInstaller s → checkTt n.toNat img = none →
    mapFits (heard 0x0B01 r role s) (.tt n img) = true →
    exec (.ttConfig r n img) s = .next (configured 0x0B01 r role (.tt n img) (applyTt n.toNat img) s)) ∧
  (∀ (s : State) r role first count es, Granted 0x0B02 r role judgeInstaller s →
    checkAng (heard 0x0B02 r role s) first.toNat count.toNat es = none →
    mapFits (heard 0x0B02 r role s) (.angEvt first count es) = true →
    exec (.angEventSet r first count es) s = .next (configured 0x0B02 r role (.angEvt first count es) (applyAng first.toNat es) s)) ∧
  (∀ (s : State) r role kind index img, Granted 0x0B03 r role judgeInstaller s →
    checkFb (heard 0x0B03 r role s) kind.toNat index.toNat img = none →
    mapFits (heard 0x0B03 r role s) (.fb kind index img) = true →
    exec (.fbConfig r kind index img) s = .next (configured 0x0B03 r role (.fb kind index img) (applyFb kind.toNat index.toNat img) s)) ∧
  (∀ (s : State) r role node kind ports dom ks, Granted 0x0C01 r role judgeInstaller s →
    checkHlb (heard 0x0C01 r role s) node kind ks = none →
    mapFits (heard 0x0C01 r role s) (.hlb node kind ports dom ks) = true →
    exec (.hlbConfig r node kind ports dom ks) s =
      .next (configured 0x0C01 r role (.hlb node kind ports dom ks) (applyHlb node kind ports dom ks) s))

/-- TBL_WRITE that is granted and well formed puts its entry at once where no pipeline refuses it, and with the batch flag
it joins the batch of its context; an INSTALLER's direct write in SERVICE is stored in the map as well. TBL_COMMIT of a
batch of one's own marks it for the next beat boundary, stores the records of an INSTALLER, and answers with its length.
TBL_DELETE answers the mask of pipelines that held an entry, now without it, and TBL_FLUSH flushes the pipelines of the
mask. It rests on readings of the model (log entries 35, 45). (R239, R240, R241, R242, R244, R245) -/
def Obligations.TableCommands : Prop :=
  (∀ (s : State) r role (t f pm : BitVec 8) (i : Sys2Proof.Word) (e : List Sys2Proof.Word), Granted 0x0401 r role (judgeTable fun _ => ! hostDenied t.toNat e) s →
    let u := heard 0x0401 r role s
    let v := admitted 0x0401 r role s
    let c : Cfg := .tblWrite t f pm i e
    u.tables.batchGo = false → tblForm t.toNat pm.toNat i.toNat e = none → (fullRight u = true → mapFits u c = true) →
    (f.getLsbD 0 = false → (tblPut v (fullRight u) t.toNat pm.toNat i.toNat e).1 = .ok →
      exec (.tblWrite r t f pm i e) s = .next (ok 0x0401 r (
        let w := (tblPut v (fullRight u) t.toNat pm.toNat i.toNat e).2
        if fullRight u then commitChange (storeRecord w c) else w) [])) ∧
    (f.getLsbD 0 = true → u.tables.batch = [] ∨ u.tables.batchBy = some (r.chan, curRole u) → u.tables.batch.length < 64 →
      fullRight u = true ∨ keyHeld u pm.toNat e = false →
      exec (.tblWrite r t f pm i e) s = .next (ok 0x0401 r
        { v with tables := { v.tables with
            batch := v.tables.batch ++ [(fullRight u, c)], batchBy := some (r.chan, curRole u) } } []))) ∧
  (∀ (s : State) r role, Granted 0x0405 r role (judgeRight true false false false dynModes) s →
    let u := heard 0x0405 r role s
    let v := admitted 0x0405 r role s
    let mine := u.tables.batch.filter Prod.fst
    u.tables.batchGo = false → u.tables.batch = [] ∨ u.tables.batchBy = some (r.chan, curRole u) →
    mine = [] ∨ (fullRight u = true ∧ epochFinal u = false) →
    exec (.tblCommit r) s = .next (
      let w := if mine ≠ [] then commitChange (mine.foldl (fun s x => storeRecord s x.2) v) else v
      ok 0x0405 r { w with tables := { w.tables with batchGo := true } } (leBytes 1 w.tables.batch.length ++ leBytes 3 0))) ∧
  (∀ (s : State) r role (t pm : BitVec 8) (i : Sys2Proof.Word) (k : BitVec 64), Granted 0x0403 r role (judgeTable fun _ => decide (t = 2)) s →
    let u := heard 0x0403 r role s
    t.toNat ≤ 5 → ¬ (t = 2 ∧ i.toNat = 2 ^ 32 - 1 ∧ bf k 62 2 = 3) → posOk t.toNat i.toNat = true →
    (fullRight u = true ∨ ∀ p, p < 4 → pm.toNat / 2 ^ p % 2 = 1 → match hashAt u p i.toNat k with
      | some x => hostEntry (hGet u p x) = true
      | none => i.toNat ≠ 2 ^ 32 - 1 ∨ bf k 62 2 = 0) →
    exec (.tblDelete r t pm i k) s = .next (let x := tblDelete (admitted 0x0403 r role s) t.toNat pm.toNat i.toNat k
      ok 0x0403 r x.2 (leBytes 1 x.1 ++ leBytes 3 0))) ∧
  (∀ (s : State) r role (pm f : BitVec 8), Granted 0x0404 r role (judgeRight true false false false dynModes) s →
    exec (.tblFlush r pm f) s = .next (ok 0x0404 r (((List.range 4).filter fun p => pm.getLsbD p).foldl
      (fun u p => flushPipe u (fullRight (heard 0x0404 r role s)) (f.getLsbD 0) p) (admitted 0x0404 r role s)) []))

/-- LANE_PROBE_END takes a probing lane ACTIVE. LANE_FAULT_DETECT of a fault that fits takes a lane whose front-end is on to
FAULT, its flag set, the fault present, its queues flushed, counted and raised; on a lane in FAULT or LATCHED it is one
more fault present with its flag. LANE_OPEN_DETECT flags code 9 of a CAN or T1S lane and is raised. LANE_REVERSAL flags code
8: on T1S alone, on CAN with SWAP_EN the lane waits receive-only for its swap, else it is a fault. LANE_ROLE_SWAP sets
SWAPPED, and the lane passes to its target state. LANE_RETRY records the faults met; with the causing one met it counts
RETRIES, to LATCHED at RETRY_MAX, else the lane returns. LANE_FAULT_FREE clears RETRIES. BUS_OFF_RECOVERY clears the error
counters and the lane returns. LANE_RECOVER makes a LATCHED lane retry and leaves any other as it is. It rests on readings
of the model (log entries 30, 31). (R162, R168, R175, R176, R177, R178, R179, R180, R183) -/
def Obligations.LaneFaultsAndRecovery : Prop :=
  (∀ (s : State) (n : Fin 96), clocked s = true → (laneOf s n).st = .rxOnly → (laneOf s n).probe = true →
    exec (.laneProbeEnd n) s = .next (setLane (begin_ s) n { laneOf s n with st := .active, probe := false })) ∧
  (∀ (s : State) (n : Fin 96) (c : Fin 10), clocked s = true → faultFits s n c = true → laneOn s n = true →
    exec (.laneFaultDetect n c) s = .next (
      let u := flushLane (faultSeen (begin_ s) n c) n
      let v := raise (statIncI (setLane u n { laneOf u n with
        st := .fault, probe := false, swapPend := false, watch := false, cause := c }) R_LANE_FLT_CNT n) .laneFault
      if (laneOf s n).watch = true ∧ (laneOf s n).cause = c.val then retryCount v n else v)) ∧
  (∀ (s : State) (n : Nat) (c : Nat), faultSeen s n c = setLane (orReg s R_LANE_FLT n (fieldMask (c - 1) 1)) n
    { laneOf s n with faults := (laneOf s n).faults ||| BitVec.ofNat 9 (2 ^ (c - 1)) }) ∧
  (∀ (s : State) (n : Fin 96) (c : Fin 10), clocked s = true → faultFits s n c = true →
    (laneOf s n).st = .fault ∨ (laneOf s n).st = .latched →
    exec (.laneFaultDetect n c) s = .next (faultSeen (begin_ s) n c)) ∧
  (∀ (s : State) (n : Fin 96), clocked s = true → laneOn s n = true → pers s n = 1 ∨ pers s n = 3 →
    exec (.laneOpenDetect n) s = .next (raise (faultSeen (begin_ s) n 9) .laneFault)) ∧
  (∀ (s : State) (n : Fin 96), clocked s = true → laneOn s n = true → pers s n = 3 →
    exec (.laneReversal n) s = .next (faultSeen (begin_ s) n 8)) ∧
  (∀ (s : State) (n : Fin 96), clocked s = true → laneOn s n = true → pers s n = 1 → bit s R_LANE_CFG n 8 = true →
    exec (.laneReversal n) s = .next (let u := returnTx (faultSeen (begin_ s) n 8) n
      setLane u n { laneOf u n with st := .rxOnly, probe := false, swapPend := true })) ∧
  (∀ (s : State) (n : Fin 96), clocked s = true → laneOn s n = true → pers s n = 1 → bit s R_LANE_CFG n 8 = false →
    exec (.laneReversal n) s = .next (laneFault (begin_ s) n 8)) ∧
  (∀ (s : State) (n : Fin 96), clocked s = true → (laneOf s n).swapPend = true →
    exec (.laneRoleSwap n) s = .next (laneToTarget (setLane (begin_ s) n
      { laneOf s n with swapped := true, swapPend := false, st := .rxOnly, probe := false, faults := (laneOf s n).faults &&& ~~~ 0x080 }) n)) ∧
  (∀ (s : State) (n : Fin 96) (m : BitVec 9), clocked s = true → (laneOf s n).st = .fault → bb m ((laneOf s n).cause - 1) = true →
    exec (.laneRetry n m) s = .next (
      retryCount (setLane (orReg (begin_ s) R_LANE_FLT n (m.setWidth 32)) n { laneOf s n with faults := m }) n)) ∧
  (∀ (s : State) (n : Nat), retryCount s n =
    if (laneOf s n).retries + 1 ≥ fldi s R_LANE_FLT_CFG n 20 4 then
      raise (setLane s n { laneOf s n with retries := (laneOf s n).retries + 1, st := .latched }) .laneLatched
    else setLane s n { laneOf s n with retries := (laneOf s n).retries + 1 }) ∧
  (∀ (s : State) (n : Fin 96) (m : BitVec 9), clocked s = true → (laneOf s n).st = .fault → bb m ((laneOf s n).cause - 1) = false →
    exec (.laneRetry n m) s = .next (
      let u := setLane (orReg (begin_ s) R_LANE_FLT n (m.setWidth 32)) n { laneOf s n with faults := m }
      laneToTarget (setLane u n { laneOf u n with st := .off, probe := false, watch := true }) n)) ∧
  (∀ (s : State) (n : Fin 96), clocked s = true → laneOn s n = true →
    exec (.laneFaultFree n) s = .next (setLane (begin_ s) n { laneOf s n with retries := 0, watch := false, faults := 0 })) ∧
  (∀ (s : State) (n : Fin 96), clocked s = true → (laneOf s n).st = .busOff →
    exec (.busOffRecovery n) s = .next (laneToTarget (setLane (begin_ s) n { laneOf s n with st := .off, tec := 0, recErr := 0 }) n)) ∧
  (∀ (s : State) r role (l : BitVec 8), Granted 0x0302 r role judgeInstaller s → l.toNat ≤ 95 →
    exec (.laneRecover r l) s = .next (ok 0x0302 r (
      let u := admitted 0x0302 r role s
      if (laneOf u l.toNat).st = .latched then setLane u l.toNat { laneOf u l.toNat with st := .fault, retries := 0 } else u) []))

/-- PLCA_FALLBACK on a follower's lane that is on falls back, and PLCA_BEACON takes PLCA up again with no back-off. LIN_HEADER
of a commander begins at the first beat boundary after its slot start, the next slot starting a slot time after this one,
and puts its protected identifier on the line. COLLISION is counted: a late one, and one that reaches ATTEMPT, drops the
frame; under PLCA the frame is retried at once; otherwise the lane's generator draws the back-off, in slot times, below 2
to the number of attempts, at most BOLIM. BACKOFF_EXPIRY at its end lets the frame be retried. It rests on readings of the
model (log entry 32). (R163, R165, R199, R200, R201) -/
def Obligations.LaneTiming : Prop :=
  (∀ (s : State) (n : Fin 96), clocked s = true → plcaFollower s n = true → laneOn s n = true →
    exec (.plcaFallback n) s = .next (setLane (begin_ s) n { laneOf s n with fallback := true }) ∧
    exec (.plcaBeacon n) s = .next (setLane (begin_ s) n { laneOf s n with fallback := false, backoff := false })) ∧
  (∀ (s : State) (n : Fin 96), running s = true → pers s n = 2 → bit s R_LANE_CFG n 5 = true → (laneOf s n).st = .active →
    let k := if (laneOf s n).linSlot < 32 ∧ (linSlotOf s n (laneOf s n).linSlot).1 ≠ 0 then (laneOf s n).linSlot else 0
    (linSlotOf s n k).1 ≠ 0 → s.time.beatPos = 0 → (laneOf s n).linNext ≤ s.time.ticks →
    exec (.linHeader n) s = .next (
      let u := setLane (begin_ s) n { laneOf s n with
        linSlot := k + 1, linNext := linStart (laneOf s n) s.time.ticks + (linSlotOf s n k).1 * 250000, linId := some (linSlotOf s n k).2 }
      { u with out := { u.out with line := [(n.val, 0, [BitVec.ofNat 8 (linPid (linSlotOf s n k).2)])] } })) ∧
  (∀ (s : State) (n : Fin 96), running s = true → pers s n = 3 → (laneOf s n).st = .active → (egrOf s n).tx ≠ none →
    (laneOf s n).backoff = false →
    let u := statIncI (statIncI (begin_ s) R_PORT_COLL (16 + n.val)) R_LANE_ERRF n
    exec (.collision n true) s = .next (dropTx (statIncI u R_PORT_LATE_COLL (16 + n.val)) n) ∧
    (fldi u R_PORT_CSMA (16 + n.val) 8 5 ≤ (laneOf s n).attempts + 1 →
      exec (.collision n false) s = .next (dropTx (statIncI u R_PORT_EXC_COLL (16 + n.val)) n)) ∧
    ((laneOf s n).attempts + 1 < fldi u R_PORT_CSMA (16 + n.val) 8 5 → plcaLane u n = true → (laneOf s n).fallback = false →
      exec (.collision n false) s = .next (setLane u n { laneOf s n with attempts := (laneOf s n).attempts + 1 })) ∧
    ((laneOf s n).attempts + 1 < fldi u R_PORT_CSMA (16 + n.val) 8 5 → plcaLane u n = false ∨ (laneOf s n).fallback = true →
      exec (.collision n false) s = .next (setLane u n { laneOf s n with
        attempts := (laneOf s n).attempts + 1, backoff := true, rng := Config.laneGen (laneOf s n).rng,
        backEnd := s.time.ticks + (Config.laneGen (laneOf s n).rng).toNat %
          2 ^ min ((laneOf s n).attempts + 1) (fldi u R_PORT_CSMA (16 + n.val) 0 4) * 12800 }))) ∧
  (∀ (s : State) (n : Fin 96), running s = true → (laneOf s n).backoff = true → (laneOf s n).backEnd ≤ s.time.ticks →
    (∀ q x f, (egrOf s n).tx = some (q, x) → frameOf s x.h = some f → gateOpen s n q = true ∧ fitsNow s n q f = true) →
    exec (.backoffExpiry n) s = .next (setLane (begin_ s) n { laneOf s n with backoff := false }))

/-- PORT_UP_DELAY ends the wait after a PHY reset, and a port that is to be UP comes up. LINK_CHANGE of an UP port that gains
link shows its speed and raises LINK_CHANGE; one that loses it, and is in no loopback, is flushed. PHY_INT makes the
control firmware read the PHY's status. PAUSE_RECEIVED of a linked port is counted in PORT_RX_PAUSE, and as a received
frame unless every scope it would pause is in its ignore period, and paused or resumed by the port's mode. PAUSE_EXPIRY
ends a scope's pause and PAUSE_IGNORE_END its ignore period or, where flow control is still asserted, pauses it again.
PAUSE_WD_RX ends the pause, sets its flag, starts an ignore period that is not 0, counts and raises. PAUSE_REFRESH sends
the pause again. PAUSE_WD_TX sends quanta 0, sets its flag, starts a quiet period that is not 0, counts and raises. It
rests on readings of the model (log entry 33). (R191, R192, R194, R195, R196, R206, R207, R208, R209, R210) -/
def Obligations.PortLinkAndPause : Prop :=
  (∀ (s : State) (p : Fin 4), running s = true → (portOf s p).upWait = true →
    exec (.portUpDelay p) s = .next (let u := setPort (begin_ s) p { portOf s p with upWait := false }
      if portTarget u p then portUp u p else u)) ∧
  (∀ (s : State) (p : Fin 8) (sp : Fin 6), running s = true → bit s R_PORT_STAT p 0 = true → bit s R_PORT_STAT p 1 = true →
    loopOf s (96 + p.val) = 0 → exec (.linkChange p false sp) s = .next (linkLost (begin_ s) p)) ∧
  (∀ (s : State) (p : Fin 8) (sp : Fin 6), running s = true → bit s R_PORT_STAT p 0 = true → bit s R_PORT_STAT p 1 = false →
    exec (.linkChange p true sp) s = .next (
      let m := fldi s R_PORT_CFG p 16 4
      let an := bit s R_PORT_CFG p 8 && (decide (m = 1) || decide (m = 4))
      let u := orReg (begin_ s) R_PORT_STAT p 2
      raise (setFldi (setFldi u R_PORT_STAT p 4 3 (if an then sp.val else fldi s R_PORT_CFG p 4 3)) R_PORT_STAT p 8 1 (b2n an)) .linkChange)) ∧
  (∀ (s : State) (n : Fin 4), running s = true →
    exec (.phyInt n) s = .next { begin_ s with out := { Outp.none with mdio := [(n.val, .status)] } }) ∧
  (∀ (s : State) (p : Fin 8) pfc en (q : List (BitVec 16)), running s = true → portLink s p = true →
    exec (.pauseReceived p pfc en q) s = .next (
      let u := if pauseIgnored s p pfc en then begin_ s else stat2AddI (stat2AddI (begin_ s) R_PORT_RXF p 1) R_PORT_RXO p 64
      let v := statIncI u R_PORT_RX_PAUSE p
      if pmode v p = 1 ∧ pfc = false then pauseScope v p 0 ((q.map BitVec.toNat).getD 0 0)
      else if pmode v p = 2 ∧ pfc = true then
        ((List.range 8).filter fun b => en.getLsbD b && bit v R_PORT_PAUSE_CFG p (24 + b)).foldl
          (fun s b => pauseScope s p b ((q.map BitVec.toNat).getD b 0)) v
      else v)) ∧
  (∀ (s : State) (p b q : Nat), pauseScope s p b q =
    if bit s R_PORT_PAUSE_IGN p b then s
    else if q = 0 then clrReg s R_PORT_PAUSE_STAT p (fieldMask b 1) else orReg s R_PORT_PAUSE_STAT p (fieldMask b 1)) ∧
  (∀ (s : State) (p b : Fin 8), running s = true →
    exec (.pauseExpiry p b) s = .next (clrReg (begin_ s) R_PORT_PAUSE_STAT p (fieldMask b 1)) ∧
    exec (.pauseIgnoreEnd p b false) s = .next (clrReg (begin_ s) R_PORT_PAUSE_IGN p (fieldMask b 1))) ∧
  (∀ (s : State) (p b : Fin 8), running s = true → bb (portOf s p).txQuiet b = true →
    let u := setPort (begin_ s) p { portOf s p with txQuiet := (portOf s p).txQuiet &&& ~~~ BitVec.ofNat 8 (2 ^ b.val) }
    (bb (tget 0 s.net.fcAss p) b = false → exec (.pauseIgnoreEnd p b true) s = .next u) ∧
    (bb (tget 0 s.net.fcAss p) b = true → exec (.pauseIgnoreEnd p b true) s =
      .next (sendPause (orReg u R_PORT_PAUSE_STAT p (fieldMask (8 + b) 1)) p b (fldi s R_PORT_PAUSE_CFG p 0 16)))) ∧
  (∀ (s : State) (p b : Fin 8), running s = true → bit s R_PORT_PAUSE_STAT p b = true →
    exec (.pauseWdRx p b) s = .next (
      let u := orReg (clrReg (begin_ s) R_PORT_PAUSE_STAT p (fieldMask b 1)) R_PORT_PAUSE_STAT p (fieldMask (16 + b) 1)
      let v := if fldi u R_PORT_PAUSE_WD p 0 16 = 0 then u else orReg u R_PORT_PAUSE_IGN p (fieldMask b 1)
      raise (statIncI v R_PORT_PAUSE_WD_CNT p) .pauseWd)) ∧
  (∀ (s : State) (p b : Fin 8), running s = true → bit s R_PORT_PAUSE_STAT p (8 + b) = true →
    exec (.pauseRefresh p b) s = .next (sendPause (begin_ s) p b (fldi s R_PORT_PAUSE_CFG p 0 16)) ∧
    exec (.pauseWdTx p b) s = .next (
      let u := orReg (sendPause (clrReg (begin_ s) R_PORT_PAUSE_STAT p (fieldMask (8 + b) 1)) p b 0) R_PORT_PAUSE_STAT p (fieldMask (24 + b) 1)
      let v := if fldi u R_PORT_PAUSE_WD p 0 16 = 0 then u
               else setPort u p { portOf u p with txQuiet := (portOf u p).txQuiet ||| BitVec.ofNat 8 (2 ^ b.val) }
      raise (statIncI v R_PORT_PAUSE_WD_CNT p) .pauseWd))

/-- On a port of an LPI mode with link, LLDP_SEND puts a frame out through PP that ends with the EEE TLV, and a lower wake
time that waited for the echo takes effect; LLDP_RECEIVE resolves the wake time to the larger of the device's own and the
partner's request, at once where none is agreed or the new one is larger. LLDP_AGE_OUT ends the agreement, and the
transmitter leaves LPI. LPI_ENTER of an idle port with an agreed wake time enters LPI and is counted; LPI_EXIT lets frames
start after the resolved wake time. PARTNER_LPI sets and counts the partner's LPI, and clears it. PHY_READ of a PHY that
answers reads over MDIO and returns its value, and changes nothing. It rests on readings of the model (log entries 33,
37, 45). (R191, R202, R203, R204, R205) -/
def Obligations.LowPowerIdleAndPhy : Prop :=
  (∀ (s : State) (p : Fin 8), running s = true → lpiMode s p = true → portLink s p = true →
    let b : List Byte := [0x01, 0x80, 0xC2, 0x00, 0x00, 0x0E] ++ randBytes s.fresh 6 ++ [0x88, 0xCC] ++ randBytes (s.fresh + 1) 28 ++
      eeeTlv s p s.fresh ++ [0x00, 0x00]
    let u := ppSend { begin_ s with fresh := s.fresh + 2 } (.eth b) (96 + p)
    exec (.lldpSend p) s = .next (match (portOf u p).twNext with
      | none => u
      | some v => setPort (setFldi u R_PORT_LPI_STAT p 16 16 v) p { portOf u p with twNext := none })) ∧
  (∀ (s : State) (p : Fin 8) (tx rx : BitVec 16), running s = true → lpiMode s p = true → portLink s p = true →
    let v := max (ownWake s p) rx.toNat
    let old := fldi s R_PORT_LPI_STAT p 16 16
    (bit s R_PORT_LPI_STAT p 3 = false ∨ old < v → exec (.lldpReceive p ⟨tx, rx⟩) s = .next (
      setFldi (orReg (setPort (begin_ s) p { portOf s p with echo := (tx.toNat, rx.toNat), twNext := none })
        R_PORT_LPI_STAT p 8) R_PORT_LPI_STAT p 16 16 v)) ∧
    (bit s R_PORT_LPI_STAT p 3 = true → v ≤ old → exec (.lldpReceive p ⟨tx, rx⟩) s = .next (
      setPort (begin_ s) p { portOf s p with echo := (tx.toNat, rx.toNat), twNext := if v = old then none else some v }))) ∧
  (∀ (s : State) (p : Fin 8), running s = true →
    exec (.lldpAgeOut p) s = .next (let u := clrReg (lpiLeave (begin_ s) p) R_PORT_LPI_STAT p 8
      setPort u p { portOf u p with twNext := none, echo := (0, 0) })) ∧
  (∀ (s : State) (p : Fin 8), running s = true → lpiOn s p = true → bit s R_PORT_LPI_STAT p 3 = true → portLink s p = true →
    bit s R_PORT_LPI_STAT p 1 = false → portIdle s p = true →
    exec (.lpiEnter p) s = .next (statIncI (orReg (begin_ s) R_PORT_LPI_STAT p 2) R_PORT_TX_LPI p)) ∧
  (∀ (s : State) (p : Fin 8), running s = true → bit s R_PORT_LPI_STAT p 1 = true →
    exec (.lpiExit p) s = .next (let u := clrReg (begin_ s) R_PORT_LPI_STAT p 2
      setPort u p { portOf u p with wakeAt := u.time.ticks + fldi u R_PORT_LPI_STAT p 16 16 * 250 })) ∧
  (∀ (s : State) (p : Fin 8), running s = true → lpiOn s p = true → portLink s p = true → bit s R_PORT_LPI_STAT p 2 = false →
    exec (.partnerLpi p true) s = .next (statIncI (orReg (begin_ s) R_PORT_LPI_STAT p 4) R_PORT_RX_LPI p)) ∧
  (∀ (s : State) (p : Fin 8), running s = true →
    exec (.partnerLpi p false) s = .next (clrReg (begin_ s) R_PORT_LPI_STAT p 4)) ∧
  (∀ (s : State) r role (phy clause dev : BitVec 8) (reg v : BitVec 16),
    Served 0x0304 r role (judgeRight true false false false (fun m => m.awake && decide (m ≠ .approach))) s →
    checkPhy phy clause dev reg = none →
    exec (.phyRead r phy clause dev reg (some v)) s =
      .next (ok 0x0304 r (mdioOut (audited 0x0304 r role s) phy.toNat (.read clause.toNat dev.toNat reg.toNat))
        (leBytes 2 v.toNat ++ leBytes 2 0)))

/-- SESSION_CHALLENGE returns 32 bytes of a fresh draw and holds them as the role's only outstanding challenge. A
SESSION_OPEN whose checks all pass uses up the challenge and opens the session; one whose checks fail counts as a failed
opening, uses up a challenge that it presented, and answers the status of the first check that fails. An opened session is
on its channel with its idle length, an identifier of a fresh draw, the key that the KDF derives, last sequence 0, no tag
failures, no failed openings and no lockout. SESSION_CLOSE closes the session that carries it with reason 7.
SESSION_LIFETIME and SESSION_IDLE_TIMEOUT close with reasons 5 and 6, SESSION_CHALLENGE_EXPIRY removes the challenge and
SESSION_LOCKOUT_END ends the lockout. It rests on readings of the model (log entries 4, 44). (R29, R30, R31, R32, R37,
R38) -/
def Obligations.SessionsOpenCloseAndExpire : Prop :=
  (∀ (s : State) r (role : BitVec 8), Granted 0x0110 r 0 judgeHostAwake s → r.session = 0 → 1 ≤ role.toNat → role.toNat ≤ 3 →
    (heard 0x0110 r 0 s).vault.rngFailed = false →
    exec (.sessionChallenge r role) s = .next (
      let v := admitted 0x0110 r 0 s
      let u := { v with fresh := v.fresh + 1 }
      ok 0x0110 r (setSess u role.toNat { sessOf u role.toNat with chal := some (randBytes v.fresh 32) }) (randBytes v.fresh 32))) ∧
  (∀ (s : State) r (role : BitVec 8) idle chal uid eph sig, Granted 0x0111 r 0 judgeHostAwake s → r.session = 0 →
    1 ≤ role.toNat → role.toNat ≤ 3 →
    let u := heard 0x0111 r 0 s
    let v := admitted 0x0111 r 0 s
    (openChecks u role idle chal uid eph sig = (none, true) → u.vault.rngFailed = false →
      (ledgerLive u = true → ledgerRoom u = true) →
      exec (.sessionOpen r role idle chal uid eph sig) s = .next (
        let x := openSession (setSess v role.toNat { sessOf v role.toNat with chal := none }) r role.toNat idle.toNat chal eph
        ok 0x0111 r x.1 x.2)) ∧
    (∀ st p, openChecks u role idle chal uid eph sig = (some st, p) →
      exec (.sessionOpen r role idle chal uid eph sig) s = .next (
        let w := if p then setSess v role.toNat { sessOf v role.toNat with chal := none } else v
        answer (countHostDeny (openFailed w role.toNat) 0 st) r 0x0111 st []))) ∧
  (∀ (s : State) r role idle chal eph, 1 ≤ role → role ≤ 3 →
    let x := sessOf (openSession s r role idle chal eph).1 role
    x.isOpen = true ∧ x.id = newSessionId { s with fresh := s.fresh + 1 } s.fresh ∧ x.chan = r.chan ∧ x.lastSeq = 0 ∧
      x.tagFails = 0 ∧ x.idleS = idle ∧ x.fails = 0 ∧ x.lockS = 0 ∧ x.locked = false ∧
      x.key = kdf (ecdh (randScalar s.fresh) eph) "KWSESS" (leBytes 32 chal.toNat ++ leBytes 1 role) 32) ∧
  (∀ (s : State) r role, Granted 0x0112 r role judgeClose s →
    exec (.sessionClose r) s =
      .next (ok 0x0112 r (closeSession (admitted 0x0112 r role s) (curRole (heard 0x0112 r role s)) 7) [])) ∧
  (∀ (s : State) (role : Fin 4), running s = true →
    exec (.sessionLifetime role) s = .next (closeSession (begin_ s) role 5) ∧
    exec (.sessionIdleTimeout role) s = .next (closeSession (begin_ s) role 6) ∧
    exec (.sessionChallengeExpiry role) s = .next (setSess (begin_ s) role { sessOf s role with chal := none }) ∧
    exec (.sessionLockoutEnd role) s = .next (setSess (begin_ s) role { sessOf s role with locked := false }))

/-- The identifier a session is given at its opening is not 0, and differs from that of every open session. (R31) -/
def Obligations.SessionIdsAreFresh : Prop :=
  ∀ (s : State) (k : Nat), newSessionId s k ≠ 0 ∧
    ∀ r, 1 ≤ r → r ≤ 3 → (sessOf s r).isOpen = true → newSessionId s k ≠ (sessOf s r).id

/-- Below four failed openings a further one is counted. The fifth in a row locks the role for 60 s. With five counted, a
failure after the lockout has ended locks it for twice the last length, at most 3,840 s. While the role is locked, a
failure changes nothing. It rests on readings of the model (log entries 44, 46). (R32) -/
def Obligations.LockoutsDouble : Prop :=
  (∀ (s : State) (role : Nat), (sessOf s role).locked = false → (sessOf s role).fails < 4 →
    openFailed s role = setSess s role { sessOf s role with fails := (sessOf s role).fails + 1 }) ∧
  (∀ (s : State) (role : Nat), (sessOf s role).locked = false → (sessOf s role).fails = 4 →
    openFailed s role = queueEntry (setSess s role { sessOf s role with fails := 5, lockS := 60, locked := true })
      (.session 1 role 0 0 0 60)) ∧
  (∀ (s : State) (role : Nat), (sessOf s role).locked = false → 5 ≤ (sessOf s role).fails →
    openFailed s role =
      let n := min 3840 (2 * (sessOf s role).lockS)
      queueEntry (setSess s role { sessOf s role with lockS := n, locked := true }) (.session 1 role 0 0 0 n)) ∧
  (∀ (s : State) (role : Nat), (sessOf s role).locked = true → openFailed s role = s)

/-- CMD_REJECT of a packet taken from its channel answers BAD_PARAM without a tag; one under an unlisted opcode in a role's
session whose tag verifies ends the run of ledger reads and writes its ROLE_ACTION entry first. SYS_INFO that is served
answers its bytes and changes nothing. It rests on readings of the model (log entry 44). (R394, R517, R527, R528) -/
def Obligations.PacketsOutsideTheChecks : Prop :=
  (∀ (s : State) r (op : BitVec 16) (unlisted : Bool) u, running s = true → roomFor s r.chan = true ∨ acceptedHead s r.chan = true →
    takeRequest (begin_ s) r op.toNat = some u →
    ((unlisted = false ∨ u.disp.cur = none) →
      exec (.cmdReject r op unlisted) s = .next (answer (setCur u none) r op.toNat .badParam [])) ∧
    (∀ c, u.disp.cur = some c → c.role = 0 ∨ tagGood op.toNat r c = false →
      exec (.cmdReject r op unlisted) s = .next (answer (setCur u none) r op.toNat .badParam [])) ∧
    (∀ c, u.disp.cur = some c → c.role ≠ 0 → tagGood op.toNat r c = true →
      exec (.cmdReject r op true) s =
        .next (answer (setCur (auditRefusal (endRun u c.role) c.role .badParam op.toNat r) none) r op.toNat .badParam []))) ∧
  (∀ (s : State) r role, Served 0x0101 r role judgeInfo s →
    exec (.sysInfo r) s = .next (ok 0x0101 r (audited 0x0101 r role s) (infoBytes (heard 0x0101 r role s))))

/-- LEDGER_COMMIT whose program verifies commits the oldest queued entry, where the device is clocked and not under
LOW_ENERGY, the ledger is not FINAL and waits for no SEAL, and the next position is erased; one that fails leaves the
position unreadable, uses its sequence number and is a QUARANTINE cause. INTERVAL_CLOSE at or after the open interval's
end closes it at its end with reason 0 or 1 and opens the next there. TRIM_UPDATE moves TRIM towards its target by at most
34. DENY_SUMMARY, when due, writes the summary. LEDGER_TIME_FINAL at all ones of ledger time makes the ledger FINAL and
MONO_FINAL names LTIME. It rests on readings of the model (log entries 46, 47, 65). (R395, R428, R429, R434, R440, R442,
R443, R449) -/
def Obligations.LedgerEntriesAndTime : Prop :=
  (∀ s : State, clocked s = true → s.power.lowEnergy = false → s.ledger.queue ≠ [] → s.ledger.final = false →
    s.ledger.lastGood = none → sectorReady s = true →
    exec (.ledgerCommit true) s = .next (commitHead (begin_ s)) ∧
    exec (.ledgerCommit false) s = .next (ledgerFault (useSeq { begin_ s with ledger := { s.ledger with
      ring := tset .empty s.ledger.ring (s.ledger.nextSeq % 131072) .partial_ } }) (s.ledger.head.getD 0))) ∧
  (∀ s : State, s.ledger.nextSeq < 2 ^ 48 - 1 →
    useSeq s = { s with ledger := { s.ledger with nextSeq := s.ledger.nextSeq + 1 } }) ∧
  (∀ s : State, s.ledger.nextSeq = 2 ^ 48 - 1 → s.ledger.final = false →
    useSeq s = monoFinal { s with ledger := { s.ledger with final := true } } 2) ∧
  (∀ (s : State) i, running s = true → s.ledger.interval = some i → i.lEnd ≤ ltimeNow s → i.num < 2 ^ 32 - 1 →
    exec .intervalClose s = .next (openInterval (closeInterval (begin_ s) false i.lEnd (if i.aligned then 0 else 1)) (i.num + 1) i.lEnd)) ∧
  (∀ (s : State) (n : Nat), running s = true → n ≠ 0 → s.power.osc = true →
    exec (.trimUpdate n) s = .next { begin_ s with ledger := { s.ledger with
      trim := s.ledger.trim + max (-34) (min 34 (trimTarget n - s.ledger.trim)) } }) ∧
  (∀ s : State, running s = true → (∀ t, s.deny.lastSec = some t → t + 60 ≤ s.ledger.sec) →
    exec .denySummary s = .next (denySummaryNow (begin_ s))) ∧
  (∀ s : State, s.ledger.sec = 2 ^ 48 - 1 → s.ledger.frac = 2 ^ 40 - 1 → s.ledger.timeFinal = false →
    exec .ledgerTimeFinal s = .next (monoFinal { begin_ s with ledger := { s.ledger with timeFinal := true, final := true } } 1))

/-- LDG_READ of 1 to 64 entries from a sequence held, with a buffer of class D, cut at the head and with its chain whole,
writes the entries to the buffer, answers the signed record, and joins the session's run; where an entry cannot be read, or
the chain is broken, it answers INTEGRITY with the record of those before it, and is a QUARANTINE cause. LDG_BILLING sets
the period and the tariff of later intervals. WALL_SET within the limits of its context applies the new offset after its
entry, and makes wall time valid. It rests on readings of the model (log entries 45, 46, 47). (R431, R433, R443, R446) -/
def Obligations.LedgerCommands : Prop :=
  (∀ (s : State) r (first : BitVec 48) (count : BitVec 16) (buf : BitVec 64) nonce h, Served 0x0A01 r 1 judgeLedgerRead s →
    (let u := noted r 1 s
     let m := min count.toNat (h - first.toNat + 1)
     let es := entriesFrom u m first.toNat
     1 ≤ count.toNat → count.toNat ≤ 64 → judgeD u true buf.toNat (64 * count.toNat) = none → u.vault.rootPresent = true →
     u.ledger.head = some h → u.ledger.oldest ≤ first.toNat → first.toNat ≤ h → es.length = m →
     exec (.ldgRead r first count buf nonce none) s = .next (
      let x := readRecord u first.toNat es buf.toNat nonce
      ok 0x0A01 r (noteRun x.1 first.toNat (first.toNat + m - 1)) x.2))) ∧
  (∀ (s : State) r (first : BitVec 48) (count : BitVec 16) (buf : BitVec 64) nonce brk, Served 0x0A01 r 1 judgeLedgerRead s →
    (let v := endRun (noted r 1 s) 1
     let range (u : State) (h : Nat) : Prop := 1 ≤ count.toNat ∧ count.toNat ≤ 64 ∧
       judgeD u true buf.toNat (64 * count.toNat) = none ∧ u.vault.rootPresent = true ∧ u.ledger.head = some h ∧
       u.ledger.oldest ≤ first.toNat ∧ first.toNat ≤ h
     let read (u : State) (h : Nat) : List (List Byte) :=
       let m := min count.toNat (h - first.toNat + 1)
       entriesFrom u (min m (brk.getD m)) first.toNat
     ∀ h k, range (noted r 1 s) h → range v k → (read (noted r 1 s) h).length < min count.toNat (h - first.toNat + 1) →
       (read v k).length < min count.toNat (k - first.toNat + 1) →
       exec (.ldgRead r first count buf nonce brk) s = .next (
        let x := readRecord (auditRefusal v 1 .integrity 0x0A01 r) first.toNat (read v k) buf.toNat nonce
        answer (ledgerFault x.1 (first.toNat + (read v k).length - 1)) r 0x0A01 .integrity x.2))) ∧
  (∀ (s : State) r role (period tariff : Sys2Proof.Word),
    Granted 0x0A02 r role (judgeRight false true false false (inModes [.approach, .rented, .drive, .depot])) s →
    1 ≤ period.toNat → period.toNat ≤ 86400 →
    exec (.ldgBilling r period tariff) s = .next (ok 0x0A02 r (let u := admitted 0x0A02 r role s
      { u with ledger := { u.ledger with period := period.toNat, tariff := tariff.toNat } }) [])) ∧
  (∀ (s : State) r role (sec : BitVec 48) (frac : BitVec 16), Granted 0x0A03 r role judgeHostAwake s →
    (let u := heard 0x0A03 r role s
     let step := ((sec.toNat * 65536 + frac.toNat : Nat) : Int) - wallNow u
     curRole u = role ∧
     (u.ledger.wallValid = true ∧ step.natAbs ≤ 300 * 65536 ∨ role = 1) ∧
     (role = 0 → step.natAbs + ((recentSteps u).map Prod.snd).sum ≤ 300 * 65536) ∧
     (ledgerLive u = true → ledgerRoomFor u (if role = 0 then 1 else 2) = true)) →
    exec (.wallSet r sec frac) s = .next (ok 0x0A03 r (
      let u := admitted 0x0A03 r role s
      wallStep u role r.session.toNat (u.ledger.ofs + (((sec.toNat * 65536 + frac.toNat : Nat) : Int) - wallNow u))) [])) ∧
  (∀ (s : State) role sess ofs, s.ledger.interval = none → (wallStep s role sess ofs).ledger.ofs = ofs ∧
    (wallStep s role sess ofs).ledger.wallValid = true)

/-- When a TAMPER source fires while the device is awake, the root is absent, every key slot is EMPTY, VMEM and VPRIV read
zero, the source's bit is set in VLT_TAMPER, the entries that waited for the ledger are gone, every session is closed, the
vault group answers TAMPERED, and the mode is QUARANTINE, with cause TAMPER where it was not QUARANTINE before. When one
fires while the core is off, one that is watched then, the same holds of root, slots and memories, and the recorded mode is
QUARANTINE with cause TAMPER. It rests on readings of the model (log entry 51). (R331, R332, R445, R620) -/
def Obligations.TamperZeroesTheVault : Prop :=
  (∀ (s : State) (src : Fin 6), s.power.phase = .awake →
    ∃ t, exec (.tamper src) s = .next t ∧ t.vault.rootPresent = false ∧ (∀ k, slotState t k = 0) ∧
      (∀ a, 0x1000000 ≤ a → a < 0x1110000 → tget 0 t.mem a = 0) ∧ t.vault.groupTampered = true ∧
      bit t R_VLT_TAMPER 0 src = true ∧ t.ledger.queue = [] ∧ (∀ r : Fin 4, 1 ≤ r.val → (sessOf t r).isOpen = false) ∧
      mode t = .quarantine ∧ (s.power.cur ≠ .quarantine → t.power.qcause = .tamper)) ∧
  (∀ (s : State) (src : Fin 6), s.power.phase = .asleep → src.val ≠ 1 → src.val ≠ 5 →
    (src.val = 2 → 1024 ≤ s.power.oscPeriods) →
    ∃ t, exec (.tamper src) s = .next t ∧ t.vault.rootPresent = false ∧ (∀ k, slotState t k = 0) ∧
      (∀ a, 0x1000000 ≤ a → a < 0x1110000 → tget 0 t.mem a = 0) ∧
      t.power.recorded = .quarantine ∧ t.power.qcause = .tamper)

/-- For a message whose checks pass, with room in the ledger and its slot commit done, the slot's GEN is one more, UCNT is
the message's, PARENT and PGEN are the authorising slot's number and GEN (KS000 on the transport path), and the slot is
FINAL, its key erased, when GEN reached 0xFFFF or UCNT is all ones. Of a slot that does not close, WRITE gives it the key
decrypted from the message, GENERATE one from the random generator, and INVALIDATE keeps its key. For a message that fails
a check the status is that check's and no slot changes. It rests on readings of the model (log entries 5, 51). (R340, R342,
R346, R347, R348) -/
def Obligations.KeyUpdateWritesTheSlot : Prop :=
  (∀ (s : State) (m : KeyMsg), checkMsg s m = .ok → (m.op = 2 → s.vault.rngFailed = false) → (ledgerLive s = true → ledgerRoom s = true) →
    m.commitOk = true →
    let par := if m.auth.toNat = 2 then 0 else m.auth.toNat
    let x := slotOf s m.target.toNat
    let y := slotOf (submitUpdate s m).1 m.target.toNat
    (submitUpdate s m).2.1 = .ok ∧ y.gen = x.gen + 1 ∧ y.ucnt = m.ucnt ∧ sParent y = par ∧ sPgen y = (slotOf s par).gen.toNat ∧
      y.final = (decide (x.gen + 1 = 0xFFFF) || decide (m.ucnt = 0xFFFFFFFF)) ∧ (y.final = true → y.key = []) ∧
      (m.op = 1 → y.final = false → y.key = msgPlain s m) ∧ (m.op = 3 → y.final = false → y.key = x.key) ∧
      (m.op = 2 → y.final = false → ∃ d, y.key = randomKey (bitsOf m.attr 0 4) d)) ∧
  (∀ (s : State) (m : KeyMsg), checkMsg s m ≠ .ok →
    (submitUpdate s m).2.1 = checkMsg s m ∧ (submitUpdate s m).1.vault.slots = s.vault.slots)

/-- KEY_UPDATE answers the status and the confirmation of its message. KEY_ATTEST of a slot up to 511 answers the statement
of Table 12.7 and its signature, in any state of the slot. ROOT_PROVISION with the generator running gives a root of 32
bytes, erases the slot store, clears VLT_TAMPER, starts a ledger with GENESIS, and answers the public keys of KS001 and
KS002 with KS001's signature; KS000 is the root, and KS003 and KS004 are derived from it under the device's UID. RNG_FAIL
records whether the reseed passed, raises RNG_FAIL and queues the TAMPER entry of kind 3. It rests on readings of the model
(log entries 46, 51). (R333, R334, R336, R348, R349, R351, R636) -/
def Obligations.VaultCommands : Prop :=
  (∀ (s : State) r role m, Served 0x0701 r role (judgeVault (inModes [.approach, .rented, .service, .depot])) s →
    (let u := heard 0x0701 r role s
     let changes := decide (checkMsg u m = .ok)
     (role ≠ 0 → changes = true → ledgerLive u = true → ledgerRoom u = true) →
     exec (.keyUpdate r m) s = .next (
      let st := (submitUpdate (entered 0x0701 r role changes .ok s) m).2.1
      let x := submitUpdate (entered 0x0701 r role changes st s) m
      answer (if role = 0 then countHostDeny x.1 0 x.2.1 else x.1) r 0x0701 x.2.1 x.2.2))) ∧
  (∀ (s : State) r role (k : BitVec 16) nonce, Served 0x0702 r role (judgeVault (inModes [.approach, .rented, .service, .depot, .quarantine])) s →
    k.toNat ≤ 511 →
    exec (.keyAttest r k nonce) s = .next (
      let u := audited 0x0702 r role s
      let x := signature u (statement u k.toNat nonce)
      ok 0x0702 r x.2 (statement u k.toNat nonce ++ x.1))) ∧
  (∀ (s : State) r role, Granted 0x0703 r role judgeProvision s → (heard 0x0703 r role s).vault.rngFailed = false →
    exec (.rootProvision r) s = .next (
      let u := provision (admitted 0x0703 r role s)
      let x := signature u (pubOf u 1 ++ pubOf u 2)
      ok 0x0703 r x.2 (pubOf u 1 ++ pubOf u 2 ++ x.1))) ∧
  (∀ s : State, s.Inv →
    let t := provision s
    t.vault.rootPresent = true ∧ t.vault.root.length = 32 ∧ t.boot.rootAbsent = false ∧ rd t R_VLT_TAMPER = 0 ∧
    (slotOf t 0).key = t.vault.root ∧ (slotOf t 3).key = kdf t.vault.root "STORE" (uidBytes t) 64 ∧
    (slotOf t 4).key = kdf t.vault.root "LEDGER" (uidBytes t) 32 ∧
    (∀ k, 4 < k → k ≠ 10 → slotState t k = 0 ∧ (slotOf t k).gen = 0 ∧ (slotOf t k).ucnt = 0)) ∧
  (∀ (s : State) (b : Bool), running s = true →
    exec (.rngFail b) s = .next (queueEntry (raise { begin_ s with vault := { s.vault with rngFailed := ! b } } .rngFail) (.tamper 3 0)))

/-- CIPH_KCTL_WRITE of a key length zeroes the key words, sets the length and clears LOADED; the reserved encoding only
raises RESERVED_ENC. CIPH_KEYW_WRITE beyond the length is ignored; within it the word is written, and the last outstanding
word sets LOADED and increments KGEN. CIPH_SQ_TAIL_WRITE sets the ring's tail, and does no
more where the engine is ungated. BULK_JOB_START of an idle, ungated, unheld engine
takes a well-formed normal-world descriptor whose ranges are granted and whose KGEN is the loaded one, and starts it with
the engine's key; the vault starts a job whose key delivery is granted. BULK_JOB_COMPLETE writes what the mode gives of the
bytes read and completes OK, or INTEGRITY with AUTH_FAIL where the tag does not match. STORE_JOB completes with RANGE or the
delivery's status, and gives the sectors under AES-XTS where that is OK. ENGINE_WD drops the keys LANEAUTH holds, clears the
vault's hold and is noted. LA_SAVE saves the profiles' counters; LANEAUTH_KEY_LOAD lets the frames that wait for its profile
proceed in order. It rests on readings of the model (log entries 13, 21, 41, 42). (R357, R359, R360, R361, R362, R365,
R367, R373, R374) -/
def Obligations.CipherEngines : Prop :=
  (∀ (s : State) (e : Fin 2) (w : Sys2Proof.Word), running s = true →
    exec (.ciphKctlWrite e w) s = .next (kctlSet (begin_ s) e w) ∧
    (bitsOf w 0 2 = 3 → kctlSet (begin_ s) e w = raise (begin_ s) .reservedEnc) ∧
    (bitsOf w 0 2 ≠ 3 → kctlSet (begin_ s) e w = (
      let u := (List.range 8).foldl (fun s k => wr s (ciph R_CIPH_KEYW0 e + 4 * k) 0) (begin_ s)
      let v := setFld (setFld u (ciph R_CIPH_KCTL e) 0 2 (bitsOf w 0 2)) (ciph R_CIPH_KCTL e) 16 1 0
      setEng v e { engOf v e with written := 0 }))) ∧
  (∀ (s : State) (e : Fin 2) (k : Fin 8) (w : Sys2Proof.Word), running s = true →
    exec (.ciphKeywWrite e k w) s = .next (keywSet (begin_ s) e k w) ∧
    (klenWords s e ≤ k → keywSet (begin_ s) e k w = begin_ s) ∧
    (k.val < klenWords s e →
      let u := wr (begin_ s) (ciph R_CIPH_KEYW0 e + 4 * k.val) w
      let new := (engOf s e).written ||| BitVec.ofNat 8 (2 ^ k.val)
      let all : BitVec 8 := BitVec.ofNat 8 (2 ^ klenWords s e - 1)
      let v := setEng u e { engOf u e with written := new }
      (new ≠ all ∨ (engOf s e).written = all → keywSet (begin_ s) e k w = v) ∧
      (new = all → (engOf s e).written ≠ all → keywSet (begin_ s) e k w =
        setFld (setFld v (ciph R_CIPH_KCTL e) 16 1 1) (ciph R_CIPH_KCTL e) 8 8 (fld v (ciph R_CIPH_KCTL e) 8 8 + 1)))) ∧
  (∀ (s : State) (e : Fin 2) (i : BitVec 12) ids, running s = true →
    exec (.ciphSqTailWrite e i ids) s = .next (sqTailSet (begin_ s) e i.toNat ids) ∧
    (ungated s e = true → sqTailSet (begin_ s) e i.toNat ids = setFld (begin_ s) (ciph R_CIPH_SQ_TAIL e) 0 12 i.toNat)) ∧
  (∀ (s : State) (e : Fin 2) d, running s = true → (engOf s e).job = none → held s e = false → ungated s e = true → dmaUp s = true →
    fld s (ciph R_CIPH_RING_CFG e) 0 4 ≠ 0 → fld s (ciph R_CIPH_SQ_HEAD e) 0 12 ≠ fld s (ciph R_CIPH_SQ_TAIL e) 0 12 →
    exec (.bulkJobStart e false d) s = .next (
      let u := setFld (begin_ s) (ciph R_CIPH_SQ_HEAD e) 0 12 ((fld s (ciph R_CIPH_SQ_HEAD e) 0 12 + 1) % sqSize s e)
      startNormal (setEng u e { engOf u e with lastVault := false }) e d)) ∧
  (∀ (s : State) (e : Nat) d, descFormed d = true → bb d.flags 0 = false → descRange s d = none → bit s (ciph R_CIPH_KCTL e) 0 16 = true →
    fld s (ciph R_CIPH_KCTL e) 8 8 = d.kgen.toNat →
    startNormal s e d = setJobOn (setEng s e { engOf s e with job := some { vault := false, desc := d, key := engineKey s e } }) e true) ∧
  (∀ (s : State) (e : Fin 2) d, running s = true → (engOf s e).job = none → held s e = true ∨ ungated s e = true → descFormed d = true →
    (bb d.flags 0 = true → delivery s d.slot.toNat (4 + e) (modeUsage d.mode.toNat) = .ok) →
    exec (.bulkJobStart e true d) s = .next (
      let u := setEng (begin_ s) e { engOf s e with lastVault := true }
      let key := if bb d.flags 0 then (slotOf s d.slot.toNat).key else engineKey s e
      setEng u e { engOf u e with job := some { vault := true, desc := d, key := key } })) ∧
  (∀ (s : State) (e : Fin 2) j src aad tag, running s = true → (engOf s e).job = some j → j.vault = true ∨ dmaUp s = true →
    exec (.bulkJobComplete e ⟨src, aad, tag⟩) s = .next (
      let d := j.desc
      let x := jobResult j (padTo d.len.toNat src) (padTo d.aadlen.toNat aad) (padTo d.taglen.toNat tag)
      let u := jobOut (jobOut (if j.vault then begin_ s else dmaGood (begin_ s)) j d.dst x.1) j d.tag x.2.1
      completeJob u e j.vault d (if x.2.2 then .ok else .integrity)
        (if x.2.2 then 0 else if d.mode.toNat = 2 then 3 else 1) d.len.toNat 0)) ∧
  (∀ (s : State) (slot : BitVec 9) (first : BitVec 64) (n : Nat) (dec : Bool) src, running s = true →
    let range : Prop := n = 0 ∨ 2048 < n ∨ 2 ^ 64 < first.toNat + n
    let st := delivery s slot.toNat 6 (if dec then useDec else useEnc)
    (range → exec (.storeJob slot first ⟨n, src⟩ dec) s =
      .next { begin_ s with cipher := { s.cipher with storeLast := Status.range.code } }) ∧
    (¬ range → st ≠ .ok → exec (.storeJob slot first ⟨n, src⟩ dec) s =
      .next { begin_ s with cipher := { s.cipher with storeLast := st.code } }) ∧
    (¬ range → st = .ok → exec (.storeJob slot first ⟨n, src⟩ dec) s =
      .next { begin_ s with
        cipher := { s.cipher with storeLast := Status.ok.code },
        out := { Outp.none with vault := xts (slotOf s slot.toNat).key dec first.toNat (padTo (4096 * n) src) } })) ∧
  (∀ (s : State) (e : Fin 4), s.Inv → running s = true → (e.val < 2 → (engOf s e).job.isSome = true ∨ held s e = true) →
    ∃ u, exec (.engineWd e) s = .next u ∧ (e = 3 → u.cipher.cache = []) ∧ held u e = false ∧
      u.cipher.firings = s.time.ticks :: (s.cipher.firings.filter fun t => decide (s.time.ticks - t < 250000000)) ∧ u.map = s.map) ∧
  (∀ s : State, running s = true → exec .laSave s = .next (laSaveNow (begin_ s))) ∧
  (∀ (s : State) (p : BitVec 10), running s = true →
    exec (.laneauthKeyLoad p) s = .next (
      let u := { begin_ s with cipher := { s.cipher with waits := s.cipher.waits.filter fun x => decide (x.1 ≠ p.toNat) } }
      (s.cipher.waits.filter fun x => decide (x.1 = p.toNat)).foldl (fun s x => laResume s x.2)
        (if laKeyOk u p.toNat useMacVer || laKeyOk u p.toNat useMacGen then laTouch u p.toNat else u)))

/-- Outside freeze FIELD_SESSION_START starts a session with a random UID, and with a fresh challenge and READY when the
vault runs and neither BUSY nor a challenge stands; FIELD_SESSION_END removes the challenge and any response owed, and takes
READY to IDLE. NFC_APDU in the field with no window open is carried out, counted and answered with its status word, its
window open for reads and writes; one not complete in time stays owed. EXCHANGE_WINDOW_CLOSE completes what the window held
with RETRY, and sends S(WTX) where a response is owed. TAG_WIRED_ACCESS of tag memory is judged. CREDENTIAL_CHECK of a BUSY
credential, with the field at 1.5 A/m where LOW_ENERGY is set, judges it by the VBKP and VBAT measured, writes RESULT and RECEIPT, and makes STATE DONE. NFC_CHALLENGE_EXPIRY replaces a READY challenge.
PENDING_GRANT_RUN of a grant that fits runs it, PENDING_GRANT_EXPIRY drops it, and CRED_LOCKOUT_END ends a path's lockout.
It rests on readings of the model (log entries 4, 5, 13, 48, 49, 50). (R401, R402, R404, R408, R409, R410, R411, R414,
R415, R418, R419, R422) -/
def Obligations.FieldSessionsAndCredentials : Prop :=
  (∀ s : State, s.freeze.frozen = false →
    let u := { begin_ s with fresh := s.fresh + 1, nfc := { s.nfc with field := true, rfUid := 8 :: randBytes s.fresh 3 } }
    let new : Prop := vaultUp s = true ∧ s.nfc.ex ≠ .busy ∧ s.nfc.chal = false
    (new → exec .fieldSessionStart s = .next (newChallenge u)) ∧ (¬ new → exec .fieldSessionStart s = .next u)) ∧
  (∀ s : State,
    (s.vault.rngFailed = true → newChallenge s = raise s .rngFail) ∧
    (s.vault.rngFailed = false → newChallenge s =
      let u := tagPuts (exAt + 0x10) (randBytes s.fresh 32) { s with fresh := s.fresh + 1 }
      { u with nfc := { u.nfc with chal := true, ex := .ready } })) ∧
  (∀ s : State, s.freeze.frozen = false →
    exec .fieldSessionEnd s = .next { begin_ s with nfc := { s.nfc with
      field := false, active := false, chal := false, apdu := none, selected := 0,
      ex := if s.nfc.ex = .ready then .idle else s.nfc.ex } }) ∧
  (∀ (s : State) a, s.freeze.frozen = false → s.nfc.field = true → s.nfc.window = false →
    s.nfc.apdu = none ∨ s.nfc.apdu = some a →
    exec (.nfcApdu ⟨a, false⟩) s = .next (
      let x := apduDo { begin_ s with nfc := { s.nfc with active := true, window := opensWindow a, apdu := none } } a
      let u := statInc x.2.2 R_NFC_EXCH
      { u with out := { u.out with bytes := x.2.1 ++ [BitVec.ofNat 8 (x.1 / 256), BitVec.ofNat 8 x.1] } }) ∧
    (opensWindow a = true → exec (.nfcApdu ⟨a, true⟩) s =
      .next { begin_ s with nfc := { s.nfc with active := true, window := true, apdu := some a } })) ∧
  (∀ s : State, s.nfc.window = true → s.freeze.frozen = false →
    let u := s.nfc.held.foldl wireRetry { begin_ s with nfc := { s.nfc with window := false, held := [] } }
    (u.nfc.apdu = none → exec .exchangeWindowClose s = .next u) ∧
    (u.nfc.apdu ≠ none → exec .exchangeWindowClose s = .next (sendWtx u))) ∧
  (∀ (s : State) c w acc, accepts s c = true → 0x6000000 ≤ acc.addr → acc.addr < 0x6002000 →
    exec (.tagWiredAccess c w acc) s = .next (memRequest (begin_ s) c w acc)) ∧
  (∀ (s : State) vbkp field vbat, vaultUp s = true → s.nfc.ex = .busy → (s.power.lowEnergy = true → 1500 ≤ field) →
    exec (.credentialCheck vbkp field vbat) s = .next (
      let v := setVbat (begin_ s) vbat
      let c : Cred := { path := 0, req := tagByte v 4098, token := tagBytes v 4144 184, chal := tagBytes v 4112 32,
                        chalOk := v.nfc.subChal, proof := tagBytes v 4328 64 }
      let x := credRun { v with nfc := { v.nfc with subChal := false } } c (decide (2700 ≤ vbkp))
      let y := receipt x.2 c x.1
      let u := tagPuts 4400 y.1 (tagPut y.2 4097 (BitVec.ofNat 8 x.1.code))
      let w := raise { u with nfc := { u.nfc with ex := .done } } .credResult
      if w.nfc.field then newChallenge w else w)) ∧
  (∀ s : State, vaultUp s = true → s.nfc.ex = .ready → s.nfc.field = true →
    exec .nfcChallengeExpiry s = .next (newChallenge { begin_ s with nfc := { s.nfc with chal := false } })) ∧
  (∀ (s : State) g, running s = true → s.nfc.pending = some g → s.power.lowEnergy = false → s.power.actLow = false →
    credRoom (begin_ s) g.request = true → credFits s g.request g.tripRef = none →
    exec .pendingGrantRun s = .next (
      credAct (credNote { begin_ s with nfc := { s.nfc with pending := none } } g.path g.request .ok 0 true)
        g.path g.request g.tokenId g.tripRef (decide (g.rights.toNat / 2 % 2 = 1)))) ∧
  (∀ s : State, exec .pendingGrantExpiry s = .next { begin_ s with nfc := { s.nfc with pending := none } }) ∧
  (∀ (s : State) h, exec (.credLockoutEnd h) s = .next (setPath (begin_ s) (b2n h) { pathOf s (b2n h) with locked := false }))

/-- On a path that is not locked, with the vault group intact and the device not under LOW_ENERGY, a credential whose
checks 1 to 10 pass, with room in the ledger, is OK: it is noted, and its action follows; one whose checks 1 to 8 fail
answers the status of the first that fails, is noted with its number, and acts on nothing. One whose check 9 or 10 fails
answers that check's status likewise. On a locked path every credential is DENIED and not counted. It rests on readings of the model (log entries 46, 50). (R418, R419, R420, R421) -/
def Obligations.CredentialsThatPassAct : Prop :=
  (∀ (s : State) c vb, (pathOf s c.path).locked = false → groupTampered s = false → s.power.lowEnergy = false →
    credChecks s c = none → credFits s c.req.toNat (beNat (slice c.token 0x30 8)) = none → credRoom s c.req.toNat = true →
    credRun s c vb = (.ok, credAct (credNote { s with nfc := { s.nfc with pending := none } } c.path c.req.toNat .ok 0 true)
      c.path c.req.toNat (beNat (slice c.token 8 8)) (beNat (slice c.token 0x30 8)) (decide (beNat (slice c.token 2 2) / 2 % 2 = 1)))) ∧
  (∀ (s : State) c vb st n, (pathOf s c.path).locked = false → groupTampered s = false → s.power.lowEnergy = false →
    credChecks s c = some (st, n) →
    credRun s c vb = (st, credNote { s with nfc := { s.nfc with pending := none } } c.path c.req.toNat st n true)) ∧
  (∀ (s : State) c vb st n, (pathOf s c.path).locked = false → groupTampered s = false → s.power.lowEnergy = false →
    credChecks s c = none → credFits s c.req.toNat (beNat (slice c.token 0x30 8)) = some (st, n) →
    credRun s c vb = (st, credNote { s with nfc := { s.nfc with pending := none } } c.path c.req.toNat st n true)) ∧
  (∀ (s : State) c vb, (pathOf s c.path).locked = true →
    credRun s c vb = (.denied, credNote { s with nfc := { s.nfc with pending := none } } c.path c.req.toNat .denied 0 false))

/-- ENTRY_CHALLENGE answers 32 fresh bytes and starts the challenge's 30 s. ENTRY_SUBMIT of 294 bytes has a credential that was
submitted before it on the NFC path checked first (R424), then uses up the challenge,
which it must carry within 30 s, judges the credential, raises CRED_RESULT and answers RESULT and RECEIPT. CRED_REVOKE adds,
removes or clears and answers the count. CRED_EPOCH raises NFC_EPOCH_MIN to a later value. TRIP_OPEN opens a trip from
source 2 with the drive right; TRIP_CLOSE closes the trip named, in DRIVE at standstill. FORCE_LOCK engages every bolt, in
DRIVE at standstill; IMMOBILISE and TRIP_PERMIT 0 take the drive right from the open trip, TRIP_PERMIT 1 gives it. It rests
on readings of the model (log entries 4, 45, 47, 50). (R73, R423, R424, R531) -/
def Obligations.HostCredentialsAndRentals : Prop :=
  (∀ (s : State) r role, Granted 0x0901 r role judgeCred s → (heard 0x0901 r role s).vault.rngFailed = false →
    exec (.entryChallenge r) s = .next (let u := (draw (admitted 0x0901 r role s)).2
      ok 0x0901 r { u with nfc := { u.nfc with hostChal := some (u.time.ticks, randBytes (admitted 0x0901 r role s).fresh 32) } } (randBytes (admitted 0x0901 r role s).fresh 32))) ∧
  (∀ (s : State) r role head token proof, let cred := head ++ token ++ proof
    Granted 0x0902 r role judgeCred s → cred.length = 294 →
    exec (.entrySubmit r head token proof) s = .next (
      let sub (u : State) : State × Status × List Byte :=
        let u := if vaultUp u = true ∧ u.nfc.ex = .busy ∧ u.power.lowEnergy = false then nfcCheck u true else u
        let fresh : Bool := match u.nfc.hostChal with
          | some (t, b) => decide (u.time.ticks < t + 7500000000) && decide (slice cred 14 32 = b)
          | none => false
        let c : Cred := { path := 1, req := cred.getD 0 0, token := slice cred 46 184, chal := slice cred 14 32, chalOk := fresh,
                          proof := slice cred 230 64 }
        let x := credRun { u with nfc := { u.nfc with hostChal := none } } c true
        let y := receipt x.2 c x.1
        (raise y.2 .credResult, x.1, [BitVec.ofNat 8 x.1.code, 0, 0, 0] ++ y.1)
      let st := (sub (admitted 0x0902 r role s)).2.1
      let x := sub (entered 0x0902 r role true st s)
      answer (if role = 0 then countHostDeny x.1 0 x.2.1 else x.1) r 0x0902 x.2.1 x.2.2)) ∧
  (∀ (s : State) r role (op : BitVec 8) (id : BitVec 64), Granted 0x0903 r role judgeTrust s → op.toNat ≤ 2 →
    (op = 0 → (heard 0x0903 r role s).nfc.revoked.contains id.toNat = true ∨ (heard 0x0903 r role s).nfc.revoked.length < 256) →
    exec (.credRevoke r op id) s = .next (let u := admitted 0x0903 r role s
      let l := if op = 0 then (if u.nfc.revoked.contains id.toNat then u.nfc.revoked else u.nfc.revoked ++ [id.toNat])
        else if op = 1 then u.nfc.revoked.filter (fun x => decide (x ≠ id.toNat)) else []
      ok 0x0903 r { u with nfc := { u.nfc with revoked := l } } (leBytes 2 l.length ++ [0, 0]))) ∧
  (∀ (s : State) r role (e : Sys2Proof.Word), Granted 0x0904 r role judgeTrust s →
    rd (heard 0x0904 r role s) R_NFC_EPOCH_MIN ≠ 0xFFFFFFFF → (rd (heard 0x0904 r role s) R_NFC_EPOCH_MIN).toNat < e.toNat →
    exec (.credEpoch r e) s = .next (ok 0x0904 r (let u := wr (admitted 0x0904 r role s) R_NFC_EPOCH_MIN e
      if e = 0xFFFFFFFF then monoFinal u 4 else u) [])) ∧
  (∀ (s : State) r role (ref id : BitVec 64), Granted 0x0905 r role (judgeOper [.approach]) s →
    (let u := heard 0x0905 r role s
     u.ledger.trip = none ∧ u.power.actLow = false ∧ u.ledger.sealed = false ∧ (ledgerLive u = true → ledgerRoomFor u 2 = true)) →
    exec (.tripOpen r ref id) s = .next (ok 0x0905 r (openTrip (admitted 0x0905 r role s) id.toNat ref.toNat 2 true) [])) ∧
  (∀ (s : State) r role (ref : BitVec 64), Granted 0x0906 r role (judgeOper [.rented, .drive, .quarantine]) s →
    (let u := heard 0x0906 r role s
     u.ledger.trip.map Trip.tripRef = some ref.toNat ∧ (mode u = .rented → standstill u = true) ∧ (mode u ≠ .drive → closeRoom u 1 = true)) →
    exec (.tripClose r ref) s = .next (ok 0x0906 r (let u := admitted 0x0906 r role s
      if mode u = .drive then atStandstill u fun v => { v with closePend := true, toRented := true } else closeTrip u 2) [])) ∧
  (∀ (s : State) r role, Granted 0x0907 r role (judgeOper [.approach, .rented, .drive, .depot, .quarantine]) s →
    exec (.forceLock r) s = .next (ok 0x0907 r (let u := admitted 0x0907 r role s
      if mode u = .drive then
        atStandstill { u with hlb := { u.hlb with forceLock := true } } fun v => { v with lockPend := true, toRented := true }
      else engageAll u) [])) ∧
  (∀ (s : State) r role, Granted 0x0908 r role (judgeOper [.approach, .rented, .drive, .depot, .quarantine]) s →
    exec (.immobilise r) s = .next (ok 0x0908 r (immobiliseTrip (admitted 0x0908 r role s)) [])) ∧
  (∀ (s : State) r role t, Granted 0x0909 r role (judgeOper [.rented, .drive]) s → (heard 0x0909 r role s).ledger.trip = some t →
    exec (.tripPermit r 1) s = .next (ok 0x0909 r (let u := admitted 0x0909 r role s
      { u with ledger := { u.ledger with trip := some { t with drive := true } }, hlb := { u.hlb with immobReq := false } }) [])) ∧
  (∀ (s : State) r role t, Granted 0x0909 r role (judgeOper [.rented, .drive]) s → (heard 0x0909 r role s).ledger.trip = some t →
    exec (.tripPermit r 0) s = .next (ok 0x0909 r (let u := admitted 0x0909 r role s
      if mode u = .drive then immobiliseTrip u
      else { u with ledger := { u.ledger with trip := some { t with drive := false } } }) [])) ∧
  (∀ (s : State) t, s.ledger.trip = some t → mode s = .drive →
    immobiliseTrip s = atStandstill { s with
      ledger := { s.ledger with trip := some { t with drive := false } }, hlb := { s.hlb with immobReq := true } }
      fun v => { v with immobPend := true, toRented := true }) ∧
  (∀ (s : State) t, s.ledger.trip = some t → mode s ≠ .drive →
    immobiliseTrip s = { s with ledger := { s.ledger with trip := some { t with drive := false } }, hlb := { s.hlb with immobReq := true } })

/-- TOOTH_EDGE with a pulse shorter than the filter changes nothing but the outputs. An accepted edge of a tracker in SYNC
whose period fits the span counts as its next tooth; one that does not fit breaks sync where the tracker is STRICT; an
accepted edge in SEARCH counts in the search. SYNTHETIC_TOOTH of a tolerant tracker in SYNC whose budget is not used takes,
past the deadline, a synthetic tooth at the predicted time, counts it, uses the budget and absorbs a real edge that follows it within the
tolerance (log entry 2: taken from the insertion). TRACKER_STALL, STILL_MS after the last tooth, takes SYNC to SEARCH with reason 4 and safe outputs, and a
search starts again. TRACKER_FAULT takes a tracker to FAULT; TRACKER_FAULT_CLEAR starts the search, reporting motion on a
WHEEL. MOTION_TIMEOUT, STILL_MS after motion was last reported anew, ends motion and lets what waits for standstill happen. ANGLE_EVENT of a tracker in SYNC whose interpolation has reached the angle and that has not yet fired
passes. It rests on readings of the model (log entries 28, 47, 52). (R453, R454, R456, R458, R459, R460, R462, R465,
R468) -/
def Obligations.TrackersAndAngles : Prop :=
  (∀ (s : State) (n : Fin 6) w, running s = true → (ttOf s n).st = .sync → w < fld s (R_TT_CFG2 + 0x40 * n) 0 4 * 100 →
    exec (.toothEdge n w) s = .next (begin_ s)) ∧
  (∀ (s : State) (n : Fin 6) w, running s = true → (ttOf s n).st = .sync → fld s (R_TT_CFG2 + 0x40 * n) 0 4 * 100 ≤ w →
    ((ttOf s n).seen = true → 500 < s.time.ticks - (ttOf s n).lastEdge) → (ttOf s n).absorb = none →
    consistent s n (ttOf s n).p1 (s.time.ticks - (ttOf s n).te) (nextTooth s n (ttOf s n).tooth).2 = true →
    exec (.toothEdge n w) s = .next (
      let u := setTt (begin_ s) n { ttOf s n with lastEdge := s.time.ticks, cap := captureNow s, discRow := 0, absorb := none }
      odoGuard u (syncTooth u n s.time.ticks))) ∧
  (∀ (s : State) (n : Fin 6) w, running s = true → (ttOf s n).st = .sync → fld s (R_TT_CFG2 + 0x40 * n) 0 4 * 100 ≤ w →
    ((ttOf s n).seen = true → 500 < s.time.ticks - (ttOf s n).lastEdge) → (ttOf s n).absorb = none → (ttOf s n).p1 ≠ 0 →
    consistent s n (ttOf s n).p1 (s.time.ticks - (ttOf s n).te) (nextTooth s n (ttOf s n).tooth).2 = false →
    ttTolerant s n = false →
    exec (.toothEdge n w) s = .next (
      let u := setTt (begin_ s) n { ttOf s n with lastEdge := s.time.ticks, cap := captureNow s, discRow := 0, absorb := none }
      let lo := longEnough s n (ttOf s n).p1 (s.time.ticks - (ttOf s n).te) (nextTooth s n (ttOf s n).tooth).2
      odoGuard u (searchTooth (loseSync u n (if lo then 2 else 1)) n s.time.ticks))) ∧
  (∀ (s : State) (n : Fin 6) w, running s = true → (ttOf s n).st = .search → fld s (R_TT_CFG2 + 0x40 * n) 0 4 * 100 ≤ w →
    ((ttOf s n).seen = true → 500 < s.time.ticks - (ttOf s n).lastEdge) → (ttOf s n).absorb = none →
    exec (.toothEdge n w) s = .next (
      let u := setTt (begin_ s) n { ttOf s n with lastEdge := s.time.ticks, cap := captureNow s, discRow := 0, absorb := none }
      odoGuard u (searchTooth u n s.time.ticks))) ∧
  (∀ (s : State) (n : Fin 6), running s = true → (ttOf s n).st = .sync → ttTolerant s n = true → (ttOf s n).p1 ≠ 0 → (ttOf s n).bad = false →
    (nextTooth s n (ttOf s n).tooth).2 * predict (ttOf s n) * (100 + ttTol s n) ≤ 100 * (s.time.ticks - (ttOf s n).te) →
    exec (.syntheticTooth n) s = .next (
      let sp := (nextTooth s n (ttOf s n).tooth).2
      let at_ := (ttOf s n).te + sp * predict (ttOf s n)
      let u := syncTooth (begin_ s) n at_
      statInc (setTt u n { ttOf u n with
        bad := true, absorb := some (max u.time.ticks (at_ + ttTol u n * sp * predict (ttOf s n) / 100) + ttTol u n * sp * predict (ttOf s n) / 100) })
        (R_TT_SYNTH + 0x40 * n.val))) ∧
  (∀ (s : State) (n : Fin 6), running s = true → (ttOf s n).st = .sync → (ttOf s n).te + fld s R_ANG_STILL 0 16 * 250000 ≤ s.time.ticks →
    exec (.trackerStall n) s = .next (spdSafe (setTt (begin_ s) n
      { searchFrom (ttOf s n) with loss := 4, speedOff := true }) n)) ∧
  (∀ (s : State) (n : Fin 6), running s = true → (ttOf s n).st = .search → (ttOf s n).te + fld s R_ANG_STILL 0 16 * 250000 ≤ s.time.ticks →
    exec (.trackerStall n) s = .next (setTt (begin_ s) n { searchFrom (ttOf s n) with speedOff := true })) ∧
  (∀ (s : State) (n : Fin 6) (c : Fin 4), running s = true → c.val ≠ 0 →
    exec (.trackerFault n c) s = .next (enterTtFault (begin_ s) n c)) ∧
  (∀ (s : State) (n : Fin 6), running s = true → (ttOf s n).st = .fault →
    exec (.trackerFaultClear n) s = .next (odoGuard (begin_ s) (quorumCheck (setTt (begin_ s) n { searchFrom (ttOf s n) with
      fault := 0, seen := false, p1 := 0, moving := decide (ttRole s n = 1), motAt := s.time.ticks })))) ∧
  (∀ (s : State) (n : Fin 6), running s = true → (ttOf s n).motAt + fld s R_ANG_STILL 0 16 * 250000 ≤ s.time.ticks →
    exec (.motionTimeout n) s = .next (settle (setTt (begin_ s) n { ttOf s n with moving := false }))) ∧
  (∀ (s : State) (k : Fin 64), running s = true → evtValid s k = true → evtTracker s k < 6 → (ttOf s (evtTracker s k)).st = .sync →
    tget false s.wheels.fired k = false →
    (let x := (evtAngle s k + 1024 * ttN s (evtTracker s k) - 1024 * (ttOf s (evtTracker s k)).tooth) % (1024 * ttN s (evtTracker s k))
     0 < x ∧ x ≤ ttProgress s (evtTracker s k)) → exec (.angleEvent k) s = .next (evtPass (begin_ s) k))

/-- The tooth adds CIRC_MM to the accumulator; its quotient by NR goes to ODO, and to TRIP_MM while a trip is open, each
sticking at all ones of 48 bits; the remainder stays. Below the limit nothing of CIRC_MM is lost: NR times the advance
of ODO, and the new remainder, make the old remainder and CIRC_MM. (R463) -/
def Obligations.DistanceOfOneTooth : Prop :=
  ∀ (s : State) (n : Nat), let t := addDistance s n
    t.wheels.acc = (s.wheels.acc + ttCirc s n) % ttNR s n ∧
    t.wheels.odo = min (s.wheels.odo + (s.wheels.acc + ttCirc s n) / ttNR s n) (2 ^ 48 - 1) ∧
    (s.ledger.trip ≠ none → t.wheels.tripMm = min (s.wheels.tripMm + (s.wheels.acc + ttCirc s n) / ttNR s n) (2 ^ 48 - 1)) ∧
    (s.ledger.trip = none → t.wheels.tripMm = s.wheels.tripMm) ∧
    (s.wheels.odo + (s.wheels.acc + ttCirc s n) / ttNR s n ≤ 2 ^ 48 - 1 →
      ttNR s n * (t.wheels.odo - s.wheels.odo) + t.wheels.acc = s.wheels.acc + ttCirc s n)

/-- CONVERSION_DONE takes the result of a running conversion, and without one nothing happens. BOLT_LIMIT of a running move
ends it in FAULT with BOLT_FAULT; BOLT_RETRY of an aborted move that can start starts it; KEYSAFE_HOLD_EXPIRY requests the
engage of the released key-safe; CMPO_PULSE_END returns a pulse low; EXC_OVERLOAD faults the channel with EXC. FB_CAL of an
open channel whose average lies in range schedules the new NOM, stores it in the channel's record of a valid map, and
answers it, and BOLT_MOVE of a bolt that can move starts the move. It rests on readings of the model (log entries 27, 53,
54). (R471, R473, R474, R476, R479, R480, R481, R482) -/
def Obligations.FeedbackAndBolts : Prop :=
  (∀ (s : State) (ch : Fin 4) x y th, running s = true →
    exec (.conversionDone ch x y th) s = .next (conversion (begin_ s) ch x.toInt y.toInt th.toNat)) ∧
  (∀ (s : State) (n : Nat) x y th, (fbOf s n).conv = none → conversion s n x y th = s) ∧
  (∀ (s : State) (b : Fin 4), running s = true → boltMoving (boltOf s b) = true →
    exec (.boltLimit b) s = .next (raise (endMove (begin_ s) b .fault) .boltFault)) ∧
  (∀ (s : State) (b : Fin 4) e, running s = true → (boltOf s b).want = some e → (boltOf s b).attempts < 3 → canMove s b e = true →
    exec (.boltRetry b) s = .next (startMove (begin_ s) b e false)) ∧
  (∀ (s : State) b, running s = true → boltOfKind s 2 = some b → fld s (R_FB_BOLT_CFG2 + 0x20 * b) 8 8 ≠ 0 →
    (boltOf s b).st = .released → exec .keysafeHoldExpiry s = .next (requestMove (begin_ s) b true)) ∧
  (∀ (s : State) (k : Fin 4), running s = true → s.wheels.pulses.getLsbD k = true →
    exec (.cmpoPulseEnd k) s = .next (setCmpo (begin_ s) k false)) ∧
  (∀ (s : State) (ch : Fin 4), running s = true → excOn s ch = true → exec (.excOverload ch) s = .next (chanFault (begin_ s) ch 6)) ∧
  (∀ (s : State) r role (ch : BitVec 8) (avg : Nat), Granted 0x0B04 r role judgeInstaller s → ch.toNat ≤ 3 →
    convOpen (heard 0x0B04 r role s) ch.toNat = true → 4000 ≤ avg → avg ≤ 30000 →
    exec (.fbCal r ch avg) s = .next (
      let u := admitted 0x0B04 r role s
      let v := schedule u [(R_FB_CFG + 0x100 * ch.toNat, 0, putBits (rd u (R_FB_CFG + 0x100 * ch.toNat)) 16 16 avg)] .plain
      ok 0x0B04 r (if v.boot.mapValid then setMap v (nomInMap v.map ch.toNat avg) else v) (leBytes 2 avg ++ leBytes 2 0))) ∧
  (∀ (s : State) r role (bolt dir : BitVec 8), Granted 0x0B05 r role judgeInstaller s → bolt.toNat ≤ 3 → dir.toNat ≤ 1 →
    boltKind (heard 0x0B05 r role s) bolt.toNat ≠ 0 → held (heard 0x0B05 r role s) (6 + boltCh (heard 0x0B05 r role s) bolt.toNat) = false →
    canMove (heard 0x0B05 r role s) bolt.toNat (decide (dir.toNat = 1)) = true →
    exec (.boltMove r bolt dir) s = .next (ok 0x0B05 r (let u := admitted 0x0B05 r role s
      startMove (setBolt u bolt.toNat { boltOf u bolt.toNat with attempts := 0 }) bolt.toNat (decide (dir.toNat = 1)) false) []))

/-- While the device runs and a host interface is on, writes by the host or the control firmware act thus. EVT_PEND_WRITE
clears the bits written as 1, and EVT_EN_WRITE gives the enables the written bits; what is no longer pending and unmasked
leaves the announced set. EVT_TEST_WRITE makes one occurrence in SERVICE and DEPOT. CCK_INJECT_WRITE sets ING, and ARM only
in SERVICE and DEPOT. HOST_LOST_WRITE clears HOST_LOST and the failure count. SEM_ACQUIRE by owner 0x01 to 0xEF takes a free
semaphore, or renews its own, with a new lease, and leaves another's alone; other owner codes of the host raise
RESERVED_ENC. SEM_RELEASE with its owner and generation frees it, any other is counted. SEM_COMMIT so held writes the merged
word, is refused where the register is, and is counted where not so held. SEM_LEASE_EXPIRY forces a lease that has run out,
and each of those commands does so first. It rests on readings of the model (log entries 12, 13, 57, 67). (R329, R501, R502,
R503, R504, R511, R513, R576, R577, R579) -/
def Obligations.EventsSemaphoresAndInjection : Prop :=
  (∀ (s : State) (c : Cls) (g : Fin 8) (w : Sys2Proof.Word), running s = true → hostOff s = false → c = .H ∨ c = .F →
    exec (.evtPendWrite c g w) s = .next (evtPendClear (outRead (begin_ s) [] .ok) g w) ∧
    exec (.evtEnWrite c g w) s = .next (evtEnSet (outRead (begin_ s) [] .ok) g w) ∧
    exec (.evtTestWrite c w) s = .next (evtTest (outRead (begin_ s) [] .ok) w) ∧
    exec (.cckInjectWrite c w) s = .next (injectSet (outRead (begin_ s) [] .ok) w)) ∧
  (∀ (s : State) (c : Cls), running s = true → hostOff s = false → c = .H ∨ c = .F →
    exec (.hostLostWrite c) s = .next (let u := wr (outRead (begin_ s) [] .ok) R_BRG_STAT (rd s R_BRG_STAT &&& ~~~ 0x10000)
      { u with bridge := { u.bridge with dmaFails := 0 } })) ∧
  (∀ (s : State) (c : Cls) (k : Fin 16) (o : BitVec 8), running s = true → hostOff s = false → c = .H ∨ c = .F →
    let u := semSettle (outRead (begin_ s) [] .ok) k
    (1 ≤ o.toNat → o.toNat ≤ 0xEF → semOwner u k = 0 ∨ semOwner u k = o.toNat →
      exec (.semAcquire c k o) s = .next (semTake u k o.toNat)) ∧
    (1 ≤ o.toNat → o.toNat ≤ 0xEF → semOwner u k ≠ 0 → semOwner u k ≠ o.toNat → exec (.semAcquire c k o) s = .next u) ∧
    (c = .H → o.toNat = 0 ∨ 0xF0 ≤ o.toNat →
      exec (.semAcquire c k o) s = .next (raise (outRead (begin_ s) [] .ok) .reservedEnc))) ∧
  (∀ (s : State) (c : Cls) (k : Fin 16) (w : Sys2Proof.Word), running s = true → hostOff s = false → c = .H ∨ c = .F →
    let u := semSettle (outRead (begin_ s) [] .ok) k
    let holds : Prop := semOwner u k ≠ 0 ∧ bitsOf w 16 8 = semOwner u k ∧ bitsOf w 0 16 = semGen u k
    (holds → exec (.semRelease c k w) s = .next (semFree u k)) ∧
    (¬ holds → exec (.semRelease c k w) s = .next (statInc u R_BRG_SEM_STALE))) ∧
  (∀ (s : State) (c : Cls) (k : Fin 16) (w off d m : Sys2Proof.Word), running s = true → hostOff s = false → c = .H ∨ c = .F →
    let u := semSettle (outRead (begin_ s) [] .ok) k
    let holds : Prop := semOwner u k ≠ 0 ∧ bitsOf w 16 8 = semOwner u k ∧ bitsOf w 0 16 = semGen u k
    (∀ h, holds → judgeSpine u c true (regBase + bitsOf off 0 24) 4 true = none → hit u c (bitsOf off 0 24) = some h →
      exec (.semCommit c k w off d m) s = .next (writeWords c (bitsOf off 0 24) [(seen u c h &&& ~~~ m) ||| (d &&& m)] u)) ∧
    (∀ r a, holds → judgeSpine u c true (regBase + bitsOf off 0 24) 4 true = some (r, a) →
      exec (.semCommit c k w off d m) s = .next (refuseOut u c r a true)) ∧
    (¬ holds → exec (.semCommit c k w off d m) s = .next (statInc u R_BRG_SEM_STALE))) ∧
  (∀ (s : State) (k : Fin 16), semOwner s k ≠ 0 → tget 0 s.bridge.lease k ≤ s.time.ticks →
    semSettle s k = raise (statInc (semFree s k) R_BRG_SEM_FORCED) .semForced) ∧
  (∀ (s : State) (k : Fin 16), semOwner s k = 0 ∨ s.time.ticks < tget 0 s.bridge.lease k → semSettle s k = s) ∧
  (∀ (s : State) (k : Fin 16), clocked s = true → exec (.semLeaseExpiry k) s = .next (semSettle (begin_ s) k))

/-- REG_WRITE and RC_READ of REG through a target that the class has, permitted by the spine's judgement, are carried out;
refused ones are refused in their form with the reason and the first forbidden address; a request outside REG is one of
memory, and one through BAR2 reaches tag memory or the MSI-X tables. A word written by the host to BRG_VMAPn changes its
fields; one to a register of locked fields alone raises LOCKED_WRITE and changes nothing. RC_READ of a one-word counter by
the host returns it and clears it. STAT_LOW_WORD_READ of the low word of a two-word counter by the host returns it, clears
the counter and takes the high word into the shadow. LDG_LO_READ of LDG_LT_LO or LDG_WALL_LO returns it and latches its HI
register. It rests on readings of the model (log entries 11, 12, 13, 56, 67). (R2, R4, R11, R13, R383, R385, R388, R451,
R488) -/
def Obligations.RegisterRequests : Prop :=
  (∀ (s : State) c acc, accepts s c = true → (c = .H → onSpi s = true) → regBase ≤ acc.addr → acc.addr < regBase + 0x1000000 →
    (∀ w, judgeSpine s c w acc.addr (4 * acc.words.length) (allEnabled acc) = none →
      (w = true → exec (.regWrite c .spine acc) s = .next (regAccess (begin_ s) c true acc)) ∧
      (w = false → exec (.rcRead c .spine acc) s = .next (regAccess (begin_ s) c false acc))) ∧
    (∀ w r a, judgeSpine s c w acc.addr (4 * acc.words.length) (allEnabled acc) = some (r, a) →
      (w = true → exec (.regWrite c .spine acc) s = .next (refuseOut (begin_ s) c r a true)) ∧
      (w = false → exec (.rcRead c .spine acc) s = .next (refuseOut (begin_ s) c r a false)))) ∧
  (∀ (s : State) c acc, accepts s c = true → (c = .H → onSpi s = true) → acc.addr < regBase ∨ regBase + 0x1000000 ≤ acc.addr →
    exec (.regWrite c .spine acc) s = .next (memRequest (begin_ s) c true acc) ∧
    exec (.rcRead c .spine acc) s = .next (memRequest (begin_ s) c false acc)) ∧
  (∀ (s : State) acc, accepts s .H = true → onSpi s = false →
    let reg := { acc with addr := regBase + acc.addr }
    (acc.addr < 0x1000000 → judgeSpine s .H true reg.addr (4 * acc.words.length) (allEnabled acc) = none →
      exec (.regWrite .H .bar0 acc) s = .next (regAccess (begin_ s) .H true reg)) ∧
    (acc.addr < 0x1000000 → judgeSpine s .H false reg.addr (4 * acc.words.length) (allEnabled acc) = none →
      exec (.rcRead .H .bar0 acc) s = .next (regAccess (begin_ s) .H false reg)) ∧
    exec (.regWrite .H .bar2 acc) s = .next (bar2Request (begin_ s) true acc) ∧
    exec (.rcRead .H .bar2 acc) s = .next (bar2Request (begin_ s) false acc)) ∧
  (∀ (s : State) (off : BitVec 24) (w : Sys2Proof.Word), running s = true → hostOff s = false → onSpi s = true →
    off.toNat % 4 = 0 → off.toNat + 4 ≤ 0x140000 → commitsOf off.toNat 1 = [] →
    exec (.regWrite .H .spine { addr := regBase + off.toNat, words := [w], enables := [] }) s =
      .next (writeReg .H off.toNat w (outRead (begin_ s) [] .ok))) ∧
  (∀ (s : State) (n : Fin 64) (w : Sys2Proof.Word), writeReg .H (R_BRG_VMAP + 4 * n.val) w s =
    wr s (R_BRG_VMAP + 4 * n.val) ((rd s (R_BRG_VMAP + 4 * n.val) &&& ~~~ 0x3F3F3F3F) ||| (w &&& 0x3F3F3F3F))) ∧
  (∀ (s : State) (off : Nat) (w : Sys2Proof.Word) h, hit s .H off = some h → h.flat = false → fbClosed s h.a = false →
    h.row.wl ≠ 0 → h.row.rw = 0 → h.row.w1c = 0 → h.row.wo = 0 → h.a ≠ R_PWR_WAKE_CAUSE → bit s R_SYS_LOCK 0 0 = true →
    writeReg .H off w s = raise s .lockedWrite) ∧
  (∀ (s : State) (off : BitVec 24) (w : Sys2Proof.Word) h, running s = true → hostOff s = false → onSpi s = true →
    off.toNat % 4 = 0 → off.toNat + 4 ≤ 0x140000 →
    hit s .H off.toNat = some h → h.flat = false → trgHidden s h.a = false → h.row.kind = .stat →
    exec (.rcRead .H .spine { addr := regBase + off.toNat, words := [w], enables := [] }) s =
      .next (outRead (wri (begin_ s) h.a h.inst 0) [seen s .H h] .ok)) ∧
  (∀ (s : State) (off : BitVec 24) h, running s = true → hostOff s = false → off.toNat % 4 = 0 → off.toNat + 4 ≤ 0x140000 →
    hit s .H off.toNat = some h → h.flat = false → trgHidden s h.a = false → h.row.kind = .statLo →
    exec (.statLowWordRead .H off) s = .next (outRead
      (wri (wri { begin_ s with shadow := tset 0 s.shadow (regKey (h.a + 4) h.inst) (rdi s (h.a + 4) h.inst) } h.a h.inst 0) (h.a + 4) h.inst 0)
      [seen s .H h] .ok)) ∧
  (∀ (s : State) (c : Cls), running s = true → hostOff s = false → c = .H ∨ c = .F →
    exec (.ldgLoRead c (BitVec.ofNat 24 R_LDG_LT_LO)) s = .next (outRead { begin_ s with ledger := { s.ledger with shLtHi := timeHi (ltimeNow s) } }
      [regWord s R_LDG_LT_LO 0] .ok) ∧
    exec (.ldgLoRead c (BitVec.ofNat 24 R_LDG_WALL_LO)) s = .next (outRead { begin_ s with ledger := { s.ledger with shWallHi := timeHi (wall48 s) } }
      [regWord s R_LDG_WALL_LO 0] .ok))

/-- Over quad-SPI SPI_READ carries out its request, its words reading zero when it is denied or to be retried; SPI_WRITE
carries out its request and keeps its status for WSTAT; WSTAT answers that status and BRG_STAT; SPI_ABORT is counted. CMD_PUT
of 16 to 512 bytes joins the queue when fewer than four requests wait, and is BAD_PARAM or BUSY otherwise. CMD_GET gives the
oldest response, or a length of 0 when none waits; the response of SYS_RESET lets the reset take effect. CMD_RING_FETCH with
a packet in ring 4, room in ring 5 and its read granted accepts the packet in its session and advances the ring. Over PCIe
LOCKED_READ_TLP is answered as unsupported and counted, PCIE_LINK_UP sets LINK, WIDTH and RATE, and BRIDGE_RESET drops
requests and jobs, disables the rings and forces the semaphores of host owners free. It rests on readings of the model (log
entries 13, 23, 44, 55, 57, 66, 67). (R489, R490, R491, R492, R506, R519, R520, R521, R522, R534, R623) -/
def Obligations.SpiAndCommandTransport : Prop :=
  (∀ (s : State) (a : Sys2Proof.Word) (n : BitVec 8), accepts s .H = true → onSpi s = true →
    exec (.spiRead a n) s = .next (
      let u := spineRequest (begin_ s) .H false { addr := a.toNat, words := List.replicate (n.toNat + 1) 0, enables := [] }
      if u.out.rstatus = some .denied ∨ u.out.rstatus = some .retry then { u with out := { u.out with rdata := List.replicate (n.toNat + 1) 0 } } else u)) ∧
  (∀ (s : State) (a : Sys2Proof.Word) ws st, accepts s .H = true → onSpi s = true →
    (spineRequest (begin_ s) .H true { addr := a.toNat, words := ws, enables := [] }).out.rstatus = some st →
    exec (.spiWrite a ws) s = .next (let u := spineRequest (begin_ s) .H true { addr := a.toNat, words := ws, enables := [] }
      { u with disp := { u.disp with spiStatus := st } })) ∧
  (∀ s : State, accepts s .H = true → onSpi s = true →
    exec .wstat s = .next { begin_ s with out := { Outp.none with bytes := leBytes 1 s.disp.spiStatus.code, rdata := [regWord s R_BRG_STAT 0] } } ∧
    exec .spiAbort s = .next (statInc (begin_ s) R_BRG_SPI_ABORT)) ∧
  (∀ (s : State) (len op sess : BitVec 16) (q : BitVec 32), accepts s .H = true → onSpi s = true →
    let fits : Prop := 16 ≤ len.toNat ∧ len.toNat ≤ 512
    (fits → s.disp.spiReq.length < 4 → exec (.cmdPut len op sess q) s = .next (
      let w : Wait := { opcode := op.toNat, session := sess, seq := q, accepted := false, ctx := none }
      { begin_ s with disp := { s.disp with spiStatus := .ok, spiReq := s.disp.spiReq ++ [w] } })) ∧
    (fits → 4 ≤ s.disp.spiReq.length →
      exec (.cmdPut len op sess q) s = .next { begin_ s with disp := { s.disp with spiStatus := .busy } }) ∧
    (¬ fits → exec (.cmdPut len op sess q) s = .next { begin_ s with disp := { s.disp with spiStatus := .badParam } })) ∧
  (∀ s : State, accepts s .H = true → onSpi s = true → s.disp.spiRsp = [] →
    exec .cmdGet s = .next { begin_ s with out := { Outp.none with bytes := leBytes 2 0 } }) ∧
  (∀ (s : State) r t, accepts s .H = true → onSpi s = true → s.disp.spiRsp = r :: t →
    let o : Outp := { Outp.none with bytes := (leBytes 2 (rspBytes r).length).reverse ++ rspBytes r }
    let u := { begin_ s with disp := { s.disp with spiRsp := t }, out := o }
    (r.opcode ≠ 0x0122 ∨ s.boot.resetOrdered ≠ some .spi → exec .cmdGet s = .next u) ∧
    (r.opcode = 0x0122 → s.boot.resetOrdered = some .spi → exec .cmdGet s = .next { warmCore u with out := o })) ∧
  (∀ (s : State) (op sess : BitVec 16) (q : BitVec 32), running s = true → ringHas s 4 = true → ringOn s 5 = true → dmaUp s = true →
    s.disp.ringReq.length + owedOn s .ring + 1 ≤ ringFree s 5 → judgeD s false (ringBase s 4 + 512 * ringCons s 4) 512 = none →
    exec (.cmdRingFetch op sess q) s = .next (
      let w : Wait := { opcode := op.toNat, session := sess, seq := q, accepted := true, ctx := acceptCtx s sess }
      ringStep (dmaGood { begin_ s with disp := { s.disp with ringReq := s.disp.ringReq ++ [w] } }) 4 R_BRG_RING_CONS)) ∧
  (∀ (s : State) (sess : BitVec 16) c, ctxAt s .ring sess = some c → (s.disp.ringReq.filter fun w => decide (w.session = sess)) = [] →
    acceptCtx s sess = some c) ∧
  (∀ s : State, accepts s .H = true → onSpi s = false →
    exec .lockedReadTlp s = .next (statInc { begin_ s with out := { Outp.none with refused := true } } R_BRG_LOCKED_TLP)) ∧
  (∀ (s : State) (w : Fin 3) (r : Fin 4), accepts s .H = true → onSpi s = false → w.val ≠ 0 → r.val ≠ 0 →
    exec (.pcieLinkUp w r) s = .next (setFld (setFld (setFld (begin_ s) R_BRG_STAT 0 1 1) R_BRG_STAT 4 2 w) R_BRG_STAT 1 2 r)) ∧
  (∀ s : State, s.Inv → accepts s .H = true → onSpi s = false →
    ∃ t, exec .bridgeReset s = .next t ∧ t.disp.spiReq = [] ∧ t.disp.ringReq = [] ∧ t.disp.spiRsp = [] ∧ t.hlb.push = none ∧
      (∀ k, k < 16 → 1 ≤ semOwner s k → semOwner s k ≤ 0xEF → semOwner t k = 0) ∧
      (∀ r, r < 8 → ringOn t r = false) ∧ t.bridge.msixTab = [] ∧ t.map = s.map)

/-- HP_TX_DESCRIPTOR with rings 0 and 1 serving and its read granted completes NOT_IN_MODE outside the modes of HP, BAD_PARAM
when a field is out of its range, and DENIED when its buffer is not granted; one whose bytes are of its frame type is sent,
with its semaphore acquired where it asks for one, and waits while that is not free. HP_RX_DELIVER with rings 2 and 3 serving
and a buffer entry granted delivers the front frame of the highest HP queue that needs no resequencing. DMA_TIMEOUT is
counted, and below eight in a row the descriptor or the job it served completes RETRY. MSIX_SEND of a vector that owes a
message sends it, or sets its pending bit where it is masked. It rests on readings of the model (log entries 13, 55, 56, 57,
66, 67). (R27, R494, R495, R496, R497, R499, R508, R511) -/
def Obligations.HostPortAndMessages : Prop :=
  (∀ (s : State) (d : HpDesc) bytes k dec, running s = true → hpReady s = true →
    judgeD s false (ringBase s 0 + 32 * ringCons s 0) 32 = none →
    (hpModes s = false → exec (.hpTxDescriptor d bytes k dec) s = .next (hpComplete (dmaGood (begin_ s)) d .notInMode 0)) ∧
    (hpModes s = true → hpBad d = true →
      exec (.hpTxDescriptor d bytes k dec) s = .next (hpComplete (dmaGood (begin_ s)) d .badParam 0)) ∧
    (∀ r a, hpModes s = true → hpBad d = false → judgeD s false d.buf.toNat d.len.toNat = some (r, a) →
      exec (.hpTxDescriptor d bytes k dec) s = .next (hpComplete (refuse (begin_ s) .D r a false) d .denied 0)) ∧
    (∀ c, hpModes s = true → hpBad d = false → judgeD s false d.buf.toNat d.len.toNat = none →
      parseCarried (hpType d) (padTo d.len.toNat bytes) = some c →
      (hpLock d = false → exec (.hpTxDescriptor d bytes k dec) s = .next (hpSend (dmaGood (begin_ s)) d c none (if k then some dec else none))) ∧
      (hpLock d = true → semOwner (semSettle (begin_ s) (hpSem d)) (hpSem d) = 0 →
        exec (.hpTxDescriptor d bytes k dec) s = .next (
          let u := semTake (semSettle (begin_ s) (hpSem d)) (hpSem d) (0xF0 + (hpPipe d).val)
          hpSend (dmaGood u) d c (some (hpSem d, semGen u (hpSem d))) (if k then some dec else none))) ∧
      (hpLock d = true → semOwner (semSettle (begin_ s) (hpSem d)) (hpSem d) ≠ 0 →
        exec (.hpTxDescriptor d bytes k dec) s =
          .next { begin_ s with bridge := { s.bridge with txWait := some (hpSem d) } }))) ∧
  (∀ (s : State) (buf : BitVec 64) q x f, running s = true → hpModes s = true → ringHas s 2 = true → ringOn s 3 = true → dmaUp s = true →
    1 ≤ ringFree s 3 → judgeD s false (ringBase s 2 + 8 * ringCons s 2) 8 = none → hpTop s = some (q, x) → frameOf s x.h = some f →
    needsRsq x f = false →
    exec (.hpRxDeliver buf) s = .next (hpDeliver (dmaGood (begin_ s)) q x f buf.toNat)) ∧
  (∀ s : State, running s = true → onSpi s = false → hostLost s = false → s.bridge.dmaFails < 7 →
    let u := { statInc (begin_ s) R_BRG_D_ERR with bridge := { s.bridge with dmaFails := s.bridge.dmaFails + 1 } }
    exec (.dmaTimeout .fetch) s = .next u ∧ exec (.dmaTimeout .other) s = .next u ∧
    (∀ d, hpReady s = true → exec (.dmaTimeout (.hpTx d)) s = .next (hpComplete u d .retry 0)) ∧
    (∀ (e : Fin 2) j, (engOf s e).job = some j → j.vault = false →
      exec (.dmaTimeout (.job e)) s = .next (completeJob u e false j.desc .retry 0 0 0))) ∧
  (∀ (s : State) (v : Fin 64) (fm : Bool), running s = true → fld s R_BRG_CFG 0 2 = 2 → dmaUp s = true →
    vecOwed s v ≠ [] ∨ s.bridge.msixPend.getLsbD v = true → vecRested s v = true →
    exec (.msixSend v fm) s = .next (
      let ann := (vecOwed s v).foldl (fun (x : BitVec 256) k => x ||| BitVec.ofNat 256 (2 ^ k)) s.bridge.announced
      let m : BitVec 64 := BitVec.ofNat 64 (2 ^ v.val)
      if fm ∨ bitsOf (msixWord s (4 * v + 3)) 0 1 = 1 then
        { begin_ s with bridge := { s.bridge with announced := ann, msixPend := s.bridge.msixPend ||| m } }
      else
        { begin_ s with
          bridge := { s.bridge with announced := ann, msixPend := s.bridge.msixPend &&& ~~~ m,
                                    msixLast := tset 0 s.bridge.msixLast v (s.time.beatCnt.toNat + 1) },
          out := { Outp.none with msix := [v.val] } }))

/-- While the core is clocked FRAME_RECEIVE at an ingress that is not shut by loopback receives the frame; one that is shut
discards it. A CAN frame in error on a lane that takes it counts as a receive error; a frame with a bad FCS on a port with
link counts RX_FCS. A CAN frame whose 11-bit entry is valid, UNICAST and honoured, and names no stream out of use, goes to
that entry's destination alone; without a valid entry and with trapping of misses off it is dropped and counted as a miss.
PIPE_RESET frees the cells of the frames a pipeline is stuck on, counts them at their ingress and the reset, raises
PIPE_RESET and forces free the semaphores the pipeline holds; a pipeline without stuck frames is left alone. It rests on
readings of the model (log entries 31, 43). (R196, R219, R222, R236, R250, R254, R506, R586) -/
def Obligations.FramesEnterTheSwitch : Prop :=
  (∀ (s : State) (f : RxFrame), clocked s = true → lineShut s f.ing = false →
    exec (.frameReceive f) s = .next (receive (begin_ s) { f with lock := none })) ∧
  (∀ (s : State) (f : RxFrame), clocked s = true → lineShut s f.ing = true → exec (.frameReceive f) s = .next (begin_ s)) ∧
  (∀ (s : State) (f : RxFrame) id ide fdf brs esi dlc data, clocked s = true → lineShut s f.ing = false → f.ing.val < 96 →
    f.content = .can id ide fdf brs esi dlc data → laneTakes s f.ing f.content = true → f.ok = false →
    exec (.frameReceive f) s = .next (canRxError (begin_ s) f.ing)) ∧
  (∀ (s : State) (f : RxFrame) b, clocked s = true → lineShut s f.ing = false → 96 ≤ f.ing.val → f.ing.val < 104 →
    f.content = .eth b → portLink s (f.ing - 96) = true → f.ok = false →
    exec (.frameReceive f) s = .next (statIncI (begin_ s) R_PORT_RX_FCS (f.ing - 96))) ∧
  (∀ (s : State) p ing l (id : BitVec 29) fdf brs esi dlc data,
    let a := tget 0 s.tables.can (p * 49152 + 2048 * l + id.toNat % 2048)
    actValid a = true → actType a = 1 → honoured s (actSafe a) (actSvc a) = true →
    actStrEn a = false ∨ bb (streamOf s (actStream a)) 0 = true →
    decideFrame s p ing l (.can id false fdf brs esi dlc data) =
      ({ action := a, vid := 0, targets := [actDest a], fpol := none, trap := false, out := none, untag := 0 }, s)) ∧
  (∀ (s : State) p ing l (id : BitVec 29) fdf brs esi dlc data, p < 4 →
    actValid (tget 0 s.tables.can (p * 49152 + 2048 * l + id.toNat % 2048)) = false → bit s R_TBL_MISS_CFG 0 0 = false →
    decideFrame s p ing l (.can id false fdf brs esi dlc data) = (Decided.drop 0 0 2, missed s p)) ∧
  (∀ (s : State) (p : Fin 4), running s = true → s.cipher.waits = [] → s.net.stuck.any (fun x => decide (x.p = p.val)) = true →
    exec (.pipeReset p) s = .next (
      let mine := s.net.stuck.filter fun x => decide (x.p = p.val)
      let u := { begin_ s with net := { s.net with stuck := s.net.stuck.filter fun x => decide (x.p ≠ p.val) },
                               cipher := { s.cipher with waits := [] } }
      let v := mine.foldl (fun s x => fcCheck (statIncI s R_SW_I_OVF x.ing) x.ing) u
      semForceAll (raise (statAddI (statInc v R_SW_PIPE_RESET) R_SW_RECLAIMED 0 (mine.foldl (fun a x => a + x.cells) 0)) .pipeReset)
        fun o => decide (o = 0xF0 + p.val))) ∧
  (∀ (s : State) (p : Fin 4), running s = true → s.net.stuck.any (fun x => decide (x.p = p.val)) = false →
    exec (.pipeReset p) s = .next (begin_ s))

/-- When LANEAUTH accepts a received frame of a profile, its trailer's MAC is that of the payload and the accepted value, the
profile's key was usable, and its latest accepted value has risen, by at most ACCEPT_WIN, to a value whose low 8 times
FV_LEN bits are those the frame carries; when it does not accept the frame the latest accepted value is unchanged, and
LA_FAIL is raised. (R369, R370) -/
def Obligations.SecuredFramesAreJudged : Prop :=
  (∀ (s : State) (p : Nat) (data : List Byte), s.Inv → p < 1024 → (laVerify s p data).1 = true →
    let old := la64 s R_CIPH_LA_L_LO R_CIPH_LA_L_HI p
    let new := la64 (laVerify s p data).2 R_CIPH_LA_L_LO R_CIPH_LA_L_HI p
    let pay := data.take (data.length - (laFv s p + laMac s p))
    let trailer := data.drop (data.length - (laFv s p + laMac s p))
    trailer.drop (laFv s p) = laTag s p pay new ∧ laKeyOk s p useMacVer = true ∧ old < new ∧
    new ≤ old + (rdi s R_CIPH_LA_WIN p).toNat ∧ new % 2 ^ (8 * laFv s p) = beNat (trailer.take (laFv s p))) ∧
  (∀ (s : State) (p : Nat) (data : List Byte), s.Inv → p < 1024 → (laVerify s p data).1 = false →
    la64 (laVerify s p data).2 R_CIPH_LA_L_LO R_CIPH_LA_L_HI p = la64 s R_CIPH_LA_L_LO R_CIPH_LA_L_HI p ∧
    ∃ u, (laVerify s p data).2 = raise u .laFail)

/-- Refilled once, a bucket of T tokens and a fraction F gains RATE div B tokens and RATE mod B of fraction, a full fraction
becomes a token, and at the cap the bucket is full with no fraction. At each beat the REFILL task that reaches every valid
policer refills its pair (Tc, Fc) with CIR and CBS, and its pair (Tp, Fp) with PIR and PBS. Over a whole number of seconds,
of B beats each, a bucket that stays below its cap gains exactly RATE tokens per second and keeps its fraction. (R286) -/
def Obligations.RefillGainsExactlyTheRate : Prop :=
  (∀ t f rate bs b : Nat, 1 ≤ b → f < b →
    let f1 := f + rate % b
    let t1 := t + rate / b
    refill t f rate bs b =
      if f1 < b then (if bs ≤ t1 then (bs, 0) else (t1, f1)) else (if bs ≤ t1 + 1 then (bs, 0) else (t1 + 1, f1 - b))) ∧
  (∀ (s : State) (k : Nat) sh, s.Inv → k < 4096 → bit s R_POL_CFG k 2 = true → s.time.refillMiss.contains k = false →
    fldi s R_POL_TC k 0 16 < bps s → fldi s R_POL_TP k 0 16 < bps s →
    let u := refillTask s [] sh
    (fldi u R_POL_TC k 16 16, fldi u R_POL_TC k 0 16) =
      refill (fldi s R_POL_TC k 16 16) (fldi s R_POL_TC k 0 16) (fldi s R_POL_CIR k 0 24) (fldi s R_POL_BS k 0 16) (bps s) ∧
    (fldi u R_POL_TP k 16 16, fldi u R_POL_TP k 0 16) =
      refill (fldi s R_POL_TP k 16 16) (fldi s R_POL_TP k 0 16) (fldi s R_POL_PIR k 0 24) (fldi s R_POL_BS k 16 16) (bps s)) ∧
  (∀ t f rate bs b n : Nat, f < b → t + n * rate < bs → refillN (n * b) t f rate bs b = (t + n * rate, f))

/-- While the device runs, EGRESS_PICK of an egress that may not start a frame leaves it as it is; of one that may, it serves
the queue that is picked, and a frame that needs no resequencing, and has its peer on a cluster port, is then in
transmission, its entry gone from the queue. FRAME_TRANSMIT_END counts the frame and its octets and gives up its cells, and
a frame of a target in loopback comes back as a new ingress of it. After CAN_ARBITRATION_END, lost or in error, the frame is
at the head of its queue again, and an error that counts raises the transmit error counter. LAUNCH_TIME_REACHED lets the
egress pick; LAUNCH_MISS drops the frame and counts it, unless late frames are sent. LIN_RESPONSE to a published identifier
answers with the oldest queued frame of it; a subscribed one without a response is counted. It rests on readings of the
model (log entries 31, 39, 43). (R162, R164, R269, R298, R299, R300, R306, R307, R586) -/
def Obligations.EgressStartsAndEndsFrames : Prop :=
  (∀ (s : State) (e : Fin 106), running s = true → egrReady s e = false → exec (.egressPick e) s = .next (begin_ s)) ∧
  (∀ (s u : State) (e : Fin 106) q i, running s = true → egrReady s e = true → pick (dropOversize (begin_ s) e) e = (some q, u) →
    eligible u e q = some i → exec (.egressPick e) s = .next (serve u e q i)) ∧
  (∀ (u : State) (e q i : Nat) x f, (queueOf u e q)[i]? = some x → frameOf u x.h = some f → needsRsq x f = false →
    clusterPort u e = false ∨ (forwardPeer u e).isSome = true →
    (egrOf (serve u e q i) e).tx = some (q, { x with paid := true }) ∧
    (serve u e q i).net.queues = tset [] u.net.queues (qn e q) ((queueOf u e q).filter fun y => decide (y.h ≠ x.h))) ∧
  (∀ (s : State) (e : Fin 106) q x cv back, running s = true → (egrOf s e).tx = some (q, x) → (e.val < 96 → (laneOf s e).backoff = false) →
    let n := (egrOf s e).sent.length
    let mac (u : State) : State := stat2AddI (stat2AddI u R_PORT_TXF (portIdx e) 1) R_PORT_TXO (portIdx e) (if e.val = 105 then n else ethOctets n)
    let u := if e.val < 96 then
        let v := stat2AddI (begin_ s) R_LANE_TXF e 1
        let w := if pers s e = 1 then tdcMeasure (canTxGood v e) e (frameOf s x.h) else v
        let y := if pers s e = 3 then mac w else w
        setLane y e { laneOf y e with attempts := 0 }
      else mac (begin_ s)
    let t := releaseRef (setEgr u e { egrOf s e with tx := none, sent := [] }) x.h
    (loopOf s e = 0 → exec (.frameTransmitEnd e cv back) s = .next t) ∧
    (∀ f c, loopOf s e ≠ 0 → frameOf s x.h = some f →
      (f.xform ≠ 0 ∧ cv = true ∧ back = c) ∨ (f.xform = 0 ∧ f.content = c ∧ ∀ b, c ≠ .eth b) ∨
        (f.xform = 0 ∧ (∃ b, f.content = .eth b) ∧ c = .eth (egrOf s e).sent) →
      exec (.frameTransmitEnd e cv back) s = .next (receive t
        { ing := e, content := c, ok := true, stuck := none, pipe := 0, colour := 0, launch := none, prof := none, lock := none }))) ∧
  (∀ (s : State) (n : Fin 96) (b : Bool), running s = true → pers s n = 1 → (egrOf s n).tx.isSome = true →
    exec (.canArbitrationEnd n b) s = .next (if b && ! txFast s n then canTxError (returnTx (begin_ s) n) n else returnTx (begin_ s) n)) ∧
  (∀ (s : State) (e : Nat) q x, (egrOf s e).tx = some (q, x) →
    queueOf (returnTx s e) e q = x :: queueOf s e q ∧
    returnTx s e = setQueue (setEgr s e { egrOf s e with tx := none }) e q (x :: queueOf s e q)) ∧
  (∀ (s : State) (e : Fin 104) (q : Fin 8) x t, running s = true → queueOf s e q = x :: t → x.launch.isSome = true → launchDue s x.launch = true →
    exec (.launchTimeReached e q) s = .next (pickStart (begin_ s) e)) ∧
  (∀ (s : State) (e : Fin 104) (q : Fin 8) x, running s = true → queueOf s e q = [x] → launchMissed s x.launch = true →
    exec (.launchMiss e q) s = .next (if bit s R_SCH_LAUNCH 0 31 then
        statIncI (setQueue (begin_ s) e q [{ x with launch := none }]) R_SCH_LAUNCH_LATE e
      else statIncI (dropAt (setQueue (begin_ s) e q []) e x.h) R_SCH_LAUNCH_MISS e)) ∧
  (∀ (s : State) (n : Fin 96) (id : Fin 64) rate missing, running s = true → pers s n = 2 → laneOn s n = true →
    bit s R_LANE_CFG n 5 = true ∨ linRateOk s n rate.toNat = true → bb (linEntry s n id) 0 = true →
    let u := if bit s R_LANE_CFG n 5 then setLane (begin_ s) n { laneOf s n with linId := none } else begin_ s
    (bb (linEntry s n id) 48 = true → (laneOf s n).st = .active → (egrOf s n).tx = none →
      exec (.linResponse n id rate missing) s = .next (linAnswer u n id)) ∧
    (bb (linEntry s n id) 48 = false → exec (.linResponse n id rate true) s = .next (statIncI u R_LANE_NORESP n)) ∧
    (bb (linEntry s n id) 48 = false → exec (.linResponse n id rate false) s = .next u)) ∧
  (∀ (s : State) (n : Fin 96) (id : Fin 64) rate missing, running s = true → pers s n = 2 → bit s R_LANE_CFG n 5 = false →
    linRateOk s n rate.toNat = false → exec (.linResponse n id rate missing) s = .next (begin_ s)) ∧
  (∀ (s : State) (n id : Nat) h q i x f, linOldest s n id = some (h, q, i) → (queueOf s n q)[i]? = some x → frameOf s h = some f →
    needsRsq x f = false → linAnswer s n id = startTx (setPaid s n q i) n q i)

/-- While the device runs, CARRY_VERIFY checks the frame that a queue is about to send, where it is on chip, not yet verified
and in a queue of an egress but HP: where the CRC-32C of its stamp and its bytes is not the stored value the frame is removed,
counted and captured, and so is a frame that was stored without a good carry value; where it is the stored value, the frame is
marked verified, or, where it cannot be expressed in the egress's format, removed and counted UNFIT; toward a peer of a
cluster it is marked verified, or, where its FORWARD frame exceeds the port's MAXF, removed and counted FWD_BIG. A frame
already verified, and a frame with a good carry value for HP, are left as they are. A granted CARRY_REPORT with two different
values, an ingress up to 105, a 12-bit node and a stamp in its format is counted, captured and raises INTEGRITY. It rests on
readings of the model (log entries 37, 45). (R319, R322, R323, R324, R327, R561) -/
def Obligations.CarryCheckAtEgress : Prop :=
  (∀ (s : State) (e : Fin 106) (q : Fin 8) c i x f, running s = true → toVerify s e q = some i → (queueOf s e q)[i]? = some x →
    frameOf s x.h = some f → x.verified = false →
    let u := { begin_ s with fresh := s.fresh + 1 }
    let sum := carryOver (stampBytes f) (c.getD (carried f.content))
    (f.bad = true → exec (.carryVerify e q c) s = .next (carryFail (removeEnt u e q x.h) e x.h f (Config.freeWord s.fresh))) ∧
    (e.val ≠ 104 → f.bad = false → sum ≠ f.carry →
      exec (.carryVerify e q c) s = .next (carryFail (removeEnt u e q x.h) e x.h f sum)) ∧
    (e.val ≠ 104 → f.bad = false → sum = f.carry → clusterPort s e = false →
      exec (.carryVerify e q c) s = .next (
        let v := { u with fresh := s.fresh + 2 }
        if fits v e (s.fresh + 1) f then setEnt v e q i { x with verified := true }
        else statInc (dropAt (removeEnt v e q x.h) e x.h) R_CCK_UNFIT)) ∧
    (e.val ≠ 104 → f.bad = false → sum = f.carry → clusterPort s e = true →
      exec (.carryVerify e q c) s = .next (
        if ethOctets (forwardBytes u e f).length > fldi s R_PORT_MAXF (e - 96) 0 14 then
          statInc (dropAt (removeEnt u e q x.h) e x.h) R_HLB_FWD_BIG
        else setEnt u e q i { x with verified := true }))) ∧
  (∀ (s : State) (e : Fin 106) (q : Fin 8) c i x f, running s = true → toVerify s e q = some i → (queueOf s e q)[i]? = some x →
    frameOf s x.h = some f → x.verified = true ∨ (e.val = 104 ∧ f.bad = false) →
    exec (.carryVerify e q c) s = .next (begin_ s)) ∧
  (∀ (s : State) r role (t : BitVec 64) (node : BitVec 16) (ing : BitVec 8) (a b : Sys2Proof.Word),
    Granted 0x0510 r role (judgeRight true false false false (inModes [.rented, .drive, .service, .depot])) s →
    a ≠ b → ing.toNat ≤ 105 → node.toNat ≤ 4095 → t.toNat % 2 ^ 30 ≤ 999999999 →
    exec (.carryReport r t node ing a b) s = .next (ok 0x0510 r
      (raise (captureCarry (statInc (admitted 0x0510 r role s) R_CCK_HOST_REP) 104 node.toNat ing.toNat t a b) .integrity) []))

/-- While the device runs, RSQ_TIMEOUT of a context whose held frame has waited for TMO_US gives up the missing numbers up to
it and releases it with the run that follows; RSQ_CONTEXT_EXPIRY frees a context that holds nothing. SPILL_OUT of a group in
SPILL mode with more charged cells than SPILL_HI moves frames out until it is at or below SPILL_LO or none can move; at or
below SPILL_HI, or in another mode, nothing moves. SPILL_RETURN brings the spilled frames within the first 32 of a port queue
back while cells are free, and flow control of each one's ingress is judged again. It rests on readings of the model (log entry
36). (R259, R260, R261, R263, R265, R267) -/
def Obligations.ResequencingAndSpill : Prop :=
  (∀ (s : State) (str : BitVec 12) (e : Fin 106) c x h t, running s = true → ctxOf s str.toNat e = some c → x ∈ c.slots → x.2 = some (.held h t) →
    t + fld s R_SW_RSQ_CFG 0 16 * ticksPerUs ≤ s.time.ticks →
    exec (.rsqTimeout str e) s = .next (rsqStore (begin_ s) str.toNat e (rsqToHeld 64 { ctx := c, sent := [], lost := 0 }))) ∧
  (∀ (s : State) (str : BitVec 12) (e : Fin 106) c, running s = true → ctxOf s str.toNat e = some c → ctxEmpty c = true →
    exec (.rsqContextExpiry str e) s = .next (setCtx (begin_ s) str.toNat e none)) ∧
  (∀ (s : State) (g : Fin 4), running s = true → bufMode s g = 1 → fld s (R_SW_PG_SHI + 0x10 * g.val) 0 17 < charged s g →
    exec (.spillOut g) s = .next (spillLoop g 65536 (begin_ s))) ∧
  (∀ (s : State) (g : Fin 4), bufMode s g ≠ 1 ∨ charged s g ≤ fld s (R_SW_PG_SHI + 0x10 * g.val) 0 17 →
    exec (.spillOut g) s = .next (begin_ s)) ∧
  (∀ (s : State) (p q : Fin 8), running s = true →
    exec (.spillReturn p q) s = .next (((queueOf s (96 + p) q).take 32).foldl (fun s x =>
      match frameOf s x.h with
      | some f => if f.spilled ∧ f.cells ≤ cellsFree s then fcCheck (setFrame s x.h (some { f with spilled := false })) f.ing else s
      | none => s) (begin_ s)))

/-- While the device runs in a domain with a usable key and a mode that routes, HELLO_SEND sends a HELLO on every domain port
with link; without a usable key KEY_FAIL is set, nothing is sent and, where it was clear before, no peer stays known. A frame
that HELBER_RECEIVE brings on such a port goes through the checks: a malformed one or one of another domain changes nothing, one
that needs a CMAC and has a bad one counts RX_AUTH, and one whose number is not later than the last heard of its sender, unless
it is a HELLO of an unknown peer, counts RX_REPLAY; the others leave their number, and those for this node or for all are handled
by type. PEER_LOST_TIMEOUT makes a known peer LOST and raises HLB_LOST; PEER_ABSENT_TIMEOUT makes a LOST one ABSENT. PULL_SEND
sends a pull to a joined or version-isolated peer with a newer revocation list, at most once in 10 s. It rests on readings of the
model (log entry 59). (R539, R541, R542, R543, R544, R558) -/
def Obligations.HelberMembership : Prop :=
  (∀ s : State, running s = true → hlbKind s ≠ 0 → hlbKeyOk s = true → routing s = true →
    exec .helloSend s = .next ((domainPorts s).foldl (fun s p => hlbSend s p 1 0xFFFF (helloBytes s))
      { begin_ s with hlb := { s.hlb with keyFail := false } })) ∧
  (∀ s : State, running s = true → hlbKind s ≠ 0 → hlbKeyOk s = false →
    ∃ t, exec .helloSend s = .next t ∧ t.hlb.keyFail = true ∧ t.out.helber = [] ∧
      (s.hlb.keyFail = false → ∀ n, known (peerOf t n) = false)) ∧
  (∀ (s : State) (p : Fin 8) f, running s = true → hlbKind s ≠ 0 → hlbKeyOk s = true → routing s = true → domainPort s p = true →
    exec (.helberReceive p f) s = .next (hlbTake { begin_ s with hlb := { s.hlb with keyFail := false } } p f)) ∧
  (∀ (s : State) p f, f.formOk = false ∨ f.domain ≠ rd s R_HLB_DOMAIN → hlbTake s p f = s) ∧
  (∀ (s : State) p f, f.formOk = true → f.domain = rd s R_HLB_DOMAIN → isForward f.body = false → frameCmacOk s f = false →
    hlbTake s p f = statInc s R_HLB_RX_AUTH) ∧
  (∀ (s : State) p f, f.formOk = true → f.domain = rd s R_HLB_DOMAIN → isForward f.body = true ∨ frameCmacOk s f = true →
    let x := peerOf s f.src.toNat
    let v := setPeer s f.src.toNat { x with seqRef := some f.seq }
    (∀ n, isHello f.body = false ∨ known x = true → x.seqRef = some n → seqLater f.seq.toNat n.toNat 32 = false →
      hlbTake s p f = statInc s R_HLB_RX_REPLAY) ∧
    ((isHello f.body = true ∧ known x = false) ∨ x.seqRef = none ∨ (∃ n, x.seqRef = some n ∧ seqLater f.seq.toNat n.toNat 32 = true) →
      hlbTake s p f = if f.dst = 0xFFFF ∨ f.dst.toNat = ownNode s then hlbBody v p f else v)) ∧
  (∀ (s : State) (n : BitVec 12), running s = true → known (peerOf s n.toNat) = true →
    exec (.peerLostTimeout n) s = .next (topoCheck (raise (setPeer (begin_ s) n.toNat { peerOf s n.toNat with st := .lost }) .hlbLost))) ∧
  (∀ (s : State) (n : BitVec 12), running s = true → (peerOf s n.toNat).st = .lost →
    exec (.peerAbsentTimeout n) s = .next (setPeer (begin_ s) n.toNat Peer.init)) ∧
  (∀ (s : State) (n : BitVec 12), running s = true → joined (peerOf s n.toNat) = true ∨ (peerOf s n.toNat).st = .isoVer →
    (rd s R_HLB_REV_SEQ).toNat < (peerOf s n.toNat).revSeq →
    tget 0 s.hlb.pulls n.toNat = 0 ∨ tget 0 s.hlb.pulls n.toNat - 1 + 10 * ticksPerS ≤ s.time.ticks →
    exec (.pullSend n) s = .next (hlbSendTo { begin_ s with hlb := { s.hlb with pulls := tset 0 s.hlb.pulls n.toNat (s.time.ticks + 1) } } n.toNat 7 []))

/-- While the device runs, PUSH_ACK_SEND of a blob with missing segments acknowledges it with the bitmap of them, and the blob
waits on; a complete one is handled, once, and acknowledged without any; a blob that was handled before is acknowledged, and for a
blob that is not held nothing is sent. BLOB_DISCARD forgets the blob. PUSH_RESEND_ROUND of a push with segments missing at a peer
sends them again, in three rounds at most; otherwise HLB_PUSH is answered, in the context it came in, with the number of peers that
miss none. A served HLB_MEMBERS gives at most 56 entries from FIRST on. A granted HLB_PUSH of a kind with a readable, permitted,
verified blob within its limit, with no push under way, sends all segments, applies the blob here, and is answered later. A served
TBL_READ of this node gives the entry; of a joined node it sends a QUERY and gives what came back, or RETRY where nothing did. It
rests on readings of the model (log entries 13, 45, 60). (R243, R554, R555, R556, R557, R562, R566) -/
def Obligations.HelberBlobsAndTables : Prop :=
  (∀ (s : State) (src : BitVec 12) id total img commitOk b, running s = true →
    let mine (b : BlobIn) : Bool := decide (b.src = src.toNat) && decide (b.id = id)
    let missing := (List.range total).filter fun k => ! b.segs.any fun x => decide (x.1 = k)
    s.hlb.blobs.find? mine = some b →
    (b.done = false → missing ≠ [] →
      exec (.pushAckSend src id total img commitOk) s = .next (hlbSendTo (begin_ s) src.toNat 6 (leBytes 4 id.toNat ++ missingMap missing))) ∧
    (b.done = false → missing = [] →
      exec (.pushAckSend src id total img commitOk) s = .next (hlbSendTo (applyBlob { begin_ s with hlb := { s.hlb with
        blobs := s.hlb.blobs.map fun b => if mine b then { b with done := true, segs := [] } else b } } b.kind (blobData b total) img commitOk)
        src.toNat 6 (leBytes 4 id.toNat ++ missingMap []))) ∧
    (b.done = true →
      exec (.pushAckSend src id total img commitOk) s = .next (hlbSendTo (begin_ s) src.toNat 6 (leBytes 4 id.toNat ++ missingMap [])))) ∧
  (∀ (s : State) (src : BitVec 12) id total img commitOk,
    s.hlb.blobs.find? (fun b => decide (b.src = src.toNat) && decide (b.id = id)) = none →
    exec (.pushAckSend src id total img commitOk) s = .next (begin_ s)) ∧
  (∀ (s : State) (src : BitVec 12) id, running s = true →
    exec (.blobDiscard src id) s = .next { begin_ s with hlb := { s.hlb with
      blobs := s.hlb.blobs.filter fun b => ! (decide (b.src = src.toNat) && decide (b.id = id)) } }) ∧
  (∀ (s : State) p, running s = true → s.hlb.push = some p → pushMissing p ≠ [] → p.rounds < 3 →
    exec .pushResendRound s = .next (hlbPushAll { begin_ s with hlb := { s.hlb with push := some { p with rounds := p.rounds + 1 } } }
      (pushSegs p (pushMissing p)))) ∧
  (∀ (s : State) p, running s = true → s.hlb.push = some p → pushMissing p = [] ∨ 3 ≤ p.rounds →
    exec .pushResendRound s = .next (answer (setCur { begin_ s with hlb := { s.hlb with push := none } } p.owed.ctx) p.owed.req 0x0C03 .ok
      (leBytes 2 (p.acks.filter fun x => decide (x.2 = some [])).length ++ leBytes 2 0))) ∧
  (∀ (s : State) r role (first : BitVec 16), Served 0x0C02 r role judgeHostAwake s →
    exec (.hlbMembers r first) s = .next (ok 0x0C02 r (audited 0x0C02 r role s)
      (let es := (((List.range 4096).filter fun n => decide (first.toNat ≤ n)).filterMap (memberEntry (heard 0x0C02 r role s))).take 56
       leBytes 2 es.length ++ leBytes 2 0 ++ es.flatten))) ∧
  (∀ (s : State) r role (kind : BitVec 8) (buf : BitVec 64) (len : Sys2Proof.Word) data img commitOk,
    let u := heard 0x0C03 r role s
    let b := padTo len.toNat data
    Granted 0x0C03 r role (judgeRight false (decide (kind.toNat ≠ 3)) false (decide (kind.toNat = 3)) (fun m => decide (m = .depot))) s →
    1 ≤ kind.toNat → kind.toNat ≤ 3 → judgeD u false buf.toNat len.toNat = none → len.toNat ≤ blobLimit kind.toNat → u.hlb.push = none →
    dmaUp u = true → blobOk u kind.toNat b img = true →
    exec (.hlbPush r kind buf len ⟨data, img⟩ commitOk true) s = .next (
      let v := admitted 0x0C03 r role s
      let n := (len.toNat + 1023) / 1024
      let p : PushOut := { owed := { req := r, ctx := v.disp.cur }, id := Config.freeWord v.fresh, kind := kind.toNat, data := b, segs := n,
                           rounds := 0, acks := [] }
      setCur (applyBlob (hlbPushAll { v with fresh := v.fresh + 1, hlb := { v.hlb with push := some p } } (pushSegs p (List.range n)))
        kind.toNat b img commitOk) none)) ∧
  (∀ (s : State) r role (table pipe : BitVec 8) (node : BitVec 16) (index : Sys2Proof.Word) (key : BitVec 64) rsp,
    let u := heard 0x0402 r role s
    Served 0x0402 r role judgeHostAwake s → table.toNat ≤ 7 → (table.toNat ≤ 2 → pipe.toNat ≤ 3) →
    (table = 2 → index.toNat = 2 ^ 32 - 1 → bf key 62 2 ≠ 3) → posOk table.toNat index.toNat = true →
    (node.toNat = ownNode u →
      exec (.tblRead r table pipe node index key rsp) s = .next (ok 0x0402 r (audited 0x0402 r role s)
        (readBytes (tblEntry u table.toNat (pipe.toNat % 4) index.toNat key)))) ∧
    (node.toNat ≠ ownNode u → node.toNat ≤ 4095 → hlbKind u ≠ 0 → joined (peerOf u node.toNat) = true → hlbUp u = true →
      (∀ found e, rsp = some (found, e) →
        exec (.tblRead r table pipe node index key rsp) s = .next (ok 0x0402 r
          (hlbSendTo (audited 0x0402 r role s) node.toNat 3 (queryBytes table pipe index key))
          (if found then leBytes 4 1 ++ padTo 32 (wordBytes e) else leBytes 36 0))) ∧
      (rsp = none →
        exec (.tblRead r table pipe node index key rsp) s = .next (answer
          (hlbSendTo (entered 0x0402 r role false .retry s) node.toNat 3 (queryBytes table pipe index key)) r 0x0402 .retry []))))

/-- A granted FW_LOAD of a permitted, readable, signed image of a security version from the FW_MIN that governs to 32 fills the
other slot and selects it; the recovery service takes it in the HOST context without a MAKER session. A granted FW_COMMIT keeps the
running slot and raises FW_MIN to its security version, and is FINAL at 32. A granted SYS_RESET of kind 0 resets right after its
answer on the ring, and orders a reset on quad-SPI, which SYS_RESET_DEADLINE brings. A granted LIFECYCLE_ADVANCE to the next
lifecycle, or to RETURN, with root and role keys where it goes to FIELD, burns its group; RETURN stays RETURN. A granted MAP_LOAD of
a readable map whose records all pass stores it and commits it; a granted MAP_READ writes the stored map, and a served TELEM_READ
the newest record, to a permitted buffer. A granted DIAG_LOOPBACK sets or ends the loopback of a target. It rests on readings of
the model (log entries 13, 23, 25, 27, 55, 58, 62). (R121, R122, R126, R528, R529, R530, R532, R534, R574, R586) -/
def Obligations.SystemCommands : Prop :=
  (∀ (s : State) r role (buf : BitVec 64) (len : Sys2Proof.Word) img,
    let u := heard 0x0120 r role s
    let b := ! u.boot.recovery && ! u.boot.slotB
    Granted 0x0120 r role judgeRecovery s → judgeD u false buf.toNat len.toNat = none → len.toNat ≤ 1048576 → dmaUp u = true →
    imageSigned u img = true → img.svn ≤ 32 → u.fuses.govFwMin ≤ img.svn →
    exec (.fwLoad r buf len img true) s = .next (let v := fillSlot (admitted 0x0120 r role s) b img
      ok 0x0120 r { v with fuses := { v.fuses with selB := b } } (leBytes 1 (b2n b) ++ leBytes 1 img.svn ++ leBytes 2 0))) ∧
  (∀ (s : State) r (buf : BitVec 64) (len : Sys2Proof.Word) img, running s = true → roomFor s r.chan = true → waiting s r.chan = [] →
    s.boot.recovery = true → r.session = 0 →
    let u := taken r s
    judgeD u false buf.toNat len.toNat = none → len.toNat ≤ 1048576 → dmaUp u = true →
    imageSigned u img = true → img.svn ≤ 32 → u.fuses.govFwMin ≤ img.svn →
    exec (.fwLoad r buf len img true) s = .next (let v := fillSlot u false img
      ok 0x0120 r { v with fuses := { v.fuses with selB := false } } (leBytes 1 0 ++ leBytes 1 img.svn ++ leBytes 2 0))) ∧
  (∀ (s : State) r role, let u := heard 0x0121 r role s
    Granted 0x0121 r role judgeMaker s →
    (u.fuses.govFwMin ≠ 32 → exec (.fwCommit r) s = .next (let v := selectRunning (admitted 0x0121 r role s)
      let w := if v.boot.svn ≤ fwMin v then v else
        let b := burn v 3 (BitVec.ofNat 32 (2 ^ v.boot.svn - 1))
        if v.boot.svn = 32 then monoFinal b 3 else b
      ok 0x0121 r w (leBytes 1 (fwMin w) ++ leBytes 3 0))) ∧
    (u.fuses.govFwMin = 32 →
      exec (.fwCommit r) s = .next (answer (selectRunning (entered 0x0121 r role true .final s)) r 0x0121 .final []))) ∧
  (∀ (s : State) (n : Nat), 1 ≤ n → n ≤ 32 → fwMin s ≤ n → fwMin (burn s 3 (BitVec.ofNat 32 (2 ^ n - 1))) = n) ∧
  (∀ (s : State) r role, Granted 0x0122 r role judgeRecovery s → r.chan = .spi →
    exec (.sysReset r 0) s = .next (let v := admitted 0x0122 r role s
      ok 0x0122 r { v with boot := { v.boot with resetOrdered := some .spi } } [])) ∧
  (∀ (s : State) r role, Granted 0x0122 r role judgeRecovery s → r.chan = .ring →
    exec (.sysReset r 0) s = .next (let v := admitted 0x0122 r role s
      let w := ok 0x0122 r { v with boot := { v.boot with resetOrdered := some .ring } } []
      { warmCore w with out := w.out })) ∧
  (∀ s : State, running s = true → s.boot.resetOrdered = some .spi → exec .sysResetDeadline s = .next (warmCore (begin_ s))) ∧
  (∀ (s : State) r role (t : BitVec 8), let u := heard 0x0130 r role s
    let now := u.fuses.govLc.code
    Granted 0x0130 r role judgeMaker s → t.toNat ≤ 3 →
    (now ≠ 3 → t.toNat = now + 1 ∨ t.toNat = 3 →
      (t.toNat = 2 → u.vault.rootPresent = true ∧ roleKeyOk u 1 = true ∧ roleKeyOk u 2 = true ∧ roleKeyOk u 3 = true) →
      exec (.lifecycleAdvance r t) s = .next (let v := admitted 0x0130 r role s
        ok 0x0130 r (burn (if t.toNat = 2 then commitMakerKey v else v) 0 (lifecycleBits t.toNat)) [])) ∧
    (now = 3 → t.toNat = 3 → exec (.lifecycleAdvance r t) s = .next (ok 0x0130 r (audited 0x0130 r role s) []))) ∧
  (∀ (s : State), (lifecycle s).code ≤ 1 → (lifecycle (burn s 0 (lifecycleBits 2))) = .field) ∧
  (∀ (s : State), (lifecycle (burn s 0 (lifecycleBits 3))) = .return_) ∧
  (∀ (s : State) r role (buf : BitVec 64) (len : Sys2Proof.Word), let u := heard 0x0141 r role s
    Granted 0x0141 r role judgeHostAwake s → judgeD u true buf.toNat len.toNat = none → (storedMap u).length ≤ len.toNat → dmaUp u = true →
    exec (.mapRead r buf len) s = .next (
      ok 0x0141 r (dmaWrite (admitted 0x0141 r role s) buf.toNat (storedMap u)).2 (leBytes 4 (storedMap u).length))) ∧
  (∀ (s : State) r role (buf : BitVec 64) (len : Sys2Proof.Word) m, let u := heard 0x0140 r role s
    Granted 0x0140 r role judgeInstaller s → judgeD u false buf.toNat len.toNat = none → len.toNat ≤ 262144 → dmaUp u = true →
    len.toNat = mapLen m → mapCheck m 0 u = none → epochFinal u = false →
    exec (.mapLoad r buf len m true true) s = .next (let w := commitChange (setMap (admitted 0x0140 r role s) m)
      ok 0x0140 r (schedule { w with fresh := w.fresh + 1 } [] .map) (leBytes 6 (Config.freeNat w.fresh) ++ leBytes 2 0))) ∧
  (∀ (s : State) r role (buf : BitVec 64) t l, let u := heard 0x0D04 r role s
    Served 0x0D04 r role judgeHostAwake s → u.bgs.telRecords = t :: l → judgeD u true buf.toNat 1552 = none → dmaUp u = true →
    exec (.telemRead r buf) s = .next (
      ok 0x0D04 r (dmaWrite (audited 0x0D04 r role s) buf.toNat (telBytes t)).2 (leBytes 4 t.beat.toNat ++ leBytes 2 1552 ++ leBytes 2 0))) ∧
  (∀ (s : State) r role (e k : BitVec 8), let u := heard 0x0D03 r role s
    Granted 0x0D03 r role judgeInstaller s → e.toNat ≤ 103 → k.toNat ≤ 2 →
    (k ≠ 0 → (if e.toNat < 96 then decide ((laneOf u e.toNat).st = .active) else bit u R_PORT_STAT (e.toNat - 96) 0) = true ∧
      (loopOf u e.toNat ≠ 0 ∨ u.net.loop.length < 8)) →
    exec (.diagLoopback r e k) s = .next (ok 0x0D03 r (setLoop (admitted 0x0D03 r role s) e.toNat k.toNat) []))

/-- While the device runs, with room for the response and the request the oldest that waits, on any command: in the recovery
service a request that is no SYS_INFO, FW_LOAD or SYS_RESET of the HOST context is answered NOT_IN_MODE. Outside it, one of no
session is answered NO_SESSION; one whose tag fails is answered DENIED and counted, and the eighth in a row closes the session with
reason TAG_FAIL; one whose number is not later than the session's last is answered STALE; one without the right, or in a mode not
listed, is answered with that status, and a DENIED one of the HOST context is counted, one of a role entered in the ledger. A
command of a role that changes state and has no room for its ledger entry has no effect and is answered BUSY, counted in LDG_QFULL,
or FINAL where the ledger is final. It rests on readings of the model (log entries 44, 45). (R16, R33, R34, R35, R41, R392, R394,
R395, R528) -/
def Obligations.RefusedRequests : Prop :=
  ∀ (op : Nat) r judge body (s : State), running s = true → roomFor s r.chan = true ∨ acceptedHead s r.chan = true →
    (∀ w, (waiting s r.chan).head? = some w → w.opcode = op ∧ w.session = r.session ∧ w.seq = r.seq) →
    (s.boot.recovery = true → ¬ ((op = 0x0101 ∨ op = 0x0120 ∨ op = 0x0122) ∧ r.session = 0) →
      dispatch op r judge body s = answer (setCur (taken r s) none) r op .notInMode []) ∧
    (s.boot.recovery = false → heldCtx r s = none → dispatch op r judge body s = answer (taken r s) r op .noSession []) ∧
    (∀ c, s.boot.recovery = false → heldCtx r s = some c → c.role ≠ 0 →
      let x := sessOf s c.role
      let later := seqLater r.seq.toNat (lastHeard r c s).toNat 32
      (tagGood op r c = false →
        dispatch op r judge body s = (
          let u := setCur (statInc (taken r s) R_SYS_SESS_TAGFAIL) none
          let v := if ctxLive s r c then setSess u c.role { x with tagFails := x.tagFails + 1 } else u
          answer (if ctxLive s r c && decide (x.tagFails + 1 ≥ 8) then closeSession v c.role 4 else v) r op .denied [])) ∧
      (tagGood op r c = true → later = false →
        dispatch op r judge body s =
          answer (if ctxLive s r c then setSess (taken r s) c.role { x with tagFails := 0 } else taken r s) r op .stale []) ∧
      (∀ st, tagGood op r c = true → later = true → judge (noted r c.role s) c.role = some st →
        dispatch op r judge body s = answer (auditRefusal (endRun (noted r c.role s) c.role) c.role st op r) r op st []) ∧
      (tagGood op r c = true → later = true → op ≠ 0x0A01 → judge (noted r c.role s) c.role = none →
        let h := heard op r c.role s
        (body h).changes = true → ledgerLive h = true → ledgerRoom h = false →
        dispatch op r judge body s =
          if h.ledger.final then answer h r op .final [] else answer (statInc h R_LDG_QFULL) r op .busy [])) ∧
    (∀ c st, s.boot.recovery = false → heldCtx r s = some c → c.role = 0 → judge (noted r 0 s) 0 = some st →
      dispatch op r judge body s = answer (countHostDeny (noted r 0 s) 0 st) r op st [])

/-- Outside freeze an occurrence of an event source sets its pending bit, whatever its enable; one that finds the bit set counts a
repeat instead; in freeze it is held until the freeze ends. A one-word counter below all ones counts up by one and SAT is set by the
increment that reaches all ones, where it stays; adding n is n increments. A two-word counter counts across its words in the same
way. A host write to a register without a field that a host writes leaves the state as it was. It rests on readings of the model
(log entries 10, 11, 14). (R2, R10, R576, R582) -/
def Obligations.EventsAndCounters : Prop :=
  (∀ (s : State) (n : Nat), s.Inv → s.freeze.frozen = false → n < 256 →
    bit (raiseN s n) (R_EVT_PEND + 4 * (n / 32)) 0 (n % 32) = true ∧
    rd (raiseN s n) (R_EVT_EN + 4 * (n / 32)) = rd s (R_EVT_EN + 4 * (n / 32)) ∧
    rd (raiseN s n) (R_EVT_REPEAT + 4 * (n / 32)) =
      if bit s (R_EVT_PEND + 4 * (n / 32)) 0 (n % 32) then statNext (rd s (R_EVT_REPEAT + 4 * (n / 32)))
      else rd s (R_EVT_REPEAT + 4 * (n / 32))) ∧
  (∀ (s : State) (n : Nat), s.freeze.frozen = true → raiseN s n = { s with freeze := { s.freeze with held := s.freeze.held ++ [n] } }) ∧
  (∀ v : Sys2Proof.Word, v.toNat + 1 < 2 ^ 31 - 1 → (statNext v).toNat = v.toNat + 1) ∧
  (∀ v : Sys2Proof.Word, v.toNat + 1 = 2 ^ 31 - 1 ∨ v = 0xFFFFFFFF → statNext v = 0xFFFFFFFF) ∧
  (∀ (v : Sys2Proof.Word) (n : Nat), v.toNat < 2 ^ 31 - 1 ∨ v = 0xFFFFFFFF → statPlus v n = Nat.repeat statNext n v) ∧
  (∀ (s : State) (a i n : Nat), s.Inv → i < 8192 → (rdi s a i).toNat + (rdi s (a + 4) i).toNat * 2 ^ 32 + n < 2 ^ 63 - 1 →
    (rdi (stat2AddI s a i n) a i).toNat + (rdi (stat2AddI s a i n) (a + 4) i).toNat * 2 ^ 32 =
      (rdi s a i).toNat + (rdi s (a + 4) i).toNat * 2 ^ 32 + n) ∧
  (∀ (s : State) (off : Nat) (w : Sys2Proof.Word) h, hit s .H off = some h → h.row.rw = 0 → h.row.wl = 0 → h.row.w1c = 0 →
    h.row.wo = 0 → h.a ≠ R_PWR_WAKE_CAUSE → writeReg .H off w s = s)

/-- For a SEQ counter of width w, a is later than b exactly when (a - b) mod 2^w lies between 1 and 2^(w-1) - 1; equal
values are the case of difference 0, and a difference of 2^(w-1) or more is not later. (R15) -/
def Obligations.SequenceOrder : Prop :=
  ∀ a b w : Nat, 1 ≤ w → a < 2 ^ w → b < 2 ^ w →
    (seqLater a b w = true ↔ 1 ≤ ((a : Int) - b) % 2 ^ w ∧ ((a : Int) - b) % 2 ^ w ≤ 2 ^ (w - 1) - 1) ∧
    (((a : Int) - b) % 2 ^ w = 0 ↔ a = b) ∧
    ((2 : Int) ^ (w - 1) ≤ ((a : Int) - b) % 2 ^ w → seqLater a b w = false)
end

