-- ==== Sys2Proof/Machine/Pins.lean ====
section
/-! DEFINITION. The levels of the device's output pins (Table 2.5, R52, R56 to R59): what each pin group drives in the
state as it stands. -/

namespace Sys2Proof.Machine

/-- The output pins of Table 2.5, by group and number. -/
inductive Pin where
  | lane (n : Nat)
  | serdes (p : Nat)
  | phyLine (p : Nat)
  | phyMdc
  | phyRst (n : Nat)
  | phyMdio
  | dramCtl
  | dramData
  | peTx
  | peOd
  | hsIrq
  | flCs
  | flOther
  | tdo
  | wakeOut
  | bkEn (r : Nat)
  | fbExc (n : Nat)
  | spd (n : Nat)
  | cmpo (n : Nat)
  deriving DecidableEq, Repr

/-- What a pin shows: a level, no drive, or the traffic of its function. -/
inductive Drive where
  | low
  | high
  | highZ            -- neither driven nor biased by the device
  | pulled           -- high-impedance with the internal pull-up
  | released         -- an open drain that does not pull
  | idle             -- electrical idle of a transmitter
  | silent           -- a PHY that sends nothing
  | recessive        -- a lane transmitter that is on and holds no dominant level
  | active           -- the pin carries its function's signal
  deriving DecidableEq, Repr

/-- The column of Table 2.5 that applies to a pin. -/
inductive PinCol where
  | reset | freeze | off | run
  deriving DecidableEq, Repr

/-- The supply of a pin's domain is on. AON is alive in SENTRY and every awake mode; rail 0 is VCORE, 1 VIO, 2 VDDQ, 3
VANA, 4 VLANE. -/
def domainUp (s : State) : Pin → Bool
  | .lane _ => s.power.pg.getLsbD 4
  | .serdes _ => s.power.pg.getLsbD 3
  | .phyLine _ => s.power.pg.getLsbD 3
  | .peTx => s.power.pg.getLsbD 3
  | .fbExc _ => s.power.pg.getLsbD 3
  | .dramCtl => s.power.pg.getLsbD 2
  | .dramData => s.power.pg.getLsbD 2
  | .wakeOut => decide (s.power.phase ≠ .asleep) || decide (s.power.sleepIn = .sentry)
  | .bkEn _ => true
  | _ => vioUp s

/-- The column of Table 2.5 for a pin (R52): DORMANT whenever its supply is off, Freeze while the device is frozen, Reset
in the first start-up step, which ends with the reset.
Mark: DESIGN CHOICE (log entry 66). -/
def pinCol (s : State) (p : Pin) : PinCol :=
  if ! domainUp s p then .off
  else if s.freeze.frozen then .freeze
  else if s.power.phase ≠ .awake ∧ s.boot.step = 0 then .reset
  else .run

/-- HS_IRQ_N is pulled low while, in LEVEL mode on quad-SPI, a source is pending and unmasked (R510). -/
def irqLow (s : State) : Bool :=
  onSpi s && decide (fld s R_BRG_CFG 0 2 = 3) &&
  (List.range 8).any fun g => decide (rd s (R_EVT_PEND + 4 * g) &&& rd s (R_EVT_EN + 4 * g) ≠ 0)

/-- A level. -/
def levelOf (b : Bool) : Drive := if b then .high else .low

/-- The Reset column. -/
def pinReset (s : State) : Pin → Drive
  | .lane _ => .highZ
  | .serdes _ => .idle
  | .phyLine _ => .silent
  | .phyMdc => .low
  | .phyRst _ => .low
  | .phyMdio => .pulled
  | .dramCtl => .low
  | .dramData => .highZ
  | .peTx => .idle
  | .peOd => .released
  | .hsIrq => .released
  | .flCs => .high
  | .flOther => .highZ
  | .tdo => .highZ
  | .wakeOut => .low
  | .bkEn r => levelOf (s.power.en.getLsbD r)
  | .fbExc _ => .low
  | .spd _ => .low
  | .cmpo _ => .low

/-- The DORMANT column. -/
def pinOff (s : State) : Pin → Drive
  | .peOd => .released
  | .hsIrq => .released
  | .wakeOut => .low
  | .bkEn r => levelOf (s.power.en.getLsbD r)
  | .spd _ => .low
  | .cmpo _ => .low
  | _ => .highZ

/-- The pin while its function runs. Without a spill store its balls stay in their Reset state (R63), and on quad-SPI the
PCIe pins do (R61). -/
def pinRun (s : State) : Pin → Drive
  | .lane n =>
    let l := (laneOf s n).st
    if l = .off ∨ l = .shed then .highZ else if l = .active then .active else .recessive
  | .serdes p => if bit s R_PORT_STAT p 0 then .active else .idle
  | .phyLine p => if bit s R_PORT_STAT p 0 then .active else .silent
  | .phyMdc => .active
  | .phyRst n => levelOf (tget Port.init s.ports (4 + n)).phyRst
  | .phyMdio => .active
  | .dramCtl => if bit s R_SYS_PINSTAT 0 1 then .active else .low
  | .dramData => if bit s R_SYS_PINSTAT 0 1 then .active else .highZ
  | .peTx => if onSpi s || hostOff s then .idle else .active
  | .peOd => if onSpi s || hostOff s then .released else .active
  | .hsIrq => if irqLow s then .low else .released
  | .flCs => .active
  | .flOther => .active
  | .tdo => .active
  | .wakeOut => levelOf s.power.wakeOut
  | .bkEn r => levelOf (s.power.en.getLsbD r)
  | .fbExc n => if excOn s n then .active else .low
  | .spd n => levelOf (s.wheels.spd.getLsbD n)
  | .cmpo n => levelOf (s.wheels.cmpo.getLsbD n)

/-- The Freeze column: what it holds keeps what the pin had, and a lane transmitter holds no dominant level (R58). -/
def pinFreeze (s : State) : Pin → Drive
  | .lane _ => .recessive
  | .phyMdc => .low
  | .phyRst n => pinRun s (.phyRst n)
  | .phyMdio => .pulled
  | .tdo => .active
  | .wakeOut => levelOf s.power.wakeOut
  | p => pinReset s p

/-- What a pin shows (Table 2.5). -/
def pinLevel (s : State) (p : Pin) : Drive :=
  match pinCol s p with
  | .off => pinOff s p
  | .freeze => pinFreeze s p
  | .reset => pinReset s p
  | .run => pinRun s p

end Sys2Proof.Machine
end

