-- ==== Sys2Proof/Tests/Slice0.lean ====
section
/-! SUPPORT. A concrete state for every set of hypotheses of the obligations, ill-formed commands that the check refuses,
and commands run on small states. -/

open Sys2Proof Sys2Proof.Machine

namespace Sys2Proof.Tests

set_option Elab.async false

/-- The conjuncts of `Served`, as one test. -/
def servedB (op : Nat) (r : Req) (role : Nat) (judge : State → Nat → Option Status) (s : State) : Bool :=
  running s && roomFor s r.chan && (waiting s r.chan).isEmpty && ! s.boot.recovery && decide ((heldCtx r s).map Ctx.role = some role) &&
  (decide (role = 0) || (match heldCtx r s with
    | none => false
    | some c => tagGood op r c && seqLater r.seq.toNat (lastHeard r c s).toNat 32)) &&
  decide (judge (noted r role s) role = none)

theorem servedBy {op : Nat} {r : Req} {role : Nat} {judge : State → Nat → Option Status} {s : State}
    (h : servedB op r role judge s = true) : Served op r role judge s := by
  simp only [servedB, Bool.and_eq_true, Bool.or_eq_true, Bool.not_eq_true', decide_eq_true_eq, List.isEmpty_iff] at h
  obtain ⟨⟨⟨⟨⟨⟨h1, h2⟩, h3⟩, h4⟩, h5⟩, h6⟩, h7⟩ := h
  refine ⟨h1, .inl h2, ?_, h4, h5, fun hr c hc => ?_, h7⟩
  · intro w hw; simp [h3] at hw
  · rcases h6 with h6 | h6
    · exact absurd h6 hr
    · rw [hc] at h6
      simpa using h6

/-- The ledger has room for the entry of a command, where one exists. -/
def roomB (op : Nat) (r : Req) (role : Nat) (s : State) : Bool :=
  decide (role = 0) || decide (op = 0x0A01) || ! ledgerLive (heard op r role s) || ledgerRoom (heard op r role s)

theorem grantedBy {op : Nat} {r : Req} {role : Nat} {judge : State → Nat → Option Status} {s : State}
    (h : (servedB op r role judge s && roomB op r role s) = true) : Granted op r role judge s := by
  rw [Bool.and_eq_true] at h
  refine ⟨servedBy h.1, fun hr ho hl => ?_⟩
  have h8 := h.2
  simp only [roomB, Bool.or_eq_true, decide_eq_true_eq, Bool.not_eq_true'] at h8
  rcases h8 with ((h8 | h8) | h8) | h8
  · exact absurd h8 hr
  · exact absurd h8 ho
  · simp [hl] at h8
  · exact h8

/-- The invariant, as one test. -/
def invB (s : State) : Bool :=
  tabWf rfCold s.rf && tabWf (fun _ => (0 : Byte)) s.mem && decide (s.power.step ≤ 3) && decide (s.wheels.odo ≤ 2 ^ 48 - 1) &&
  decide (s.ledger.sec < 2 ^ 48) && decide (s.ledger.frac < 2 ^ 40) && decide (-6711 ≤ s.ledger.trim) && decide (s.ledger.trim ≤ 6711)

theorem invBy {s : State} (h : invB s = true) : s.Inv := by
  simp only [invB, Bool.and_eq_true, decide_eq_true_eq] at h
  obtain ⟨⟨⟨⟨⟨⟨⟨h1, h2⟩, h3⟩, h4⟩, h5⟩, h6⟩, h7⟩, h8⟩ := h
  exact ⟨⟨h1, h2, h3, h4⟩, ⟨h5, h6, h7, h8⟩⟩

/-- Registers written one after the other. -/
def wrs (l : List (Nat × Nat × Sys2Proof.Word)) (s : State) : State := l.foldl (fun s x => wri s x.1 x.2.1 x.2.2) s

/-- A slot of a type with usage bits and no parent. -/
def rootSlot (attr : Nat) (k : Nat) : Slot := { Slot.empty with attr := BitVec.ofNat 64 (attr + 2 ^ 41), gen := 1, key := List.replicate 32 (BitVec.ofNat 8 k) }

/-- A slot with a P-256 public key, for VERIFY. -/
def pubSlot (d : Nat) : Slot := { rootSlot (4 + 2 ^ 17) 0 with key := ecPublic d }

/-- The public key of the firmware images, and its hash as fuse words 24 to 31. -/
def fwPub : List Byte := List.replicate 64 3
def fwHashWords : List (Nat × Sys2Proof.Word) := (List.range 8).map fun j => (24 + j, BitVec.ofNat 32 (ofLeBytes (((sha256 fwPub).drop (4 * j)).take 4)))

/-- The device awake in APPROACH in the lifecycle FIELD, with its root and role keys, a ledger with its GENESIS entry, and a
host over PCIe with one window. -/
def sUp : State :=
  wrs [(R_SYS_HWIN_SIZE, 0, 0xFFFFF), (R_SYS_HWIN_CFG, 0, 7), (R_BRG_RING_CFG + 0x80, 0, 0x80000004), (R_BRG_RING_CFG + 0xA0, 0, 0x80000004)]
  { State.reset with
    power := { powerReset with phase := .awake, cur := .approach, recorded := .approach, en := 0x1F, pg := 0x1F, railWait := none }
    boot := { bootReset with mapValid := true, fusesDone := true }
    fuses := { fusesReset with words := [(0, 0x0101), (4, 0x11), (5, 0x22), (6, 0x33), (7, 0x44)] ++ fwHashWords, govLc := .field }
    vault := { vaultReset with
      rootPresent := true, slotsReady := true, storeOk := true, immob := false, mapHash := sha256 (mapBytes [])
      root := List.replicate 32 1, rootCheck := checkOf (List.replicate 32 1)
      slots := [(0, rootSlot 5 1), (1, rootSlot 3 2), (2, rootSlot 3 3), (3, rootSlot 6 4), (4, rootSlot 2 5),
        (8, pubSlot 6), (9, pubSlot 7), (10, pubSlot 8), (11, pubSlot 9),
        (40, rootSlot (2 + 2 ^ 10) 10)] }
    ledger := { ledgerReset with
      head := some 0, nextSeq := 1
      ring := [(0, .entry { seq := 0, late := false, restart := false, ltime := 0, payload := .genesis, mac := 0 })] } }

/-- The key of every test session. -/
def sKey : List Byte := List.replicate 16 7

/-- A request of an opcode on a channel in a session, with the tag of R33 under the test key. -/
def reqIn (op : Nat) (chan : Chan) (session : Nat) (seq : Nat) : Req :=
  let r : Req := { chan := chan, session := BitVec.ofNat 16 session, seq := BitVec.ofNat 32 seq, params := [], tag := 0 }
  { r with tag := BitVec.ofNat 128 (ofBeBytes (cmac sKey (reqBytes op r))) }

/-- A request on the command ring in the context of a role's session, whose ID is the role's code; HOST for role 0. -/
def reqOf (op role : Nat) : Req :=
  if role = 0 then { chan := .ring, session := 0, seq := 5, params := [], tag := 0 } else reqIn op .ring role 5

/-- The role's session is open. -/
def withSession (role : Nat) (s : State) : State :=
  setSess s role { Sess.closed with isOpen := true, id := BitVec.ofNat 16 role, chan := .ring, idleS := 60, key := sKey }

/-- The device awake in a mode. -/
def inMode (m : Mode) : State := { sUp with power := { sUp.power with cur := m, recorded := m } }

/-! ### Power -/

/-- The device with changed power state. -/
def withPower (f : Power → Power) (s : State) : State := { s with power := f s.power }

def sRail : State := withPower (fun p => { p with phase := .railPhase, railWait := some 0, en := 1, pg := 0 }) sUp
def sAsleep : State := withPower (fun p => { p with phase := .asleep, cur := .dormant, recorded := .dormant, en := 0, pg := 0 }) sUp
def sArmed : State :=
  wr (withPower (fun p => { p with alarmLeft := 32768, samples := [11000], vbat := 11500 }) sAsleep) R_PWR_WAKE_ARM 0x300

def atBoot (k : Nat) (warm : Bool) : State :=
  { sUp with
    power := { sUp.power with phase := .startup }
    boot := { bootReset with step := k, warm := warm } }

def fwGood : FwImage := { len := 4096, pub := fwPub, sigOk := true, svn := 1, version := 7 }
def fwBad : FwImage := { fwGood with sigOk := false }

def sVaultBad : State := { atBoot 2 false with boot := { (atBoot 2 false).boot with vaultBad := true } }
def sIsland3 : State := withPower (fun p => { p with phase := .island, lowEnergy := true }) (atBoot 3 false)
def sMapBad : State := { atBoot 5 false with map := [.entry 0 [] [] [] []] }
def sBare6 : State := { atBoot 6 false with vault := vaultReset }
def sPendQ : State := { atBoot 7 false with boot := { (atBoot 7 false).boot with qpend := [.fwSig] } }

def canWake : WakeCopy := { pers := 1, cfg := 3, id := 5, idm := 0x1FFFFFFF, dm0 := 0, dm1 := 0, swapped := false }
def sSentry : State :=
  let s := withPower (fun p => { p with phase := .asleep, cur := .sentry, recorded := .sentry, en := 0x10, pg := 0x10 }) sUp
  wr { s with aon := { aonReset with copies := [(5, some canWake)] } } R_PWR_WAKE_ARM 0xF

def sWakeErr : State :=
  { sSentry with
    aon := { aonReset with copies := [(5, some canWake), (6, some { canWake with cfg := 7 })] }
    lanes := [(5, { Lane.init with fec := 31 }), (6, { Lane.init with fec := 31 })] }
def sBrown : State :=
  withPower (fun p => { p with recorded := .rented, riseAuto := true, samples := [11000], vbat := 11500 }) sAsleep

def sWait (r : Fin 5) : State := withPower (fun p => { p with phase := .railPhase, railWait := some r.val }) sUp
/-- Rail 3 comes up beside the awaited one. -/
def sRailUp : State := withPower (fun p => { p with phase := .railPhase, railWait := some 4, en := 0x1F, pg := 0x07 }) sUp
def sRail3rd : State := withPower (fun p => { p with phase := .railPhase, railWait := some 1, railRetries := 2, en := 3, pg := 1 }) sUp
def sIdleHeld : State := wr sUp R_PWR_HOLD 4
def sSettle : State := withPower (fun p => { p with phase := .railPhase, railSettle := true }) sUp
def sIsland : State :=
  { withPower (fun p => { p with phase := .island, lowEnergy := true, pg := 0, en := 0 }) sUp with boot := { bootReset with step := 4 } }
def sSag : State := withPower (fun p => { p with vcSag := true, step := 1 }) sUp

/-- The device in a mode with two healthy trackers at rest. -/
def still (m : Mode) : State :=
  let s := wrs [(R_TT_CFG, 0, 1), (R_TT_CFG + 0x40, 0, 1)] (inMode m)
  { s with wheels := { s.wheels with tts := [(0, { Tracker.init with st := .sync }), (1, { Tracker.init with st := .sync })] } }

def aTrip : Trip := { tripRef := 7, tokenId := 9, drive := true, src := 0 }
def withTrip (s : State) : State :=
  { s with ledger := { s.ledger with
    trip := some aTrip
    interval := some { num := 0, lOpen := 0, lEnd := 0, aligned := false, bound := 0, tariff := 0, distAt := 0, openBeat := 0 } } }
def sTrip : State := { withTrip (still .rented) with nfc := { nfcReset with startFrm := [0, 5, 0, 0, 0, 0] } }
def sDriving : State :=
  let s := withTrip (still .drive)
  { s with
    nfc := { nfcReset with stopFrm := [0, 5, 0, 0, 0, 0] }
    wheels := { s.wheels with tts := [(0, { Tracker.init with st := .sync, moving := true }), (1, { Tracker.init with st := .sync })] } }

def sStopped : State := { withTrip (still .drive) with vault := { (still .drive).vault with toRented := true } }

def sGate : State := { wr sUp R_PWR_GATE_CLK 4 with power := { sUp.power with gates := [(2, .pending)] } }
def sHeld : State := { wr sUp R_PWR_HOLD 0xC with power := { sUp.power with gates := [(2, .pending)] } }

/-! ### Time and background -/

def sOwed : State := { sUp with time := { timeReset with ageOwed := true } }
def aTel : TelRec := { beat := 3, samples := 8, missing := 0, gauges := [] }
def sTel : State := { sUp with bgs := { bgsReset with telDue := some aTel } }
def sDom : State :=
  { wrs [(R_TIME_D_SERVO, 0, 0x00140064), (R_TIME_D_CFG, 0, 0x02000003), (R_PORT_STAT, 1, 3), (R_TRG_CFG + 0x20 * 4, 0, 1), (R_TRG_CFG + 0x20 * 5, 0, 1),
      (R_TRG_CFG + 0x20 * 6, 0, 1), (R_TRG_CFG + 0x20 * 7, 0, 0x80000001)] sUp with
    time := { timeReset with doms := [(0, { Dom.init with st := .locked }), (1, { Dom.init with st := .holdover, holdTicks := (2 ^ 32 - 1) * 250000 })]
                             trgs := [(6, (1000000, 0))] } }
/-- Channel 4 was armed past its target. -/
def sDomPast : State := { sDom with time := { sDom.time with trgPast := [(4, true)] } }
def sFrzArm : State := { sUp with freeze := { freezeReset with armed := true, armRole := 2, armEnd := 1000 } }
def sFrozen : State := { sUp with freeze := { freezeReset with frozen := true, snapAddr := regBase } }
/-- The window of the arming has ended. -/
def sFrzOver : State := { sFrzArm with freeze := { sFrzArm.freeze with armEnd := 0 } }
/-! ### Configuration and tables -/

/-- An INSTALLER session in SERVICE, lane 0 ACTIVE. -/
def sInst : State := { withSession 2 (inMode .service) with lanes := [(0, { Lane.init with st := .active })] }

def imgLane : List Sys2Proof.Word :=
  [2, 0, 0, 0, 19200, 0x00200800, 0xC8800064, 0, 0, 0, 0, 0] ++ List.replicate 16 0 ++ [0x100A, 1522]
def imgPort : List Sys2Proof.Word := [0x00051000, 0xFFFF, 0x006403E8, 0x00640000, 1522]
def imgSw : List Sys2Proof.Word := [0, 0, 0xF800, 0xC000, 0x8000]
def imgPol : List Sys2Proof.Word := [0, 10, 20, 0x00050005]
def schParam : SchParam := .images 2 [1000]
def imgLa : List Sys2Proof.Word := [0x80004400, 16, 0]
def imgReq : List Sys2Proof.Word := [0, 5, 0, 0, 0, 0]
def imgFrm : List Sys2Proof.Word := [255, 0, 0, 0, 255, 0, 0, 0, 255, 0, 0, 0, 255, 0, 0, 0]
def imgTt : List Sys2Proof.Word := [0x3C000001, 0x1E02]
def hashWords : List Sys2Proof.Word := [1, 0, 1, 0, 0, 0, 0, 0]
def sBatch : State := { sInst with tables := { tablesReset with batchBy := some (.ring, 2) } }
def sBatch0 : State := { inMode .rented with tables := { tablesReset with batchBy := some (.ring, 0) } }

def sBatch2 : State := { sInst with tables := { tablesReset with batchBy := some (.ring, 2), batch := [(true, .tblWrite 2 1 1 0 hashWords)] } }

/-! ### Lanes and ports -/

/-- A queue entry of a frame. -/
def ent (h : Nat) : QEnt := { h := h, verified := true, rsq := true, paid := false, launch := none, trig := false }

def sLanes : State :=
  let s := wrs [(R_LANE_CFG, 0, 1), (R_LANE_CFG, 1, 1), (R_LANE_CFG, 2, 0x43), (R_LANE_PLCA, 2, 0x00200801), (R_LANE_CFG, 5, 0x22),
    (R_LANE_LSCH, 5, 0x0309)] (inMode .rented)
  { s with
    lanes := [(0, { Lane.init with st := .rxOnly, probe := true }), (1, { Lane.init with st := .fault }),
      (2, { Lane.init with st := .active }), (3, { Lane.init with st := .active, swapPend := true }), (4, { Lane.init with st := .busOff }),
      (5, { Lane.init with st := .active }), (6, { Lane.init with st := .active, backoff := true })]
    net := { netReset with egrs := [(2, { Egr.init with tx := some (0, ent 1) })] } }
def sLatched : State := { sInst with lanes := [(7, { Lane.init with st := .latched })] }

def sPorts : State :=
  let s := wrs [(R_PORT_STAT, 1, 3), (R_PORT_STAT, 2, 1), (R_PORT_STAT, 3, 3), (R_PORT_CFG, 1, 0x00010001), (R_PORT_CFG, 3, 0x00010001),
    (R_PORT_LPI_CFG, 1, 0x8064001E), (R_PORT_LPI_CFG, 3, 0x8064001E), (R_PORT_LPI_STAT, 3, 8), (R_PORT_PAUSE_STAT, 1, 0x0101)] (inMode .rented)
  { s with ports := [(0, { Port.init with upWait := true })] }
def sLpi : State := orReg sPorts R_PORT_LPI_STAT 3 2
/-- Lane 7 is a CAN lane in LATCHED. -/
def sLatched7 : State := wrs [(R_LANE_CFG, 7, 1)] sLatched
/-- Lane 0 may exchange its wires. -/
def sSwapEn : State := wrs [(R_LANE_CFG, 0, 0x101)] sLanes
/-- The LIN schedule of lane 5 has ended. -/
def sLinEnd : State := setLane sLanes 5 { laneOf sLanes 5 with linSlot := 32 }
/-- Lane 2 without its beacon, and before its last attempt. -/
def sColl : State := setLane sLanes 2 { laneOf sLanes 2 with fallback := true }
def sColl15 : State := setLane sLanes 2 { laneOf sLanes 2 with attempts := 15 }
/-- Port 1 in the quiet period of two priorities, one of them asserted again. -/
def sQuiet : State :=
  let s := setPort sPorts 1 { portOf sPorts 1 with txQuiet := 0x81 }
  { s with net := { s.net with fcAss := [(1, 1)] } }
/-- Port 3 agreed to 100 microseconds and is asked for less. -/
def sAgreed : State :=
  let s := wrs [(R_PORT_LPI_STAT, 3, 0xFFFF0008)] sPorts
  setPort s 3 { portOf s 3 with twNext := some 30 }

/-! ### Sessions, ledger, vault -/

/-- Role 1 has an outstanding challenge. -/
def sChal : State := setSess sUp 1 { Sess.closed with chal := some (List.replicate 32 4) }
def sChalValue : BitVec 256 := BitVec.ofNat 256 (ofLeBytes (List.replicate 32 4))
def sChalUid : BitVec 128 := BitVec.ofNat 128 (uidNum sUp)

def aEntry (k : Nat) : Entry := { seq := k, late := false, restart := false, ltime := 0, payload := .genesis, mac := 0 }
def sLdg : State := { sUp with ledger := { sUp.ledger with queue := [aEntry 0] } }
def sFull : State :=
  { withSession 1 sUp with ledger := { sUp.ledger with queue := List.replicate 64 (aEntry 0) } }
def sOp : State := setSess (withSession 1 sUp) 1 { sessOf (withSession 1 sUp) 1 with lastSeq := 3 }
def sOsc : State := sUp
/-- The last sequence number is next. -/
def sLastSeq : State := { sLdg with ledger := { sLdg.ledger with nextSeq := 2 ^ 48 - 1 } }
/-- A summary of refusals was written 60 s ago. -/
def sDenied : State := { sUp with deny := { sUp.deny with lastSec := some 40 }, ledger := { sUp.ledger with sec := 100 } }
/-- The oscillator monitor has counted its 1,024 periods. -/
def sAsleep1024 : State := withPower (fun p => { p with oscPeriods := 1024 }) sAsleep
def sLast : State := { sUp with ledger := { sUp.ledger with sec := 2 ^ 48 - 1, frac := 2 ^ 40 - 1 } }

/-- The transport key's slot KS002 may update, and an update message for slot 100 under it. -/
def sUpd : State :=
  { sUp with vault := { sUp.vault with slots := tset Slot.empty sUp.vault.slots 2 (rootSlot (3 + 2 ^ 19) 3) } }
def msgBase : KeyMsg :=
  { ver := 1, op := 1, target := 100, auth := 2, rsv6 := 0, ucnt := 1, attr := 1, uid := sChalUid, iv := List.replicate 12 1, klen := 16,
    rsv2E := 0, eph := ecPublic 3, key := List.replicate 16 9, tag := [], sig := [], commitOk := true }
/-- A message on the transport path with its GCM tag and the MAKER's signature. -/
def msgOf (b : KeyMsg) : KeyMsg :=
  let m := { b with tag := gcmTag (msgKey sUpd b) b.iv b.head b.key }
  { m with sig := ecdsaSign 8 5 m.signed }
/-- WRITE of slot 100, GENERATE in slot 511 with the last update count, and INVALIDATE of slot 40. -/
def msgGood : KeyMsg := msgOf msgBase
def msgGen : KeyMsg := msgOf { msgBase with op := 2, target := 511, klen := 0, key := [], ucnt := 0xFFFFFFFF }
def msgInv : KeyMsg := msgOf { msgBase with op := 3, target := 40, attr := 0, klen := 0, key := [] }
/-- A wrong version. -/
def msgBad : KeyMsg := { msgGood with ver := 2 }
/-- No root, before the first provisioning, with a MAKER session. -/
def sBare : State :=
  let s := withSession 3 sUp
  { s with
    boot := { s.boot with rootAbsent := true }
    fuses := { fusesReset with govLc := .manufacture }
    vault := { vaultReset with slotsReady := true } }

/-! ### Cipher engines -/

def jobDesc : BulkDesc :=
  { mode := 1, flags := 0, taglen := 16, kgen := 0, jobId := 1, src := 0, dst := 0, len := 64, aadlen := 0, slot := 0, aad := 0, iv := 0, tag := 0 }
def sJob : State :=
  wrs [(R_CIPH_RING_CFG, 0, 4), (R_CIPH_SQ_TAIL, 0, 1), (R_CIPH_KCTL, 0, 0x10001)] sUp
def sBusyEng : State := { sJob with cipher := { cipherReset with engs := [(0, { Eng.init with job := some { vault := true, desc := jobDesc, key := List.replicate 16 0 } })] } }
def sBusyN : State := { sJob with power := { sJob.power with jobs := [(0, true)] }, cipher := { cipherReset with engs := [(0, { Eng.init with job := some { vault := false, desc := jobDesc, key := List.replicate 16 0 } })] } }
/-- Three of the four words of a 128-bit key are written. -/
def sKeyw : State :=
  { wrs [(R_CIPH_KCTL, 0, 1)] sUp with cipher := { cipherReset with engs := [(0, { Eng.init with written := 7 })] } }
/-- A STORE key and a bulk key with every usage their engines have. -/
def sStore : State :=
  { sUp with vault := { sUp.vault with slots := sUp.vault.slots ++ [(43, rootSlot (6 + 2 ^ 6 + 2 ^ 12 + 2 ^ 13) 12), (44, rootSlot (1 + 2 ^ 4 + 2 ^ 12 + 2 ^ 13) 13)] } }

/-! ### Phone entry -/

def sField : State := { sUp with nfc := { nfcReset with field := true, selected := 1 } }
def sWindow : State := { sUp with nfc := { nfcReset with field := true, window := true } }
/-- A response is owed, after and before the window closed. -/
def sOwing : State := { sField with nfc := { sField.nfc with apdu := some (.read 0 0) } }
def sOwing2 : State := { sWindow with nfc := { sWindow.nfc with apdu := some (.read 0 0) } }
def tagAcc : Access := { addr := 0x6000000, words := [1], enables := [] }
def sSubmit : State := { sUp with nfc := { nfcReset with ex := .busy } }
def sReady : State := { sUp with nfc := { nfcReset with field := true, ex := .ready, chal := true } }
def grantOpen : Grant := { path := 0, request := 1, rights := 1, tripRef := 7, tokenId := 9 }
def sPend : State := { sUp with nfc := { nfcReset with pending := some grantOpen } }
/-- Wall time is set. -/
def sCred : State := { sUp with ledger := { sUp.ledger with wallValid := true } }
/-- The first 0x78 bytes of a token for this device, of the holder whose scalar is 6. -/
def tokHead : List Byte :=
  [1, 0, 0, 1] ++ [0, 0, 0, 0] ++ [0, 0, 0, 0, 0, 0, 0, 9] ++ uidBytes sUp ++ List.replicate 6 0 ++ List.replicate 6 255 ++
    List.replicate 4 0 ++ [0, 0, 0, 0, 0, 0, 0, 7] ++ ecPublic 6
/-- A credential that opens trip 7 under token 9: the token signed under KS011, the proof by its holder. -/
def credOpen : Cred :=
  { path := 0, req := 1, token := tokHead ++ ecdsaSign 9 11 tokHead, chal := List.replicate 32 4, chalOk := true
    proof := ecdsaSign 6 13 (ascii "KWENTRY" ++ uidBytes sUp ++ List.replicate 32 4 ++ [1]) }

/-- The same credential in a mode with no offer to rent. -/
def sCredR : State := { inMode .rented with ledger := sCred.ledger }

/-! ### Wheels and feedback -/

def sSync : State :=
  let s := wrs [(R_TT_CFG, 0, 0x3C000009), (R_ANG_EVT_LO + 24, 0, 0x08001401)] (inMode .rented)
  { s with
    time := { timeReset with ticks := 1000 }
    wheels := { s.wheels with tts := [(0, { Tracker.init with st := .sync, seen := true, p1 := 1000, tooth := 5 }), (1, { Tracker.init with st := .fault }),
      (2, { Tracker.init with st := .search })] } }
/-- The same long after its last tooth. -/
def sStall : State := { sSync with time := { sSync.time with ticks := 200000000 } }
/-- An intolerant tracker 0 sees a tooth five times too late. -/
def sSlip : State :=
  let s := wrs [(R_TT_CFG, 0, 0x3C000001)] sSync
  { s with time := { s.time with ticks := 5000 } }
def sFb : State :=
  let s := wrs [(R_FB_BOLT_CFG, 0, 4), (R_FB_BOLT_CFG + 0x20, 0, 0xC), (R_FB_BOLT_CFG + 0x40, 0, 9), (R_FB_BOLT_CFG2 + 0x40, 0, 0x00321E00),
    (R_FB_CFG2, 0, 0x800200C8), (R_FB_CFG2 + 0x200, 0, 0x800200C8)] (inMode .rented)
  { s with wheels := { s.wheels with
      fbs := [(0, { FbChan.init with valid := true, known := true })], pulses := 8
      bolts := [(0, { Bolt.init with st := .releasing }), (1, { Bolt.init with want := some false }), (2, { Bolt.init with st := .released })] } }
/-- The same in SERVICE with an INSTALLER session, two trackers at rest. -/
def sFbInst : State :=
  let s := wrs [(R_TT_CFG, 0, 1), (R_TT_CFG + 0x40, 0, 1)] { sFb with power := { sFb.power with cur := .service, recorded := .service } }
  withSession 2 { s with wheels := { s.wheels with tts := (still .service).wheels.tts } }

/-! ### Host bridge -/

def sSem : State := wr sUp (R_BRG_SEM_STAT + 0x20) 0x80120003
/-- Its lease has not ended. -/
def sSemHeld : State := { sSem with bridge := { sSem.bridge with lease := [(1, 1000)] } }
def regAcc : Access := { addr := regBase + R_PWR_TIMERS, words := [120], enables := [] }
def sPcie : State := sUp
def sSpi : State := wr sUp R_BRG_STAT 0x200
def aRsp : Rsp := { opcode := 0x0101, seq := 5, session := 0, status := .ok, key := none, params := [] }
def sSpiRsp : State := { sSpi with disp := { dispReset with spiRsp := [aRsp] } }
/-- Four requests wait on SPI. -/
def sSpiFull : State := { sSpi with disp := { dispReset with spiReq := List.replicate 4 { opcode := 0x0101, session := 0, seq := 1, accepted := false, ctx := none } } }
/-- The response of a SYS_RESET waits on SPI. -/
def sSpiReset : State :=
  { sSpi with disp := { dispReset with spiRsp := [{ aRsp with opcode := 0x0122 }] }, boot := { sSpi.boot with resetOrdered := some .spi } }
/-- The registers marked WL are locked. -/
def sLocked : State := wr sSpi R_SYS_LOCK 1
def ringOn_ (r : Nat) : List (Nat × Nat × Sys2Proof.Word) := [(R_BRG_RING_CFG + 0x20 * r, 0, 0x80000004)]
def sRings : State :=
  wrs (ringOn_ 0 ++ ringOn_ 1 ++ ringOn_ 4 ++ ringOn_ 5 ++ [(R_BRG_RING_PROD, 0, 1), (R_BRG_RING_PROD + 0x80, 0, 1)]) (inMode .rented)
def hpDesc : HpDesc := { buf := 0x1000, len := 64, ftype := 0, flags := 0, prof := 0, rsvd := 0, hostchk := 0, tag := 1, ltime := 0 }
def hpBytes : List Byte := List.replicate 64 0

/-- The descriptor under semaphore 1; semaphore 1 taken; and APPROACH, where HP sends nothing. -/
def hpLocked : HpDesc := { hpDesc with flags := 0x80, prof := 0x1000 }
def sRingsSem : State := { wr sRings (R_BRG_SEM_STAT + 0x20) 0x80120003 with bridge := { sRings.bridge with lease := [(1, 1000)] } }
def sRingsAppr : State := { sRings with power := { sRings.power with cur := .approach, recorded := .approach } }
/-- A stored frame with its right carry check. -/
def frameWith (c : Content) : Frame :=
  { time := 0, node := 0, ing := 0, xform := 0, content := c, stream := 0, strEn := false, action := 0
    carry := carryOver (leBytes 8 0 ++ leBytes 2 0 ++ leBytes 1 0) (carried c)
    colour := .green, ce := false, seq := none, vid := 0, cells := 1, ref := 1, owner := .egr 0, cap := Capture.none, mcast := false, untag := 0, charge := 0, spilled := false, sample := [],
    bad := false, lost := 0 }
def canFrame : Frame := frameWith (.can 5 false false false false 2 [0xAA, 0xBB])
def ethFrame : Frame := frameWith (.eth (List.replicate 60 0))
/-- A lane whose back-off ends, its frame still to be sent. -/
def sRetry : State := setFrame (setLane sLanes 2 { laneOf sLanes 2 with backoff := true }) 1 (some (frameWith (.eth (List.replicate 60 0))))

def sHpRx : State :=
  let s := wrs (ringOn_ 2 ++ ringOn_ 3 ++ [(R_BRG_RING_PROD + 0x40, 0, 1)]) (inMode .rented)
  { s with net := { netReset with frames := [(1, some ethFrame)], nextH := 2, queues := [(104 * 8 + 3, [ent 1])] } }
def sMsix : State := wrs [(R_BRG_CFG, 0, 2), (R_EVT_PEND, 0, 1), (R_EVT_EN, 0, 1)] sUp

/-! ### The switch -/

def rxBad : RxFrame :=
  { ing := 0, content := .can 5 false false false false 2 [0xAA, 0xBB], ok := false, stuck := none, pipe := 0, colour := 0,
    launch := none, prof := none, lock := none }
def sRx : State :=
  let s := wrs [(R_LANE_CFG, 0, 1), (R_PORT_STAT, 1, 3)] (inMode .rented)
  { s with
    lanes := [(0, { Lane.init with st := .active })]
    tables := { tablesReset with can := [(5, 5)] } }
def sLoop : State := { sRx with net := { netReset with loop := [(0, 1)] } }
def sStuck : State := { sRx with net := { netReset with stuck := [{ p := 2, ing := 7, cells := 3, prio := 0 }] } }
def sLa : State :=
  let s := wrs [(R_CIPH_LA_CFG, 3, 0xC0292200), (R_CIPH_LA_WIN, 3, 16)] sUp
  { s with vault := { s.vault with slots := tset Slot.empty s.vault.slots 41 (rootSlot (2 + 2 ^ 7 + 2 ^ 15) 11) } }
def sLine : State :=
  let s := wrs [(R_LANE_CFG, 3, 1), (R_LANE_CFG, 30, 2), (R_PORT_STAT, 2, 3)] (inMode .rented)
  { s with lanes := [(3, { Lane.init with st := .active }), (30, { Lane.init with st := .active })] }
def sTx : State :=
  { sLine with net := { netReset with
      frames := [(1, some canFrame), (2, some ethFrame)], nextH := 3
      egrs := [(3, { Egr.init with tx := some (0, ent 1) }), (98, { Egr.init with tx := some (0, ent 2) })] } }
def sQd : State := { sLine with net := { netReset with frames := [(1, some canFrame)], nextH := 2, queues := [(25, [ent 1])] } }
def sLaunch : State :=
  { sLine with
    time := { timeReset with ticks := 1000 }
    net := { netReset with frames := [(1, some ethFrame)], nextH := 2, queues := [(97 * 8 + 2, [{ ent 1 with launch := some { dom := 3, ns := 0 } }])] } }
def sLin : State :=
  { sLine with
    tables := { tablesReset with lin := [(1929, BitVec.ofNat 53 (1 + 2 ^ 48)), (1930, 1)] }
    net := { netReset with frames := [(1, some (frameWith (.lin 9 [1, 2])))], nextH := 2, queues := [(240, [ent 1])] } }
/-- Its lane as a commander. -/
def sLinCmd : State := wrs [(R_LANE_CFG, 30, 0x22)] sLin
/-- Both egresses looped back, with frames as they are and with a converted one. -/
def sTxLoop : State := { sTx with net := { sTx.net with loop := [(3, 1), (98, 1)] } }
def sTxConv : State := { sTxLoop with net := { sTxLoop.net with frames := [(1, some { canFrame with xform := 1 })] } }
/-- The last policer is on. -/
def sPol : State := wrs [(R_POL_CFG, 4095, 4), (R_POL_CIR, 4095, 10), (R_POL_PIR, 4095, 20), (R_POL_BS, 4095, 0x00050005)] (inMode .rented)
def sCarry : State :=
  { sLine with net := { netReset with frames := [(1, some canFrame)], nextH := 2, queues := [(25, [{ ent 1 with verified := false }])] } }
/-- The frame spilled badly; and an unverified frame for HP. -/
def sCarryBad : State := { sCarry with net := { sCarry.net with frames := [(1, some { canFrame with bad := true })] } }
def sCarryHp : State := { sCarry with net := { sCarry.net with queues := [(104 * 8 + 1, [{ ent 1 with verified := false }])] } }
def sRsq : State :=
  { sLine with
    time := { timeReset with ticks := 250000 }
    net := { netReset with
      frames := [(1, some { ethFrame with seq := some 1 })], nextH := 2
      ctxs := [(5 * 128 + 97, some { next := 0, slots := [(1, some (.held 1 0))], hist := 0 }),
        (6 * 128 + 97, some { next := 0, slots := [], hist := 0 })] } }
def sSpill : State :=
  let s := wrs [(R_SYS_PINSTAT, 0, 2), (R_SW_MODE, 0, 1), (R_SW_PG_SHI, 0, 0)] (inMode .rented)
  { s with net := { netReset with frames := [(1, some ethFrame)], nextH := 2 } }

/-! ### The Helber domain and the system commands -/

def sHlb : State :=
  let s := wrs [(R_HLB_CFG, 0, 0x01010001), (R_HLB_KEYSLOT, 0, 40), (R_PORT_STAT, 0, 3)] (inMode .rented)
  { s with hlb := { hlbReset with
      peers := [(5, { Peer.init with st := .member, seqRef := some 9, revSeq := 1 }), (6, { Peer.init with st := .lost })] } }
/-- A PULL of peer 5 for node 77, with its CMAC under the domain key. -/
def hlbFrm : HlbFrame :=
  let f : HlbFrame := { formOk := true, src := 5, dst := 77, domain := 0, seq := 10, tag := 0, station := none, body := .pull }
  { f with tag := BitVec.ofNat 128 (ofBeBytes (hlbCmac sHlb ([0x01, 7] ++ leBytes 2 5 ++ leBytes 2 77 ++ leBytes 2 0 ++ leBytes 4 0 ++ leBytes 4 10))) }
/-- An unverified frame for a cluster port. -/
def sCarryHlb : State := { sHlb with net := { netReset with frames := [(1, some canFrame)], nextH := 2, queues := [(96 * 8 + 1, [{ ent 1 with verified := false }])] } }
def sHlbKey : State := wr sHlb R_HLB_KEYSLOT 42
def sBlob : State :=
  { sHlb with hlb := { sHlb.hlb with blobs := [{ src := 5, id := 8, kind := 1, segs := [(0, [1])], done := false },
      { src := 5, id := 9, kind := 1, segs := [], done := true }] } }
def aPush (missing : List Nat) : PushOut :=
  { owed := { req := reqOf 0x0C03 1, ctx := none }, id := 1, kind := 1, data := List.replicate 2000 0, segs := 2, rounds := 0, acks := [(5, some missing)] }
def sPush : State := { sHlb with hlb := { sHlb.hlb with push := some (aPush [1]) } }
def sPushed : State := { sHlb with hlb := { sHlb.hlb with push := some (aPush []) } }
def sPushIn : State := withSession 1 (inMode .depot)
def sMaker : State :=
  withSession 3 { inMode .service with fuses := { fusesReset with words := (4, 0x11) :: fwHashWords, govLc := .manufacture } }
/-- The same on SPI; with the last FW_MIN; in PROVISION with a root; and in RETURN. -/
def sMakerSpi : State := wr (setSess sMaker 3 { sessOf sMaker 3 with chan := .spi }) R_BRG_STAT 0x200
def sMakerFinal : State := { sMaker with fuses := { sMaker.fuses with govFwMin := 32 } }
def sMaker1 : State := { sMaker with fuses := { sMaker.fuses with govLc := .provision } }
def sMaker3 : State := { sMaker with fuses := { sMaker.fuses with govLc := .return_ } }
def sLcBlank : State := { sMaker with fuses := fusesReset }
/-- Recovery, where the host may load firmware without a session. -/
def sRecovery : State := { sUp with boot := { sUp.boot with recovery := true } }
def sTelRec : State := { sUp with bgs := { bgsReset with telRecords := [aTel] } }
def sReset : State := { sUp with boot := { sUp.boot with resetOrdered := some .spi } }

/-! ### The hypotheses of the obligations are met -/

theorem wit_StepRunsTheFrontCommand : sUp.pending = [] ∧ sUp.freeze.frozen = false ∧ sUp.power.phase = .awake := by decide +kernel

theorem wit_StepKeepsTheInvariant : (State.reset.Inv ∧ step State.reset = .next (tick State.reset)) ∧
    (sUp.Inv ∧ ∃ t, step { sUp with pending := [.sagTrip true] } = .next t) :=
  ⟨⟨invBy (by decide +kernel), rfl⟩, ⟨invBy (by decide +kernel), _, rfl⟩⟩

theorem wit_LedgerTimeNeverGoesBack : State.reset.Inv ∧ step State.reset = .next (tick State.reset) ∧
    State.reset.pending.head? ≠ some .vbkpLoss ∧ State.reset.pending.head? ≠ some .vbkpPowerUp ∧
    movesClock (.sagTrip true) = false ∧ ∃ t, exec (.sagTrip true) State.reset = .next t :=
  ⟨invBy (by decide +kernel), rfl, by decide +kernel, by decide +kernel, rfl, _, rfl⟩

theorem wit_MonoCountersNeverGoBack : State.reset.Inv ∧ movesOdo (.sagTrip true) = false ∧ movesSeq (.sagTrip true) = false ∧
    ∃ t, exec (.sagTrip true) State.reset = .next t :=
  ⟨invBy (by decide +kernel), rfl, rfl, _, rfl⟩

theorem wit_OnlyNamedCommandsChangeMapSlotsAndBeat : movesMap (.sagTrip true) = false ∧ movesSlots (.sagTrip true) = false ∧
    movesBeat (.sagTrip true) = false ∧ ∃ t, exec (.sagTrip true) State.reset = .next t :=
  ⟨rfl, rfl, rfl, _, rfl⟩

theorem wit_ColdResetSetsTheRegisters :
    (vioUp sUp = true ∧ Regs.wf sUp ∧ sUp.power.vcSag = false ∧ sUp.power.vbSag = false) ∧ vioUp sIsland = false ∧
    (sRail.power.phase = .railPhase ∧ sRail.power.railWait = some 0 ∧ sRail.power.vcSag = false ∧ sRail.power.vbSag = false) := by decide +kernel

theorem wit_WarmResetRestartsStartUp : sUp.power.phase = .awake ∧ (atBoot 3 false).power.phase = .startup ∧
    sAsleep.power.phase ≠ .awake ∧ sAsleep.power.phase ≠ .startup := by decide +kernel

theorem wit_StartUpStepsInOrder :
    (atStep State.reset 0 = true ∧ Regs.wf State.reset) ∧ (atStep (atBoot 1 true) 1 = true ∧ (atBoot 1 true).boot.warm = true) ∧
    (atStep (atBoot 1 false) 1 = true ∧ (atBoot 1 false).boot.warm = false) ∧
    (atStep (atBoot 2 false) 2 = true ∧ (atBoot 2 false).boot.vaultBad = false) ∧
    (atStep sVaultBad 2 = true ∧ sVaultBad.boot.vaultBad = true) ∧
    (atStep (atBoot 3 false) 3 = true ∧ (atBoot 3 false).power.phase = .startup ∧ rootGood (atBoot 3 false) true true = true ∧ rootGood (atBoot 3 false) true false = false) ∧
    (atStep sIsland3 3 = true ∧ sIsland3.power.phase = .island) ∧ State.reset.boot.failed = false := by decide +kernel

theorem wit_StartUpFinishes :
    (atStep (atBoot 4 false) 4 = true ∧ imageOk (atBoot 4 false) fwGood = true ∧ imageOk (atBoot 4 false) fwBad = false ∧
      (atBoot 4 false).fuses.slotA = none ∧ (atBoot 4 false).power.phase = .startup) ∧
    (atStep (atBoot 5 false) 5 = true ∧ (atBoot 5 false).vault.mapHash = sha256 (mapBytes (atBoot 5 false).map) ∧
      sMapBad.vault.mapHash ≠ sha256 (mapBytes sMapBad.map) ∧ atStep sMapBad 5 = true) ∧
    (atStep sBare6 6 = true ∧ ledgerLive sBare6 = false) ∧
    (atStep (atBoot 6 false) 6 = true ∧ ledgerLive (atBoot 6 false) = true ∧ (atBoot 6 false).ledger.lastGood = none ∧
      (atBoot 6 false).power.phase = .startup) ∧
    (atStep (atBoot 7 false) 7 = true ∧ deriveMode (atBoot 7 false) ≠ .quarantine ∧ (atBoot 7 false).boot.warm = false) ∧
    (atStep (atBoot 7 true) 7 = true ∧ (atBoot 7 true).boot.warm = true) ∧
    (deriveMode sPendQ = .quarantine ∧ atStep sPendQ 7 = true) := by decide +kernel

theorem wit_WakesStartTheCore :
    sAsleep.power.phase = .asleep ∧
    (sArmed.power.alarmLeft ≠ 0 ∧ bit sArmed R_PWR_WAKE_ARM 0 8 = true ∧ sArmed.power.phase = .asleep ∧
      sArmed.power.cur = .dormant ∧ 4500 ≤ sArmed.power.vbat ∧ sArmed.power.recorded = .dormant ∧
      11000 ∈ sArmed.power.samples ∧ 11000 + 1000 < 13000 ∧ bit sArmed R_PWR_WAKE_ARM 0 9 = true) ∧
    (sBrown.power.phase = .asleep ∧ sBrown.power.cur = .dormant ∧ sBrown.power.recorded ≠ .dormant ∧ sBrown.power.recorded ≠ .sentry ∧
      11000 ∈ sBrown.power.samples ∧ sBrown.power.riseAuto = true) ∧
    (sSentry.power.cur = .sentry ∧ sSentry.power.phase = .asleep ∧ bit sSentry R_PWR_WAKE_ARM 0 (0 : Fin 4) = true ∧
      wakeCopy sSentry (5 : Fin 96) = some canWake ∧ wakeMeets sSentry (5 : Fin 96) canWake .wup = true ∧ canWake.pers = 1 ∧
      (laneOf sSentry (5 : Fin 96)).fec ≤ 30) ∧
    (wakeCopy sWakeErr (5 : Fin 96) = some canWake ∧ (laneOf sWakeErr (5 : Fin 96)).fec = 31 ∧ bitsOf canWake.cfg 2 1 = 0) ∧
    (wakeCopy sWakeErr (6 : Fin 96) = some { canWake with cfg := 7 } ∧ (laneOf sWakeErr (6 : Fin 96)).fec = 31 ∧
      bitsOf ({ canWake with cfg := 7 } : WakeCopy).cfg 2 1 = 1) := by decide +kernel

theorem wit_RailsFollowTheirOrder :
    (∀ r : Fin 5, (sWait r).power.railWait = some r.val ∧ (sWait r).power.phase = .railPhase ∧ (sWait r).power.railRetries < 2) ∧
    sUp.power.phase = .awake ∧ sAsleep.power.phase = .asleep ∧
    (sRailUp.power.railWait ≠ some (3 : Fin 5).val ∧ sRailUp.power.en.getLsbD (3 : Fin 5) = true ∧ sRailUp.power.pg.getLsbD (3 : Fin 5) = false) ∧
    (sRail3rd.power.railWait = some (1 : Fin 5).val ∧ 2 ≤ sRail3rd.power.railRetries ∧ sRail3rd.power.phase = .railPhase) ∧
    sSettle.power.railSettle = true ∧ (∀ r : Fin 5, sUp.power.en.getLsbD r = true ∧ sUp.power.pg.getLsbD r = true) ∧
    (sIsland.power.phase = .island ∧ sIsland.boot.step = 4 ∧ sIsland.power.leBlocked = false ∧
      sIsland.power.railWait = none ∧ sIsland.power.railSettle = false) := by decide +kernel

theorem wit_SagThrottle : clocked sUp = true ∧ (clocked sSag = true ∧ sSag.power.vcSag = true) := by decide +kernel

theorem wit_PowerLossAndShedding : sUp.power.phase ≠ .island ∧ sUp.power.phase ≠ .asleep ∧ sUp.power.phase ≠ .railPhase ∧
    (sRailUp.power.phase = .railPhase ∧ sRailUp.power.pg.getLsbD 0 = true) ∧
    (sIsland.power.lowEnergy = true ∧ sIsland.power.phase ≠ .asleep) ∧ clocked sUp = true := by decide +kernel

theorem wit_IdleTimersAndRequests :
    (sSentry.power.phase = .asleep ∧ sSentry.power.cur = .sentry ∧ fld sSentry R_PWR_TIMERS 16 12 ≠ 0 ∧ fld sSentry R_PWR_VTH 16 8 ≠ 0) ∧
    (running sUp = true ∧ mode sUp = .approach ∧ approachIdle sUp = true ∧ (List.range 10).any (held sUp) = false) ∧
    (running sIdleHeld = true ∧ mode sIdleHeld = .approach ∧ approachIdle sIdleHeld = true ∧ (List.range 10).any (held sIdleHeld) = true) ∧
    (running (inMode .service) = true ∧ mode (inMode .service) = .service ∧ (sessOf (inMode .service) 2).isOpen = false) ∧
    (running (inMode .depot) = true ∧ mode (inMode .depot) = .depot ∧ (sessOf (inMode .depot) 1).isOpen = false ∧
      (sessOf (inMode .depot) 3).isOpen = false) ∧
    (running sTrip = true ∧ requestMatch sTrip.nfc.startFrm 0 false 5 0 = true ∧ mode sTrip = .rented ∧
      sTrip.ledger.trip = some aTrip ∧ aTrip.drive = true ∧ sTrip.hlb.immobAny = false ∧ steeringReleased sTrip = true ∧
      sTrip.power.actLow = false) ∧
    (running sDriving = true ∧ requestMatch sDriving.nfc.stopFrm 0 false 5 0 = true ∧ mode sDriving = .drive ∧
      standstill sDriving = false) ∧
    (standstill sStopped = true ∧ mode sStopped = .drive ∧ sStopped.vault.toRented = true ∧ sStopped.vault.closePend = false) := by decide +kernel

theorem wit_IdleTimersAndRequests_modeSet : Granted 0x0201 (reqOf 0x0201 2) 2 (judgeModeSet 5) (withSession 2 sUp) ∧
    modeRow (heard 0x0201 (reqOf 0x0201 2) 2 (withSession 2 sUp)) 5 = true := by
  constructor
  · exact grantedBy (by decide +kernel)
  · decide +kernel

theorem wit_GatesAndHolds :
    running sUp = true ∧ ((true, false) ≠ (bit sUp R_PWR_GATE_CLK 0 9, bit sUp R_PWR_GATE_PWR 0 9)) ∧
    (running sGate = true ∧ gateOf sGate (2 : Fin 14) = .pending ∧ held sGate (2 : Fin 14) = false ∧ blockBusy sGate (2 : Fin 14) = false) ∧
    (held sUp (2 : Fin 10) = false ∧ blockBusy sUp (2 : Fin 10) = false ∧ gateOf sUp (2 : Fin 10) = .on) ∧
    (held sGate (2 : Fin 10) = false ∧ gateOf sGate (2 : Fin 10) ≠ .on) ∧
    (running sHeld = true ∧ held sHeld (3 : Fin 10) = true ∧ gateOf sHeld (3 : Fin 10) = .on) ∧
    (held sHeld (2 : Fin 10) = true ∧ gateOf sHeld (2 : Fin 10) = .pending) := by decide +kernel

theorem wit_GatesAndHolds_blockGate :
    Granted 0x0203 (reqOf 0x0203 0) 0 judgeHostAwake sUp ∧ Granted 0x0203 (reqOf 0x0203 0) 0 judgeHostAwake sHeld ∧
    Granted 0x0203 (reqOf 0x0203 0) 0 judgeHostAwake sPorts ∧ Granted 0x0203 (reqOf 0x0203 0) 0 judgeHostAwake sBusyN := by
  refine ⟨?_, ?_, ?_, ?_⟩ <;> exact grantedBy (by decide +kernel)

theorem wit_GatesAndHolds_votes :
    (let u := heard 0x0203 (reqOf 0x0203 0) 0 sUp
     (gateVote u 2 true false).2 = true ∧ held u 2 = false ∧ blockBusy u 2 = false) ∧
    (let u := heard 0x0203 (reqOf 0x0203 0) 0 sHeld
     (gateVote u 3 true false).2 = true ∧ held u 3 = true) ∧
    (let u := heard 0x0203 (reqOf 0x0203 0) 0 sPorts
     (gateVote u 10 true false).2 = false ∨ (gateVote u 11 true false).2 = false ∨ (gateVote u 12 true false).2 = false) ∧
    (let u := heard 0x0203 (reqOf 0x0203 0) 0 sBusyN
     (gateVote u 0 true false).2 = true ∧ held u 0 = false ∧ blockBusy u 0 = true) := by dsimp only; decide +kernel

theorem wit_BeatBoundaryCountsOne : clocked sUp = true ∧ clocked sAsleep = false ∧
    ({ sUp with time := { sUp.time with beatCnt := 0xFFFFFFFF } } : State).time.beatCnt = 0xFFFFFFFF ∧
    sUp.time.beatCnt ≠ 0xFFFFFFFF := by decide +kernel

theorem wit_WindowsOfTheBeat : (running sUp = true ∧ sUp.time.ageOwed = false ∧ sUp.bgs.fuseRun = false ∧
      ((299 : Int) - sUp.bgs.tempLast).natAbs < 300 ∧ 300 ≤ ((300 : Int) - sUp.bgs.tempLast).natAbs) ∧
    (running sOwed = true ∧ sOwed.time.ageOwed = true) ∧ (running sTel = true ∧ sTel.bgs.telDue = some aTel) ∧
    (let w : BgsWork := { scrub := 1, errors := [.ce], lane := none, adc := none, wear := [], chain := none }
     running (w.errors.foldl (fun s e => if running s then scrubErr s e else s) (scrubOn (begin_ sUp) w.scrub)) = true) ∧
    (let w : BgsWork := { scrub := 1, errors := [.ue 0 .cmem], lane := none, adc := none, wear := [], chain := none }
     running (w.errors.foldl (fun s e => if running s then scrubErr s e else s) (scrubOn (begin_ sUp) w.scrub)) = false) := by
  dsimp only; decide +kernel

theorem wit_DomainsAndTriggers :
    (running sDom = true ∧ syncFor sDom (0 : Fin 3) (0 : BitVec 8).toNat (1 : Fin 8) = true ∧
      (-1000000000000 : Int).natAbs > fld sDom (R_TIME_D_SERVO + 0x40 * (0 : Fin 3).val) 16 16 * 65536000 ∧
      (0 : Int).natAbs ≤ fld sDom (R_TIME_D_SERVO + 0x40 * (0 : Fin 3).val) 16 16 * 65536000) ∧
    ((domOf sDom (0 : Fin 3)).st = .locked ∧ (domOf sDom (0 : Fin 3)).st ≠ .off ∧ bit sDom (R_TIME_D_CFG + 0x40 * (0 : Fin 3).val) 0 1 = true) ∧
    ((domOf sDom (1 : Fin 3)).st = .holdover ∧ holdMs (domOf sDom (1 : Fin 3)) = 2 ^ 32 - 1) ∧
    (trgRuns sDom (4 : Fin 32) = true ∧ trgDue sDom (4 : Fin 32) = true ∧ trgBeaten sDom (4 : Fin 32) = false ∧
      tget false sDom.time.trgPast (4 : Fin 32) = false) ∧
    (trgRuns sDomPast (4 : Fin 32) = true ∧ trgDue sDomPast (4 : Fin 32) = true ∧ trgBeaten sDomPast (4 : Fin 32) = false ∧
      tget false sDomPast.time.trgPast (4 : Fin 32) = true) ∧
    (trgRuns sDom (5 : Fin 32) = true ∧ trgDue sDom (5 : Fin 32) = true ∧ trgBeaten sDom (5 : Fin 32) = true) ∧
    trgDue sDom (6 : Fin 32) = false ∧ trgOwned sDom (6 : Fin 32) = false ∧
    (4 < bitsOf (0xF : Sys2Proof.Word) 0 4 ∧ bitsOf (0 : Sys2Proof.Word) 0 4 = 0 ∧ 1 ≤ bitsOf (4 : Sys2Proof.Word) 0 4 ∧ bitsOf (4 : Sys2Proof.Word) 0 4 ≤ 4) ∧
    trgOwned sDom (7 : Fin 32) = true := by decide +kernel

theorem wit_FreezeAndSnapshot : (running sFrzArm = true ∧ freezeArmed sFrzArm = true) ∧
    (sUp.power.phase ≠ .asleep ∧ sUp.power.phase ≠ .railPhase ∧ vioUp sUp = true ∧ sUp.freeze.frozen = false ∧ freezeArmed sUp = false ∧
      tapUp sUp = true) ∧
    (running sFrzOver = true ∧ freezeArmed sFrzOver = false) ∧
    (sFrozen.freeze.frozen = true ∧ tapUp sFrozen = true ∧ sFrozen.freeze.snapAddr % 4 = 0 ∧ snapDis sFrozen = false ∧
      regionOf sFrozen.freeze.snapAddr = some .reg) := by decide +kernel

theorem wit_FreezeAndSnapshot_arm :
    Granted 0x0D01 (reqOf 0x0D01 2) 2 (judgeRight false false true true armModes) (withSession 2 sUp) ∧
    Granted 0x0D02 (reqOf 0x0D02 2) 2 (judgeRight false false true true Mode.awake) (withSession 2 sUp) := by
  constructor <;> exact grantedBy (by decide +kernel)

theorem wit_FreezeAndSnapshot_room : ledgerRoomFor (heard 0x0D01 (reqOf 0x0D01 2) 2 (withSession 2 sUp)) 2 = true ∧
    1 ≤ (3600 : BitVec 16).toNat ∧ (3600 : BitVec 16).toNat ≤ 3600 := by decide +kernel

theorem wit_ConfigurationOfLinesAndTables :
    (Granted 0x0301 (reqOf 0x0301 2) 2 judgeInstaller sInst ∧ Granted 0x0303 (reqOf 0x0303 2) 2 judgeInstaller sInst ∧
     Granted 0x0305 (reqOf 0x0305 2) 2 judgeInstaller sInst ∧ Granted 0x0501 (reqOf 0x0501 2) 2 judgeInstaller sInst ∧
     Granted 0x0502 (reqOf 0x0502 2) 2 judgeInstaller sInst ∧ Granted 0x0503 (reqOf 0x0503 2) 2 judgeInstaller sInst) := by
  refine ⟨?_, ?_, ?_, ?_, ?_, ?_⟩ <;> exact grantedBy (by decide +kernel)

theorem wit_ConfigurationOfLinesAndTables_checks :
    let u (op : Nat) : State := heard op (reqOf op 2) 2 sInst
    (checkLane 0 imgLane = none ∧ mapFits (u 0x0301) (.lane 0 imgLane) = true) ∧
    (checkPort 4 imgPort = none ∧ mapFits (u 0x0303) (.port 4 imgPort) = true) ∧
    (checkPhy 0 22 0 0 = none ∧ mapFits (u 0x0305) (.phyWrite 0 22 0 0 0) = true) ∧
    (checkSw (u 0x0501) 0 0 imgSw = none ∧ mapFits (u 0x0501) (.sw 0 0 imgSw) = true) ∧
    (checkPol 0 imgPol = none ∧ mapFits (u 0x0502) (.pol 0 imgPol) = true) ∧
    (checkSch (u 0x0503) 0 schParam = none ∧ mapFits (u 0x0503) (schRec 0 schParam) = true) := by dsimp only; decide +kernel

theorem wit_ConfigurationOfTimeWheelsAndDomain :
    Granted 0x0601 (reqOf 0x0601 2) 2 judgeInstaller sInst ∧ Granted 0x0602 (reqOf 0x0602 2) 2 judgeInstaller sInst ∧
    Granted 0x0801 (reqOf 0x0801 2) 2 judgeInstaller sInst ∧ Granted 0x0910 (reqOf 0x0910 2) 2 judgeInstaller sInst ∧
    Granted 0x0B01 (reqOf 0x0B01 2) 2 judgeInstaller sInst ∧ Granted 0x0B02 (reqOf 0x0B02 2) 2 judgeInstaller sInst ∧
    Granted 0x0B03 (reqOf 0x0B03 2) 2 judgeInstaller sInst ∧ Granted 0x0C01 (reqOf 0x0C01 2) 2 judgeInstaller sInst := by
  refine ⟨?_, ?_, ?_, ?_, ?_, ?_, ?_, ?_⟩ <;> exact grantedBy (by decide +kernel)

theorem wit_ConfigurationOfTimeWheelsAndDomain_checks :
    let u (op : Nat) : State := heard op (reqOf op 2) 2 sInst
    (checkBeat (u 0x0601) 1 0 0 = none ∧ mapFits (u 0x0601) (.beat 1 0 0) = true) ∧
    (checkTime 3 [0] = none ∧ mapFits (u 0x0602) (.time 3 [0]) = true) ∧
    (checkLa 0 imgLa = none ∧ mapFits (u 0x0801) (.la 0 imgLa) = true) ∧
    (checkEntry 10 imgReq imgReq imgFrm imgFrm = none ∧ mapFits (u 0x0910) (.entry 10 imgReq imgReq imgFrm imgFrm) = true) ∧
    (checkTt (0 : BitVec 8).toNat imgTt = none ∧ mapFits (u 0x0B01) (.tt 0 imgTt) = true) ∧
    (checkAng (u 0x0B02) (0 : BitVec 8).toNat (1 : BitVec 8).toNat [(0, 0)] = none ∧ mapFits (u 0x0B02) (.angEvt 0 1 [(0, 0)]) = true) ∧
    (checkFb (u 0x0B03) (1 : BitVec 8).toNat (0 : BitVec 8).toNat [0xA0000] = none ∧ mapFits (u 0x0B03) (.fb 1 0 [0xA0000]) = true) ∧
    (checkHlb (u 0x0C01) 1 0 40 = none ∧ mapFits (u 0x0C01) (.hlb 1 0 0 0 40) = true) := by dsimp only; decide +kernel

theorem wit_TableCommands :
    (Granted 0x0401 (reqOf 0x0401 0) 0 (judgeTable fun _ => ! hostDenied (2 : BitVec 8).toNat hashWords) (inMode .service) ∧
     Granted 0x0401 (reqOf 0x0401 2) 2 (judgeTable fun _ => ! hostDenied (2 : BitVec 8).toNat hashWords) sBatch ∧
     Granted 0x0405 (reqOf 0x0405 0) 0 (judgeRight true false false false dynModes) sBatch0 ∧
     Granted 0x0405 (reqOf 0x0405 2) 2 (judgeRight true false false false dynModes) sBatch2 ∧
     Granted 0x0403 (reqOf 0x0403 2) 2 (judgeTable fun _ => decide ((5 : BitVec 8) = 2)) sInst ∧
     Granted 0x0403 (reqOf 0x0403 0) 0 (judgeTable fun _ => decide ((2 : BitVec 8) = 2)) (inMode .service) ∧
     Granted 0x0404 (reqOf 0x0404 0) 0 (judgeRight true false false false dynModes) (inMode .service)) := by
  refine ⟨?_, ?_, ?_, ?_, ?_, ?_, ?_⟩ <;> exact grantedBy (by decide +kernel)

theorem wit_TableCommands_checks :
    (let u := heard 0x0401 (reqOf 0x0401 0) 0 (inMode .service)
     u.tables.batchGo = false ∧ tblForm (2 : BitVec 8).toNat (1 : BitVec 8).toNat (0 : Sys2Proof.Word).toNat hashWords = none ∧
       fullRight u = false ∧ (0 : BitVec 8).getLsbD 0 = false ∧
       (tblPut (admitted 0x0401 (reqOf 0x0401 0) 0 (inMode .service)) false (2 : BitVec 8).toNat (1 : BitVec 8).toNat (0 : Sys2Proof.Word).toNat hashWords).1 = .ok) ∧
    (let u := heard 0x0401 (reqOf 0x0401 2) 2 sBatch
     fullRight u = true ∧ u.tables.batchGo = false ∧ mapFits u (.tblWrite 2 1 1 0 hashWords) = true ∧ (1 : BitVec 8).getLsbD 0 = true ∧
       u.tables.batch.length < 64 ∧ u.tables.batchBy = some ((reqOf 0x0401 2).chan, curRole u)) ∧
    (let u := heard 0x0405 (reqOf 0x0405 0) 0 sBatch0
     u.tables.batchGo = false ∧ u.tables.batchBy = some ((reqOf 0x0405 0).chan, curRole u) ∧ u.tables.batch.filter Prod.fst = []) ∧
    (let u := heard 0x0405 (reqOf 0x0405 2) 2 sBatch2
     u.tables.batchGo = false ∧ u.tables.batchBy = some ((reqOf 0x0405 2).chan, curRole u) ∧ u.tables.batch.filter Prod.fst ≠ [] ∧
       fullRight u = true ∧ epochFinal u = false) ∧
    (fullRight (heard 0x0403 (reqOf 0x0403 2) 2 sInst) = true ∧ (5 : BitVec 8).toNat ≤ 5 ∧ posOk (5 : BitVec 8).toNat (0 : Sys2Proof.Word).toNat = true) ∧
    (let u := heard 0x0403 (reqOf 0x0403 0) 0 (inMode .service)
     posOk (2 : BitVec 8).toNat (2 ^ 32 - 1) = true ∧ bf (1 : BitVec 64) 62 2 = 0 ∧ ∀ p, p < 4 → hashAt u p (2 ^ 32 - 1) 1 = none) := by
  dsimp only; decide +kernel

theorem wit_LaneFaultsAndRecovery :
    (clocked sLanes = true ∧ (laneOf sLanes (0 : Fin 96)).st = .rxOnly ∧ (laneOf sLanes (0 : Fin 96)).probe = true ∧
      faultFits sLanes (0 : Fin 96) (7 : Fin 10) = true ∧ laneOn sLanes (0 : Fin 96) = true ∧ pers sLanes (0 : Fin 96) = 1 ∧
      bit sLanes R_LANE_CFG (0 : Fin 96) 8 = false) ∧
    (faultFits sLanes (1 : Fin 96) (1 : Fin 10) = true ∧ (laneOf sLanes (1 : Fin 96)).st = .fault ∧
      bb (1 : BitVec 9) ((laneOf sLanes (1 : Fin 96)).cause - 1) = true ∧ bb (2 : BitVec 9) ((laneOf sLanes (1 : Fin 96)).cause - 1) = false) ∧
    (faultFits sLatched7 (7 : Fin 96) (1 : Fin 10) = true ∧ (laneOf sLatched7 (7 : Fin 96)).st = .latched) ∧
    (laneOn sLanes (2 : Fin 96) = true ∧ pers sLanes (2 : Fin 96) = 3) ∧
    (clocked sSwapEn = true ∧ laneOn sSwapEn (0 : Fin 96) = true ∧ pers sSwapEn (0 : Fin 96) = 1 ∧ bit sSwapEn R_LANE_CFG (0 : Fin 96) 8 = true) ∧
    (laneOf sLanes (3 : Fin 96)).swapPend = true ∧ (laneOf sLanes (4 : Fin 96)).st = .busOff := by decide +kernel

theorem wit_LaneFaultsAndRecovery_recover : Granted 0x0302 (reqOf 0x0302 2) 2 judgeInstaller sLatched := by
  exact grantedBy (by decide +kernel)

theorem wit_LaneFaultsAndRecovery_latched : (95 : BitVec 8).toNat ≤ 95 ∧
    (laneOf (admitted 0x0302 (reqOf 0x0302 2) 2 sLatched) (7 : BitVec 8).toNat).st = .latched := by decide +kernel

theorem wit_LaneTiming :
    (clocked sLanes = true ∧ plcaFollower sLanes (2 : Fin 96) = true ∧ laneOn sLanes (2 : Fin 96) = true) ∧
    (running sLanes = true ∧ pers sLanes (5 : Fin 96) = 2 ∧ bit sLanes R_LANE_CFG (5 : Fin 96) 5 = true ∧
      (laneOf sLanes (5 : Fin 96)).st = .active ∧ (laneOf sLanes (5 : Fin 96)).linSlot < 32 ∧
      (linSlotOf sLanes (5 : Fin 96) (laneOf sLanes (5 : Fin 96)).linSlot).1 ≠ 0 ∧ sLanes.time.beatPos = 0 ∧
      (laneOf sLanes (5 : Fin 96)).linNext ≤ sLanes.time.ticks) ∧
    (running sLinEnd = true ∧ (laneOf sLinEnd (5 : Fin 96)).st = .active ∧ ¬ (laneOf sLinEnd (5 : Fin 96)).linSlot < 32 ∧
      (linSlotOf sLinEnd (5 : Fin 96) 0).1 ≠ 0 ∧ (laneOf sLinEnd (5 : Fin 96)).linNext ≤ sLinEnd.time.ticks) ∧
    (pers sLanes (2 : Fin 96) = 3 ∧ (laneOf sLanes (2 : Fin 96)).st = .active ∧ (egrOf sLanes (2 : Fin 96)).tx ≠ none ∧
      (laneOf sLanes (2 : Fin 96)).backoff = false ∧
      let u := statIncI (statIncI (begin_ sLanes) R_PORT_COLL (16 + (2 : Fin 96).val)) R_LANE_ERRF (2 : Fin 96)
      (laneOf sLanes (2 : Fin 96)).attempts + 1 < fldi u R_PORT_CSMA (16 + (2 : Fin 96).val) 8 5 ∧ plcaLane u (2 : Fin 96) = true ∧
        (laneOf sLanes (2 : Fin 96)).fallback = false) ∧
    (pers sColl (2 : Fin 96) = 3 ∧ (laneOf sColl (2 : Fin 96)).st = .active ∧ (egrOf sColl (2 : Fin 96)).tx ≠ none ∧
      (laneOf sColl (2 : Fin 96)).backoff = false ∧
      let u := statIncI (statIncI (begin_ sColl) R_PORT_COLL (16 + (2 : Fin 96).val)) R_LANE_ERRF (2 : Fin 96)
      (laneOf sColl (2 : Fin 96)).attempts + 1 < fldi u R_PORT_CSMA (16 + (2 : Fin 96).val) 8 5 ∧
        (laneOf sColl (2 : Fin 96)).fallback = true) ∧
    (running sColl15 = true ∧ (egrOf sColl15 (2 : Fin 96)).tx ≠ none ∧ (laneOf sColl15 (2 : Fin 96)).backoff = false ∧
      let u := statIncI (statIncI (begin_ sColl15) R_PORT_COLL (16 + (2 : Fin 96).val)) R_LANE_ERRF (2 : Fin 96)
      fldi u R_PORT_CSMA (16 + (2 : Fin 96).val) 8 5 ≤ (laneOf sColl15 (2 : Fin 96)).attempts + 1) ∧
    (running sRetry = true ∧ (laneOf sRetry (2 : Fin 96)).backoff = true ∧ (laneOf sRetry (2 : Fin 96)).backEnd ≤ sRetry.time.ticks ∧
      ((egrOf sRetry (2 : Fin 96)).tx.map fun x => (x.1, (frameOf sRetry x.2.h).map fun f =>
        (gateOpen sRetry (2 : Fin 96) x.1, fitsNow sRetry (2 : Fin 96) x.1 f))) = some (0, some (true, true))) := by decide +kernel

theorem wit_PortLinkAndPause :
    (running sPorts = true ∧ (portOf sPorts (0 : Fin 4)).upWait = true) ∧
    (bit sPorts R_PORT_STAT (1 : Fin 8) 0 = true ∧ bit sPorts R_PORT_STAT (1 : Fin 8) 1 = true ∧ loopOf sPorts (96 + (1 : Fin 8).val) = 0 ∧
      portLink sPorts (1 : Fin 8) = true) ∧
    (bit sPorts R_PORT_STAT (2 : Fin 8) 0 = true ∧ bit sPorts R_PORT_STAT (2 : Fin 8) 1 = false) ∧
    (running sQuiet = true ∧ bb (portOf sQuiet (1 : Fin 8)).txQuiet (0 : Fin 8) = true ∧ bb (tget 0 sQuiet.net.fcAss (1 : Fin 8)) (0 : Fin 8) = true) ∧
    (bb (portOf sQuiet (1 : Fin 8)).txQuiet (7 : Fin 8) = true ∧ bb (tget 0 sQuiet.net.fcAss (1 : Fin 8)) (7 : Fin 8) = false) ∧
    bit sPorts R_PORT_PAUSE_STAT (1 : Fin 8) (0 : Fin 8) = true ∧
    bit sPorts R_PORT_PAUSE_STAT (1 : Fin 8) (8 + (0 : Fin 8)) = true := by decide +kernel

theorem wit_LowPowerIdleAndPhy :
    (running sPorts = true ∧ lpiMode sPorts (1 : Fin 8) = true ∧ portLink sPorts (1 : Fin 8) = true ∧
      bit sPorts R_PORT_LPI_STAT (1 : Fin 8) 3 = false ∧ lpiOn sPorts (1 : Fin 8) = true ∧ bit sPorts R_PORT_LPI_STAT (1 : Fin 8) 2 = false) ∧
    (lpiMode sPorts (3 : Fin 8) = true ∧ lpiOn sPorts (3 : Fin 8) = true ∧ bit sPorts R_PORT_LPI_STAT (3 : Fin 8) 3 = true ∧ portLink sPorts (3 : Fin 8) = true ∧
      bit sPorts R_PORT_LPI_STAT (3 : Fin 8) 1 = false ∧ portIdle sPorts (3 : Fin 8) = true ∧
      fldi sPorts R_PORT_LPI_STAT (3 : Fin 8) 16 16 < max (ownWake sPorts (3 : Fin 8)) (0xFFFF : BitVec 16).toNat) ∧
    (running sAgreed = true ∧ lpiMode sAgreed (3 : Fin 8) = true ∧ portLink sAgreed (3 : Fin 8) = true ∧ bit sAgreed R_PORT_LPI_STAT (3 : Fin 8) 3 = true ∧
      max (ownWake sAgreed (3 : Fin 8)) (0 : BitVec 16).toNat ≤ fldi sAgreed R_PORT_LPI_STAT (3 : Fin 8) 16 16) ∧
    bit sLpi R_PORT_LPI_STAT (3 : Fin 8) 1 = true ∧ running sLpi = true ∧ checkPhy 0 22 0 0 = none := by decide +kernel

theorem wit_LowPowerIdleAndPhy_read :
    Served 0x0304 (reqOf 0x0304 0) 0 (judgeRight true false false false (fun m => m.awake && decide (m ≠ .approach))) (inMode .service) := by
  exact servedBy (by decide +kernel)

theorem wit_SessionsOpenCloseAndExpire :
    Granted 0x0110 (reqOf 0x0110 0) 0 judgeHostAwake sUp ∧ Granted 0x0111 (reqOf 0x0111 0) 0 judgeHostAwake sChal ∧
    Granted 0x0112 (reqOf 0x0112 2) 2 judgeClose sInst ∧ running sUp = true ∧ (reqOf 0x0111 0).session = 0 := by
  refine ⟨?_, ?_, ?_, by decide +kernel, by decide +kernel⟩ <;> exact grantedBy (by decide +kernel)

/-- The signature of SESSION_OPEN is made with the private key of slot KS008; another one is refused. -/
theorem wit_SessionsOpenCloseAndExpire_open :
    let u := heard 0x0111 (reqOf 0x0111 0) 0 sChal
    let sig := ecdsaSign 6 15 (openSigned 1 60 sChalValue sChalUid (ecPublic 3))
    (heard 0x0110 (reqOf 0x0110 0) 0 sUp).vault.rngFailed = false ∧
    openChecks u 1 60 sChalValue sChalUid (ecPublic 3) sig = (none, true) ∧ u.vault.rngFailed = false ∧
    (ledgerLive u = true ∧ ledgerRoom u = true) ∧
    openChecks u 1 60 sChalValue sChalUid (ecPublic 4) sig = (some .denied, true) ∧
    openChecks u 3 9 sChalValue sChalUid (ecPublic 3) sig = (some .range, false) := by dsimp only; decide +kernel

theorem wit_SessionIdsAreFresh : 1 ≤ 2 ∧ 2 ≤ 3 ∧ (sessOf sInst 2).isOpen = true := by decide +kernel

theorem wit_LockoutsDouble :
    let f (n l : Nat) (b : Bool) : Sess := sessOf (setSess sUp 1 { Sess.closed with fails := n, lockS := l, locked := b }) 1
    ((sessOf sUp 1).locked = false ∧ (sessOf sUp 1).fails < 4) ∧ ((f 3 0 false).locked = false ∧ (f 3 0 false).fails < 4) ∧
    ((f 4 0 false).locked = false ∧ (f 4 0 false).fails = 4) ∧ ((f 5 60 false).locked = false ∧ 5 ≤ (f 5 60 false).fails) ∧
    (f 5 60 true).locked = true := by dsimp only; decide +kernel

theorem wit_PacketsOutsideTheChecks :
    (running sUp = true ∧ roomFor sUp Chan.ring = true ∧ (takeRequest (begin_ sUp) (reqOf 0x7777 0) 0x7777).isSome = true) ∧
    (running sInst = true ∧ roomFor sInst Chan.ring = true ∧
      ((takeRequest (begin_ sInst) (reqOf 0x7777 2) (0x7777 : BitVec 16).toNat).bind fun u => u.disp.cur.map fun c =>
        (decide (c.role ≠ 0), tagGood (0x7777 : BitVec 16).toNat (reqOf 0x7777 2) c,
          tagGood (0x7777 : BitVec 16).toNat { reqOf 0x7777 2 with tag := 0 } c)) = some (true, true, false)) := by decide +kernel

theorem wit_PacketsOutsideTheChecks_info : Served 0x0101 (reqOf 0x0101 0) 0 judgeInfo sUp := by exact servedBy (by decide +kernel)

theorem wit_LedgerEntriesAndTime :
    (clocked sLdg = true ∧ sLdg.power.lowEnergy = false ∧ sLdg.ledger.queue ≠ [] ∧ sLdg.ledger.final = false ∧ sLdg.ledger.lastGood = none ∧
      sectorReady sLdg = true ∧ sLdg.ledger.nextSeq < 2 ^ 48 - 1) ∧
    (sLastSeq.ledger.nextSeq = 2 ^ 48 - 1 ∧ sLastSeq.ledger.final = false) ∧
    (running sTrip = true ∧ (sTrip.ledger.interval.map fun i => decide (i.lEnd ≤ ltimeNow sTrip) && decide (i.num < 2 ^ 32 - 1)) = some true) ∧
    (running sOsc = true ∧ sOsc.power.osc = true ∧ (1 : Nat) ≠ 0) ∧
    (running sUp = true ∧ sUp.deny.lastSec = none) ∧
    (running sDenied = true ∧ (sDenied.deny.lastSec.map fun t => decide (t + 60 ≤ sDenied.ledger.sec)) = some true) ∧
    (sLast.ledger.sec = 2 ^ 48 - 1 ∧ sLast.ledger.frac = 2 ^ 40 - 1 ∧ sLast.ledger.timeFinal = false) := by decide +kernel

theorem wit_LedgerCommands :
    Served 0x0A01 (reqOf 0x0A01 1) 1 judgeLedgerRead (withSession 1 sUp) ∧
    Granted 0x0A02 (reqOf 0x0A02 1) 1 (judgeRight false true false false (inModes [.approach, .rented, .drive, .depot])) (withSession 1 sUp) ∧
    Granted 0x0A03 (reqOf 0x0A03 1) 1 judgeHostAwake (withSession 1 sUp) ∧ Granted 0x0A03 (reqOf 0x0A03 0) 0 judgeHostAwake sCred := by
  refine ⟨?_, ?_, ?_, ?_⟩
  · exact servedBy (by decide +kernel)
  all_goals exact grantedBy (by decide +kernel)

theorem wit_LedgerCommands_checks :
    (let u := noted (reqOf 0x0A01 1) 1 (withSession 1 sUp)
     1 ≤ (64 : BitVec 16).toNat ∧ (64 : BitVec 16).toNat ≤ 64 ∧
     judgeD u true (0x1000 : BitVec 64).toNat (64 * 64) = none ∧ u.vault.rootPresent = true ∧ u.ledger.head = some 0 ∧ u.ledger.oldest ≤ (0 : BitVec 48).toNat ∧
       (entriesFrom u (min 64 (0 - 0 + 1)) 0).length = min 64 (0 - 0 + 1)) ∧
    (let u := noted (reqOf 0x0A01 1) 1 (withSession 1 sUp)
     let v := endRun u 1
     v.vault.rootPresent = true ∧ v.ledger.head = some 0 ∧ v.ledger.oldest ≤ (0 : BitVec 48).toNat ∧
       judgeD v true (0x1000 : BitVec 64).toNat (64 * 64) = none ∧
       (entriesFrom u (min (min 64 (0 - 0 + 1)) ((some 0).getD (min 64 (0 - 0 + 1)))) 0).length < min 64 (0 - 0 + 1) ∧
       (entriesFrom v (min (min 64 (0 - 0 + 1)) ((some 0).getD (min 64 (0 - 0 + 1)))) 0).length < min 64 (0 - 0 + 1)) ∧
    (1 ≤ (86400 : Sys2Proof.Word).toNat ∧ (86400 : Sys2Proof.Word).toNat ≤ 86400) ∧
    (let u := heard 0x0A03 (reqOf 0x0A03 1) 1 (withSession 1 sUp)
     curRole u = 1 ∧ u.ledger.wallValid = false ∧ ledgerRoomFor u 2 = true) ∧
    (let u := heard 0x0A03 (reqOf 0x0A03 0) 0 sCred
     let step := (((300 : BitVec 48).toNat * 65536 + (0 : BitVec 16).toNat : Nat) : Int) - wallNow u
     curRole u = 0 ∧ u.ledger.wallValid = true ∧ step.natAbs = 300 * 65536 ∧ step.natAbs + ((recentSteps u).map Prod.snd).sum ≤ 300 * 65536 ∧
       ledgerRoomFor u 1 = true) ∧
    sUp.ledger.interval = none := by dsimp only; decide +kernel

theorem wit_TamperZeroesTheVault : (sUp.power.phase = .awake ∧ slotState sUp 1 = 1 ∧ sUp.power.cur ≠ .quarantine ∧ sUp.vault.rootPresent = true) ∧
    (sAsleep.power.phase = .asleep ∧ (0 : Fin 6).val ≠ 1 ∧ (0 : Fin 6).val ≠ 5 ∧ ((0 : Fin 6).val = 2 → 1024 ≤ sAsleep.power.oscPeriods)) ∧
    (sAsleep1024.power.phase = .asleep ∧ ((2 : Fin 6).val = 2 → 1024 ≤ sAsleep1024.power.oscPeriods)) := by decide +kernel

theorem wit_KeyUpdateWritesTheSlot : checkMsg sUpd msgGood = .ok ∧ checkMsg sUpd msgInv = .ok ∧ msgGood.op = 1 ∧ msgInv.op = 3 ∧
    sUpd.vault.rngFailed = false ∧ (ledgerLive sUpd = true ∧ ledgerRoom sUpd = true) ∧ msgGood.commitOk = true ∧ msgInv.commitOk = true := by
  decide +kernel

theorem wit_KeyUpdateWritesTheSlot_other : checkMsg sUpd msgGen = .ok ∧ msgGen.op = 2 ∧ msgGen.ucnt = 0xFFFFFFFF ∧ msgGen.commitOk = true ∧
    checkMsg sUpd msgBad = .badParam := by decide +kernel

theorem wit_VaultCommands :
    Served 0x0701 (reqOf 0x0701 0) 0 (judgeVault (inModes [.approach, .rented, .service, .depot])) sUpd ∧
    Served 0x0701 (reqOf 0x0701 3) 3 (judgeVault (inModes [.approach, .rented, .service, .depot])) (withSession 3 sUpd) ∧
    Served 0x0702 (reqOf 0x0702 0) 0 (judgeVault (inModes [.approach, .rented, .service, .depot, .quarantine])) sUp := by
  refine ⟨?_, ?_, ?_⟩ <;> exact servedBy (by decide +kernel)

theorem wit_VaultCommands_provision : Granted 0x0703 (reqOf 0x0703 3) 3 judgeProvision sBare := by exact grantedBy (by decide +kernel)

theorem wit_VaultCommands_inv : sBare.Inv ∧ (5 : Nat) ≠ 10 ∧ (4 : Nat) < 5 := ⟨invBy (by decide +kernel), by decide, by decide⟩

theorem wit_VaultCommands_room : checkMsg (heard 0x0701 (reqOf 0x0701 3) 3 (withSession 3 sUpd)) msgGood = .ok ∧
    ledgerRoom (heard 0x0701 (reqOf 0x0701 3) 3 (withSession 3 sUpd)) = true ∧
    (heard 0x0703 (reqOf 0x0703 3) 3 sBare).vault.rngFailed = false ∧ running sUp = true ∧ (511 : BitVec 16).toNat ≤ 511 := by decide +kernel

theorem wit_CipherEngines :
    (running sUp = true ∧ ungated sUp (0 : Fin 2) = true ∧ bitsOf (3 : Sys2Proof.Word) 0 2 = 3 ∧ bitsOf (2 : Sys2Proof.Word) 0 2 ≠ 3) ∧
    (running sKeyw = true ∧ klenWords sKeyw (0 : Fin 2) ≤ (7 : Fin 8) ∧ (3 : Fin 8).val < klenWords sKeyw (0 : Fin 2) ∧
      (let new := (engOf sKeyw (0 : Fin 2)).written ||| BitVec.ofNat 8 (2 ^ (3 : Fin 8).val)
       let all : BitVec 8 := BitVec.ofNat 8 (2 ^ klenWords sKeyw (0 : Fin 2) - 1)
       new = all ∧ (engOf sKeyw (0 : Fin 2)).written ≠ all) ∧
      (let new := (engOf sKeyw (0 : Fin 2)).written ||| BitVec.ofNat 8 (2 ^ (0 : Fin 8).val)
       new ≠ BitVec.ofNat 8 (2 ^ klenWords sKeyw (0 : Fin 2) - 1))) ∧
    (running sJob = true ∧ (engOf sJob (0 : Fin 2)).job = none ∧ held sJob (0 : Fin 2) = false ∧ ungated sJob (0 : Fin 2) = true ∧ dmaUp sJob = true ∧
      fld sJob (ciph R_CIPH_RING_CFG (0 : Fin 2)) 0 4 ≠ 0 ∧
      fld sJob (ciph R_CIPH_SQ_HEAD (0 : Fin 2)) 0 12 ≠ fld sJob (ciph R_CIPH_SQ_TAIL (0 : Fin 2)) 0 12 ∧
      descFormed jobDesc = true ∧ bb jobDesc.flags 0 = false ∧ descRange sJob jobDesc = none ∧ bit sJob (ciph R_CIPH_KCTL 0) 0 16 = true ∧
      fld sJob (ciph R_CIPH_KCTL 0) 8 8 = jobDesc.kgen.toNat) ∧
    (let d := { jobDesc with flags := 1, slot := 44 }
     running sStore = true ∧ (engOf sStore (0 : Fin 2)).job = none ∧ ungated sStore (0 : Fin 2) = true ∧ descFormed d = true ∧ bb d.flags 0 = true ∧
       delivery sStore d.slot.toNat (4 + (0 : Fin 2)) (modeUsage d.mode.toNat) = .ok) ∧
    (running sBusyEng = true ∧ ((engOf sBusyEng (0 : Fin 2)).job.map Job.vault) = some true) ∧
    (running sBusyN = true ∧ ((engOf sBusyN (0 : Fin 2)).job.map Job.vault) = some false ∧ dmaUp sBusyN = true) := by decide +kernel

theorem wit_CipherEngines_store :
    (running sStore = true ∧ (2048 < 2049 ∧ 2 ^ 64 < (2 ^ 64 - 1 : BitVec 64).toNat + 2)) ∧
    (¬ (1 = 0 ∨ 2048 < 1 ∨ 2 ^ 64 < (0xFFFFFFFFFFFFFFFF : BitVec 64).toNat + 1) ∧ delivery sStore (43 : BitVec 9).toNat 6 useEnc = .ok ∧
      delivery sStore (511 : BitVec 9).toNat 6 useDec = .denied) := by decide +kernel

theorem wit_CipherEngines_wd : sBusyEng.Inv ∧ (engOf sBusyEng (0 : Fin 4)).job.isSome = true :=
  ⟨invBy (by decide +kernel), by decide +kernel⟩

theorem wit_FieldSessionsAndCredentials :
    (sUp.freeze.frozen = false ∧ vaultUp sUp = true ∧ sUp.nfc.ex ≠ .busy ∧ sUp.nfc.chal = false ∧ sUp.vault.rngFailed = false) ∧
    ¬ (vaultUp sSubmit = true ∧ sSubmit.nfc.ex ≠ .busy ∧ sSubmit.nfc.chal = false) ∧
    (sField.freeze.frozen = false ∧ sField.nfc.field = true ∧ sField.nfc.window = false ∧ sField.nfc.apdu = none ∧
      opensWindow (.read 0 0) = true) ∧
    (sOwing.freeze.frozen = false ∧ sOwing.nfc.field = true ∧ sOwing.nfc.window = false ∧ sOwing.nfc.apdu = some (.read 0 0)) ∧
    (sWindow.nfc.window = true ∧ sWindow.freeze.frozen = false ∧ (sWindow.nfc.held.foldl wireRetry { begin_ sWindow with nfc := { sWindow.nfc with window := false, held := [] } }).nfc.apdu = none) ∧
    (sOwing2.nfc.window = true ∧ sOwing2.freeze.frozen = false ∧ (sOwing2.nfc.held.foldl wireRetry { begin_ sOwing2 with nfc := { sOwing2.nfc with window := false, held := [] } }).nfc.apdu ≠ none) ∧
    (accepts sUp .H = true ∧ 0x6000000 ≤ tagAcc.addr ∧ tagAcc.addr < 0x6002000) ∧
    (vaultUp sSubmit = true ∧ sSubmit.nfc.ex = .busy ∧ sSubmit.nfc.field = false) ∧
    (vaultUp sReady = true ∧ sReady.nfc.ex = .ready ∧ sReady.nfc.field = true) ∧
    (running sPend = true ∧ sPend.nfc.pending = some grantOpen ∧ sPend.power.lowEnergy = false ∧ sPend.power.actLow = false ∧
      credRoom (begin_ sPend) grantOpen.request = true ∧ credFits sPend grantOpen.request grantOpen.tripRef = none) := by decide +kernel

theorem wit_CredentialsThatPassAct :
    (pathOf sCred credOpen.path).locked = false ∧ groupTampered sCred = false ∧ sCred.power.lowEnergy = false ∧
    credChecks sCred credOpen = none ∧ credFits sCred credOpen.req.toNat (beNat (slice credOpen.token 0x30 8)) = none ∧
    credRoom sCred credOpen.req.toNat = true := by decide +kernel

theorem wit_CredentialsThatPassAct_refused :
    ((pathOf sCredR credOpen.path).locked = false ∧ groupTampered sCredR = false ∧ sCredR.power.lowEnergy = false ∧
      credChecks sCredR credOpen = none ∧ (credFits sCredR credOpen.req.toNat (beNat (slice credOpen.token 0x30 8))).isSome = true) ∧
    credChecks sCred { credOpen with req := 0 } = some (.badParam, 1) ∧
    (pathOf (setPath sCred 0 { fails := 8, lockS := 10, locked := true }) credOpen.path).locked = true := by decide +kernel

theorem wit_HostCredentialsAndRentals :
    Granted 0x0901 (reqOf 0x0901 0) 0 judgeCred sUp ∧ Granted 0x0902 (reqOf 0x0902 0) 0 judgeCred sUp ∧
    Granted 0x0903 (reqOf 0x0903 1) 1 judgeTrust (withSession 1 sUp) ∧
    Granted 0x0904 (reqOf 0x0904 1) 1 judgeTrust (withSession 1 sUp) ∧
    Granted 0x0905 (reqOf 0x0905 1) 1 (judgeOper [.approach]) (withSession 1 sUp) := by
  refine ⟨?_, ?_, ?_, ?_, ?_⟩ <;> exact grantedBy (by decide +kernel)

theorem wit_HostCredentialsAndRentals_trip :
    Granted 0x0906 (reqOf 0x0906 1) 1 (judgeOper [.rented, .drive, .quarantine]) (withSession 1 sTrip) ∧
    Granted 0x0907 (reqOf 0x0907 1) 1 (judgeOper [.approach, .rented, .drive, .depot, .quarantine]) (withSession 1 sTrip) ∧
    Granted 0x0908 (reqOf 0x0908 1) 1 (judgeOper [.approach, .rented, .drive, .depot, .quarantine]) (withSession 1 sTrip) ∧
    Granted 0x0909 (reqOf 0x0909 1) 1 (judgeOper [.rented, .drive]) (withSession 1 sTrip) ∧
    Granted 0x0906 (reqOf 0x0906 1) 1 (judgeOper [.rented, .drive, .quarantine]) (withSession 1 sDriving) := by
  refine ⟨?_, ?_, ?_, ?_, ?_⟩ <;> exact grantedBy (by decide +kernel)

theorem wit_HostCredentialsAndRentals_checks :
    (heard 0x0901 (reqOf 0x0901 0) 0 sUp).vault.rngFailed = false ∧ (List.replicate 294 (0 : Byte)).length = 294 ∧
    (2 : BitVec 8).toNat ≤ 2 ∧ (heard 0x0903 (reqOf 0x0903 1) 1 (withSession 1 sUp)).nfc.revoked.length < 256 ∧
    rd (heard 0x0904 (reqOf 0x0904 1) 1 (withSession 1 sUp)) R_NFC_EPOCH_MIN ≠ 0xFFFFFFFF ∧
    (rd (heard 0x0904 (reqOf 0x0904 1) 1 (withSession 1 sUp)) R_NFC_EPOCH_MIN).toNat < (0xFFFFFFFF : Sys2Proof.Word).toNat ∧
    (let u := heard 0x0905 (reqOf 0x0905 1) 1 (withSession 1 sUp)
     u.ledger.trip = none ∧ u.power.actLow = false ∧ u.ledger.sealed = false ∧ ledgerRoomFor u 2 = true) ∧
    (let u := heard 0x0906 (reqOf 0x0906 1) 1 (withSession 1 sTrip)
     u.ledger.trip.map Trip.tripRef = some (7 : BitVec 64).toNat ∧ standstill u = true ∧ closeRoom u 1 = true ∧ mode u = .rented) ∧
    (let u := heard 0x0906 (reqOf 0x0906 1) 1 (withSession 1 sDriving)
     u.ledger.trip.map Trip.tripRef = some (7 : BitVec 64).toNat ∧ mode u = .drive) ∧
    (heard 0x0909 (reqOf 0x0909 1) 1 (withSession 1 sTrip)).ledger.trip = some aTrip ∧ sTrip.ledger.trip = some aTrip ∧ mode sTrip ≠ .drive ∧
    sDriving.ledger.trip = some aTrip ∧ mode sDriving = .drive := by dsimp only; decide +kernel

theorem wit_TrackersAndAngles :
    (running sSync = true ∧ (ttOf sSync (0 : Fin 6)).st = .sync ∧ fld sSync (R_TT_CFG2 + 0x40 * (0 : Fin 6).val) 0 4 * 100 ≤ 2000 ∧
      0 < fld sSync (R_TT_CFG2 + 0x40 * (0 : Fin 6).val) 0 4 * 100 ∧
      ((ttOf sSync (0 : Fin 6)).seen = true ∧ 500 < sSync.time.ticks - (ttOf sSync (0 : Fin 6)).lastEdge) ∧
      (ttOf sSync (0 : Fin 6)).absorb = none ∧
      consistent sSync (0 : Fin 6) (ttOf sSync (0 : Fin 6)).p1 (sSync.time.ticks - (ttOf sSync (0 : Fin 6)).te)
        (nextTooth sSync (0 : Fin 6) (ttOf sSync (0 : Fin 6)).tooth).2 = true) ∧
    (running sStall = true ∧ (ttOf sStall (0 : Fin 6)).st = .sync ∧ ttTolerant sStall (0 : Fin 6) = true ∧ (ttOf sStall (0 : Fin 6)).p1 ≠ 0 ∧
      (ttOf sStall (0 : Fin 6)).bad = false ∧ (nextTooth sStall (0 : Fin 6) (ttOf sStall (0 : Fin 6)).tooth).2 * predict (ttOf sStall (0 : Fin 6)) *
        (100 + ttTol sStall (0 : Fin 6)) ≤ 100 * (sStall.time.ticks - (ttOf sStall (0 : Fin 6)).te)) ∧
    ((ttOf sStall (0 : Fin 6)).te + fld sStall R_ANG_STILL 0 16 * 250000 ≤ sStall.time.ticks ∧ (ttOf sStall (2 : Fin 6)).st = .search ∧
      (ttOf sStall (2 : Fin 6)).te + fld sStall R_ANG_STILL 0 16 * 250000 ≤ sStall.time.ticks ∧
      (ttOf sStall (2 : Fin 6)).motAt + fld sStall R_ANG_STILL 0 16 * 250000 ≤ sStall.time.ticks) ∧
    (running sSlip = true ∧ (ttOf sSlip (0 : Fin 6)).st = .sync ∧ fld sSlip (R_TT_CFG2 + 0x40 * (0 : Fin 6).val) 0 4 * 100 ≤ 2000 ∧
      500 < sSlip.time.ticks - (ttOf sSlip (0 : Fin 6)).lastEdge ∧ (ttOf sSlip (0 : Fin 6)).absorb = none ∧ (ttOf sSlip (0 : Fin 6)).p1 ≠ 0 ∧
      consistent sSlip (0 : Fin 6) (ttOf sSlip (0 : Fin 6)).p1 (sSlip.time.ticks - (ttOf sSlip (0 : Fin 6)).te)
        (nextTooth sSlip (0 : Fin 6) (ttOf sSlip (0 : Fin 6)).tooth).2 = false ∧ ttTolerant sSlip (0 : Fin 6) = false) ∧
    ((ttOf sSync (2 : Fin 6)).st = .search ∧ (ttOf sSync (2 : Fin 6)).seen = false ∧ (ttOf sSync (2 : Fin 6)).absorb = none ∧
      fld sSync (R_TT_CFG2 + 0x40 * (2 : Fin 6).val) 0 4 * 100 ≤ 2000) ∧
    (ttOf sSync (1 : Fin 6)).st = .fault ∧ (3 : Fin 4).val ≠ 0 ∧
    (evtValid sSync (3 : Fin 64) = true ∧ evtTracker sSync (3 : Fin 64) < 6 ∧ (ttOf sSync (evtTracker sSync (3 : Fin 64))).st = .sync ∧
      tget false sSync.wheels.fired (3 : Fin 64) = false ∧
      (let x := (evtAngle sSync (3 : Fin 64) + 1024 * ttN sSync (evtTracker sSync (3 : Fin 64)) - 1024 * (ttOf sSync (evtTracker sSync (3 : Fin 64))).tooth) %
         (1024 * ttN sSync (evtTracker sSync (3 : Fin 64)))
       0 < x ∧ x ≤ ttProgress sSync (evtTracker sSync (3 : Fin 64)))) := by decide +kernel

theorem wit_DistanceOfOneTooth : sTrip.ledger.trip ≠ none ∧ sUp.ledger.trip = none ∧
    sUp.wheels.odo + (sUp.wheels.acc + ttCirc sUp 0) / ttNR sUp 0 ≤ 2 ^ 48 - 1 := by decide +kernel

theorem wit_FeedbackAndBolts :
    running sFb = true ∧ (fbOf sUp 0).conv = none ∧ boltMoving (boltOf sFb (0 : Fin 4)) = true ∧
    ((boltOf sFb (1 : Fin 4)).want = some false ∧ (boltOf sFb (1 : Fin 4)).attempts < 3 ∧ canMove sFb (1 : Fin 4) false = true) ∧
    (boltOfKind sFb 2 = some 2 ∧ fld sFb (R_FB_BOLT_CFG2 + 0x20 * 2) 8 8 ≠ 0 ∧ (boltOf sFb 2).st = .released) ∧
    sFb.wheels.pulses.getLsbD (3 : Fin 4) = true ∧ excOn sFb (0 : Fin 4) = true := by decide +kernel

theorem wit_FeedbackAndBolts_installer :
    Granted 0x0B04 (reqOf 0x0B04 2) 2 judgeInstaller sFbInst ∧ Granted 0x0B05 (reqOf 0x0B05 2) 2 judgeInstaller sFbInst := by
  constructor <;> exact grantedBy (by decide +kernel)

theorem wit_FeedbackAndBolts_checks :
    convOpen (heard 0x0B04 (reqOf 0x0B04 2) 2 sFbInst) (2 : BitVec 8).toNat = true ∧
    (let u := heard 0x0B05 (reqOf 0x0B05 2) 2 sFbInst
     boltKind u (1 : BitVec 8).toNat ≠ 0 ∧ held u (6 + boltCh u (1 : BitVec 8).toNat) = false ∧
       canMove u (1 : BitVec 8).toNat (decide ((0 : BitVec 8).toNat = 1)) = true ∧
       canMove u (1 : BitVec 8).toNat (decide ((1 : BitVec 8).toNat = 1)) = true) := by dsimp only; decide +kernel

theorem wit_EventsSemaphoresAndInjection :
    (running sUp = true ∧ hostOff sUp = false ∧ semOwner (semSettle (outRead (begin_ sUp) [] .ok) (0 : Fin 16)) (0 : Fin 16) = 0 ∧ clocked sUp = true) ∧
    (running sSem = true ∧ hostOff sSem = false ∧ semOwner sSem (1 : Fin 16) ≠ 0 ∧ tget 0 sSem.bridge.lease (1 : Fin 16) ≤ sSem.time.ticks) ∧
    (let u := semSettle (outRead (begin_ sSemHeld) [] .ok) (1 : Fin 16)
     running sSemHeld = true ∧ hostOff sSemHeld = false ∧ semOwner u (1 : Fin 16) ≠ 0 ∧ bitsOf 0x00120003 16 8 = semOwner u (1 : Fin 16) ∧
      bitsOf 0x00120003 0 16 = semGen u (1 : Fin 16) ∧ semOwner u (1 : Fin 16) ≠ (0xEF : BitVec 8).toNat ∧
      bitsOf 0x00120004 0 16 ≠ semGen u (1 : Fin 16) ∧
      judgeSpine u .H true (regBase + bitsOf (BitVec.ofNat 32 R_BRG_CFG) 0 24) 4 true = none ∧
      (hit u .H (bitsOf (BitVec.ofNat 32 R_BRG_CFG) 0 24)).isSome = true ∧
      (judgeSpine u .H true (regBase + bitsOf (0xFFFFFC : Sys2Proof.Word) 0 24) 4 true).isSome = true ∧
      sSemHeld.time.ticks < tget 0 sSemHeld.bridge.lease (1 : Fin 16)) := by decide +kernel

/-- What a clause of RegisterRequests asks of the register at an offset. -/
def hitIs (s : State) (off : Nat) (p : Hit → Bool) : Bool := (hit s .H off).any p

theorem wit_RegisterRequests :
    (accepts sUp .F = true ∧ regBase ≤ regAcc.addr ∧ regAcc.addr < regBase + 0x1000000 ∧
      judgeSpine sUp .F true regAcc.addr (4 * regAcc.words.length) (allEnabled regAcc) = none) ∧
    (accepts sSpi .H = true ∧ onSpi sSpi = true ∧
      judgeSpine sSpi .H true regAcc.addr (4 * regAcc.words.length) (allEnabled regAcc) = none) ∧
    (accepts sUp .F = true ∧ (0 : Nat) < regBase ∧ regBase + 0x1000000 ≤ (regBase + 0x1000000 : Nat)) ∧
    (accepts sPcie .H = true ∧ onSpi sPcie = false ∧ (0x20 : Nat) < 0x1000000 ∧
      judgeSpine sPcie .H true (regBase + 0x20) 4 (allEnabled { addr := 0x20, words := [1], enables := [] }) = none ∧
      judgeSpine sPcie .H false (regBase + 0x20) 4 (allEnabled { addr := 0x20, words := [1], enables := [] }) = none) ∧
    judgeSpine sUp .F true regAcc.addr (4 * regAcc.words.length) false = some (.form, regAcc.addr) ∧
    (running sSpi = true ∧ hostOff sSpi = false ∧ onSpi sSpi = true ∧ (0x13FFFC : BitVec 24).toNat % 4 = 0 ∧ (0x13FFFC : BitVec 24).toNat + 4 ≤ 0x140000 ∧
      commitsOf (0x13FFFC : BitVec 24).toNat 1 = []) ∧
    (hitIs sLocked 0x24C (fun h => ! h.flat && ! fbClosed sLocked h.a && decide (h.row.wl ≠ 0) && decide (h.row.rw = 0) && decide (h.row.w1c = 0) &&
      decide (h.row.wo = 0) && decide (h.a ≠ R_PWR_WAKE_CAUSE)) = true ∧ bit sLocked R_SYS_LOCK 0 0 = true) ∧
    hitIs sSpi (0x44 : BitVec 24).toNat (fun h => ! h.flat && ! trgHidden sSpi h.a && decide (h.row.kind = .stat)) = true ∧
    (running sUp = true ∧ hostOff sUp = false ∧ (BitVec.ofNat 24 R_PORT_RXF).toNat % 4 = 0 ∧ (BitVec.ofNat 24 R_PORT_RXF).toNat + 4 ≤ 0x140000 ∧
      hitIs sUp (BitVec.ofNat 24 R_PORT_RXF).toNat (fun h => ! h.flat && ! trgHidden sUp h.a && decide (h.row.kind = .statLo)) = true) := by
  decide +kernel

theorem wit_SpiAndCommandTransport :
    (accepts sSpi .H = true ∧ onSpi sSpi = true ∧ sSpi.disp.spiReq.length < 4 ∧ sSpi.disp.spiRsp = [] ∧
      (spineRequest (begin_ sSpi) .H true { addr := (0x10000000 : Sys2Proof.Word).toNat, words := [0], enables := [] }).out.rstatus = some .ok ∧
      (16 ≤ (16 : BitVec 16).toNat ∧ (512 : BitVec 16).toNat ≤ 512 ∧ ¬ (16 ≤ (15 : BitVec 16).toNat))) ∧
    (accepts sSpiFull .H = true ∧ onSpi sSpiFull = true ∧ 4 ≤ sSpiFull.disp.spiReq.length) ∧
    (accepts sSpiRsp .H = true ∧ onSpi sSpiRsp = true ∧ sSpiRsp.disp.spiRsp = [aRsp] ∧ sSpiRsp.boot.resetOrdered ≠ some .spi) ∧
    (accepts sSpiReset .H = true ∧ onSpi sSpiReset = true ∧ (sSpiReset.disp.spiRsp.map Rsp.opcode) = [0x0122] ∧ sSpiReset.boot.resetOrdered = some .spi) ∧
    (running sRings = true ∧ ringHas sRings 4 = true ∧ ringOn sRings 5 = true ∧ dmaUp sRings = true ∧
      sRings.disp.ringReq.length + owedOn sRings .ring + 1 ≤ ringFree sRings 5 ∧ judgeD sRings false (ringBase sRings 4 + 512 * ringCons sRings 4) 512 = none) ∧
    ((ctxAt sInst .ring 2).isSome = true ∧ sInst.disp.ringReq = []) ∧
    (accepts sPcie .H = true ∧ onSpi sPcie = false ∧ (2 : Fin 3).val ≠ 0 ∧ (3 : Fin 4).val ≠ 0) := by decide +kernel

theorem wit_SpiAndCommandTransport_inv : sPcie.Inv ∧ (1 < 16 ∧ 1 ≤ semOwner sSemHeld 1 ∧ semOwner sSemHeld 1 ≤ 0xEF) :=
  ⟨invBy (by decide +kernel), by decide +kernel⟩

theorem wit_HostPortAndMessages_tx :
    (running sRings = true ∧ hpReady sRings = true ∧ hpModes sRings = true ∧ judgeD sRings false (ringBase sRings 0 + 32 * ringCons sRings 0) 32 = none ∧
      hpBad hpDesc = false ∧ hpBad { hpDesc with len := 0 } = true ∧ judgeD sRings false hpDesc.buf.toNat hpDesc.len.toNat = none ∧
      (judgeD sRings false (2 ^ 63 : BitVec 64).toNat hpDesc.len.toNat).isSome = true ∧
      (parseCarried (hpType hpDesc) (padTo hpDesc.len.toNat hpBytes)).isSome = true ∧ hpLock hpDesc = false) ∧
    (hpLock hpLocked = true ∧ hpBad hpLocked = false ∧ semOwner (semSettle (begin_ sRings) (hpSem hpLocked)) (hpSem hpLocked) = 0 ∧
      (parseCarried (hpType hpLocked) (padTo hpLocked.len.toNat hpBytes)).isSome = true) ∧
    (running sRingsSem = true ∧ hpReady sRingsSem = true ∧ hpModes sRingsSem = true ∧
      judgeD sRingsSem false (ringBase sRingsSem 0 + 32 * ringCons sRingsSem 0) 32 = none ∧
      judgeD sRingsSem false hpLocked.buf.toNat hpLocked.len.toNat = none ∧ semOwner (semSettle (begin_ sRingsSem) (hpSem hpLocked)) (hpSem hpLocked) ≠ 0) ∧
    (running sRingsAppr = true ∧ hpReady sRingsAppr = true ∧ hpModes sRingsAppr = false ∧
      judgeD sRingsAppr false (ringBase sRingsAppr 0 + 32 * ringCons sRingsAppr 0) 32 = none) := by decide +kernel

theorem wit_HostPortAndMessages :
    (onSpi sRings = false ∧ hostLost sRings = false ∧ sRings.bridge.dmaFails < 7) ∧
    (running sBusyN = true ∧ onSpi sBusyN = false ∧ hostLost sBusyN = false ∧ sBusyN.bridge.dmaFails < 7 ∧
      ((engOf sBusyN (0 : Fin 2)).job.map Job.vault) = some false) ∧
    (running sHpRx = true ∧ hpModes sHpRx = true ∧ ringHas sHpRx 2 = true ∧ ringOn sHpRx 3 = true ∧ dmaUp sHpRx = true ∧ 1 ≤ ringFree sHpRx 3 ∧
      judgeD sHpRx false (ringBase sHpRx 2 + 8 * ringCons sHpRx 2) 8 = none ∧
      ((hpTop sHpRx).bind fun x => (frameOf sHpRx x.2.h).map fun f => needsRsq x.2 f) = some false) ∧
    (running sMsix = true ∧ fld sMsix R_BRG_CFG 0 2 = 2 ∧ dmaUp sMsix = true ∧ vecOwed sMsix (0 : Fin 64) ≠ [] ∧
      vecRested sMsix (0 : Fin 64) = true) := by decide +kernel

theorem wit_FramesEnterTheSwitch :
    (clocked sRx = true ∧ lineShut sRx rxBad.ing = false ∧ rxBad.ing.val < 96 ∧ laneTakes sRx rxBad.ing rxBad.content = true ∧ rxBad.ok = false ∧
      lineShut sLoop rxBad.ing = true ∧ clocked sLoop = true) ∧
    (clocked sRx = true ∧ lineShut sRx (97 : Fin 106) = false ∧ portLink sRx 1 = true) ∧
    (actValid (tget 0 sRx.tables.can 5) = true ∧ actType (tget 0 sRx.tables.can 5) = 1 ∧ actStrEn (tget 0 sRx.tables.can 5) = false ∧
      honoured sRx (actSafe (tget 0 sRx.tables.can 5)) (actSvc (tget 0 sRx.tables.can 5)) = true ∧
      actValid (tget 0 sRx.tables.can 6) = false ∧ bit sRx R_TBL_MISS_CFG 0 0 = false) ∧
    (running sStuck = true ∧ sStuck.cipher.waits = [] ∧ sStuck.net.stuck.any (fun x => decide (x.p = (2 : Fin 4).val)) = true ∧
      sStuck.net.stuck.any (fun x => decide (x.p = (3 : Fin 4).val)) = false) := by decide +kernel

/-- A payload, the low bytes of the freshness value 9 and its truncated CMAC; and the same payload with another tag. -/
theorem wit_SecuredFramesAreJudged :
    (laVerify sLa 3 ([1, 2, 3, 4] ++ beBytes (laFv sLa 3) 9 ++ laTag sLa 3 [1, 2, 3, 4] 9)).1 = true ∧
    (laVerify sLa 3 ([1, 2, 3, 5] ++ beBytes (laFv sLa 3) 9 ++ laTag sLa 3 [1, 2, 3, 4] 9)).1 = false := by decide +kernel

theorem wit_SecuredFramesAreJudged_inv : sLa.Inv ∧ 3 < 1024 := ⟨invBy (by decide +kernel), by decide⟩

theorem wit_RefillGainsExactlyTheRate : 1 ≤ 7 ∧ (3 : Nat) < 7 ∧ 2 + 5 * 3 < 20 ∧ bit sPol R_POL_CFG 4095 2 = true ∧
    sPol.time.refillMiss.contains 4095 = false ∧ fldi sPol R_POL_TC 4095 0 16 < bps sPol ∧ fldi sPol R_POL_TP 4095 0 16 < bps sPol := by decide +kernel

theorem wit_RefillGainsExactlyTheRate_inv : sPol.Inv := invBy (by decide +kernel)

theorem wit_EgressStartsAndEndsFrames :
    (running sTx = true ∧ egrReady sTx (3 : Fin 106) = false ∧ pers sTx (3 : Fin 106) = 1 ∧ ((egrOf sTx (3 : Fin 106)).tx.bind fun x => frameOf sTx x.2.h).isSome = true ∧
      (laneOf sTx (3 : Fin 106)).backoff = false ∧ loopOf sTx (3 : Fin 106) = 0 ∧ ((egrOf sTx (98 : Fin 106)).tx.bind fun x => frameOf sTx x.2.h).isSome = true ∧
      loopOf sTx (98 : Fin 106) = 0) ∧
    (running sTxLoop = true ∧ loopOf sTxLoop (3 : Fin 106) ≠ 0 ∧ loopOf sTxLoop (98 : Fin 106) ≠ 0 ∧
      (((egrOf sTxLoop (3 : Fin 106)).tx.bind fun x => frameOf sTxLoop x.2.h).map fun f => (f.xform, f.content)) =
        some (0, .can 5 false false false false 2 [0xAA, 0xBB]) ∧
      (((egrOf sTxLoop (98 : Fin 106)).tx.bind fun x => frameOf sTxLoop x.2.h).map fun f => (f.xform, f.content)) =
        some (0, .eth (List.replicate 60 0)) ∧
      (((egrOf sTxConv (3 : Fin 106)).tx.bind fun x => frameOf sTxConv x.2.h).map Frame.xform) = some 1 ∧ loopOf sTxConv (3 : Fin 106) ≠ 0) ∧
    (running sQd = true ∧ egrReady sQd (3 : Fin 106) = true ∧ pick (dropOversize (begin_ sQd) (3 : Fin 106)) (3 : Fin 106) = (some 1, begin_ sQd) ∧
      eligible (begin_ sQd) (3 : Fin 106) 1 = some 0 ∧
      ((queueOf (begin_ sQd) (3 : Fin 106) 1)[0]?.bind fun x => (frameOf (begin_ sQd) x.h).map fun f => needsRsq x f) = some false ∧
      clusterPort (begin_ sQd) (3 : Fin 106) = false) := by decide +kernel

theorem wit_EgressStartsAndEndsFrames_launch :
    (running sLaunch = true ∧ ((queueOf sLaunch (97 : Fin 104) (2 : Fin 8)).head?.map fun x => x.launch.isSome && launchDue sLaunch x.launch) = some true ∧
      (queueOf sLaunch (97 : Fin 104) (2 : Fin 8)).length = 1 ∧
      ((queueOf sLaunch (97 : Fin 104) (2 : Fin 8)).head?.map fun x => launchMissed sLaunch x.launch) = some true) ∧
    (running sLin = true ∧ pers sLin (30 : Fin 96) = 2 ∧ laneOn sLin (30 : Fin 96) = true ∧ bit sLin R_LANE_CFG (30 : Fin 96) 5 = false ∧
      linRateOk sLin (30 : Fin 96) 19200 = true ∧ linRateOk sLin (30 : Fin 96) 10000 = false ∧
      bb (linEntry sLin (30 : Fin 96) (9 : Fin 64)) 0 = true ∧ bb (linEntry sLin (30 : Fin 96) (9 : Fin 64)) 48 = true ∧
      (laneOf sLin (30 : Fin 96)).st = .active ∧ (egrOf sLin (30 : Fin 96)).tx = none ∧
      bb (linEntry sLin (30 : Fin 96) (10 : Fin 64)) 0 = true ∧ bb (linEntry sLin (30 : Fin 96) (10 : Fin 64)) 48 = false) ∧
    (running sLinCmd = true ∧ pers sLinCmd (30 : Fin 96) = 2 ∧ laneOn sLinCmd (30 : Fin 96) = true ∧ bit sLinCmd R_LANE_CFG (30 : Fin 96) 5 = true ∧
      bb (linEntry sLinCmd (30 : Fin 96) (9 : Fin 64)) 48 = true) ∧
    (((linOldest sLin (30 : Fin 96) (9 : Fin 64)).bind fun x => (queueOf sLin (30 : Fin 96) x.2.1)[x.2.2]?.bind fun y =>
      (frameOf sLin x.1).map fun f => needsRsq y f) = some false) := by decide +kernel

/-- What a queue's entry at an index, its frame and the place toVerify names show. -/
def atQueue (s : State) (e : Fin 106) (q : Fin 8) (p : QEnt → Frame → Bool) : Bool :=
  match toVerify s e q with
  | some i => ((queueOf s e q)[i]?.bind fun x => (frameOf s x.h).map fun f => p x f) == some true
  | none => false

theorem wit_CarryCheckAtEgress :
    (running sCarry = true ∧ clusterPort sCarry (3 : Fin 106) = false ∧ (3 : Fin 106).val ≠ 104 ∧
      atQueue sCarry (3 : Fin 106) (1 : Fin 8) (fun x f =>
        ! x.verified && ! f.bad && decide (carryOver (stampBytes f) (carried f.content) = f.carry) &&
        decide (carryOver (stampBytes f) [1, 2] ≠ f.carry)) = true) ∧
    (running sCarryBad = true ∧ atQueue sCarryBad (3 : Fin 106) (1 : Fin 8) (fun x f => ! x.verified && f.bad) = true) ∧
    (running sCarryHlb = true ∧ clusterPort sCarryHlb (96 : Fin 106) = true ∧
      atQueue sCarryHlb (96 : Fin 106) (1 : Fin 8) (fun x f =>
        ! x.verified && ! f.bad && decide (carryOver (stampBytes f) (carried f.content) = f.carry)) = true) ∧
    (running sCarryHp = true ∧ (104 : Fin 106).val = 104 ∧ atQueue sCarryHp (104 : Fin 106) (1 : Fin 8) (fun _ f => ! f.bad) = true) ∧
    ((1 : Sys2Proof.Word) ≠ 2 ∧ (105 : BitVec 8).toNat ≤ 105 ∧ (4095 : BitVec 16).toNat ≤ 4095 ∧ (999999999 : BitVec 64).toNat % 2 ^ 30 ≤ 999999999) := by
  decide +kernel

theorem wit_CarryCheckAtEgress_report :
    Granted 0x0510 (reqOf 0x0510 0) 0 (judgeRight true false false false (inModes [.rented, .drive, .service, .depot])) (inMode .rented) := by
  exact grantedBy (by decide +kernel)

theorem wit_ResequencingAndSpill :
    (running sRsq = true ∧ ((ctxOf sRsq 5 (97 : Fin 106)).map fun c => c.slots.any fun x => match x.2 with
        | some (.held _ t) => decide (t + fld sRsq R_SW_RSQ_CFG 0 16 * ticksPerUs ≤ sRsq.time.ticks)
        | _ => false) = some true ∧
      ((ctxOf sRsq 6 (97 : Fin 106)).map ctxEmpty) = some true) ∧
    (running sSpill = true ∧ bufMode sSpill (0 : Fin 4) = 1 ∧ fld sSpill (R_SW_PG_SHI + 0x10 * (0 : Fin 4).val) 0 17 < charged sSpill (0 : Fin 4) ∧
      charged sSpill (1 : Fin 4) ≤ fld sSpill (R_SW_PG_SHI + 0x10 * (1 : Fin 4).val) 0 17) ∧
    (running sUp = true ∧ bufMode sUp (0 : Fin 4) ≠ 1) := by decide +kernel

theorem wit_HelberMembership :
    (running sHlb = true ∧ hlbKind sHlb ≠ 0 ∧ hlbKeyOk sHlb = true ∧ routing sHlb = true ∧ domainPort sHlb (0 : Fin 8) = true ∧
      known (peerOf sHlb (5 : BitVec 12).toNat) = true ∧ (peerOf sHlb 5).seqRef = some 9 ∧ seqLater 10 (9 : Sys2Proof.Word).toNat 32 = true ∧
      seqLater 9 (9 : Sys2Proof.Word).toNat 32 = false ∧ ownNode sHlb ≠ 77 ∧ (peerOf sHlb (6 : BitVec 12).toNat).st = .lost ∧
      joined (peerOf sHlb (5 : BitVec 12).toNat) = true ∧ (rd sHlb R_HLB_REV_SEQ).toNat < (peerOf sHlb (5 : BitVec 12).toNat).revSeq ∧
      tget 0 sHlb.hlb.pulls (5 : BitVec 12).toNat = 0) ∧
    (hlbFrm.formOk = true ∧ hlbFrm.domain = rd sHlb R_HLB_DOMAIN ∧ isForward hlbFrm.body = false ∧ frameCmacOk sHlb hlbFrm = true ∧
      isHello hlbFrm.body = false ∧ hlbFrm.src = 5 ∧ hlbFrm.seq = 10 ∧ hlbFrm.dst = 77 ∧
      frameCmacOk sHlb { hlbFrm with tag := 0 } = false ∧ (peerOf sHlb 7).seqRef = none) ∧
    (running sHlbKey = true ∧ hlbKind sHlbKey ≠ 0 ∧ hlbKeyOk sHlbKey = false ∧ sHlbKey.hlb.keyFail = false) := by decide +kernel

theorem wit_HelberBlobsAndTables :
    (running sBlob = true ∧ ((sBlob.hlb.blobs.find? (fun b => decide (b.src = (5 : BitVec 12).toNat) && decide (b.id = 8))).map fun b =>
        ! b.done && decide ((List.range 3).filter (fun k => ! b.segs.any fun x => decide (x.1 = k)) ≠ []) &&
        decide ((List.range 1).filter (fun k => ! b.segs.any fun x => decide (x.1 = k)) = [])) = some true ∧
      ((sBlob.hlb.blobs.find? (fun b => decide (b.src = (5 : BitVec 12).toNat) && decide (b.id = 9))).map BlobIn.done) = some true ∧
      (sBlob.hlb.blobs.find? (fun b => decide (b.src = (6 : BitVec 12).toNat) && decide (b.id = 8))) = none) ∧
    (running sPush = true ∧ (sPush.hlb.push.map fun p => decide (pushMissing p ≠ []) && decide (p.rounds < 3)) = some true) ∧
    (running sPushed = true ∧ (sPushed.hlb.push.map fun p => decide (pushMissing p = [])) = some true) ∧
    ((let u := heard 0x0C03 (reqOf 0x0C03 1) 1 sPushIn
      judgeD u false (0x1000 : BitVec 64).toNat (0x8000 : Sys2Proof.Word).toNat = none ∧ (64 : Sys2Proof.Word).toNat ≤ blobLimit (1 : BitVec 8).toNat ∧ u.hlb.push = none ∧
        judgeD u false (0x1000 : BitVec 64).toNat (64 : Sys2Proof.Word).toNat = none ∧
        dmaUp u = true ∧ blobOk u (1 : BitVec 8).toNat (padTo 64 []) none = true) ∧
     (let u := heard 0x0402 (reqOf 0x0402 0) 0 sHlb
      posOk (1 : BitVec 8).toNat 0 = true ∧ ownNode u ≤ 4095 ∧ (5 : BitVec 16).toNat ≠ ownNode u ∧ hlbKind u ≠ 0 ∧
        joined (peerOf u (5 : BitVec 16).toNat) = true ∧ hlbUp u = true)) := by dsimp only; decide +kernel

theorem wit_HelberBlobsAndTables_served :
    Served 0x0C02 (reqOf 0x0C02 0) 0 judgeHostAwake sUp ∧
    Granted 0x0C03 (reqOf 0x0C03 1) 1 (judgeRight false true false false (fun m => decide (m = .depot))) sPushIn ∧
    Served 0x0402 (reqOf 0x0402 0) 0 judgeHostAwake sHlb := by
  refine ⟨?_, ?_, ?_⟩
  · exact servedBy (by decide +kernel)
  · exact grantedBy (by decide +kernel)
  · exact servedBy (by decide +kernel)

theorem wit_SystemCommands_maker :
    Granted 0x0120 (reqOf 0x0120 3) 3 judgeRecovery sMaker ∧ Granted 0x0121 (reqOf 0x0121 3) 3 judgeMaker sMaker ∧
    Granted 0x0121 (reqOf 0x0121 3) 3 judgeMaker sMakerFinal ∧
    (Granted 0x0122 (reqOf 0x0122 3) 3 judgeRecovery sMaker ∧ (reqOf 0x0122 3).chan = .ring) ∧
    (Granted 0x0122 (reqIn 0x0122 .spi 3 5) 3 judgeRecovery sMakerSpi ∧ (reqIn 0x0122 .spi 3 5).chan = .spi) ∧
    Granted 0x0130 (reqOf 0x0130 3) 3 judgeMaker sMaker ∧ Granted 0x0130 (reqOf 0x0130 3) 3 judgeMaker sMaker1 ∧
    Granted 0x0130 (reqOf 0x0130 3) 3 judgeMaker sMaker3 := by
  refine ⟨?_, ?_, ?_, ⟨?_, rfl⟩, ⟨?_, rfl⟩, ?_, ?_, ?_⟩ <;> exact grantedBy (by decide +kernel)

theorem wit_SystemCommands_granted :
    Granted 0x0141 (reqOf 0x0141 0) 0 judgeHostAwake sPcie ∧ Granted 0x0D03 (reqOf 0x0D03 2) 2 judgeInstaller sInst ∧
    Granted 0x0140 (reqOf 0x0140 2) 2 judgeInstaller sInst ∧ Served 0x0D04 (reqOf 0x0D04 0) 0 judgeHostAwake sTelRec := by
  refine ⟨?_, ?_, ?_, servedBy (by decide +kernel)⟩ <;> exact grantedBy (by decide +kernel)

theorem wit_SystemCommands :
    (let u := heard 0x0120 (reqOf 0x0120 3) 3 sMaker
     judgeD u false (0x1000 : BitVec 64).toNat (4096 : Sys2Proof.Word).toNat = none ∧ (4096 : Sys2Proof.Word).toNat ≤ 1048576 ∧ dmaUp u = true ∧
       imageSigned u fwGood = true ∧ fwGood.svn ≤ 32 ∧ u.fuses.govFwMin ≤ fwGood.svn) ∧
    (let u := taken (reqOf 0x0120 0) sRecovery
     running sRecovery = true ∧ roomFor sRecovery .ring = true ∧ waiting sRecovery .ring = [] ∧ sRecovery.boot.recovery = true ∧
       judgeD u false (0x1000 : BitVec 64).toNat (4096 : Sys2Proof.Word).toNat = none ∧ dmaUp u = true ∧ imageSigned u fwGood = true ∧
       u.fuses.govFwMin ≤ fwGood.svn) ∧
    ((heard 0x0121 (reqOf 0x0121 3) 3 sMaker).fuses.govFwMin ≠ 32 ∧ (heard 0x0121 (reqOf 0x0121 3) 3 sMakerFinal).fuses.govFwMin = 32 ∧
      fwMin sUp ≤ 32) ∧
    ((heard 0x0130 (reqOf 0x0130 3) 3 sMaker).fuses.govLc.code + 1 = (1 : BitVec 8).toNat ∧
      (let u := heard 0x0130 (reqOf 0x0130 3) 3 sMaker1
       u.fuses.govLc.code + 1 = (2 : BitVec 8).toNat ∧ u.vault.rootPresent = true ∧ roleKeyOk u 1 = true ∧ roleKeyOk u 2 = true ∧ roleKeyOk u 3 = true) ∧
      (heard 0x0130 (reqOf 0x0130 3) 3 sMaker3).fuses.govLc.code = 3 ∧ (lifecycle sMaker).code ≤ 2) ∧
    (let u := heard 0x0141 (reqOf 0x0141 0) 0 sPcie
     judgeD u true (0x1000 : BitVec 64).toNat (64 : Sys2Proof.Word).toNat = none ∧ (storedMap u).length ≤ 64 ∧ dmaUp u = true) ∧
    (let u := heard 0x0D04 (reqOf 0x0D04 0) 0 sTelRec
     u.bgs.telRecords = [aTel] ∧ judgeD u true (0x1000 : BitVec 64).toNat 1552 = none ∧ dmaUp u = true) ∧
    (running sReset = true ∧ sReset.boot.resetOrdered = some .spi) ∧
    (let u := heard 0x0D03 (reqOf 0x0D03 2) 2 sInst
     (laneOf u 0).st = .active ∧ u.net.loop.length < 8) ∧
    (let u := heard 0x0140 (reqOf 0x0140 2) 2 sInst
     judgeD u false (0x1000 : BitVec 64).toNat (BitVec.ofNat 32 (mapLen [])).toNat = none ∧ (BitVec.ofNat 32 (mapLen [])).toNat = mapLen [] ∧ dmaUp u = true ∧
       mapCheck [] 0 u = none ∧ epochFinal u = false) := by dsimp only; decide +kernel

theorem wit_SystemCommands_lifecycle : (lifecycle sLcBlank).code ≤ 1 := by decide +kernel

/-- The session context of a request and what the checks of R33 find. -/
def heldIs (s : State) (r : Req) (p : Ctx → Bool) : Bool :=
  match heldCtx r s with
  | some c => p c
  | none => false

theorem wit_RefusedRequests :
    (running sRecovery = true ∧ roomFor sRecovery .ring = true ∧ (waiting sRecovery .ring).head? = none ∧ sRecovery.boot.recovery = true) ∧
    (running sOp = true ∧ roomFor sOp .ring = true ∧ sOp.boot.recovery = false ∧ (waiting sOp .ring).head? = none ∧
      heldCtx (reqIn 0x0D03 .ring 0x7777 5) sOp = none) ∧
    heldIs sOp { reqOf 0x0D03 1 with tag := 0 } (fun c => decide (c.role ≠ 0) && ! tagGood 0x0D03 { reqOf 0x0D03 1 with tag := 0 } c) = true ∧
    heldIs sOp (reqIn 0x0D03 .ring 1 3) (fun c => decide (c.role ≠ 0) && tagGood 0x0D03 (reqIn 0x0D03 .ring 1 3) c &&
      ! seqLater (3 : BitVec 32).toNat (lastHeard (reqIn 0x0D03 .ring 1 3) c sOp).toNat 32) = true ∧
    heldIs sOp (reqOf 0x0D03 1) (fun c => decide (c.role = 1) && tagGood 0x0D03 (reqOf 0x0D03 1) c &&
      seqLater (reqOf 0x0D03 1).seq.toNat (lastHeard (reqOf 0x0D03 1) c sOp).toNat 32 &&
      decide (judgeInstaller (noted (reqOf 0x0D03 1) 1 sOp) 1 = some .denied)) = true ∧
    heldIs sOp (reqOf 0x0D03 0) (fun c => decide (c.role = 0) && decide (judgeInstaller (noted (reqOf 0x0D03 0) 0 sOp) 0 = some .denied)) = true ∧
    (running sFull = true ∧ roomFor sFull .ring = true ∧ sFull.boot.recovery = false ∧ (waiting sFull .ring).head? = none) ∧
    heldIs sFull (reqOf 0x0902 1) (fun c => decide (c.role = 1) && tagGood 0x0902 (reqOf 0x0902 1) c &&
      seqLater (reqOf 0x0902 1).seq.toNat (lastHeard (reqOf 0x0902 1) c sFull).toNat 32 &&
      decide (judgeRight false true false false Mode.awake (noted (reqOf 0x0902 1) 1 sFull) 1 = none) &&
      ledgerLive (heard 0x0902 (reqOf 0x0902 1) 1 sFull) && ! ledgerRoom (heard 0x0902 (reqOf 0x0902 1) 1 sFull)) = true := by decide +kernel

theorem wit_EventsAndCounters :
    ((255 : Nat) < 256 ∧ bit sUp (R_EVT_PEND + 4 * (10 / 32)) 0 (10 % 32) = false ∧ bit (raiseN sUp 10) (R_EVT_PEND + 4 * (10 / 32)) 0 (10 % 32) = true) ∧
    ((5 : Sys2Proof.Word).toNat + 1 < 2 ^ 31 - 1 ∧ (0x7FFFFFFE - 0 : Sys2Proof.Word).toNat + 1 = 2 ^ 31 - 1) ∧ sFrozen.freeze.frozen = true ∧
    ((8191 : Nat) < 8192 ∧ (rdi sUp R_PORT_RXF 7).toNat + (rdi sUp (R_PORT_RXF + 4) 7).toNat * 2 ^ 32 + 64 < 2 ^ 63 - 1) ∧
    ((hit sUp .H R_SYS_IDENT).any fun h => decide (h.row.rw = 0) && decide (h.row.wl = 0) &&
      decide (h.row.w1c = 0) && decide (h.row.wo = 0) && decide (h.a ≠ R_PWR_WAKE_CAUSE)) = true := by decide +kernel

theorem wit_EventsAndCounters_inv : sUp.Inv ∧ sUp.freeze.frozen = false := ⟨invBy (by decide +kernel), by decide +kernel⟩

theorem wit_SequenceOrder : 1 ≤ 32 ∧ 0x80000005 < 2 ^ 32 ∧ (5 : Nat) < 2 ^ 32 ∧ (2 : Int) ^ (32 - 1) ≤ ((0x80000005 : Int) - 5) % 2 ^ 32 := by decide +kernel

/-! ### Ill-formed commands: one for each check of `Instr.wf` -/

/-- Fuse reads without an error. -/
def cleanRead : FuseRead := { data := 0, ecc := 0, corrected := 0 }
def cleanTriple : FuseTriple := { n := cleanRead, lo := cleanRead, hi := cleanRead }
/-- A read whose data and corrected data differ with no error. -/
def badTriple : FuseTriple := { cleanTriple with lo := { cleanRead with corrected := 1 } }
/-- A received frame of a content. -/
def rxOf (c : Content) : RxFrame :=
  { ing := 0, content := c, ok := true, stuck := none, pipe := 0, colour := 0, launch := none, prof := none, lock := none }
/-- A beat that meets nothing. -/
def quietBeat : BeatEnv :=
  { ovTelem := false, ovAge := false, ovFw := false, ovVault := false, polMiss := [], shMiss := [], gateMiss := [],
    temps := List.replicate 8 0, vbat := 1200, vcore := 800, fwCycles := 0, laneV := [] }

theorem test_wf_cold_reset_too_short : (Instr.coldReset (.resetN 49)).wf = false ∧ (Instr.coldReset (.resetN 50)).wf = true := by decide
theorem test_wf_fuse_reads : (Instr.startupFuse (List.replicate 127 cleanTriple) 25).wf = false ∧
    (Instr.startupFuse (badTriple :: List.replicate 127 cleanTriple) 25).wf = false ∧
    (Instr.fuseRecheck (List.replicate 129 cleanTriple) 25).wf = false ∧
    (Instr.startupFuse (List.replicate 128 cleanTriple) 25).wf = true := by decide +kernel
theorem test_wf_beat : (Instr.beatBoundary { quietBeat with temps := [] }).wf = false ∧
    (Instr.beatBoundary { quietBeat with polMiss := [4096] }).wf = false ∧
    (Instr.beatBoundary { quietBeat with shMiss := [832] }).wf = false ∧
    (Instr.beatBoundary { quietBeat with gateMiss := [104] }).wf = false ∧
    (Instr.beatBoundary { quietBeat with laneV := [(96, 0)] }).wf = false ∧ (Instr.beatBoundary quietBeat).wf = true := by decide +kernel
theorem test_wf_bgs_window :
    (Instr.bgsWindowStart { scrub := 4096, errors := [], lane := none, adc := none, wear := [], chain := none }).wf = false := by decide
theorem test_wf_frame : (Instr.frameReceive (rxOf (.eth (List.replicate 9217 0)))).wf = false ∧
    (Instr.frameReceive (rxOf (.can 2048 false false false false 0 []))).wf = false ∧
    (Instr.frameReceive (rxOf (.can 5 false false false false 1 [0, 0]))).wf = false ∧
    (Instr.frameReceive (rxOf (.can 5 false true false false 15 (List.replicate 65 0)))).wf = false ∧
    (Instr.frameReceive (rxOf (.xl 0 0 0 0 false []))).wf = false ∧
    (Instr.frameReceive (rxOf (.xl 0 0 0 0 false (List.replicate 2049 0)))).wf = false ∧
    (Instr.frameReceive (rxOf (.lin 0 (List.replicate 9 0)))).wf = false ∧
    (Instr.frameReceive { rxOf (.lin 0 []) with launch := some { dom := 0, ns := 2 ^ 48 * 1000000000 } }).wf = false ∧
    (Instr.frameReceive (rxOf (.can 2047 false false false false 1 [0]))).wf = true := by decide +kernel
theorem test_wf_carry_verify : (Instr.carryVerify 0 0 (some (List.replicate 9473 0))).wf = false := by decide +kernel
theorem test_wf_pause : (Instr.pauseReceived 0 true 1 []).wf = false := by decide
theorem test_wf_sq_tail : (Instr.ciphSqTailWrite 0 0 (List.replicate 4096 0)).wf = false := by decide +kernel
theorem test_wf_store_job : (Instr.storeJob 0 8 ⟨1, []⟩ false).wf = false ∧ (Instr.storeJob 0 16 ⟨1, []⟩ false).wf = true := by decide
theorem test_wf_apdu : (Instr.nfcApdu ⟨.selectApp [1, 2, 3, 4], false⟩).wf = false ∧ (Instr.nfcApdu ⟨.selectApp (List.replicate 17 0), false⟩).wf = false ∧
    (Instr.nfcApdu ⟨.update 0 (List.replicate 256 0), true⟩).wf = false := by decide +kernel
theorem test_wf_access : (Instr.regWrite .H .spine { addr := 0, words := [], enables := [] }).wf = false ∧
    (Instr.rcRead .H .spine { addr := 0, words := [0], enables := [0xF, 0xF] }).wf = false ∧
    (Instr.tagWiredAccess .H true { addr := 2 ^ 64, words := [0], enables := [] }).wf = false := by decide
theorem test_wf_spi_write : (Instr.spiWrite 0 []).wf = false ∧ (Instr.spiWrite 0 (List.replicate 33 0)).wf = false := by decide
theorem test_wf_cmd_put : (Instr.cmdPut 513 0 0 0).wf = false := by decide
theorem test_wf_hp_tx : (Instr.hpTxDescriptor hpDesc (List.replicate 9217 0) false false).wf = false := by decide +kernel
theorem test_wf_helber : (Instr.helberReceive 0 { hlbFrm with body := .push 0 1 512 (List.replicate 64 0) }).wf = false ∧
    (Instr.helberReceive 0 { hlbFrm with body := .push 0 1 0 (List.replicate 1025 0) }).wf = false ∧
    (Instr.helberReceive 0 { hlbFrm with body := .pushAck 0 [1024] }).wf = false ∧
    (Instr.helberReceive 0 { hlbFrm with body := .forward 0 0 0 (.lin 0 (List.replicate 9 0)) 0 }).wf = false ∧
    (Instr.helberReceive 0 { hlbFrm with body := .queryRsp true (List.replicate 9 0) }).wf = false := by decide +kernel
theorem test_wf_push_ack : (Instr.pushAckSend 0 0 1025 none true).wf = false ∧
    (Instr.pushAckSend 0 0 2 (some { fwGood with pub := [] }) true).wf = false := by decide
theorem test_wf_tbl_read : (Instr.tblRead (reqOf 0x0402 0) 0 0 0 0 0 (some (true, []))).wf = false := by decide
theorem test_wf_entry_submit : (Instr.entrySubmit (reqOf 0x0902 0) [0] (List.replicate 512 0) []).wf = false := by decide +kernel
theorem test_wf_transmit_end : (Instr.frameTransmitEnd 0 true (.lin 0 (List.replicate 9 0))).wf = false := by decide
theorem test_wf_images : (Instr.startupFw { fwGood with pub := [] } fwGood).wf = false ∧
    (Instr.fwLoad (reqOf 0x0120 0) 0 0 { fwGood with pub := [] } true).wf = false ∧
    (Instr.hlbPush (reqOf 0x0C03 0) 3 0 0 ⟨[], some { fwGood with pub := [] }⟩ true true).wf = false := by decide +kernel
theorem test_wf_session_open : (Instr.sessionOpen (reqOf 0x0111 0) 1 60 0 0 [] (List.replicate 64 0)).operandsWf = false ∧
    (Instr.sessionOpen (reqOf 0x0111 0) 1 60 0 0 (List.replicate 64 0) []).operandsWf = false := by decide +kernel
theorem test_wf_key_update : (Instr.keyUpdate (reqOf 0x0701 0) { msgBase with iv := [], tag := List.replicate 16 0, sig := List.replicate 64 0 }).operandsWf = false ∧
    (Instr.keyUpdate (reqOf 0x0701 0) { msgBase with tag := [], sig := List.replicate 64 0 }).operandsWf = false ∧
    (Instr.keyUpdate (reqOf 0x0701 0) { msgBase with tag := List.replicate 16 0 }).operandsWf = false := by decide +kernel
/-- R515: the parameter bytes are those that the operands spell. -/
theorem test_wf_params : (Instr.sysReset { reqOf 0x0122 3 with params := [1, 0, 0, 0] } 0).wf = false ∧
    (Instr.sysReset { reqOf 0x0122 3 with params := [0, 0, 0, 0] } 0).wf = true := by decide +kernel

/-! ### Commands on small states; the expected values are worked out by hand from the rules named -/

/-- What a command's next state shows. -/
def after {α : Type} (i : Instr) (s : State) (f : State → α) : Option α :=
  match exec i s with
  | .next t => some (f t)
  | _ => none

/-- The cold values of Tables 22.3 to 22.6. -/
theorem test_cold_values : rd State.reset R_SYS_IDENT = 0x9640 ∧ rd State.reset R_PWR_VTH = 0x00763C37 ∧ rd State.reset R_TIME_BEAT = 0x161 ∧
    rdi State.reset R_LANE_FLT_CFG 95 = 0xC8800064 ∧ rdi State.reset R_PORT_PAUSE_WD 7 = 0x006403E8 ∧
    rdi State.reset R_SW_Q_PMAX 0 = 0x10010010 ∧ rdi State.reset R_SCH_GCL_STAT 97 = 0xFF ∧ rd State.reset (R_FB_CFG + 0x300) = 0x40008246 ∧
    rd State.reset R_BRG_HP_CFG = 0x800 ∧ rd State.reset R_BGS_CFG = 0x000A0400 := by decide +kernel
/-- The algorithms of R357 on the examples that FIPS 180-4, FIPS 197, RFC 4493 and the GCM specification give. -/
theorem test_sha256 : sha256 (ascii "abc") = beBytes 32 0xba7816bf8f01cfea414140de5dae2223b00361a396177a9cb410ff61f20015ad := by decide +kernel
theorem test_aes : aes (beBytes 16 0x000102030405060708090a0b0c0d0e0f) (beBytes 16 0x00112233445566778899aabbccddeeff) =
    beBytes 16 0x69c4e0d86a7b0430d8cdb78070b4c55a := by decide +kernel
theorem test_cmac : cmac (beBytes 16 0x2b7e151628aed2a6abf7158809cf4f3c) [] = beBytes 16 0xbb1d6929e95937287fa37d129b756746 := by decide +kernel
theorem test_gcm : gcmTag (List.replicate 32 0) (List.replicate 12 0) [] [] = beBytes 16 0x530f8afbc74536b9a963b4f1c4cb738b := by decide +kernel
/-- Twice the base point of P-256, and a signature by its scalar. -/
theorem test_p256 : ecPublic 2 = beBytes 32 0x7cf27b188d034f7e8a52380304b51ac3c08969e277f21b35a60b48fc47669978 ++
      beBytes 32 0x07775510db8ed040293d9ac69f7430dbba7dade63ce982299e04b79d227873d1 ∧
    ecdsaVerify (ecPublic 2) [1, 2, 3] (ecdsaSign 2 9 [1, 2, 3]) = true ∧ ecdsaVerify (ecPublic 2) [1, 2, 4] (ecdsaSign 2 9 [1, 2, 3]) = false := by
  decide +kernel
/-- The Castagnoli CRC of R315 over the usual check string. -/
theorem test_crc32c : crc32c [0x31, 0x32, 0x33, 0x34, 0x35, 0x36, 0x37, 0x38, 0x39] = 0xE3069283 := by decide +kernel
/-- R15: later, and not later, by SEQ counters of 32 bits. -/
theorem test_seq_later : seqLater 0 0xFFFFFFFF 32 = true ∧ seqLater 0x7FFFFFFF 0 32 = true ∧ seqLater 0x80000000 0 32 = false ∧
    seqLater 7 7 32 = false := by decide +kernel
/-- R10: a STAT counter saturates at its last count with SAT. -/
theorem test_stat_saturates : statNext 0x7FFFFFFE = 0xFFFFFFFF ∧ statNext 0xFFFFFFFF = 0xFFFFFFFF ∧ statNext 9 = 10 := by decide
/-- No word of the table spells a command. -/
theorem test_no_words : decodeTableWord 16 0x1234 = none ∧ State.reset.withFetchWord 16 0x1234 = State.reset := by decide +kernel
/-- An empty queue: one 4 ns tick of local time. -/
theorem test_idle_tick : (match step sUp with
    | .next t => decide (t.time.ticks = sUp.time.ticks + 1) && t.pending.isEmpty
    | _ => false) = true := by decide +kernel
/-- The front of the queue runs, and the rest stays. -/
theorem test_front_runs : (match step { sUp with pending := [.sagTrip true, .wstat] } with
    | .next t => decide (t.pending = [.wstat]) && decide (t.power.step = 1) && t.power.vcSag
    | _ => false) = true := by decide +kernel
/-- R3, R5: a class F write of PWR_TIMERS. -/
theorem test_write_timers : after (.regWrite .F .spine { addr := regBase + R_PWR_TIMERS, words := [0x0048000A], enables := [] }) sUp
    (fun t => (rd t R_PWR_TIMERS, t.out.rstatus)) = some (0x0048000A, some .ok) := by decide +kernel
/-- R6: a reserved encoding leaves the field and raises RESERVED_ENC. -/
theorem test_reserved_encoding : after (.regWrite .F .spine { addr := regBase + R_PWR_TIMERS, words := [0x00480009], enables := [] }) sUp
    (fun t => (rd t R_PWR_TIMERS, bit t R_EVT_PEND 0 1)) = some (0x00480078, true) := by decide +kernel
/-- R380: the host does not write what a command configures. -/
theorem test_host_writes_no_cfg : after (.regWrite .H .spine { addr := regBase + R_TBL_AGE_CFG, words := [10], enables := [] }) sSpi
    (fun t => rd t R_TBL_AGE_CFG) = some 0x12C := by decide +kernel
/-- R388: a host request to vault memory is refused, counted and captured. -/
theorem test_vault_memory_refused : after (.regWrite .H .spine { addr := 0x1000000, words := [1], enables := [] }) sSpi
    (fun t => (rd t R_SYS_ACC_DENY, rd t R_SYS_ACC_FIRST_STAT, rd t R_SYS_ACC_FIRST_LO, bit t R_EVT_PEND 0 4, t.mem.length)) =
    some (1, 0x80030201, 0x1000000, true, 0) := by decide +kernel
/-- R500, R501: acquire, and release with the generation; GEN counts on. -/
theorem test_semaphore : after (.semAcquire .H 3 0x12) sUp (fun t => rd t (semStat 3)) = some 0x80120000 ∧
    after (.semRelease .H 1 0x00120003) sSem (fun t => rd t (semStat 1)) = some 4 := by decide +kernel
/-- R440: the oldest queued entry takes the next sequence. -/
theorem test_ledger_commit : after (.ledgerCommit true) sLdg (fun t => (t.ledger.nextSeq, t.ledger.head, t.ledger.queue.length, rd t R_LDG_WR)) =
    some (2, some 1, 0, 1) := by decide +kernel
/-- Table 3.2: APPROACH without business passes to SENTRY. -/
theorem test_approach_idle : after .approachIdleExpiry sUp (fun t => (t.power.recorded, t.power.phase)) = some (.sentry, .asleep) := by
  decide +kernel
/-- R219: a frame of identifier 5 on lane 0 is queued, UNICAST to egress 0. -/
theorem test_can_frame_routed : after (.frameReceive (rxOf (.can 5 false false false false 2 [0xAA, 0xBB]))) sRx
    (fun t => ((queueOf t 0 0).length, rdi t R_LANE_RXF 0)) = some (1, 1) := by decide +kernel
/-- R322: a frame whose bytes changed on chip is dropped at the egress. -/
theorem test_carry_failure : after (.carryVerify 3 1 (some [1, 2])) sCarry (fun t => ((queueOf t 3 1).length, rd t R_CCK_FAIL)) = some (0, 1) ∧
    after (.carryVerify 3 1 none) sCarry (fun t => ((queueOf t 3 1).map QEnt.verified, rd t R_CCK_FAIL)) = some ([true], 0) := by
  decide +kernel
/-- R456, R457: a consistent tooth after tooth 5 is tooth 6. -/
theorem test_tooth : after (.toothEdge 0 2000) sSync (fun t => ((ttOf t 0).tooth, (ttOf t 0).st)) = some (6, .sync) := by decide +kernel
/-- R402: the NFC Forum application is selected with 9000, another is not found. -/
theorem test_nfc_select : after (.nfcApdu ⟨.selectApp [0xD2, 0x76, 0, 0, 0x85, 1, 1], false⟩) sField (fun t => t.out.bytes) = some [0x90, 0x00] ∧
    after (.nfcApdu ⟨.selectApp [1, 2, 3, 4, 5], false⟩) sField (fun t => t.out.bytes) = some [0x6A, 0x82] := by decide +kernel
/-- R301: at reset every gate is open. -/
theorem test_gates_open : gateOpen State.reset 97 7 = true := by decide +kernel

end Sys2Proof.Tests
end

section
namespace Sys2Proof.Machine

theorem seqLater_iff (a b w : Nat) :
    seqLater a b w = true ↔ 1 ≤ (a + 2 ^ w - b) % 2 ^ w ∧ (a + 2 ^ w - b) % 2 ^ w ≤ 2 ^ (w - 1) - 1 := by
  simp [seqLater]

/-- The difference of two values of a SEQ counter, taken modulo 2^w in the naturals as the model does. -/
theorem seqDiff_eq_cast {b w : Nat} (a : Nat) (hb : b < 2 ^ w) :
    ((a : Int) - b) % 2 ^ w = ((a + 2 ^ w - b) % 2 ^ w : Nat) := by
  have h : ((a + 2 ^ w - b : Nat) : Int) = (a : Int) - b + 2 ^ w := by
    rw [Nat.cast_sub (by omega)]
    push_cast
    ring
  rw [Int.natCast_emod, h, Nat.cast_pow, Nat.cast_ofNat, Int.add_emod_right]

theorem seqDiff_eq_zero_iff {a b w : Nat} (ha : a < 2 ^ w) (hb : b < 2 ^ w) : ((a : Int) - b) % 2 ^ w = 0 ↔ a = b := by
  rw [← Int.emod_eq_emod_iff_emod_sub_eq_zero, Int.emod_eq_of_lt (by omega) (by exact_mod_cast ha),
    Int.emod_eq_of_lt (by omega) (by exact_mod_cast hb), Nat.cast_inj]

/-- Settles O60: the model's difference in the naturals is the rule's difference in the integers. -/
theorem sequenceOrder : Obligations.SequenceOrder := by
  unfold Obligations.SequenceOrder
  intro a b w _ ha hb
  have hpos : 1 ≤ 2 ^ (w - 1) := Nat.one_le_two_pow
  have hcast : ((2 : Int) ^ (w - 1)) = ((2 ^ (w - 1) : Nat) : Int) := by push_cast; rfl
  refine ⟨?_, seqDiff_eq_zero_iff ha hb, ?_⟩
  · rw [seqLater_iff, seqDiff_eq_cast a hb, hcast]
    omega
  · rw [seqDiff_eq_cast a hb, hcast, ← Bool.not_eq_true, seqLater_iff]
    omega

/-- Settles O4: every part of the invariant is a closed fact of the state after reset, whose tables are empty. -/
theorem resetMeetsTheInvariant : Obligations.ResetMeetsTheInvariant where
  sound :=
    { regs := rfl
      mem := rfl
      step := by decide
      odo := by decide }
  clock :=
    { sec := by decide
      frac := by decide
      trimLo := by decide
      trimHi := by decide }

/-! ## Monotone counters -/

/-- The mark that compares the odometer and the next ledger sequence alone. -/
def countersMark (odo seq : Option Nat) : Mark :=
  { pending := none, clock := none, beat := none, odo := odo, seq := seq, map := none, slots := none }

/-- A sound state agrees with the mark of its own odometer. -/
theorem kept_own_odo {s : State} (h : s.Sound) : Kept True (countersMark (some s.wheels.odo) none) s where
  pending _ e := nomatch e
  clock _ e := nomatch e
  beat _ e := nomatch e
  seq _ e := nomatch e
  map _ e := nomatch e
  slots _ e := nomatch e
  odo _ _ e := Nat.le_of_eq (Option.some.inj e).symm
  sound _ := h

/-- Any state agrees with the mark of its own ledger sequence. -/
theorem kept_own_seq (s : State) : Kept False (countersMark none (some s.ledger.nextSeq)) s where
  pending _ e := nomatch e
  clock _ e := nomatch e
  beat _ e := nomatch e
  seq _ e := Nat.le_of_eq (Option.some.inj e).symm
  map _ e := nomatch e
  slots _ e := nomatch e
  odo c := c.elim
  sound c := c.elim

/-- The state that a command answers keeps every mark that the command's operation keeps. -/
theorem exec_next_kept {C : Prop} {odo seq : Option Nat} {c : Instr} {s t : State} (h : Kept C (countersMark odo seq) s)
    (ho : movesOdo c = true → odo = none) (hs : movesSeq c = true → seq = none) (ht : exec c s = .next t) :
    Kept C (countersMark odo seq) t := by
  obtain ⟨u, hu, hk⟩ := exec_kept c s h (fun _ => rfl) (fun _ => rfl) ho hs (fun _ => rfl) (fun _ => rfl)
  rw [ht] at hu
  cases hu
  exact hk

theorem exec_odo_le {c : Instr} {s t : State} (h : s.Sound) (hc : movesOdo c = false) (ht : exec c s = .next t) :
    s.wheels.odo ≤ t.wheels.odo :=
  (exec_next_kept (kept_own_odo h) (fun e => by rw [hc] at e; cases e) (fun _ => rfl) ht).odo trivial _ rfl

theorem exec_nextSeq_le {c : Instr} {s t : State} (hc : movesSeq c = false) (ht : exec c s = .next t) :
    s.ledger.nextSeq ≤ t.ledger.nextSeq :=
  (exec_next_kept (kept_own_seq s) (fun _ => rfl) (fun e => by rw [hc] at e; cases e) ht).seq _ rfl

theorem tick_odo_le {s : State} (h : s.Sound) : s.wheels.odo ≤ (tick s).wheels.odo :=
  (tick_kept s (kept_own_odo h) rfl rfl).odo trivial _ rfl

theorem tick_nextSeq_le (s : State) : s.ledger.nextSeq ≤ (tick s).ledger.nextSeq :=
  (tick_kept s (kept_own_seq s) rfl rfl).seq _ rfl

/-- Settles O6: every command, and a tick, keeps the mark of the counters that it may not lower. -/
theorem monoCountersNeverGoBack : Obligations.MonoCountersNeverGoBack := by
  unfold Obligations.MonoCountersNeverGoBack
  exact ⟨fun _ _ _ hs hc ht => exec_odo_le hs.sound hc ht, fun _ _ _ hc ht => exec_nextSeq_le hc ht,
    fun s hs => ⟨tick_odo_le hs.sound, tick_nextSeq_le s⟩⟩

end Sys2Proof.Machine
end

section
namespace Sys2Proof.Machine

/-! ## Bits of a word -/

theorem bitsOf_one (v : Word) (n : Nat) : bitsOf v n 1 = (v.getLsbD n).toNat := by
  unfold bitsOf BitVec.getLsbD
  rw [Nat.toNat_testBit, pow_one]

theorem getLsbD_fieldMask_one {n : Nat} (h : n < 32) : (fieldMask n 1).getLsbD n = true := by
  unfold fieldMask
  rw [BitVec.getLsbD_ofNat]
  simp [h]

theorem bit_eq_getLsbD (s : State) (a i n : Nat) : bit s a i n = (rdi s a i).getLsbD n := by
  unfold bit fldi
  rw [bitsOf_one]
  cases (rdi s a i).getLsbD n <;> rfl

theorem bit_orReg_same {s : State} (a i : Nat) {n : Nat} (h : Regs.wf s) (hn : n < 32) :
    bit (orReg s a i (fieldMask n 1)) a i n = true := by
  unfold orReg
  rw [bit_eq_getLsbD, rdi_wri_same _ _ _ _ h, BitVec.getLsbD_or, getLsbD_fieldMask_one hn, Bool.or_true]

/-! ## One occurrence of an event source (R576) -/

/-- The control firmware's own pending set takes source `n` (R578). -/
def fwTakes (s : State) (n : Nat) : State :=
  { s with bgs := { s.bgs with fwPend := s.bgs.fwPend ||| BitVec.ofNat 256 (2 ^ n) } }

@[simp] theorem rdi_fwTakes (s : State) (n a i : Nat) : rdi (fwTakes s n) a i = rdi s a i := rfl
@[simp] theorem rd_fwTakes (s : State) (n a : Nat) : rd (fwTakes s n) a = rd s a := rfl
@[simp] theorem bit_fwTakes (s : State) (n a i b : Nat) : bit (fwTakes s n) a i b = bit s a i b := rfl

theorem raiseN_frozen {s : State} (n : Nat) (h : s.freeze.frozen = true) :
    raiseN s n = { s with freeze := { s.freeze with held := s.freeze.held ++ [n] } } := by
  unfold raiseN
  rw [if_pos h]

/-- Outside freeze one occurrence of a source that is pending counts as a repeat. -/
theorem raiseN_pended {s : State} {n : Nat} (hf : s.freeze.frozen = false)
    (h : bit s (R_EVT_PEND + 4 * (n / 32)) 0 (n % 32) = true) :
    raiseN s n = statInc (fwTakes s n) (R_EVT_REPEAT + 4 * (n / 32)) := by
  unfold raiseN
  rw [if_neg (by rw [hf]; decide)]
  exact if_pos h

theorem rd_statInc_same {s : State} (a : Nat) (h : Regs.wf s) : rd (statInc s a) a = statNext (rd s a) :=
  rdi_wri_same _ _ _ _ h

theorem rd_statInc_other (s : State) {a b : Nat} (h : b ≠ a) : rd (statInc s a) b = rd s b := rd_wr_other s _ h

theorem bit_statInc_other (s : State) {a b : Nat} (n : Nat) (h : b ≠ a) : bit (statInc s a) b 0 n = bit s b 0 n :=
  bit_wr_other s _ n h

theorem rd_orReg_other (s : State) {a b : Nat} (m : Word) (h : b ≠ a) : rd (orReg s a 0 m) b = rd s b := rd_wr_other s _ h

/-- What an occurrence outside freeze leaves in the pending, enable and repeat registers of its source's group. -/
theorem raiseN_registers {s : State} (n : Nat) (hw : Regs.wf s) (hf : s.freeze.frozen = false) :
    bit (raiseN s n) (R_EVT_PEND + 4 * (n / 32)) 0 (n % 32) = true ∧
    rd (raiseN s n) (R_EVT_EN + 4 * (n / 32)) = rd s (R_EVT_EN + 4 * (n / 32)) ∧
    rd (raiseN s n) (R_EVT_REPEAT + 4 * (n / 32)) =
      if bit s (R_EVT_PEND + 4 * (n / 32)) 0 (n % 32) then statNext (rd s (R_EVT_REPEAT + 4 * (n / 32)))
      else rd s (R_EVT_REPEAT + 4 * (n / 32)) := by
  have hw' : Regs.wf (fwTakes s n) := hw
  have hpr : R_EVT_PEND + 4 * (n / 32) ≠ R_EVT_REPEAT + 4 * (n / 32) := by simp
  have her : R_EVT_EN + 4 * (n / 32) ≠ R_EVT_REPEAT + 4 * (n / 32) := by simp
  have hep : R_EVT_EN + 4 * (n / 32) ≠ R_EVT_PEND + 4 * (n / 32) := by simp
  by_cases hb : bit s (R_EVT_PEND + 4 * (n / 32)) 0 (n % 32) = true
  · rw [raiseN_pended hf hb, if_pos hb, bit_statInc_other _ _ hpr, rd_statInc_other _ her, rd_statInc_same _ hw']
    exact ⟨hb, rfl, rfl⟩
  · rw [raiseN_unpended s n hf (Bool.not_eq_true _ ▸ hb), if_neg hb]
    change bit (orReg (fwTakes s n) _ 0 _) _ 0 _ = true ∧ rd (orReg (fwTakes s n) _ 0 _) _ = _ ∧
      rd (orReg (fwTakes s n) _ 0 _) _ = _
    rw [bit_orReg_same _ _ hw' (Nat.mod_lt _ (by decide)), rd_orReg_other _ _ hep, rd_orReg_other _ _ hpr.symm]
    exact ⟨rfl, rfl, rfl⟩

/-! ## Counters (R10) -/

theorem toNat_statNext_of_lt {v : Word} (h : v.toNat + 1 < 2 ^ 31 - 1) : (statNext v).toNat = v.toNat + 1 := by
  unfold statNext
  rw [if_neg (by omega), if_neg (by omega), BitVec.toNat_ofNat]
  omega

theorem statNext_of_last {v : Word} (h : v.toNat + 1 = 2 ^ 31 - 1) : statNext v = 0xFFFFFFFF := by
  unfold statNext
  rw [if_neg (by omega), if_pos (by omega)]

@[simp] theorem statNext_allOnes : statNext 0xFFFFFFFF = 0xFFFFFFFF := rfl

theorem statPlus_allOnes (n : Nat) : statPlus 0xFFFFFFFF n = 0xFFFFFFFF := by
  unfold statPlus
  split
  · rfl
  · rw [if_pos (by simp)]

/-- Adding below all ones. -/
theorem statPlus_of_lt {v : Word} {n : Nat} (hv : v.toNat < 2 ^ 31 - 1) (h : v.toNat + n < 2 ^ 31 - 1) :
    statPlus v n = BitVec.ofNat 32 (v.toNat + n) := by
  unfold statPlus
  split
  · simp [*]
  · rw [if_neg (by omega), Nat.mod_eq_of_lt (by omega)]

theorem statPlus_of_ge {v : Word} {n : Nat} (hv : v.toNat < 2 ^ 31 - 1) (h : 2 ^ 31 - 1 ≤ v.toNat + n) :
    statPlus v n = 0xFFFFFFFF := by
  unfold statPlus
  rw [if_neg (by omega), if_pos (by omega)]

theorem statPlus_succ {v : Word} (n : Nat) (hv : v.toNat < 2 ^ 31 - 1) : statPlus v (n + 1) = statNext (statPlus v n) := by
  by_cases h : v.toNat + n < 2 ^ 31 - 1
  · have ht : (statPlus v n).toNat = v.toNat + n := by
      rw [statPlus_of_lt hv h, BitVec.toNat_ofNat]
      omega
    by_cases h' : v.toNat + (n + 1) < 2 ^ 31 - 1
    · refine BitVec.eq_of_toNat_eq ?_
      rw [toNat_statNext_of_lt (by omega), ht, statPlus_of_lt hv h', BitVec.toNat_ofNat]
      omega
    · rw [statNext_of_last (by omega), statPlus_of_ge hv (by omega)]
  · rw [statPlus_of_ge hv (by omega), statPlus_of_ge hv (by omega), statNext_allOnes]

theorem statPlus_eq_repeat (v : Word) (n : Nat) (hv : v.toNat < 2 ^ 31 - 1 ∨ v = 0xFFFFFFFF) :
    statPlus v n = Nat.repeat statNext n v := by
  induction n with
  | zero => rfl
  | succ n ih =>
    rw [Nat.repeat, ← ih]
    rcases hv with hv | rfl
    · exact statPlus_succ n hv
    · rw [statPlus_allOnes, statPlus_allOnes, statNext_allOnes]

/-- The low and the high word of a two-word counter, read after both are written. -/
theorem rdi_wri_pair {s : State} (a i : Nat) (v w : Word) (h : Regs.wf s) :
    rdi (wri (wri s a i v) (a + 4) i w) a i = v ∧ rdi (wri (wri s a i v) (a + 4) i w) (a + 4) i = w := by
  have hk : regKey a i ≠ regKey (a + 4) i := by unfold regKey; omega
  exact ⟨(rdi_wri_other _ _ hk).trans (rdi_wri_same s a i v h), rdi_wri_same _ _ _ _ (wri_regs s a i v h)⟩

/-- A two-word counter counts across its words while it stays below all ones of 63 bits. -/
theorem stat2AddI_value {s : State} (a i n : Nat) (hw : Regs.wf s)
    (h : (rdi s a i).toNat + (rdi s (a + 4) i).toNat * 2 ^ 32 + n < 2 ^ 63 - 1) :
    (rdi (stat2AddI s a i n) a i).toNat + (rdi (stat2AddI s a i n) (a + 4) i).toNat * 2 ^ 32 =
      (rdi s a i).toNat + (rdi s (a + 4) i).toNat * 2 ^ 32 + n := by
  unfold stat2AddI
  dsimp only
  split
  · omega
  · rw [if_neg (by omega)]
    obtain ⟨hlo, hhi⟩ := rdi_wri_pair a i (BitVec.ofNat 32 ((rdi s (a + 4) i).toNat % 2 ^ 31 * 2 ^ 32 + (rdi s a i).toNat + n))
      (BitVec.ofNat 32 (((rdi s (a + 4) i).toNat % 2 ^ 31 * 2 ^ 32 + (rdi s a i).toNat + n) / 2 ^ 32)) hw
    rw [hlo, hhi, BitVec.toNat_ofNat, BitVec.toNat_ofNat]
    omega

/-! ## Writes of the host that store nothing (R2) -/

/-- The host stores nothing in a trigger channel of the vault (R151). -/
theorem writeMask_host_hidden {s : State} {h : Hit} (ht : trgHidden s h.a = true) : writeMask s .H h = 0 := by
  unfold writeMask
  dsimp only
  rw [ht]
  rfl

/-- The host stores to no field but those of access codes RW and WL. -/
theorem writeMask_host (s : State) (h : Hit) : ∃ k, writeMask s .H h = (h.row.rw ||| h.row.wl) &&& k := by
  have hall : ∃ k, h.row.rw ||| h.row.wl = (h.row.rw ||| h.row.wl) &&& k := ⟨BitVec.allOnes 32, BitVec.and_allOnes.symm⟩
  have hnone : ∃ k, (0 : Word) = (h.row.rw ||| h.row.wl) &&& k := ⟨0, BitVec.and_zero.symm⟩
  cases ht : trgHidden s h.a with
  | true => rw [writeMask_host_hidden ht]; exact hnone
  | false =>
    unfold writeMask
    dsimp only
    rw [ht, Bool.not_false, if_pos rfl]
    cases ringSlot h.a with
    | none => exact hall
    | some r =>
      dsimp only
      split
      · exact ⟨_, rfl⟩
      · rw [if_neg (by decide)]
        split
        · exact hnone
        · split
          · exact hnone
          · exact hall

/-- With no field stored to, no field can be left at a reserved encoding. -/
theorem reservedBits_zero (s : State) (h : Hit) (w : Word) : reservedBits s h 0 w = 0 := by
  unfold reservedBits
  simp

/-- The fields that a host write stores to while SYS_LOCK is closed or open (R4). -/
def hostMask (s : State) (h : Hit) : Word :=
  if decide (h.row.wl ≠ 0) && bit s R_SYS_LOCK 0 0 then writeMask s .H h &&& ~~~ h.row.wl else writeMask s .H h

/-- A host write that stores to no field and acts on none raises at most LOCKED_WRITE. -/
theorem writeReg_noField {s : State} {off : Nat} {h : Hit} (w : Word) (hh : hit s .H off = some h) (hf : h.flat = false)
    (hb : fbClosed s h.a = false) (hm : hostMask s h = 0) (h1 : h.row.w1c = 0) (ho : h.row.wo = 0)
    (ha : h.a ≠ R_PWR_WAKE_CAUSE) :
    writeReg .H off w s = if decide (h.row.wl ≠ 0) && bit s R_SYS_LOCK 0 0 then raise s .lockedWrite else s := by
  unfold hostMask at hm
  unfold writeReg
  rw [hh]
  dsimp only
  simp only [hf, hb, hm, reservedBits_zero, h1, ho, ha, ne_eq, not_true_eq_false, not_false_eq_true, false_and, and_true,
    ite_self, Bool.false_eq_true, Bool.and_false, if_false]
  exact if_pos BitVec.zero_and

/-- A register without a field that a host writes stores nothing of a host write. -/
theorem writeMask_host_of_readOnly {s : State} {h : Hit} (hrw : h.row.rw = 0) (hwl : h.row.wl = 0) : writeMask s .H h = 0 := by
  obtain ⟨k, hk⟩ := writeMask_host s h
  rw [hk, hrw, hwl, BitVec.or_self]
  exact BitVec.zero_and

theorem writeReg_readOnly {s : State} {off : Nat} {h : Hit} (w : Word) (hh : hit s .H off = some h) (hrw : h.row.rw = 0)
    (hwl : h.row.wl = 0) (h1 : h.row.w1c = 0) (ho : h.row.wo = 0) (ha : h.a ≠ R_PWR_WAKE_CAUSE) : writeReg .H off w s = s := by
  have hm : writeMask s .H h = 0 := writeMask_host_of_readOnly hrw hwl
  cases hf : h.flat with
  | true =>
    unfold writeReg
    rw [hh]
    exact if_pos hf
  | false =>
    cases hb : fbClosed s h.a with
    | true =>
      unfold writeReg
      rw [hh]
      dsimp only
      rw [hf, hb, hm]
      rfl
    | false =>
      have hu : (decide (h.row.wl ≠ 0) && bit s R_SYS_LOCK 0 0) = false := by rw [hwl]; rfl
      rw [writeReg_noField w hh hf hb (by unfold hostMask; rw [hu]; exact hm) h1 ho ha, hu]
      rfl

theorem writeReg_locked {s : State} {off : Nat} {h : Hit} (w : Word) (hh : hit s .H off = some h) (hf : h.flat = false)
    (hb : fbClosed s h.a = false) (hwl : h.row.wl ≠ 0) (hrw : h.row.rw = 0) (h1 : h.row.w1c = 0) (ho : h.row.wo = 0)
    (ha : h.a ≠ R_PWR_WAKE_CAUSE) (hl : bit s R_SYS_LOCK 0 0 = true) : writeReg .H off w s = raise s .lockedWrite := by
  have hc : (decide (h.row.wl ≠ 0) && bit s R_SYS_LOCK 0 0) = true := by rw [decide_eq_true hwl, hl]; rfl
  have hm : hostMask s h = 0 := by
    obtain ⟨k, hk⟩ := writeMask_host s h
    unfold hostMask
    rw [hc, if_pos rfl, hk, hrw]
    ext i
    simp +contextual
  rw [writeReg_noField w hh hf hb hm h1 ho ha, if_pos hc]

/-- Settles O59, clause by clause from what one occurrence, one increment and one host write do. -/
theorem eventsAndCounters : Obligations.EventsAndCounters := by
  unfold Obligations.EventsAndCounters
  refine ⟨fun s n hs hf _ => raiseN_registers n hs.sound.regs hf, fun s n hf => raiseN_frozen n hf,
    fun v hv => toNat_statNext_of_lt hv, ?_, fun v n hv => statPlus_eq_repeat v n hv,
    fun s a i n hs _ h => stat2AddI_value a i n hs.sound.regs h,
    fun s off w h hh hrw hwl h1 ho ha => writeReg_readOnly w hh hrw hwl h1 ho ha⟩
  rintro v (hv | rfl)
  · exact statNext_of_last hv
  · exact statNext_allOnes


/-! ## Requests through their targets (R383, R385, R388, R488) -/

/-- Class H reaches the spine itself only over quad-SPI (R488). -/
theorem targetRequest_spine {s : State} {c : Cls} (h : c = .H → onSpi s = true) (write : Bool) (acc : Access) :
    targetRequest s c .spine write acc = spineRequest s c write acc := by
  unfold targetRequest
  exact if_neg fun e => e.2 (h e.1)

theorem targetRequest_bar0 {s : State} {acc : Access} (h : onSpi s = false) (ha : acc.addr < 0x1000000) (write : Bool) :
    targetRequest s .H .bar0 write acc = spineRequest s .H write { acc with addr := regBase + acc.addr } := by
  unfold targetRequest
  dsimp only
  rw [if_neg (by simp [h]), if_pos ha]

theorem targetRequest_bar2 {s : State} (h : onSpi s = false) (write : Bool) (acc : Access) :
    targetRequest s .H .bar2 write acc = bar2Request s write acc := by
  unfold targetRequest
  exact if_neg (by simp [h])

variable {s : State} {c : Cls} {acc : Access} {write : Bool}

theorem spineRequest_granted (h1 : regBase ≤ acc.addr) (h2 : acc.addr < regBase + 0x1000000)
    (hj : judgeSpine s c write acc.addr (4 * acc.words.length) (allEnabled acc) = none) :
    spineRequest s c write acc = regAccess s c write acc := by
  unfold spineRequest
  rw [if_pos ⟨h1, h2⟩, hj]

theorem spineRequest_refused {r : Reason} {a : Nat} (h1 : regBase ≤ acc.addr) (h2 : acc.addr < regBase + 0x1000000)
    (hj : judgeSpine s c write acc.addr (4 * acc.words.length) (allEnabled acc) = some (r, a)) :
    spineRequest s c write acc = refuseOut s c r a write := by
  unfold spineRequest
  rw [if_pos ⟨h1, h2⟩, hj]

theorem spineRequest_memory (h : acc.addr < regBase ∨ regBase + 0x1000000 ≤ acc.addr) :
    spineRequest s c write acc = memRequest s c write acc := by
  unfold spineRequest
  exact if_neg (by omega)

theorem exec_regWrite_accepted (t : Target) (h : accepts s c = true) :
    exec (.regWrite c t acc) s = .next (targetRequest (begin_ s) c t true acc) := by
  rw [exec_regWrite]
  exact congrArg _ (if_pos h)

theorem exec_rcRead_accepted (t : Target) (h : accepts s c = true) :
    exec (.rcRead c t acc) s = .next (targetRequest (begin_ s) c t false acc) := by
  rw [exec_rcRead]
  exact congrArg _ (if_pos h)

/-! ## One word of the listed registers -/

/-- While the device runs with a host interface on, requests of the host and of the control firmware are taken. -/
theorem accepts_of_running (hr : running s = true) (ho : hostOff s = false) (hc : c = .H ∨ c = .F) : accepts s c = true := by
  simp only [running, Bool.and_eq_true, decide_eq_true_eq, Bool.not_eq_true'] at hr
  obtain ⟨hp, hf⟩ := hr
  rcases hc with rfl | rfl
  · simp [accepts, ho, hf, hp]
  · simp [accepts, hf, hp]

theorem regWord1_accepted (off : Nat) (w : Word) (h : accepts s c = true) :
    regWord1 s c write off w = spineRequest (begin_ s) c write { addr := regBase + off, words := [w], enables := [] } := by
  unfold regWord1
  exact if_pos h

/-- A write of one word by the host over quad-SPI is the write of that register. -/
theorem exec_regWrite_word {off : Nat} {w : Word} (hr : running s = true) (ho : hostOff s = false) (hs : onSpi s = true)
    (h4 : off % 4 = 0) (h : off + 4 ≤ 0x140000) (hm : commitsOf off 1 = []) :
    exec (.regWrite .H .spine { addr := regBase + off, words := [w], enables := [] }) s =
      .next (writeReg .H off w (outRead (begin_ s) [] .ok)) := by
  have ha := accepts_of_running hr ho (.inl rfl)
  rw [exec_regWrite_accepted _ ha, targetRequest_spine (s := begin_ s) (fun _ => hs), ← regWord1_accepted _ _ ha,
    regWord1_write hr ho (.inl rfl) h4 h hm]

theorem exec_rcRead_word {off : Nat} {w : Word} (hr : running s = true) (ho : hostOff s = false) (hs : onSpi s = true)
    (h4 : off % 4 = 0) (h : off + 4 ≤ 0x140000) :
    exec (.rcRead .H .spine { addr := regBase + off, words := [w], enables := [] }) s =
      .next (outRead (readReg .H off (begin_ s)).2 [(readReg .H off (begin_ s)).1] .ok) := by
  have ha := accepts_of_running hr ho (.inl rfl)
  rw [exec_rcRead_accepted _ ha, targetRequest_spine (s := begin_ s) (fun _ => hs), ← regWord1_accepted _ _ ha,
    regWord1_read hr ho (.inl rfl) h4 h]

theorem readReg_hit {off : Nat} {h : Hit} (hh : hit s c off = some h) : readReg c off s = (seen s c h, readEffect s c h) := by
  unfold readReg
  rw [hh]

/-- A host read clears a one-word counter (R11). -/
theorem readEffect_stat {h : Hit} (hf : h.flat = false) (ht : trgHidden s h.a = false) (hk : h.row.kind = .stat) :
    readEffect s .H h = wri s h.a h.inst 0 := by
  unfold readEffect
  rw [hf, ht, hk]
  rfl

/-- A host read of the low word of a two-word counter clears both words and keeps the high one in the shadow (R11). -/
theorem readEffect_statLo {h : Hit} (hf : h.flat = false) (ht : trgHidden s h.a = false) (hk : h.row.kind = .statLo) :
    readEffect s .H h =
      wri (wri { s with shadow := tset 0 s.shadow (regKey (h.a + 4) h.inst) (rdi s (h.a + 4) h.inst) } h.a h.inst 0)
        (h.a + 4) h.inst 0 := by
  unfold readEffect
  rw [hf, ht, hk]
  rfl

/-! ## What a class sees of a register does not depend on the outputs -/

@[simp] theorem viewTime_begin (s : State) (a : Nat) : viewTime (begin_ s) a = viewTime s a := by
  have hd : domOf (begin_ s) = domOf s := rfl
  have hn : nsNow (begin_ s) = nsNow s := rfl
  have ht : trgAct (begin_ s) = trgAct s := rfl
  unfold viewTime
  rw [hd, hn, ht, begin__time]

@[simp] theorem viewAng_begin (s : State) (a : Nat) : viewAng (begin_ s) a = viewAng s a := by
  have hh : healthy (begin_ s) = healthy s := rfl
  have ht : ttOf (begin_ s) = ttOf s := rfl
  have hv : viewTt (begin_ s) = viewTt s := rfl
  unfold viewAng
  rw [hh, ht, hv, standstill_begin, odoTracker_begin, fld_begin, begin__wheels]

@[simp] theorem viewFb_begin (s : State) (a : Nat) : viewFb (begin_ s) a = viewFb s a := by
  have hb : boltOf (begin_ s) = boltOf s := rfl
  have hf : fbOf (begin_ s) = fbOf s := rfl
  have hh : held (begin_ s) = held s := rfl
  unfold viewFb
  rw [hb, hf, hh, begin__wheels]

@[simp] theorem viewBits_begin (s : State) (a i : Nat) : viewBits (begin_ s) a i = viewBits s a i := by
  unfold viewBits
  rw [viewSys_begin, viewPwr_begin, viewTime_begin, viewLane_begin, viewPort_begin, viewTbl_begin, viewSw_begin, viewVlt_begin,
    viewNfc_begin, viewLdg_begin, viewAng_begin, viewFb_begin, viewBrg_begin, viewHlb_begin, viewBgs_begin, viewDbg_begin]

@[simp] theorem regWord_begin (s : State) (a i : Nat) : regWord (begin_ s) a i = regWord s a i := by
  unfold regWord
  rw [rdi_begin, viewBits_begin]

@[simp] theorem seen_begin (s : State) (c : Cls) (h : Hit) : seen (begin_ s) c h = seen s c h := by
  unfold seen
  rw [regWord_begin, trgHidden_begin, selOf_begin]
  rfl

/-! ## The latching reads of the ledger's clocks (R451) -/

/-- The row of a read-only register of one word with no vault field, kept over every reset. -/
def clockRow (a : Nat) : RegRow :=
  { base := a, stride := 4, count := 1, win := .none, kind := .plain, cold := 0, coldKeep := 0xFFFFFFFF, warmKeep := 0xFFFFFFFF,
    rw := 0, w1c := 0, wl := 0, wo := 0, vs := 0, cfg := 0, vrw := 0, chk := [] }

/-- A register without a window, outside the lane and port banks, is reached at its own offset. -/
theorem hit_of_row {off : Nat} {r : RegRow} (hb : off / 65536 ≠ 3 ∧ off / 65536 ≠ 4) (hr : regRow off = some r)
    (hw : r.win = .none) : hit s c off = some ⟨r, off, 0, false⟩ := by
  unfold hit
  simp [hb, hr, hw, winInst]


/-- Masking out no bit. -/
theorem and_not_zero (v : Word) : v &&& ~~~ (0 : Word) = v := BitVec.and_allOnes

/-- A class of the normal world sees the whole word of a plain register with no write-only and no vault field. -/
theorem seen_plain {h : Hit} (hc : vaultLike c = false) (hk : h.row.kind = .plain) (ho : h.row.wo = 0) (hv : h.row.vs = 0)
    (hs : selectors.contains h.a = false) (ht : trgHidden s h.a = false) : seen s c h = regWord s h.a h.inst := by
  unfold seen
  rw [hk, hs, ho, hv, hc, ht]
  exact (and_not_zero _).trans (and_not_zero _)

theorem readEffect_plain {h : Hit} (hf : h.flat = false) (ht : trgHidden s h.a = false) (hk : h.row.kind = .plain) :
    readEffect s c h = loLatch s h.a := by
  unfold readEffect
  rw [hf, ht, hk]
  rfl

/-- No register outside the TRG windows is hidden as one of the vault's channels. -/
theorem trgHidden_of_noChan {a : Nat} (h : trgChan a = none) : trgHidden s a = false := by
  unfold trgHidden
  rw [h]

/-- What the address of a register of `clockRow` has to be for a class of the normal world to read its whole word. -/
structure ClockAddr (a : Nat) : Prop where
  bank : a / 65536 ≠ 3 ∧ a / 65536 ≠ 4
  row : regRow a = some (clockRow a)
  sel : selectors.contains a = false
  trg : trgChan a = none
  aligned : a % 4 = 0
  listed : a + 4 ≤ 0x140000

theorem readReg_clock {a : Nat} (ha : ClockAddr a) (hc : c = .H ∨ c = .F) : readReg c a s = (regWord s a 0, loLatch s a) := by
  have hv : vaultLike c = false := by rcases hc with rfl | rfl <;> rfl
  rw [readReg_hit (hit_of_row ha.bank ha.row rfl), seen_plain hv rfl rfl rfl ha.sel (trgHidden_of_noChan ha.trg),
    readEffect_plain rfl (trgHidden_of_noChan ha.trg) rfl]

/-- LDG_LO_READ of a clock returns its word and latches its HI register (R451). -/
theorem exec_ldgLoRead_clock {a : Nat} (ha : ClockAddr a) (hr : running s = true) (ho : hostOff s = false) (hc : c = .H ∨ c = .F) :
    exec (.ldgLoRead c (BitVec.ofNat 24 a)) s = .next (outRead (loLatch (begin_ s) a) [regWord s a 0] .ok) := by
  have hl := ha.listed
  have hn : (BitVec.ofNat 24 a).toNat = a := by
    rw [BitVec.toNat_ofNat]
    omega
  rw [exec_ldgLoRead]
  unfold execLdgLoRead
  rw [hn, regWord1_read hr ho hc ha.aligned hl, readReg_clock ha hc, regWord_begin]

theorem clockAddr_ltLo : ClockAddr R_LDG_LT_LO := by
  constructor <;> decide

theorem clockAddr_wallLo : ClockAddr R_LDG_WALL_LO := by
  constructor <;> decide

theorem loLatch_ltLo (s : State) :
    loLatch s R_LDG_LT_LO = { s with ledger := { s.ledger with shLtHi := timeHi (ltimeNow s) } } := rfl

theorem loLatch_wallLo (s : State) :
    loLatch s R_LDG_WALL_LO = { s with ledger := { s.ledger with shWallHi := timeHi (wall48 s) } } := rfl

/-! ## Writes that do no more than store -/

/-- The registers for which `storeReg` has an action of its own, by address. -/
def actingRegs : List Nat :=
  [R_PWR_ALARM, R_PWR_GATE_CLK, R_PWR_GATE_PWR, R_PWR_VTH, R_PWR_WAKE_CAUSE, R_PWR_HOLD, R_CCK_INJECT, R_BRG_STAT, R_EVT_TEST,
   R_LANE_FLT]

/-- A write to the register does no more than store the new word: it is no selector and none of those that act. -/
structure StoresPlainly (a : Nat) : Prop where
  sel : selectors.contains a = false
  act : a ∉ actingRegs
  pend : ¬ (R_EVT_PEND ≤ a ∧ a < R_EVT_PEND + 32)
  en : ¬ (R_EVT_EN ≤ a ∧ a < R_EVT_EN + 32)
  trg : trgChan a = none
  sem : semReg a = none
  ciph : ¬ (R_CIPH_SQ_BASE_LO ≤ a ∧ a < R_CIPH_SQ_BASE_LO + 0x200)

theorem storeReg_plain {h : Hit} (hp : StoresPlainly h.a) (old new w : Word) :
    storeReg c h old new w s = wri s h.a h.inst new := by
  have hact := hp.act
  simp only [actingRegs, List.mem_cons, List.not_mem_nil, or_false, not_or] at hact
  obtain ⟨h1, h2, h3, h4, h5, h6, h7, h8, h9, h10⟩ := hact
  unfold storeReg
  dsimp only
  rw [hp.sel, if_neg Bool.false_ne_true, if_neg h1, if_neg h2, if_neg h3, if_neg h4, if_neg h5, if_neg h6, if_neg h7, if_neg h8,
    if_neg h9, if_neg h10, if_neg hp.pend, if_neg hp.en, hp.trg, hp.sem]
  exact if_neg hp.ciph

/-- A host write to a register that stores plainly, whose fields take no reserved encoding and none of which is locked. -/
theorem writeReg_plain {off : Nat} {h : Hit} {m w : Word} (hh : hit s .H off = some h) (hf : h.flat = false)
    (hb : fbClosed s h.a = false) (hwl : h.row.wl = 0) (h1 : h.row.w1c = 0) (hm : writeMask s .H h = m) (hm0 : m ≠ 0)
    (hr : reservedBits s h m w = 0) (hp : StoresPlainly h.a) :
    writeReg .H off w s = wri s h.a h.inst ((rdi s h.a h.inst &&& ~~~ m) ||| (w &&& m)) := by
  unfold writeReg
  rw [hh]
  have hz : w &&& 0 = 0 := BitVec.and_zero
  simp only [hf, hb, hwl, hm, h1, hp.sel, hr, hz, and_not_zero, ne_eq, not_true_eq_false, decide_false, Bool.false_and,
    Bool.and_false, Bool.false_eq_true, if_false, ite_self, false_and]
  rw [if_neg (fun e => hm0 e.1), storeReg_plain hp]

/-! ## The vector map of the bridge -/

/-- The row of BRG_VMAPn. -/
def vmapRow : RegRow :=
  { base := R_BRG_VMAP, stride := 4, count := 64, win := .none, kind := .plain, cold := 0, coldKeep := 0, warmKeep := 0,
    rw := 0x3F3F3F3F, w1c := 0, wl := 0, wo := 0, vs := 0, cfg := 0, vrw := 0, chk := [] }

theorem regRow_vmap : ∀ n : Fin 64, regRow (R_BRG_VMAP + 4 * n.val) = some vmapRow := by decide

theorem storesPlainly_vmap (n : Fin 64) : StoresPlainly (R_BRG_VMAP + 4 * n.val) where
  sel := by revert n; decide
  act := by revert n; decide
  pend := by revert n; decide
  en := by revert n; decide
  trg := by revert n; decide
  sem := by revert n; decide
  ciph := by revert n; decide

theorem ringSlot_vmap : ∀ n : Fin 64, ringSlot (R_BRG_VMAP + 4 * n.val) = none := by decide

/-- A host write reaches every RW and WL field of a register that is no ring register and no channel of the vault. -/
theorem writeMask_host_all {h : Hit} (hr : ringSlot h.a = none) (ht : trgHidden s h.a = false) :
    writeMask s .H h = h.row.rw ||| h.row.wl := by
  unfold writeMask
  dsimp only
  rw [hr, ht]
  rfl

/-- A register without listed encodings, and none of those of R493, R510 and Table 9.8, takes every value. -/
theorem reservedBits_none {h : Hit} (hk : h.row.chk = []) (hb : h.a ≠ R_BRG_CFG) (hq : h.a ≠ R_SW_QSEL)
    (hr : ringSlot h.a = none) (m w : Word) : reservedBits s h m w = 0 := by
  unfold reservedBits extraReserved
  rw [hk, if_neg hb, if_neg hq, hr]
  simp

theorem fbClosed_outside {a : Nat} (h : ¬ (R_FB_CFG ≤ a ∧ a < R_FB_CFG + 0x400)) : fbClosed s a = false := by
  unfold fbClosed
  rw [← Bool.decide_and, decide_eq_false h, Bool.false_and]

/-- What the address of a register of `vmapRow` has to be for a host write to store its four vector fields alone. -/
structure VmapAddr (a : Nat) : Prop where
  bank : a / 65536 ≠ 3 ∧ a / 65536 ≠ 4
  row : regRow a = some vmapRow
  feedback : ¬ (R_FB_CFG ≤ a ∧ a < R_FB_CFG + 0x400)
  config : a ≠ R_BRG_CFG
  qsel : a ≠ R_SW_QSEL
  ring : ringSlot a = none
  plain : StoresPlainly a

theorem vmapAddr (n : Fin 64) : VmapAddr (R_BRG_VMAP + 4 * n.val) where
  bank := by revert n; decide
  row := regRow_vmap n
  feedback := by revert n; decide
  config := by revert n; decide
  qsel := by revert n; decide
  ring := ringSlot_vmap n
  plain := storesPlainly_vmap n

/-- A word written by the host to BRG_VMAPn changes its four vector fields. -/
theorem writeReg_vmap {a : Nat} (ha : VmapAddr a) (s : State) (w : Word) :
    writeReg .H a w s = wr s a ((rd s a &&& ~~~ 0x3F3F3F3F) ||| (w &&& 0x3F3F3F3F)) := by
  have hh : hit s .H a = some ⟨vmapRow, a, 0, false⟩ := hit_of_row ha.bank ha.row rfl
  have hm : writeMask s .H ⟨vmapRow, a, 0, false⟩ = 0x3F3F3F3F := by
    rw [writeMask_host_all ha.ring (trgHidden_of_noChan ha.plain.trg)]
    exact BitVec.or_zero
  have h := writeReg_plain (w := w) hh rfl (fbClosed_outside ha.feedback) rfl rfl hm (by decide)
    (reservedBits_none rfl ha.config ha.qsel ha.ring _ _) ha.plain
  exact h

/-! ## The obligation on register requests -/

/-- A request to REG through the spine is carried out or refused by the spine's judgement (R383, R385, R388). -/
theorem exec_spine_reg (ha : accepts s c = true) (hs : c = .H → onSpi s = true) (h1 : regBase ≤ acc.addr)
    (h2 : acc.addr < regBase + 0x1000000) :
    (∀ w, judgeSpine s c w acc.addr (4 * acc.words.length) (allEnabled acc) = none →
      (w = true → exec (.regWrite c .spine acc) s = .next (regAccess (begin_ s) c true acc)) ∧
      (w = false → exec (.rcRead c .spine acc) s = .next (regAccess (begin_ s) c false acc))) ∧
    (∀ w r a, judgeSpine s c w acc.addr (4 * acc.words.length) (allEnabled acc) = some (r, a) →
      (w = true → exec (.regWrite c .spine acc) s = .next (refuseOut (begin_ s) c r a true)) ∧
      (w = false → exec (.rcRead c .spine acc) s = .next (refuseOut (begin_ s) c r a false))) := by
  rw [exec_regWrite_accepted _ ha, exec_rcRead_accepted _ ha, targetRequest_spine (s := begin_ s) hs,
    targetRequest_spine (s := begin_ s) hs]
  refine ⟨fun w hj => ⟨?_, ?_⟩, fun w r a hj => ⟨?_, ?_⟩⟩ <;> rintro rfl
  · rw [spineRequest_granted (s := begin_ s) h1 h2 hj]
  · rw [spineRequest_granted (s := begin_ s) h1 h2 hj]
  · rw [spineRequest_refused (s := begin_ s) h1 h2 hj]
  · rw [spineRequest_refused (s := begin_ s) h1 h2 hj]

theorem exec_spine_memory (ha : accepts s c = true) (hs : c = .H → onSpi s = true)
    (h : acc.addr < regBase ∨ regBase + 0x1000000 ≤ acc.addr) :
    exec (.regWrite c .spine acc) s = .next (memRequest (begin_ s) c true acc) ∧
    exec (.rcRead c .spine acc) s = .next (memRequest (begin_ s) c false acc) := by
  rw [exec_regWrite_accepted _ ha, exec_rcRead_accepted _ ha, targetRequest_spine (s := begin_ s) hs,
    targetRequest_spine (s := begin_ s) hs, spineRequest_memory h, spineRequest_memory h]
  exact ⟨rfl, rfl⟩

/-- A granted request through BAR0, whose offsets are those of REG (R488). -/
theorem targetRequest_bar0_granted (h : onSpi s = false) (ha : acc.addr < 0x1000000)
    (hj : judgeSpine s .H write (regBase + acc.addr) (4 * acc.words.length) (allEnabled acc) = none) :
    targetRequest (begin_ s) .H .bar0 write acc =
      regAccess (begin_ s) .H write { acc with addr := regBase + acc.addr } := by
  rw [targetRequest_bar0 (s := begin_ s) h ha]
  exact spineRequest_granted (Nat.le_add_right _ _) (Nat.add_lt_add_left ha _) hj

/-- Settles O46: each request is followed through its target, the spine's judgement and the word it reads or writes. -/
theorem registerRequests : Obligations.RegisterRequests := by
  unfold Obligations.RegisterRequests
  refine ⟨fun s c acc ha hs h1 h2 => exec_spine_reg ha hs h1 h2, fun s c acc ha hs h => exec_spine_memory ha hs h,
    fun s acc ha hp => ⟨?_, ?_, ?_, ?_⟩, fun s off w hr ho hs h4 h hm => exec_regWrite_word hr ho hs h4 h hm, fun s n w => writeReg_vmap (vmapAddr n) s w,
    fun s off w h hh hf hb hwl hrw h1 ho ha hl => writeReg_locked w hh hf hb hwl hrw h1 ho ha hl,
    fun s off w h hr ho hs h4 hlt hh hf ht hk => ?_, fun s off h hr ho h4 hlt hh hf ht hk => ?_,
    fun s c hr ho hc => ⟨?_, ?_⟩⟩
  · intro hlt hj
    rw [exec_regWrite_accepted _ ha, targetRequest_bar0_granted hp hlt hj]
  · intro hlt hj
    rw [exec_rcRead_accepted _ ha, targetRequest_bar0_granted hp hlt hj]
  · rw [exec_regWrite_accepted _ ha, targetRequest_bar2 (s := begin_ s) hp]
  · rw [exec_rcRead_accepted _ ha, targetRequest_bar2 (s := begin_ s) hp]
  · rw [exec_rcRead_word hr ho hs h4 hlt, readReg_hit (s := begin_ s) hh, readEffect_stat (s := begin_ s) hf ht hk, seen_begin]
  · rw [exec_statLowWordRead]
    unfold execStatLowWordRead
    rw [regWord1_read hr ho (.inl rfl) h4 hlt, readReg_hit (s := begin_ s) hh, readEffect_statLo (s := begin_ s) hf ht hk,
      seen_begin]
    rfl
  · rw [exec_ldgLoRead_clock clockAddr_ltLo hr ho hc, loLatch_ltLo]
    rfl
  · rw [exec_ldgLoRead_clock clockAddr_wallLo hr ho hc, loLatch_wallLo]
    rfl

end Sys2Proof.Machine
end

section
namespace Sys2Proof.Machine

/-! ## The register file over a reset (R7, R8) -/

/-- The word that a reset leaves in place of `v`: the bits of `m` stay, the others take the cold value `c`. -/
def coldOver (m v c : Word) : Word := (v &&& m) ||| (c &&& ~~~ m)

/-- A word at its cold value is at it after the reset as well. -/
theorem coldOver_self (m c : Word) : coldOver m c c = c := by
  unfold coldOver
  ext i hi
  simp only [BitVec.getElem_or, BitVec.getElem_and, BitVec.getElem_not]
  cases (m[i]) <;> simp

/-- What a canonical table reads as at a key, once every entry has been mapped and those at the unlisted value dropped. -/
theorem tabGet_filterMap {α : Type} [DecidableEq α] {d : Nat → α} (g : Nat → α → α) (hg : ∀ k, g k (d k) = d k) (k : Nat) :
    ∀ {t : Tab α} {b : Nat}, tabWfFrom d b t = true →
      tabGet d (t.filterMap fun x => if g x.1 x.2 = d x.1 then none else some (x.1, g x.1 x.2)) k = g k (tabGet d t k)
  | [], _, _ => (hg k).symm
  | (k', v) :: t, b, h => by
    have ht : tabWfFrom d (k' + 1) t = true := by
      simp only [tabWfFrom, Bool.and_eq_true] at h
      exact h.2
    have ih := tabGet_filterMap g hg k ht
    rw [tabGet_cons]
    by_cases hv : g k' v = d k'
    · rw [List.filterMap_cons_none (by simp [hv]), ih]
      split
      · next e =>
        subst e
        rw [tabGet_below ht (Nat.lt_succ_self _), hg, hv]
      · rfl
    · rw [List.filterMap_cons_some (b := (k', g k' v)) (by simp [hv]), tabGet_cons, ih]
      split
      · next e => rw [e]
      · rfl

theorem tabGet_rfReset (keep : RegRow → Word) {rf : Tab Word} (h : tabWf rfCold rf = true) (k : Nat) :
    tabGet rfCold (rfReset keep rf) k =
      coldOver (((regRow (k / 8192)).map keep).getD 0) (tabGet rfCold rf k) (rfCold k) :=
  tabGet_filterMap (fun k v => coldOver (((regRow (k / 8192)).map keep).getD 0) v (rfCold k)) (fun _ => coldOver_self _ _) k h

theorem regKey_div {a i : Nat} (hi : i < 8192) : regKey a i / 8192 = a := by
  unfold regKey
  omega

/-! ## A cold reset of the core -/

theorem sagAfter_quiet {s : State} (hc : s.power.vcSag = false) (hb : s.power.vbSag = false) : sagAfter s = s := by
  unfold sagAfter
  simp [hc, hb]

/-- The next rail of the order changes of the power state only what is enabled and awaited. -/
theorem railNext_power (s : State) (m : Mode) :
    ∃ en w, (railNext s m).power = { s.power with en := en, railWait := w } := by
  unfold railNext
  split
  · exact ⟨_, _, rfl⟩
  · split
    · exact ⟨_, _, rfl⟩
    · exact ⟨_, _, rfl⟩

@[simp] theorem railNext_phase (s : State) (m : Mode) : (railNext s m).power.phase = s.power.phase := by
  obtain ⟨_, _, h⟩ := railNext_power s m
  rw [h]

@[simp] theorem railNext_lowEnergy (s : State) (m : Mode) : (railNext s m).power.lowEnergy = s.power.lowEnergy := by
  obtain ⟨_, _, h⟩ := railNext_power s m
  rw [h]

@[simp] theorem railNext_pg (s : State) (m : Mode) : (railNext s m).power.pg = s.power.pg := by
  obtain ⟨_, _, h⟩ := railNext_power s m
  rw [h]

/-- What a cold reset leaves of a state, in a phase (R7): start-up at step 0 with its flags cleared, the queues of the
dispatcher, the configuration and the ledger empty, and the VBKP domain, the flash and the rails as they were. -/
structure ColdDone (p : Phase) (s t : State) : Prop where
  phase : t.power.phase = p
  lowEnergy : t.power.lowEnergy = s.power.lowEnergy
  pg : t.power.pg = s.power.pg
  boot : t.boot = bootReset
  disp : t.disp = dispReset
  changes : t.changes = []
  ledger : t.ledger = { s.ledger with queue := [], shLtHi := 0, shWallHi := 0 }
  odo : t.wheels.odo = s.wheels.odo
  map : t.map = s.map
  rf : t.rf = rfReset RegRow.coldKeep s.rf

variable {s t : State} {p : Phase}

theorem coldCore_done (hc : s.power.vcSag = false) (hb : s.power.vbSag = false) : ColdDone s.power.phase s (coldCore s) := by
  unfold coldCore
  dsimp only
  rw [sagAfter_quiet (by exact hc) (by exact hb)]
  exact ⟨rfl, rfl, rfl, rfl, rfl, rfl, rfl, rfl, rfl, rfl⟩

theorem lanesFollow_done (h : ColdDone p s t) : ColdDone p s (lanesFollow t) where
  phase := by rw [lanesFollow_power, h.phase]
  lowEnergy := by rw [lanesFollow_power, h.lowEnergy]
  pg := by rw [lanesFollow_power, h.pg]
  boot := by rw [lanesFollow_boot, h.boot]
  disp := by rw [lanesFollow_disp, h.disp]
  changes := by rw [lanesFollow_changes, h.changes]
  ledger := by rw [lanesFollow_ledger, h.ledger]
  odo := by rw [lanesFollow_wheels, h.odo]
  map := by rw [lanesFollow_map, h.map]
  rf := by rw [lanesFollow_rf, h.rf]

theorem railNext_done (m : Mode) (h : ColdDone p s t) : ColdDone p s (railNext t m) where
  phase := by rw [railNext_phase, h.phase]
  lowEnergy := by rw [railNext_lowEnergy, h.lowEnergy]
  pg := by rw [railNext_pg, h.pg]
  boot := by rw [railNext_boot, h.boot]
  disp := by rw [railNext_disp, h.disp]
  changes := by rw [railNext_changes, h.changes]
  ledger := by rw [railNext_ledger, h.ledger]
  odo := by rw [railNext_wheels, h.odo]
  map := by rw [railNext_map, h.map]
  rf := by rw [railNext_rf, h.rf]

/-- With VCORE on, the core then stands in start-up. -/
theorem coldFull_done (hc : s.power.vcSag = false) (hb : s.power.vbSag = false) : ColdDone .startup s (coldFull s) := by
  have h := coldCore_done hc hb
  exact lanesFollow_done { h with phase := rfl, lowEnergy := h.lowEnergy, pg := h.pg }

/-- A cold reset gives every register word its Cold value but for the fields marked K (R8). -/
theorem rdi_of_coldDone (h : ColdDone p s t) (hw : Regs.wf s) (a : Nat) {i : Nat} (hi : i < 8192) :
    rdi t a i = coldOver (((regRow a).map RegRow.coldKeep).getD 0) (rdi s a i) (regCold a) := by
  unfold rdi
  rw [h.rf, tabGet_rfReset _ hw, regKey_div hi]
  unfold rfCold
  rw [regKey_div hi]

theorem exec_coldReset_ignored {ns : Nat} (h : vioUp s = false ∨ ns < 50) :
    exec (.coldReset (.resetN ns)) s = .next (begin_ s) := by
  rw [exec_coldReset]
  unfold execColdReset
  dsimp only
  rw [if_pos (by rw [vioUp_begin]; simpa using h)]

theorem exec_coldReset_resetN {ns : Nat} (hv : vioUp s = true) (hn : 100 ≤ ns) :
    exec (.coldReset (.resetN ns)) s = .next (coldFull (draw (begin_ s)).2) := by
  rw [exec_coldReset]
  unfold execColdReset
  dsimp only
  rw [if_neg (by rw [vioUp_begin, hv]; simp; omega), if_pos (.inl hn)]

theorem exec_coldReset_powerGood (hp : s.power.phase = .railPhase) (hw : s.power.railWait = some 0) :
    exec (.coldReset .powerGood) s = .next (railGood (begin_ s) 0) := by
  rw [exec_coldReset]
  unfold execColdReset
  exact congrArg _ (if_pos ⟨hp, hw⟩)

/-- Power-good `r` of a rail that was awaited. -/
def goodRail (s : State) (r : Nat) : State :=
  { s with power := { s.power with pg := s.power.pg ||| BitVec.ofNat 5 (2 ^ r), railWait := none } }

/-- In the rail phase the power-good of VCORE resets the core and lets the next rail come up (R79). -/
theorem railGood_vcore (hp : s.power.phase = .railPhase) :
    ∃ m, railGood s 0 = railNext (coldCore (goodRail s 0)) m := by
  unfold railGood goodRail
  dsimp only
  rw [hp]
  exact ⟨_, rfl⟩

/-- Settles O8: RESET_N and the power-good of VCORE both come to a cold reset of the core. -/
theorem coldResetSetsTheRegisters : Obligations.ColdResetSetsTheRegisters := by
  unfold Obligations.ColdResetSetsTheRegisters
  refine ⟨fun s ns hv hn hw hc hb => ?_, fun s ns h => exec_coldReset_ignored h, fun s hp hr hc hb => ?_⟩
  · have h := coldFull_done (s := (draw (begin_ s)).2) hc hb
    exact ⟨_, exec_coldReset_resetN hv hn, h.phase, h.boot, h.disp, h.changes, h.ledger, h.odo, h.map, h.lowEnergy,
      fun a i hi => rdi_of_coldDone h hw a hi⟩
  · obtain ⟨m, hm⟩ := railGood_vcore (s := begin_ s) hp
    have h := railNext_done m (coldCore_done (s := goodRail (begin_ s) 0) hc hb)
    rw [← hm] at h
    exact ⟨_, exec_coldReset_powerGood hp hr, h.pg, h.phase.trans hp, h.boot, h.disp, h.odo, h.map⟩

end Sys2Proof.Machine
end

section
namespace Sys2Proof.Machine

variable {op : Nat} {r : Req} {judge : State → Nat → Option Status} {body : State → Plan} {s u : State} {c : Ctx} {st : Status}

/-- The dispatcher takes a request: it runs, the channel has room for the response or the request has been accepted, and
the request is the oldest that waits (R36, R520, R523). -/
structure Taken (op : Nat) (r : Req) (s : State) : Prop where
  running : running s = true
  room : roomFor s r.chan = true ∨ acceptedHead s r.chan = true
  turn : ∀ w, (waiting s r.chan).head? = some w → w.opcode = op ∧ w.session = r.session ∧ w.seq = r.seq

theorem Taken.passes (h : Taken op r s) :
    (! Machine.running (begin_ s) || ! (roomFor (begin_ s) r.chan || acceptedHead (begin_ s) r.chan)) = false := by
  rw [running_begin, roomFor_begin, acceptedHead_begin, h.running, (Bool.or_eq_true _ _).mpr h.room]
  rfl

@[simp] theorem taken_boot (r : Req) (s : State) : (taken r s).boot = s.boot := boot_pull _ _ _

@[simp] theorem taken_cur (r : Req) (s : State) : (taken r s).disp.cur = heldCtx r s := cur_pull _ _ _

@[simp] theorem taken_sessOf (r : Req) (s : State) (k : Nat) : sessOf (taken r s) k = sessOf s k := sessOf_pull _ _ _ _

@[simp] theorem taken_ctxLive (r : Req) (s : State) (c : Ctx) : ctxLive (taken r s) r c = ctxLive s r c := ctxLive_pull _ _ _ _ _

/-! ## What becomes of a request that has been taken -/

/-- The recovery service serves three commands of the HOST context alone (R528). -/
theorem dispatch_recovery (h : Taken op r s) (hr : s.boot.recovery = true)
    (ho : ¬ ((op = 0x0101 ∨ op = 0x0120 ∨ op = 0x0122) ∧ r.session = 0)) :
    dispatch op r judge body s = answer (setCur (taken r s) none) r op .notInMode [] := by
  have hb : (! ((op = 0x0101 || op = 0x0120 || op = 0x0122) && decide (r.session = 0))) = true := by
    rw [Bool.not_eq_true', ← Bool.not_eq_true]
    simpa [or_assoc] using ho
  unfold dispatch
  dsimp only
  rw [h.passes, takeRequest_served h.turn]
  dsimp only
  rw [taken_boot, hr, hb]
  rfl

/-- A request that names no session that stands (R35). -/
theorem dispatch_noSession (h : Taken op r s) (hr : s.boot.recovery = false) (hc : heldCtx r s = none) :
    dispatch op r judge body s = answer (taken r s) r op .noSession [] := by
  unfold dispatch
  dsimp only
  rw [h.passes, takeRequest_served h.turn]
  dsimp only
  rw [taken_boot, hr, taken_cur, hc]
  rfl

/-- A request whose context stands is held to the checks of its session: they end it, or its command runs. -/
theorem dispatch_context (h : Taken op r s) (hr : s.boot.recovery = false) (hc : heldCtx r s = some c) :
    dispatch op r judge body s =
      let k := checkSession (taken r s) op r c
      k.1.elim (runCommand op r c.role judge body k.2) fun st => answer k.2 r op st [] := by
  unfold dispatch
  dsimp only
  rw [h.passes, takeRequest_served h.turn]
  dsimp only
  rw [taken_boot, hr, taken_cur, hc]
  dsimp only
  obtain ⟨_ | st, u⟩ := checkSession (taken r s) op r c
  · rfl
  · rfl

/-- A request that the checks of its session end is answered with their status (R33, R34). -/
theorem dispatch_ended (h : Taken op r s) (hr : s.boot.recovery = false) (hc : heldCtx r s = some c)
    (hk : checkSession (taken r s) op r c = (some st, u)) : dispatch op r judge body s = answer u r op st [] := by
  rw [dispatch_context h hr hc, hk]
  rfl

/-- A request whose session stands runs its command (R392). -/
theorem dispatch_runs (h : Taken op r s) (hr : s.boot.recovery = false) (hc : heldCtx r s = some c)
    (hk : checkSession (taken r s) op r c = (none, u)) : dispatch op r judge body s = runCommand op r c.role judge body u := by
  rw [dispatch_context h hr hc, hk]
  rfl

/-! ## The checks of a session -/

/-- The session's record after a tag that failed (R33): counted, and at the eighth in a row the session is closed. -/
def tagFailed (r : Req) (c : Ctx) (s : State) : State :=
  let u := setCur (statInc (taken r s) R_SYS_SESS_TAGFAIL) none
  let v := if ctxLive s r c then setSess u c.role { sessOf s c.role with tagFails := (sessOf s c.role).tagFails + 1 } else u
  if ctxLive s r c && decide ((sessOf s c.role).tagFails + 1 ≥ 8) then closeSession v c.role 4 else v

theorem checkSession_badTag (h0 : c.role ≠ 0) (ht : tagGood op r c = false) :
    checkSession (taken r s) op r c = (some .denied, tagFailed r c s) := by
  unfold checkSession tagFailed
  rw [if_neg h0, ht, taken_ctxLive, taken_sessOf]
  rfl

/-- The session's record after a good tag with a sequence number that is not later (R34). -/
theorem checkSession_stale (h0 : c.role ≠ 0) (ht : tagGood op r c = true)
    (hl : seqLater r.seq.toNat (lastHeard r c s).toNat 32 = false) :
    checkSession (taken r s) op r c =
      (some .stale, if ctxLive s r c then setSess (taken r s) c.role { sessOf s c.role with tagFails := 0 } else taken r s) := by
  unfold lastHeard at hl
  unfold checkSession
  rw [if_neg h0, ht, taken_ctxLive, taken_sessOf]
  dsimp only
  rw [hl]
  rfl

/-! ## Rights and the ledger's room -/

theorem runCommand_refused_role (h0 : c.role ≠ 0) (hj : judge u c.role = some st) :
    runCommand op r c.role judge body u = answer (auditRefusal (endRun u c.role) c.role st op r) r op st [] := by
  unfold runCommand
  rw [hj]
  dsimp only
  rw [if_pos h0]

theorem runCommand_refused_host (hj : judge u 0 = some st) :
    runCommand op r 0 judge body u = answer (countHostDeny u 0 st) r op st [] := by
  unfold runCommand
  rw [hj]
  rfl

/-- A command of a role that changes state and has no room for its entry is not executed (R41). -/
theorem runCommand_barred {role : Nat} (h0 : role ≠ 0) (ho : op ≠ 0x0A01) (hj : judge u role = none)
    (hb : (body (endRun u role)).barred (endRun u role) = true) :
    runCommand op r role judge body u =
      answer (noEntry (endRun u role)).1 r op (noEntry (endRun u role)).2.1 (noEntry (endRun u role)).2.2 := by
  unfold runCommand actRecorded
  rw [hj]
  dsimp only
  rw [if_pos ⟨h0, fun e => ho e.1⟩, if_pos hb, hb, Bool.not_true, Bool.and_false]
  rfl

theorem answer_noEntry (u : State) :
    answer (noEntry u).1 r op (noEntry u).2.1 (noEntry u).2.2 =
      if u.ledger.final then answer u r op .final [] else answer (statInc u R_LDG_QFULL) r op .busy [] := by
  unfold noEntry
  split
  · rfl
  · rfl

theorem barred_of_noRoom {p : Plan} (hc : p.changes = true) (hl : ledgerLive u = true) (hr : ledgerRoom u = false) :
    p.barred u = true := by
  unfold Plan.barred
  rw [hc, hl, hr]
  rfl

theorem heard_eq_endRun {role : Nat} (h0 : role ≠ 0) (ho : op ≠ 0x0A01) : heard op r role s = endRun (noted r role s) role := by
  unfold heard
  rw [if_neg (fun e => e.elim h0 ho)]

/-- Settles O58: each check of the dispatcher in its order, from the recovery service to the room for the entry. -/
theorem refusedRequests : Obligations.RefusedRequests := by
  unfold Obligations.RefusedRequests
  intro op r judge body s hrun hroom hturn
  have h : Taken op r s := ⟨hrun, hroom, hturn⟩
  refine ⟨dispatch_recovery h, dispatch_noSession h, fun c hr hc h0 => ⟨?_, ?_, ?_, ?_⟩, fun c st hr hc h0 hj => ?_⟩
  · intro ht
    exact dispatch_ended h hr hc (checkSession_badTag h0 ht)
  · intro ht hl
    exact dispatch_ended h hr hc (checkSession_stale h0 ht hl)
  · intro st ht hl hj
    rw [dispatch_runs h hr hc (checkSession_served hc fun _ => ⟨ht, hl⟩), runCommand_refused_role h0 hj]
  · intro ht hl ho hj
    rw [heard_eq_endRun h0 ho]
    intro _ hch hlive hnone
    rw [dispatch_runs h hr hc (checkSession_served hc fun _ => ⟨ht, hl⟩),
      runCommand_barred h0 ho hj (barred_of_noRoom hch hlive hnone), answer_noEntry]
  · have hk := checkSession_served (op := op) hc fun e => absurd h0 e
    rw [h0] at hk
    rw [dispatch_runs h hr hc hk, h0, runCommand_refused_host hj]

end Sys2Proof.Machine
end

section
namespace Sys2Proof.Machine

/-! ## One step (R36) -/

theorem tick_ticks {s : State} (hf : s.freeze.frozen = false) (ha : s.power.phase = .awake) :
    (tick s).time.ticks = s.time.ticks + 1 :=
  (pass_core (p := .awake) (b := s.time.beatCnt) (n := s.time.ticks) 1 (s := begin_ s) (by decide) (by decide) hf
    ⟨ha, rfl, rfl⟩).2.2

/-- Settles O1: a step on a queue is read off its definition, and a tick lets one tick of the core pass. -/
theorem stepRunsTheFrontCommand : Obligations.StepRunsTheFrontCommand := by
  unfold Obligations.StepRunsTheFrontCommand
  refine ⟨fun c rest s => rfl, fun s hp => ?_, fun s hf ha => tick_ticks hf ha⟩
  unfold step
  rw [hp]

/-- The mark that compares the waiting commands alone. -/
def queueMark (p : List Instr) : Mark :=
  { pending := some p, clock := none, beat := none, odo := none, seq := none, map := none, slots := none }

theorem kept_own_queue (s : State) : Kept False (queueMark s.pending) s where
  pending _ e := Option.some.inj e
  clock _ e := nomatch e
  beat _ e := nomatch e
  seq _ e := nomatch e
  map _ e := nomatch e
  slots _ e := nomatch e
  odo c := c.elim
  sound c := c.elim

/-- Settles O2: every command answers a state that keeps the mark of its own waiting commands. -/
theorem everyCommandCompletes : Obligations.EveryCommandCompletes := by
  unfold Obligations.EveryCommandCompletes
  intro c s
  obtain ⟨t, ht, hk⟩ := exec_kept c s (kept_own_queue s) (fun _ => rfl) (fun _ => rfl) (fun _ => rfl) (fun _ => rfl)
    (fun _ => rfl) (fun _ => rfl)
  exact ⟨t, ht, hk.pending _ rfl⟩

/-! ## The identifier of a new session (R31) -/

/-- The identifiers that a new session may not take: zero, and that of each open session. -/
def idUsed (s : State) (i : BitVec 16) : Bool :=
  decide (i = 0) || [1, 2, 3].any fun r => (sessOf s r).isOpen && decide ((sessOf s r).id = i)

theorem newSessionId_eq (s : State) (k : Nat) :
    newSessionId s k =
      ([Config.sessionId k, Config.sessionId k + 1, Config.sessionId k + 2, Config.sessionId k + 3].find?
        fun i => ! idUsed s i).getD (Config.sessionId k + 4) := rfl

theorem idUsed_zero (s : State) : idUsed s 0 = true := rfl

theorem idUsed_open {s : State} {r : Nat} (h1 : 1 ≤ r) (h3 : r ≤ 3) (ho : (sessOf s r).isOpen = true) :
    idUsed s (sessOf s r).id = true := by
  have hr : r ∈ [1, 2, 3] := by simp; omega
  unfold idUsed
  rw [Bool.or_eq_true, List.any_eq_true]
  exact .inr ⟨r, hr, by simp [ho]⟩

/-- At most four identifiers are used. -/
theorem mem_of_idUsed {s : State} {i : BitVec 16} (h : idUsed s i = true) :
    i ∈ [0, (sessOf s 1).id, (sessOf s 2).id, (sessOf s 3).id] := by
  simp only [idUsed, List.any_cons, List.any_nil, Bool.or_eq_true, Bool.and_eq_true, decide_eq_true_eq] at h
  simp only [List.mem_cons]
  obtain h | ⟨-, h⟩ | ⟨-, h⟩ | ⟨-, h⟩ | h := h
  · exact .inl h
  · exact .inr (.inl h.symm)
  · exact .inr (.inr (.inl h.symm))
  · exact .inr (.inr (.inr (.inl h.symm)))
  · cases h

theorem nodup_five (c : BitVec 16) : ([c, c + 1, c + 2, c + 3] ++ [c + 4]).Nodup := by
  simp

/-- Of five identifiers in a row one is not used, for only four can be. -/
theorem not_idUsed_newSessionId (s : State) (k : Nat) : idUsed s (newSessionId s k) = false := by
  rw [newSessionId_eq]
  generalize Config.sessionId k = c
  cases hf : [c, c + 1, c + 2, c + 3].find? fun i => ! idUsed s i with
  | some i => simpa using List.find?_some hf
  | none =>
    rw [Option.getD_none, ← Bool.not_eq_true]
    intro h4
    have hused : ∀ i ∈ [c, c + 1, c + 2, c + 3] ++ [c + 4], idUsed s i = true := by
      intro i hi
      obtain hi | hi := List.mem_append.mp hi
      · simpa using List.find?_eq_none.mp hf i hi
      · rw [List.mem_singleton.mp hi]
        exact h4
    have hlen := ((nodup_five c).subperm fun i hi => mem_of_idUsed (hused i hi)).length_le
    simp at hlen

/-- Settles O30: the identifier is none of those used, among them zero and that of each open session. -/
theorem sessionIdsAreFresh : Obligations.SessionIdsAreFresh := by
  unfold Obligations.SessionIdsAreFresh
  intro s k
  have hn := not_idUsed_newSessionId s k
  refine ⟨fun h => ?_, fun r h1 h3 ho h => ?_⟩
  · rw [h, idUsed_zero] at hn
    cases hn
  · rw [h, idUsed_open h1 h3 ho] at hn
    cases hn

/-! ## Failed openings (R32) -/

/-- The role is locked for some seconds, and the LOCKOUT entry is queued (R40). -/
def lockRole (s : State) (role : Nat) (x : Sess) (secs : Nat) : State :=
  queueEntry (setSess s role { x with lockS := secs, locked := true }) (.session 1 role 0 0 0 secs)

theorem openFailed_eq (s : State) (role : Nat) :
    openFailed s role =
      if (sessOf s role).locked then s
      else if 5 ≤ (sessOf s role).fails then lockRole s role (sessOf s role) (min 3840 (2 * (sessOf s role).lockS))
      else if (sessOf s role).fails + 1 = 5 then lockRole s role { sessOf s role with fails := 5 } 60
      else setSess s role { sessOf s role with fails := (sessOf s role).fails + 1 } := rfl

/-- Settles O31: each clause is one branch of what a failed opening does. -/
theorem lockoutsDouble : Obligations.LockoutsDouble := by
  unfold Obligations.LockoutsDouble
  refine ⟨fun s role hl hf => ?_, fun s role hl hf => ?_, fun s role hl hf => ?_, fun s role hl => ?_⟩
  · rw [openFailed_eq, if_neg (by rw [hl]; decide), if_neg (by omega), if_neg (by omega)]
  · rw [openFailed_eq, if_neg (by rw [hl]; decide), if_neg (by omega), if_pos (by omega)]
    rfl
  · rw [openFailed_eq, if_neg (by rw [hl]; decide), if_pos hf]
    rfl
  · rw [openFailed_eq, if_pos hl]

/-! ## The † commands (R41, R533, R548) -/

/-- A granted † command whose own checks pass on the state in which they are made, and whose record fits. -/
theorem next_configured {op : Nat} {r : Req} {role : Nat} {judge : State → Nat → Option Status} {s : State} {c : Cfg}
    {check : State → Option Status} {apply : State → State} (h : Granted op r role judge s) (ho : op ≠ 0x0A01)
    (hc : check (heard op r role s) = none) (hf : mapFits (heard op r role s) c = true) :
    (.next (dispatch op r judge (fun u => cfgPlan (check u) c apply u) s) : Host.Outcome State Fault Refusal) =
      .next (configured op r role c apply s) :=
  congrArg _ (dispatch_cfg h ho (congrArg (cfgPlan · c apply _) hc) hf)

theorem cfgPlan_fits {s : State} {c : Cfg} {apply : State → State} (hf : mapFits s c = true) :
    cfgPlan none c apply s = Plan.do_ fun u => apply (commitChange (storeRecord u c)) := by
  unfold mapFits at hf
  rw [Bool.and_eq_true, decide_eq_true_eq, Bool.not_eq_true'] at hf
  obtain ⟨hlen, hepoch⟩ := hf
  unfold cfgPlan
  dsimp only
  rw [if_neg (by omega), if_neg (by rw [hepoch]; decide)]

/-- What PHY_WRITE does once its parameters have been checked: the access goes out, and the PHY answers. -/
theorem exec_phyWrite_answered {s : State} {r : Req} {role : Nat} {phy clause dev : BitVec 8} {reg value : BitVec 16}
    (h : Granted 0x0305 r role judgeInstaller s) (hc : checkPhy phy clause dev reg = none)
    (hf : mapFits (heard 0x0305 r role s) (.phyWrite phy clause dev reg value) = true) :
    exec (.phyWrite r phy clause dev reg value true) s =
      .next (ok 0x0305 r (commitChange (storeRecord
        (mdioOut (admitted 0x0305 r role s) phy.toNat (.write clause.toNat dev.toNat reg.toNat value.toNat))
        (.phyWrite phy clause dev reg value))) []) := by
  rw [exec_phyWrite]
  unfold execPhyWrite
  rw [hc]
  exact congrArg _ (dispatch_ok
    (f := fun u => (commitChange (storeRecord
      (mdioOut u phy.toNat (.write clause.toNat dev.toNat reg.toNat value.toNat)) (.phyWrite phy clause dev reg value)), []))
    h (by decide) (congrArg (Plan.withMdio · _ _) (cfgPlan_fits hf)))

/-- Settles O22: five commands are † commands as they stand, and PHY_WRITE makes its access first. -/
theorem configurationOfLinesAndTables : Obligations.ConfigurationOfLinesAndTables := by
  unfold Obligations.ConfigurationOfLinesAndTables
  refine ⟨fun s r role lane img h hc hf => ?_, fun s r role port img h hc hf => ?_,
    fun s r role phy clause dev reg value h hc hf => ?_, fun s r role kind index img h hc hf => ?_,
    fun s r role n img h hc hf => ?_, fun s r role egr p h hc hf => ?_, fun s c => rfl⟩
  · exact (exec_laneConfig ..).trans (next_configured (check := fun _ => checkLane lane img) h (by decide) hc hf)
  · exact (exec_portConfig ..).trans (next_configured (check := fun _ => checkPort port img) h (by decide) hc hf)
  · exact exec_phyWrite_answered h hc hf
  · exact (exec_swConfig ..).trans (next_configured (check := (checkSw · kind index img)) h (by decide) hc hf)
  · exact (exec_polConfig ..).trans (next_configured (check := fun _ => checkPol n img) h (by decide) hc hf)
  · exact (exec_schConfig ..).trans (next_configured (check := (checkSch · egr p)) h (by decide) hc hf)

/-- Settles O23: each command is a † command as it stands. -/
theorem configurationOfTimeWheelsAndDomain : Obligations.ConfigurationOfTimeWheelsAndDomain := by
  unfold Obligations.ConfigurationOfTimeWheelsAndDomain
  refine ⟨fun s r role len dom al h hc hf => ?_, fun s r role index img h hc hf => ?_, fun s r role prof img h hc hf => ?_,
    fun s r role hold a b c d h hc hf => ?_, fun s r role n img h hc hf => ?_, fun s r role first count es h hc hf => ?_,
    fun s r role kind index img h hc hf => ?_, fun s r role node kind ports dom ks h hc hf => ?_⟩
  · exact (exec_timeBeatSet ..).trans (next_configured (check := (checkBeat · len dom al)) h (by decide) hc hf)
  · exact (exec_timeConfig ..).trans (next_configured (check := fun _ => checkTime index img) h (by decide) hc hf)
  · exact (exec_laConfig ..).trans (next_configured (check := fun _ => checkLa prof img) h (by decide) hc hf)
  · exact (exec_entryConfig ..).trans (next_configured (check := fun _ => checkEntry hold a b c d) h (by decide) hc hf)
  · exact (exec_ttConfig ..).trans (next_configured (check := fun _ => checkTt n.toNat img) h (by decide) hc hf)
  · exact (exec_angEventSet ..).trans
      (next_configured (check := (checkAng · first.toNat count.toNat es)) h (by decide) hc hf)
  · exact (exec_fbConfig ..).trans (next_configured (check := (checkFb · kind.toNat index.toNat img)) h (by decide) hc hf)
  · exact (exec_hlbConfig ..).trans (next_configured (check := (checkHlb · node kind ks)) h (by decide) hc hf)

end Sys2Proof.Machine
end

section
namespace Sys2Proof.Machine

/-! ## Challenges, opening and closing of sessions (R29 to R32, R37, R38) -/

variable {s : State} {r : Req} {role : BitVec 8} {idle : BitVec 16} {chal : BitVec 256} {uid : BitVec 128} {eph sig : List Byte}

theorem sessOf_setSess_open (s : State) (n : Nat) {x : Sess} (h : x.isOpen = true) : sessOf (setSess s n x) n = x :=
  tget_tset_ne n x fun e => by rw [e] at h; cases h

theorem whenRunning_running (h : running s = true) (f : State → State) : whenRunning (begin_ s) f = f (begin_ s) := by
  unfold whenRunning
  rw [running_begin, if_pos h]

/-- A fresh draw is the role's only outstanding challenge, and is returned (R29). -/
def challengeGiven (n : Nat) (u : State) : State × List Byte :=
  (setSess { u with fresh := u.fresh + 1 } n
    { sessOf { u with fresh := u.fresh + 1 } n with chal := some (randBytes u.fresh 32) }, randBytes u.fresh 32)

theorem execSessionChallenge_given (h : Granted 0x0110 r 0 judgeHostAwake s) (hr : r.session = 0) (h1 : 1 ≤ role.toNat)
    (h3 : role.toNat ≤ 3) (hn : (heard 0x0110 r 0 s).vault.rngFailed = false) :
    execSessionChallenge r role s = .next (
      ok 0x0110 r (challengeGiven role.toNat (admitted 0x0110 r 0 s)).1 (challengeGiven role.toNat (admitted 0x0110 r 0 s)).2) := by
  unfold execSessionChallenge
  rw [if_neg (not_not_intro hr), dispatch_ok (f := challengeGiven role.toNat) h (by decide)]
  rw [if_neg (by omega), if_neg (by rw [hn]; decide)]
  rfl

/-- In the HOST context no entry comes before a command's effect. -/
theorem entered_host (op : Nat) (r : Req) (changes : Bool) (st : Status) (s : State) :
    entered op r 0 changes st s = heard op r 0 s := if_pos (.inl rfl)

/-- A HOST command whose own checks fail, with an effect all the same. -/
theorem dispatch_host_fails {op : Nat} {judge : State → Nat → Option Status} {body : State → Plan} {f : State → State}
    {st : Status} (h : Served op r 0 judge s) (ho : op ≠ 0x0A01)
    (hp : body (heard op r 0 s) = { status := st, bytes := [], changes := true, act := fun u => (f u, st, []) }) :
    dispatch op r judge body s = answer (countHostDeny (f (admitted op r 0 s)) 0 st) r op st [] := by
  rw [dispatch_served h (fun e => absurd e ho) (fun e => absurd rfl e), hp]
  unfold planDone admitted
  simp only [entered_host, Bool.false_eq_true, if_false, true_or, if_true]

/-- The challenge that a SESSION_OPEN presented is used up (R30). -/
def chalUsed (n : Nat) (presented : Bool) (u : State) : State :=
  if presented then setSess u n { sessOf u n with chal := none } else u

theorem execSessionOpen_opens (h : Granted 0x0111 r 0 judgeHostAwake s) (hr : r.session = 0) (h1 : 1 ≤ role.toNat)
    (h3 : role.toNat ≤ 3) (hc : openChecks (heard 0x0111 r 0 s) role idle chal uid eph sig = (none, true))
    (hn : (heard 0x0111 r 0 s).vault.rngFailed = false)
    (hl : ledgerLive (heard 0x0111 r 0 s) = true → ledgerRoom (heard 0x0111 r 0 s) = true) :
    execSessionOpen r role idle chal uid eph sig s = .next (
      let x := openSession (chalUsed role.toNat true (admitted 0x0111 r 0 s)) r role.toNat idle.toNat chal eph
      ok 0x0111 r x.1 x.2) := by
  have hroom : (ledgerLive (heard 0x0111 r 0 s) && ! ledgerRoom (heard 0x0111 r 0 s)) = false := by
    cases hv : ledgerLive (heard 0x0111 r 0 s) with
    | false => rfl
    | true => rw [hl hv]; rfl
  unfold execSessionOpen
  rw [if_neg (not_not_intro hr),
    dispatch_ok (f := fun u => openSession (chalUsed role.toNat true u) r role.toNat idle.toNat chal eph) h (by decide)]
  dsimp only
  rw [if_neg (by omega), hc]
  dsimp only
  rw [if_neg (by rw [hn]; decide), if_neg (by rw [hroom]; decide)]
  rfl

theorem execSessionOpen_fails {st : Status} {p : Bool} (h : Granted 0x0111 r 0 judgeHostAwake s) (hr : r.session = 0)
    (h1 : 1 ≤ role.toNat) (h3 : role.toNat ≤ 3)
    (hc : openChecks (heard 0x0111 r 0 s) role idle chal uid eph sig = (some st, p)) :
    execSessionOpen r role idle chal uid eph sig s = .next (
      answer (countHostDeny (openFailed (chalUsed role.toNat p (admitted 0x0111 r 0 s)) role.toNat) 0 st) r 0x0111 st []) := by
  unfold execSessionOpen
  rw [if_neg (not_not_intro hr),
    dispatch_host_fails (f := fun u => openFailed (chalUsed role.toNat p u) role.toNat) (st := st) h.served (by decide)]
  dsimp only
  rw [if_neg (by omega), hc]
  rfl

theorem sessOf_commitEntry (s : State) (p : Payload) (n : Nat) : sessOf (commitEntry s p) n = sessOf s n :=
  congrArg (tget Sess.closed · n) (commitEntry_sess s p)

theorem sessOf_signature (s : State) (m : List Byte) (n : Nat) : sessOf (signature s m).2 n = sessOf s n := by
  unfold signature
  split
  · rfl
  · rfl

/-- The record that an opened session has (R31, R32). -/
theorem sessOf_openSession (s : State) (r : Req) (role idle : Nat) (chal : BitVec 256) (eph : List Byte) :
    sessOf (openSession s r role idle chal eph).1 role =
      { sessOf s role with
        isOpen := true, id := newSessionId { s with fresh := s.fresh + 1 } s.fresh, chan := r.chan, lastSeq := 0,
        tagFails := 0, idleS := idle,
        key := kdf (ecdh (randScalar s.fresh) eph) "KWSESS" (leBytes 32 chal.toNat ++ leBytes 1 role) 32,
        fails := 0, lockS := 0, locked := false } := by
  unfold openSession
  dsimp only [draw]
  rw [sessOf_signature, sessOf_setSess_open _ _ rfl, sessOf_commitEntry]
  rfl

theorem execSessionClose_closes {role : Nat} (h : Granted 0x0112 r role judgeClose s) :
    execSessionClose r s =
      .next (ok 0x0112 r (closeSession (admitted 0x0112 r role s) (curRole (heard 0x0112 r role s)) 7) []) := by
  unfold execSessionClose
  rw [dispatch_ok (f := fun u => (closeSession u (curRole (heard 0x0112 r role s)) 7, [])) h (by decide) rfl]

/-- Settles O29: each command passes the dispatcher, or acts on a device that runs; an opened session's record is read
back from where the opening wrote it. -/
theorem sessionsOpenCloseAndExpire : Obligations.SessionsOpenCloseAndExpire := by
  unfold Obligations.SessionsOpenCloseAndExpire
  refine ⟨fun s r role h hr h1 h3 hn => ?_, fun s r role idle chal uid eph sig h hr h1 h3 => ?_,
    fun s r role idle chal eph _ _ => ?_, fun s r role h => ?_, fun s role hrun => ?_⟩
  · exact execSessionChallenge_given h hr h1 h3 hn
  · exact ⟨fun hc hn hl => execSessionOpen_opens h hr h1 h3 hc hn hl, fun st p hc => execSessionOpen_fails h hr h1 h3 hc⟩
  · rw [sessOf_openSession]
    exact ⟨rfl, rfl, rfl, rfl, rfl, rfl, rfl, rfl, rfl, rfl⟩
  · exact execSessionClose_closes h
  · exact ⟨congrArg _ (whenRunning_running hrun _), congrArg _ (whenRunning_running hrun _),
      congrArg _ (whenRunning_running hrun _), congrArg _ (whenRunning_running hrun _)⟩

end Sys2Proof.Machine
end

section
namespace Sys2Proof.Machine

/-! ## HP transmit (R27, R494 to R496) -/

section
variable {s : State} {d : HpDesc} {c : Content}

theorem hpAcquire_unlocked (h : hpLock d = false) : hpAcquire s d = some (s, none) := by
  unfold hpAcquire
  rw [h]
  rfl

theorem hpAcquire_free (h : hpLock d = true) (ho : semOwner (semSettle s (hpSem d)) (hpSem d) = 0) :
    hpAcquire s d =
      let u := semTake (semSettle s (hpSem d)) (hpSem d) (0xF0 + (hpPipe d).val)
      some (u, some (hpSem d, semGen u (hpSem d))) := by
  unfold hpAcquire semAcq
  rw [h, if_neg (by decide)]
  dsimp only
  rw [if_neg (not_not_intro ho), if_pos ho]

theorem hpAcquire_taken (h : hpLock d = true) (ho : semOwner (semSettle s (hpSem d)) (hpSem d) ≠ 0) : hpAcquire s d = none := by
  unfold hpAcquire
  rw [h, if_neg (by decide)]
  dsimp only
  rw [if_pos ho]

/-- What becomes of a descriptor whose checks have passed: its frame is sent where the lock that it asks for is free. -/
def hpServe (d : HpDesc) (c : Content) (stuck : Option Bool) (s : State) : State :=
  (hpAcquire s d).elim { s with bridge := { s.bridge with txWait := some (hpSem d) } } fun x => hpSend (dmaGood x.1) d c x.2 stuck

variable {bytes : List Byte} {k dec : Bool} (hrun : running s = true) (hr : hpReady s = true)
  (hj : judgeD s false (ringBase s 0 + 32 * ringCons s 0) 32 = none)
include hrun hr hj

theorem execHpTxDescriptor_otherMode (hm : hpModes s = false) :
    execHpTxDescriptor d bytes k dec s = .next (hpComplete (dmaGood (begin_ s)) d .notInMode 0) := by
  unfold execHpTxDescriptor
  rw [whenRunning_running hrun]
  simp [hr, hj, hm]

theorem execHpTxDescriptor_badField (hm : hpModes s = true) (hb : hpBad d = true) :
    execHpTxDescriptor d bytes k dec s = .next (hpComplete (dmaGood (begin_ s)) d .badParam 0) := by
  unfold execHpTxDescriptor
  rw [whenRunning_running hrun]
  simp [hr, hj, hm, hb]

theorem execHpTxDescriptor_denied {r : Reason} {a : Nat} (hm : hpModes s = true) (hb : hpBad d = false)
    (hd : judgeD s false d.buf.toNat d.len.toNat = some (r, a)) :
    execHpTxDescriptor d bytes k dec s = .next (hpComplete (refuse (begin_ s) .D r a false) d .denied 0) := by
  unfold execHpTxDescriptor
  rw [whenRunning_running hrun]
  simp [hr, hj, hm, hb, hd]

theorem execHpTxDescriptor_served (hm : hpModes s = true) (hb : hpBad d = false)
    (hd : judgeD s false d.buf.toNat d.len.toNat = none)
    (hc : parseCarried (hpType d) (padTo d.len.toNat bytes) = some c) :
    execHpTxDescriptor d bytes k dec s = .next (hpServe d c (if k then some dec else none) (begin_ s)) := by
  unfold execHpTxDescriptor hpServe
  rw [whenRunning_running hrun]
  cases hpAcquire (begin_ s) d with
  | none => simp [hr, hj, hm, hb, hd, hc]
  | some x => simp [hr, hj, hm, hb, hd, hc]

end

/-! ## HP receive (R497) -/

theorem execHpRxDeliver_front {s : State} {buf : BitVec 64} {q : Nat} {x : QEnt} {f : Frame} (hrun : running s = true)
    (hm : hpModes s = true) (h2 : ringHas s 2 = true) (h3 : ringOn s 3 = true) (hup : dmaUp s = true) (hfree : 1 ≤ ringFree s 3)
    (hj : judgeD s false (ringBase s 2 + 8 * ringCons s 2) 8 = none) (ht : hpTop s = some (q, x))
    (hf : frameOf s x.h = some f) (hq : needsRsq x f = false) :
    execHpRxDeliver buf s = .next (hpDeliver (dmaGood (begin_ s)) q x f buf.toNat) := by
  have ht' : hpTop (dmaGood (begin_ s)) = some (q, x) := ht
  have hf' : frameOf (dmaGood (begin_ s)) x.h = some f := hf
  unfold execHpRxDeliver
  rw [whenRunning_running hrun]
  simp [hm, h2, h3, hup, show ringFree s 3 ≠ 0 by omega, hj, ht', hf', hq]

/-! ## DMA time-outs (R499, R511) -/

/-- A read piece that failed is counted, for good and in its row. -/
def dmaFailed (s : State) : State :=
  { statInc (begin_ s) R_BRG_D_ERR with bridge := { s.bridge with dmaFails := s.bridge.dmaFails + 1 } }

section
variable (s : State)

theorem bit_dmaFailed {a : Nat} (n : Nat) (h : a ≠ R_BRG_D_ERR) : bit (dmaFailed s) a 0 n = bit s a 0 n :=
  bit_statInc_other (begin_ s) n h

theorem fld_dmaFailed {a : Nat} (lo w : Nat) (h : a ≠ R_BRG_D_ERR) : fld (dmaFailed s) a lo w = fld s a lo w :=
  fld_wr_other (begin_ s) _ lo w h

@[simp] theorem hostLost_dmaFailed : hostLost (dmaFailed s) = hostLost s := bit_dmaFailed s 16 (by decide)

@[simp] theorem dmaUp_dmaFailed : dmaUp (dmaFailed s) = dmaUp s := by
  unfold dmaUp onSpi hostOff
  rw [hostLost_dmaFailed, bit_dmaFailed s 9 (by decide), bit_dmaFailed s 0 (by decide)]

theorem ringReg_ne {a : Nat} (h : R_BRG_D_ERR < a) (r : Nat) : a + 0x20 * r ≠ R_BRG_D_ERR := by omega

@[simp] theorem ringOn_dmaFailed (r : Nat) : ringOn (dmaFailed s) r = ringOn s r :=
  bit_dmaFailed s 31 (ringReg_ne (by decide) r)

@[simp] theorem ringEntries_dmaFailed (r : Nat) : ringEntries (dmaFailed s) r = ringEntries s r :=
  congrArg (2 ^ ·) (fld_dmaFailed s 0 4 (ringReg_ne (by decide) r))

@[simp] theorem ringProd_dmaFailed (r : Nat) : ringProd (dmaFailed s) r = ringProd s r :=
  fld_dmaFailed s 0 12 (ringReg_ne (by decide) r)

@[simp] theorem ringCons_dmaFailed (r : Nat) : ringCons (dmaFailed s) r = ringCons s r :=
  fld_dmaFailed s 0 12 (ringReg_ne (by decide) r)

@[simp] theorem hpReady_dmaFailed : hpReady (dmaFailed s) = hpReady s := by
  simp [hpReady, ringHas, ringFree]

end

/-- What a failed read served is completed with RETRY; packets and other reads wait to be fetched again. -/
def retried (u : State) : DmaOp → State
  | .hpTx d => if hpReady u then hpComplete u d .retry 0 else u
  | .job e =>
    match (engOf u e).job with
    | some j => if j.vault then u else completeJob u e false j.desc .retry 0 0 0
    | none => u
  | .fetch => u
  | .other => u

/-- The eighth failure in a row loses the host (R511). -/
def hostJudged (s : State) : State :=
  if s.bridge.dmaFails + 1 ≥ 8 ∧ ¬ hostLost (dmaFailed s) then raise (setFld (dmaFailed s) R_BRG_STAT 16 1 1) .hostLost
  else dmaFailed s

theorem hostJudged_few {s : State} (hn : s.bridge.dmaFails < 7) : hostJudged s = dmaFailed s :=
  if_neg fun e => by omega

theorem execDmaTimeout_running {s : State} (op : DmaOp) (hrun : running s = true) :
    execDmaTimeout op s = .next (
      if onSpi s then begin_ s else if hostLost (hostJudged s) then hostJudged s else retried (hostJudged s) op) := by
  unfold execDmaTimeout
  rw [whenRunning_running hrun]
  cases op with
  | hpTx d => rfl
  | job e => rfl
  | fetch => rfl
  | other => rfl

/-- Below eight failures in a row the host still answers. -/
theorem execDmaTimeout_retried {s : State} (op : DmaOp) (hrun : running s = true) (hs : onSpi s = false)
    (hl : hostLost s = false) (hn : s.bridge.dmaFails < 7) : execDmaTimeout op s = .next (retried (dmaFailed s) op) := by
  rw [execDmaTimeout_running op hrun, hs, hostJudged_few hn, hostLost_dmaFailed, hl]
  rfl

/-! ## MSI-X (R508) -/

/-- The sources that a message of a vector announces. -/
def announcing (s : State) (v : Nat) : BitVec 256 :=
  (vecOwed s v).foldl (fun (x : BitVec 256) k => x ||| BitVec.ofNat 256 (2 ^ k)) s.bridge.announced

theorem execMsixSend_owed {s : State} {v : Fin 64} {fm : Bool} (hrun : running s = true) (hx : fld s R_BRG_CFG 0 2 = 2)
    (hup : dmaUp s = true) (ho : vecOwed s v ≠ [] ∨ s.bridge.msixPend.getLsbD v = true) (hv : vecRested s v = true) :
    execMsixSend v fm s = .next (
      let m : BitVec 64 := BitVec.ofNat 64 (2 ^ v.val)
      if fm ∨ bitsOf (msixWord s (4 * v + 3)) 0 1 = 1 then
        { begin_ s with bridge := { s.bridge with announced := announcing s v, msixPend := s.bridge.msixPend ||| m } }
      else
        { begin_ s with
          bridge := { s.bridge with announced := announcing s v, msixPend := s.bridge.msixPend &&& ~~~ m,
                                    msixLast := tset 0 s.bridge.msixLast v (s.time.beatCnt.toNat + 1) },
          out := { Outp.none with msix := [v.val] } }) := by
  have hgo : ¬ (fld s R_BRG_CFG 0 2 ≠ 2 ∨ (! dmaUp s) = true ∨
      (vecOwed s v = [] ∧ ¬ s.bridge.msixPend.getLsbD v = true) ∨ (! vecRested s v) = true) := by
    rw [hx, hup, hv]
    rintro (h | h | ⟨h1, h2⟩ | h)
    · exact h rfl
    · cases h
    · exact ho.elim (· h1) h2
    · cases h
  unfold execMsixSend
  rw [whenRunning_running hrun]
  dsimp only
  exact congrArg _ (if_neg hgo)

/-- Settles O48: each command is followed through its conditions, the locked descriptor through what the acquisition of its
semaphore gives. -/
theorem hostPortAndMessages : Obligations.HostPortAndMessages := by
  unfold Obligations.HostPortAndMessages
  refine ⟨fun s d bytes k dec hrun hr hj => ⟨?_, ?_, ?_, fun c hm hb hd hc => ?_⟩, fun s buf q x f => ?_,
    fun s hrun hs hl hn => ⟨?_, ?_, fun d hr => ?_, fun e j hjob hv => ?_⟩, fun s v fm => ?_⟩
  · exact execHpTxDescriptor_otherMode hrun hr hj
  · exact execHpTxDescriptor_badField hrun hr hj
  · exact fun r a => execHpTxDescriptor_denied hrun hr hj
  · rw [exec_hpTxDescriptor, execHpTxDescriptor_served hrun hr hj hm hb hd hc]
    unfold hpServe
    refine ⟨fun hk => ?_, fun hk ho => ?_, fun hk ho => ?_⟩
    · rw [hpAcquire_unlocked hk]
      rfl
    · rw [hpAcquire_free hk ho]
      rfl
    · rw [hpAcquire_taken hk ho]
      rfl
  · exact execHpRxDeliver_front
  · exact execDmaTimeout_retried .fetch hrun hs hl hn
  · exact execDmaTimeout_retried .other hrun hs hl hn
  · refine (execDmaTimeout_retried (.hpTx d) hrun hs hl hn).trans (congrArg _ ?_)
    exact if_pos ((hpReady_dmaFailed s).trans hr)
  · refine (execDmaTimeout_retried (.job e) hrun hs hl hn).trans (congrArg _ ?_)
    have hjob' : (engOf (dmaFailed s) e).job = some j := hjob
    unfold retried
    dsimp only
    rw [hjob']
    exact if_neg (by rw [hv]; decide)
  · exact execMsixSend_owed

end Sys2Proof.Machine
end

section
namespace Sys2Proof.Machine

variable {s : State} {r : Nat}

/-! ## Power-good of a rail (R79) -/

@[simp] theorem sagHit_phase (s : State) : (sagHit s).power.phase = s.power.phase := rfl

@[simp] theorem sagAfter_phase (s : State) : (sagAfter s).power.phase = s.power.phase := by
  have hit_of (c : Bool) (u : State) : (if c then sagHit u else u).power.phase = u.power.phase := by
    cases c
    · rfl
    · exact sagHit_phase u
  exact (hit_of _ _).trans (hit_of _ _)

@[simp] theorem coldCore_phase (s : State) : (coldCore s).power.phase = s.power.phase := sagAfter_phase _

@[simp] theorem woutRise_phase (s : State) : (woutRise s).power.phase = s.power.phase := by
  unfold woutRise
  split <;> rfl

@[simp] theorem woutRise_pg (s : State) : (woutRise s).power.pg = s.power.pg := by
  unfold woutRise
  split <;> rfl

/-- VCORE good in the rail phase: the core is reset, and the phase goes on. -/
theorem railGood_vcore_phase (h : s.power.phase = .railPhase) : (railGood s 0).power.phase = .railPhase := by
  obtain ⟨m, hm⟩ := railGood_vcore h
  rw [hm, railNext_phase, coldCore_phase]
  exact h

/-- VIO good in the rail phase ends it: start-up begins, with the retries of the bring-up counted afresh. -/
theorem railGood_vio (h : s.power.phase = .railPhase) :
    ∃ m, railGood s 1 = railNext (woutRise { goodRail s 1 with
      power := { (goodRail s 1).power with phase := .startup, railRetries := 0 } }) m := by
  unfold railGood goodRail
  dsimp only
  rw [h]
  exact ⟨_, rfl⟩

/-- While the core runs a rail's power-good is recorded, rail 2's in SYS_PINSTAT as well. -/
theorem railGood_awake (h : s.power.phase = .awake) (r : Nat) :
    ∃ m, railGood s r = railNext (if r = 2 then orReg (goodRail s r) R_SYS_PINSTAT 0 2 else goodRail s r) m := by
  unfold railGood goodRail
  dsimp only
  rw [h]
  exact ⟨_, rfl⟩

theorem railGood_awake_power (h : s.power.phase = .awake) (r : Nat) :
    (railGood s r).power.pg = s.power.pg ||| BitVec.ofNat 5 (2 ^ r) ∧ (railGood s r).power.phase = .awake := by
  obtain ⟨m, hm⟩ := railGood_awake h r
  rw [hm, railNext_pg, railNext_phase]
  split
  · exact ⟨rfl, h⟩
  · exact ⟨rfl, h⟩

theorem exec_railPowerGood_awaited {r : Fin 5} (h : s.power.railWait = some r.val) :
    exec (.railPowerGood r) s = .next (railGood (begin_ s) r) :=
  congrArg _ (if_pos h)

/-! ## A rail that is coming up and not awaited -/

theorem enabled_and_not_good {r : Fin 5} (he : s.power.en.getLsbD r = true) (hg : s.power.pg.getLsbD r = false) :
    (s.power.en.getLsbD r && ! s.power.pg.getLsbD r) = true := by
  rw [he, hg]
  rfl

theorem exec_railPowerGood_comingUp {r : Fin 5} (hw : s.power.railWait ≠ some r.val) (he : s.power.en.getLsbD r = true)
    (hg : s.power.pg.getLsbD r = false) :
    exec (.railPowerGood r) s =
      .next { begin_ s with power := { s.power with pg := s.power.pg ||| BitVec.ofNat 5 (2 ^ r.val) } } :=
  congrArg _ ((if_neg hw).trans (if_pos (enabled_and_not_good he hg)))

theorem exec_railTimeout_comingUp {r : Fin 5} (hw : s.power.railWait ≠ some r.val) (he : s.power.en.getLsbD r = true)
    (hg : s.power.pg.getLsbD r = false) : exec (.railTimeout r) s = .next (railCause (begin_ s) r) :=
  congrArg _ ((if_pos hw).trans (if_pos (enabled_and_not_good he hg)))

/-! ## The time-out of an awaited rail (R80) -/

theorem exec_railTimeout_awaited {r : Fin 5} (h : s.power.railWait = some r.val) :
    exec (.railTimeout r) s = .next (if r.val ≤ 1 then coreRailFail (begin_ s) r
      else if r.val = 2 then (let u := orReg (railDead (begin_ s) 2) R_SYS_PINSTAT 0 4; railNext u (railMode u))
      else (let u := railCause (begin_ s) r; railNext u (railMode u))) :=
  congrArg _ (if_neg (not_not_intro h))

/-- Rails 0 and 1 off, of which one was awaited. -/
def coreRailsOff (s : State) : State :=
  { s with power := { s.power with en := s.power.en &&& 28, pg := s.power.pg &&& 28, railWait := none } }

/-- A rail other than the spill store's goes off without a trace in SYS_PINSTAT. -/
theorem railOff_of_ne (h : r ≠ 2) : railOff s r = { s with power := { s.power with
    en := s.power.en &&& ~~~ BitVec.ofNat 5 (2 ^ r), pg := s.power.pg &&& ~~~ BitVec.ofNat 5 (2 ^ r),
    railWait := if s.power.railWait = some r then none else s.power.railWait } } := if_neg h

theorem railOff_core (h : s.power.railWait = some r) (hr : r ≤ 1) : railOff (railOff s 1) 0 = coreRailsOff s := by
  rw [railOff_of_ne (r := 0) (by decide), railOff_of_ne (r := 1) (by decide)]
  dsimp only
  rw [BitVec.and_assoc, BitVec.and_assoc, h]
  obtain rfl | rfl := Nat.le_one_iff_eq_zero_or_eq_one.mp hr
  · rfl
  · rfl

/-- The first and the second failure of a bring-up leave 10 ms to the next try. -/
theorem coreRailFail_retry (h : s.power.railWait = some r) (hr : r ≤ 1) (hn : s.power.railRetries < 2) :
    coreRailFail s r = { s with power := { s.power with
      en := s.power.en &&& 28, pg := s.power.pg &&& 28, railRetries := s.power.railRetries + 1, railSettle := true,
      railWait := none } } := by
  unfold coreRailFail
  rw [railOff_core h hr]
  exact if_pos (Nat.succ_lt_succ hn)

/-- The third failure ends the bring-up: FAIL is set and no try is left. -/
def coreRailGivenUp (s : State) (r : Nat) : State :=
  let s := orReg (coreRailsOff s) R_PWR_RAIL 0 (fieldMask (16 + r) 1)
  { s with power := { s.power with railRetries := 0, railSettle := false } }

theorem coreRailFail_third (h : s.power.railWait = some r) (hr : r ≤ 1) (hn : 2 ≤ s.power.railRetries) :
    coreRailFail s r =
      let t := coreRailGivenUp s r
      match s.power.phase with
      | .railPhase => { t with power := { t.power with phase := .asleep, woutPend := false } }
      | _ => { t with power := { t.power with leBlocked := true } } := by
  unfold coreRailFail
  rw [railOff_core h hr]
  exact if_neg (Nat.not_lt.mpr (Nat.succ_le_succ hn))

/-- What the third failure of a bring-up comes to, the phase apart. -/
structure GivenUp (s : State) (r : Nat) (t : State) : Prop where
  rf : t.rf = (orReg s R_PWR_RAIL 0 (fieldMask (16 + r) 1)).rf
  retries : t.power.railRetries = 0
  settle : t.power.railSettle = false
  wait : t.power.railWait = none

theorem coreRailFail_givenUp (h : s.power.railWait = some r) (hr : r ≤ 1) (hn : 2 ≤ s.power.railRetries) :
    GivenUp s r (coreRailFail s r) := by
  rw [coreRailFail_third h hr hn]
  dsimp only
  split
  · exact ⟨rfl, rfl, rfl, rfl⟩
  · exact ⟨rfl, rfl, rfl, rfl⟩

theorem coreRailFail_asleep (h : s.power.railWait = some r) (hr : r ≤ 1) (hn : 2 ≤ s.power.railRetries)
    (hp : s.power.phase = .railPhase) : (coreRailFail s r).power.phase = .asleep := by
  rw [coreRailFail_third h hr hn, hp]

theorem coreRailFail_island (h : s.power.railWait = some r) (hr : r ≤ 1) (hn : 2 ≤ s.power.railRetries)
    (hp : s.power.phase = .island) :
    (coreRailFail s r).power.phase = .island ∧ (coreRailFail s r).power.leBlocked = true := by
  rw [coreRailFail_third h hr hn, hp]
  exact ⟨hp, rfl⟩

/-! ## A rail whose loss is a cause (R80, R81) -/

theorem railCause_core (h : s.power.phase = .startup ∨ s.power.phase = .awake) (r : Nat) :
    railCause s r = causeArises (lanesFollow (orReg (railDead s r) R_PWR_RAIL 0 (fieldMask (16 + r) 1))) .rail := by
  unfold railCause
  obtain h | h := h
  · rw [h]
  · rw [h]

theorem railCause_asleep (h : s.power.phase = .asleep) (r : Nat) :
    railCause s r = orReg (railDead s r) R_PWR_RAIL 0 (fieldMask (16 + r) 1) := by
  unfold railCause
  rw [h]

theorem railCause_railPhase (h : s.power.phase = .railPhase) (r : Nat) :
    railCause s r = orReg (railOff s r) R_PWR_RAIL 0 (fieldMask (16 + r) 1) := by
  unfold railCause
  rw [h]

/-! ## Retry, loss and the return of VBAT (R80, R81, R102) -/

theorem exec_railRetry_settled (h : s.power.railSettle = true) :
    exec .railRetry s = .next { begin_ s with power := { s.power with
      railSettle := false, en := s.power.en ||| 1, railWait := some 0 } } :=
  congrArg _ (if_pos h)

theorem exec_railLoss_good {r : Fin 5} (he : s.power.en.getLsbD r = true) (hg : s.power.pg.getLsbD r = true) :
    exec (.railLoss r) s = .next (if r.val ≤ 1 then brownOut (orReg (begin_ s) R_PWR_RAIL 0 (fieldMask (16 + r) 1))
      else if r.val = 2 then spillLoss (orReg (railDead (begin_ s) 2) R_PWR_RAIL 0 (fieldMask 18 1))
      else railCause (begin_ s) r) :=
  congrArg _ (if_neg (by rw [begin__power, he, hg]; decide))

theorem exec_lowEnergyClear_island {mv : Nat} (hp : s.power.phase = .island) (hs : s.boot.step = 4) (hv : 4500 ≤ mv)
    (hb : s.power.leBlocked = false) (hw : s.power.railWait = none) (hr : s.power.railSettle = false) :
    exec (.lowEnergyClear mv) s = .next (let u := setVbat (begin_ s) mv
      railOn { u with power := { u.power with railRetries := 0 } } 0) :=
  congrArg _ (if_pos ⟨hp, hs, hv, congrArg (! ·) hb, hw, congrArg (! ·) hr⟩)

/-- Settles O13: the effect of a rail's command is that of the operation it comes to, read off per rail and phase. -/
theorem railsFollowTheirOrder : Obligations.RailsFollowTheirOrder := by
  unfold Obligations.RailsFollowTheirOrder
  refine ⟨fun s r h => exec_railPowerGood_awaited h, fun s h => ⟨?_, ?_, railGood_vcore_phase h⟩,
    fun s r h => railGood_awake_power h r,
    fun s r hw he hg => ⟨exec_railPowerGood_comingUp hw he hg, exec_railTimeout_comingUp hw he hg⟩,
    fun s r h hr hn => ?_, fun s r h hr hn => ?_, fun s h => exec_railTimeout_awaited (r := 2) h, fun s r h hr => ?_,
    fun s r => ⟨fun h => railCause_core h r, fun h => railCause_asleep h r, fun h => railCause_railPhase h r⟩,
    fun s h => exec_railRetry_settled h, fun s r he hg => exec_railLoss_good he hg,
    fun s mv hp hs hv hb hw hr => ⟨_, exec_lowEnergyClear_island hp hs hv hb hw hr, rfl, rfl, rfl⟩⟩
  · obtain ⟨m, hm⟩ := railGood_vio h
    rw [hm, railNext_pg, woutRise_pg]
    rfl
  · obtain ⟨m, hm⟩ := railGood_vio h
    rw [hm, railNext_phase, woutRise_phase]
  · rw [exec_railTimeout_awaited h, if_pos hr, coreRailFail_retry (s := begin_ s) h hr hn]
    rfl
  · have hg := coreRailFail_givenUp (s := begin_ s) h hr hn
    exact ⟨coreRailFail (begin_ s) r, by rw [exec_railTimeout_awaited h, if_pos hr], hg.rf, hg.retries, hg.settle, hg.wait,
      fun hp => coreRailFail_asleep (s := begin_ s) h hr hn hp, fun hp => coreRailFail_island (s := begin_ s) h hr hn hp⟩
  · rw [exec_railTimeout_awaited h, if_neg (by omega), if_neg (by omega)]

end Sys2Proof.Machine
end

section
namespace Sys2Proof.Machine

/-! ## The invariant of every step (R86, R428, R429, R464) -/

section
variable {c : Instr} {s t : State}

/-- The mark that compares nothing: what it keeps is the soundness of the stores alone. -/
def soundMark : Mark :=
  { pending := none, clock := none, beat := none, odo := none, seq := none, map := none, slots := none }

theorem kept_soundMark_iff : Kept True soundMark s ↔ s.Sound :=
  ⟨fun h => h.sound trivial, fun h =>
    { pending := fun _ e => nomatch e
      clock := fun _ e => nomatch e
      beat := fun _ e => nomatch e
      seq := fun _ e => nomatch e
      map := fun _ e => nomatch e
      slots := fun _ e => nomatch e
      odo := fun _ _ e => nomatch e
      sound := fun _ => h }⟩

theorem exec_sound (h : s.Sound) (ht : exec c s = .next t) : t.Sound := by
  obtain ⟨u, hu, hk⟩ := exec_kept c s (kept_soundMark_iff.mpr h) (fun _ => rfl) (fun _ => rfl) (fun _ => rfl) (fun _ => rfl)
    (fun _ => rfl) (fun _ => rfl)
  rw [ht] at hu
  cases hu
  exact kept_soundMark_iff.mp hk

theorem tick_sound (h : s.Sound) : (tick s).Sound :=
  kept_soundMark_iff.mp (tick_kept s (kept_soundMark_iff.mpr h) rfl rfl)

/-- The mark that compares ledger time and TRIM with those of a state. -/
def clockMark (s : State) : Mark :=
  { pending := none, clock := some (s.ledger.sec, s.ledger.frac, s.ledger.trim), beat := none, odo := none, seq := none,
    map := none, slots := none }

theorem kept_own_clock (s : State) : Kept False (clockMark s) s where
  pending _ e := nomatch e
  clock _ e := Option.some.inj e
  beat _ e := nomatch e
  seq _ e := nomatch e
  map _ e := nomatch e
  slots _ e := nomatch e
  odo c := c.elim
  sound c := c.elim

theorem clockFrom_zero_iff : ClockFrom 0 s ↔ s.Clock := ⟨fun h => h.clock, fun h => ⟨h, Nat.zero_le _⟩⟩

/-- A command that moves no clock leaves ledger time and TRIM as they were. -/
theorem exec_clock_eq (hc : movesClock c = false) (ht : exec c s = .next t) :
    (t.ledger.sec, t.ledger.frac, t.ledger.trim) = (s.ledger.sec, s.ledger.frac, s.ledger.trim) := by
  obtain ⟨u, hu, hk⟩ := exec_kept c s (kept_own_clock s) (fun _ => rfl) (fun e => by rw [hc] at e; cases e) (fun _ => rfl)
    (fun _ => rfl) (fun _ => rfl) (fun _ => rfl)
  rw [ht] at hu
  cases hu
  exact hk.clock _ rfl

/-! ### The commands that move the clock -/

theorem clock_begin (h : s.Clock) : (begin_ s).Clock := ⟨h.sec, h.frac, h.trimLo, h.trimHi⟩

/-- What is left of the beat passes, and the boundary itself moves no clock. -/
theorem beatBoundary_clock {env : BeatEnv} (h : s.Clock) (ht : execBeatBoundary env s = .next t) : t.Clock := by
  unfold execBeatBoundary at ht
  cases ht
  have hb := clock_begin h
  dsimp only
  split
  · have hp := pass_clock ((begin_ s).time.beatLen - (begin_ s).time.beatPos) (clockFrom_zero_iff.mpr hb)
    exact (clock_of_kept hp fun k => boundary_kept env _ k rfl).clock
  · exact hb

/-- At the loss of VBKP ledger time and TRIM are zero (R82). -/
theorem vbkpLost_clock (s : State) : (vbkpLost s).Clock where
  sec := (by decide : (0 : Nat) < 2 ^ 48)
  frac := (by decide : (0 : Nat) < 2 ^ 40)
  trimLo := (by decide : (-6711 : Int) ≤ 0)
  trimHi := (by decide : (0 : Int) ≤ 6711)

/-- A step of TRIM towards its target stays within the clamp that holds both (R428, R429). -/
theorem trimUpdate_clock {periods : Nat} (h : s.Clock) (ht : execTrimUpdate periods s = .next t) : t.Clock := by
  have hb := clock_begin h
  have hstep : -6711 ≤ s.ledger.trim + max (-34) (min 34 (trimTarget periods - s.ledger.trim)) ∧
      s.ledger.trim + max (-34) (min 34 (trimTarget periods - s.ledger.trim)) ≤ 6711 := by
    have hlo : -6711 ≤ trimTarget periods := le_max_left _ _
    have hhi : trimTarget periods ≤ 6711 := max_le (by decide) (min_le_left _ _)
    have := h.trimLo
    have := h.trimHi
    omega
  unfold execTrimUpdate whenRunning at ht
  cases ht
  split
  · dsimp only
    split
    · exact hb
    · exact ⟨h.sec, h.frac, hstep.1, hstep.2⟩
  · exact hb

theorem exec_clock (h : s.Clock) (ht : exec c s = .next t) : t.Clock := by
  cases hc : movesClock c with
  | false => exact (clock_of_eq (clockFrom_zero_iff.mpr h) (exec_clock_eq hc ht)).clock
  | true =>
    unfold movesClock at hc
    split at hc
    · exact beatBoundary_clock h ht
    · cases ht
      exact vbkpLost_clock (begin_ s)
    · cases ht
      exact { vbkpLost_clock (begin_ s) with }
    · exact trimUpdate_clock h ht
    · cases hc

theorem exec_inv (h : s.Inv) (ht : exec c s = .next t) : t.Inv := ⟨exec_sound h.sound ht, exec_clock h.clock ht⟩

theorem tick_inv (h : s.Inv) : (tick s).Inv :=
  ⟨tick_sound h.sound, (pass_clock 1 (clockFrom_zero_iff.mpr (clock_begin h.clock))).clock⟩

/-- Taking a command from the queue changes nothing that the invariant speaks of. -/
theorem inv_pending (h : s.Inv) (l : List Instr) : State.Inv { s with pending := l } := by
  obtain ⟨⟨hregs, hmem, hstep, hodo⟩, hsec, hfrac, hlo, hhi⟩ := h
  exact ⟨⟨hregs, hmem, hstep, hodo⟩, hsec, hfrac, hlo, hhi⟩

end

/-- Settles O3: a step is a tick or one command, and each keeps the stores sound and ledger time within its bounds. -/
theorem stepKeepsTheInvariant : Obligations.StepKeepsTheInvariant := by
  unfold Obligations.StepKeepsTheInvariant
  intro s t h ht
  unfold step at ht
  split at ht
  · cases ht
    exact tick_inv h
  · exact exec_inv (inv_pending h _) ht

end Sys2Proof.Machine
end

section
namespace Sys2Proof.Machine

/-! ## Wakes (R76 to R79) -/

section
variable {s : State} {src mv : Nat}

/-- Of the power state a wake that is noted changes the waiting WAKE_OUT request alone. -/
theorem noteWake_power (s : State) (src : Nat) : ∃ w, (noteWake s src).power = { s.power with woutPend := w } := by
  unfold noteWake
  dsimp only
  split
  · exact ⟨true, rfl⟩
  · exact ⟨s.power.woutPend, rfl⟩

theorem noteWake_rf (s : State) (src : Nat) :
    (noteWake s src).rf = (orReg s R_PWR_WAKE_CAUSE 0 (fieldMask src 1)).rf := by
  unfold noteWake
  dsimp only
  split
  · rfl
  · rfl

@[simp] theorem noteWake_vbat (s : State) (src : Nat) : (noteWake s src).power.vbat = s.power.vbat := by
  obtain ⟨w, h⟩ := noteWake_power s src
  rw [h]

@[simp] theorem noteWake_en (s : State) (src : Nat) : (noteWake s src).power.en = s.power.en := by
  obtain ⟨w, h⟩ := noteWake_power s src
  rw [h]

/-! ### The start of the core -/

theorem startCore_low (h : s.power.vbat < 4500) :
    startCore s = coldCore { s with power := { s.power with
      lowEnergy := true, phase := .island, sleepIn := s.power.cur, dead := 0, railWait := none,
      wakePer := some (oscPeriod s) } } := if_pos h

theorem startCore_high (h : 4500 ≤ s.power.vbat) :
    startCore s = railOn { s with power := { s.power with
      phase := .railPhase, sleepIn := s.power.cur, railRetries := 0, railSettle := false, dead := 0,
      railWait := none, wakePer := some (oscPeriod s) } } 0 := if_neg (Nat.not_lt.mpr h)

/-- A part of the state that no sag trip changes is as it was after the trips that stand when a reset ends (R99). -/
theorem sagAfter_part {α : Type} (p : State → α) (h : ∀ u, p (sagHit u) = p u) (s : State) : p (sagAfter s) = p s := by
  have hit_of (c : Bool) (u : State) : p (if c then sagHit u else u) = p u := by
    cases c
    · rfl
    · exact h u
  exact (hit_of _ _).trans (hit_of _ _)

@[simp] theorem coldCore_lowEnergy (s : State) : (coldCore s).power.lowEnergy = s.power.lowEnergy :=
  sagAfter_part (·.power.lowEnergy) (fun _ => rfl) _

@[simp] theorem coldCore_vbat (s : State) : (coldCore s).power.vbat = s.power.vbat :=
  sagAfter_part (·.power.vbat) (fun _ => rfl) _

@[simp] theorem coldCore_boot (s : State) : (coldCore s).boot = bootReset := sagAfter_boot _

@[simp] theorem coldCore_map (s : State) : (coldCore s).map = s.map := sagAfter_map _

/-! ### A source that fires while the device sleeps (Table 3.2, Table 3.4) -/

theorem wakeOpen_asleep (h : s.power.phase = .asleep) : wakeOpen s = true := by
  unfold wakeOpen
  rw [h]
  rfl

theorem wakeBy_asleep (h : s.power.phase = .asleep) :
    wakeBy s src =
      if s.power.cur = .sentry ∨ src = 0 then startCore (noteWake s src)
      else if s.power.vbat < 4500 then noteWake s src
      else if src = 4 ∧ s.power.recorded ≠ .dormant ∧ s.power.recorded ≠ .sentry then startCore (noteWake s src)
      else sleepTo (noteWake s src) .sentry := by
  unfold wakeBy
  rw [h]

theorem wakeBy_starts (h : s.power.phase = .asleep) (hs : s.power.cur = .sentry ∨ src = 0) :
    wakeBy s src = startCore (noteWake s src) := by
  rw [wakeBy_asleep h, if_pos hs]

/-- From DORMANT, with VBAT high enough, a source other than FIELD starts the core where VBAT_RISE finds an awake mode
recorded, and enters SENTRY else. -/
theorem wakeBy_dormant (h : s.power.phase = .asleep) (hd : s.power.cur = .dormant) (h0 : src ≠ 0) (hv : 4500 ≤ s.power.vbat) :
    wakeBy s src =
      if src = 4 ∧ s.power.recorded ≠ .dormant ∧ s.power.recorded ≠ .sentry then startCore (noteWake s src)
      else sleepTo (noteWake s src) .sentry := by
  have hn : ¬ (s.power.cur = .sentry ∨ src = 0) := by
    rw [hd]
    rintro (h | h)
    · cases h
    · exact h0 h
  rw [wakeBy_asleep h, if_neg hn, if_neg (Nat.not_lt.mpr hv)]

/-! ### FIELD_WAKE -/

theorem exec_fieldWake_asleep (h : s.power.phase = .asleep) :
    exec (.fieldWake mv) s = .next (startCore (noteWake (setVbat (begin_ s) mv) 0)) :=
  congrArg _ ((if_pos (wakeOpen_asleep (s := begin_ s) h)).trans (wakeBy_starts (s := setVbat (begin_ s) mv) h (.inr rfl)))

theorem exec_fieldWake_high (h : s.power.phase = .asleep) (hv : 4500 ≤ mv) : ∃ t, exec (.fieldWake mv) s = .next t ∧
    t.power.phase = .railPhase ∧ t.power.railWait = some 0 ∧ t.power.en = s.power.en ||| 1 ∧ t.power.vbat = mv ∧
    rd t R_PWR_WAKE_CAUSE = rd (orReg s R_PWR_WAKE_CAUSE 0 1) R_PWR_WAKE_CAUSE ∧ t.map = s.map ∧ t.ledger = s.ledger := by
  have hn : 4500 ≤ (noteWake (setVbat (begin_ s) mv) 0).power.vbat := by rw [noteWake_vbat]; exact hv
  refine ⟨_, (exec_fieldWake_asleep h).trans (congrArg _ (startCore_high hn)), rfl, rfl, ?_, ?_, ?_, ?_, ?_⟩
  · exact congrArg (· ||| _) (noteWake_en _ _)
  · exact noteWake_vbat _ _
  · exact congrArg (tabGet rfCold · _) (noteWake_rf _ _)
  · exact noteWake_map _ _
  · exact noteWake_ledger _ _

theorem exec_fieldWake_low (h : s.power.phase = .asleep) (hv : mv < 4500) : ∃ t, exec (.fieldWake mv) s = .next t ∧
    t.power.phase = .island ∧ t.power.lowEnergy = true ∧ t.power.vbat = mv ∧ t.boot = bootReset ∧ t.map = s.map := by
  have hn : (noteWake (setVbat (begin_ s) mv) 0).power.vbat < 4500 := by rw [noteWake_vbat]; exact hv
  exact ⟨_, (exec_fieldWake_asleep h).trans (congrArg _ (startCore_low hn)), coldCore_phase _, coldCore_lowEnergy _,
    (coldCore_vbat _).trans (noteWake_vbat _ _), coldCore_boot _, (coldCore_map _).trans (noteWake_map _ _)⟩

/-! ### ALARM and VBAT_RISE -/

theorem alarmFire_armed (ha : bit s R_PWR_WAKE_ARM 0 8 = true) (h : s.power.phase = .asleep) :
    alarmFire s = wakeBy (wr { s with power := { s.power with alarmLeft := 0 } } R_PWR_ALARM 0) 3 := by
  have hb : bit (wr { s with power := { s.power with alarmLeft := 0 } } R_PWR_ALARM 0) R_PWR_WAKE_ARM 0 8 = true :=
    (bit_wr_other _ _ 8 (by decide)).trans ha
  unfold alarmFire
  dsimp only
  rw [hb, wakeOpen_asleep (by exact h)]
  rfl

theorem exec_alarmWake_dormant (hl : s.power.alarmLeft ≠ 0) (ha : bit s R_PWR_WAKE_ARM 0 8 = true)
    (h : s.power.phase = .asleep) (hd : s.power.cur = .dormant) (hv : 4500 ≤ s.power.vbat) :
    exec .alarmWake s =
      .next (sleepTo (noteWake (wr { begin_ s with power := { s.power with alarmLeft := 0 } } R_PWR_ALARM 0) 3) .sentry) := by
  have hw := wakeBy_dormant (s := wr { begin_ s with power := { s.power with alarmLeft := 0 } } R_PWR_ALARM 0) (src := 3) h hd
    (by decide) hv
  rw [if_neg (by rintro ⟨e, -⟩; cases e)] at hw
  exact congrArg _ ((if_neg hl).trans ((alarmFire_armed (s := begin_ s) ha h).trans hw))

/-- A sample of VBAT has been taken (R76). -/
def vbatSampled (s : State) (mv : Nat) : State :=
  setVbat { begin_ s with power := { s.power with samples := (mv :: s.power.samples).take 4 } } mv

/-- A sample more than 1 V above one of the last second fires VBAT_RISE where it is armed, by the host or by R97. -/
theorem exec_vbatRiseSample_rise {x : Nat} (h : s.power.phase = .asleep) (hx : x ∈ s.power.samples) (hr : x + 1000 < mv)
    (ha : bit s R_PWR_WAKE_ARM 0 9 = true ∨ s.power.riseAuto = true) :
    exec (.vbatRiseSample mv) s = .next (wakeBy (vbatSampled s mv) 4) := by
  have hany : (s.power.samples.any fun x => decide (mv > x + 1000)) = true :=
    List.any_eq_true.mpr ⟨x, hx, decide_eq_true hr⟩
  have ho : (! wakeOpen (begin_ s)) = false := by rw [wakeOpen_begin, wakeOpen_asleep h]; rfl
  rw [exec_vbatRiseSample]
  unfold execVbatRiseSample
  dsimp only
  rw [ho]
  exact congrArg _ (if_pos (And.intro hany ha))

end

/-! ## Lane wakes (R171 to R174) -/

section
variable {s : State} {n : Nat} {c : WakeCopy}

@[simp] theorem laneWakeRecord_power (s : State) (n : Nat) (e : LaneWakeEvt) : (laneWakeRecord s n e).power = s.power := by
  cases e <;> rfl

@[simp] theorem noteLaneWake_power (s : State) (n : Nat) (e : LaneWakeEvt) : (noteLaneWake s n e).power = s.power := by
  unfold noteLaneWake
  split
  · rfl
  · exact laneWakeRecord_power s n e

/-- A lane has a wake configuration only in SENTRY. -/
theorem sentry_of_wakeCopy (h : wakeCopy s n = some c) : s.power.cur = .sentry := by
  unfold wakeCopy at h
  split at h
  · next hc => exact hc.1
  · cases h

theorem exec_laneWake_met {lane : Fin 96} {e : LaneWakeEvt} (hp : s.power.phase = .asleep)
    (h : wakeCopy s lane = some c) (hm : wakeMeets s lane c e = true) :
    exec (.laneWake lane e) s = .next (startCore (noteWake (noteLaneWake (begin_ s) lane e) 2)) := by
  rw [exec_laneWake]
  unfold execLaneWake
  dsimp only
  rw [wakeCopy_begin, h]
  dsimp only
  rw [wakeMeets_begin, if_pos hm, wakeBy_starts]
  · rw [noteLaneWake_power]
    exact hp
  · rw [noteLaneWake_power]
    exact .inl (sentry_of_wakeCopy h)

theorem exec_wakeReceiverShort_runs {lane : Fin 96} (h : wakeCopy s lane = some c) :
    exec (.wakeReceiverShort lane) s = .next (orReg { begin_ s with
      aon := { s.aon with stopped := tset false s.aon.stopped lane true } } R_LANE_WAKE_LAST 0 (fieldMask 30 1)) := by
  rw [exec_wakeReceiverShort]
  unfold execWakeReceiverShort
  dsimp only
  rw [wakeCopy_begin, h]
  rfl

/-- The wake-frame error counter after a frame (R172). -/
def fecNext (good : Bool) (n : Nat) : Nat := if good then n - 1 else n + 1

theorem exec_wakeReceiverFrame_can {lane : Fin 96} (good : Bool) (h : wakeCopy s lane = some c) (hp : c.pers = 1) :
    exec (.wakeReceiverFrame lane good) s = .next (
      let f := fecNext good (laneOf s lane).fec
      let u := setLane (begin_ s) lane { laneOf s lane with fec := if f > 31 ∧ bitsOf c.cfg 2 1 = 0 then 0 else f }
      if f > 31 ∧ bitsOf c.cfg 2 1 = 1 then wakeBy (noteLaneWake u lane .frameErrors) 2 else u) := by
  rw [exec_wakeReceiverFrame]
  unfold execWakeReceiverFrame
  dsimp only
  rw [wakeCopy_begin, h]
  exact congrArg _ (if_neg (not_not_intro hp))

/-- At 31 and below the counter is only counted. -/
theorem exec_wakeReceiverFrame_counts {lane : Fin 96} {good : Bool} (h : wakeCopy s lane = some c) (hp : c.pers = 1)
    (hf : fecNext good (laneOf s lane).fec ≤ 31) :
    exec (.wakeReceiverFrame lane good) s =
      .next (setLane (begin_ s) lane { laneOf s lane with fec := fecNext good (laneOf s lane).fec }) := by
  rw [exec_wakeReceiverFrame_can good h hp]
  dsimp only
  rw [if_neg (fun e => by omega), if_neg (fun e => by omega)]

end

/-- Settles O12: each source is followed to its wake, and the wake to what Table 3.2 has it do from where the device sleeps. -/
theorem wakesStartTheCore : Obligations.WakesStartTheCore := by
  unfold Obligations.WakesStartTheCore
  refine ⟨fun s mv h hv => exec_fieldWake_high h hv, fun s mv h hv => exec_fieldWake_low h hv,
    fun s hl ha h hd hv => exec_alarmWake_dormant hl ha h hd hv, fun s mv x h hd hr hx hm ha hv => ?_,
    fun s mv x h hd hrd hrs hx hm ha hv => ?_, fun s pin hs h ha => ?_, fun s lane e c h hc hm => exec_laneWake_met h hc hm,
    fun s lane c h => exec_wakeReceiverShort_runs h, fun s lane c h hp hf => ⟨?_, ?_⟩, fun s lane c h hp hf => ⟨?_, ?_⟩⟩
  · have hn : ¬ ((4 : Nat) = 4 ∧ s.power.recorded ≠ .dormant ∧ s.power.recorded ≠ .sentry) := fun e =>
      hr.elim e.2.1 e.2.2
    rw [exec_vbatRiseSample_rise h hx hm (.inl ha), wakeBy_dormant (s := vbatSampled s mv) h hd (by decide) hv]
    exact congrArg _ (if_neg hn)
  · rw [exec_vbatRiseSample_rise h hx hm (.inr ha), wakeBy_dormant (s := vbatSampled s mv) h hd (by decide) hv]
    exact congrArg _ (if_pos ⟨rfl, hrd, hrs⟩)
  · exact congrArg _ ((if_pos ⟨hs, ha, wakeOpen_asleep (s := begin_ s) h⟩).trans (wakeBy_starts (s := begin_ s) h (.inl hs)))
  · exact exec_wakeReceiverFrame_counts h hp (good := true) (by change (laneOf s lane).fec - 1 ≤ 31; omega)
  · exact exec_wakeReceiverFrame_counts h hp (good := false) (Nat.succ_le_succ hf)
  · intro hc
    rw [exec_wakeReceiverFrame_can false h hp, hf, hc]
    rfl
  · intro hc
    rw [exec_wakeReceiverFrame_can false h hp, hf, hc]
    rfl

end Sys2Proof.Machine
end

section
namespace Sys2Proof.Machine

/-! ## The sag throttle (R86, R87, R102) -/

section
variable {s : State}

theorem not_clocked_begin_eq_false (h : clocked s = true) : (! clocked (begin_ s)) = false := by
  rw [clocked_begin, h]
  rfl

theorem exec_sagTrip_clocked (v : Bool) (h : clocked s = true) :
    exec (.sagTrip v) s = .next { statInc (begin_ s) R_PWR_SAG_CNT with power := { s.power with
      vcSag := s.power.vcSag || v, vbSag := s.power.vbSag || ! v, step := min 3 (s.power.step + 1), quiet := 0,
      sagInBeat := true } } := by
  rw [exec_sagTrip]
  unfold execSagTrip
  dsimp only
  rw [not_clocked_begin_eq_false h]
  rfl

theorem exec_sagHalve_tripped (h : clocked s = true) (ht : s.power.vcSag = true ∨ s.power.vbSag = true) :
    exec .sagHalve s = .next { begin_ s with power := { s.power with step := min 3 (s.power.step + 1) } } :=
  congrArg _ (if_pos (And.intro h ht))

end

/-- Settles O14: a trip of a clocked core is one sag hit, and a halving is one step of the throttle. -/
theorem sagThrottle : Obligations.SagThrottle := by
  unfold Obligations.SagThrottle
  exact ⟨fun s v h => exec_sagTrip_clocked v h, fun s h ht => exec_sagHalve_tripped h ht, fun s v => exec_sagRelease s v⟩

/-! ## The brown-out path (R97) -/

section
variable (s : State)

/-- Writes of registers change the register file alone. -/
theorem foldl_wr_frame (a : Nat → Nat) (v : Word) (l : List Nat) :
    ∀ s : State, ∃ rf, l.foldl (fun s k => wr s (a k) v) s = { s with rf := rf } := by
  induction l with
  | nil => exact fun s => ⟨s.rf, rfl⟩
  | cons x l ih =>
    intro s
    obtain ⟨rf, h⟩ := ih (wr s (a x) v)
    exact ⟨rf, h⟩

/-- A bulk engine that loses its power loses its key registers alone. -/
theorem losePower_engine_frame {b : Nat} (hb : b < 2) :
    ∃ rf cipher, losePower s b = { s with rf := rf, cipher := cipher } := by
  unfold losePower
  rw [if_pos hb]
  obtain ⟨rf, h⟩ := foldl_wr_frame (R_CIPH_KEYW0 + 0x100 * b + 4 * ·) 0 (List.range 8)
    (setFld { s with cipher := { s.cipher with
      engs := tset Eng.init s.cipher.engs b { tget Eng.init s.cipher.engs b with written := 0 } } }
      (R_CIPH_KCTL + 0x100 * b) 16 1 0)
  exact ⟨rf, _, h⟩

theorem zeroKeys_frame : ∃ rf cipher, zeroKeys s = { s with rf := rf, cipher := cipher } := by
  obtain ⟨rf, c, h⟩ := losePower_engine_frame s (b := 0) (by decide)
  obtain ⟨rf', c', h'⟩ := losePower_engine_frame (losePower s 0) (b := 1) (by decide)
  unfold zeroKeys
  rw [h', h]
  exact ⟨rf', _, rfl⟩

@[simp] theorem coreOff_power : (coreOff s).power = { s.power with
    phase := .asleep, wakeOut := false, woutPend := false, leBlocked := false, sleepPend := false,
    en := 0, pg := 0, railWait := none, railRetries := 0, railSettle := false, samples := [] } := by
  unfold coreOff
  dsimp only
  rw [lanesFollow_power]

@[simp] theorem coreOff_wheels : (coreOff s).wheels = { s.wheels with spd := 0, cmpo := 0, pulses := 0 } := by
  unfold coreOff
  dsimp only
  rw [lanesFollow_wheels]

@[simp] theorem coreOff_ledger : (coreOff s).ledger = s.ledger := by
  unfold coreOff
  dsimp only
  rw [lanesFollow_ledger]

@[simp] theorem coreOff_changes : (coreOff s).changes = s.changes := by
  unfold coreOff
  dsimp only
  rw [lanesFollow_changes]

@[simp] theorem coreOff_map : (coreOff s).map = s.map := by
  unfold coreOff
  dsimp only
  rw [lanesFollow_map]

/-- What a brown-out leaves of a state (R97). -/
structure BrownedOut (s t : State) : Prop where
  phase : t.power.phase = .asleep
  mode : t.power.cur = .dormant
  recorded : t.power.recorded = s.power.recorded
  lowEnergy : t.power.lowEnergy = false
  armed : t.power.riseAuto = true
  rails : t.power.en = 0
  ledger : t.ledger = { s.ledger with queue := [] }
  changes : t.changes = []
  map : t.map = s.map
  cmpo : t.wheels.cmpo = 0
  spd : t.wheels.spd = 0

/-- The brown-out path turns off a core whose actuators, keys and queues are given up already. -/
theorem brownOut_coreOff : ∃ u, brownOut s = coreOff u ∧
    u.power = { s.power with cur := .dormant, lowEnergy := false, riseAuto := true, sleepIn := .dormant } ∧
    u.ledger = { s.ledger with queue := [] } ∧ u.changes = [] ∧ u.map = s.map := by
  obtain ⟨rf, c, h⟩ := zeroKeys_frame (actuatorsSafe s)
  unfold brownOut
  rw [h]
  exact ⟨_, rfl, rfl, rfl, rfl, rfl⟩

theorem brownOut_done : BrownedOut s (brownOut s) := by
  obtain ⟨u, hu, hpower, hledger, hchanges, hmap⟩ := brownOut_coreOff s
  rw [hu]
  constructor
  case ledger => rw [coreOff_ledger, hledger]
  case changes => rw [coreOff_changes, hchanges]
  case map => rw [coreOff_map, hmap]
  case cmpo => rw [coreOff_wheels]
  case spd => rw [coreOff_wheels]
  all_goals rw [coreOff_power, hpower]

variable {s}

theorem exec_fieldLossTimeout_lowEnergy (hl : s.power.lowEnergy = true) (hp : s.power.phase ≠ .asleep) :
    exec .fieldLossTimeout s = .next (brownOut { begin_ s with nfc := { nfcReset' s.nfc with field := false } }) := by
  rw [exec_fieldLossTimeout]
  unfold execFieldLossTimeout
  dsimp only
  rw [begin__power, begin__nfc, if_pos (And.intro hl hp)]

end

/-- Settles O15: a brown-out and a loss of VBKP are read off their operations, and the lanes are shed, or return, where the
core is clocked. -/
theorem powerLossAndShedding : Obligations.PowerLossAndShedding := by
  unfold Obligations.PowerLossAndShedding
  refine ⟨fun s => exec_brownOut s, fun s => ?_, fun s hl hp => exec_fieldLossTimeout_lowEnergy hl hp,
    fun s => ⟨exec_vbkpLoss s, exec_vbkpPowerUp s, rfl, rfl, rfl, rfl, rfl, rfl, rfl, rfl⟩, fun s h => ?_, fun s h => ?_⟩
  · have h := brownOut_done s
    exact ⟨h.phase, h.mode, h.recorded, h.lowEnergy, h.armed, h.rails, h.ledger, h.changes, h.map, h.cmpo, h.spd⟩
  · rw [exec_laneShed]
    unfold execLaneShed
    rw [if_neg (by rw [h]; decide)]
    rfl
  · rw [exec_laneShedReturn]
    unfold execLaneShedReturn
    rw [if_neg (by rw [h]; decide)]
    rfl

end Sys2Proof.Machine
end

section
namespace Sys2Proof.Machine

/-! ## The mode in force and the waiting close of a trip -/

section
variable {s t : State}

/-- The mode in force, and whether the close of a trip waits for standstill. -/
def course (s : State) : Mode × Bool := (mode s, s.vault.closePend)

theorem course_eq (hp : t.power = s.power) (hv : t.vault = s.vault) : course t = course s := by
  unfold course mode
  rw [hp, hv]

/-! ### Flushing the queues of a port (R195, R263, R266, R269) -/

theorem course_ite {p : Prop} [Decidable p] {a b : State} {c : Mode × Bool} (ha : course a = c) (hb : course b = c) :
    course (if p then a else b) = c := by
  split
  · exact ha
  · exact hb

theorem course_out (s : State) (o : Outp) : course { s with out := o } = course s := rfl

theorem course_stat2AddI (s : State) (a i n : Nat) : course (stat2AddI s a i n) = course s :=
  course_ite rfl (course_ite rfl rfl)

theorem course_sendPause (s : State) (p b quanta : Nat) : course (sendPause s p b quanta) = course s := by
  unfold sendPause
  dsimp only
  rw [course_out, course_stat2AddI, course_stat2AddI]
  rfl

theorem course_fcScope (s : State) (p b : Nat) : course (fcScope s p b) = course s := by
  unfold fcScope
  dsimp only
  refine course_ite (course_ite rfl ?_) (course_ite (course_ite ?_ rfl) rfl)
  · rw [course_sendPause]
    rfl
  · rw [course_sendPause]
    rfl

theorem course_fcCheck (s : State) (ing : Nat) : course (fcCheck s ing) = course s :=
  course_ite (foldl_field course (fun s b => course_fcScope s _ b) _ s) rfl

theorem course_releaseRef (s : State) (h : Nat) : course (releaseRef s h) = course s := by
  unfold releaseRef
  split
  · rfl
  · exact course_ite (course_fcCheck _ _) rfl

theorem course_rsqSend (s : State) (e : Nat) (l : List Nat) : course (rsqSend s e l) = course s := by
  refine foldl_field course (fun s h => ?_) l s
  dsimp only
  split
  · rfl
  · rfl

theorem course_rsqStore (s : State) (str e : Nat) (r : RsqRes) : course (rsqStore s str e r) = course s :=
  course_rsqSend _ _ _

theorem course_rsqAdvise (s : State) (e : Nat) (f : Frame) : course (rsqAdvise s e f) = course s := by
  unfold rsqAdvise
  split
  · rfl
  · split
    · rfl
    · dsimp only
      split
      · exact course_rsqStore _ _ _ _
      · split
        · split
          · rfl
          · rfl
        · rfl

theorem course_dropAt (s : State) (e h : Nat) : course (dropAt s e h) = course s := by
  unfold dropAt
  split
  · rfl
  · exact (course_releaseRef _ _).trans (course_rsqAdvise _ _ _)

theorem course_dropHeld (s : State) (e : Nat) : course (dropHeld s e) = course s := by
  refine foldl_field course (fun s x => ?_) _ s
  dsimp only
  split
  · rfl
  · exact course_releaseRef _ _

theorem course_flushAll {cnt : State → Nat → State} (hc : ∀ s q, course (cnt s q) = course s) (s : State) (e : Nat) :
    course (flushAll cnt s e) = course s :=
  foldl_field course (fun s q => foldl_field course (fun s _ => (course_dropAt _ _ _).trans (hc s q)) _ (setQueue s e q [])) _ s

theorem course_flushPort (s : State) (p : Nat) : course (flushPort s p) = course s :=
  (course_flushAll (cnt := fun s _ => statIncI s R_PORT_TX_LINKDROP p) (fun _ _ => rfl) _ _).trans (course_dropHeld _ _)

/-! ### Lanes, ports and rails follow a mode -/

theorem course_raise (s : State) (e : Ev) : course (raise s e) = course s := course_eq (raise_power s e) (raise_vault s e)

theorem course_linkLost (s : State) (p : Nat) : course (linkLost s p) = course s := by
  have hq : course (portQuiet (flushPort (clrReg s R_PORT_STAT p 0x00000172) p) p) = course s := course_flushPort _ _
  unfold linkLost
  dsimp only
  split
  · exact (course_raise _ _).trans hq
  · exact hq

theorem course_portUp (s : State) (p : Nat) : course (portUp s p) = course s :=
  course_ite rfl (course_ite rfl (course_ite rfl rfl))

theorem course_portDown (s : State) (p : Nat) : course (portDown s p) = course s := course_linkLost s p

theorem course_portsFollow (s : State) : course (portsFollow s) = course s :=
  foldl_field course (fun s p => course_ite (course_portUp s p) (course_ite (course_portDown s p) rfl)) _ s

theorem course_lanesFollow (s : State) : course (lanesFollow s) = course s :=
  course_eq (lanesFollow_power s) (lanesFollow_vault s)

theorem course_railOff (s : State) (r : Nat) : course (railOff s r) = course s := course_ite rfl rfl

theorem course_railNext (s : State) (m : Mode) : course (railNext s m) = course s := by
  obtain ⟨en, w, h⟩ := railNext_power s m
  unfold course mode
  rw [h, railNext_vault]

theorem course_railsFollow (s : State) (m : Mode) : course (railsFollow s m) = course s :=
  (course_railNext _ m).trans (foldl_field course (fun s r => course_ite (course_railOff s r) rfl) _ s)

theorem course_closeSession (s : State) (role reason : Nat) : course (closeSession s role reason) = course s :=
  course_eq (closeSession_power s role reason) (closeSession_vault s role reason)

/-- Entering a mode puts it in force, and no trip's close is added or dropped. -/
theorem course_modeCore (s : State) (m : Mode) : course (modeCore s m) = (m, s.vault.closePend) := by
  unfold modeCore
  dsimp only
  rw [course_portsFollow, course_lanesFollow]
  refine Eq.trans (course_ite (course_railsFollow _ m) rfl) ?_
  refine Eq.trans (course_ite rfl rfl) (Eq.trans (course_ite rfl rfl) ?_)
  exact Eq.trans (course_ite (course_closeSession _ _ _) rfl) (course_ite (course_closeSession _ _ _) rfl)

theorem course_enterMode_rented (s : State) : course (enterMode s .rented) = (.rented, s.vault.closePend) :=
  course_ite (course_modeCore s .rented) (course_modeCore s .rented)

/-! ### Bolts that move (R479, R481) -/

theorem course_holdBlock (s : State) (b : Nat) : course (holdBlock s b) = course s := course_ite rfl rfl

theorem course_setCmpo (s : State) (k : Nat) (high : Bool) : course (setCmpo s k high) = course s :=
  course_eq (setCmpo_power s k high) (setCmpo_vault s k high)

theorem course_setBolt (s : State) (b : Nat) (x : Bolt) : course (setBolt s b x) = course s := rfl

theorem course_wr (s : State) (a : Nat) (v : Word) : course (wr s a v) = course s := rfl

theorem course_armMove (s : State) (c n us : Nat) : course (armMove s c n us) = course s := rfl

theorem course_startMove (s : State) (b : Nat) (engage undo : Bool) : course (startMove s b engage undo) = course s := by
  unfold startMove
  dsimp only
  rw [course_setBolt, course_setCmpo, course_armMove, course_wr, course_wr, course_wr, course_wr, course_holdBlock,
    course_holdBlock, course_holdBlock]

theorem course_requestMove (s : State) (b : Nat) (engage : Bool) : course (requestMove s b engage) = course s := by
  unfold requestMove
  refine course_ite rfl (course_ite ?_ rfl)
  rw [course_startMove, course_setBolt]

theorem course_engageAll (s : State) : course (engageAll s) = course s :=
  foldl_field course (fun s b => course_requestMove s b true) _ s

theorem course_retryBolt (s : State) (b : Nat) : course (retryBolt s b) = course s := by
  unfold retryBolt
  split
  · rfl
  · exact course_ite (course_raise _ _) (course_ite (course_startMove _ _ _ _) rfl)

theorem course_retryBolts (s : State) : course (retryBolts s) = course s := foldl_field course course_retryBolt _ s

/-! ### What waits for standstill (R73) -/

/-- In DRIVE the waiting passage to RENTED is taken. -/
theorem course_toRented (hm : mode s = .drive) (ht : s.vault.toRented = true) (hc : s.vault.closePend = false) :
    course (if mode s = .drive ∧ s.vault.toRented then
        enterMode { s with vault := { s.vault with toRented := false } } .rented else s) = (.rented, false) := by
  rw [if_pos ⟨hm, ht⟩, course_enterMode_rented, hc]

/-- Without a waiting close nothing more of a trip is done. -/
theorem course_noClose {p : Prop} [Decidable p] (h : course s = (.rented, false)) :
    course (if s.vault.closePend ∧ p then closeTrip s 2 else s) = (.rented, false) := by
  have hc : s.vault.closePend = false := congrArg Prod.snd h
  rw [if_neg (fun e => by rw [hc] at e; cases e.1)]
  exact h

theorem settle_moving (h : standstill s = false) : settle s = s := if_pos (by rw [h]; rfl)

theorem course_settle (hs : standstill s = true) (hm : mode s = .drive) (ht : s.vault.toRented = true)
    (hc : s.vault.closePend = false) : course (settle s) = (.rented, false) := by
  unfold settle
  rw [if_neg (by rw [hs]; decide)]
  refine (course_retryBolts _).trans (course_noClose ?_)
  refine Eq.trans (course_ite (course_engageAll _) rfl) (course_toRented ?_ ?_ ?_)
  · split
    · exact hm
    · exact hm
  · split
    · exact ht
    · exact ht
  · split
    · exact hc
    · exact hc

end

/-! ## Timers and requests that move the mode (R71, R73, R78, R95, R101, R106) -/

section
variable {s : State}

theorem exec_sentryDwellExpiry_configured (hp : s.power.phase = .asleep) (hc : s.power.cur = .sentry)
    (hf : fld s R_PWR_TIMERS 16 12 ≠ 0) : exec .sentryDwellExpiry s = .next (sleepTo (begin_ s) .dormant) := by
  rw [exec_sentryDwellExpiry]
  unfold execSentryDwellExpiry
  dsimp only
  rw [begin__power, fld_begin, if_pos ⟨hp, hc, hf⟩]

theorem exec_parkTimeout_configured (hp : s.power.phase = .asleep) (hc : s.power.cur = .sentry)
    (hf : fld s R_PWR_VTH 16 8 ≠ 0) : exec .parkTimeout s = .next (sleepTo (begin_ s) .dormant) := by
  rw [exec_parkTimeout]
  unfold execParkTimeout
  dsimp only
  rw [begin__power, fld_begin, if_pos ⟨hp, hc, hf⟩]

theorem exec_approachIdleExpiry_idle (hr : running s = true) (hm : mode s = .approach) (hi : approachIdle s = true) :
    exec .approachIdleExpiry s = .next (sleepWhenFree (begin_ s)) := by
  rw [exec_approachIdleExpiry]
  unfold execApproachIdleExpiry
  rw [whenRunning_running hr, if_pos ⟨hm, hi⟩]

theorem exec_serviceIdleTimeout_closed (hr : running s = true) (hm : mode s = .service) (ho : (sessOf s 2).isOpen = false) :
    exec .serviceIdleTimeout s = .next (enterMode (begin_ s) .approach) := by
  rw [exec_serviceIdleTimeout]
  unfold execServiceIdleTimeout
  rw [whenRunning_running hr, mode_begin, sessOf_begin, if_pos ⟨hm, by rw [ho]; decide⟩]

theorem exec_depotIdleTimeout_closed (hr : running s = true) (hm : mode s = .depot) (ho : (sessOf s 1).isOpen = false)
    (ht : (sessOf s 3).isOpen = false) : exec .depotIdleTimeout s = .next (enterMode (begin_ s) .approach) := by
  rw [exec_depotIdleTimeout]
  unfold execDepotIdleTimeout
  rw [whenRunning_running hr, mode_begin, sessOf_begin, sessOf_begin, if_pos ⟨hm, by rw [ho]; decide, by rw [ht]; decide⟩]

/-- The preconditions of DRIVE (Table 3.2) hold, for a trip with the drive right. -/
theorem startRequest_met {t : Trip} (hm : mode s = .rented) (ht : s.ledger.trip = some t) (hd : t.drive = true)
    (hi : s.hlb.immobAny = false) (hs : steeringReleased s = true) (ha : s.power.actLow = false) :
    startRequest s = enterMode s .drive := by
  unfold startRequest
  dsimp only
  rw [ht]
  exact if_pos ⟨hm, hd, by rw [hi]; rfl, hs, by rw [ha]; rfl⟩

theorem exec_driveStartRequest_match {l : Fin 96} {ide : Bool} {id : BitVec 29} {d : BitVec 64} (hr : running s = true)
    (h : requestMatch s.nfc.startFrm l ide id d = true) :
    exec (.driveStartRequest l ide id d) s = .next (startRequest (begin_ s)) := by
  rw [exec_driveStartRequest]
  unfold execDriveStartRequest
  rw [whenRunning_running hr, begin__nfc, if_pos h]

theorem exec_driveStopRequest_match {l : Fin 96} {ide : Bool} {id : BitVec 29} {d : BitVec 64} (hr : running s = true)
    (h : requestMatch s.nfc.stopFrm l ide id d = true) (hm : mode s = .drive) :
    exec (.driveStopRequest l ide id d) s = .next (settle { begin_ s with vault := { s.vault with toRented := true } }) := by
  rw [exec_driveStopRequest]
  unfold execDriveStopRequest
  rw [whenRunning_running hr, begin__nfc, if_pos h]
  exact congrArg _ (if_pos hm)

theorem exec_modeSet_granted {r : Req} {role : Nat} {m : BitVec 8} (h : Granted 0x0201 r role (judgeModeSet m.toNat) s)
    (hm : modeRow (heard 0x0201 r role s) m.toNat = true) :
    exec (.modeSet r m) s = .next (ok 0x0201 r (enterMode (admitted 0x0201 r role s)
      (if m.toNat = 5 then .service else if m.toNat = 6 then .depot else .approach)) []) := by
  rw [exec_modeSet]
  unfold execModeSet
  rw [dispatch_ok (f := fun u => (enterMode u
    (if m.toNat = 5 then .service else if m.toNat = 6 then .depot else .approach), [])) h (by decide)]
  rw [hm]
  rfl

end

/-- Settles O16: each timer and request is followed to its transition, and what waits for standstill through its stages. -/
theorem idleTimersAndRequests : Obligations.IdleTimersAndRequests := by
  unfold Obligations.IdleTimersAndRequests
  refine ⟨fun s hp hc hf => exec_sentryDwellExpiry_configured hp hc hf, fun s hp hc hf => exec_parkTimeout_configured hp hc hf,
    fun s hr hm hi => ⟨fun hh => ?_, fun hh => ?_⟩, fun s hr hm ho => exec_serviceIdleTimeout_closed hr hm ho,
    fun s hr hm ho ht => exec_depotIdleTimeout_closed hr hm ho ht, fun s l ide id d t hr h hm ht hd hi hs ha => ?_,
    fun s l ide id d hr h hm => exec_driveStopRequest_match hr h hm, fun s h => settle_moving h,
    fun s hs hm ht hc => congrArg Prod.fst (course_settle hs hm ht hc), fun s w hr => ⟨?_, ?_⟩,
    fun s r role m h hm => exec_modeSet_granted h hm⟩
  · rw [exec_approachIdleExpiry_idle hr hm hi]
    exact congrArg _ (if_neg fun e => Bool.false_ne_true (hh.symm.trans e))
  · rw [exec_approachIdleExpiry_idle hr hm hi]
    exact congrArg _ (if_pos hh)
  · rw [exec_driveStartRequest_match hr h]
    exact congrArg _ (startRequest_met (s := begin_ s) hm ht hd hi hs ha)
  · exact congrArg _ (whenRunning_running hr _)
  · exact congrArg _ (whenRunning_running hr _)

end Sys2Proof.Machine
end

section
namespace Sys2Proof.Machine

/-! ## Gate votes, holds and releases (R89 to R95) -/

section
variable {s : State} {b : Nat} {clk pwr : Bool}

/-- A vote that changes the request bits of a block other than a port group sets them, and the gate follows. -/
theorem gateVote_changes (h : (clk, pwr) ≠ (bit s R_PWR_GATE_CLK 0 b, bit s R_PWR_GATE_PWR 0 b)) (hb : b < 10) :
    gateVote s b clk pwr =
      (gateRequested (setFld (setFld s R_PWR_GATE_CLK b 1 (b2n clk)) R_PWR_GATE_PWR b 1 (b2n pwr)) b, true) := by
  unfold gateVote
  dsimp only
  rw [if_neg (fun e => h e.symm), if_neg (fun e => by omega)]

/-- A vote that clears a request is never refused (R94). -/
theorem gateVote_clear (s : State) (b : Nat) : (gateVote s b false false).2 = true := by
  unfold gateVote
  dsimp only
  split
  · rfl
  · rw [if_neg (fun e => by simp at e)]

theorem exec_gateEffect_free {b : Fin 14} (hr : running s = true) (hg : gateOf s b = .pending) (hh : held s b = false)
    (hb : blockBusy s b = false) : exec (.gateEffect b) s = .next (answerGates (gateNow (begin_ s) b) b) := by
  rw [exec_gateEffect]
  unfold execGateEffect
  rw [whenRunning_running hr]
  exact congrArg _ (if_pos ⟨hg, fun e => Bool.false_ne_true (hh.symm.trans e), fun e => Bool.false_ne_true (hb.symm.trans e)⟩)

theorem exec_vaultHold_free {b : Fin 10} (hr : running s = true) (hh : held s b = false) (hb : blockBusy s b = false) :
    exec (.vaultHold b) s = .next (holdBlock (begin_ s) b) := by
  rw [exec_vaultHold]
  unfold execVaultHold
  rw [whenRunning_running hr]
  exact congrArg _ (if_neg fun e => e.elim (fun e => Bool.false_ne_true (hh.symm.trans e)) fun e => Bool.false_ne_true (hb.symm.trans e))

theorem exec_vaultRelease_held {b : Fin 10} (hr : running s = true) (hh : held s b = true) :
    exec (.vaultRelease b) s = .next (resumeSleep (releaseBlock (begin_ s) b)) := by
  rw [exec_vaultRelease]
  unfold execVaultRelease
  rw [whenRunning_running hr]
  exact congrArg _ (if_pos hh)

/-- A release of a block whose gate waits lets it take effect (R90 to R92). -/
theorem releaseBlock_pending (h : gateOf s b = .pending) :
    releaseBlock s b = raise (answerGates (gateNow (clrReg s R_PWR_HOLD 0 (fieldMask b 1)) b) b) .gateDone := if_pos h

theorem releaseBlock_other (h : gateOf s b ≠ .pending) : releaseBlock s b = clrReg s R_PWR_HOLD 0 (fieldMask b 1) := if_neg h

end

/-! ### BLOCK_GATE -/

section
variable {op : Nat} {r : Req} {judge : State → Nat → Option Status} {body : State → Plan} {s u : State} {b k : BitVec 8}

/-- A request that is served in the HOST context runs its plan where its checks were made. -/
theorem dispatch_host (h : Served op r 0 judge s) (ho : op ≠ 0x0A01) :
    dispatch op r judge body s =
      let p := body (heard op r 0 s)
      let x := p.act (heard op r 0 s)
      if p.later (heard op r 0 s) then setCur x.1 none else answer (countHostDeny x.1 0 x.2.1) r op x.2.1 x.2.2 := by
  rw [dispatch_served h (fun e => absurd e ho) (fun e => absurd rfl e)]
  unfold planDone
  simp only [entered_host, true_or, if_true]

/-- The vote that a BLOCK_GATE of a kind casts. -/
def kindVote (u : State) (b k : BitVec 8) : State × Bool :=
  gateVote u b.toNat (decide (k.toNat = 1)) (decide (k.toNat = 2))

/-- What a BLOCK_GATE answers: DENIED where the vote is refused, HELD_SECURE where the vault holds the block (R91, R94). -/
def kindStatus (u : State) (b k : BitVec 8) : Status :=
  if ! (kindVote u b k).2 then .denied else if decide (k.toNat ≠ 0) && held u b.toNat then .heldSecure else .ok

/-- A BLOCK_GATE waits for work that runs on the block (R90). -/
def kindWaits (u : State) (b k : BitVec 8) : Bool :=
  decide (k.toNat ≠ 0) && ! ! (kindVote u b k).2 && ! (decide (k.toNat ≠ 0) && held u b.toNat) && blockBusy u b.toNat

/-- The state that a vote leaves, with the request waiting for the gate. -/
def gateAwaited (v : State) (r : Req) (b : Nat) : State :=
  { v with disp := { v.disp with gateWaits := v.disp.gateWaits ++ [({ req := r, ctx := v.disp.cur }, b)] } }

theorem exec_blockGate_served (h : Granted 0x0203 r 0 judgeHostAwake s) (hb : b.toNat ≤ 13) (hk : k.toNat ≤ 2)
    (hu : heard 0x0203 r 0 s = u) :
    exec (.blockGate r b k) s = .next (
      if kindWaits u b k then setCur (gateAwaited (kindVote u b k).1 r b.toNat) none
      else answer (countHostDeny (kindVote u b k).1 0 (kindStatus u b k)) r 0x0203 (kindStatus u b k) []) := by
  have hform : ¬ (b.toNat > 13 ∨ k.toNat > 2) := by omega
  rw [exec_blockGate]
  unfold execBlockGate
  dsimp only
  rw [dispatch_host h.served (by decide), hu]
  dsimp only
  rw [if_neg hform]
  unfold kindWaits kindStatus kindVote gateAwaited
  dsimp only
  split
  · rfl
  · rfl

section
variable (h : Granted 0x0203 r 0 judgeHostAwake s) (hb : b.toNat ≤ 13) (hk : k.toNat ≤ 2) (hu : heard 0x0203 r 0 s = u)
include h hb hk hu

/-- A vote that clears a request, or asks for the gate of a free block, is answered OK. -/
theorem exec_blockGate_ok (hv : (kindVote u b k).2 = true) (hh : k.toNat ≠ 0 → held u b.toNat = false)
    (hw : k.toNat ≠ 0 → blockBusy u b.toNat = false) :
    exec (.blockGate r b k) s = .next (ok 0x0203 r (kindVote u b k).1 []) := by
  have hz : k.toNat = 0 ∨ held u b.toNat = false ∧ blockBusy u b.toNat = false :=
    (Nat.eq_zero_or_pos _).imp_right fun e => ⟨hh (by omega), hw (by omega)⟩
  have hwaits : kindWaits u b k = false := by
    unfold kindWaits
    obtain e | ⟨e, e'⟩ := hz
    · rw [e]
      rfl
    · rw [e, e', Bool.and_false]
  have hstatus : kindStatus u b k = .ok := by
    unfold kindStatus
    rw [hv]
    obtain e | ⟨e, -⟩ := hz
    · rw [e]
      rfl
    · rw [e, Bool.and_false]
      rfl
  rw [exec_blockGate_served h hb hk hu, hwaits, hstatus]
  rfl

theorem exec_blockGate_heldSecure (hv : (kindVote u b k).2 = true) (h0 : k.toNat ≠ 0) (hh : held u b.toNat = true) :
    exec (.blockGate r b k) s =
      .next (answer (countHostDeny (kindVote u b k).1 0 .heldSecure) r 0x0203 .heldSecure []) := by
  have hasked : (decide (k.toNat ≠ 0) && held u b.toNat) = true := by rw [hh, decide_eq_true h0]; rfl
  have hwaits : kindWaits u b k = false := by
    unfold kindWaits
    rw [hasked, Bool.not_true, Bool.and_false, Bool.false_and]
  have hstatus : kindStatus u b k = .heldSecure := by
    unfold kindStatus
    rw [hv, hasked]
    rfl
  rw [exec_blockGate_served h hb hk hu, hwaits, hstatus]
  rfl

theorem exec_blockGate_denied (hv : (kindVote u b k).2 = false) :
    exec (.blockGate r b k) s = .next (answer (countHostDeny (kindVote u b k).1 0 .denied) r 0x0203 .denied []) := by
  have hwaits : kindWaits u b k = false := by
    unfold kindWaits
    rw [hv, Bool.not_false, Bool.not_true, Bool.and_false, Bool.false_and, Bool.false_and]
  have hstatus : kindStatus u b k = .denied := by
    unfold kindStatus
    rw [hv]
    rfl
  rw [exec_blockGate_served h hb hk hu, hwaits, hstatus]
  rfl

theorem exec_blockGate_waits (hv : (kindVote u b k).2 = true) (h0 : k.toNat ≠ 0) (hh : held u b.toNat = false)
    (hw : blockBusy u b.toNat = true) :
    exec (.blockGate r b k) s = .next (setCur (gateAwaited (kindVote u b k).1 r b.toNat) none) := by
  have hwaits : kindWaits u b k = true := by
    unfold kindWaits
    rw [hv, hh, hw, decide_eq_true h0]
    rfl
  rw [exec_blockGate_served h hb hk hu, hwaits]
  rfl

end
end

/-- Settles O17: a vote, a hold and a release are read off their operations, and a BLOCK_GATE off the vote it casts. -/
theorem gatesAndHolds : Obligations.GatesAndHolds := by
  unfold Obligations.GatesAndHolds
  refine ⟨fun s p w hr => congrArg _ (whenRunning_running hr _), fun s b clk pwr h hb => gateVote_changes h hb,
    fun s b hr hg hh hb => exec_gateEffect_free hr hg hh hb, fun s b hr hh hb => ⟨fun hg => ?_, fun hg => ?_⟩,
    fun s b hr hh hg => ?_, fun s b hr hh hg => ?_, fun s r b k h hb hk => ⟨fun h0 => ?_, ?_, ?_, ?_, ?_⟩⟩
  · rw [exec_vaultHold_free hr hh hb]
    exact congrArg _ (if_pos hg)
  · rw [exec_vaultHold_free hr hh hb]
    exact congrArg _ (if_neg hg)
  · rw [exec_vaultRelease_held hr hh, releaseBlock_other (s := begin_ s) hg]
  · rw [exec_vaultRelease_held hr hh, releaseBlock_pending (s := begin_ s) hg]
  · refine exec_blockGate_ok h hb hk rfl ?_ (fun e => absurd h0 e) fun e => absurd h0 e
    unfold kindVote
    rw [h0]
    exact gateVote_clear _ _
  · exact fun hv hh hw => exec_blockGate_ok h hb hk rfl hv (fun _ => hh) fun _ => hw
  · exact fun hv h0 hh => exec_blockGate_heldSecure h hb hk rfl hv h0 hh
  · exact fun hv => exec_blockGate_denied h hb hk rfl hv
  · exact fun hv h0 hh hw => exec_blockGate_waits h hb hk rfl hv h0 hh hw

end Sys2Proof.Machine
end

section
namespace Sys2Proof.Machine

/-! ## Host-radio credentials (R423, R424) -/

section
variable {s : State} {r : Req} {role : Nat}

/-- A granted command that answers OK without bytes. -/
theorem dispatch_do {op : Nat} {judge : State → Nat → Option Status} {body : State → Plan} (g : State → State)
    (h : Granted op r role judge s) (ho : op ≠ 0x0A01) (hp : body (heard op r role s) = Plan.do_ g) :
    dispatch op r judge body s = ok op r (g (admitted op r role s)) [] :=
  dispatch_ok (f := fun u => (g u, [])) h ho hp

theorem exec_entryChallenge_granted (h : Granted 0x0901 r role judgeCred s)
    (hn : (heard 0x0901 r role s).vault.rngFailed = false) :
    exec (.entryChallenge r) s = .next (let u := (draw (admitted 0x0901 r role s)).2
      ok 0x0901 r { u with nfc := { u.nfc with
        hostChal := some (u.time.ticks, randBytes (admitted 0x0901 r role s).fresh 32) } }
        (randBytes (admitted 0x0901 r role s).fresh 32)) := by
  rw [exec_entryChallenge]
  unfold execEntryChallenge
  refine congrArg _ (dispatch_ok (f := fun u => ({ (draw u).2 with nfc := { (draw u).2.nfc with
    hostChal := some ((draw u).2.time.ticks, randBytes u.fresh 32) } }, randBytes u.fresh 32)) h (by decide) ?_)
  exact if_neg (by rw [hn]; decide)

theorem nfcFirst_eq (s : State) :
    nfcFirst s = if vaultUp s = true ∧ s.nfc.ex = .busy ∧ s.power.lowEnergy = false then nfcCheck s true else s := by
  unfold nfcFirst
  simp only [Bool.and_eq_true, decide_eq_true_eq, Bool.not_eq_true', and_assoc]

/-- The challenge that was given to the host still runs and is the one presented (R423). -/
def chalFresh (u : State) (cred : List Byte) : Bool :=
  match u.nfc.hostChal with
  | some (t, b) => decide (u.time.ticks < t + 30 * ticksPerS) && decide (slice cred 14 32 = b)
  | none => false

/-- The credential that the bytes of an ENTRY_SUBMIT give. -/
def hostCred (u : State) (cred : List Byte) : Cred :=
  { path := 1, req := cred.getD 0 0, token := slice cred 46 184, chal := slice cred 14 32, chalOk := chalFresh u cred,
    proof := slice cred 230 64 }

/-- What an ENTRY_SUBMIT does and answers: a credential of the NFC path goes first, the challenge is used up, and the
credential is judged. -/
def entryJudged (cred : List Byte) (s : State) : State × Status × List Byte :=
  let u := nfcFirst s
  let c := hostCred u cred
  let x := credRun { u with nfc := { u.nfc with hostChal := none } } c true
  let y := receipt x.2 c x.1
  (raise y.2 .credResult, x.1, [BitVec.ofNat 8 x.1.code, 0, 0, 0] ++ y.1)

/-- A granted command whose effect gives its status: the entry before it bears that status. -/
theorem dispatch_judged {op : Nat} {judge : State → Nat → Option Status} {body : State → Plan}
    {f : State → State × Status × List Byte} (h : Granted op r role judge s) (ho : op ≠ 0x0A01)
    (hp : body (heard op r role s) = { status := .ok, bytes := [], changes := true, act := f }) :
    dispatch op r judge body s =
      let x := f (entered op r role true (f (admitted op r role s)).2.1 s)
      answer (if role = 0 then countHostDeny x.1 0 x.2.1 else x.1) r op x.2.1 x.2.2 := by
  rw [dispatch_served h.served (fun e => absurd e ho) (fun a b _ d => h.ledger a b d), hp]
  unfold planDone
  simp only [entered_true, Bool.false_eq_true, if_false, ho, or_false]
  by_cases h0 : role = 0
  · rw [h0]
  · rw [if_neg h0, if_neg h0]

theorem exec_entrySubmit_granted {head token proof : List Byte} (h : Granted 0x0902 r role judgeCred s)
    (hl : (head ++ token ++ proof).length = 294) :
    exec (.entrySubmit r head token proof) s = .next (
      let f := entryJudged (head ++ token ++ proof)
      let x := f (entered 0x0902 r role true (f (admitted 0x0902 r role s)).2.1 s)
      answer (if role = 0 then countHostDeny x.1 0 x.2.1 else x.1) r 0x0902 x.2.1 x.2.2) := by
  rw [exec_entrySubmit]
  unfold execEntrySubmit
  dsimp only
  rw [dispatch_judged (f := entryJudged (head ++ token ++ proof)) h (by decide)]
  rw [if_neg (not_not_intro hl)]
  rfl

/-- The revocation list after a CRED_REVOKE, and the count that it answers. -/
def revoked (op : BitVec 8) (id : BitVec 64) (u : State) : State × List Byte :=
  let l := if op.toNat = 0 then
      (if u.nfc.revoked.contains id.toNat then u.nfc.revoked else u.nfc.revoked ++ [id.toNat])
    else if op.toNat = 1 then u.nfc.revoked.filter (fun x => decide (x ≠ id.toNat)) else []
  ({ u with nfc := { u.nfc with revoked := l } }, leBytes 2 l.length ++ [0, 0])

theorem exec_credRevoke_granted {op : BitVec 8} {id : BitVec 64} (h : Granted 0x0903 r role judgeTrust s)
    (ho : op.toNat ≤ 2)
    (hr : op = 0 → (heard 0x0903 r role s).nfc.revoked.contains id.toNat = true ∨ (heard 0x0903 r role s).nfc.revoked.length < 256) :
    exec (.credRevoke r op id) s = .next (let u := admitted 0x0903 r role s
      let l := if op = 0 then (if u.nfc.revoked.contains id.toNat then u.nfc.revoked else u.nfc.revoked ++ [id.toNat])
        else if op = 1 then u.nfc.revoked.filter (fun x => decide (x ≠ id.toNat)) else []
      ok 0x0903 r { u with nfc := { u.nfc with revoked := l } } (leBytes 2 l.length ++ [0, 0])) := by
  have h0 : op = 0 ↔ op.toNat = 0 := BitVec.toNat_eq
  have h1 : op = 1 ↔ op.toNat = 1 := BitVec.toNat_eq
  have hform : ¬ op.toNat > 2 := by omega
  have hroom : ¬ (op.toNat = 0 ∧ ¬ (heard 0x0903 r role s).nfc.revoked.contains id.toNat ∧
      (heard 0x0903 r role s).nfc.revoked.length ≥ 256) := by
    rintro ⟨e, hc, hlen⟩
    exact (hr (h0.mpr e)).elim hc (by omega)
  simp only [h0, h1]
  rw [exec_credRevoke]
  unfold execCredRevoke
  rw [dispatch_ok (f := revoked op id) h (by decide)]
  · rfl
  · dsimp only
    rw [if_neg hform, if_neg hroom]
    rfl

theorem exec_credEpoch_granted {e : Word} (h : Granted 0x0904 r role judgeTrust s)
    (hf : rd (heard 0x0904 r role s) R_NFC_EPOCH_MIN ≠ 0xFFFFFFFF)
    (hl : (rd (heard 0x0904 r role s) R_NFC_EPOCH_MIN).toNat < e.toNat) :
    exec (.credEpoch r e) s = .next (ok 0x0904 r (let u := wr (admitted 0x0904 r role s) R_NFC_EPOCH_MIN e
      if e = 0xFFFFFFFF then monoFinal u 4 else u) []) := by
  rw [exec_credEpoch]
  unfold execCredEpoch
  rw [dispatch_do (fun u => if e = 0xFFFFFFFF then monoFinal (wr u R_NFC_EPOCH_MIN e) 4 else wr u R_NFC_EPOCH_MIN e) h
    (by decide)]
  rw [if_neg hf, if_neg (Nat.not_le.mpr hl)]

/-! ## The OPERATOR's rental commands (R73, R531) -/

theorem exec_tripOpen_granted {ref id : BitVec 64} (h : Granted 0x0905 r role (judgeOper [.approach]) s)
    (ht : (heard 0x0905 r role s).ledger.trip = none) (ha : (heard 0x0905 r role s).power.actLow = false)
    (hs : (heard 0x0905 r role s).ledger.sealed = false)
    (hl : ledgerLive (heard 0x0905 r role s) = true → ledgerRoomFor (heard 0x0905 r role s) 2 = true) :
    exec (.tripOpen r ref id) s =
      .next (ok 0x0905 r (openTrip (admitted 0x0905 r role s) id.toNat ref.toNat 2 true) []) := by
  rw [exec_tripOpen]
  unfold execTripOpen
  rw [dispatch_do (openTrip · id.toNat ref.toNat 2 true) h (by decide)]
  rw [ht, ha, hs, if_neg (by decide), if_neg (by decide), if_neg (by decide), if_neg fun e => e.2 (hl e.1)]

theorem exec_tripClose_granted {ref : BitVec 64} (h : Granted 0x0906 r role (judgeOper [.rented, .drive, .quarantine]) s)
    (ht : (heard 0x0906 r role s).ledger.trip.map Trip.tripRef = some ref.toNat)
    (hs : mode (heard 0x0906 r role s) = .rented → standstill (heard 0x0906 r role s) = true)
    (hl : mode (heard 0x0906 r role s) ≠ .drive → closeRoom (heard 0x0906 r role s) 1 = true) :
    exec (.tripClose r ref) s = .next (ok 0x0906 r (let u := admitted 0x0906 r role s
      if mode u = .drive then atStandstill u fun v => { v with closePend := true, toRented := true } else closeTrip u 2) []) := by
  rw [exec_tripClose]
  unfold execTripClose
  rw [dispatch_do (fun u => if mode u = .drive then
    atStandstill u fun v => { v with closePend := true, toRented := true } else closeTrip u 2) h (by decide)]
  rw [if_neg (not_not_intro ht), if_neg fun e => e.2 (hs e.1), if_neg fun e => e.2 (hl e.1)]

theorem exec_forceLock_granted
    (h : Granted 0x0907 r role (judgeOper [.approach, .rented, .drive, .depot, .quarantine]) s) :
    exec (.forceLock r) s = .next (ok 0x0907 r (let u := admitted 0x0907 r role s
      if mode u = .drive then
        atStandstill { u with hlb := { u.hlb with forceLock := true } } fun v => { v with lockPend := true, toRented := true }
      else engageAll u) []) := by
  rw [exec_forceLock]
  unfold execForceLock
  rw [dispatch_do (fun u => if mode u = .drive then
      atStandstill { u with hlb := { u.hlb with forceLock := true } } fun v => { v with lockPend := true, toRented := true }
    else engageAll u) h (by decide) rfl]

theorem exec_immobilise_granted
    (h : Granted 0x0908 r role (judgeOper [.approach, .rented, .drive, .depot, .quarantine]) s) :
    exec (.immobilise r) s = .next (ok 0x0908 r (immobiliseTrip (admitted 0x0908 r role s)) []) := by
  rw [exec_immobilise]
  unfold execImmobilise
  rw [dispatch_do immobiliseTrip h (by decide) rfl]

/-- The state after a TRIP_PERMIT of an open trip. -/
def permitted (t : Trip) (drive : BitVec 8) (u : State) : State :=
  if drive.toNat = 1 then
    { u with ledger := { u.ledger with trip := some { t with drive := true } }, hlb := { u.hlb with immobReq := false } }
  else if mode u = .drive then immobiliseTrip u
  else { u with ledger := { u.ledger with trip := some { t with drive := false } } }

theorem exec_tripPermit_granted {t : Trip} {drive : BitVec 8} (h : Granted 0x0909 r role (judgeOper [.rented, .drive]) s)
    (hd : drive.toNat ≤ 1) (ht : (heard 0x0909 r role s).ledger.trip = some t) :
    exec (.tripPermit r drive) s = .next (ok 0x0909 r (permitted t drive (admitted 0x0909 r role s)) []) := by
  rw [exec_tripPermit]
  unfold execTripPermit
  rw [dispatch_do (permitted t drive) h (by decide)]
  rw [if_neg (by omega), ht]
  rfl

theorem immobiliseTrip_open {t : Trip} (ht : s.ledger.trip = some t) :
    immobiliseTrip s =
      let u := { s with
        ledger := { s.ledger with trip := some { t with drive := false } }, hlb := { s.hlb with immobReq := true } }
      if mode s = .drive then atStandstill u fun v => { v with immobPend := true, toRented := true } else u := by
  unfold immobiliseTrip
  rw [ht]

end

/-- Settles O41: each command passes the dispatcher with its own checks met, and has the effect that its plan names. -/
theorem hostCredentialsAndRentals : Obligations.HostCredentialsAndRentals := by
  unfold Obligations.HostCredentialsAndRentals
  refine ⟨fun s r role h hn => exec_entryChallenge_granted h hn, fun s r role head token proof => ?_,
    fun s r role op id h ho hr => exec_credRevoke_granted h ho hr, fun s r role e h hf hl => exec_credEpoch_granted h hf hl,
    fun s r role ref id h hc => ?_, fun s r role ref h hc => ?_, fun s r role h => exec_forceLock_granted h,
    fun s r role h => exec_immobilise_granted h, fun s r role t h ht => exec_tripPermit_granted h (by decide) ht,
    fun s r role t h ht => exec_tripPermit_granted h (by decide) ht, fun s t ht hm => ?_, fun s t ht hm => ?_⟩
  · intro cred h hl
    rw [exec_entrySubmit_granted h hl]
    unfold entryJudged
    simp only [nfcFirst_eq]
    rfl
  · obtain ⟨ht, ha, hs, hl⟩ := hc
    exact exec_tripOpen_granted h ht ha hs hl
  · obtain ⟨ht, hs, hl⟩ := hc
    exact exec_tripClose_granted h ht hs hl
  · rw [immobiliseTrip_open ht]
    exact if_pos hm
  · rw [immobiliseTrip_open ht]
    exact if_neg hm

end Sys2Proof.Machine
end

section
namespace Sys2Proof.Machine

/-! ## A warm reset of the core (R109, R154, R397) -/

section
variable {s t : State}

/-- What a warm reset leaves of a state: start-up at step 0 with WARM noted, the queues of the dispatcher, the configuration
and the ledger empty, and the fuse values, the VBKP domain, the flash and the running clocks as they were. -/
structure WarmDone (s t : State) : Prop where
  phase : t.power.phase = .startup
  recorded : t.power.recorded = s.power.recorded
  boot : t.boot = { bootReset with warm := true, fusesDone := s.boot.fusesDone, vaultBad := s.boot.vaultBad }
  disp : t.disp = dispReset
  changes : t.changes = []
  ledger : t.ledger = { s.ledger with queue := [], shLtHi := 0, shWallHi := 0 }
  fuses : t.fuses = s.fuses
  odo : t.wheels.odo = s.wheels.odo
  map : t.map = s.map
  vault : t.vault = { s.vault with slotsReady := false, storeOk := false, rngFailed := false }
  ticks : t.time.ticks = s.time.ticks
  beatCnt : t.time.beatCnt = s.time.beatCnt

/-- The recorded mode is not a sag sensor's to change. -/
@[simp] theorem sagAfter_recorded (s : State) : (sagAfter s).power.recorded = s.power.recorded :=
  sagAfter_part (fun u => u.power.recorded) (fun _ => rfl) s

/-- Of the time base the domains over a warm reset move their own state alone. -/
theorem domsWarm_part {α : Type} (p : Time → α) (hp : ∀ (x : Time) d, p { x with doms := d } = p x) (s : State) :
    p (domsWarm s).time = p s.time := by
  unfold domsWarm
  refine foldl_field (fun u => p u.time) (fun u k => ?_) _ s
  dsimp only
  split
  · rw [raise_time, hp]
  · exact hp _ _

theorem domsWarm_ticks (s : State) : (domsWarm s).time.ticks = s.time.ticks := domsWarm_part Time.ticks (fun _ _ => rfl) s

theorem domsWarm_beatCnt (s : State) : (domsWarm s).time.beatCnt = s.time.beatCnt :=
  domsWarm_part Time.beatCnt (fun _ _ => rfl) s

/-- Once the state is reset, the domains, the trigger channels, the lanes and the sag sensors follow (R99, R154). -/
theorem warmCore_eq (s : State) : ∃ u, warmCore s = sagAfter (lanesFollow (trgWarm s (domsWarm u))) ∧ WarmDone s u := by
  unfold warmCore
  exact ⟨_, rfl, rfl, rfl, rfl, rfl, rfl, rfl, rfl, rfl, rfl, rfl, rfl, rfl⟩

theorem warmCore_done (s : State) : WarmDone s (warmCore s) := by
  obtain ⟨u, hu, h⟩ := warmCore_eq s
  rw [hu]
  constructor
  case phase => rw [sagAfter_phase, lanesFollow_power, trgWarm_power, domsWarm_power, h.phase]
  case recorded => rw [sagAfter_recorded, lanesFollow_power, trgWarm_power, domsWarm_power, h.recorded]
  case boot => rw [sagAfter_boot, lanesFollow_boot, trgWarm_boot, domsWarm_boot, h.boot]
  case disp => rw [sagAfter_disp, lanesFollow_disp, trgWarm_disp, domsWarm_disp, h.disp]
  case changes => rw [sagAfter_changes, lanesFollow_changes, trgWarm_changes, domsWarm_changes, h.changes]
  case ledger => rw [sagAfter_ledger, lanesFollow_ledger, trgWarm_ledger, domsWarm_ledger, h.ledger]
  case fuses => rw [sagAfter_fuses, lanesFollow_fuses, trgWarm_fuses, domsWarm_fuses, h.fuses]
  case odo => rw [sagAfter_wheels, lanesFollow_wheels, trgWarm_wheels, domsWarm_wheels, h.odo]
  case map => rw [sagAfter_map, lanesFollow_map, trgWarm_map, domsWarm_map, h.map]
  case vault => rw [sagAfter_vault, lanesFollow_vault, trgWarm_vault, domsWarm_vault, h.vault]
  case ticks => rw [sagAfter_time, lanesFollow_time, trgWarm_time, domsWarm_ticks, h.ticks]
  case beatCnt => rw [sagAfter_time, lanesFollow_time, trgWarm_time, domsWarm_beatCnt, h.beatCnt]

/-- WARM_RESET acts on a core that is awake or in start-up. -/
theorem exec_warmReset_on (h : s.power.phase = .awake ∨ s.power.phase = .startup) :
    exec .warmReset s = .next (warmCore (begin_ s)) := by
  rw [exec_warmReset]
  unfold execWarmReset
  exact congrArg _ (if_pos h)

theorem exec_warmReset_off (h1 : s.power.phase ≠ .awake) (h2 : s.power.phase ≠ .startup) :
    exec .warmReset s = .next (begin_ s) := by
  rw [exec_warmReset]
  unfold execWarmReset
  exact congrArg _ (if_neg (not_or_intro h1 h2))

end

/-- Settles O9: the reset of the core is followed through its lanes, triggers, domains and sag sensors, none of which moves
what the statement names. -/
theorem warmResetRestartsStartUp : Obligations.WarmResetRestartsStartUp := by
  unfold Obligations.WarmResetRestartsStartUp
  refine ⟨fun s h => ?_, fun s h1 h2 => exec_warmReset_off h1 h2⟩
  obtain ⟨hp, hr, hb, hd, hc, hl, hf, ho, hm, hv, ht, hn⟩ := warmCore_done (begin_ s)
  exact ⟨_, exec_warmReset_on h, hp, hb, hd, hc, hl, hf, ho, hm, hv, hr, ht, hn⟩

end Sys2Proof.Machine
end

section
namespace Sys2Proof.Machine

/-! ## The steps of start-up (R107) -/

section
variable {s : State} {k : Nat}

theorem runStep_at (h : atStep s k = true) (f : State → State) : runStep k f s = .next (f (begin_ s)) := by
  unfold runStep
  exact congrArg _ (if_pos h)

/-- After step 3 start-up stands at no step on the entry island (R108). -/
theorem phase_of_atStep (h : atStep s k = true) (hk : 3 < k) : s.power.phase = .startup := by
  unfold atStep at h
  simp only [Bool.and_eq_true, Bool.or_eq_true, decide_eq_true_eq] at h
  obtain ⟨-, hp | ⟨-, hle⟩⟩ := h
  · exact hp
  · omega

@[simp] theorem stepFailed_failed (s : State) (k : Nat) : (stepFailed s k).boot.failed = true := by
  unfold stepFailed
  split
  · assumption
  · rfl

theorem stepFailed_first (h : s.boot.failed = false) : (stepFailed s k).boot.fstep = k := by
  unfold stepFailed
  rw [if_neg (by rw [h]; decide)]

/-- A cause that arises while the core is neither awake nor asleep waits for the end of start-up (R72). -/
theorem causeArises_waits (c : QCause) (h1 : s.power.phase ≠ .awake) (h2 : s.power.phase ≠ .asleep) :
    causeArises s c = { s with boot := { s.boot with qpend := s.boot.qpend ++ [c] } } := by
  unfold causeArises
  split
  · exact absurd ‹_› h1
  · exact absurd ‹_› h2
  · rfl

theorem causeArises_startUp (c : QCause) (h : s.power.phase = .startup) :
    causeArises s c = { s with boot := { s.boot with qpend := s.boot.qpend ++ [c] } } :=
  causeArises_waits c (by rw [h]; decide) (by rw [h]; decide)

end

/-! ### Step 0: straps and PLL (R60 to R65) -/

section
variable {s : State} {straps : BitVec 4} {rb : Bool}

theorem rd_setFld_other (s : State) {a b : Nat} (lo w v : Nat) (h : b ≠ a) : rd (setFld s a lo w v) b = rd s b :=
  rd_wr_other s _ h

/-- Of the register file the spill store's rail shows in SYS_PINSTAT alone. -/
theorem rd_spillRail_other (s : State) {a : Nat} (h : a ≠ R_SYS_PINSTAT) : rd (spillRail s) a = rd s a := by
  unfold spillRail
  split
  · exact rd_wr_other _ _ h
  · split
    · exact rd_orReg_other s _ h
    · split
      · exact rd_orReg_other s _ h
      · unfold rd rdi
        rw [railNext_rf]

theorem rd_sampleStraps_strap (h : Regs.wf s) : rd (sampleStraps s straps true) R_SYS_STRAP = straps.setWidth 32 := by
  unfold sampleStraps
  dsimp only
  rw [if_pos rfl, rd_spillRail_other _ (by decide), rd_setFld_other _ _ _ _ (by decide)]
  split
  · rw [rd_orReg_other _ _ (by decide), rd_wr_same _ _ _ h]
  · exact rd_wr_same _ _ _ h

theorem exec_startupPg_at (locked : Bool) (h : atStep s 0 = true) :
    exec (.startupPg straps locked rb) s = .next (let u := if s.boot.warm then begin_ s else sampleStraps (begin_ s) straps rb
      if locked then toStep u 1 else haltAt u 0) := by
  rw [exec_startupPg]
  unfold execStartupPg
  rw [runStep_at h]
  rfl

end

/-! ### Step 1: the fuses (R114, R119) -/

section
variable {s : State} {reads : List FuseTriple} {temp : Int}

theorem tsetMany_append {α : Type} [DecidableEq α] (d : α) (t : Tab α) (l m : List (Nat × α)) :
    tsetMany d t (l ++ m) = tsetMany d (tsetMany d t l) m := List.foldl_append

theorem tsetMany_wf {α : Type} [DecidableEq α] (d : α) (l : List (Nat × α)) {t : Tab α} (h : tabWf (fun _ => d) t = true) :
    tabWf (fun _ => d) (tsetMany d t l) = true := by
  induction l generalizing t with
  | nil => exact h
  | cons x l ih => exact ih (tset_wf x.1 x.2 h)

/-- A table filled from its first key on reads back at each key. -/
theorem tget_tsetMany_range {α : Type} [DecidableEq α] (d : α) (f : Nat → α) {n k : Nat} (hk : k < n) :
    tget d (tsetMany d [] ((List.range n).map fun j => (j, f j))) k = f k := by
  induction n with
  | zero => exact absurd hk (Nat.not_lt_zero k)
  | succ n ih =>
    rw [List.range_succ, List.map_append, tsetMany_append]
    obtain rfl | hne := eq_or_ne k n
    · exact tget_tset_same _ _ (tsetMany_wf d _ rfl)
    · exact (tget_tset_other _ _ hne).trans (ih (by omega))

/-- The fuse array has been read (R114): every word's value and mark INVALID, and the temperature as REF and CUR. -/
def fusesRead (s : State) (reads : List FuseTriple) (temp : Int) : State :=
  { s with
    fuses := { s.fuses with
      words := tsetMany 0 [] ((List.range 128).map fun k => (k, (fuseResolve k (arrayRead s reads k)).1)),
      invalid := tsetMany false [] ((List.range 128).map fun k => (k, (fuseResolve k (arrayRead s reads k)).2.2)) },
    boot := { s.boot with fusesDone := true }, bgs := { s.bgs with tempCur := temp, tempRef := temp, tempLast := temp } }

theorem fuseWord_fusesRead {k : Nat} (hk : k < 128) :
    fuseWord (fusesRead s reads temp) k = (fuseResolve k (arrayRead s reads k)).1 := by
  dsimp only [fuseWord, fusesRead]
  rw [tget_tsetMany_range 0 _ hk]

theorem invalid_fusesRead {k : Nat} (hk : k < 128) :
    tget false (fusesRead s reads temp).fuses.invalid k = (fuseResolve k (arrayRead s reads k)).2.2 := by
  dsimp only [fusesRead]
  rw [tget_tsetMany_range false _ hk]

theorem exec_startupFuse_warm (h : atStep s 1 = true) (hw : s.boot.warm = true) :
    exec (.startupFuse reads temp) s = .next (toStep (begin_ s) 2) := by
  rw [exec_startupFuse]
  unfold execStartupFuse
  rw [runStep_at h]
  exact congrArg (fun u => Host.Outcome.next (toStep u 2)) (if_pos hw)

/-- The values read govern from the end of the step on; their display leaves them as they are (R119). -/
theorem fuseWord_shown (u : State) (m i : Nat → Bool) (k : Nat) :
    fuseWord (toStep (governFuses (showFuses (setFuseFlags u m i))) 2) k = fuseWord u k := rfl

theorem invalid_shown (u : State) (m i : Nat → Bool) (k : Nat) :
    tget false (toStep (governFuses (showFuses (setFuseFlags u m i))) 2).fuses.invalid k = tget false u.fuses.invalid k := rfl

/-- The values in use govern once they are taken (R119). -/
theorem governFuses_governs (u : State) (k : Nat) : let t := toStep (governFuses u) k
    t.fuses.govLc = lifecycle t ∧ t.fuses.govFwMin = fwMin t ∧ t.fuses.govDbg = dbgCoreDis t := ⟨rfl, rfl, rfl⟩

/-- A cold start reads the array, shows the flags and the values, and lets them govern (R118, R119). -/
theorem exec_startupFuse_cold (h : atStep s 1 = true) (hw : s.boot.warm = false) :
    ∃ m i, exec (.startupFuse reads temp) s =
      .next (toStep (governFuses (showFuses (setFuseFlags (fusesRead (begin_ s) reads temp) m i))) 2) := by
  rw [exec_startupFuse]
  unfold execStartupFuse
  rw [runStep_at h]
  exact ⟨_, _, congrArg (fun u => Host.Outcome.next (toStep u 2)) (if_neg fun e => Bool.false_ne_true (hw.symm.trans e))⟩

end

/-! ### Step 2: the self-tests (R110) -/

section
variable {s : State} {first second : Bool}

theorem exec_startupSelftest_good (h : atStep s 2 = true) (hv : s.boot.vaultBad = false) :
    exec (.startupSelftest first second) s = .next (
      if first then toStep (begin_ s) 3
      else if second then toStep (queueEntry (begin_ s) (.tamper 4 0)) 3 else haltAt (begin_ s) 2) := by
  rw [exec_startupSelftest]
  unfold execStartupSelftest
  rw [runStep_at h]
  exact congrArg _ (if_neg fun e => Bool.false_ne_true (hv.symm.trans e))

theorem exec_startupSelftest_vaultBad (h : atStep s 2 = true) (hv : s.boot.vaultBad = true) :
    exec (.startupSelftest first second) s =
      .next (haltAt { begin_ s with boot := { s.boot with vaultBad := false } } 2) := by
  rw [exec_startupSelftest]
  unfold execStartupSelftest
  rw [runStep_at h]
  exact congrArg _ (if_pos hv)

end

/-! ### Step 3: the root (R124, R334, R343) -/

section
variable {s : State} {rootOk checkOk storeOk : Bool}

@[simp] theorem zeroKeys_power (s : State) : (zeroKeys s).power = s.power := by
  obtain ⟨_, _, h⟩ := zeroKeys_frame (s := s)
  rw [h]

@[simp] theorem deriveSlots_power (s : State) : (deriveSlots s).power = s.power := by
  unfold deriveSlots
  exact foldl_field State.power (fun _ _ => setSlot_power _ _ _) _ s

@[simp] theorem loadFuseKey_power (s : State) : (loadFuseKey s).power = s.power := by
  unfold loadFuseKey
  split
  · rfl
  · split
    · rfl
    · rfl

/-- Start-up runs, on the external rails or on the entry island. -/
def StartingUp (s : State) : Prop := s.power.phase = .startup ∨ s.power.phase = .island

theorem causeArises_power (c : QCause) (h : StartingUp s) : (causeArises s c).power = s.power := by
  rw [causeArises_waits]
  · obtain h | h := h <;> rw [h] <;> decide
  · obtain h | h := h <;> rw [h] <;> decide

/-- What a missing root leaves before its cause arises (R124). -/
def rootLost (s : State) : State :=
  let u := stepFailed s 3
  { u with
    boot := { u.boot with rootAbsent := true },
    vault := { u.vault with rootPresent := false, slots := [], storeOk := false, slotsReady := true } }

@[simp] theorem rootLost_power (s : State) : (rootLost s).power = s.power := stepFailed_power s 3

theorem rootMissing_field (h : lifecycle (rootLost s) = .field) : rootMissing s = causeArises (rootLost s) .rootMissing := if_pos h

theorem rootMissing_other (h : lifecycle (rootLost s) ≠ .field) :
    rootMissing s = { rootLost s with
      boot := { (rootLost s).boot with qpend := (rootLost s).boot.qpend.filter fun c => decide (c ≠ .tamper) } } := if_neg h

theorem rootMissing_power (h : StartingUp s) : (rootMissing s).power = s.power := by
  by_cases hl : lifecycle (rootLost s) = .field
  · rw [rootMissing_field hl, causeArises_power _ (by rwa [StartingUp, rootLost_power]), rootLost_power]
  · rw [rootMissing_other hl]
    exact rootLost_power s

theorem tamperNow_power (src : Nat) (h : StartingUp s) : (tamperNow s src).power = s.power := by
  unfold tamperNow
  dsimp only
  generalize hu : closeAll _ 0 = u
  have hp : u.power = s.power := by
    rw [← hu, closeAll_power]
    dsimp only
    rw [zeroKeys_power, orReg_power]
    rfl
  have hs : StartingUp u := by
    unfold StartingUp
    rwa [hp]
  split
  · next e => obtain h | h := hs <;> rw [e] at h <;> cases h
  · next e => obtain h | h := hs <;> rw [e] at h <;> cases h
  · rw [causeArises_power _ hs, hp]

/-- The root check of step 3: the slots are derived, or the root is missing. -/
def rootChecked (rootOk checkOk storeOk : Bool) (s : State) : State :=
  if ! rootGood s rootOk checkOk then rootMissing s
  else if ! storeOk then rootMissing (tamperNow s 5)
  else
    let u := deriveSlots s
    { u with vault := { u.vault with slotsReady := true, storeOk := true } }

theorem rootChecked_power (h : StartingUp s) : (rootChecked rootOk checkOk storeOk s).power = s.power := by
  unfold rootChecked
  split
  · exact rootMissing_power h
  · split
    · rw [rootMissing_power, tamperNow_power 5 h]
      unfold StartingUp
      rwa [tamperNow_power 5 h]
    · exact deriveSlots_power s

/-- On the external rails start-up goes on to step 4. -/
theorem exec_startupRoot_startUp (h : atStep s 3 = true) (hp : s.power.phase = .startup) :
    exec (.startupRoot rootOk checkOk storeOk) s =
      .next (toStep (loadFuseKey (rootChecked rootOk checkOk storeOk (begin_ s))) 4) := by
  rw [exec_startupRoot]
  unfold execStartupRoot
  rw [runStep_at h]
  refine congrArg _ (if_neg ?_)
  change (loadFuseKey (rootChecked rootOk checkOk storeOk (begin_ s))).power.phase ≠ .island
  rw [loadFuseKey_power, rootChecked_power (s := begin_ s) (.inl hp), begin__power, hp]
  decide

/-- On the entry island it waits in APPROACH (R108). -/
theorem exec_startupRoot_island (h : atStep s 3 = true) (hp : s.power.phase = .island) :
    exec (.startupRoot rootOk checkOk storeOk) s = .next (
      let u := toStep (loadFuseKey (rootChecked rootOk checkOk storeOk (begin_ s))) 4
      { u with power := { u.power with cur := .approach } }) := by
  rw [exec_startupRoot]
  unfold execStartupRoot
  rw [runStep_at h]
  refine congrArg _ (if_pos ?_)
  change (loadFuseKey (rootChecked rootOk checkOk storeOk (begin_ s))).power.phase = .island
  rw [loadFuseKey_power, rootChecked_power (s := begin_ s) (.inr hp), begin__power, hp]

theorem rootChecked_good (h : rootGood s rootOk checkOk = true) :
    rootChecked rootOk checkOk storeOk s = if storeOk then
      { deriveSlots s with vault := { (deriveSlots s).vault with slotsReady := true, storeOk := true } }
      else rootMissing (tamperNow s 5) := by
  unfold rootChecked
  rw [h]
  cases storeOk
  · rfl
  · rfl

theorem rootChecked_bad (h : rootGood s rootOk checkOk = false) : rootChecked rootOk checkOk storeOk s = rootMissing s := by
  unfold rootChecked
  rw [h]
  rfl

/-- The state of a start-up whose root is missing (R124). -/
theorem rootMissing_startUp (h : s.power.phase = .startup) :
    (rootMissing s).boot.rootAbsent = true ∧ (rootMissing s).boot.failed = true ∧
      (rootMissing s).vault.rootPresent = false ∧ (rootMissing s).vault.slots = [] := by
  have hf : (rootLost s).boot.failed = true := stepFailed_failed s 3
  by_cases hl : lifecycle (rootLost s) = .field
  · rw [rootMissing_field hl, causeArises_startUp _ (by rwa [rootLost_power])]
    exact ⟨rfl, hf, rfl, rfl⟩
  · rw [rootMissing_other hl]
    exact ⟨rfl, hf, rfl, rfl⟩

end

/-- Settles O10: each step runs its own operation, whose effect is read off case by case. -/
theorem startUpStepsInOrder : Obligations.StartUpStepsInOrder := by
  unfold Obligations.StartUpStepsInOrder
  refine ⟨fun s straps rb h => ⟨exec_startupPg_at true h, exec_startupPg_at false h⟩, fun s straps h => rd_sampleStraps_strap h,
    fun s reads temp h hw => exec_startupFuse_warm h hw, fun s reads temp h hw => ?_,
    fun s second h hv => ⟨exec_startupSelftest_good h hv, exec_startupSelftest_good h hv, exec_startupSelftest_good h hv⟩,
    fun s first second h hv => exec_startupSelftest_vaultBad h hv, fun s h hg hp => ⟨?_, ?_⟩,
    fun s rootOk checkOk storeOk h hp hb => ?_, fun s rootOk checkOk storeOk h hp => ⟨_, exec_startupRoot_island h hp, rfl, rfl⟩,
    fun s hp => rootMissing_startUp hp, fun s k => ⟨haltAt_phase s k, ?_, fun hf => ?_⟩⟩
  · obtain ⟨m, i, he⟩ := exec_startupFuse_cold (reads := reads) (temp := temp) h hw
    obtain ⟨hl, hm, hd⟩ := governFuses_governs (showFuses (setFuseFlags (fusesRead (begin_ s) reads temp) m i)) 2
    refine ⟨_, he, rfl, fun k hk => ⟨?_, ?_⟩, hl, hm, hd, rfl⟩
    · rw [fuseWord_shown, fuseWord_fusesRead hk, arrayRead_begin]
    · rw [invalid_shown, invalid_fusesRead hk, arrayRead_begin]
  · rw [exec_startupRoot_startUp h hp, rootChecked_good (s := begin_ s) hg]
    rfl
  · rw [exec_startupRoot_startUp h hp, rootChecked_good (s := begin_ s) hg]
    rfl
  · rw [exec_startupRoot_startUp h hp, rootChecked_bad (s := begin_ s) hb]
  · rw [haltAt_boot, stepFailed_failed]
  · rw [haltAt_boot, stepFailed_first hf]

end Sys2Proof.Machine
end

section
namespace Sys2Proof.Machine

/-! ### Step 4: the firmware (R111) -/

section
variable {s : State} {a b : FwImage}

@[simp] theorem stepFailed_qpend (s : State) (k : Nat) : (stepFailed s k).boot.qpend = s.boot.qpend := by
  unfold stepFailed
  split
  · rfl
  · rfl

/-- The image that a firmware slot holds; `a` and `b` are those of slots that no FW_LOAD has written. -/
def slotImage (s : State) (a b : FwImage) (isB : Bool) : FwImage :=
  if isB then s.fuses.slotB.getD b else s.fuses.slotA.getD a

theorem exec_startupFw_active (h : atStep s 4 = true) (hi : imageOk s (slotImage s a b s.fuses.selB) = true) :
    exec (.startupFw a b) s = .next (runSlot (begin_ s) s.fuses.selB false (slotImage s a b s.fuses.selB)) := by
  rw [exec_startupFw]
  unfold execStartupFw
  rw [runStep_at h]
  exact congrArg _ (if_pos hi)

theorem slotImage_not (s : State) (a b : FwImage) (isB : Bool) :
    slotImage s a b (! isB) = if isB then s.fuses.slotA.getD a else s.fuses.slotB.getD b := by
  cases isB <;> rfl

theorem exec_startupFw_other (h : atStep s 4 = true) (hi : imageOk s (slotImage s a b s.fuses.selB) = false)
    (ho : imageOk s (slotImage s a b (! s.fuses.selB)) = true) :
    exec (.startupFw a b) s = .next (runSlot (begin_ s) (! s.fuses.selB) true (slotImage s a b (! s.fuses.selB))) := by
  rw [slotImage_not] at ho ⊢
  rw [exec_startupFw]
  unfold execStartupFw
  rw [runStep_at h]
  exact congrArg _ ((if_neg fun e => Bool.false_ne_true (hi.symm.trans e)).trans (if_pos ho))

theorem exec_startupFw_none (h : atStep s 4 = true) (hi : imageOk s (slotImage s a b s.fuses.selB) = false)
    (ho : imageOk s (slotImage s a b (! s.fuses.selB)) = false) :
    exec (.startupFw a b) s = .next (let u := causeArises (stepFailed (begin_ s) 4) .fwSig
      toStep { u with boot := { u.boot with recovery := true } } 6) := by
  rw [slotImage_not] at ho
  rw [exec_startupFw]
  unfold execStartupFw
  rw [runStep_at h]
  exact congrArg _ ((if_neg fun e => Bool.false_ne_true (hi.symm.trans e)).trans
    (if_neg fun e => Bool.false_ne_true (ho.symm.trans e)))

/-- Without an image the recovery service runs (R111, R528). -/
theorem exec_startupFw_recovery (h : atStep s 4 = true) (hi : imageOk s (slotImage s a b s.fuses.selB) = false)
    (ho : imageOk s (slotImage s a b (! s.fuses.selB)) = false) :
    ∃ t, exec (.startupFw a b) s = .next t ∧ t.boot.step = 6 ∧ t.boot.recovery = true ∧ t.boot.failed = true ∧
      t.boot.qpend = s.boot.qpend ++ [.fwSig] := by
  have hp : (stepFailed (begin_ s) 4).power.phase = .startup := by
    rw [stepFailed_power]
    exact phase_of_atStep h (by decide)
  refine ⟨_, exec_startupFw_none h hi ho, ?_⟩
  rw [causeArises_startUp _ hp]
  exact ⟨rfl, rfl, stepFailed_failed _ 4, congrArg (· ++ [QCause.fwSig]) (stepFailed_qpend (begin_ s) 4)⟩

end

/-! ### Step 5: the INSTALLER map (R112, R532) -/

section
variable {s : State}

theorem exec_startupLanes_valid (h : atStep s 5 = true) (hm : s.vault.mapHash = sha256 (mapBytes s.map)) :
    exec (.startupLanes true) s =
      .next (lanesFollow (toStep (startTrackers (applyMap { begin_ s with boot := { s.boot with mapValid := true } })) 6)) := by
  rw [exec_startupLanes]
  unfold execStartupLanes
  rw [runStep_at h]
  exact congrArg (fun u => Host.Outcome.next (lanesFollow (toStep (startTrackers u) 6)))
    (if_pos (by rw [begin__vault, begin__map, hm, decide_eq_true rfl]; rfl))

theorem exec_startupLanes_safe {mapOk : Bool} (h : atStep s 5 = true)
    (hm : mapOk = true → s.vault.mapHash ≠ sha256 (mapBytes s.map)) :
    exec (.startupLanes mapOk) s = .next (lanesFollow (toStep (startTrackers (applySafe (stepFailed (begin_ s) 5))) 6)) := by
  rw [exec_startupLanes]
  unfold execStartupLanes
  rw [runStep_at h]
  refine congrArg (fun u => Host.Outcome.next (lanesFollow (toStep (startTrackers u) 6))) (if_neg fun e => ?_)
  obtain ⟨ho, hd⟩ := (Bool.and_eq_true _ _).mp e
  exact hm ho (of_decide_eq_true hd)

end

/-! ### Step 6: the ledger (R42, R441 to R443, R448) -/

section
variable {s : State}

/-- The ledger time and the last good entry, which no entry and no interval moves. -/
def ledgerView (s : State) : Nat × Option Nat := (ltimeNow s, s.ledger.lastGood)

theorem ledgerView_eq {t : State} (h : t.ledger = s.ledger) : ledgerView t = ledgerView s := by
  unfold ledgerView ltimeNow
  rw [h]

theorem ledgerView_queueEntryL (s : State) (late restart : Bool) (lt : Nat) (p : Payload) :
    ledgerView (queueEntryL s late restart lt p) = ledgerView s := by
  unfold queueEntryL
  split
  · rfl
  · rfl

theorem ledgerView_useSeq (s : State) : ledgerView (useSeq s) = ledgerView s := by
  unfold useSeq
  dsimp only
  split
  · split
    · rfl
    · exact (ledgerView_eq (monoFinal_ledger _ 2)).trans rfl
  · rfl

theorem ledgerView_voidTail (s : State) : ledgerView (voidTail s) = ledgerView s := by
  unfold voidTail
  dsimp only
  split
  · rfl
  · exact ledgerView_useSeq _

theorem ledgerView_closeLost (s : State) (role : Nat) : ledgerView (closeLost s role) = ledgerView s := by
  unfold closeLost
  split
  · split
    · exact (ledgerView_eq (recordClose_ledger _ 1)).trans (ledgerView_queueEntryL _ _ _ _ _)
    · rfl
  · rfl

theorem ledgerView_closeInterval (s : State) (late : Bool) (lt reason : Nat) :
    ledgerView (closeInterval s late lt reason) = ledgerView s := by
  unfold closeInterval
  split
  · rfl
  · exact ledgerView_queueEntryL _ _ _ _ _

theorem ledgerView_boundaryClose (s : State) (late : Bool) : ledgerView (boundaryClose s late) = ledgerView s := by
  unfold boundaryClose
  split
  · rfl
  · split
    · exact ledgerView_closeInterval _ _ _ _
    · rfl

theorem ledgerView_boundaryCloses (late : Bool) (n : Nat) (s : State) :
    ledgerView (boundaryCloses late n s) = ledgerView s := by
  induction n generalizing s with
  | zero => rfl
  | succ n ih =>
    unfold boundaryCloses
    split
    · split
      · rw [ih, ledgerView_boundaryClose]
      · rfl
    · rfl

/-- The lost sessions of the three roles are closed. -/
def lostClosed (s : State) : State := closeLost (closeLost (closeLost s 1) 2) 3

theorem ledgerView_lostClosed (s : State) : ledgerView (lostClosed s) = ledgerView s := by
  unfold lostClosed
  rw [ledgerView_closeLost, ledgerView_closeLost, ledgerView_closeLost]

/-- Lost sessions are closed, and the intervals due at a ledger time. -/
def ledgerClosed (lt : Nat) (s : State) : State := boundaryCloses true (lt + 1) (lostClosed s)

theorem ledgerClosed_now (s : State) :
    boundaryCloses true (ltimeNow (lostClosed s) + 1) (lostClosed s) = ledgerClosed (ltimeNow s) s := by
  unfold ledgerClosed
  rw [show ltimeNow (lostClosed s) = ltimeNow s from congrArg Prod.fst (ledgerView_lostClosed s)]

theorem ledgerClosed_lastGood (lt : Nat) (s : State) : (ledgerClosed lt s).ledger.lastGood = s.ledger.lastGood := by
  unfold ledgerClosed
  exact congrArg Prod.snd ((ledgerView_boundaryCloses _ _ _).trans (ledgerView_lostClosed s))

/-- An interrupted position is made VOID. -/
def tailVoided (td : Bool) (s : State) : State := if td then voidTail s else s

theorem ledgerView_tailVoided (td : Bool) (s : State) : ledgerView (tailVoided td s) = ledgerView s := by
  cases td
  · rfl
  · exact ledgerView_voidTail s

theorem exec_startupLedger_dead {cb : Option Nat} {td : Bool} (h : atStep s 6 = true) (hl : ledgerLive s = false) :
    exec (.startupLedger cb td) s = .next (toStep (begin_ s) 7) := by
  rw [exec_startupLedger]
  unfold execStartupLedger
  rw [runStep_at h]
  exact congrArg (fun u => Host.Outcome.next (toStep u 7)) (if_pos (by rw [ledgerLive_begin, hl]; rfl))

/-- The chain's break, where one is found, is noted; the entries are committed unless the chain is broken. -/
theorem exec_startupLedger_live {cb : Option Nat} {td : Bool} (h : atStep s 6 = true) (hl : ledgerLive s = true) :
    exec (.startupLedger cb td) s = .next (toStep (
      let w := cb.elim (begin_ s) fun k =>
        ledgerFault (stepFailed (begin_ s) 6) (max s.ledger.oldest (s.ledger.nextSeq - 64) + k - 1)
      let v := tailVoided td w
      let u := ledgerClosed (ltimeNow v) v
      if u.ledger.lastGood.isSome then u else commitAll u) 7) := by
  rw [exec_startupLedger]
  unfold execStartupLedger
  rw [runStep_at h]
  simp only [← ledgerClosed_now]
  refine congrArg (fun u => Host.Outcome.next (toStep u 7)) ((if_neg (by rw [ledgerLive_begin, hl]; decide)).trans ?_)
  cases cb
  · rfl
  · rfl

theorem exec_startupLedger_whole {td : Bool} (h : atStep s 6 = true) (hl : ledgerLive s = true)
    (hg : s.ledger.lastGood = none) :
    exec (.startupLedger none td) s =
      .next (toStep (commitAll (ledgerClosed (ltimeNow s) (tailVoided td (begin_ s)))) 7) := by
  obtain ⟨hn, hv⟩ := Prod.mk.inj (ledgerView_tailVoided td (begin_ s))
  rw [exec_startupLedger_live h hl]
  dsimp only [Option.elim_none]
  rw [ledgerClosed_lastGood, hv, hn, begin__ledger, hg, ltimeNow_begin]
  rfl

/-- The chain is broken after an entry while start-up runs (R443). -/
theorem ledgerFault_startUp {good : Nat} (h : s.power.phase = .startup) :
    ledgerFault s good = { s with
      ledger := { s.ledger with lastGood := some good }, boot := { s.boot with qpend := s.boot.qpend ++ [.ledger] } } :=
  causeArises_startUp .ledger h

theorem exec_startupLedger_broken {k : Nat} (h : atStep s 6 = true) (hl : ledgerLive s = true) :
    exec (.startupLedger (some k) false) s = .next (toStep (
      let v := stepFailed (begin_ s) 6
      ledgerClosed (ltimeNow s) { v with
        ledger := { s.ledger with lastGood := some (max s.ledger.oldest (s.ledger.nextSeq - 64) + k - 1) },
        boot := { v.boot with qpend := v.boot.qpend ++ [.ledger] } }) 7) := by
  have hp : (stepFailed (begin_ s) 6).power.phase = .startup := by
    rw [stepFailed_power]
    exact phase_of_atStep h (by decide)
  rw [exec_startupLedger_live h hl]
  dsimp only [Option.elim_some]
  rw [ledgerFault_startUp hp, ledgerClosed_lastGood, stepFailed_ledger]
  rfl

end

/-- Settles O11: each step runs its own operation, whose effect is read off case by case; what the ledger's step closes
moves neither the ledger time nor the last good entry. -/
theorem startUpFinishes : Obligations.StartUpFinishes := by
  unfold Obligations.StartUpFinishes
  refine ⟨fun s a b h => ⟨?_, ?_, ?_⟩, fun s h => ⟨?_, ?_, ?_⟩, fun s cb td h hl => exec_startupLedger_dead h hl,
    fun s td h hl hg => exec_startupLedger_whole h hl hg, fun s k _ h hl => exec_startupLedger_broken h hl, fun s h => ?_⟩
  · exact fun hi => exec_startupFw_active h hi
  · intro hi ho
    rw [← slotImage_not] at ho ⊢
    exact exec_startupFw_other h hi ho
  · intro hi ho
    rw [← slotImage_not] at ho
    obtain ⟨t, ht, hs, hr, hf, hq⟩ := exec_startupFw_recovery h hi ho
    exact ⟨t, ht, hs, hr, hf, fun _ => hq⟩
  · exact fun hm => exec_startupLanes_valid h hm
  · exact fun hm => exec_startupLanes_safe h fun _ => hm
  · exact exec_startupLanes_safe h fun e => absurd e Bool.false_ne_true
  · rw [exec_startupMode]
    unfold execStartupMode
    rw [runStep_at h]
    rfl

end Sys2Proof.Machine
end

section
namespace Sys2Proof.Machine

/-! ## The windows of the beat (R136, R232, R567) -/

section
variable {s : State}

theorem exec_fwWindowStart_running (hr : running s = true) :
    exec .fwWindowStart s = .next (rewriteNow (if s.time.ageOwed then
      { begin_ s with time := { s.time with ageOwed := false } } else [0, 1, 2, 3].foldl ageStep (begin_ s))) := by
  rw [exec_fwWindowStart]
  unfold execFwWindowStart
  rw [whenRunning_running hr]
  rfl

theorem exec_agePeriodStart_running (hr : running s = true) :
    exec .agePeriodStart s = .next ((List.range 4).foldl agePeriod (begin_ s)) := by
  rw [exec_agePeriodStart]
  unfold execAgePeriodStart
  rw [whenRunning_running hr]

/-- The scrub of a BGS window with the errors that it found treated (R568). -/
def scrubbed (w : BgsWork) (u : State) : State :=
  w.errors.foldl (fun v e => if running v then scrubErr v e else v) (scrubOn u w.scrub)

/-- The calibration, wear and chain shares of a BGS window (R567). -/
def sharesRun (w : BgsWork) (u : State) : State :=
  let a := match w.lane with
    | some ok => laneCal (calRounds u) ok
    | none => calRounds u
  let b := match w.adc with
    | some ok => adcCal a ok
    | none => a
  let c := w.wear.foldl wearStep b
  match w.chain with
  | some brk => chainStep c brk
  | none => c

theorem exec_bgsWindowStart_running (w : BgsWork) (hr : running s = true) :
    exec (.bgsWindowStart w) s = .next (whenRunning (scrubbed w (begin_ s)) (sharesRun w)) := by
  rw [exec_bgsWindowStart]
  unfold execBgsWindowStart
  rw [whenRunning_running hr]
  rfl

theorem exec_telemRecord_due {x : TelRec} (hr : running s = true) (hd : s.bgs.telDue = some x) :
    exec (.telemRecord) s = .next (raise (statInc { begin_ s with bgs := { s.bgs with
      telDue := none, telRecords := (x :: s.bgs.telRecords).take 8 } } R_BGS_TELEM) .telemReady) := by
  rw [exec_telemRecord]
  unfold execTelemRecord
  rw [whenRunning_running hr, begin__bgs, hd]

/-! ### The re-check of the fuses (R118) -/

variable {reads : List FuseTriple} {t : Int}

theorem exec_fuseRecheck_near (hr : running s = true) (hf : s.bgs.fuseRun = false)
    (ht : (t - s.bgs.tempLast).natAbs < 300) :
    exec (.fuseRecheck reads t) s = .next { begin_ s with bgs := { s.bgs with tempCur := t } } := by
  rw [exec_fuseRecheck]
  unfold execFuseRecheck
  rw [whenRunning_running hr]
  exact congrArg _ (if_pos ⟨fun e => Bool.false_ne_true (hf.symm.trans e), ht⟩)

/-- The array has been read again (R118): SEC words take their tightened values, and the temperature is REF and CUR. -/
def rereadFuses (s : State) (reads : List FuseTriple) (t : Int) : State :=
  { s with
    fuses := { s.fuses with words := tsetMany 0 s.fuses.words ((List.range 4).map fun k =>
      (k, (fuseCompare s k (fuseResolve k (arrayRead s reads k)).1 (fuseResolve k (arrayRead s reads k)).2.2).1)) },
    bgs := { s.bgs with tempCur := t, tempRef := t, tempLast := t, fuseRun := false } }

/-- The words that drift are flagged, those of class SEC entered in the ledger, and FUSE_DRIFT raised once (R118). -/
def driftNoted (drift : List Nat) (s : State) : State :=
  let u := drift.foldl (fun s k => orReg s (R_SYS_FUSE_DRIFT + 4 * (k / 32)) 0 (fieldMask (k % 32) 1)) s
  let v := drift.foldl (fun s k => if k < 4 then queueEntry s (.tamper 1 k) else s) u
  if drift.isEmpty then v else raise v .fuseDrift

theorem exec_fuseRecheck_far (hr : running s = true) (h : s.bgs.fuseRun = true ∨ 300 ≤ (t - s.bgs.tempLast).natAbs) :
    ∃ m i drift, exec (.fuseRecheck reads t) s =
      .next (driftNoted drift (showFuses (setFuseFlags (rereadFuses (begin_ s) reads t) m i))) := by
  rw [exec_fuseRecheck]
  unfold execFuseRecheck
  rw [whenRunning_running hr]
  refine ⟨_, _, _, congrArg _ (if_neg ?_)⟩
  rintro ⟨hf, ht⟩
  exact h.elim hf (Nat.not_le.mpr ht)

/-- A part of the state that no register, no entry and no event is in is left by what notes a drift. -/
theorem driftNoted_part {α : Type} (p : State → α) (ho : ∀ u a i m, p (orReg u a i m) = p u)
    (hq : ∀ u x, p (queueEntry u x) = p u) (hr : ∀ u e, p (raise u e) = p u) (drift : List Nat) (s : State) :
    p (driftNoted drift s) = p s := by
  have hf := foldl_field p (fun u k => ho u (R_SYS_FUSE_DRIFT + 4 * (k / 32)) 0 (fieldMask (k % 32) 1)) drift s
  have hv := foldl_field p (F := fun u k => if k < 4 then queueEntry u (.tamper 1 k) else u)
    (fun u k => (apply_ite p _ _ _).trans (by rw [hq, ite_self])) drift
  unfold driftNoted
  dsimp only
  split
  · rw [hv, hf]
  · rw [hr, hv, hf]

/-- Of the background services an event source marks only the firmware's pending set (R578). -/
theorem raise_services {α : Type} (p : Bgs → α) (hp : ∀ (b : Bgs) w, p { b with fwPend := w } = p b) (s : State) (e : Ev) :
    p (raise s e).bgs = p s.bgs := by
  unfold raise raiseN
  split
  · rfl
  · dsimp only
    split
    · exact hp _ _
    · exact hp _ _

theorem driftNoted_services {α : Type} (p : Bgs → α) (hp : ∀ (b : Bgs) w, p { b with fwPend := w } = p b)
    (drift : List Nat) (s : State) : p (driftNoted drift s).bgs = p s.bgs :=
  driftNoted_part (fun u => p u.bgs) (fun _ _ _ _ => rfl) (fun u x => congrArg p (queueEntry_bgs u x)) (raise_services p hp) drift s

theorem driftNoted_fuses (drift : List Nat) (s : State) : (driftNoted drift s).fuses = s.fuses :=
  driftNoted_part State.fuses (fun _ _ _ _ => rfl) queueEntry_fuses raise_fuses drift s

/-- A SEC word keeps every bit that it has (R118). -/
theorem fuseCompare_sec {k : Nat} (hk : k < 4) (v : Word) (inv : Bool) : (fuseCompare s k v inv).1 = fuseWord s k ||| v := by
  unfold fuseCompare
  exact congrArg Prod.fst (if_pos (if_pos hk))

end

/-- Settles O19: each window runs its shares while the device runs, and what notes a drift moves neither the fuse values nor
the temperatures. -/
theorem windowsOfTheBeat : Obligations.WindowsOfTheBeat := by
  unfold Obligations.WindowsOfTheBeat
  refine ⟨fun s hr ha => ?_, fun s hr ha => ?_, fun s hr => exec_agePeriodStart_running hr,
    fun s w hr => ⟨fun hu => ?_, fun hu => ?_⟩, fun s x hr hd => exec_telemRecord_due hr hd,
    fun s reads t hr hf ht => exec_fuseRecheck_near hr hf ht,
    fun s reads t hr h => ?_, fun s k v inv hk => fuseCompare_sec hk v inv⟩
  · rw [exec_fwWindowStart_running hr, ha]
    rfl
  · rw [exec_fwWindowStart_running hr, ha]
    rfl
  · rw [exec_bgsWindowStart_running w hr]
    exact congrArg _ (if_neg fun e => Bool.false_ne_true (hu.symm.trans e))
  · rw [exec_bgsWindowStart_running w hr]
    exact congrArg _ (if_pos hu)
  · obtain ⟨m, i, drift, he⟩ := exec_fuseRecheck_far (reads := reads) hr h
    refine ⟨_, he, ?_, ?_, ?_, ?_, ?_⟩
    · rw [driftNoted_fuses]
      rfl
    · exact driftNoted_services Bgs.tempCur (fun _ _ => rfl) _ _
    · exact driftNoted_services Bgs.tempRef (fun _ _ => rfl) _ _
    · exact driftNoted_services Bgs.tempLast (fun _ _ => rfl) _ _
    · exact driftNoted_services Bgs.fuseRun (fun _ _ => rfl) _ _

end Sys2Proof.Machine
end

section
namespace Sys2Proof.Machine

/-! ## Fuse words as commands burn them (R121, R122, R126) -/

section
variable {s : State} {n : Nat}

theorem bitsOf_or (v w : Word) (lo len : Nat) : bitsOf (v ||| w) lo len = bitsOf v lo len ||| bitsOf w lo len := by
  unfold bitsOf
  rw [BitVec.toNat_or, Nat.or_div_two_pow, Nat.or_mod_two_pow]

/-- A word with a bit to set reads back with it, whatever the table of fuse words held. -/
theorem fuseWord_burn {k : Nat} {w : Word} (h : fuseWord s k ||| w ≠ 0) : fuseWord (burn s k w) k = fuseWord s k ||| w := by
  have hf : fuseWord (burn s k w) k = tget 0 (tset 0 s.fuses.words k (fuseWord s k ||| w)) k := rfl
  rw [hf, tget_tset_ne k _ h]

theorem or_ne_zero_right {v w : Word} (h : w ≠ 0) : v ||| w ≠ 0 := fun e => h (BitVec.or_eq_zero_iff.mp e).2

/-- Bits below the highest of a thermometer of `n` bits vanish in it. -/
theorem or_thermometer {v : Nat} (h : v < 2 ^ n) : v ||| (2 ^ n - 1) = 2 ^ n - 1 := by
  refine Nat.eq_of_testBit_eq fun i => ?_
  rw [Nat.testBit_or, Nat.testBit_two_pow_sub_one]
  by_cases hi : i < n
  · rw [decide_eq_true hi, Bool.or_true]
  · rw [Nat.testBit_lt_two_pow (h.trans_le (Nat.pow_le_pow_right (by decide) (Nat.not_lt.mp hi))), Bool.false_or]

theorem topBit_le_iff {w : Word} : topBit w ≤ n ↔ w.toNat < 2 ^ n := by
  unfold topBit
  split
  · next h => simp [h]
  · next h => rw [Nat.succ_le_iff, Nat.log2_lt h]

/-- FW_MIN of a thermometer burnt over a lower one (Table 4.4). -/
theorem topBit_or_thermometer {w : Word} (h1 : 1 ≤ n) (h32 : n ≤ 32) (hw : topBit w ≤ n) :
    topBit (w ||| BitVec.ofNat 32 (2 ^ n - 1)) = n := by
  obtain ⟨m, rfl⟩ := Nat.exists_eq_add_of_le' h1
  have hpos : 1 ≤ 2 ^ m := Nat.one_le_two_pow
  have htop : 2 ^ (m + 1) ≤ 2 ^ 32 := Nat.pow_le_pow_right (by decide) h32
  have hv : (w ||| BitVec.ofNat 32 (2 ^ (m + 1) - 1)).toNat = 2 ^ (m + 1) - 1 := by
    rw [BitVec.toNat_or, BitVec.toNat_ofNat, Nat.mod_eq_of_lt (by omega), or_thermometer (topBit_le_iff.mp hw)]
  have hne : 2 ^ (m + 1) - 1 ≠ 0 := by omega
  unfold topBit
  rw [hv, if_neg hne, (Nat.log2_eq_iff (k := m) hne).mpr (by omega)]

theorem fwMin_burn (h1 : 1 ≤ n) (h32 : n ≤ 32) (hw : fwMin s ≤ n) : fwMin (burn s 3 (BitVec.ofNat 32 (2 ^ n - 1))) = n := by
  have ht := topBit_or_thermometer h1 h32 hw
  have hne : fuseWord s 3 ||| BitVec.ofNat 32 (2 ^ n - 1) ≠ 0 := by
    intro e
    rw [e] at ht
    exact absurd ht (by rw [show topBit 0 = 0 from rfl]; omega)
  unfold fwMin
  rw [fuseWord_burn hne, ht]

/-- The lifecycle in use follows the burnt word at once (R119). -/
theorem lifecycle_burn (w : Word) (h : w ≠ 0) : lifecycle (burn s 0 w) = lifecycleOf (fuseWord s 0 ||| w) := by
  unfold lifecycle
  rw [fuseWord_burn (or_ne_zero_right h)]

theorem lifecycleOf_return {w : Word} (h : bitsOf w 16 8 ≠ 0) : lifecycleOf w = .return_ := if_pos h

theorem lifecycleOf_field {w : Word} (h2 : bitsOf w 16 8 = 0) (h1 : bitsOf w 8 8 ≠ 0) : lifecycleOf w = .field :=
  (if_neg (not_not_intro h2)).trans (if_pos h1)

theorem lifecycle_burn_field (h : (lifecycle s).code ≤ 1) : lifecycle (burn s 0 (lifecycleBits 2)) = .field := by
  have h2 : bitsOf (fuseWord s 0) 16 8 = 0 := by
    by_contra hne
    unfold lifecycle at h
    rw [lifecycleOf_return hne] at h
    exact absurd h (by decide)
  rw [lifecycle_burn _ (by decide)]
  refine lifecycleOf_field ?_ ?_
  · rw [bitsOf_or, h2]
    rfl
  · rw [bitsOf_or]
    exact fun e => absurd (Nat.or_eq_zero_iff.mp e).2 (by decide)

theorem lifecycle_burn_return : lifecycle (burn s 0 (lifecycleBits 3)) = .return_ := by
  rw [lifecycle_burn _ (by decide)]
  refine lifecycleOf_return ?_
  rw [bitsOf_or]
  exact fun e => absurd (Nat.or_eq_zero_iff.mp e).2 (by decide)

end

/-! ## Commands that the dispatcher serves -/

section
variable {op : Nat} {r : Req} {role : Nat} {judge : State → Nat → Option Status} {body : State → Plan} {s : State}

theorem countHostDeny_of_ne {st : Status} (u : State) (role : Nat) (h : st ≠ .denied) : countHostDeny u role st = u :=
  if_neg fun e => h e.2

/-- A served command whose effect answers a status other than DENIED: the entry before it bears that status (R39). -/
theorem dispatch_answers {st : Status} {b : List Byte} {changes : Bool} {g : State → State} {st0 : Status} {b0 : List Byte}
    (h : Served op r role judge s) (ho : op ≠ 0x0A01) (hst : st ≠ .denied)
    (hl : role ≠ 0 → changes = true → ledgerLive (heard op r role s) = true → ledgerRoom (heard op r role s) = true)
    (hp : body (heard op r role s) = { status := st0, bytes := b0, changes := changes, act := fun u => (g u, st, b) }) :
    dispatch op r judge body s = answer (g (entered op r role changes st s)) r op st b := by
  rw [dispatch_served h (fun e => absurd e ho) (fun h0 _ hc hv => hl h0 (by rw [hp] at hc; exact hc) hv), hp]
  simp only [planDone, Bool.false_eq_true, if_false, countHostDeny_of_ne _ _ hst, ite_self]

/-- The recovery service serves its three commands in the HOST context, whatever the mode (R528). -/
theorem dispatch_recoveryServed {f : State → State × List Byte} (h : Taken op r s) (hr : s.boot.recovery = true)
    (ho : op = 0x0101 ∨ op = 0x0120 ∨ op = 0x0122) (h0 : r.session = 0) (hc : heldCtx r s = some Ctx.host)
    (hj : judge (taken r s) 0 = none) (hp : body (taken r s) = Plan.doBytes f) :
    dispatch op r judge body s = ok op r (f (taken r s)).1 (f (taken r s)).2 := by
  have hb : ((op = 0x0101 || op = 0x0120 || op = 0x0122) && decide (r.session = 0)) = true := by
    simpa [or_assoc, h0] using ho
  unfold dispatch
  dsimp only
  rw [h.passes, takeRequest_served h.turn]
  dsimp only
  rw [taken_boot, hr, hb, taken_cur, hc]
  change runCommand op r 0 judge body (taken r s) = _
  unfold runCommand
  rw [hj]
  dsimp only
  rw [if_neg fun e => e.1 rfl, hp]
  simp only [Plan.doBytes, Bool.false_eq_true, if_false, countHostDeny_of_ne _ _ (show Status.ok ≠ .denied by decide), ok]

end

/-! ### Firmware (R126, R528 to R530) -/

section
variable {s u : State} {r : Req} {role : Nat} {buf : BitVec 64} {len : Word} {img : FwImage}

/-- What an FW_LOAD finds where it takes the image: a permitted buffer of at most a slot's size, a host memory to reach,
and a signed image of a security version from FW_MIN to 32 (R529). -/
structure FwTaken (buf : BitVec 64) (len : Word) (img : FwImage) (u : State) : Prop where
  permitted : judgeD u false buf.toNat len.toNat = none
  fits : len.toNat ≤ 1048576
  reached : dmaUp u = true
  signed : imageSigned u img = true
  least : u.fuses.govFwMin ≤ img.svn
  most : img.svn ≤ 32

/-- The slot takes the image and is selected. -/
def fwLoaded (b : Bool) (img : FwImage) (u : State) : State × List Byte :=
  let v := fillSlot u b img
  ({ v with fuses := { v.fuses with selB := b } }, leBytes 1 (b2n b) ++ leBytes 1 img.svn ++ leBytes 2 0)

theorem execFwLoad_plan (r : Req) (buf : BitVec 64) (len : Word) (img : FwImage) : ∃ body : State → Plan,
    (∀ s, exec (.fwLoad r buf len img true) s = .next (dispatch 0x0120 r judgeRecovery body s)) ∧
    ∀ u, FwTaken buf len img u → body u = Plan.doBytes (fwLoaded (! u.boot.recovery && ! u.boot.slotB) img) := by
  refine ⟨_, fun s => rfl, fun u h => ?_⟩
  obtain ⟨hj, hl, hd, hs, hmin, hmax⟩ := h
  dsimp only
  rw [hj]
  dsimp only
  rw [if_neg (Nat.not_lt.mpr hl), hd, hs, if_neg (by decide), if_neg (by decide), if_neg (by decide),
    if_neg (Nat.not_lt.mpr hmax), if_neg (Nat.not_lt.mpr hmin)]
  rfl

theorem exec_fwLoad_granted (h : Granted 0x0120 r role judgeRecovery s) (ht : FwTaken buf len img (heard 0x0120 r role s)) :
    exec (.fwLoad r buf len img true) s = .next (
      let x := fwLoaded (! (heard 0x0120 r role s).boot.recovery && ! (heard 0x0120 r role s).boot.slotB) img
        (admitted 0x0120 r role s)
      ok 0x0120 r x.1 x.2) := by
  obtain ⟨body, he, hb⟩ := execFwLoad_plan r buf len img
  rw [he, dispatch_ok h (by decide) (hb _ ht)]

theorem exec_fwLoad_recovery (h : Taken 0x0120 r s) (hr : s.boot.recovery = true) (h0 : r.session = 0)
    (hw : waiting s r.chan = []) (ht : FwTaken buf len img (taken r s)) :
    exec (.fwLoad r buf len img true) s =
      .next (ok 0x0120 r (fwLoaded false img (taken r s)).1 (fwLoaded false img (taken r s)).2) := by
  have hboot : (taken r s).boot.recovery = true := by rw [taken_boot, hr]
  have hc : heldCtx r s = some Ctx.host := by
    unfold heldCtx
    rw [hw]
    exact if_pos h0
  obtain ⟨body, he, hb⟩ := execFwLoad_plan r buf len img
  have hp := hb _ ht
  rw [hboot] at hp
  rw [he, dispatch_recoveryServed h hr (by decide) h0 hc (if_pos hboot) hp]
  rfl

/-- FW_MIN rises to the running image's security version (R126, R530). -/
def fwMinRaised (u : State) : State :=
  if u.boot.svn ≤ fwMin u then u
  else
    let b := burn u 3 (BitVec.ofNat 32 (2 ^ u.boot.svn - 1))
    if u.boot.svn = 32 then monoFinal b 3 else b

theorem exec_fwCommit_raises (h : Granted 0x0121 r role judgeMaker s) (hm : (heard 0x0121 r role s).fuses.govFwMin ≠ 32) :
    exec (.fwCommit r) s = .next (let w := fwMinRaised (selectRunning (admitted 0x0121 r role s))
      ok 0x0121 r w (leBytes 1 (fwMin w) ++ leBytes 3 0)) := by
  rw [exec_fwCommit]
  unfold execFwCommit
  rw [dispatch_ok (f := fun u => (fwMinRaised (selectRunning u), leBytes 1 (fwMin (fwMinRaised (selectRunning u))) ++ leBytes 3 0)) h
    (by decide) (if_neg hm)]

theorem exec_fwCommit_final (h : Granted 0x0121 r role judgeMaker s) (hm : (heard 0x0121 r role s).fuses.govFwMin = 32) :
    exec (.fwCommit r) s =
      .next (answer (selectRunning (entered 0x0121 r role true .final s)) r 0x0121 .final []) := by
  rw [exec_fwCommit]
  unfold execFwCommit
  rw [dispatch_answers h.served (by decide) (by decide) (fun h0 _ hv => h.ledger h0 (by decide) hv) (if_pos hm)]

end

/-! ### Resets (R534) -/

section
variable {s : State} {r : Req} {role : Nat}

/-- A reset is ordered on the channel of its command. -/
def resetOrdered (c : Chan) (u : State) : State := { u with boot := { u.boot with resetOrdered := some c } }

theorem exec_sysReset_granted (h : Granted 0x0122 r role judgeRecovery s) :
    exec (.sysReset r 0) s = .next (let w := ok 0x0122 r (resetOrdered r.chan (admitted 0x0122 r role s)) []
      if r.chan = .ring then { warmCore w with out := w.out } else w) := by
  have hb : ∀ u, (ok 0x0122 r (resetOrdered r.chan u) []).boot.resetOrdered = some r.chan := fun u =>
    congrArg Boot.resetOrdered (answer_boot _ _ _ _ _)
  rw [exec_sysReset]
  unfold execSysReset
  rw [dispatch_do (resetOrdered r.chan) h (by decide) (if_neg (by decide))]
  dsimp only
  rw [hb]
  simp only [Option.some.injEq]

theorem exec_sysResetDeadline_ordered (hr : running s = true) (ho : s.boot.resetOrdered = some .spi) :
    exec .sysResetDeadline s = .next (warmCore (begin_ s)) := by
  rw [exec_sysResetDeadline]
  unfold execSysResetDeadline
  rw [whenRunning_running hr]
  exact congrArg _ (if_pos ho)

end

/-! ### Lifecycle (R121, R122) -/

section
variable {s : State} {r : Req} {role : Nat} {t : BitVec 8}

theorem exec_lifecycleAdvance_burns (h : Granted 0x0130 r role judgeMaker s) (ht : t.toNat ≤ 3)
    (hn : (heard 0x0130 r role s).fuses.govLc.code ≠ 3)
    (hnext : t.toNat = (heard 0x0130 r role s).fuses.govLc.code + 1 ∨ t.toNat = 3)
    (hk : t.toNat = 2 → (heard 0x0130 r role s).vault.rootPresent = true ∧ roleKeyOk (heard 0x0130 r role s) 1 = true ∧
      roleKeyOk (heard 0x0130 r role s) 2 = true ∧ roleKeyOk (heard 0x0130 r role s) 3 = true) :
    exec (.lifecycleAdvance r t) s = .next (let v := admitted 0x0130 r role s
      ok 0x0130 r (burn (if t.toNat = 2 then commitMakerKey v else v) 0 (lifecycleBits t.toNat)) []) := by
  rw [exec_lifecycleAdvance]
  unfold execLifecycleAdvance
  rw [dispatch_do (fun v => burn (if t.toNat = 2 then commitMakerKey v else v) 0 (lifecycleBits t.toNat)) h (by decide)]
  dsimp only
  rw [if_neg fun e => hn e.2, if_neg (by omega), if_neg]
  rintro ⟨e2, hbad⟩
  obtain ⟨h0, h1, h2, h3⟩ := hk e2
  rw [h0, h1, h2, h3] at hbad
  exact absurd hbad (by decide)

theorem exec_lifecycleAdvance_stays (h : Granted 0x0130 r role judgeMaker s)
    (hn : (heard 0x0130 r role s).fuses.govLc.code = 3) (ht : t.toNat = 3) :
    exec (.lifecycleAdvance r t) s = .next (ok 0x0130 r (audited 0x0130 r role s) []) := by
  rw [exec_lifecycleAdvance]
  unfold execLifecycleAdvance
  exact congrArg _ (dispatch_read h.served (by decide) (if_pos ⟨ht, hn⟩))

end

/-! ### The stored map, telemetry and loopback (R532, R574, R586) -/

section
variable {s : State} {r : Req} {role : Nat} {buf : BitVec 64} {len : Word}

theorem exec_mapRead_granted (h : Granted 0x0141 r role judgeHostAwake s)
    (hj : judgeD (heard 0x0141 r role s) true buf.toNat len.toNat = none)
    (hl : (storedMap (heard 0x0141 r role s)).length ≤ len.toNat) (hd : dmaUp (heard 0x0141 r role s) = true) :
    exec (.mapRead r buf len) s = .next (let b := storedMap (heard 0x0141 r role s)
      ok 0x0141 r (dmaWrite (admitted 0x0141 r role s) buf.toNat b).2 (leBytes 4 b.length)) := by
  rw [exec_mapRead]
  unfold execMapRead
  refine congrArg _ (dispatch_ok (f := fun u => ((dmaWrite u buf.toNat (storedMap (heard 0x0141 r role s))).2,
    leBytes 4 (storedMap (heard 0x0141 r role s)).length)) h (by decide) ?_)
  rw [hj]
  dsimp only
  rw [if_neg (Nat.not_lt.mpr hl), hd]
  rfl

/-- The map is stored and committed, and its application waits for the beat boundary; where no record
failed, the answer's index and opcode of a failed record are free (R532). -/
def mapStored (m : List Cfg) (u : State) : State × List Byte :=
  let w := commitChange (setMap u m)
  (schedule { w with fresh := w.fresh + 1 } [] .map, leBytes 6 (Config.freeNat w.fresh) ++ leBytes 2 0)

theorem mapPlan_stores {u : State} {m : List Cfg} {n : Nat} (hn : n = mapLen m) (hc : mapCheck m 0 u = none)
    (he : epochFinal u = false) : mapPlan u n m true = Plan.doBytes (mapStored m) := by
  unfold mapPlan
  rw [if_neg (by simp [hn]), hc]
  dsimp only
  rw [he]
  rfl

theorem exec_mapLoad_granted {m : List Cfg} (h : Granted 0x0140 r role judgeInstaller s)
    (hj : judgeD (heard 0x0140 r role s) false buf.toNat len.toNat = none) (hl : len.toNat ≤ 262144)
    (hd : dmaUp (heard 0x0140 r role s) = true) (hn : len.toNat = mapLen m) (hc : mapCheck m 0 (heard 0x0140 r role s) = none)
    (he : epochFinal (heard 0x0140 r role s) = false) :
    exec (.mapLoad r buf len m true true) s =
      .next (ok 0x0140 r (mapStored m (admitted 0x0140 r role s)).1 (mapStored m (admitted 0x0140 r role s)).2) := by
  rw [exec_mapLoad]
  unfold execMapLoad
  refine congrArg _ (dispatch_ok (f := mapStored m) h (by decide) ?_)
  rw [hj]
  dsimp only
  rw [if_neg (Nat.not_lt.mpr hl), hd, if_neg (by decide), mapPlan_stores hn hc he]

theorem exec_telemRead_served {t : TelRec} {l : List TelRec} (h : Served 0x0D04 r role judgeHostAwake s)
    (ht : (heard 0x0D04 r role s).bgs.telRecords = t :: l)
    (hj : judgeD (heard 0x0D04 r role s) true buf.toNat 1552 = none) (hd : dmaUp (heard 0x0D04 r role s) = true) :
    exec (.telemRead r buf) s = .next (
      ok 0x0D04 r (dmaWrite (audited 0x0D04 r role s) buf.toNat (telBytes t)).2
        (leBytes 4 t.beat.toNat ++ leBytes 2 1552 ++ leBytes 2 0)) := by
  rw [exec_telemRead]
  unfold execTelemRead
  refine congrArg _ (dispatch_answers (st0 := .ok) (b0 := []) (g := fun u => (dmaWrite u buf.toNat (telBytes t)).2) h
    (by decide) (by decide) (fun _ e => absurd e Bool.false_ne_true) ?_)
  rw [ht]
  dsimp only
  rw [hj]
  dsimp only
  rw [hd]
  rfl

variable {e k : BitVec 8}

theorem exec_diagLoopback_granted (h : Granted 0x0D03 r role judgeInstaller s) (he : e.toNat ≤ 103) (hk : k.toNat ≤ 2)
    (hup : k ≠ 0 →
      (if e.toNat < 96 then decide ((laneOf (heard 0x0D03 r role s) e.toNat).st = .active)
        else bit (heard 0x0D03 r role s) R_PORT_STAT (e.toNat - 96) 0) = true ∧
      (loopOf (heard 0x0D03 r role s) e.toNat ≠ 0 ∨ (heard 0x0D03 r role s).net.loop.length < 8)) :
    exec (.diagLoopback r e k) s = .next (ok 0x0D03 r (setLoop (admitted 0x0D03 r role s) e.toNat k.toNat) []) := by
  rw [exec_diagLoopback]
  unfold execDiagLoopback
  rw [dispatch_do (setLoop · e.toNat k.toNat) h (by decide)]
  dsimp only
  rw [if_neg (by omega)]
  by_cases h0 : k = 0
  · subst h0
    rfl
  · obtain ⟨hu, hroom⟩ := hup h0
    rw [if_neg h0, hu, if_neg]
    rintro (e | ⟨hz, hfull⟩)
    · exact Bool.false_ne_true e
    · exact hroom.elim (fun hne => hne hz) (Nat.not_lt.mpr hfull)

end

/-- Settles O57: each command passes the dispatcher with its own checks met, and has the effect that its plan names; a burnt
group of fuse bits is read back. -/
theorem systemCommands : Obligations.SystemCommands := by
  unfold Obligations.SystemCommands
  refine ⟨fun s r role buf len img h hj hl hd hs hmax hmin => exec_fwLoad_granted h ⟨hj, hl, hd, hs, hmin, hmax⟩,
    fun s r buf len img hr hroom hw hrec h0 hj hl hd hs hmax hmin => ?_,
    fun s r role h => ⟨exec_fwCommit_raises h, exec_fwCommit_final h⟩, fun s n h1 h32 hw => fwMin_burn h1 h32 hw,
    fun s r role h hc => ?_, fun s r role h hc => ?_, fun s hr ho => exec_sysResetDeadline_ordered hr ho,
    fun s r role t h ht => ⟨exec_lifecycleAdvance_burns h ht, exec_lifecycleAdvance_stays h⟩,
    fun s h => lifecycle_burn_field h, fun s => lifecycle_burn_return,
    fun s r role buf len h hj hl hd => exec_mapRead_granted h hj hl hd,
    fun s r role buf len m h hj hl hd hn hc he => exec_mapLoad_granted h hj hl hd hn hc he,
    fun s r role buf t l h ht hj hd => exec_telemRead_served h ht hj hd,
    fun s r role e k h he hk hup => exec_diagLoopback_granted h he hk hup⟩
  · have h : Taken 0x0120 r s := ⟨hr, .inl hroom, fun w e => by rw [hw] at e; cases e⟩
    exact exec_fwLoad_recovery h hrec h0 hw ⟨hj, hl, hd, hs, hmin, hmax⟩
  · rw [exec_sysReset_granted h, hc]
    rfl
  · rw [exec_sysReset_granted h, hc]
    rfl

end Sys2Proof.Machine
end

section
namespace Sys2Proof.Machine

/-! ## The INSTALLER map, the key slots and the beat count (R134, R336, R531, R533) -/

section
variable {c : Instr} {s t : State} {p : Option (List Instr)} {b : Option Word} {m : Option (List Cfg)} {k : Option (Tab Slot)}

/-- The mark that compares the queue, the beat count, the INSTALLER map and the key slots, each where it is given. -/
def storesMark (p : Option (List Instr)) (b : Option Word) (m : Option (List Cfg)) (k : Option (Tab Slot)) : Mark :=
  { pending := p, clock := none, beat := b, odo := none, seq := none, map := m, slots := k }

/-- A state agrees with such a mark of its own parts. -/
theorem kept_storesMark (hp : ∀ x, p = some x → s.pending = x) (hb : ∀ x, b = some x → s.time.beatCnt = x)
    (hm : ∀ x, m = some x → s.map = x) (hk : ∀ x, k = some x → s.vault.slots = x) :
    Kept False (storesMark p b m k) s where
  pending := hp
  clock _ e := nomatch e
  beat := hb
  seq _ e := nomatch e
  map := hm
  slots := hk
  odo f := f.elim
  sound f := f.elim

theorem kept_own_map (s : State) : Kept False (storesMark none none (some s.map) none) s :=
  kept_storesMark nofun nofun (fun _ => Option.some.inj) nofun

theorem kept_own_slots (s : State) : Kept False (storesMark none none none (some s.vault.slots)) s :=
  kept_storesMark nofun nofun nofun (fun _ => Option.some.inj)

theorem kept_own_beat (s : State) : Kept False (storesMark none (some s.time.beatCnt) none none) s :=
  kept_storesMark nofun (fun _ => Option.some.inj) nofun nofun

/-- The state that a command answers agrees with every such mark of parts that the command may not move. -/
theorem exec_next_stores (h : Kept False (storesMark p b m k) s) (hb : movesBeat c = true → b = none)
    (hm : movesMap c = true → m = none) (hk : movesSlots c = true → k = none) (ht : exec c s = .next t) :
    Kept False (storesMark p b m k) t := by
  obtain ⟨u, hu, hkept⟩ := exec_kept c s h hb (fun _ => rfl) (fun _ => rfl) (fun _ => rfl) hm hk
  rw [ht] at hu
  cases hu
  exact hkept

theorem exec_map_eq (hc : movesMap c = false) (ht : exec c s = .next t) : t.map = s.map :=
  (exec_next_stores (kept_own_map s) (fun _ => rfl) (by simp [hc]) (fun _ => rfl) ht).map _ rfl

theorem exec_slots_eq (hc : movesSlots c = false) (ht : exec c s = .next t) : t.vault.slots = s.vault.slots :=
  (exec_next_stores (kept_own_slots s) (fun _ => rfl) (fun _ => rfl) (by simp [hc]) ht).slots _ rfl

theorem exec_beatCnt_eq (hc : movesBeat c = false) (ht : exec c s = .next t) : t.time.beatCnt = s.time.beatCnt :=
  (exec_next_stores (kept_own_beat s) (by simp [hc]) (fun _ => rfl) (fun _ => rfl) ht).beat _ rfl

theorem tick_map (s : State) : (tick s).map = s.map := (tick_kept s (kept_own_map s) rfl rfl).map _ rfl

theorem tick_slots (s : State) : (tick s).vault.slots = s.vault.slots := (tick_kept s (kept_own_slots s) rfl rfl).slots _ rfl

end

/-- Settles O7: every command keeps the mark of the parts that it may not move, and so does a tick. -/
theorem onlyNamedCommandsChangeMapSlotsAndBeat : Obligations.OnlyNamedCommandsChangeMapSlotsAndBeat := by
  unfold Obligations.OnlyNamedCommandsChangeMapSlotsAndBeat
  exact ⟨fun _ _ _ => exec_map_eq, fun _ _ _ => exec_slots_eq, fun _ _ _ => exec_beatCnt_eq,
    fun s => ⟨tick_map s, tick_slots s⟩⟩

end Sys2Proof.Machine
end

section
namespace Sys2Proof.Machine

/-! ## The local time is moved by the passing of ticks alone (R140)

Each operation that a beat boundary runs leaves the ticks of the timebase as they were. -/

section
variable {s t : State}

theorem foldl_ticks {β : Type} {F : State → β → State} (h : ∀ s x, (F s x).time.ticks = s.time.ticks) (l : List β)
    (s : State) : (l.foldl F s).time.ticks = s.time.ticks :=
  foldl_field (fun u => u.time.ticks) h l s

theorem foldl_snd_ticks {α β : Type} {F : α × State → β → α × State}
    (h : ∀ r x, (F r x).2.time.ticks = r.2.time.ticks) (l : List β) (r : α × State) :
    (l.foldl F r).2.time.ticks = r.2.time.ticks := by
  induction l generalizing r with
  | nil => rfl
  | cons x l ih => exact (ih _).trans (h r x)

@[simp] theorem ite_ticks {p : Prop} [Decidable p] (a b : State) :
    (if p then a else b).time.ticks = if p then a.time.ticks else b.time.ticks :=
  apply_ite (fun u : State => u.time.ticks) p a b

/-! ### Frames that leave their queues (R206 to R208, R263 to R269) -/

/-- A two-word counter moves its own words alone. -/
theorem stat2AddI_part {α : Type} (f : State → α) (hw : ∀ u a i v, f (wri u a i v) = f u) (s : State) (a i n : Nat) :
    f (stat2AddI s a i n) = f s := by
  unfold stat2AddI
  dsimp only
  split
  · rfl
  · split
    · rw [hw, hw]
    · rw [hw, hw]

@[simp] theorem stat2AddI_ticks (s : State) (a i n : Nat) : (stat2AddI s a i n).time.ticks = s.time.ticks :=
  stat2AddI_part (fun u => u.time.ticks) (fun _ _ _ _ => rfl) s a i n

/-- A pause frame moves counters and an output: any part of the state that sees neither is as it was. -/
theorem sendPause_part {α : Type} (f : State → α) (hw : ∀ u a i v, f (wri u a i v) = f u)
    (ho : ∀ u o, f { u with out := o } = f u) (s : State) (p b quanta : Nat) : f (sendPause s p b quanta) = f s := by
  unfold sendPause
  dsimp only
  rw [ho, stat2AddI_part f hw, stat2AddI_part f hw]
  exact hw s _ _ _

@[simp] theorem sendPause_ticks (s : State) (p b quanta : Nat) : (sendPause s p b quanta).time.ticks = s.time.ticks :=
  sendPause_part (fun u => u.time.ticks) (fun _ _ _ _ => rfl) (fun _ _ => rfl) s p b quanta

@[simp] theorem fcScope_ticks (s : State) (p b : Nat) : (fcScope s p b).time.ticks = s.time.ticks := by
  simp [fcScope]

@[simp] theorem fcCheck_ticks (s : State) (ing : Nat) : (fcCheck s ing).time.ticks = s.time.ticks := by
  simp [fcCheck, foldl_ticks]

@[simp] theorem releaseRef_ticks (s : State) (h : Nat) : (releaseRef s h).time.ticks = s.time.ticks := by
  unfold releaseRef
  split
  · rfl
  · simp

@[simp] theorem rsqSend_ticks (s : State) (e : Nat) (l : List Nat) : (rsqSend s e l).time.ticks = s.time.ticks := by
  refine foldl_ticks (fun u h => ?_) l s
  dsimp only
  split
  · rfl
  · rfl

@[simp] theorem rsqStore_ticks (s : State) (str e : Nat) (r : RsqRes) : (rsqStore s str e r).time.ticks = s.time.ticks :=
  rsqSend_ticks _ _ _

@[simp] theorem rsqAdvise_ticks (s : State) (e : Nat) (f : Frame) : (rsqAdvise s e f).time.ticks = s.time.ticks := by
  unfold rsqAdvise
  split
  · rfl
  · split
    · rfl
    · dsimp only
      split
      · simp
      · split
        · split
          · rfl
          · rfl
        · rfl

@[simp] theorem dropAt_ticks (s : State) (e h : Nat) : (dropAt s e h).time.ticks = s.time.ticks := by
  unfold dropAt
  split
  · rfl
  · simp

@[simp] theorem countTail_ticks (s : State) (e q : Nat) : (countTail s e q).time.ticks = s.time.ticks := rfl

theorem flushQueue_ticks {cnt : State → Nat → State} (h : ∀ s q, (cnt s q).time.ticks = s.time.ticks) (e : Nat) (s : State)
    (q : Nat) : (flushQueue cnt e s q).time.ticks = s.time.ticks :=
  foldl_ticks (F := fun u (x : QEnt) => dropAt (cnt u q) e x.h) (fun u _ => (dropAt_ticks _ _ _).trans (h u q)) _
    (setQueue s e q [])

theorem flushAll_ticks {cnt : State → Nat → State} (h : ∀ s q, (cnt s q).time.ticks = s.time.ticks) (s : State) (e : Nat) :
    (flushAll cnt s e).time.ticks = s.time.ticks :=
  foldl_ticks (flushQueue_ticks h e) _ s

theorem abandonTx_ticks {cnt : State → Nat → State} (h : ∀ s q, (cnt s q).time.ticks = s.time.ticks) (s : State) (e : Nat) :
    (abandonTx cnt s e).time.ticks = s.time.ticks := by
  unfold abandonTx
  split
  · rfl
  · simp [h]

@[simp] theorem flushLane_ticks (s : State) (n : Nat) : (flushLane s n).time.ticks = s.time.ticks :=
  (flushAll_ticks (cnt := fun u q => countTail u n q) (fun _ _ => rfl) _ n).trans
    (abandonTx_ticks (cnt := fun u q => countTail u n q) (fun _ _ => rfl) s n)

@[simp] theorem dropHeld_ticks (s : State) (e : Nat) : (dropHeld s e).time.ticks = s.time.ticks := by
  refine foldl_ticks (fun u x => ?_) _ s
  split
  · rfl
  · simp

@[simp] theorem flushPort_ticks (s : State) (p : Nat) : (flushPort s p).time.ticks = s.time.ticks :=
  (flushAll_ticks (cnt := fun u _ => statIncI u R_PORT_TX_LINKDROP p) (fun _ _ => rfl) _ _).trans (dropHeld_ticks s _)

@[simp] theorem dropSpilled_ticks (s : State) (g : Nat → Bool) : (dropSpilled s g).time.ticks = s.time.ticks := by
  refine foldl_ticks (fun u e => ?_) _ s
  split
  · rfl
  · refine foldl_ticks (fun v q => foldl_ticks (fun w x => ?_) _ v) _ u
    split
    · simp [removeEnt]
    · rfl

/-! ### Admission and commit of a frame (R257 to R274) -/

theorem makeRoom_ticks {e c : Nat} {l : List (Nat × Nat)} (h : makeRoom s e c l = some t) : t.time.ticks = s.time.ticks := by
  induction l generalizing s with
  | nil => cases h
  | cons x l ih =>
    have hd : (dropAt (countTail (removeEnt s e x.1 x.2) e x.1) e x.2).time.ticks = s.time.ticks := dropAt_ticks _ _ _
    unfold makeRoom at h
    dsimp only at h
    split at h
    · cases h
      exact hd
    · exact (ih h).trans hd

@[simp] theorem judgeWred_ticks (s : State) (e q : Nat) (col : Colour) (ect : Bool) :
    (judgeWred s e q col ect).2.2.time.ticks = s.time.ticks := by
  unfold judgeWred
  dsimp only
  exact (apply_ite (fun x : Bool × Bool × State => x.2.2.time.ticks) _ _ _).trans (ite_self _)

@[simp] theorem admitAt_ticks (s : State) (e prio c : Nat) (col : Colour) (ect : Bool) :
    (admitAt s e prio c col ect).2.2.time.ticks = s.time.ticks := by
  have hw := judgeWred_ticks (avgUpdate s e (queueNo e prio)) e (queueNo e prio) col ect
  unfold admitAt
  dsimp only
  split
  · split
    · rfl
    · split
      · exact makeRoom_ticks ‹_›
      · rfl
  · split
    · rfl
    · generalize judgeWred (avgUpdate s e (queueNo e prio)) e (queueNo e prio) col ect = j at hw
      split
      · exact hw
      · split
        · exact hw
        · exact hw

theorem preDrop_ticks {st : Stamp} {c : Content} {prio e : Nat} (h : preDrop s st c prio e = some t) :
    t.time.ticks = s.time.ticks := by
  unfold preDrop at h
  dsimp only at h
  repeat' split at h
  all_goals cases h
  all_goals rfl

@[simp] theorem launchAtCommit_ticks (s : State) (e : Nat) (l : Option LaunchAt) :
    (launchAtCommit s e l).2.2.time.ticks = s.time.ticks := by
  unfold launchAtCommit
  repeat' split
  all_goals rfl

@[simp] theorem tryTarget_ticks (s : State) (f : Frame) (st : Stamp) (l : Option LaunchAt) (e : Nat) :
    (tryTarget s f st l e).2.time.ticks = s.time.ticks := by
  unfold tryTarget
  dsimp only
  split
  · exact (rsqAdvise_ticks _ _ _).trans (preDrop_ticks ‹_›)
  · split
    · simp
    · split
      · simp
      · simp

@[simp] theorem storeFrame_ticks (s : State) (f : Frame) : (storeFrame s f).2.time.ticks = s.time.ticks := fcCheck_ticks _ _

@[simp] theorem enqueue_ticks (s : State) (e q h : Nat) (launch : Option LaunchAt) (done : Bool) :
    (enqueue s e q h launch done).time.ticks = s.time.ticks := by
  simp [enqueue]

@[simp] theorem commitCopy_ticks (s : State) (f : Frame) (st : Stamp) (l : Option LaunchAt) (e : Nat) :
    (commitCopy s f st l e).2.time.ticks = s.time.ticks := by
  have ht := tryTarget_ticks s f st l e
  unfold commitCopy
  split
  · simp_all
  · simp_all

@[simp] theorem judgeShared_ticks (f : Frame) (st : Stamp) (l : Option LaunchAt) (es : List Nat) (s : State) :
    (judgeShared f st l es s).2.time.ticks = s.time.ticks := by
  induction es generalizing s with
  | nil => rfl
  | cons e es ih =>
    have ht := tryTarget_ticks s f st l e
    unfold judgeShared
    split
    · simp_all
    · simp_all

/-- A stored frame goes into the queue of each egress that admitted it. -/
def enqueueAll (h prio : Nat) (adm : List (Nat × Bool × Option LaunchAt)) (s : State) : State :=
  adm.foldl (fun s x => enqueue s x.1 (queueNo x.1 prio) h x.2.2 false) s

/-- Stated of any part of the state: the kernel would otherwise evaluate the fold to compare its ticks. -/
theorem enqueueAll_part {α : Type} (f : State → α) (hf : ∀ u e q h l d, f (enqueue u e q h l d) = f u) (h prio : Nat)
    (adm : List (Nat × Bool × Option LaunchAt)) (s : State) : f (enqueueAll h prio adm s) = f s :=
  foldl_field f (fun _ _ => hf _ _ _ _ _ _) adm s

/-- A shared frame is stored once, for all the egresses that admitted it, or not at all. -/
theorem commitShared_queues (s : State) (f : Frame) (st : Stamp) (l : Option LaunchAt) (es : List Nat) :
    (commitShared s f st l es).2 = (judgeShared f st l es s).2 ∨
    ∃ f', (commitShared s f st l es).2 =
      enqueueAll (storeFrame (judgeShared f st l es s).2 f').1 (actPrio f.action) (judgeShared f st l es s).1
        (storeFrame (judgeShared f st l es s).2 f').2 := by
  unfold commitShared
  generalize judgeShared f st l es s = j
  obtain ⟨adm, u⟩ := j
  cases adm with
  | nil => exact .inl rfl
  | cons x xs => exact .inr ⟨_, rfl⟩

@[simp] theorem commitShared_ticks (s : State) (f : Frame) (st : Stamp) (l : Option LaunchAt) (es : List Nat) :
    (commitShared s f st l es).2.time.ticks = s.time.ticks := by
  obtain e | ⟨f', e⟩ := commitShared_queues s f st l es
  · rw [e, judgeShared_ticks]
  · rw [e, enqueueAll_part (fun u => u.time.ticks) enqueue_ticks, storeFrame_ticks, judgeShared_ticks]

@[simp] theorem commitCopies_ticks (f : Frame) (st : Stamp) (l : Option LaunchAt) (es : List Nat) (s : State) :
    (commitCopies f st l es s).2.time.ticks = s.time.ticks := by
  induction es generalizing s with
  | nil => rfl
  | cons e es ih => exact (ih _).trans (commitCopy_ticks s f st l e)

@[simp] theorem commitFrame_ticks (s : State) (f : Frame) (st : Stamp) (l : Option LaunchAt) (targets : List Nat) :
    (commitFrame s f st l targets).2.time.ticks = s.time.ticks :=
  (commitShared_ticks _ f st l _).trans (commitCopies_ticks f st l _ s)

@[simp] theorem sendEntryFrame_ticks (s : State) (w : List Word) : (sendEntryFrame s w).time.ticks = s.time.ticks := by
  simp [sendEntryFrame]

@[simp] theorem sendEntryFrames_ticks (s : State) (l : List Word) : (sendEntryFrames s l).time.ticks = s.time.ticks :=
  foldl_ticks (fun u _ => sendEntryFrame_ticks u _) _ s

/-! ### Bolts, trackers and channels (chapter 17) -/

@[simp] theorem holdBlock_ticks (s : State) (b : Nat) : (holdBlock s b).time.ticks = s.time.ticks := by
  simp [holdBlock]

@[simp] theorem startMove_ticks (s : State) (b : Nat) (engage undo : Bool) :
    (startMove s b engage undo).time.ticks = s.time.ticks := by
  simp [startMove, armMove]

@[simp] theorem requestMove_ticks (s : State) (b : Nat) (engage : Bool) : (requestMove s b engage).time.ticks = s.time.ticks := by
  simp [requestMove]

@[simp] theorem engageAll_ticks (s : State) : (engageAll s).time.ticks = s.time.ticks :=
  foldl_ticks (fun u b => requestMove_ticks u b true) _ s

@[simp] theorem retryBolt_ticks (s : State) (b : Nat) : (retryBolt s b).time.ticks = s.time.ticks := by
  unfold retryBolt
  split
  · rfl
  · simp

@[simp] theorem retryBolts_ticks (s : State) : (retryBolts s).time.ticks = s.time.ticks := foldl_ticks retryBolt_ticks _ s

@[simp] theorem quorumCheck_ticks (s : State) : (quorumCheck s).time.ticks = s.time.ticks := by
  simp [quorumCheck]

@[simp] theorem odoGuard_ticks (old s : State) : (odoGuard old s).time.ticks = s.time.ticks := by
  simp [odoGuard]

@[simp] theorem distSample_ticks (s : State) (lost : Bool) : (distSample s lost).time.ticks = s.time.ticks := by
  simp [distSample]

@[simp] theorem spdSafe_ticks (s : State) (n : Nat) : (spdSafe s n).time.ticks = s.time.ticks :=
  foldl_ticks (F := fun u k => setSpd u (evtOut u k) false) (fun _ _ => rfl) _ s

@[simp] theorem loseSync_ticks (s : State) (n reason : Nat) : (loseSync s n reason).time.ticks = s.time.ticks := by
  simp [loseSync]

@[simp] theorem trackerStart_ticks (s : State) (n : Nat) : (trackerStart s n).time.ticks = s.time.ticks := by
  simp [trackerStart, startTracker]

@[simp] theorem chanStart_ticks (s : State) (n : Nat) : (chanStart s n).time.ticks = s.time.ticks := by
  unfold chanStart
  split
  · exact foldl_ticks (F := fun u b => setBolt u b { boltOf u b with st := .unknown }) (fun _ _ => rfl) _ (setFb s n FbChan.init)
  · rfl

/-! ### Ports, rails and modes (R70 to R80, R193) -/

@[simp] theorem linkLost_ticks (s : State) (p : Nat) : (linkLost s p).time.ticks = s.time.ticks := by
  simp [linkLost, portQuiet]

@[simp] theorem portDown_ticks (s : State) (p : Nat) : (portDown s p).time.ticks = s.time.ticks := linkLost_ticks s p

@[simp] theorem portUp_ticks (s : State) (p : Nat) : (portUp s p).time.ticks = s.time.ticks := by
  simp [portUp]

@[simp] theorem portsFollow_ticks (s : State) : (portsFollow s).time.ticks = s.time.ticks :=
  foldl_ticks (fun u p => by simp) _ s

@[simp] theorem railsFollow_ticks (s : State) (m : Mode) : (railsFollow s m).time.ticks = s.time.ticks := by
  unfold railsFollow
  rw [railNext_time]
  exact foldl_ticks (fun u r => by simp) _ s

@[simp] theorem modeCore_ticks (s : State) (m : Mode) : (modeCore s m).time.ticks = s.time.ticks := by
  simp [modeCore]

@[simp] theorem enterMode_ticks (s : State) (m : Mode) : (enterMode s m).time.ticks = s.time.ticks := by
  unfold enterMode
  split <;> simp

@[simp] theorem sealEntry_ticks (s : State) (c : QCause) : (sealEntry s c).time.ticks = s.time.ticks := by
  unfold sealEntry
  split
  · simp
  · simp

@[simp] theorem quarantine_ticks (s : State) (c : QCause) : (quarantine s c).time.ticks = s.time.ticks := by
  simp [quarantine]

@[simp] theorem causeArises_ticks (s : State) (c : QCause) : (causeArises s c).time.ticks = s.time.ticks := by
  unfold causeArises
  split
  · simp
  · rfl
  · rfl

@[simp] theorem denySummaryNow_ticks (s : State) : (denySummaryNow s).time.ticks = s.time.ticks := by
  simp [denySummaryNow]

@[simp] theorem coreOff_ticks (s : State) : (coreOff s).time.ticks = s.time.ticks := by
  unfold coreOff
  dsimp only
  rw [lanesFollow_time]

@[simp] theorem sleepFrom_ticks (s : State) (m : Mode) : (sleepFrom s m).time.ticks = s.time.ticks := by
  simp [sleepFrom, copyWake, laSaveNow]

@[simp] theorem resumeSleep_ticks (s : State) : (resumeSleep s).time.ticks = s.time.ticks := by
  simp [resumeSleep]

/-! ### The close of a trip and what waits for standstill (R73, R430 to R435) -/

@[simp] theorem closeInterval_ticks (s : State) (late : Bool) (lt reason : Nat) :
    (closeInterval s late lt reason).time.ticks = s.time.ticks := by
  unfold closeInterval
  split
  · rfl
  · simp

@[simp] theorem boundaryClose_ticks (s : State) (late : Bool) : (boundaryClose s late).time.ticks = s.time.ticks := by
  unfold boundaryClose
  split
  · rfl
  · simp [openInterval]

@[simp] theorem boundaryCloses_ticks (late : Bool) (n : Nat) (s : State) :
    (boundaryCloses late n s).time.ticks = s.time.ticks := by
  induction n generalizing s with
  | zero => rfl
  | succ n ih =>
    unfold boundaryCloses
    split
    · simp [ih]
    · rfl

@[simp] theorem closeTripLedger_ticks (s : State) (src : Nat) : (closeTripLedger s src).time.ticks = s.time.ticks := by
  unfold closeTripLedger
  split
  · rfl
  · simp [closeTripRecords]

@[simp] theorem closeTrip_ticks (s : State) (src : Nat) : (closeTrip s src).time.ticks = s.time.ticks := by
  simp [closeTrip]

@[simp] theorem settle_ticks (s : State) : (settle s).time.ticks = s.time.ticks := by
  simp [settle]

@[simp] theorem atStandstill_ticks (s : State) (f : Vault → Vault) : (atStandstill s f).time.ticks = s.time.ticks :=
  settle_ticks _

/-! ### Table entries that wait for the boundary (R228 to R246) -/

@[simp] theorem hashPut_ticks (s : State) (full : Bool) (p : Nat) (e : BitVec 128) :
    (hashPut s full p e).2.time.ticks = s.time.ticks := by
  unfold hashPut
  repeat' split
  all_goals rfl

@[simp] theorem pipePut_ticks (s : State) (full : Bool) (table index : Nat) (e : BitVec 256) (p : Nat) :
    (pipePut s full table index e p).2.time.ticks = s.time.ticks := by
  unfold pipePut
  split
  · rfl
  · split
    · rfl
    · exact hashPut_ticks _ _ _ _

@[simp] theorem widePut_ticks (s : State) (table index : Nat) (e : BitVec 256) :
    (widePut s table index e).time.ticks = s.time.ticks := by
  simp [widePut]

@[simp] theorem maskPut_ticks (s : State) (full : Bool) (table pmask index : Nat) (e : BitVec 256) :
    (maskPut s full table pmask index e).2.time.ticks = s.time.ticks := by
  refine foldl_snd_ticks (fun r p => ?_) _ (Status.ok, s)
  exact pipePut_ticks r.2 full table index e p

@[simp] theorem tblPut_ticks (s : State) (full : Bool) (table pmask index : Nat) (w : List Word) :
    (tblPut s full table pmask index w).2.time.ticks = s.time.ticks := by
  unfold tblPut
  split
  · simp
  · simp

@[simp] theorem placeEntry_ticks (s : State) (full : Bool) (c : Cfg) : (placeEntry s full c).time.ticks = s.time.ticks := by
  unfold placeEntry
  split
  · simp
  · rfl

@[simp] theorem applyBatch_ticks (s : State) : (applyBatch s).time.ticks = s.time.ticks := by
  simp [applyBatch, foldl_ticks]

/-! ### Configuration that waits for the boundary (R213, R305, R533) -/

@[simp] theorem laneStart_ticks (s : State) (n : Nat) : (laneStart s n).time.ticks = s.time.ticks := by
  simp [laneStart]

@[simp] theorem portStart_ticks (s : State) (p : Nat) : (portStart s p).time.ticks = s.time.ticks := by
  simp [portStart]

@[simp] theorem queuesStart_ticks (s : State) (e : Nat) : (queuesStart s e).time.ticks = s.time.ticks := by
  refine foldl_ticks (fun u q => ?_) _ s
  rfl

@[simp] theorem smpDraw_ticks (s : State) (ing : Nat) : (smpDraw s ing).time.ticks = s.time.ticks := by
  simp [smpDraw]

@[simp] theorem groupStart_ticks (s : State) (g m : Nat) : (groupStart s g m).time.ticks = s.time.ticks := by
  unfold groupStart
  split
  · rfl
  · dsimp only
    rw [setFld_time,
      foldl_ticks fun u e => flushAll_ticks (cnt := fun u q => statIncI u R_SW_Q_ADROP (qn e q)) (fun _ _ => rfl) u e,
      foldl_ticks fun u k => flushAll_ticks (cnt := fun u q => countTail u (24 * g + k) q) (fun _ _ => rfl) u _,
      dropSpilled_ticks]

@[simp] theorem applySch_ticks (egr : Nat) (p : SchParam) (s : State) : (applySch egr p s).time.ticks = s.time.ticks := by
  unfold applySch
  split
  · simp
  · rfl

@[simp] theorem applySw_ticks (kind i : Nat) (img : List Word) (s : State) :
    (applySw kind i img s).time.ticks = s.time.ticks := by
  unfold applySw
  split
  all_goals rfl

/-- A stored record that takes effect changes registers and schedules the rest. -/
@[simp] theorem applyCfg_ticks (c : Cfg) (s : State) : (applyCfg c s).time.ticks = s.time.ticks := by
  cases c with
  | lane l img => simp [applyCfg, applyLane]
  | port p img => simp [applyCfg, applyPort]
  | tblWrite t f pm i e => exact placeEntry_ticks s true _
  | sw k i img => exact applySw_ticks _ _ _ _
  | sch e k img => exact applySch_ticks _ _ _
  | gates e n en o es => exact applySch_ticks _ _ _
  | time i img => simp [applyCfg, applyTime]
  | tt t img => simp [applyCfg, applyTt]
  | fb k i img => simp [applyCfg, applyFb]
  | _ => rfl

@[simp] theorem applyKind_ticks (s : State) (k : ApplyKind) : (applyKind s k).time.ticks = s.time.ticks := by
  cases k <;> simp [applyKind, polStart, boltStart, hlbStart]

@[simp] theorem applyChange_ticks (s : State) (c : Change) : (applyChange s c).time.ticks = s.time.ticks := by
  unfold applyChange
  split
  · rfl
  · rw [odoGuard_ticks, applyKind_ticks]
    refine foldl_ticks (fun u w => ?_) _ s
    rfl

@[simp] theorem recordNow_ticks (s : State) (c : Cfg) : (recordNow s c).time.ticks = s.time.ticks :=
  (foldl_ticks applyChange_ticks _ _).trans (applyCfg_ticks c _)

@[simp] theorem mapNow_ticks (s : State) : (mapNow s).time.ticks = s.time.ticks := foldl_ticks recordNow_ticks _ s

@[simp] theorem applyChanges_ticks (s : State) : (applyChanges s).time.ticks = s.time.ticks :=
  foldl_ticks (F := fun u (c : Change) => if c.kind = .map then mapNow u else applyChange u c) (fun u c => by simp) _
    { s with changes := [] }

@[simp] theorem gatesWait_ticks (s : State) : (gatesWait s).time.ticks = s.time.ticks := by
  refine foldl_ticks (fun u c => ?_) _ { s with changes := [] }
  split
  · rfl
  · rfl

@[simp] theorem domsFollow_ticks (s : State) : (domsFollow s).time.ticks = s.time.ticks :=
  foldl_ticks (fun u n => by simp [setDom]) _ s

/-! ### The tasks of the boundary (R136) -/

@[simp] theorem refillTask_ticks (s : State) (polMiss shMiss : List Nat) :
    (refillTask s polMiss shMiss).time.ticks = s.time.ticks := by
  simp [refillTask, refillPol, refillSh, foldl_ticks]

@[simp] theorem rescale_ticks (s : State) (new : Nat) : (rescale s new).time.ticks = s.time.ticks := by
  refine (foldl_ticks (fun u x => ?_) _ _).trans (foldl_ticks (fun u k => ?_) _ s)
  · rfl
  · rfl

@[simp] theorem gclShow_ticks (s : State) (ns e : Nat) (g : GateList) : (gclShow s ns e g).time.ticks = s.time.ticks := by
  refine foldl_ticks (fun u w => ?_) _ s
  rfl

/-- A gate list that waits for this beat is taken over (R305). -/
def gateListTaken (s : State) (e idx : Nat) : State :=
  match (egrOf s e).gNew with
  | some g => if gclDue (beatNs s) g idx then gclLoad s e g else s
  | none => s

/-- The gate list in force moves on by one beat, with whether it enters an entry (R301). -/
def gateListMoved (s : State) (e idx : Nat) : Bool × State :=
  if ! gclOn s e then (false, s)
  else if cycleStart (rdi s R_SCH_GCL_CYC e).toNat (rdi s R_SCH_GCL_OFS e).toNat idx then (true, gclEnter s e 0)
  else
    let x := egrOf s e
    if ! x.gRun then (false, s)
    else if x.gLeft > 1 then (false, setEgr s e { x with gLeft := x.gLeft - 1 })
    else
      let k := fldi s R_SCH_GCL_STAT e 16 6 + 1
      if k < fldi s R_SCH_GCL_CFG e 0 7 then (true, gclEnter s e k) else (false, s)

theorem gateAdvance_eq (s : State) (e idx : Nat) : gateAdvance s e idx = gateListMoved (gateListTaken s e idx) e idx := rfl

theorem gateListTaken_ticks (s : State) (e idx : Nat) : (gateListTaken s e idx).time.ticks = s.time.ticks := by
  have hl (g : GateList) : (gclLoad s e g).time.ticks = s.time.ticks := gclShow_ticks _ _ _ _
  unfold gateListTaken
  split
  · simp [hl]
  · rfl

theorem gateListMoved_ticks (s : State) (e idx : Nat) : (gateListMoved s e idx).2.time.ticks = s.time.ticks := by
  unfold gateListMoved
  dsimp only
  repeat' split
  all_goals rfl

@[simp] theorem gateAdvance_ticks (s : State) (e idx : Nat) : (gateAdvance s e idx).2.time.ticks = s.time.ticks := by
  rw [gateAdvance_eq, gateListMoved_ticks, gateListTaken_ticks]

@[simp] theorem gateCatchUp_ticks (e idx n : Nat) (entered : Bool) (s : State) :
    (gateCatchUp e idx n entered s).time.ticks = s.time.ticks := by
  induction n generalizing entered s with
  | zero => simp [gateCatchUp]
  | succ n ih => simp [gateCatchUp, ih]

@[simp] theorem gateTask_ticks (s : State) (miss : List Nat) : (gateTask s miss).time.ticks = s.time.ticks := by
  simp [gateTask, foldl_ticks]

@[simp] theorem enterMember_ticks (s : State) (n : Nat) (p : Peer) (st : MemSt) :
    (enterMember s n p st).time.ticks = s.time.ticks := by
  simp [enterMember]

@[simp] theorem commitsResolve_ticks (s : State) : (commitsResolve s).time.ticks = s.time.ticks := by
  simp [commitsResolve, showDigest, foldl_ticks]

@[simp] theorem gatesRederive_ticks (ns : Nat) (s : State) (e : Nat) : (gatesRederive ns s e).time.ticks = s.time.ticks := by
  unfold gatesRederive
  split
  · rfl
  · simp

@[simp] theorem passRestart_ticks (s : State) (p : Nat) : (passRestart s p).time.ticks = s.time.ticks := by
  simp [passRestart, setPass]

@[simp] theorem beatChange_ticks (s : State) : (beatChange s).time.ticks = s.time.ticks := by
  unfold beatChange
  split
  · rfl
  · simp [foldl_ticks]

@[simp] theorem boundaryConfig_ticks (s : State) : (boundaryConfig s).time.ticks = s.time.ticks := by
  unfold boundaryConfig
  dsimp only
  rw [beatChange_ticks]
  split
  · simp
  · simp

@[simp] theorem summaryWrite_ticks (s : State) : (summaryWrite s).time.ticks = s.time.ticks := by
  unfold summaryWrite
  dsimp only
  split
  · split
    · refine foldl_ticks (fun u k => ?_) _ s
      rfl
    · rfl
  · split
    · rw [dmaWrite_time]
    · rfl

@[simp] theorem losePeer_ticks (s : State) (n : Nat) : (losePeer s n).time.ticks = s.time.ticks := by
  simp [losePeer, topoCheck]

@[simp] theorem hlbKeyCheck_ticks (s : State) : (hlbKeyCheck s).time.ticks = s.time.ticks := by
  simp [hlbKeyCheck, foldl_ticks]

@[simp] theorem lockRule_ticks (s : State) : (lockRule s).time.ticks = s.time.ticks := by
  simp [lockRule, mergeLocks]

@[simp] theorem lineMonitor_ticks (s : State) (env : BeatEnv) : (lineMonitor s env).time.ticks = s.time.ticks := by
  unfold lineMonitor
  exact foldl_ticks (fun u k => by simp) _ s

@[simp] theorem awakeBeat_ticks (s : State) (env : BeatEnv) : (awakeBeat s env).time.ticks = s.time.ticks := by
  simp [awakeBeat, behindRule, tempJudge]

@[simp] theorem averages_ticks (s : State) : (averages s).time.ticks = s.time.ticks := by
  unfold averages
  refine foldl_ticks (fun u k => foldl_ticks (fun v q => ?_) _ u) _ s
  rfl

@[simp] theorem quietBeat_ticks (s : State) : (quietBeat s).time.ticks = s.time.ticks := by
  simp [quietBeat]

@[simp] theorem ovrCheck_ticks (s : State) (env : BeatEnv) : (ovrCheck s env).time.ticks = s.time.ticks := by
  simp [ovrCheck, ovrPersist]

@[simp] theorem telDrain_ticks (s : State) (ov : Bool) : (telDrain s ov).time.ticks = s.time.ticks := by
  unfold telDrain
  split
  · rfl
  · rfl

@[simp] theorem beatCount_ticks (s : State) : (beatCount s).time.ticks = s.time.ticks := by
  simp [beatCount]

@[simp] theorem boundary_ticks (env : BeatEnv) (s : State) : (boundary env s).time.ticks = s.time.ticks := by
  simp [boundary, telLatch, telClose]

end

/-! ## A beat boundary counts one beat (R134, R140) -/

section
variable {s : State} {env : BeatEnv}

/-- The part of the boundary that belongs to the beat that ends (R136). -/
def beatEnded (env : BeatEnv) (s : State) : State := telDrain (ovrCheck (setVbat s (10 * env.vbat.toNat)) env) env.ovTelem

/-- The part of the boundary that follows the count (R136). -/
def beatBegun (env : BeatEnv) (s : State) : State :=
  let s := boundaryConfig (telClose s)
  let s := summaryWrite (telLatch { s with time := { s.time with beatLen := beatTicks s } } env)
  resumeSleep (quietBeat (awakeBeat (averages
    (gatesWait (gateTask (refillTask s env.polMiss env.shMiss) env.gateMiss))) env))

theorem boundary_eq (env : BeatEnv) (s : State) : boundary env s = beatBegun env (beatCount (beatEnded env s)) := by
  unfold boundary beatBegun beatEnded
  rfl

theorem beatEnded_beatCnt (env : BeatEnv) (s : State) : (beatEnded env s).time.beatCnt = s.time.beatCnt :=
  (telDrain_kept _ _ (ovrCheck_kept _ _ (setVbat_kept _ _ (kept_own_beat s)))).beat _ rfl

theorem beatBegun_beatCnt (env : BeatEnv) (s : State) : (beatBegun env s).time.beatCnt = s.time.beatCnt := by
  have hc := boundaryConfig_kept _ (telClose_kept _ (kept_own_beat s))
  have hl : Kept False (storesMark none (some s.time.beatCnt) none none)
      { boundaryConfig (telClose s) with time :=
          { (boundaryConfig (telClose s)).time with beatLen := beatTicks (boundaryConfig (telClose s)) } } :=
    kept_stores hc id id rfl (.inr rfl) (.inr rfl) id
  exact (resumeSleep_kept _ (quietBeat_kept _ (awakeBeat_kept _ _ (averages_kept _ (gatesWait_kept _ (gateTask_kept _ _
    (refillTask_kept _ _ _ (summaryWrite_kept _ (telLatch_kept _ _ hl))))))))).beat _ rfl

theorem beatCount_wraps (h : s.time.beatCnt = 0xFFFFFFFF) :
    beatCount s =
      raise { s with time := { s.time with beatCnt := 0, beatPos := s.time.beatPos - s.time.beatLen } } .beatWrap := by
  unfold beatCount
  rw [h]
  exact if_pos rfl

theorem beatCount_counts (h : s.time.beatCnt ≠ 0xFFFFFFFF) :
    beatCount s = { s with time := { s.time with
      beatCnt := s.time.beatCnt + 1, beatPos := s.time.beatPos - s.time.beatLen } } :=
  if_neg fun e => h (by
    have e : s.time.beatCnt + 1 = 0 := e
    bv_omega)

theorem beatCount_beatCnt (s : State) : (beatCount s).time.beatCnt = s.time.beatCnt + 1 := by
  unfold beatCount
  dsimp only
  split
  · rw [raise_time]
  · rfl

theorem boundary_beatCnt (env : BeatEnv) (s : State) : (boundary env s).time.beatCnt = s.time.beatCnt + 1 := by
  rw [boundary_eq, beatBegun_beatCnt, beatCount_beatCnt, beatEnded_beatCnt]

theorem exec_beatBoundary_clocked (h : clocked s = true) :
    exec (.beatBoundary env) s = .next (boundary env (pass (s.time.beatLen - s.time.beatPos) (begin_ s))) :=
  congrArg _ (if_pos h)

theorem exec_beatBoundary_unclocked (h : clocked s = false) : exec (.beatBoundary env) s = .next (begin_ s) :=
  congrArg _ (if_neg (by rw [show clocked (begin_ s) = clocked s from rfl, h]; decide))

/-- A core whose clocks run is neither asleep nor waiting for its rails, and is not frozen. -/
theorem clocked_core (h : clocked s = true) :
    s.power.phase ≠ .asleep ∧ s.power.phase ≠ .railPhase ∧ s.freeze.frozen = false := by
  unfold clocked at h
  cases hp : s.power.phase <;> simp_all

/-- The ticks that pass in a core whose clocks run move its local time alone. -/
theorem pass_clocked (n : Nat) (h : clocked s = true) :
    (pass n s).time.beatCnt = s.time.beatCnt ∧ (pass n s).time.ticks = s.time.ticks + n := by
  obtain ⟨ha, hr, hf⟩ := clocked_core h
  exact (pass_core n ha hr hf ⟨rfl, rfl, rfl⟩).2

end

/-- Settles O18: what is left of the beat passes, the count moves once, and the rest of the boundary moves neither the count
nor the local time. -/
theorem beatBoundaryCountsOne : Obligations.BeatBoundaryCountsOne := by
  unfold Obligations.BeatBoundaryCountsOne
  refine ⟨fun s env h => ?_, fun s env => exec_beatBoundary_unclocked, fun s => beatCount_wraps, fun s => beatCount_counts⟩
  have he := exec_beatBoundary_clocked (env := env) h
  obtain ⟨hb, ht⟩ := pass_clocked (s := begin_ s) (s.time.beatLen - s.time.beatPos) h
  have hs : Kept False (storesMark (some s.pending) none (some s.map) (some s.vault.slots)) s :=
    kept_storesMark (fun _ => Option.some.inj) nofun (fun _ => Option.some.inj) (fun _ => Option.some.inj)
  have hk := exec_next_stores (c := .beatBoundary env) hs (fun _ => rfl) (absurd · Bool.false_ne_true)
    (absurd · Bool.false_ne_true) he
  exact ⟨_, he, (boundary_beatCnt _ _).trans (congrArg (· + 1) hb), (boundary_ticks _ _).trans ht, hk.pending _ rfl,
    hk.slots _ rfl, hk.map _ rfl⟩

end Sys2Proof.Machine
end

section
namespace Sys2Proof.Machine

/-! ## gPTP domains (R142 to R146) -/

section
variable {s : State} {n : Fin 3} {m : SyncMsg}

theorem next_whenRunning_running (h : running s = true) (f : State → State) :
    Host.Outcome.next (whenRunning (begin_ s) f) = (.next (f (begin_ s)) : Host.Outcome State Fault Refusal) :=
  congrArg _ (whenRunning_running h f)

/-- The state of a domain after a Sync with an offset (R142, R144). -/
def syncedDom (s : State) (n : Fin 3) (o : Int) : Dom :=
  syncState (domOf s n) (decide (o.natAbs < fld s (R_TIME_D_SERVO + 0x40 * n.val) 0 16 * 65536))

theorem not_foreign_sync (h : syncFor s n m.num.toNat m.port = true) : ¬ (! syncFor (begin_ s) n m.num.toNat m.port) = true := by
  rw [show syncFor (begin_ s) n m.num.toNat m.port = syncFor s n m.num.toNat m.port from rfl, h]
  decide

/-- A Sync whose offset is beyond STEP_US steps the domain (R142). -/
theorem exec_syncReceived_steps (hr : running s = true) (hf : syncFor s n m.num.toNat m.port = true)
    (ho : m.offset.natAbs > fld s (R_TIME_D_SERVO + 0x40 * n.val) 16 16 * 65536000) :
    exec (.syncReceived n m) s = .next (
      let d := syncedDom s n m.offset
      pastByStep (begin_ s) (raise (orReg (setDom (begin_ s) n { d with t := domWrap ((d.t : Int) + m.offset) })
        (R_TIME_D_STAT + 0x40 * n.val) 0 0x10) .domStep) n) :=
  (next_whenRunning_running hr _).trans (congrArg _ ((if_neg (not_foreign_sync hf)).trans (if_pos ho)))

/-- A Sync within STEP_US gives the domain the servo's next rate (R142). -/
theorem exec_syncReceived_servo (hr : running s = true) (hf : syncFor s n m.num.toNat m.port = true)
    (ho : m.offset.natAbs ≤ fld s (R_TIME_D_SERVO + 0x40 * n.val) 16 16 * 65536000) :
    exec (.syncReceived n m) s = .next (setDom { begin_ s with fresh := s.fresh + 1 } n
      { syncedDom s n m.offset with rate := (Config.freeNat s.fresh % (2 * rateMax + 1) : Nat) - (rateMax : Int) }) :=
  (next_whenRunning_running hr _).trans (congrArg _ ((if_neg (not_foreign_sync hf)).trans (if_neg (Nat.not_lt.mpr ho))))

/-- The servo's range of rates is centred on zero. -/
theorem natAbs_mod_sub_le (k r : Nat) : ((k % (2 * r + 1) : Nat) - (r : Int)).natAbs ≤ r := by
  have := Nat.mod_lt k (show 2 * r + 1 > 0 by omega)
  omega

theorem exec_syncTimeout_holdover (hr : running s = true) (hd : (domOf s n).st = .locked ∨ (domOf s n).st = .acquire) :
    exec (.syncTimeout n false) s =
      .next (raise (setDom (begin_ s) n { domOf s n with st := .holdover, good := 0, holdTicks := 0 }) .holdEnter) := by
  have hoff : (domOf s n).st ≠ .off := by
    rintro e
    rw [e] at hd
    exact hd.elim nofun nofun
  exact (next_whenRunning_running hr _).trans (congrArg _ ((if_neg hoff).trans ((if_neg Bool.false_ne_true).trans (if_pos hd))))

theorem exec_syncTimeout_gm (hr : running s = true) (hoff : (domOf s n).st ≠ .off)
    (hg : bit s (R_TIME_D_CFG + 0x40 * n.val) 0 1 = true) :
    exec (.syncTimeout n true) s = .next (setDom (begin_ s) n { domOf s n with st := .gm, good := 0 }) :=
  (next_whenRunning_running hr _).trans (congrArg _ ((if_neg hoff).trans ((if_pos rfl).trans (if_pos hg))))

theorem exec_holdMsWrap_full (hr : running s = true) (hd : (domOf s n).st = .holdover) (hm : holdMs (domOf s n) = 2 ^ 32 - 1) :
    exec (.holdMsWrap n) s = .next (raise (setDom (begin_ s) n { domOf s n with holdTicks := 0 }) .holdWrap) :=
  (next_whenRunning_running hr _).trans (congrArg _ (if_pos ⟨hd, hm⟩))

theorem exec_timeNsRead_running (hr : running s = true) :
    exec (.timeNsRead n) s = .next { nsLatch (begin_ s) n with
      out := { (nsLatch (begin_ s) n).out with rdata := [BitVec.ofNat 32 ((domOf s n).t / 65536 % 1000000000)] } } :=
  next_whenRunning_running hr _

end

/-! ## Trigger channels (R147 to R151, R158) -/

section
variable {s : State} {c : Fin 32} {w : Sys2Proof.Word}

/-- A firing that is due in a channel that runs is carried out. -/
theorem exec_triggerFire_due (hr : trgRuns s c = true) (hd : trgDue s c = true) :
    exec (.triggerFire c) s = .next (trgFire (begin_ s) c) :=
  congrArg _ (if_pos (Bool.and_eq_true_iff.mpr ⟨hr, hd⟩))

theorem exec_triggerFire_early (hd : trgDue s c = false) : exec (.triggerFire c) s = .next (begin_ s) :=
  congrArg _ (if_neg fun e => by
    have hd' : trgDue (begin_ s) c = true := (Bool.and_eq_true_iff.mp e).2
    exact Bool.false_ne_true (hd.symm.trans hd'))

theorem trgFire_beaten (hb : trgBeaten s c = true) :
    trgFire s c = trgAdvance (statAddI (setPast s c false) (trg R_TRG_SKIP c) 0 (0 + 1)) c 0 := by
  unfold trgFire
  simp [hb]

theorem trgFire_onTime (hb : trgBeaten s c = false) (hp : tget false s.time.trgPast c = false) :
    trgFire s c = trgAdvance (statAddI (trgDo (trgMark (setPast s c false) c) c).2 (trg R_TRG_SKIP c) 0
      (0 + if (trgDo (trgMark (setPast s c false) c) c).1 then 0 else 1)) c 0 := by
  unfold trgFire
  simp [hb, hp]

theorem trgFire_late (hb : trgBeaten s c = false) (hp : tget false s.time.trgPast c = true) :
    trgFire s c = (
      let k := if trgPeriod s c ≠ 0 then trgAhead s c / trgPeriod s c else 0
      let x := trgDo (trgMark (setPast s c false) c) c
      let u := statAddI x.2 (trg R_TRG_SKIP c) 0 (k + if x.1 then 0 else 1)
      trgAdvance (raise (orReg u (trg R_TRG_STAT c) 0 2) .trgLate) c k) := by
  unfold trgFire
  simp [hb, hp]

/-- A write to TRGc_CFG by the normal world acts while the device runs. -/
theorem exec_trgcCfgWrite_running (hr : running s = true) : exec (.trgcCfgWrite c w) s = .next (trgCfgSet (begin_ s) c w) :=
  next_whenRunning_running hr _

theorem trgCfgSet_owned (h : trgOwned s c = true) : trgCfgSet s c w = s := if_pos h

/-- DOM and SEL of a write to TRGc_CFG (R158). -/
def trgNamed (s : State) (c : Nat) (w : Sys2Proof.Word) : State :=
  setFld (setFld s (trg R_TRG_CFG c) 20 2 (bitsOf w 20 2)) (trg R_TRG_CFG c) 8 12 (bitsOf w 8 12)

theorem trgCfgSet_reserved (h : trgOwned s c = false) (ha : 4 < bitsOf w 0 4) :
    trgCfgSet s c w = raise (trgNamed s c w) .reservedEnc :=
  (if_neg (by rw [h]; decide)).trans (if_pos ha)

theorem trgCfgSet_off (h : trgOwned s c = false) (ha : bitsOf w 0 4 = 0) :
    trgCfgSet s c w = setFld (trgNamed s c w) (trg R_TRG_CFG c) 0 4 0 := by
  unfold trgCfgSet trgNamed
  simp [h, ha]

theorem trgCfgSet_arms (h : trgOwned s c = false) (h1 : 1 ≤ bitsOf w 0 4) (h4 : bitsOf w 0 4 ≤ 4) :
    trgCfgSet s c w = trgArm (setFld (trgNamed s c w) (trg R_TRG_CFG c) 0 4 (bitsOf w 0 4)) c :=
  (if_neg (by rw [h]; decide)).trans ((if_neg (Nat.not_lt.mpr h4)).trans (if_neg (Nat.one_le_iff_ne_zero.mp h1)))

end

/-- Settles O20: each event meets the branch of its meaning that its premises name. -/
theorem domainsAndTriggers : Obligations.DomainsAndTriggers := by
  unfold Obligations.DomainsAndTriggers
  refine ⟨fun s n num p o hr hf ho => exec_syncReceived_steps hr hf ho,
    fun s n num p o hr hf ho => ⟨_, natAbs_mod_sub_le _ _, exec_syncReceived_servo hr hf ho⟩,
    fun s n hr hd => exec_syncTimeout_holdover hr hd, fun s n hr hoff hg => exec_syncTimeout_gm hr hoff hg,
    fun s n hr hd hm => exec_holdMsWrap_full hr hd hm, fun s n hr => exec_timeNsRead_running hr,
    fun s c hr hd hb hp => (exec_triggerFire_due hr hd).trans (congrArg _ (trgFire_onTime hb hp)),
    fun s c hr hd hb hp => (exec_triggerFire_due hr hd).trans (congrArg _ (trgFire_late hb hp)),
    fun s c hr hd hb => (exec_triggerFire_due hr hd).trans (congrArg _ (trgFire_beaten hb)),
    fun s c hd => exec_triggerFire_early hd,
    fun s c w hr ho => ⟨fun ha => ?_, fun ha => ?_, fun h1 h4 => ?_⟩,
    fun s c w hr ho => (exec_trgcCfgWrite_running hr).trans (congrArg _ (trgCfgSet_owned ho))⟩
  · exact (exec_trgcCfgWrite_running hr).trans (congrArg _ (trgCfgSet_reserved ho ha))
  · exact (exec_trgcCfgWrite_running hr).trans (congrArg _ (trgCfgSet_off ho ha))
  · exact (exec_trgcCfgWrite_running hr).trans (congrArg _ (trgCfgSet_arms ho h1 h4))

end Sys2Proof.Machine
end

section
namespace Sys2Proof.Machine

/-! ## Faults of a lane and its return (R162, R168, R175 to R180) -/

section
variable {s : State} {n : Fin 96} {c : Fin 10} {m : BitVec 9}

/-- A lane event that meets a clocked core has its effect. -/
theorem next_whenClocked_clocked (h : clocked s = true) (f : State → State) :
    Host.Outcome.next (whenClocked (begin_ s) f) = (.next (f (begin_ s)) : Host.Outcome State Fault Refusal) :=
  congrArg _ (if_pos ((clocked_begin s).trans h))

/-- In FAULT and in LATCHED the front-end of a lane is not on. -/
theorem laneOn_faulted {n : Nat} (h : (laneOf s n).st = .fault ∨ (laneOf s n).st = .latched) : laneOn s n = false := by
  unfold laneOn
  rcases h with h | h <;> rw [h] <;> rfl

theorem bnot_ne_true {b : Bool} (h : b = true) : (! b) ≠ true := ne_true_of_eq_false (congrArg Bool.not h)

theorem exec_laneProbeEnd_probing (hc : clocked s = true) (hs : (laneOf s n).st = .rxOnly) (hp : (laneOf s n).probe = true) :
    exec (.laneProbeEnd n) s = .next (setLane (begin_ s) n { laneOf s n with st := .active, probe := false }) :=
  (next_whenClocked_clocked hc _).trans (congrArg _ (if_pos ⟨hs, hp⟩))

/-- What a lane does as it enters FAULT, before a recurrence is counted (R176). -/
def faultEntered (s : State) (n code : Nat) : State :=
  raise (statIncI (setLane (flushLane (faultSeen s n code) n) n { laneOf (flushLane (faultSeen s n code) n) n with
    st := .fault, probe := false, swapPend := false, watch := false, cause := code }) R_LANE_FLT_CNT n) .laneFault

/-- A lane enters FAULT; the recurrence of the fault it returned from counts as a retry (R176, R179). -/
theorem laneFault_eq (s : State) (n code : Nat) :
    laneFault s n code = if (laneOf s n).watch = true ∧ (laneOf s n).cause = code then
      retryCount (faultEntered s n code) n else faultEntered s n code := by
  unfold laneFault faultEntered
  simp only [Bool.and_eq_true, decide_eq_true_eq]

theorem exec_laneFaultDetect_on (hc : clocked s = true) (hf : faultFits s n c = true) (ho : laneOn s n = true) :
    exec (.laneFaultDetect n c) s = .next (laneFault (begin_ s) n c) :=
  (next_whenClocked_clocked hc _).trans (congrArg _ ((if_neg (bnot_ne_true hf)).trans (if_pos ho)))

theorem exec_laneFaultDetect_faulted (hc : clocked s = true) (hf : faultFits s n c = true)
    (hs : (laneOf s n).st = .fault ∨ (laneOf s n).st = .latched) :
    exec (.laneFaultDetect n c) s = .next (faultSeen (begin_ s) n c) :=
  (next_whenClocked_clocked hc _).trans (congrArg _ ((if_neg (bnot_ne_true hf)).trans
    ((if_neg (ne_true_of_eq_false (laneOn_faulted hs))).trans (if_pos hs))))

theorem exec_laneOpenDetect_on (hc : clocked s = true) (ho : laneOn s n = true) (hp : pers s n = 1 ∨ pers s n = 3) :
    exec (.laneOpenDetect n) s = .next (raise (faultSeen (begin_ s) n 9) .laneFault) :=
  (next_whenClocked_clocked hc _).trans (congrArg _ (if_pos ⟨ho, hp⟩))

/-- A lane with SWAP_EN gives up the frame it sends and waits, receive-only, for its swap (R178). -/
def swapAwaited (s : State) (n : Nat) : State :=
  setLane (returnTx s n) n { laneOf (returnTx s n) n with st := .rxOnly, probe := false, swapPend := true }

/-- A reversal acts by the personality of a lane that is on (R178). -/
def reversed (s : State) (n : Nat) : State :=
  match pers s n with
  | 3 => faultSeen s n 8
  | 1 => if bit s R_LANE_CFG n 8 then swapAwaited (faultSeen s n 8) n else laneFault s n 8
  | _ => s

theorem exec_laneReversal_on (hc : clocked s = true) (ho : laneOn s n = true) :
    exec (.laneReversal n) s = .next (reversed (begin_ s) n) :=
  (next_whenClocked_clocked hc _).trans (congrArg _ (if_neg (bnot_ne_true ho)))

theorem reversed_t1s {n : Nat} (hp : pers s n = 3) : reversed s n = faultSeen s n 8 := by
  unfold reversed
  rw [hp]
  rfl

theorem reversed_can {n : Nat} (hp : pers s n = 1) :
    reversed s n = if bit s R_LANE_CFG n 8 then swapAwaited (faultSeen s n 8) n else laneFault s n 8 := by
  unfold reversed
  rw [hp]
  rfl

theorem exec_laneRoleSwap_pending (hc : clocked s = true) (hw : (laneOf s n).swapPend = true) :
    exec (.laneRoleSwap n) s = .next (laneToTarget (setLane (begin_ s) n { laneOf s n with
      swapped := true, swapPend := false, st := .rxOnly, probe := false, faults := (laneOf s n).faults &&& ~~~ 0x080 }) n) :=
  (next_whenClocked_clocked hc _).trans (congrArg _ (if_pos hw))

/-- The faults that a lane in FAULT meets while it observes itself (R179). -/
def faultsMet (s : State) (n : Nat) (m : BitVec 9) : State :=
  setLane (orReg s R_LANE_FLT n (m.setWidth 32)) n { laneOf s n with faults := m }

theorem exec_laneRetry_fault (hc : clocked s = true) (hs : (laneOf s n).st = .fault) :
    exec (.laneRetry n m) s = .next (
      if bb m ((laneOf s n).cause - 1) then retryCount (faultsMet (begin_ s) n m) n
      else laneToTarget (setLane (faultsMet (begin_ s) n m) n
        { laneOf (faultsMet (begin_ s) n m) n with st := .off, probe := false, watch := true }) n) :=
  (next_whenClocked_clocked hc _).trans (congrArg _ (if_neg (not_not_intro hs)))

theorem exec_laneFaultFree_on (hc : clocked s = true) (ho : laneOn s n = true) :
    exec (.laneFaultFree n) s =
      .next (setLane (begin_ s) n { laneOf s n with retries := 0, watch := false, faults := 0 }) :=
  (next_whenClocked_clocked hc _).trans (congrArg _ (if_pos ho))

theorem exec_busOffRecovery_busOff (hc : clocked s = true) (hs : (laneOf s n).st = .busOff) :
    exec (.busOffRecovery n) s =
      .next (laneToTarget (setLane (begin_ s) n { laneOf s n with st := .off, tec := 0, recErr := 0 }) n) :=
  (next_whenClocked_clocked hc _).trans (congrArg _ (if_pos hs))

/-- A LATCHED lane retries at once with RETRIES 0 (R180). -/
def laneRecovered (n : Nat) (s : State) : State :=
  if (laneOf s n).st = .latched then setLane s n { laneOf s n with st := .fault, retries := 0 } else s

theorem exec_laneRecover_granted {r : Req} {role : Nat} {l : BitVec 8} (h : Granted 0x0302 r role judgeInstaller s)
    (hl : l.toNat ≤ 95) :
    exec (.laneRecover r l) s = .next (ok 0x0302 r (laneRecovered l.toNat (admitted 0x0302 r role s)) []) :=
  congrArg _ (dispatch_do (laneRecovered l.toNat) h (by decide) (if_neg (Nat.not_lt.mpr hl)))

end

/-- Settles O25: each event meets a clocked core and the branch that its premises name; LANE_RECOVER passes the dispatcher. -/
theorem laneFaultsAndRecovery : Obligations.LaneFaultsAndRecovery := by
  unfold Obligations.LaneFaultsAndRecovery
  refine ⟨fun s n hc hs hp => exec_laneProbeEnd_probing hc hs hp,
    fun s n c hc hf ho => (exec_laneFaultDetect_on hc hf ho).trans (congrArg _ (laneFault_eq (begin_ s) n c)),
    fun _ _ _ => rfl, fun s n c hc hf hs => exec_laneFaultDetect_faulted hc hf hs,
    fun s n hc ho hp => exec_laneOpenDetect_on hc ho hp,
    fun s n hc ho hp => (exec_laneReversal_on hc ho).trans (congrArg _ (reversed_t1s (s := begin_ s) hp)),
    fun s n hc ho hp hw => (exec_laneReversal_on hc ho).trans (congrArg _ ((reversed_can (s := begin_ s) hp).trans (if_pos hw))),
    fun s n hc ho hp hw => (exec_laneReversal_on hc ho).trans
      (congrArg _ ((reversed_can (s := begin_ s) hp).trans (if_neg (ne_true_of_eq_false hw)))),
    fun s n hc hw => exec_laneRoleSwap_pending hc hw,
    fun s n m hc hs hm => (exec_laneRetry_fault hc hs).trans (congrArg _ (if_pos hm)), fun _ _ => rfl,
    fun s n m hc hs hm => (exec_laneRetry_fault hc hs).trans (congrArg _ (if_neg (ne_true_of_eq_false hm))),
    fun s n hc ho => exec_laneFaultFree_on hc ho, fun s n hc hs => exec_busOffRecovery_busOff hc hs,
    fun s r role l h hl => exec_laneRecover_granted h hl⟩

end Sys2Proof.Machine
end

section
namespace Sys2Proof.Machine

/-! ## PLCA, LIN headers and collisions (R163, R165, R199 to R201) -/

section
variable {s : State} {n : Fin 96}

theorem exec_plcaFallback_follower (hc : clocked s = true) (hf : plcaFollower s n = true) (ho : laneOn s n = true) :
    exec (.plcaFallback n) s = .next (setLane (begin_ s) n { laneOf s n with fallback := true }) :=
  (next_whenClocked_clocked hc _).trans (congrArg _ (if_pos (Bool.and_eq_true_iff.mpr ⟨hf, ho⟩)))

theorem exec_plcaBeacon_follower (hc : clocked s = true) (hf : plcaFollower s n = true) (ho : laneOn s n = true) :
    exec (.plcaBeacon n) s = .next (setLane (begin_ s) n { laneOf s n with fallback := false, backoff := false }) :=
  (next_whenClocked_clocked hc _).trans (congrArg _ (if_pos (Bool.and_eq_true_iff.mpr ⟨hf, ho⟩)))

/-- The slot of a lane's schedule whose header is next: the schedule begins again at its end (R163). -/
def linTurn (s : State) (n : Nat) : Nat :=
  if (laneOf s n).linSlot < 32 ∧ (linSlotOf s n (laneOf s n).linSlot).1 ≠ 0 then (laneOf s n).linSlot else 0

theorem exec_linHeader_due (hr : running s = true) (hp : pers s n = 2) (hm : bit s R_LANE_CFG n 5 = true)
    (ha : (laneOf s n).st = .active) (hk : (linSlotOf s n (linTurn s n)).1 ≠ 0) (hb : s.time.beatPos = 0)
    (hd : (laneOf s n).linNext ≤ s.time.ticks) :
    exec (.linHeader n) s = .next (
      let u := setLane (begin_ s) n { laneOf s n with
        linSlot := linTurn s n + 1,
        linNext := linStart (laneOf s n) s.time.ticks + (linSlotOf s n (linTurn s n)).1 * ticksPerMs,
        linId := some (linSlotOf s n (linTurn s n)).2 }
      { u with out := { u.out with line := [(n.val, 0, [BitVec.ofNat 8 (linPid (linSlotOf s n (linTurn s n)).2)])] } }) :=
  (next_whenRunning_running hr _).trans (congrArg _ (if_pos ⟨hp, hm, ha, hk, hb, hd⟩))

/-- A collision is counted at the port and as an error of the lane (R200). -/
def collided (s : State) (n : Nat) : State := statIncI (statIncI s R_PORT_COLL (16 + n)) R_LANE_ERRF n

/-- What follows a counted collision of a frame: it is dropped, retried at once under PLCA, or backs off (R199 to R201). -/
def collisionJudged (late : Bool) (u : State) (n : Nat) : State :=
  if late then dropTx (statIncI u R_PORT_LATE_COLL (16 + n)) n
  else if (laneOf u n).attempts + 1 ≥ fldi u R_PORT_CSMA (16 + n) 8 5 then dropTx (statIncI u R_PORT_EXC_COLL (16 + n)) n
  else if plcaLane u n && ! (laneOf u n).fallback then setLane u n { laneOf u n with attempts := (laneOf u n).attempts + 1 }
  else setLane u n { laneOf u n with
    attempts := (laneOf u n).attempts + 1, backoff := true, rng := Config.laneGen (laneOf u n).rng,
    backEnd := u.time.ticks + (Config.laneGen (laneOf u n).rng).toNat %
      2 ^ min ((laneOf u n).attempts + 1) (fldi u R_PORT_CSMA (16 + n) 0 4) * 12800 }

theorem exec_collision_sending (late : Bool) (hr : running s = true) (hp : pers s n = 3) (ha : (laneOf s n).st = .active)
    (ht : (egrOf s n).tx ≠ none) (hb : (laneOf s n).backoff = false) :
    exec (.collision n late) s = .next (collisionJudged late (collided (begin_ s) n) n) := by
  refine (next_whenRunning_running hr _).trans (congrArg _ (if_neg ?_))
  rintro (h | h | h | h)
  · exact h hp
  · exact h ha
  · exact ht h
  · exact ne_true_of_eq_false hb h

end

section
variable {u : State} {n : Nat}

theorem collisionJudged_excess (h : fldi u R_PORT_CSMA (16 + n) 8 5 ≤ (laneOf u n).attempts + 1) :
    collisionJudged false u n = dropTx (statIncI u R_PORT_EXC_COLL (16 + n)) n :=
  (if_neg (by decide)).trans (if_pos h)

theorem collisionJudged_plca (h : (laneOf u n).attempts + 1 < fldi u R_PORT_CSMA (16 + n) 8 5) (hp : plcaLane u n = true)
    (hf : (laneOf u n).fallback = false) :
    collisionJudged false u n = setLane u n { laneOf u n with attempts := (laneOf u n).attempts + 1 } :=
  (if_neg (by decide)).trans ((if_neg (Nat.not_le.mpr h)).trans (if_pos (by rw [hp, hf]; rfl)))

theorem collisionJudged_backoff (h : (laneOf u n).attempts + 1 < fldi u R_PORT_CSMA (16 + n) 8 5)
    (hp : plcaLane u n = false ∨ (laneOf u n).fallback = true) :
    collisionJudged false u n = setLane u n { laneOf u n with
      attempts := (laneOf u n).attempts + 1, backoff := true, rng := Config.laneGen (laneOf u n).rng,
      backEnd := u.time.ticks + (Config.laneGen (laneOf u n).rng).toNat %
        2 ^ min ((laneOf u n).attempts + 1) (fldi u R_PORT_CSMA (16 + n) 0 4) * 12800 } := by
  refine (if_neg (by decide)).trans ((if_neg (Nat.not_le.mpr h)).trans (if_neg ?_))
  rcases hp with hp | hf
  · rw [hp, Bool.false_and]
    decide
  · rw [hf, Bool.not_true, Bool.and_false]
    decide

/-- A frame whose gate is open and that fits may be retried (R302). -/
theorem retryFits_of_fits (h : ∀ q x f, (egrOf u n).tx = some (q, x) → frameOf u x.h = some f →
    gateOpen u n q = true ∧ fitsNow u n q f = true) : retryFits u n = true := by
  unfold retryFits
  split
  · rfl
  · rename_i q x ht
    split
    · rfl
    · rename_i f hf
      exact Bool.and_eq_true_iff.mpr (h q x f ht hf)

end

theorem exec_backoffExpiry_over {s : State} {n : Fin 96} (hr : running s = true) (hb : (laneOf s n).backoff = true)
    (he : (laneOf s n).backEnd ≤ s.time.ticks) (hf : retryFits s n = true) :
    exec (.backoffExpiry n) s = .next (setLane (begin_ s) n { laneOf s n with backoff := false }) :=
  (next_whenRunning_running hr _).trans (congrArg _ (if_pos ⟨hb, he, hf⟩))

/-- Settles O26: each event meets its branch; a collision is counted, and then judged by its own kind and number. -/
theorem laneTiming : Obligations.LaneTiming := by
  unfold Obligations.LaneTiming
  refine ⟨fun s n hc hf ho => ⟨exec_plcaFallback_follower hc hf ho, exec_plcaBeacon_follower hc hf ho⟩,
    fun s n hr hp hm ha hk hb hd => exec_linHeader_due hr hp hm ha hk hb hd, fun s n hr hp ha ht hb => ?_,
    fun s n hr hb he hf => exec_backoffExpiry_over hr hb he (retryFits_of_fits hf)⟩
  have hj : ∀ late, exec (.collision n late) s = .next (collisionJudged late (collided (begin_ s) n) n) :=
    fun late => exec_collision_sending late hr hp ha ht hb
  exact ⟨hj true, fun h => (hj false).trans (congrArg _ (collisionJudged_excess h)),
    fun h hp hf => (hj false).trans (congrArg _ (collisionJudged_plca h hp hf)),
    fun h hp => (hj false).trans (congrArg _ (collisionJudged_backoff h hp))⟩

end Sys2Proof.Machine
end

section
namespace Sys2Proof.Machine

/-! ## The scheduler's pick (R298, R299, R306, R307) -/

section
variable {s u : State} {e : Nat}

theorem pickStart_notReady (h : egrReady s e = false) : pickStart s e = s := if_pos (by rw [h]; rfl)

theorem pickStart_serves {q i : Nat} (h : egrReady s e = true) (hp : pick (dropOversize s e) e = (some q, u))
    (hi : eligible u e q = some i) : pickStart s e = serve u e q i := by
  unfold pickStart
  rw [if_neg (bnot_ne_true h)]
  dsimp only
  rw [hp]
  dsimp only
  rw [hi]

/-- A frame that needs no resequencing is started where its queue is served (R265). -/
theorem serve_starts {q i : Nat} {x : QEnt} {f : Frame} (hx : (queueOf u e q)[i]? = some x) (hf : frameOf u x.h = some f)
    (hr : needsRsq x f = false) : serve u e q i = startTx u e q i := by
  unfold serve
  rw [hx]
  dsimp only
  rw [hf]
  dsimp only
  rw [hr]
  rfl

/-- A frame that has not paid yet takes its token and its credit (R296, R299). -/
def paidFor (x : QEnt) (e q : Nat) (s : State) : State :=
  if x.paid then s
  else
    let s := if shRate s e q = 0 ∨ e ≥ 104 then s
      else setFldi s (R_SCH_Q_BURST + 8 * q) e 16 16 (fldi s (R_SCH_Q_BURST + 8 * q) e 16 16 - 1)
    if qSp s e q then s else setEgr (setSpent s e q (spent s e q + 1)) e { egrOf s e with last := q }

/-- The bytes of a frame go to the line, and the egress is in transmission. -/
def sending (x : QEnt) (f : Frame) (e q : Nat) (s : State) : State :=
  let (k, s) := draw s
  let b := lineBytes s e k f
  let s := setEgr s e { egrOf s e with tx := some (q, { x with paid := true }), sent := b, cap := captureNow s }
  let s := if clusterPort s e then { s with hlb := { s.hlb with seq := s.hlb.seq + 1 } } else s
  { s with out := { s.out with line := s.out.line ++ [(e, f.xform, wireBytes s e f b)] } }

/-- A cluster's port forwards to a peer, or the port is no cluster's (R545). -/
theorem not_forwardDropped (h : clusterPort u e = false ∨ (forwardPeer u e).isSome = true) :
    ¬ (clusterPort u e && (forwardPeer u e).isNone) = true := by
  rcases h with h | h
  · rw [h, Bool.false_and]
    decide
  · rw [Option.isNone_eq_false_iff.mpr h, Bool.and_false]
    decide

/-- A start removes the entry, and drops a frame without its peer or pays for it and sends it. -/
theorem startTx_eq (u : State) (e q i : Nat) : startTx u e q i =
    match (queueOf u e q)[i]? with
    | none => u
    | some x =>
      match frameOf u x.h with
      | none => u
      | some f =>
        let s := removeEnt u e q x.h
        if clusterPort s e && (forwardPeer s e).isNone then statInc (dropAt s e x.h) R_HLB_FWD_DROP
        else sending x f e q (bypassed (paidFor x e q s) e q i) := rfl

theorem startTx_sends {q i : Nat} {x : QEnt} {f : Frame} (hx : (queueOf u e q)[i]? = some x) (hf : frameOf u x.h = some f)
    (hc : clusterPort u e = false ∨ (forwardPeer u e).isSome = true) :
    startTx u e q i = sending x f e q (bypassed (paidFor x e q (removeEnt u e q x.h)) e q i) := by
  rw [startTx_eq, hx]
  dsimp only
  rw [hf]
  exact if_neg (not_forwardDropped (u := removeEnt u e q x.h) hc)

@[simp] theorem paidFor_queues (x : QEnt) (e q : Nat) (s : State) : (paidFor x e q s).net.queues = s.net.queues := by
  unfold paidFor
  dsimp only
  by_cases hp : x.paid = true
  · rw [if_pos hp]
  · rw [if_neg hp]
    by_cases hr : shRate s e q = 0 ∨ e ≥ 104
    · rw [if_pos hr]
      split <;> rfl
    · rw [if_neg hr]
      split <;> rfl

@[simp] theorem bypassed_queues (s : State) (e q i : Nat) : (bypassed s e q i).net.queues = s.net.queues := by
  unfold bypassed
  split <;> rfl

@[simp] theorem sending_queues (x : QEnt) (f : Frame) (e q : Nat) (s : State) :
    (sending x f e q s).net.queues = s.net.queues := by
  unfold sending
  dsimp only
  split <;> rfl

theorem egrOf_setEgr_sends (s : State) (e : Nat) {x : Egr} (h : x.tx ≠ none) : egrOf (setEgr s e x) e = x :=
  tget_tset_ne e x fun hx => h (congrArg Egr.tx hx)

theorem sending_tx (x : QEnt) (f : Frame) (e q : Nat) (s : State) :
    (egrOf (sending x f e q s) e).tx = some (q, { x with paid := true }) := by
  have h : ∀ b k, (egrOf (setEgr s e { egrOf s e with tx := some (q, { x with paid := true }), sent := b, cap := k }) e).tx =
      some (q, { x with paid := true }) := fun b k => congrArg Egr.tx (egrOf_setEgr_sends s e (Option.some_ne_none _))
  unfold sending
  dsimp only
  split <;> exact h _ _

theorem exec_launchTimeReached_due {s : State} {e : Fin 104} {q : Fin 8} {x : QEnt} {t : List QEnt} (hr : running s = true)
    (hq : queueOf s e q = x :: t) (hl : x.launch.isSome = true) (hd : launchDue s x.launch = true) :
    exec (.launchTimeReached e q) s = .next (pickStart (begin_ s) e) := by
  rw [exec_launchTimeReached]
  unfold execLaunchTimeReached
  rw [next_whenRunning_running hr, queueOf_begin, hq]
  exact congrArg _ (if_pos (Bool.and_eq_true_iff.mpr ⟨hl, hd⟩))

/-- The only frame of a queue misses its launch time: it is sent without it, or dropped (R307). -/
theorem launchMisses_only {q : Nat} {x : QEnt} (he : e < 104) (hq : queueOf s e q = [x])
    (hm : launchMissed s x.launch = true) :
    launchMisses s e q = if bit s R_SCH_LAUNCH 0 31 then
        statIncI (setQueue s e q [{ x with launch := none }]) R_SCH_LAUNCH_LATE e
      else statIncI (dropAt (setQueue s e q []) e x.h) R_SCH_LAUNCH_MISS e := by
  have hmap : [x].map (fun y => if y.h = x.h then { y with launch := none } else y) = [{ x with launch := none }] :=
    congrArg (fun y => [y]) (if_pos rfl)
  have hrem : removeEnt s e q x.h = setQueue s e q [] := by
    unfold removeEnt
    rw [hq, List.filter_singleton, decide_eq_false (not_not_intro rfl), cond_false]
  unfold launchMisses
  rw [if_neg (Nat.not_le.mpr he), hq, List.filter_singleton, hm, cond_true, List.foldl_cons, List.foldl_nil, hq, hmap, hrem]

/-! ## The end of a transmission (R162, R269, R299, R586) -/

/-- A frame and its octets in the counters of an Ethernet egress. -/
def macCounted (e n : Nat) (s : State) : State :=
  stat2AddI (stat2AddI s R_PORT_TXF (portIdx e) 1) R_PORT_TXO (portIdx e) (if e = 105 then n else ethOctets n)

/-- A CAN lane takes note of a frame transmitted without error (R162). -/
def canNoted (e : Nat) (f : Option Frame) (s : State) : State :=
  if pers s e = 1 then tdcMeasure (canTxGood s e) e f else s

/-- A T1S lane counts as an Ethernet egress too. -/
def t1sCounted (e n : Nat) (s : State) : State := if pers s e = 3 then macCounted e n s else s

/-- A frame in the counters of a lane, by its personality. -/
def laneCounted (e n : Nat) (f : Option Frame) (s : State) : State :=
  t1sCounted e n (canNoted e f (stat2AddI s R_LANE_TXF e 1))

/-- A frame in the counters of the lane or the port that sends it. -/
def egrCounted (e n : Nat) (f : Option Frame) (s : State) : State :=
  if e < 96 then laneCounted e n f s else macCounted e n s

/-- The attempts at a frame are over when it has been sent (R200). -/
def attemptsOver (e : Nat) (s : State) : State :=
  if e < 96 then setLane s e { laneOf s e with attempts := 0 } else s

/-- A frame that has been sent is counted, and a lane's attempts are over. -/
def sentCounted (e n : Nat) (f : Option Frame) (s : State) : State := attemptsOver e (egrCounted e n f s)

/-- What of a sent frame comes back to a target in a loopback `l` (R586). -/
def loopedContent (l : Nat) (f : Option Frame) (sent : List Byte) (cv : Bool) (back : Content) : Option Content :=
  match f with
  | some f =>
    if l = 0 then none else if f.xform ≠ 0 then (if cv then some back else none) else match f.content with
      | .eth _ => some (.eth sent)
      | c => some c
  | none => none

/-- What comes back is a new ingress. -/
def comesBack (e : Fin 106) (o : Option Content) (t : State) : State :=
  match o with
  | some c => receive t
      { ing := e, content := c, ok := true, stuck := none, pipe := 0, colour := 0, launch := none, prof := none, lock := none }
  | none => t

theorem execFrameTransmitEnd_eq (e : Fin 106) (cv : Bool) (back : Content) (s : State) :
    execFrameTransmitEnd e cv back s = .next (whenRunning (begin_ s) fun s =>
      match (egrOf s e).tx with
      | none => s
      | some (_, x) =>
        if e.val < 96 ∧ (laneOf s e).backoff then s
        else
          let u := sentCounted e (egrOf s e).sent.length (frameOf s x.h) s
          comesBack e (loopedContent (loopOf u e) (frameOf s x.h) (egrOf s e).sent cv back)
            (releaseRef (setEgr u e { egrOf u e with tx := none, sent := [] }) x.h)) := rfl

@[simp] theorem stat2AddI_net (s : State) (a i n : Nat) : (stat2AddI s a i n).net = s.net :=
  stat2AddI_part State.net (fun _ _ _ _ => rfl) s a i n

@[simp] theorem macCounted_net (e n : Nat) (s : State) : (macCounted e n s).net = s.net :=
  (stat2AddI_net _ _ _ _).trans (stat2AddI_net _ _ _ _)

/-- A measurement of the loop delay shows in its lane and takes a free value: any part of the state that sees neither is as
it was. -/
theorem tdcMeasure_part {α : Type} (g : State → α) (hg : ∀ u l k, g { u with lanes := l, fresh := k } = g u) (s : State)
    (n : Nat) (f : Option Frame) : g (tdcMeasure s n f) = g s :=
  (apply_ite g _ _ _).trans ((congrArg (ite _ · _) (hg s _ _)).trans (ite_self _))

@[simp] theorem canNoted_net (e : Nat) (f : Option Frame) (s : State) : (canNoted e f s).net = s.net := by
  unfold canNoted
  split
  · exact tdcMeasure_part State.net (fun _ _ _ => rfl) _ e f
  · rfl

@[simp] theorem t1sCounted_net (e n : Nat) (s : State) : (t1sCounted e n s).net = s.net := by
  unfold t1sCounted
  split
  · exact macCounted_net e n s
  · rfl

@[simp] theorem egrCounted_net (e n : Nat) (f : Option Frame) (s : State) : (egrCounted e n f s).net = s.net := by
  unfold egrCounted laneCounted
  split
  · rw [t1sCounted_net, canNoted_net, stat2AddI_net]
  · exact macCounted_net e n s

@[simp] theorem sentCounted_net (e n : Nat) (f : Option Frame) (s : State) : (sentCounted e n f s).net = s.net := by
  unfold sentCounted attemptsOver
  split <;> exact egrCounted_net e n f s

theorem pers_eq_of_rf {s t : State} (h : t.rf = s.rf) (n : Nat) : pers t n = pers s n := by
  unfold pers fldi rdi
  rw [h]

theorem canNoted_pers (e : Nat) (f : Option Frame) (s : State) : pers (canNoted e f s) e = pers s e := by
  unfold canNoted
  split
  · exact pers_eq_of_rf (tdcMeasure_part State.rf (fun _ _ _ => rfl) _ e f) e
  · rfl

theorem pers_wri_other (s : State) {a i n : Nat} (v : Word) (h : regKey R_LANE_CFG n ≠ regKey a i) :
    pers (wri s a i v) n = pers s n :=
  congrArg (bitsOf · 0 2) (rdi_wri_other s v h)

/-- The counts of a lane are no configuration of it. -/
theorem pers_stat2AddI_txf (s : State) {e : Nat} (he : e < 96) : pers (stat2AddI s R_LANE_TXF e 1) e = pers s e := by
  have hne : ∀ a, a ≠ R_LANE_CFG → regKey R_LANE_CFG e ≠ regKey a e := fun a ha hk =>
    ha (regKey_inj (by omega) (by omega) hk).1.symm
  unfold stat2AddI
  dsimp only
  split
  · rfl
  · split <;> rw [pers_wri_other _ _ (hne _ (by decide)), pers_wri_other _ _ (hne _ (by decide))]

/-- A lane counts by the personality that it had. -/
theorem laneCounted_eq {e : Nat} (he : e < 96) (n : Nat) (f : Option Frame) (s : State) :
    laneCounted e n f s =
      let v := stat2AddI s R_LANE_TXF e 1
      let w := if pers s e = 1 then tdcMeasure (canTxGood v e) e f else v
      if pers s e = 3 then macCounted e n w else w := by
  have hp : pers (stat2AddI s R_LANE_TXF e 1) e = pers s e := pers_stat2AddI_txf s he
  have hc : canNoted e f (stat2AddI s R_LANE_TXF e 1) = if pers s e = 1 then
      tdcMeasure (canTxGood (stat2AddI s R_LANE_TXF e 1) e) e f else stat2AddI s R_LANE_TXF e 1 := by
    unfold canNoted
    rw [hp]
  unfold laneCounted t1sCounted
  rw [canNoted_pers, hp, hc]

theorem sentCounted_eq (e n : Nat) (f : Option Frame) (s : State) :
    sentCounted e n f s = if e < 96 then
        let v := stat2AddI s R_LANE_TXF e 1
        let w := if pers s e = 1 then tdcMeasure (canTxGood v e) e f else v
        let y := if pers s e = 3 then macCounted e n w else w
        setLane y e { laneOf y e with attempts := 0 }
      else macCounted e n s := by
  unfold sentCounted attemptsOver egrCounted
  by_cases he : e < 96
  · rw [if_pos he, if_pos he, if_pos he, laneCounted_eq he]
  · rw [if_neg he, if_neg he, if_neg he]

theorem loopedContent_noLoop (f : Option Frame) (sent : List Byte) (cv : Bool) (back : Content) :
    loopedContent 0 f sent cv back = none := by
  cases f <;> rfl

theorem loopedContent_loop {l : Nat} {f : Frame} {sent : List Byte} {cv : Bool} {back c : Content} (hl : l ≠ 0)
    (h : (f.xform ≠ 0 ∧ cv = true ∧ back = c) ∨ (f.xform = 0 ∧ f.content = c ∧ ∀ b, c ≠ .eth b) ∨
      (f.xform = 0 ∧ (∃ b, f.content = .eth b) ∧ c = .eth sent)) :
    loopedContent l (some f) sent cv back = some c := by
  refine (if_neg hl).trans ?_
  rcases h with ⟨hx, hcv, hb⟩ | ⟨hx, hc, hn⟩ | ⟨hx, ⟨b, hb⟩, hc⟩
  · rw [if_pos hx, hcv, hb]
    rfl
  · rw [if_neg (not_not_intro hx), hc]
    cases c with
    | eth b => exact absurd rfl (hn b)
    | _ => rfl
  · rw [if_neg (not_not_intro hx), hb, hc]

/-- A frame that has been sent is counted, leaves its egress and gives up its cells (R269). -/
def transmitted (s : State) (e : Nat) (x : QEnt) : State :=
  releaseRef (setEgr (sentCounted e (egrOf s e).sent.length (frameOf s x.h) s) e { egrOf s e with tx := none, sent := [] }) x.h

theorem exec_frameTransmitEnd_sent {s : State} {e : Fin 106} {q : Nat} {x : QEnt} (cv : Bool) (back : Content)
    (hr : running s = true) (ht : (egrOf s e).tx = some (q, x)) (hb : e.val < 96 → (laneOf s e).backoff = false) :
    exec (.frameTransmitEnd e cv back) s = .next (comesBack e
      (loopedContent (loopOf s e) (frameOf s x.h) (egrOf s e).sent cv back) (transmitted (begin_ s) e x)) := by
  have hn : (sentCounted e (egrOf s e).sent.length (frameOf s x.h) (begin_ s)).net = s.net := sentCounted_net _ _ _ _
  have hg : egrOf (sentCounted e (egrOf s e).sent.length (frameOf s x.h) (begin_ s)) e = egrOf s e :=
    congrArg (fun t : Net => tget Egr.init t.egrs e) hn
  have hl : loopOf (sentCounted e (egrOf s e).sent.length (frameOf s x.h) (begin_ s)) e = loopOf s e :=
    congrArg (fun t : Net => tget 0 t.loop e) hn
  rw [exec_frameTransmitEnd, execFrameTransmitEnd_eq, next_whenRunning_running hr, egrOf_begin, ht]
  dsimp only
  rw [if_neg fun h => ne_true_of_eq_false (hb h.1) h.2, frameOf_begin, hg, hl]
  rfl

theorem exec_canArbitrationEnd_sending {s : State} {n : Fin 96} (b : Bool) (hr : running s = true) (hp : pers s n = 1)
    (ht : (egrOf s n).tx.isSome = true) :
    exec (.canArbitrationEnd n b) s =
      .next (if b && ! txFast s n then canTxError (returnTx (begin_ s) n) n else returnTx (begin_ s) n) :=
  (next_whenRunning_running hr _).trans (congrArg _ (if_pos ⟨hp, ht⟩))

theorem returnTx_sending {s : State} {e q : Nat} {x : QEnt} (h : (egrOf s e).tx = some (q, x)) :
    returnTx s e = setQueue (setEgr s e { egrOf s e with tx := none }) e q (x :: queueOf s e q) := by
  unfold returnTx
  rw [h]
  rfl

theorem queueOf_setQueue_cons (s : State) (e q : Nat) (x : QEnt) (l : List QEnt) :
    queueOf (setQueue s e q (x :: l)) e q = x :: l :=
  tget_tset_ne _ _ (List.cons_ne_nil x l)

end

/-! ## LIN responses (R164, R300) -/

section
variable {s : State} {n : Fin 96} {id : Fin 64} {rate : BitVec 16} {missing : Bool}

/-- A commander that heard a response, or missed it, awaits none. -/
def linCleared (s : State) (n : Nat) : State :=
  if bit s R_LANE_CFG n 5 then setLane s n { laneOf s n with linId := none } else s

/-- A lane answers a published identifier, and counts the missing response of a subscribed one. -/
def linServed (u : State) (n id : Nat) (x : BitVec 53) (missing : Bool) : State :=
  if ! bb x 0 then u
  else if bb x 48 then (if (laneOf u n).st = .active ∧ (egrOf u n).tx = none then linAnswer u n id else u)
  else if missing then statIncI u R_LANE_NORESP n else u

theorem exec_linResponse_heard (hr : running s = true) (hp : pers s n = 2) (ho : laneOn s n = true)
    (hm : bit s R_LANE_CFG n 5 = true ∨ linRateOk s n rate.toNat = true) :
    exec (.linResponse n id rate missing) s =
      .next (linServed (linCleared (begin_ s) n) n id (linEntry s n id) missing) := by
  refine (next_whenRunning_running hr _).trans (congrArg _ (if_neg ?_))
  rintro (h | h | ⟨h5, hk⟩)
  · exact h hp
  · exact bnot_ne_true ho h
  · exact hm.elim (fun h => bnot_ne_true h h5) fun h => bnot_ne_true h hk

theorem exec_linResponse_otherRate (hr : running s = true) (hm : bit s R_LANE_CFG n 5 = false)
    (hk : linRateOk s n rate.toNat = false) : exec (.linResponse n id rate missing) s = .next (begin_ s) :=
  (next_whenRunning_running hr _).trans (congrArg _ (if_pos (.inr (.inr ⟨congrArg Bool.not hm, congrArg Bool.not hk⟩))))

end

section
variable {u : State} {n id : Nat} {x : BitVec 53}

@[simp] theorem linCleared_net (u : State) (n : Nat) : (linCleared u n).net = u.net := by
  unfold linCleared
  split <;> rfl

/-- A lane that is not OFF is no unlisted lane of the table. -/
theorem laneOf_setLane_on (s : State) (n : Nat) {x : Lane} (h : x.st ≠ .off) : laneOf (setLane s n x) n = x :=
  tget_tset_ne n x fun hx => h (congrArg Lane.st hx)

theorem linCleared_active (h : (laneOf u n).st = .active) : (laneOf (linCleared u n) n).st = .active := by
  unfold linCleared
  split
  · rw [laneOf_setLane_on]
    · exact h
    · dsimp only
      rw [h]
      decide
  · exact h

theorem linServed_published (missing : Bool) (h0 : bb x 0 = true) (h48 : bb x 48 = true) (hs : (laneOf u n).st = .active)
    (ht : (egrOf u n).tx = none) : linServed u n id x missing = linAnswer u n id :=
  (if_neg (bnot_ne_true h0)).trans ((if_pos h48).trans (if_pos ⟨hs, ht⟩))

theorem linServed_subscribed (missing : Bool) (h0 : bb x 0 = true) (h48 : bb x 48 = false) :
    linServed u n id x missing = if missing then statIncI u R_LANE_NORESP n else u :=
  (if_neg (bnot_ne_true h0)).trans (if_neg (ne_true_of_eq_false h48))

theorem linAnswer_oldest {h q i : Nat} {y : QEnt} {f : Frame} (ho : linOldest u n id = some (h, q, i))
    (hy : (queueOf u n q)[i]? = some y) (hf : frameOf u h = some f) (hr : needsRsq y f = false) :
    linAnswer u n id = startTx (setPaid u n q i) n q i := by
  unfold linAnswer
  rw [ho]
  dsimp only
  rw [hy, hf]
  exact if_pos (congrArg Bool.not hr)

end

/-- Settles O52: each event meets its branch. A frame that starts leaves its queue and stands in the egress; a frame that ends
is counted by the personality of its lane, which the counts do not move. -/
theorem egressStartsAndEndsFrames : Obligations.EgressStartsAndEndsFrames := by
  unfold Obligations.EgressStartsAndEndsFrames
  refine ⟨fun s e hr hn => (next_whenRunning_running hr _).trans (congrArg _ (pickStart_notReady hn)),
    fun s u e q i hr hn hp hi => (next_whenRunning_running hr _).trans (congrArg _ (pickStart_serves hn hp hi)),
    fun u e q i x f hx hf hs hc => ?_, fun s e q x cv back hr ht hb => ?_,
    fun s n b hr hp ht => exec_canArbitrationEnd_sending b hr hp ht,
    fun s e q x ht => ⟨?_, returnTx_sending ht⟩,
    fun s e q x t hr hq hl hd => exec_launchTimeReached_due hr hq hl hd,
    fun s e q x hr hq hm => (next_whenRunning_running hr _).trans (congrArg _ (launchMisses_only e.isLt hq hm)),
    fun s n id rate missing hr hp ho hm h0 => ⟨fun h48 hs ht => ?_, fun h48 => ?_, fun h48 => ?_⟩,
    fun s n id rate missing hr _ hm hk => exec_linResponse_otherRate hr hm hk,
    fun s n id h q i x f ho hx hf hr => linAnswer_oldest ho hx hf hr⟩
  · rw [serve_starts hx hf hs, startTx_sends hx hf hc]
    refine ⟨sending_tx _ _ _ _ _, ?_⟩
    rw [sending_queues, bypassed_queues, paidFor_queues]
    rfl
  · intro n mac u t
    have hu : u = sentCounted e n (frameOf s x.h) (begin_ s) := (sentCounted_eq e n (frameOf s x.h) (begin_ s)).symm
    have hend : exec (.frameTransmitEnd e cv back) s =
        .next (comesBack e (loopedContent (loopOf s e) (frameOf s x.h) (egrOf s e).sent cv back) t) := by
      rw [show t = transmitted (begin_ s) e x from
        congrArg (fun v => releaseRef (setEgr v e { egrOf s e with tx := none, sent := [] }) x.h) hu]
      exact exec_frameTransmitEnd_sent cv back hr ht hb
    refine ⟨fun hl => ?_, fun f c hl hf hc => ?_⟩
    · rw [hend, hl, loopedContent_noLoop]
      rfl
    · rw [hend, hf, loopedContent_loop hl hc]
      rfl
  · rw [returnTx_sending ht]
    exact queueOf_setQueue_cons _ _ _ _ _
  · have ht' : (egrOf (linCleared (begin_ s) n) n).tx = none :=
      (congrArg (fun t : Net => (tget Egr.init t.egrs n).tx) (linCleared_net _ _)).trans ht
    exact (exec_linResponse_heard hr hp ho hm).trans
      (congrArg _ (linServed_published missing h0 h48 (linCleared_active hs) ht'))
  · exact (exec_linResponse_heard hr hp ho hm).trans (congrArg _ (linServed_subscribed true h0 h48))
  · exact (exec_linResponse_heard hr hp ho hm).trans (congrArg _ (linServed_subscribed false h0 h48))

end Sys2Proof.Machine
end

section
namespace Sys2Proof.Machine

/-! ## Link of a port, and the pause that it receives and sends (R191 to R195, R206 to R210) -/

section
variable {s : State}

theorem exec_portUpDelay_waiting {p : Fin 4} (hr : running s = true) (hw : (portOf s p).upWait = true) :
    exec (.portUpDelay p) s = .next (
      let u := setPort (begin_ s) p { portOf s p with upWait := false }
      if portTarget u p then portUp u p else u) :=
  (next_whenRunning_running hr _).trans (congrArg _ (if_pos hw))

theorem exec_phyInt_running {n : Fin 4} (hr : running s = true) :
    exec (.phyInt n) s = .next (mdioOut (begin_ s) n .status) :=
  next_whenRunning_running hr _

/-- The speed of a port follows from auto-negotiation (R194). -/
def linkNegotiates (s : State) (p : Nat) : Bool :=
  bit s R_PORT_CFG p 8 && (decide (fldi s R_PORT_CFG p 16 4 = 1) || decide (fldi s R_PORT_CFG p 16 4 = 4))

/-- A port with link shows its speed and whether it was negotiated (R194). -/
def linkGained (s : State) (p partner : Nat) : State :=
  raise (setFldi (setFldi (orReg s R_PORT_STAT p 2) R_PORT_STAT p 4 3 (linkSpeed s p partner))
    R_PORT_STAT p 8 1 (b2n (linkNegotiates s p))) .linkChange

variable {p b : Fin 8} {sp : Fin 6}

theorem exec_linkChange_gained (hr : running s = true) (hu : bit s R_PORT_STAT p 0 = true) (hl : bit s R_PORT_STAT p 1 = false) :
    exec (.linkChange p true sp) s = .next (linkGained (begin_ s) p sp) :=
  (next_whenRunning_running hr _).trans (congrArg _ ((if_neg (bnot_ne_true hu)).trans
    ((if_pos rfl).trans (if_neg (ne_true_of_eq_false hl)))))

theorem exec_linkChange_lost (hr : running s = true) (hu : bit s R_PORT_STAT p 0 = true) (hl : bit s R_PORT_STAT p 1 = true)
    (ho : loopOf s (96 + p.val) = 0) : exec (.linkChange p false sp) s = .next (linkLost (begin_ s) p) :=
  (next_whenRunning_running hr _).trans (congrArg _ ((if_neg (bnot_ne_true hu)).trans
    ((if_neg Bool.false_ne_true).trans (if_pos (Bool.and_eq_true_iff.mpr ⟨hl, decide_eq_true ho⟩)))))

/-- The MAC takes a pause frame of 64 octets as a received frame, unless every scope it would pause ignores it (R209). -/
def pauseTaken (s : State) (p : Nat) (pfc : Bool) (en : BitVec 8) : State :=
  if pauseIgnored s p pfc en then s else stat2AddI (stat2AddI s R_PORT_RXF p 1) R_PORT_RXO p 64

theorem exec_pauseReceived_linked {pfc : Bool} {en : BitVec 8} {q : List (BitVec 16)} (hr : running s = true)
    (hl : portLink s p = true) :
    exec (.pauseReceived p pfc en q) s =
      .next (pauseFrame (pauseTaken (begin_ s) p pfc en) p pfc en (q.map BitVec.toNat)) :=
  (next_whenRunning_running hr _).trans (congrArg _ (if_pos hl))

/-- A pause frame is counted, and acts by the mode of the port (R206, R207). -/
theorem pauseFrame_eq (s : State) (p : Nat) (pfc : Bool) (en : BitVec 8) (q : List Nat) :
    pauseFrame s p pfc en q = (
      let v := statIncI s R_PORT_RX_PAUSE p
      if pmode v p = 1 ∧ pfc = false then pauseScope v p 0 (q.getD 0 0)
      else if pmode v p = 2 ∧ pfc = true then
        ((List.range 8).filter fun b => en.getLsbD b && bit v R_PORT_PAUSE_CFG p (24 + b)).foldl
          (fun s b => pauseScope s p b (q.getD b 0)) v
      else v) := by
  unfold pauseFrame
  simp only [Bool.not_eq_true]

theorem exec_pauseIgnoreEnd_received (hr : running s = true) :
    exec (.pauseIgnoreEnd p b false) s = .next (clrReg (begin_ s) R_PORT_PAUSE_IGN p (fieldMask b 1)) :=
  (next_whenRunning_running hr _).trans (congrArg _ (if_pos rfl))

/-- The quiet period of a scope is over (R210). -/
def quietOver (s : State) (p b : Nat) : State :=
  setPort s p { portOf s p with txQuiet := (portOf s p).txQuiet &&& ~~~ BitVec.ofNat 8 (2 ^ b) }

/-- At the end of a quiet period a scope whose flow control is still asserted is paused again (R210). -/
theorem exec_pauseIgnoreEnd_sent (hr : running s = true) (hq : bb (portOf s p).txQuiet b = true) :
    exec (.pauseIgnoreEnd p b true) s = .next (
      if bb (tget 0 s.net.fcAss p) b then
        sendPause (orReg (quietOver (begin_ s) p b) R_PORT_PAUSE_STAT p (fieldMask (8 + b) 1)) p b (fldi s R_PORT_PAUSE_CFG p 0 16)
      else quietOver (begin_ s) p b) :=
  (next_whenRunning_running hr _).trans (congrArg _ ((if_neg (by decide)).trans (if_neg (bnot_ne_true hq))))

theorem exec_pauseWdRx_paused (hr : running s = true) (hs : bit s R_PORT_PAUSE_STAT p b = true) :
    exec (.pauseWdRx p b) s = .next (
      let u := orReg (clrReg (begin_ s) R_PORT_PAUSE_STAT p (fieldMask b 1)) R_PORT_PAUSE_STAT p (fieldMask (16 + b) 1)
      let v := if fldi u R_PORT_PAUSE_WD p 0 16 = 0 then u else orReg u R_PORT_PAUSE_IGN p (fieldMask b 1)
      raise (statIncI v R_PORT_PAUSE_WD_CNT p) .pauseWd) :=
  (next_whenRunning_running hr _).trans (congrArg _ (if_pos hs))

theorem exec_pauseRefresh_pausing (hr : running s = true) (hs : bit s R_PORT_PAUSE_STAT p (8 + b) = true) :
    exec (.pauseRefresh p b) s = .next (sendPause (begin_ s) p b (fldi s R_PORT_PAUSE_CFG p 0 16)) :=
  (next_whenRunning_running hr _).trans (congrArg _ (if_pos hs))

theorem exec_pauseWdTx_pausing (hr : running s = true) (hs : bit s R_PORT_PAUSE_STAT p (8 + b) = true) :
    exec (.pauseWdTx p b) s = .next (
      let u := orReg (sendPause (clrReg (begin_ s) R_PORT_PAUSE_STAT p (fieldMask (8 + b) 1)) p b 0) R_PORT_PAUSE_STAT p
        (fieldMask (24 + b) 1)
      let v := if fldi u R_PORT_PAUSE_WD p 0 16 = 0 then u
        else setPort u p { portOf u p with txQuiet := (portOf u p).txQuiet ||| BitVec.ofNat 8 (2 ^ b.val) }
      raise (statIncI v R_PORT_PAUSE_WD_CNT p) .pauseWd) :=
  (next_whenRunning_running hr _).trans (congrArg _ (if_pos hs))

end

/-- Settles O27: each event meets a device that runs and the branch that its premises name; a pause frame acts by the mode of
its port. -/
theorem portLinkAndPause : Obligations.PortLinkAndPause := by
  unfold Obligations.PortLinkAndPause
  refine ⟨fun s p hr hw => exec_portUpDelay_waiting hr hw, fun s p sp hr hu hl ho => exec_linkChange_lost hr hu hl ho,
    fun s p sp hr hu hl => exec_linkChange_gained hr hu hl, fun s n hr => exec_phyInt_running hr,
    fun s p pfc en q hr hl => (exec_pauseReceived_linked hr hl).trans (congrArg _ (pauseFrame_eq _ _ _ _ _)),
    fun _ _ _ _ => rfl, fun s p b hr => ⟨next_whenRunning_running hr _, exec_pauseIgnoreEnd_received hr⟩,
    fun s p b hr hq => ⟨fun ha => ?_, fun ha => ?_⟩, fun s p b hr hs => exec_pauseWdRx_paused hr hs,
    fun s p b hr hs => ⟨exec_pauseRefresh_pausing hr hs, exec_pauseWdTx_pausing hr hs⟩⟩
  · exact (exec_pauseIgnoreEnd_sent hr hq).trans (congrArg _ (if_neg (ne_true_of_eq_false ha)))
  · exact (exec_pauseIgnoreEnd_sent hr hq).trans (congrArg _ (if_pos ha))

end Sys2Proof.Machine
end

section
namespace Sys2Proof.Machine

/-! ## Low-power idle and its wake times (R202 to R205), and PHY_READ (R191) -/

section
variable {s : State} {p : Fin 8}

/-- The LLDP frame of a port, which ends with the EEE TLV; its station address and its other TLVs are free (R203). -/
def lldpFrame (s : State) (p : Nat) : List Byte :=
  [0x01, 0x80, 0xC2, 0x00, 0x00, 0x0E] ++ randBytes s.fresh 6 ++ [0x88, 0xCC] ++ randBytes (s.fresh + 1) 28 ++
    eeeTlv s p s.fresh ++ [0x00, 0x00]

/-- A wake time that waited for the partner's echo takes effect (R203). -/
def echoAnswered (s : State) (p : Nat) : State :=
  match (portOf s p).twNext with
  | some v => setPort (setFldi s R_PORT_LPI_STAT p 16 16 v) p { portOf s p with twNext := none }
  | none => s

theorem echoAnswered_eq (s : State) (p : Nat) :
    echoAnswered s p = match (portOf s p).twNext with
      | none => s
      | some v => setPort (setFldi s R_PORT_LPI_STAT p 16 16 v) p { portOf s p with twNext := none } := by
  unfold echoAnswered
  cases (portOf s p).twNext <;> rfl

theorem exec_lldpSend_linked (hr : running s = true) (hm : lpiMode s p = true) (hl : portLink s p = true) :
    exec (.lldpSend p) s =
      .next (echoAnswered (ppSend { begin_ s with fresh := s.fresh + 2 } (.eth (lldpFrame s p)) (96 + p)) p) :=
  (next_whenRunning_running hr _).trans (congrArg _ (if_pos (Bool.and_eq_true_iff.mpr ⟨hm, hl⟩)))

/-- The wake time that a received LLDP frame resolves: the larger of the device's own and the partner's request (R203). -/
def wakeWanted (s : State) (p : Nat) (w : WakeTimes) : Nat := max (ownWake s p) w.rx.toNat

/-- A wake time applies at once where none is agreed or it is larger than the one agreed (R203). -/
def wakeAtOnce (s : State) (p : Nat) (w : WakeTimes) : Bool :=
  ! bit s R_PORT_LPI_STAT p 3 || decide (fldi s R_PORT_LPI_STAT p 16 16 < wakeWanted s p w)

/-- A received wake time applies now, or waits for the echo of the next frame sent (R203). -/
def wakeReceived (s : State) (p : Nat) (w : WakeTimes) (now : Bool) : State :=
  let v := wakeWanted s p w
  let u := setPort s p { portOf s p with
    echo := (w.tx.toNat, w.rx.toNat), twNext := if now ∨ v = fldi s R_PORT_LPI_STAT p 16 16 then none else some v }
  if now then setFldi (orReg u R_PORT_LPI_STAT p 8) R_PORT_LPI_STAT p 16 16 v else u

theorem exec_lldpReceive_linked {w : WakeTimes} (hr : running s = true) (hm : lpiMode s p = true) (hl : portLink s p = true) :
    exec (.lldpReceive p w) s = .next (wakeReceived (begin_ s) p w (wakeAtOnce s p w)) :=
  (next_whenRunning_running hr _).trans (congrArg _ (if_pos (Bool.and_eq_true_iff.mpr ⟨hm, hl⟩)))

theorem wakeAtOnce_iff {p : Nat} {w : WakeTimes} : wakeAtOnce s p w = true ↔
    bit s R_PORT_LPI_STAT p 3 = false ∨ fldi s R_PORT_LPI_STAT p 16 16 < wakeWanted s p w := by
  rw [wakeAtOnce, Bool.or_eq_true, Bool.not_eq_true', decide_eq_true_iff]

theorem wakeAtOnce_eq_false {p : Nat} {w : WakeTimes} (ha : bit s R_PORT_LPI_STAT p 3 = true)
    (hv : wakeWanted s p w ≤ fldi s R_PORT_LPI_STAT p 16 16) : wakeAtOnce s p w = false :=
  Bool.eq_false_iff.mpr fun h => (wakeAtOnce_iff.mp h).elim (fun hn => ne_true_of_eq_false hn ha) (Nat.not_lt.mpr hv)

theorem wakeReceived_now (s : State) (p : Nat) (w : WakeTimes) :
    wakeReceived s p w true = setFldi (orReg (setPort s p { portOf s p with
      echo := (w.tx.toNat, w.rx.toNat), twNext := none }) R_PORT_LPI_STAT p 8) R_PORT_LPI_STAT p 16 16 (wakeWanted s p w) := by
  unfold wakeReceived
  dsimp only
  rw [if_pos rfl, if_pos (Or.inl rfl)]

theorem wakeReceived_later (s : State) (p : Nat) (w : WakeTimes) :
    wakeReceived s p w false = setPort s p { portOf s p with
      echo := (w.tx.toNat, w.rx.toNat),
      twNext := if wakeWanted s p w = fldi s R_PORT_LPI_STAT p 16 16 then none else some (wakeWanted s p w) } := by
  unfold wakeReceived
  simp only [Bool.false_eq_true, false_or, if_false]

/-- A transmitter in LPI leaves it: frames start after the resolved wake time (R204). -/
theorem lpiLeave_inLpi {p : Nat} (h : bit s R_PORT_LPI_STAT p 1 = true) :
    lpiLeave s p =
      let u := clrReg s R_PORT_LPI_STAT p 2
      setPort u p { portOf u p with wakeAt := u.time.ticks + fldi u R_PORT_LPI_STAT p 16 16 * 250 } :=
  if_pos h

theorem exec_lpiEnter_idle (hr : running s = true) (ho : lpiOn s p = true) (ha : bit s R_PORT_LPI_STAT p 3 = true)
    (hl : portLink s p = true) (hn : bit s R_PORT_LPI_STAT p 1 = false) (hi : portIdle s p = true) :
    exec (.lpiEnter p) s = .next (statIncI (orReg (begin_ s) R_PORT_LPI_STAT p 2) R_PORT_TX_LPI p) :=
  (next_whenRunning_running hr _).trans (congrArg _ (if_pos (by simp [ho, ha, hl, hn, hi])))

theorem exec_lpiExit_inLpi (hr : running s = true) (h : bit s R_PORT_LPI_STAT p 1 = true) :
    exec (.lpiExit p) s = .next (
      let u := clrReg (begin_ s) R_PORT_LPI_STAT p 2
      setPort u p { portOf u p with wakeAt := u.time.ticks + fldi u R_PORT_LPI_STAT p 16 16 * 250 }) :=
  (next_whenRunning_running hr _).trans (congrArg _ (lpiLeave_inLpi (s := begin_ s) h))

theorem exec_partnerLpi_enters (hr : running s = true) (ho : lpiOn s p = true) (hl : portLink s p = true)
    (hn : bit s R_PORT_LPI_STAT p 2 = false) :
    exec (.partnerLpi p true) s = .next (statIncI (orReg (begin_ s) R_PORT_LPI_STAT p 4) R_PORT_RX_LPI p) :=
  (next_whenRunning_running hr _).trans (congrArg _ ((if_neg (by decide)).trans (if_pos (by simp [ho, hl, hn]))))

theorem exec_partnerLpi_leaves (hr : running s = true) :
    exec (.partnerLpi p false) s = .next (clrReg (begin_ s) R_PORT_LPI_STAT p 4) :=
  (next_whenRunning_running hr _).trans (congrArg _ (if_pos rfl))

end

/-- PHY_READ makes its access, and answers with the value of a PHY that answers (R191). -/
theorem exec_phyRead_answered {s : State} {r : Req} {role : Nat} {phy clause dev : BitVec 8} {reg v : BitVec 16}
    (h : Served 0x0304 r role (judgeRight true false false false (fun m => m.awake && decide (m ≠ .approach))) s)
    (hc : checkPhy phy clause dev reg = none) :
    exec (.phyRead r phy clause dev reg (some v)) s =
      .next (ok 0x0304 r (mdioOut (audited 0x0304 r role s) phy.toNat (.read clause.toNat dev.toNat reg.toNat))
        (leBytes 2 v.toNat ++ leBytes 2 0)) := by
  rw [exec_phyRead]
  unfold execPhyRead
  rw [hc]
  exact congrArg _ (dispatch_answers (changes := false)
    (g := fun u => mdioOut u phy.toNat (.read clause.toNat dev.toNat reg.toNat)) h (by decide) (by decide)
    (fun _ e => absurd e (by decide)) rfl)

/-- Settles O28: each event meets a device that runs and the branch that its premises name; a received wake time applies at
once or waits, and PHY_READ passes the dispatcher as a command that only reads. -/
theorem lowPowerIdleAndPhy : Obligations.LowPowerIdleAndPhy := by
  unfold Obligations.LowPowerIdleAndPhy
  refine ⟨fun s p hr hm hl => (exec_lldpSend_linked hr hm hl).trans (congrArg _ (echoAnswered_eq _ _)),
    fun s p tx rx hr hm hl => ⟨fun hn => ?_, fun ha hv => ?_⟩,
    fun s p hr => next_whenRunning_running hr _, fun s p hr ho ha hl hn hi => exec_lpiEnter_idle hr ho ha hl hn hi,
    fun s p hr h => exec_lpiExit_inLpi hr h, fun s p hr ho hl hn => exec_partnerLpi_enters hr ho hl hn,
    fun s p hr => exec_partnerLpi_leaves hr, fun s r role phy clause dev reg v h hc => exec_phyRead_answered h hc⟩
  · rw [exec_lldpReceive_linked hr hm hl, wakeAtOnce_iff.mpr hn, wakeReceived_now]
    rfl
  · rw [exec_lldpReceive_linked hr hm hl, wakeAtOnce_eq_false (w := ⟨tx, rx⟩) ha hv, wakeReceived_later]
    rfl

end Sys2Proof.Machine
end

section
namespace Sys2Proof.Machine

/-! ## Frames that arrive, and the reset of a pipeline (R196, R219, R222, R236, R250, R254, R506, R586) -/

section
variable {s : State} {f : RxFrame}

theorem exec_frameReceive_unshut (hc : clocked s = true) (hs : lineShut s f.ing = false) :
    exec (.frameReceive f) s = .next (receive (begin_ s) { f with lock := none }) :=
  (next_whenClocked_clocked hc _).trans (congrArg _ (if_neg (ne_true_of_eq_false hs)))

theorem exec_frameReceive_shut (hc : clocked s = true) (hs : lineShut s f.ing = true) :
    exec (.frameReceive f) s = .next (begin_ s) :=
  (next_whenClocked_clocked hc _).trans (congrArg _ (if_pos hs))

/-- A frame that its lane or MAC does not accept goes no further: its check's effect remains. -/
theorem receive_rejected {u : State} (h : acceptFrame s f.ing f.content f.ok = (false, u)) (hl : f.lock = none) :
    receive s f = u := by
  unfold receive
  rw [h]
  dsimp only
  rw [Bool.not_false, if_pos rfl, unlockFrame, hl]
  rfl

theorem exec_frameReceive_rejected {u : State} (hc : clocked s = true) (hs : lineShut s f.ing = false)
    (h : acceptFrame (begin_ s) f.ing f.content f.ok = (false, u)) : exec (.frameReceive f) s = .next u :=
  (exec_frameReceive_unshut hc hs).trans (congrArg _ (receive_rejected h rfl))

/-- A CAN frame in error on a lane that takes it is a receive error (R162, R250). -/
theorem acceptFrame_canError {n : Nat} {id : BitVec 29} {ide fdf brs esi : Bool} {dlc : BitVec 4} {data : List Byte} (hn : n < 96)
    (ht : laneTakes s n (.can id ide fdf brs esi dlc data) = true) :
    acceptFrame s n (.can id ide fdf brs esi dlc data) false = (false, canRxError s n) :=
  (if_pos hn).trans (if_neg (bnot_ne_true ht))

/-- A frame with a bad FCS on a port with link counts RX_FCS, the first of the MAC's tests (R196). -/
theorem acceptFrame_portFcs {n : Nat} {b : List Byte} (hlo : 96 ≤ n) (hhi : n < 104) (hl : portLink s (n - 96) = true) :
    acceptFrame s n (.eth b) false = (false, statIncI s R_PORT_RX_FCS (n - 96)) :=
  (if_neg (Nat.not_lt.mpr hlo)).trans ((if_pos hhi).trans (if_neg (bnot_ne_true hl)))

end

section
variable {s : State} {p ing l : Nat} {id : BitVec 29} {fdf brs esi : Bool} {dlc : BitVec 4} {data : List Byte}

/-- An honoured UNICAST entry that names no stream out of use sends a frame to its destination alone (R222). -/
theorem decideHit_unicast {vid : Nat} {a : BitVec 48} {vmem : Nat → Bool} (ht : actType a = 1)
    (hh : honoured s (actSafe a) (actSvc a) = true) (hs : actStrEn a = false ∨ bb (streamOf s (actStream a)) 0 = true) :
    decideHit s p ing vid a vmem =
      ({ action := a, vid := vid, targets := [actDest a], fpol := none, trap := false, out := none, untag := 0 }, s) := by
  have hn : (actStrEn a && ! bb (streamOf s (actStream a)) 0) = false := by
    rcases hs with hs | hs <;> rw [hs]
    · rfl
    · exact Bool.and_false _
  unfold decideHit
  rw [if_neg (bnot_ne_true hh), if_neg (ne_true_of_eq_false hn), actTargets, ht]
  rfl

/-- The entry of an 11-bit CAN frame stands at its lane and identifier (R219). -/
theorem decideFrame_can11 : decideFrame s p ing l (.can id false fdf brs esi dlc data) =
    let a := tget 0 s.tables.can (p * 49152 + 2048 * l + id.toNat % 2048)
    if actValid a then decideHit s p ing 0 a fun _ => true
    else if bit (missed s p) R_TBL_MISS_CFG 0 0 then trapped (missed s p) 0 else (Decided.drop 0 0 2, missed s p) := rfl

/-- The count of misses of a pipeline is no configuration of the tables. -/
theorem bit_missed_missCfg (hp : p < 4) (n : Nat) : bit (missed s p) R_TBL_MISS_CFG 0 n = bit s R_TBL_MISS_CFG 0 n := by
  refine bit_statInc_other s n ?_
  unfold tblReg R_TBL_MISS_CFG R_TBL_P_MISS
  omega

end

section
variable {s : State} {p : Fin 4}

/-- Frames leave their ingress without a commit: each is counted there, and its flow control is judged anew (R254). -/
def abandoned (l : List Held) (s : State) : State := l.foldl (fun s x => fcCheck (statIncI s R_SW_I_OVF x.ing) x.ing) s

theorem exec_pipeReset_idle (hr : running s = true) (h : s.net.stuck.any (fun x => decide (x.p = p.val)) = false) :
    exec (.pipeReset p) s = .next (begin_ s) :=
  (next_whenRunning_running hr _).trans (congrArg _ (if_pos (congrArg Bool.not h)))

/-- Where no frame waits for a key, the frames in the pipelines are those that they are stuck on. -/
theorem inPipes_noWaits (h : s.cipher.waits = []) : inPipes s = s.net.stuck := by
  unfold inPipes
  rw [h]
  exact List.append_nil _

theorem exec_pipeReset_stuck (hr : running s = true) (hw : s.cipher.waits = [])
    (h : s.net.stuck.any (fun x => decide (x.p = p.val)) = true) :
    exec (.pipeReset p) s = .next (
      let mine := s.net.stuck.filter fun x => decide (x.p = p.val)
      let v := abandoned mine { begin_ s with
        net := { s.net with stuck := s.net.stuck.filter fun x => decide (x.p ≠ p.val) },
        cipher := { s.cipher with waits := [] } }
      semForceAll (raise (statAddI (statInc v R_SW_PIPE_RESET) R_SW_RECLAIMED 0 (mine.foldl (fun a x => a + x.cells) 0)) .pipeReset)
        fun o => decide (o = 0xF0 + p.val)) := by
  refine (next_whenRunning_running hr _).trans (congrArg _ ((if_neg (bnot_ne_true h)).trans ?_))
  dsimp only
  rw [inPipes_noWaits (s := begin_ s) hw, show (begin_ s).cipher.waits = [] from hw]
  rfl

end

/-- Settles O49: a frame that its ingress does not accept leaves the effect of the check that it fails; an 11-bit CAN frame is
decided by its own entry; and a pipeline abandons the frames that it is stuck on. -/
theorem framesEnterTheSwitch : Obligations.FramesEnterTheSwitch := by
  unfold Obligations.FramesEnterTheSwitch
  refine ⟨fun s f hc hs => exec_frameReceive_unshut hc hs, fun s f hc hs => exec_frameReceive_shut hc hs,
    fun s f id ide fdf brs esi dlc data hc hs hn hf ht hk => exec_frameReceive_rejected hc hs ?_,
    fun s f b hc hs hlo hhi hf hl hk => exec_frameReceive_rejected hc hs ?_,
    fun s p ing l id fdf brs esi dlc data => fun hv ht hh hs => ?_,
    fun s p ing l id fdf brs esi dlc data hp hv hm => ?_,
    fun s p hr hw h => exec_pipeReset_stuck hr hw h, fun s p hr h => exec_pipeReset_idle hr h⟩
  · rw [hf] at ht
    rw [hf, hk]
    exact acceptFrame_canError (s := begin_ s) hn ht
  · rw [hf, hk]
    exact acceptFrame_portFcs (s := begin_ s) hlo hhi hl
  · rw [decideFrame_can11]
    exact (if_pos hv).trans (decideHit_unicast ht hh hs)
  · rw [decideFrame_can11]
    exact (if_neg (ne_true_of_eq_false hv)).trans (if_neg (by rw [bit_missed_missCfg hp, hm]; decide))

end Sys2Proof.Machine
end

section
namespace Sys2Proof.Machine

/-! ## Commands whose effect gives its status, and commands that are answered later (R39, R90, R392) -/

section
variable {op : Nat} {r : Req} {role : Nat} {judge : State → Nat → Option Status} {body : State → Plan} {s : State} {p : Plan}

/-- A plan that changes state and succeeds after an entry of OK has its effect after that entry. -/
theorem planDone_ok (hc : p.changes = true) (ha : (p.act (admitted op r role s)).2.1 = .ok) :
    planDone op r role p s = p.act (admitted op r role s) := by
  unfold planDone
  rw [hc]
  exact congrArg (fun st => p.act (entered op r role true st s)) ha

/-- A granted command that changes state, succeeds and is answered at once. -/
theorem dispatch_succeeds (h : Granted op r role judge s) (ho : op ≠ 0x0A01) (hp : body (heard op r role s) = p)
    (hc : p.changes = true) (hn : p.later (heard op r role s) = false) (ha : (p.act (admitted op r role s)).2.1 = .ok) :
    dispatch op r judge body s = ok op r (p.act (admitted op r role s)).1 (p.act (admitted op r role s)).2.2 := by
  rw [dispatch_served h.served (fun e => absurd e ho) (fun a b _ d => h.ledger a b d), hp]
  dsimp only
  rw [planDone_ok hc ha, hn, ha, if_neg Bool.false_ne_true, countHostDeny_of_ne _ _ (by decide), ite_self, ok]

/-- A granted command that changes state and succeeds, and whose answer waits. -/
theorem dispatch_answersLater (h : Granted op r role judge s) (ho : op ≠ 0x0A01) (hp : body (heard op r role s) = p)
    (hc : p.changes = true) (hn : p.later (heard op r role s) = true) (ha : (p.act (admitted op r role s)).2.1 = .ok) :
    dispatch op r judge body s = setCur (p.act (admitted op r role s)).1 none := by
  rw [dispatch_served h.served (fun e => absurd e ho) (fun a b _ d => h.ledger a b d), hp]
  dsimp only
  rw [planDone_ok hc ha, if_pos hn]

end

/-! ## TBL_WRITE (R239 to R242) -/

section
variable {s u : State} {r : Req} {role : Nat} {t f pm : BitVec 8} {i : Word} {e : List Word}

/-- A direct write under a right, and in SERVICE, once it succeeded, its record stored and committed. -/
def entryWritten (full : Bool) (t f pm : BitVec 8) (i : Word) (e : List Word) (v : State) : State × Status × List Byte :=
  let x := tblPut v full t.toNat pm.toNat i.toNat e
  (if full && decide (x.1 = .ok) then commitChange (storeRecord x.2 (.tblWrite t f pm i e)) else x.2, x.1, [])

/-- An entry joins the batch of its context. -/
def entryBatched (full : Bool) (c : Cfg) (me : Chan × Nat) (v : State) : State :=
  { v with tables := { v.tables with batch := v.tables.batch ++ [(full, c)], batchBy := some me } }

/-- What a TBL_WRITE finds where it is taken: no committed batch that waits, a write in good form, and, of an INSTALLER
in SERVICE, a record that fits the map. -/
structure EntryTaken (t f pm : BitVec 8) (i : Word) (e : List Word) (u : State) : Prop where
  idle : u.tables.batchGo = false
  formed : tblForm t.toNat pm.toNat i.toNat e = none
  fits : fullRight u = true → mapFits u (.tblWrite t f pm i e) = true

theorem EntryTaken.notRange (h : EntryTaken t f pm i e u) :
    ¬ (fullRight u && decide (mapLen (putRecord u.map (.tblWrite t f pm i e)) > 262144)) = true := by
  rw [Bool.and_eq_true, decide_eq_true_eq]
  rintro ⟨hfull, hlen⟩
  have hfit := h.fits hfull
  unfold mapFits at hfit
  rw [Bool.and_eq_true, decide_eq_true_eq] at hfit
  exact Nat.not_lt.mpr hfit.1 hlen

theorem EntryTaken.notFinal (h : EntryTaken t f pm i e u) : ¬ (fullRight u && epochFinal u) = true := by
  rw [Bool.and_eq_true]
  rintro ⟨hfull, hfinal⟩
  have hfit := h.fits hfull
  unfold mapFits at hfit
  rw [hfinal, Bool.not_true, Bool.and_false] at hfit
  exact Bool.false_ne_true hfit

theorem tblWritePlan_direct (h : EntryTaken t f pm i e u) (hf : f.getLsbD 0 = false) :
    tblWritePlan r t f pm i e u =
      { status := (tblPut u (fullRight u) t.toNat pm.toNat i.toNat e).1, bytes := [], changes := true,
        act := entryWritten (fullRight u) t f pm i e } := by
  unfold tblWritePlan
  dsimp only
  rw [if_neg (ne_true_of_eq_false h.idle), h.formed]
  dsimp only
  rw [if_neg h.notRange, if_neg h.notFinal, if_neg (ne_true_of_eq_false hf)]
  rfl

theorem tblWritePlan_batched (h : EntryTaken t f pm i e u) (hf : f.getLsbD 0 = true)
    (hmine : u.tables.batch = [] ∨ u.tables.batchBy = some (r.chan, curRole u)) (hroom : u.tables.batch.length < 64)
    (hheld : fullRight u = true ∨ keyHeld u pm.toNat e = false) :
    tblWritePlan r t f pm i e u =
      Plan.do_ (entryBatched (fullRight u) (.tblWrite t f pm i e) (r.chan, curRole u)) := by
  have hdenied : ¬ (! fullRight u && keyHeld u pm.toNat e) = true := by
    obtain hfull | hfree := hheld
    · rw [hfull]
      exact Bool.false_ne_true
    · rw [hfree, Bool.and_false]
      exact Bool.false_ne_true
  unfold tblWritePlan
  dsimp only
  rw [if_neg (ne_true_of_eq_false h.idle), h.formed]
  dsimp only
  rw [if_neg h.notRange, if_neg h.notFinal, if_pos hf, if_neg fun hc => hmine.elim hc.1 hc.2,
    if_neg (Nat.not_le.mpr hroom), if_neg hdenied]
  rfl

section
variable (h : Granted 0x0401 r role (judgeTable fun _ => ! hostDenied t.toNat e) s)
  (ht : EntryTaken t f pm i e (heard 0x0401 r role s))
include h ht

theorem exec_tblWrite_direct (hf : f.getLsbD 0 = false)
    (hp : (tblPut (admitted 0x0401 r role s) (fullRight (heard 0x0401 r role s)) t.toNat pm.toNat i.toNat e).1 = .ok) :
    exec (.tblWrite r t f pm i e) s = .next (ok 0x0401 r (
      let w := (tblPut (admitted 0x0401 r role s) (fullRight (heard 0x0401 r role s)) t.toNat pm.toNat i.toNat e).2
      if fullRight (heard 0x0401 r role s) then commitChange (storeRecord w (.tblWrite t f pm i e)) else w) []) := by
  rw [exec_tblWrite]
  unfold execTblWrite
  rw [dispatch_succeeds h (by decide) (tblWritePlan_direct ht hf) rfl rfl hp]
  unfold entryWritten
  dsimp only
  rw [decide_eq_true hp, Bool.and_true]

theorem exec_tblWrite_batched (hf : f.getLsbD 0 = true)
    (hmine : (heard 0x0401 r role s).tables.batch = [] ∨
      (heard 0x0401 r role s).tables.batchBy = some (r.chan, curRole (heard 0x0401 r role s)))
    (hroom : (heard 0x0401 r role s).tables.batch.length < 64)
    (hheld : fullRight (heard 0x0401 r role s) = true ∨ keyHeld (heard 0x0401 r role s) pm.toNat e = false) :
    exec (.tblWrite r t f pm i e) s = .next (ok 0x0401 r (entryBatched (fullRight (heard 0x0401 r role s))
      (.tblWrite t f pm i e) (r.chan, curRole (heard 0x0401 r role s)) (admitted 0x0401 r role s)) []) :=
  (exec_tblWrite ..).trans (congrArg _ (dispatch_do _ h (by decide) (tblWritePlan_batched ht hf hmine hroom hheld)))

end
end

/-! ## TBL_COMMIT, TBL_DELETE and TBL_FLUSH (R239, R242, R244, R245) -/

section
variable {s u : State} {r : Req} {role : Nat}

/-- The batch waits for the beat boundary, with the records `mine` of an INSTALLER's right stored and committed. -/
def batchCommitted (mine : List (Bool × Cfg)) (v : State) : State × List Byte :=
  let w := if mine ≠ [] then commitChange (mine.foldl (fun s x => storeRecord s x.2) v) else v
  ({ w with tables := { w.tables with batchGo := true } }, leBytes 1 w.tables.batch.length ++ leBytes 3 0)

theorem exec_tblCommit_granted (h : Granted 0x0405 r role (judgeRight true false false false dynModes) s)
    (hu : heard 0x0405 r role s = u) (hidle : u.tables.batchGo = false)
    (hmine : u.tables.batch = [] ∨ u.tables.batchBy = some (r.chan, curRole u))
    (hright : u.tables.batch.filter Prod.fst = [] ∨ fullRight u = true ∧ epochFinal u = false) :
    exec (.tblCommit r) s = .next (
      let x := batchCommitted (u.tables.batch.filter Prod.fst) (admitted 0x0405 r role s)
      ok 0x0405 r x.1 x.2) := by
  rw [exec_tblCommit]
  unfold execTblCommit
  refine congrArg _ (dispatch_ok (f := batchCommitted (u.tables.batch.filter Prod.fst)) h (by decide) ?_)
  rw [hu]
  dsimp only
  rw [if_neg (ne_true_of_eq_false hidle), if_neg fun hc => hmine.elim hc.1 hc.2,
    if_neg fun hc => hright.elim hc.1 fun hr => bnot_ne_true hr.1 hc.2,
    if_neg fun hc => hright.elim hc.1 fun hr => ne_true_of_eq_false hr.2 hc.2]
  rfl

/-- The HOST right covers a deletion in a pipeline: what stands at the position, or under the key, is an entry that it
may change, and where a key finds nothing it is an Ethernet key (R239). -/
def hostDeletes (u : State) (i : Nat) (k : BitVec 64) (p : Nat) : Prop :=
  match hashAt u p i k with
  | some x => hostEntry (hGet u p x) = true
  | none => i ≠ 2 ^ 32 - 1 ∨ bf k 62 2 = 0

/-- The model's test of a pipeline that the HOST right does not cover. -/
theorem hostDeletes_refuses {i p : Nat} {k : BitVec 64} (h : hostDeletes u i k p) :
    ¬ (match hashAt u p i k with
      | some x => ! hostEntry (hGet u p x)
      | none => decide (i = 2 ^ 32 - 1) && decide (bf k 62 2 ≠ 0)) = true := by
  unfold hostDeletes at h
  cases hk : hashAt u p i k with
  | some x =>
    rw [hk] at h
    exact bnot_ne_true h
  | none =>
    rw [hk] at h
    dsimp only at h ⊢
    rw [Bool.and_eq_true, decide_eq_true_eq, decide_eq_true_eq]
    exact fun hc => h.elim (fun hi => hi hc.1) hc.2

variable {t pm f : BitVec 8} {i : Word} {k : BitVec 64}

/-- An entry is deleted, and the mask of the pipelines that held it is the answer. -/
def entryDeleted (t pm : BitVec 8) (i : Word) (k : BitVec 64) (v : State) : State × List Byte :=
  let x := tblDelete v t.toNat pm.toNat i.toNat k
  (x.2, leBytes 1 x.1 ++ leBytes 3 0)

theorem exec_tblDelete_granted (h : Granted 0x0403 r role (judgeTable fun _ => decide (t = 2)) s)
    (hu : heard 0x0403 r role s = u) (ht : t.toNat ≤ 5) (hkey : ¬ (t = 2 ∧ i.toNat = 2 ^ 32 - 1 ∧ bf k 62 2 = 3))
    (hpos : posOk t.toNat i.toNat = true)
    (hright : fullRight u = true ∨ ∀ p, p < 4 → pm.toNat / 2 ^ p % 2 = 1 → hostDeletes u i.toNat k p) :
    exec (.tblDelete r t pm i k) s = .next (
      let x := entryDeleted t pm i k (admitted 0x0403 r role s)
      ok 0x0403 r x.1 x.2) := by
  rw [exec_tblDelete]
  unfold execTblDelete
  refine congrArg _ (dispatch_ok (f := entryDeleted t pm i k) h (by decide) ?_)
  rw [hu]
  dsimp only
  rw [if_neg (Nat.not_lt.mpr ht), if_neg hkey, if_neg (bnot_ne_true hpos), if_neg]
  · rfl
  · rw [Bool.and_eq_true, List.any_eq_true]
    rintro ⟨hhost, p, hp, hrefused⟩
    rw [List.mem_filter, List.mem_range, decide_eq_true_eq] at hp
    obtain hfull | hreach := hright
    · exact bnot_ne_true hfull hhost
    · exact hostDeletes_refuses (hreach p hp.1 hp.2) hrefused

theorem exec_tblFlush_granted (h : Granted 0x0404 r role (judgeRight true false false false dynModes) s) :
    exec (.tblFlush r pm f) s = .next (ok 0x0404 r (((List.range 4).filter fun p => pm.getLsbD p).foldl
      (fun u p => flushPipe u (fullRight (heard 0x0404 r role s)) (f.getLsbD 0) p) (admitted 0x0404 r role s)) []) := by
  rw [exec_tblFlush]
  unfold execTblFlush
  rw [dispatch_do _ h (by decide) rfl]

end

/-- Settles O24: each command passes the dispatcher with its own checks met, and has the effect that its plan names; the
status of a direct write is that of the pipelines that it reaches. -/
theorem tableCommands : Obligations.TableCommands := by
  unfold Obligations.TableCommands
  refine ⟨fun s r role t f pm i e h => ?_, fun s r role h => ?_, fun s r role t pm i k h => ?_,
    fun s r role pm f h => exec_tblFlush_granted h⟩
  · intro u v c hidle hform hfits
    have ht : EntryTaken t f pm i e u := ⟨hidle, hform, hfits⟩
    exact ⟨exec_tblWrite_direct h ht, exec_tblWrite_batched h ht⟩
  · intro u v mine hidle hmine hright
    exact exec_tblCommit_granted h rfl hidle hmine hright
  · intro u ht hkey hpos hright
    exact exec_tblDelete_granted h rfl ht hkey hpos hright

end Sys2Proof.Machine
end

section
namespace Sys2Proof.Machine

/-! ## Pushed blobs that come in (R555, R556, R557) -/

section
variable {s : State} {src : BitVec 12} {id : Word} {total : Nat} {img : Option FwImage} {commitOk : Bool} {b : BlobIn}

/-- The blob is the one that a node pushes under an identifier. -/
def isBlob (src : BitVec 12) (id : Word) (b : BlobIn) : Bool := decide (b.src = src.toNat) && decide (b.id = id)

/-- The segments of a blob of `total` that have not come in. -/
def segsMissing (b : BlobIn) (total : Nat) : List Nat :=
  (List.range total).filter fun k => ! b.segs.any fun x => decide (x.1 = k)

/-- The acknowledgement of a blob with the bitmap of the segments that are missing. -/
def blobAcked (src : BitVec 12) (id : Word) (missing : List Nat) (s : State) : State :=
  hlbSendTo s src.toNat 6 (leBytes 4 id.toNat ++ missingMap missing)

/-- A complete blob is noted as handled, and is handled by its kind. -/
def blobHandled (src : BitVec 12) (id : Word) (b : BlobIn) (total : Nat) (img : Option FwImage) (commitOk : Bool)
    (s : State) : State :=
  applyBlob { s with hlb := { s.hlb with
    blobs := s.hlb.blobs.map fun b => if isBlob src id b then { b with done := true, segs := [] } else b } }
    b.kind (blobData b total) img commitOk

/-- What an acknowledgement's time does with a blob that is held. -/
theorem exec_pushAckSend_held (hr : running s = true) (hb : s.hlb.blobs.find? (isBlob src id) = some b) :
    exec (.pushAckSend src id total img commitOk) s = .next (
      let missing := if b.done then [] else segsMissing b total
      blobAcked src id missing
        (if missing = [] ∧ ! b.done then blobHandled src id b total img commitOk (begin_ s) else begin_ s)) := by
  refine (next_whenRunning_running hr _).trans (congrArg _ ?_)
  dsimp only
  rw [show (begin_ s).hlb.blobs.find? (fun b => decide (b.src = src.toNat) && decide (b.id = id)) = some b from hb]
  rfl

theorem exec_pushAckSend_partial (hr : running s = true) (hb : s.hlb.blobs.find? (isBlob src id) = some b)
    (hd : b.done = false) (hm : segsMissing b total ≠ []) :
    exec (.pushAckSend src id total img commitOk) s = .next (blobAcked src id (segsMissing b total) (begin_ s)) := by
  rw [exec_pushAckSend_held hr hb]
  dsimp only
  rw [if_neg (ne_true_of_eq_false hd), if_neg fun h => hm h.1]

theorem exec_pushAckSend_complete (hr : running s = true) (hb : s.hlb.blobs.find? (isBlob src id) = some b)
    (hd : b.done = false) (hm : segsMissing b total = []) :
    exec (.pushAckSend src id total img commitOk) s =
      .next (blobAcked src id [] (blobHandled src id b total img commitOk (begin_ s))) := by
  rw [exec_pushAckSend_held hr hb]
  dsimp only
  rw [if_neg (ne_true_of_eq_false hd), hm, if_pos ⟨rfl, congrArg Bool.not hd⟩]

theorem exec_pushAckSend_again (hr : running s = true) (hb : s.hlb.blobs.find? (isBlob src id) = some b)
    (hd : b.done = true) :
    exec (.pushAckSend src id total img commitOk) s = .next (blobAcked src id [] (begin_ s)) := by
  rw [exec_pushAckSend_held hr hb]
  dsimp only
  rw [if_pos hd, if_neg fun h => bnot_ne_true hd h.2]

/-- A device that does not run does nothing, so what would do nothing while it runs does nothing. -/
theorem whenRunning_unmoved {f : State → State} (hf : f (begin_ s) = begin_ s) : whenRunning (begin_ s) f = begin_ s := by
  unfold whenRunning
  rw [hf, ite_self]

theorem exec_pushAckSend_none (hb : s.hlb.blobs.find? (isBlob src id) = none) :
    exec (.pushAckSend src id total img commitOk) s = .next (begin_ s) := by
  refine congrArg _ (whenRunning_unmoved ?_)
  dsimp only
  rw [show (begin_ s).hlb.blobs.find? (fun b => decide (b.src = src.toNat) && decide (b.id = id)) = none from hb]

theorem exec_blobDiscard_running (hr : running s = true) :
    exec (.blobDiscard src id) s = .next { begin_ s with hlb := { s.hlb with
      blobs := s.hlb.blobs.filter fun b => ! isBlob src id b } } :=
  next_whenRunning_running hr _

end

/-! ## The push that goes out (R554, R555) -/

section
variable {s : State} {p : PushOut} {r : Req} {role : Nat} {kind : BitVec 8} {buf : BitVec 64} {len : Word}
  {data : List Byte} {img : Option FwImage} {commitOk : Bool}

theorem exec_pushResendRound_resends (hr : running s = true) (hp : s.hlb.push = some p) (hm : pushMissing p ≠ [])
    (h3 : p.rounds < 3) :
    exec .pushResendRound s = .next (hlbPushAll
      { begin_ s with hlb := { s.hlb with push := some { p with rounds := p.rounds + 1 } } } (pushSegs p (pushMissing p))) := by
  refine (next_whenRunning_running hr _).trans (congrArg _ ?_)
  rw [show (begin_ s).hlb.push = some p from hp]
  exact if_pos ⟨hm, h3⟩

theorem exec_pushResendRound_answers (hr : running s = true) (hp : s.hlb.push = some p)
    (hm : pushMissing p = [] ∨ 3 ≤ p.rounds) :
    exec .pushResendRound s = .next (
      answer (setCur { begin_ s with hlb := { s.hlb with push := none } } p.owed.ctx) p.owed.req 0x0C03 .ok
        (leBytes 2 (p.acks.filter fun x => decide (x.2 = some [])).length ++ leBytes 2 0)) := by
  refine (next_whenRunning_running hr _).trans (congrArg _ ?_)
  rw [show (begin_ s).hlb.push = some p from hp]
  exact if_neg fun h => hm.elim h.1 (Nat.not_le.mpr h.2)

/-- What an HLB_PUSH finds where it is taken: a kind, a permitted buffer of at most the kind's limit in a host memory to
reach, no push under way, and a blob that verifies (R554). -/
structure PushTaken (kind : BitVec 8) (buf : BitVec 64) (len : Word) (data : List Byte) (img : Option FwImage)
    (u : State) : Prop where
  least : 1 ≤ kind.toNat
  most : kind.toNat ≤ 3
  permitted : judgeD u false buf.toNat len.toNat = none
  fits : len.toNat ≤ blobLimit kind.toNat
  free : u.hlb.push = none
  reached : dmaUp u = true
  verified : blobOk u kind.toNat (padTo len.toNat data) img = true

/-- The record of a push that begins: its identifier is drawn, and its answer is owed to the context of its command. -/
def pushBegun (r : Req) (kind : BitVec 8) (len : Word) (data : List Byte) (v : State) : PushOut :=
  { owed := { req := r, ctx := v.disp.cur }, id := Config.freeWord v.fresh, kind := kind.toNat, data := padTo len.toNat data,
    segs := (len.toNat + 1023) / 1024, rounds := 0, acks := [] }

/-- Every segment of a push goes out, and the blob is applied here as well. -/
def blobPushed (r : Req) (kind : BitVec 8) (len : Word) (data : List Byte) (img : Option FwImage) (commitOk : Bool)
    (v : State) : State :=
  let p := pushBegun r kind len data v
  applyBlob (hlbPushAll { v with fresh := v.fresh + 1, hlb := { v.hlb with push := some p } }
    (pushSegs p (List.range p.segs))) kind.toNat p.data img commitOk

theorem exec_hlbPush_granted
    (h : Granted 0x0C03 r role
      (judgeRight false (decide (kind.toNat ≠ 3)) false (decide (kind.toNat = 3)) fun m => decide (m = .depot)) s)
    (ht : PushTaken kind buf len data img (heard 0x0C03 r role s)) :
    exec (.hlbPush r kind buf len ⟨data, img⟩ commitOk true) s =
      .next (setCur (blobPushed r kind len data img commitOk (admitted 0x0C03 r role s)) none) := by
  have hkind : ¬ (kind.toNat < 1 ∨ kind.toNat > 3) := not_or.mpr ⟨Nat.not_lt.mpr ht.least, Nat.not_lt.mpr ht.most⟩
  rw [exec_hlbPush]
  unfold execHlbPush
  refine congrArg _ (dispatch_answersLater
    (p := { status := .ok, bytes := [], changes := true, later := fun _ => true,
            act := fun v => (blobPushed r kind len data img commitOk v, .ok, []) })
    h (by decide) ?_ rfl rfl rfl)
  dsimp only
  rw [if_neg hkind, ht.permitted]
  dsimp only
  rw [if_neg (Nat.not_lt.mpr ht.fits), ht.free, ht.reached, ht.verified]
  rfl

end

/-! ## HLB_MEMBERS and TBL_READ (R243, R562, R566) -/

section
variable {s u : State} {r : Req} {role : Nat}

theorem exec_hlbMembers_served {first : BitVec 16} (h : Served 0x0C02 r role judgeHostAwake s) :
    exec (.hlbMembers r first) s = .next (ok 0x0C02 r (audited 0x0C02 r role s)
      (let es := (((List.range 4096).filter fun n => decide (first.toNat ≤ n)).filterMap
        (memberEntry (heard 0x0C02 r role s))).take 56
       leBytes 2 es.length ++ leBytes 2 0 ++ es.flatten)) := by
  rw [exec_hlbMembers]
  unfold execHlbMembers
  exact congrArg _ (dispatch_read h (by decide) rfl)

variable {table pipe : BitVec 8} {node : BitVec 16} {index : Word} {key : BitVec 64} {rsp : Option (Bool × List Word)}

/-- A TBL_READ names a place: a table, a pipeline where the table has one, and a position or a key (R243). -/
structure PlaceNamed (table pipe : BitVec 8) (index : Word) (key : BitVec 64) : Prop where
  tableListed : table.toNat ≤ 7
  pipeExists : table.toNat ≤ 2 → pipe.toNat ≤ 3
  keyFormed : table = 2 → index.toNat = 2 ^ 32 - 1 → bf key 62 2 ≠ 3
  posInside : posOk table.toNat index.toNat = true

theorem PlaceNamed.formed (hn : PlaceNamed table pipe index key) :
    ¬ (table.toNat > 7 ∨ (table.toNat ≤ 2 ∧ pipe.toNat > 3) ∨
      (table = 2 ∧ index.toNat = 2 ^ 32 - 1 ∧ bf key 62 2 = 3)) := by
  rintro (ht | ⟨ht, hp⟩ | ⟨ht, hi, hk⟩)
  · exact Nat.not_lt.mpr hn.tableListed ht
  · exact Nat.not_lt.mpr (hn.pipeExists ht) hp
  · exact hn.keyFormed ht hi hk

theorem exec_tblRead_own (h : Served 0x0402 r role judgeHostAwake s) (hu : heard 0x0402 r role s = u)
    (hn : PlaceNamed table pipe index key) (ho : node.toNat = ownNode u) :
    exec (.tblRead r table pipe node index key rsp) s = .next (ok 0x0402 r (audited 0x0402 r role s)
      (readBytes (tblEntry u table.toNat (pipe.toNat % 4) index.toNat key))) := by
  rw [exec_tblRead]
  unfold execTblRead
  refine congrArg _ (dispatch_read h (by decide) ?_)
  rw [hu]
  dsimp only
  rw [if_neg hn.formed, if_neg (bnot_ne_true hn.posInside), if_pos ho]

/-- A QUERY goes to a node for the place that a TBL_READ names (R562). -/
def queried (node : BitVec 16) (table pipe : BitVec 8) (index : Word) (key : BitVec 64) (v : State) : State :=
  hlbSendTo v node.toNat 3 (queryBytes table pipe index key)

/-- The status and the bytes of a TBL_READ of another node: what came back, or RETRY. -/
def remoteRead : Option (Bool × List Word) → Status × List Byte
  | none => (.retry, [])
  | some (found, e) => (.ok, if found then leBytes 4 1 ++ padTo 32 (wordBytes e) else leBytes 36 0)

theorem joined_ne_absent {p : Peer} (h : joined p = true) : p.st ≠ .absent := by
  intro e
  unfold joined at h
  rw [e] at h
  exact Bool.false_ne_true h

theorem exec_tblRead_remote (h : Served 0x0402 r role judgeHostAwake s) (hu : heard 0x0402 r role s = u)
    (hn : PlaceNamed table pipe index key) (ho : node.toNat ≠ ownNode u) (h12 : node.toNat ≤ 4095) (hk : hlbKind u ≠ 0)
    (hj : joined (peerOf u node.toNat) = true) (hup : hlbUp u = true) :
    exec (.tblRead r table pipe node index key rsp) s = .next (
      let x := remoteRead rsp
      answer (queried node table pipe index key (entered 0x0402 r role false x.1 s)) r 0x0402 x.1 x.2) := by
  have hknown : ¬ (node.toNat > 4095 ∨ hlbKind u = 0 ∨ (peerOf u node.toNat).st = .absent) :=
    not_or.mpr ⟨Nat.not_lt.mpr h12, not_or.mpr ⟨hk, joined_ne_absent hj⟩⟩
  have hhears : ¬ ((! joined (peerOf u node.toNat)) = true ∨ (! hlbUp u) = true) :=
    not_or.mpr ⟨bnot_ne_true hj, bnot_ne_true hup⟩
  have hst : (remoteRead rsp).1 ≠ .denied := by
    cases rsp with
    | none => exact nofun
    | some x => exact nofun
  rw [exec_tblRead]
  unfold execTblRead
  refine congrArg _ (dispatch_answers (st0 := (remoteRead rsp).1) (b0 := []) (g := queried node table pipe index key) h
    (by decide) hst (fun _ e => absurd e Bool.false_ne_true) ?_)
  rw [hu]
  dsimp only
  rw [if_neg hn.formed, if_neg (bnot_ne_true hn.posInside), if_neg ho, if_neg hknown, if_neg hhears]
  cases rsp with
  | none => rfl
  | some x => rfl

end

/-- Settles O56: each event meets a device that runs and the branch that its premises name; each command passes the
dispatcher with its own checks met, and has the effect that its plan names. -/
theorem helberBlobsAndTables : Obligations.HelberBlobsAndTables := by
  unfold Obligations.HelberBlobsAndTables
  refine ⟨fun s src id total img commitOk b hr => ?_, fun s src id total img commitOk hb => exec_pushAckSend_none hb,
    fun s src id hr => exec_blobDiscard_running hr, fun s p hr hp hm h3 => exec_pushResendRound_resends hr hp hm h3,
    fun s p hr hp hm => exec_pushResendRound_answers hr hp hm, fun s r role first h => exec_hlbMembers_served h,
    fun s r role kind buf len data img commitOk => ?_, fun s r role table pipe node index key rsp => ?_⟩
  · intro mine missing hb
    exact ⟨exec_pushAckSend_partial hr hb, exec_pushAckSend_complete hr hb, exec_pushAckSend_again hr hb⟩
  · intro u b h hleast hmost hpermitted hfits hfree hreached hverified
    exact exec_hlbPush_granted h ⟨hleast, hmost, hpermitted, hfits, hfree, hreached, hverified⟩
  · intro u h ht hp hkey hpos
    have hn : PlaceNamed table pipe index key := ⟨ht, hp, hkey, hpos⟩
    refine ⟨fun ho => exec_tblRead_own h rfl hn ho, fun ho h12 hk hj hup => ⟨fun found e hrsp => ?_, fun hrsp => ?_⟩⟩
    · rw [hrsp]
      exact exec_tblRead_remote h rfl hn ho h12 hk hj hup
    · rw [hrsp]
      exact exec_tblRead_remote h rfl hn ho h12 hk hj hup

end Sys2Proof.Machine
end

section
namespace Sys2Proof.Machine

/-! ## The resequencer's timers (R265, R267) -/

section
variable {s : State} {stream : BitVec 12} {e : Fin 106} {c : Rsq}

/-- A context's timeout is due when some frame in it has been held for TMO_US (R267). -/
theorem rsqDue_iff : rsqDue s c = true ↔
    ∃ x ∈ c.slots, ∃ h t, x.2 = some (.held h t) ∧ t + fld s R_SW_RSQ_CFG 0 16 * ticksPerUs ≤ s.time.ticks := by
  refine List.any_eq_true.trans (exists_congr fun x => and_congr_right fun _ => ?_)
  obtain ⟨n, slot⟩ := x
  match slot with
  | none => simp
  | some .gone => simp
  | some (.held h t) => simp

theorem rsqTimeout_due (hc : ctxOf s stream.toNat e = some c) (hd : rsqDue s c = true) :
    rsqTimeout s stream.toNat e = rsqStore s stream.toNat e (rsqToHeld 64 { ctx := c, sent := [], lost := 0 }) := by
  unfold rsqTimeout
  rw [hc]
  exact if_pos hd

theorem exec_rsqTimeout_due (hr : running s = true) (hc : ctxOf s stream.toNat e = some c) (hd : rsqDue s c = true) :
    exec (.rsqTimeout stream e) s =
      .next (rsqStore (begin_ s) stream.toNat e (rsqToHeld 64 { ctx := c, sent := [], lost := 0 })) :=
  (next_whenRunning_running hr _).trans (congrArg _ (rsqTimeout_due (s := begin_ s) hc hd))

theorem exec_rsqContextExpiry_empty (hr : running s = true) (hc : ctxOf s stream.toNat e = some c) (he : ctxEmpty c = true) :
    exec (.rsqContextExpiry stream e) s = .next (setCtx (begin_ s) stream.toNat e none) := by
  refine (next_whenRunning_running hr _).trans (congrArg _ ?_)
  rw [ctxOf_begin, hc]
  exact if_pos he

end

/-! ## The spill store (R259, R261) -/

section
variable {s : State} {g : Fin 4}

theorem exec_spillOut_above (hr : running s = true) (hm : bufMode s g = 1)
    (hc : fld s (R_SW_PG_SHI + 0x10 * g.val) 0 17 < charged s g) :
    exec (.spillOut g) s = .next (spillLoop g 65536 (begin_ s)) :=
  (next_whenRunning_running hr _).trans (congrArg _ (if_pos ⟨hm, hc⟩))

/-- Nothing moves out of a group in another mode or at or below SPILL_HI, whether the device runs or not. -/
theorem exec_spillOut_unmoved (h : bufMode s g ≠ 1 ∨ charged s g ≤ fld s (R_SW_PG_SHI + 0x10 * g.val) 0 17) :
    exec (.spillOut g) s = .next (begin_ s) := by
  have hn : ¬ (bufMode s g = 1 ∧ charged s g > fld s (R_SW_PG_SHI + 0x10 * g.val) 0 17) :=
    fun ⟨hm, hc⟩ => h.elim (fun hm' => hm' hm) (Nat.not_le.mpr hc)
  exact congrArg _ (whenRunning_unmoved (if_neg hn))

/-- A spilled frame comes back while its cells are free, and the flow control of its ingress is judged again (R261, R263). -/
def spillBack (s : State) (x : QEnt) : State :=
  match frameOf s x.h with
  | some f => if f.spilled ∧ f.cells ≤ cellsFree s then fcCheck (setFrame s x.h (some { f with spilled := false })) f.ing else s
  | none => s

theorem exec_spillReturn_running {p q : Fin 8} (hr : running s = true) :
    exec (.spillReturn p q) s = .next (((queueOf s (96 + p) q).take 32).foldl spillBack (begin_ s)) :=
  next_whenRunning_running hr _

end

/-- Settles O54: a timeout meets a context with a held frame that is due, an expiry one that holds nothing; frames move out of a
group only above SPILL_HI in SPILL mode; and each of a queue's first 32 frames is judged for its return. -/
theorem resequencingAndSpill : Obligations.ResequencingAndSpill := by
  unfold Obligations.ResequencingAndSpill
  exact ⟨fun s stream e c x h t hr hc hx hh ht => exec_rsqTimeout_due hr hc (rsqDue_iff.mpr ⟨x, hx, h, t, hh, ht⟩),
    fun s stream e c hr hc he => exec_rsqContextExpiry_empty hr hc he, fun s g hr hm hc => exec_spillOut_above hr hm hc,
    fun s g h => exec_spillOut_unmoved h, fun s p q hr => exec_spillReturn_running hr⟩

end Sys2Proof.Machine
end

section
namespace Sys2Proof.Machine

/-! ## The refill of a bucket (R286) -/

section
variable {t f rate bs b : Nat}

/-- The branches of R286's function. -/
theorem refill_eq_ite :
    refill t f rate bs b =
      if f + rate % b < b then (if bs ≤ t + rate / b then (bs, 0) else (t + rate / b, f + rate % b))
      else (if bs ≤ t + rate / b + 1 then (bs, 0) else (t + rate / b + 1, f + rate % b - b)) := by
  unfold refill
  by_cases hc : f + rate % b < b
  · simp [hc, Nat.not_le.mpr hc]
  · simp [hc, Nat.not_lt.mp hc]

/-- A refill adds RATE to the bucket counted in B-ths of a token, and fills it at the cap. -/
theorem refill_eq_divMod (hf : f < b) :
    refill t f rate bs b =
      if bs ≤ (t * b + f + rate) / b then (bs, 0) else ((t * b + f + rate) / b, (t * b + f + rate) % b) := by
  have hb : 0 < b := Nat.zero_lt_of_lt hf
  have hm : rate % b < b := Nat.mod_lt _ hb
  have hsum : t * b + f + rate = (f + rate % b) + b * (t + rate / b) := by
    rw [Nat.mul_add, Nat.mul_comm b t]
    have := Nat.mod_add_div rate b
    omega
  rw [refill_eq_ite, hsum, Nat.add_mul_div_left _ _ hb, Nat.add_mul_mod_self_left]
  by_cases hc : f + rate % b < b
  · simp [hc, Nat.div_eq_of_lt hc, Nat.mod_eq_of_lt hc]
  · have hd : (f + rate % b) / b = 1 := Nat.div_eq_of_lt_le (by omega) (by omega)
    have hr : (f + rate % b) % b = f + rate % b - b := by
      rw [Nat.mod_eq_sub_mod (by omega), Nat.mod_eq_of_lt (by omega)]
    simp [hc, hd, hr, Nat.add_comm 1]

/-- Below the cap, `n` refills add `n` times RATE in B-ths of a token. -/
theorem refillN_below_cap {n : Nat} (hf : f < b) (hcap : t * b + f + n * rate < bs * b) :
    refillN n t f rate bs b = ((t * b + f + n * rate) / b, (t * b + f + n * rate) % b) := by
  have hb : 0 < b := Nat.zero_lt_of_lt hf
  induction n generalizing t f with
  | zero =>
    rw [Nat.zero_mul, Nat.add_zero, Nat.mul_comm, Nat.mul_add_div hb, Nat.mul_add_mod, Nat.div_eq_of_lt hf, Nat.mod_eq_of_lt hf]
    rfl
  | succ n ih =>
    rw [Nat.succ_mul] at hcap ⊢
    have hlt : (t * b + f + rate) / b < bs := (Nat.div_lt_iff_lt_mul hb).mpr (by omega)
    have hsplit := Nat.div_add_mod' (t * b + f + rate) b
    unfold refillN
    rw [refill_eq_divMod hf, if_neg (Nat.not_le.mpr hlt)]
    dsimp only
    rw [ih (Nat.mod_lt _ hb) (by omega), hsplit, Nat.add_right_comm _ rate, Nat.add_assoc _ (n * rate)]

/-- A second of B beats below the cap gains RATE tokens and keeps the fraction. -/
theorem refillN_seconds {n : Nat} (hf : f < b) (hcap : t + n * rate < bs) :
    refillN (n * b) t f rate bs b = (t + n * rate, f) := by
  have hb : 0 < b := Nat.zero_lt_of_lt hf
  have hsum : t * b + f + n * b * rate = b * (t + n * rate) + f := by ring
  have hle : b * (t + n * rate + 1) ≤ b * bs := Nat.mul_le_mul_left b hcap
  rw [refillN_below_cap hf (by rw [hsum, Nat.mul_comm bs]; linarith), hsum, Nat.mul_add_div hb, Nat.mul_add_mod,
    Nat.div_eq_of_lt hf, Nat.mod_eq_of_lt hf]
  rfl

theorem refill_fst_le : (refill t f rate bs b).1 ≤ bs := by
  rw [refill_eq_ite]
  split <;> split <;> dsimp only <;> omega

theorem refill_snd_lt (hf : f < b) : (refill t f rate bs b).2 < b := by
  have hb : 0 < b := Nat.zero_lt_of_lt hf
  rw [refill_eq_divMod hf]
  split
  · exact hb
  · exact Nat.mod_lt _ hb

end

/-! ### The word of a bucket -/

theorem bitsOf_lt (v : Word) (lo w : Nat) : bitsOf v lo w < 2 ^ w := Nat.mod_lt _ (Nat.two_pow_pos w)

theorem bitsOf_tokens {t f : Nat} (ht : t < 2 ^ 16) :
    bitsOf (fieldVal 16 16 t ||| fieldVal 0 16 f) 16 16 = t := by
  rw [bitsOf_or]
  unfold bitsOf fieldVal
  rw [BitVec.toNat_ofNat, BitVec.toNat_ofNat, show t % 2 ^ 16 * 2 ^ 16 % 2 ^ 32 / 2 ^ 16 % 2 ^ 16 = t by omega,
    show f % 2 ^ 16 * 2 ^ 0 % 2 ^ 32 / 2 ^ 16 % 2 ^ 16 = 0 by omega, Nat.or_zero]

theorem bitsOf_fraction {t f : Nat} (hf : f < 2 ^ 16) : bitsOf (fieldVal 16 16 t ||| fieldVal 0 16 f) 0 16 = f := by
  rw [bitsOf_or]
  unfold bitsOf fieldVal
  rw [BitVec.toNat_ofNat, BitVec.toNat_ofNat, show t % 2 ^ 16 * 2 ^ 16 % 2 ^ 32 / 2 ^ 0 % 2 ^ 16 = 0 by omega,
    show f % 2 ^ 16 * 2 ^ 0 % 2 ^ 32 / 2 ^ 0 % 2 ^ 16 = f by omega, Nat.zero_or]

/-- A bucket's word, refilled once, holds what R286 answers: neither part outgrows its field. -/
theorem bitsOf_bucketN_one {w : Word} {rate bs b : Nat} (hf : bitsOf w 0 16 < b) (hb : b < 2 ^ 16) (hbs : bs < 2 ^ 16) :
    (bitsOf (bucketN 1 w rate bs b) 16 16, bitsOf (bucketN 1 w rate bs b) 0 16) =
      refill (bitsOf w 16 16) (bitsOf w 0 16) rate bs b := by
  have ht := (refill_fst_le (t := bitsOf w 16 16) (f := bitsOf w 0 16) (rate := rate) (b := b)).trans_lt hbs
  have hf' := (refill_snd_lt (t := bitsOf w 16 16) (rate := rate) (bs := bs) hf).trans hb
  change (bitsOf (fieldVal 16 16 (refill _ _ _ _ _).1 ||| fieldVal 0 16 (refill _ _ _ _ _).2) 16 16,
    bitsOf (fieldVal 16 16 (refill _ _ _ _ _).1 ||| fieldVal 0 16 (refill _ _ _ _ _).2) 0 16) = _
  rw [bitsOf_tokens ht, bitsOf_fraction hf']

/-! ### The valid policers, each listed once -/

/-- What does not read as unlisted is listed. -/
theorem mem_of_tabGet_ne {α : Type} {d : Nat → α} {k : Nat} :
    ∀ {t : Tab α}, tabGet d t k ≠ d k → (k, tabGet d t k) ∈ t
  | [], h => absurd rfl h
  | (k', v) :: t, h => by
    rw [tabGet_cons] at h ⊢
    split
    · next e => exact e ▸ List.mem_cons_self
    · next e =>
      rw [if_neg e] at h
      exact List.mem_cons_of_mem _ (mem_of_tabGet_ne h)

/-- Keys at or above the bound, in rising order. -/
theorem tabWfFrom_keys {α : Type} [DecidableEq α] {d : Nat → α} :
    ∀ {t : Tab α} {n : Nat}, tabWfFrom d n t = true → (∀ x ∈ t, n ≤ x.1) ∧ t.Pairwise fun x y => x.1 < y.1
  | [], _, _ => ⟨fun _ h => absurd h List.not_mem_nil, List.Pairwise.nil⟩
  | (k, v) :: t, n, h => by
    simp only [tabWfFrom, Bool.and_eq_true, decide_eq_true_eq] at h
    obtain ⟨⟨hn, -⟩, ht⟩ := h
    obtain ⟨hlow, hrise⟩ := tabWfFrom_keys ht
    refine ⟨fun x hx => ?_, .cons hlow hrise⟩
    rcases List.mem_cons.mp hx with rfl | hx
    · exact hn
    · exact (hn.trans (Nat.le_succ k)).trans (hlow x hx)

section
variable {s : State} {k : Nat}

theorem mem_polsValid (hk : k < 8192) (hv : bit s R_POL_CFG k 2 = true) : k ∈ polsValid s := by
  have hbit : bitsOf (rdi s R_POL_CFG k) 2 1 = 1 := of_decide_eq_true hv
  have hcold : bitsOf (rfCold (regKey R_POL_CFG k)) 2 1 = 0 := by
    unfold rfCold
    rw [regKey_div hk]
    rfl
  have hne : rdi s R_POL_CFG k ≠ rfCold (regKey R_POL_CFG k) := fun e => by rw [e, hcold] at hbit; cases hbit
  refine List.mem_filterMap.mpr ⟨_, mem_of_tabGet_ne hne, ?_⟩
  rw [if_pos ⟨regKey_div hk, hbit⟩]
  exact congrArg some (Nat.mul_add_mod_of_lt hk)

theorem polsValid_lt {j : Nat} (h : j ∈ polsValid s) : j < 8192 := by
  obtain ⟨x, -, hx⟩ := List.mem_filterMap.mp h
  split at hx
  · exact Option.some.inj hx ▸ Nat.mod_lt _ (by decide)
  · cases hx

theorem polsValid_nodup (hw : Regs.wf s) : (polsValid s).Nodup := by
  refine (tabWfFrom_keys hw).2.filterMap _ fun x y hxy i hi j hj => ?_
  simp only [Option.ite_none_right_eq_some, Option.some.injEq] at hi hj
  obtain ⟨⟨hx, -⟩, rfl⟩ := hi
  obtain ⟨⟨hy, -⟩, rfl⟩ := hj
  omega

theorem shapersOn_lt {x : Nat × Nat} (h : x ∈ shapersOn s) : x.1 < 8192 := by
  obtain ⟨y, -, hy⟩ := List.mem_filterMap.mp h
  dsimp only at hy
  split at hy
  · exact Option.some.inj hy ▸ Nat.mod_lt _ (by decide)
  · cases hy

end

/-! ### What the refill of others leaves of a policer -/

/-- The register file stays canonical, and policer `k` keeps its registers and the beats per second that paces them. -/
structure SamePolicer (k : Nat) (s t : State) : Prop where
  wf : Regs.wf s → Regs.wf t
  words : ∀ a ≤ R_POL_TP, rdi t a k = rdi s a k
  beats : bps t = bps s

namespace SamePolicer
variable {k : Nat} {s t u : State}

theorem refl (s : State) : SamePolicer k s s := ⟨id, fun _ _ => rfl, rfl⟩

theorem of_rf (h : t.rf = s.rf) : SamePolicer k s t where
  wf hs := (congrArg (tabWf rfCold) h).trans hs
  words a _ := congrArg (tabGet rfCold · (regKey a k)) h
  beats := congrArg (fun rf => bitsOf (tabGet rfCold rf (regKey R_POL_BPS 0)) 0 16) h

theorem trans (h : SamePolicer k s t) (h' : SamePolicer k t u) : SamePolicer k s u :=
  ⟨h'.wf ∘ h.wf, fun a ha => (h'.words a ha).trans (h.words a ha), h'.beats.trans h.beats⟩

theorem fldi_eq (h : SamePolicer k s t) {a : Nat} (ha : a ≤ R_POL_TP) (lo w : Nat) : fldi t a k lo w = fldi s a k lo w :=
  congrArg (bitsOf · lo w) (h.words a ha)

/-- A write beyond the policers, or to a policer other than `k`. -/
theorem write {a i : Nat} (hk : k < 8192) (hi : i < 8192) (h : R_POL_TP < a ∨ i ≠ k ∧ a ≠ R_POL_BPS) (v : Word) :
    SamePolicer k s (wri s a i v) where
  wf := wri_regs s a i v
  words c hc := rdi_wri_other s v fun e => by
    obtain ⟨rfl, rfl⟩ := regKey_inj hk hi e
    exact h.elim (Nat.not_lt.mpr hc) fun h => h.1 rfl
  beats := congrArg (bitsOf · 0 16) (rdi_wri_other s v fun e => by
    obtain ⟨rfl, -⟩ := regKey_inj (by decide) hi e
    exact h.elim (by decide) fun h => h.2 rfl)

theorem foldl {β : Type} {F : State → β → State} {l : List β} (h : ∀ s, ∀ x ∈ l, SamePolicer k s (F s x)) (s : State) :
    SamePolicer k s (l.foldl F s) := by
  induction l generalizing s with
  | nil => exact refl s
  | cons x l ih =>
    exact (h s x List.mem_cons_self).trans (ih (fun s y hy => h s y (List.mem_cons_of_mem x hy)) (F s x))

/-- Where only one of a fold's steps touches policer `k`, that step meets the policer as it was and leaves it as it stays. -/
theorem foldl_once {F : State → Nat → State} {l : List Nat} (hmem : k ∈ l) (hnd : l.Nodup)
    (h : ∀ s, ∀ j ∈ l, j ≠ k → SamePolicer k s (F s j)) (s : State) :
    ∃ v, SamePolicer k s v ∧ SamePolicer k (F v k) (l.foldl F s) := by
  obtain ⟨l, r, rfl⟩ := List.append_of_mem hmem
  rw [List.nodup_middle, List.nodup_cons, List.mem_append, not_or] at hnd
  obtain ⟨⟨hkl, hkr⟩, -⟩ := hnd
  refine ⟨l.foldl F s, foldl (fun s j hj => ?_) s, ?_⟩
  · exact h s j (List.mem_append_left _ hj) (ne_of_mem_of_not_mem hj hkl)
  · rw [List.foldl_append, List.foldl_cons]
    refine foldl (fun s j hj => ?_) _
    exact h s j (List.mem_append_right _ (List.mem_cons_of_mem k hj)) (ne_of_mem_of_not_mem hj hkr)

theorem of_policer {j : Nat} (hk : k < 8192) (hj : j < 8192) (hne : j ≠ k) (n : Nat) : SamePolicer k s (refillPol s j n) :=
  (write hk hj (.inr ⟨hne, by decide⟩) _).trans (write hk hj (.inr ⟨hne, by decide⟩) _)

theorem of_shaper {e : Nat} (hk : k < 8192) (he : e < 8192) (q n : Nat) : SamePolicer k s (refillSh s e q n) :=
  have ha : R_POL_TP < R_SCH_Q_BURST + 8 * q := (by decide : R_POL_TP < R_SCH_Q_BURST).trans_le (Nat.le_add_right _ _)
  (write hk he (.inl ha) _).trans (of_rf rfl)

end SamePolicer

/-! ### The REFILL task reaches each valid policer once (R138, R286) -/

section
variable {s : State} {k : Nat}

theorem rdi_refillPol (hw : Regs.wf s) (hk : k < 8192) (n : Nat) :
    rdi (refillPol s k n) R_POL_TC k = bucketN n (rdi s R_POL_TC k) (fldi s R_POL_CIR k 0 24) (fldi s R_POL_BS k 0 16) (bps s) ∧
    rdi (refillPol s k n) R_POL_TP k = bucketN n (rdi s R_POL_TP k) (fldi s R_POL_PIR k 0 24) (fldi s R_POL_BS k 16 16) (bps s) := by
  have hne : ∀ {a b : Nat}, a ≠ b → regKey a k ≠ regKey b k := fun hab e => hab (regKey_inj hk hk e).1
  unfold refillPol fldi
  dsimp only
  constructor
  · rw [rdi_wri_other _ _ (hne (by decide)), rdi_wri_same _ _ _ _ hw]
  · rw [rdi_wri_same _ _ _ _ (wri_regs _ _ _ _ hw), rdi_wri_other _ _ (hne (by decide)), rdi_wri_other _ _ (hne (by decide)),
      rdi_wri_other _ _ (hne (by decide))]

/-- A task that reaches every policer refills a valid one, that no earlier beat missed, once; nothing before or after it in
the task touches that policer. -/
theorem refillTask_policer (hw : Regs.wf s) (hk : k < 8192) (hv : bit s R_POL_CFG k 2 = true)
    (hm : s.time.refillMiss.contains k = false) (sh : List Nat) :
    ∃ v, SamePolicer k s v ∧ SamePolicer k (refillPol v k 1) (refillTask s [] sh) := by
  have hcount : s.time.refillMiss.count k = 0 := List.count_eq_zero.mpr (by simpa using hm)
  obtain ⟨v, hbefore, hafter⟩ := SamePolicer.foldl_once (F := fun u j => refillPol u j (1 + s.time.refillMiss.count j))
    (mem_polsValid hk hv) (polsValid_nodup hw) (fun _ _ hj hne => .of_policer hk (polsValid_lt hj) hne _) s
  rw [hcount] at hafter
  have hshapers (u : State) : SamePolicer k u ((shapersOn u).foldl (fun u x =>
      if sh.contains (qn x.1 x.2) then u else refillSh u x.1 x.2 (1 + s.time.shaperMiss.count (qn x.1 x.2))) u) := by
    refine .foldl (fun u x hx => ?_) u
    split
    · exact .refl u
    · exact .of_shaper hk (shapersOn_lt hx) _ _
  refine ⟨v, hbefore, (hafter.trans (hshapers _)).trans (.of_rf ?_)⟩
  unfold refillTask
  rfl

/-- The words of a valid policer's two buckets after the task. -/
theorem rdi_refillTask (hw : Regs.wf s) (hk : k < 8192) (hv : bit s R_POL_CFG k 2 = true)
    (hm : s.time.refillMiss.contains k = false) (sh : List Nat) :
    rdi (refillTask s [] sh) R_POL_TC k =
      bucketN 1 (rdi s R_POL_TC k) (fldi s R_POL_CIR k 0 24) (fldi s R_POL_BS k 0 16) (bps s) ∧
    rdi (refillTask s [] sh) R_POL_TP k =
      bucketN 1 (rdi s R_POL_TP k) (fldi s R_POL_PIR k 0 24) (fldi s R_POL_BS k 16 16) (bps s) := by
  obtain ⟨v, hbefore, hafter⟩ := refillTask_policer hw hk hv hm sh
  rw [hafter.words _ (by decide), hafter.words _ (by decide), ← hbefore.words R_POL_TC (by decide),
    ← hbefore.words R_POL_TP (by decide), ← hbefore.beats, ← hbefore.fldi_eq (a := R_POL_CIR) (by decide),
    ← hbefore.fldi_eq (a := R_POL_PIR) (by decide), ← hbefore.fldi_eq (a := R_POL_BS) (by decide),
    ← hbefore.fldi_eq (a := R_POL_BS) (by decide)]
  exact rdi_refillPol (hbefore.wf hw) hk 1

end

/-- Settles O51: a refill adds RATE in B-ths of a token, so that a second of B beats adds RATE whole tokens; and the task refills
each valid policer once, with its own rates and bursts. -/
theorem refillGainsExactlyTheRate : Obligations.RefillGainsExactlyTheRate := by
  unfold Obligations.RefillGainsExactlyTheRate
  refine ⟨fun _ _ _ _ _ _ _ => refill_eq_ite, fun s k sh hs hk hv hm hc hp => ?_, fun _ _ _ _ _ _ => refillN_seconds⟩
  obtain ⟨htc, htp⟩ := rdi_refillTask hs.sound.regs (hk.trans (by decide)) hv hm sh
  dsimp only
  unfold fldi at hc hp ⊢
  rw [htc, htp]
  exact ⟨bitsOf_bucketN_one hc (bitsOf_lt ..) (bitsOf_lt ..), bitsOf_bucketN_one hp (bitsOf_lt ..) (bitsOf_lt ..)⟩

end Sys2Proof.Machine
end

section
namespace Sys2Proof.Machine

/-! ## Ledger time never goes back (R428, R429) -/

section
variable {c : Instr} {s t : State} {n : Nat}

theorem clockFrom_begin (h : ClockFrom n s) : ClockFrom n (begin_ s) := clock_of_eq h rfl

/-- What is left of the beat passes forward in time, and the boundary itself moves no clock. -/
theorem beatBoundary_clockFrom {env : BeatEnv} (h : ClockFrom n s) (ht : exec (.beatBoundary env) s = .next t) : ClockFrom n t := by
  cases hc : clocked s with
  | false =>
    rw [exec_beatBoundary_unclocked hc] at ht
    cases ht
    exact clockFrom_begin h
  | true =>
    rw [exec_beatBoundary_clocked hc] at ht
    cases ht
    exact clock_of_kept (pass_clock _ (clockFrom_begin h)) fun k => boundary_kept env _ k rfl

/-- TRIM_UPDATE moves TRIM and leaves ledger time. -/
theorem trimUpdate_units {periods : Nat} (ht : exec (.trimUpdate periods) s = .next t) : ltimeUnits t = ltimeUnits s := by
  rw [exec_trimUpdate] at ht
  unfold execTrimUpdate whenRunning at ht
  cases ht
  split
  · dsimp only
    split
    · rfl
    · rfl
  · rfl

/-- Of the commands that move the clock only the loss of VBKP and its return take it back. -/
theorem exec_units_le (h : s.Clock) (hl : c ≠ .vbkpLoss) (hp : c ≠ .vbkpPowerUp) (ht : exec c s = .next t) :
    ltimeUnits s ≤ ltimeUnits t := by
  have hs : ClockFrom (ltimeUnits s) s := ⟨h, Nat.le_refl _⟩
  cases hc : movesClock c with
  | false => exact (clock_of_eq hs (exec_clock_eq hc ht)).later
  | true =>
    unfold movesClock at hc
    split at hc
    · exact (beatBoundary_clockFrom hs ht).later
    · exact absurd rfl hl
    · exact absurd rfl hp
    · exact (trimUpdate_units ht).ge
    · cases hc

theorem tick_units_le (h : s.Clock) : ltimeUnits s ≤ ltimeUnits (tick s) :=
  (pass_clock 1 (clockFrom_begin ⟨h, Nat.le_refl _⟩)).later

end

/-- Settles O5: a tick and the rest of a beat pass forward in time, TRIM_UPDATE moves TRIM alone, and no other command that
the step may run moves the clock. -/
theorem ledgerTimeNeverGoesBack : Obligations.LedgerTimeNeverGoesBack := by
  unfold Obligations.LedgerTimeNeverGoesBack
  refine ⟨fun s t h ht hloss hup => ?_, fun c s t hc ht => ?_⟩
  · unfold step at ht
    split at ht
    next =>
      cases ht
      exact tick_units_le h.clock
    next c rest hq =>
      rw [hq] at hloss hup
      have hle := exec_units_le (inv_pending h rest).clock (fun e => hloss (congrArg some e)) (fun e => hup (congrArg some e)) ht
      exact hle
  · have h := exec_clock_eq hc ht
    simp only [Prod.mk.injEq] at h
    exact h

end Sys2Proof.Machine
end

section
namespace Sys2Proof.Machine

/-! ## The distance of one tooth (R463, R464) -/

section
variable (s : State) (n : Nat)

/-- What a counted tooth leaves of the wheels: the remainder by NR, and the quotient on ODO and on an open trip, each sticking
at all ones of 48 bits. ODO_FINAL, where it is raised, changes none of them. -/
theorem addDistance_wheels : (addDistance s n).wheels = { s.wheels with
    acc := (s.wheels.acc + ttCirc s n) % ttNR s n,
    odo := min (s.wheels.odo + (s.wheels.acc + ttCirc s n) / ttNR s n) (2 ^ 48 - 1),
    tripMm := if s.ledger.trip.isSome then min (s.wheels.tripMm + (s.wheels.acc + ttCirc s n) / ttNR s n) (2 ^ 48 - 1)
      else s.wheels.tripMm } := by
  unfold addDistance
  dsimp only
  split
  · exact raiseN_wheels _ _
  · rfl

end

/-- Settles O43: the accumulator is divided by NR, and below the limit the quotient and the remainder make it up again. -/
theorem distanceOfOneTooth : Obligations.DistanceOfOneTooth := by
  unfold Obligations.DistanceOfOneTooth
  intro s n
  dsimp only
  rw [addDistance_wheels]
  refine ⟨rfl, rfl, fun ht => if_pos (Option.isSome_iff_ne_none.mpr ht), fun ht => ?_, fun hodo => ?_⟩
  · rw [ht]
    rfl
  · dsimp only
    rw [min_eq_left hodo, Nat.add_sub_cancel_left, Nat.div_add_mod]

end Sys2Proof.Machine
end

section
namespace Sys2Proof.Machine

/-! ## Edges of a tracker (R453, R456 to R459) -/

section
variable {s : State} {n : Fin 6} {w : Nat}

/-- The tracker takes note of an edge that it accepts. -/
def edgeNoted (s : State) (n : Nat) : State :=
  setTt s n { ttOf s n with lastEdge := s.time.ticks, cap := captureNow s, discRow := 0, absorb := none }

/-- A tracker that is not OFF is no unlisted tracker of the table. -/
theorem ttOf_setTt_on (s : State) (n : Nat) {t : Tracker} (h : t.st ≠ .off) : ttOf (setTt s n t) n = t :=
  tget_tset_ne n t fun e => h (congrArg Tracker.st e)

theorem ttOf_edgeNoted {n : Nat} (h : (ttOf s n).st ≠ .off) : ttOf (edgeNoted s n) n =
    { ttOf s n with lastEdge := s.time.ticks, cap := captureNow s, discRow := 0, absorb := none } :=
  ttOf_setTt_on s n h

/-- The tracker watches its input: it is neither OFF nor in FAULT. -/
def ttWatches (s : State) (n : Nat) : Prop := (ttOf s n).st = .sync ∨ (ttOf s n).st = .search

theorem ttWatches.on {n : Nat} (h : ttWatches s n) : (ttOf s n).st ≠ .off := by
  rcases h with h | h <;> rw [h] <;> decide

theorem ttWatches.good {n : Nat} (h : ttWatches s n) : (ttOf s n).st ≠ .fault := by
  rcases h with h | h <;> rw [h] <;> decide

/-- An edge that a tracker accepts: its pulse passes the filter, it comes more than 2 us after the last one, and no synthetic
tooth absorbs it (R453, R459). -/
structure EdgeTaken (s : State) (n : Fin 6) (w : Nat) : Prop where
  passes : fld s (R_TT_CFG2 + 0x40 * n) 0 4 * 100 ≤ w
  apart : (ttOf s n).seen = true → 500 < s.time.ticks - (ttOf s n).lastEdge
  free : (ttOf s n).absorb = none

theorem exec_toothEdge_short (hr : running s = true) (ht : ttWatches s n)
    (hw : w < fld s (R_TT_CFG2 + 0x40 * n) 0 4 * 100) : exec (.toothEdge n w) s = .next (begin_ s) := by
  refine (next_whenRunning_running hr _).trans (congrArg _ ?_)
  unfold toothEdge
  dsimp only
  rw [ttOf_begin, if_neg (not_or.mpr ⟨ht.on, ht.good⟩), fld_begin, if_pos hw]

theorem exec_toothEdge_taken (hr : running s = true) (ht : ttWatches s n) (h : EdgeTaken s n w) :
    exec (.toothEdge n w) s = .next (
      let u := edgeNoted (begin_ s) n
      odoGuard u (if (ttOf s n).st = .sync then edgeInSync u n s.time.ticks else searchTooth u n s.time.ticks)) := by
  refine (next_whenRunning_running hr _).trans (congrArg _ ?_)
  unfold toothEdge
  dsimp only
  rw [ttOf_begin, if_neg (not_or.mpr ⟨ht.on, ht.good⟩), fld_begin, if_neg (Nat.not_lt.mpr h.passes), begin__time,
    if_neg fun e => Nat.not_le.mpr (h.apart e.1) e.2, h.free]
  rfl

theorem exec_toothEdge_search (hr : running s = true) (hs : (ttOf s n).st = .search) (h : EdgeTaken s n w) :
    exec (.toothEdge n w) s = .next (
      let u := edgeNoted (begin_ s) n
      odoGuard u (searchTooth u n s.time.ticks)) := by
  rw [exec_toothEdge_taken hr (.inr hs) h, hs]
  rfl

/-- The period of an edge fits the span that the geometry gives the next tooth (R456). -/
def edgeFits (s : State) (n : Nat) : Bool :=
  consistent s n (ttOf s n).p1 (s.time.ticks - (ttOf s n).te) (nextTooth s n (ttOf s n).tooth).2

theorem edgeInSync_fits {n : Nat} (hs : (ttOf s n).st = .sync) (h : edgeFits s n = true) :
    edgeInSync (edgeNoted (begin_ s) n) n s.time.ticks = syncTooth (edgeNoted (begin_ s) n) n s.time.ticks := by
  obtain ⟨hlo, hhi⟩ := (Bool.and_eq_true _ _).mp h
  have ht := ttOf_edgeNoted (s := begin_ s) (n := n) (by rw [ttOf_begin, hs]; decide)
  unfold edgeInSync
  dsimp only
  rw [ht]
  exact if_pos ⟨.inr hlo, .inr hhi⟩

/-- The reason of a sync that breaks: 1 where the edge comes too early, 2 where it comes too late (Table 17.2). -/
def misfitReason (s : State) (n : Nat) : Nat :=
  if longEnough s n (ttOf s n).p1 (s.time.ticks - (ttOf s n).te) (nextTooth s n (ttOf s n).tooth).2 then 2 else 1

theorem edgeInSync_misfit {n : Nat} (hs : (ttOf s n).st = .sync) (hp : (ttOf s n).p1 ≠ 0) (h : edgeFits s n = false)
    (ht : ttTolerant s n = false) :
    edgeInSync (edgeNoted (begin_ s) n) n s.time.ticks =
      searchTooth (loseSync (edgeNoted (begin_ s) n) n (misfitReason s n)) n s.time.ticks := by
  have hn := ttOf_edgeNoted (s := begin_ s) (n := n) (by rw [ttOf_begin, hs]; decide)
  have hbad : ¬ (longEnough s n (ttOf s n).p1 (s.time.ticks - (ttOf s n).te) (nextTooth s n (ttOf s n).tooth).2 = true ∧
      shortEnough s n (ttOf s n).p1 (s.time.ticks - (ttOf s n).te) (nextTooth s n (ttOf s n).tooth).2 = true) := fun e =>
    ne_true_of_eq_false h ((Bool.and_eq_true _ _).mpr e)
  unfold edgeInSync breakSync
  dsimp only
  rw [hn]
  simp only [ttOf_begin, hp, false_or]
  exact (if_neg hbad).trans (if_pos (ne_true_of_eq_false ht))

theorem exec_toothEdge_fits (hr : running s = true) (hs : (ttOf s n).st = .sync) (h : EdgeTaken s n w)
    (hf : edgeFits s n = true) :
    exec (.toothEdge n w) s = .next (
      let u := edgeNoted (begin_ s) n
      odoGuard u (syncTooth u n s.time.ticks)) := by
  rw [exec_toothEdge_taken hr (.inl hs) h]
  dsimp only
  rw [if_pos hs, edgeInSync_fits hs hf]

theorem exec_toothEdge_misfit (hr : running s = true) (hs : (ttOf s n).st = .sync) (h : EdgeTaken s n w)
    (hp : (ttOf s n).p1 ≠ 0) (hf : edgeFits s n = false) (ht : ttTolerant s n = false) :
    exec (.toothEdge n w) s = .next (
      let u := edgeNoted (begin_ s) n
      odoGuard u (searchTooth (loseSync u n (misfitReason s n)) n s.time.ticks)) := by
  rw [exec_toothEdge_taken hr (.inl hs) h]
  dsimp only
  rw [if_pos hs, edgeInSync_misfit hs hp hf ht]

end

/-! ## Missing teeth, stalls and faults (R454, R459, R460) -/

section
variable {s : State} {n : Fin 6}

theorem exec_syntheticTooth_overdue (hr : running s = true) (hs : (ttOf s n).st = .sync) (ht : ttTolerant s n = true)
    (hp : (ttOf s n).p1 ≠ 0) (hb : (ttOf s n).bad = false) (ho : toothOverdue s n = true) :
    exec (.syntheticTooth n) s = .next (
      let sp := (nextTooth s n (ttOf s n).tooth).2
      let at_ := (ttOf s n).te + sp * predict (ttOf s n)
      let u := syncTooth (begin_ s) n at_
      statInc (setTt u n { ttOf u n with
        bad := true, absorb := some (max u.time.ticks (at_ + ttTol u n * sp * predict (ttOf s n) / 100) + ttTol u n * sp * predict (ttOf s n) / 100) })
        (R_TT_SYNTH + 0x40 * n.val)) := by
  refine (next_whenRunning_running hr _).trans (congrArg _ ?_)
  have hgo : ¬ ((ttOf s n).st ≠ .sync ∨ (! ttTolerant s n) = true ∨ (ttOf s n).p1 = 0 ∨ (ttOf s n).bad = true ∨
      (! toothOverdue s n) = true) := by
    rintro (h | h | h | h | h)
    · exact h hs
    · exact bnot_ne_true ht h
    · exact hp h
    · exact ne_true_of_eq_false hb h
    · exact bnot_ne_true ho h
  exact if_neg hgo

theorem exec_trackerStall_past (hr : running s = true) (hp : stillPast s (ttOf s n).te = true) :
    exec (.trackerStall n) s = .next (
      if (ttOf s n).st = .sync then spdSafe (setTt (begin_ s) n { searchFrom (ttOf s n) with loss := 4, speedOff := true }) n
      else if (ttOf s n).st = .search then setTt (begin_ s) n { searchFrom (ttOf s n) with speedOff := true }
      else begin_ s) :=
  (next_whenRunning_running hr _).trans (congrArg _ (if_neg (bnot_ne_true hp)))

theorem exec_trackerFault_code {c : Fin 4} (hr : running s = true) (hc : c.val ≠ 0) :
    exec (.trackerFault n c) s = .next (enterTtFault (begin_ s) n c) :=
  (next_whenRunning_running hr _).trans (congrArg _ (if_neg hc))

theorem exec_trackerFaultClear_faulted (hr : running s = true) (hs : (ttOf s n).st = .fault) :
    exec (.trackerFaultClear n) s = .next (odoGuard (begin_ s) (quorumCheck (setTt (begin_ s) n { searchFrom (ttOf s n) with
      fault := 0, seen := false, p1 := 0, moving := decide (ttRole s n = 1), motAt := s.time.ticks }))) :=
  (next_whenRunning_running hr _).trans (congrArg _ (if_pos hs))

theorem exec_motionTimeout_past (hr : running s = true) (hp : stillPast s (ttOf s n).motAt = true) :
    exec (.motionTimeout n) s = .next (settle (setTt (begin_ s) n { ttOf s n with moving := false })) :=
  (next_whenRunning_running hr _).trans (congrArg _ (if_pos hp))

theorem exec_angleEvent_reached {k : Fin 64} (hr : running s = true) (hv : evtValid s k = true) (hn : evtTracker s k < 6)
    (hs : (ttOf s (evtTracker s k)).st = .sync) (hf : tget false s.wheels.fired k = false) (ha : angleReached s k = true) :
    exec (.angleEvent k) s = .next (evtPass (begin_ s) k) :=
  (next_whenRunning_running hr _).trans (congrArg _ (if_pos ⟨hv, hn, hs, ne_true_of_eq_false hf, ha⟩))

end

/-- Settles O42: an edge is judged by the filter, the distance from the last one and the absorbing window, and then by the
tracker's state and the span of its next tooth; each other event meets a device that runs and the branch that its premises
name. -/
theorem trackersAndAngles : Obligations.TrackersAndAngles := by
  unfold Obligations.TrackersAndAngles
  refine ⟨fun s n w hr hs hw => exec_toothEdge_short hr (.inl hs) hw,
    fun s n w hr hs hw ha hb hf => exec_toothEdge_fits hr hs ⟨hw, ha, hb⟩ hf,
    fun s n w hr hs hw ha hb hp hf ht => exec_toothEdge_misfit hr hs ⟨hw, ha, hb⟩ hp hf ht,
    fun s n w hr hs hw ha hb => exec_toothEdge_search hr hs ⟨hw, ha, hb⟩,
    fun s n hr hs ht hp hb ho => exec_syntheticTooth_overdue hr hs ht hp hb (decide_eq_true ho),
    fun s n hr hs hp => ?_, fun s n hr hs hp => ?_, fun s n c hr hc => exec_trackerFault_code hr hc,
    fun s n hr hs => exec_trackerFaultClear_faulted hr hs,
    fun s n hr hp => exec_motionTimeout_past hr (decide_eq_true hp),
    fun s k hr hv hn hs hf ha => exec_angleEvent_reached hr hv hn hs hf ?_⟩
  · rw [exec_trackerStall_past hr (decide_eq_true hp), if_pos hs]
  · rw [exec_trackerStall_past hr (decide_eq_true hp), hs, if_neg (by decide), if_pos rfl]
  · obtain ⟨hpos, hle⟩ := ha
    exact (Bool.and_eq_true _ _).mpr ⟨decide_eq_true hpos, decide_eq_true hle⟩

end Sys2Proof.Machine
end

section
namespace Sys2Proof.Machine

/-! ## Conversions, bolt moves and outputs (R471, R473, R476, R479 to R482) -/

section
variable {s : State}

theorem exec_conversionDone_running {ch : Fin 4} {x y th : BitVec 16} (hr : running s = true) :
    exec (.conversionDone ch x y th) s = .next (conversion (begin_ s) ch x.toInt y.toInt th.toNat) :=
  next_whenRunning_running hr _

theorem conversion_none {n th : Nat} {x y : Int} (hc : (fbOf s n).conv = none) : conversion s n x y th = s := by
  unfold conversion
  dsimp only
  rw [hc]

theorem exec_boltLimit_moving {b : Fin 4} (hr : running s = true) (hm : boltMoving (boltOf s b) = true) :
    exec (.boltLimit b) s = .next (faultMove (begin_ s) b) :=
  (next_whenRunning_running hr _).trans (congrArg _ (if_pos hm))

theorem retryBolt_starts {b : Nat} {e : Bool} (hw : (boltOf s b).want = some e) (ha : (boltOf s b).attempts < 3)
    (hm : canMove s b e = true) : retryBolt s b = startMove s b e false := by
  unfold retryBolt
  rw [hw]
  exact (if_neg (Nat.not_le.mpr ha)).trans (if_pos hm)

theorem exec_boltRetry_starts {b : Fin 4} {e : Bool} (hr : running s = true) (hw : (boltOf s b).want = some e)
    (ha : (boltOf s b).attempts < 3) (hm : canMove s b e = true) :
    exec (.boltRetry b) s = .next (startMove (begin_ s) b e false) :=
  (next_whenRunning_running hr _).trans (congrArg _ (retryBolt_starts hw ha hm))

theorem exec_keysafeHoldExpiry_released {b : Nat} (hr : running s = true) (hb : boltOfKind s 2 = some b)
    (ht : fld s (R_FB_BOLT_CFG2 + 0x20 * b) 8 8 ≠ 0) (hs : (boltOf s b).st = .released) :
    exec .keysafeHoldExpiry s = .next (requestMove (begin_ s) b true) := by
  refine (next_whenRunning_running hr _).trans (congrArg _ ?_)
  rw [boltOfKind_begin, hb]
  exact if_pos ⟨ht, hs⟩

theorem exec_cmpoPulseEnd_high {k : Fin 4} (hr : running s = true) (hk : s.wheels.pulses.getLsbD k = true) :
    exec (.cmpoPulseEnd k) s = .next (setCmpo (begin_ s) k false) :=
  (next_whenRunning_running hr _).trans (congrArg _ (if_pos hk))

theorem exec_excOverload_on {ch : Fin 4} (hr : running s = true) (he : excOn s ch = true) :
    exec (.excOverload ch) s = .next (chanFault (begin_ s) ch 6) :=
  (next_whenRunning_running hr _).trans (congrArg _ (if_pos he))

end

/-! ## FB_CAL and BOLT_MOVE (R474, R479) -/

section
variable {s : State} {r : Req} {role : Nat}

/-- The average becomes a channel's NOM at the next beat boundary, and stands in the channel's record of a valid map at once. -/
def nomCalibrated (ch : BitVec 8) (avg : Nat) (u : State) : State :=
  let v := schedule u [(R_FB_CFG + 0x100 * ch.toNat, 0, putBits (rd u (R_FB_CFG + 0x100 * ch.toNat)) 16 16 avg)] .plain
  if v.boot.mapValid then setMap v (nomInMap v.map ch.toNat avg) else v

theorem exec_fbCal_granted {ch : BitVec 8} {avg : Nat} (h : Granted 0x0B04 r role judgeInstaller s) (hch : ch.toNat ≤ 3)
    (ho : convOpen (heard 0x0B04 r role s) ch.toNat = true) (hlo : 4000 ≤ avg) (hhi : avg ≤ 30000) :
    exec (.fbCal r ch avg) s = .next (
      ok 0x0B04 r (nomCalibrated ch avg (admitted 0x0B04 r role s)) (leBytes 2 avg ++ leBytes 2 0)) := by
  rw [exec_fbCal]
  unfold execFbCal
  refine congrArg _ (dispatch_ok (f := fun u => (nomCalibrated ch avg u, leBytes 2 avg ++ leBytes 2 0)) h (by decide) ?_)
  dsimp only
  rw [if_neg (Nat.not_lt.mpr hch), if_neg (bnot_ne_true ho), if_neg (not_or.mpr ⟨Nat.not_lt.mpr hlo, Nat.not_lt.mpr hhi⟩)]
  rfl

theorem exec_boltMove_granted {bolt dir : BitVec 8} (h : Granted 0x0B05 r role judgeInstaller s) (hb : bolt.toNat ≤ 3)
    (hd : dir.toNat ≤ 1) (hk : boltKind (heard 0x0B05 r role s) bolt.toNat ≠ 0)
    (hh : held (heard 0x0B05 r role s) (6 + boltCh (heard 0x0B05 r role s) bolt.toNat) = false)
    (hm : canMove (heard 0x0B05 r role s) bolt.toNat (decide (dir.toNat = 1)) = true) :
    exec (.boltMove r bolt dir) s = .next (ok 0x0B05 r (let u := admitted 0x0B05 r role s
      startMove (setBolt u bolt.toNat { boltOf u bolt.toNat with attempts := 0 }) bolt.toNat (decide (dir.toNat = 1)) false) []) := by
  rw [exec_boltMove]
  unfold execBoltMove
  refine congrArg _ (dispatch_do (fun u => startMove (setBolt u bolt.toNat { boltOf u bolt.toNat with attempts := 0 })
    bolt.toNat (decide (dir.toNat = 1)) false) h (by decide) ?_)
  dsimp only
  rw [if_neg (not_or.mpr ⟨Nat.not_lt.mpr hb, not_or.mpr ⟨Nat.not_lt.mpr hd, hk⟩⟩),
    if_neg (not_or.mpr ⟨ne_true_of_eq_false hh, bnot_ne_true hm⟩)]

end

/-- Settles O44: each event meets a device that runs and the branch that its premises name; each command passes the
dispatcher with its own checks met, and has the effect that its plan names. -/
theorem feedbackAndBolts : Obligations.FeedbackAndBolts := by
  unfold Obligations.FeedbackAndBolts
  exact ⟨fun s ch x y th hr => exec_conversionDone_running hr, fun s n x y th hc => conversion_none hc,
    fun s b hr hm => exec_boltLimit_moving hr hm, fun s b e hr hw ha hm => exec_boltRetry_starts hr hw ha hm,
    fun s b hr hb ht hs => exec_keysafeHoldExpiry_released hr hb ht hs, fun s k hr hk => exec_cmpoPulseEnd_high hr hk,
    fun s ch hr he => exec_excOverload_on hr he,
    fun s r role ch avg h hch ho hlo hhi => exec_fbCal_granted h hch ho hlo hhi,
    fun s r role bolt dir h hb hd hk hh hm => exec_boltMove_granted h hb hd hk hh hm⟩

end Sys2Proof.Machine
end

section
namespace Sys2Proof.Machine

/-! ## Arming, entering and leaving freeze (R580 to R583) -/

section
variable {s : State}

/-- An armed fall of FREEZE_N: the freeze is shown and counted, the arming ends, and the angle and compare outputs are low. -/
def frozen (s : State) : State :=
  let u := statInc (orReg s R_DBG_FRZ_STAT 0 (fieldMask 30 1)) R_DBG_FRZ_CNT
  { u with freeze := { s.freeze with armed := false, frozen := true, shadow := 0, held := [] },
           wheels := { s.wheels with spd := 0, cmpo := 0, pulses := 0 } }

theorem exec_freezeEnter_armed (hr : running s = true) (ha : freezeArmed s = true) :
    exec .freezeEnter s = .next (frozen (begin_ s)) :=
  (next_whenRunning_running hr _).trans (congrArg _ (if_neg (bnot_ne_true ha)))

theorem exec_freezeIgnored_unarmed (hs : s.power.phase ≠ .asleep) (hp : s.power.phase ≠ .railPhase) (hv : vioUp s = true)
    (hf : s.freeze.frozen = false) (ha : freezeArmed s = false) :
    exec .freezeIgnored s = .next (raise (statInc (begin_ s) R_DBG_FRZ_IGN) .freezeIgnored) := by
  have hheard : ¬ (s.power.phase = .asleep ∨ s.power.phase = .railPhase ∨ (! vioUp s) = true ∨ s.freeze.frozen = true ∨
      freezeArmed s = true) := by
    rintro (h | h | h | h | h)
    · exact hs h
    · exact hp h
    · exact bnot_ne_true hv h
    · exact ne_true_of_eq_false hf h
    · exact ne_true_of_eq_false ha h
  exact congrArg _ (if_neg hheard)

theorem exec_freezeExit_frozen (hf : s.freeze.frozen = true) :
    exec .freezeExit s = .next (restart (begin_ s) (max s.freeze.shadow 250)) := by
  rw [exec_freezeExit]
  unfold execFreezeExit
  dsimp only
  rw [begin__freeze, hf, if_pos rfl]

theorem exec_freezeWindowEnd_over (hr : running s = true) (ha : freezeArmed s = false) :
    exec .freezeWindowEnd s = .next (disarm (begin_ s)) :=
  (next_whenRunning_running hr _).trans (congrArg _ (if_neg (ne_true_of_eq_false ha)))

variable {r : Req} {role : Nat}

/-- FREEZE_ARM's own entry is committed, and freeze is armed for its window by the role that asked for it. -/
def freezeArmedBy (r : Req) (role w : Nat) (v : State) : State :=
  let u := commitEntry v (.freezeArm role r.session.toNat)
  { u with freeze := { u.freeze with armed := true, armRole := role, armEnd := u.time.ticks + w * ticksPerS } }

theorem exec_freezeArm_granted {w : BitVec 16} (h : Granted 0x0D01 r role (judgeRight false false true true armModes) s)
    (hlo : 1 ≤ w.toNat) (hhi : w.toNat ≤ 3600)
    (hl : ledgerLive (heard 0x0D01 r role s) = true → ledgerRoomFor (heard 0x0D01 r role s) 2 = true) :
    exec (.freezeArm r w) s = .next (ok 0x0D01 r
      (freezeArmedBy r (curRole (heard 0x0D01 r role s)) w.toNat (admitted 0x0D01 r role s)) []) := by
  have hrange : ¬ (w.toNat = 0 ∨ w.toNat > 3600) := by omega
  rw [exec_freezeArm]
  unfold execFreezeArm
  refine congrArg _ (dispatch_do (freezeArmedBy r (curRole (heard 0x0D01 r role s)) w.toNat) h (by decide) ?_)
  dsimp only
  rw [if_neg hrange, if_neg fun e => e.2 (hl e.1)]
  rfl

theorem exec_freezeDisarm_granted (h : Granted 0x0D02 r role (judgeRight false false true true Mode.awake) s) :
    exec (.freezeDisarm r) s = .next (ok 0x0D02 r (disarm (admitted 0x0D02 r role s)) []) := by
  rw [exec_freezeDisarm]
  unfold execFreezeDisarm
  exact congrArg _ (dispatch_do disarm h (by decide) rfl)

end

/-! ## The snapshot (R584) -/

section
variable {s : State}

theorem exec_snapAddr_powered {a : BitVec 40} (ht : tapUp s = true) :
    exec (.snapAddr a) s = .next { begin_ s with freeze := { s.freeze with snapAddr := a.toNat } } :=
  congrArg _ (if_pos ht)

/-- SNAP_DATA answers a capture, and the address moves on by 4. -/
def snapTaken (u : State) (w : Option Word) : State :=
  { u with
    freeze := { u.freeze with snapAddr := (u.freeze.snapAddr + 4) % 2 ^ 40,
                              snapData := match w with
                                | some w => (1 : BitVec 1) ++ w
                                | none => 0 },
    out := { u.out with rdata := [w.getD 0] } }

theorem snapTaken_some (w : Word) : snapTaken (begin_ s) (some w) = { begin_ s with
    freeze := { s.freeze with snapAddr := (s.freeze.snapAddr + 4) % 2 ^ 40, snapData := (1 : BitVec 1) ++ w },
    out := { Outp.none with rdata := [w] } } := rfl

theorem exec_snapData_powered (ht : tapUp s = true) :
    exec .snapData s = .next (
      snapTaken (capture (begin_ s) s.freeze.snapAddr).2 (capture (begin_ s) s.freeze.snapAddr).1) :=
  congrArg _ (if_neg (bnot_ne_true ht))

theorem capShut_running {a : Nat} (hf : s.freeze.frozen = false) : capShut s a = true := by
  unfold capShut
  rw [hf]
  rfl

theorem capShut_open {a : Nat} (hf : s.freeze.frozen = true) (ha : a % 4 = 0) (hd : snapDis s = false) :
    capShut s a = false := by
  unfold capShut
  rw [hf, ha, hd]
  rfl

theorem capture_shut {a : Nat} (h : capShut s a = true) : capture s a = (none, s) := if_pos h

theorem capture_register {a : Nat} (h : capShut s a = false) (hr : regionOf a = some .reg) :
    capture s a = (some (snapReg s (a - regBase)), s) := by
  unfold capture
  rw [h, hr, if_neg Bool.false_ne_true]
  rfl

end

/-- Settles O21: each event of a freeze meets the branch that its premises name, each command passes the dispatcher, and a
snapshot's answer is that of its capture. -/
theorem freezeAndSnapshot : Obligations.FreezeAndSnapshot := by
  unfold Obligations.FreezeAndSnapshot
  refine ⟨fun s hr ha => exec_freezeEnter_armed hr ha, fun s hs hp hv hf ha => exec_freezeIgnored_unarmed hs hp hv hf ha,
    fun s hf => exec_freezeExit_frozen hf, fun s hr ha => exec_freezeWindowEnd_over hr ha,
    fun s r role w h hlo hhi hl => exec_freezeArm_granted h hlo hhi hl, fun s r role h => exec_freezeDisarm_granted h,
    fun s a ht => exec_snapAddr_powered ht, fun s ht hf => ?_, fun s ht hf ha hd hr => ?_⟩
  · rw [exec_snapData_powered ht, capture_shut (s := begin_ s) (capShut_running hf)]
    rfl
  · dsimp only
    rw [exec_snapData_powered ht, capture_register (s := begin_ s) (capShut_open hf ha hd) hr, snapTaken_some]

end Sys2Proof.Machine
end

section
namespace Sys2Proof.Machine

/-! ## Ledger entries and ledger time (R428, R429, R434, R440, R443, R449) -/

section
variable {s : State}

/-- The oldest queued entry can be programmed: the core is clocked, the supply holds, the ledger is not FINAL and waits for no
SEAL, and the next position is erased (R440, R442, R443, R449). -/
structure CommitReady (s : State) : Prop where
  clocked : clocked s = true
  supplied : s.power.lowEnergy = false
  queued : s.ledger.queue ≠ []
  live : s.ledger.final = false
  whole : s.ledger.lastGood = none
  erased : sectorReady s = true

theorem exec_ledgerCommit_ready (h : CommitReady s) (programOk : Bool) :
    exec (.ledgerCommit programOk) s = .next (if programOk then commitHead (begin_ s) else programFailed (begin_ s)) := by
  have hq : s.ledger.queue.isEmpty = false := List.isEmpty_eq_false_iff.mpr h.queued
  rw [exec_ledgerCommit]
  unfold execLedgerCommit
  dsimp only
  rw [clocked_begin, sectorReady_begin, begin__ledger, begin__power, h.clocked, h.supplied, hq, h.live, h.whole, h.erased]
  rfl

theorem useSeq_below (h : s.ledger.nextSeq < 2 ^ 48 - 1) :
    useSeq s = { s with ledger := { s.ledger with nextSeq := s.ledger.nextSeq + 1 } } :=
  if_neg (Nat.not_le.mpr h)

theorem useSeq_last (h : s.ledger.nextSeq = 2 ^ 48 - 1) (hf : s.ledger.final = false) :
    useSeq s = monoFinal { s with ledger := { s.ledger with final := true } } 2 :=
  (if_pos h.ge).trans (if_neg (ne_true_of_eq_false hf))

theorem exec_intervalClose_due {i : Interval} (hr : running s = true) (hi : s.ledger.interval = some i)
    (he : i.lEnd ≤ ltimeNow s) (hn : i.num < 2 ^ 32 - 1) :
    exec .intervalClose s =
      .next (openInterval (closeInterval (begin_ s) false i.lEnd (if i.aligned then 0 else 1)) (i.num + 1) i.lEnd) := by
  refine (next_whenRunning_running hr _).trans (congrArg _ ?_)
  unfold boundaryClose
  rw [begin__ledger, hi]
  exact if_pos ⟨he, hn⟩

theorem exec_trimUpdate_running {n : Nat} (hr : running s = true) (hn : n ≠ 0) (ho : s.power.osc = true) :
    exec (.trimUpdate n) s = .next { begin_ s with ledger := { s.ledger with
      trim := s.ledger.trim + max (-34) (min 34 (trimTarget n - s.ledger.trim)) } } :=
  (next_whenRunning_running hr _).trans (congrArg _ (if_neg (not_or.mpr ⟨hn, not_not_intro ho⟩)))

theorem exec_denySummary_due (hr : running s = true) (hd : ∀ t, s.deny.lastSec = some t → t + 60 ≤ s.ledger.sec) :
    exec .denySummary s = .next (denySummaryNow (begin_ s)) := by
  refine (next_whenRunning_running hr _).trans (congrArg _ (if_pos ?_))
  rw [begin__deny]
  cases hl : s.deny.lastSec with
  | none => rfl
  | some t => exact decide_eq_true (hd t hl)

theorem exec_ledgerTimeFinal_ends (hs : s.ledger.sec = 2 ^ 48 - 1) (hf : s.ledger.frac = 2 ^ 40 - 1)
    (ht : s.ledger.timeFinal = false) :
    exec .ledgerTimeFinal s =
      .next (monoFinal { begin_ s with ledger := { s.ledger with timeFinal := true, final := true } } 1) :=
  congrArg _ (if_pos ⟨hs, hf, ne_true_of_eq_false ht⟩)

end

/-- Settles O33: a commit meets a ledger that is ready, and each other event the branch that its premises name. -/
theorem ledgerEntriesAndTime : Obligations.LedgerEntriesAndTime := by
  unfold Obligations.LedgerEntriesAndTime
  refine ⟨fun s hc hl hq hf hg hr => ?_, fun s h => useSeq_below h, fun s h hf => useSeq_last h hf,
    fun s i hr hi he hn => exec_intervalClose_due hr hi he hn, fun s n hr hn ho => exec_trimUpdate_running hr hn ho,
    fun s hr hd => exec_denySummary_due hr hd, fun s hs hf ht => exec_ledgerTimeFinal_ends hs hf ht⟩
  have h : CommitReady s := ⟨hc, hl, hq, hf, hg, hr⟩
  exact ⟨exec_ledgerCommit_ready h true, exec_ledgerCommit_ready h false⟩

end Sys2Proof.Machine
end

section
namespace Sys2Proof.Machine

/-! ## Ledger reads and their runs (R39, R392) -/

section
variable {op : Nat} {r : Req} {role : Nat} {judge : State → Nat → Option Status} {body : State → Plan} {s : State}

/-- A request whose session has passed its checks runs its command. -/
theorem Served.runs (h : Served op r role judge s) :
    dispatch op r judge body s = runCommand op r role judge body (noted r role s) := by
  obtain ⟨c, hc, hrole⟩ := Option.map_eq_some_iff.mp h.context
  subst hrole
  exact dispatch_runs ⟨h.running, h.room, h.turn⟩ h.normal hc (checkSession_served hc fun h0 => h.fresh h0 c hc)

/-- A ledger read that succeeds has its effect without an entry of its own: it joins its run. -/
theorem dispatch_ledgerRead {f : State → State × List Byte} (h : Served 0x0A01 r role judge s)
    (hp : body (noted r role s) = Plan.doBytes f) :
    dispatch 0x0A01 r judge body s = ok 0x0A01 r (f (noted r role s)).1 (f (noted r role s)).2 := by
  rw [h.runs]
  unfold runCommand
  rw [h.right]
  dsimp only
  rw [hp, if_neg fun e => e.2 ⟨rfl, rfl⟩]
  simp only [Plan.doBytes, Bool.false_eq_true, if_false, countHostDeny_of_ne _ _ (show Status.ok ≠ .denied by decide), ok]

/-- A ledger read that fails in a role's session ends its run, and has an entry of its own with its status. -/
theorem dispatch_ledgerRead_fails {st : Status} {b : List Byte}
    {g : State → State × List Byte} (h : Served 0x0A01 r role judge s) (h0 : role ≠ 0)
    (hn : (body (noted r role s)).status ≠ .ok)
    (hp : body (endRun (noted r role s) role) =
      { status := st, bytes := b, changes := false, act := fun u => ((g u).1, st, (g u).2) }) :
    dispatch 0x0A01 r judge body s =
      let x := g (auditRefusal (endRun (noted r role s) role) role st 0x0A01 r)
      answer x.1 r 0x0A01 st x.2 := by
  rw [h.runs]
  unfold runCommand actRecorded
  rw [h.right]
  dsimp only
  rw [if_pos ⟨h0, fun e => hn e.2⟩, hp]
  rfl

end

/-! ## LDG_READ (R446) -/

section
variable {s u : State} {r : Req} {first : BitVec 48} {count : BitVec 16} {buf : BitVec 64} {nonce : BitVec 256}
  {brk : Option Nat} {h : Nat}

/-- What a LDG_READ of sequences that are held finds: 1 to 64 entries, a permitted buffer, a root, and a first sequence from the
oldest held to the head `h`. -/
structure ReadTaken (first : BitVec 48) (count : BitVec 16) (buf : BitVec 64) (u : State) (h : Nat) : Prop where
  least : 1 ≤ count.toNat
  most : count.toNat ≤ 64
  permitted : judgeD u true buf.toNat (64 * count.toNat) = none
  rooted : u.vault.rootPresent = true
  head : u.ledger.head = some h
  held : u.ledger.oldest ≤ first.toNat
  reached : first.toNat ≤ h

/-- How many entries a read cut at the head asks for. -/
def readCount (first : BitVec 48) (count : BitVec 16) (h : Nat) : Nat := min count.toNat (h - first.toNat + 1)

/-- The entries that a read gives: those before the place of a break and before the first that cannot be read. -/
def entriesRead (first : BitVec 48) (count : BitVec 16) (brk : Option Nat) (u : State) (h : Nat) : List (List Byte) :=
  entriesFrom u (min (readCount first count h) (brk.getD (readCount first count h))) first.toNat

/-- The entries are written and recorded, and the read joins the session's run. -/
def ledgerRead (first : BitVec 48) (buf : BitVec 64) (nonce : BitVec 256) (es : List (List Byte)) (m : Nat) (u : State) :
    State × List Byte :=
  (noteRun (readRecord u first.toNat es buf.toNat nonce).1 first.toNat (first.toNat + m - 1),
    (readRecord u first.toNat es buf.toNat nonce).2)

/-- The entries before the fault are written and recorded, and the fault of the ledger is a QUARANTINE cause (R443). -/
def ledgerReadFaulted (first : BitVec 48) (buf : BitVec 64) (nonce : BitVec 256) (es : List (List Byte)) (u : State) :
    State × List Byte :=
  (ledgerFault (readRecord u first.toNat es buf.toNat nonce).1 (first.toNat + es.length - 1),
    (readRecord u first.toNat es buf.toNat nonce).2)

/-- The plan of a LDG_READ whose range is held, by whether every entry of the range can be read. -/
theorem execLdgRead_plan (r : Req) (first : BitVec 48) (count : BitVec 16) (buf : BitVec 64) (nonce : BitVec 256)
    (brk : Option Nat) : ∃ body : State → Plan,
    (∀ s, exec (.ldgRead r first count buf nonce brk) s = .next (dispatch 0x0A01 r judgeLedgerRead body s)) ∧
    ∀ u h, ReadTaken first count buf u h →
      ((entriesRead first count brk u h).length = readCount first count h →
        body u = Plan.doBytes (ledgerRead first buf nonce (entriesRead first count brk u h) (readCount first count h))) ∧
      ((entriesRead first count brk u h).length ≠ readCount first count h →
        body u = { status := .integrity, bytes := [], changes := false, act := fun v =>
          ((ledgerReadFaulted first buf nonce (entriesRead first count brk u h) v).1, .integrity,
            (ledgerReadFaulted first buf nonce (entriesRead first count brk u h) v).2) }) := by
  refine ⟨_, fun s => rfl, fun u h ht => ?_⟩
  have hn : ¬ (count.toNat = 0 ∨ count.toNat > 64) :=
    not_or.mpr ⟨Nat.one_le_iff_ne_zero.mp ht.least, Nat.not_lt.mpr ht.most⟩
  have hq : ¬ (first.toNat < u.ledger.oldest ∨ first.toNat > h) :=
    not_or.mpr ⟨Nat.not_lt.mpr ht.held, Nat.not_lt.mpr ht.reached⟩
  dsimp only
  rw [if_neg hn, ht.permitted]
  dsimp only
  rw [ht.rooted, ht.head]
  dsimp only
  rw [Bool.not_true, if_neg Bool.false_ne_true, if_neg hq]
  exact ⟨fun e => if_pos e, fun e => if_neg e⟩

theorem exec_ldgRead_whole (hs : Served 0x0A01 r 1 judgeLedgerRead s) (ht : ReadTaken first count buf (noted r 1 s) h)
    (he : (entriesRead first count brk (noted r 1 s) h).length = readCount first count h) :
    exec (.ldgRead r first count buf nonce brk) s = .next (
      let x := ledgerRead first buf nonce (entriesRead first count brk (noted r 1 s) h) (readCount first count h) (noted r 1 s)
      ok 0x0A01 r x.1 x.2) := by
  obtain ⟨body, hx, hb⟩ := execLdgRead_plan r first count buf nonce brk
  rw [hx, dispatch_ledgerRead hs ((hb _ h ht).1 he)]

theorem exec_ldgRead_broken {k : Nat} (hs : Served 0x0A01 r 1 judgeLedgerRead s)
    (ht : ReadTaken first count buf (noted r 1 s) h)
    (he : (entriesRead first count brk (noted r 1 s) h).length ≠ readCount first count h)
    (ht' : ReadTaken first count buf (endRun (noted r 1 s) 1) k)
    (he' : (entriesRead first count brk (endRun (noted r 1 s) 1) k).length ≠ readCount first count k) :
    exec (.ldgRead r first count buf nonce brk) s = .next (
      let v := endRun (noted r 1 s) 1
      let x := ledgerReadFaulted first buf nonce (entriesRead first count brk v k) (auditRefusal v 1 .integrity 0x0A01 r)
      answer x.1 r 0x0A01 .integrity x.2) := by
  obtain ⟨body, hx, hb⟩ := execLdgRead_plan r first count buf nonce brk
  have hn : (body (noted r 1 s)).status ≠ .ok := by
    rw [(hb _ h ht).2 he]
    exact nofun
  rw [hx, dispatch_ledgerRead_fails hs (by decide) hn ((hb _ k ht').2 he')]

end

/-! ## LDG_BILLING and WALL_SET (R431, R433) -/

section
variable {s : State} {r : Req} {role : Nat}

theorem exec_ldgBilling_granted {period tariff : Word}
    (h : Granted 0x0A02 r role (judgeRight false true false false (inModes [.approach, .rented, .drive, .depot])) s)
    (hlo : 1 ≤ period.toNat) (hhi : period.toNat ≤ 86400) :
    exec (.ldgBilling r period tariff) s = .next (ok 0x0A02 r (let u := admitted 0x0A02 r role s
      { u with ledger := { u.ledger with period := period.toNat, tariff := tariff.toNat } }) []) := by
  have hrange : ¬ (period.toNat = 0 ∨ period.toNat > 86400) := by omega
  rw [exec_ldgBilling]
  unfold execLdgBilling
  exact congrArg _ (dispatch_do (fun u => { u with ledger := { u.ledger with period := period.toNat, tariff := tariff.toNat } })
    h (by decide) (if_neg hrange))

/-- The step that a WALL_SET asks for, in 2^-16 s. -/
def wallStepOf (sec : BitVec 48) (frac : BitVec 16) (u : State) : Int :=
  ((sec.toNat * 65536 + frac.toNat : Nat) : Int) - wallNow u

/-- The limits of a WALL_SET in its context: 300 s, but for the OPERATOR, once wall time is valid; and 300 s in all for the HOST
context within 24 h (R431). -/
structure WallWithin (role : Nat) (sec : BitVec 48) (frac : BitVec 16) (u : State) : Prop where
  context : curRole u = role
  step : u.ledger.wallValid = true ∧ (wallStepOf sec frac u).natAbs ≤ 300 * 65536 ∨ role = 1
  host : role = 0 → (wallStepOf sec frac u).natAbs + ((recentSteps u).map Prod.snd).sum ≤ 300 * 65536
  room : ledgerLive u = true → ledgerRoomFor u (if role = 0 then 1 else 2) = true

theorem exec_wallSet_granted {sec : BitVec 48} {frac : BitVec 16} (h : Granted 0x0A03 r role judgeHostAwake s)
    (hw : WallWithin role sec frac (heard 0x0A03 r role s)) :
    exec (.wallSet r sec frac) s = .next (ok 0x0A03 r (let u := admitted 0x0A03 r role s
      wallStep u role r.session.toNat (u.ledger.ofs + wallStepOf sec frac u)) []) := by
  have hvalid : ¬ (¬ (heard 0x0A03 r role s).ledger.wallValid = true ∧ role ≠ 1) := fun e =>
    hw.step.elim (fun hv => e.1 hv.1) e.2
  have hstep : ¬ ((wallStepOf sec frac (heard 0x0A03 r role s)).natAbs > 300 * 65536 ∧ role ≠ 1) := fun e =>
    hw.step.elim (fun hv => Nat.not_lt.mpr hv.2 e.1) e.2
  rw [exec_wallSet]
  unfold execWallSet
  refine congrArg _ (dispatch_do (fun u => wallStep u role r.session.toNat (u.ledger.ofs + wallStepOf sec frac u)) h
    (by decide) ?_)
  dsimp only
  rw [hw.context, if_neg hvalid]
  exact (if_neg hstep).trans ((if_neg fun e => Nat.not_lt.mpr (hw.host e.1) e.2).trans (if_neg fun e => e.2 (hw.room e.1)))

end

section
variable (s : State)

/-- The offset and the validity of wall time after a step, whether the interval opens anew under it or not. -/
theorem wallStep_wall (role sess : Nat) (ofs : Int) :
    (wallStep s role sess ofs).ledger.ofs = ofs ∧ (wallStep s role sess ofs).ledger.wallValid = true := by
  unfold wallStep
  dsimp only
  split
  · split
    · exact ⟨rfl, rfl⟩
    · exact ⟨rfl, rfl⟩
  · exact ⟨rfl, rfl⟩

end

/-- Settles O34: a read runs by whether every entry of its range can be read, and each other command passes the dispatcher
with its own checks met. -/
theorem ledgerCommands : Obligations.LedgerCommands := by
  unfold Obligations.LedgerCommands
  refine ⟨fun s r first count buf nonce h hs => ?_, fun s r first count buf nonce brk hs => ?_,
    fun s r role period tariff h hlo hhi => exec_ldgBilling_granted h hlo hhi, fun s r role sec frac h hw => ?_,
    fun s role sess ofs _ => wallStep_wall s role sess ofs⟩
  · intro u m es h1 h64 hj hroot hhead hold hle hlen
    have ht : ReadTaken first count buf u h := ⟨h1, h64, hj, hroot, hhead, hold, hle⟩
    have he : entriesRead first count none u h = es := congrArg (entriesFrom u · first.toNat) (min_self _)
    rw [exec_ldgRead_whole hs ht (by rw [he]; exact hlen), he]
    rfl
  · intro v range read h k ⟨h1, h64, hj, hroot, hhead, hold, hle⟩ ⟨_, _, hj', hroot', hhead', hold', hle'⟩ hlt hlt'
    exact exec_ldgRead_broken hs ⟨h1, h64, hj, hroot, hhead, hold, hle⟩ (Nat.ne_of_lt hlt)
      ⟨h1, h64, hj', hroot', hhead', hold', hle'⟩ (Nat.ne_of_lt hlt')
  · obtain ⟨hcur, hstep, hhost, hroom⟩ := hw
    exact exec_wallSet_granted h ⟨hcur, hstep, hhost, hroom⟩

end Sys2Proof.Machine
end

section
namespace Sys2Proof.Machine

/-! ## What raising an event leaves, and the slots behind a key -/

section
variable {s t : State}

/-- An occurrence writes only the pending and repeat registers: no register below them moves. -/
theorem rdi_raiseN_below (s : State) (n : Nat) {a : Nat} (i : Nat) (ha : a < R_EVT_PEND) (hi : i < 8192) :
    rdi (raiseN s n) a i = rdi s a i := by
  have hkey : ∀ b, R_EVT_PEND ≤ b → regKey a i ≠ regKey b 0 := fun b hb hk => by
    have := (regKey_inj hi (by decide) hk).1
    omega
  unfold raiseN
  split
  · rfl
  · dsimp only
    split
    · exact rdi_wri_other _ _ (hkey _ (by simp [R_EVT_REPEAT, R_EVT_PEND]; omega))
    · exact rdi_wri_other _ _ (hkey _ (Nat.le_add_right _ _))

theorem fld_raise_below (s : State) (e : Ev) {a : Nat} (lo w : Nat) (ha : a < R_EVT_PEND) :
    fld (raise s e) a lo w = fld s a lo w :=
  congrArg (bitsOf · lo w) (rdi_raiseN_below s _ 0 ha (by decide))

theorem slotOf_eq_of_slots (h : t.vault.slots = s.vault.slots) (k : Nat) : slotOf t k = slotOf s k := by
  unfold slotOf
  rw [h]

theorem chainOk_eq_of_slots (h : t.vault.slots = s.vault.slots) : ∀ (n : Nat) (x : Slot), chainOk t n x = chainOk s n x
  | 0, _ => rfl
  | n + 1, x => by
    unfold chainOk
    dsimp only
    rw [slotOf_eq_of_slots h, chainOk_eq_of_slots h n]

theorem slotState_eq_of_slots (h : t.vault.slots = s.vault.slots) (k : Nat) : slotState t k = slotState s k := by
  unfold slotState
  dsimp only
  rw [slotOf_eq_of_slots h, chainOk_eq_of_slots h]

theorem slotLive_eq_of_slots (h : t.vault.slots = s.vault.slots) (k : Nat) : slotLive t k = slotLive s k := by
  unfold slotLive
  rw [slotState_eq_of_slots h]

theorem hlbKeyOk_eq_of_slots (h : t.vault.slots = s.vault.slots) (hk : fld t R_HLB_KEYSLOT 0 9 = fld s R_HLB_KEYSLOT 0 9) :
    hlbKeyOk t = hlbKeyOk s := by
  unfold hlbKeyOk
  dsimp only
  rw [hk, slotLive_eq_of_slots h, slotOf_eq_of_slots h]

end

/-! ## Peers that become LOST (R542, R544) -/

section
variable {s : State}

theorem topoCheck_peers (s : State) : (topoCheck s).hlb.peers = s.hlb.peers := by
  unfold topoCheck
  dsimp only
  split <;> simp

theorem topoCheck_keyFail (s : State) : (topoCheck s).hlb.keyFail = s.hlb.keyFail := by
  unfold topoCheck
  dsimp only
  split <;> simp

theorem fld_topoCheck_below (s : State) {a : Nat} (lo w : Nat) (ha : a < R_EVT_PEND) :
    fld (topoCheck s) a lo w = fld s a lo w := by
  unfold topoCheck
  dsimp only
  split
  · exact fld_raise_below _ _ lo w ha
  · rfl

theorem losePeer_known {n : Nat} (h : known (peerOf s n) = true) :
    losePeer s n = topoCheck (raise (setPeer s n { peerOf s n with st := .lost }) .hlbLost) := if_pos h

theorem losePeer_unknown {n : Nat} (h : known (peerOf s n) = false) : losePeer s n = s := if_neg (ne_true_of_eq_false h)

theorem losePeer_keyFail (s : State) (n : Nat) : (losePeer s n).hlb.keyFail = s.hlb.keyFail := by
  unfold losePeer
  split
  · rw [topoCheck_keyFail, raise_hlb]
    rfl
  · rfl

theorem losePeer_helber (s : State) (n : Nat) : (losePeer s n).out.helber = s.out.helber := by
  unfold losePeer topoCheck
  dsimp only
  split
  · split <;> simp
  · rfl

theorem losePeer_hlbKeyOk (s : State) (n : Nat) : hlbKeyOk (losePeer s n) = hlbKeyOk s := by
  cases hk : known (peerOf s n) with
  | false => rw [losePeer_unknown hk]
  | true =>
    rw [losePeer_known hk]
    refine hlbKeyOk_eq_of_slots ?_ ?_
    · unfold topoCheck
      dsimp only
      split <;> simp
    · rw [fld_topoCheck_below _ _ _ (by decide), fld_raise_below _ _ _ _ (by decide)]
      rfl

theorem peerOf_losePeer_other (s : State) {n m : Nat} (h : m ≠ n) : peerOf (losePeer s n) m = peerOf s m := by
  cases hk : known (peerOf s n) with
  | false => rw [losePeer_unknown hk]
  | true =>
    rw [losePeer_known hk]
    unfold peerOf
    rw [topoCheck_peers, raise_hlb]
    exact tget_tset_other _ _ h

theorem not_known_losePeer_same (s : State) (n : Nat) : known (peerOf (losePeer s n) n) = false := by
  cases hk : known (peerOf s n) with
  | false => rw [losePeer_unknown hk, hk]
  | true =>
    rw [losePeer_known hk]
    unfold peerOf
    rw [topoCheck_peers, raise_hlb]
    change known (tget Peer.init (tset Peer.init s.hlb.peers n { peerOf s n with st := .lost }) n) = false
    rw [tget_tset_ne _ _ fun h => MemSt.noConfusion (congrArg Peer.st h)]
    rfl

theorem not_known_losePeer {m : Nat} (n : Nat) (h : known (peerOf s m) = false) : known (peerOf (losePeer s n) m) = false := by
  by_cases hm : m = n
  · rw [hm]
    exact not_known_losePeer_same s n
  · rw [peerOf_losePeer_other s hm, h]

theorem not_known_foldl_losePeer_of_not_known {m : Nat} : ∀ (l : List Nat) (s : State), known (peerOf s m) = false →
    known (peerOf (l.foldl losePeer s) m) = false
  | [], _, h => h
  | n :: l, _, h => not_known_foldl_losePeer_of_not_known l _ (not_known_losePeer n h)

theorem not_known_foldl_losePeer_of_mem {m : Nat} {l : List Nat} (h : m ∈ l) (s : State) :
    known (peerOf (l.foldl losePeer s) m) = false := by
  induction l generalizing s with
  | nil => cases h
  | cons n l ih =>
    rw [List.foldl_cons]
    rcases List.mem_cons.mp h with hm | hm
    · rw [hm]
      exact not_known_foldl_losePeer_of_not_known l _ (not_known_losePeer_same s n)
    · exact ih hm _

/-- A node without a record reads as the unlisted value. -/
theorem tget_unlisted {α : Type} {d : α} {k : Nat} : ∀ {t : Tab α}, k ∉ t.map Prod.fst → tget d t k = d
  | [], _ => rfl
  | (j, _) :: _, h => by
    rw [List.map_cons, List.mem_cons, not_or] at h
    exact (if_neg fun hj => h.1 hj.symm).trans (tget_unlisted h.2)

theorem not_known_foldl_losePeer {u : State} (hu : u.hlb.peers = s.hlb.peers) (m : Nat) :
    known (peerOf ((s.hlb.peers.map Prod.fst).foldl losePeer u) m) = false := by
  by_cases hm : m ∈ s.hlb.peers.map Prod.fst
  · exact not_known_foldl_losePeer_of_mem hm _
  · refine not_known_foldl_losePeer_of_not_known _ _ ?_
    unfold peerOf
    rw [hu, tget_unlisted hm]
    rfl

end

/-! ## The domain key (R542) -/

section
variable {s : State}

theorem hlbKeyCheck_usable (hk : hlbKeyOk s = true) : hlbKeyCheck s = { s with hlb := { s.hlb with keyFail := false } } := by
  unfold hlbKeyCheck
  rw [hk, Bool.not_true, Bool.and_false]
  exact if_neg fun h => Bool.false_ne_true h.1

/-- The state with KEY_FAIL set, before the peers are judged. -/
def keyMissed (s : State) : State := { s with hlb := { s.hlb with keyFail := true } }

theorem hlbKeyCheck_unusable (hd : hlbKind s ≠ 0) (hk : hlbKeyOk s = false) :
    hlbKeyCheck s = if s.hlb.keyFail = true then keyMissed s else (s.hlb.peers.map Prod.fst).foldl losePeer (keyMissed s) := by
  unfold hlbKeyCheck
  rw [hk, decide_eq_true hd]
  cases hf : s.hlb.keyFail <;> simp [keyMissed]

theorem hlbKeyOk_hlbKeyCheck (hd : hlbKind s ≠ 0) (hk : hlbKeyOk s = false) : hlbKeyOk (hlbKeyCheck s) = false := by
  rw [hlbKeyCheck_unusable hd hk]
  split
  · exact hk
  · exact (foldl_field hlbKeyOk losePeer_hlbKeyOk _ _).trans hk

theorem keyFail_hlbKeyCheck (hd : hlbKind s ≠ 0) (hk : hlbKeyOk s = false) : (hlbKeyCheck s).hlb.keyFail = true := by
  rw [hlbKeyCheck_unusable hd hk]
  split
  · rfl
  · exact foldl_field (fun u => u.hlb.keyFail) losePeer_keyFail _ _

theorem helber_hlbKeyCheck (hd : hlbKind s ≠ 0) (hk : hlbKeyOk s = false) : (hlbKeyCheck s).out.helber = s.out.helber := by
  rw [hlbKeyCheck_unusable hd hk]
  split
  · rfl
  · exact foldl_field (fun u => u.out.helber) losePeer_helber _ _

theorem not_known_hlbKeyCheck (hd : hlbKind s ≠ 0) (hk : hlbKeyOk s = false) (hf : s.hlb.keyFail = false) (n : Nat) :
    known (peerOf (hlbKeyCheck s) n) = false := by
  rw [hlbKeyCheck_unusable hd hk, if_neg (ne_true_of_eq_false hf)]
  exact not_known_foldl_losePeer rfl n

theorem hlbUp_of_usable (hr : running s = true) (hd : hlbKind s ≠ 0) (hk : hlbKeyOk s = true) (hm : routing s = true) :
    hlbUp s = true := by
  unfold running at hr
  unfold hlbUp
  rw [decide_eq_true hd, hm, hk, (Bool.and_eq_true_iff.mp hr).2]
  rfl

theorem not_hlbUp_of_unusable (hk : hlbKeyOk s = false) : hlbUp s = false := by
  unfold hlbUp
  rw [hk, Bool.and_false]

end

/-! ## HELLOs, received frames, lost and absent peers, and pulls (R541, R543, R544, R558) -/

section
variable {s : State}

/-- The state in which a domain with a usable key exchanges frames. -/
def keyGood (s : State) : State := { begin_ s with hlb := { s.hlb with keyFail := false } }

theorem hlbKeyCheck_begin (hk : hlbKeyOk s = true) : hlbKeyCheck (begin_ s) = keyGood s := hlbKeyCheck_usable hk

theorem exec_helloSend_usable (hr : running s = true) (hd : hlbKind s ≠ 0) (hk : hlbKeyOk s = true) (hm : routing s = true) :
    exec .helloSend s = .next ((domainPorts s).foldl (fun s p => hlbSend s p 1 0xFFFF (helloBytes s)) (keyGood s)) := by
  refine (next_whenRunning_running hr _).trans (congrArg _ ?_)
  rw [hlbKeyCheck_begin hk]
  exact if_pos (hlbUp_of_usable hr hd hk hm)

theorem exec_helloSend_unusable (hr : running s = true) (hk : hlbKeyOk s = false) (hd : hlbKind s ≠ 0) :
    exec .helloSend s = .next (hlbKeyCheck (begin_ s)) :=
  (next_whenRunning_running hr _).trans (congrArg _
    (if_neg (ne_true_of_eq_false (not_hlbUp_of_unusable (hlbKeyOk_hlbKeyCheck (s := begin_ s) hd hk)))))

theorem exec_helberReceive_usable {p : Fin 8} {f : HlbFrame} (hr : running s = true) (hd : hlbKind s ≠ 0)
    (hk : hlbKeyOk s = true) (hm : routing s = true) (hp : domainPort s p = true) :
    exec (.helberReceive p f) s = .next (hlbTake (keyGood s) p f) := by
  refine (next_whenRunning_running hr _).trans (congrArg _ ?_)
  rw [hlbKeyCheck_begin hk]
  exact if_pos (Bool.and_eq_true_iff.mpr ⟨hlbUp_of_usable hr hd hk hm, hp⟩)

theorem exec_peerLostTimeout_known {n : BitVec 12} (hr : running s = true) (hk : known (peerOf s n.toNat) = true) :
    exec (.peerLostTimeout n) s =
      .next (topoCheck (raise (setPeer (begin_ s) n.toNat { peerOf s n.toNat with st := .lost }) .hlbLost)) :=
  (next_whenRunning_running hr _).trans (congrArg _ (losePeer_known hk))

theorem exec_peerAbsentTimeout_lost {n : BitVec 12} (hr : running s = true) (hl : (peerOf s n.toNat).st = .lost) :
    exec (.peerAbsentTimeout n) s = .next (setPeer (begin_ s) n.toNat Peer.init) :=
  (next_whenRunning_running hr _).trans (congrArg _ (if_pos hl))

theorem exec_pullSend_due {n : BitVec 12} (hr : running s = true)
    (hj : joined (peerOf s n.toNat) = true ∨ (peerOf s n.toNat).st = .isoVer)
    (hv : (rd s R_HLB_REV_SEQ).toNat < (peerOf s n.toNat).revSeq)
    (ht : tget 0 s.hlb.pulls n.toNat = 0 ∨ tget 0 s.hlb.pulls n.toNat - 1 + 10 * ticksPerS ≤ s.time.ticks) :
    exec (.pullSend n) s = .next (hlbSendTo { begin_ s with hlb := { s.hlb with
      pulls := tset 0 s.hlb.pulls n.toNat (s.time.ticks + 1) } } n.toNat 7 []) :=
  (next_whenRunning_running hr _).trans (congrArg _ (if_pos ⟨hj, hv, ht⟩))

end

/-! ## The checks of a received frame (R541) -/

section
variable {s : State} {p : Nat} {f : HlbFrame}

/-- The number a frame's own number is compared with: none for a HELLO of an unknown peer. -/
def seqHeard (s : State) (f : HlbFrame) : Option Word :=
  if isHello f.body && ! known (peerOf s f.src.toNat) then none else (peerOf s f.src.toNat).seqRef

theorem hlbTake_malformed (h : f.formOk = false ∨ f.domain ≠ rd s R_HLB_DOMAIN) : hlbTake s p f = s :=
  if_pos (h.imp (fun h => by rw [h]; rfl) id)

theorem formed_of (hf : f.formOk = true) (hd : f.domain = rd s R_HLB_DOMAIN) :
    ¬ ((! f.formOk) = true ∨ f.domain ≠ rd s R_HLB_DOMAIN) := by
  rw [hf, hd]
  simp

theorem hlbTake_badCmac (hf : f.formOk = true) (hd : f.domain = rd s R_HLB_DOMAIN) (hb : isForward f.body = false)
    (hc : frameCmacOk s f = false) : hlbTake s p f = statInc s R_HLB_RX_AUTH := by
  refine (if_neg (formed_of hf hd)).trans (if_pos ?_)
  rw [hb, hc]
  rfl

theorem authentic_of (h : isForward f.body = true ∨ frameCmacOk s f = true) :
    ¬ (! isForward f.body && ! frameCmacOk s f) = true := by
  rcases h with h | h <;> rw [h] <;> simp

theorem hlbTake_replayed {n : Word} (hf : f.formOk = true) (hd : f.domain = rd s R_HLB_DOMAIN)
    (ha : isForward f.body = true ∨ frameCmacOk s f = true) (hn : seqHeard s f = some n)
    (hl : seqLater f.seq.toNat n.toNat 32 = false) : hlbTake s p f = statInc s R_HLB_RX_REPLAY := by
  refine (if_neg (formed_of hf hd)).trans ((if_neg (authentic_of ha)).trans (if_pos ?_))
  change (match seqHeard s f with | some r => ! seqLater f.seq.toNat r.toNat 32 | none => false) = true
  rw [hn]
  exact congrArg (! ·) hl

theorem hlbTake_fresh (hf : f.formOk = true) (hd : f.domain = rd s R_HLB_DOMAIN)
    (ha : isForward f.body = true ∨ frameCmacOk s f = true)
    (hn : ∀ n, seqHeard s f = some n → seqLater f.seq.toNat n.toNat 32 = true) :
    hlbTake s p f =
      let v := setPeer s f.src.toNat { peerOf s f.src.toNat with seqRef := some f.seq }
      if f.dst = 0xFFFF ∨ f.dst.toNat = ownNode s then hlbBody v p f else v := by
  refine (if_neg (formed_of hf hd)).trans ((if_neg (authentic_of ha)).trans (if_neg ?_))
  change ¬ (match seqHeard s f with | some r => ! seqLater f.seq.toNat r.toNat 32 | none => false) = true
  cases hr : seqHeard s f with
  | none => exact Bool.false_ne_true
  | some n =>
    change ¬ (! seqLater f.seq.toNat n.toNat 32) = true
    rw [hn n hr]
    exact Bool.false_ne_true

theorem seqHeard_of_numbered (h : isHello f.body = false ∨ known (peerOf s f.src.toNat) = true) :
    seqHeard s f = (peerOf s f.src.toNat).seqRef := by
  refine if_neg ?_
  rcases h with h | h <;> rw [h] <;> simp

theorem seqHeard_later (h : (isHello f.body = true ∧ known (peerOf s f.src.toNat) = false) ∨
    (peerOf s f.src.toNat).seqRef = none ∨
    (∃ n, (peerOf s f.src.toNat).seqRef = some n ∧ seqLater f.seq.toNat n.toNat 32 = true)) (n : Word)
    (hn : seqHeard s f = some n) : seqLater f.seq.toNat n.toNat 32 = true := by
  unfold seqHeard at hn
  split at hn
  · cases hn
  · next hh =>
    rcases h with ⟨h1, h2⟩ | h | ⟨m, hm, hl⟩
    · rw [h1, h2] at hh
      exact absurd rfl hh
    · rw [h] at hn
      cases hn
    · rw [hm] at hn
      cases hn
      exact hl

end

/-- Settles O55: KEY_FAIL by the fold that makes every listed peer LOST, a received frame by the checks of R541 in their
order, and the timers and pulls by their conditions. -/
theorem helberMembership : Obligations.HelberMembership := by
  unfold Obligations.HelberMembership
  exact ⟨fun _ hr hd hk hm => exec_helloSend_usable hr hd hk hm,
    fun s hr hd hk => ⟨_, exec_helloSend_unusable hr hk hd, keyFail_hlbKeyCheck (s := begin_ s) hd hk,
      helber_hlbKeyCheck (s := begin_ s) hd hk, fun hf => not_known_hlbKeyCheck (s := begin_ s) hd hk hf⟩,
    fun _ _ _ hr hd hk hm hp => exec_helberReceive_usable hr hd hk hm hp,
    fun _ _ _ h => hlbTake_malformed h,
    fun _ _ _ hf hd hb hc => hlbTake_badCmac hf hd hb hc,
    fun _ _ _ hf hd ha => ⟨fun _ hh hn hl => hlbTake_replayed hf hd ha ((seqHeard_of_numbered hh).trans hn) hl,
      fun h => hlbTake_fresh hf hd ha (seqHeard_later h)⟩,
    fun _ _ hr hk => exec_peerLostTimeout_known hr hk,
    fun _ _ hr hl => exec_peerAbsentTimeout_lost hr hl,
    fun _ _ hr hj hv ht => exec_pullSend_due hr hj hv ht⟩

end Sys2Proof.Machine
end

section
namespace Sys2Proof.Machine

/-! ## The carry check at an egress (R319, R322 to R324, R561) -/

section
variable {s : State} {e q i : Nat} {c : Option (List Byte)} {x : QEnt} {f : Frame}

/-- The carry value the verifier finds over a frame's stamp and the bytes its cells give. -/
def carryFound (c : Option (List Byte)) (f : Frame) : Word := carryOver (stampBytes f) (c.getD (carried f.content))

/-- A frame whose carry value is good is marked verified, or dropped where it does not fit the egress. -/
def carryPassed (u : State) (e q i : Nat) (x : QEnt) (f : Frame) : State :=
  if clusterPort u e then
    if ethOctets (forwardBytes u e f).length > fldi u R_PORT_MAXF (e - 96) 0 14 then
      statInc (dropAt (removeEnt u e q x.h) e x.h) R_HLB_FWD_BIG
    else setEnt u e q i { x with verified := true }
  else
    let v := { u with fresh := u.fresh + 1 }
    if fits v e u.fresh f then setEnt v e q i { x with verified := true }
    else statInc (dropAt (removeEnt v e q x.h) e x.h) R_CCK_UNFIT

/-- What the verifier does with the frame it works on: nothing where it is verified or goes to HP unharmed. -/
theorem verifyAt_found (hi : toVerify s e q = some i) (hx : (queueOf s e q)[i]? = some x) (hf : frameOf s x.h = some f) :
    verifyAt s e q c =
      if x.verified = true ∨ (e = 104 ∧ (! f.bad) = true) then s
      else
        let u := { s with fresh := s.fresh + 1 }
        let got := if f.bad then Config.freeWord s.fresh else carryFound c f
        if f.bad = true ∨ got ≠ f.carry then carryFail (removeEnt u e q x.h) e x.h f got else carryPassed u e q i x f := by
  unfold verifyAt
  rw [hi]
  dsimp only
  rw [hx]
  dsimp only
  rw [hf]
  rfl

/-- A frame the verifier has yet to judge: it is unverified, and either stored without a good value or not for HP. -/
theorem verifyAt_open (hi : toVerify s e q = some i) (hx : (queueOf s e q)[i]? = some x) (hf : frameOf s x.h = some f)
    (hv : x.verified = false) (hb : f.bad = true ∨ e ≠ 104) :
    verifyAt s e q c =
      let u := { s with fresh := s.fresh + 1 }
      let got := if f.bad then Config.freeWord s.fresh else carryFound c f
      if f.bad = true ∨ got ≠ f.carry then carryFail (removeEnt u e q x.h) e x.h f got else carryPassed u e q i x f := by
  refine (verifyAt_found hi hx hf).trans (if_neg ?_)
  rw [hv]
  rcases hb with hb | hb <;> simp [hb]

theorem verifyAt_bad (hi : toVerify s e q = some i) (hx : (queueOf s e q)[i]? = some x) (hf : frameOf s x.h = some f)
    (hv : x.verified = false) (hb : f.bad = true) :
    verifyAt s e q c = carryFail (removeEnt { s with fresh := s.fresh + 1 } e q x.h) e x.h f (Config.freeWord s.fresh) := by
  refine (verifyAt_open hi hx hf hv (.inl hb)).trans ?_
  rw [hb]
  rfl

/-- A frame that was stored with a good carry value, for an egress other than HP, is judged by the value found. -/
theorem verifyAt_stored (hi : toVerify s e q = some i) (hx : (queueOf s e q)[i]? = some x) (hf : frameOf s x.h = some f)
    (hv : x.verified = false) (he : e ≠ 104) (hb : f.bad = false) :
    verifyAt s e q c =
      if carryFound c f ≠ f.carry then
        carryFail (removeEnt { s with fresh := s.fresh + 1 } e q x.h) e x.h f (carryFound c f)
      else carryPassed { s with fresh := s.fresh + 1 } e q i x f := by
  refine (verifyAt_open hi hx hf hv (.inr he)).trans ?_
  rw [hb]
  simp only [Bool.false_eq_true, if_false, false_or]

theorem verifyAt_settled (hi : toVerify s e q = some i) (hx : (queueOf s e q)[i]? = some x) (hf : frameOf s x.h = some f)
    (h : x.verified = true ∨ (e = 104 ∧ f.bad = false)) : verifyAt s e q c = s := by
  refine (verifyAt_found hi hx hf).trans (if_pos (h.imp id fun h => ⟨h.1, ?_⟩))
  rw [h.2]
  rfl

end

section
variable {s : State} {e : Fin 106} {q : Fin 8}

theorem exec_carryVerify_running {c : Option (List Byte)} (hr : running s = true) :
    exec (.carryVerify e q c) s = .next (verifyAt (begin_ s) e q c) := next_whenRunning_running hr _

theorem exec_carryReport_granted {r : Req} {role : Nat} {t : BitVec 64} {node : BitVec 16} {ing : BitVec 8} {a b : Word}
    (h : Granted 0x0510 r role (judgeRight true false false false (inModes [.rented, .drive, .service, .depot])) s)
    (hab : a ≠ b) (hi : ing.toNat ≤ 105) (hn : node.toNat ≤ 4095) (ht : t.toNat % 2 ^ 30 ≤ 999999999) :
    exec (.carryReport r t node ing a b) s = .next (ok 0x0510 r (raise (captureCarry
      (statInc (admitted 0x0510 r role s) R_CCK_HOST_REP) 104 node.toNat ing.toNat t a b) .integrity) []) := by
  rw [exec_carryReport]
  unfold execCarryReport
  refine congrArg _ (dispatch_do (fun u => raise (captureCarry (statInc u R_CCK_HOST_REP) 104 node.toNat ing.toNat t a b)
    .integrity) h (by decide) ?_)
  refine if_neg ?_
  rintro (h | h | h | h)
  · exact hab h
  all_goals omega

end

/-- Settles O53: the frame the verifier works on, judged by its carry value and then by the egress's format. -/
theorem carryCheckAtEgress : Obligations.CarryCheckAtEgress := by
  unfold Obligations.CarryCheckAtEgress
  refine ⟨fun s e q c i x f hr hi hx hf hv => ?_,
    fun s e q c i x f hr hi hx hf h => (exec_carryVerify_running hr).trans (congrArg _ (verifyAt_settled hi hx hf h)),
    fun _ _ _ _ _ _ _ _ h hab hi hn ht => exec_carryReport_granted h hab hi hn ht⟩
  have stored (he : e.val ≠ 104) (hb : f.bad = false) :=
    (exec_carryVerify_running (c := c) hr).trans (congrArg _ (verifyAt_stored (s := begin_ s) hi hx hf hv he hb))
  exact ⟨fun hb => (exec_carryVerify_running hr).trans (congrArg _ (verifyAt_bad (s := begin_ s) hi hx hf hv hb)),
    fun he hb hs => (stored he hb).trans (congrArg _ (if_pos hs)),
    fun he hb hs hc => (stored he hb).trans (congrArg _ ((if_neg (not_not_intro hs)).trans (if_neg (ne_true_of_eq_false hc)))),
    fun he hb hs hc => (stored he hb).trans (congrArg _ ((if_neg (not_not_intro hs)).trans (if_pos hc)))⟩

end Sys2Proof.Machine
end

section
namespace Sys2Proof.Machine

/-! ## A write to a register whose write acts -/

section
variable {s : State} {c : Cls} {a : Nat} {r : RegRow} {w : Word}

/-- A register that a write of the host or of the control firmware reaches at its own offset, with no field locked, held or
kept for another class. -/
structure OpenReg (a : Nat) (r : RegRow) : Prop where
  bank : a / 65536 ≠ 3 ∧ a / 65536 ≠ 4
  row : regRow a = some r
  window : r.win = .none
  feedback : ¬ (R_FB_CFG ≤ a ∧ a < R_FB_CFG + 0x400)
  lock : r.wl = 0
  config : r.cfg = 0
  sel : selectors.contains a = false
  chan : trgChan a = none
  ring : ringSlot a = none

/-- The fields of `r` that a write of `w` stores, where no encoding is reserved. -/
def wordStored (r : RegRow) (old w : Word) : Word := ((old &&& ~~~ r.rw) ||| (w &&& r.rw)) &&& ~~~ (w &&& r.w1c)

theorem OpenReg.hit (h : OpenReg a r) : hit s c a = some ⟨r, a, 0, false⟩ := hit_of_row h.bank h.row h.window

/-- The host and the control firmware reach the same fields of an open register. -/
theorem OpenReg.mask (h : OpenReg a r) (hc : c = .H ∨ c = .F) : writeMask s c ⟨r, a, 0, false⟩ = r.rw := by
  unfold writeMask
  dsimp only
  rw [h.ring, trgHidden_of_noChan h.chan, h.lock, h.config]
  rcases hc with rfl | rfl <;> simp

/-- A write to an open register where bits of reserved encodings are left as they are, raised for every register but
CCK_INJECT. -/
theorem writeReg_open (h : OpenReg a r) (hc : c = .H ∨ c = .F)
    (hr : reservedBits s ⟨r, a, 0, false⟩ r.rw w = 0 ∨ a = R_CCK_INJECT)
    (ha : r.rw &&& ~~~ reservedBits s ⟨r, a, 0, false⟩ r.rw w ≠ 0 ∨ r.w1c ≠ 0 ∨ r.wo ≠ 0) :
    let m := r.rw &&& ~~~ reservedBits s ⟨r, a, 0, false⟩ r.rw w
    writeReg c a w s =
      storeReg c ⟨r, a, 0, false⟩ (rd s a) (((rd s a &&& ~~~ m) ||| (w &&& m)) &&& ~~~ (w &&& r.w1c)) w s := by
  have hres : ¬ (reservedBits s ⟨r, a, 0, false⟩ r.rw w ≠ 0 ∧ a ≠ R_CCK_INJECT) := fun he => hr.elim he.1 he.2
  unfold writeReg
  rw [h.hit]
  dsimp only
  simp only [h.mask hc, fbClosed_outside h.feedback, h.lock, h.sel, trgHidden_of_noChan h.chan, Bool.and_false,
    Bool.false_eq_true, if_false, ne_eq, not_true_eq_false, decide_false, Bool.false_and]
  rw [if_neg hres, if_neg fun he => ?_]
  · rfl
  · obtain ⟨h1, h2, h3, -⟩ := he
    exact ha.elim (· h1) (·.elim (· h2) (· h3))

/-- A write to an open register without listed encodings. -/
theorem writeReg_free (h : OpenReg a r) (hc : c = .H ∨ c = .F) (hk : r.chk = []) (hb : a ≠ R_BRG_CFG) (hq : a ≠ R_SW_QSEL)
    (ha : r.rw ≠ 0 ∨ r.w1c ≠ 0 ∨ r.wo ≠ 0) :
    writeReg c a w s = storeReg c ⟨r, a, 0, false⟩ (rd s a) (wordStored r (rd s a) w) w s := by
  have hres : reservedBits s ⟨r, a, 0, false⟩ r.rw w = 0 := reservedBits_none hk hb hq h.ring _ _
  have hm : r.rw &&& ~~~ reservedBits s ⟨r, a, 0, false⟩ r.rw w = r.rw := by rw [hres, and_not_zero]
  refine (writeReg_open h hc (.inl hres) (by rw [hm]; exact ha)).trans ?_
  rw [hm]
  rfl

/-- The write of one word to an open register. -/
theorem regWord1_open (hr : running s = true) (ho : hostOff s = false) (hc : c = .H ∨ c = .F) (h4 : a % 4 = 0)
    (hl : a + 4 ≤ 0x140000) (hs : commitsOf a 1 = []) :
    regWord1 s c true a w = writeReg c a w (outRead (begin_ s) [] .ok) := regWord1_write hr ho hc h4 hl hs

/-- An address that is no selector's and none of the registers that act one by one. -/
structure Unlisted (a : Nat) : Prop where
  sel : selectors.contains a = false
  act : a ∉ actingRegs

theorem storeReg_pend {h : Hit} (hu : Unlisted h.a) (hp : R_EVT_PEND ≤ h.a ∧ h.a < R_EVT_PEND + 32) (old new : Word) :
    storeReg c h old new w s = evtPendClear s ((h.a - R_EVT_PEND) / 4) w := by
  have ha := hu.act
  simp only [actingRegs, List.mem_cons, List.not_mem_nil, or_false, not_or] at ha
  unfold storeReg
  simp only [hu.sel, ha, hp, Bool.false_eq_true, if_false, and_self, if_true]

theorem storeReg_en {h : Hit} (hu : Unlisted h.a) (hp : ¬ (R_EVT_PEND ≤ h.a ∧ h.a < R_EVT_PEND + 32))
    (he : R_EVT_EN ≤ h.a ∧ h.a < R_EVT_EN + 32) (old new : Word) :
    storeReg c h old new w s = evtEnSet s ((h.a - R_EVT_EN) / 4) new := by
  have ha := hu.act
  simp only [actingRegs, List.mem_cons, List.not_mem_nil, or_false, not_or] at ha
  unfold storeReg
  simp only [hu.sel, ha, hp, he, Bool.false_eq_true, if_false, and_self, if_true]

/-- An unlisted address outside the event registers and the trigger channels. -/
structure Remote (a : Nat) : Prop extends Unlisted a where
  pend : ¬ (R_EVT_PEND ≤ a ∧ a < R_EVT_PEND + 32)
  en : ¬ (R_EVT_EN ≤ a ∧ a < R_EVT_EN + 32)
  chan : trgChan a = none

/-- What `Remote` asks of an address, decided for each register that needs it. -/
def remoteAt (a : Nat) : Bool :=
  ! selectors.contains a && decide (a ∉ actingRegs) && decide (¬ (R_EVT_PEND ≤ a ∧ a < R_EVT_PEND + 32)) &&
  decide (¬ (R_EVT_EN ≤ a ∧ a < R_EVT_EN + 32)) && decide (trgChan a = none)

theorem Remote.of_remoteAt (h : remoteAt a = true) : Remote a := by
  simp only [remoteAt, Bool.and_eq_true, decide_eq_true_eq, Bool.not_eq_true'] at h
  obtain ⟨⟨⟨⟨h1, h2⟩, h3⟩, h4⟩, h5⟩ := h
  exact ⟨⟨h1, h2⟩, h3, h4, h5⟩

theorem storeReg_acq {h : Hit} {k : Nat} (hu : Remote h.a) (hk : semReg h.a = some (k, 0)) (old new : Word) :
    storeReg c h old new w s = semAcqWrite s c k (bitsOf w 0 8) := by
  have ha := hu.act
  simp only [actingRegs, List.mem_cons, List.not_mem_nil, or_false, not_or] at ha
  unfold storeReg
  simp only [hu.sel, ha, hu.pend, hu.en, hu.chan, hk, Bool.false_eq_true, if_false]

theorem storeReg_rel {h : Hit} {k : Nat} (hu : Remote h.a) (hk : semReg h.a = some (k, 4)) (old new : Word) :
    storeReg c h old new w s = semRel s k w := by
  have ha := hu.act
  simp only [actingRegs, List.mem_cons, List.not_mem_nil, or_false, not_or] at ha
  unfold storeReg
  simp only [hu.sel, ha, hu.pend, hu.en, hu.chan, hk, Bool.false_eq_true, if_false]

end

/-! ## The rows of the event, semaphore, injection and bridge registers -/

/-- A row of plain words with these storing, clearing and write-only fields. -/
def actRow (base stride count : Nat) (warmKeep rw w1c wo : Word) : RegRow :=
  { base := base, stride := stride, count := count, win := .none, kind := .plain, cold := 0, coldKeep := 0, warmKeep := warmKeep,
    rw := rw, w1c := w1c, wl := 0, wo := wo, vs := 0, cfg := 0, vrw := 0, chk := [] }

def pendRow : RegRow := actRow R_EVT_PEND 4 8 0 0 0xFFFFFFFF 0
def enRow : RegRow := actRow R_EVT_EN 4 8 0xFFFFFFFF 0xFFFFFFFF 0 0
def testRow : RegRow := actRow R_EVT_TEST 4 1 0 0 0 0x800000FF
def statRow : RegRow := actRow R_BRG_STAT 4 1 0x200 0 0x10000 0
def acqRow : RegRow := actRow R_BRG_SEM_ACQ 0x20 16 0 0 0 0xFF
def relRow : RegRow := actRow R_BRG_SEM_REL 0x20 16 0 0 0 0xFFFFFF
def injectRow : RegRow :=
  { actRow R_CCK_INJECT 4 1 0 0x800000FF 0 0 with chk := [{ lo := 0, width := 8, ranges := [(0, 105)] }] }

/-- What `OpenReg` asks of an address, decided for each register of the rows above. -/
def openAt (a : Nat) (r : RegRow) : Bool :=
  decide (a / 65536 ≠ 3 ∧ a / 65536 ≠ 4) && decide (regRow a = some r) && decide (r.win = .none) &&
  decide (¬ (R_FB_CFG ≤ a ∧ a < R_FB_CFG + 0x400)) && decide (r.wl = 0) && decide (r.cfg = 0) && ! selectors.contains a &&
  decide (trgChan a = none) && decide (ringSlot a = none)

theorem OpenReg.of_openAt {a : Nat} {r : RegRow} (h : openAt a r = true) : OpenReg a r := by
  simp only [openAt, Bool.and_eq_true, decide_eq_true_eq, Bool.not_eq_true'] at h
  obtain ⟨⟨⟨⟨⟨⟨⟨⟨h1, h2⟩, h3⟩, h4⟩, h5⟩, h6⟩, h7⟩, h8⟩, h9⟩ := h
  exact ⟨h1, h2, h3, h4, h5, h6, h7, h8, h9⟩

theorem openReg_pend (g : Fin 8) : OpenReg (R_EVT_PEND + 4 * g.val) pendRow := .of_openAt (by revert g; decide)
theorem openReg_en (g : Fin 8) : OpenReg (R_EVT_EN + 4 * g.val) enRow := .of_openAt (by revert g; decide)
theorem openReg_acq (k : Fin 16) : OpenReg (R_BRG_SEM_ACQ + 0x20 * k.val) acqRow := .of_openAt (by revert k; decide)
theorem openReg_rel (k : Fin 16) : OpenReg (R_BRG_SEM_REL + 0x20 * k.val) relRow := .of_openAt (by revert k; decide)
theorem openReg_test : OpenReg R_EVT_TEST testRow := .of_openAt (by decide)
theorem openReg_stat : OpenReg R_BRG_STAT statRow := .of_openAt (by decide)
theorem openReg_inject : OpenReg R_CCK_INJECT injectRow := .of_openAt (by decide)

theorem unlisted_pend (g : Fin 8) : Unlisted (R_EVT_PEND + 4 * g.val) := ⟨by revert g; decide, by revert g; decide⟩
theorem unlisted_en (g : Fin 8) : Unlisted (R_EVT_EN + 4 * g.val) := ⟨by revert g; decide, by revert g; decide⟩
theorem remote_acq (k : Fin 16) : Remote (R_BRG_SEM_ACQ + 0x20 * k.val) := .of_remoteAt (by revert k; decide)
theorem remote_rel (k : Fin 16) : Remote (R_BRG_SEM_REL + 0x20 * k.val) := .of_remoteAt (by revert k; decide)
theorem semReg_acq : ∀ k : Fin 16, semReg (R_BRG_SEM_ACQ + 0x20 * k.val) = some (k.val, 0) := by decide
theorem semReg_rel : ∀ k : Fin 16, semReg (R_BRG_SEM_REL + 0x20 * k.val) = some (k.val, 4) := by decide

/-! ## What each of those writes does (R329, R501, R502, R511, R576, R577, R579) -/

section
variable {s : State} {c : Cls} {w : Word}

theorem writeReg_pend (g : Fin 8) (hc : c = .H ∨ c = .F) :
    writeReg c (R_EVT_PEND + 4 * g.val) w s = evtPendClear s g w := by
  rw [writeReg_free (openReg_pend g) hc rfl (by revert g; decide) (by revert g; decide) (by decide),
    storeReg_pend (unlisted_pend g) ⟨Nat.le_add_right _ _, Nat.add_lt_add_left (by omega) _⟩]
  dsimp only
  rw [Nat.add_sub_cancel_left, Nat.mul_div_cancel_left _ (by decide)]

theorem writeReg_en (g : Fin 8) (hc : c = .H ∨ c = .F) : writeReg c (R_EVT_EN + 4 * g.val) w s = evtEnSet s g w := by
  have hw (v : Word) : wordStored enRow v w = w := by
    change ((v &&& ~~~ BitVec.allOnes 32) ||| (w &&& BitVec.allOnes 32)) &&& ~~~ (w &&& 0#32) = w
    rw [BitVec.not_allOnes, BitVec.and_zero, BitVec.zero_or, BitVec.and_allOnes, BitVec.and_zero]
    exact BitVec.and_allOnes
  rw [writeReg_free (openReg_en g) hc rfl (by revert g; decide) (by revert g; decide) (by decide),
    storeReg_en (unlisted_en g) (by revert g; decide) ⟨Nat.le_add_right _ _, Nat.add_lt_add_left (by omega) _⟩, hw]
  dsimp only
  rw [Nat.add_sub_cancel_left, Nat.mul_div_cancel_left _ (by decide)]

theorem writeReg_test (hc : c = .H ∨ c = .F) : writeReg c R_EVT_TEST w s = evtTest s w :=
  writeReg_free openReg_test hc rfl (by decide) (by decide) (by decide)

theorem writeReg_stat (hc : c = .H ∨ c = .F) :
    writeReg c R_BRG_STAT (fieldVal 16 1 1) s =
      let u := wr s R_BRG_STAT (rd s R_BRG_STAT &&& ~~~ 0x10000)
      { u with bridge := { u.bridge with dmaFails := 0 } } := by
  have hw (v : Word) : wordStored statRow v (fieldVal 16 1 1) = v &&& ~~~ 0x10000 := by
    change ((v &&& BitVec.allOnes 32) ||| 0#32) &&& ~~~ 0x10000#32 = v &&& ~~~ 0x10000#32
    rw [BitVec.and_allOnes, BitVec.or_zero]
  refine (writeReg_free openReg_stat hc rfl (by decide) (by decide) (by decide)).trans ?_
  rw [hw]
  rfl

/-- ING is the only field of CCK_INJECT with reserved encodings. -/
theorem reservedBits_inject (m : Word) :
    reservedBits s ⟨injectRow, R_CCK_INJECT, 0, false⟩ m w = 0 ∨ reservedBits s ⟨injectRow, R_CCK_INJECT, 0, false⟩ m w = 0xFF := by
  have he : extraReserved s R_CCK_INJECT w &&& m = 0 := BitVec.zero_and
  unfold reservedBits
  dsimp only
  rw [he, show ∀ v : Word, v ||| 0 = v from fun _ => BitVec.or_zero]
  simp only [injectRow, actRow, List.foldl_cons, List.foldl_nil]
  split
  · exact .inr (by decide)
  · exact .inl rfl

theorem writeReg_inject (hc : c = .H ∨ c = .F) : writeReg c R_CCK_INJECT w s = injectSet s w := by
  refine writeReg_open openReg_inject hc (.inr rfl) (.inl ?_)
  rcases reservedBits_inject (s := s) (w := w) injectRow.rw with h | h <;> rw [h] <;> decide

theorem writeReg_acq (k : Fin 16) (hc : c = .H ∨ c = .F) (o : BitVec 8) :
    writeReg c (R_BRG_SEM_ACQ + 0x20 * k.val) (o.setWidth 32) s = semAcqWrite s c k o.toNat := by
  have ho : bitsOf (o.setWidth 32) 0 8 = o.toNat := by
    simp [bitsOf]
    omega
  rw [writeReg_free (openReg_acq k) hc rfl (by revert k; decide) (by revert k; decide) (by decide),
    storeReg_acq (remote_acq k) (semReg_acq k), ho]

theorem writeReg_rel (k : Fin 16) (hc : c = .H ∨ c = .F) :
    writeReg c (R_BRG_SEM_REL + 0x20 * k.val) w s = semRel s k w := by
  rw [writeReg_free (openReg_rel k) hc rfl (by revert k; decide) (by revert k; decide) (by decide),
    storeReg_rel (remote_rel k) (semReg_rel k)]

end

/-! ## The commands (R501 to R504, R513) -/

section
variable {s : State} {c : Cls} {w : Word}

theorem semAcqWrite_owner {k o : Nat} (h1 : 1 ≤ o) (h2 : o ≤ 0xEF) : semAcqWrite s c k o = semAcq (semSettle s k) k o :=
  (if_neg fun h => by omega).trans (if_neg (by omega))

theorem semAcqWrite_reserved {k o : Nat} (hc : c = .H) (h : o = 0 ∨ 0xF0 ≤ o) : semAcqWrite s c k o = raise s .reservedEnc := by
  rw [hc]
  exact (if_neg fun h => Cls.noConfusion h.1).trans (if_pos h)

/-- A code below those of the pipelines takes a free semaphore or renews its own. -/
theorem semAcq_takes {k o : Nat} (h2 : o ≤ 0xEF) (h : semOwner s k = 0 ∨ semOwner s k = o) : semAcq s k o = semTake s k o := by
  unfold semAcq
  split
  · rfl
  · next h0 => exact if_pos ⟨h.resolve_left h0, by omega⟩

theorem semAcq_other {k o : Nat} (h0 : semOwner s k ≠ 0) (h : semOwner s k ≠ o) : semAcq s k o = s :=
  (if_neg h0).trans (if_neg fun he => h he.1)

/-- A word of the register is that of a semaphore's owner and generation. -/
def semHolds (u : State) (k : Nat) (w : Word) : Prop :=
  semOwner u k ≠ 0 ∧ bitsOf w 16 8 = semOwner u k ∧ bitsOf w 0 16 = semGen u k

theorem semCommitDo_granted {k : Nat} {off d m : Word} {h : Hit} (hh : semHolds (semSettle s k) k w)
    (hj : judgeSpine (semSettle s k) c true (regBase + bitsOf off 0 24) 4 true = none)
    (ht : hit (semSettle s k) c (bitsOf off 0 24) = some h) :
    semCommitDo s c k w off d m =
      writeWords c (bitsOf off 0 24) [(seen (semSettle s k) c h &&& ~~~ m) ||| (d &&& m)] (semSettle s k) := by
  refine (if_pos hh).trans ?_
  rw [hj, ht]

theorem semCommitDo_refused {k : Nat} {off d m : Word} {r : Reason} {a : Nat} (hh : semHolds (semSettle s k) k w)
    (hj : judgeSpine (semSettle s k) c true (regBase + bitsOf off 0 24) 4 true = some (r, a)) :
    semCommitDo s c k w off d m = refuseOut (semSettle s k) c r a true := by
  refine (if_pos hh).trans ?_
  rw [hj]

theorem semCommitDo_stale {k : Nat} {off d m : Word} (hh : ¬ semHolds (semSettle s k) k w) :
    semCommitDo s c k w off d m = statInc (semSettle s k) R_BRG_SEM_STALE := if_neg hh

/-- The state in which a write of the host or the control firmware is carried out. -/
def written (s : State) : State := outRead (begin_ s) [] .ok

variable (hr : running s = true) (ho : hostOff s = false) (hc : c = .H ∨ c = .F)
include hr ho hc

theorem exec_evtPendWrite_accepted (g : Fin 8) :
    exec (.evtPendWrite c g w) s = .next (evtPendClear (written s) g w) :=
  congrArg _ ((regWord1_write hr ho hc (by revert g; decide) (by revert g; decide) (by revert g; decide)).trans
    (writeReg_pend g hc))

theorem exec_evtEnWrite_accepted (g : Fin 8) : exec (.evtEnWrite c g w) s = .next (evtEnSet (written s) g w) :=
  congrArg _ ((regWord1_write hr ho hc (by revert g; decide) (by revert g; decide) (by revert g; decide)).trans
    (writeReg_en g hc))

theorem exec_evtTestWrite_accepted : exec (.evtTestWrite c w) s = .next (evtTest (written s) w) :=
  congrArg _ ((regWord1_write hr ho hc (by decide) (by decide) (by decide)).trans (writeReg_test hc))

theorem exec_cckInjectWrite_accepted : exec (.cckInjectWrite c w) s = .next (injectSet (written s) w) :=
  congrArg _ ((regWord1_write hr ho hc (by decide) (by decide) (by decide)).trans (writeReg_inject hc))

theorem exec_hostLostWrite_accepted :
    exec (.hostLostWrite c) s = .next (let u := wr (written s) R_BRG_STAT (rd s R_BRG_STAT &&& ~~~ 0x10000)
      { u with bridge := { u.bridge with dmaFails := 0 } }) :=
  congrArg _ ((regWord1_write hr ho hc (by decide) (by decide) (by decide)).trans (writeReg_stat hc))

theorem exec_semAcquire_accepted (k : Fin 16) (o : BitVec 8) :
    exec (.semAcquire c k o) s = .next (semAcqWrite (written s) c k o.toNat) :=
  congrArg _ ((regWord1_write hr ho hc (by revert k; decide) (by revert k; decide) (by revert k; decide)).trans
    (writeReg_acq k hc o))

theorem exec_semRelease_accepted (k : Fin 16) : exec (.semRelease c k w) s = .next (semRel (written s) k w) :=
  congrArg _ ((regWord1_write hr ho hc (by revert k; decide) (by revert k; decide) (by revert k; decide)).trans
    (writeReg_rel k hc))

theorem exec_semCommit_accepted (k : Fin 16) (off d m : Word) :
    exec (.semCommit c k w off d m) s = .next (semCommitDo (written s) c k w off d m) := commit_write hr ho hc

end

/-- Settles O45: each command is the write of one word, and the write of that register acts as its rule says; a semaphore's
lease is judged before the write reaches it. -/
theorem eventsSemaphoresAndInjection : Obligations.EventsSemaphoresAndInjection := by
  unfold Obligations.EventsSemaphoresAndInjection
  refine ⟨fun _ _ g _ hr ho hc => ⟨exec_evtPendWrite_accepted hr ho hc g, exec_evtEnWrite_accepted hr ho hc g,
      exec_evtTestWrite_accepted hr ho hc, exec_cckInjectWrite_accepted hr ho hc⟩,
    fun _ _ hr ho hc => exec_hostLostWrite_accepted hr ho hc,
    fun s c k o hr ho hc => ?_, fun s c k w hr ho hc => ?_, fun s c k w off d m hr ho hc => ?_,
    fun _ _ h0 hl => if_pos ⟨h0, hl⟩,
    fun _ _ h => if_neg fun he => h.elim he.1 (Nat.not_lt.mpr he.2),
    fun _ _ hk => next_whenClocked_clocked hk _⟩
  · have acquire := exec_semAcquire_accepted hr ho hc k o
    exact ⟨fun h1 h2 h => acquire.trans (congrArg _ ((semAcqWrite_owner h1 h2).trans (semAcq_takes h2 h))),
      fun h1 h2 h0 h => acquire.trans (congrArg _ ((semAcqWrite_owner h1 h2).trans (semAcq_other h0 h))),
      fun hh h => acquire.trans (congrArg _ (semAcqWrite_reserved hh h))⟩
  · have release := exec_semRelease_accepted (w := w) hr ho hc k
    exact ⟨fun h => release.trans (congrArg _ (if_pos h)), fun h => release.trans (congrArg _ (if_neg h))⟩
  · have commit := exec_semCommit_accepted (w := w) hr ho hc k off d m
    exact ⟨fun _ hh hj ht => commit.trans (congrArg _ (semCommitDo_granted hh hj ht)),
      fun _ _ hh hj => commit.trans (congrArg _ (semCommitDo_refused hh hj)),
      fun hh => commit.trans (congrArg _ (semCommitDo_stale hh))⟩

end Sys2Proof.Machine
end

section
namespace Sys2Proof.Machine

/-! ## Fields of a word, and of a register after one of its fields is written -/

theorem getLsbD_fieldMask (lo w i : Nat) : (fieldMask lo w).getLsbD i = (decide (i < 32) && decide (lo ≤ i) && decide (i < lo + w)) := by
  unfold fieldMask
  rw [BitVec.getLsbD_ofNat, Nat.testBit_mul_two_pow, Nat.testBit_two_pow_sub_one, Bool.and_assoc]
  by_cases h : lo ≤ i
  · simp [h, Nat.sub_lt_iff_lt_add h, Nat.add_comm]
  · simp [h]

theorem getLsbD_fieldVal (lo w v i : Nat) :
    (fieldVal lo w v).getLsbD i = (decide (i < 32) && decide (lo ≤ i) && decide (i < lo + w) && v.testBit (i - lo)) := by
  unfold fieldVal
  rw [BitVec.getLsbD_ofNat, Nat.testBit_mul_two_pow, Nat.testBit_mod_two_pow]
  by_cases h : lo ≤ i
  · simp [h, Nat.sub_lt_iff_lt_add h, Nat.add_comm, Bool.and_assoc]
  · simp [h]

/-- A bit of a word with a field replaced: the field's own inside it, the old one outside. -/
theorem getLsbD_putBits (old : Word) (lo w v : Nat) {i : Nat} (hi : i < 32) :
    (putBits old lo w v).getLsbD i = if lo ≤ i ∧ i < lo + w then v.testBit (i - lo) else old.getLsbD i := by
  unfold putBits
  rw [BitVec.getLsbD_or, BitVec.getLsbD_and, BitVec.getLsbD_not, getLsbD_fieldMask, getLsbD_fieldVal]
  by_cases h1 : lo ≤ i <;> by_cases h2 : i < lo + w <;> simp [hi, h1, h2]

theorem testBit_bitsOf (v : Word) (lo w i : Nat) : (bitsOf v lo w).testBit i = (decide (i < w) && v.getLsbD (lo + i)) := by
  unfold bitsOf BitVec.getLsbD
  rw [Nat.testBit_mod_two_pow, Nat.testBit_div_two_pow, Nat.add_comm]

theorem bitsOf_putBits_same (old : Word) {lo w : Nat} (v : Nat) (h : lo + w ≤ 32) : bitsOf (putBits old lo w v) lo w = v % 2 ^ w := by
  refine Nat.eq_of_testBit_eq fun i => ?_
  rw [testBit_bitsOf, Nat.testBit_mod_two_pow]
  by_cases hi : i < w
  · rw [getLsbD_putBits _ _ _ _ (by omega), if_pos ⟨Nat.le_add_right _ _, by omega⟩, Nat.add_sub_cancel_left]
  · simp [hi]

theorem bitsOf_putBits_apart (old : Word) {lo w lo' w' : Nat} (v : Nat) (h : lo' + w' ≤ lo ∨ lo + w ≤ lo') (hi : lo' + w' ≤ 32) :
    bitsOf (putBits old lo w v) lo' w' = bitsOf old lo' w' := by
  refine Nat.eq_of_testBit_eq fun i => ?_
  rw [testBit_bitsOf, testBit_bitsOf]
  by_cases hw : i < w'
  · rw [getLsbD_putBits _ _ _ _ (by omega), if_neg (by omega)]
  · simp [hw]

section
variable {s : State}

theorem fld_setFld_same {a lo w : Nat} (v : Nat) (hw : Regs.wf s) (h : lo + w ≤ 32) : fld (setFld s a lo w v) a lo w = v % 2 ^ w := by
  refine (congrArg (bitsOf · lo w) (rdi_wri_same s a 0 _ hw)).trans ?_
  exact bitsOf_putBits_same _ v h

theorem fld_setFld_apart {a lo w lo' w' : Nat} (v : Nat) (hw : Regs.wf s) (h : lo' + w' ≤ lo ∨ lo + w ≤ lo') (hi : lo' + w' ≤ 32) :
    fld (setFld s a lo w v) a lo' w' = fld s a lo' w' := by
  refine (congrArg (bitsOf · lo' w') (rdi_wri_same s a 0 _ hw)).trans ?_
  exact bitsOf_putBits_apart _ v h hi

theorem fld_setFld_other {a b : Nat} (lo w v lo' w' : Nat) (h : b ≠ a) : fld (setFld s a lo w v) b lo' w' = fld s b lo' w' :=
  fld_wr_other s _ _ _ h

theorem setFld_regs (a lo w v : Nat) (hw : Regs.wf s) : Regs.wf (setFld s a lo w v) := wri_regs s _ _ _ hw

theorem fld_statInc_other {a b : Nat} (lo w : Nat) (h : b ≠ a) : fld (statInc s a) b lo w = fld s b lo w := fld_wr_other s _ _ _ h

theorem bit_eq_fld (a n : Nat) : bit s a 0 n = decide (fld s a n 1 = 1) := rfl

/-- A part of the state that every element of a list leaves as it is. -/
theorem foldl_part_of_mem {α β : Type} (p : State → α) {F : State → β → State} :
    ∀ (l : List β) (s : State), (∀ s, ∀ x ∈ l, p (F s x) = p s) → p (l.foldl F s) = p s
  | [], _, _ => rfl
  | x :: l, s, h =>
    (foldl_part_of_mem p l (F s x) fun u y hy => h u y (List.mem_cons_of_mem _ hy)).trans (h s x List.mem_cons_self)

end

end Sys2Proof.Machine
end

section
namespace Sys2Proof.Machine

/-! ## Quad-SPI transactions (R491, R492, R521, R522) -/

section
variable {s : State} (ha : accepts s .H = true) (hs : onSpi s = true)
include ha hs

theorem whenSpi_accepted (f : State → State) : whenSpi s f = f (begin_ s) := by
  refine if_pos ?_
  change (accepts s .H && onSpi s) = true
  rw [ha, hs]
  rfl

theorem exec_spiWrite_accepted {a : Word} {ws : List Word} {st : Status}
    (h : (spineRequest (begin_ s) .H true { addr := a.toNat, words := ws, enables := [] }).out.rstatus = some st) :
    exec (.spiWrite a ws) s = .next (let u := spineRequest (begin_ s) .H true { addr := a.toNat, words := ws, enables := [] }
      { u with disp := { u.disp with spiStatus := st } }) := by
  refine congrArg _ ((whenSpi_accepted ha hs _).trans ?_)
  dsimp only
  rw [h]

/-- What CMD_PUT leaves in the bridge: the packet in the queue, or the reason it is not. -/
def packetPut (len op sess : BitVec 16) (q : BitVec 32) (u : State) : State :=
  if len.toNat < 16 ∨ len.toNat > 512 then { u with disp := { u.disp with spiStatus := .badParam } }
  else if u.disp.spiReq.length ≥ 4 then { u with disp := { u.disp with spiStatus := .busy } }
  else
    { u with disp := { u.disp with spiStatus := .ok, spiReq := u.disp.spiReq ++
      [{ opcode := op.toNat, session := sess, seq := q, accepted := false, ctx := none }] } }

theorem exec_cmdPut_accepted {len op sess : BitVec 16} {q : BitVec 32} :
    exec (.cmdPut len op sess q) s = .next (packetPut len op sess q (begin_ s)) := congrArg _ (whenSpi_accepted ha hs _)

theorem exec_cmdGet_empty (h : s.disp.spiRsp = []) :
    exec .cmdGet s = .next { begin_ s with out := { Outp.none with bytes := leBytes 2 0 } } := by
  refine congrArg _ ((whenSpi_accepted ha hs _).trans ?_)
  rw [show (begin_ s).disp.spiRsp = [] from h]
  rfl

/-- The outputs of CMD_GET with a response, and the state after it has left the queue. -/
def responseOut (r : Rsp) : Outp := { Outp.none with bytes := (leBytes 2 (rspBytes r).length).reverse ++ rspBytes r }
def responseTaken (s : State) (r : Rsp) (t : List Rsp) : State :=
  { begin_ s with disp := { s.disp with spiRsp := t }, out := responseOut r }

theorem exec_cmdGet_response {r : Rsp} {t : List Rsp} (h : s.disp.spiRsp = r :: t) :
    exec .cmdGet s = .next (if r.opcode = 0x0122 ∧ s.boot.resetOrdered = some .spi then
      { warmCore (responseTaken s r t) with out := responseOut r } else responseTaken s r t) := by
  refine congrArg _ ((whenSpi_accepted ha hs _).trans ?_)
  rw [show (begin_ s).disp.spiRsp = r :: t from h]
  rfl

end

/-! ## The command ring (R519, R520) -/

section
variable {s : State}

theorem exec_cmdRingFetch_granted {op sess : BitVec 16} {q : BitVec 32} (hr : running s = true) (h4 : ringHas s 4 = true)
    (h5 : ringOn s 5 = true) (hd : dmaUp s = true) (hroom : s.disp.ringReq.length + owedOn s .ring + 1 ≤ ringFree s 5)
    (hj : judgeD s false (ringBase s 4 + 512 * ringCons s 4) 512 = none) :
    exec (.cmdRingFetch op sess q) s = .next (ringStep (dmaGood { begin_ s with disp := { s.disp with ringReq := s.disp.ringReq ++
      [{ opcode := op.toNat, session := sess, seq := q, accepted := true, ctx := acceptCtx s sess }] } }) 4 R_BRG_RING_CONS) := by
  have hready : (! ringHas s 4 || ! ringOn s 5 || ! dmaUp s || decide (ringFree s 5 < s.disp.ringReq.length + owedOn s .ring + 1)) =
      false := by
    rw [h4, h5, hd, decide_eq_false (Nat.not_lt.mpr hroom)]
    rfl
  refine (next_whenRunning_running hr _).trans (congrArg _ ((if_neg (ne_true_of_eq_false hready)).trans ?_))
  rw [show judgeD (begin_ s) false (ringBase (begin_ s) 4 + 512 * ringCons (begin_ s) 4) 512 = none from hj]
  rfl

theorem acceptCtx_first {sess : BitVec 16} {c : Ctx} (hc : ctxAt s .ring sess = some c)
    (hn : (s.disp.ringReq.filter fun w => decide (w.session = sess)) = []) : acceptCtx s sess = some c := by
  unfold acceptCtx
  rw [hc, hn]
  rfl

end

/-! ## The link (R489, R623) -/

section
variable {s : State} (ha : accepts s .H = true) (hs : onSpi s = false)
include ha hs

theorem accepts_link : (accepts (begin_ s) .H && ! onSpi (begin_ s)) = true := by
  change (accepts s .H && ! onSpi s) = true
  rw [ha, hs]
  rfl

theorem exec_lockedReadTlp_accepted :
    exec .lockedReadTlp s = .next (statInc { begin_ s with out := { Outp.none with refused := true } } R_BRG_LOCKED_TLP) :=
  congrArg _ (if_pos (accepts_link ha hs))

theorem exec_pcieLinkUp_accepted {w : Fin 3} {r : Fin 4} (hw : w.val ≠ 0) (hr : r.val ≠ 0) :
    exec (.pcieLinkUp w r) s =
      .next (setFld (setFld (setFld (begin_ s) R_BRG_STAT 0 1 1) R_BRG_STAT 4 2 w) R_BRG_STAT 1 2 r) := by
  refine congrArg _ (if_pos ?_)
  rw [accepts_link ha hs, decide_eq_true hw, decide_eq_true hr]
  rfl

end

/-! ## Semaphores forced free (R502, R503, R506) -/

section
variable {s : State}

theorem semStat_below {k : Nat} (h : k < 16) : semStat k < R_EVT_PEND := by
  unfold semStat R_BRG_SEM_STAT R_EVT_PEND
  omega

theorem semStat_ne_forced (k : Nat) : semStat k ≠ R_BRG_SEM_FORCED := by
  unfold semStat R_BRG_SEM_STAT R_BRG_SEM_FORCED
  omega

theorem semStat_inj {j k : Nat} (h : j ≠ k) : semStat j ≠ semStat k := by
  unfold semStat
  omega

theorem fld_semForce_other {k a : Nat} (lo w : Nat) (ha : a < R_EVT_PEND) (hf : a ≠ R_BRG_SEM_FORCED) (hk : a ≠ semStat k) :
    fld (semForce s k) a lo w = fld s a lo w := by
  unfold semForce
  rw [fld_raise_below _ _ _ _ ha, fld_statInc_other _ _ hf]
  exact (fld_setFld_other _ _ _ _ _ hk).trans ((fld_setFld_other _ _ _ _ _ hk).trans (fld_setFld_other _ _ _ _ _ hk))

theorem semOwner_semForce {k : Nat} (hw : Regs.wf s) (hk : k < 16) : semOwner (semForce s k) k = 0 := by
  have h1 : Regs.wf (setFld s (semStat k) 0 16 (semGen s k + 1)) := setFld_regs _ _ _ _ hw
  unfold semForce semOwner
  rw [fld_raise_below _ _ _ _ (semStat_below hk), fld_statInc_other _ _ (semStat_ne_forced k)]
  refine (fld_setFld_apart (lo' := 16) (w' := 8) 0 (setFld_regs _ _ _ _ h1) (.inl (by decide)) (by decide)).trans ?_
  exact (fld_setFld_same 0 h1 (by decide)).trans (Nat.zero_mod _)

theorem semForce_sound (k : Nat) (h : s.Sound) : (semForce s k).Sound :=
  kept_soundMark_iff.mp (semForce_kept s k (kept_soundMark_iff.mpr h))

/-- One step of the pass over the semaphores: a held one whose owner meets the test is forced free. -/
def semForceIf (p : Nat → Bool) (s : State) (k : Nat) : State := if semOwner s k ≠ 0 ∧ p (semOwner s k) = true then semForce s k else s

theorem semForceIf_part {α : Type} (q : State → α) {p : Nat → Bool} {k : Nat} (h : q (semForce s k) = q s) :
    q (semForceIf p s k) = q s := by
  unfold semForceIf
  split
  · exact h
  · rfl

theorem semForceIf_sound (p : Nat → Bool) (k : Nat) (h : s.Sound) : (semForceIf p s k).Sound := by
  unfold semForceIf
  split
  · exact semForce_sound k h
  · exact h

theorem semOwner_semForceIf_other {p : Nat → Bool} {j k : Nat} (hj : j < 16) (h : j ≠ k) : semOwner (semForceIf p s k) j = semOwner s j :=
  semForceIf_part (semOwner · j) (fld_semForce_other _ _ (semStat_below hj) (semStat_ne_forced j) (semStat_inj h))

theorem semOwner_semForceIf_same {p : Nat → Bool} {k : Nat} (hs : s.Sound) (hk : k < 16)
    (h : semOwner s k = 0 ∨ p (semOwner s k) = true) : semOwner (semForceIf p s k) k = 0 := by
  unfold semForceIf
  split
  · exact semOwner_semForce hs.regs hk
  · next hn =>
    by_contra h0
    exact hn ⟨h0, h.resolve_left h0⟩

/-- After the pass over a list of semaphores, every one in it whose owner meets the test is free. -/
theorem semOwner_foldl_semForceIf {p : Nat → Bool} {j : Nat} (hj : j < 16) (l : List Nat) (hs : s.Sound)
    (h : semOwner s j = 0 ∨ (j ∈ l ∧ p (semOwner s j) = true)) : semOwner (l.foldl (semForceIf p) s) j = 0 := by
  induction l generalizing s with
  | nil => exact h.resolve_right fun h => nomatch h.1
  | cons k l ih =>
    refine ih (semForceIf_sound p k hs) ?_
    by_cases hk : j = k
    · subst hk
      exact .inl (semOwner_semForceIf_same hs hj (h.imp id And.right))
    · rw [semOwner_semForceIf_other hj hk]
      exact h.imp id fun h => ⟨(List.mem_cons.mp h.1).resolve_left hk, h.2⟩

theorem semOwner_semForceAll {p : Nat → Bool} {j : Nat} (hj : j < 16) (hs : s.Sound) (h : semOwner s j = 0 ∨ p (semOwner s j) = true) :
    semOwner (semForceAll s p) j = 0 :=
  semOwner_foldl_semForceIf hj _ hs (h.imp id fun h => ⟨List.mem_range.mpr hj, h⟩)

/-- What no forced release changes, no pass over the semaphores does. -/
theorem semForceAll_part {α : Type} (q : State → α) (p : Nat → Bool) (h : ∀ s, ∀ k < 16, q (semForce s k) = q s) :
    q (semForceAll s p) = q s :=
  foldl_part_of_mem q (F := semForceIf p) (List.range 16) s fun u k hk => semForceIf_part q (h u k (List.mem_range.mp hk))

end

/-! ## The bridge reset (R490, R506, R534) -/

section
variable {s : State}

/-- Ring slots of a list disabled. -/
def ringsOff (l : List Nat) (s : State) : State := l.foldl (fun s r => setFld s (R_BRG_RING_CFG + 0x20 * r) 31 1 0) s

theorem ringsOff_part {α : Type} (q : State → α) (l : List Nat) (h : ∀ s, ∀ r ∈ l, q (setFld s (R_BRG_RING_CFG + 0x20 * r) 31 1 0) = q s) :
    q (ringsOff l s) = q s := foldl_part_of_mem q l s h

theorem ringsOff_regs (l : List Nat) (h : Regs.wf s) : Regs.wf (ringsOff l s) := by
  induction l generalizing s with
  | nil => exact h
  | cons r l ih => exact ih (setFld_regs _ _ _ _ h)

/-- A ring is on by one field of its register. -/
theorem ringOn_congr {t : State} {r : Nat} (h : fld t (R_BRG_RING_CFG + 0x20 * r) 31 1 = fld s (R_BRG_RING_CFG + 0x20 * r) 31 1) :
    ringOn t r = ringOn s r := by
  unfold ringOn
  rw [bit_eq_fld, bit_eq_fld, h]

theorem ringOn_off {r : Nat} (h : fld s (R_BRG_RING_CFG + 0x20 * r) 31 1 = 0) : ringOn s r = false := by
  unfold ringOn
  rw [bit_eq_fld, h]
  rfl

theorem ringOn_setFld_other {q r : Nat} (h : r ≠ q) : ringOn (setFld s (R_BRG_RING_CFG + 0x20 * q) 31 1 0) r = ringOn s r := by
  refine ringOn_congr (fld_setFld_other _ _ _ _ _ fun e => h ?_)
  exact Nat.eq_of_mul_eq_mul_left (by decide) (Nat.add_left_cancel e)

theorem ringOn_ringsOff {r : Nat} {l : List Nat} (h : Regs.wf s) (hr : r ∈ l ∨ ringOn s r = false) : ringOn (ringsOff l s) r = false := by
  induction l generalizing s with
  | nil => exact hr.resolve_left (nomatch ·)
  | cons q l ih =>
    refine ih (setFld_regs _ _ _ _ h) ?_
    by_cases hq : r = q
    · rw [hq]
      exact .inr (ringOn_off (fld_setFld_same 0 h (by decide)))
    · rw [ringOn_setFld_other hq]
      exact hr.imp (fun hm => (List.mem_cons.mp hm).resolve_left hq) id

/-- LINK, WIDTH and RATE of BRG_STAT cleared. -/
def linkCleared (s : State) : State := setFld (setFld (setFld s R_BRG_STAT 0 1 0) R_BRG_STAT 4 2 0) R_BRG_STAT 1 2 0

theorem fld_linkCleared_other {a : Nat} (lo w : Nat) (h : a ≠ R_BRG_STAT) : fld (linkCleared s) a lo w = fld s a lo w :=
  (fld_setFld_other _ _ _ _ _ h).trans ((fld_setFld_other _ _ _ _ _ h).trans (fld_setFld_other _ _ _ _ _ h))

theorem linkCleared_regs (h : Regs.wf s) : Regs.wf (linkCleared s) :=
  setFld_regs _ _ _ _ (setFld_regs _ _ _ _ (setFld_regs _ _ _ _ h))

/-- The state of a bridge reset before the semaphores are forced free. -/
def linkDown (s : State) : State :=
  let u := linkCleared (ringsOff (List.range 8) (dropRequests (dropJobs s)))
  { u with bridge := { u.bridge with msixTab := [], msixPend := 0, msixLast := [], txWait := none } }

theorem fld_linkDown (s : State) (a lo w : Nat) :
    fld (linkDown s) a lo w = fld (linkCleared (ringsOff (List.range 8) (dropRequests (dropJobs s)))) a lo w := rfl

theorem exec_bridgeReset_accepted (ha : accepts s .H = true) (hs : onSpi s = false) :
    exec .bridgeReset s = .next (semForceAll (linkDown (begin_ s)) fun o => decide (1 ≤ o) && decide (o ≤ 0xEF)) :=
  congrArg _ (if_pos (accepts_link ha hs))

theorem dropJobs_part {α : Type} (q : State → α) (h1 : ∀ s e x, q (setEng s e x) = q s) (h2 : ∀ s e v, q (setJobOn s e v) = q s)
    (s : State) : q (dropJobs s) = q s := by
  refine foldl_field q (fun u e => ?_) _ _
  split
  · split
    · rfl
    · rw [h2, h1]
  · rfl

theorem dropRequests_frame (s : State) : ∃ d h t, dropRequests s = { s with disp := d, hlb := h, tables := t } := by
  unfold dropRequests dropBatch
  dsimp only
  split
  · split
    · exact ⟨_, _, _, rfl⟩
    · exact ⟨_, _, _, rfl⟩
  · exact ⟨_, _, _, rfl⟩

theorem dropRequests_rf (s : State) : (dropRequests s).rf = s.rf := by
  obtain ⟨d, h, t, he⟩ := dropRequests_frame s
  rw [he]

theorem dropRequests_map (s : State) : (dropRequests s).map = s.map := by
  obtain ⟨d, h, t, he⟩ := dropRequests_frame s
  rw [he]

theorem dropRequests_disp (s : State) :
    (dropRequests s).disp = { s.disp with spiReq := [], ringReq := [], spiRsp := [], gateWaits := [] } := by
  unfold dropRequests dropBatch
  dsimp only
  split
  · split <;> rfl
  · rfl

theorem dropRequests_push (s : State) : (dropRequests s).hlb.push = none := by
  unfold dropRequests dropBatch
  dsimp only
  split
  · split <;> rfl
  · rfl

theorem dropped_rf (s : State) : (dropRequests (dropJobs s)).rf = s.rf :=
  (dropRequests_rf _).trans
    (dropJobs_part State.rf (fun _ _ _ => rfl) (fun _ _ _ => rfl) s)

/-- The fields of a register outside the rings and BRG_STAT stay through the link's loss. -/
theorem fld_linkDown_other {a : Nat} (lo w : Nat) (hb : a ≠ R_BRG_STAT) (hr : ∀ r < 8, a ≠ R_BRG_RING_CFG + 0x20 * r) :
    fld (linkDown s) a lo w = fld s a lo w := by
  refine (fld_linkDown s a lo w).trans ((fld_linkCleared_other lo w hb).trans ?_)
  refine (ringsOff_part (fun u => fld u a lo w) _ fun u r hm => fld_setFld_other _ _ _ _ _ (hr r (List.mem_range.mp hm))).trans ?_
  unfold fld fldi rdi
  rw [dropped_rf]

theorem semOwner_linkDown {k : Nat} (hk : k < 16) : semOwner (linkDown s) k = semOwner s k := by
  refine fld_linkDown_other _ _ ?_ fun r _ => ?_ <;> unfold semStat R_BRG_SEM_STAT
  · unfold R_BRG_STAT
    omega
  · unfold R_BRG_RING_CFG
    omega

theorem ringOn_linkDown {r : Nat} (h : Regs.wf s) (hr : r < 8) : ringOn (linkDown s) r = false := by
  have hb : R_BRG_RING_CFG + 0x20 * r ≠ R_BRG_STAT := by unfold R_BRG_RING_CFG R_BRG_STAT; omega
  have hw : Regs.wf (dropRequests (dropJobs s)) := by unfold Regs.wf; rw [dropped_rf]; exact h
  have hstat : ringOn (linkDown s) r = ringOn (ringsOff (List.range 8) (dropRequests (dropJobs s))) r :=
    ringOn_congr ((fld_linkDown s _ 31 1).trans (fld_linkCleared_other 31 1 hb))
  rw [hstat]
  exact ringOn_ringsOff hw (.inl (List.mem_range.mpr hr))

theorem linkDown_part {α : Type} (q : State → α) (h1 : ∀ s a lo w v, q (setFld s a lo w v) = q s)
    (h2 : ∀ s b, q { s with bridge := b } = q s) (s : State) : q (linkDown s) = q (dropRequests (dropJobs s)) :=
  (h2 _ _).trans ((h1 _ _ _ _ _).trans ((h1 _ _ _ _ _).trans ((h1 _ _ _ _ _).trans (ringsOff_part q _ fun u _ _ => h1 u _ _ _ _))))

theorem linkDown_sound (h : s.Sound) : (linkDown s).Sound := by
  have hk : Kept True soundMark (dropRequests (dropJobs s)) := dropRequests_kept _ (dropJobs_kept _ (kept_soundMark_iff.mpr h))
  have hd := kept_soundMark_iff.mp hk
  refine ⟨?_, ?_, ?_, ?_⟩
  · exact linkCleared_regs (ringsOff_regs _ hd.regs)
  · unfold Memory.wf
    rw [linkDown_part State.mem (fun _ _ _ _ _ => rfl) (fun _ _ => rfl)]
    exact hd.mem
  · rw [linkDown_part (fun u => u.power.step) (fun _ _ _ _ _ => rfl) (fun _ _ => rfl)]
    exact hd.step
  · rw [linkDown_part (fun u => u.wheels.odo) (fun _ _ _ _ _ => rfl) (fun _ _ => rfl)]
    exact hd.odo

theorem semForce_disp (s : State) (k : Nat) : (semForce s k).disp = s.disp := by simp [semForce, semFree]
theorem semForce_hlb (s : State) (k : Nat) : (semForce s k).hlb = s.hlb := by simp [semForce, semFree]
theorem semForce_map (s : State) (k : Nat) : (semForce s k).map = s.map := by simp [semForce, semFree]
theorem semForce_msixTab (s : State) (k : Nat) : (semForce s k).bridge.msixTab = s.bridge.msixTab := by simp [semForce, semFree]

theorem ringOn_semForce {r k : Nat} (hr : r < 8) (hk : k < 16) : ringOn (semForce s k) r = ringOn s r := by
  refine ringOn_congr (fld_semForce_other _ _ ?_ ?_ ?_)
  · unfold R_BRG_RING_CFG R_EVT_PEND
    omega
  · unfold R_BRG_RING_CFG R_BRG_SEM_FORCED
    omega
  · unfold R_BRG_RING_CFG semStat R_BRG_SEM_STAT
    omega

/-- What a bridge reset leaves: no request, no push, no enabled ring, no MSI-X table, and no semaphore of a host owner held. -/
structure BridgeDown (s t : State) : Prop where
  spiReq : t.disp.spiReq = []
  ringReq : t.disp.ringReq = []
  spiRsp : t.disp.spiRsp = []
  push : t.hlb.push = none
  owner : ∀ k, k < 16 → 1 ≤ semOwner s k → semOwner s k ≤ 0xEF → semOwner t k = 0
  rings : ∀ r, r < 8 → ringOn t r = false
  msix : t.bridge.msixTab = []
  map : t.map = s.map

theorem semForceAll_linkDown_done (h : s.Sound) :
    BridgeDown s (semForceAll (linkDown s) fun o => decide (1 ≤ o) && decide (o ≤ 0xEF)) := by
  have disp : (semForceAll (linkDown s) fun o => decide (1 ≤ o) && decide (o ≤ 0xEF)).disp =
      { (dropJobs s).disp with spiReq := [], ringReq := [], spiRsp := [], gateWaits := [] } :=
    (semForceAll_part State.disp _ fun u k _ => semForce_disp u k).trans
      ((linkDown_part State.disp (fun _ _ _ _ _ => rfl) (fun _ _ => rfl) s).trans (dropRequests_disp _))
  refine ⟨by rw [disp], by rw [disp], by rw [disp], ?_, fun k hk h1 h2 => ?_, fun r hr => ?_, ?_, ?_⟩
  · exact (semForceAll_part (fun u => u.hlb.push) _ fun u k _ => congrArg (fun h => h.push) (semForce_hlb u k)).trans
      ((linkDown_part (fun u => u.hlb.push) (fun _ _ _ _ _ => rfl) (fun _ _ => rfl) s).trans (dropRequests_push _))
  · refine semOwner_semForceAll hk (linkDown_sound h) (.inr ?_)
    rw [semOwner_linkDown hk, decide_eq_true h1, decide_eq_true h2]
    rfl
  · exact (semForceAll_part (ringOn · r) _ fun u k hk => ringOn_semForce hr hk).trans (ringOn_linkDown h.regs hr)
  · exact semForceAll_part (fun u => u.bridge.msixTab) _ fun u k _ => semForce_msixTab u k
  · exact (semForceAll_part State.map _ fun u k _ => semForce_map u k).trans
      ((linkDown_part State.map (fun _ _ _ _ _ => rfl) (fun _ _ => rfl) s).trans
        ((dropRequests_map _).trans
          (dropJobs_part State.map (fun _ _ _ => rfl) (fun _ _ _ => rfl) s)))

end

/-- Settles O47: a transaction that reaches the bridge does what its command says; a bridge reset by the pass over the
semaphores, which leaves what it does not own. -/
theorem spiAndCommandTransport : Obligations.SpiAndCommandTransport := by
  unfold Obligations.SpiAndCommandTransport
  refine ⟨fun _ _ _ ha hs => congrArg _ (whenSpi_accepted ha hs _), fun _ _ _ _ ha hs h => exec_spiWrite_accepted ha hs h,
    fun _ ha hs => ⟨congrArg _ (whenSpi_accepted ha hs _), congrArg _ (whenSpi_accepted ha hs _)⟩,
    fun s len op sess q ha hs => ?_, fun _ ha hs h => exec_cmdGet_empty ha hs h, fun s r t ha hs h => ?_,
    fun _ _ _ _ hr h4 h5 hd hroom hj => exec_cmdRingFetch_granted hr h4 h5 hd hroom hj,
    fun _ _ _ hc hn => acceptCtx_first hc hn, fun _ ha hs => exec_lockedReadTlp_accepted ha hs,
    fun _ _ _ ha hs hw hr => exec_pcieLinkUp_accepted ha hs hw hr, fun s hi ha hs => ?_⟩
  · have put := exec_cmdPut_accepted (len := len) (op := op) (sess := sess) (q := q) ha hs
    refine ⟨fun hf hl => put.trans (congrArg _ ((if_neg (by omega)).trans (if_neg (Nat.not_le.mpr hl)))),
      fun hf hl => put.trans (congrArg _ ((if_neg (by omega)).trans (if_pos hl))),
      fun hf => put.trans (congrArg _ (if_pos (by omega)))⟩
  · have get := exec_cmdGet_response ha hs h
    exact ⟨fun hn => get.trans (congrArg _ (if_neg fun he => hn.elim (· he.1) (· he.2))),
      fun h1 h2 => get.trans (congrArg _ (if_pos ⟨h1, h2⟩))⟩
  · have hd : BridgeDown (begin_ s) _ := semForceAll_linkDown_done (s := begin_ s) ⟨hi.sound.regs, hi.sound.mem, hi.sound.step, hi.sound.odo⟩
    exact ⟨_, exec_bridgeReset_accepted ha hs, hd.spiReq, hd.ringReq, hd.spiRsp, hd.push, hd.owner, hd.rings, hd.msix, hd.map⟩

end Sys2Proof.Machine
end

section
namespace Sys2Proof.Machine

/-! ## Packets rejected before the checks (R394, R517) -/

section
variable {s u : State} {r : Req} {op : Nat} {unlisted : Bool}

/-- A rejected packet acts in its context only under an unlisted opcode in a role's session, with a tag that verifies. -/
def rejectAudited (r : Req) (op : Nat) (unlisted : Bool) (u : State) : State :=
  match u.disp.cur with
  | some c => if c.role ≠ 0 ∧ unlisted = true ∧ tagGood op r c = true then auditRefusal (endRun u c.role) c.role .badParam op r else u
  | none => u

theorem rejectReq_taken (hr : running s = true) (hroom : roomFor s r.chan = true ∨ acceptedHead s r.chan = true)
    (ht : takeRequest (begin_ s) r op = some u) :
    rejectReq r op unlisted s = answer (setCur (rejectAudited r op unlisted u) none) r op .badParam [] := by
  have hready : (! running s || ! (roomFor s r.chan || acceptedHead s r.chan)) = false := by
    rw [hr, (Bool.or_eq_true _ _).mpr hroom]
    rfl
  refine (if_neg (ne_true_of_eq_false hready)).trans ?_
  rw [ht]
  rfl

theorem rejectAudited_listed (h : unlisted = false ∨ u.disp.cur = none) : rejectAudited r op unlisted u = u := by
  unfold rejectAudited
  split
  · next hc =>
    refine if_neg fun hn => ?_
    rcases h with h | h
    · rw [h] at hn
      exact Bool.false_ne_true hn.2.1
    · rw [h] at hc
      cases hc
  · rfl

theorem rejectAudited_unproved {c : Ctx} (hc : u.disp.cur = some c) (h : c.role = 0 ∨ tagGood op r c = false) :
    rejectAudited r op unlisted u = u := by
  unfold rejectAudited
  rw [hc]
  exact if_neg fun hn => h.elim hn.1 (fun ht => ne_true_of_eq_false ht hn.2.2)

theorem rejectAudited_proved {c : Ctx} (hc : u.disp.cur = some c) (h0 : c.role ≠ 0) (ht : tagGood op r c = true) :
    rejectAudited r op true u = auditRefusal (endRun u c.role) c.role .badParam op r := by
  unfold rejectAudited
  rw [hc]
  exact if_pos ⟨h0, rfl, ht⟩

theorem exec_sysInfo_served {role : Nat} (h : Served 0x0101 r role judgeInfo s) :
    exec (.sysInfo r) s = .next (ok 0x0101 r (audited 0x0101 r role s) (infoBytes (heard 0x0101 r role s))) :=
  congrArg _ (dispatch_read h (by decide) rfl)

end

/-- Settles O32: a rejected packet is answered in the HOST context, after what its own context makes of it. -/
theorem packetsOutsideTheChecks : Obligations.PacketsOutsideTheChecks := by
  unfold Obligations.PacketsOutsideTheChecks
  refine ⟨fun s r op unlisted u hr hroom ht => ?_, fun _ _ _ h => exec_sysInfo_served h⟩
  have rejected (b : Bool) : exec (.cmdReject r op b) s =
      .next (answer (setCur (rejectAudited r op.toNat b u) none) r op.toNat .badParam []) := congrArg _ (rejectReq_taken hr hroom ht)
  refine ⟨fun h => ?_, fun c hc h => ?_, fun c hc h0 hg => ?_⟩
  · rw [rejected, rejectAudited_listed h]
  · rw [rejected, rejectAudited_unproved hc h]
  · rw [rejected, rejectAudited_proved hc h0 hg]

end Sys2Proof.Machine
end

section
namespace Sys2Proof.Machine

/-! ## Field sessions and challenges (R401, R414) -/

section
variable {s : State}

theorem newChallenge_failed (h : s.vault.rngFailed = true) : newChallenge s = raise s .rngFail := by
  unfold newChallenge wantRandom
  rw [h]
  rfl

/-- The challenge of a random draw stands in tag memory, and STATE is READY. -/
def challengeWritten (s : State) : State :=
  let u := tagPuts (exAt + 0x10) (randBytes s.fresh 32) { s with fresh := s.fresh + 1 }
  { u with nfc := { u.nfc with chal := true, ex := .ready } }

theorem newChallenge_written (h : s.vault.rngFailed = false) : newChallenge s = challengeWritten s := by
  unfold newChallenge wantRandom
  rw [h]
  rfl

/-- A field session with the random UID of a draw. -/
def fieldEntered (s : State) : State :=
  { begin_ s with fresh := s.fresh + 1, nfc := { s.nfc with field := true, rfUid := 8 :: randBytes s.fresh 3 } }

theorem exec_fieldSessionStart_awake (h : s.freeze.frozen = false) :
    exec .fieldSessionStart s = .next (if vaultUp s = true ∧ s.nfc.ex ≠ .busy ∧ ¬ s.nfc.chal = true then newChallenge (fieldEntered s)
      else fieldEntered s) := congrArg _ (if_neg (ne_true_of_eq_false h))

theorem exec_fieldSessionEnd_awake (h : s.freeze.frozen = false) :
    exec .fieldSessionEnd s = .next { begin_ s with nfc := { s.nfc with
      field := false, active := false, chal := false, apdu := none, selected := 0,
      ex := if s.nfc.ex = .ready then .idle else s.nfc.ex } } := congrArg _ (if_neg (ne_true_of_eq_false h))

theorem exec_nfcChallengeExpiry_ready (hu : vaultUp s = true) (he : s.nfc.ex = .ready) (hf : s.nfc.field = true) :
    exec .nfcChallengeExpiry s = .next (newChallenge { begin_ s with nfc := { s.nfc with chal := false } }) :=
  congrArg _ (if_pos ⟨hu, he, hf⟩)

end

/-! ## APDUs, exchange windows and wired accesses (R402, R408 to R411, R415) -/

section
variable {s : State} {a : Apdu}

/-- The tag engine takes an APDU: the field is there, no window is open, and no other APDU's response is owed. -/
structure ApduTaken (a : Apdu) (s : State) : Prop where
  awake : s.freeze.frozen = false
  field : s.nfc.field = true
  window : s.nfc.window = false
  owed : s.nfc.apdu = none ∨ s.nfc.apdu = some a

theorem ApduTaken.passes (h : ApduTaken a s) :
    ¬ (s.freeze.frozen = true ∨ ¬ s.nfc.field = true ∨ s.nfc.window = true ∨ (s.nfc.apdu.isSome = true ∧ s.nfc.apdu ≠ some a)) := by
  rw [h.awake, h.field, h.window]
  rcases h.owed with h | h <;> rw [h] <;> simp

/-- The window an APDU opens, with its response owed where it is not complete in time. -/
def apduOpened (s : State) (a : Apdu) (slow : Bool) : State :=
  { begin_ s with nfc := { s.nfc with active := true, window := opensWindow a, apdu := if slow then some a else none } }

theorem exec_nfcApdu_complete (h : ApduTaken a s) :
    exec (.nfcApdu ⟨a, false⟩) s = .next (
      let x := apduDo (apduOpened s a false) a
      let u := statInc x.2.2 R_NFC_EXCH
      { u with out := { u.out with bytes := x.2.1 ++ [BitVec.ofNat 8 (x.1 / 256), BitVec.ofNat 8 x.1] } }) :=
  congrArg _ (if_neg h.passes)

theorem exec_nfcApdu_slow (h : ApduTaken a s) (ho : opensWindow a = true) :
    exec (.nfcApdu ⟨a, true⟩) s =
      .next { begin_ s with nfc := { s.nfc with active := true, window := true, apdu := some a } } := by
  have hopen : apduOpened s a true = { begin_ s with nfc := { s.nfc with active := true, window := true, apdu := some a } } := by
    unfold apduOpened
    rw [ho]
    rfl
  exact congrArg _ ((if_neg h.passes).trans ((if_pos ho).trans hopen))

/-- The window closed, what it held completed with RETRY. -/
def windowClosed (s : State) : State := s.nfc.held.foldl wireRetry { begin_ s with nfc := { s.nfc with window := false, held := [] } }

theorem exec_exchangeWindowClose_open (hw : s.nfc.window = true) (hf : s.freeze.frozen = false) :
    exec .exchangeWindowClose s =
      .next (if (windowClosed s).nfc.apdu.isSome = true then sendWtx (windowClosed s) else windowClosed s) := by
  refine congrArg _ (if_pos ⟨hw, ?_⟩)
  change (! s.freeze.frozen) = true
  rw [hf]
  rfl

theorem exec_tagWiredAccess_tag {c : Cls} {w : Bool} {acc : Access} (ha : accepts s c = true) (h1 : 0x6000000 ≤ acc.addr)
    (h2 : acc.addr < 0x6002000) : exec (.tagWiredAccess c w acc) s = .next (memRequest (begin_ s) c w acc) :=
  congrArg _ (if_pos ⟨ha, h1, h2⟩)

end

/-! ## Credentials on the NFC path (R406, R414, R418, R419, R422) -/

section
variable {s : State}

/-- The credential that stands in the exchange file. -/
def fileCred (s : State) : Cred :=
  { path := 0, req := tagByte s 4098, token := tagBytes s 4144 184, chal := tagBytes s 4112 32, chalOk := s.nfc.subChal,
    proof := tagBytes s 4328 64 }

/-- RESULT and RECEIPT written, STATE at DONE, and a new challenge while the session runs. -/
def credAnswered (x : Status × State) (c : Cred) : State :=
  let y := receipt x.2 c x.1
  let u := tagPuts 4400 y.1 (tagPut y.2 4097 (BitVec.ofNat 8 x.1.code))
  let w := raise { u with nfc := { u.nfc with ex := .done } } .credResult
  if w.nfc.field then newChallenge w else w

theorem nfcCheck_eq (s : State) (vbkpOk : Bool) :
    nfcCheck s vbkpOk = credAnswered (credRun { s with nfc := { s.nfc with subChal := false } } (fileCred s) vbkpOk) (fileCred s) := by
  unfold nfcCheck credAnswered fileCred
  simp only [show exAt + 1 = 4097 from rfl, show exAt + 2 = 4098 from rfl, show exAt + 0x10 = 4112 from rfl,
    show exAt + 0x30 = 4144 from rfl, show exAt + 0xE8 = 4328 from rfl, show exAt + 0x130 = 4400 from rfl]

theorem exec_credentialCheck_busy {vbkp field vbat : Nat} (hu : vaultUp s = true) (he : s.nfc.ex = .busy)
    (hl : s.power.lowEnergy = true → 1500 ≤ field) :
    exec (.credentialCheck vbkp field vbat) s =
      .next (let v := setVbat (begin_ s) vbat
        credAnswered (credRun { v with nfc := { v.nfc with subChal := false } } (fileCred v) (decide (2700 ≤ vbkp))) (fileCred v)) := by
  refine (congrArg _ ((if_neg ?_).trans (nfcCheck_eq _ _)))
  change ¬ ((! (vaultUp s && decide (s.nfc.ex = .busy)) || (s.power.lowEnergy && decide (field < 1500))) = true)
  rw [hu, decide_eq_true he]
  cases hp : s.power.lowEnergy with
  | false => simp
  | true => simpa using hl hp

theorem exec_pendingGrantRun_fits {g : Grant} (hr : running s = true) (hg : s.nfc.pending = some g)
    (hl : s.power.lowEnergy = false) (ha : s.power.actLow = false) (hroom : credRoom (begin_ s) g.request = true)
    (hf : credFits s g.request g.tripRef = none) :
    exec .pendingGrantRun s = .next (
      credAct (credNote { begin_ s with nfc := { s.nfc with pending := none } } g.path g.request .ok 0 true)
        g.path g.request g.tokenId g.tripRef (decide (g.rights.toNat / 2 % 2 = 1))) := by
  have hpass : ¬ ((begin_ s).power.lowEnergy = true ∨ (begin_ s).power.actLow = true ∨ (! credRoom (begin_ s) g.request) = true) := by
    rw [hroom, show (begin_ s).power.lowEnergy = false from hl, show (begin_ s).power.actLow = false from ha]
    decide
  refine (next_whenRunning_running hr _).trans (congrArg _ ?_)
  rw [show (begin_ s).nfc.pending = some g from hg]
  refine (if_neg hpass).trans ?_
  rw [show credFits (begin_ s) g.request g.tripRef = none from hf]
  rfl

end

/-- Settles O39: each command's guard is met by the state named, and what it then does is the rule's. -/
theorem fieldSessionsAndCredentials : Obligations.FieldSessionsAndCredentials := by
  unfold Obligations.FieldSessionsAndCredentials
  refine ⟨fun s hf => ?_, fun s => ⟨newChallenge_failed, newChallenge_written⟩, fun s hf => exec_fieldSessionEnd_awake hf,
    fun s a hf hi hw ho => ?_, fun s hw hf => ?_, fun s c w acc ha h1 h2 => exec_tagWiredAccess_tag ha h1 h2,
    fun s vbkp field vbat hu he hl => exec_credentialCheck_busy hu he hl,
    fun s hu he hf => exec_nfcChallengeExpiry_ready hu he hf,
    fun s g hr hg hl ha hroom hfit => exec_pendingGrantRun_fits hr hg hl ha hroom hfit, fun s => rfl, fun s h => rfl⟩
  · have start := exec_fieldSessionStart_awake hf
    exact ⟨fun h => start.trans (congrArg _ (if_pos ⟨h.1, h.2.1, ne_true_of_eq_false h.2.2⟩)),
      fun h => start.trans (congrArg _ (if_neg fun hn => h ⟨hn.1, hn.2.1, eq_false_of_ne_true hn.2.2⟩))⟩
  · have ht : ApduTaken a s := ⟨hf, hi, hw, ho⟩
    exact ⟨exec_nfcApdu_complete ht, exec_nfcApdu_slow ht⟩
  · have close := exec_exchangeWindowClose_open hw hf
    refine ⟨fun h => close.trans (congrArg _ (if_neg ?_)), fun h => close.trans (congrArg _ (if_pos (Option.isSome_iff_ne_none.mpr h)))⟩
    rw [show (windowClosed s).nfc.apdu = none from h]
    exact Bool.false_ne_true

end Sys2Proof.Machine
end

section
namespace Sys2Proof.Machine

/-! ## Judging a credential (R418 to R421) -/

section
variable {s : State} {c : Cred} {vb : Bool}

/-- A submission replaces a pending grant. -/
def grantDropped (s : State) : State := { s with nfc := { s.nfc with pending := none } }

/-- A path on which checks are made: it is not locked, the vault group is whole, and power is not low. -/
structure PathOpen (c : Cred) (s : State) : Prop where
  unlocked : (pathOf s c.path).locked = false
  whole : groupTampered s = false
  power : s.power.lowEnergy = false

/-- The room for the action's entries, and the action, of a credential whose checks pass. -/
def credPassed (u : State) (c : Cred) : Status × State :=
  if ! credRoom u c.req.toNat then (.busy, credNote u c.path c.req.toNat .busy 0 true)
  else (.ok, credAct (credNote u c.path c.req.toNat .ok 0 true) c.path c.req.toNat (beNat (slice c.token 8 8))
    (beNat (slice c.token 0x30 8)) (decide (beNat (slice c.token 2 2) / 2 % 2 = 1)))

/-! The records of a closing trip do not depend on a pending grant. -/

theorem queueEntryL_grantDropped (s : State) (late restart : Bool) (lt : Nat) (p : Payload) :
    queueEntryL (grantDropped s) late restart lt p = grantDropped (queueEntryL s late restart lt p) := by
  unfold queueEntryL
  rw [apply_ite grantDropped]
  rfl

theorem closeInterval_grantDropped (s : State) (late : Bool) (lt reason : Nat) :
    closeInterval (grantDropped s) late lt reason = grantDropped (closeInterval s late lt reason) := by
  unfold closeInterval
  rw [show (grantDropped s).ledger.interval = s.ledger.interval from rfl]
  split
  · rfl
  · dsimp only
    rw [queueEntryL_grantDropped]
    rfl

theorem boundaryClose_grantDropped (s : State) (late : Bool) :
    boundaryClose (grantDropped s) late = grantDropped (boundaryClose s late) := by
  unfold boundaryClose
  rw [show (grantDropped s).ledger.interval = s.ledger.interval from rfl]
  split
  · rfl
  · rw [apply_ite grantDropped, closeInterval_grantDropped]
    rfl

theorem boundaryCloses_grantDropped (late : Bool) (n : Nat) (s : State) :
    boundaryCloses late n (grantDropped s) = grantDropped (boundaryCloses late n s) := by
  induction n generalizing s with
  | zero => rfl
  | succ n ih =>
    unfold boundaryCloses
    rw [show (grantDropped s).ledger.interval = s.ledger.interval from rfl]
    split
    · rw [apply_ite grantDropped, boundaryClose_grantDropped, ih]
      rfl
    · rfl

/-- The open interval's end in a closing trip. -/
def tripIntervalClosed (s : State) : State :=
  if (match s.ledger.interval with
    | some i => decide (i.num > 1) && decide (i.openBeat = s.time.beatCnt)
    | none => false) = true then { s with ledger := { s.ledger with interval := none } } else closeInterval s false (ltimeNow s) 2

theorem closeTripRecords_eq (s : State) (t : Trip) (src : Nat) :
    closeTripRecords s t src =
      let u := tripIntervalClosed (boundaryCloses false 64 s)
      queueEntryL u false false (ltimeNow u) (.tripClose t.tripRef u.wheels.odo (wallSec u) u.ledger.intervals src) := rfl

theorem tripIntervalClosed_grantDropped (s : State) : tripIntervalClosed (grantDropped s) = grantDropped (tripIntervalClosed s) := by
  unfold tripIntervalClosed
  rw [apply_ite grantDropped, closeInterval_grantDropped]
  rfl

theorem closeTripRecords_grantDropped (s : State) (t : Trip) (src : Nat) :
    closeTripRecords (grantDropped s) t src = grantDropped (closeTripRecords s t src) := by
  rw [closeTripRecords_eq, closeTripRecords_eq, boundaryCloses_grantDropped, tripIntervalClosed_grantDropped]
  exact queueEntryL_grantDropped _ _ _ _ _

theorem credRoom_grantDropped (s : State) (req : Nat) : credRoom (grantDropped s) req = credRoom s req := by
  unfold credRoom closeRoom
  rw [show (grantDropped s).ledger.trip = s.ledger.trip from rfl]
  split
  · split
    · rfl
    · rw [closeTripRecords_grantDropped]
      rfl
  · rfl

theorem pathOf_grantDropped (s : State) (p : Nat) : pathOf (grantDropped s) p = pathOf s p := by
  unfold pathOf
  split <;> rfl

theorem credRun_locked (h : (pathOf s c.path).locked = true) :
    credRun s c vb = (.denied, credNote (grantDropped s) c.path c.req.toNat .denied 0 false) :=
  if_pos ((congrArg CredPath.locked (pathOf_grantDropped s _)).trans h)

/-- On an open path the checks of R418 decide: 1 to 8, then 9 and 10, then the room in the ledger. -/
theorem credRun_open (h : PathOpen c s) :
    credRun s c vb =
      match credChecks (grantDropped s) c with
      | some (st, n) => (st, credNote (grantDropped s) c.path c.req.toNat st n true)
      | none =>
        match credFits (grantDropped s) c.req.toNat (beNat (slice c.token 0x30 8)) with
        | some (st, n) => (st, credNote (grantDropped s) c.path c.req.toNat st n true)
        | none => credPassed (grantDropped s) c := by
  have hl : ¬ (pathOf (grantDropped s) c.path).locked = true := by
    rw [pathOf_grantDropped]
    exact ne_true_of_eq_false h.unlocked
  have hp : (grantDropped s).power.lowEnergy = false := h.power
  refine (if_neg hl).trans ((if_neg (ne_true_of_eq_false h.whole)).trans ?_)
  dsimp only
  refine (if_neg fun hn => ne_true_of_eq_false hp hn.1).trans ?_
  simp only [show ({ s with nfc := { s.nfc with pending := none } } : State) = grantDropped s from rfl, hp, h.power, Bool.false_eq_true,
    if_false, and_false]
  rfl

theorem credChecks_grantDropped (s : State) (c : Cred) : credChecks (grantDropped s) c = credChecks s c := rfl

theorem credRun_fails {st : Status} {n : Nat} (h : PathOpen c s) (hc : credChecks s c = some (st, n)) :
    credRun s c vb = (st, credNote (grantDropped s) c.path c.req.toNat st n true) := by
  rw [credRun_open h, credChecks_grantDropped, hc]

theorem credRun_misfits {st : Status} {n : Nat} (h : PathOpen c s) (hc : credChecks s c = none)
    (hf : credFits s c.req.toNat (beNat (slice c.token 0x30 8)) = some (st, n)) :
    credRun s c vb = (st, credNote (grantDropped s) c.path c.req.toNat st n true) := by
  rw [credRun_open h, credChecks_grantDropped, hc,
    show credFits (grantDropped s) c.req.toNat (beNat (slice c.token 0x30 8)) = some (st, n) from hf]

theorem credRun_passes (h : PathOpen c s) (hc : credChecks s c = none)
    (hf : credFits s c.req.toNat (beNat (slice c.token 0x30 8)) = none) (hroom : credRoom s c.req.toNat = true) :
    credRun s c vb = (.ok, credAct (credNote (grantDropped s) c.path c.req.toNat .ok 0 true) c.path c.req.toNat
      (beNat (slice c.token 8 8)) (beNat (slice c.token 0x30 8)) (decide (beNat (slice c.token 2 2) / 2 % 2 = 1))) := by
  rw [credRun_open h, credChecks_grantDropped, hc,
    show credFits (grantDropped s) c.req.toNat (beNat (slice c.token 0x30 8)) = none from hf]
  refine if_neg ?_
  rw [credRoom_grantDropped, hroom]
  exact Bool.false_ne_true

end

/-- Settles O40: on an open path the first check that fails decides, and without one the action follows the note. -/
theorem credentialsThatPassAct : Obligations.CredentialsThatPassAct := by
  unfold Obligations.CredentialsThatPassAct
  exact ⟨fun _ _ _ hl hg hp hc hf hr => credRun_passes ⟨hl, hg, hp⟩ hc hf hr,
    fun _ _ _ _ _ hl hg hp hc => credRun_fails ⟨hl, hg, hp⟩ hc,
    fun _ _ _ _ _ hl hg hp hc hf => credRun_misfits ⟨hl, hg, hp⟩ hc hf,
    fun _ _ _ hl => credRun_locked hl⟩

end Sys2Proof.Machine
end

section
namespace Sys2Proof.Machine

/-! ## The freshness value (R369, R370) -/

theorem foldl_bytes_lt (l : List Byte) (a : Nat) : l.foldl (fun a b => a * 256 + b.toNat) a < (a + 1) * 256 ^ l.length := by
  induction l generalizing a with
  | nil => simp
  | cons b l ih =>
    have hb := b.isLt
    calc l.foldl (fun a b => a * 256 + b.toNat) (a * 256 + b.toNat)
        < (a * 256 + b.toNat + 1) * 256 ^ l.length := ih _
      _ ≤ ((a + 1) * 256) * 256 ^ l.length := Nat.mul_le_mul_right _ (by omega)
      _ = (a + 1) * 256 ^ (b :: l).length := by rw [List.length_cons, pow_succ, Nat.mul_assoc, Nat.mul_comm 256]

theorem beNat_lt (l : List Byte) : beNat l < 2 ^ (8 * l.length) := by
  have h := foldl_bytes_lt l 0
  rw [Nat.zero_add, Nat.one_mul, show (256 : Nat) = 2 ^ 8 from rfl, ← pow_mul] at h
  exact h

/-- The candidate ends in the bits the frame carries. -/
theorem laCandidate_mod {l m fv : Nat} (h : fv < 2 ^ m) : laCandidate l m fv % 2 ^ m = fv := by
  unfold laCandidate
  dsimp only
  split
  · exact Nat.mod_eq_of_lt h
  · have hc : (l - l % 2 ^ m + fv) % 2 ^ m = fv := by
      rw [← Nat.div_mul_self_eq_mod_sub_self, Nat.mul_comm, Nat.mul_add_mod, Nat.mod_eq_of_lt h]
    split
    · rw [Nat.add_mod_right, hc]
    · exact hc

/-! ## The judge (R370) -/

section
variable {s t : State} {p : Nat} {data : List Byte}

/-- The authentic payload and the trailer of a frame of a profile. -/
def laPay (s : State) (p : Nat) (data : List Byte) : List Byte := data.take (data.length - (laFv s p + laMac s p))
def laTrailer (s : State) (p : Nat) (data : List Byte) : List Byte := data.drop (data.length - (laFv s p + laMac s p))

/-- The latest value a profile accepted. -/
def laLatest (s : State) (p : Nat) : Nat := la64 s R_CIPH_LA_L_LO R_CIPH_LA_L_HI p

/-- What the judge has found of a frame it accepts with the value `c`. -/
structure LaAccepts (s : State) (p : Nat) (data : List Byte) (c : Nat) : Prop where
  mac : (laTrailer s p data).drop (laFv s p) = laTag s p (laPay s p data) c
  key : laKeyOk s p useMacVer = true
  later : laLatest s p < c
  near : c ≤ laLatest s p + (rdi s R_CIPH_LA_WIN p).toNat
  fits : c < 2 ^ 64
  carried : c % 2 ^ (8 * laFv s p) = beNat ((laTrailer s p data).take (laFv s p))

theorem laAccepts_of_judge {c : Nat} (h : laJudge s p data = (.ok, c)) : LaAccepts s p data c := by
  unfold laJudge at h
  dsimp only at h
  split at h
  · cases h
  · next hlen =>
    split at h
    · cases h
    · split at h
      · cases h
      · next hc =>
        split at h
        · cases h
        · next hk =>
          split at h
          · cases h
          · next hm =>
            obtain ⟨h1, h2, h3⟩ := not_or.mp hc |>.imp id not_or.mp
            cases h
            have htr : ((laTrailer s p data).take (laFv s p)).length = laFv s p := by
              rw [List.length_take, laTrailer, List.length_drop]
              omega
            have hfv := beNat_lt ((laTrailer s p data).take (laFv s p))
            rw [htr] at hfv
            exact ⟨not_not.mp hm, by simpa using hk, Nat.not_le.mp h1, by unfold laLatest; omega, by omega, laCandidate_mod hfv⟩

/-- The state in which a frame's outcome is counted. -/
def laCounted (s : State) (p : Nat) (data : List Byte) : State :=
  statIncI (if laAsksKey s p data then laTouch s p else s) (laJudge s p data).1.reg p

theorem laVerify_accepted {c : Nat} (h : laJudge s p data = (.ok, c)) :
    laVerify s p data =
      let u := setLa64 (laCounted s p data) R_CIPH_LA_L_LO R_CIPH_LA_L_HI p c
      (true, if c = 2 ^ 64 - 1 then raise u .slotFinal else u) := by
  unfold laVerify laCounted
  rw [h]

theorem laVerify_refused (h : (laJudge s p data).1 ≠ .ok) : laVerify s p data = (false, raise (laCounted s p data) .laFail) := by
  unfold laVerify laCounted
  generalize laJudge s p data = x at h ⊢
  obtain ⟨o, c⟩ := x
  cases o
  · exact absurd rfl h
  all_goals rfl

/-! ## The latest accepted value -/

theorem laLatest_congr (hlo : rdi t R_CIPH_LA_L_LO p = rdi s R_CIPH_LA_L_LO p) (hhi : rdi t R_CIPH_LA_L_HI p = rdi s R_CIPH_LA_L_HI p) :
    laLatest t p = laLatest s p := by
  unfold laLatest la64
  rw [hlo, hhi]

theorem laLatest_raise (s : State) (e : Ev) (hp : p < 1024) : laLatest (raise s e) p = laLatest s p :=
  laLatest_congr (rdi_raiseN_below s _ p (by decide) (by omega)) (rdi_raiseN_below s _ p (by decide) (by omega))

theorem rdi_wri_otherReg (s : State) {a b i j : Nat} (v : Word) (hab : b ≠ a) (hi : i < 8192) (hj : j < 8192) :
    rdi (wri s a i v) b j = rdi s b j := rdi_wri_other s v fun h => hab (regKey_inj hj hi h).1

theorem laOut_reg_ne (o : LaOut) : R_CIPH_LA_L_LO ≠ o.reg ∧ R_CIPH_LA_L_HI ≠ o.reg := by
  cases o <;> decide

theorem laLatest_laCounted (hp : p < 1024) : laLatest (laCounted s p data) p = laLatest s p := by
  obtain ⟨h1, h2⟩ := laOut_reg_ne (laJudge s p data).1
  have hi : p < 8192 := by omega
  have hcount : laLatest (laCounted s p data) p = laLatest (if laAsksKey s p data then laTouch s p else s) p :=
    laLatest_congr (rdi_wri_otherReg _ _ h1 hi hi) (rdi_wri_otherReg _ _ h2 hi hi)
  rw [hcount]
  split <;> rfl

theorem laLatest_setLa64 {c : Nat} (hw : Regs.wf s) (hp : p < 1024) (hc : c < 2 ^ 64) :
    laLatest (setLa64 s R_CIPH_LA_L_LO R_CIPH_LA_L_HI p c) p = c := by
  have hi : p < 8192 := by omega
  unfold laLatest la64 setLa64
  rw [rdi_wri_otherReg _ _ (by decide) hi hi, rdi_wri_same _ _ _ _ hw, rdi_wri_same _ _ _ _ (wri_regs _ _ _ _ hw),
    BitVec.toNat_ofNat, BitVec.toNat_ofNat]
  omega

theorem laCounted_regs (h : Regs.wf s) : Regs.wf (laCounted s p data) := by
  refine wri_regs _ _ _ _ ?_
  split <;> exact h

theorem laLatest_laVerify_accepted {c : Nat} (hw : Regs.wf s) (hp : p < 1024) (h : laJudge s p data = (.ok, c)) :
    laLatest (laVerify s p data).2 p = c := by
  have hset := laLatest_setLa64 (laCounted_regs (p := p) (data := data) hw) hp (laAccepts_of_judge h).fits
  rw [laVerify_accepted h]
  dsimp only
  split
  · rw [laLatest_raise _ _ hp, hset]
  · exact hset

theorem laVerify_true (h : (laVerify s p data).1 = true) : ∃ c, laJudge s p data = (.ok, c) := by
  by_contra hn
  have ho : (laJudge s p data).1 ≠ .ok := fun ho => hn ⟨_, Prod.ext ho rfl⟩
  rw [laVerify_refused ho] at h
  cases h

theorem laVerify_false (h : (laVerify s p data).1 = false) : (laJudge s p data).1 ≠ .ok := fun ho => by
  rw [laVerify_accepted (Prod.ext ho rfl)] at h
  cases h

end

/-- Settles O50: the judge accepts a frame only with a candidate above the latest value, and the latest value is stored
only then. -/
theorem securedFramesAreJudged : Obligations.SecuredFramesAreJudged := by
  unfold Obligations.SecuredFramesAreJudged
  refine ⟨fun s p data hi hp h => ?_, fun s p data hi hp h => ?_⟩
  · obtain ⟨c, hc⟩ := laVerify_true h
    have hnew : la64 (laVerify s p data).2 R_CIPH_LA_L_LO R_CIPH_LA_L_HI p = c := laLatest_laVerify_accepted hi.sound.regs hp hc
    obtain ⟨hmac, hkey, hlater, hnear, -, hcar⟩ := laAccepts_of_judge hc
    dsimp only
    rw [hnew]
    exact ⟨hmac, hkey, hlater, hnear, hcar⟩
  · rw [laVerify_refused (laVerify_false h)]
    exact ⟨(laLatest_raise _ _ hp).trans (laLatest_laCounted hp), _, rfl⟩

end Sys2Proof.Machine
end

section
namespace Sys2Proof.Machine

/-! ## What a change of mode leaves as it is (R70, R72, R74)

The lanes, ports and rails that follow a mode drop frames, count them and answer flow control. None of that touches the
vault, the cipher engines, the memories, the ledger, the sessions, PWR_HOLD or VLT_TAMPER. -/

/-- `t` holds what `s` holds in the parts a tamper and a watchdog act on. The frames of a state may name any stream, and so
any word of the register file: VLT_TAMPER stays where it is not zero. -/
structure Untouched (s t : State) : Prop where
  cipher : t.cipher = s.cipher
  vault : t.vault = s.vault
  mem : t.mem = s.mem
  ledger : t.ledger = s.ledger
  sess : t.sess = s.sess
  cur : t.power.cur = s.power.cur
  cause : t.power.qcause = s.power.qcause
  hold : rdi t R_PWR_HOLD 0 = rdi s R_PWR_HOLD 0
  tamper : rdi s R_VLT_TAMPER 0 ≠ 0 → rdi t R_VLT_TAMPER 0 = rdi s R_VLT_TAMPER 0

section
variable {s t u : State}

theorem Untouched.refl (s : State) : Untouched s s := ⟨rfl, rfl, rfl, rfl, rfl, rfl, rfl, rfl, fun _ => rfl⟩

theorem Untouched.trans (h : Untouched s t) (g : Untouched t u) : Untouched s u :=
  ⟨g.cipher.trans h.cipher, g.vault.trans h.vault, g.mem.trans h.mem, g.ledger.trans h.ledger, g.sess.trans h.sess,
    g.cur.trans h.cur, g.cause.trans h.cause, g.hold.trans h.hold, fun hn => (g.tamper (by rw [h.tamper hn]; exact hn)).trans (h.tamper hn)⟩

theorem Untouched.of_rf (hr : t.rf = s.rf) (hc : t.cipher = s.cipher) (hv : t.vault = s.vault) (hm : t.mem = s.mem)
    (hl : t.ledger = s.ledger) (hs : t.sess = s.sess) (hp : t.power.cur = s.power.cur) (hq : t.power.qcause = s.power.qcause) :
    Untouched s t :=
  ⟨hc, hv, hm, hl, hs, hp, hq, congrArg (tabGet rfCold · _) hr, fun _ => congrArg (tabGet rfCold · _) hr⟩

theorem untouched_ite {p : Prop} [Decidable p] {a b : State} (ha : Untouched s a) (hb : Untouched s b) :
    Untouched s (if p then a else b) := by
  split
  · exact ha
  · exact hb

theorem untouched_foldl {β : Type} {F : State → β → State} :
    ∀ (l : List β) (s : State), (∀ s, ∀ x ∈ l, Untouched s (F s x)) → Untouched s (l.foldl F s)
  | [], s, _ => .refl s
  | x :: l, s, h =>
    (h s x List.mem_cons_self).trans (untouched_foldl l _ fun u y hy => h u y (List.mem_cons_of_mem _ hy))

/-- A register that is neither PWR_HOLD nor VLT_TAMPER, with an index below the bound of its key. -/
structure OtherReg (a i : Nat) : Prop where
  hold : a ≠ R_PWR_HOLD
  tamper : a ≠ R_VLT_TAMPER
  inst : i < 8192

theorem untouched_wri {a i : Nat} (v : Word) (h : OtherReg a i) : Untouched s (wri s a i v) :=
  ⟨rfl, rfl, rfl, rfl, rfl, rfl, rfl, rdi_wri_other s v fun e => h.hold (regKey_inj (by decide) h.inst e).1.symm,
    fun _ => rdi_wri_other s v fun e => h.tamper (regKey_inj (by decide) h.inst e).1.symm⟩

/-- A word written with what it held leaves every word that is not at its cold value. -/
theorem rdi_wri_self {a i b j : Nat} (h : rdi s b j ≠ rfCold (regKey b j)) : rdi (wri s a i (rdi s a i)) b j = rdi s b j := by
  by_cases hk : regKey b j = regKey a i
  · have hv : rdi s a i = rdi s b j := congrArg (tabGet rfCold s.rf) hk.symm
    rw [hv]
    unfold rdi wri
    rw [← hk]
    exact tabGet_set_ne _ _ h
  · exact rdi_wri_other s _ hk

theorem untouched_stat2AddI {a i : Nat} (n : Nat) (h : OtherReg a i) (h4 : OtherReg (a + 4) i) : Untouched s (stat2AddI s a i n) :=
  untouched_ite (.refl s) (untouched_ite ((untouched_wri _ h).trans (untouched_wri _ h4)) ((untouched_wri _ h).trans (untouched_wri _ h4)))

theorem untouched_raise (s : State) (e : Ev) : Untouched s (raise s e) :=
  ⟨raise_cipher s e, raise_vault s e, raise_mem s e, raise_ledger s e, raise_sess s e,
    congrArg Power.cur (raise_power s e), congrArg Power.qcause (raise_power s e), rdi_raiseN_below s _ 0 (by decide) (by decide), fun _ => rdi_raiseN_below s _ 0 (by decide) (by decide)⟩

end

/-! ### Flow control and dropped frames (R208, R263, R266, R269) -/

section
variable {s : State} {p : Nat}

theorem untouched_out (s : State) (o : Outp) : Untouched s { s with out := o } := .of_rf rfl rfl rfl rfl rfl rfl rfl rfl

theorem untouched_sendPause (b quanta : Nat) (hp : p < 8) : Untouched s (sendPause s p b quanta) := by
  have hi : p < 8192 := by omega
  unfold sendPause
  dsimp only
  refine Untouched.trans (t := stat2AddI (stat2AddI (statIncI s R_PORT_TX_PAUSE p) R_PORT_TXF p 1) R_PORT_TXO p 64) ?_ (untouched_out _ _)
  refine (untouched_wri _ ⟨by decide, by decide, hi⟩).trans ((untouched_stat2AddI 1 ?_ ?_).trans (untouched_stat2AddI 64 ?_ ?_)) <;>
    exact ⟨by decide, by decide, hi⟩

theorem untouched_net (n : Net) : Untouched s { s with net := n } := .of_rf rfl rfl rfl rfl rfl rfl rfl rfl

theorem untouched_fcScope (s : State) (b : Nat) (hp : p < 8) : Untouched s (fcScope s p b) := by
  have hi : OtherReg R_PORT_PAUSE_STAT p := ⟨by decide, by decide, by omega⟩
  unfold fcScope
  dsimp only
  refine untouched_ite (untouched_ite (untouched_net _) ?_) (untouched_ite (untouched_ite ?_ ?_) (.refl s))
  · exact (untouched_net _).trans ((untouched_wri _ hi).trans (untouched_sendPause b _ hp))
  · exact (untouched_net _).trans ((untouched_wri _ hi).trans (untouched_sendPause b _ hp))
  · exact (untouched_net _).trans (untouched_wri _ hi)

theorem untouched_fcCheck (s : State) (ing : Nat) : Untouched s (fcCheck s ing) := by
  unfold fcCheck
  split
  · next h => exact untouched_foldl _ _ fun u b _ => untouched_fcScope u b (by omega)
  · exact .refl s

theorem untouched_releaseRef (s : State) (h : Nat) : Untouched s (releaseRef s h) := by
  unfold releaseRef
  split
  · exact .refl s
  · exact untouched_ite ((untouched_net _).trans (untouched_fcCheck _ _)) (untouched_net _)

theorem untouched_rsqSend (s : State) (e : Nat) (l : List Nat) : Untouched s (rsqSend s e l) := by
  refine untouched_foldl l s fun u h _ => ?_
  dsimp only
  split
  · exact .refl u
  · exact .of_rf rfl rfl rfl rfl rfl rfl rfl rfl

/-- The run of a context that gives up no number loses none. -/
theorem lost_rsqRun (n : Nat) (r : RsqRes) : (rsqRun n r).lost = r.lost := by
  induction n generalizing r with
  | zero => rfl
  | succ n ih =>
    unfold rsqRun
    split
    · next h =>
      rw [ih]
      unfold rsqStep1
      dsimp only
      split
      · rfl
      · rfl
      · next hn =>
        rw [hn] at h
        cases h
    · rfl

theorem untouched_statAddI_zero (s : State) (str : Nat) : Untouched s (statAddI s R_SW_S_LOST str 0) := by
  have hv : statPlus (rdi s R_SW_S_LOST str) 0 = rdi s R_SW_S_LOST str := if_pos rfl
  unfold statAddI
  rw [hv]
  refine ⟨rfl, rfl, rfl, rfl, rfl, rfl, rfl, rdi_wri_other s _ fun e => ?_, fun h => rdi_wri_self h⟩
  unfold regKey R_PWR_HOLD R_SW_S_LOST at e
  omega

theorem untouched_rsqStore (s : State) (str e : Nat) {r : RsqRes} (h : r.lost = 0) : Untouched s (rsqStore s str e r) := by
  unfold rsqStore
  rw [h]
  exact (untouched_net _).trans ((untouched_statAddI_zero _ str).trans (untouched_rsqSend _ e _))

theorem untouched_rsqAdvise (s : State) (e : Nat) (f : Frame) : Untouched s (rsqAdvise s e f) := by
  unfold rsqAdvise
  split
  · exact .refl s
  · split
    · exact .refl s
    · dsimp only
      split
      · exact untouched_rsqStore _ _ _ (lost_rsqRun 64 _)
      · split
        · split
          · exact untouched_net _
          · exact .refl s
        · exact .refl s

theorem untouched_dropAt (s : State) (e h : Nat) : Untouched s (dropAt s e h) := by
  unfold dropAt
  split
  · exact .refl s
  · exact (untouched_rsqAdvise _ _ _).trans (untouched_releaseRef _ _)

theorem untouched_dropHeld (s : State) (hp : p < 8) : Untouched s (dropHeld s (96 + p)) := by
  have hi : OtherReg R_PORT_TX_LINKDROP (portIdx (96 + p)) := ⟨by decide, by decide, by unfold portIdx; rw [if_neg] <;> omega⟩
  refine untouched_foldl _ _ fun u x _ => ?_
  dsimp only
  split
  · exact .refl u
  · exact (untouched_net _).trans ((untouched_wri _ hi).trans (untouched_releaseRef _ _))

theorem untouched_flushAll {cnt : State → Nat → State} (hc : ∀ s q, Untouched s (cnt s q)) (s : State) (e : Nat) :
    Untouched s (flushAll cnt s e) :=
  untouched_foldl _ _ fun _ q _ =>
    (untouched_net _).trans (untouched_foldl _ _ fun v _ _ => (hc v q).trans (untouched_dropAt _ _ _))

theorem untouched_flushPort (s : State) (hp : p < 8) : Untouched s (flushPort s p) :=
  (untouched_dropHeld s hp).trans (untouched_flushAll (fun _ _ => untouched_wri _ ⟨by decide, by decide, by omega⟩) _ _)

/-! ### Lanes, ports and rails follow a mode (R79, R167, R192 to R195) -/

theorem untouched_clrReg {a i : Nat} (m : Word) (h : OtherReg a i) : Untouched s (clrReg s a i m) := untouched_wri _ h

theorem untouched_setPort (s : State) (p : Nat) (x : Port) : Untouched s (setPort s p x) := .of_rf rfl rfl rfl rfl rfl rfl rfl rfl

theorem untouched_portQuiet (s : State) (hp : p < 8) : Untouched s (portQuiet s p) := by
  have hi : p < 8192 := by omega
  unfold portQuiet
  dsimp only
  refine Untouched.trans ?_ (untouched_setPort _ _ _)
  refine Untouched.trans ?_ (untouched_net _)
  refine (untouched_clrReg _ ?_).trans ((untouched_wri _ ?_).trans (untouched_clrReg _ ?_)) <;> exact ⟨by decide, by decide, hi⟩

theorem untouched_linkLost (s : State) (hp : p < 8) : Untouched s (linkLost s p) := by
  have hq : Untouched s (portQuiet (flushPort (clrReg s R_PORT_STAT p 0x00000172) p) p) :=
    (untouched_wri _ ⟨by decide, by decide, by omega⟩).trans ((untouched_flushPort _ hp).trans (untouched_portQuiet _ hp))
  exact untouched_ite (hq.trans (untouched_raise _ _)) hq

theorem untouched_portUp (s : State) (hp : p < 8) : Untouched s (portUp s p) := by
  exact untouched_ite (.refl s) (untouched_ite (untouched_setPort _ _ _) (untouched_ite (.refl s) (untouched_wri _ ⟨by decide, by decide, by omega⟩)))

theorem untouched_portDown (s : State) (hp : p < 8) : Untouched s (portDown s p) := by
  exact (untouched_linkLost s hp).trans ((untouched_setPort _ _ _).trans (untouched_wri _ ⟨by decide, by decide, by omega⟩))

theorem untouched_portsFollow (s : State) : Untouched s (portsFollow s) :=
  untouched_foldl _ _ fun u p hp =>
    have hp : p < 8 := List.mem_range.mp hp
    untouched_ite (untouched_portUp u hp) (untouched_ite (untouched_portDown u hp) (.refl u))

theorem untouched_lanesFollow (s : State) : Untouched s (lanesFollow s) :=
  .of_rf (lanesFollow_rf s) (lanesFollow_cipher s) (lanesFollow_vault s) (lanesFollow_mem s) (lanesFollow_ledger s) (lanesFollow_sess s)
    (congrArg Power.cur (lanesFollow_power s)) (congrArg Power.qcause (lanesFollow_power s))

/-- The rails' enables and power-goods are no part of a mode. -/
theorem untouched_rails (s : State) (en pg : BitVec 5) (w : Option Nat) :
    Untouched s { s with power := { s.power with en := en, pg := pg, railWait := w } } := .of_rf rfl rfl rfl rfl rfl rfl rfl rfl

theorem untouched_railOff (s : State) (r : Nat) : Untouched s (railOff s r) :=
  untouched_ite ((untouched_rails s _ _ _).trans (untouched_wri _ ⟨by decide, by decide, by decide⟩)) (untouched_rails s _ _ _)

theorem untouched_railNext (s : State) (m : Mode) : Untouched s (railNext s m) := by
  obtain ⟨en, w, h⟩ := railNext_power s m
  exact .of_rf (railNext_rf s m) (railNext_cipher s m) (railNext_vault s m) (railNext_mem s m) (railNext_ledger s m)
    (railNext_sess s m) (by rw [h]) (by rw [h])

theorem untouched_railsFollow (s : State) (m : Mode) : Untouched s (railsFollow s m) :=
  (untouched_foldl _ _ fun u r _ => untouched_ite (untouched_railOff u r) (.refl u)).trans
    (untouched_railNext _ m)

/-! ### Answers on a channel (R388, R516, R519 to R522) -/

theorem untouched_deny (s : State) (d : Deny) : Untouched s { s with deny := d } := .of_rf rfl rfl rfl rfl rfl rfl rfl rfl

/-- A refusal counted, and captured when no capture is held. -/
def refusalNoted (s : State) (c : Cls) (r : Reason) (a : Nat) (w : Bool) : State :=
  let u := statInc s R_SYS_ACC_DENY
  if bit u R_SYS_ACC_FIRST_STAT 0 31 then u
  else raise (wr (wr (wr u R_SYS_ACC_FIRST_STAT (fieldVal 31 1 1 ||| fieldVal 16 4 (clsCode c) ||| fieldVal 8 4 r.code |||
    fieldVal 0 1 (b2n w))) R_SYS_ACC_FIRST_LO (BitVec.ofNat 32 a)) R_SYS_ACC_FIRST_HI (BitVec.ofNat 32 (a / 2 ^ 32))) .accessDenied

theorem refuse_eq (s : State) (c : Cls) (r : Reason) (a : Nat) (w : Bool) :
    refuse s c r a w =
      let probe := (decide (c = .H) || decide (c = .G)) && vaultProbeAddr a
      let u := if probe then raise (refusalNoted s c r a w) .vaultProbe else refusalNoted s c r a w
      { u with deny := countDeny u.deny c r.code a probe } := rfl

theorem untouched_refusalNoted (s : State) (c : Cls) (r : Reason) (a : Nat) (w : Bool) : Untouched s (refusalNoted s c r a w) := by
  have hcount : Untouched s (statInc s R_SYS_ACC_DENY) := untouched_wri _ ⟨by decide, by decide, by decide⟩
  refine untouched_ite hcount (hcount.trans ?_)
  refine (untouched_wri _ ?_).trans ((untouched_wri _ ?_).trans ((untouched_wri _ ?_).trans (untouched_raise _ _))) <;>
    exact ⟨by decide, by decide, by decide⟩

theorem untouched_refuse (s : State) (c : Cls) (r : Reason) (a : Nat) (w : Bool) : Untouched s (refuse s c r a w) := by
  rw [refuse_eq]
  have hn := untouched_refusalNoted s c r a w
  exact Untouched.trans (untouched_ite (hn.trans (untouched_raise _ _)) hn) (untouched_deny _ _)

theorem untouched_dmaWrite (s : State) (a : Nat) (b : List Byte) : Untouched s (dmaWrite s a b).2 := by
  unfold dmaWrite
  split
  · exact .refl s
  · split
    · exact untouched_out s _
    · exact untouched_refuse _ _ _ _ _

theorem untouched_disp (s : State) (d : Disp) : Untouched s { s with disp := d } := .of_rf rfl rfl rfl rfl rfl rfl rfl rfl

theorem untouched_respond (s : State) (c : Chan) (r : Rsp) : Untouched s (respond s c r) := by
  have hdone (u : State) (w : Word) : Untouched u (raise (statInc (wr u R_SYS_CMD_LAST w) R_SYS_CMD_CNT) .cmdDone) :=
    (untouched_wri w ⟨by decide, by decide, by decide⟩).trans
      ((untouched_wri _ ⟨by decide, by decide, by decide⟩).trans (untouched_raise _ _))
  unfold respond
  dsimp only
  split
  · exact (untouched_disp s _).trans (hdone _ _)
  · refine untouched_ite (.refl s) ?_
    refine (untouched_dmaWrite s _ _).trans (untouched_ite ?_ (.refl _))
    exact (untouched_wri _ ⟨by decide, by decide, by decide⟩).trans (hdone _ _)

theorem untouched_answer (s : State) (r : Req) (op : Nat) (st : Status) (b : List Byte) : Untouched s (answer s r op st b) :=
  (untouched_respond s _ _).trans (untouched_disp _ _)

end

end Sys2Proof.Machine
end

section
namespace Sys2Proof.Machine

/-! ## What a QUARANTINE cause leaves as it is (R37, R72, R74, R444) -/

/-- `t` follows `s` by closed sessions, a change of mode and ledger entries: the vault changes only in its immobiliser, a
closed session stays closed, and an empty ledger queue without a root stays empty. -/
structure CauseKeeps (s t : State) : Prop where
  cipher : t.cipher = s.cipher
  mem : t.mem = s.mem
  hold : rdi t R_PWR_HOLD 0 = rdi s R_PWR_HOLD 0
  tamper : rdi s R_VLT_TAMPER 0 ≠ 0 → rdi t R_VLT_TAMPER 0 = rdi s R_VLT_TAMPER 0
  vault : ∃ a b, t.vault = { s.vault with immob := a, immobPend := b }
  closed : ∀ r, (sessOf s r).isOpen = false → (sessOf t r).isOpen = false
  queue : s.vault.rootPresent = false → s.ledger.queue = [] → t.ledger.queue = []

section
variable {s t u : State}

theorem CauseKeeps.refl (s : State) : CauseKeeps s s := ⟨rfl, rfl, rfl, fun _ => rfl, ⟨_, _, rfl⟩, fun _ h => h, fun _ h => h⟩

theorem CauseKeeps.rootPresent (h : CauseKeeps s t) : t.vault.rootPresent = s.vault.rootPresent := by
  obtain ⟨a, b, hv⟩ := h.vault
  rw [hv]

theorem CauseKeeps.trans (h : CauseKeeps s t) (g : CauseKeeps t u) : CauseKeeps s u := by
  refine ⟨g.cipher.trans h.cipher, g.mem.trans h.mem, g.hold.trans h.hold,
    fun hn => (g.tamper (by rw [h.tamper hn]; exact hn)).trans (h.tamper hn), ?_, fun r hr => g.closed r (h.closed r hr),
    fun hp hq => g.queue (h.rootPresent.trans hp) (h.queue hp hq)⟩
  obtain ⟨a, b, hv⟩ := h.vault
  obtain ⟨a', b', hv'⟩ := g.vault
  exact ⟨a', b', by rw [hv', hv]⟩

theorem Untouched.causeKeeps (h : Untouched s t) : CauseKeeps s t := by
  refine ⟨h.cipher, h.mem, h.hold, h.tamper, ⟨_, _, h.vault⟩, fun r hr => ?_, fun _ hq => by rw [h.ledger, hq]⟩
  unfold sessOf
  rw [h.sess]
  exact hr

theorem causeKeeps_ite {p : Prop} [Decidable p] {a b : State} (ha : CauseKeeps s a) (hb : CauseKeeps s b) :
    CauseKeeps s (if p then a else b) := by
  split
  · exact ha
  · exact hb

end

/-! ### Sessions (R37) -/

section
variable {s : State}

theorem sessOf_setSess_other (s : State) {n r : Nat} (x : Sess) (h : r ≠ n) : sessOf (setSess s n x) r = sessOf s r :=
  tget_tset_other _ _ h

/-- A record with the beat of its end is listed as it stands. -/
theorem sessOf_setSess_ended (s : State) (n : Nat) {x : Sess} (h : x.endBeat ≠ none) : sessOf (setSess s n x) n = x :=
  tget_tset_ne _ _ fun e => h (congrArg Sess.endBeat e)

theorem sessOf_queueEntry (s : State) (p : Payload) (r : Nat) : sessOf (queueEntry s p) r = sessOf s r := by
  unfold sessOf
  rw [queueEntry_sess]

theorem sessOf_endRun_other {role r : Nat} (h : r ≠ role) : sessOf (endRun s role) r = sessOf s r := by
  unfold endRun
  dsimp only
  split
  · rw [sessOf_setSess_other _ _ h, sessOf_queueEntry]
  · rfl

/-- The session of a role taken back, with what its close leaves for the beat. -/
def sessEnded (s : State) (role reason : Nat) : Sess :=
  { sessOf s role with
    isOpen := false, id := 0, lastSeq := 0, tagFails := 0, idleS := 0, key := [],
    endBeat := some s.time.beatCnt, endId := (sessOf s role).id, endReason := reason }

/-- The state after an open session's record was closed, before its ledger entry. -/
def sessClosed (s : State) (role reason : Nat) : State :=
  let u := recordClose (setSess s role (sessEnded s role reason)) reason
  dropBatch (if u.freeze.armed && decide (u.freeze.armRole = role) then { u with freeze := { u.freeze with armed := false } } else u)
    (fun b => decide (b.2 = role))

theorem closeSession_open {role : Nat} (reason : Nat) (h : (sessOf (endRun s role) role).isOpen = true) :
    closeSession s role reason = queueEntry (sessClosed (endRun s role) role reason)
      (.session 2 role (sessOf (endRun s role) role).id.toNat reason (sessOf (endRun s role) role).idleS 0) := if_pos h

theorem closeSession_shut {role : Nat} (reason : Nat) (h : (sessOf (endRun s role) role).isOpen = false) :
    closeSession s role reason = lowerClose (endRun s role) role reason := if_neg (ne_true_of_eq_false h)

theorem sessClosed_sess (s : State) (role reason : Nat) : (sessClosed s role reason).sess = (setSess s role (sessEnded s role reason)).sess := by
  unfold sessClosed
  dsimp only
  rw [dropBatch_sess]
  split
  · exact recordClose_sess (setSess s role (sessEnded s role reason)) reason
  · exact recordClose_sess _ _

theorem sessOf_closeSession_other {role r : Nat} (reason : Nat) (h : r ≠ role) : sessOf (closeSession s role reason) r = sessOf s r := by
  rw [← sessOf_endRun_other (s := s) h]
  cases ho : (sessOf (endRun s role) role).isOpen with
  | true =>
    rw [closeSession_open _ ho, sessOf_queueEntry]
    unfold sessOf
    rw [sessClosed_sess]
    exact sessOf_setSess_other _ _ h
  | false =>
    rw [closeSession_shut _ ho]
    unfold lowerClose
    dsimp only
    split
    · refine (sessOf_setSess_other _ _ h).trans ?_
      split
      · unfold sessOf
        rw [recordClose_sess]
      · rfl
    · rfl

/-- After its close a session is not open, whatever its record was. -/
theorem isOpen_closeSession_same (s : State) (role reason : Nat) : (sessOf (closeSession s role reason) role).isOpen = false := by
  cases ho : (sessOf (endRun s role) role).isOpen with
  | true =>
    rw [closeSession_open _ ho, sessOf_queueEntry]
    unfold sessOf
    rw [sessClosed_sess]
    exact congrArg Sess.isOpen (sessOf_setSess_ended _ role (x := sessEnded (endRun s role) role reason) (Option.some_ne_none _))
  | false =>
    rw [closeSession_shut _ ho]
    unfold lowerClose
    dsimp only
    split
    · next he => exact (congrArg Sess.isOpen (sessOf_setSess_ended _ role (by rw [he.1]; exact Option.some_ne_none _))).trans ho
    · exact ho

theorem isOpen_closeSession {r : Nat} (role reason : Nat) (h : (sessOf s r).isOpen = false) :
    (sessOf (closeSession s role reason) r).isOpen = false := by
  by_cases hr : r = role
  · rw [hr]
    exact isOpen_closeSession_same s role reason
  · rw [sessOf_closeSession_other _ hr, h]

theorem isOpen_closeAll {r : Nat} (reason : Nat) (h1 : 1 ≤ r) (h2 : r ≤ 3) : (sessOf (closeAll s reason) r).isOpen = false := by
  unfold closeAll
  have hr : r = 1 ∨ r = 2 ∨ r = 3 := by omega
  rcases hr with rfl | rfl | rfl
  · exact isOpen_closeSession _ _ (isOpen_closeSession _ _ (isOpen_closeSession_same _ _ _))
  · exact isOpen_closeSession _ _ (isOpen_closeSession_same _ _ _)
  · exact isOpen_closeSession_same _ _ _

/-! ### The ledger without a root (R428, R445) -/

theorem queueEntryL_noRoot {late restart : Bool} {lt : Nat} {p : Payload} (h : s.vault.rootPresent = false) :
    queueEntryL s late restart lt p = s := by
  refine if_neg ?_
  rw [show ledgerLive s = false from h]
  exact Bool.false_ne_true

theorem queueEntry_noRoot {p : Payload} (h : s.vault.rootPresent = false) : queueEntry s p = s := queueEntryL_noRoot h

theorem queue_endRun_noRoot {role : Nat} (h : s.vault.rootPresent = false) : (endRun s role).ledger = s.ledger := by
  unfold endRun
  dsimp only
  split
  · rw [queueEntry_noRoot h]
    rfl
  · rfl

theorem queue_closeSession_noRoot {role reason : Nat} (h : s.vault.rootPresent = false) (hq : s.ledger.queue = []) :
    (closeSession s role reason).ledger.queue = [] := by
  have hu : (endRun s role).vault.rootPresent = false := by rw [endRun_vault, h]
  have hl : (endRun s role).ledger.queue = [] := by rw [queue_endRun_noRoot h, hq]
  cases ho : (sessOf (endRun s role) role).isOpen with
  | true =>
    have hv : (sessClosed (endRun s role) role reason).vault = (endRun s role).vault := by
      unfold sessClosed
      dsimp only
      rw [dropBatch_vault]
      split
      · exact recordClose_vault (setSess (endRun s role) role (sessEnded (endRun s role) role reason)) reason
      · exact recordClose_vault _ _
    have hc : (sessClosed (endRun s role) role reason).ledger = (endRun s role).ledger := by
      unfold sessClosed
      dsimp only
      rw [dropBatch_ledger]
      split
      · exact recordClose_ledger (setSess (endRun s role) role (sessEnded (endRun s role) role reason)) reason
      · exact recordClose_ledger _ _
    rw [closeSession_open _ ho, queueEntry_noRoot (by rw [hv, hu]), hc, hl]
  | false =>
    rw [closeSession_shut _ ho]
    unfold lowerClose
    dsimp only
    split
    · have hrec : ((if fld (endRun s role) R_SYS_SESS_STAT 8 4 = (sessOf (endRun s role) role).endReason then
          recordClose (endRun s role) reason else endRun s role)).ledger.queue = [] := by
        split
        · rw [recordClose_ledger, hl]
        · exact hl
      exact congrArg (List.map _) hrec
    · exact hl

end

/-! ### Closing a session and entering QUARANTINE -/

section
variable {s : State}

theorem rdi_closeSession {role reason a : Nat} (h : a ≠ R_SYS_SESS_STAT) : rdi (closeSession s role reason) a 0 = rdi s a 0 := by
  have hrec (u : State) (n : Nat) : rdi (recordClose u n) a 0 = rdi u a 0 :=
    (rd_setFld_other _ _ _ _ h).trans (rd_setFld_other _ _ _ _ h)
  have hend : rdi (endRun s role) a 0 = rdi s a 0 := congrArg (tabGet rfCold · _) (endRun_rf s role)
  rw [← hend]
  cases ho : (sessOf (endRun s role) role).isOpen with
  | true =>
    rw [closeSession_open _ ho]
    refine (congrArg (tabGet rfCold · _) (queueEntry_rf _ _)).trans ?_
    refine (congrArg (tabGet rfCold · _) (dropBatch_rf _ _)).trans ?_
    split <;> exact hrec _ _
  | false =>
    rw [closeSession_shut _ ho]
    unfold lowerClose
    dsimp only
    split
    · change rdi (if _ then recordClose (endRun s role) reason else endRun s role) a 0 = _
      split
      · exact hrec _ _
      · rfl
    · rfl

theorem causeKeeps_closeSession (s : State) (role reason : Nat) : CauseKeeps s (closeSession s role reason) :=
  ⟨closeSession_cipher s role reason, closeSession_mem s role reason, rdi_closeSession (by decide),
    fun _ => rdi_closeSession (by decide), ⟨_, _, closeSession_vault s role reason⟩, fun _ h => isOpen_closeSession role reason h,
    fun h hq => queue_closeSession_noRoot h hq⟩

theorem causeKeeps_power (s : State) (x : Power) : CauseKeeps s { s with power := x } :=
  ⟨rfl, rfl, rfl, fun _ => rfl, ⟨_, _, rfl⟩, fun _ h => h, fun _ h => h⟩

theorem causeKeeps_freeze (s : State) (x : Freeze) : CauseKeeps s { s with freeze := x } :=
  ⟨rfl, rfl, rfl, fun _ => rfl, ⟨_, _, rfl⟩, fun _ h => h, fun _ h => h⟩

/-- A change of mode before rails, lanes and ports follow it. -/
def modeSet (s : State) (m : Mode) : State :=
  let old := s.power.cur
  let s := { s with power := { s.power with
      cur := m, recorded := m, prev := s.power.recorded,
      qcause := if m = .quarantine then s.power.qcause else .none } }
  let s := if (old = .service ∨ old = .depot) ∧ m ≠ old then closeSession s 2 2 else s
  let s := if m = .rented ∨ m = .drive then closeSession s 3 2 else s
  let s := if m = .drive then { s with freeze := { s.freeze with armed := false } } else s
  if old = .service ∧ m ≠ .service then { s with net := { s.net with loop := [] } } else s

theorem modeCore_eq (s : State) (m : Mode) :
    modeCore s m = portsFollow (lanesFollow (if m.awake then railsFollow (modeSet s m) m else modeSet s m)) := rfl

theorem causeKeeps_modeSet (s : State) (m : Mode) : CauseKeeps s (modeSet s m) := by
  unfold modeSet
  dsimp only
  refine CauseKeeps.trans ?_ (causeKeeps_ite (untouched_net _).causeKeeps (.refl _))
  refine CauseKeeps.trans ?_ (causeKeeps_ite (causeKeeps_freeze _ _) (.refl _))
  refine CauseKeeps.trans ?_ (causeKeeps_ite (causeKeeps_closeSession _ _ _) (.refl _))
  exact CauseKeeps.trans (causeKeeps_power s _) (causeKeeps_ite (causeKeeps_closeSession _ _ _) (.refl _))

theorem causeKeeps_modeCore (s : State) (m : Mode) : CauseKeeps s (modeCore s m) := by
  rw [modeCore_eq]
  refine (causeKeeps_modeSet s m).trans (Untouched.causeKeeps ?_)
  exact (untouched_ite (untouched_railsFollow _ _) (.refl _)).trans ((untouched_lanesFollow _).trans (untouched_portsFollow _))

/-! ### The SEAL entry and the mode (R74, R444) -/

theorem causeKeeps_queueEntryL (s : State) (late restart : Bool) (lt : Nat) (p : Payload) : CauseKeeps s (queueEntryL s late restart lt p) := by
  have hr (a : Nat) : rdi (queueEntryL s late restart lt p) a 0 = rdi s a 0 := congrArg (tabGet rfCold · _) (queueEntryL_rf s late restart lt p)
  refine ⟨queueEntryL_cipher .., queueEntryL_mem .., hr _, fun _ => hr _, ⟨_, _, queueEntryL_vault ..⟩, fun r h => ?_,
    fun h hq => by rw [queueEntryL_noRoot h, hq]⟩
  unfold sessOf
  rw [queueEntryL_sess]
  exact h

theorem causeKeeps_queueEntry (s : State) (p : Payload) : CauseKeeps s (queueEntry s p) := causeKeeps_queueEntryL _ _ _ _ _

/-- A change of the ledger that queues nothing keeps an empty queue. -/
theorem causeKeeps_ledger (s : State) {l : Ledger} (h : s.vault.rootPresent = false → s.ledger.queue = [] → l.queue = []) :
    CauseKeeps s { s with ledger := l } := ⟨rfl, rfl, rfl, fun _ => rfl, ⟨_, _, rfl⟩, fun _ h => h, h⟩

theorem causeKeeps_sealEntry (s : State) (c : QCause) : CauseKeeps s (sealEntry s c) := by
  unfold sealEntry
  split
  · have hq : CauseKeeps s _ := (causeKeeps_ledger s (l := { s.ledger with lastGood := none, queue := [] }) fun _ _ => rfl).trans
      (causeKeeps_queueEntryL _ false true (ltimeNow s) (.seal c.code (by assumption)))
    refine ⟨hq.cipher, hq.mem, hq.hold, hq.tamper, hq.vault, hq.closed, fun hr hl => ?_⟩
    exact (congrArg (· ++ s.ledger.queue) (hq.queue hr hl)).trans hl
  · exact causeKeeps_queueEntry s _

theorem causeKeeps_immob (s : State) (a b : Bool) : CauseKeeps s { s with vault := { s.vault with immob := a, immobPend := b } } :=
  ⟨rfl, rfl, rfl, fun _ => rfl, ⟨_, _, rfl⟩, fun _ h => h, fun _ h => h⟩

/-- QUARANTINE with its cause entered, before its SEAL entry. -/
def quarantined (s : State) (c : QCause) : State :=
  let s := modeCore { s with power := { s.power with qcause := c } } .quarantine
  let s := { s with ledger := { s.ledger with sealed := true } }
  if motionNow s || ! standstill s then { s with vault := { s.vault with immobPend := ! s.vault.immob } }
  else setImmob s true

theorem quarantine_entered (c : QCause) (h : s.power.cur ≠ .quarantine) : quarantine s c = sealEntry (quarantined s c) c := if_neg h

theorem causeKeeps_quarantined (s : State) (c : QCause) : CauseKeeps s (quarantined s c) := by
  have hm : CauseKeeps s (modeCore { s with power := { s.power with qcause := c } } .quarantine) :=
    (causeKeeps_power s _).trans (causeKeeps_modeCore _ .quarantine)
  unfold quarantined
  dsimp only
  refine (hm.trans (causeKeeps_ledger _ (l := { (modeCore { s with power := { s.power with qcause := c } } .quarantine).ledger with sealed := true })
    fun _ h => h)).trans (causeKeeps_ite ?_ ?_)
  · exact causeKeeps_immob _ _ _
  · exact causeKeeps_immob _ _ _

theorem causeKeeps_quarantine (s : State) (c : QCause) : CauseKeeps s (quarantine s c) := by
  by_cases h : s.power.cur = .quarantine
  · refine (congrArg (CauseKeeps s) (if_pos h)).mpr (causeKeeps_ite ?_ (causeKeeps_ite (causeKeeps_sealEntry s c) (.refl s)))
    exact (causeKeeps_power s _).trans (causeKeeps_sealEntry _ c)
  · rw [quarantine_entered c h]
    exact (causeKeeps_quarantined s c).trans (causeKeeps_sealEntry _ c)

theorem causeKeeps_causeArises (s : State) (c : QCause) : CauseKeeps s (causeArises s c) := by
  unfold causeArises
  split
  · exact causeKeeps_quarantine s c
  · exact .refl s
  · exact ⟨rfl, rfl, rfl, fun _ => rfl, ⟨_, _, rfl⟩, fun _ h => h, fun _ h => h⟩

/-! ### The mode and the cause of a QUARANTINE (R74, R639) -/

theorem power_sealEntry (s : State) (c : QCause) : (sealEntry s c).power = s.power := by
  unfold sealEntry
  split
  · exact queueEntryL_power _ _ _ _ _
  · exact queueEntry_power _ _

theorem power_modeSet (s : State) (m : Mode) : (modeSet s m).power =
    { s.power with cur := m, recorded := m, prev := s.power.recorded, qcause := if m = .quarantine then s.power.qcause else .none } := by
  unfold modeSet
  simp only [apply_ite State.power, closeSession_power, ite_self]

/-- A change of mode into QUARANTINE leaves the cause that was set before it. -/
theorem modeCore_quarantine_power (s : State) :
    (modeCore s .quarantine).power.cur = .quarantine ∧ (modeCore s .quarantine).power.qcause = s.power.qcause := by
  have hu : Untouched (modeSet s .quarantine) (modeCore s .quarantine) := by
    rw [modeCore_eq]
    exact (untouched_ite (untouched_railsFollow _ _) (.refl _)).trans ((untouched_lanesFollow _).trans (untouched_portsFollow _))
  rw [hu.cur, hu.cause, power_modeSet]
  exact ⟨rfl, rfl⟩

theorem quarantined_power (s : State) (c : QCause) :
    (quarantined s c).power.cur = .quarantine ∧ (quarantined s c).power.qcause = c := by
  have h := modeCore_quarantine_power { s with power := { s.power with qcause := c } }
  unfold quarantined
  generalize modeCore { s with power := { s.power with qcause := c } } .quarantine = u at h ⊢
  dsimp only at h ⊢
  split
  · exact h
  · exact h

theorem mode_quarantine (s : State) (c : QCause) : (quarantine s c).power.cur = .quarantine := by
  by_cases h : s.power.cur = .quarantine
  · unfold quarantine
    rw [if_pos h]
    split
    · rw [power_sealEntry]
      exact h
    · split
      · rw [power_sealEntry, h]
      · exact h
  · rw [quarantine_entered c h, power_sealEntry]
    exact (quarantined_power s c).1

theorem qcause_quarantine (c : QCause) (h : s.power.cur ≠ .quarantine) : (quarantine s c).power.qcause = c := by
  rw [quarantine_entered c h, power_sealEntry]
  exact (quarantined_power s c).2

end

end Sys2Proof.Machine
end

section
namespace Sys2Proof.Machine

/-! ## A tamper source (R331, R332, R445) -/

section
variable {s : State} {src : Nat}

/-- A vault whose root and slot store are gone. -/
def rootGone (s : State) : State :=
  { s with vault := { s.vault with
      root := List.replicate 32 0, rootCheck := List.replicate 8 0, storeSeq := 0, storeChain := List.replicate 32 0, rootPresent := false, storeOk := false,
      slots := [], groupTampered := true } }

/-- The vault without root, slots and memories, with the source marked in VLT_TAMPER. -/
def vaultWiped (s : State) (src : Nat) : State := orReg (memWipe (rootGone s)) R_VLT_TAMPER 0 (fieldMask src 1)

/-- Challenges, waiting entries and the NFC exchange are gone (R426, R445). -/
def exchangeGone (s : State) : State :=
  { s with
    sess := [1, 2, 3].foldl (fun t r => tset Sess.closed t r { tget Sess.closed t r with chal := none }) s.sess,
    ledger := { s.ledger with queue := [] },
    nfc := { s.nfc with ex := .idle, chal := false, subChal := false, hostChal := none, pending := none } }

/-- The device before its sessions are closed. -/
def tamperCleared (s : State) (src : Nat) : State := exchangeGone (zeroKeys (vaultWiped s src))

/-- The device before the cause TAMPER arises. -/
def tampered (s : State) (src : Nat) : State := closeAll (tamperCleared s src) 0

/-- With the core off the cause is recorded for the next start-up (R332). -/
def tamperRecorded (s : State) : State :=
  { s with power := { s.power with prev := s.power.recorded, recorded := .quarantine, qcause := .tamper } }

/-! ### The key registers -/

/-- No key word of engine `b` has been written. -/
def keysUnwritten (s : State) (b : Nat) : State :=
  { s with cipher := { s.cipher with engs := tset Eng.init s.cipher.engs b { tget Eng.init s.cipher.engs b with written := 0 } } }

theorem losePower_engine {b : Nat} (hb : b < 2) : losePower s b =
    (List.range 8).foldl (fun s k => wr s (R_CIPH_KEYW0 + 0x100 * b + 4 * k) 0) (setFld (keysUnwritten s b) (R_CIPH_KCTL + 0x100 * b) 16 1 0) :=
  if_pos hb

theorem rdi_losePower_engine {b a : Nat} (hb : b < 2) (ha : a < R_CIPH_KCTL) : rdi (losePower s b) a 0 = rdi s a 0 := by
  have hwr (u : State) (k : Nat) : rdi (wr u (R_CIPH_KEYW0 + 0x100 * b + 4 * k) 0) a 0 = rdi u a 0 :=
    rd_wr_other u _ (by simp only [R_CIPH_KCTL] at ha; simp only [R_CIPH_KEYW0]; omega)
  have hctl : rdi (setFld (keysUnwritten s b) (R_CIPH_KCTL + 0x100 * b) 16 1 0) a 0 = rdi (keysUnwritten s b) a 0 :=
    rd_setFld_other _ _ _ _ (by omega)
  rw [losePower_engine hb, foldl_field (rdi · a 0) hwr, hctl]
  rfl

theorem rdi_withCipher {a : Nat} (s : State) (c : Cipher) : rdi { s with cipher := c } a 0 = rdi s a 0 := rfl

theorem rdi_zeroKeys {a : Nat} (ha : a < R_CIPH_KCTL) : rdi (zeroKeys s) a 0 = rdi s a 0 := by
  unfold zeroKeys
  refine (rdi_withCipher (losePower (losePower s 0) 1) _).trans ?_
  exact (rdi_losePower_engine (s := losePower s 0) (b := 1) (by decide) ha).trans (rdi_losePower_engine (b := 0) (by decide) ha)

theorem vault_zeroKeys (s : State) : (zeroKeys s).vault = s.vault := by
  obtain ⟨rf, c, h⟩ := zeroKeys_frame s
  rw [h]

theorem mem_zeroKeys (s : State) : (zeroKeys s).mem = s.mem := by
  obtain ⟨rf, c, h⟩ := zeroKeys_frame s
  rw [h]

/-! ### What is gone -/

theorem power_exchangeGone (s : State) : (exchangeGone s).power = s.power := rfl
theorem vault_exchangeGone (s : State) : (exchangeGone s).vault = s.vault := rfl
theorem mem_exchangeGone (s : State) : (exchangeGone s).mem = s.mem := rfl
theorem queue_exchangeGone (s : State) : (exchangeGone s).ledger.queue = [] := rfl
theorem rdi_exchangeGone (s : State) (a : Nat) : rdi (exchangeGone s) a 0 = rdi s a 0 := rfl

theorem power_vaultWiped (s : State) (src : Nat) : (vaultWiped s src).power = s.power := rfl
theorem vault_vaultWiped (s : State) (src : Nat) : (vaultWiped s src).vault = (rootGone s).vault := rfl
theorem mem_vaultWiped (s : State) (src : Nat) : (vaultWiped s src).mem = (memWipe s).mem := rfl

theorem power_tamperCleared (s : State) (src : Nat) : (tamperCleared s src).power = s.power := by
  unfold tamperCleared
  rw [power_exchangeGone, zeroKeys_power, power_vaultWiped]

theorem vault_tamperCleared (s : State) (src : Nat) : (tamperCleared s src).vault = (rootGone s).vault := by
  unfold tamperCleared
  rw [vault_exchangeGone, vault_zeroKeys, vault_vaultWiped]

theorem mem_tamperCleared (s : State) (src : Nat) : (tamperCleared s src).mem = (memWipe s).mem := by
  unfold tamperCleared
  rw [mem_exchangeGone, mem_zeroKeys, mem_vaultWiped]

theorem rdi_tamperCleared (s : State) (src : Nat) : rdi (tamperCleared s src) R_VLT_TAMPER 0 = rdi (vaultWiped s src) R_VLT_TAMPER 0 := by
  unfold tamperCleared
  rw [rdi_exchangeGone, rdi_zeroKeys (by decide)]

theorem getLsbD_tamper (h : src < 32) : (rdi s R_VLT_TAMPER 0 ||| fieldMask src 1).getLsbD src = true := by
  rw [BitVec.getLsbD_or, getLsbD_fieldMask_one h, Bool.or_true]

theorem rdi_vaultWiped (h : src < 32) : rdi (vaultWiped s src) R_VLT_TAMPER 0 = rdi s R_VLT_TAMPER 0 ||| fieldMask src 1 := by
  refine tabGet_set_ne _ _ fun e => ?_
  have hb := getLsbD_tamper (s := s) h
  rw [show rdi s R_VLT_TAMPER 0 ||| fieldMask src 1 = 0 from e] at hb
  exact Bool.false_ne_true ((BitVec.getLsbD_zero).symm.trans hb)

/-- Wiped memory reads zero in VMEM and VPRIV. -/
theorem tget_memWipe {a : Nat} (h1 : 0x1000000 ≤ a) (h2 : a < 0x1110000) : tget 0 (memWipe s).mem a = 0 := by
  refine tget_unlisted fun hm => ?_
  obtain ⟨x, hx, rfl⟩ := List.mem_map.mp hm
  have hk : x.1 < 0x1000000 ∨ 0x1110000 ≤ x.1 := of_decide_eq_true (List.mem_filter.mp hx).2
  omega

/-- Without slots every slot is EMPTY. -/
theorem slotState_noSlots (h : s.vault.slots = []) (k : Nat) : slotState s k = 0 := by
  have hx : slotOf s k = Slot.empty := by
    unfold slotOf
    rw [h]
    rfl
  unfold slotState
  dsimp only
  rw [hx]
  rfl

/-- What a tamper source takes from the vault, whatever follows (R332). -/
structure VaultGone (t : State) (src : Nat) : Prop where
  root : t.vault.rootPresent = false
  slots : t.vault.slots = []
  group : t.vault.groupTampered = true
  memory : ∀ a, 0x1000000 ≤ a → a < 0x1110000 → tget 0 t.mem a = 0
  mark : bit t R_VLT_TAMPER 0 src = true
  queue : t.ledger.queue = []

theorem causeKeeps_closeAll (s : State) (reason : Nat) : CauseKeeps s (closeAll s reason) :=
  (causeKeeps_closeSession _ _ _).trans ((causeKeeps_closeSession _ _ _).trans (causeKeeps_closeSession _ _ _))

theorem rdi_ne_zero_of_bit {t : State} {a n : Nat} (h : bit t a 0 n = true) : rdi t a 0 ≠ 0 := by
  intro e
  rw [bit_eq_getLsbD, e] at h
  exact Bool.false_ne_true ((BitVec.getLsbD_zero).symm.trans h)

theorem VaultGone.kept {t u : State} (g : VaultGone t src) (h : CauseKeeps t u) : VaultGone u src := by
  obtain ⟨x, y, hv⟩ := h.vault
  refine ⟨by rw [hv]; exact g.root, by rw [hv]; exact g.slots, by rw [hv]; exact g.group, fun a h1 h2 => by rw [h.mem]; exact g.memory a h1 h2, ?_,
    h.queue g.root g.queue⟩
  rw [bit_eq_getLsbD, h.tamper (rdi_ne_zero_of_bit g.mark), ← bit_eq_getLsbD]
  exact g.mark

theorem vaultGone_tamperCleared (s : State) (h : src < 32) : VaultGone (tamperCleared s src) src := by
  have hv := vault_tamperCleared s src
  refine ⟨by rw [hv]; rfl, by rw [hv]; rfl, by rw [hv]; rfl, fun a h1 h2 => ?_, ?_, queue_exchangeGone _⟩
  · rw [mem_tamperCleared]
    exact tget_memWipe h1 h2
  · rw [bit_eq_getLsbD, rdi_tamperCleared, rdi_vaultWiped h]
    exact getLsbD_tamper h

theorem vaultGone_tampered (s : State) (h : src < 32) : VaultGone (tampered s src) src :=
  (vaultGone_tamperCleared s h).kept (causeKeeps_closeAll _ 0)

theorem power_tampered (s : State) (src : Nat) : (tampered s src).power = s.power := by
  unfold tampered closeAll
  rw [closeSession_power, closeSession_power, closeSession_power, power_tamperCleared]

/-! ### The reaction -/

theorem tamperNow_awake (h : s.power.phase = .awake) : tamperNow s src = quarantine (tampered s src) .tamper := by
  unfold tamperNow
  dsimp only
  generalize hu : closeAll _ 0 = u
  have ht : u = tampered s src := hu.symm
  have hp : u.power.phase = .awake := by rw [ht, power_tampered, h]
  rw [hp]
  dsimp only
  unfold causeArises
  rw [hp, ht]

theorem tamperNow_asleep (h : s.power.phase = .asleep) : tamperNow s src = tamperRecorded (tampered s src) := by
  unfold tamperNow
  dsimp only
  generalize hu : closeAll _ 0 = u
  have ht : u = tampered s src := hu.symm
  have hp : u.power.phase = .asleep := by rw [ht, power_tampered, h]
  rw [← ht]
  split
  · rfl
  · rfl
  · next hn _ => exact absurd hp hn

/-- VCORE's glitch detector and the store's checks watch only with the core on, the oscillator's once its edge watch is armed. -/
def unwatched (s : State) (src : Nat) : Bool :=
  (decide (s.power.phase = .asleep) || decide (s.power.phase = .railPhase)) &&
    (decide (src = 1) || decide (src = 5) || (decide (src = 2) && decide (s.power.oscPeriods < 1024)))

theorem execTamper_eq (src : Fin 6) : exec (.tamper src) s = .next (if unwatched s src then begin_ s else tamperNow (begin_ s) src) := by
  rw [exec_tamper]
  unfold execTamper unwatched
  dsimp only
  rw [begin__power]

theorem exec_tamper_watched (src : Fin 6) (h : unwatched s src = false) : exec (.tamper src) s = .next (tamperNow (begin_ s) src) := by
  rw [execTamper_eq, h, if_neg Bool.false_ne_true]

theorem unwatched_awake (h : s.power.phase = .awake) : unwatched s src = false := by
  unfold unwatched
  rw [h]
  rfl

/-- With the core off a source is watched that needs neither VCORE nor a store read. -/
theorem unwatched_off (h1 : src ≠ 1) (h5 : src ≠ 5) (h2 : src = 2 → 1024 ≤ s.power.oscPeriods) : unwatched s src = false := by
  have hc : ¬ (src = 2 ∧ s.power.oscPeriods < 1024) := fun h => absurd (h2 h.1) (Nat.not_le.mpr h.2)
  unfold unwatched
  rw [decide_eq_false h1, decide_eq_false h5, ← Bool.decide_and, decide_eq_false hc]
  exact Bool.and_false _

end

/-- Settles O35: the reaction empties the vault first, and closing the sessions and the cause that arises leave it empty. -/
theorem tamperZeroesTheVault : Obligations.TamperZeroesTheVault := by
  unfold Obligations.TamperZeroesTheVault
  refine ⟨fun s src h => ⟨_, exec_tamper_watched src (unwatched_awake h), ?_⟩,
    fun s src h h1 h5 h2 => ⟨_, exec_tamper_watched src (unwatched_off h1 h5 h2), ?_⟩⟩
  · have gone : VaultGone (tampered (begin_ s) src) src := vaultGone_tampered _ (by omega)
    rw [tamperNow_awake (s := begin_ s) h]
    have hk := causeKeeps_quarantine (tampered (begin_ s) src) .tamper
    obtain ⟨root, slots, group, memory, mark, queue⟩ := gone.kept hk
    refine ⟨root, slotState_noSlots slots, memory, group, mark, queue, fun r hr => ?_, mode_quarantine _ _, fun hq => ?_⟩
    · exact hk.closed r (isOpen_closeAll 0 hr (by omega))
    · refine qcause_quarantine _ ?_
      rw [power_tampered]
      exact hq
  · have gone : VaultGone (tampered (begin_ s) src) src := vaultGone_tampered _ (by omega)
    rw [tamperNow_asleep (s := begin_ s) h]
    generalize tampered (begin_ s) src = u at gone
    exact ⟨gone.root, slotState_noSlots gone.slots, gone.memory, rfl, rfl⟩

end Sys2Proof.Machine
end

section
namespace Sys2Proof.Machine

/-! ## The watchdog of an engine (R374) -/

/-- `t` follows `s` with the vault's holds, the clocks and the watchdogs' earlier firings as they were; an empty key cache of
LANEAUTH stays empty. -/
structure WdKeeps (s t : State) : Prop where
  time : t.time = s.time
  firings : t.cipher.firings = s.cipher.firings
  cache : s.cipher.cache = [] → t.cipher.cache = []
  hold : rdi t R_PWR_HOLD 0 = rdi s R_PWR_HOLD 0

section
variable {s t u : State}

theorem WdKeeps.refl (s : State) : WdKeeps s s := ⟨rfl, rfl, id, rfl⟩

theorem WdKeeps.trans (h : WdKeeps s t) (g : WdKeeps t u) : WdKeeps s u :=
  ⟨g.time.trans h.time, g.firings.trans h.firings, fun hc => g.cache (h.cache hc), g.hold.trans h.hold⟩

theorem WdKeeps.held (h : WdKeeps s t) (b : Nat) : held t b = held s b := congrArg (fun w => decide (bitsOf w b 1 = 1)) h.hold

theorem Untouched.wdKeeps (h : Untouched s t) (ht : t.time = s.time) : WdKeeps s t :=
  ⟨ht, congrArg Cipher.firings h.cipher, fun hc => by rw [h.cipher, hc], h.hold⟩

theorem wdKeeps_ite {p : Prop} [Decidable p] {a b : State} (ha : WdKeeps s a) (hb : WdKeeps s b) : WdKeeps s (if p then a else b) := by
  split
  · exact ha
  · exact hb

theorem wdKeeps_foldl {β : Type} {F : State → β → State} (h : ∀ s x, WdKeeps s (F s x)) : ∀ (l : List β) (s : State), WdKeeps s (l.foldl F s)
  | [], s => .refl s
  | x :: l, s => (h s x).trans (wdKeeps_foldl h l (F s x))

theorem wdKeeps_wr {a : Nat} (s : State) (v : Word) (h : a ≠ R_PWR_HOLD) : WdKeeps s (wr s a v) :=
  ⟨rfl, rfl, id, rd_wr_other s v h.symm⟩

theorem wdKeeps_setFld {a : Nat} (s : State) (lo w v : Nat) (h : a ≠ R_PWR_HOLD) : WdKeeps s (setFld s a lo w v) := wdKeeps_wr s _ h

theorem wdKeeps_power (s : State) (p : Power) : WdKeeps s { s with power := p } := ⟨rfl, rfl, id, rfl⟩

theorem wdKeeps_setEng (s : State) (e : Nat) (x : Eng) : WdKeeps s (setEng s e x) := ⟨rfl, rfl, id, rfl⟩

theorem wdKeeps_raise (s : State) (e : Ev) : WdKeeps s (raise s e) := (untouched_raise s e).wdKeeps (raise_time s e)

theorem wdKeeps_queueEntry (s : State) (p : Payload) : WdKeeps s (queueEntry s p) :=
  ⟨queueEntry_time s p, congrArg Cipher.firings (queueEntry_cipher s p), fun h => by rw [queueEntry_cipher, h],
    congrArg (tabGet rfCold · _) (queueEntry_rf s p)⟩

/-! ### The stopped job -/

theorem ciph_ne_hold {a : Nat} (e : Nat) (h : R_PWR_HOLD < a) : ciph a e ≠ R_PWR_HOLD := by
  unfold ciph
  omega

theorem wdKeeps_statInc {a : Nat} (s : State) (h : a ≠ R_PWR_HOLD) : WdKeeps s (statInc s a) := wdKeeps_wr s _ h

/-- What a normal-world completion does with its ring. -/
def ringDone (s : State) (e a : Nat) (b : List Byte) : State :=
  let t := fld s (ciph R_CIPH_CQ_TAIL e) 0 12
  let u := (dmaWrite s a b).2
  setFld u (ciph R_CIPH_CQ_TAIL e) 0 12 ((t + 1) % 2 ^ fld u (ciph R_CIPH_RING_CFG e) 0 4)

theorem wdKeeps_ringDone (s : State) (e a : Nat) (b : List Byte) : WdKeeps s (ringDone s e a b) :=
  ((untouched_dmaWrite s a b).wdKeeps (dmaWrite_time s a b)).trans (wdKeeps_setFld _ _ _ _ (ciph_ne_hold e (by decide)))

theorem wdKeeps_completeJob (s : State) (e : Nat) (vault : Bool) (d : BulkDesc) (st : Status) (cflags done fault : Nat) :
    WdKeeps s (completeJob s e vault d st cflags done fault) := by
  unfold completeJob
  dsimp only
  refine WdKeeps.trans ?_ (wdKeeps_ite (wdKeeps_raise _ _) (.refl _))
  refine WdKeeps.trans ?_ (wdKeeps_ite (.refl _) ((wdKeeps_power _ _).trans (wdKeeps_ringDone _ e _ _)))
  refine WdKeeps.trans ?_ (wdKeeps_ite (wdKeeps_statInc _ (ciph_ne_hold e (by decide))) (.refl _))
  exact (wdKeeps_setEng s e _).trans (wdKeeps_statInc _ (ciph_ne_hold e (by decide)))

/-! ### The released hold (R90 to R92) -/

theorem wdKeeps_losePower (s : State) (b : Nat) : WdKeeps s (losePower s b) := by
  by_cases hb : b < 2
  · rw [losePower_engine hb]
    refine WdKeeps.trans (t := keysUnwritten s b) ⟨rfl, rfl, id, rfl⟩ ?_
    refine (wdKeeps_setFld _ _ _ _ ?_).trans (wdKeeps_foldl (fun u k => wdKeeps_wr u _ ?_) _ _)
    · simp only [R_CIPH_KCTL, R_PWR_HOLD]; omega
    · simp only [R_CIPH_KEYW0, R_PWR_HOLD]; omega
  · unfold losePower
    rw [if_neg hb]
    refine wdKeeps_ite ⟨rfl, rfl, id, rfl⟩ (wdKeeps_ite ⟨rfl, rfl, fun _ => rfl, rfl⟩ (wdKeeps_ite ?_ (wdKeeps_ite ⟨rfl, rfl, id, rfl⟩ (.refl s))))
    refine wdKeeps_foldl (fun u c => wdKeeps_ite (.refl u) (wdKeeps_setFld u _ _ _ ?_)) _ _
    simp only [R_TRG_CFG, R_PWR_HOLD]; omega

theorem wdKeeps_stopChannel (s : State) (n : Nat) : WdKeeps s (stopChannel s n) := ⟨rfl, rfl, id, rfl⟩

theorem wdKeeps_setGate (s : State) (b : Nat) (g : GateSt) : WdKeeps s (setGate s b g) := wdKeeps_power s _

theorem wdKeeps_gateNow (s : State) (b : Nat) : WdKeeps s (gateNow s b) := by
  unfold gateNow
  split
  · exact wdKeeps_setGate s b _
  · next g _ =>
    exact (wdKeeps_setGate s b g).trans ((wdKeeps_ite (wdKeeps_losePower _ _) (.refl _)).trans
      (wdKeeps_ite (wdKeeps_stopChannel _ _) (.refl _)))

theorem wdKeeps_setCur (s : State) (c : Option Ctx) : WdKeeps s (setCur s c) := ⟨rfl, rfl, id, rfl⟩

theorem wdKeeps_answerGates (s : State) (b : Nat) : WdKeeps s (answerGates s b) := by
  have hstep (u : State) (x : Owed) : WdKeeps u (answer (setCur u x.ctx) x.req 0x0203 .ok []) :=
    (wdKeeps_setCur u x.ctx).trans ((untouched_answer (setCur u x.ctx) x.req 0x0203 .ok []).wdKeeps (answer_time _ _ _ _ _))
  exact WdKeeps.trans ((untouched_disp s { s.disp with gateWaits := s.disp.gateWaits.filter fun x => decide (x.2 ≠ b) }).wdKeeps rfl)
    (wdKeeps_foldl (fun u (x : Owed × Nat) => hstep u x.1) _ _)

/-- What follows the released hold leaves it released. -/
theorem wdKeeps_releaseBlock (s : State) (b : Nat) : WdKeeps (clrReg s R_PWR_HOLD 0 (fieldMask b 1)) (releaseBlock s b) :=
  wdKeeps_ite ((wdKeeps_gateNow _ b).trans ((wdKeeps_answerGates _ b).trans (wdKeeps_raise _ _))) (.refl _)

theorem held_clrReg {b : Nat} (hw : Regs.wf s) (hb : b < 32) : held (clrReg s R_PWR_HOLD 0 (fieldMask b 1)) b = false := by
  unfold held
  rw [bit_eq_getLsbD]
  unfold clrReg
  rw [rdi_wri_same _ _ _ _ hw, BitVec.getLsbD_and, BitVec.getLsbD_not, getLsbD_fieldMask_one hb, decide_eq_true hb]
  exact Bool.and_false _

theorem held_releaseBlock {b : Nat} (hw : Regs.wf s) (hb : b < 32) : held (releaseBlock s b) b = false :=
  ((wdKeeps_releaseBlock s b).held b).trans (held_clrReg hw hb)

end

/-! ### The firing, step by step -/

section
variable {s : State} {e : Nat}

/-- The bulk engine's job is stopped (R374 step 1). -/
def wdStopped (s : State) (e : Nat) : State :=
  if e < 2 then
    match (engOf s e).job with
    | some j => completeJob (draw s).2 e j.vault j.desc .overrun 6 (min (Config.freeNat (draw s).1) j.desc.len.toNat) 0
    | none => s
  else s

/-- LANEAUTH drops its keys (R374 step 2). -/
def wdDropped (s : State) (e : Nat) : State := if e = 3 then { s with cipher := { s.cipher with cache := [] } } else s

/-- The vault's hold on the engine is cleared (R374 step 3). -/
def wdFreed (s : State) (e : Nat) : State := if held s e then releaseBlock s e else s

/-- The firing is counted, raised and entered in the ledger (R374 step 4). -/
def wdNoted (s : State) (e : Nat) : State :=
  queueEntry (raise (if e < 2 then statInc s (ciph R_CIPH_WD_CNT e) else s) .engineWd) (.tamper 2 e)

/-- The times of the firings of the last second, with the one now. -/
def wdFirings (s : State) : List Nat := s.time.ticks :: s.cipher.firings.filter fun t => decide (s.time.ticks - t < 250000000)

/-- The firing's time is kept; the third within a second is a cause of QUARANTINE. -/
def wdJudged (s : State) : State :=
  let u := { s with cipher := { s.cipher with firings := wdFirings s } }
  if (wdFirings s).length ≥ 3 then causeArises u .engine else u

theorem exec_engineWd_fires (e : Fin 4) (hr : running s = true) (h : e.val < 2 → (engOf s e).job.isSome = true ∨ held s e = true) :
    exec (.engineWd e) s = .next (wdJudged (wdNoted (wdFreed (wdDropped (wdStopped (begin_ s) e) e) e) e)) := by
  have hg : ¬ (e.val < 2 ∧ (engOf (begin_ s) e).job.isNone = true ∧ (! held (begin_ s) e) = true) := by
    rintro ⟨he, hj, hh⟩
    obtain hs | hs := h he
    · exact absurd hj (by rw [Option.isNone_iff_eq_none]; exact Option.isSome_iff_ne_none.mp hs)
    · exact Bool.noConfusion (hs.symm.trans ((Bool.not_eq_true' _).mp hh))
  rw [exec_engineWd]
  unfold execEngineWd
  rw [whenRunning_running hr]
  refine (congrArg Host.Outcome.next (if_neg hg)).trans ?_
  rfl

theorem wdKeeps_wdStopped (s : State) (e : Nat) : WdKeeps s (wdStopped s e) := by
  refine wdKeeps_ite ?_ (.refl s)
  split
  · exact WdKeeps.trans (t := (draw s).2) ⟨rfl, rfl, id, rfl⟩ (wdKeeps_completeJob _ _ _ _ _ _ _ _)
  · exact .refl s

theorem wdKeeps_wdDropped (s : State) (e : Nat) : WdKeeps s (wdDropped s e) := wdKeeps_ite ⟨rfl, rfl, fun _ => rfl, rfl⟩ (.refl s)

theorem cache_wdDropped (s : State) : (wdDropped s 3).cipher.cache = [] := rfl

theorem wdKeeps_wdNoted (s : State) (e : Nat) : WdKeeps s (wdNoted s e) :=
  (wdKeeps_ite (wdKeeps_statInc s (ciph_ne_hold e (by decide))) (.refl s)).trans ((wdKeeps_raise _ _).trans (wdKeeps_queueEntry _ _))

/-- A freed engine keeps clocks and earlier firings, and its key cache if it is empty. -/
theorem wdFreed_keeps (s : State) (e : Nat) : (wdFreed s e).time = s.time ∧ (wdFreed s e).cipher.firings = s.cipher.firings ∧
    (s.cipher.cache = [] → (wdFreed s e).cipher.cache = []) := by
  unfold wdFreed
  split
  · exact ⟨(wdKeeps_releaseBlock s e).time, (wdKeeps_releaseBlock s e).firings, (wdKeeps_releaseBlock s e).cache⟩
  · exact ⟨rfl, rfl, id⟩

theorem held_wdFreed (hw : Regs.wf s) (he : e < 32) : held (wdFreed s e) e = false := by
  unfold wdFreed
  split
  · exact held_releaseBlock hw he
  · next h => exact Bool.eq_false_iff.mpr h

theorem regs_wdDropped_wdStopped (h : s.Sound) : Regs.wf (wdDropped (wdStopped s e) e) := by
  have hk : Kept True soundMark (wdStopped s e) := by
    unfold wdStopped
    split
    · split
      · exact completeJob_kept _ _ _ _ _ _ _ _ (draw_kept _ (kept_soundMark_iff.mpr h))
      · exact kept_soundMark_iff.mpr h
    · exact kept_soundMark_iff.mpr h
  have hw : Regs.wf (wdStopped s e) := (kept_soundMark_iff.mp hk).regs
  unfold wdDropped
  split
  · exact hw
  · exact hw

theorem wdJudged_cipher (s : State) : (wdJudged s).cipher = { s.cipher with firings := wdFirings s } := by
  unfold wdJudged
  dsimp only
  split
  · exact (causeKeeps_causeArises _ _).cipher
  · rfl

theorem held_wdJudged (s : State) : held (wdJudged s) e = held s e := by
  have h : rdi (wdJudged s) R_PWR_HOLD 0 = rdi s R_PWR_HOLD 0 := by
    unfold wdJudged
    dsimp only
    split
    · exact (causeKeeps_causeArises _ _).hold
    · rfl
  exact congrArg (fun w => decide (bitsOf w e 1 = 1)) h

theorem begin_sound (h : s.Sound) : (begin_ s).Sound := kept_soundMark_iff.mp (begin__kept s (kept_soundMark_iff.mpr h))

/-- The watchdog's firing: the keys LANEAUTH held are gone, the engine is not held, and the firing is noted. -/
theorem exec_engineWd_done (e : Fin 4) (hs : s.Inv) (hr : running s = true) (h : e.val < 2 → (engOf s e).job.isSome = true ∨ held s e = true) :
    ∃ u, exec (.engineWd e) s = .next u ∧ (e = 3 → u.cipher.cache = []) ∧ held u e = false ∧
      u.cipher.firings = wdFirings s ∧ u.map = s.map := by
  have hx := exec_engineWd_fires e hr h
  refine ⟨_, hx, fun h3 => ?_, ?_, ?_, exec_map_eq rfl hx⟩
  · rw [wdJudged_cipher]
    refine (wdKeeps_wdNoted _ _).cache ((wdFreed_keeps _ _).2.2 ?_)
    rw [h3]
    exact cache_wdDropped _
  · rw [held_wdJudged, (wdKeeps_wdNoted _ _).held]
    exact held_wdFreed (regs_wdDropped_wdStopped (s := begin_ s) (begin_sound hs.sound)) (by omega)
  · have h1 := (wdKeeps_wdStopped (begin_ s) e).trans (wdKeeps_wdDropped _ e)
    have h2 := wdFreed_keeps (wdDropped (wdStopped (begin_ s) e) e) e
    have h3 := wdKeeps_wdNoted (wdFreed (wdDropped (wdStopped (begin_ s) e) e) e) e
    rw [wdJudged_cipher]
    change wdFirings _ = wdFirings s
    unfold wdFirings
    rw [h3.time, h3.firings, h2.1, h2.2.1, h1.time, h1.firings]
    rfl

end

end Sys2Proof.Machine
end

section
namespace Sys2Proof.Machine

/-! ## The cipher engines (R357 to R373) -/

section
variable {s : State} {e : Nat}

/-! ### Key registers and the ring's tail (R359, R365) -/

theorem exec_ciphKctlWrite_running (e : Fin 2) (w : Word) (hr : running s = true) :
    exec (.ciphKctlWrite e w) s = .next (kctlSet (begin_ s) e w) := next_whenRunning_running hr _

theorem kctlSet_reserved {w : Word} (h : bitsOf w 0 2 = 3) : kctlSet s e w = raise s .reservedEnc := if_pos h

theorem kctlSet_length {w : Word} (h : bitsOf w 0 2 ≠ 3) : kctlSet s e w =
    let u := (List.range 8).foldl (fun s k => wr s (ciph R_CIPH_KEYW0 e + 4 * k) 0) s
    let v := setFld (setFld u (ciph R_CIPH_KCTL e) 0 2 (bitsOf w 0 2)) (ciph R_CIPH_KCTL e) 16 1 0
    setEng v e { engOf v e with written := 0 } := if_neg h

theorem exec_ciphKeywWrite_running (e : Fin 2) (k : Fin 8) (w : Word) (hr : running s = true) :
    exec (.ciphKeywWrite e k w) s = .next (keywSet (begin_ s) e k w) := next_whenRunning_running hr _

theorem keywSet_beyond {k : Nat} (w : Word) (h : klenWords s e ≤ k) : keywSet s e k w = s := if_pos h

/-- The state with one more word of the key written. -/
def wordWritten (s : State) (e k : Nat) (w : Word) : State :=
  let u := wr s (ciph R_CIPH_KEYW0 e + 4 * k) w
  setEng u e { engOf u e with written := (engOf s e).written ||| BitVec.ofNat 8 (2 ^ k) }

/-- The written word is the last one of the key's length that was outstanding. -/
def LastWord (s : State) (e k : Nat) : Prop :=
  let new := (engOf s e).written ||| BitVec.ofNat 8 (2 ^ k)
  let all : BitVec 8 := BitVec.ofNat 8 (2 ^ klenWords s e - 1)
  new = all ∧ (engOf s e).written ≠ all

theorem keywSet_word {k : Nat} (w : Word) (h : k < klenWords s e) (hl : ¬ LastWord s e k) : keywSet s e k w = wordWritten s e k w :=
  (if_neg (Nat.not_le.mpr h)).trans (if_neg hl)

theorem keywSet_lastWord {k : Nat} (w : Word) (h : k < klenWords s e) (hl : LastWord s e k) : keywSet s e k w =
    let v := wordWritten s e k w
    setFld (setFld v (ciph R_CIPH_KCTL e) 16 1 1) (ciph R_CIPH_KCTL e) 8 8 (fld v (ciph R_CIPH_KCTL e) 8 8 + 1) :=
  (if_neg (Nat.not_le.mpr h)).trans (if_pos hl)

theorem exec_ciphSqTailWrite_running (e : Fin 2) (i : BitVec 12) (ids : List Word) (hr : running s = true) :
    exec (.ciphSqTailWrite e i ids) s = .next (sqTailSet (begin_ s) e i.toNat ids) := next_whenRunning_running hr _

theorem sqTailSet_ungated {i : Nat} (ids : List Word) (h : ungated s e = true) :
    sqTailSet s e i ids = setFld s (ciph R_CIPH_SQ_TAIL e) 0 12 i := if_pos (.inl h)

/-! ### Bulk jobs (R357, R360 to R362) -/

theorem exec_bulkJobStart_normal (e : Fin 2) (d : BulkDesc) (hr : running s = true) (hj : (engOf s e).job = none) (hh : held s e = false)
    (hg : ungated s e = true) (hd : dmaUp s = true) (hring : fld s (ciph R_CIPH_RING_CFG e) 0 4 ≠ 0)
    (hne : fld s (ciph R_CIPH_SQ_HEAD e) 0 12 ≠ fld s (ciph R_CIPH_SQ_TAIL e) 0 12) :
    exec (.bulkJobStart e false d) s = .next (
      let u := setFld (begin_ s) (ciph R_CIPH_SQ_HEAD e) 0 12 ((fld s (ciph R_CIPH_SQ_HEAD e) 0 12 + 1) % sqSize s e)
      startNormal (setEng u e { engOf u e with lastVault := false }) e d) := by
  have hidle : ¬ (engOf (begin_ s) e).job.isSome = true := fun h => Option.isSome_iff_ne_none.mp h hj
  refine (next_whenRunning_running hr _).trans (congrArg Host.Outcome.next ((if_neg hidle).trans ((if_neg Bool.false_ne_true).trans (if_neg ?_))))
  rintro (h | h | h | h | h)
  · exact Bool.false_ne_true (hh.symm.trans h)
  · exact bnot_ne_true hg h
  · exact bnot_ne_true hd h
  · exact hring h
  · exact hne h

theorem startNormal_taken {d : BulkDesc} (hf : descFormed d = true) (hk : bb d.flags 0 = false) (hrange : descRange s d = none)
    (hl : bit s (ciph R_CIPH_KCTL e) 0 16 = true) (hg : fld s (ciph R_CIPH_KCTL e) 8 8 = d.kgen.toNat) :
    startNormal s e d = setJobOn (setEng s e { engOf s e with job := some { vault := false, desc := d, key := engineKey s e } }) e true := by
  unfold startNormal
  rw [if_neg (bnot_ne_true hf), if_neg (ne_true_of_eq_false hk), hrange]
  exact if_neg fun h => h.elim (bnot_ne_true hl) fun h => h hg

/-- The key of a vault job: the delivered one, or the engine's. -/
def vaultJobKey (s : State) (e : Nat) (d : BulkDesc) : List Byte :=
  if bb d.flags 0 then (slotOf s d.slot.toNat).key else engineKey s e

theorem startVault_taken {d : BulkDesc} (hf : descFormed d = true)
    (hk : bb d.flags 0 = true → delivery s d.slot.toNat (4 + e) (modeUsage d.mode.toNat) = .ok) :
    startVault s e d = setEng s e { engOf s e with job := some { vault := true, desc := d, key := vaultJobKey s e d } } := by
  have hst : (if bb d.flags 0 = true then delivery s d.slot.toNat (4 + e) (modeUsage d.mode.toNat) else .ok) = Status.ok := by
    split
    · next h => exact hk h
    · rfl
  exact (if_neg (bnot_ne_true hf)).trans (if_neg fun h => h hst)

theorem exec_bulkJobStart_vault (e : Fin 2) (d : BulkDesc) (hr : running s = true) (hj : (engOf s e).job = none)
    (hg : held s e = true ∨ ungated s e = true) :
    exec (.bulkJobStart e true d) s = .next (startVault (setEng (begin_ s) e { engOf s e with lastVault := true }) e d) := by
  have hidle : ¬ (engOf (begin_ s) e).job.isSome = true := fun h => Option.isSome_iff_ne_none.mp h hj
  exact (next_whenRunning_running hr _).trans (congrArg Host.Outcome.next ((if_neg hidle).trans ((if_pos rfl).trans (if_pos hg))))

theorem exec_bulkJobComplete_job (e : Fin 2) {j : Job} (src aad tag : List Byte) (hr : running s = true) (hj : (engOf s e).job = some j)
    (hd : j.vault = true ∨ dmaUp s = true) :
    exec (.bulkJobComplete e ⟨src, aad, tag⟩) s = .next (
      let d := j.desc
      let x := jobResult j (padTo d.len.toNat src) (padTo d.aadlen.toNat aad) (padTo d.taglen.toNat tag)
      let u := jobOut (jobOut (if j.vault then begin_ s else dmaGood (begin_ s)) j d.dst x.1) j d.tag x.2.1
      completeJob u e j.vault d (if x.2.2 then .ok else .integrity)
        (if x.2.2 then 0 else if d.mode.toNat = 2 then 3 else 1) d.len.toNat 0) := by
  have hup : ¬ (! j.vault && ! dmaUp (begin_ s)) = true := by
    rw [Bool.and_eq_true]
    exact fun h => hd.elim (fun hv => bnot_ne_true hv h.1) fun hu => bnot_ne_true hu h.2
  have hj' : (engOf (begin_ s) e).job = some j := hj
  refine (next_whenRunning_running hr _).trans (congrArg Host.Outcome.next ?_)
  rw [hj']
  exact if_neg hup

/-! ### Storage, profiles and keys (R367, R372, R373) -/

/-- The status of a sector job. -/
def storeStatus (s : State) (slot : BitVec 9) (first : BitVec 64) (n : Nat) (dec : Bool) : Status :=
  if n = 0 ∨ n > 2048 ∨ first.toNat + n > 2 ^ 64 then .range else delivery s slot.toNat 6 (if dec then useDec else useEnc)

theorem exec_storeJob_refused {slot : BitVec 9} {first : BitVec 64} {n : Nat} {dec : Bool} {st : Status} (src : List Byte)
    (hr : running s = true) (hst : storeStatus s slot first n dec = st) (h : st ≠ .ok) :
    exec (.storeJob slot first ⟨n, src⟩ dec) s = .next { begin_ s with cipher := { s.cipher with storeLast := st.code } } := by
  subst hst
  exact (next_whenRunning_running hr _).trans (congrArg Host.Outcome.next (if_pos h))

theorem exec_storeJob_done {slot : BitVec 9} {first : BitVec 64} {n : Nat} {dec : Bool} (src : List Byte)
    (hr : running s = true) (hst : storeStatus s slot first n dec = .ok) :
    exec (.storeJob slot first ⟨n, src⟩ dec) s = .next { begin_ s with
      cipher := { s.cipher with storeLast := Status.ok.code },
      out := { Outp.none with vault := xts (slotOf s slot.toNat).key dec first.toNat (padTo (4096 * n) src) } } := by
  rw [← hst]
  exact (next_whenRunning_running hr _).trans (congrArg Host.Outcome.next (if_neg fun h => h hst))

theorem exec_laSave_running (hr : running s = true) : exec .laSave s = .next (laSaveNow (begin_ s)) := next_whenRunning_running hr _

theorem exec_laneauthKeyLoad_running (p : BitVec 10) (hr : running s = true) :
    exec (.laneauthKeyLoad p) s = .next (
      let u := { begin_ s with cipher := { s.cipher with waits := s.cipher.waits.filter fun x => decide (x.1 ≠ p.toNat) } }
      (s.cipher.waits.filter fun x => decide (x.1 = p.toNat)).foldl (fun s x => laResume s x.2)
        (if laKeyOk u p.toNat useMacVer || laKeyOk u p.toNat useMacGen then laTouch u p.toNat else u)) :=
  next_whenRunning_running hr _

end

/-- Settles O38: each command is its branch of the model while the device runs; the watchdog's firing is followed through its steps. -/
theorem cipherEngines : Obligations.CipherEngines := by
  unfold Obligations.CipherEngines
  refine ⟨fun s e w hr => ⟨exec_ciphKctlWrite_running e w hr, kctlSet_reserved, kctlSet_length⟩,
    fun s e k w hr => ⟨exec_ciphKeywWrite_running e k w hr, keywSet_beyond (s := begin_ s) w, fun h => ⟨fun hl => ?_, fun h1 h2 => ?_⟩⟩,
    fun s e i ids hr => ⟨exec_ciphSqTailWrite_running e i ids hr, sqTailSet_ungated (s := begin_ s) ids⟩,
    fun s e d => exec_bulkJobStart_normal e d, fun s e d => startNormal_taken, fun s e d hr hj hg hf hk => ?_,
    fun s e j src aad tag => exec_bulkJobComplete_job e src aad tag, fun s slot first n dec src hr => ⟨fun h => ?_, fun h hst => ?_, fun h hst => ?_⟩,
    fun s e => exec_engineWd_done e, fun s => exec_laSave_running, fun s p => exec_laneauthKeyLoad_running p⟩
  · exact keywSet_word (s := begin_ s) w h fun hw => hl.elim (fun hn => hn hw.1) fun ho => hw.2 ho
  · exact keywSet_lastWord (s := begin_ s) w h ⟨h1, h2⟩
  · rw [exec_bulkJobStart_vault e d hr hj hg]
    exact congrArg Host.Outcome.next (startVault_taken (s := setEng (begin_ s) e { engOf s e with lastVault := true }) hf hk)
  · exact exec_storeJob_refused src hr (if_pos h) (by decide)
  · exact exec_storeJob_refused src hr (if_neg h) hst
  · exact exec_storeJob_done src hr ((if_neg h).trans hst)

end Sys2Proof.Machine
end

section
namespace Sys2Proof.Machine

/-! ## Update messages (R345 to R348) -/

/-- A state that keeps the slots of another holds them. -/
theorem slots_of_kept {s t : State} (h : Kept False (storesMark none none none (some s.vault.slots)) t) :
    t.vault.slots = s.vault.slots := h.slots _ rfl

section
variable {s t : State} {m : KeyMsg}

/-! ### The checks of a message (R347) -/

theorem ite_ok {p : Prop} [Decidable p] {st x : Status} (h : (if p then st else x) = .ok) (hst : p → st ≠ .ok) : ¬ p ∧ x = .ok := by
  by_cases hp : p
  · rw [if_pos hp] at h
    exact absurd h (hst hp)
  · rw [if_neg hp] at h
    exact ⟨hp, h⟩

/-- A message whose checks pass is well formed and its UCNT is later than its slot's. -/
theorem checkMsg_ok (h : checkMsg s m = .ok) : msgFormed m = true ∧ (slotOf s m.target.toNat).ucnt.toNat < m.ucnt.toNat := by
  unfold checkMsg at h
  dsimp only at h
  obtain ⟨formed, h⟩ := ite_ok h fun _ => by decide
  obtain ⟨-, h⟩ := ite_ok h fun _ => by decide
  obtain ⟨-, h⟩ := ite_ok h fun _ => by decide
  obtain ⟨-, h⟩ := ite_ok h fun _ => by decide
  obtain ⟨-, h⟩ := ite_ok h id
  obtain ⟨-, h⟩ := ite_ok h fun _ => by decide
  obtain ⟨-, h⟩ := ite_ok h fun _ => by decide
  obtain ⟨later, -⟩ := ite_ok h fun _ => by decide
  exact ⟨by simpa using formed, not_not.mp later⟩

/-- The number of the authorising slot: KS000 on the transport path. -/
def authSlot (m : KeyMsg) : Nat := if m.auth.toNat = 2 then 0 else m.auth.toNat

theorem authSlot_lt (h : msgFormed m = true) : authSlot m < 512 := by
  have ha : m.auth.toNat < 512 := by
    unfold msgFormed at h
    simp only [Bool.and_eq_true, decide_eq_true_eq] at h
    exact h.1.1.1.1.1.2
  unfold authSlot
  split <;> omega

/-! ### The slot that an accepted message gives (R340, R342, R348) -/

/-- The low word of the attributes: the message's with its ORIGIN, or, of an INVALIDATE, the slot's. -/
def newLow (s : State) (m : KeyMsg) : BitVec 64 :=
  if m.op.toNat = 3 then (slotOf s m.target.toNat).attr &&& 0xFFFFFFFF
  else m.attr.setWidth 64 ||| (if m.op.toNat = 1 then BitVec.ofNat 64 (2 ^ 20) else 0)

/-- The slot's GEN reached 0xFFFF, or its UCNT is all ones. -/
def closes (s : State) (m : KeyMsg) : Bool :=
  decide ((slotOf s m.target.toNat).gen + 1 = 0xFFFF) || decide (m.ucnt = 0xFFFFFFFF)

/-- The key of a slot that does not close, with draw `d` of the random generator. -/
def newKey (s : State) (m : KeyMsg) (d : Nat) : List Byte :=
  if m.op.toNat = 3 then (slotOf s m.target.toNat).key else if m.op.toNat = 1 then msgPlain s m else randomKey (bitsOf m.attr 0 4) d

/-- What the slot receives. -/
def newSlot (s : State) (m : KeyMsg) (d : Nat) : Slot :=
  { attr := newLow s m ||| BitVec.ofNat 64 (authSlot m * 2 ^ 32 + (slotOf s (authSlot m)).gen.toNat * 2 ^ 48),
    gen := (slotOf s m.target.toNat).gen + 1, ucnt := m.ucnt, final := closes s m, key := if closes s m then [] else newKey s m d }

theorem updateSlot_eq (s : State) (m : KeyMsg) : updateSlot s m =
    let u := setSlot (storeRecordOf (draw s).2) m.target.toNat (newSlot s m s.fresh)
    if closes s m then raise u .slotFinal else u := rfl

theorem newLow_lt (s : State) (m : KeyMsg) : (newLow s m).toNat < 2 ^ 32 := by
  unfold newLow
  split
  · rw [BitVec.toNat_and]
    exact Nat.lt_of_le_of_lt Nat.and_le_right (by decide)
  · have ha : (m.attr.setWidth 64).toNat < 2 ^ 32 := by
      rw [BitVec.toNat_setWidth]
      omega
    rw [BitVec.toNat_or]
    refine Nat.or_lt_two_pow ha ?_
    split <;> decide

/-- The high word of the new attributes names the authorising slot and its GEN. -/
theorem toNat_newAttr {d : Nat} (h : authSlot m < 512) : (newSlot s m d).attr.toNat =
    2 ^ 32 * (authSlot m + 2 ^ 16 * (slotOf s (authSlot m)).gen.toNat) + (newLow s m).toNat := by
  have hg : (slotOf s (authSlot m)).gen.toNat < 2 ^ 16 := (slotOf s (authSlot m)).gen.isLt
  have hh : (BitVec.ofNat 64 (authSlot m * 2 ^ 32 + (slotOf s (authSlot m)).gen.toNat * 2 ^ 48)).toNat =
      2 ^ 32 * (authSlot m + 2 ^ 16 * (slotOf s (authSlot m)).gen.toNat) := by
    rw [BitVec.toNat_ofNat]
    omega
  unfold newSlot
  dsimp only
  rw [BitVec.toNat_or, hh, Nat.lor_comm, Nat.two_pow_add_eq_or_of_lt (newLow_lt s m)]

theorem sParent_newSlot {d : Nat} (h : authSlot m < 512) : sParent (newSlot s m d) = authSlot m := by
  have hl := newLow_lt s m
  unfold sParent bf
  rw [toNat_newAttr h]
  omega

theorem sPgen_newSlot {d : Nat} (h : authSlot m < 512) : sPgen (newSlot s m d) = (slotOf s (authSlot m)).gen.toNat := by
  have hl := newLow_lt s m
  have hg : (slotOf s (authSlot m)).gen.toNat < 2 ^ 16 := (slotOf s (authSlot m)).gen.isLt
  unfold sPgen bf
  rw [toNat_newAttr h]
  omega

theorem newSlot_eq_of_slots {d : Nat} (h : t.vault.slots = s.vault.slots) : newSlot t m d = newSlot s m d := by
  unfold newSlot newLow closes newKey msgPlain msgKey
  simp only [slotOf_eq_of_slots h]

theorem slotOf_updateSlot (h : (slotOf s m.target.toNat).ucnt.toNat < m.ucnt.toNat) :
    slotOf (updateSlot s m) m.target.toNat = newSlot s m s.fresh := by
  have hne : newSlot s m s.fresh ≠ Slot.empty := fun e => by
    have hu : m.ucnt = 0 := congrArg Slot.ucnt e
    rw [hu] at h
    exact Nat.not_lt_zero _ h
  have hset : slotOf (setSlot (storeRecordOf (draw s).2) m.target.toNat (newSlot s m s.fresh)) m.target.toNat = newSlot s m s.fresh :=
    tget_tset_ne _ _ hne
  rw [updateSlot_eq]
  dsimp only
  split
  · rw [slotOf_eq_of_slots (congrArg Vault.slots (raise_vault _ _)), hset]
  · exact hset

/-! ### The message carried out -/

/-- The state in which the accepted message's slot is written: its entry has been committed. -/
def updateNoted (s : State) (m : KeyMsg) : State :=
  commitEntry s (updateEntry m .ok ((slotOf s m.target.toNat).gen + 1).toNat m.ucnt.toNat)

/-- The state after the slot was written, with what its old key served stopped. -/
def updateWritten (s : State) (m : KeyMsg) : State :=
  closeForKey (keyChanged (updateSlot (updateNoted s m) m) m.target.toNat) m.target.toNat

theorem submitUpdate_accepted (hc : checkMsg s m = .ok) (hg : m.op = 2 → s.vault.rngFailed = false)
    (hr : ledgerLive s = true → ledgerRoom s = true) (ho : m.commitOk = true) : submitUpdate s m =
      (noteUpdate (confirmation (updateWritten s m) m).2 m .ok, .ok, (confirmation (updateWritten s m) m).1) := by
  have hrng : ¬ (m.op.toNat = 2 ∧ s.vault.rngFailed = true) := fun h =>
    Bool.noConfusion ((hg (BitVec.eq_of_toNat_eq h.1)).symm.trans h.2)
  have hroom : ¬ (ledgerLive s && ! ledgerRoom s) = true := by
    rw [Bool.and_eq_true]
    exact fun h => bnot_ne_true (hr h.1) h.2
  unfold submitUpdate
  dsimp only
  rw [hc]
  exact (if_neg hrng).trans ((if_neg hroom).trans (if_neg (bnot_ne_true ho)))

/-- What follows the write of the slot changes no slot. -/
theorem slots_accepted (s : State) (m : KeyMsg) :
    (noteUpdate (confirmation (updateWritten s m) m).2 m .ok).vault.slots = (updateSlot (updateNoted s m) m).vault.slots :=
  slots_of_kept (noteUpdate_kept _ _ _ (confirmation_kept _ _ (closeForKey_kept _ _ (keyChanged_kept _ _ (kept_own_slots _)))))

theorem slotOf_accepted (hc : checkMsg s m = .ok) :
    slotOf (noteUpdate (confirmation (updateWritten s m) m).2 m .ok) m.target.toNat = newSlot s m (updateNoted s m).fresh := by
  have hs : (updateNoted s m).vault.slots = s.vault.slots := congrArg Vault.slots (commitEntry_vault s _)
  rw [slotOf_eq_of_slots (slots_accepted s m), slotOf_updateSlot (by rw [slotOf_eq_of_slots hs]; exact (checkMsg_ok hc).2),
    newSlot_eq_of_slots hs]

theorem submitUpdate_refused (h : checkMsg s m ≠ .ok) : submitUpdate s m =
    (noteUpdate (queueEntry s (updateEntry m (checkMsg s m) (slotOf s m.target.toNat).gen.toNat (slotOf s m.target.toNat).ucnt.toNat))
      m (checkMsg s m), checkMsg s m, []) := by
  unfold submitUpdate
  dsimp only
  split
  · next e => exact absurd e h
  · rfl

end

/-- Settles O36: the slot of an accepted message is `newSlot`, and nothing after its write changes a slot. -/
theorem keyUpdateWritesTheSlot : Obligations.KeyUpdateWritesTheSlot := by
  unfold Obligations.KeyUpdateWritesTheSlot
  refine ⟨fun s m hc hg hr ho => ?_, fun s m h => ?_⟩
  · have hpar : authSlot m < 512 := authSlot_lt (checkMsg_ok hc).1
    dsimp only
    rw [submitUpdate_accepted hc hg hr ho]
    dsimp only
    rw [slotOf_accepted hc]
    refine ⟨rfl, rfl, rfl, sParent_newSlot hpar, sPgen_newSlot hpar, rfl, fun hf => if_pos hf, fun h1 hf => ?_, fun h3 hf => ?_, fun h2 hf => ⟨(updateNoted s m).fresh, ?_⟩⟩
    · refine (if_neg (ne_true_of_eq_false hf)).trans ?_
      unfold newKey
      rw [h1]
      rfl
    · refine (if_neg (ne_true_of_eq_false hf)).trans ?_
      unfold newKey
      rw [h3]
      rfl
    · refine (if_neg (ne_true_of_eq_false hf)).trans ?_
      unfold newKey
      rw [h2]
      rfl
  · rw [submitUpdate_refused h]
    exact ⟨rfl, slots_of_kept (noteUpdate_kept _ _ _ (queueEntry_kept _ _ (kept_own_slots s)))⟩

end Sys2Proof.Machine
end

section
namespace Sys2Proof.Machine

/-! ## A committed entry and the registers (R436, R440) -/

section
variable {s : State}

/-- Registers below the event banks, apart from LDG_WR and EVT_MONO, are no part of a commit. -/
theorem rdi_useSeq {a : Nat} (ha : a < R_EVT_PEND) (hm : a ≠ R_EVT_MONO) : rdi (useSeq s) a 0 = rdi s a 0 := by
  have hmono (u : State) : rdi (monoFinal u 2) a 0 = rdi u a 0 :=
    (rdi_raiseN_below _ _ 0 ha (by decide)).trans (rd_setFld_other u 0 4 2 hm)
  unfold useSeq
  dsimp only
  split
  · split
    · rfl
    · exact hmono _
  · rfl

theorem rdi_commitOne {a : Nat} (q : Entry) (ha : a < R_EVT_PEND) (hm : a ≠ R_EVT_MONO) (hw : a ≠ R_LDG_WR) : rdi (commitOne s q) a 0 = rdi s a 0 := by
  have hcount (u : State) : rdi (statInc u R_LDG_WR) a 0 = rdi u a 0 := rd_wr_other u _ hw
  unfold commitOne
  dsimp only
  rw [rdi_useSeq ha hm]
  split
  · exact (rdi_raiseN_below _ _ 0 ha (by decide)).trans (hcount _)
  · exact hcount _

theorem rdi_commitHead {a : Nat} (ha : a < R_EVT_PEND) (hm : a ≠ R_EVT_MONO) (hw : a ≠ R_LDG_WR) : rdi (commitHead s) a 0 = rdi s a 0 := by
  unfold commitHead
  split
  · rfl
  · split
    · exact rdi_commitOne _ ha hm hw
    · rfl

theorem rdi_commitN {a : Nat} (ha : a < R_EVT_PEND) (hm : a ≠ R_EVT_MONO) (hw : a ≠ R_LDG_WR) : ∀ (n : Nat) (s : State), rdi (commitN n s) a 0 = rdi s a 0
  | 0, _ => rfl
  | n + 1, _ => (rdi_commitN ha hm hw n _).trans (rdi_commitHead ha hm hw)

theorem rdi_commitEntry {a : Nat} (p : Payload) (ha : a < R_EVT_PEND) (hm : a ≠ R_EVT_MONO) (hw : a ≠ R_LDG_WR) : rdi (commitEntry s p) a 0 = rdi s a 0 :=
  (rdi_commitN ha hm hw _ _).trans (congrArg (tabGet rfCold · _) (queueEntry_rf s p))

end

/-! ## A new root (R334, R336) -/

section
variable {s : State}

/-- A new root from the random generator, with an empty slot store and an empty ledger. -/
def rootDrawn (s : State) : State :=
  let (d, s) := draw s
  { s with
    vault := { s.vault with
      root := randBytes d 32, rootCheck := checkOf (randBytes d 32), storeSeq := 0, storeChain := List.replicate 32 0, rootPresent := true, storeOk := true, slotsReady := true, slots := [], groupTampered := false },
    boot := { s.boot with rootAbsent := false },
    ledger := { s.ledger with
      head := none, headMac := 0, oldest := 0, nextSeq := 0, final := false, sealed := false, ring := [], queue := [] } }

/-- KS000 to KS004 are derived from the new root. -/
def rootDerived (s : State) : State := deriveSlots (wr (rootDrawn s) R_VLT_TAMPER 0)

/-- KS010 is as R121 gives it. -/
def rootKeyed (s : State) : State :=
  if sType (slotOf s 10) = 0 then rootDerived s else setSlot (rootDerived s) 10 { slotOf s 10 with gen := 0, ucnt := 0 }

theorem provision_eq (s : State) : provision s = commitEntry (rootKeyed s) .genesis := rfl

/-- The derived record of slot `k`. -/
def derivedSlot (s : State) (k : Nat) : Slot := { Slot.empty with attr := fixedAttr k, key := derivedKey s k }

/-- Writing slots leaves the vault's other parts and the fuses. -/
structure SlotsOnly (s t : State) : Prop where
  root : t.vault.root = s.vault.root
  present : t.vault.rootPresent = s.vault.rootPresent
  fuses : t.fuses = s.fuses
  boot : t.boot = s.boot
  rf : t.rf = s.rf

theorem slotsOnly_setSlot {s t : State} (h : SlotsOnly s t) (k : Nat) (x : Slot) : SlotsOnly s (setSlot t k x) :=
  ⟨h.root, h.present, h.fuses, h.boot, h.rf⟩

theorem uidBytes_of_fuses {s t : State} (h : t.fuses = s.fuses) : uidBytes t = uidBytes s := by
  unfold uidBytes fuseWord
  rw [h]

theorem derivedKey_of_slotsOnly {s t : State} (h : SlotsOnly s t) (k : Nat) : derivedKey t k = derivedKey s k := by
  unfold derivedKey
  dsimp only
  rw [h.root, uidBytes_of_fuses h.fuses]

/-- One more derived slot. -/
def deriveOne (s : State) (k : Nat) : State := setSlot s k (derivedSlot s k)

theorem deriveSlots_eq (s : State) : deriveSlots s = [0, 1, 2, 3, 4].foldl deriveOne s := rfl

theorem slotsOnly_derive (l : List Nat) : ∀ {t : State}, SlotsOnly s t → SlotsOnly s (l.foldl deriveOne t) := by
  induction l with
  | nil => exact id
  | cons k l ih => exact fun h => ih (slotsOnly_setSlot h k _)

theorem slotOf_setSlot_other (s : State) {j k : Nat} (x : Slot) (h : k ≠ j) : slotOf (setSlot s j x) k = slotOf s k :=
  tget_tset_other _ _ h

/-- A slot outside the derived ones stays. -/
theorem slotOf_derive_other (l : List Nat) {k : Nat} (h : k ∉ l) : ∀ t : State, slotOf (l.foldl deriveOne t) k = slotOf t k := by
  induction l with
  | nil => exact fun _ => rfl
  | cons j l ih =>
    intro t
    rw [List.mem_cons, not_or] at h
    exact (ih h.2 _).trans (slotOf_setSlot_other t _ h.1)

/-- A derived slot holds its record, with the root and the UID before the derivation. -/
theorem slotOf_derive_mem (l : List Nat) {k : Nat} (hk : k ∈ l) (hn : l.Nodup) (ha : fixedAttr k ≠ 0) :
    ∀ {t : State}, SlotsOnly s t → slotOf (l.foldl deriveOne t) k = derivedSlot s k := by
  induction l with
  | nil => cases hk
  | cons j l ih =>
    intro t ht
    obtain ⟨hj, hn⟩ := List.nodup_cons.mp hn
    rcases List.mem_cons.mp hk with rfl | hm
    · have hd : derivedSlot t k = derivedSlot s k := by
        unfold derivedSlot
        rw [derivedKey_of_slotsOnly ht]
      refine (slotOf_derive_other l hj _).trans ((tget_tset_ne _ _ fun e => ?_).trans hd)
      exact ha (congrArg Slot.attr e)
    · exact ih hm hn (slotsOnly_setSlot ht j _)

theorem slotsOnly_refl (s : State) : SlotsOnly s s := ⟨rfl, rfl, rfl, rfl, rfl⟩

/-- The state whose root the slots are derived from. -/
def rootReady (s : State) : State := wr (rootDrawn s) R_VLT_TAMPER 0

theorem slotsOnly_rootKeyed (s : State) : SlotsOnly (rootReady s) (rootKeyed s) := by
  have h : SlotsOnly (rootReady s) (rootDerived s) := slotsOnly_derive [0, 1, 2, 3, 4] (slotsOnly_refl _)
  unfold rootKeyed
  split
  · exact h
  · exact slotsOnly_setSlot h 10 _

theorem slotOf_rootKeyed {k : Nat} (h : k ≠ 10) : slotOf (rootKeyed s) k = slotOf (rootDerived s) k := by
  unfold rootKeyed
  split
  · rfl
  · exact slotOf_setSlot_other _ _ h

theorem vault_provision (s : State) : (provision s).vault = (rootKeyed s).vault := by
  rw [provision_eq, commitEntry_vault]

theorem slotOf_provision {k : Nat} (h : k ≠ 10) : slotOf (provision s) k = slotOf (rootDerived s) k :=
  (slotOf_eq_of_slots (congrArg Vault.slots (vault_provision s)) k).trans (slotOf_rootKeyed h)

theorem key_provision {k : Nat} (h : k ∈ [0, 1, 2, 3, 4]) (ha : fixedAttr k ≠ 0) : (slotOf (provision s) k).key = derivedKey (rootReady s) k := by
  have h10 : k ≠ 10 := fun e => by
    rw [e] at h
    exact absurd h (by decide)
  rw [slotOf_provision h10]
  exact congrArg Slot.key (slotOf_derive_mem [0, 1, 2, 3, 4] h (by decide) ha (slotsOnly_refl (rootReady s)))

theorem slotOf_provision_empty {k : Nat} (h : 4 < k) (h10 : k ≠ 10) : slotOf (provision s) k = Slot.empty := by
  refine (slotOf_provision h10).trans (slotOf_derive_other [0, 1, 2, 3, 4] (fun hm => ?_) (rootReady s))
  simp only [List.mem_cons, List.not_mem_nil, or_false] at hm
  omega

/-- A slot without a record is EMPTY. -/
theorem slotState_of_empty {k : Nat} (h : slotOf s k = Slot.empty) : slotState s k = 0 := by
  unfold slotState
  dsimp only
  rw [h]
  rfl

theorem root_provision (s : State) : (provision s).vault.root = (rootReady s).vault.root := by
  rw [vault_provision, (slotsOnly_rootKeyed s).root]

theorem uidBytes_provision (s : State) : uidBytes (provision s) = uidBytes (rootReady s) := by
  refine uidBytes_of_fuses ?_
  rw [provision_eq, commitEntry_fuses, (slotsOnly_rootKeyed s).fuses]

theorem length_randBytes (d n : Nat) : (randBytes d n).length = n := by
  unfold randBytes
  rw [List.length_map, List.length_range]

theorem rd_tamper_provision (h : Regs.wf s) : rd (provision s) R_VLT_TAMPER = 0 := by
  have hw : Regs.wf (rootDrawn s) := h
  have hz : rd (rootKeyed s) R_VLT_TAMPER = rd (rootReady s) R_VLT_TAMPER := congrArg (tabGet rfCold · _) (slotsOnly_rootKeyed s).rf
  have hc : rd (provision s) R_VLT_TAMPER = rd (rootKeyed s) R_VLT_TAMPER := rdi_commitEntry (s := rootKeyed s) .genesis (by decide) (by decide) (by decide)
  rw [hc, hz]
  exact rdi_wri_same _ _ _ _ hw

/-! ## The commands of the vault (R333, R348, R351) -/

theorem exec_keyUpdate_served {r : Req} {role : Nat} (m : KeyMsg)
    (h : Served 0x0701 r role (judgeVault (inModes [.approach, .rented, .service, .depot])) s)
    (hl : role ≠ 0 → decide (checkMsg (heard 0x0701 r role s) m = .ok) = true → ledgerLive (heard 0x0701 r role s) = true →
      ledgerRoom (heard 0x0701 r role s) = true) :
    exec (.keyUpdate r m) s = .next (
      let changes := decide (checkMsg (heard 0x0701 r role s) m = .ok)
      let st := (submitUpdate (entered 0x0701 r role changes .ok s) m).2.1
      let x := submitUpdate (entered 0x0701 r role changes st s) m
      answer (if role = 0 then countHostDeny x.1 0 x.2.1 else x.1) r 0x0701 x.2.1 x.2.2) := by
  rw [exec_keyUpdate]
  unfold execKeyUpdate
  rw [dispatch_served h (fun e => absurd e (by decide)) fun h0 _ hc => hl h0 hc]
  unfold planDone
  dsimp only
  rw [if_neg Bool.false_ne_true]
  by_cases h0 : role = 0
  · rw [if_pos (.inl h0), if_pos h0, h0]
  · rw [if_neg (not_or.mpr ⟨h0, by decide⟩), if_neg h0]

theorem exec_keyAttest_served {r : Req} {role : Nat} {k : BitVec 16} (nonce : BitVec 256)
    (h : Served 0x0702 r role (judgeVault (inModes [.approach, .rented, .service, .depot, .quarantine])) s) (hk : k.toNat ≤ 511) :
    exec (.keyAttest r k nonce) s = .next (
      let u := audited 0x0702 r role s
      let x := signature u (statement u k.toNat nonce)
      ok 0x0702 r x.2 (statement u k.toNat nonce ++ x.1)) := by
  rw [exec_keyAttest]
  unfold execKeyAttest
  rw [dispatch_served h (fun e => absurd e (by decide)) fun _ _ hc => ?_]
  · unfold planDone
    dsimp only
    rw [if_neg (Nat.not_lt.mpr hk)]
    dsimp only
    rw [if_neg Bool.false_ne_true, countHostDeny_of_ne _ _ (by decide), ite_self]
    rfl
  · rw [if_neg (Nat.not_lt.mpr hk)] at hc
    exact Bool.noConfusion hc

/-- The new root's public keys with their signature (R336). -/
def provisionSigned (s : State) : State × List Byte :=
  let s := provision s
  let b := pubOf s 1 ++ pubOf s 2
  let (g, s) := signature s b
  (s, b ++ g)

/-- The plan of ROOT_PROVISION. -/
def provisionPlan (s : State) : Plan :=
  if s.vault.rngFailed then { status := .busy, bytes := [], changes := false, act := fun s => (raise s .rngFail, .busy, []) }
  else Plan.doBytes provisionSigned

theorem execRootProvision_eq (r : Req) (s : State) : execRootProvision r s = .next (dispatch 0x0703 r judgeProvision provisionPlan s) := rfl

theorem provisionPlan_running (h : s.vault.rngFailed = false) : provisionPlan s = Plan.doBytes provisionSigned :=
  if_neg (ne_true_of_eq_false h)

theorem exec_rootProvision_granted {r : Req} {role : Nat} (h : Granted 0x0703 r role judgeProvision s)
    (hr : (heard 0x0703 r role s).vault.rngFailed = false) :
    exec (.rootProvision r) s = .next (ok 0x0703 r (provisionSigned (admitted 0x0703 r role s)).1 (provisionSigned (admitted 0x0703 r role s)).2) := by
  rw [exec_rootProvision, execRootProvision_eq]
  exact congrArg Host.Outcome.next (dispatch_ok h (by decide) (provisionPlan_running hr))

theorem exec_rngFail_running (b : Bool) (hr : running s = true) : exec (.rngFail b) s =
    .next (queueEntry (raise { begin_ s with vault := { s.vault with rngFailed := ! b } } .rngFail) (.tamper 3 0)) :=
  next_whenRunning_running hr _

end

/-- Settles O37: the commands by the dispatcher's rule of a served request, and the new root by its derived slots. -/
theorem vaultCommands : Obligations.VaultCommands := by
  unfold Obligations.VaultCommands
  refine ⟨fun s r role m h hl => exec_keyUpdate_served m h hl, fun s r role k nonce h hk => exec_keyAttest_served nonce h hk,
    fun s r role h hr => exec_rootProvision_granted h hr, fun s hs => ?_, fun s b hr => exec_rngFail_running b hr⟩
  dsimp only
  have hroot := root_provision s
  refine ⟨?_, ?_, ?_, rd_tamper_provision hs.sound.regs, ?_, ?_, ?_, fun k h4 h10 => ?_⟩
  · rw [vault_provision, (slotsOnly_rootKeyed s).present]
    rfl
  · rw [hroot]
    exact length_randBytes s.fresh 32
  · rw [provision_eq, commitEntry_boot, (slotsOnly_rootKeyed s).boot]
    rfl
  · rw [key_provision (by decide) (by decide), hroot]
    rfl
  · rw [key_provision (by decide) (by decide), hroot, uidBytes_provision]
    rfl
  · rw [key_provision (by decide) (by decide), hroot, uidBytes_provision]
    rfl
  · have he := slotOf_provision_empty (s := s) h4 h10
    refine ⟨slotState_of_empty he, ?_, ?_⟩
    · rw [he]
      rfl
    · rw [he]
      rfl

end Sys2Proof.Machine
end
